-- ==== Sys2Proof/Word.lean ====
section
/-! DEFINITION. The word and byte types of the RJA-512 (spec/01 R34: 32-bit registers; spec/00 R6: bytes). -/
namespace Sys2Proof

/-- A 32-bit register value. -/
abbrev Word := BitVec 32

/-- One byte of frame memory or of a message. -/
abbrev Byte := BitVec 8

/-- A 64-bit fault message (spec/16 Table 16-1). -/
abbrev FaultMsg := BitVec 64

end Sys2Proof
end

