-- ==== Sys2Proof/Machine/Table.lean ====
section
/-! DEFINITION. Sparse tables in one canonical form: keys strictly rising and no entry equal to what an unlisted key
reads as, so that equal tables are equal data. Registers, units, channels and the bytes of frame memory are held so. -/
namespace Sys2Proof.Machine

/-- What key `k` of the table reads as; `d k` is what an unlisted key reads as. -/
def Tbl.get {α : Type} (d : Nat → α) : List (Nat × α) → Nat → α
  | [], k => d k
  | (j, a) :: t, k => if k = j then a else Tbl.get d t k

/-- The table without key `k`. -/
def Tbl.del {α : Type} (t : List (Nat × α)) (k : Nat) : List (Nat × α) := t.filter (fun e => decide (e.1 ≠ k))

/-- The table with key `k` listed as `v`. -/
def Tbl.put {α : Type} : List (Nat × α) → Nat → α → List (Nat × α)
  | [], k, v => [(k, v)]
  | (j, a) :: t, k, v =>
    if k = j then (k, v) :: t else if k < j then (k, v) :: (j, a) :: t else (j, a) :: Tbl.put t k v

/-- A write: the value an unlisted key reads as removes the entry. -/
def Tbl.set {α : Type} [DecidableEq α] (d : Nat → α) (t : List (Nat × α)) (k : Nat) (v : α) : List (Nat × α) :=
  if v = d k then Tbl.del t k else Tbl.put t k v

/-- Keys strictly rising, all above `lo`. -/
def Tbl.rising {α : Type} : Nat → List (Nat × α) → Bool
  | _, [] => true
  | lo, (j, _) :: t => decide (lo ≤ j) && Tbl.rising (j + 1) t

/-- The canonical form. -/
def Tbl.wf {α : Type} [DecidableEq α] (d : Nat → α) (t : List (Nat × α)) : Bool :=
  Tbl.rising 0 t && t.all (fun e => decide (e.2 ≠ d e.1))

/-- Every key of `ks` updated by `f`, in order. -/
def Tbl.mapKeys {α : Type} [DecidableEq α] (d : Nat → α) (f : Nat → α → α) (ks : List Nat)
    (t : List (Nat × α)) : List (Nat × α) :=
  ks.foldl (fun t k => Tbl.set d t k (f k (Tbl.get d t k))) t

/-- Every listed value mapped by `f`; entries that then equal the unlisted value go. -/
def Tbl.mapVals {α : Type} [DecidableEq α] (d : Nat → α) (f : Nat → α → α) (t : List (Nat × α)) : List (Nat × α) :=
  (t.map (fun e => (e.1, f e.1 e.2))).filter (fun e => decide (e.2 ≠ d e.1))

/-- The entries whose key meets `p`. -/
def Tbl.keep {α : Type} (p : Nat → Bool) (t : List (Nat × α)) : List (Nat × α) := t.filter (fun e => p e.1)

end Sys2Proof.Machine
end

