-- ==== Sys2Proof/Types.lean ====
section
/-! DEFINITION. The operand types of the commands: samples, pin voltages, messages, requests. Instants are cell time in nanoseconds
unless a field says otherwise. -/
namespace Sys2Proof

/-- One decimated sample of a resolver channel and its four pin voltages (spec/04 R104, R110). -/
structure ChanSample where
  chan : Fin 512
  /-- sine sample, s24 sample codes -/
  s : Int
  /-- cosine sample, s24 sample codes -/
  c : Int
  /-- SIN_P, SIN_N, COS_P, COS_N in mV -/
  sinP : Nat
  sinN : Nat
  cosP : Nat
  cosN : Nat
  deriving DecidableEq, Repr

/-- The samples of the sense pairs XVS and XIS of a group, s24, and their pin voltages in mV: XVS_P, XVS_N, XIS_P, XIS_N (spec/04 R104,
R111). -/
structure SensePins where
  group : Fin 64
  vs : Int
  is : Int
  vP : Nat
  vN : Nat
  iP : Nat
  iN : Nat
  deriving DecidableEq, Repr

/-- What the error code of a memory word shows when the engine reads it (spec/06 R173). -/
inductive MemErr where
  | none | corrected | uncorrectable
  deriving DecidableEq, Repr

/-- The memories of a signal engine (spec/06 Table 6-9, kind 0x3C). -/
inductive SeMem where
  | program | data | bankA | bankB
  deriving DecidableEq, Repr

/-- A word of an engine memory with a bit error (spec/06 R173). -/
structure EccHit where
  mem : SeMem
  addr : Nat
  uncorrectable : Bool
  deriving DecidableEq, Repr

/-- The fields of a signal-engine instruction word beside its opcode (spec/06 R167). -/
structure SeFields where
  ps : Fin 4
  pn : Bool
  d : Fin 32
  a : Fin 32
  b : Fin 32
  x : BitVec 8
  imm : Word
  deriving DecidableEq, Repr

/-- One record of a command message (spec/13 Table 13-3): `op` 0x01 WRITE (offset, value) or 0x02 UNIT_CMD (unit, code). -/
structure CmdRecord where
  op : Nat
  unit : Nat
  /-- BAR0 offset of a WRITE, command code of a UNIT_CMD -/
  arg : Nat
  value : Word
  deriving DecidableEq, Repr

/-- A command message on a backbone port (spec/13 R430): the number of its R-TAG where it has one, its bytes from the header up to the tag, and
the tag it carries. -/
structure CmdMessage where
  port : Fin 4
  rtag : Option (BitVec 16)
  bytes : List Byte
  tag : BitVec 128
  deriving DecidableEq, Repr

/-- What a backbone port reports as its link changes: link and FEC lock, what gPTP finds of it, and the frames and FCS errors that no other
command brings (spec/13 Table 13-7). -/
structure PortReport where
  up : Bool
  fec : Bool
  asCapable : Bool
  ptpState : Fin 16
  pdelay : BitVec 32
  rx : Nat
  fcs : Nat
  deriving DecidableEq, Repr

/-- What the host has set in the PCI Express function, and the AER uncorrectable error status (spec/13 R434, R437, R447). -/
structure PcieFn where
  bme : Bool
  msixEn : Bool
  fmask : Bool
  d3hot : Bool
  aer : Word
  deriving DecidableEq, Repr

/-- A private write to the I3C target, or a common command code that no row names (spec/13 R439, R440). -/
inductive I3cWrite where
  | priv (bytes : List Byte)
  | otherCcc
  deriving DecidableEq, Repr

/-- One unit state of a peer's block (spec/14 R468, R469): state code and, for a tracker, its interval. -/
structure PeerUnit where
  unit : Nat
  state : Nat
  fineValid : Bool
  boundSat : Bool
  /-- position, LSB 2^-32 rev -/
  pos : Int
  /-- position bound, LSB 2^-24 rev -/
  bound : Nat
  deriving DecidableEq, Repr

/-- A worker's partial aggregates in the frame token (spec/14 R483): per spanning beam its lowest rank among non-faulted
children, whether a child that is not ISOLATED is FAULTED, and whether all its children are FAULTED and ISOLATED. -/
structure Partial where
  beam : Nat
  rank : Option Nat
  anyFault : Bool
  allIsoFault : Bool
  deriving DecidableEq, Repr

/-- What a device adds to the frame token: who and where it is, its frame number, whether its twin checks report PAIRED, whether every tine of
its spanning beams is DORMANT, its beam hash and its partials (spec/14 R481, R483, R484, R487, R498). -/
structure TokenPart where
  uid : BitVec 64
  pos : Nat
  frame : Nat
  paired : Bool
  idle : Bool
  hash : BitVec 384
  parts : List Partial
  deriving DecidableEq, Repr

/-- How a worker meets the token: the port it comes by, and whether it can be passed on (spec/14 R485, R486). -/
structure TokenHop where
  fromUp : Bool
  canPass : Bool
  deriving DecidableEq, Repr

/-- What a twin peer presents to open session 9 (spec/15 R515): identity public key, certificate, OWN_STATUS, the four slot hashes, its nonce,
and the signature. -/
structure TwinHello where
  pub : List Byte
  cert : List Byte
  ownStatus : Word
  hashes : List (BitVec 384)
  nonce : BitVec 256
  sig : List Byte
  deriving DecidableEq, Repr

/-- A settings CRC of the twin peer, with its tag (spec/14 R460, R470). -/
structure TwinCrc where
  crc : Word
  tag : BitVec 128
  deriving DecidableEq, Repr

/-- The causes of a wake (spec/17 R583). -/
inductive WakeSrc where
  | wakeN
  | switch (k : Fin 64)
  | timer
  deriving DecidableEq, Repr

/-- How a bring-up phase ended (spec/18 R608, R609). -/
inductive PhaseOutcome where
  | ok
  /-- P1: bit k set where copy k of the option words failed -/
  | options (failed : BitVec 2)
  /-- P2: both firmware copies failed -/
  | firmwareFailed
  deriving DecidableEq, Repr

/-- A reset source that asserts, with the target of its request (spec/18 Table 18-2). -/
structure SourceReq where
  code : Nat
  target : Nat
  deriving DecidableEq, Repr

/-- A read of BAR0: the enabled bytes are `len` from `off` on (spec/01 R34). -/
structure BarRead where
  off : Nat
  len : Nat
  deriving DecidableEq, Repr

/-- What the persistent store holds beside the sealed image keys and the certificate: a copy of the floor with its CRC, a copy of the life
odometer with its CRC, the images ACTIVE, PREVIOUS, STAGED (spec/15 R510; spec/16 R549, R555; spec/02 R59). -/
inductive StoreItem where
  | floor (k : Fin 2)
  | life (k : Fin 2)
  | image (k : Fin 3)
  deriving DecidableEq, Repr

/-- One access of the debug port (spec/15 R517). -/
inductive DebugAccess where
  | readReg (off : Nat)
  | writeReg (off : Nat) (v : Word)
  | readMem (addr : Nat)
  | writeMem (addr : Nat) (v : Byte)
  /-- a memory of engine `e`: program, data or a coefficient bank, by word -/
  | readSe (e : Fin 8) (m : SeMem) (addr : Nat)
  | writeSe (e : Fin 8) (m : SeMem) (addr : Nat) (v : BitVec 64)
  /-- the persistent store beside the image keys and the certificate -/
  | readStore (x : StoreItem)
  | writeStore (x : StoreItem) (v : List Byte)
  deriving DecidableEq, Repr

end Sys2Proof
end

