-- ==== Sys2Proof/Machine/StateSig.lean ====
section
/-! DEFINITION. The parts of the state that belong to the signal path and the motion side: excitation, resolver inputs, auxiliary
front end, signal engines, trackers, gear links, ports, switches, emulators, compares, triggers and profile generators.
Instants are cell time in ns, or in half ns where a field says so (a decimation interval is 3,125 half ns). -/
namespace Sys2Proof.Machine

/-- What the present carrier cycle of a group is (spec/03 R82, R85, R86, R90, R97). -/
inductive Cyc where
  | off | ramp | valid | settle | invalid | gapFirst | gap
  deriving DecidableEq, Repr

/-- An excitation group (spec/03). -/
structure XgSt where
  owner : Bool := false
  /-- a carrier or, between bursts, a differential zero is driven (XEN_N asserted, DAC on) -/
  driving : Bool := false
  xen : Bool := false
  cyc : Cyc := .off
  applied : Nat := 0
  rampCycle : Nat := 0
  good : Nat := 0
  vLoRun : Nat := 0
  vHiRun : Nat := 0
  iLoRun : Nat := 0
  phRun : Nat := 0
  gapRun : Nat := 0
  limRun : Nat := 0
  vLow : Bool := false
  vHigh : Bool := false
  iLow : Bool := false
  iHigh : Bool := false
  phFail : Bool := false
  loopLimit : Bool := false
  driveGap : Bool := false
  tripped : Bool := false
  trips : Nat := 0
  v : Nat := 0
  i : Nat := 0
  ph : Int := 0
  measFrame : Nat := 0
  burstLen : Nat := 0
  govSel : Nat := 0xA
  /-- selections, newest first: frame and length (R88) -/
  govHist : List (Nat × Nat) := []
  /-- cycles left of the burst in progress -/
  burstLeft : Nat := 0
  burstSum : Nat := 0
  burstCount : Nat := 0
  /-- the frame that the newest burst serves (R98) -/
  burstFrame : Nat := 0
  /-- MODE is BURST and the drive is still continuous, up to the first burst (R97) -/
  preBurst : Bool := false
  /-- first frame served by a burst after a change to BURST (R97); none in CONTINUOUS -/
  burstFrom : Option Nat := none
  /-- half ns of the boundary of a change to CONTINUOUS: drive starts at the first cycle start after it (R97) -/
  contAfter : Option Nat := none
  /-- the cycle in progress belongs to a burst (spec/04 R130) -/
  inBurst : Bool := false
  /-- handover at the next cycle start: some true takes over, some false releases (R90) -/
  handover : Option Bool := none
  /-- the new owner starts driving one decimation interval after the handover cycle start (R90) -/
  driveNext : Bool := false
  /-- half ns from which a carrier is driven without a break; duty of past frames, newest first (XG_DUTY) -/
  carrierSince : Option Nat := none
  driven : Nat := 0
  /-- half ns of the last boundary; per frame, newest first, its drive time and its length (XG_DUTY) -/
  dutyFrom : Option Nat := none
  dutyHist : List (Nat × Nat) := []
  /-- half ns at which the cycle in progress started, the frame then, and the windows in force then (R93, R103) -/
  cycAt : Nat := 0
  cycFrame : Nat := 0
  winV : Word := 0xFFFF0000
  winI : Word := 0xFFFF0000
  winP : Word := 0x80000004
  deriving DecidableEq, Repr

/-- The newest samples of a channel: sine, cosine, in a valid cycle. -/
structure RcSample where
  s : Int
  c : Int
  ok : Bool
  /-- marked as in signal fault (R116, spec/17 R577) -/
  mark : Bool
  deriving DecidableEq, Repr

/-- A resolver channel; index 512 + g is the sense pairs of group g (spec/04). -/
structure RcSt where
  /-- consecutive instants outside the window, by bit of RC_STATUS [7:0] -/
  runs : List Nat := [0, 0, 0, 0, 0, 0, 0, 0]
  cond : BitVec 8 := 0
  /-- newest first, up to two carrier cycles -/
  hist : List RcSample := []
  env : Nat := 0
  envLow : Bool := false
  envHigh : Bool := false
  satSRun : Nat := 0
  satCRun : Nat := 0
  ovrS : Bool := false
  ovrC : Bool := false
  detections : Nat := 0
  saturated : Nat := 0
  dcS : Int := 0
  dcC : Int := 0
  zs : Word := 0
  zc : Word := 0
  xt : Word := 0
  checks : Nat := 0
  /-- instants for which the window conditions are held (R134) -/
  holdFor : Nat := 0
  deriving DecidableEq, Repr

/-- A phase's correlation with the tone: samples taken, and the sums of the injected and of the other pair's samples with the tone's sine and
cosine (spec/04 R118). -/
structure ToneAcc where
  n : Nat := 0
  ownSin : Rat := 0
  ownCos : Rat := 0
  othSin : Rat := 0
  othCos : Rat := 0
  deriving DecidableEq, Repr

/-- A tone check that runs (spec/04 R117). -/
structure ToneRun where
  chan : Fin 512
  requested : Bool
  /-- the result goes to this device's mailbox (R121, R125) -/
  mine : Bool
  cosPhase : Bool
  start : Nat
  /-- the phase has begun, on a carrier cycle start, and the carrier periods counted in it since (R117, R130) -/
  began : Bool := false
  periods : Nat := 0
  /-- decimation index at which the phase's tone starts, and the correlations of the sine and the cosine phase (R117, R118) -/
  from_ : Nat := 0
  accS : ToneAcc := {}
  accC : ToneAcc := {}
  deriving DecidableEq, Repr

/-- A requested check that waits (spec/04 R121, R125). -/
structure ToneReq where
  chan : Fin 512
  mine : Bool
  /-- first frame at whose boundary it may start -/
  earliest : Nat
  deriving DecidableEq, Repr

/-- Tone checks of a group (spec/04 R120). -/
structure ToneSt where
  run : Option ToneRun := none
  queue : List ToneReq := []
  /-- frame at which a periodic check fell due, plus 1; 0: none waits -/
  due : Nat := 0
  deriving DecidableEq, Repr

/-- The tone mailbox (spec/04 R121, Table 4-11). -/
structure ToneBox where
  seq : Nat := 0
  fresh : Bool := false
  code : Nat := 0
  chan : Nat := 0
  zs : Word := 0
  zc : Word := 0
  xt : Word := 0
  /-- a requested check of this device's mailbox is pending or running -/
  busy : Bool := false
  deriving DecidableEq, Repr

/-- A chain output of an auxiliary channel: half ns of its sample instant, value, validity, range, output number. -/
structure AxOut where
  at_ : Nat
  y : Int
  ok : Bool
  range : Nat
  num : Nat
  deriving DecidableEq, Repr

/-- The port-3 values of a conversion: half ns of its sample instant, peak, RMS and envelope, none where the lane was marked not valid, and
the range (spec/06 R171). -/
structure AxDet where
  at_ : Nat
  peak : Option Int
  rms : Option Int
  envl : Option Int
  range : Nat
  deriving DecidableEq, Repr

/-- An auxiliary record's fields (spec/12 Table 12-7). -/
structure AxRec where
  value : Int := 0
  valid : Bool := false
  coarse : Int := 0
  peak : Int := 0
  rms : Int := 0
  envl : Int := 0
  mode : Nat := 0
  range : Nat := 0
  transient : Bool := false
  coarseValid : Bool := false
  fineValid : Bool := false
  sigFault : Bool := false
  deriving DecidableEq, Repr

/-- An auxiliary channel (spec/05; resampler and detectors spec/07 R206 to R212). -/
structure AxSt where
  range : Nat := 0
  /-- the source drives (R147) -/
  source : Bool := false
  code : Int := 0
  codeRange : Nat := 0
  satRun : Nat := 0
  lowRun : Nat := 0
  compRun : Nat := 0
  ovl : Bool := false
  compliance : Bool := false
  leadHigh : Bool := false
  calFail : Bool := false
  transient : Bool := false
  /-- results of the last 16 CAL and LEAD jobs, newest first, in volts -/
  cal : List Rat := []
  lead : List Rat := []
  steps : Nat := 0
  resyncs : Nat := 0
  compEvents : Nat := 0
  /-- the next MAIN conversion is replaced by a held value (R146) -/
  held : Bool := false
  /-- an automatic step decided for the next MAIN conversion: true is up (R144) -/
  stepDir : Option Bool := none
  /-- the step that the MAIN conversion in progress takes -/
  stepped : Option Bool := none
  /-- a committed change of RANGE waits for the next MAIN conversion (R154) -/
  rangeReq : Bool := false
  resync : Bool := false
  /-- net right shift applied to each word of the chain history, newest first (R145) -/
  shifts : List Int := []
  /-- MAIN conversions, newest first: half ns, code, range, SFAULT -/
  recent : List (Nat × Int × Nat × Bool) := []
  /-- held conversions that no frame has shown, newest first: half ns, code, range (R146) -/
  transientAt : List (Nat × Int × Nat) := []
  /-- the newest entry popped carried SFAULT, or none has been popped since PREPARING -/
  lastBad : Bool := true
  outs : List AxOut := []
  /-- port-3 values by conversion, newest first -/
  dets : List AxDet := []
  /-- outputs since the last synchronising reset; none: none yet -/
  settle : Option Nat := none
  record : AxRec := {}
  deriving DecidableEq, Repr

/-- What an auxiliary slot converts (spec/05 Table 5-1). -/
inductive AxJob where
  | open_ | main | lead | cal
  deriving DecidableEq, Repr

/-- The auxiliary slot schedule of a slice (spec/05 R139, R142). -/
structure AxsSt where
  cycle : Nat := 0
  /-- the next service job is the first of code 2k (CAL) or 2k + 1 (LEAD) at or above this, else the first -/
  next : Nat := 0
  /-- the slots whose conversions are not complete, oldest first: channel position, routing, cycle, half ns of the sample instant. A
  conversion completes 0.5 us into the next slot (Table 5-4) -/
  slot : List (Nat × AxJob × Nat × Nat) := []
  deriving DecidableEq, Repr

/-- An entry of the auxiliary capture FIFO (spec/06 R169). -/
structure FifoEnt where
  code : Int
  held : Bool
  sfault : Bool
  step : Option Bool
  resync : Bool
  swap : Bool
  /-- sample boundary number k and XF_LEN inside a swap's cross-fade (R177) -/
  xf : Option (Nat × Nat)
  range : Nat
  pos : Nat
  cycle : Nat
  at_ : Nat
  deriving DecidableEq, Repr

/-- A staged output: port, lane values, lanes delivered valid (spec/06 R171). -/
structure Staged where
  port : Nat
  lanes : List Int
  mask : BitVec 8
  /-- the entry of the last CAP before the OUT (ports 2 and 3) -/
  cap : Option FifoEnt := none
  deriving DecidableEq, Repr

/-- A running loop: first and last word, repetitions left (spec/06 LOOP). -/
structure LoopSt where
  first : Nat
  last : Nat
  left : Nat
  deriving DecidableEq, Repr

/-- The slot an engine's program runs in (spec/06 R161, R165). -/
structure SlotCtx where
  /-- 0 to 15 lane group, 16 auxiliary, 17 trap handler -/
  slot : Nat := 16
  index : Nat := 0
  cycle : Nat := 0
  limit : Nat := 768
  loops : List LoopSt := []
  /-- cycle at which a register's value is ready: register key, cycle -/
  ready : List (Nat × Nat) := []
  staged : List Staged := []
  /-- sample boundary number k and XF_LEN of a lane group's swap in this pass (R177) -/
  xf : Option (Nat × Nat) := none
  /-- the entry of the last CAP of the slot -/
  lastCap : Option FifoEnt := none
  /-- the slot's program has ended: YIELD, exception or overrun -/
  ended : Bool := false
  deriving DecidableEq, Repr

/-- A running swap (spec/06 R176, R177). `at_` is half ns of the earliest swap point; k counts sample boundaries by stream:
0 to 15 lane groups, 16 to 31 auxiliary positions. -/
structure SwapRun where
  at_ : Nat
  xfLen : Nat
  ks : List Nat
  deriving DecidableEq, Repr

/-- A signal engine (spec/06). Registers: vectors and accumulators as eight lane values. -/
structure SeSt where
  v : List (Nat × List Int) := []
  acc : List (Nat × List Int) := []
  s : List (Nat × Word) := []
  p : List (Nat × BitVec 8) := []
  pc : Nat := 0
  ctx : SlotCtx := {}
  prog : List (Nat × BitVec 64) := []
  dmem : List (Nat × Word) := []
  bankA : List (Nat × Word) := []
  bankB : List (Nat × Word) := []
  /-- capture entries of the present instant by stream (2m, 2m + 1 of lane group q at 8q): value, valid and unmarked -/
  capture : List (Nat × Int × Bool) := []
  /-- lane groups whose capture entries no program has read -/
  unread : BitVec 16 := 0
  captureAt : Nat := 0
  fifo : List FifoEnt := []
  traps : List FaultMsg := []
  trapsRun : Nat := 0
  trapsDropped : Nat := 0
  overruns : Nat := 0
  excs : Nat := 0
  refusals : Nat := 0
  ecc : Nat := 0
  lastExc : Word := 0
  /-- bank in force, or target of the running swap: true is B -/
  cur : Bool := false
  swap : Option SwapRun := none
  /-- the swap before it, whose last sample boundaries may still come in -/
  past : Option SwapRun := none
  /-- a held swap request: target and XF_LEN in force at its boundary -/
  held : Option (Bool × Nat) := none
  /-- an accepted COMMIT holds a swap request (R175) -/
  asked : Option Bool := none
  busyLast : Bool := false
  swapStart : Nat := 0
  swapDone : Nat := 0
  /-- channels of the slice whose chain takes a synchronising reset in the next pass (SYNC flags) -/
  sync : BitVec 64 := 0
  /-- reset at L3 or above since the image was loaded (R183) -/
  reload : Bool := true
  /-- decimation index of the last pass -/
  lastIndex : Nat := 0
  /-- words of the engine's memories with a bit error that nothing has corrected or overwritten (R173) -/
  hits : List EccHit := []
  deriving DecidableEq, Repr

/-- A signature map (spec/08 Table 8-6). -/
structure SigMap where
  ofsS : Int := 0
  ofsC : Int := 0
  gainC : Int := 0x40000000
  qs : Int := 0
  qc : Int := 0x40000000
  resSum : Nat := 0
  resD : Nat := 0
  xcal : Bool := false
  verified : Bool := false
  adoptFrame : Nat := 0
  /-- a_h, b_h for h = 1 to 32; empty: all 0 -/
  harm : List (Int × Int) := []
  deriving DecidableEq, Repr

/-- An entry of the persistent map store: the map and whether its CRC passes (spec/08 R255). -/
structure MapEntry where
  map : SigMap
  crcOk : Bool
  deriving DecidableEq, Repr

/-- The observer state after an accepted sample (spec/08 R239, R241). theta in 2^-32 electrical rev. -/
structure Obs where
  theta : Int := 0
  omega : Rat := 0
  alpha : Rat := 0
  /-- content instant in ns, sample instant in half ns -/
  tau : Rat := 0
  inst : Int := 0
  sig2 : Rat := 0
  /-- |e| of the last 16 accepted samples, newest first -/
  errs : List Rat := []
  /-- amplitude A in sample codes at the sample -/
  amp : Rat := 0
  /-- a_as in use in the prediction from this state; none: none (spec/08 R257, R258) -/
  assist : Option Rat := none
  deriving DecidableEq, Repr

/-- A demodulated sample that waits for its tracker (spec/06 R171, spec/08 R233). -/
structure Demod where
  /-- decimation index -/
  i : Nat
  s : Int
  c : Int
  ok : Bool
  /-- its window touches a cycle declared not valid (Table 8-1, row 1) -/
  gap : Bool
  mark : Bool
  /-- D_res in ns (spec/07 R213, R222) -/
  delay : Rat
  /-- outputs since the last synchronising reset have reached SETTLE -/
  settled : Bool
  deriving DecidableEq, Repr

/-- Channel record fields of a tracker or port (spec/12 Table 12-5). -/
structure ChRec where
  pos : Int := 0
  speed : Int := 0
  acc : Int := 0
  coarse : Nat := 0
  posBound : Nat := 0xFFFF
  speedBound : Nat := 0xFFFF
  reachLo : Int := -0x80000000
  reachHi : Int := 0x7FFFFFFF
  amp : Nat := 0
  quad : Int := 0
  fine : Bool := false
  coarseOk : Bool := false
  coast : Bool := false
  sigFault : Bool := false
  boundSat : Bool := true
  cal : Bool := false
  disc : Int := 0
  age : Nat := 0xFFFFFFFF
  ext0 : Int := 0
  ext1 : Int := 0
  /-- OVERSPEED of a tracker (spec/08 R246) -/
  overspeed : Bool := false
  deriving DecidableEq, Repr

/-- An accepted sample of a learning segment: content instant in ns, corrected and uncorrected angle in electrical rev, the pair S, C. -/
structure LearnSmp where
  t : Rat
  thm : Rat
  thr : Rat
  sn : Int
  cn : Int
  deriving DecidableEq, Repr

/-- A learning segment (spec/08 R251, R252): the angle of its last sample, the travel so far, its samples. -/
structure Segment where
  last : Rat
  travel : Rat
  samples : List LearnSmp
  deriving DecidableEq, Repr

/-- What TK_STATUS shows of the most recent record beside the record's own flags (spec/08 R264). -/
structure TkShow where
  angleAbs : Bool := false
  assistOn : Bool := false
  learning : Bool := false
  cand : Bool := false
  verified : Bool := false
  mapZero : Bool := true
  coastFrames : Nat := 0
  contradict : Bool := false
  locked : Bool := false
  deriving DecidableEq, Repr

/-- A tracker (spec/08; turn offset spec/09). -/
structure TkSt where
  obs : Option Obs := none
  /-- earlier states of the present one, newest first, for the frame instants before it (R244) -/
  back : List Obs := []
  /-- the states held before the last three accepted samples, newest first, for the rollback (R241) -/
  before : List Obs := []
  accepted : Nat := 0
  lockRun : Nat := 0
  locked : Bool := false
  coast : Bool := false
  coastFrames : Nat := 0
  limitRaised : Bool := false
  exitRun : Nat := 0
  contradict : Bool := false
  lastErr : Rat := 0
  overspeed : Bool := false
  map : SigMap := {}
  cand : Option SigMap := none
  verified : Bool := false
  mapResult : Nat := 0
  mapFrame : Nat := 0
  learn : Option Segment := none
  segments : Nat := 0
  learnResult : Nat := 0
  /-- valid demodulated samples, newest first: half ns, thm in 2^-32 rev, A, signal-fault mark, the quadrature field from it on -/
  coarse : List (Nat × Nat × Rat × Bool × Int) := []
  /-- the newest valid pair S, C -/
  lastSC : Option (Int × Int) := none
  /-- sums of s2 c2 and s2^2 + c2^2 over the present electrical revolution, and its start -/
  quadSC : Rat := 0
  quadSS : Rat := 0
  /-- travel of the present revolution, 2^-32 rev -/
  quadTravel : Int := 0
  quad : Int := 0
  settled : Bool := false
  /-- outputs since the last synchronising reset -/
  settle : Option Nat := none
  lastBad : Bool := true
  delay : Rat := 0
  turnOfs : Int := 0
  angleAbs : Bool := false
  assistOn : Bool := false
  waiting : List Demod := []
  ext0 : Int := 0
  ext1 : Int := 0
  record : ChRec := {}
  prevPos : Int := 0
  prevFine : Bool := false
  esig : Nat := 0
  sigmaUse : Rat := 0
  /-- samples for which the tone's term still enters the bound: 2 during a check (R271) -/
  tone : Nat := 0
  /-- exp(-2 pi B T) and T of the gains in use: those in force at the last processed sample (R267) -/
  gainPT : Option (Rat × Rat) := none
  /-- frame of the last map operation that applied (R270), and of the last cross-calibration candidate (spec/09 R298) -/
  mapAt : Option Nat := none
  xcalAt : Option Nat := none
  shown : TkShow := {}
  deriving DecidableEq, Repr

/-- A gear link (spec/09). -/
structure GlSt where
  count : Nat := 0
  code : Nat := 0
  k : Int := 0
  lt : Int := 0
  u : Nat := 0
  raised : Bool := false
  wind : Bool := false
  slip : Bool := false
  valid : Bool := false
  disc : Int := -0x80000000
  dbound : Nat := 0
  /-- kind 0x4A raised since both trackers last ran together -/
  lost : Bool := false
  /-- bins: samples and sum of residuals in link rev (R284) -/
  bins : List (Nat × Nat × Rat) := []
  xcal : Nat := 0
  /-- bins accumulate in the most recent frame (R294) -/
  xrun : Bool := false
  deriving DecidableEq, Repr

/-- Reach of a channel (spec/09 R288); its stop model is that of the registers in force. -/
structure RhSt where
  valid : Bool := false
  sat : Bool := false
  deriving DecidableEq, Repr

/-- What a port's record takes of the port at one instant beside its count (spec/10 R308): QE_EXTRA, quadrature errors since entry into PREPARING,
the mark of R310 and R311, index captures. -/
structure PortView where
  qeExtra : Nat := 0
  qe : Nat := 0
  sigFault : Bool := false
  caps : Nat := 0
  deriving DecidableEq, Repr

/-- An incremental port (spec/10 R303 to R311). Levels after inversion. -/
structure IpSt where
  a : Bool := false
  b : Bool := false
  z : Bool := false
  /-- timestamps of the last accepted transitions of A, B and Z (R303) -/
  accA : Option Nat := none
  accB : Option Nat := none
  accZ : Option Nat := none
  /-- unwrapped count since entry into PREPARING: TURNS * CPR + COUNT (R307) -/
  u : Int := 0
  dir : Bool := false
  /-- counting transitions: unwrapped count after each and timestamp, newest first -/
  trans : List (Int × Nat) := []
  /-- the unwrapped count before the oldest of them -/
  base : Int := 0
  /-- timestamp of the newest counting transition that `trans` no longer holds -/
  baseT : Option Nat := none
  now : PortView := {}
  /-- the views that accepted transitions later than the last record's boundary left, newest first, with their timestamps; the view at that
  boundary; the quadrature errors that records have shown -/
  views : List (Nat × PortView) := []
  view0 : PortView := {}
  qeShown : Nat := 0
  qeTotal : Nat := 0
  /-- last capture: unwrapped count, counting up, checked next -/
  cap : Option (Int × Bool) := none
  capSkip : Bool := false
  capFrame : Nat := 0
  delta : Int := 0
  idxFail : Bool := false
  idxMiss : Bool := false
  /-- latched at the boundary -/
  latU : Int := 0
  latFrame : Nat := 0
  /-- counting transitions accepted since the last boundary (ledger kind COUNT) -/
  held : Nat := 0
  record : ChRec := {}
  prevPos : Int := 0
  deriving DecidableEq, Repr

/-- A switch input (spec/10 R312 to R314). -/
structure SwSt where
  level : Bool := false
  raw : Bool := false
  seen : Bool := false
  /-- consecutive samples, up to 65,535, known to show the raw level -/
  run : Nat := 0
  trans : Nat := 0
  chat : Bool := false
  latched : Bool := false
  /-- cell time of entry into PREPARING -/
  prepAt : Nat := 0
  deriving DecidableEq, Repr

/-- An encoder emulator (spec/10 R315 to R319). -/
structure EmSt where
  target : Int := 0
  emitted : Int := 0
  /-- queued edges as runs, oldest first: direction up, count -/
  queue : List (Bool × Nat) := []
  full : Bool := false
  invalid : Bool := false
  spacing : Nat := 0
  last : Nat := 0
  /-- record ready lies between these (spec/01 Table 1-2: after t_n + 7 us, by t_n + 8 us) -/
  ready : Nat := 0
  readyBy : Nat := 0
  formed : Bool := false
  deriving DecidableEq, Repr

/-- A scheduled firing (spec/10 R322 to R324). -/
structure Firing where
  t : Nat
  tc : Option Nat
  late : Bool
  frame : Nat
  dt : Nat
  status : Word
  deriving DecidableEq, Repr

/-- A compare: index 2c + k of tracker c, 1024 + 2p + k of port p (spec/10 R320 to R326). -/
structure CmpSt where
  armed : Bool := false
  fired : Bool := false
  late : Bool := false
  behind : Bool := false
  tested : Bool := true
  /-- a behind compare waits until the position has returned before V -/
  waitBack : Bool := false
  firing : Option Firing := none
  time : Nat := 0
  count : Nat := 0
  deriving DecidableEq, Repr

/-- A pulse to come: its start, and the compare and time of its firing (spec/10 R327). -/
structure Pulse where
  start : Nat
  cmp : Nat
  tf : Nat
  deriving DecidableEq, Repr

/-- A trigger output (spec/10 R327, R328). -/
structure TgSt where
  /-- pulses to come, the next first -/
  starts : List Pulse := []
  asserted : Bool := false
  endAt : Nat := 0
  pulses : Nat := 0
  suppressed : Nat := 0
  last : Nat := 0
  deriving DecidableEq, Repr

/-- What a generator's present motion is (spec/11 R346 to R356, Table 11-9 PHASE). -/
inductive PgTask where
  | none | move | velocity | gear | path | pathRun | home | stopRamp | quickRamp | holdRamp | limitStop
  deriving DecidableEq, Repr

/-- A ratio blend in progress (spec/11 R362): from RC_POS, over `len` LSB of master travel in direction `dir` (0: not yet known). -/
structure Blend where
  pos : Int
  numO : Int
  denO : Nat
  numN : Int
  denN : Nat
  sC : Int
  fC : Rat
  len : Nat
  dir : Int
  deriving DecidableEq, Repr

/-- A profile generator (spec/11). Positions in 2^-32 generator rev where Int, in rev where Rat; rev/s, rev/s2. -/
structure PgSt where
  /-- the setpoint applied at the most recent boundary -/
  pos : Rat := 0
  vel : Rat := 0
  acc : Rat := 0
  task : PgTask := .none
  /-- the plan: segments of constant jerk, each with its length in s, jerk in rev/s3 and phase code -/
  plan : List (Rat × Rat × Nat) := []
  /-- what the plan ends at: position where it has a goal, and speed -/
  goal : Option Rat := none
  endVel : Rat := 0
  /-- the target in force -/
  target : Int := 0
  /-- the last motion asked for was not planned, a limit being 0 (spec/11 R355) -/
  noPlan : Bool := false
  phase : Nat := 0
  /-- gearing: slave position, remainder, ratio, last master position -/
  s : Int := 0
  rem : Nat := 0
  masterPrev : Option Int := none
  num : Int := 1
  den : Nat := 1
  blend : Option Blend := none
  armed : Bool := false
  /-- an armed change waits until the master is before RC_POS -/
  armBack : Bool := false
  /-- the side of an armed change has been judged -/
  armSeen : Bool := false
  /-- START or RESUME has applied and the next frame couples -/
  coupling : Bool := false
  rcFrame : Nat := 0
  gearOver : Bool := false
  masterLost : Bool := false
  /-- path streaming: frames streamed since point 0, and whether the stream runs -/
  pathAt : Nat := 0
  pathDone : Bool := false
  /-- homing -/
  hstate : Nat := 0
  abort : Nat := 0
  homed : Bool := false
  homeFrom : Rat := 0
  backTravel : Rat := 0
  backFree : Option Rat := none
  /-- the motion of the homing state is stopping -/
  homeStop : Bool := false
  /-- the limit that reversed the search has read inactive since -/
  limFree : Bool := false
  shiftDue : Option Int := none
  shift : Int := 0
  limitHold : Bool := false
  limitHigh : Bool := false
  guardTrip : Bool := false
  hwLimit : Bool := false
  ratioSwitch : Bool := false
  homeStep : Bool := false
  ssr : Bool := false
  still : Nat := 0
  addr : Nat := 0
  scale : Nat := 0
  driverLow : Bool := false
  guardTrips : Nat := 0
  replans : Nat := 0
  /-- acceleration setpoints, newest first: frame of application, value, generator ACTIVE or STOPPING (spec/08 R257) -/
  accHist : List (Nat × Int × Bool) := []
  /-- instant in ns of the last valid KEEP write, and whether the store's entry is that of the present standstill -/
  lastKeep : Option Nat := none
  keepHeld : Bool := false
  /-- the profile record -/
  spPos : Int := 0
  spVel : Int := 0
  spAcc : Int := 0
  status : Word := 0x801
  deriving DecidableEq, Repr

/-- A KEEP entry of the persistent store (spec/11 R371). -/
structure KeepEnt where
  q : Int
  shift : Int
  homed : Bool
  ecyc : Nat
  tblLen : Nat
  valid : Bool
  deriving DecidableEq, Repr

end Sys2Proof.Machine
end

