-- ==== Sys2Proof/Machine/TwinItem.lean ====
section
/-! DEFINITION. The state that a joining twin takes of one unit (spec/14 Table 14-3). -/
namespace Sys2Proof.Machine

/-- The items of Table 14-3 beside the unit's state. -/
inductive TwinItem where
  /-- beams, triggers: the state alone -/
  | plain
  /-- position in the record of frame n_v - 1 (R466), ANGLE_ABS, map in force, VERIFIED, the two compares -/
  | tracker (pos : Int) (angleAbs : Bool) (map : SigMap) (verified : Bool) (cmps : List CmpSt)
  | link (wind slip : Bool) (count : Nat)
  | gen (x : PgSt)
  /-- unwrapped count (COUNT and TURNS), QE_EXTRA, last index capture with its frame and whether the next is unchecked, the two compares -/
  | port (u : Int) (qeExtra : Nat) (cap : Option (Int × Bool)) (capFrame : Nat) (capSkip : Bool) (cmps : List CmpSt)
  | emu (target emitted : Int) (queue : List (Bool × Nat))
  | group (applied : Nat)
  | engine (bankA bankB : List (Nat × Word)) (cur : Bool) (swap past : Option SwapRun) (held : Option (Bool × Nat)) (asked : Option Bool)
  deriving DecidableEq, Repr

end Sys2Proof.Machine
end

