-- ==== Sys2Proof/Syntax.lean ====
section
/-! DEFINITION. The commands of the RJA-512: one constructor per row of spec/opcode_table.json, with the operands that
come from outside the device (an address and a value, a sample, a pin level, an instant, a message). Instants are cell
time in nanoseconds unless a field says otherwise. -/
namespace Sys2Proof

/-- The messages of a twin control channel other than a settings CRC (spec/14 R460). -/
inductive TwinMsg where
  /-- a forwarded tone request (spec/04 R125) -/
  | toneReq (chan : Fin 512) (writtenAt : Nat)
  /-- an attach the peer accepted, with its target frame and map (spec/14 R463) -/
  | attach (target : Nat) (map : BitVec 64)
  /-- an OWN_SET the peer accepted (spec/14 R472) -/
  | ownSet (target : Nat) (map : BitVec 64)
  /-- a DETACH of the peer (spec/14 R474) -/
  | detach (target : Nat)
  /-- the peer's PAIRING or VELVET has failed, with its cause (spec/14 R467) -/
  | failure (cause : Nat)
  /-- a settings value or shadow copied to the joining device (spec/14 R464) -/
  | setting (off : Nat) (inForce shadow : Word)
  /-- the joining device reports its trackers ready (spec/14 R464) -/
  | joinReady
  /-- the items of Table 14-3 for one unit, with its state (spec/14 R465, R466) -/
  | items (unit : Nat) (state : Nat) (x : Machine.TwinItem)
  /-- the peer's facts: mode, configuration hash, requested map, tines dormant, image TWIN flag, and the states of its trackers,
  groups and engines that are not DORMANT (spec/14 R463, R464, R473) -/
  | facts (mode : Nat) (hash : BitVec 384) (map : BitVec 64) (dormant : Bool) (twinFlag : Bool) (states : List (Nat × Nat))
  /-- the cell time of the peer's decimation instant `i`, LSB 1/2 ns (spec/14 R471) -/
  | stamp (i : Nat) (half : Int)
  /-- a reset request of the peer (spec/18 R600) -/
  | resetReq (target : Nat)
  deriving DecidableEq, Repr

/-- A control message with its tag (spec/14 R460). -/
structure TwinTagged where
  msg : TwinMsg
  tag : BitVec 128
  deriving DecidableEq, Repr

/-- The commands, in the order of spec/opcode_table.json. -/
inductive Instr where
  | frameBoundary
  | commandCutoff
  | mapAdopt (c : Fin 512)
  | mapDiscard (c : Fin 512)
  | mapErase (c : Fin 512)
  | commit (v : Word)
  | prepare (u : BitVec 12) (at_ : Bool)
  | start (u : BitVec 12) (at_ : Bool)
  | hold (u : BitVec 12) (at_ : Bool)
  | resume (u : BitVec 12) (at_ : Bool)
  | stop (u : BitVec 12) (at_ : Bool)
  | quickstop (u : BitVec 12) (at_ : Bool)
  | clear (u : BitVec 12) (at_ : Bool)
  | reset (u : BitVec 12) (at_ : Bool)
  | stage
  | stageComplete
  | switch (next : Bool)
  | discardStaged
  | revert (next : Bool)
  | velvetEnd
  | prepareLimitExpiry (u : BitVec 12)
  | registerWrite (off : Nat) (v : Word) (be : BitVec 4)
  | mailboxRead (r : BarRead)
  | bankWrite (s : Fin 8) (bankB : Bool) (word : Fin 4096) (v : Word)
  | escAck (u : BitVec 12) (v : Word)
  | divergeReport (v : Word)
  | latchedClear (u : BitVec 12)
  | firstFaultClear
  | hbLostClear
  | rstSeenClear (v : Word)
  | ttReq (v : Word) (t : Nat)
  | tonePhaseEnd (g : Fin 64)
  | toneCheckComplete (g : Fin 64) (zSin zCos : Nat) (phSin phCos : Int) (xtSC xtCS : Nat)
  | toneCheckTimeout (g : Fin 64)
  | captureSample (i : Nat) (chans : List ChanSample) (sense : List SensePins)
  | carrierCycleStart (g : Fin 64) (i : Nat)
  | handoverDriveStart (g : Fin 64)
  | burstStart (g : Fin 64) (n : Nat)
  | burstEnd (g : Fin 64) (n : Nat)
  | senseCycle (g : Fin 64) (v i : Nat) (ph : Int)
  | auxSlot (s : Fin 8) (j : Nat) (slot : Fin 20)
  | auxConversionComplete (s : Fin 8) (code : Int) (aexP : Nat)
  | sePass (s : Fin 8) (i : Nat) (ecc : List EccHit)
  | slotOverrun (s : Fin 8)
  | nop (s : Fin 8) (f : SeFields)
  | movi (s : Fin 8) (f : SeFields)
  | sadd (s : Fin 8) (f : SeFields)
  | lds (s : Fin 8) (f : SeFields) (e : MemErr)
  | sts (s : Fin 8) (f : SeFields)
  | ldv (s : Fin 8) (f : SeFields) (e : MemErr)
  | stv (s : Fin 8) (f : SeFields)
  | ldc (s : Fin 8) (f : SeFields) (e : MemErr)
  | cap (s : Fin 8) (f : SeFields)
  | ctx (s : Fin 8) (f : SeFields)
  | mac (s : Fin 8) (f : SeFields)
  | macm (s : Fin 8) (f : SeFields) (e : MemErr)
  | hsum (s : Fin 8) (f : SeFields)
  | rnd (s : Fin 8) (f : SeFields)
  | add (s : Fin 8) (f : SeFields)
  | sub (s : Fin 8) (f : SeFields)
  | abs (s : Fin 8) (f : SeFields)
  | mnx (s : Fin 8) (f : SeFields)
  | shf (s : Fin 8) (f : SeFields)
  | cmp (s : Fin 8) (f : SeFields)
  | sel (s : Fin 8) (f : SeFields)
  | bq (s : Fin 8) (f : SeFields) (e : MemErr)
  | sqrt (s : Fin 8) (f : SeFields)
  | out (s : Fin 8) (f : SeFields)
  | loop (s : Fin 8) (f : SeFields)
  | br (s : Fin 8) (f : SeFields)
  | raise (s : Fin 8) (f : SeFields)
  | yield (s : Fin 8) (f : SeFields)
  | trackerSample (c : Fin 512)
  | coastLimit (c : Fin 512)
  | trackerExtrapolation
  | compareSchedule
  | compareFire (k : Fin 1088)
  | triggerPulseStart (k : Fin 16)
  | triggerPulseEnd (k : Fin 16)
  | generatorSetpoint
  | standstillCurrentReduction (g : Fin 512)
  | ledgerSnapshot
  | recordReady
  | egressWindowOpen (sent : Nat)
  | egressForcedEnd
  | dmaCopyComplete (e : Fin 8)
  | dmaHalt (e : Fin 8) (bmeCleared : Bool)
  | dmaEnable (e : Fin 8) (v : Word)
  | msixPendingDelivery (v : Fin 64)
  | emulatorEdge (e : Fin 16) (t : Nat)
  | portTransitionAccepted (p : Fin 32) (t : Nat) (a b z : Option Bool)
  | switchDebounceChange (k : Fin 64) (level : Bool)
  | chatWindowEnd
  | scrubTile
  | faultAccept (queues : List (Fin 28)) (t : Nat)
  | countWindowClose (u : BitVec 12)
  | beamEscalation (u : BitVec 12)
  | alarmExit (t : Nat)
  | heartbeat (t : Nat)
  | heartbeatLost (t : Nat)
  | tempConversion (k : Fin 24) (reading : Int) (failed : Bool)
  | railSample (r : Fin 32) (mv : Nat)
  | roMeasure (k : Fin 16) (freq : Nat) (dev : Int)
  | agingMeasure (k : Fin 8) (margin : Nat)
  | odometerTick
  | rcTrim (word : BitVec 16)
  | xtalFail
  | xtalRecover
  | pllLockLost (pll : Fin 15)
  | pllLock (pll : Fin 15) (modAligned : Bool)
  | refclkLost
  | refclkHoldoverExpiry
  | actReqRunning (next : Bool)
  | actReqDozing (next : Bool)
  | actReqAsleep (next : Bool)
  | wakeReady
  | wakeTimeout
  | pwrReqFall
  | wakeSource (w : WakeSrc)
  | resetSourceAssert (srcs : List SourceReq)
  | resetSourceRelease (code : Nat)
  | tamper (det : Fin 5)
  | bringupPhaseDone (o : PhaseOutcome) (t : Nat)
  | clockDeferralTimeout (pll : Fin 15)
  | tineIdle (u : BitVec 12)
  | idleTimeout
  | rstReqLocal (v : Word)
  | rstReqTwin (v : Word) (peerEnabled : Bool)
  | rstReqHerd (v : Word) (reachable enabled : Bool)
  | wdtCtrlWrite (v : Word)
  | wdtKick (v : Word)
  | watchdogExpiry
  | commandMessage (m : CmdMessage)
  | commandResponse
  | sessionRequestMessage (req : List Byte)
  | syncMessage (offset : Int) (gmId : BitVec 64) (steps : Nat) (grandmaster : Bool)
  | syncTimeout
  | backboneLinkChange (k : Fin 4) (r : PortReport)
  | ctInit (hi : Word)
  | i3cViewOffset (w : I3cWrite)
  | i3cViewRead (len : Nat)
  | i3cResetArm (target chal : BitVec 16) (t : Nat)
  | i3cResetConfirm (target chal : BitVec 16) (t : Nat)
  | entdaa (addr : BitVec 7)
  | setdasa (stat dyn : BitVec 7)
  | setnewda (dyn : BitVec 7)
  | rstdaa
  | getpid
  | getbcr
  | getdcr
  | getstatus
  | getmrl
  | setmrl (n : Nat)
  | getmwl
  | setmwl (n : Nat)
  | enec (events : Byte)
  | disec (events : Byte)
  | rstact (defining : Byte)
  | certGet
  | attest
  | ownBurn
  | slotRevoke
  | imgkeyLoad
  | imgkeyErase
  | floorRaise
  | sessionOpen
  | sessionClose
  | attach
  | detach
  | ownSet
  | herdEnum
  | serviceComplete
  | serviceTimeout
  | twinLinkUp (peerUid : BitVec 64) (peerRole : Bool)
  /-- what the peer presents, and the session key that the warden pairs agree (spec/15 R515; log 108) -/
  | twinSessionOpen (peer : TwinHello) (key : BitVec 256)
  | twinLinkDown (lanes : BitVec 4)
  /-- the block's frame, the tag of the message, the block (spec/14 R460) -/
  | twinBlockArrival (n : Nat) (tag : BitVec 128) (block : List Byte)
  | twinBlockDeadline (n : Nat)
  | twinSettingsCrc (c : TwinCrc)
  | groupOrphaned (g : Fin 64)
  | lossLimExpiry
  | twinVelvetEnd
  | pairingTimeout
  /-- the position carried, the device on the UP port that sends it, the manager that started it, the UIDs gathered (spec/14 R479, Table 14-10) -/
  | herdEnumMessage (pos : Nat) (sender mgr : BitVec 64) (uids : List (BitVec 64))
  | herdPositionWaitExpiry
  | herdCommandRelay (u : BitVec 12) (code : Nat) (target : Nat)
  | herdTokenIssue
  /-- the herd-wide states it carries (beam, state code, frame), what devices have added, the manager's beam hash, the hop (spec/14 R483, R485) -/
  | herdTokenReceive (frame : Nat) (states : List (Nat × Nat × Nat)) (parts : List TokenPart) (beamHash : BitVec 384) (hop : TokenHop)
  /-- what devices have added, the port by which the token comes, the duration of the tour (spec/14 R483, R486) -/
  | herdTokenRetire (frame : Nat) (parts : List TokenPart) (fromDown : Bool) (tourNs : Nat)
  | herdTokenTimeout
  | herdTokenAbsent
  /-- the failed side, and the positions that no path reaches any more (spec/14 R486) -/
  | herdRingOpen (down : Bool) (unreached : List Nat)
  | svtChal
  | svtUnlock (slot : Nat) (pubkey sig : List Byte)
  | jtagBypass
  | jtagIdcode
  | rstFuseProg (table : BitVec 64) (pinMap : BitVec 15)
  | refclkReturn
  | pcieLinkChange (up : Bool) (width rate : Nat) (fn : PcieFn)
  | herdLinkTrained (down : Bool) (ok : Bool)
  | twinControlMessage (m : TwinTagged)
  | grandmasterChange (gmId : BitVec 64) (grandmaster : Bool)
  | streamGateClosed (filter : Fin 64) (port : Fin 4)
  | latentErrorDetection (stream : Fin 8)
  | jtagDebugAccess (a : DebugAccess)
  | switchRawTransition (k : Fin 64) (level : Bool)
  | alarmHalfPeriod (t : Nat)
  deriving DecidableEq, Repr

end Sys2Proof
end

