-- ==== Sys2Proof/Config.lean ====
section
/-! DEFINITION. What the spec leaves open: free values, drawn numbers, facts of one device, and the
choices it leaves. Every constant here has NO BODY: nothing can be proved of its
values, and a statement that holds, holds for every value. -/
namespace Sys2Proof.Config

/-- Drawn numbers: keys, challenges, nonces, counters of randomness (spec/15 R512, R517; spec/13 R441). DESIGN CHOICE, log 1. -/
opaque freeWord : Nat → Nat

/-- The device secret in the fuses, and the vendor certificate in the persistent store (spec/15 R499, R500): facts of one device, which no
command writes. -/
opaque deviceSecret : BitVec 256
opaque vendorCert : List Byte

/-- A certificate binds a public key to a UID and chains to the Gravadun device root (spec/15 R500, R515); no rule gives the root's key. Log 108. -/
opaque certBinds : List Byte → List Byte → Nat → Bool

/-- The key derived from the device secret that seals the stored image keys (spec/15 R508); no rule gives the derivation. Log 108. -/
opaque sealKey : BitVec 256 → BitVec 256

/-- A fuse burn fails: FUSE_FAIL (spec/15 R519); a code of the burn and a draw. No rule says when. Log 108. -/
opaque fuseFails : Nat → Nat → Bool

/-- Straps HERD_MGR and TWIN_ROLE of the board (spec/18 R606). -/
opaque strapHerdMgr : Bool
opaque strapTwinRole : Bool

/-- What the 24-step CORDIC adds to the exact angle, used up to its bound (spec/08 R235). Log 11. -/
opaque cordicErr : Rat → Rat → Rat

/-- What the computed crossing instant of a compare adds to the exact root, in ns, used up to the 1 ns that spec/10 R323 allows. Log 100. -/
opaque crossErr : Rat → Rat

/-- The segments (frames, jerk in rev/s3) that a stage of a replan from motion takes: 0 its stop or 1 its one approach, then position, speed,
acceleration, target, V, A, J, frame period (spec/11 R348). Used where they keep R348. Log 14. -/
opaque replan : List Rat → List (Nat × Rat)

/-- What an instruction word's unstated option value, register number or rounding does (spec/06 Table 6-6: MNX X above 1, CMP X above
5, BR X above 4, SHF and RND shifts outside their range, a register number beyond its file): a code of the case and operands. -/
opaque seOption : Nat → Nat → Int → Int → Int

/-- Where the spec states a format but no rounding, a value between two codes takes the lower one plus this number's lowest bit. -/
opaque lsbUp : Rat → Nat

/-- The range index of a CAL conversion with the source off (spec/05 Table 5-6 gives none). -/
opaque calIndexOff : Nat

/-- The value in ohms while no current has been measured (spec/05 R149 divides by I_CAL): chain output in volts. -/
opaque ohmsNoCal : Rat → Rat

/-- What check order 7 judges on facts that no section's format carries: a program is the standard auxiliary program (spec/07 R209); the gate
control lists of NETWORK open, in every frame of a period, an egress window that holds a block of a length (spec/13 R428); a joining device's
snapshot of the listed units fits a period (spec/14 R465). Log 25. -/
opaque standardAux : List Byte → Bool
opaque windowHolds : List Byte → Nat → Nat → Bool
opaque snapshotFits : List Nat → Nat → Bool

/-- A step up by a number of ranges would saturate a section state or detector word of a position's chain: its data memory, the position, the
ranges. No rule places those words in memory (spec/05 R145). Log 93. -/
opaque stepSaturates : List (Nat × Word) → Nat → Nat → Bool

/-- The history length, 1 to 32, of the sequence recovery of a command stream: the NETWORK section sets it, in a layout that no rule gives
(spec/13 R423, Table 13-1). Log 107. -/
opaque frerHistory : List Byte → Nat → Nat

/-- CHAIN_CAP of a loaded engine program: no format of the image states the capacities (spec/07 Table 7-8). Log 1. -/
opaque chainCap : List (Nat × BitVec 64) → Nat

/-- Other values that the spec names and does not state: a code of the case, and its operand. Log 1. -/
opaque openNat : Nat → Nat → Nat

end Sys2Proof.Config
end

