-- ==== Sys2Proof/Machine/RealFn.lean ====
section
/-! DEFINITION. The real functions that the spec's formulas name: square root, exp, sine and cosine, arctangent. Each is the mathematical
function to within 2^-80 of its value, computed in whole numbers of 2^-96; the spec states no precision for any but the CORDIC of
spec/08 R235 (DESIGN CHOICE, log 11). -/
namespace Sys2Proof.Machine

/-! ### Fixed point -/

/-- The unit of the fixed-point numbers. -/
def fxOne : Int := 2 ^ 96
def fxOf (q : Rat) : Int := q.num * 2 ^ 96 / q.den
def fxRat (x : Int) : Rat := (x : Rat) / 2 ^ 96
def fxMul (a b : Int) : Int := a * b / 2 ^ 96
/-- pi. -/
def fxPi : Int := 248902613312231085230521944622
def piQ : Rat := fxRat fxPi

def rAbs (q : Rat) : Rat := if q < 0 then -q else q
/-- The fractional part. -/
def fracQ (q : Rat) : Rat := q - q.floor

/-! ### Square root -/

/-- The bits of floor(sqrt n) below bit `k`, above which it is `r`. -/
def isqrtFrom (n : Nat) : Nat → Nat → Nat
  | 0, r => r
  | k + 1, r => isqrtFrom n k (if (r + 2 ^ k) * (r + 2 ^ k) ≤ n then r + 2 ^ k else r)
/-- floor(sqrt n). -/
def isqrt (n : Nat) : Nat := isqrtFrom n (n.log2 / 2 + 1) 0

/-- The square root of a fraction of two squares. -/
def sqrtExact (q : Rat) : Option Rat :=
  let n := isqrt q.num.toNat
  let d := isqrt q.den
  if 0 ≤ q ∧ n * n = q.num.toNat ∧ d * d = q.den then some ((n : Rat) / d) else none

/-- sqrt(q), 0 where q is negative: exact, else rounded down, and rounded up. -/
def sqrtQ (q : Rat) : Rat :=
  match sqrtExact q with
  | some r => r
  | none => if q ≤ 0 then 0 else (isqrt ((q.num * 2 ^ 192) / q.den).toNat : Rat) / 2 ^ 96
def sqrtUp (q : Rat) : Rat :=
  match sqrtExact q with
  | some r => r
  | none => if q ≤ 0 then 0 else (isqrt ((q.num * 2 ^ 192) / q.den).toNat + 1 : Rat) / 2 ^ 96

/-! ### exp -/

/-- The exponential series of |x| ≤ 1. -/
def expSeries (x : Int) : Int := ((List.range 30).reverse).foldl (fun t k => fxOne + fxMul x t / (k + 1 : Nat)) fxOne
def squareN : Nat → Int → Int
  | 0, x => x
  | n + 1, x => squareN n (fxMul x x)
def expQ (q : Rat) : Rat :=
  let k := q.ceil.natAbs.log2 + 3
  fxRat (squareN k (expSeries (fxOf (q / 2 ^ k))))

/-! ### Sine and cosine of a fraction of a turn -/

/-- A value within 2^-80 of a multiple of 1/2 is that multiple. -/
def snapHalf (v : Rat) : Rat :=
  let r : Rat := (2 * v + 1 / 2).floor
  if rAbs (2 * v - r) < 1 / 2 ^ 80 then r / 2 else v

/-- The angle in (-pi, pi] of a number of turns. -/
def turnAngle (x : Rat) : Int := let f := fracQ x; fxMul (2 * fxPi) (fxOf (if f ≤ 1 / 2 then f else f - 1))

def sinSeries (y : Int) : Int :=
  fxMul y (((List.range 25).reverse).foldl (fun t k => fxOne - fxMul (fxMul y y) t / ((2 * k + 2) * (2 * k + 3) : Nat)) fxOne)
def cosSeries (y : Int) : Int :=
  ((List.range 25).reverse).foldl (fun t k => fxOne - fxMul (fxMul y y) t / ((2 * k + 1) * (2 * k + 2) : Nat)) fxOne

def sinRev (x : Rat) : Rat := snapHalf (fxRat (sinSeries (turnAngle x)))
def cosRev (x : Rat) : Rat := snapHalf (fxRat (cosSeries (turnAngle x)))

/-! ### Arctangent -/

/-- The arctangent series of 0 ≤ t ≤ 1/4. -/
def atanSeries (t : Int) : Int :=
  fxMul t (((List.range 40).reverse).foldl (fun a k => fxOne / (2 * k + 1 : Nat) - fxMul (fxMul t t) a) 0)
/-- The tangent of half the angle. -/
def halfTan (t : Int) : Int := t * fxOne / (fxOne + isqrt (fxOne * fxOne + t * t).toNat)
/-- atan(q) of 0 ≤ q ≤ 1, in radians. -/
def atanUnit (q : Rat) : Rat := fxRat (4 * atanSeries (halfTan (halfTan (fxOf q))))

/-- atan2(s, c) / 2 pi in [0, 1); (0, 0) gives 0. -/
def atanRev (s c : Rat) : Rat :=
  let a := rAbs s
  let b := rAbs c
  let w := if a = 0 ∧ b = 0 then 0 else if a ≤ b then atanUnit (a / b) / (2 * piQ) else 1 / 4 - atanUnit (b / a) / (2 * piQ)
  let w := if c < 0 then 1 / 2 - w else w
  fracQ (if s < 0 then -w else w)

/-- asin(x) in radians of |x| ≤ 1. -/
def asinQ (x : Rat) : Rat :=
  let w := atanRev x (sqrtQ (1 - x * x)) * (2 * piQ)
  if piQ < w then w - 2 * piQ else w

/-- The angle in [0, 1) that the 24-step CORDIC gives: within 2^-24 rev of the exact one, otherwise free; of (0, 0) no angle is stated
(spec/08 R235; log 11). -/
def cordicRev (s c : Rat) : Rat :=
  if s = 0 ∧ c = 0 then fracQ (Config.cordicErr s c)
  else
    let b : Rat := 1 / 2 ^ 24
    fracQ (atanRev s c + max (-b) (min b (Config.cordicErr s c)))

end Sys2Proof.Machine
end

