-- ==== Sys2Proof/Machine/RegMap.lean ====
section
/-! DEFINITION. The register map of BAR0: for every defined offset its access type, the bits a write reaches and its reset
value (spec/01 R21, R33 to R35; the register tables of every chapter). Offsets are BAR0 offsets. -/
namespace Sys2Proof.Machine

/-- Access types (spec/00 Table 0-4). `act`: a write has the behaviour of its own rule. -/
inductive Acc where
  | rws | rw | ro | act
  deriving DecidableEq, Repr

/-- A register: access, writable bits, reset value. -/
structure RegInfo where
  acc : Acc
  mask : Nat := 0xFFFFFFFF
  reset : Nat := 0
  deriving DecidableEq, Repr

/-- Bits [lo + n - 1 : lo]. -/
def bitsM (lo n : Nat) : Nat := (2 ^ n - 1) * 2 ^ lo

def baseCFG : Nat := 0x8000000
def baseRST : Nat := 0x8100000
def baseCLK : Nat := 0x8200000
def baseFLT : Nat := 0x8300000
def baseMON : Nat := 0x8400000
def baseSEC : Nat := 0x8500000
def baseXCG : Nat := 0x8600000
def baseRIN : Nat := 0x8700000
def baseAUX : Nat := 0x8800000
def baseSE : Nat := 0x8900000
def baseTRK : Nat := 0x8A00000
def baseJNT : Nat := 0x8B00000
def baseINC : Nat := 0x8C00000
def baseMOT : Nat := 0x8D00000
def baseFMEM : Nat := 0x8E00000
def baseNET : Nat := 0x8F00000
def baseHST : Nat := 0x9000000
def baseTWN : Nat := 0x9100000
def baseHRD : Nat := 0x9200000
def baseUNIT : Nat := 0x9300000

/-- A read-only register. -/
def regRo : Option RegInfo := some { acc := .ro, mask := 0 }
/-- A register whose write has its own rule. -/
def regAct : Option RegInfo := some { acc := .act, mask := 0 }
def regRws (mask reset : Nat) : Option RegInfo := some { acc := .rws, mask, reset }
def regRw (mask reset : Nat) : Option RegInfo := some { acc := .rw, mask, reset }

/-- The first entry of a table of offsets. -/
def regIn : List (Nat × Option RegInfo) → Nat → Option RegInfo
  | [], _ => none
  | (o, i) :: t, off => if o = off then i else regIn t off

/-- spec/01 Table 1-3, spec/02 Table 2-15. -/
def mapCFG (o : Nat) : Option RegInfo :=
  if o ∈ [0x0, 0x10, 0x14, 0x18, 0x1C, 0x24, 0x48, 0x4C, 0x50, 0x200, 0x204, 0x208, 0x20C, 0x210, 0x22C, 0x230, 0x234, 0x44]
  then regRo
  else if o ∈ [0x30, 0x228] then regAct
  else if o ∈ [0x34, 0x38, 0x3C, 0x40, 0x220, 0x224] then regRw 0xFFFFFFFF 0
  else none

/-- spec/18 Table 18-8. -/
def mapRST (o : Nat) : Option RegInfo :=
  if o ∈ [0x0, 0x4, 0x8, 0xC, 0x10, 0x18, 0x2C, 0x40, 0x44, 0x48] then regRo
  else if o ∈ [0x14, 0x20, 0x28] then regAct
  else if o = 0x24 then some { acc := .act, mask := 0xFFFF0003, reset := 0x03E80000 }
  else if o = 0x30 then regRw 0xFFFF 0x3E8 else if o = 0x34 then regRw 0xFFFF 0xA else none

/-- spec/17 Table 17-8. -/
def mapCLK (o : Nat) : Option RegInfo :=
  if o ∈ [0x4, 0x10, 0x14, 0x20, 0x24, 0x28, 0x4C, 0x50] then regRo
  else if o = 0 then regAct
  else if o ∈ [0x8, 0xC, 0x44, 0x48] then regRw 0xFFFFFFFF 0
  else if o = 0x40 then regRw 0xFFFFFF03 1 else none

/-- spec/16 Table 16-10. -/
def mapFLT (o : Nat) : Option RegInfo :=
  if o = 0 then regRws 3 0
  else if o ∈ [0x4, 0x8, 0x14, 0x18, 0x1C, 0x20, 0x24, 0x30, 0x34, 0x38, 0x3C, 0x44, 0x50, 0x54] then regRo
  else if o ∈ [0x10, 0x40] then regAct
  else if 0x8000 ≤ o ∧ o < 0x8800 then regRo
  else if 0x10000 ≤ o ∧ o < 0x14000 then regAct
  else if 0x20000 ≤ o ∧ o < 0x30000 ∧ o % 16 < 12 then regRo else none

/-- spec/16 Table 16-15. -/
def mapMON (o : Nat) : Option RegInfo :=
  if o < 0x60 then regRo
  else if 0x80 ≤ o ∧ o < 0xE0 then regRws 0xFFFFFFFF 0x06E00640
  else if o = 0xE0 then regRws 0xFFFF 0xFD80 else if o = 0xE4 then regRo
  else if 0x100 ≤ o ∧ o < 0x180 then regRo
  else if 0x180 ≤ o ∧ o < 0x200 then regRws 0xFFFF 0x3232
  else if 0x200 ≤ o ∧ o < 0x2C0 then regRo
  else if o = 0x2C0 then regRws 0xFF 8
  else if 0x300 ≤ o ∧ o < 0x320 then regRo
  else if o = 0x320 then regRws 0xFFFFFFFF 0x0019003C
  else if 0x400 ≤ o ∧ o ≤ 0x414 then regRo else none

/-- spec/03 Table 3-6. -/
def mapXCG (o : Nat) : Option RegInfo :=
  if o < 0x4000 then
    let r := o % 0x100
    if r = 0 then regRws 0x01FF0F13 0x600 else if r = 4 then regRws 0xFFFF 0
    else if r = 8 then regRws 0xFF01FFFF 0x1000FFFF else if r = 0xC then regRws 0xFFFF 0
    else if r = 0x10 ∨ r = 0x14 then regRws 0xFFFFFFFF 0xFFFF0000
    else if r = 0x18 then regRws 0xFFFF001F 0x80000004
    else if 0x20 ≤ r ∧ r < 0x60 then
      if r % 8 = 0 then regRws 0xFFFFFFFF 0xFFFFFFFF else regRws 0xFF 0xFF
    else if 0x60 ≤ r ∧ r ≤ 0x74 then regRo else none
  else if 0x8000 ≤ o ∧ o < 0x8010 then regRo else none

/-- spec/04 Table 4-7. -/
def mapRIN (o : Nat) : Option RegInfo :=
  if o < 0x8000 then
    let r := o % 0x40
    if r = 0 then regRws 0xFF 0x4F else if r = 4 then regRws 0xFFFFFFFF 0x086601C2
    else if r = 8 then regRws 0xFFFFFFFF 0xC0004000 else if r = 0xC then regRws 0xFFFFFF 0x4CCCCD
    else if r = 0x10 then regRws 0xFFFFFFFF 0 else if r = 0x14 then regRws 0xFF 0xF
    else if 0x20 ≤ r ∧ r ≤ 0x38 then regRo else none
  else regIn [(0x8000, regRo), (0x8004, regRws 0xFFFFFFFF 0x1F401711), (0x8008, regRws 0xFFFF 0xCCD),
    (0x800C, regRws 0xFFFFFFFF 0x086601C2), (0x8010, regAct), (0x8014, regRo), (0x8018, regRo), (0x801C, regRo),
    (0x8020, regRo), (0x8030, regRo), (0x8034, regRo)] o

/-- spec/05 Table 5-8. -/
def mapAUX (o : Nat) : Option RegInfo :=
  if o < 0x2000 then
    let r := o % 0x40
    if r = 0 then regRws 0x033FF8FF 0x0002_8800 else if r = 4 then regRws 0xFFFFFFFF 0x73331999
    else if r = 8 then regRws 0xFFFF00FF 0x02000070 else if r = 0xC then regRws 0xFFFFFFFF 0
    else if r = 0x10 then regRws 0xFFFFFFFF 0x000186A0
    else if 0x20 ≤ r ∧ r ≤ 0x30 then regRo else none
  else if o < 0x2200 then
    if o % 0x40 = 0 then regRws 0x1F 5 else if o % 0x40 = 4 then regRo else none
  else if o = 0x8000 then regRws 0xFF 5 else none

/-- spec/06 Table 6-11, spec/07 Table 7-8. -/
def mapSE (o : Nat) : Option RegInfo :=
  let r := o % 0x20000
  if r < 0x10000 then regRo else if r < 0x18000 then regAct
  else if r = 0x18000 then regRws 0xFFFF01 0x100
  else if 0x18004 ≤ r ∧ r ≤ 0x18020 then regRo
  else if 0x18040 ≤ r ∧ r ≤ 0x18080 then regRo
  else if 0x18100 ≤ r ∧ r < 0x18240 then regRo
  else if 0x18300 ≤ r ∧ r < 0x18444 then regRo else none

/-- spec/08 Table 8-9. -/
def mapTRK (o : Nat) : Option RegInfo :=
  if o < 0x8000 then
    let r := o % 0x40
    if r = 0 then regRws 0x0FFFFFF3 0x00080850 else if r = 4 then regRws 0xFFFF1FFF 0x004001F4
    else if r = 8 then regRws 0xFFFFFFFF 0x01000100 else if r = 0xC then regRws 0xFFFFFFFF 0xC0004000
    else if r = 0x10 then regRws 0xFFFFFFFF 0x01000000 else if r = 0x14 then regRws 0xFFFFFFFF 0x0040FFFF
    else if r = 0x18 ∨ r = 0x1C then regRws 0xFFFFFFFF 0
    else if r = 0x3C then regRws 3 0 else regRo
  else regIn [(0x8000, regRws 0xFFFFFFFF 0x0C800020), (0x8004, regRws 0xFFFFFFFF 0xA00),
    (0x8008, regRws 0xFFFF00FF 0x03090008)] o

/-- spec/09 Table 9-2. -/
def mapJNT (o : Nat) : Option RegInfo :=
  if o < 0x8000 then
    let r := o % 0x40
    if r = 0 then regRws 0x00011FFF 0 else if r = 4 then regRws 0xFFFFF 0x7D0
    else if r = 8 ∨ r = 0xC ∨ r = 0x10 then regRws 0xFFFFFFFF 0 else if r = 0x14 then regRws 0xFFFFFFFF 0x10000
    else if 0x20 ≤ r ∧ r ≤ 0x30 then regRo else none
  else if o < 0xC000 then
    let r := o % 0x40
    if r = 0 then regRws 0xFF000001 0x04000000 else if r = 4 ∨ r = 8 then regRws 0xFFFFFFFF 1
    else if r = 0xC then regRws 0xFFFFFFFF 0x100000
    else if r = 0x10 ∨ r = 0x14 ∨ r = 0x18 ∨ r = 0x1C then regRws 0xFFFFFFFF 0
    else if r = 0x20 then regRws 0xFFFFFFFF 0x2000 else if r = 0x24 then regRws 0xFFFFFFFF 0x10000
    else regRo
  else if o = 0xC000 then regRws 0xFFFF 0x40 else none

/-- spec/10 Table 10-9: a compare's registers at offset `r` of its 32 bytes. -/
def mapCMP (r : Nat) : Option RegInfo :=
  if r = 0 then regRws 0x73 0 else if r = 4 ∨ r = 8 then regRws 0xFFFFFFFF 0
  else if r = 0xC then regRws 0xFFFFFFFF 0x10000 else regRo

/-- spec/10 Table 10-7. -/
def mapINC (o : Nat) : Option RegInfo :=
  if o < 0x800 then
    let r := o % 0x40
    if r = 0 then regRws 0xFFFF0F37 0x03080010 else if r = 4 then regRws 0xFFFFFFFF 0x1000
    else if r = 8 then regRws 0xFFFFFFFF 0 else if r = 0xC then regRws 0xFFFF 4
    else if r ≤ 0x28 then regRo else none
  else if 0x4000 ≤ o ∧ o < 0xC000 then mapCMP (o % 0x20)
  else if 0xC000 ≤ o ∧ o < 0xC800 then mapCMP (o % 0x20)
  else if 0xD000 ≤ o ∧ o < 0xD100 then regRws 0xFFFFFF01 0x00320000
  else if 0xD100 ≤ o ∧ o < 0xD118 then regRo
  else if o = 0xD118 then regRws 0xFFFF 0x3E8
  else if 0xE000 ≤ o ∧ o < 0xE400 then
    let r := o % 0x40
    if r = 0 then regRws 0x110 0x100 else if r = 4 then regRws 0x1FFFFF 0x1000
    else if r = 8 then regRws 0xFFFF 0xA else if r ≤ 0x1C then regRo else none
  else if 0xE800 ≤ o ∧ o < 0xEA00 then
    let r := o % 0x20
    if r = 0 then regRws 0xFFFF0007 0x00C80000 else if r = 4 then regRws 0xFFFFFFFF 0
    else if r ≤ 0x10 then regRo else none
  else none

/-- spec/11 Table 11-7. -/
def mapMOT (o : Nat) : Option RegInfo :=
  if o < 0x20000 then
    let r := o % 0x100
    if r = 0 then regRws 0x00F1910F 1
    else if 0x04 ≤ r ∧ r ≤ 0x20 then regRws 0xFFFFFFFF 0
    else if r = 0x24 then regRws 0xFFFFF 0x7D0
    else if r = 0x28 ∨ r = 0x2C ∨ r = 0x30 then regRws 0xFFFFFFFF 0
    else if r = 0x34 ∨ r = 0x44 then regRws 0xFFFFFFFF 0
    else if r = 0x38 ∨ r = 0x48 then regRws 0xFFFFFFFF 0xFFFF8000
    else if r = 0x3C ∨ r = 0x4C then regRws 0xFFFFFFFF 0xFFFFFFFF
    else if r = 0x40 ∨ r = 0x50 then regRws 0xFFFFFFFF 0x7FFF
    else if r = 0x54 ∨ r = 0x58 ∨ r = 0x5C ∨ r = 0x60 then regRws 0xFFFFFFFF 1
    else if r = 0x64 ∨ r = 0x68 ∨ r = 0x6C then regRws 0xFFFFFFFF 0
    else if r = 0x70 then regRws 0xFFFFFFFF 0x10000 else if r = 0x74 then regRws 0xFFFFFFFF 0
    else if r = 0x78 then regRws 0x101 0
    else if 0x7C ≤ r ∧ r ≤ 0x8C then regRws 0xFFFFFFFF 0
    else if r = 0x90 then regRws 0x1FFFFFFF 0x04000032 else if r = 0x94 then regRws 0xFFFFFFFF 0x1F40FF80
    else if r = 0x98 then regRws 0xFFF 0
    else if 0xA0 ≤ r ∧ r ≤ 0xCC then regRo else none
  else none

/-- spec/12 Table 12-16. -/
def mapFMEM (o : Nat) : Option RegInfo :=
  if o = 0 then regRws 0xFFFF00FF 0x00010001
  else if o ∈ [0x4, 0x8, 0xC, 0x10, 0x14, 0x60, 0x64, 0x68, 0x70, 0x74, 0x78] then regRo
  else if 0x20 ≤ o ∧ o < 0x58 then regRo
  else if 0x100 ≤ o ∧ o < 0x220 then regRo
  else if 0x10000 ≤ o ∧ o < 0x11000 then regRo
  else if 0x20000 ≤ o ∧ o < 0x30000 then regRo else none

/-- spec/13 Table 13-7. -/
def mapNET (o : Nat) : Option RegInfo :=
  if o ∈ [0x0, 0x4, 0x8, 0xC, 0x10, 0x14, 0x50] then regRo
  else if o = 0x18 then regRws 0xFFFF 0x64
  else if o = 0x20 then regRw 0xFFFFFFFF 0 else if o = 0x24 then some { acc := .act, mask := 0xFFFFFFFF }
  else if o = 0x40 then regRws 0x3FFF071F 0x05A00700
  else if o = 0x44 then regRws 0xFFFFFFFF 0 else if o = 0x48 then regRws 0xFFFF 0
  else if o = 0x4C then regRws 0xFFFF7FFF 0x88B57001
  else if 0x100 ≤ o ∧ o < 0x200 ∧ o % 0x40 ≤ 0x10 then regRo
  else if 0x400 ≤ o ∧ o < 0x500 then
    if o % 0x20 = 0 then regRws 0x8007001F 4 else if o % 0x20 ≤ 8 then regRo else none
  else if 0x1000 ≤ o ∧ o < 0x3000 then regRo else none

/-- spec/13 Table 13-9. -/
def mapHST (o : Nat) : Option RegInfo :=
  if o = 0 ∨ o = 4 ∨ o = 0x30 then regRo
  else if o = 8 then regRw 0xFFFF 1 else if o = 0xC then regRw 3 3 else if o = 0x10 then regRw 0x7F 0x3A
  else if 0x40 ≤ o ∧ o < 0x74 then regRw 0x8000003F 0
  else if 0x100 ≤ o ∧ o < 0x300 then
    let r := o % 0x40
    if r = 0 then some { acc := .act, mask := 0xFFFF0001, reset := 0x01010000 }
    else if r = 4 then regRw 0xFFFFF000 0 else if r = 8 ∨ r = 0x18 then regRw 0xFFFFFFFF 0
    else if r = 0xC then regRw 0x1FFFF 0 else if r = 0x10 then regRw 0xFFFFFFC0 0
    else if r = 0x14 then regRw 0xFFFFFFF0 0 else if r = 0x1C then regRw 0xFFFF 0
    else if r = 0x20 ∨ r = 0x24 then regRo else none
  else if o = 0x1000 then regAct
  else if 0x1004 ≤ o ∧ o < 0x1024 then regRw 0xFFFFFFFF 0
  else if o = 0x1024 then regRo
  else if 0x1100 ≤ o ∧ o < 0x2100 then regRo
  else if o = 0x3000 then regAct
  else if 0x8000 ≤ o ∧ o < 0x8400 then if o % 16 = 12 then regRw 1 1 else regRw 0xFFFFFFFF 0
  else if o = 0x9000 ∨ o = 0x9004 then regRo else none

/-- spec/14 Table 14-7, Table 14-10. -/
def mapTWN (o : Nat) : Option RegInfo :=
  if o = 0 then regRws 0xFFFFFFFF 0x04001064
  else if o = 0x10 ∨ o = 0x14 then regRw 0xFFFFFFFF 0xFFFFFFFF
  else if o ≤ 0x34 then regRo else none
def mapHRD (o : Nat) : Option RegInfo :=
  if o ≤ 0xC then regRo else if 0x100 ≤ o ∧ o < 0x180 then regRo else none

/-- A state page of an existing unit (spec/02 Table 2-5, spec/16 Table 16-14). -/
def mapPage (r : Nat) : Option RegInfo :=
  if r = 8 ∨ r = 0x44 then regAct
  else if r = 0x10 ∨ r = 0x14 then regRw 0xFFFFFFFF 0
  else if r ≤ 0x28 then regRo
  else if 0x40 ≤ r ∧ r < 0x80 then regRo else none

/-- The register at a naturally aligned BAR0 offset; none: undefined (R35). Unit pages are those of existing units only, which the
caller checks. SEC registers answer reads and their writes follow R35 (spec/15 R521), which the caller sees to. -/
def regInfo (off : Nat) : Option RegInfo :=
  if off % 4 ≠ 0 then none
  else if off < baseCFG then none
  else if baseUNIT + 0x100000 ≤ off then none
  else if baseUNIT ≤ off then mapPage (off % 0x100)
  else
    let o := off % 0x100000
    match off / 0x100000 with
    | 0x80 => mapCFG o | 0x81 => mapRST o | 0x82 => mapCLK o | 0x83 => mapFLT o | 0x84 => mapMON o
    | 0x85 => if o ≤ 0x18 ∨ (0x40 ≤ o ∧ o < 0x68) ∨ (0x80 ≤ o ∧ o < 0x90) ∨ (0x100 ≤ o ∧ o < 0x1C0) ∨ (0x200 ≤ o ∧ o < 0x220)
        then regRo else none
    | 0x86 => mapXCG o | 0x87 => mapRIN o | 0x88 => mapAUX o | 0x89 => mapSE o | 0x8A => mapTRK o
    | 0x8B => mapJNT o | 0x8C => mapINC o | 0x8D => mapMOT o | 0x8E => mapFMEM o | 0x8F => mapNET o
    | 0x90 => mapHST o | 0x91 => mapTWN o | 0x92 => mapHRD o | _ => none

/-- The reset value of a stored register. -/
def regReset (off : Nat) : Word :=
  match regInfo off with
  | some i => BitVec.ofNat 32 i.reset
  | none => 0

/-- A register of type RWS. -/
def isRws (off : Nat) : Bool :=
  match regInfo off with
  | some i => i.acc == .rws
  | none => false

end Sys2Proof.Machine
end

