-- ==== Sys2Proof/Machine/StateSys.lean ====
section
/-! DEFINITION. The parts of the state that belong to the system side: units and beams, the configuration image, frame memory,
backbone and host, twin and herd, security, faults and monitors, power and clocks, reset. Every field's default is its value
at reset. Values the spec leaves open at reset are marked in INVENTORY.md with their log entry. -/
namespace Sys2Proof.Machine

/-- Unit states (spec/02 R47, Table 2-3). -/
inductive UState where
  | dormant | preparing | ready | stopping | holding | active | faulted
  deriving DecidableEq, Repr

/-- One pending command of a state page (spec/02 R50). `code` is a code of Table 2-4. -/
structure PageCmd where
  code : Nat
  target : Nat
  late : Bool
  deriving DecidableEq, Repr

/-- The escalation timer of a beam (spec/16 R542 to R544, Table 16-14). -/
structure EscSt where
  running : Bool := false
  left : Nat := 0
  acked : Bool := false
  /-- an acknowledgement and the boundary at which it applies -/
  ackAt : Option Nat := none
  expired : Bool := false
  start : Nat := 0
  count : Nat := 0
  deriving DecidableEq, Repr

/-- One unit: tine, beam or infrastructure unit (spec/02 R44 to R55). -/
structure UnitSt where
  /-- the copy of the state pages and the I3C view (spec/13 R445) -/
  st : UState := .dormant
  /-- the copy of record assembly (spec/13 R445) -/
  recSt : UState := .dormant
  /-- the preparation completed since the previous boundary (R49) -/
  prepDone : Bool := false
  /-- the ramp reached standstill since the previous boundary (R49) -/
  rampDone : Bool := false
  /-- a fault of effective class SEVERE or CRITICAL named this unit (R49) -/
  faultDue : Bool := false
  /-- an L4 reset applies at step 2 of the next boundary (spec/16 R537, spec/18 R612) -/
  resetDue : Bool := false
  /-- a reach-guard quick stop applies at step 2 of the next boundary (spec/01 R31) -/
  guardStop : Bool := false
  /-- the present ramp is a QUICKSTOP ramp -/
  quick : Bool := false
  /-- frames left before PREPARE_LIMIT; none: no limit or not PREPARING -/
  prepLeft : Option Nat := none
  /-- a beam held FAULTED by its own fault (spec/16 R540) -/
  held : Bool := false
  page : Option PageCmd := none
  seq : Nat := 0
  result : Nat := 0
  cmdFrame : Nat := 0
  lastCode : Nat := 0
  lastOrigin : Nat := 0
  lastFrame : Nat := 0
  fanApplied : Nat := 0
  fanIgnored : Nat := 0
  esc : EscSt := {}
  deriving DecidableEq, Repr

/-- An entry of UNITS (spec/02 Table 2-12). -/
structure UnitEnt where
  id : Nat
  parent : Nat
  kind : Nat
  isolated : Bool := false
  safety : Bool := false
  device : Nat := 0
  escalation : Nat := 0
  prepareLimit : Nat := 0
  deriving DecidableEq, Repr

/-- An entry of WIRING (spec/02 Table 2-13). -/
structure Wire where
  sink : Nat
  source : Nat
  input : Nat
  output : Nat
  deriving DecidableEq, Repr

/-- A region of frame memory (spec/12 R389, R390). -/
structure Region where
  type : Nat
  first : Nat
  tiles : Nat
  deriving DecidableEq, Repr

/-- RECORD_SETS (spec/12 Table 12-13); the maps as numbers, bit k for item k. -/
structure RecordSets where
  setMask : Nat := 0
  stageSlots : Nat := 3
  eventMax : Nat := 0
  consumers : Nat := 0
  evtClass : Nat := 0
  chMap : Nat := 0
  profMap : Nat := 0
  auxMap : Nat := 0
  portMap : Nat := 0
  deriving DecidableEq, Repr

/-- An entry of FAULT_POLICY (spec/16 Table 16-4): a SOURCE entry (isClass false) or a CLASS entry. -/
structure PolicyEnt where
  isClass : Bool
  /-- PROMOTED class of a SOURCE entry, base class of a CLASS entry -/
  cls : Nat
  srcLo : Nat
  srcHi : Nat
  /-- N of a SOURCE entry, KIND_LO of a CLASS entry -/
  n : Nat
  /-- OWNER of a SOURCE entry, KIND_HI of a CLASS entry -/
  owner : Nat
  w : Nat := 1
  escReact : Nat := 0
  react : Nat := 0
  deriving DecidableEq, Repr

/-- A section of an image: type, offset and decrypted bytes (spec/02 R57). -/
structure Section where
  type : Nat
  offset : Nat
  bytes : List Byte
  deriving DecidableEq, Repr

/-- A configuration image as the loader parses it (spec/02 R56, R57). -/
structure Image where
  twin : Bool := false
  herd : Bool := false
  version : Nat := 0
  secVersion : Nat := 0
  herdPos : Nat := 0
  period : Nat := 125000
  epoch : Nat := 0
  velvetFrames : Nat := 1
  probation : Nat := 0
  units : List UnitEnt := []
  wires : List Wire := []
  settings : List (Nat × Word) := []
  regions : List Region := []
  sets : RecordSets := {}
  policy : List PolicyEnt := []
  /-- the sections as decrypted, for ENGINE_CODE, COEFFICIENTS, SCHEDULE, PATH_TABLES and NETWORK -/
  sections : List Section := []
  /-- configuration hash (spec/14 R463) and beam hash (spec/14 R481) -/
  hash : BitVec 384 := 0
  beamHash : BitVec 384 := 0
  deriving DecidableEq, Repr

/-- A pending SWITCH or REVERT (spec/02 R60, R61). -/
structure SwitchReq where
  revert : Bool
  target : Nat
  deriving DecidableEq, Repr

/-- The configuration slots and the slot mailbox (spec/02 R59 to R68). Images are held as stored. -/
structure SlotSt where
  active : Option (List Byte) := none
  previous : Option (List Byte) := none
  staged : Option (List Byte) := none
  seq : Nat := 0
  fresh : Bool := false
  code : Nat := 0
  detail : Nat := 0
  switchFrame : Nat := 0
  pend : Option SwitchReq := none
  /-- a STAGE that runs its checks: offset and length -/
  stageRun : Option (Nat × Nat) := none
  /-- first frame of the velvet in progress (R63) -/
  velvet : Option Nat := none
  /-- a fault above PROBATION_CLASS was raised in a velvet frame (R63) -/
  velvetFault : Bool := false
  bootSource : Nat := 2
  /-- configuration hashes (spec/14 R463) of the images that a STAGE has stored -/
  hashes : List (List Byte × BitVec 384) := []
  deriving DecidableEq, Repr

/-- COMMIT (spec/01 R22 to R28). -/
structure CommitSt where
  /-- the pending snapshot -/
  snap : Option (List (Nat × Word)) := none
  late : Bool := false
  seq : Nat := 0
  result : Nat := 0
  frame : Nat := 0
  deriving DecidableEq, Repr

/-- Cell time and frames (spec/01 R13 to R15, R39; spec/13 R425). -/
structure TimeSt where
  /-- cell time in ns -/
  now : Nat := 0
  /-- frame number of the most recent boundary -/
  frame : Option Nat := none
  /-- the number of the first boundary of the run (spec/18 R610) -/
  firstFrame : Nat := 0
  /-- the earliest frame whose cut-off has not passed (R23) -/
  openFrame : Nat := 0
  /-- frame instants' distance from R13 still to be slewed, ns (R39) -/
  slew : Int := 0
  deriving DecidableEq, Repr

/-- The collector's status of a source (spec/16 R538, Table 16-13). -/
structure FsSt where
  count : Nat := 0
  lastKind : Nat := 0
  maxClass : Nat := 0
  promoted : Bool := false
  alarmHeld : Bool := false
  latched : Bool := false
  /-- the boundary at which the open window closes (R534) -/
  window : Option Nat := none
  /-- a kind without a named condition was accepted since the last boundary (R538) -/
  momentary : Bool := false
  lastMsg : FaultMsg := 0
  deriving DecidableEq, Repr

/-- A record of the fault log and of the persistent ring (spec/12 Table 12-10; spec/16 R548, R549). -/
structure LogRec where
  promoted : Bool
  cls : Nat
  frame : Nat
  msg : FaultMsg
  time : Nat
  seq : Nat
  deriving DecidableEq, Repr

/-- The fault collector and the alarm pair (spec/16 R531 to R549). -/
structure FltSt where
  /-- input queues by index, oldest first: 0 to 19 the blocks of Table 1-9, 20 to 27 the engine queues (R531) -/
  queues : List (Nat × List FaultMsg) := []
  seq : Nat := 0
  drops : Nat := 0
  fs : List (Nat × FsSt) := []
  /-- conditions that hold: key (unit * 256 + kind) * 65536 + sub (R538) -/
  conds : List (Nat × Bool) := []
  ffValid : Bool := false
  ffClass : Nat := 0
  ffPromoted : Bool := false
  ffSimult : Nat := 0
  ffMsg : FaultMsg := 0
  ffTime : Nat := 0
  ffSeq : Nat := 0
  /-- messages accepted at each effective class -/
  classCount : List (Nat × Nat) := []
  /-- the pins show the alarm state (R545, R546) -/
  alarm : Bool := true
  /-- end of the 2 ms minimum -/
  alarmHold : Nat := 0
  alarmCount : Nat := 1
  /-- a condition of R545 held when last looked at -/
  alarmOn : Bool := true
  /-- instant at which the last condition of R545 was found to have ended -/
  alarmFree : Nat := 0
  /-- level of ALARM_A while healthy -/
  alarmLevel : Bool := false
  hbLost : Bool := false
  hbLast : Nat := 0
  hbLostAt : Nat := 0
  flHead : Nat := 0
  flWraps : Nat := 0
  /-- FAULTLOG tiles written since the last boundary (R548) -/
  flOpen : List Nat := []
  /-- the persistent ring, entry by index (R549) -/
  ring : List (Nat × Option LogRec) := []
  ringHead : Nat := 0
  ringHeld : Nat := 0
  notStored : Nat := 0
  /-- second of cell time of the last stored record and records stored in it -/
  ringSecond : Nat := 0
  ringInSecond : Nat := 0
  /-- kinds held back until P7 (spec/18 R610): source, kind, detail -/
  heldBack : List (Nat × Nat × Nat) := []
  deriving DecidableEq, Repr

/-- A temperature sensor (spec/16 R550, R551). Readings in LSB 2^-4 deg C. -/
structure TempSt where
  reading : Int := 0
  bad : Bool := false
  high : Bool := false
  warn : Bool := false
  low : Bool := false
  /-- consecutive readings above 120 deg C -/
  hot : Nat := 0
  /-- a conversion has been reported since the hub was released -/
  seen : Bool := false
  deriving DecidableEq, Repr

/-- A rail monitor (spec/16 R552). -/
structure RailSt where
  mv : Nat := 0
  uv : Bool := false
  ov : Bool := false
  uvRun : Nat := 0
  ovRun : Nat := 0
  /-- cell time until which the conditions are masked (spec/17 R569) -/
  maskUntil : Nat := 0
  deriving DecidableEq, Repr

/-- A ring-oscillator monitor and an aging monitor (spec/16 R553, R554). -/
structure RoSt where
  freq : Nat := 0
  dev : Int := 0
  deriving DecidableEq, Repr
structure AgeSt where
  test : Nat := 0
  nowPs : Nat := 0
  warn : Bool := false
  crit : Bool := false
  deriving DecidableEq, Repr

/-- A copy of the life odometer in the persistent store: LIFE_ON, LIFE_EQ in 2^-32 s, LIFE_HOT, LIFE_PEAK, their CRC-32C (spec/16 R555). -/
structure LifeCopy where
  on : Nat := 0
  eq : Nat := 0
  hot : Nat := 0
  peak : Int := 0
  crc : Word
  deriving DecidableEq, Repr

/-- The health monitors and the life odometer (spec/16 R550 to R555). -/
structure MonSt where
  temps : List (Nat × TempSt) := []
  rails : List (Nat × RailSt) := []
  ro : List (Nat × RoSt) := []
  age : List (Nat × AgeSt) := []
  lifeOn : Nat := 0
  /-- equivalent seconds, exact (R555) -/
  lifeEq : Rat := 0
  lifeHot : Nat := 0
  lifePeak : Int := 0
  lifeSaved : Nat := 0
  /-- the two copies in the persistent store; none: never written -/
  savedA : Option LifeCopy := none
  savedB : Option LifeCopy := none
  deriving DecidableEq, Repr

/-- A pending activity request (spec/17 R581). -/
structure ActReq where
  level : Nat
  target : Nat
  late : Bool
  deriving DecidableEq, Repr

/-- Power, clocks and activity (spec/17). -/
structure ClkSt where
  level : Nat := 2
  pend : Option ActReq := none
  waking : Bool := false
  /-- the slices are ready: the earliest frame whose cut-off falls after that -/
  slicesReady : Option Nat := none
  seq : Nat := 0
  result : Nat := 0
  pendingLevel : Nat := 2
  actFrame : Nat := 0
  coreLock : Bool := false
  modLock : Bool := false
  ioLock : Bool := false
  sliceLock : BitVec 8 := 0
  bbLock : Bool := false
  twLock : Bool := false
  pcieLock : Bool := false
  modAligned : Bool := false
  discOn : Bool := false
  refOk : Bool := false
  refHold : Bool := false
  sliceOn : BitVec 8 := 0
  modErr : Int := 0
  modFreq : Int := 0
  /-- kind 0x08 was raised and MOD_ALIGNED has not been 1 since (R576) -/
  modErrRaised : Bool := false
  /-- PLLs that lost lock and mark samples (R577): bit code - 1 -/
  lost : BitVec 14 := 0
  wakeCause : Nat := 0
  wakeSwitch : Nat := 0
  xtalFail : Bool := false
  rcTrim : Nat := 0
  rcTrimmed : Bool := false
  pwrReq : Bool := false
  /-- ASLEEP has applied and PWR_REQ has not fallen (R593) -/
  toSleep : Bool := false
  deriving DecidableEq, Repr

/-- A running idle handshake (spec/18 R612, R613). -/
structure IdleRun where
  target : Nat
  /-- tines that have not reported idle -/
  waiting : List Nat
  deriving DecidableEq, Repr

/-- The reset controller (spec/18). -/
structure RstSt where
  /-- asserted sources: code and target -/
  sources : List SourceReq := []
  phase : Nat := 0
  wait : Bool := false
  phaseFail : Bool := false
  /-- failed attempts since L0, saturating at 15 -/
  attempts : Nat := 0
  /-- consecutive failed attempts (R609) -/
  fails : Nat := 0
  bootMs : Nat := 0
  /-- cell time at which rails were good -/
  railsGood : Nat := 0
  causeSrc : Nat := 0
  causeLevel : Nat := 0
  causeDetail : Nat := 0
  causeFrame : Nat := 0
  boots : Nat := 0
  /-- POR has been asserted (DEDUCED, log 18) -/
  seen : Word := 1
  /-- domains whose release is deferred, bit code - 1 (R607) -/
  pendingClock : BitVec 14 := 0
  /-- slices released from L3 whose calibration has not ended (R608) -/
  calib : BitVec 8 := 0
  /-- idle handshakes, oldest first -/
  idle : List IdleRun := []
  idleUnit : Nat := 0
  /-- the watchdog's count in ms at `wdtAt` -/
  wdtLeft : Nat := 0x3E8
  /-- cell time of the watchdog's last load -/
  wdtAt : Nat := 0
  fuse : BitVec 64 := 0
  pinMap : BitVec 15 := 0
  /-- the copies in the fawn domain, loaded in P1 (R605) -/
  fuseIn : BitVec 64 := 0
  pinMapIn : BitVec 15 := 0
  herdMgr : Bool := false
  twinRole : Bool := false
  /-- the P6 load of this bring-up has run -/
  loaded : Bool := false
  deriving DecidableEq, Repr

/-- A backbone port (spec/13 Table 13-7). -/
structure BbPort where
  up : Bool := false
  fec : Bool := false
  asCapable : Bool := false
  ptpState : Nat := 0
  pdelay : Nat := 0
  rx : Nat := 0
  tx : Nat := 0
  discards : Nat := 0
  fcs : Nat := 0
  deriving DecidableEq, Repr

/-- A command stream (spec/13 R430, Table 13-7). -/
structure StreamSt where
  used : Nat := 0
  seq : Nat := 0
  accepted : Nat := 0
  /-- sequence recovery (IEEE 802.1CB): the newest R-TAG number, and whether it and the numbers below it have been received -/
  frerNum : Option (BitVec 16) := none
  frerHist : List Bool := []
  deriving DecidableEq, Repr

/-- An accepted command message and what became of its records (spec/13 R430 to R433). -/
structure HeldMsg where
  msg : CmdMessage
  target : Nat
  late : Bool
  results : List Nat
  deriving DecidableEq, Repr

/-- A response not yet sent (spec/13 R433). -/
structure Response where
  port : Fin 4
  stream : Nat
  seq : Nat
  result : Nat
  frame : Nat
  results : List Nat
  deriving DecidableEq, Repr

/-- The backbone interface (spec/13 R423 to R433). -/
structure NetSt where
  sync : Bool := false
  gm : Bool := false
  ptpOn : Bool := false
  gmSteps : Nat := 0
  offset : Int := 0
  gmId : BitVec 64 := 0
  /-- consecutive sync messages within SYNC_TH (R426) -/
  goodRun : Nat := 0
  ctSet : Bool := false
  ports : List (Nat × BbPort) := []
  streams : List (Nat × StreamSt) := []
  msgs : List HeldMsg := []
  responses : List Response := []
  egFrame : Nat := 0
  egMisses : Nat := 0
  /-- the next R-TAG number of block egress (R429) -/
  frerSeq : BitVec 16 := 0
  deriving DecidableEq, Repr

/-- A DMA engine (spec/13 R436, R437). -/
structure DmaSt where
  p : Nat := 0
  halted : Bool := false
  completed : Nat := 0
  dropped : Nat := 0
  sinceInt : Nat := 0
  deriving DecidableEq, Repr

/-- The I3C target (spec/13 R439 to R442). -/
structure I3cSt where
  dyn : Option (BitVec 7) := none
  saddr : BitVec 7 := 0x3A
  mrl : Nat := 264
  mwl : Nat := 8
  ibi : Bool := false
  rstact : Bool := false
  view : Nat := 0
  armed : Option (BitVec 16 × BitVec 16 × Nat) := none
  chal : BitVec 16 := 0
  deriving DecidableEq, Repr

/-- The host interface (spec/13 R434 to R444). -/
structure HstSt where
  linkUp : Bool := false
  width : Nat := 0
  rate : Nat := 0
  bme : Bool := false
  /-- power state D3hot; AER uncorrectable error status (R434) -/
  d3hot : Bool := false
  aer : Word := 0
  msixEn : Bool := false
  fmask : Bool := false
  dma : List (Nat × DmaSt) := []
  msixPend : BitVec 64 := 0
  i3c : I3cSt := {}
  /-- the code of the service that runs (spec/13 R444) -/
  svc : Option Nat := none
  /-- the result the running service will complete with, once its work is done: code and data; of SESSION_OPEN the request -/
  svcDone : Option (Nat × List Byte) := none
  svcSeq : Nat := 0
  svcFresh : Bool := false
  svcCode : Nat := 0
  svcData : List Byte := []
  deriving DecidableEq, Repr

/-- The result of a twin check of one unit (spec/14 R468, R469). -/
structure TwinRes where
  present : Bool := false
  agree : Bool := false
  margin : Option Int := none
  /-- a negative margin has been raised and no later check was 0 or more -/
  neg : Bool := false
  mismatch : Bool := false
  deriving DecidableEq, Repr

/-- The twin link (spec/14 R459 to R477). -/
structure TwnSt where
  mode : Nat := 0
  lanes : BitVec 4 := 0
  linkUp : Bool := false
  linkLost : Bool := false
  /-- the link was lost at an instant of R475 in PAIRED and has not returned -/
  lost : Bool := false
  orphans : BitVec 64 := 0
  setDiff : Bool := false
  joiner : Bool := false
  mapIn : BitVec 64 := BitVec.allOnes 64
  skew : Int := 0
  skewRun : Nat := 0
  disagreements : Nat := 0
  missing : Nat := 0
  missRun : Nat := 0
  /-- the last peer block that arrived complete, and the last that was checked: frame + 1; 0: none -/
  peerBlock : Nat := 0
  checked : Nat := 0
  modeFrame : Nat := 0
  /-- this device's nonce for session 9, and the messages sent and received since it started (spec/15 R514, R515) -/
  nonce : BitVec 256 := 0
  txCount : Nat := 0
  rxCount : Nat := 0
  setCrc : Word := 0
  peerCrc : Word := 0
  peerUid : BitVec 64 := 0
  peerRole : Bool := false
  /-- both devices carry the same role (R459) -/
  roleClash : Bool := false
  /-- what the peer last reported of itself -/
  peerMode : Nat := 0
  peerHash : Option (BitVec 384) := none
  peerMap : BitVec 64 := BitVec.allOnes 64
  peerDormant : Bool := false
  peerTwinFlag : Bool := false
  /-- reported states of the peer's units that are not DORMANT -/
  peerUnits : List (Nat × Nat) := []
  /-- targets of an accepted ATTACH, DETACH, OWN_SET; attachJoin: this device is J -/
  attachAt : Option Nat := none
  attachMap : BitVec 64 := 0
  attachJoin : Bool := false
  detachAt : Option Nat := none
  peerDetachAt : Option Nat := none
  ownAt : Option Nat := none
  ownMap : BitVec 64 := 0
  /-- mode before PAIRING -/
  before : Nat := 0
  /-- frames passed in PAIRING, VELVET or since LINK_LOST -/
  frames : Nat := 0
  /-- J is ready: the next boundary is the takeover (R464) -/
  joinReady : Bool := false
  /-- cause of a failure of PAIRING or VELVET, applied at the next boundary (R467) -/
  failure : Option Nat := none
  res : List (Nat × TwinRes) := []
  /-- the items of Table 14-3 received for the takeover: unit, state code, items -/
  taken : List (Nat × Nat × TwinItem) := []
  deriving DecidableEq, Repr

/-- A relayed spanning-beam command (spec/14 R482). -/
structure Relay where
  unit : Nat
  code : Nat
  target : Nat
  deriving DecidableEq, Repr

/-- The herd link (spec/14 R478 to R486). -/
structure HrdSt where
  position : Option Nat := none
  upOk : Bool := false
  downOk : Bool := false
  devices : Nat := 0
  tour : Nat := 0
  line : Bool := false
  tokenFrame : Nat := 0
  tokensLost : Nat := 0
  tourNs : Nat := 0
  uids : List (BitVec 64) := []
  tokenOk : Bool := false
  beamOk : Bool := false
  /-- the token in this device -/
  token : Option Nat := none
  relays : List Relay := []
  /-- herd-wide states shown for spanning beams: beam, state, frame (R483) -/
  shown : List (Nat × UState × Nat) := []
  /-- this device's partials of the most recent boundary -/
  partials : List Partial := []
  /-- positions that no path reaches (R486), and positions whose beam hash differs (R481) -/
  unreached : List Nat := []
  badHash : List Nat := []
  /-- the last token retired told of a tine of a spanning beam that is not DORMANT (R487) -/
  remoteBusy : Bool := false
  /-- frames since the last token -/
  since : Nat := 0
  firstTour : Bool := true
  /-- a worker waits in P6, or has loaded, without a position (R480) -/
  waiting : Bool := false
  deriving DecidableEq, Repr

/-- A session (spec/15 R511 to R513). -/
structure Session where
  isOpen : Bool := false
  key : BitVec 256 := 0
  epoch : Nat := 0
  /-- what is due, in the order of the replies: frame, and the key and epoch in force from it; none: the session closes -/
  due : List (Nat × Option (BitVec 256 × Nat)) := []
  /-- epoch numbers handed out -/
  issued : Nat := 0
  deriving DecidableEq, Repr

/-- The instruction that the JTAG port holds (spec/15 R517). -/
inductive JtagIr where
  | bypass | idcode | svtChal | svtUnlock | fuseProg
  deriving DecidableEq, Repr

/-- An image key as the persistent store holds it: KEY_ID, and IV, ciphertext and tag under the seal key (spec/15 R508). -/
structure SealedKey where
  id : Nat
  iv : List Byte
  ct : List Byte
  tag : List Byte
  deriving DecidableEq, Repr

/-- A copy of the floor in the persistent store (spec/15 R510). -/
structure FloorCopy where
  value : Nat := 0
  /-- CRC-32C of the value's 4 bytes -/
  crc : Word := 0x48674BC7
  deriving DecidableEq, Repr

/-- What an attestation report shows of the most recent boundary (spec/15 R516). -/
structure BoundaryView where
  own : Nat
  sec : Nat
  floor : Nat
  mode : Nat
  pos : Nat
  images : List (Option (List Byte))
  deriving DecidableEq, Repr

/-- The Svetio core (spec/15). -/
structure SecSt where
  burned : BitVec 4 := 0
  revoked : BitVec 4 := 0
  hashes : List (Nat × BitVec 384) := []
  testBurned : Bool := false
  fusesOk : Bool := false
  identityOk : Bool := false
  /-- the floor in force, and its two copies in the persistent store -/
  floor : Nat := 0
  floorA : FloorCopy := {}
  floorB : FloorCopy := {}
  floorPending : Option Nat := none
  imgKeys : List (Nat × Option SealedKey) := []
  atBoundary : Option BoundaryView := none
  sessions : List (Nat × Session) := []
  dbgChal : BitVec 256 := 0
  dbgUnlocked : Bool := false
  dbgLocked : Bool := false
  tamperCause : Nat := 0
  alarmForced : Bool := false
  /-- PRESUMED (IEEE 1149.1): IDCODE after Test-Logic-Reset -/
  jtagIr : JtagIr := .idcode
  deriving DecidableEq, Repr

/-- A tile of frame memory (spec/12 R385). State codes of Table 12-1. -/
structure TileSt where
  st : Nat := 0
  crc : Word := 0
  deriving DecidableEq, Repr

/-- A stage slot in use: its frame, slot, block length and the consumers whose copy is not complete
(0 backbone, 1 to 8 DMA engine 0 to 7, 9 twin; spec/12 R404, R405). -/
structure StageSlot where
  frame : Nat
  slot : Nat
  len : Nat
  copies : List Nat
  deriving DecidableEq, Repr

/-- An event waiting for a block: its time and its 32 bytes (spec/12 R399). -/
structure Ev where
  time : Nat
  bytes : List Byte
  deriving DecidableEq, Repr

/-- One kind of the ledger (spec/12 R410 to R415): running counts, and the counts at the last ledger instant. -/
structure LedSt where
  produced : Nat := 0
  consumed : Nat := 0
  dropped : Nat := 0
  snapP : Nat := 0
  snapC : Nat := 0
  snapD : Nat := 0
  held : Nat := 0
  /-- of the last frame: produced, consumed, dropped, held before, first unit that dropped -/
  frameP : Nat := 0
  frameC : Nat := 0
  frameD : Nat := 0
  heldBefore : Nat := 0
  frameUnit : Nat := 0
  /-- frame and unit of the last drop, and as the registers show them since the last ledger instant -/
  lastDrop : Nat := 0
  lastUnit : Nat := 0
  shownDrop : Nat := 0
  shownUnit : Nat := 0
  /-- first unit that dropped since the last ledger instant -/
  firstUnit : Option Nat := none
  balanced : Bool := true
  deriving DecidableEq, Repr

/-- Frame memory, records and ledger (spec/12). -/
structure FmSt where
  /-- bytes of the 64 MiB window -/
  mem : List (Nat × Byte) := []
  tiles : List (Nat × TileSt) := []
  stage : List StageSlot := []
  lastLen : Nat := 0
  lastFrame : Nat := 0
  lastSlot : Nat := 0
  /-- the layout that the tiles were last laid out to; L2 keeps it (R419, R662) -/
  laid : List Region := [{ type := 6, first := 0, tiles := 512 }, { type := 7, first := 512, tiles := 15872 }]
  bbHead : Nat := 0
  bbCount : Nat := 0
  bbAged : Nat := 0
  tileFails : Nat := 0
  lastBad : Nat := 0
  scrubPos : Nat := 0
  /-- the newest failed check: tile, cell time, whether the scrubber's (R420) -/
  failAt : Option (Nat × Nat × Bool) := none
  scrubLeft : Nat := 0
  dropsBb : Nat := 0
  dropsDma : Nat := 0
  dropsTwin : Nat := 0
  dropsForced : Nat := 0
  ledger : List (Nat × LedSt) := []
  ledgerFrame : Nat := 0
  /-- deferred events, oldest first, and events of the present frame in order of time -/
  deferred : List Ev := []
  events : List Ev := []
  deriving DecidableEq, Repr

/-- What a pin shows: driven, pulled by the weak resistor, or high impedance (spec/18 R605). -/
inductive PinLevel where
  | hiZ | pullUp | pullDown | low | high
  deriving DecidableEq, Repr

/-- What leaves the device, oldest first (the model's own record of outputs). -/
inductive Output where
  /-- MSI-X vector (spec/13 R435) -/
  | msix (v : Nat)
  /-- in-band interrupt with its data byte (spec/13 R442) -/
  | ibi (data : Nat)
  /-- host, I3C or JTAG read data -/
  | readData (bytes : List Byte)
  /-- an I3C command that is not acknowledged -/
  | nack
  /-- the Ethernet frames of the fragments of block `frame` that a port sends in the window of traffic class `tc` (spec/13 R427, R428) -/
  | block (frame port tc : Nat) (frames : List (List Byte))
  /-- DMA data to the entry address, then the writeback to its address (spec/13 R437): engine, entry address, frame, length, WB_ADDR, its 16 bytes -/
  | dma (e : Nat) (addr : Nat) (frame len : Nat) (wb : Nat) (wbBytes : List Byte)
  /-- TYPE 0x03 response: credits free, traffic class, tag (spec/13 R433) -/
  | response (r : Response) (free tc : Nat) (tag : BitVec 128)
  /-- TYPE 0x05 reply (spec/15 R512) -/
  | sessionReply (bytes : List Byte)
  /-- twin exchange copy of a block, settings CRC and twin control messages (spec/14 R460, R470) -/
  | twinBlock (frame : Nat) (bytes : List Byte) (tag : BitVec 128)
  | twinCrc (c : TwinCrc)
  | twinMsg (m : TwinTagged)
  /-- what this device presents to its twin (spec/15 R515) -/
  | twinHello (h : TwinHello)
  /-- herd: enumeration, token, relayed command, reset request (spec/14, spec/18 R600) -/
  | herdEnum (pos : Nat) (mgr : BitVec 64) (uids : List (BitVec 64))
  | herdToken (down : Bool) (frame : Nat) (states : List (Nat × Nat × Nat)) (parts : List TokenPart) (hash : BitVec 384)
  | herdRelay (unit code target : Nat)
  | herdReset (pos target : Nat)
  /-- pins: emulator edge (quarter-cycle count), trigger level, PWR_REQ, alarm pair -/
  | edge (e : Nat) (count : Int) (t : Nat)
  | trig (k : Nat) (level : Bool)
  /-- pins whose level a boundary, a record, a reset or bring-up changed: 0 to 15 TRIG, 16 + 3 e + 0, 1, 2 EMA, EMB, EMZ, 64 the port inputs -/
  | pins (levels : List (Nat × PinLevel))
  | pwrReq (level : Bool)
  | alarm (a b : Bool)
  deriving DecidableEq, Repr

end Sys2Proof.Machine
end

