-- ==== Sys2Proof/Machine/State.lean ====
section
/-! DEFINITION. The state of the RJA-512: everything the spec gives the machine, as plain data, and the queue of waiting
commands. The reasons a step can stop. The state right after reset. -/
namespace Sys2Proof.Machine

/-- Reasons the machine stops with a fault: none. The block has no exception entry: a fault of the device is a message of
the collector (spec/16) and a next state. Safe: no command stops the machine. -/
inductive Fault : Type
  deriving DecidableEq, Repr

/-- Reasons a command is refused. -/
inductive Refusal where
  /-- A command whose meaning is not written yet; raised by exec only. Safe: the machine stops. -/
  | notModelled (mnemonic : String)
  deriving DecidableEq, Repr

/-- The state. Tables are sparse and canonical (Machine/Table.lean). -/
structure State where
  /-- the commands that wait, first in, first out -/
  pending : List Instr := []
  /-- MODEL'S OWN: counter of free values (log 1); no statement rests on its value -/
  freeCtr : Nat := 0
  /-- MODEL'S OWN: what left the device, oldest first -/
  outbox : List Output := []
  time : TimeSt := {}
  /-- registers of type RWS in force, their shadows, and registers of type RW, by BAR0 offset (spec/01 R21) -/
  inForce : List (Nat × Word) := []
  shadow : List (Nat × Word) := []
  rw : List (Nat × Word) := []
  /-- registers with an uncommitted shadow write, ascending (spec/01 R22, R38) -/
  written : List (Nat × Bool) := []
  commit : CommitSt := {}
  conf : Option Image := none
  slots : SlotSt := {}
  units : List (Nat × UnitSt) := []
  /-- record states of the last 16 boundaries, newest first: frame, units not DORMANT (spec/13 R446) -/
  hist : List (Nat × List (Nat × UState)) := []
  xg : List (Nat × XgSt) := []
  rc : List (Nat × RcSt) := []
  tone : List (Nat × ToneSt) := []
  toneBox : ToneBox := {}
  biasSplit : Bool := false
  /-- a reset at L2 that found BIAS_SPLIT = 1 turned the pin bias off (spec/04 R128) -/
  biasOff : Bool := false
  decim : Nat := 0
  ax : List (Nat × AxSt) := []
  axs : List (Nat × AxsSt) := []
  se : List (Nat × SeSt) := []
  tk : List (Nat × TkSt) := []
  /-- the persistent signature store, by (channel, SIG_ID): c * 2^32 + id (spec/08 R255) -/
  maps : List (Nat × Option MapEntry) := []
  gl : List (Nat × GlSt) := []
  rh : List (Nat × RhSt) := []
  ip : List (Nat × IpSt) := []
  sw : List (Nat × SwSt) := []
  em : List (Nat × EmSt) := []
  cmp : List (Nat × CmpSt) := []
  tg : List (Nat × TgSt) := []
  pg : List (Nat × PgSt) := []
  keep : List (Nat × Option KeepEnt) := []
  fm : FmSt := {}
  net : NetSt := {}
  hst : HstSt := {}
  twn : TwnSt := {}
  hrd : HrdSt := {}
  sec : SecSt := {}
  flt : FltSt := {}
  mon : MonSt := {}
  clk : ClkSt := {}
  rst : RstSt := {}
  deriving DecidableEq, Repr

/-- The machine right after reset: POR has been released, bring-up stands at the start of phase P0, every block is held,
every register has its reset value (the tables are empty), no configuration is loaded and no command waits (spec/18 R596,
R604, R608). -/
def State.reset : State := {}

end Sys2Proof.Machine
end

