-- ==== Sys2Proof/Machine/Ops.lean ====
section
/-! DEFINITION. The shared operations over the state: register fields, table accessors, time, units, fault messages and
conditions, the ledger's counts, interrupts and the output queue, bytes of frame memory. -/
namespace Sys2Proof.Machine

/-! ### Words and numbers -/

/-- Bits [lo + n - 1 : lo] of a word. -/
def fld (w : Word) (lo n : Nat) : Nat := w.toNat / 2 ^ lo % 2 ^ n

/-- Bit `k` of a word. -/
def bitAt (w : Word) (k : Nat) : Bool := w.toNat.testBit k

/-- `x` read as a signed number of `n` bits. -/
def signed (n x : Nat) : Int := if x % 2 ^ n < 2 ^ (n - 1) then (x % 2 ^ n : Nat) else (x % 2 ^ n : Nat) - (2 ^ n : Nat)

/-- A field read as signed. -/
def sfld (w : Word) (lo n : Nat) : Int := signed n (fld w lo n)

/-- The low `n` bits of an integer as a natural number. -/
def unsig (n : Nat) (x : Int) : Nat := (x % (2 ^ n : Nat)).toNat

/-- Saturation of an integer to signed `n` bits. -/
def satS (n : Nat) (x : Int) : Int := max (-(2 ^ (n - 1) : Nat)) (min ((2 ^ (n - 1) : Nat) - 1) x)

/-- Saturation to `n` unsigned bits. -/
def satU (n : Nat) (x : Int) : Nat := min (2 ^ n - 1) x.toNat

/-- A count that saturates at `n` bits. -/
def satInc (n x : Nat) : Nat := min (x + 1) (2 ^ n - 1)

def wordI (x : Int) : Word := BitVec.ofInt 32 x
def wordN (x : Nat) : Word := BitVec.ofNat 32 x

/-- A boolean as one bit at place `k`. -/
def flag (b : Bool) (k : Nat) : Nat := if b then 2 ^ k else 0

/-- Floor of a rational times 2^k, and ceiling; rounding to nearest with ties away from zero (spec/00 R7). -/
def floorScaled (q : Rat) (k : Nat) : Int := (q * (2 ^ k : Nat)).floor
def ceilScaled (q : Rat) (k : Nat) : Int := (q * (2 ^ k : Nat)).ceil
def roundAway (q : Rat) : Int := if 0 ≤ q then (q + 1 / 2).floor else -((-q + 1 / 2).floor)

/-- A value in a format whose rounding the spec does not state: either neighbour (log 1). -/
def lsb (q : Rat) : Int := if q.den = 1 then q.num else q.floor + (Config.lsbUp q % 2 : Nat)

/-- Rounding to nearest where the spec states no rule for ties (log 1). -/
def nearest (q : Rat) : Int :=
  let d := q - q.floor
  if d < 1 / 2 then q.floor else if 1 / 2 < d then q.floor + 1 else q.floor + (Config.lsbUp q % 2 : Nat)

/-- Set bits of a map, ascending, below `n`. -/
def mapBits (m n : Nat) : List Nat := (List.range n).filter (fun k => m.testBit k)

/-- Ceiling of a natural division. -/
def ceilDiv (a b : Nat) : Nat := (a + b - 1) / b

/-- Little-endian bytes of a number, `n` bytes (spec/00 R6). -/
def leBytes : Nat → Nat → List Byte
  | 0, _ => []
  | n + 1, x => BitVec.ofNat 8 x :: leBytes n (x / 256)

/-- The number that little-endian bytes spell. -/
def leNat : List Byte → Nat
  | [] => 0
  | b :: t => b.toNat + 256 * leNat t

/-- One bit of the reflected CRC-32C (R385). -/
def crcBit (c : Word) : Word := if c.getLsbD 0 then (c >>> 1) ^^^ 0x82F63B78 else c >>> 1
def crcByte (c : Word) (b : Byte) : Word :=
  crcBit (crcBit (crcBit (crcBit (crcBit (crcBit (crcBit (crcBit (c ^^^ b.setWidth 32))))))))
/-- CRC-32C (R385). -/
def crc32c (bs : List Byte) : Word := bs.foldl crcByte 0xFFFFFFFF ^^^ 0xFFFFFFFF

/-! ### Control of state updates -/

/-- `f` where the condition holds. -/
def doIf (c : Bool) (f : State → State) (s : State) : State := if c then f s else s

/-- `f` for every element, in order. -/
def doFor {α : Type} (l : List α) (f : α → State → State) (s : State) : State := l.foldl (fun s a => f a s) s

/-- The next free value of the model (log 1). -/
def drawNat (s : State) : Nat × State := (Config.freeWord s.freeCtr, { s with freeCtr := s.freeCtr + 1 })

/-- An output. -/
def emit (o : Output) (s : State) : State := { s with outbox := s.outbox ++ [o] }

/-! ### Registers (spec/01 R21; spec/00 R5) -/

def inF (s : State) (off : Nat) : Word := Tbl.get regReset s.inForce off
def shadowOf (s : State) (off : Nat) : Word := Tbl.get regReset s.shadow off
def rwOf (s : State) (off : Nat) : Word := Tbl.get regReset s.rw off
def setInF (off : Nat) (v : Word) (s : State) : State := { s with inForce := Tbl.set regReset s.inForce off v }
def setShadow (off : Nat) (v : Word) (s : State) : State := { s with shadow := Tbl.set regReset s.shadow off v }
def setRw (off : Nat) (v : Word) (s : State) : State := { s with rw := Tbl.set regReset s.rw off v }
/-- A 64-bit pair of RW registers. -/
def rw64 (s : State) (off : Nat) : Nat := (rwOf s off).toNat + 2 ^ 32 * (rwOf s (off + 4)).toNat

/-! ### Table accessors -/

/-- Infrastructure units of Table 2-2. -/
def isInfra (u : Nat) : Bool := (0x610 ≤ u && u ≤ 0x61B) || (0x620 ≤ u && u ≤ 0x627)

/-- What an unlisted unit reads as: an infrastructure unit is ACTIVE (spec/02 R46), every other unit DORMANT. -/
def unitDef (u : Nat) : UnitSt := if isInfra u then { st := .active, recSt := .active } else {}

def unitOf (s : State) (u : Nat) : UnitSt := Tbl.get unitDef s.units u
def modUnit (u : Nat) (f : UnitSt → UnitSt) (s : State) : State :=
  { s with units := Tbl.set unitDef s.units u (f (unitOf s u)) }

def constD {α : Type} (a : α) : Nat → α := fun _ => a

def xgOf (s : State) (g : Nat) : XgSt := Tbl.get (constD {}) s.xg g
def modXg (g : Nat) (f : XgSt → XgSt) (s : State) : State := { s with xg := Tbl.set (constD {}) s.xg g (f (xgOf s g)) }
def rcOf (s : State) (c : Nat) : RcSt := Tbl.get (constD {}) s.rc c
def modRc (c : Nat) (f : RcSt → RcSt) (s : State) : State := { s with rc := Tbl.set (constD {}) s.rc c (f (rcOf s c)) }
def toneOf (s : State) (g : Nat) : ToneSt := Tbl.get (constD {}) s.tone g
def modTone (g : Nat) (f : ToneSt → ToneSt) (s : State) : State :=
  { s with tone := Tbl.set (constD {}) s.tone g (f (toneOf s g)) }
def axOf (s : State) (a : Nat) : AxSt := Tbl.get (constD {}) s.ax a
def modAx (a : Nat) (f : AxSt → AxSt) (s : State) : State := { s with ax := Tbl.set (constD {}) s.ax a (f (axOf s a)) }
def axsOf (s : State) (a : Nat) : AxsSt := Tbl.get (constD {}) s.axs a
def modAxs (a : Nat) (f : AxsSt → AxsSt) (s : State) : State := { s with axs := Tbl.set (constD {}) s.axs a (f (axsOf s a)) }
def seOf (s : State) (e : Nat) : SeSt := Tbl.get (constD {}) s.se e
def modSe (e : Nat) (f : SeSt → SeSt) (s : State) : State := { s with se := Tbl.set (constD {}) s.se e (f (seOf s e)) }
def tkOf (s : State) (c : Nat) : TkSt := Tbl.get (constD {}) s.tk c
def modTk (c : Nat) (f : TkSt → TkSt) (s : State) : State := { s with tk := Tbl.set (constD {}) s.tk c (f (tkOf s c)) }
def glOf (s : State) (j : Nat) : GlSt := Tbl.get (constD {}) s.gl j
def modGl (j : Nat) (f : GlSt → GlSt) (s : State) : State := { s with gl := Tbl.set (constD {}) s.gl j (f (glOf s j)) }
def rhOf (s : State) (c : Nat) : RhSt := Tbl.get (constD {}) s.rh c
def modRh (c : Nat) (f : RhSt → RhSt) (s : State) : State := { s with rh := Tbl.set (constD {}) s.rh c (f (rhOf s c)) }
def ipOf (s : State) (p : Nat) : IpSt := Tbl.get (constD {}) s.ip p
def modIp (p : Nat) (f : IpSt → IpSt) (s : State) : State := { s with ip := Tbl.set (constD {}) s.ip p (f (ipOf s p)) }
def swOf (s : State) (k : Nat) : SwSt := Tbl.get (constD {}) s.sw k
def modSw (k : Nat) (f : SwSt → SwSt) (s : State) : State := { s with sw := Tbl.set (constD {}) s.sw k (f (swOf s k)) }
def emOf (s : State) (e : Nat) : EmSt := Tbl.get (constD {}) s.em e
def modEm (e : Nat) (f : EmSt → EmSt) (s : State) : State := { s with em := Tbl.set (constD {}) s.em e (f (emOf s e)) }
def cmpOf (s : State) (k : Nat) : CmpSt := Tbl.get (constD {}) s.cmp k
def modCmp (k : Nat) (f : CmpSt → CmpSt) (s : State) : State := { s with cmp := Tbl.set (constD {}) s.cmp k (f (cmpOf s k)) }
def tgOf (s : State) (k : Nat) : TgSt := Tbl.get (constD {}) s.tg k
def modTg (k : Nat) (f : TgSt → TgSt) (s : State) : State := { s with tg := Tbl.set (constD {}) s.tg k (f (tgOf s k)) }
def pgOf (s : State) (g : Nat) : PgSt := Tbl.get (constD {}) s.pg g
def modPg (g : Nat) (f : PgSt → PgSt) (s : State) : State := { s with pg := Tbl.set (constD {}) s.pg g (f (pgOf s g)) }
def tileOf (s : State) (t : Nat) : TileSt := Tbl.get (constD {}) s.fm.tiles t
def modTile (t : Nat) (f : TileSt → TileSt) (s : State) : State :=
  { s with fm := { s.fm with tiles := Tbl.set (constD {}) s.fm.tiles t (f (tileOf s t)) } }
def ledOf (s : State) (k : Nat) : LedSt := Tbl.get (constD {}) s.fm.ledger k
def modLed (k : Nat) (f : LedSt → LedSt) (s : State) : State :=
  { s with fm := { s.fm with ledger := Tbl.set (constD {}) s.fm.ledger k (f (ledOf s k)) } }
def fsOf (s : State) (u : Nat) : FsSt := Tbl.get (constD {}) s.flt.fs u
def modFs (u : Nat) (f : FsSt → FsSt) (s : State) : State :=
  { s with flt := { s.flt with fs := Tbl.set (constD {}) s.flt.fs u (f (fsOf s u)) } }
def bbPortOf (s : State) (k : Nat) : BbPort := Tbl.get (constD {}) s.net.ports k
def modBbPort (k : Nat) (f : BbPort → BbPort) (s : State) : State :=
  { s with net := { s.net with ports := Tbl.set (constD {}) s.net.ports k (f (bbPortOf s k)) } }
def streamOf (s : State) (k : Nat) : StreamSt := Tbl.get (constD {}) s.net.streams k
def modStream (k : Nat) (f : StreamSt → StreamSt) (s : State) : State :=
  { s with net := { s.net with streams := Tbl.set (constD {}) s.net.streams k (f (streamOf s k)) } }
def dmaOf (s : State) (e : Nat) : DmaSt := Tbl.get (constD {}) s.hst.dma e
def modDma (e : Nat) (f : DmaSt → DmaSt) (s : State) : State :=
  { s with hst := { s.hst with dma := Tbl.set (constD {}) s.hst.dma e (f (dmaOf s e)) } }
def twinResOf (s : State) (u : Nat) : TwinRes := Tbl.get (constD {}) s.twn.res u
def modTwinRes (u : Nat) (f : TwinRes → TwinRes) (s : State) : State :=
  { s with twn := { s.twn with res := Tbl.set (constD {}) s.twn.res u (f (twinResOf s u)) } }
def sessionOf (s : State) (p : Nat) : Session := Tbl.get (constD {}) s.sec.sessions p
def modSession (p : Nat) (f : Session → Session) (s : State) : State :=
  { s with sec := { s.sec with sessions := Tbl.set (constD {}) s.sec.sessions p (f (sessionOf s p)) } }
def tempOf (s : State) (k : Nat) : TempSt := Tbl.get (constD {}) s.mon.temps k
def modTemp (k : Nat) (f : TempSt → TempSt) (s : State) : State :=
  { s with mon := { s.mon with temps := Tbl.set (constD {}) s.mon.temps k (f (tempOf s k)) } }
def railOf (s : State) (k : Nat) : RailSt := Tbl.get (constD {}) s.mon.rails k
/-- UV and OV of `n` rails from `r` are masked until `t` (spec/17 R569). -/
def maskRails (r n t : Nat) (s : State) : State :=
  { s with mon := { s.mon with rails := (List.range n).foldl (fun l k => Tbl.set (constD {}) l (r + k)
      { Tbl.get (constD {}) l (r + k) with maskUntil := t }) s.mon.rails } }
/-- Ms left of the watchdog: it counts down while EN is 1 (spec/18 R601). -/
def wdtLeft (s : State) : Nat :=
  if bitAt (rwOf s (baseRST + 0x24)) 0 then s.rst.wdtLeft - (s.time.now - s.rst.wdtAt) / 1000000 else s.rst.wdtLeft
/-- The blocks of clock domain `p`, codes of kind 0x07, wait for their clock (spec/18 R607). -/
def clockHeld (s : State) (p : Nat) : Bool := s.rst.pendingClock.getLsbD (p - 1)
def modRail (k : Nat) (f : RailSt → RailSt) (s : State) : State :=
  { s with mon := { s.mon with rails := Tbl.set (constD {}) s.mon.rails k (f (railOf s k)) } }

/-! ### Time (spec/01 R13 to R16, R23) -/

/-- Tf in ns (spec/01 Table 1-4). -/
def tf (s : State) : Nat := match s.conf with | some i => i.period | none => 125000
/-- FRAME_EPOCH; 0 while no configuration is loaded. -/
def epoch (s : State) : Nat := match s.conf with | some i => i.epoch | none => 0
/-- Cell time of frame instant n, with what R39 still has to slew. -/
def instOf (s : State) (n : Nat) : Int := (epoch s + n * tf s : Nat) + s.time.slew
/-- The most recent boundary, and the first one where there is none yet. -/
def frameN (s : State) : Nat := s.time.frame.getD s.time.firstFrame
/-- FRAME_NUM as a 64-bit number; all ones before the first boundary (R15). DESIGN CHOICE, log 87: all ones too where cell time is past
FRAME_EPOCH and the device has applied no boundary yet. -/
def frame64 (s : State) : Nat := match s.time.frame with | some n => n % 2 ^ 64 | none => 2 ^ 64 - 1
/-- The present frame: before the first boundary, by cell time; frame 0 before FRAME_EPOCH (R14, R15). -/
def currentFrame (s : State) : Nat := match s.time.frame with | some n => n | none => (s.time.now - epoch s) / tf s
/-- The latest target the device accepts (R24). -/
def farLimit (s : State) : Nat := currentFrame s + 1000000
/-- The first frame whose cut-off falls after `t` (R14, R15; spec/18 R610). -/
def firstOpen (t : Nat) (s : State) : Nat :=
  if t + 4000 < epoch s then 0 else (t + 4000 - epoch s) / tf s + 1
/-- Before the first boundary the frames to come are numbered by the cell time `t` (R14; log 86). -/
def numberFrames (t : Nat) (s : State) : State :=
  let n := firstOpen t s
  { s with time := { s.time with frame := none, firstFrame := n, openFrame := n, slew := 0 } }

/-! ### Units (spec/02 R43 to R46, R66) -/

/-- KIND by Table 2-1; 0: not used. -/
def kindOf (u : Nat) : Nat :=
  if u < 0x200 then 1 else if u < 0x400 then 2 else if u < 0x480 then 3 else if u < 0x4A0 then 4
  else if u < 0x4B0 then 5 else if u < 0x4C0 then 6 else if u < 0x500 then 7 else if u < 0x600 then 8
  else if u < 0x608 then 9 else if isInfra u then 0xB else if 0x640 ≤ u ∧ u < 0x680 then 0xA
  else if 0x700 ≤ u ∧ u ≤ 0xFFF then 0xF else 0

/-- Ids of tines. -/
def isTineId (u : Nat) : Bool := 1 ≤ kindOf u && kindOf u ≤ 0xA
def isBeamId (u : Nat) : Bool := kindOf u == 0xF

/-- Every tine id, ascending. -/
def allTines : List Nat := List.range 0x608 ++ (List.range 64).map (· + 0x640)

/-- The herd position of this device: its place in the herd, 0 outside one. -/
def ownPos (s : State) : Nat := s.hrd.position.getD 0

/-- The entry of a unit in the image in force. -/
def entOf (s : State) (u : Nat) : Option UnitEnt :=
  match s.conf with | some i => i.units.find? (fun e => e.id == u) | none => none

/-- Ids that exist (R45, R66). -/
def unitExists (s : State) (u : Nat) : Bool :=
  isInfra u || u == 0xFFF ||
    (match s.conf with | some _ => (entOf s u).isSome | none => isTineId u)

/-- The units of the tree in force other than the root, in the image's order. -/
def treeUnits (s : State) : List UnitEnt :=
  match s.conf with
  | some i => i.units
  | none => allTines.map (fun u => { id := u, parent := 0xFFF, kind := kindOf u, device := ownPos s })

def parentOf (s : State) (u : Nat) : Nat := match entOf s u with | some e => e.parent | none => 0xFFF

/-- `b` is an ancestor of `u`: the parent chain is at most as long as there are beams (R57). -/
def underFuel (ents : List UnitEnt) : Nat → Nat → Nat → Bool
  | 0, _, _ => false
  | n + 1, b, u =>
    match ents.find? (fun e => e.id == u) with
    | none => false
    | some e => if e.parent == b then true else if e.parent == 0xFFF then false else underFuel ents n b e.parent

/-- Every proper descendant of `b` that is in the tree, in the image's order; of a tine: none. -/
def descendants (s : State) (b : Nat) : List UnitEnt :=
  if b = 0xFFF then treeUnits s
  else if isBeamId b then (treeUnits s).filter (fun e => underFuel (treeUnits s) 0x1000 b e.id) else []

/-- A tine held by this device (spec/14: DEVICE names the holding device). -/
def isLocal (s : State) (e : UnitEnt) : Bool := isTineId e.id && e.device == ownPos s

/-- The tines of this device under `u`, `u` itself included where it is one. -/
def localTines (s : State) (u : Nat) : List Nat :=
  if isTineId u then [u] else ((descendants s u).filter (isLocal s)).map (·.id)

/-- Every tine of this device in the tree. -/
def ownTines (s : State) : List Nat := ((treeUnits s).filter (isLocal s)).map (·.id)

/-- A beam with descendants on more than one device (Table 2-7): by the DEVICE of the tines that the image lists, and the root of a
herd image (log 26). -/
def herdSpan (s : State) (b : Nat) : Bool :=
  match s.conf with
  | none => false
  | some i =>
    i.herd && isBeamId b &&
      (b == 0xFFF ||
        (match ((descendants s b).filter (fun e => isTineId e.id)).map (·.device) with
         | [] => false
         | d :: t => t.any (fun x => x != d)))

/-- Beam `b` spans the herd and has descendants on position `k`; the root on every one. -/
def spansPos (s : State) (b k : Nat) : Bool :=
  herdSpan s b && (b == 0xFFF || (descendants s b).any (fun e => isTineId e.id && e.device == k))

/-- A spanning beam that R481 or R486 of spec/14 makes FAULTED herd-wide. -/
def herdBroken (s : State) (b : Nat) : Bool := (s.hrd.badHash ++ s.hrd.unreached).any (spansPos s b)

/-- What stays of an escalation timer whose beam is not FAULTED: the last start and the expiries (spec/16 Table 16-14). -/
def escRest (x : EscSt) : EscSt := { start := x.start, count := x.count }

def UState.code : UState → Nat
  | .dormant => 0 | .preparing => 1 | .ready => 2 | .stopping => 3 | .holding => 4 | .active => 5 | .faulted => 7

def UState.ofCode (c : Nat) : UState :=
  match c with | 0 => .dormant | 1 => .preparing | 2 => .ready | 3 => .stopping | 4 => .holding | 5 => .active | _ => .faulted

def stOf (s : State) (u : Nat) : UState := (unitOf s u).st
/-- READY or ACTIVE and such: the unit operates. -/
def running (s : State) (u : Nat) : Bool := match stOf s u with | .dormant => false | .faulted => false | _ => true

/-- WIRING of the image in force: the source at an input, and the sinks of a source. -/
def wireAt (s : State) (sink input : Nat) : Option Wire :=
  match s.conf with | some i => i.wires.find? (fun w => w.sink == sink && w.input == input) | none => none

/-! ### The ledger's counts (spec/12 R410) -/

def ledProduce (k n : Nat) (s : State) : State := modLed k (fun l => { l with produced := l.produced + n }) s
def ledConsume (k n : Nat) (s : State) : State := modLed k (fun l => { l with consumed := l.consumed + n }) s
def ledDrop (k n u : Nat) (s : State) : State :=
  if n = 0 then s
  else modLed k (fun l =>
    { l with
      dropped := l.dropped + n
      lastDrop := frame64 s % 2 ^ 32
      lastUnit := u
      firstUnit := match l.firstUnit with | some x => some x | none => some u }) s

/-! ### Fault messages (spec/16 R529 to R531) -/

/-- Default base class of a kind, as the chapters' tables state it (R530). -/
def severeKinds : List Nat := [0x01, 0x02, 0x05, 0x07, 0x18, 0x1A, 0x1B, 0x1D, 0x1F, 0x20, 0x21, 0x22, 0x23, 0x26, 0x2D, 0x31, 0x39, 0x3B, 0x3C,
  0x41, 0x43, 0x49, 0x4A, 0x4B, 0x54, 0x65, 0x66, 0x67, 0x68, 0x6A, 0x70, 0x88, 0x89, 0x93, 0x99, 0x9A, 0x9B, 0x9D, 0x9E, 0xA9, 0xB1, 0xB4, 0xB5, 0xB8]
def criticalKinds : List Nat := [0x09, 0x72, 0x8B, 0xA7, 0xA8, 0xB2, 0xBC]
def noticeKinds : List Nat := [0x00, 0x04, 0x0A, 0x14, 0x15, 0x1E, 0x27, 0x2E, 0x34, 0x35, 0x3A, 0x45, 0x46, 0x4C, 0x56, 0x58, 0x59, 0x61, 0x62, 0x63, 0x69,
  0x6B, 0x71, 0x73, 0x81, 0x82, 0x83, 0x8A, 0x8C, 0x8D, 0x94, 0x96, 0x9C, 0xA1, 0xA2, 0xA4, 0xA5, 0xB6, 0xB9]
def defaultClass (kind : Nat) : Nat :=
  if kind ∈ severeKinds then 2 else if kind ∈ criticalKinds then 3 else if kind ∈ noticeKinds then 0 else 1
/-- Kinds whose class no policy changes (R530). -/
def fixedCritical (kind : Nat) : Bool := kind ∈ [0x72, 0x8B, 0xA7, 0xA8]

/-- The last element that meets a condition. -/
def lastWhere {α : Type} (p : α → Bool) : List α → Option α
  | [] => none
  | a :: t => match lastWhere p t with | some x => some x | none => if p a then some a else none

/-- The base class in force (R533). -/
def baseClass (s : State) (u kind : Nat) : Nat :=
  if fixedCritical kind then 3
  else match s.conf with
    | none => defaultClass kind
    | some i => match lastWhere (fun e => e.isClass && decide (e.srcLo ≤ u ∧ u ≤ e.srcHi ∧ e.n ≤ kind ∧ kind ≤ e.owner)) i.policy with
      | some e => e.cls
      | none => defaultClass kind

/-- Table 16-1. -/
def mkMsg (u kind cls frame detail : Nat) : FaultMsg :=
  BitVec.ofNat 64 (u % 4096 * 2 ^ 52 + kind % 256 * 2 ^ 44 + cls % 4 * 2 ^ 42 + frame % 1024 * 2 ^ 32 + detail % 2 ^ 32)

def msgSource (m : FaultMsg) : Nat := m.toNat / 2 ^ 52 % 4096
def msgKind (m : FaultMsg) : Nat := m.toNat / 2 ^ 44 % 256
def msgClass (m : FaultMsg) : Nat := m.toNat / 2 ^ 42 % 4
def msgDetail (m : FaultMsg) : Nat := m.toNat % 2 ^ 32

def qCFG : Nat := 0
def qRST : Nat := 1
def qCLK : Nat := 2
def qFLT : Nat := 3
def qMON : Nat := 4
def qSEC : Nat := 5
def qXCG : Nat := 6
def qRIN : Nat := 7
def qAUX : Nat := 8
def qSE : Nat := 9
def qTRK : Nat := 10
def qJNT : Nat := 11
def qINC : Nat := 12
def qMOT : Nat := 13
def qFMEM : Nat := 14
def qNET : Nat := 15
def qHST : Nat := 16
def qTWN : Nat := 17
def qHRD : Nat := 18
def qUNIT : Nat := 19
/-- The fault queue of engine `e` (spec/06 R180). -/
def qEng (e : Nat) : Nat := 20 + e

/-- The messages an input queue holds at most (R531; spec/06 R180). -/
def queueCap (q : Nat) : Nat := if q < 20 then 64 else 16

def queueOf (s : State) (q : Nat) : List FaultMsg := Tbl.get (constD []) s.flt.queues q

/-- A message offered to an input queue (R531). -/
def queueMsg (q : Nat) (m : FaultMsg) (s : State) : State :=
  let s := ledProduce 8 1 s
  if (queueOf s q).length < queueCap q then
    { s with flt := { s.flt with queues := Tbl.set (constD []) s.flt.queues q (queueOf s q ++ [m]) } }
  else
    ledDrop 8 1 (msgSource m) { s with flt := { s.flt with drops := satInc 32 s.flt.drops } }

/-- A fault of unit `u` raised by the block of queue `q`; FRAME is that of the most recent boundary (R529). -/
def raiseFault (q u kind detail : Nat) (s : State) : State :=
  queueMsg q (mkMsg u kind (baseClass s u kind) (frame64 s) detail) s

/-- Key of a condition: unit, kind, and which of several (R538). -/
def condKey (u kind sub : Nat) : Nat := (u * 256 + kind) * 65536 + sub
def condOf (s : State) (u kind sub : Nat) : Bool := Tbl.get (constD false) s.flt.conds (condKey u kind sub)

/-- A condition takes a value; where it sets, its kind is raised (R538). -/
def setCond (q u kind sub : Nat) (b : Bool) (detail : Nat) (s : State) : State :=
  let was := condOf s u kind sub
  let s := { s with flt := { s.flt with conds := Tbl.set (constD false) s.flt.conds (condKey u kind sub) b } }
  if b && !was then raiseFault q u kind detail s else s

/-- A condition ends without a message. -/
def clearCond (u kind sub : Nat) (s : State) : State :=
  { s with flt := { s.flt with conds := Tbl.set (constD false) s.flt.conds (condKey u kind sub) false } }

/-- Every condition of a unit ends. -/
def clearConds (u : Nat) (s : State) : State :=
  { s with flt := { s.flt with conds := s.flt.conds.filter (fun e => e.1 / 2 ^ 24 != u) } }

/-- Status flags that are the condition of a kind without an entry among the conditions: LIMIT_HOLD of kind 0x61, CHAT of kind 0x53,
LINK_LOST of kind 0x92, XTAL_FAIL of kind 0x0B (DEDUCED, log 35). -/
def flagCond (s : State) (u : Nat) : Bool :=
  match kindOf u with
  | 2 => (pgOf s (u - 0x200)).limitHold
  | 0xA => (swOf s (u - 0x640)).chat
  | 0xB => (u == 0x619 && s.twn.linkLost) || (u == 0x612 && s.clk.xtalFail)
  | _ => false

/-- ACTIVE of FS[u] (R538). -/
def fsActive (s : State) (u : Nat) : Bool :=
  (fsOf s u).momentary || s.flt.conds.any (fun e => e.1 / 2 ^ 24 == u && e.2) || flagCond s u

/-! ### Interrupts (spec/13 R435) -/

/-- MSI-X vector `v` may be sent now. -/
def msixOpen (s : State) (v : Nat) : Bool :=
  s.hst.bme && s.hst.msixEn && (v == 63 || (!s.hst.fmask && !bitAt (rwOf s (baseHST + 0x8000 + 16 * v + 12)) 0))

/-- A vector is raised: sent, or its pending bit is set. -/
def sendVector (v : Nat) (s : State) : State :=
  if msixOpen s v then emit (.msix v) s
  else { s with hst := { s.hst with msixPend := s.hst.msixPend ||| BitVec.ofNat 64 (2 ^ v) } }

/-- Interrupt source `k` of Table 13-5 raises the vector of its INT_MAP entry; a vector of 63 is in force as 62. -/
def intSource (k : Nat) (s : State) : State :=
  let w := rwOf s (baseHST + 0x40 + 4 * k)
  if bitAt w 31 then sendVector (min (fld w 0 6) 62) s else s

/-- In-band interrupt (R442). -/
def sendIbi (data : Nat) (s : State) : State := if s.hst.i3c.ibi then emit (.ibi data) s else s

/-! ### Frame memory bytes (spec/12 R385) -/

def memByte (s : State) (a : Nat) : Byte := Tbl.get (constD 0) s.fm.mem a
def setByte (a : Nat) (b : Byte) (s : State) : State :=
  { s with fm := { s.fm with mem := Tbl.set (constD 0) s.fm.mem a b } }
def memBytes (s : State) (a n : Nat) : List Byte := (List.range n).map (fun k => memByte s (a + k))
def setBytes : Nat → List Byte → State → State
  | _, [], s => s
  | a, b :: t, s => setBytes (a + 1) t (setByte a b s)

end Sys2Proof.Machine
end

