-- ==== Sys2Proof/Machine/Crypto.lean ====
section
/-! DEFINITION. The algorithms that spec/15 names: SHA-384 and HKDF (R499, R500), AES-256-GCM (R506, R514), ECDSA and ECDH on P-384 (R501,
R508, R512). PRESUMED, log 10: their definitions are the standards' (FIPS 180-4, RFC 5869, FIPS 197, SP 800-38D, FIPS 186-5). -/
namespace Sys2Proof.Machine

/-! ### SHA-384 (FIPS 180-4) -/

/-- The largest number of `n` bits more than `a` whose `k`th power is at most `x`. -/
def rootFrom (k x : Nat) : Nat → Nat → Nat
  | 0, a => a
  | n + 1, a => rootFrom k x n (if (a + 2 ^ n) ^ k ≤ x then a + 2 ^ n else a)

def isPrime (n : Nat) : Bool := 2 ≤ n && (List.range n).all (fun d => decide (d < 2) || n % d != 0)
/-- The first 80 primes. -/
def shaPrimes : List Nat := (List.range 410).filter isPrime
/-- The first 64 bits of the fraction of the cube root of a prime, and of its square root. -/
def shaK : List (BitVec 64) := shaPrimes.map (fun p => BitVec.ofNat 64 (rootFrom 3 (p * 2 ^ 192) 67 0))
def shaIv : List (BitVec 64) := ((shaPrimes.drop 8).take 8).map (fun p => BitVec.ofNat 64 (rootFrom 2 (p * 2 ^ 128) 67 0))

/-- A number that big-endian bytes spell, and back. -/
def beNat (b : List Byte) : Nat := b.foldl (fun n x => 256 * n + x.toNat) 0
def beList (n x : Nat) : List Byte := (leBytes n x).reverse

/-- Consecutive pieces of `n` elements. -/
def pieces {α : Type} (n : Nat) (l : List α) : List (List α) := (List.range (l.length / n)).map (fun k => (l.drop (n * k)).take n)

/-- The next word of the message schedule, from the 16 before it, newest first. -/
def shaNext (w : List (BitVec 64)) : BitVec 64 :=
  let s0 (x : BitVec 64) : BitVec 64 := x.rotateRight 1 ^^^ x.rotateRight 8 ^^^ (x >>> 7)
  let s1 (x : BitVec 64) : BitVec 64 := x.rotateRight 19 ^^^ x.rotateRight 61 ^^^ (x >>> 6)
  s1 (w.getD 1 0) + w.getD 6 0 + s0 (w.getD 14 0) + w.getD 15 0

/-- The schedule of a block, oldest first. -/
def shaSchedule (block : List Byte) : List (BitVec 64) :=
  let w := ((pieces 8 block).map (fun b => BitVec.ofNat 64 (beNat b))).reverse
  ((List.range 64).foldl (fun w _ => shaNext w :: w) w).reverse

def shaRound (h : List (BitVec 64)) (kw : BitVec 64 × BitVec 64) : List (BitVec 64) :=
  match h with
  | [a, b, c, d, e, f, g, x] =>
    let t1 := x + (e.rotateRight 14 ^^^ e.rotateRight 18 ^^^ e.rotateRight 41) + ((e &&& f) ^^^ (~~~e &&& g)) + kw.1 + kw.2
    let t2 := (a.rotateRight 28 ^^^ a.rotateRight 34 ^^^ a.rotateRight 39) + ((a &&& b) ^^^ (a &&& c) ^^^ (b &&& c))
    [t1 + t2, a, b, c, d + t1, e, f, g]
  | _ => h

def shaBlock (h : List (BitVec 64)) (block : List Byte) : List (BitVec 64) :=
  ((h.zip ((shaK.zip (shaSchedule block)).foldl shaRound h))).map (fun p => p.1 + p.2)

/-- The message with its padding: 0x80, zeros, the bit length in 16 bytes. -/
def shaPad (m : List Byte) : List Byte :=
  m ++ [0x80] ++ List.replicate ((239 - m.length % 128) % 128) 0 ++ beList 16 (8 * m.length)

/-- The 48 bytes of SHA-384, in the order in which it produces them. -/
@[irreducible] def shaBytes (m : List Byte) : List Byte :=
  (((pieces 128 (shaPad m)).foldl shaBlock shaIv).flatMap (fun x => beList 8 x.toNat)).take 48

/-- A digest as a byte string, its first byte lowest (R501). -/
def digestOf (b : List Byte) : BitVec 384 := BitVec.ofNat 384 (leNat b)
def sha384 (m : List Byte) : BitVec 384 := digestOf (shaBytes m)

/-! ### HKDF-SHA-384 (RFC 5869) -/

def hmac (key m : List Byte) : List Byte :=
  let k := if 128 < key.length then shaBytes key else key
  let k := k ++ List.replicate (128 - k.length) 0
  shaBytes (k.map (· ^^^ 0x5C) ++ shaBytes (k.map (· ^^^ 0x36) ++ m))

/-- The first 48 bytes that HKDF makes of input, salt and info. -/
@[irreducible] def hkdf48 (input salt info : List Byte) : List Byte :=
  hmac (hmac (if salt.isEmpty then List.replicate 48 0 else salt) input) (info ++ [1])

/-- Its first 32 bytes as a key; a key's first byte is its lowest. -/
def keyOf (b : List Byte) : BitVec 256 := BitVec.ofNat 256 (leNat b)
def hkdf (input salt info : List Byte) : BitVec 256 := keyOf ((hkdf48 input salt info).take 32)

/-! ### AES-256 (FIPS 197) -/

def gfDouble (x : Nat) : Nat := if 128 ≤ x then (2 * x) ^^^ 0x11B else 2 * x
def gfMul (x y : Nat) : Nat :=
  ((List.range 8).foldl (fun (r : Nat × Nat) k => (if y.testBit k then r.1 ^^^ r.2 else r.1, gfDouble r.2)) (0, x)).1
/-- The inverse, 0 of 0: the power 254. -/
def gfInv (x : Nat) : Nat :=
  let x2 := gfMul x x
  let x4 := gfMul x2 x2
  let x8 := gfMul x4 x4
  let x16 := gfMul x8 x8
  let x32 := gfMul x16 x16
  let x64 := gfMul x32 x32
  gfMul (gfMul (gfMul (gfMul (gfMul (gfMul (gfMul x64 x64) x64) x32) x16) x8) x4) x2
def rotByte (x k : Nat) : Nat := (x * 2 ^ k + x / 2 ^ (8 - k)) % 256
def sBox (x : Nat) : Nat :=
  let b := gfInv x
  b ^^^ rotByte b 1 ^^^ rotByte b 2 ^^^ rotByte b 3 ^^^ rotByte b 4 ^^^ 0x63

def xorLists (a b : List Nat) : List Nat := a.zipWith (· ^^^ ·) b

/-- Word `i` of the key schedule, from the words before it, newest first. -/
def aesWord (w : List (List Nat)) (i : Nat) : List Nat :=
  let t := w.getD 0 []
  let t := if i % 8 = 0 then
      xorLists ((t.drop 1 ++ t.take 1).map sBox) [(List.range (i / 8 - 1)).foldl (fun x _ => gfDouble x) 1, 0, 0, 0]
    else if i % 8 = 4 then t.map sBox else t
  xorLists (w.getD 7 []) t

/-- The 15 round keys of 16 bytes. -/
def aesKeys (key : List Byte) : List (List Nat) :=
  let w := (pieces 4 (key.map (·.toNat))).reverse
  let w := ((List.range 52).foldl (fun w i => aesWord w (i + 8) :: w) w).reverse
  (pieces 4 w).map (·.flatten)

def shiftRows (x : List Nat) : List Nat := (List.range 16).map (fun i => x.getD ((i + 4 * (i % 4)) % 16) 0)
def mixColumn (c : List Nat) : List Nat :=
  (List.range 4).map (fun i =>
    gfDouble (c.getD i 0) ^^^ gfMul (c.getD ((i + 1) % 4) 0) 3 ^^^ c.getD ((i + 2) % 4) 0 ^^^ c.getD ((i + 3) % 4) 0)

/-- One block under the round keys. -/
def aesBlock (ks : List (List Nat)) (x : List Nat) : List Nat :=
  let x := xorLists x (ks.getD 0 [])
  let x := ((ks.drop 1).take 13).foldl (fun x k => xorLists ((pieces 4 (shiftRows (x.map sBox))).flatMap mixColumn) k) x
  xorLists (shiftRows (x.map sBox)) (ks.getD 14 [])

/-! ### Galois/Counter Mode (SP 800-38D) -/

/-- The product in GF(2^128), the first bit the most significant. -/
def ghMul (x y : Nat) : Nat :=
  ((List.range 128).foldl (fun (r : Nat × Nat) k =>
    (if x.testBit (127 - k) then r.1 ^^^ r.2 else r.1, if r.2.testBit 0 then (r.2 / 2) ^^^ (0xE1 * 2 ^ 120) else r.2 / 2)) (0, y)).1

/-- Bytes filled with zeros to whole blocks. -/
def toBlocks (b : List Byte) : List Byte := b ++ List.replicate ((16 - b.length % 16) % 16) 0

def ghash (h : Nat) (b : List Byte) : Nat := (pieces 16 b).foldl (fun y x => ghMul (y ^^^ beNat x) h) 0

def aesBytes (ks : List (List Nat)) (x : List Byte) : List Byte := (aesBlock ks (x.map (·.toNat))).map (BitVec.ofNat 8)

/-- The key stream of a 12-byte IV from counter `c` on, for `n` bytes. -/
def gcmStream (ks : List (List Nat)) (iv : List Byte) (c n : Nat) : List Byte :=
  ((List.range (ceilDiv n 16)).flatMap (fun k => aesBytes ks (iv ++ beList 4 (c + k)))).take n

/-- The 16-byte tag over additional data and ciphertext. -/
@[irreducible] def gcmTag (key : BitVec 256) (iv aad ct : List Byte) : List Byte :=
  let ks := aesKeys (leBytes 32 key.toNat)
  let h := beNat (aesBytes ks (List.replicate 16 0))
  let y := ghash h (toBlocks aad ++ toBlocks ct ++ beList 8 (8 * aad.length) ++ beList 8 (8 * ct.length))
  beList 16 (y ^^^ beNat (aesBytes ks (iv ++ beList 4 1)))

/-- Encryption and decryption are one operation: the key stream from counter 2 on. -/
@[irreducible] def gcmCrypt (key : BitVec 256) (iv x : List Byte) : List Byte :=
  x.zipWith (· ^^^ ·) (gcmStream (aesKeys (leBytes 32 key.toNat)) iv 2 x.length)

/-- AES-256-GCM decryption: key, IV, AAD, ciphertext, tag; none where the tag does not verify. -/
def gcmDecrypt (key : BitVec 256) (iv aad ct tag : List Byte) : Option (List Byte) :=
  if gcmTag key iv aad ct = tag then some (gcmCrypt key iv ct) else none

/-- The tag with an empty plaintext (R514), its first byte lowest. -/
def gmac (key : BitVec 256) (iv aad : List Byte) : BitVec 128 := BitVec.ofNat 128 (leNat (gcmTag key iv aad []))

/-! ### P-384 (FIPS 186-5, SP 800-186) -/

def p384 : Nat := 2 ^ 384 - 2 ^ 128 - 2 ^ 96 + 2 ^ 32 - 1
def p384B : Nat := 0xB3312FA7E23EE7E4988E056BE3F82D19181D9C6EFE8141120314088F5013875AC656398D8A2ED19D2A85C8EDD3EC2AEF
def p384Order : Nat := 0xFFFFFFFFFFFFFFFFFFFFFFFFFFFFFFFFFFFFFFFFFFFFFFFFC7634D81F4372DDF581A0DB248B0A77AECEC196ACCC52973
def p384Gx : Nat := 0xAA87CA22BE8B05378EB1C71EF320AD746E1D3B628BA79B9859F741E082542A385502F25DBF55296C3A545E3872760AB7
def p384Gy : Nat := 0x3617DE4A96262C6F5D9E98BF9292DC29F8F41DBD289A147CE9DA3113B5F0B8C00A60B1CE1D7E819D7A431D7C90EA0E5F

def subP (a b : Nat) : Nat := (a + (p384 - b % p384)) % p384
/-- A power, by squaring. -/
def powMod (m a e : Nat) : Nat :=
  ((List.range 384).foldl (fun (r : Nat × Nat) k => (if e.testBit k then r.1 * r.2 % m else r.1, r.2 * r.2 % m)) (1, a % m)).1
def invMod (m a : Nat) : Nat := powMod m a (m - 2)

/-- A point in Jacobian coordinates; Z = 0: the point at infinity. -/
abbrev Point := Nat × Nat × Nat

def pointDouble : Point → Point
  | (x, y, z) =>
    let yy := y * y % p384
    let s := 4 * x * yy % p384
    let zz := z * z % p384
    let m := 3 * subP x zz * (x + zz) % p384
    let x' := subP (m * m) (2 * s)
    (x', subP (m * subP s x') (8 * yy * yy), 2 * y * z % p384)

def pointAdd (a b : Point) : Point :=
  if a.2.2 = 0 then b
  else if b.2.2 = 0 then a
  else
    let z1 := a.2.2 * a.2.2 % p384
    let z2 := b.2.2 * b.2.2 % p384
    let u1 := a.1 * z2 % p384
    let s1 := a.2.1 * z2 * b.2.2 % p384
    let h := subP (b.1 * z1) u1
    let r := subP (b.2.1 * z1 * a.2.2) s1
    if h = 0 then (if r = 0 then pointDouble a else (1, 1, 0))
    else
      let hh := h * h % p384
      let v := u1 * hh % p384
      let x := subP (r * r) (hh * h + 2 * v)
      (x, subP (r * subP v x) (s1 * hh * h), h * a.2.2 * b.2.2 % p384)

/-- `k` times a point. -/
def pointMul (k : Nat) (p : Point) : Point :=
  (List.range 384).foldl (fun q i => let q := pointDouble q; if k.testBit (383 - i) then pointAdd q p else q) (1, 1, 0)

/-- Affine coordinates. -/
def pointAffine (p : Point) : Nat × Nat :=
  let i := invMod p384 p.2.2
  (p.1 * i * i % p384, p.2.1 * i * i * i % p384)

def p384G : Point := (p384Gx, p384Gy, 1)

/-- The point of a 96-byte field, X then Y, each 48 bytes little-endian (R501); none where it is not on the curve. -/
def pointOf (b : List Byte) : Option Point :=
  let x := leNat (b.take 48)
  let y := leNat ((b.drop 48).take 48)
  if b.length = 96 ∧ x < p384 ∧ y < p384 ∧ y * y % p384 = (x * x * x + (p384 - 3) * x + p384B) % p384 then some (x, y, 1) else none

/-- The 96-byte field of a private scalar's public key. -/
@[irreducible] def publicKey (d : Nat) : List Byte :=
  let q := pointAffine (pointMul d p384G)
  leBytes 48 q.1 ++ leBytes 48 q.2

/-- The digest of a message as the number that ECDSA signs. -/
def signedNumber (m : List Byte) : Nat := beNat (shaBytes m)

/-- ECDSA with SHA-384: public key field, message, r and s of 48 bytes little-endian each. -/
@[irreducible] def ecdsaVerify (pub m sig : List Byte) : Bool :=
  let r := leNat (sig.take 48)
  let s := leNat ((sig.drop 48).take 48)
  match pointOf pub with
  | none => false
  | some q =>
    if sig.length = 96 ∧ 1 ≤ r ∧ r < p384Order ∧ 1 ≤ s ∧ s < p384Order then
      let w := invMod p384Order s
      let p := pointAdd (pointMul (signedNumber m * w % p384Order) p384G) (pointMul (r * w % p384Order) q)
      p.2.2 != 0 && (pointAffine p).1 % p384Order == r
    else false

/-- A scalar in [1, n - 1] of any number. -/
def scalarOf (x : Nat) : Nat := x % (p384Order - 1) + 1

/-- The signature of a message by a private scalar, with the number per signature `k` (log 10: the spec does not say how it is chosen). -/
@[irreducible] def ecdsaSign (d k : Nat) (m : List Byte) : List Byte :=
  let k := scalarOf k
  let r := (pointAffine (pointMul k p384G)).1 % p384Order
  leBytes 48 r ++ leBytes 48 (invMod p384Order k * (signedNumber m + r * d) % p384Order)

/-- ECDH of a private scalar and a public key field: the x coordinate, 48 bytes little-endian as in every structure (R501). DESIGN CHOICE,
log 10: the spec does not say what a field that is no point gives; a free value. -/
@[irreducible] def ecdh (d : Nat) (pub : List Byte) : List Byte :=
  match pointOf pub with
  | some q => leBytes 48 (pointAffine (pointMul d q)).1
  | none => leBytes 48 (Config.openNat 13 (leNat pub))

/-! ### The IV of a tag (R514) -/

/-- The 12-byte IV. -/
def gcmIv (domain counter : Nat) : List Byte := leBytes 4 domain ++ leBytes 8 counter

/-! ### Identity (R499, R500) -/

/-- The bytes of an info string. -/
def ascii (t : String) : List Byte := t.toList.map (fun c => BitVec.ofNat 8 c.toNat)

/-- A draw of the private scalar, with the counter byte after the info string (DESIGN CHOICE, log 108). -/
@[irreducible] def identityDraw (c : Nat) : Nat :=
  leNat (hkdf48 (leBytes 32 Config.deviceSecret.toNat) [] (ascii "RJA-512 identity" ++ [BitVec.ofNat 8 c]))

/-- The identity key: the first draw in [1, n - 1]. -/
def identityKey : Option Nat :=
  ((List.range 256).find? (fun c => decide (1 ≤ identityDraw c ∧ identityDraw c < p384Order))).map identityDraw
@[irreducible] def identityScalar : Nat := identityKey.getD 1

/-- The identity public key, 96 bytes. -/
def identityPub : List Byte := publicKey identityScalar

/-- A signature by the identity key. -/
def identitySign (m : List Byte) : List Byte := ecdsaSign identityScalar (Config.openNat 14 (leNat m)) m

/-- DEVICE_UID: the first 8 bytes of SHA-384 of the identity public key, as a u64. -/
def uidOf (pub : List Byte) : Nat := leNat ((shaBytes pub).take 8)
def deviceUid : Nat := uidOf identityPub
def uidBytes : List Byte := leBytes 8 deviceUid

/-- A certificate of at most 2,048 bytes that binds a key to its UID under the root. -/
def certGood (cert pub : List Byte) : Bool := decide (cert.length ≤ 2048) && Config.certBinds cert pub (uidOf pub)

end Sys2Proof.Machine
end

