-- ==== Sys2Proof/Machine/TwinLink.lean ====
section
/-! DEFINITION. Traffic of the twin link: when it flows, its counts and tags (spec/14 R459, R460; spec/15 R514), and the units that a joining
device hides (spec/14 R464). -/
namespace Sys2Proof

/-- The bytes of a control message; no rule gives them. Log 108. -/
opaque Config.twinWire : TwinMsg → List Byte

end Sys2Proof

namespace Sys2Proof.Machine

/-- TWIN flag of the image in force. -/
def twinImage (s : State) : Bool := match s.conf with | some i => i.twin | none => false

/-- The link carries traffic: LINK_UP, session 9 open, and an image in force with the TWIN flag (R459, R515). -/
def twinTalks (s : State) : Bool := s.twn.linkUp && (sessionOf s 9).isOpen && twinImage s

def modTwn (f : TwnSt → TwnSt) (s : State) : State := { s with twn := f s.twn }

/-- The domain of traffic from a role: 4 role A, 5 role B. -/
def twinDomain (role : Bool) : Nat := if role then 5 else 4

/-- The tag of message number `k` from a role (R514). -/
def twinTag (s : State) (role : Bool) (k : Nat) (b : List Byte) : BitVec 128 := gmac (sessionOf s 9).key (gcmIv (twinDomain role) k) b

/-- A message of `b` leaves with its tag where the link carries traffic. DESIGN CHOICE, log 108: the count starts at 0. -/
def twinSend (b : List Byte) (out : BitVec 128 → Output) (s : State) : State :=
  if twinTalks s then
    emit (out (twinTag s s.rst.twinRole s.twn.txCount b)) (modTwn (fun t => { t with txCount := t.txCount + 1 }) s)
  else s

/-- A control message leaves. -/
def sendTwin (m : TwinMsg) : State → State := twinSend (Config.twinWire m) (fun tag => .twinMsg { msg := m, tag })

/-- A message of `b` arrives: it counts, and `f` takes it where its tag verifies; else it is discarded (R460). -/
def twinReceive (b : List Byte) (tag : BitVec 128) (f : State → State) (s : State) : State :=
  if twinTalks s then
    let s' := modTwn (fun t => { t with rxCount := t.rxCount + 1 }) s
    if twinTag s (!s.rst.twinRole) s.twn.rxCount b = tag then f s' else s'
  else s

/-- A unit whose internal preparation in a joining twin the records do not show (R464). -/
def hiddenUnit (s : State) (u : Nat) : Bool :=
  s.twn.mode == 1 && s.twn.joiner && (kindOf u == 1 || kindOf u == 7 || kindOf u == 9)

end Sys2Proof.Machine
end

