-- ==== Sys2Proof/Machine/ResetOps.lean ====
section
/-! DEFINITION. Reset levels and sources (spec/18 R596 to R604): what each level holds and clears, the level a source has by
the fuse table, what asserting a source does, and the alarm pair's entry into the alarm state (spec/16 R545). -/
namespace Sys2Proof.Machine

/-! ### The alarm pair (spec/16 R545, R546) -/

/-- Level in force of an asserted source: 0 to 4, 5 disabled (Table 18-2, R598). -/
def fuseDefault (k : Nat) : Nat := [1, 2, 5, 5, 2, 1, 5, 2, 5, 2].getD k 5
def fuseLevel (fuse : BitVec 64) (k : Nat) : Nat :=
  let c := fuse.toNat / 16 ^ k % 16
  if 10 ≤ k then 5 else if c = 0 then fuseDefault k else if c ≤ 4 then c else 5
def sourceLevel (s : State) (code : Nat) : Nat :=
  if code ≤ 1 then 0 else if code ≤ 5 then 1
  else if 0x10 ≤ code ∧ code ≤ 0x19 then fuseLevel s.rst.fuseIn (code - 0x10) else 5

/-- The highest reach among the asserted sources that hold the whole device; 5 where none does. -/
def deviceLevel (s : State) : Nat :=
  s.rst.sources.foldl (fun m r => let l := sourceLevel s r.code; if l ≤ 2 then min m l else m) 5

/-- The slice that holds a unit (spec/01 R12). -/
def sliceOfUnit (u : Nat) : Option Nat :=
  if u < 0x200 then some (u / 64) else if 0x400 ≤ u ∧ u < 0x480 then some ((u - 0x400) / 16)
  else if 0x4C0 ≤ u ∧ u < 0x500 then some ((u - 0x4C0) / 8) else if 0x600 ≤ u ∧ u < 0x608 then some (u - 0x600)
  else if 0x620 ≤ u ∧ u < 0x628 then some (u - 0x620) else none

/-- The slices an L3 source holds (Table 18-2). -/
def sliceMask (r : SourceReq) : BitVec 8 :=
  if 0x16 ≤ r.code then BitVec.ofNat 8 (2 ^ (r.target % 8))
  else if r.code = 0x15 then match sliceOfUnit r.target with | some k => BitVec.ofNat 8 (2 ^ k) | none => 0xFF
  else 0xFF

/-- SLICE_HELD (Table 18-9): by a source, or because a release waits for the slice's PLL (R607). -/
def heldSlices (s : State) : BitVec 8 :=
  if deviceLevel s ≤ 2 ∨ s.rst.phase < 5 then 0xFF
  else s.rst.sources.foldl (fun m r => if sourceLevel s r.code = 3 then m ||| sliceMask r else m) (s.rst.pendingClock.extractLsb' 3 8)

def sliceHeld (s : State) (k : Nat) : Bool := (heldSlices s).getLsbD k

/-- A condition of R545 holds. A slice's L3 hold is no reset level of the device (DEDUCED, log 16). -/
def alarmDue (s : State) : Bool :=
  s.flt.fs.any (fun e => e.2.alarmHeld) || s.sec.alarmForced || s.flt.hbLost || decide (deviceLevel s ≤ 2) || decide (s.rst.phase < 7)

/-- The pins enter the alarm state at once where a condition holds; an interrupt of the I3C target goes with it (R442). -/
def alarmEnter (s : State) : State :=
  if alarmDue s then
    let s : State := { s with flt := { s.flt with alarmOn := true } }
    if s.flt.alarm then s
    else
      sendIbi 0 (emit (.alarm false true)
        { s with flt := { s.flt with alarm := true, alarmHold := s.time.now + 2000000, alarmCount := satInc 32 s.flt.alarmCount } })
  else s

/-- Where the last condition ends, its end is noted: the healthy state resumes at a later edge only (R545). -/
def alarmLeave (s : State) : State :=
  if s.flt.alarmOn && !alarmDue s then { s with flt := { s.flt with alarmFree := s.time.now, alarmOn := false } } else s

/-- The hub's blocks run: P4 has released them and no device-level source holds them. -/
def hubUp (s : State) : Bool := decide (4 ≤ s.rst.phase) && !s.rst.wait && decide (deviceLevel s = 5)

/-- The device runs: bring-up has reached P7 and no device-level source holds it. -/
def deviceUp (s : State) : Bool := decide (s.rst.phase = 7) && decide (deviceLevel s = 5)

/-! ### Pins of emulators, triggers and ports (R605; spec/10 R318, R327, R330, R341) -/

def emReg (s : State) (e o : Nat) : Word := inF s (baseINC + 0xE000 + 0x40 * e + o)
/-- The LINES that a register's value puts in force (spec/10 Table 10-7). -/
def linesOf (w : Word) : Nat := let n := fld w 0 21; if n = 0 then 1 else min n (2 ^ 20)
def emLines (s : State) (e : Nat) : Nat := linesOf (emReg s e 4)
def tgPol (s : State) (k : Nat) : Bool := bitAt (inF s (baseINC + 0xE800 + 0x20 * k)) 2

/-- Levels of EMA, EMB, EMZ of a listed emulator (spec/10 R318, Table 10-5). -/
def emLevels (s : State) (e : Nat) : Bool × Bool × Bool :=
  let x := emOf s e
  if stOf s (0x4A0 + e) == .dormant || !x.formed then (false, false, false)
  else
    let k := (x.emitted % 4).toNat
    (k == 1 || k == 2, k == 2 || k == 3, bitAt (emReg s e 0) 8 && decide (x.emitted % (4 * emLines s e : Nat) = 0))

def drive (b : Bool) : PinLevel := if b then .high else .low

/-- The pin map's state of group `g` in force; drive codes of the input group PG4 and undefined codes are high impedance (R605). -/
def pinMapLevel (s : State) (g : Nat) : PinLevel :=
  match s.rst.pinMapIn.toNat / 8 ^ g % 8 with
  | 1 => .pullUp
  | 2 => .pullDown
  | 3 => if g = 4 then .hiZ else .low
  | 4 => if g = 4 then .hiZ else .high
  | _ => .hiZ

/-- A level of L2 or higher holds the INC block: P4 releases it. -/
def incHeld (s : State) : Bool := decide (s.rst.phase < 5) || decide (deviceLevel s ≤ 2)

/-- The active image lists the unit. -/
def imageLists (s : State) (u : Nat) : Bool := s.conf.isSome && unitExists s u

/-- TRIG[k] where it does not pulse (R605; spec/10 R330). -/
def trigRest (s : State) (k : Nat) : PinLevel :=
  if incHeld s then pinMapLevel s (k / 8) else drive (imageLists s (0x4B0 + k) && tgPol s k)

/-- TRIG[k]. -/
def trigPin (s : State) (k : Nat) : PinLevel :=
  if !incHeld s && (tgOf s k).asserted then drive (!tgPol s k) else trigRest s k

/-- EMA, EMB, EMZ of emulator `e`. -/
def emPins (s : State) (e : Nat) : List PinLevel :=
  if incHeld s then List.replicate 3 (pinMapLevel s (2 + e / 8))
  else if imageLists s (0x4A0 + e) then (let l := emLevels s e; [drive l.1, drive l.2.1, drive l.2.2])
  else List.replicate 3 .low

/-- INA, INB, INZ of every port: inputs once the block is released. -/
def inPins (s : State) : PinLevel := if incHeld s then pinMapLevel s 4 else .hiZ

/-- Every pin of the block, with the triggers as `trig` gives them; the numbers are those of `Output.pins`. -/
def pinList (trig : State → Nat → PinLevel) (s : State) : List PinLevel :=
  (List.range 16).map (trig s) ++ ((List.range 16).map (emPins s)).flatten ++ [inPins s]

/-- The pins whose level is not what it was go out. -/
def showPins (trig : State → Nat → PinLevel) (s0 s : State) : State :=
  match ((List.range 65).zip ((pinList trig s0).zip (pinList trig s))).filter (fun x => x.2.1 != x.2.2) with
  | [] => s
  | l => emit (.pins (l.map (fun x => (x.1, x.2.2)))) s

/-- Cell time has reached `t`. -/
def setNow (t : Nat) (s : State) : State := { s with time := { s.time with now := max s.time.now t } }

/-! ### Tone checks that end (spec/04 R121, R122, R129) -/

/-- A result enters the mailbox: SEQ, NEW and interrupt source 9 (spec/04 R121; spec/13 R435, R443). -/
def toneMail (code chan : Nat) (zs zc xt : Word) (s : State) : State :=
  intSource 9 { s with toneBox := { seq := (s.toneBox.seq + 1) % 65536, fresh := true, code, chan, zs, zc, xt, busy := false } }

/-- A request of this device completes without a measurement: the result registers stay. -/
def toneCode (code chan : Nat) (s : State) : State := toneMail code chan s.toneBox.zs s.toneBox.zc s.toneBox.xt s

/-- A running check ends with ABORTED (spec/04 R129, R130). -/
def toneAbort (g : Nat) (s : State) : State :=
  match (toneOf s g).run with
  | none => s
  | some r =>
    let s := modTone g (fun t => { t with run := none }) s
    if r.requested && r.mine then toneCode 6 r.chan.val s else s

/-- Requests that wait and can no longer run end with REFUSED (spec/04 R122; log 91). -/
def toneRefuse (g : Nat) (p : ToneReq → Bool) (s : State) : State :=
  let out := (toneOf s g).queue.filter p
  doFor (out.filter (·.mine)) (fun q => toneCode 7 q.chan.val)
    (modTone g (fun t => { t with queue := t.queue.filter (fun q => !p q) }) s)

/-- A group's tone checks stop: the one that runs ABORTED, those that wait REFUSED. -/
def toneDrop (g : Nat) (s : State) : State := toneRefuse g (fun _ => true) (toneAbort g s)

/-! ### What the levels clear -/

/-- The unit tables' own counters that only L1 clears. -/
def keepUnit (_ : Nat) (x : UnitSt) : UnitSt := { esc := { count := x.esc.count } }
def keepXg (_ : Nat) (x : XgSt) : XgSt := { trips := x.trips }
def keepRc (_ : Nat) (x : RcSt) : RcSt := { detections := x.detections, saturated := x.saturated }
def keepAx (_ : Nat) (x : AxSt) : AxSt := { steps := x.steps, resyncs := x.resyncs, compEvents := x.compEvents }
def keepSe (_ : Nat) (x : SeSt) : SeSt :=
  { overruns := x.overruns, excs := x.excs, refusals := x.refusals, ecc := x.ecc, trapsRun := x.trapsRun, trapsDropped := x.trapsDropped }
def keepIp (_ : Nat) (x : IpSt) : IpSt := { qeTotal := x.qeTotal }
def keepCmp (_ : Nat) (x : CmpSt) : CmpSt := { count := x.count }
def keepTg (_ : Nat) (x : TgSt) : TgSt := { pulses := x.pulses }
def keepPg (_ : Nat) (x : PgSt) : PgSt := { guardTrips := x.guardTrips, replans := x.replans }

/-- Infrastructure and other units after a reset of the hub: every state is the reset state, ESC_COUNT kept to L1. -/
def unitsAfterHub (t : List (Nat × UnitSt)) : List (Nat × UnitSt) :=
  (t.map (fun e => (e.1, { unitDef e.1 with esc := { count := e.2.esc.count } }))).filter (fun e => decide (e.2 ≠ unitDef e.1))

/-- Items actually present, by kind. -/
def heldNow (s : State) (k : Nat) : Nat :=
  match k with
  | 0 => flag s.commit.snap.isSome 0 + flag s.slots.pend.isSome 0 + flag s.slots.stageRun.isSome 0 + (s.units.filter (fun e => e.2.page.isSome)).length
      + s.net.msgs.length
  | 1 => s.se.foldl (fun n e => n + (mapBits e.2.unread.toNat 16).length * 8 + e.2.fifo.length) 0
  | 2 => s.fm.stage.length
  | 3 => flag s.hrd.token.isSome 0
  | 4 => s.ip.foldl (fun n e => n + e.2.held) 0
  | 5 => s.em.foldl (fun n e => n + e.2.queue.foldl (fun m r => m + r.2) 0) 0
  | 6 => s.fm.stage.foldl (fun n e => n + e.copies.length) 0
  | 7 => s.fm.deferred.length + s.fm.events.length
  | _ => s.flt.queues.foldl (fun n e => n + e.2.length) 0

/-- Unread capture entries of an engine. -/
def unreadOf (x : SeSt) : Nat := (mapBits x.unread.toNat 16).length * 8 + x.fifo.length

/-- The items that an L2 reset ends: pending requests are discarded; capture entries, the token, counting transitions, emulator edges, events
and queued messages are dropped (R411, R412; spec/10 R341). Unfinished blocks end without counting (R419; log 17). -/
def dropQueued (s : State) : State :=
  let s := ledConsume 0 (heldNow s 0) s
  let s := doFor s.se (fun e => ledDrop 1 (unreadOf e.2) (0x600 + e.1)) s
  let s := ledDrop 3 (heldNow s 3) 0x61A s
  let s := doFor s.em (fun e => ledDrop 5 (e.2.queue.foldl (fun m r => m + r.2) 0) (0x4A0 + e.1))
    (doFor s.ip (fun e => ledDrop 4 e.2.held (0x480 + e.1)) s)
  ledDrop 8 (heldNow s 8) 0x613 (ledDrop 7 (heldNow s 7) 0x616 s)

/-- Offsets of RW registers outside the hub blocks: the fawn domain's (spec/17 R587) and the endpoint's MSI-X table. -/
def fawnReg (off : Nat) : Bool := baseCLK + 0x40 ≤ off && off < baseCLK + 0x60
def endpointReg (off : Nat) : Bool := baseHST + 0x8000 ≤ off && off < baseHST + 0x8400

/-- The ledgers of the stage slots and copies, which end without counting, begin again with none held (R419; log 17). -/
def ledgerRestart (k : Nat) (l : LedSt) : LedSt :=
  if k = 2 ∨ k = 6 then { l with snapP := l.produced, snapC := l.consumed, snapD := l.dropped, held := 0, firstUnit := none } else l

/-- An L2 reset: hub blocks and slices are held and cleared (R596; R415, R419, R511, R566, R592 and the counters that their
tables clear at L1 only). The fawn domain, boot path, PCIe endpoint core and persistent store are kept; a STAGE cut off in its write leaves
STAGED empty (spec/02 R72). -/
def hubReset (s0 : State) : State :=
  let s := dropQueued s0
  let z : State := {}
  { z with
    pending := s.pending, freeCtr := s.freeCtr, outbox := s.outbox
    time := { now := s.time.now }
    rw := Tbl.keep (fun o => fawnReg o || endpointReg o) s.rw
    slots := { active := s.slots.active, previous := s.slots.previous, velvet := s.slots.velvet
               staged := if s.slots.stageRun.isSome then none else s.slots.staged }
    units := unitsAfterHub s.units
    xg := Tbl.mapVals (constD {}) keepXg s.xg
    rc := Tbl.mapVals (constD {}) keepRc s.rc
    biasSplit := false
    biasOff := s.biasOff || s.biasSplit
    decim := s.decim
    ax := Tbl.mapVals (constD {}) keepAx s.ax
    se := Tbl.mapVals (constD {}) keepSe s.se
    maps := s.maps
    ip := Tbl.mapVals (constD {}) keepIp s.ip
    sw := s.sw
    cmp := Tbl.mapVals (constD {}) keepCmp s.cmp
    tg := Tbl.mapVals (constD {}) keepTg s.tg
    pg := Tbl.mapVals (constD {}) keepPg s.pg
    keep := s.keep
    fm := { s.fm with stage := [], deferred := [], events := [], scrubLeft := 0, ledger := Tbl.mapVals (constD {}) ledgerRestart s.fm.ledger }
    net := { ctSet := s.net.ctSet }
    hst := { linkUp := s.hst.linkUp, width := s.hst.width, rate := s.hst.rate, bme := s.hst.bme, d3hot := s.hst.d3hot, aer := s.hst.aer, msixEn := s.hst.msixEn,
             fmask := s.hst.fmask, msixPend := s.hst.msixPend, i3c := { saddr := s.hst.i3c.saddr } }
    twn := { disagreements := s.twn.disagreements, missing := s.twn.missing }
    hrd := { position := s.hrd.position }
    sec := { s.sec with
             atBoundary := none
             sessions := Tbl.mapVals (constD {}) (fun _ x => { epoch := x.epoch, issued := x.issued }) s.sec.sessions }
    flt := { alarm := s.flt.alarm, alarmHold := s.flt.alarmHold, alarmOn := s.flt.alarmOn, alarmCount := s.flt.alarmCount, alarmFree := s.flt.alarmFree, alarmLevel := s.flt.alarmLevel
             hbLost := s.flt.hbLost, hbLast := s.flt.hbLast, hbLostAt := s.flt.hbLostAt, flHead := s.flt.flHead, flWraps := s.flt.flWraps, flOpen := s.flt.flOpen
             ring := s.flt.ring, ringHead := s.flt.ringHead, ringHeld := s.flt.ringHeld, notStored := s.flt.notStored
             ringSecond := s.flt.ringSecond, ringInSecond := s.flt.ringInSecond, heldBack := s.flt.heldBack }
    mon := { age := Tbl.mapVals (constD {}) (fun _ a => { test := a.test }) s.mon.age
             lifeOn := s.mon.lifeOn, lifeEq := s.mon.lifeEq, lifeHot := s.mon.lifeHot, lifePeak := s.mon.lifePeak
             lifeSaved := s.mon.lifeSaved, savedA := s.mon.savedA, savedB := s.mon.savedB }
    clk := { s.clk with
             level := 2, pend := none, waking := false, slicesReady := none, seq := 0, toSleep := false
             result := if s.clk.pend.isSome then 0xB else 0, pendingLevel := 2, actFrame := 0
             modErrRaised := false }
    rst := { s.rst with wdtLeft := 0x3E8, wdtAt := s.time.now, idle := [], calib := 0, pendingClock := 0 } }

/-- The challenge of the debug port is drawn anew (spec/15 R517). -/
def drawChal (s : State) : State :=
  let (x, s) := drawNat s
  { s with sec := { s.sec with dbgChal := BitVec.ofNat 256 x } }

/-- An L1 reset: the boot path and the endpoint core are cleared too, with the counters and frame memory (R596; R419, R441, R479,
R517, R587). -/
def chipReset (s0 : State) : State :=
  let s := hubReset s0
  let z : State := {}
  drawChal
    { s with
      rw := Tbl.keep fawnReg s.rw
      units := [], xg := [], rc := [], ax := [], se := [], ip := [], cmp := [], tg := [], pg := [], fm := {}
      hst := {}, twn := {}, hrd := {}, net := {}, biasOff := false
      sec := { s.sec with dbgUnlocked := false, dbgLocked := decide (s.sec.burned ≠ 0), alarmForced := false, fusesOk := false, identityOk := false }
      flt := { s.flt with flHead := 0, flWraps := 0, flOpen := [] }
      mon := { s.mon with age := [] }
      clk := { z.clk with
               result := s.clk.result, wakeCause := s.clk.wakeCause, wakeSwitch := s.clk.wakeSwitch, xtalFail := s.clk.xtalFail
               rcTrim := s.clk.rcTrim, rcTrimmed := s.clk.rcTrimmed, pwrReq := s.clk.pwrReq, refOk := s.clk.refOk } }

/-- The CRC-32C of a copy of the life odometer. DESIGN CHOICE, log 110: the fields in order, 8, 16, 8 and 4 bytes. -/
def lifeCrc (on eq hot : Nat) (peak : Int) : Word := crc32c (leBytes 8 on ++ leBytes 16 eq ++ leBytes 8 hot ++ leBytes 4 (unsig 32 peak))

/-- The counters as a copy. -/
def lifeCopy (m : MonSt) : LifeCopy :=
  let eq := (m.lifeEq * (2 ^ 32 : Nat)).floor.toNat
  { on := m.lifeOn, eq, hot := m.lifeHot, peak := m.lifePeak, crc := lifeCrc m.lifeOn eq m.lifeHot m.lifePeak }

/-- The counters are written to the persistent store, in two copies (spec/16 R555). -/
def odometerSave (s : State) : State :=
  let c := some (lifeCopy s.mon)
  { s with mon := { s.mon with lifeSaved := s.mon.lifeOn, savedA := c, savedB := c } }

/-- A copy that passes its CRC. -/
def lifeGood (c : Option LifeCopy) : Option LifeCopy := c.filter (fun c => c.crc == lifeCrc c.on c.eq c.hot c.peak)

/-- The counters reloaded from the store: of the copies that pass, the one with more LIFE_ON; with none, 0 (DESIGN CHOICE, log 110). -/
def lifeLoad (m : MonSt) : MonSt :=
  let z : MonSt := { savedA := m.savedA, savedB := m.savedB }
  let best := match lifeGood m.savedA, lifeGood m.savedB with
    | some a, some b => some (if a.on < b.on then b else a)
    | some a, none => some a
    | none, b => b
  match best with
  | some c => { z with lifeOn := c.on, lifeEq := (c.eq : Rat) / (2 ^ 32 : Nat), lifeHot := c.hot, lifePeak := c.peak, lifeSaved := c.on }
  | none => z

/-- An L0 reset: only the persistent store and the fuses remain (R571, R555, R549, R559, spec/15). -/
def coldReset (s0 : State) : State :=
  let s := chipReset s0
  let z : State := {}
  { s with
    rw := [], sw := []
    flt := { z.flt with ring := s.flt.ring, ringHead := s.flt.ringHead, ringHeld := s.flt.ringHeld, notStored := s.flt.notStored
                        ringSecond := s.flt.ringSecond, ringInSecond := s.flt.ringInSecond
                        alarm := s.flt.alarm, alarmOn := s.flt.alarmOn, alarmLevel := s.flt.alarmLevel, alarmHold := s.flt.alarmHold
                        alarmCount := flag s.flt.alarm 0 }
    mon := lifeLoad s.mon
    sec := { s.sec with tamperCause := 0 }
    clk := {}
    rst := { z.rst with seen := 0, fuse := s.rst.fuse, pinMap := s.rst.pinMap, sources := s.rst.sources } }

/-- The slice's blocks stop: groups undriven, channels and auxiliary channels without samples, engine and trackers stopped, their conditions
at an end; ownership stays (spec/03 R89) (R596; R99, R128, R129, R156, R195, R274; spec/01 R12). -/
def sliceReset (k : Nat) (s : State) : State :=
  let inTk (c : Nat) : Bool := c / 64 == k
  let s := ledDrop 1 (unreadOf (seOf s k)) (0x600 + k) (doFor ((List.range 8).map (8 * k + ·)) toneDrop s)
  { s with
    xg := Tbl.mapVals (constD {}) (fun g x => if g / 8 == k then { keepXg g x with owner := x.owner } else x) s.xg
    rc := Tbl.mapVals (constD {}) (fun c x => if (if c < 512 then c / 64 else (c - 512) / 8) == k then keepRc c x else x) s.rc
    tone := Tbl.mapVals (constD {}) (fun g x => if g / 8 == k then { due := x.due } else x) s.tone
    ax := Tbl.mapVals (constD {}) (fun a x => if a / 16 == k then keepAx a x else x) s.ax
    axs := Tbl.mapVals (constD {}) (fun a x => if a == k then {} else x) s.axs
    se := Tbl.mapVals (constD {}) (fun e x =>
      if e == k then { keepSe e x with prog := x.prog, bankA := x.bankA, bankB := x.bankB, hits := x.hits.filter (fun h => h.mem != .data) }
      else x) s.se
    tk := Tbl.mapVals (constD {}) (fun c x => if inTk c then { map := x.map, cand := x.cand, verified := x.verified, mapResult := x.mapResult,
                                                               mapFrame := x.mapFrame, learnResult := x.learnResult } else x) s.tk
    rh := Tbl.mapVals (constD {}) (fun c x => if inTk c then {} else x) s.rh
    flt := { s.flt with conds := s.flt.conds.filter (fun e => !(sliceOfUnit (e.1 / 2 ^ 24) == some k && isTineId (e.1 / 2 ^ 24))) } }

/-! ### Asserting a source -/

/-- The phase at whose entry a level waits (R603). -/
def levelPhase (l : Nat) : Nat := [0, 1, 4].getD l 8

/-- An asserted source holds the entry of phase `p`. -/
def phaseHeld (s : State) (p : Nat) : Bool := s.rst.sources.any (fun r => decide (levelPhase (sourceLevel s r.code) ≤ p))

/-- The bit of RST_SEEN of a source (Table 18-8). -/
def seenBit (code : Nat) : Word := BitVec.ofNat 32 (2 ^ code)

/-- What a device-level source does on assertion: the blocks are cleared and bring-up returns to the level's first phase. -/
def holdDevice (l : Nat) (s0 : State) : State :=
  let s := if l = 0 then coldReset s0 else if l = 1 then chipReset s0 else hubReset s0
  let p := levelPhase l
  { s with rst := { s.rst with
      phase := min s.rst.phase p
      wait := if p ≤ s.rst.phase then true else s.rst.wait
      phaseFail := if l ≤ 1 then false else s.rst.phaseFail
      fails := if l ≤ 1 then 0 else s.rst.fails } }

/-- Slices taken by an L3 source stop; an L4 handshake counts their tines as idle (R621). -/
def holdSlices (m : BitVec 8) (s : State) : State :=
  doFor ((List.range 8).filter (fun k => m.getLsbD k)) sliceReset
    { s with rst := { s.rst with
        calib := s.rst.calib &&& ~~~m
        pendingClock := s.rst.pendingClock &&& ~~~(m.setWidth 14 <<< 3)
        idle := s.rst.idle.map (fun r => { r with waiting := r.waiting.filter (fun u =>
          match sliceOfUnit u with | some k => !m.getLsbD k | none => true) }) |>.filter (fun r => !r.waiting.isEmpty) } }

/-- What one source does by its level, the source already listed (R597, R612). -/
def sourceEffect (r : SourceReq) (s : State) : State :=
  let l := sourceLevel s r.code
  if l ≤ 2 then holdDevice l s
  else if l = 3 then holdSlices (sliceMask r) s
  else if l = 4 then modUnit (if r.code ≤ 0x14 then 0xFFF else r.target) (fun x => { x with resetDue := true }) s
  else s

/-- Of several sources asserted in one cycle, the one the cause record keeps: highest reach, then lowest code (R604). -/
def topSource (s : State) : List SourceReq → Option SourceReq
  | [] => none
  | r :: t =>
    match topSource s t with
    | none => some r
    | some x =>
      let a := sourceLevel s r.code
      let b := sourceLevel s x.code
      if a < b ∨ (a = b ∧ r.code ≤ x.code) then some r else some x

/-- The source that the cause record keeps: a tamper beside any other (spec/15 R528; log 41), else the top one. -/
def causeOf (s : State) (on : List SourceReq) : Option SourceReq :=
  match on.find? (fun r => r.code == 2) with | some r => some r | none => topSource s on

/-- Sources that assert in one cycle (R597, R602 to R604). A disabled source has no effect (R598); `detail` is the cause detail. -/
def assertSources (rs : List SourceReq) (detail : Nat) (s : State) : State :=
  let on := rs.filter (fun r => decide (sourceLevel s r.code < 5))
  match topSource s on with
  | none => s
  | some top =>
    let lvl := sourceLevel s top.code
    let fr := match s.time.frame with | some n => n % 2 ^ 32 | none => 0
    let held := on.filter (fun r => decide (sourceLevel s r.code ≤ 3))
    let s' := doFor on sourceEffect { s with rst := { s.rst with sources := s.rst.sources ++ held } }
    alarmEnter (showPins trigPin s
      { s' with rst := { s'.rst with
          causeSrc := ((causeOf s on).getD top).code, causeLevel := lvl, causeDetail := detail, causeFrame := fr
          seen := on.foldl (fun w r => w ||| seenBit r.code) s'.rst.seen } })

end Sys2Proof.Machine
end

