-- ==== Sys2Proof/Machine/MemOps.lean ====
section
/-! DEFINITION. Frame memory: regions, tiles and their CRC-32C (spec/12 R385 to R391, R662). -/
namespace Sys2Proof.Machine

/-- The default layout of R662. -/
def defaultRegions : List Region := [{ type := 6, first := 0, tiles := 512 }, { type := 7, first := 512, tiles := 15872 }]

def regionsIn (s : State) : List Region := match s.conf with | some i => i.regions | none => defaultRegions

/-- The region of a type, absent with no tiles (R390). -/
def regionOf (s : State) (type : Nat) : Option Region := (regionsIn s).find? (fun r => r.type == type && r.tiles != 0)

/-- The region type of a tile; 0: unused. -/
def tileType (s : State) (t : Nat) : Nat :=
  match (regionsIn s).find? (fun r => decide (r.first ≤ t ∧ t < r.first + r.tiles)) with
  | some r => r.type
  | none => 0

def tileBytes (s : State) (t : Nat) : List Byte := memBytes s (0x1000 * t) 0x1000

/-- A device writer opens and closes a tile (R386). -/
def openTile (t : Nat) (s : State) : State := modTile t (fun x => { x with st := 1 }) s
def sealTile (t : Nat) (s : State) : State := modTile t (fun x => { x with st := 2, crc := crc32c (tileBytes s t) }) s

/-- The scrubber (`true`) or another consumer opens a tile at which the other has found a mismatch with no time passed since: both open it in
one cycle (R420; log 106). -/
def sameCycle (scrub : Bool) (t : Nat) (s : State) : Bool := s.fm.failAt == some (t, s.time.now, !scrub)

/-- A check of tile `t` has failed: it is BAD, and kind 0x70 is raised, once where the scrubber and a consumer opened it in one cycle. -/
def tileFailed (consumer t : Nat) (s : State) : State :=
  let both := sameCycle (consumer == 5) t s
  let s := modTile t (fun x => { x with st := 3 }) s
  let s := { s with fm := { s.fm with
    tileFails := satInc 16 s.fm.tileFails, lastBad := t, failAt := if both then none else some (t, s.time.now, consumer == 5) } }
  if both then s else raiseFault qFMEM 0x616 0x70 (consumer * 2 ^ 28 + tileType s t * 2 ^ 16 + t) s

/-- A consumer opens a tile (R387): whether it may use the tile, and the state after the check. -/
def checkTile (consumer t : Nat) (s : State) : Bool × State :=
  let x := tileOf s t
  if x.st == 3 || x.st == 2 && x.crc != crc32c (tileBytes s t) then (false, tileFailed consumer t s) else (true, s)

end Sys2Proof.Machine
end

