-- ==== Sys2Proof/Machine/FaultOps.lean ====
section
/-! DEFINITION. The fault collector's shared operations: policy, counting and promotion, reactions, source status, first fault,
fault log, persistent ring (spec/16 R532 to R549). -/
namespace Sys2Proof.Machine

/-- Insertion by a strict order, stable. -/
def insertBy {α : Type} (lt : α → α → Bool) (a : α) : List α → List α
  | [] => [a]
  | b :: t => if lt a b then a :: b :: t else b :: insertBy lt a t
def sortBy {α : Type} (lt : α → α → Bool) (l : List α) : List α := l.foldl (fun acc a => insertBy lt a acc) []

/-- The defaults of Table 16-5. -/
def defaultPolicy : PolicyEnt :=
  { isClass := false, cls := 0, srcLo := 0, srcHi := 0xFFF, n := 255, owner := 0xFF, w := 1, escReact := 1, react := 0x11010100 }

/-- The SOURCE entry in force for a unit (R535). -/
def policyOf (s : State) (u : Nat) : PolicyEnt :=
  match s.conf with
  | none => defaultPolicy
  | some i => (lastWhere (fun e => !e.isClass && decide (e.srcLo ≤ u ∧ u ≤ e.srcHi)) i.policy).getD defaultPolicy

/-- The owning engine of a source (spec/06 R181). -/
def ownerEngine (s : State) (u : Nat) : Nat :=
  let o := (policyOf s u).owner
  if o ≤ 7 then o else (sliceOfUnit u).getD 0

/-- The reaction bits for an effective class (R536). -/
def reactOf (s : State) (u cls : Nat) : Nat := (policyOf s u).react / 2 ^ (8 * cls) % 32

/-- Kinds for which a chapter names a status flag as the condition (R538). -/
def condKinds : List Nat :=
  [0x20, 0x21, 0x22, 0x23, 0x24, 0x25, 0x26, 0x28, 0x29, 0x2A, 0x2B, 0x30, 0x31, 0x32, 0x33, 0x40, 0x44, 0x48, 0x49, 0x51, 0x52, 0x53, 0x54,
   0x55, 0x61, 0x6A, 0x06, 0x0B, 0x42, 0x92, 0x95, 0xB0, 0xB1, 0xB3, 0xB4, 0xB5, 0xB7, 0xB8, 0xBB]

/-- A message taken from its queue in an acceptance cycle. -/
abbrev Taken := Nat × FaultMsg

/-- Order of R532 with a class of its own: highest class, then source, kind, queue. -/
def takenLt (ca : Nat) (a : Taken) (cb : Nat) (b : Taken) : Bool :=
  decide (cb < ca) || (ca == cb &&
    (decide (msgSource a.2 < msgSource b.2) || (msgSource a.2 == msgSource b.2 &&
      (decide (msgKind a.2 < msgKind b.2) || (msgKind a.2 == msgKind b.2 && decide (a.1 < b.1))))))

/-- The messages a cycle takes: for each queue named, its oldest. Acceptance is consumption (R532). -/
def takeMsgs : List (Fin 28) → State → List Taken × State
  | [], s => ([], s)
  | q :: t, s =>
    match queueOf s q.val with
    | [] => takeMsgs t s
    | m :: rest =>
      let s := ledConsume 8 1 { s with flt := { s.flt with queues := Tbl.set (constD []) s.flt.queues q.val rest } }
      let r := takeMsgs t s
      ((q.val, m) :: r.1, r.2)

/-- The boundary at which a window opened now closes (R534). -/
def windowEnd (s : State) (w : Nat) : Nat :=
  match s.time.frame with
  | some n => n + w
  | none => s.time.firstFrame + w - 1

/-- The open window of a source, closed where its boundary has come (R534, R561). -/
def windowOpen (s : State) (u : Nat) : Bool :=
  match (fsOf s u).window with
  | none => false
  | some e => match s.time.frame with | some n => decide (n < e) | none => true

/-- A message counted against its source: effective class and promotion (R533, R534). -/
def countMsg (m : FaultMsg) (s : State) : (Nat × Bool) × State :=
  let u := msgSource m
  let p := policyOf s u
  let old := fsOf s u
  let f : FsSt := if windowOpen s u then old else { old with count := 0, promoted := false, window := some (windowEnd s p.w) }
  let c := min 255 (f.count + 1)
  let prom := decide (p.n ≤ c)
  let s := modFs u (fun _ => { f with count := c, promoted := prom }) s
  ((if prom then max (msgClass m) p.cls else msgClass m, prom), s)

/-- Every taken message counted in the counting order. -/
def countAll : List Taken → State → List (Taken × Nat × Bool) × State
  | [], s => ([], s)
  | x :: t, s =>
    let r := countMsg x.2 s
    let q := countAll t r.2
    ((x, r.1) :: q.1, q.2)

/-- The 32 bytes of a fault event (spec/12 Table 12-10). -/
def faultEventBytes (r : LogRec) : List Byte :=
  [0x02, BitVec.ofNat 8 (flag r.promoted 2 + r.cls), 0, 0] ++ leBytes 4 r.frame ++ leBytes 8 r.msg.toNat ++ leBytes 8 r.time
    ++ leBytes 4 r.seq ++ leBytes 4 0

/-- An event record enters the list of the present frame: it occurs (spec/12 R399, ledger kind EVENT). -/
def addEvent (time : Nat) (bytes : List Byte) (s : State) : State :=
  ledProduce 7 1 { s with fm := { s.fm with events := s.fm.events ++ [{ time, bytes }] } }

/-- The record in the FAULTLOG ring (R548). -/
def logWrite (r : LogRec) (s : State) : State :=
  match s.fm.laid.find? (fun r => r.type == 6 && r.tiles != 0) with
  | none => s
  | some g =>
    let h := s.flt.flHead
    let s := openTile (g.first + h / 128) s
    let s := setBytes (g.first * 0x1000 + 32 * h) (faultEventBytes r) s
    { s with flt := { s.flt with
        flOpen := if (s.flt.flOpen).contains (g.first + h / 128) then s.flt.flOpen else s.flt.flOpen ++ [g.first + h / 128]
        flHead := (h + 1) % 65536, flWraps := if h = 65535 then satInc 16 s.flt.flWraps else s.flt.flWraps } }

/-- The record in the persistent ring, at most 8 a second of cell time (R549). -/
def ringWrite (r : LogRec) (s : State) : State :=
  let sec := r.time / 1000000000
  let inSec := if sec = s.flt.ringSecond then s.flt.ringInSecond else 0
  if 8 ≤ inSec then
    { s with flt := { s.flt with notStored := satInc 16 s.flt.notStored, ringSecond := sec, ringInSecond := inSec } }
  else
    { s with flt := { s.flt with
        ring := Tbl.set (constD none) s.flt.ring s.flt.ringHead (some r)
        ringHead := (s.flt.ringHead + 1) % 64
        ringHeld := min 64 (s.flt.ringHeld + 1)
        ringSecond := sec
        ringInSecond := inSec + 1 } }

/-- An engine runs (spec/06 R183). -/
def engineRuns (s : State) (e : Nat) : Bool := running s (0x600 + e) && !sliceHeld s e && !s.rst.calib.getLsbD e

/-- A trap request at the owning engine, and vector 63 (R536; spec/06 R181; spec/13 R435). -/
def queueTrap (u : Nat) (m : FaultMsg) (s : State) : State :=
  let e := ownerEngine s u
  let x := seOf s e
  let s := if engineRuns s e && decide (x.traps.length < 4) then modSe e (fun x => { x with traps := x.traps ++ [m] }) s
    else modSe e (fun x => { x with trapsDropped := satInc 16 x.trapsDropped }) s
  sendVector 63 s

/-- The blocks of slice `k` are released from L3: they stand as the reset left them, whatever was commanded meanwhile, its units are DORMANT,
and its calibration begins (spec/18 R608; spec/02 R48; spec/03 R99; spec/08 R274). -/
def startSlice (k : Nat) (s : State) : State :=
  let s := sliceReset k s
  { s with
    units := Tbl.mapVals unitDef (fun u x => if sliceOfUnit u == some k && isTineId u then
      { x with st := .dormant, recSt := .dormant, prepDone := false, rampDone := false, prepLeft := none } else x) s.units
    rst := { s.rst with calib := s.rst.calib ||| BitVec.ofNat 8 (2 ^ k) } }

/-- Slices released from L3: each waits for its PLL, held on, or starts (spec/18 R607, R608). -/
def releaseSlices (m : BitVec 8) (s : State) : State :=
  doFor ((List.range 8).filter (fun k => m.getLsbD k)) (fun k s =>
    if s.clk.sliceLock.getLsbD k then startSlice k s
    else { s with rst := { s.rst with pendingClock := s.rst.pendingClock ||| BitVec.ofNat 14 (2 ^ (3 + k)) } }) s

/-- UNIT_RESET (R536, R537): an L4 reset of a tine or beam at the next boundary, an L3 reset of a slice. -/
def unitReset (u : Nat) (s : State) : State :=
  if isTineId u || isBeamId u then
    if unitExists s u then modUnit u (fun x => { x with resetDue := true }) s else s
  else if 0x620 ≤ u ∧ u ≤ 0x627 then
    let m := BitVec.ofNat 8 (2 ^ (u - 0x620))
    releaseSlices m (holdSlices m s)
  else s

/-- The status of the source on acceptance, its FAULTED transition and the velvet's trigger (R538, R564; spec/02 R49, R63). -/
def statusAccept (m : FaultMsg) (cls : Nat) (s : State) : State :=
  let u := msgSource m
  let k := msgKind m
  let s := modFs u (fun f => { f with
      latched := true, lastKind := k, maxClass := max f.maxClass cls, lastMsg := m
      momentary := f.momentary || !(k ∈ condKinds : Bool) }) s
  let s := { s with flt := { s.flt with classCount := Tbl.set (constD 0) s.flt.classCount cls (satInc 32 (Tbl.get (constD 0) s.flt.classCount cls)) } }
  let s := if 2 ≤ cls && unitExists s u then modUnit u (fun x => { x with faultDue := true }) s else s
  match s.conf with
  | some i => if s.slots.velvet.isSome && decide (i.probation < cls) then { s with slots := { s.slots with velvetFault := true } } else s
  | none => s

/-- The reactions of a message other than CHIP_RESET (R536, R544). -/
def applyReact (u mask : Nat) (m : FaultMsg) (s : State) : State :=
  let s := if mask.testBit 0 then intSource 8 s else s
  let s := if mask.testBit 1 then queueTrap u m s else s
  let s := if mask.testBit 4 then modFs u (fun f => { f with alarmHeld := true }) s else s
  if mask.testBit 2 then unitReset u s else s

/-- The reaction mask of a message: the source's for the class, and ESC_REACT of the escalating beam (R544). -/
def maskOf (s : State) (q : Nat) (m : FaultMsg) (cls : Nat) : Nat :=
  let base := reactOf s (msgSource m) cls
  if msgKind m = 0x1F ∧ q = qFLT then base ||| (policyOf s (msgDetail m % 4096)).escReact else base

/-- One accepted message, in sequence order: number, status, records, reactions. Answers whether CHIP_RESET is asked. -/
def acceptOne (t : Nat) (x : Taken × Nat × Bool) (s : State) : State :=
  let m := x.1.2
  let cls := x.2.1
  let mask := maskOf s x.1.1 m cls
  let seq := if s.flt.seq = 0xFFFFFFFF then 1 else s.flt.seq + 1
  let r : LogRec := { promoted := x.2.2, cls, frame := frame64 s % 2 ^ 32, msg := m, time := t, seq }
  let s := { s with flt := { s.flt with seq } }
  let s := if s.flt.ffValid then s
    else { s with flt := { s.flt with ffValid := true, ffClass := cls, ffPromoted := x.2.2, ffSimult := 0, ffMsg := m, ffTime := t, ffSeq := seq } }
  let s := statusAccept m cls s
  let s := if fld (inF s baseFLT) 0 2 ≤ cls then logWrite r s else s
  let s := if cls = 3 ∨ mask.testBit 3 then ringWrite r s else s
  let s := match s.conf with
    | some i => if i.sets.evtClass ≤ cls then addEvent t (faultEventBytes r) s else s
    | none => s
  let s := if fld (rwOf s (baseHST + 0xC)) 0 2 ≤ cls then sendIbi (msgKind m) s else s
  applyReact (msgSource m) mask m s

/-- The source of the first message that asks for a chip reset (R536, R562). -/
def chipResetSource (s : State) : List (Taken × Nat × Bool) → Option Nat
  | [] => none
  | x :: t => if (maskOf s x.1.1 x.1.2 x.2.1).testBit 3 then some (msgSource x.1.2) else chipResetSource s t

/-- One acceptance cycle (R531, R532, R541). -/
def acceptCycle (queues : List (Fin 28)) (t : Nat) (s : State) : State :=
  let (taken, s) := takeMsgs (queues.take 8) s
  let order := sortBy (fun a b => takenLt (msgClass a.2) a (msgClass b.2) b) taken
  let (counted, s) := countAll order s
  let seqd := sortBy (fun a b => takenLt a.2.1 a.1 b.2.1 b.1) counted
  let had := s.flt.ffValid
  let chip := chipResetSource s seqd
  let s := doFor seqd (acceptOne t) s
  let s := if had then s else { s with flt := { s.flt with ffSimult := min 255 (seqd.length - 1) } }
  let s := alarmEnter s
  match chip with
  | some u => assertSources [{ code := 0x15, target := u }] 0 s
  | none => s

end Sys2Proof.Machine
end

