-- ==== Sys2Proof/Machine/Xcg.lean ====
section
/-! DEFINITION. Excitation groups (spec/03): carrier cycles, ramp, CONTINUOUS and BURST drive, the amplitude loop, the duty governor,
handover, the sense windows and their faults. -/
namespace Sys2Proof.Machine

def xgReg (s : State) (g o : Nat) : Word := inF s (baseXCG + 0x100 * g + o)

/-- M of Table 3-2. -/
def xgM (sel : Nat) : Nat := [16, 20, 24, 32, 40, 48, 64, 80, 96, 128, 160, 192, 256, 320].getD sel 64
def groupM (s : State) (g : Nat) : Nat := xgM (fld (xgReg s g 0) 8 4)
/-- PHASE in force, modulo M (Table 3-8). -/
def groupPhase (s : State) (g : Nat) : Nat := fld (xgReg s g 0) 16 9 % groupM s g
/-- MODE in force is BURST. -/
def burstMode (s : State) (g : Nat) : Bool := fld (xgReg s g 0) 0 2 == 1
/-- SENSE_COUNT in force. -/
def senseCount (s : State) (g : Nat) : Nat := let n := fld (xgReg s g 0x18) 0 5; if n = 0 ∨ 16 < n then 16 else n
/-- K = Tf * fc, rounded down (R87). -/
def burstK (s : State) (m : Nat) : Nat := tf s * 16 / (m * 25000)
/-- BURST is allowed (R87): Tf * fc whole, at least 3, and the frame instants on carrier cycle starts. -/
def burstAllowed (s : State) (m phase : Nat) : Bool :=
  decide (tf s * 16 % (m * 25000) = 0) && decide (3 ≤ burstK s m) &&
    decide (epoch s * 2 % 3125 = 0) && decide ((epoch s * 2 / 3125 + m - phase % m) % m = 0)
/-- The longest burst (Table 3-9). -/
def burstMax (s : State) (g : Nat) : Nat := max 2 (min (fld (xgReg s g 8) 0 8) (burstK s (groupM s g)))

/-- The group's blocks run: the device is up and RUNNING and the slice is released and calibrated. -/
def sliceRuns (s : State) (k : Nat) : Bool := deviceUp s && s.clk.level == 2 && !sliceHeld s k && !s.rst.calib.getLsbD k

/-- The sense-evaluating and driving states of Table 3-3. -/
def groupOn (s : State) (g : Nat) : Bool := running s (0x4C0 + g)

/-- Drive time up to `t` (half ns) is counted, and counting goes on from `t` where a carrier is driven now (XG_DUTY). -/
def countDrive (t : Nat) (x : XgSt) : XgSt :=
  let d := match x.carrierSince with | some a => t - a | none => 0
  let on := x.driving && (match x.cyc with | .off => false | .gapFirst => false | .gap => false | _ => true)
  { x with driven := x.driven + d, carrierSince := if on then some t else none }

/-- The code a ramp ends at (R81). -/
def rampEnd (s : State) (g : Nat) (x : XgSt) : Nat :=
  let ampl := fld (xgReg s g 4) 0 16
  if bitAt (xgReg s g 0) 4 then (if x.applied = 0 then ampl else min x.applied ampl) else ampl

/-- The code in force at a cycle or burst start (R80, R81). -/
def amplNow (s : State) (g : Nat) (x : XgSt) : Nat :=
  let ampl := fld (xgReg s g 4) 0 16
  if bitAt (xgReg s g 0) 4 then min x.applied ampl else ampl

/-- The gap of bursts goes on at decimation index `i`: continuous drive starts at the first cycle start after the boundary of its change (R97). -/
def waitsCont (x : XgSt) (i : Nat) : Bool :=
  (match x.cyc with | .gapFirst => true | .gap => true | _ => false) &&
    (match x.contAfter with | some t => decide (3125 * i ≤ t) | none => false)

/-- The cycle that starts in a driving state at decimation index `i` (R80, R82, R85, R86, R97). -/
def nextCycle (s : State) (g i : Nat) (x : XgSt) : XgSt :=
  if stOf s (0x4C0 + g) == .preparing then
    if x.rampCycle < 16 then
      { x with cyc := .ramp, rampCycle := x.rampCycle + 1, applied := if x.rampCycle = 0 then rampEnd s g x else amplNow s g x }
    else { x with cyc := .valid, applied := amplNow s g x }
  else if burstMode s g then
    if x.preBurst then { x with cyc := .valid }
    else if 0 < x.burstLeft then
      { x with cyc := if x.burstLeft = x.burstLen then .settle else .valid, burstLeft := x.burstLeft - 1 }
    else { x with cyc := match x.cyc with | .gapFirst => .gap | .gap => .gap | _ => .gapFirst }
  else if waitsCont x i then { x with cyc := .gap }
  else
    { x with
      cyc := match x.cyc with | .gapFirst => .invalid | .gap => .invalid | _ => .valid
      applied := amplNow s g x }

/-- The cycle at whose start a handover takes place: not valid, where it is none of a burst's gap (R90). -/
def handoverCycle (c : Cyc) : Cyc := match c with | .gapFirst => .gapFirst | .gap => .gap | _ => .invalid

/-- A carrier cycle start (R79, R80, R82, R84, R90, R102); the windows in force now are the cycle's (R103). -/
def cycleStart (g i : Nat) (s : State) : State :=
  modXg g (fun x =>
    let on := groupOn s g && !x.tripped
    let y := nextCycle s g i x
    let x' :=
      if !on then { x with cyc := .off, driving := false, xen := false, handover := none, driveNext := false }
      else
        match x.handover with
        | some true => { y with cyc := handoverCycle y.cyc, handover := none, driveNext := true, driving := false, xen := true }
        | some false => { y with cyc := handoverCycle y.cyc, handover := none, driving := false, xen := false }
        | none => { y with driving := x.owner, xen := x.owner }
    countDrive (3125 * i)
      { x' with
        inBurst := on && burstMode s g && stOf s (0x4C0 + g) != .preparing && !x.preBurst && decide (0 < x.burstLeft)
        cycAt := 3125 * i, cycFrame := frame64 s % 65536
        winV := xgReg s g 0x10, winI := xgReg s g 0x14, winP := xgReg s g 0x18 }) s

/-- The period that ends at a cycle start counts in a running tone check's phase: any but a burst's (spec/04 R117, R130). -/
def toneCounts (s : State) (g : Nat) : Bool :=
  let x := xgOf s g
  !x.inBurst && (match x.cyc with | .off => false | _ => true)

/-- A running tone check at a cycle start of decimation index `i`: its phase begins there, with the tone at phase 0, or a period of it has
passed. -/
def toneCycle (g i : Nat) (s : State) : State :=
  let one := if toneCounts s g then 1 else 0
  modTone g (fun t => { t with run := t.run.map (fun r =>
    if r.began then { r with periods := r.periods + one } else { r with began := true, periods := 0, from_ := i }) }) s

/-- CARRIER_CYCLE_START: only on the carrier grid of the group (R79). -/
def execCarrierCycleStart (g : Fin 64) (i : Nat) (s : State) : Host.Outcome State Fault Refusal :=
  .next (if sliceRuns s (g.val / 8) && decide ((i + groupM s g.val - groupPhase s g.val) % groupM s g.val = 0)
    then cycleStart g.val i (toneCycle g.val i s) else s)

/-- The new owner drives one decimation interval after the handover cycle start (R90). -/
def handoverDrive (g : Nat) (s : State) : State :=
  modXg g (fun x => if x.driveNext then
      countDrive (x.cycAt + 3125)
        { x with driveNext := false, driving := x.owner && groupOn s g && !x.tripped, xen := x.owner && groupOn s g && !x.tripped }
    else x) s

/-- HANDOVER_DRIVE_START. -/
def execHandoverDriveStart (g : Fin 64) (s : State) : Host.Outcome State Fault Refusal :=
  .next (if sliceRuns s (g.val / 8) then handoverDrive g.val s else s)

/-! ### Amplitude loop (R81) -/

/-- One loop update with sensed voltage `v`. -/
def loopStep (s : State) (g v a : Nat) : Nat :=
  let ampl := fld (xgReg s g 4) 0 16
  let tgt := fld (xgReg s g 0xC) 0 16
  let vlo := fld (xgReg s g 0x10) 0 16
  if vlo ≤ v ∧ 0 < v then
    let err : Int := tgt - v
    let a' : Int := a + Int.tdiv (a * err) (8 * v)
    min ampl a'.toNat
  else a

/-- LOOP_LIMIT after an update, and kind 0x25 after 64 in a row. -/
def loopLimit (g v : Nat) (s : State) : State :=
  let x := xgOf s g
  let lim := decide (x.applied = fld (xgReg s g 4) 0 16 ∧ v < fld (xgReg s g 0xC) 0 16)
  let run := if lim then min 64 (x.limRun + 1) else 0
  let s := modXg g (fun x => { x with loopLimit := lim, limRun := run }) s
  setCond qXCG (0x4C0 + g) 0x25 0 (run == 64) (v % 65536 + flag (!x.owner) 31) s

def loopUpdate (g v : Nat) (s : State) : State :=
  loopLimit g v (modXg g (fun x => { x with applied := loopStep s g v x.applied }) s)

/-! ### Bursts (R86, R88, R97, R98) -/

/-- The length of the burst serving frame n (R88): the longest selection of frames n - 2 - (GOV_HOLD - 1) to n - 2; where a frame of
the window made no selection, the longest burst. -/
def burstLength (s : State) (g n : Nat) : Nat :=
  let w := xgReg s g 8
  let lmax := burstMax s g
  if !bitAt w 16 then lmax
  else
    let hold := max 1 (fld w 24 8)
    let sel := (xgOf s g).govHist.filter (fun e => decide (e.1 + 2 ≤ n ∧ n < e.1 + 2 + hold))
    if sel.length < hold then lmax
    else min lmax (max 2 (sel.foldl (fun m e => max m e.2) 0))

/-- The mean V over a burst's valid cycles (R81), in whole codes: where it lies between two, either (log 1). -/
def burstMean (x : XgSt) : Nat := (lsb ((x.burstSum : Rat) / x.burstCount)).toNat

/-- The burst serving frame `n` starts. One that overlaps the previous merges with it and keeps its amplitude (R98, R103); at any other the
loop's update of the previous burst and a committed AMPL take effect (R80, R81). -/
def burstStart (g n : Nat) (s : State) : State :=
  let x := xgOf s g
  let len := burstLength s g n
  if 0 < x.burstLeft then
    modXg g (fun x => { x with burstLen := x.burstLen - x.burstLeft + len, burstLeft := len, burstFrame := n, preBurst := false }) s
  else
    let s := if bitAt (xgReg s g 0) 4 && decide (0 < x.burstCount) then loopUpdate g (burstMean x) s else s
    modXg g (fun x => { x with
        applied := amplNow s g x
        burstLen := len
        burstLeft := len
        burstSum := 0
        burstCount := 0
        burstFrame := n
        preBurst := false }) s

/-- The group is in a state that drives per MODE, its MODE is BURST and frame `n` is served by a burst. -/
def burstDue (s : State) (g n : Nat) : Bool :=
  burstMode s g && groupOn s g && stOf s (0x4C0 + g) != .preparing &&
    (match (xgOf s g).burstFrom with | some f => decide (f ≤ n) | none => true)

/-- BURST_START. -/
def execBurstStart (g : Fin 64) (n : Nat) (s : State) : Host.Outcome State Fault Refusal :=
  .next (if sliceRuns s (g.val / 8) && burstDue s g.val n then burstStart g.val n s else s)

/-- The burst serving frame `n` ends, where no later one has merged with it (R98): a differential zero is driven, XEN_N stays asserted (R86).
The continuous drive before the first burst ends with frame `burstFrom - 1` (R97). -/
def burstEnd (g n : Nat) (s : State) : State :=
  modXg g (fun x =>
    match x.burstFrom with
    | some f => if n + 1 < f ∨ n < x.burstFrame then x else { x with burstLeft := 0, preBurst := false }
    | none => if n < x.burstFrame then x else { x with burstLeft := 0 }) s

/-- BURST_END. -/
def execBurstEnd (g : Fin 64) (n : Nat) (s : State) : Host.Outcome State Fault Refusal :=
  .next (if sliceRuns s (g.val / 8) && burstMode s g.val && groupOn s g.val then burstEnd g.val n s else s)

/-! ### Duty governor (R88, R101) -/

/-- The first matching entry of the governor table: entry and length. -/
def govEntry (s : State) (g v : Nat) : List Nat → Option (Nat × Nat)
  | [] => none
  | k :: t =>
    if v ≤ (xgReg s g (0x20 + 8 * k)).toNat then some (k, fld (xgReg s g (0x24 + 8 * k)) 0 8) else govEntry s g v t

/-- A channel whose speed the governor may trust, in the records of the frame. -/
def govTrust (s : State) (c : Nat) : Bool :=
  let r := (tkOf s c).record
  r.fine && !r.coast && !r.boundSat && (stOf s c == .ready || stOf s c == .active)

/-- The selection of frame n: GOV_SEL and length. R88 makes it whatever MODE is in force. -/
def govSelect (s : State) (g : Nat) : Nat × Nat :=
  let w := xgReg s g 8
  let lmax := burstMax s g
  if !bitAt w 16 then (0xA, lmax)
  else
    let cs := ((List.range 8).filter (fun i => bitAt w (8 + i) && unitExists s (8 * g + i))).map (8 * g + ·)
    if cs.isEmpty || cs.any (fun c => !govTrust s c) then (9, lmax)
    else
      let v := cs.foldl (fun m c =>
        let r := (tkOf s c).record
        max m (r.speed.natAbs + r.speedBound * 64)) 0
      match govEntry s g v (List.range 8) with
      | some e => (e.1, min lmax (max 2 e.2))
      | none => (8, lmax)

/-- The governor's decision of frame `n`, on the channel records of the frame. Where it is off no selection is kept, and `burstLength` takes
the longest burst (R88). In CONTINUOUS selections are made and kept too, and GOV_SEL shows 0xA (Table 3-10; DESIGN CHOICE, log 104). -/
def governor (g n : Nat) (s : State) : State :=
  let e := govSelect s g
  modXg g (fun x => { x with
    govSel := if burstMode s g then e.1 else 0xA
    govHist := if e.1 = 0xA then [] else ((n, e.2) :: x.govHist).take 256 }) s

/-! ### Sense windows (R91, R92, R96) -/

/-- The phase window `w`, modulo 256. -/
def phaseOk (w : Word) (ph : Int) : Bool :=
  let half := fld w 24 8
  decide (((ph - sfld w 16 8 + half) % 256).toNat ≤ 2 * half)

/-- The overcurrent trip of the owner (R92): drive stops at the end of the failing cycle. -/
def tripGroup (g : Nat) (s : State) : State :=
  modXg g (fun x => { x with
      tripped := true
      trips := satInc 16 x.trips
      driven := (countDrive (x.cycAt + 3125 * groupM s g) x).driven
      driving := false
      xen := false
      carrierSince := none }) s

/-- The windows of Table 3-7 on a valid cycle that is evaluated: those in force at its start (R103). The detail of kind 0x24 is the s8 phase
extended by its sign to 16 bits (DESIGN CHOICE, log 104). -/
def senseWindows (g v i : Nat) (ph : Int) (s : State) : State :=
  let x := xgOf s g
  let vw := x.winV
  let iw := x.winI
  let n := senseCount s g
  let vLow := decide (v < fld vw 0 16)
  let vHigh := decide (fld vw 16 16 < v)
  let iLow := decide (i < fld iw 0 16)
  let iHigh := decide (fld iw 16 16 < i)
  let phF := !phaseOk x.winP ph
  let up (b : Bool) (r : Nat) : Nat := if b then min n (r + 1) else 0
  let own := flag (!x.owner) 31
  let tgt := fld (xgReg s g 0xC) 0 16
  let loop := bitAt (xgReg s g 0) 4
  let pass := !vLow && !vHigh && !iLow && !iHigh && !phF && (!loop || decide (((v : Int) - tgt).natAbs * 100 ≤ tgt))
  let good := if pass then min n (x.good + 1) else 0
  let s := modXg g (fun x => { x with
      vLow, vHigh, iLow, iHigh, phFail := phF, good
      vLoRun := up vLow x.vLoRun, vHiRun := up vHigh x.vHiRun, iLoRun := up iLow x.iLoRun, phRun := up phF x.phRun }) s
  let y := xgOf s g
  let u := 0x4C0 + g
  let s := setCond qXCG u 0x20 0 (vLow && y.vLoRun == n) (v % 65536 + own) s
  let s := setCond qXCG u 0x21 0 (vHigh && y.vHiRun == n) (v % 65536 + own) s
  let s := setCond qXCG u 0x22 0 (iLow && y.iLoRun == n) (i % 65536 + own) s
  let s := setCond qXCG u 0x24 0 (phF && y.phRun == n) (unsig 16 ph + own) s
  let s := setCond qXCG u 0x23 0 iHigh (i % 65536 + own) s
  let s := if stOf s u == .preparing && good == n then modUnit u (fun z => { z with prepDone := true }) s else s
  if iHigh && x.owner then tripGroup g s else s

/-- A gap cycle after the first (Table 3-5, kind 0x26). -/
def senseGap (g v : Nat) (s : State) : State :=
  let n := senseCount s g
  let x := xgOf s g
  let hi := decide (fld x.winV 0 16 < 4 * v)
  let run := if hi then min n (x.gapRun + 1) else 0
  let on := hi && run == n
  let s := modXg g (fun x => { x with gapRun := run, driveGap := on }) s
  setCond qXCG (0x4C0 + g) 0x26 0 on (v % 65536 + flag (!x.owner) 31) s

/-- The end of a carrier cycle (R77, R91): by what the cycle was. The phase is an s8; the frame kept is that of the cycle's start. The loop
takes no cycle of the continuous drive before the first burst (log 90). -/
def senseCycle (g v i : Nat) (p : Int) (s : State) : State :=
  let x := xgOf s g
  let ph := signed 8 (unsig 8 p)
  let meas (s : State) : State := modXg g (fun x => { x with v, i, ph, measFrame := x.cycFrame }) s
  match x.cyc with
  | .ramp => meas s
  | .valid =>
    let s := senseWindows g v i ph (meas s)
    let y := xgOf s g
    if bitAt (xgReg s g 0) 4 && !y.tripped then
      if burstMode s g && stOf s (0x4C0 + g) != .preparing then
        if y.preBurst then s else modXg g (fun x => { x with burstSum := x.burstSum + v, burstCount := x.burstCount + 1 }) s
      else loopUpdate g v s
    else s
  | .gap => senseGap g v s
  | _ => s

/-- SENSE_CYCLE. -/
def execSenseCycle (g : Fin 64) (v i : Nat) (ph : Int) (s : State) : Host.Outcome State Fault Refusal :=
  .next (if sliceRuns s (g.val / 8) && groupOn s g.val then senseCycle g.val v i ph s else s)

/-! ### What boundaries and commits do to a group -/

/-- A group enters PREPARING: the ramp of Table 3-3 begins. -/
def groupPrepare (g : Nat) (s : State) : State :=
  modXg g (fun x => { x with rampCycle := 0, good := 0, vLoRun := 0, vHiRun := 0, iLoRun := 0, phRun := 0, gapRun := 0, limRun := 0,
                             burstLen := 0, burstLeft := 0, burstSum := 0, burstCount := 0, preBurst := false }) s

/-- From boundary `n` drive is to be by bursts: it stays continuous up to the burst serving frame n + 2 (R97). -/
def toBursts (g n : Nat) (s : State) : State :=
  modXg g (fun x => { x with burstFrom := some (n + 2), burstLen := 0, burstLeft := 0, burstSum := 0, burstCount := 0, burstFrame := 0, preBurst := true }) s

/-- From boundary `n` drive is to be continuous; DRIVE_GAP, the condition of bursts, no longer holds (R96, R97). -/
def toContinuous (g n : Nat) (s : State) : State :=
  clearCond (0x4C0 + g) 0x26 0
    (modXg g (fun x => { x with burstFrom := none, contAfter := some (2 * instOf s n).toNat, burstLeft := 0, burstSum := 0, burstCount := 0, preBurst := false, gapRun := 0, driveGap := false }) s)

/-- AMP_LOOP falls to 0: LOOP_LIMIT, the loop's condition, no longer holds (R81, R96). -/
def loopOff (g : Nat) (s : State) : State :=
  clearCond (0x4C0 + g) 0x25 0 (modXg g (fun x => { x with loopLimit := false, limRun := 0 }) s)

/-- A group becomes READY with MODE = BURST: drive stays continuous to the first burst as after a change of MODE (R97; log 20). -/
def groupReady (g n : Nat) (s : State) : State := if burstMode s g then toBursts g n s else s

/-- A group leaves the sense-evaluating states: its condition flags clear (R96). -/
def groupOff (g : Nat) (s : State) : State :=
  clearConds (0x4C0 + g)
    (modXg g (fun x => { x with vLow := false, vHigh := false, iLow := false, iHigh := false, phFail := false, loopLimit := false,
                                driveGap := false, vLoRun := 0, vHiRun := 0, iLoRun := 0, phRun := 0, gapRun := 0, limRun := 0, good := 0 }) s)

/-- CLEAR and RESET clear TRIPPED (R92). -/
def groupClear (g : Nat) (s : State) : State := modXg g (fun x => { x with tripped := false }) s

/-- Ownership in force from a boundary (R89, R90): a group that operates is handed over, any other changes at once, one in a held slice
too (R99). Ownership that passes ends a running tone check (spec/04 R129). -/
def setOwner (g : Nat) (own : Bool) (s : State) : State :=
  if (xgOf s g).owner == own then s
  else
    modXg g (fun x =>
      if groupOn s g && !sliceHeld s (g / 8) then { x with owner := own, handover := some own, xen := x.xen || own }
      else { x with owner := own }) (toneAbort g s)

/-- A committed change of XG_CTRL at boundary `n` (R93, R97, R660): the value in force after it. A refusal reloads the refused fields of the
shadow. A change of M_SEL or PHASE that would leave MODE = BURST in force where R87 is not met is refused like one of a group that is not
DORMANT (DEDUCED, log 90). -/
def xgCtrlChange (g n : Nat) (v : Word) (s : State) : Word × State :=
  let off := baseXCG + 0x100 * g
  let old := inF s off
  let gridChg := decide (fld v 8 4 ≠ fld old 8 4 ∨ fld v 16 9 ≠ fld old 16 9)
  let stuck := fld v 0 2 == 1 && fld old 0 2 == 1 && !burstAllowed s (xgM (fld v 8 4)) (fld v 16 9)
  let refuseGrid := gridChg && (stOf s (0x4C0 + g) != .dormant || stuck)
  let keepGrid (w : Word) : Word := (w &&& 0xFE00F0FF) ||| (old &&& 0x01FF0F00)
  let keepMode (w : Word) : Word := (w &&& 0xFFFFFFFC) ||| (old &&& 3)
  let v1 := if refuseGrid then keepGrid v else v
  let m := xgM (fld v1 8 4)
  let refuseMode := fld v1 0 2 == 1 && fld old 0 2 != 1 && !burstAllowed s m (fld v1 16 9)
  let v2 := if refuseMode then keepMode v1 else v1
  let sh := shadowOf s off
  let sh := if refuseGrid then keepGrid sh else sh
  let sh := if refuseMode then keepMode sh else sh
  let s := if refuseGrid || refuseMode then
      raiseFault qXCG (0x4C0 + g) 0x27 (off % 65536 + flag refuseGrid 16 + flag refuseMode 17) (setShadow off sh s)
    else s
  let toBurst := fld v2 0 2 == 1 && fld old 0 2 != 1
  let toCont := fld v2 0 2 != 1 && fld old 0 2 == 1
  let s := if toBurst then toBursts g n s else if toCont then toContinuous g n s else s
  (v2, if bitAt old 4 && !bitAt v2 4 then loopOff g s else s)

/-- The drive time of a frame enters the duty history at its end, boundary `t`, with the frame's own length (XG_DUTY, R39). -/
def dutyFrame (t : Nat) (g : Nat) (s : State) : State :=
  modXg g (fun x =>
    let y := countDrive t x
    { y with driven := 0, dutyFrom := some t, dutyHist := ((y.driven, t - y.dutyFrom.getD (t - 2 * tf s)) :: y.dutyHist).take 1024 }) s

/-- XG_DUTY (Table 3-6): the drive time over the time of 1,024 frames; those before the first that was counted have the present frame period. -/
def xgDuty (s : State) (g : Nat) : Nat :=
  let h := (xgOf s g).dutyHist
  let all := h.foldl (fun m e => m + e.2) 0 + (1024 - h.length) * (2 * tf s)
  min 0xFFFF (lsb ((h.foldl (fun m e => m + e.1) 0 * 65536 : Nat) / (all : Rat))).toNat

end Sys2Proof.Machine
end

