-- ==== Sys2Proof/Machine/Rin.lean ====
section
/-! DEFINITION. The resolver input array (spec/04): the samples of a decimation instant, the common-mode window, envelope and
overrange checks, and the tone checks. -/
namespace Sys2Proof.Machine

def rinReg (s : State) (c o : Nat) : Word := inF s (baseRIN + 0x40 * c + o)

/-- A tracker in PREPARING, READY, STOPPING, HOLDING or ACTIVE (R110). -/
def trackerOn (s : State) (c : Nat) : Bool := running s c

/-- Bit 31 of a fault's detail: the device does not own the group (R124). -/
def notOwner (s : State) (g : Nat) : Nat := flag (!(xgOf s g).owner) 31

/-- Samples of a slice are marked: a PLL has lost lock and not relocked, or the slice is held (spec/17 R577; spec/01 R12). -/
def sliceMarked (s : State) (k : Nat) : Bool := decide (s.clk.lost &&& 7 ≠ 0) || s.clk.lost.getLsbD (3 + k) || sliceHeld s k

/-! ### Pin bias and wire-check current (R107, R109, R123, R128) -/

/-- Bias resistance of each pin of slice `k` to VB in kOhm; none: high impedance, because the slice has no supply, after L1 or L0 or in DOZING,
or an L2 reset turned the split bias off. L3 keeps it. -/
def pinBias (s : State) (k : Nat) : Option Nat :=
  if !s.clk.sliceOn.getLsbD k || s.biasOff then none else if s.biasSplit then some 100 else some 50

/-- The wire-check current of channel `c` in uA, from the P pins into the N pins. -/
def wireCheck (s : State) (c : Nat) : Nat :=
  match pinBias s (c / 64) with
  | none => 0
  | some r => if bitAt (rinReg s c 0) 0 then 1000 / r else 0

/-! ### Common-mode window (R110, R111, R134) -/

/-- Bits [lo ..] of a list of conditions, first at bit 0. -/
def packBits : List Bool → Nat
  | [] => 0
  | b :: t => (if b then 1 else 0) + 2 * packBits t

/-- The eight comparisons of a channel, in the order of RC_STATUS [7:0]. -/
def pinSides (hi lo : Nat) (p : List Nat) : List Bool := (p.map (fun v => [decide (hi < v), decide (v < lo)])).flatten

/-- Runs of consecutive instants outside on a side, saturating at 15, the longest hold. -/
def stepRuns (sides : List Bool) (runs : List Nat) : List Nat :=
  (sides.zip runs).map (fun e => if e.1 then min 15 (e.2 + 1) else 0)

/-- The pins that are outside, on either side: each pin's answer at both its conditions. -/
def pinsOut : List Bool → List Bool
  | hi :: lo :: t => (hi || lo) :: (hi || lo) :: pinsOut t
  | l => l

/-- The conditions after an instant: set by a run of the hold count, clear where the pin is inside, else as they were (R110). -/
def stepConds (hold : Nat) (sides : List Bool) (runs : List Nat) (was : BitVec 8) : List Bool :=
  (((sides.zip runs).zip (pinsOut sides)).zip (List.range 8)).map (fun e =>
    (e.1.1.1 && decide (hold ≤ e.1.1.2)) || (e.1.2 && was.getLsbD e.2))

/-- The window check of entry `c` of the table (a channel, or 512 + g for a group's sense pairs): `u` the unit its faults name,
`on` whether its faults are raised. While a change of bias holds the conditions, no instant counts (R134). A detection of RC_COUNTS is a
condition that becomes set while none is, in any state of the tracker and with any CMW_EN (DESIGN CHOICE, log 105). -/
def windowCheck (c u g : Nat) (on : Bool) (win : Word) (hold : Nat) (pins : List Nat) (s : State) : State :=
  let x := rcOf s c
  if 0 < x.holdFor then modRc c (fun x => { x with holdFor := x.holdFor - 1, runs := [0, 0, 0, 0, 0, 0, 0, 0] }) s
  else
    let sides := pinSides (fld win 16 16) (fld win 0 16) pins
    let runs := stepRuns sides x.runs
    let now := packBits (stepConds hold sides runs x.cond)
    let was := x.cond.toNat
    let s := modRc c (fun x => { x with
        runs, cond := BitVec.ofNat 8 now
        detections := if was = 0 ∧ now ≠ 0 then satInc 16 x.detections else x.detections }) s
    if now = 0 then clearCond u 0x28 0 s
    else if was = 0 ∧ on then setCond qRIN u 0x28 0 true (now + notOwner s g) s
    else s

/-! ### Envelope (R113) and DC level -/

/-- COS_PHI and SIN_PHI of channel `c` from the bank in force of its engine (spec/07 Table 7-7), Q2.22. While a swap runs the bank in force is
the one it goes to, from the boundary at which it starts (DESIGN CHOICE, log 105). -/
def phiOf (s : State) (c : Nat) : Rat × Rat :=
  let x := seOf s (c / 64)
  let bank := if x.cur then x.bankB else x.bankA
  let w (k : Nat) : Rat := (sfld (Tbl.get (constD 0) bank (0x40 + 4 * (c % 64) + k)) 0 24 : Rat) / 4194304
  (w 0, w 1)

/-- The in-phase reference r_j at phase index `ph` of M (spec/07 R198). -/
def refAt (cs : Rat × Rat) (m ph : Nat) : Rat :=
  cs.1 * sinRev ((ph : Rat) / m) - cs.2 * cosRev ((ph : Rat) / m)

/-- The sum of x_j r_j over a window, newest first, the newest at phase index `ph`. -/
def project (cs : Rat × Rat) (m : Nat) (dc : Rat) : Nat → List Int → Rat
  | _, [] => 0
  | ph, x :: t => ((x : Rat) - dc) * refAt cs m (ph % m) + project cs m dc (ph + m - 1) t

/-- The mean of a list. -/
def meanZ (l : List Int) : Rat := if l.isEmpty then 0 else (l.foldl (· + ·) 0 : Int) / (l.length : Rat)

/-- E of channel `c` at phase index `ph`, where the window of half a carrier cycle lies in valid cycles: either neighbouring code, and a free
value where RC_NOMINAL is 0, for which the rule gives none (log 12). -/
def envelopeAt (s : State) (c m ph : Nat) : Option Nat :=
  let h := (rcOf s c).hist
  let w := h.take (m / 2)
  if w.length < m / 2 ∨ w.any (fun e => !e.ok) then none
  else
    let two := h.take (2 * m)
    let cs := phiOf s c
    let ps := project cs m (meanZ (two.map (·.s))) ph (w.map (·.s)) * 4 / m
    let pc := project cs m (meanZ (two.map (·.c))) ph (w.map (·.c)) * 4 / m
    let nom := fld (rinReg s c 0xC) 0 24
    if nom = 0 then some (Config.openNat 9 c % 65536)
    else some (min 0xFFFF (lsb (sqrtQ (ps * ps + pc * pc) * 32768 / nom)).toNat)

/-- The envelope check at an evaluated instant: a flag is set by E beyond its limit and clears only where E is inside both. -/
def envelopeCheck (c g m ph : Nat) (s : State) : State :=
  match envelopeAt s c m ph with
  | none => s
  | some e =>
    let lim := rinReg s c 8
    let x := rcOf s c
    let inside := decide (fld lim 0 16 ≤ e ∧ e ≤ fld lim 16 16)
    let low := decide (e < fld lim 0 16) || (x.envLow && !inside)
    let high := decide (fld lim 16 16 < e) || (x.envHigh && !inside)
    let on := bitAt (rinReg s c 0) 2 && trackerOn s c
    let s := modRc c (fun x => { x with env := e, envLow := low, envHigh := high }) s
    let s := if !low then clearCond c 0x29 0 s
      else if on && !x.envLow then setCond qRIN c 0x29 0 true (e + notOwner s g) s else s
    if !high then clearCond c 0x2A 0 s
    else if on && !x.envHigh then setCond qRIN c 0x2A 0 true (e + notOwner s g) s else s

/-- RC_DC of a pair: its mean over the last two carrier cycles, LSB 100 uV. -/
def dcLevel (l : List Int) : Int := satS 16 (lsb (meanZ l * 20000 / 8388608))

/-! ### Overrange (R115) -/

def saturatedCode (x : Int) : Bool := decide (0x7FFFFF ≤ x.natAbs)

def overrange (c g : Nat) (sn cn : Int) (s : State) : State :=
  let x := rcOf s c
  let ss := saturatedCode sn
  let cc := saturatedCode cn
  let sr := if ss then min 4 (x.satSRun + 1) else 0
  let cr := if cc then min 4 (x.satCRun + 1) else 0
  let os := ss && sr == 4
  let oc := cc && cr == 4
  let s := modRc c (fun x => { x with
      satSRun := sr, satCRun := cr, ovrS := os, ovrC := oc
      saturated := min 0xFFFF (x.saturated + (if ss then 1 else 0) + (if cc then 1 else 0)) }) s
  let on := trackerOn s c && ((os && !x.ovrS) || (oc && !x.ovrC))
  let s := if on then raiseFault qRIN c 0x2B (flag os 0 + flag oc 1 + notOwner s g) s else s
  let hold := (os || oc) && (on || condOf s c 0x2B 0)
  { s with flt := { s.flt with conds := Tbl.set (constD false) s.flt.conds (condKey c 0x2B 0) hold } }

/-! ### Tone checks (R117 to R122, R129, R130) -/

/-- TT_NUM and TT_LEN in force (Table 4-9). -/
def toneNum (s : State) : Nat :=
  let n := fld (inF s (baseRIN + 0x8004)) 8 8
  if n % 2 = 1 ∧ 3 ≤ n ∧ n ≤ 61 then n else 23
def toneLen (s : State) : Nat := max 1 (fld (inF s (baseRIN + 0x8004)) 4 4)
/-- Peak tone current in nA: (TT_AMP + 1) x 0.25 uA. -/
def toneAmp (s : State) : Nat := (fld (inF s (baseRIN + 0x8004)) 0 4 + 1) * 250

/-- The 64 x TT_LEN carrier periods of the phase in progress have passed (R117). -/
def tonePhaseOver (s : State) (r : ToneRun) : Bool := decide (64 * toneLen s ≤ r.periods)

/-- The phase in progress has begun, on a carrier cycle start, and is not over (R117). -/
def toneOn (s : State) (r : ToneRun) : Bool := r.began && !tonePhaseOver s r

/-- The tone that this device injects into a pair of group `g` while a phase runs: channel, whether the cosine pair, frequency
ft = fc x TT_NUM / 64 in Hz, peak current in nA. Only the group's owner injects; the non-owner runs the check passively (R117, R124). -/
def toneInjected (s : State) (g : Nat) : Option (Nat × Bool × Rat × Nat) :=
  match (toneOf s g).run with
  | some r => if (xgOf s g).owner && toneOn s r then some (r.chan.val, r.cosPhase, (10000 * toneNum s : Rat) / groupM s g, toneAmp s) else none
  | none => none

/-- A sample of the group now enters a correlation: in bursts only one in a gap period other than the first of its gap (R130). -/
def toneCorrelates (s : State) (g : Nat) : Bool :=
  match (xgOf s g).cyc with
  | .off => false
  | .gapFirst => false
  | .gap => true
  | _ => !burstMode s g || stOf s (0x4C0 + g) == .preparing

/-- One more sample of the two pairs at tone phase `x`, in revolutions (R118). -/
def toneAdd (x : Rat) (own oth : Int) (a : ToneAcc) : ToneAcc :=
  { n := a.n + 1, ownSin := a.ownSin + own * sinRev x, ownCos := a.ownCos + own * cosRev x,
    othSin := a.othSin + oth * sinRev x, othCos := a.othCos + oth * cosRev x }

/-- The samples `sn`, `cn` of channel `c` at decimation index `i` enter the correlation of its running check. The tone's phase is 0 at the
carrier cycle start at which the check's phase began; 64 M decimation intervals hold TT_NUM of its periods (R117, R118). -/
def toneSample (i c : Nat) (sn cn : Int) (s : State) : State :=
  let g := c / 8
  if toneCorrelates s g then
    modTone g (fun t => { t with run := t.run.map (fun r =>
      if r.chan.val = c ∧ toneOn s r = true then
        let x : Rat := ((i - r.from_ : Nat) * toneNum s : Rat) / (64 * groupM s g)
        if r.cosPhase then { r with accC := toneAdd x cn sn r.accC } else { r with accS := toneAdd x sn cn r.accS }
      else r) }) s
  else s

/-- The magnitude of a pair of sums. -/
def magQ (a b : Rat) : Rat := sqrtQ (a * a + b * b)

/-- |Z| in 0.1 ohm, the phase of Z in 1/256 cycle and the coupling ratio in 2^-16 of a phase's correlation (R118): the measured impedance is
the injected pair's tone voltage over the nominal current of `nA`, and the 100 kOhm in parallel with the loop are removed from it
(DEDUCED, log 91). -/
def toneMeasure (nA : Nat) (a : ToneAcc) : Nat × Int × Nat :=
  let k : Rat := 4 * 1000000000 / (8388608 * (a.n * nA : Nat))
  let re := a.ownSin * k
  let im := a.ownCos * k
  let d := magQ (100000 - re) im
  let m := magQ re im
  let z := if d = 0 then 65535 else min 65535 (lsb (1000000 * m / d)).toNat
  let ph := if d = 0 ∨ m = 0 then (Config.openNat 10 0 : Int) else nearest ((atanRev im re - atanRev (-im) (100000 - re)) * 256)
  let own := magQ a.ownSin a.ownCos
  let xt := if own = 0 then Config.openNat 10 1 % 65536 else min 65535 (lsb (65536 * magQ a.othSin a.othCos / own)).toNat
  (z, ph, xt)

/-- The results of a phase: what its correlation gives, and the command's operands where it has no sample (log 91). -/
def tonePhaseResult (nA : Nat) (a : ToneAcc) (z : Nat) (ph : Int) (xt : Nat) : Nat × Int × Nat :=
  if a.n = 0 then (z, ph, xt) else toneMeasure nA a

/-- A window condition of the channel that becomes set ends its check; `was` held before (R129). -/
def toneWindow (c : Nat) (was : BitVec 8) (s : State) : State :=
  match (toneOf s (c / 8)).run with
  | some r => if r.chan.val = c ∧ (rcOf s c).cond &&& ~~~was ≠ 0 then toneAbort (c / 8) s else s
  | none => s

/-- TONE_PHASE_END: after its carrier periods the sine phase gives way to the cosine phase (R117). -/
def execTonePhaseEnd (g : Fin 64) (s : State) : Host.Outcome State Fault Refusal :=
  .next (match (toneOf s g.val).run with
    | some r => if !r.cosPhase && tonePhaseOver s r then
        modTone g.val (fun t => { t with run := some { r with cosPhase := true, periods := 0, from_ := (xgOf s g.val).cycAt / 3125 } }) s else s
    | none => s)

/-- Evaluation of one pair by Table 4-5. -/
def tonePair (z coup nom tol lim : Nat) : Nat :=
  if 65535 ≤ z then 4 else if lim < coup then 5
  else if nom ≠ 0 ∧ z * 100 < nom * (100 - tol) then 2
  else if nom ≠ 0 ∧ nom * (100 + tol) < z * 100 then 3 else 1

/-- A completed check (R118 to R121) with the results of its two phases: registers, fault by the first failing pair, mailbox. -/
def toneReport (g : Nat) (r : ToneRun) (sn cn : Nat × Int × Nat) (s : State) : State :=
    let zSin := sn.1
    let phSin := sn.2.1
    let xtSC := sn.2.2
    let zCos := cn.1
    let phCos := cn.2.1
    let xtCS := cn.2.2
    let c := r.chan.val
    let x := rcOf s c
    let n := (x.checks + 1) % 256
    let word (z : Nat) (ph : Int) : Word := wordN (n * 2 ^ 24 + unsig 8 ph * 2 ^ 16 + min z 65535)
    let zs := word zSin phSin
    let zc := word zCos phCos
    let xt := wordN (min xtCS 65535 * 65536 + min xtSC 65535)
    let tol := let t := fld (rinReg s c 0x14) 0 8; if t = 0 then 15 else t
    let lim := fld (inF s (baseRIN + 0x8008)) 0 16
    let nom := rinReg s c 0x10
    let cs := tonePair zSin xtSC (fld nom 0 16) tol lim
    let cc := tonePair zCos xtCS (fld nom 16 16) tol lim
    let code := if cs ≠ 1 then cs else cc
    let pair := if cs ≠ 1 then 0 else 1
    let z := if cs ≠ 1 then zSin else zCos
    let cp := if cs ≠ 1 then xtSC else xtCS
    let s := modRc c (fun x => { x with checks := n, zs, zc, xt }) s
    let s := modTone g (fun t => { t with run := none }) s
    let s := if code = 1 then s
      else if code = 5 then raiseFault qRIN c 0x2D (pair * 16 + min cp 65535 * 256 + notOwner s g) s
      else raiseFault qRIN c 0x2C (pair * 16 + code + min z 65535 * 256 + notOwner s g) s
    if r.requested && r.mine then toneMail code c zs zc xt s else s

/-- A check completes with what its phases have measured. Nothing completes before the cosine phase is over (R117). -/
def toneComplete (g zSin zCos : Nat) (phSin phCos : Int) (xtSC xtCS : Nat) (s : State) : State :=
  match (toneOf s g).run with
  | none => s
  | some r =>
    if r.cosPhase && tonePhaseOver s r then
      toneReport g r (tonePhaseResult (toneAmp s) r.accS zSin phSin xtSC) (tonePhaseResult (toneAmp s) r.accC zCos phCos xtCS) s
    else s

/-- TONE_CHECK_COMPLETE. -/
def execToneCheckComplete (g : Fin 64) (zSin zCos : Nat) (phSin phCos : Int) (xtSC xtCS : Nat) (s : State) :
    Host.Outcome State Fault Refusal :=
  .next (toneComplete g.val zSin zCos phSin phCos xtSC xtCS s)

/-- A check not complete within 65,535 frames (R130). -/
def toneTimeout (g : Nat) (s : State) : State :=
  match (toneOf s g).run with
  | some r => if r.start + 65535 ≤ frameN s then toneAbort g s else s
  | none => s

/-- TONE_CHECK_TIMEOUT. -/
def execToneCheckTimeout (g : Fin 64) (s : State) : Host.Outcome State Fault Refusal := .next (toneTimeout g.val s)

/-- The twin link is lost by a case of R475 of spec/14, in VELVET or PAIRED. -/
def twinCut (s : State) : Bool := (s.twn.mode == 2 || s.twn.mode == 3) && (s.twn.lost || !s.twn.linkUp || decide (2 ≤ s.twn.missRun))

/-- A requested check is refused (R122, R125). -/
def toneRefused (c : Nat) (s : State) : Bool :=
  !unitExists s c || !trackerOn s c || !groupOn s (c / 8) ||
    ((s.twn.mode == 0 || s.twn.mode == 4) && !(xgOf s (c / 8)).owner) || twinCut s

/-- The first boundary at which a twin request may start: its cut-off falls at least 10 us after the write (R125). -/
def toneEarliest (t : Nat) (s : State) : Nat := (((t + 14000 : Nat) - instOf s 0 + tf s - 1) / tf s).toNat

/-- TT_REQ (R121, R122, R125). -/
def toneRequest (v : Word) (t : Nat) (s : State) : State :=
  let chan : Fin 512 := ⟨fld v 0 9, by unfold fld; exact Nat.mod_lt _ (by decide)⟩
  let c := chan.val
  if !bitAt v 24 then s
  else if s.toneBox.busy then raiseFault qRIN c 0x2E c s
  else if toneRefused c s then toneCode 7 c s
  else
    let twin := s.twn.mode == 2 || s.twn.mode == 3
    let s := { s with toneBox := { s.toneBox with busy := true } }
    let s := modTone (c / 8) (fun x => { x with queue := x.queue ++ [{ chan, mine := true, earliest := if twin then toneEarliest t s else 0 }] }) s
    if twin then sendTwin (.toneReq chan t) s else s

/-- TT_REQ. -/
def execTtReq (v : Word) (t : Nat) (s : State) : Host.Outcome State Fault Refusal :=
  .next (if deviceUp s then toneRequest v t (setNow t s) else s)

/-- The channels of the round robin of group `g`, ascending: listed, TT_EN = 1 (R120). -/
def toneChans (s : State) (g : Nat) : List (Fin 512) :=
  (List.range 8).filterMap (fun k =>
    let c := 8 * g + k
    if h : c < 512 then
      if unitExists s c && bitAt (rinReg s c 0) 3 then some ⟨c, h⟩ else none
    else none)

/-- The channel whose turn falls due at frame `n` with period `per`. The turn is the frame number's, so that the two devices of a pair take the
same channel, whenever each began (R120, R124; log 54). -/
def toneNext (s : State) (g n per : Nat) : Option (Fin 512) :=
  let l := toneChans s g
  l[n / per % l.length]?

/-- Tone checks of group `g` at boundary `n` (R120, R121, R122, R125, R129). A passing ownership has ended its check already (`setOwner`). A
request starts ahead of the round robin; one that is still before its first boundary holds up nothing (R125). -/
def toneBoundary (n g : Nat) (s : State) : State :=
  let x := toneOf s g
  let per := fld (inF s (baseRIN + 0x8004)) 16 16
  let due := if per ≠ 0 ∧ n % per = 0 then n + 1 else x.due
  let s := modTone g (fun t => { t with due }) s
  let s := match x.run with
    | some r => if !groupOn s g || !trackerOn s r.chan.val then toneAbort g s else s
    | none => s
  let s := toneRefuse g (fun q => !groupOn s g || !trackerOn s q.chan.val) s
  if (toneOf s g).run.isSome || !groupOn s g || !sliceRuns s (g / 8) then s
  else
    match (toneOf s g).queue.head?.filter (fun q => decide (q.earliest ≤ n)) with
    | some q =>
      modTone g (fun t => { t with queue := t.queue.tail, run := some { chan := q.chan, requested := true, mine := q.mine, cosPhase := false, start := n } }) s
    | none =>
      if due = 0 ∨ per = 0 then s
      else
        match toneNext s g (due - 1) per with
        | none => s
        | some c =>
          if trackerOn s c.val then
            modTone g (fun t => { t with due := 0, run := some { chan := c, requested := false, mine := false, cosPhase := false, start := n } }) s
          else modTone g (fun t => { t with due := 0 }) s

/-! ### The decimation instant (R104 to R106, R164) -/

/-- The output word of the conversion chain saturates at plus or minus 0x7FFFFF (Table 4-1). -/
def satCode (x : Int) : Int := max (-0x7FFFFF) (min 0x7FFFFF x)

/-- A sample of channel `c` at instant `i`: all checks, then the mark and validity its capture entries carry. -/
def chanSample (i : Nat) (p : ChanSample) (s : State) : State :=
  let x := { p with s := satCode p.s, c := satCode p.c }
  let c := x.chan.val
  let was := (rcOf s c).cond
  let g := c / 8
  let m := groupM s g
  let ph := (i + m - groupPhase s g) % m
  let ok := match (xgOf s g).cyc with | .valid => true | .ramp => true | _ => false
  let w := rinReg s c 0
  let hold := max 1 (fld w 4 4)
  let s := windowCheck c c g (bitAt w 1 && trackerOn s c) (rinReg s c 4) hold [x.sinP, x.sinN, x.cosP, x.cosN] s
  let s := toneSample i c x.s x.c (toneWindow c was s)
  let s := modRc c (fun r => { r with hist := ({ s := x.s, c := x.c, ok, mark := false } :: r.hist).take (2 * m) }) s
  let s := modRc c (fun r => { r with dcS := dcLevel (r.hist.map (·.s)), dcC := dcLevel (r.hist.map (·.c)) }) s
  let s := envelopeCheck c g m ph s
  let s := overrange c g x.s x.c s
  let r := rcOf s c
  let mark := decide (r.cond ≠ 0) || r.envLow || r.envHigh || r.ovrS || r.ovrC || sliceMarked s (c / 64)
  let s := modRc c (fun r => { r with hist := match r.hist with | h :: t => { h with mark } :: t | [] => [] }) s
  let k := 2 * (c % 64)
  if engineRuns s (c / 64) then
    modSe (c / 64) (fun e => { e with
      capture := Tbl.put (Tbl.put e.capture k (x.s, ok && !mark)) (k + 1) (x.c, ok && !mark) }) s
  else s

/-- The sense pairs of a group: their output words, kept for a carrier cycle as sine (voltage) and cosine (current), and their window
(R104, R111). -/
def senseSample (x : SensePins) (s : State) : State :=
  let g := x.group.val
  let ok := match (xgOf s g).cyc with | .valid => true | .ramp => true | _ => false
  let s := modRc (512 + g) (fun r => { r with
      hist := ({ s := satCode x.vs, c := satCode x.is, ok, mark := sliceMarked s (g / 8) } :: r.hist).take (groupM s g) }) s
  windowCheck (512 + g) (0x4C0 + g) g (groupOn s g) (inF s (baseRIN + 0x800C)) 4 [x.vP, x.vN, x.iP, x.iN] s

/-- Entries of the previous instant that no program has read are overwritten (R10, R164): one overrun per lane group. -/
def captureOpen (i e : Nat) (s : State) : State :=
  if !engineRuns s e then modSe e (fun x => { x with capture := [], unread := 0, captureAt := i }) s
  else
    let left := (List.range 16).filter (fun q => (seOf s e).unread.getLsbD q)
    let s := doFor left (fun q s =>
      raiseFault qSE (0x600 + e) 0x38 q
        (modSe e (fun x => { x with overruns := satInc 16 x.overruns }) (ledDrop 1 8 (0x600 + e) s))) s
    ledProduce 1 128 (modSe e (fun x => { x with capture := [], unread := 0xFFFF, captureAt := i }) s)

/-- The samples of decimation instant `i`, whose cell time goes to the twin (spec/14 R471). -/
def captureSample (i : Nat) (chans : List ChanSample) (sense : List SensePins) (s : State) : State :=
  let s := sendTwin (.stamp i (3125 * i : Nat)) { s with decim := i }
  let s := doFor ((List.range 8).filter (fun k => sliceRuns s k)) (captureOpen i) s
  let s := doFor (chans.filter (fun x => sliceRuns s (x.chan.val / 64))) (chanSample i) s
  doFor (sense.filter (fun x => sliceRuns s (x.group.val / 8))) senseSample s

/-- CAPTURE_SAMPLE: `chans` and `sense` hold the pairs that the step delivers. -/
def execCaptureSample (i : Nat) (chans : List ChanSample) (sense : List SensePins) (s : State) :
    Host.Outcome State Fault Refusal :=
  .next (captureSample i chans sense s)

/-- BIAS_SPLIT changes at a boundary; the window conditions are held for CMW_HOLD instants (R123, R134). -/
def setBiasSplit (b : Bool) (s : State) : State :=
  if s.biasSplit == b then s
  else
    doFor (List.range 576) (fun c s =>
      modRc c (fun r => { r with holdFor := if c < 512 then max 1 (fld (rinReg s c 0) 4 4) else 4 }) s) { s with biasSplit := b }

end Sys2Proof.Machine
end

