-- ==== Sys2Proof/Machine/SeOps.lean ====
section
/-! DEFINITION. Signal engines, shared operations (spec/06): image sections, registers, banks and swaps, memory errors, exceptions,
and the issue of one instruction with its interlocks. -/
namespace Sys2Proof.Machine

/-! ### Image sections of an engine (R184, R185, R220) -/

/-- The bytes of a section of the image in force; none: empty. -/
def sectionBytes (s : State) (type : Nat) : List Byte :=
  match s.conf with
  | some i => (match i.sections.find? (fun x => x.type == type) with | some x => x.bytes | none => [])
  | none => []

/-- A little-endian field of `n` bytes at `off`. -/
def leAt (bs : List Byte) (off n : Nat) : Nat := leNat ((bs.drop off).take n)

def schedAt (s : State) (e off n : Nat) : Nat := leAt (sectionBytes s 0xB) (128 * e + off) n
def slotLen (s : State) (e q : Nat) : Nat := schedAt s e (4 + q) 1
def lanesLen (s : State) (e q : Nat) : Nat := (List.range q).foldl (fun n k => n + slotLen s e k) 0
def auxLen (s : State) (e : Nat) : Nat := 768 - lanesLen s e 16
def slotEntry (s : State) (e q : Nat) : Nat := schedAt s e (0x14 + 2 * q) 2
def trapEntry (s : State) (e : Nat) : Nat := schedAt s e 0x36 2
def stateBase (s : State) (e q : Nat) : Nat := schedAt s e (0x38 + 2 * q) 2

/-- 32-bit words of a byte list. -/
def words32 : List Byte → List Word
  | a :: b :: c :: d :: t => BitVec.ofNat 32 (leNat [a, b, c, d]) :: words32 t
  | _ => []
/-- 64-bit words of a byte list. -/
def words64 : List Byte → List (BitVec 64)
  | a :: b :: c :: d :: e :: f :: g :: h :: t => BitVec.ofNat 64 (leNat [a, b, c, d, e, f, g, h]) :: words64 t
  | _ => []

/-- A table of the words of a list that are not 0, from key `k` on. -/
def tblFrom {α : Type} [DecidableEq α] (z : α) : Nat → List α → List (Nat × α)
  | _, [] => []
  | k, a :: t => if a = z then tblFrom z (k + 1) t else (k, a) :: tblFrom z (k + 1) t

/-- A block's size in a section whose blocks are 16 B-aligned. -/
def align16 (n : Nat) : Nat := (n + 15) / 16 * 16

/-- The ENGINE_CODE block of engine `e`: program bytes and data bytes (R184). -/
def codeBlock (e : Nat) : Nat → List Byte → Option (List Byte × List Byte)
  | 0, _ => none
  | fuel + 1, bs =>
    if bs.length < 16 then none
    else
      let pw := leAt bs 4 4
      let db := leAt bs 8 4
      if leAt bs 0 1 = e then some ((bs.drop 16).take (8 * pw), (bs.drop (16 + 8 * pw)).take db)
      else codeBlock e fuel (bs.drop (align16 (16 + 8 * pw + db)))

/-- The COEFFICIENTS block of engine `e`: its words as bytes (R220). -/
def coefBlock (e : Nat) : Nat → List Byte → Option (List Byte)
  | 0, _ => none
  | fuel + 1, bs =>
    if bs.length < 16 then none
    else
      let n := leAt bs 4 4
      if leAt bs 0 1 = e then some ((bs.drop 16).take (4 * n)) else coefBlock e fuel (bs.drop (align16 (16 + 4 * n)))

/-- A bank word as stored: bits [31:24] are copies of bit 23 (R174). -/
def bankStore (v : Word) : Word := wordI (sfld v 0 24)

/-- Errors of other memories than those of `ms`. -/
def hitsBut (ms : List SeMem) (l : List EccHit) : List EccHit := l.filter (fun h => !ms.contains h.mem)

/-- Program memory and both banks from the image, bank A in force (R183, R220); written words hold no error. -/
def engineReload (e : Nat) (s : State) : State :=
  let prog := match codeBlock e 8 (sectionBytes s 4) with | some b => tblFrom 0 0 (words64 b.1) | none => []
  let bank := match coefBlock e 8 (sectionBytes s 5) with | some b => tblFrom 0 0 ((words32 b).map bankStore) | none => []
  modSe e (fun x => { x with prog, bankA := bank, bankB := bank, cur := false, reload := false, hits := hitsBut [.program, .bankA, .bankB] x.hits }) s

/-- The bank image that FIRSTORE holds for engine `e`, its five tiles opened; none where one fails its check (spec/12 R387). -/
def firstoreBank (e : Nat) (s : State) : Option (List (Nat × Word)) × State :=
  match regionOf s 4 with
  | none => (some [], s)
  | some g =>
    let r := (List.range 5).foldl (fun (r : Bool × State) k => let c := checkTile 4 (g.first + 5 * e + k) r.2; (r.1 && c.1, c.2)) (true, s)
    if r.1 then
      (some (match coefBlock e 1 (memBytes r.2 ((g.first + 5 * e) * 0x1000) 0x5000) with
        | some b => tblFrom 0 0 ((words32 b).map bankStore) | none => []), r.2)
    else (none, r.2)

/-- Where an engine stands that no slot's program runs in: the auxiliary slot of decimation index `i` with nothing executed (log 94). -/
def idleCtx (s : State) (e i : Nat) : SlotCtx := { index := i, limit := auxLen s e }

/-- An engine enters PREPARING (R183): after a reset at L3 or above, program memory and banks are reloaded; banks whose store is BAD keep
what they hold (DEDUCED, log 27). -/
def enginePrepare (e : Nat) (s : State) : State :=
  let s := if (seOf s e).reload then
      (let r := firstoreBank e s
       let x := seOf r.2 e
       let s := engineReload e r.2
       match r.1 with
       | some bank => modSe e (fun y => { y with bankA := bank, bankB := bank }) s
       | none => modSe e (fun y => { y with bankA := x.bankA, bankB := x.bankB, hits := hitsBut [.program] x.hits }) s)
    else s
  let data := match codeBlock e 8 (sectionBytes s 4) with | some b => tblFrom 0 0 (words32 (b.2 ++ [0, 0, 0])) | none => []
  modSe e (fun x => { x with dmem := data, hits := hitsBut [.data] x.hits, ctx := idleCtx s e x.lastIndex }) s

/-! ### Registers (Table 6-4). A register number beyond its file is unstated (log 15). -/

def vIdx (d : Nat) : Nat := if d < 16 then d else (Config.seOption 1 d 0 0).toNat % 16
def accIdx (d : Nat) : Nat := if d < 4 then d else (Config.seOption 2 d 0 0).toNat % 4
def sIdx (d : Nat) : Nat := if d < 16 then d else (Config.seOption 3 d 0 0).toNat % 16
def pIdx (d : Nat) : Nat := if d < 4 then d else 1 + (Config.seOption 4 d 0 0).toNat % 3

/-- Keys of the interlock. -/
def kV (d : Nat) : Nat := vIdx d
def kA (d : Nat) : Nat := 32 + accIdx d
def kS (d : Nat) : Nat := 64 + sIdx d
def kP (d : Nat) : Nat := 96 + pIdx d

def zeros8 : List Int := List.replicate 8 0
def lanes (f : Nat → Int) : List Int := (List.range 8).map f

def vOf (x : SeSt) (d n : Nat) : Int := (Tbl.get (constD zeros8) x.v (vIdx d)).getD n 0
def accOf (x : SeSt) (d n : Nat) : Int := (Tbl.get (constD zeros8) x.acc (accIdx d)).getD n 0
def sOf (x : SeSt) (d : Nat) : Word := if sIdx d = 0 then 0 else Tbl.get (constD 0) x.s (sIdx d)
def pOf (x : SeSt) (d : Nat) : BitVec 8 := if pIdx d = 0 then 0xFF else Tbl.get (constD 0) x.p (pIdx d)

/-- The lanes that an instruction's predicate enables (R167). -/
def enabled (f : SeFields) (x : SeSt) (n : Nat) : Bool := (pOf x f.ps.val).getLsbD n != f.pn

/-- Bit `n` of a byte built from a predicate over lanes. -/
def packByte (f : Nat → Bool) : BitVec 8 := BitVec.ofNat 8 (packBits ((List.range 8).map f))

/-- Writes of vectors and accumulators: saturated, on the enabled lanes only. -/
def setV (f : SeFields) (val : Nat → Int) (x : SeSt) : SeSt :=
  let l := lanes (fun n => if enabled f x n then satS 24 (val n) else vOf x f.d.val n)
  { x with v := Tbl.set (constD zeros8) x.v (vIdx f.d.val) l }
def setAcc (f : SeFields) (val : Nat → Int) (x : SeSt) : SeSt :=
  let l := lanes (fun n => if enabled f x n then satS 56 (val n) else accOf x f.d.val n)
  { x with acc := Tbl.set (constD zeros8) x.acc (accIdx f.d.val) l }
/-- A write of a scalar; S0 ignores it. -/
def setS (d : Nat) (v : Word) (x : SeSt) : SeSt :=
  if sIdx d = 0 then x else { x with s := Tbl.set (constD 0) x.s (sIdx d) v }
def setP (k : Nat) (v : BitVec 8) (x : SeSt) : SeSt := { x with p := Tbl.set (constD 0) x.p k v }

/-- Division by 2^n, rounded to nearest with ties away from zero. -/
def roundShift (a : Int) (n : Nat) : Int :=
  if n = 0 then a
  else if 0 ≤ a then (a + (2 ^ (n - 1) : Nat)) / (2 ^ n : Nat) else -((-a + (2 ^ (n - 1) : Nat)) / (2 ^ n : Nat))

/-! ### Banks and swaps (R174 to R179) -/

/-- Stream of the slot: lane group, or 16 + position of the last CAP. -/
def slotStream (x : SeSt) : Option Nat :=
  if x.ctx.slot < 16 then some x.ctx.slot else x.ctx.lastCap.map (fun en => 16 + en.pos)

/-- Sample boundaries of stream `k` that a swap has counted. -/
def swapCount (r : Option SwapRun) (k : Nat) : Option Nat := r.map (fun r => r.ks.getD k 0)

/-- The current bank of a stream: true is B (R174, R176). One whose swap point of the swap before has not come in yet is a bank behind. -/
def streamBank (x : SeSt) (k : Nat) : Bool :=
  let late := swapCount x.past k == some 0
  match x.swap with
  | none => x.cur != late
  | some r => if 1 ≤ r.ks.getD k 0 then x.cur else x.cur == late

/-- The bank an instruction reads: X[1] selects the other one. In an auxiliary slot before a CAP, no stream is named (log 15). -/
def instrBank (x : SeSt) (other : Bool) : Bool :=
  let b := match slotStream x with
    | some k => streamBank x k
    | none => if x.swap.isSome then Config.seOption 5 x.ctx.index 0 0 % 2 == 1 else x.cur
  b != other

def bankWord (x : SeSt) (b : Bool) (k : Nat) : Int :=
  sfld (Tbl.get (constD 0) (if b then x.bankB else x.bankA) k) 0 24

/-- A bank descriptor word of the bank that stream `k` uses, unsigned. -/
def descWord (x : SeSt) (k w : Nat) : Nat := unsig 24 (bankWord x (streamBank x k) w)

/-- The cross-fade of stream `k` at its last sample boundary: number and XF_LEN; none outside one (R177). -/
def streamFade (x : SeSt) (k : Nat) : Option (Nat × Nat) :=
  let fade (r : SwapRun) : Option (Nat × Nat) := let c := r.ks.getD k 0; if 1 ≤ c ∧ c ≤ r.xfLen then some (c, r.xfLen) else none
  match x.swap.filter (fun r => decide (1 ≤ r.ks.getD k 0)) with
  | some r => fade r
  | none => x.past.bind fade

/-- M of the slot's lane group. -/
def slotM (s : State) (e q : Nat) : Nat := groupM s (8 * e + q / 2)

/-- SLOT_US of slice `k`, and T_cyc in half ns (spec/05 R139). -/
def slotUs (s : State) (k : Nat) : Nat := let n := fld (inF s (baseAUX + 0x2000 + 0x40 * k)) 0 5; if n = 0 ∨ 16 < n then 16 else n
def tCyc (s : State) (k : Nat) : Nat := 40000 * slotUs s k

/-- The frame that holds an instant given in half ns (R14). -/
def frameAt (s : State) (half : Nat) : Nat := ((half : Int) / 2 - s.time.slew - epoch s).toNat / tf s

/-- The newest requested bank (R175). -/
def newestBank (x : SeSt) : Bool := match x.held with | some h => h.1 | none => x.cur

/-- The banks are locked (R175). -/
def bankLocked (x : SeSt) : Bool := x.asked.isSome || x.swap.isSome || x.held.isSome

/-- The lanes of a swap start with no sample boundary counted. -/
def startSwap (at_ xfLen frame : Nat) (target : Bool) (x : SeSt) : SeSt :=
  { x with cur := target, swap := some { at_, xfLen, ks := List.replicate 32 0 }, held := none, swapStart := frame % 2 ^ 32, swapDone := 0xFFFFFFFF }

/-- The least number at or above `a` that is `r` modulo `p`. -/
def nextCongr (a r p : Nat) : Nat := a + (r + p - a % p) % p

/-- Half ns at which stream `k` of engine `e` ends the cross-fade of a swap: its XF_LEN-th sample boundary from `at_` on. Those of a lane group
are its HC instants, every half carrier cycle, those of a position its MAIN sample instants, once an auxiliary cycle (R176, R177). -/
def fadeEnd (s : State) (e k : Nat) (r : SwapRun) : Nat :=
  if k < 16 then
    let h := slotM s e k / 2
    3125 * (nextCongr (ceilDiv r.at_ 3125) ((groupPhase s (8 * e + k / 2) + h - 1) % h) h + (r.xfLen - 1) * h)
  else
    let u := slotUs s e * 2000
    (nextCongr (ceilDiv r.at_ u) (k - 15) 20 + (r.xfLen - 1) * 20) * u

/-- The end instant of a swap, half ns: the last stream's (R177). -/
def swapEnd (s : State) (e : Nat) (r : SwapRun) : Nat := (List.range 32).foldl (fun m k => max m (fadeEnd s e k r)) 0

/-- A swap whose end instant lies before `half` half ns has ended; one held behind it began then (R177, R178). -/
def settleSwap (e half : Nat) (s : State) : State :=
  let x := seOf s e
  match x.swap with
  | none => s
  | some r =>
    let t := swapEnd s e r
    if half ≤ t then s
    else
      let f := frameAt s t
      modSe e (fun x => match x.held with
        | none => { x with swap := none, past := some r, swapDone := f % 2 ^ 32 }
        | some h => startSwap (t + 1) h.2 f h.1 { x with past := some r }) s

/-- Both the running and the held swap are judged at `half` half ns. -/
def settleSwaps (e half : Nat) (s : State) : State := settleSwap e half (settleSwap e half s)

/-- A sample boundary at `half` half ns of stream `k` in a swap that has reached it: its number there. -/
def stepSwap (k : Nat) (r : SwapRun) : SwapRun := { r with ks := r.ks.set k (min (r.ks.getD k 0 + 1) (r.xfLen + 1)) }

/-- A sample boundary of stream `k` at `half` half ns (R176, R177): its number and XF_LEN where a swap counts it. The swap is the newest that
began at or before it. -/
def countBoundary (e k half : Nat) (s : State) : Option (Nat × Nat) × State :=
  let s := settleSwaps e half s
  let x := seOf s e
  let mark (r : SwapRun) : Option (Nat × Nat) := let c := r.ks.getD k 0; if c ≤ r.xfLen then some (c, r.xfLen) else none
  match x.swap.filter (fun r => decide (r.at_ ≤ half)) with
  | some r => let r' := stepSwap k r; (mark r', modSe e (fun x => { x with swap := some r' }) s)
  | none =>
    match x.past.filter (fun r => decide (r.at_ ≤ half)) with
    | some r => let r' := stepSwap k r; (mark r', modSe e (fun x => { x with past := some r' }) s)
    | none => (none, s)

/-- The cross-fade weight of sample boundary k of n, Q2.22 (R177). -/
def xfWeight (k n : Nat) : Int := lsb ((k * 4194304 : Nat) / (n : Rat))

/-- The swap and what is held behind it end at once (R190, R191): the newest requested bank is in force. -/
def endSwaps (frame : Nat) (x : SeSt) : SeSt :=
  let y := { x with past := none }
  if x.swap.isSome || x.held.isSome then { y with cur := newestBank x, swap := none, held := none, swapDone := frame % 2 ^ 32 } else y

/-- XF_LEN in force (Table 6-12). -/
def xfLenOf (s : State) (e : Nat) : Nat :=
  let n := fld (inF s (baseSE + 0x20000 * e + 0x18000)) 8 16
  if n = 0 then 1 else min n 4096

/-- A swap request for bank `b` reaches its boundary `n` (R176, R178, R190): whether BANK_SEL applies. -/
def swapBoundary (e n : Nat) (b : Bool) (s : State) : Bool × State :=
  let s := settleSwaps e (instOf s n * 2).toNat s
  let x := seOf s e
  match x.swap, x.held with
  | none, _ =>
    let y := startSwap (instOf s n * 2).toNat (xfLenOf s e) n b { x with busyLast := false }
    (true, modSe e (fun _ => if engineRuns s e then y else endSwaps n y) s)
  | some _, none => (true, modSe e (fun _ => { x with held := some (b, xfLenOf s e), busyLast := false }) s)
  | some _, some h =>
    let s := modSe e (fun _ => { x with busyLast := true, refusals := satInc 8 x.refusals }) s
    let off := baseSE + 0x20000 * e + 0x18000
    let w := (inF s off &&& 0xFFFFFFFE) ||| (if h.1 then 1 else 0)
    (false, raiseFault qSE (0x600 + e) 0x3A (3 * 2 ^ 28) (setShadow off ((shadowOf s off &&& 0xFFFFFFFE) ||| (w &&& 1)) s))

/-- The XF_LEN in force at a boundary, command records included, applies to the swaps that it began or held: those that `s0`, the state
before its settings, does not hold (R176). -/
def latchXf (s0 s : State) : State :=
  doFor (List.range 8) (fun e s => modSe e (fun x => { x with
    swap := if (seOf s0 e).swap.isNone then x.swap.map (fun r => { r with xfLen := xfLenOf s e }) else x.swap
    held := if (seOf s0 e).held.isNone then x.held.map (fun h => (h.1, xfLenOf s e)) else x.held }) s) s

/-- An engine enters DORMANT or FAULTED: its swaps end (R191); entries that wait are dropped from the ledger (R164). -/
def engineStop (e : Nat) (s : State) : State :=
  let x := seOf s e
  let n := 8 * ((List.range 16).filter (fun q => x.unread.getLsbD q)).length + x.fifo.length
  modSe e (fun x => { endSwaps (frame64 s) x with capture := [], unread := 0, fifo := [], ctx := { x.ctx with staged := [], ended := true } })
    (ledDrop 1 n (0x600 + e) s)

def bankMem (b : Bool) : SeMem := if b then .bankB else .bankA

/-- A word that is written holds no bit error. -/
def wordWritten (mem : SeMem) (k : Nat) (x : SeSt) : SeSt := { x with hits := x.hits.filter (fun h => !(h.mem == mem && h.addr == k)) }

/-- The word holds an uncorrectable error (R173). -/
def wordBad (x : SeSt) (mem : SeMem) (k : Nat) : Bool := x.hits.any (fun h => h.mem == mem && h.addr == k && h.uncorrectable)

/-- Bit errors come up in words of the memories; in a word that holds one, an uncorrectable one stays (R173). -/
def addHits (l : List EccHit) (x : SeSt) : SeSt :=
  l.foldl (fun x h => if wordBad x h.mem h.addr then x else { x with hits := h :: (wordWritten h.mem h.addr x).hits }) x

/-- A host write of a bank word (R175). -/
def bankWrite (e : Nat) (b : Bool) (k : Nat) (v : Word) (s : State) : State :=
  let x := seOf s e
  let reason := if bankLocked x then 2 else if b == x.cur then 1 else 0
  if reason = 0 then
    modSe e (fun x =>
      let x := wordWritten (bankMem b) k x
      if b then { x with bankB := Tbl.set (constD 0) x.bankB k (bankStore v) }
      else { x with bankA := Tbl.set (constD 0) x.bankA k (bankStore v) }) s
  else
    raiseFault qSE (0x600 + e) 0x3A (reason * 2 ^ 28 + (if b then 0x4000 else 0) + 4 * k)
      (modSe e (fun x => { x with refusals := satInc 8 x.refusals }) s)

/-! ### Exceptions, overruns and memory errors (R172, R173) -/

def excDetail (cause : Nat) (x : SeSt) : Nat := cause * 2 ^ 28 + x.ctx.slot * 65536 + x.pc

/-- The slot ends with a cause: staged outputs are discarded. -/
def endSlot (cause : Nat) (x : SeSt) : SeSt :=
  { x with ctx := { x.ctx with staged := [], ended := true }, lastExc := wordN (excDetail cause x), excs := satInc 8 x.excs }

def seException (e cause : Nat) (s : State) : State :=
  let d := excDetail cause (seOf s e)
  raiseFault qSE (0x600 + e) 0x3B d (modSe e (endSlot cause) s)

def seOverrun (e : Nat) (s : State) : State :=
  let x := seOf s e
  raiseFault qSE (0x600 + e) 0x39 (x.ctx.slot * 65536 + x.pc) (modSe e (endSlot 1) s)

def memCode : SeMem → Nat
  | .program => 1 | .data => 2 | .bankA => 3 | .bankB => 4

/-- A program reads words of a memory: corrected errors are counted, an uncorrectable one answers true with kind 0x3C raised. -/
def readHits (e : Nat) (mem : SeMem) : List Nat → State → Bool × State
  | [], s => (false, s)
  | a :: t, s =>
    match (seOf s e).hits.find? (fun h => h.mem == mem && h.addr == a) with
    | none => readHits e mem t s
    | some h =>
      if h.uncorrectable then (true, raiseFault qSE (0x600 + e) 0x3C (memCode mem * 2 ^ 28 + a % 65536) s)
      else
        readHits e mem t (modSe e (fun x => { x with
          ecc := satInc 16 x.ecc
          hits := x.hits.filter (fun g => g != h) }) s)

/-! ### Issue of one instruction (R168) -/

/-- How an instruction ends. -/
inductive SeRes where
  | go
  | jump (target : Nat)
  | exc (cause : Nat)
  | stop
  deriving DecidableEq, Repr

/-- The word after `pc`, with the loops that end there (LOOP of Table 6-6). -/
def loopNext (pc : Nat) : List LoopSt → Nat × List LoopSt
  | [] => ((pc + 1) % 8192, [])
  | l :: t =>
    if pc = l.last then (if 1 < l.left then (l.first, { l with left := l.left - 1 } :: t) else loopNext pc t)
    else ((pc + 1) % 8192, l :: t)

/-- The cycle at which an instruction issues: its operands are ready. -/
def issueAt (x : SeSt) (reads : List Nat) : Nat :=
  reads.foldl (fun t k => max t (Tbl.get (constD 0) x.ctx.ready k)) x.ctx.cycle

/-- Time and interlocks after an instruction that issued at `t`. -/
def issued (t cost : Nat) (writes : List (Nat × Nat)) (x : SeSt) : SeSt :=
  { x with ctx := { x.ctx with
      cycle := t + cost
      ready := writes.foldl (fun r w => Tbl.put r w.1 (t + max w.2 cost)) x.ctx.ready } }

/-- One instruction of engine `e`: the registers it reads, its cycles, the registers it writes with their latencies, and what it
does. Nothing happens while the engine does not run or the slot's program has ended. -/
def seOp (e : Nat) (reads : List Nat) (cost : Nat) (writes : List (Nat × Nat)) (body : State → State × SeRes) (s : State) : State :=
  let x := seOf s e
  if !engineRuns s e || x.ctx.ended then s
  else
    let t := issueAt x reads
    if x.ctx.limit < t + cost then seOverrun e s
    else
      let r := body (modSe e (issued t cost writes) s)
      match r.2 with
      | .exc c => seException e c r.1
      | .stop => modSe e (fun x => { x with ctx := { x.ctx with ended := true } }) r.1
      | .jump p => modSe e (fun x => { x with pc := p }) r.1
      | .go => modSe e (fun x =>
          let n := loopNext x.pc x.ctx.loops
          { x with pc := n.1, ctx := { x.ctx with loops := n.2 } }) r.1

/-- An instruction that only changes registers. -/
def seReg (e : Nat) (g : SeSt → SeSt) (s : State) : State × SeRes := (modSe e g s, .go)

/-- The effect after a read of memory words that may be in error. -/
def seRead (e : Nat) (mem : SeMem) (addrs : List Nat) (g : SeSt → SeSt) (s : State) : State × SeRes :=
  let r := readHits e mem addrs s
  if r.1 then (r.2, .exc 9) else (modSe e g r.2, .go)

end Sys2Proof.Machine
end

