-- ==== Sys2Proof/Machine/Se.lean ====
section
/-! DEFINITION. The instructions of the signal engines (spec/06 Table 6-6, R165 to R171, R180) and the delivery of their outputs
(spec/07 R201, R213 to R216). A lower-case letter of Table 6-6 names the field that holds the register's number. -/
namespace Sys2Proof.Machine

/-! ### Scalars -/

def opNop (e : Nat) (_ : SeFields) : State → State := seOp e [] 1 [] (fun s => (s, .go))

def opMovi (e : Nat) (f : SeFields) : State → State :=
  seOp e [] 1 [(kS f.d.val, 1)] (seReg e (setS f.d.val f.imm))

def opSadd (e : Nat) (f : SeFields) : State → State :=
  seOp e [kS f.a.val] 1 [(kS f.d.val, 1)] (seReg e (fun x => setS f.d.val (sOf x f.a.val + f.imm) x))

/-- The byte address Sa + IMM. -/
def memAddr (f : SeFields) (x : SeSt) : Nat := (sOf x f.a.val + f.imm).toNat

/-- An access of `n` bytes with alignment `al` lies in data memory (Table 6-8, cause 4). -/
def dataOk (ad al n : Nat) : Bool := decide (ad % al = 0) && decide (ad + n ≤ 65536)
def dataWord (x : SeSt) (k : Nat) : Word := Tbl.get (constD 0) x.dmem k
def setData (k : Nat) (v : Word) (x : SeSt) : SeSt := { wordWritten .data k x with dmem := Tbl.set (constD 0) x.dmem k v }
/-- Lane values of the block at word `k`. -/
def dataLane (x : SeSt) (k n : Nat) : Int := sfld (dataWord x (k + n)) 0 24
/-- The block at word `k` takes lane values, on the lanes of `en`. -/
def setBlock (k : Nat) (en : Nat → Bool) (val : Nat → Int) (x : SeSt) : SeSt :=
  (List.range 8).foldl (fun x n => if en n then setData (k + n) (wordI (val n)) x else x) x
def wordsAt (k n : Nat) : List Nat := (List.range n).map (k + ·)

def opLds (e : Nat) (f : SeFields) : State → State :=
  seOp e [kS f.a.val] 1 [(kS f.d.val, 2)] (fun s =>
    let ad := memAddr f (seOf s e)
    if dataOk ad 4 4 then seRead e .data [ad / 4] (fun x => setS f.d.val (dataWord x (ad / 4)) x) s else (s, .exc 4))

def opSts (e : Nat) (f : SeFields) : State → State :=
  seOp e [kS f.a.val, kS f.d.val] 1 [] (fun s =>
    let ad := memAddr f (seOf s e)
    if dataOk ad 4 4 then seReg e (fun x => setData (ad / 4) (sOf x f.d.val) x) s else (s, .exc 4))

/-! ### Vectors from and to memory -/

def opLdv (e : Nat) (f : SeFields) : State → State :=
  seOp e [kS f.a.val, kP f.ps.val] 1 [(kV f.d.val, 2)] (fun s =>
    let ad := memAddr f (seOf s e)
    if dataOk ad 32 32 then seRead e .data (wordsAt (ad / 4) 8) (fun x => setV f (dataLane x (ad / 4)) x) s else (s, .exc 4))

def opStv (e : Nat) (f : SeFields) : State → State :=
  seOp e [kS f.a.val, kV f.a.val, kP f.ps.val] 1 [] (fun s =>
    let ad := memAddr f (seOf s e)
    if dataOk ad 32 32 then seReg e (fun x => setBlock (ad / 4) (enabled f x) (vOf x f.a.val) x) s else (s, .exc 4))

/-- The bank word at a byte address; an address that is no multiple of 4 is unstated (log 15). -/
def coefWord (ad : Nat) : Nat := if ad % 4 = 0 then ad / 4 else (Config.seOption 6 ad 0 0).toNat % 4096

/-- Coefficient load (R174, LDC). -/
def opLdc (e : Nat) (f : SeFields) : State → State :=
  seOp e [kS f.a.val, kP f.ps.val] 1 [(kV f.d.val, 2)] (fun s =>
    let x := seOf s e
    let ad := memAddr f x
    let one := f.x.getLsbD 0
    let b := instrBank x (f.x.getLsbD 1)
    let k := coefWord ad
    if 16384 < ad + (if one then 4 else 32) then (s, .exc 5)
    else if one then seRead e (bankMem b) [k] (fun x => setV f (fun _ => bankWord x b k) x) s
    else seRead e (bankMem b) (wordsAt k 8) (fun x => setV f (fun n => bankWord x b (k + n)) x) s)

/-! ### Capture and references -/

/-- Status of a popped auxiliary entry (R169). -/
def entryStatus (en : FifoEnt) : Word :=
  wordN (2 ^ 31 + flag en.held 30 + flag en.sfault 29 + flag en.step.isSome 28 + flag (en.step == some true) 27 + flag en.resync 26
    + flag en.swap 25 + flag en.xf.isSome 24 + en.range % 16 * 2 ^ 20 + en.pos % 16 * 2 ^ 16 + en.cycle % 65536)

/-- The auxiliary channel of an entry of engine `e`. -/
def entryChan (e : Nat) (en : FifoEnt) : Nat := 16 * e + en.pos

/-- A popped entry: a synchronising reset restarts the channel's settle count (R215). -/
def noteEntry (e : Nat) (en : FifoEnt) : State → State :=
  modAx (entryChan e en) (fun a =>
    if en.sfault then { a with lastBad := true }
    else if en.resync || a.lastBad then { a with settle := none, lastBad := false } else a)

/-- CAP in a lane-group slot and in the auxiliary slot (R164, R169). -/
def capLane (e : Nat) (f : SeFields) (s : State) : State :=
  let x := seOf s e
  let q := x.ctx.slot
  let here := x.captureAt == x.ctx.index
  let ent (n : Nat) : Int × Bool := if here then Tbl.get (constD (0, false)) x.capture (8 * q + n) else (0, false)
  let s := if here && x.unread.getLsbD q then
      ledConsume 1 8 (modSe e (fun x => { x with unread := x.unread &&& ~~~(BitVec.ofNat 16 (2 ^ q)) }) s)
    else s
  modSe e (fun x => setP 3 (packByte (fun n => (ent n).2)) (setV f (fun n => (ent n).1) x)) s

def capAux (e : Nat) (f : SeFields) (s : State) : State :=
  match (seOf s e).fifo with
  | [] => modSe e (fun x => setS f.d.val 0 (setV f (fun _ => 0) x)) s
  | en :: rest =>
    noteEntry e en (ledConsume 1 1
      (modSe e (fun x =>
        let y := { x with fifo := rest, ctx := { x.ctx with lastCap := some en } }
        setS f.d.val (entryStatus en) (setV f (fun n => if n = 0 then en.code * 256 else 0) y)) s))

def opCap (e : Nat) (f : SeFields) (s : State) : State :=
  let lane := decide ((seOf s e).ctx.slot < 16)
  seOp e [kP f.ps.val] 1 (if lane then [(kV f.d.val, 1), (kP 3, 1)] else [(kV f.d.val, 1), (kS f.d.val, 1)])
    (fun s => (if lane then capLane e f s else capAux e f s, .go)) s

/-- Carrier phase index of decimation instant `i` (R165). -/
def phaseIdx (s : State) (e q i : Nat) : Nat := (i + slotM s e q - groupPhase s (8 * e + q / 2)) % slotM s e q
/-- HC (Table 6-5). -/
def isHc (s : State) (e q i : Nat) : Bool := phaseIdx s e q i % (slotM s e q / 2) == slotM s e q / 2 - 1

/-- The weight that CTX 2 gives in the slot; none outside a cross-fade. -/
def ctxWeight (x : SeSt) : Option (Nat × Nat) :=
  if x.ctx.slot < 16 then x.ctx.xf else match x.ctx.lastCap with | some en => en.xf | none => none

/-- The value of CTX in lane `n`. In the auxiliary slot no carrier is named, and outside a cross-fade no weight (log 15). -/
def ctxValue (s : State) (e opt n : Nat) : Int :=
  let x := seOf s e
  let k := fld (sOf x 12) 0 9
  let m := slotM s e x.ctx.slot
  if opt = 3 then n
  else if opt = 2 then
    match ctxWeight x with
    | some w => xfWeight w.1 w.2
    | none => Config.seOption 7 n 0 0
  else if 16 ≤ x.ctx.slot then Config.seOption 8 n opt k
  else lsb ((if opt = 0 then sinRev ((k : Rat) / m) else cosRev ((k : Rat) / m)) * 4194304)

def opCtx (e : Nat) (f : SeFields) : State → State :=
  seOp e [kS 12, kP f.ps.val] 1 [(kV f.d.val, 1)] (fun s =>
    if 3 < f.x.toNat then (s, .exc 3) else seReg e (setV f (fun n => ctxValue s e f.x.toNat n)) s)

/-! ### Arithmetic -/

def opMac (e : Nat) (f : SeFields) : State → State :=
  let clr := f.x.getLsbD 0
  seOp e ([kV f.a.val, kV f.b.val, kP f.ps.val] ++ if clr then [] else [kA f.d.val]) 1 [(kA f.d.val, 3)]
    (seReg e (fun x => setAcc f (fun n =>
      let p := vOf x f.a.val n * vOf x f.b.val n
      (if clr then 0 else accOf x f.d.val n) + (if f.x.getLsbD 1 then -p else p)) x))

/-- The address after a data vector of MACM, in the circular window of S9; a window of length 0 is unstated (log 15). -/
def macmNext (x : SeSt) (ad : Nat) : Nat :=
  let w := sOf x 9
  let base := fld w 0 16
  let len := fld w 16 16 * 32
  if len = 0 then (Config.seOption 9 ad base 0).toNat
  else if base + len ≤ ad + 32 ∧ base ≤ ad then ad + 32 - len else ad + 32

/-- MACM: what it writes, the advanced addresses too, is ready after 3 cycles (R168). -/
def opMacm (e : Nat) (f : SeFields) : State → State :=
  seOp e [kS f.a.val, kS f.b.val, kS 9, kA f.d.val, kP f.ps.val] 1 [(kA f.d.val, 3), (kS f.a.val, 3), (kS f.b.val, 3)] (fun s =>
    let x := seOf s e
    let ad := (sOf x f.a.val).toNat
    let cd := (sOf x f.b.val).toNat
    let b := instrBank x (f.x.getLsbD 1)
    let k := coefWord cd
    if !dataOk ad 32 32 then (s, .exc 4)
    else if 16384 < cd + 4 then (s, .exc 5)
    else
      let r := readHits e .data (wordsAt (ad / 4) 8) s
      if r.1 then (r.2, .exc 9)
      else seRead e (bankMem b) [k] (fun x =>
        let y := setAcc f (fun n => accOf x f.d.val n + dataLane x (ad / 4) n * bankWord x b k) x
        let y := setS f.a.val (wordN (macmNext x ad)) y
        setS f.b.val (sOf y f.b.val + 4) y) r.2)

def opHsum (e : Nat) (f : SeFields) : State → State :=
  seOp e [kA f.a.val, kP f.ps.val] 3 [(kA f.d.val, 3)]
    (seReg e (fun x => setAcc f (fun n => if n = 0 then (List.range 8).foldl (fun t l => t + accOf x f.a.val l) 0 else 0) x))

/-- RND; a shift above 47 is unstated (log 15). -/
def opRnd (e : Nat) (f : SeFields) : State → State :=
  seOp e [kA f.a.val, kP f.ps.val] 1 [(kV f.d.val, 1)] (seReg e (fun x => setV f (fun n =>
    let a := accOf x f.a.val n
    if f.imm.toNat ≤ 47 then roundShift a f.imm.toNat else Config.seOption 10 f.imm.toNat a 0) x))

/-- A lane-wise operation of two vectors. -/
def opVec2 (e : Nat) (f : SeFields) (g : Int → Int → Int) : State → State :=
  seOp e [kV f.a.val, kV f.b.val, kP f.ps.val] 1 [(kV f.d.val, 1)]
    (seReg e (fun x => setV f (fun n => g (vOf x f.a.val n) (vOf x f.b.val n)) x))

def opAdd (e : Nat) (f : SeFields) : State → State := opVec2 e f (fun a b => a + b)
def opSub (e : Nat) (f : SeFields) : State → State := opVec2 e f (fun a b => a - b)

def opAbs (e : Nat) (f : SeFields) : State → State :=
  seOp e [kV f.a.val, kP f.ps.val] 1 [(kV f.d.val, 1)] (seReg e (fun x => setV f (fun n => ((vOf x f.a.val n).natAbs : Int)) x))

/-- MNX; an option above 1 is unstated (log 15). -/
def opMnx (e : Nat) (f : SeFields) : State → State :=
  opVec2 e f (fun a b => if f.x = 0 then min a b else if f.x = 1 then max a b else Config.seOption 11 f.x.toNat a b)

/-- SHF: a positive IMM shifts left (log 15). -/
def shiftVal (n a : Int) : Int :=
  if 0 ≤ n ∧ n ≤ 23 then a * (2 ^ n.toNat : Nat) else if -23 ≤ n ∧ n < 0 then roundShift a (-n).toNat
  else Config.seOption 12 0 n a

def opShf (e : Nat) (f : SeFields) : State → State :=
  seOp e [kV f.a.val, kP f.ps.val] 1 [(kV f.d.val, 1)] (seReg e (fun x => setV f (fun n => shiftVal f.imm.toInt (vOf x f.a.val n)) x))

/-- The conditions of CMP; an option above 5 is unstated (log 15). -/
def cmpCond (opt : Nat) (a b : Int) : Bool :=
  match opt with
  | 0 => decide (a < b) | 1 => decide (a ≤ b) | 2 => decide (a = b) | 3 => decide (a ≠ b) | 4 => decide (b ≤ a) | 5 => decide (b < a)
  | k => Config.seOption 13 k a b % 2 == 1

def opCmp (e : Nat) (f : SeFields) : State → State :=
  seOp e [kV f.a.val, kV f.b.val, kP f.ps.val] 1 [(kP f.d.val, 1)] (fun s =>
    if f.d.val = 0 then (s, .exc 3)
    else seReg e (fun x => setP (pIdx f.d.val) (packByte (fun n =>
      if enabled f x n then cmpCond f.x.toNat (vOf x f.a.val n) (vOf x f.b.val n) else (pOf x f.d.val).getLsbD n)) x) s)

/-- SEL writes all lanes. -/
def opSel (e : Nat) (f : SeFields) : State → State :=
  seOp e [kV f.a.val, kV f.b.val, kP f.ps.val] 1 [(kV f.d.val, 1)] (seReg e (fun x =>
    let l := lanes (fun n => if enabled f x n then vOf x f.a.val n else vOf x f.b.val n)
    { x with v := Tbl.set (constD zeros8) x.v (vIdx f.d.val) l }))

/-- One direct-form I section (R170): data block at word `k`, coefficient `c` of lane `n` by `co`. -/
def bqStep (f : SeFields) (k : Nat) (co : Nat → Nat → Int) (x : SeSt) : SeSt :=
  let y (n : Nat) : Int := satS 24 (roundShift (co 0 n * vOf x f.a.val n + co 1 n * dataLane x k n + co 2 n * dataLane x (k + 8) n
    - co 3 n * dataLane x (k + 16) n - co 4 n * dataLane x (k + 24) n) 22)
  let en := enabled f x
  setV f y (setBlock k en (vOf x f.a.val) (setBlock (k + 8) en (dataLane x k) (setBlock (k + 16) en y (setBlock (k + 24) en (dataLane x (k + 16)) x))))

def opBq (e : Nat) (f : SeFields) : State → State :=
  seOp e [kV f.a.val, kS f.a.val, kS f.b.val, kP f.ps.val] 5 [(kV f.d.val, 5)] (fun s =>
    let x := seOf s e
    let ad := memAddr f x
    let cd := (sOf x f.b.val).toNat
    let one := f.x.getLsbD 0
    let b := instrBank x (f.x.getLsbD 1)
    let k := coefWord cd
    if !dataOk ad 32 128 then (s, .exc 4)
    else if 16384 < cd + (if one then 20 else 160) then (s, .exc 5)
    else
      let r := readHits e .data (wordsAt (ad / 4) 32) s
      if r.1 then (r.2, .exc 9)
      else seRead e (bankMem b) (wordsAt k (if one then 5 else 40))
        (fun x => bqStep f (ad / 4) (fun c n => bankWord x b (if one then k + c else k + 8 * c + n)) x) r.2)

/-- The largest r of at most 23 bits with r^2 ≤ a: floor(sqrt a), at most 2^23 - 1. -/
def sqrt23 (a : Nat) : Nat :=
  ((List.range 23).reverse).foldl (fun r k => if (r + 2 ^ k) * (r + 2 ^ k) ≤ a then r + 2 ^ k else r) 0

def opSqrt (e : Nat) (f : SeFields) : State → State :=
  seOp e [kA f.a.val, kP f.ps.val] 8 [(kV f.d.val, 8)] (seReg e (fun x => setV f (fun n => (sqrt23 (accOf x f.a.val n).toNat : Int)) x))

/-! ### Control -/

def opLoop (e : Nat) (f : SeFields) : State → State :=
  seOp e [] 1 [] (fun s =>
    let x := seOf s e
    let n := f.imm.toNat
    if f.x = 0 ∨ n = 0 ∨ 4096 < n then (s, .exc 3)
    else if 2 ≤ x.ctx.loops.length then (s, .exc 6)
    else seReg e (fun x => { x with ctx := { x.ctx with
      loops := { first := (x.pc + 1) % 8192, last := (x.pc + f.x.toNat) % 8192, left := n } :: x.ctx.loops } }) s)

/-- The condition of BR; an option above 4 is unstated (log 15). -/
def brCond (opt : Nat) (v : Word) : Bool :=
  match opt with
  | 0 => decide (v.toInt = 0) | 1 => decide (v.toInt ≠ 0) | 2 => decide (v.toInt < 0) | 3 => decide (0 ≤ v.toInt) | 4 => true
  | k => Config.seOption 14 k v.toInt 0 % 2 == 1

def opBr (e : Nat) (f : SeFields) (s : State) : State :=
  let taken := brCond f.x.toNat (sOf (seOf s e) f.a.val)
  seOp e [kS f.a.val] (if taken then 2 else 1) [] (fun s =>
    let x := seOf s e
    let t := x.pc + f.imm.toNat
    let out := match x.ctx.loops with | l :: _ => decide (l.last < t) | [] => false
    if !taken then (s, .go) else if out then (s, .exc 6) else if 8191 < t then (s, .exc 7) else (s, .jump t)) s

/-- The source of a RAISE (R180). Where no lane group or channel is named, the source is unstated (log 15). -/
def raiseSource (e opt : Nat) (x : SeSt) : Nat :=
  if opt = 0 then 0x600 + e
  else if opt ≤ 8 then
    let q := if x.ctx.slot < 16 then x.ctx.slot else (Config.seOption 15 opt 0 0).toNat % 16
    64 * e + 4 * q + (opt - 1) / 2
  else
    match x.ctx.lastCap with
    | some en => 0x400 + entryChan e en
    | none => 0x400 + 16 * e + (Config.seOption 16 opt 0 0).toNat % 16

def opRaise (e : Nat) (f : SeFields) : State → State :=
  seOp e [kS f.a.val] 1 [] (fun s =>
    let x := seOf s e
    let kind := fld f.imm 0 8
    if kind < 0xC0 ∨ 9 < f.x.toNat then (s, .exc 3)
    else (raiseFault (qEng e) (raiseSource e f.x.toNat x) kind (sOf x f.a.val).toNat s, .go))

/-- A port is permitted in the slot and pass (Table 6-7). -/
def portOk (s : State) (e port : Nat) : Bool :=
  let c := (seOf s e).ctx
  if port = 0 then decide (c.slot < 16) && isHc s e c.slot c.index else if port = 1 then decide (c.slot < 16)
  else decide (port ≤ 3) && decide (16 ≤ c.slot)

/-- OUT: values for several channels are all staged; a second value for the same port and channel in a slot replaces the first (log 15). -/
def opOut (e : Nat) (f : SeFields) : State → State :=
  seOp e [kV f.a.val, kP f.ps.val] 1 [] (fun s =>
    if portOk s e f.x.toNat then
      seReg e (fun x =>
        let o : Staged := { port := f.x.toNat, lanes := lanes (vOf x f.a.val), mask := packByte (enabled f x)
                            cap := if f.x.toNat < 2 then none else x.ctx.lastCap }
        { x with ctx := { x.ctx with staged := x.ctx.staged.filter (fun t => t.port != o.port || t.cap != o.cap) ++ [o] } }) s
    else (s, .exc 8))

/-! ### Delivery of staged outputs -/

/-- D_res of a channel in ns, weighted in a cross-fade by the weight of the lane group's last sample boundary (spec/07 R197, R213,
R222). -/
def resDelay (s : State) (e q m : Nat) : Rat :=
  let x := seOf s e
  let w := 0x40 + 4 * (4 * q + m) + 2
  let b := streamBank x q
  let new : Rat := (unsig 24 (bankWord x b w) : Rat)
  let dly := match streamFade x q with
    | some k => let old : Rat := (unsig 24 (bankWord x (!b) w) : Rat); old + (k.1 : Rat) / k.2 * (new - old)
    | none => new
  (slotM s e q - 1 : Nat) * 3125 / 4 + dly

/-- Port 0: the demodulated sample of a channel waits for its tracker (R171, R199, R215, R216). -/
def deliverChan (e q m : Nat) (o : Staged) (s : State) : State :=
  let c := 64 * e + 4 * q + m
  if unitExists s c && stOf s c != .dormant then
    let x := seOf s e
    let ok := o.mask.getLsbD (2 * m) && o.mask.getLsbD (2 * m + 1)
    let t := tkOf s c
    let settle := if !ok then t.settle else some (if t.lastBad then 0 else match t.settle with | some k => k + 1 | none => 0)
    let need := descWord x q (0x40 + 4 * (4 * q + m) + 3) % 4096
    let fresh := ok && t.lastBad
    let settled := ok && ((!fresh && t.settled) || (match settle with | some k => decide (need ≤ k) | none => false))
    let win := (rcOf s c).hist.take (slotM s e q)
    let d : Demod := { i := x.ctx.index, s := o.lanes.getD (2 * m) 0, c := o.lanes.getD (2 * m + 1) 0, ok
                       gap := win.any (fun r => !r.ok), mark := win.any (fun r => r.mark), delay := resDelay s e q m, settled }
    modTk c (fun t => { t with settle, lastBad := !ok, settled := if fresh then settled else t.settled || settled, waiting := t.waiting ++ [d] }) s
  else s

/-- Port 1: the extension of the channel record; a lane not valid keeps its last value, and a tracker that the image does not list discards
its lanes (R171; spec/07 R229). -/
def deliverExt (e q m : Nat) (o : Staged) (s : State) : State :=
  if unitExists s (64 * e + 4 * q + m) then
    modTk (64 * e + 4 * q + m) (fun t => { t with
      ext0 := if o.mask.getLsbD (2 * m) then o.lanes.getD (2 * m) 0 else t.ext0
      ext1 := if o.mask.getLsbD (2 * m + 1) then o.lanes.getD (2 * m + 1) 0 else t.ext1 }) s
  else s

/-- SETTLE of an auxiliary channel for its MAINS, in bank `b` and in the bank that its stream uses (spec/07 Table 7-7). -/
def auxSettleIn (s : State) (e k : Nat) (b : Bool) : Nat :=
  let mains := fld (inF s (baseAUX + 0x40 * (16 * e + k))) 24 2
  unsig 24 (bankWord (seOf s e) b (0x140 + 8 * k + (if mains = 1 then 4 else if mains = 2 then 5 else 3))) % 4096
def auxSettle (s : State) (e k : Nat) : Nat := auxSettleIn s e k (streamBank (seOf s e) (16 + k))

/-- MODE of an auxiliary channel; 0: off. -/
def auxMode (s : State) (a : Nat) : Nat := let m := fld (inF s (baseAUX + 0x40 * a)) 0 4; if m ≤ 5 then m else 0
def isRtd (m : Nat) : Bool := 3 ≤ m && m ≤ 5
/-- SERVICE_OK (Table 5-10): both means hold 16 results, or the mode needs none. -/
def serviceOk (s : State) (a : Nat) : Bool :=
  let m := auxMode s a
  !isRtd m || (decide (16 ≤ (axOf s a).cal.length) && (m == 3 || decide (16 ≤ (axOf s a).lead.length)))

/-- Preparation of an auxiliary channel completes (R150). -/
def auxPrepCheck (a : Nat) (s : State) : State :=
  let done := (match (axOf s a).settle with | some k => decide (auxSettle s (a / 16) (a % 16) ≤ k) | none => false) && serviceOk s a
  if stOf s (0x400 + a) == .preparing && done then modUnit (0x400 + a) (fun z => { z with prepDone := true }) s else s

/-- Port 2: a chain output enters the resampler's history; after a synchronising reset the history becomes it (spec/07 R210, R215). -/
def deliverAux (e : Nat) (en : FifoEnt) (o : Staged) (s : State) : State :=
  let a := entryChan e en
  let ok := o.mask.getLsbD 0
  let x := axOf s a
  let num := match x.settle with | some k => k + 1 | none => 0
  let out : AxOut := { at_ := en.at_, y := o.lanes.getD 0 0, ok, range := en.range, num }
  let t := tCyc s e
  auxPrepCheck a (modAx a (fun x =>
    if !ok then { x with outs := (out :: x.outs).take 8, lastBad := true }
    else if num = 0 then
      { x with settle := some 0, outs := out :: (List.range 7).map (fun k => { out with at_ := en.at_ - (k + 1) * t }) }
    else { x with settle := some num, outs := (out :: x.outs).take 8 }) s)

/-- Port 3: the detector values of the conversion; a lane whose predicate is 0 is not valid (R171). -/
def deliverDet (e : Nat) (en : FifoEnt) (o : Staged) : State → State :=
  let lane (n : Nat) : Option Int := if o.mask.getLsbD n then some (o.lanes.getD n 0) else none
  modAx (entryChan e en) (fun x => { x with
    dets := ({ at_ := en.at_, peak := lane 0, rms := lane 1, envl := lane 2, range := en.range } :: x.dets).take 8 })

/-- One staged output is delivered (Table 6-7). -/
def deliver (e : Nat) (o : Staged) (s : State) : State :=
  let c := (seOf s e).ctx
  if o.port = 0 then doFor [0, 1, 2, 3] (fun m => deliverChan e c.slot m o) s
  else if o.port = 1 then doFor [0, 1, 2, 3] (fun m => deliverExt e c.slot m o) s
  else
    match o.cap with
    | none => s
    | some en => if o.port = 2 then deliverAux e en o s else deliverDet e en o s

def opYield (e : Nat) (_ : SeFields) : State → State :=
  seOp e [] 1 [] (fun s =>
    let st := (seOf s e).ctx.staged
    (doFor st (deliver e) (modSe e (fun x => { x with ctx := { x.ctx with staged := [] } }) s), .stop))

/-- An illegal OP (Table 6-8, cause 2). -/
def opIllegal (e : Nat) : State → State := seOp e [] 1 [] (fun s => (s, .exc 2))

/-! ### The instructions as commands: one executed in the slot that the engine is in, between passes the auxiliary slot (log 94). A memory error given with a load is that of
the first word it reads (of MACM and BQ: of the data memory). -/

/-- The word read carries the error that the command names; it stays in the memory until it is corrected or the word is written. -/
def withHit (e : Nat) (mem : SeMem) (addr : Nat) (err : MemErr) (op : State → State) (s : State) : State :=
  match err with
  | .none => op s
  | .corrected => op (modSe e (addHits [⟨mem, addr, false⟩]) s)
  | .uncorrectable => op (modSe e (addHits [⟨mem, addr, true⟩]) s)

def execNop (e : Fin 8) (f : SeFields) (s : State) : Host.Outcome State Fault Refusal := .next (opNop e.val f s)
def execMovi (e : Fin 8) (f : SeFields) (s : State) : Host.Outcome State Fault Refusal := .next (opMovi e.val f s)
def execSadd (e : Fin 8) (f : SeFields) (s : State) : Host.Outcome State Fault Refusal := .next (opSadd e.val f s)
def execLds (e : Fin 8) (f : SeFields) (err : MemErr) (s : State) : Host.Outcome State Fault Refusal :=
  .next (withHit e.val .data (memAddr f (seOf s e.val) / 4) err (opLds e.val f) s)
def execSts (e : Fin 8) (f : SeFields) (s : State) : Host.Outcome State Fault Refusal := .next (opSts e.val f s)
def execLdv (e : Fin 8) (f : SeFields) (err : MemErr) (s : State) : Host.Outcome State Fault Refusal :=
  .next (withHit e.val .data (memAddr f (seOf s e.val) / 4) err (opLdv e.val f) s)
def execStv (e : Fin 8) (f : SeFields) (s : State) : Host.Outcome State Fault Refusal := .next (opStv e.val f s)
def execLdc (e : Fin 8) (f : SeFields) (err : MemErr) (s : State) : Host.Outcome State Fault Refusal :=
  .next (withHit e.val (bankMem (instrBank (seOf s e.val) (f.x.getLsbD 1))) (coefWord (memAddr f (seOf s e.val))) err (opLdc e.val f) s)
def execCap (e : Fin 8) (f : SeFields) (s : State) : Host.Outcome State Fault Refusal := .next (opCap e.val f s)
def execCtx (e : Fin 8) (f : SeFields) (s : State) : Host.Outcome State Fault Refusal := .next (opCtx e.val f s)
def execMac (e : Fin 8) (f : SeFields) (s : State) : Host.Outcome State Fault Refusal := .next (opMac e.val f s)
def execMacm (e : Fin 8) (f : SeFields) (err : MemErr) (s : State) : Host.Outcome State Fault Refusal :=
  .next (withHit e.val .data ((sOf (seOf s e.val) f.a.val).toNat / 4) err (opMacm e.val f) s)
def execHsum (e : Fin 8) (f : SeFields) (s : State) : Host.Outcome State Fault Refusal := .next (opHsum e.val f s)
def execRnd (e : Fin 8) (f : SeFields) (s : State) : Host.Outcome State Fault Refusal := .next (opRnd e.val f s)
def execAdd (e : Fin 8) (f : SeFields) (s : State) : Host.Outcome State Fault Refusal := .next (opAdd e.val f s)
def execSub (e : Fin 8) (f : SeFields) (s : State) : Host.Outcome State Fault Refusal := .next (opSub e.val f s)
def execAbs (e : Fin 8) (f : SeFields) (s : State) : Host.Outcome State Fault Refusal := .next (opAbs e.val f s)
def execMnx (e : Fin 8) (f : SeFields) (s : State) : Host.Outcome State Fault Refusal := .next (opMnx e.val f s)
def execShf (e : Fin 8) (f : SeFields) (s : State) : Host.Outcome State Fault Refusal := .next (opShf e.val f s)
def execCmp (e : Fin 8) (f : SeFields) (s : State) : Host.Outcome State Fault Refusal := .next (opCmp e.val f s)
def execSel (e : Fin 8) (f : SeFields) (s : State) : Host.Outcome State Fault Refusal := .next (opSel e.val f s)
def execBq (e : Fin 8) (f : SeFields) (err : MemErr) (s : State) : Host.Outcome State Fault Refusal :=
  .next (withHit e.val .data (memAddr f (seOf s e.val) / 4) err (opBq e.val f) s)
def execSqrt (e : Fin 8) (f : SeFields) (s : State) : Host.Outcome State Fault Refusal := .next (opSqrt e.val f s)
def execOut (e : Fin 8) (f : SeFields) (s : State) : Host.Outcome State Fault Refusal := .next (opOut e.val f s)
def execLoop (e : Fin 8) (f : SeFields) (s : State) : Host.Outcome State Fault Refusal := .next (opLoop e.val f s)
def execBr (e : Fin 8) (f : SeFields) (s : State) : Host.Outcome State Fault Refusal := .next (opBr e.val f s)
def execRaise (e : Fin 8) (f : SeFields) (s : State) : Host.Outcome State Fault Refusal := .next (opRaise e.val f s)
def execYield (e : Fin 8) (f : SeFields) (s : State) : Host.Outcome State Fault Refusal := .next (opYield e.val f s)

/-- BANK_WRITE: a host write of one bank word. -/
def execBankWrite (e : Fin 8) (bankB : Bool) (word : Fin 4096) (v : Word) (s : State) : Host.Outcome State Fault Refusal :=
  .next (if deviceUp s then bankWrite e.val bankB word.val v s else s)

/-- SLOT_OVERRUN: the slot timer of the running engine's present slot expires before YIELD. -/
def execSlotOverrun (e : Fin 8) (s : State) : Host.Outcome State Fault Refusal :=
  .next (if engineRuns s e.val && !(seOf s e.val).ctx.ended then seOverrun e.val s else s)

/-! ### Slots and the pass (R161 to R166, R181) -/

/-- The fields of an instruction word (R167). -/
def seFields (w : BitVec 64) : SeFields :=
  let fin (n lo : Nat) (h : 0 < n) : Fin n := ⟨w.toNat / 2 ^ lo % n, Nat.mod_lt _ h⟩
  { ps := fin 4 56 (by decide), pn := w.getLsbD 55, d := fin 32 50 (by decide), a := fin 32 45 (by decide), b := fin 32 40 (by decide)
    x := w.extractLsb' 32 8, imm := w.extractLsb' 0 32 }

/-- The operation of an opcode (Table 6-6). -/
def seInstr (op e : Nat) (f : SeFields) : State → State :=
  match op with
  | 0x00 => opNop e f | 0x01 => opMovi e f | 0x02 => opSadd e f | 0x03 => opLds e f | 0x04 => opSts e f | 0x05 => opLdv e f
  | 0x06 => opStv e f | 0x07 => opLdc e f | 0x08 => opCap e f | 0x09 => opCtx e f | 0x0A => opMac e f | 0x0B => opMacm e f
  | 0x0C => opHsum e f | 0x0D => opRnd e f | 0x0E => opAdd e f | 0x0F => opSub e f | 0x10 => opAbs e f | 0x11 => opMnx e f
  | 0x12 => opShf e f | 0x13 => opCmp e f | 0x14 => opSel e f | 0x15 => opBq e f | 0x16 => opSqrt e f | 0x17 => opOut e f
  | 0x18 => opLoop e f | 0x19 => opBr e f | 0x1A => opRaise e f | 0x1B => opYield e f
  | _ => opIllegal e

/-- The word at PC is fetched and executed; an uncorrectable program word ends the slot. -/
def seFetch (e : Nat) (s : State) : State :=
  let x := seOf s e
  let r := readHits e .program [x.pc] s
  if r.1 then seException e 9 r.2
  else
    let w : BitVec 64 := Tbl.get (constD 0) x.prog x.pc
    seInstr (w.toNat / 2 ^ 58) e (seFields w) r.2

/-- The slot's program runs to its end; every instruction takes at least one cycle. -/
def runSlot (e : Nat) : Nat → State → State
  | 0, s => s
  | n + 1, s => if (seOf s e).ctx.ended then s else runSlot e n (seFetch e s)

/-- A slot starts: S10 to S15 are loaded, nothing is staged (R165). -/
def startSlot (e slot i limit entry : Nat) (s12 : Word) (s15 : Word) (base : Nat) (trap : FaultMsg) (xf : Option (Nat × Nat)) : State → State :=
  modSe e (fun x =>
    let y := setS 10 (trap.extractLsb' 32 32) (setS 11 (trap.extractLsb' 0 32) (setS 12 s12 (setS 13 (wordN i) (setS 14 (wordN base) (setS 15 s15 x)))))
    { y with pc := entry % 8192, ctx := { slot, index := i, cycle := 0, limit, xf, ended := false } })

/-- FRAME (Table 6-5): a frame instant lies in (t_(i-1), t_i]. -/
def frameInPass (s : State) (i : Nat) : Bool :=
  let t : Int := 3125 * i
  let n := (t / 2 - s.time.slew - epoch s) / tf s
  decide (0 ≤ n) && decide (t - 3125 < 2 * instOf s n.toNat) && decide (2 * instOf s n.toNat ≤ t)

/-- Channels of the lane group that take a synchronising reset in this pass (SYNC). -/
def syncLanes (s : State) (e q i : Nat) : List Nat :=
  let due := match s.time.frame with | some n => decide (2 * instOf s n ≤ 3125 * i) | none => true
  [0, 1, 2, 3].filter (fun m => due && (seOf s e).sync.getLsbD (4 * q + m))

/-- The slot of lane group `q` in pass `i`. -/
def laneSlot (e i q : Nat) (s : State) : State :=
  let hc := isHc s e q i
  let k := phaseIdx s e q i
  let (xf, s) := if hc then countBoundary e q (3125 * i) s else (none, s)
  let sy := syncLanes s e q i
  let s15 := sy.foldl (fun n m => n + 2 ^ (8 + m)) 0 + flag (frameInPass s i) 4 + flag xf.isSome 3
    + flag (match xf with | some w => w.1 == 1 | none => false) 2 + flag (k == slotM s e q - 1) 1 + flag hc 0
  let s := doFor sy (fun m => modTk (64 * e + 4 * q + m) (fun t => { t with lastBad := true, settle := none, settled := false })) s
  let s := modSe e (fun x => { x with sync := sy.foldl (fun b m => b &&& ~~~(BitVec.ofNat 64 (2 ^ (4 * q + m)))) x.sync }) s
  let s := startSlot e q i (slotLen s e q) (slotEntry s e q) (wordN (q * 65536 + q * 4096 + k)) (wordN s15) (stateBase s e q) 0 xf s
  let s := runSlot e (slotLen s e q + 1) s
  let x := seOf s e
  if x.unread.getLsbD q then
    raiseFault qSE (0x600 + e) 0x38 q (modSe e (fun x => { x with
        overruns := satInc 16 x.overruns, unread := x.unread &&& ~~~(BitVec.ofNat 16 (2 ^ q)) }) (ledDrop 1 8 (0x600 + e) s))
  else s

/-- S12 of the auxiliary slot: its lane group and phase index are unstated (log 15). -/
def auxS12 (slot i : Nat) : Word := wordN (slot * 65536 + (Config.seOption 17 i 0 0).toNat % 16 * 4096 + (Config.seOption 18 i 0 0).toNat % 512)

/-- The auxiliary slot: the oldest trap request's handler, else the auxiliary program (R181, R193). -/
def auxSlotRun (e i : Nat) (s : State) : State :=
  let n := auxLen s e
  match (seOf s e).traps with
  | m :: rest =>
    let s := modSe e (fun x => { x with traps := rest, trapsRun := satInc 16 x.trapsRun }) s
    runSlot e (n + 1) (startSlot e 17 i n (trapEntry s e) (auxS12 17 i) 0 (stateBase s e 16) m none s)
  | [] => runSlot e (n + 1) (startSlot e 16 i n (slotEntry s e 16) (auxS12 16 i) 0 (stateBase s e 16) 0 none s)

/-- Pass `i` of engine `e`: 17 slots in fixed order. `ecc`: the words whose bit errors come up. -/
def sePass (e i : Nat) (ecc : List EccHit) (s : State) : State :=
  if engineRuns s e then
    let s := modSe e (fun x => addHits ecc { x with lastIndex := i }) (settleSwaps e (3125 * i) s)
    let s := doFor (List.range 16) (laneSlot e i) s
    let s := auxSlotRun e i s
    let s := settleSwaps e (3125 * i + 1) (modSe e (fun x => { x with ctx := idleCtx s e i }) s)
    if stOf s (0x600 + e) == .preparing then modUnit (0x600 + e) (fun z => { z with prepDone := true }) s else s
  else s

/-- SE_PASS. -/
def execSePass (e : Fin 8) (i : Nat) (ecc : List EccHit) (s : State) : Host.Outcome State Fault Refusal :=
  .next (sePass e.val i ecc s)

/-- CHANGE of an engine's committed BANK_SEL is a swap request (R175): noted at the acceptance of its COMMIT. -/
def noteSwapRequest (e : Nat) (v : Word) : State → State :=
  modSe e (fun x => if bitAt v 0 != newestBank x then { x with asked := some (bitAt v 0) } else x)

end Sys2Proof.Machine
end

