-- ==== Sys2Proof/Machine/AuxIn.lean ====
section
/-! DEFINITION. The auxiliary front end (spec/05): slots, conversions, ranges, current calibration and leads; the resampler and the
auxiliary record's values (spec/07 R210 to R216). -/
namespace Sys2Proof.Machine

def auxReg (s : State) (a o : Nat) : Word := inF s (baseAUX + 0x40 * a + o)
def auxCtrl (s : State) (a : Nat) : Word := auxReg s a 0

/-- The top range index of a mode (R143). -/
def topRange (mode : Nat) : Nat := if mode = 2 then 7 else 3
def rangeMin (s : State) (a : Nat) : Nat := min (fld (auxReg s a 8) 0 4) (topRange (auxMode s a))
def rangeMax (s : State) (a : Nat) : Nat := min (fld (auxReg s a 8) 4 4) (topRange (auxMode s a))
def rangeSet (s : State) (a : Nat) : Nat := min (fld (auxCtrl s a) 4 4) (topRange (auxMode s a))
def autoRange (s : State) (a : Nat) : Bool := bitAt (auxCtrl s a) 11
def iexc (s : State) (a : Nat) : Nat := fld (auxCtrl s a) 12 3

/-- The channel converts: listed, neither DORMANT nor FAULTED, with a mode (R139). -/
def auxOn (s : State) (a : Nat) : Bool := unitExists s (0x400 + a) && running s (0x400 + a) && auxMode s a != 0

/-- Table 5-6: nominal current in A and CAL index. -/
def iexcNominal (k : Nat) : Rat := [0, 10, 25, 50, 100, 250, 500, 1000].getD k 0 / 1000000
def calIndex (k : Nat) : Nat := if k = 0 then Config.calIndexOff % 4 else [3, 3, 3, 3, 2, 1, 1, 0].getD k 3

/-- A code in volts at a voltage range, and in amperes at a CURR range (Table 5-5). -/
def codeVolts (range : Nat) (code : Rat) : Rat := code / (16000 * 4 ^ range)
def codeAmps (range : Nat) (code : Rat) : Rat := code / (16000000 * 4 ^ range)

def meanQ (l : List Rat) : Rat := if l.isEmpty then 0 else l.foldl (· + ·) 0 / (l.length : Rat)
/-- I_CAL in A and R_LEAD in ohm (R148). -/
def iCal (s : State) (a : Nat) : Rat := if isRtd (auxMode s a) then meanQ (axOf s a).cal / 500 else 0
def rLead (s : State) (a : Nat) : Rat :=
  let m := auxMode s a
  if (m = 4 ∨ m = 5) ∧ iCal s a ≠ 0 then meanQ (axOf s a).lead / iCal s a else 0

/-- NTAP of the channel's chain in the bank it uses. -/
def chainTaps (s : State) (a : Nat) : Nat := descWord (seOf s (a / 16)) (16 + a % 16) (0x140 + 8 * (a % 16)) % 1024

/-! ### Range steps (R144 to R146) -/

/-- A range change takes effect: the history is rescaled, or the chain resynchronised where a step down would not be exact or a step up would
saturate a section state or detector word; those words lie where the engine's program keeps them (log 93). Where the next entry takes a
synchronising reset anyway, requested or after an entry in signal fault, no rescale of history applies (spec/07 R231). -/
def stepTo (a new : Nat) (s : State) : State :=
  let x := axOf s a
  if new = x.range then s
  else
    let d : Int := (new : Int) - x.range
    let sh := x.shifts.map (fun k => k - 2 * d)
    let dead := x.resync || (match x.recent with | r :: _ => r.2.2.2 | [] => false)
    let sh := if dead then [] else sh
    let bad := !dead && ((decide (d < 0) && sh.any (fun k => decide (8 < k)))
      || (decide (0 < d) && Config.stepSaturates (seOf s (a / 16)).dmem (a % 16) d.toNat))
    let s := modAx a (fun x => { x with
        range := new, held := true, stepped := some (decide (0 < d)), lowRun := 0, steps := satInc 16 x.steps
        shifts := if bad then [] else sh, resync := x.resync || bad, resyncs := if bad then satInc 8 x.resyncs else x.resyncs }) s
    if bad then raiseFault qAUX (0x400 + a) 0x35 new s else s

/-- Before a MAIN conversion: a committed change of RANGE applies, else the automatic step (R154, R155). -/
def rangeNow (a : Nat) (s : State) : State :=
  let x := axOf s a
  let target := if x.rangeReq then rangeSet s a
    else match x.stepDir with | some true => x.range + 1 | some false => x.range - 1 | none => x.range
  stepTo a target (modAx a (fun x => { x with rangeReq := false, stepDir := none }) s)

/-- The code rescaled from range `r` to range `q` (R146; log 22). -/
def rescale (r q : Nat) (code : Int) : Int :=
  if r ≤ q then satS 16 (code * (4 ^ (q - r) : Nat)) else lsb ((code : Rat) / (4 ^ (r - q) : Nat))

/-! ### Slots (R139 to R142) -/

/-- The service jobs of a slice in ascending order: 2k for CAL of position k, 2k + 1 for LEAD (R142). -/
def serviceJobs (s : State) (e : Nat) : List Nat :=
  ((List.range 16).map (fun k =>
    let a := 16 * e + k
    if auxOn s a && isRtd (auxMode s a) then (if auxMode s a = 3 then [2 * k] else [2 * k, 2 * k + 1]) else [])).flatten

/-- The next job of the round robin. -/
def nextJob (s : State) (e : Nat) : Option Nat :=
  let jobs := serviceJobs s e
  match jobs.find? (fun c => decide ((axsOf s e).next ≤ c)) with
  | some c => some c
  | none => jobs.head?

/-- Slot `slot` of cycle `j` of slice `e` starts: its routing, and the range in force for a MAIN conversion. -/
def auxSlotStart (e j slot : Nat) (s : State) : State :=
  let at_ := (20 * j + slot + 1) * slotUs s e * 2000
  let s := if slot = 0 then modAxs e (fun x => { x with cycle := (j - 1) % 2 ^ 32 }) s else s
  let put (pos : Nat) (job : AxJob) (s : State) : State := modAxs e (fun x => { x with slot := x.slot ++ [(pos, job, j, at_)] }) s
  if slot < 16 then
    if auxOn s (16 * e + slot) then put slot .main (rangeNow (16 * e + slot) s) else put slot .open_ s
  else
    match nextJob s e with
    | some c => put (c / 2) (if c % 2 = 0 then .cal else .lead) (modAxs e (fun x => { x with next := c + 1 }) s)
    | none => put 16 .open_ s

/-- AUX_SLOT. -/
def execAuxSlot (e : Fin 8) (j : Nat) (slot : Fin 20) (s : State) : Host.Outcome State Fault Refusal :=
  .next (if sliceRuns s e.val then auxSlotStart e.val j slot.val s else s)

/-! ### Conversions (R141, R144, R148, R151) -/

/-- An entry arrives at the engine's FIFO (R164). -/
def fifoPush (e : Nat) (en : FifoEnt) (s : State) : State :=
  if !engineRuns s e then s
  else
    let s := ledProduce 1 1 s
    if 16 ≤ (seOf s e).fifo.length then
      raiseFault qSE (0x600 + e) 0x38 (2 ^ 31)
        (modSe e (fun x => { x with overruns := satInc 16 x.overruns, fifo := x.fifo.drop 1 ++ [en] }) (ledDrop 1 1 (0x600 + e) s))
    else modSe e (fun x => { x with fifo := x.fifo ++ [en] }) s

def saturated16 (c : Int) : Bool := decide (32767 ≤ c) || decide (c ≤ -32768)

/-- Overrange and compliance of a MAIN conversion (Table 5-7); a held value is no saturation. -/
def auxFaults (a : Nat) (c : Int) (real : Bool) (aexP : Nat) (s : State) : State :=
  let x := axOf s a
  let cand := saturated16 c && (!autoRange s a || decide (x.range ≤ rangeMin s a))
  let run := if !real then x.satRun else if cand then min 4 (x.satRun + 1) else 0
  let ovl := run == 4
  let crun := if 2300 < aexP then min 4 (x.compRun + 1) else 0
  let comp := crun == 4
  let s := modAx a (fun x => { x with
      satRun := run, ovl, compRun := crun, compliance := comp
      compEvents := if comp && !x.compliance then satInc 8 x.compEvents else x.compEvents }) s
  let s := setCond qAUX (0x400 + a) 0x30 0 ovl (x.range * 65536 + unsig 16 c) s
  setCond qAUX (0x400 + a) 0x31 0 comp (aexP % 65536) s

/-- The automatic decision of conversion j (R144, R158). -/
def autoDecide (a : Nat) (c : Int) (s : State) : State :=
  let x := axOf s a
  let w := auxReg s a 4
  let lo := fld w 0 16
  let hi := fld w 16 16
  let down := let n := fld (auxReg s a 8) 16 16; max (if n = 0 then 1 else n) (chainTaps s a)
  let low := if c.natAbs < lo then x.lowRun + 1 else 0
  let dir := if !autoRange s a then none
    else if (hi ≤ c.natAbs ∨ saturated16 c = true) ∧ rangeMin s a < x.range then some false
    else if down ≤ low ∧ x.range < rangeMax s a then some true else none
  modAx a (fun x => { x with lowRun := low, stepDir := dir }) s

/-- A MAIN conversion of channel `a` completes: sample instant `at_` half ns, cycle `j`. -/
def mainDone (a j at_ : Nat) (code : Int) (aexP : Nat) (xf : Option (Nat × Nat)) (s : State) : State :=
  let x := axOf s a
  let c := if x.held then rescale x.codeRange x.range x.code else code
  let s := auxFaults a c (!x.held) aexP s
  let s := if x.held then modAx a (fun y => { y with lowRun := if c.natAbs < fld (auxReg s a 4) 0 16 then y.lowRun + 1 else 0 }) s
    else autoDecide a c s
  let y := axOf s a
  let sf := y.ovl || y.compliance || sliceMarked s (a / 16)
  let en : FifoEnt := { code := c, held := x.held, sfault := sf, step := x.stepped, resync := x.resync
                        swap := match xf with | some w => w.1 == 1 | none => false
                        xf, range := x.range, pos := a % 16, cycle := j, at_ }
  let s := modAx a (fun y => { y with
      code := c, codeRange := x.range, held := false, stepped := none, resync := false, transient := x.held
      shifts := if sf then [] else (0 :: y.shifts).take (chainTaps s a)
      recent := ((at_, c, x.range, sf) :: y.recent).take 8
      transientAt := if x.held then (at_, c, x.range) :: y.transientAt else y.transientAt }) s
  fifoPush (a / 16) en s

/-- AX_IMEAS and AX_LEAD. -/
def imeas (s : State) (a : Nat) : Nat := satU 32 (lsb (iCal s a * 10000000000))
def leadReg (s : State) (a : Nat) : Nat := satU 32 (lsb (rLead s a * 10000))

/-- The conditions of kinds 0x32 and 0x33, once the means hold 16 results each. -/
def serviceChecks (a : Nat) (s : State) : State :=
  let x := axOf s a
  let tol := let t := fld (inF s (baseAUX + 0x8000)) 0 8; if t = 0 then 5 else t
  let nom := iexcNominal (iexc s a)
  let d := iCal s a - nom
  let bad := decide (16 ≤ x.cal.length) && iexc s a != 0 && decide ((tol : Rat) * nom < 100 * (if d < 0 then -d else d))
  let hi := decide (16 ≤ x.cal.length) && decide (16 ≤ x.lead.length) && decide (((auxReg s a 0x10).toNat : Rat) < rLead s a * 10000)
  let s := modAx a (fun x => { x with calFail := bad, leadHigh := hi }) s
  let s := setCond qAUX (0x400 + a) 0x33 0 bad (imeas s a) s
  let s := setCond qAUX (0x400 + a) 0x32 0 hi (leadReg s a) s
  auxPrepCheck a s

/-- A CAL or LEAD conversion completes. -/
def calDone (a : Nat) (code : Int) (s : State) : State :=
  serviceChecks a (modAx a (fun x => { x with cal := (codeVolts (calIndex (iexc s a)) code :: x.cal).take 16 }) s)
def leadDone (a : Nat) (code : Int) (s : State) : State :=
  serviceChecks a (modAx a (fun x => { x with lead := (codeVolts 3 code :: x.lead).take 16 }) s)

/-- The oldest conversion in progress completes, `code` after the range's factory trims (R143, log 92); an open slot's is discarded, and every position's MAIN sample instant is a
sample boundary of a swap (spec/06 R176). -/
def auxComplete (e : Nat) (code : Int) (aexP : Nat) (s : State) : State :=
  match (axsOf s e).slot with
  | [] => s
  | (pos, job, j, at_) :: rest =>
    let s := modAxs e (fun x => { x with slot := rest }) s
    let a := 16 * e + pos
    match job with
    | .open_ => if pos < 16 then (countBoundary e (16 + pos) at_ s).2 else s
    | .main =>
      let r := countBoundary e (16 + pos) at_ s
      if auxOn s a then mainDone a j at_ code aexP r.1 r.2 else r.2
    | .cal => if auxOn s a then calDone a code s else s
    | .lead => if auxOn s a then leadDone a code s else s

/-- AUX_CONVERSION_COMPLETE. -/
def execAuxConversionComplete (e : Fin 8) (code : Int) (aexP : Nat) (s : State) : Host.Outcome State Fault Refusal :=
  .next (if sliceRuns s e.val then auxComplete e.val code aexP s else s)

/-! ### Unit states (R147, R150, R157) -/

/-- A channel enters PREPARING. -/
def auxPrepare (a : Nat) : State → State := fun s =>
  modAx a (fun x => { keepAx a x with
    range := rangeSet s a, codeRange := rangeSet s a, resync := true, source := isRtd (auxMode s a) && iexc s a != 0 }) s

/-- A channel enters DORMANT or FAULTED: its slots run open and its source stops. -/
def auxStop (a : Nat) (s : State) : State :=
  clearConds (0x400 + a) (modAx a (fun x => { x with source := false, ovl := false, compliance := false, satRun := 0, compRun := 0
                                                     leadHigh := false, calFail := false, stepDir := none, held := false, rangeReq := false }) s)

/-- A channel leaves DORMANT or FAULTED: its means restart empty (R157). -/
def auxLeave (a : Nat) : State → State := modAx a (fun x => { x with cal := [], lead := [] })

/-! ### Committed changes (R154) -/

/-- Value of a register after a snapshot. -/
def snapGet (l : List (Nat × Word)) (s : State) (off : Nat) : Word :=
  match l.find? (fun e => e.1 == off) with | some e => e.2 | none => inF s off

/-- Fields of `mask` keep the value `old`. -/
def keepBits (old new mask : Word) : Word := (new &&& ~~~mask) ||| (old &&& mask)

/-- Fields of a snapshot stay at their values in force and their shadows are reloaded; the kind is raised. -/
def snapKeep (q u kind off : Nat) (mask : Word) (r : List (Nat × Word) × State) : List (Nat × Word) × State :=
  let old := inF r.2 off
  (r.1.map (fun e => if e.1 = off then (off, keepBits old e.2 mask) else e),
   raiseFault q u kind (off % 65536) (setShadow off (keepBits old (shadowOf r.2 off) mask) r.2))

/-- D in ns of an AX_CTRL value (Table 5-9). -/
def dischNs (w : Word) : Nat := let d := fld w 16 6; (if d = 0 then 1 else min d 32) * 250
def slotUsOf (w : Word) : Nat := let n := fld w 0 5; if n = 0 ∨ 16 < n then 16 else n

/-- MODE, IEXC and MAINS of a channel that is not DORMANT, and AR limits out of order, are refused. -/
def auxSnapChan (a : Nat) (r : List (Nat × Word) × State) : List (Nat × Word) × State :=
  let o := baseAUX + 0x40 * a
  let s := r.2
  let m : Word := 0x0300700F
  let r := if stOf s (0x400 + a) != .dormant && (snapGet r.1 s o &&& m) != (inF s o &&& m) then snapKeep qAUX (0x400 + a) 0x34 o m r else r
  let w := snapGet r.1 r.2 (o + 4)
  if w != inF r.2 (o + 4) && (decide (0x2000 < fld w 0 16) || decide (fld w 16 16 ≤ fld w 0 16)) then
    snapKeep qAUX (0x400 + a) 0x34 (o + 4) 0xFFFFFFFF r
  else r

/-- SLOT_US of a slice with a channel that is not DORMANT is refused; where a discharge time would not fit the slot, so are SLOT_US and that
DISCH, whichever the COMMIT changes. -/
def auxSnapSlice (e : Nat) (r : List (Nat × Word) × State) : List (Nat × Word) × State :=
  let o := baseAUX + 0x2000 + 0x40 * e
  let chans := (List.range 16).map (16 * e + ·)
  let chg := snapGet r.1 r.2 o != inF r.2 o
  let busy := chans.filter (fun a => stOf r.2 (0x400 + a) != .dormant)
  let long (r : List (Nat × Word) × State) : List Nat := chans.filter (fun a =>
    decide (slotUsOf (snapGet r.1 r.2 o) * 1000 < dischNs (snapGet r.1 r.2 (baseAUX + 0x40 * a)) + 500))
  let keepDisch (r : List (Nat × Word) × State) (a : Nat) : List (Nat × Word) × State :=
    let c := baseAUX + 0x40 * a
    if snapGet r.1 r.2 c &&& 0x3F0000 != inF r.2 c &&& 0x3F0000 then snapKeep qAUX (0x400 + a) 0x34 c 0x3F0000 r else r
  let both := long r
  let r := if chg then (match busy ++ both with | a :: _ => snapKeep qAUX (0x400 + a) 0x34 o 0x1F r | [] => r) else r
  let r := both.foldl keepDisch r
  (long r).foldl keepDisch r

/-- A snapshot after the rules of R154. -/
def auxSnap (r : List (Nat × Word) × State) : List (Nat × Word) × State :=
  (List.range 8).foldl (fun r e => auxSnapSlice e r) ((List.range 128).foldl (fun r a => auxSnapChan a r) r)

/-- A committed change of AX_CTRL: with AUTO = 0 the index is RANGE, so a change of RANGE, or of AUTO to 0, waits for the next MAIN conversion
(R144, R154). -/
def auxCtrlApplied (a : Nat) (old : Word) (s : State) : State :=
  let w := auxCtrl s a
  if !bitAt w 11 && (fld w 4 4 != fld old 4 4 || bitAt old 11) && running s (0x400 + a) then modAx a (fun x => { x with rangeReq := true }) s else s

/-! ### Values of the auxiliary record (R149; spec/07 R210 to R212, R216) -/

/-- A value in the units of R149 of a quantity `y` with the code in bits [23:8] of a range. -/
def auxValue (s : State) (a range : Nat) (y : Rat) : Int :=
  let m := auxMode s a
  let v := codeVolts range (y / 256)
  let ohm (sub : Rat) : Int :=
    satS 32 (roundAway (if iCal s a = 0 then Config.ohmsNoCal v else (v / iCal s a - sub) * 10000))
  if m = 1 then satS 32 (roundAway (v * 1000000000))
  else if m = 2 then satS 32 (roundAway (codeAmps range (y / 256) * 1000000000000))
  else if m = 3 then ohm (((auxReg s a 0xC).toNat : Rat) / 10000)
  else if m = 4 then ohm (rLead s a) else ohm 0

/-- Lagrange weights at mu = k/256 (Table 7-4), Q2.22. -/
def lagrange (k : Nat) : List Int :=
  let u : Rat := (k : Rat) / 256
  ([-u * (u - 1) * (u - 2) / 6, (u + 1) * (u - 1) * (u - 2) / 2, -(u + 1) * u * (u - 2) / 2, (u + 1) * u * (u - 1) / 6]).map
    (fun w => lsb (w * 4194304))

/-- An output in the range `q`, with 8 further fraction bits (R211). -/
def outScaled (o : AxOut) (q : Nat) : Int :=
  if o.range ≤ q then o.y * 256 * (4 ^ (q - o.range) : Nat) else o.y * 256 / (4 ^ (o.range - q) : Nat)

/-- The place in the outputs, newest first, of the latest output at or before `p`. -/
def outIndex (p : Int) : List AxOut → Nat → Option Nat
  | [], _ => none
  | o :: t, k => if (o.at_ : Int) ≤ p then some k else outIndex p t (k + 1)

/-- The resampled value at `p` half ns: value, range of output k + 2, the lowest of the four output numbers (R210, R211, R216). -/
def resample (outs : List AxOut) (t : Nat) (p : Int) : Option (Int × Nat × Nat) :=
  match outIndex p outs 0 with
  | none => none
  | some j =>
    let phi := (roundAway (256 * (p - (match outs[j]? with | some o => o.at_ | none => 0) : Int) / (t : Rat))).toNat
    let (j, phi) := if 256 ≤ phi then (j - 1, 0) else (j, phi)
    if j < 2 then none
    else
      match outs[j + 1]?, outs[j]?, outs[j - 1]?, outs[j - 2]? with
      | some a, some b, some c, some d =>
        let all := [a, b, c, d]
        if all.all (fun o => o.ok) && b.at_ == a.at_ + t && c.at_ == b.at_ + t && d.at_ == c.at_ + t then
          let sum := ((lagrange phi).zip all).foldl (fun n e => n + e.1 * outScaled e.2 d.range) 0
          some (satS 24 (roundShift sum 30), d.range, min (min a.num b.num) (min c.num d.num))
        else none
      | _, _, _, _ => none

/-- The record of channel `a` for the frame at instant `half` half ns. A detector field whose lane was delivered not valid has no stated
value (log 15). -/
def auxRecord (a : Nat) (half : Int) (s : State) : State :=
  let x := axOf s a
  let newest := x.recent.find? (fun r => decide ((r.1 : Int) ≤ half))
  let held := (x.transientAt.find? (fun h => decide ((h.1 : Int) ≤ half))).map (·.2)
  let coarse := match held, newest with
    | some h, _ => auxValue s a h.2 (h.1 * 256 : Int)
    | none, some r => auxValue s a r.2.2.1 (r.2.1 * 256 : Int)
    | none, none => 0
  let t := tCyc s (a / 16)
  let rs := resample x.outs t (half - 5 * (t / 2 : Nat))
  let eng := seOf s (a / 16)
  -- in a cross-fade a FINE_VALID stays that the old bank's count gave (spec/07 R222)
  let settled (num : Nat) : Bool := decide (auxSettle s (a / 16) (a % 16) ≤ num)
    || ((streamFade eng (16 + a % 16)).isSome && x.record.fineValid
        && decide (auxSettleIn s (a / 16) (a % 16) (!streamBank eng (16 + a % 16)) ≤ num))
  let det := x.dets.find? (fun d => decide ((d.at_ : Int) ≤ half))
  let dv (k : Nat) (f : AxDet → Option Int) : Int :=
    match det with
    | some d => (match f d with | some v => auxValue s a d.range v | none => satS 32 (Config.seOption 20 k 0 0))
    | none => 0
  let rec_ : AxRec := {
    value := match rs with | some r => auxValue s a r.2.1 r.1 | none => -2147483648
    valid := rs.isSome
    coarse
    peak := dv 0 (·.peak), rms := dv 1 (·.rms), envl := dv 2 (·.envl)
    mode := auxMode s a
    range := match rs, newest with | some r, _ => r.2.1 | none, some r => r.2.2.1 | none, none => x.range
    transient := held.isSome
    coarseValid := (match newest with | some r => !r.2.2.2 | none => false) && auxOn s a
    fineValid := match rs with | some r => settled r.2.2 | none => false
    sigFault := x.ovl || x.compliance || sliceMarked s (a / 16) }
  modAx a (fun x => { x with record := rec_, transientAt := x.transientAt.filter (fun h => decide (half < (h.1 : Int))) }) s

/-- D_aux in ns (spec/07 R213). -/
def auxDelay (s : State) (a : Nat) : Nat :=
  let e := a / 16
  let k := a % 16
  let x := seOf s e
  let mains := fld (auxCtrl s a) 24 2
  descWord x (16 + k) (0x140 + 8 * k + 2)
    + (if mains = 1 then descWord x (16 + k) 0x1C2 else if mains = 2 then descWord x (16 + k) 0x1C3 else 0) + tCyc s e * 5 / 4

end Sys2Proof.Machine
end

