-- ==== Sys2Proof/Machine/Fault.lean ====
section
/-! DEFINITION. The commands of the fault collector, the alarm pair and the health monitors (spec/16; spec/17 R572, R573). -/
namespace Sys2Proof.Machine

/-! ### Collector -/

/-- FAULT_ACCEPT: one acceptance cycle over the named queues (R531 to R549). -/
def execFaultAccept (queues : List (Fin 28)) (t : Nat) (s : State) : Host.Outcome State Fault Refusal :=
  .next (if hubUp s then acceptCycle queues t (setNow t s) else s)

/-- A counting window closes at its boundary (R534). -/
def closeWindow (u : Nat) (s : State) : State :=
  match (fsOf s u).window with
  | none => s
  | some _ => if windowOpen s u then s else modFs u (fun f => { f with window := none, count := 0, promoted := false }) s

/-- COUNT_WINDOW_CLOSE. -/
def execCountWindowClose (u : BitVec 12) (s : State) : Host.Outcome State Fault Refusal := .next (closeWindow u.toNat s)

/-- A write of 1 to LATCHED (R538). -/
def clearLatched (u : Nat) (s : State) : State :=
  if fsActive s u then s else alarmLeave (modFs u (fun f => { f with latched := false, maxClass := 0, alarmHeld := false }) s)

/-- LATCHED_CLEAR. -/
def execLatchedClear (u : BitVec 12) (s : State) : Host.Outcome State Fault Refusal := .next (clearLatched u.toNat s)

/-- A write of 1 to FF_STATUS.VALID (R541). -/
def clearFirstFault (s : State) : State := { s with flt := { s.flt with ffValid := false, ffSimult := 0 } }

/-- FIRST_FAULT_CLEAR. -/
def execFirstFaultClear (s : State) : Host.Outcome State Fault Refusal := .next (clearFirstFault s)

/-- A write of 1 to HB_LOST clears it while heartbeats arrive: one came within the last 1 ms (R547). -/
def clearHbLost (s : State) : State :=
  if decide (s.time.now < s.flt.hbLast + 1000000) then alarmLeave { s with flt := { s.flt with hbLost := false } } else s

/-- HB_LOST_CLEAR. -/
def execHbLostClear (s : State) : Host.Outcome State Fault Refusal := .next (clearHbLost s)

/-- An acknowledgement of a running escalation timer, for the first boundary whose cut-off has not passed (R543); the first of several stands. -/
def ackEscalation (u : Nat) (v : Word) (s : State) : State :=
  if bitAt v 0 && isBeamId u && (unitOf s u).esc.running then
    modUnit u (fun x => { x with esc := { x.esc with ackAt := some (x.esc.ackAt.getD s.time.openFrame) } }) s
  else s

/-- ESC_ACK. -/
def execEscAck (u : BitVec 12) (v : Word) (s : State) : Host.Outcome State Fault Refusal := .next (ackEscalation u.toNat v s)

/-- An expired timer raises kind 0x1F, naming the parent (R544). -/
def expireEscalation (u : Nat) (s : State) : State :=
  let x := unitOf s u
  if x.esc.running && x.esc.left == 0 then
    raiseFault qFLT (parentOf s u) 0x1F u
      (modUnit u (fun x => { x with esc := { x.esc with running := false, expired := true, count := satInc 32 x.esc.count } }) s)
  else s

/-- BEAM_ESCALATION. -/
def execBeamEscalation (u : BitVec 12) (s : State) : Host.Outcome State Fault Refusal := .next (expireEscalation u.toNat s)

/-! ### Alarm pair and heartbeat -/

/-- The healthy pattern resumes at a half-period edge at `t`, after the conditions' end and the 2 ms minimum (R545). -/
def alarmExit (t : Nat) (s : State) : State :=
  if s.flt.alarm && !alarmDue s && decide (s.flt.alarmFree < t) && decide (s.flt.alarmHold ≤ t) then
    emit (.alarm (!s.flt.alarmLevel) s.flt.alarmLevel)
      { s with flt := { s.flt with alarm := false, alarmLevel := !s.flt.alarmLevel } }
  else s

/-- ALARM_EXIT. -/
def execAlarmExit (t : Nat) (s : State) : Host.Outcome State Fault Refusal := .next (alarmExit t (setNow t s))

/-- A half-period edge: the healthy pair toggles; in the alarm state the edge may end it (R545, R572). -/
def alarmToggle (t : Nat) (s : State) : State :=
  if s.flt.alarm then alarmExit t s
  else emit (.alarm (!s.flt.alarmLevel) s.flt.alarmLevel) { s with flt := { s.flt with alarmLevel := !s.flt.alarmLevel } }

/-- ALARM_HALF_PERIOD. -/
def execAlarmHalfPeriod (t : Nat) (s : State) : Host.Outcome State Fault Refusal := .next (alarmToggle t (setNow t s))

/-- A heartbeat reaches the fawn domain; after a loss it raises kind 0xBC with the loss's duration in us (R547). -/
def heartbeat (t : Nat) (s : State) : State :=
  if deviceUp s && s.clk.coreLock then
    let gap := t - s.flt.hbLast
    let s' : State := { s with flt := { s.flt with hbLast := t } }
    if s.flt.hbLost && decide (1000000 ≤ gap) then raiseFault qFLT 0x613 0xBC (min (gap / 1000) (2 ^ 32 - 1)) s' else s'
  else s

/-- HEARTBEAT. -/
def execHeartbeat (t : Nat) (s : State) : Host.Outcome State Fault Refusal := .next (heartbeat t (setNow t s))

/-- 1 ms has passed without a heartbeat (R547). -/
def heartbeatLost (t : Nat) (s : State) : State :=
  if decide (s.flt.hbLast + 1000000 ≤ t) && !s.flt.hbLost then
    alarmEnter { s with flt := { s.flt with hbLost := true, hbLostAt := t } }
  else s

/-- HEARTBEAT_LOST. -/
def execHeartbeatLost (t : Nat) (s : State) : Host.Outcome State Fault Refusal := .next (heartbeatLost t (setNow t s))

/-! ### Monitors -/

/-- The unit that the faults of sensor `k` name (Table 16-8). -/
def tempUnit (k : Nat) : Nat := if k < 8 then 0x620 + k else 0x614

/-- A conversion of sensor `k` (R550); readings in 2^-4 deg C. -/
def tempConvert (k : Nat) (reading : Int) (failed : Bool) (s : State) : State :=
  let lim := inF s (baseMON + 0x80 + 4 * k)
  let high := sfld lim 16 16
  let warn := sfld lim 0 16
  let low := sfld (inF s (baseMON + 0xE0)) 0 16
  let u := tempUnit k
  let x := tempOf s k
  let bad := failed || decide (reading < -880) || decide (2400 < reading)
  let det := k * 2 ^ 16 + unsig 16 reading
  let s := setCond qMON u 0xBB k bad (k * 2 ^ 16) s
  if failed then modTemp k (fun x => { x with bad := true, seen := true }) s
  else
    let w := if warn < reading then true else if reading ≤ warn - 32 then false else x.warn
    let h := if high < reading then true else if reading ≤ high - 32 then false else x.high
    let l := if reading < low then true else if low + 32 ≤ reading then false else x.low
    let hot := if 1920 < reading then x.hot + 1 else 0
    let s := modTemp k (fun _ => { reading, bad, high := h, warn := w, low := l, hot, seen := true }) s
    let s := setCond qMON u 0xB0 k w det s
    let s := setCond qMON u 0xB1 k h det s
    setCond qMON u 0xB3 k l det s

/-- The thermal trip: the fixed L1 reset, its reading kept by the fawn domain, kind 0xB2 held back until P7 (R551). -/
def thermalTrip (k : Nat) (reading : Int) (s : State) : State :=
  if 2 ≤ (tempOf s k).hot then
    let det := k * 2 ^ 16 + unsig 16 reading
    assertSources [{ code := 0x03, target := 0 }] det
      { s with flt := { s.flt with heldBack := s.flt.heldBack ++ [(0x614, 0xB2, det)] } }
  else s

/-- TEMP_CONVERSION. -/
def execTempConversion (k : Fin 24) (reading : Int) (failed : Bool) (s : State) : Host.Outcome State Fault Refusal :=
  .next (if hubUp s then (let s' := tempConvert k.val reading failed s; if failed then s' else thermalTrip k.val reading s') else s)

/-- RAIL_NOM (spec/17 Table 17-1), mV. -/
def railNom (r : Nat) : Nat :=
  if r < 24 then [1800, 750, 3300].getD (r % 3) 0 else [750, 800, 1800, 900, 1200, 1800, 3300, 3300].getD (r - 24) 0

/-- The switches of slice `k` are closed: it is on, or a wake or P5 switches it on (spec/17 R582; spec/18 Table 18-5). -/
def switchClosed (s : State) (k : Nat) : Bool := s.clk.sliceOn.getLsbD k || s.clk.waking || (s.rst.phase == 5 && !s.rst.wait)

/-- The conditions of a rail are masked (spec/17 R569). -/
def railMasked (s : State) (r : Nat) : Bool :=
  if r < 24 then !switchClosed s (r / 3) || decide (s.time.now < (railOf s r).maskUntil)
  else if r < 31 then !s.clk.pwrReq || decide (s.time.now < (railOf s r).maskUntil) else false

/-- The unit that a rail's faults name (R552). -/
def railUnit (r : Nat) : Nat := if r < 24 then 0x620 + r / 3 else 0x614

/-- A sample of rail `r` (R552); a masked rail holds no condition (spec/17 R569). -/
def railSample (r mv : Nat) (s : State) : State :=
  if railMasked s r then
    setCond qMON (railUnit r) 0xB5 r false 0 (setCond qMON (railUnit r) 0xB4 r false 0
      (modRail r (fun x => { x with mv, uv := false, ov := false, uvRun := 0, ovRun := 0 }) s))
  else
    let win := inF s (baseMON + 0x180 + 4 * r)
    let nom := railNom r
    let under := decide (nom * fld win 0 8 < (nom - mv) * 1000)
    let ovl := decide (nom * fld win 8 8 < (mv - nom) * 1000)
    let u := railUnit r
    let x := railOf s r
    let ur := if under then min 3 (x.uvRun + 1) else 0
    let vr := if ovl then min 3 (x.ovRun + 1) else 0
    let uv := under && (x.uv || ur == 3)
    let ov := ovl && (x.ov || vr == 3)
    let s := modRail r (fun x => { x with mv, uv, ov, uvRun := ur, ovRun := vr }) s
    let det := r * 2 ^ 16 + mv % 65536
    setCond qMON u 0xB5 r ov det (setCond qMON u 0xB4 r uv det s)

/-- RAIL_SAMPLE. -/
def execRailSample (r : Fin 32) (mv : Nat) (s : State) : Host.Outcome State Fault Refusal :=
  .next (if hubUp s then railSample r.val mv s else s)

/-- A ring oscillator's measurement (R553): deviation in 0.01 %. -/
def roMeasure (k freq : Nat) (dev : Int) (s : State) : State :=
  let s := { s with mon := { s.mon with ro := Tbl.set (constD {}) s.mon.ro k { freq, dev } } }
  if decide ((fld (inF s (baseMON + 0x2C0)) 0 8 * 100 : Nat) < dev.natAbs) then
    raiseFault qMON 0x614 0xB6 (k * 2 ^ 16 + unsig 16 dev) s
  else s

/-- RO_MEASURE. -/
def execRoMeasure (k : Fin 16) (freq : Nat) (dev : Int) (s : State) : Host.Outcome State Fault Refusal :=
  .next (if hubUp s then roMeasure k.val freq dev s else s)

/-- An aging monitor's report (R554): each condition clears 5 ps above its limit. -/
def agingMeasure (k margin : Nat) (s : State) : State :=
  let lim := inF s (baseMON + 0x320)
  let x := Tbl.get (constD {}) s.mon.age k
  let w := if margin < fld lim 0 16 then true else if fld lim 0 16 + 5 ≤ margin then false else x.warn
  let c := if margin < fld lim 16 16 then true else if fld lim 16 16 + 5 ≤ margin then false else x.crit
  let s := { s with mon := { s.mon with age := Tbl.set (constD {}) s.mon.age k { x with nowPs := margin, warn := w, crit := c } } }
  let det := k * 2 ^ 16 + margin % 65536
  setCond qMON 0x614 0xB8 k c det (setCond qMON 0x614 0xB7 k w det s)

/-- AGING_MEASURE. -/
def execAgingMeasure (k : Fin 8) (margin : Nat) (s : State) : Host.Outcome State Fault Refusal :=
  .next (if hubUp s then agingMeasure k.val margin s else s)

/-! ### Life odometer (R555) -/

/-- The hottest valid sensor and its reading; none where no sensor has converted validly. -/
def tempMax (s : State) : Option (Nat × Int) :=
  (List.range 24).foldl (fun m k =>
    let x := tempOf s k
    if x.seen && !x.bad then
      match m with
      | none => some (k, x.reading)
      | some y => if y.2 < x.reading then some (k, x.reading) else some y
    else m) none

/-- LIFE_EQ: whole seconds, saturating. -/
def lifeEqReg (m : MonSt) : Nat := satU 32 m.lifeEq.floor
/-- LIFE_USED. -/
def lifeUsed (m : MonSt) : Nat := 1000 * lifeEqReg m / 788400000

/-- The acceleration factor at a reading. -/
def lifeFactor (reading : Int) : Rat :=
  expQ ((81235 : Rat) / 10 * (100 / 37815 - 1 / ((reading : Rat) / 16 + 27315 / 100)))

/-- One second of the hub being powered. -/
def odometerTick (s : State) : State :=
  let before := lifeUsed s.mon
  let m := s.mon
  let m := { m with lifeOn := m.lifeOn + 1 }
  let m := match tempMax s with
    | none => m
    | some (_, r) =>
      { m with lifeEq := m.lifeEq + lifeFactor r, lifeHot := if 1760 < r then m.lifeHot + 1 else m.lifeHot, lifePeak := max m.lifePeak r }
  let s : State := { s with mon := m }
  let after := lifeUsed m
  let s := if before < 800 ∧ 800 ≤ after then raiseFault qMON 0x614 0xB9 after s else s
  let s := if before < 1000 ∧ 1000 ≤ after then raiseFault qMON 0x614 0xBA after s else s
  if m.lifeSaved + 3600 ≤ m.lifeOn then odometerSave s else s

/-- ODOMETER_TICK: while the hub is powered. -/
def execOdometerTick (s : State) : Host.Outcome State Fault Refusal := .next (if s.clk.pwrReq then odometerTick s else s)

end Sys2Proof.Machine
end

