-- ==== Sys2Proof/Machine/Clock.lean ====
section
/-! DEFINITION. Power, clocks and activity levels (spec/17): PLLs and the reference clock, the fawn crystal and RC oscillator,
level requests, wake and sleep. -/
namespace Sys2Proof.Machine

/-! ### PLLs (R574 to R578, R607). Codes of kind 0x07. -/

def pllLocked (s : State) (p : Nat) : Bool :=
  if p = 1 then s.clk.coreLock else if p = 2 then s.clk.modLock else if p = 3 then s.clk.ioLock
  else if 4 ≤ p ∧ p ≤ 11 then s.clk.sliceLock.getLsbD (p - 4)
  else if p = 12 then s.clk.bbLock else if p = 13 then s.clk.twLock else if p = 14 then s.clk.pcieLock else false

def bit8 (k : Nat) : BitVec 8 := BitVec.ofNat 8 (2 ^ k)
def bit14 (k : Nat) : BitVec 14 := BitVec.ofNat 14 (2 ^ k)

def setLock (p : Nat) (b : Bool) (c : ClkSt) : ClkSt :=
  if p = 1 then { c with coreLock := b } else if p = 2 then { c with modLock := b } else if p = 3 then { c with ioLock := b }
  else if 4 ≤ p ∧ p ≤ 11 then
    { c with sliceLock := if b then c.sliceLock ||| bit8 (p - 4) else c.sliceLock &&& ~~~bit8 (p - 4) }
  else if p = 12 then { c with bbLock := b } else if p = 13 then { c with twLock := b } else if p = 14 then { c with pcieLock := b } else c

/-- PLLs whose loss marks samples in signal fault: core, modulator, I/O and the slices' (R577). -/
def marksSamples (p : Nat) : Bool := decide (1 ≤ p ∧ p ≤ 11)

/-- A PLL loses lock (R577). -/
def pllLost (p : Nat) (s : State) : State :=
  if pllLocked s p then
    let s := { s with clk := { setLock p false s.clk with
                 modAligned := if p = 2 then false else s.clk.modAligned
                 lost := if marksSamples p then s.clk.lost ||| bit14 (p - 1) else s.clk.lost } }
    if hubUp s then raiseFault qCLK 0x612 0x07 p s else s
  else s

/-- PLL_LOCK_LOST. -/
def execPllLockLost (pll : Fin 15) (s : State) : Host.Outcome State Fault Refusal := .next (pllLost pll.val s)

/-- A grid phase error in ps: MOD_ERR, MOD_ALIGNED and kind 0x08 (R576). -/
def setModErr (e : Int) (s : State) : State :=
  let al := s.clk.modLock && decide (e.natAbs ≤ 2000)
  let big := decide (10000 < e.natAbs)
  let raise := big && !s.clk.modErrRaised && s.clk.modLock
  let s := { s with clk := { s.clk with
      modErr := e
      modAligned := al
      modErrRaised := if al then false else s.clk.modErrRaised || big
      lost := if al then s.clk.lost &&& ~~~bit14 1 else s.clk.lost } }
  if raise && hubUp s then raiseFault qCLK 0x612 0x08 (unsig 32 (satS 32 e)) s else s

/-- The grid realigns by slewing at up to 100 ppm over one frame (R576): in ps, a tenth of Tf in ns. -/
def slewGrid (s : State) : State :=
  if s.clk.modErr = 0 then s
  else
    let d : Int := (tf s / 10 : Nat)
    setModErr (if 0 < s.clk.modErr then max 0 (s.clk.modErr - d) else min 0 (s.clk.modErr + d)) s

/-- A PLL reports lock; its samples are no longer marked (the modulator's once aligned) and deferred releases take place (R577, R607). A
modulator that locks unaligned has a free grid error above 2 ns (log 1). A slice PLL starts once the slice's rails are good (R582), so its lock
sets SLICE_ON. -/
def pllLock (p : Nat) (aligned : Bool) (s : State) : State :=
  let s := { s with clk := setLock p true s.clk }
  let s := if 4 ≤ p ∧ p ≤ 11 ∧ switchClosed s (p - 4) = true then { s with clk := { s.clk with sliceOn := s.clk.sliceOn ||| bit8 (p - 4) } } else s
  let s :=
    if p = 2 then
      if aligned then setModErr 0 s
      else (let (x, s) := drawNat s; setModErr (2001 + x % 1560499 : Nat) s)
    else if marksSamples p then { s with clk := { s.clk with lost := s.clk.lost &&& ~~~bit14 (p - 1) } } else s
  let due := s.rst.pendingClock.getLsbD (p - 1) && (p != 2 || s.clk.modAligned)
  if due then
    let s := { s with rst := { s.rst with pendingClock := s.rst.pendingClock &&& ~~~bit14 (p - 1) } }
    if 4 ≤ p ∧ p ≤ 11 then startSlice (p - 4) s else s
  else s

/-- PLL_LOCK. -/
def execPllLock (pll : Fin 15) (modAligned : Bool) (s : State) : Host.Outcome State Fault Refusal :=
  .next (if 1 ≤ pll.val then pllLock pll.val modAligned s else s)

/-- Loss of REFCLK: holdover and kind 0x09 (R578). -/
def refLost (s : State) : State :=
  let s := { s with clk := { s.clk with refOk := false, refHold := true } }
  if hubUp s then raiseFault qCLK 0x612 0x09 0 s else s

/-- REFCLK_LOST. -/
def execRefclkLost (s : State) : Host.Outcome State Fault Refusal := .next (refLost s)

/-- REFCLK returns; within the holdover the message carries the returned bit (R578, Table 17-7; log 19). -/
def refReturn (s : State) : State :=
  let held := s.clk.refHold
  let s := { s with clk := { s.clk with refOk := true, refHold := false } }
  if held && hubUp s then raiseFault qCLK 0x612 0x09 1 s else s

/-- REFCLK_RETURN. -/
def execRefclkReturn (s : State) : Host.Outcome State Fault Refusal := .next (refReturn s)

/-- REFCLK absent for 1 ms: every PLL fed by it unlocks (R578). -/
def holdoverExpiry (s : State) : State :=
  if s.clk.refHold then
    doFor ((List.range 13).map (· + 1)) pllLost { s with clk := { s.clk with refHold := false } }
  else s

/-- REFCLK_HOLDOVER_EXPIRY. -/
def execRefclkHoldoverExpiry (s : State) : Host.Outcome State Fault Refusal := .next (holdoverExpiry s)

/-! ### The fawn time base (R572, R573) -/

/-- The RC oscillator is trimmed against FAWN_XTAL; the trim word is the trim's result. -/
def rcTrim (w : BitVec 16) (s : State) : State :=
  if s.clk.xtalFail then s else { s with clk := { s.clk with rcTrim := w.toNat, rcTrimmed := true } }

/-- RC_TRIM. -/
def execRcTrim (word : BitVec 16) (s : State) : Host.Outcome State Fault Refusal := .next (rcTrim word s)

/-- FAWN_XTAL fails: kind 0x0B from the hub, or held back until P7 (R573). -/
def xtalFail (s : State) : State :=
  if s.clk.xtalFail then s
  else
    let s := { s with clk := { s.clk with xtalFail := true } }
    if deviceUp s then raiseFault qCLK 0x612 0x0B s.clk.rcTrim s
    else { s with flt := { s.flt with heldBack := s.flt.heldBack ++ [(0x612, 0x0B, s.clk.rcTrim)] } }

/-- XTAL_FAIL. -/
def execXtalFail (s : State) : Host.Outcome State Fault Refusal := .next (xtalFail s)

/-- XTAL_RECOVER: 256 good cycles clear XTAL_FAIL. -/
def execXtalRecover (s : State) : Host.Outcome State Fault Refusal := .next { s with clk := { s.clk with xtalFail := false } }

/-! ### Activity levels (R579 to R583, R591 to R594) -/

/-- A refused request: RESULT and kind 0x0A with the result code (R581). -/
def actRefuse (code : Nat) (s : State) : State :=
  raiseFault qCLK 0x612 0x0A code { s with clk := { s.clk with result := code } }

/-- A level request: accepted for its target frame, or refused at once as busy, too far or no level (R581, Table 17-4). -/
def actRequest (level : Nat) (next : Bool) (s : State) : State :=
  let want := if next then s.time.openFrame else rw64 s (baseCLK + 8)
  let target := max want s.time.openFrame
  if s.clk.pend.isSome then actRefuse 4 s
  else if level = 3 ∨ (level = 0 ∧ s.clk.level = 2) then actRefuse 7 s
  else if farLimit s < want then actRefuse 8 s
  else
    let wakes := decide (level = 2 ∧ s.clk.level = 1)
    let s := if wakes then maskRails 0 24 (s.time.now + 200000) s else s
    { s with clk := { s.clk with
        pend := some { level, target, late := decide (want < s.time.openFrame) }
        seq := (s.clk.seq + 1) % 65536
        result := 1
        pendingLevel := level
        actFrame := target
        waking := wakes
        slicesReady := none } }

/-- ACT_REQ_RUNNING. -/
def execActReqRunning (next : Bool) (s : State) : Host.Outcome State Fault Refusal :=
  .next (if deviceUp s then actRequest 2 next s else s)
/-- ACT_REQ_DOZING. -/
def execActReqDozing (next : Bool) (s : State) : Host.Outcome State Fault Refusal :=
  .next (if deviceUp s then actRequest 1 next s else s)
/-- ACT_REQ_ASLEEP. -/
def execActReqAsleep (next : Bool) (s : State) : Host.Outcome State Fault Refusal :=
  .next (if deviceUp s then actRequest 0 next s else s)

/-- The request ends with a result. -/
def actEnd (result : Nat) (s : State) : State :=
  { s with clk := { s.clk with pend := none, result, waking := false, slicesReady := none } }

/-- A level request at boundary `n`, evaluated on the states before step 1 (R579, R581). DOZING, which opens the slice switches, keeps the
resolver channels' runs, conditions and samples as they were (DESIGN CHOICE, log 105). -/
def actBoundary (n : Nat) (s : State) : State :=
  match s.clk.pend with
  | none => s
  | some r =>
    if n < r.target ∨ s.clk.toSleep then s
    else
      let done := if r.late ∨ r.target < n then 3 else 2
      if r.level = s.clk.level then actEnd 2 s
      else if r.level = 1 then
        if (ownTines s).any (fun u => (unitOf s u).recSt != .dormant) then
          raiseFault qCLK 0x612 0x0A 5 (actEnd 5 s)
        else if s.twn.mode ≠ 0 ∧ s.twn.mode ≠ 4 then raiseFault qCLK 0x612 0x0A 6 (actEnd 6 s)
        else
          let s := actEnd done s
          { s with clk := { s.clk with level := 1, sliceOn := 0, sliceLock := 0, actFrame := n } }
      else if r.level = 2 then
        match s.clk.slicesReady with
        | some f =>
          if f ≤ n then
            let s := actEnd done s
            { s with clk := { s.clk with level := 2, actFrame := n } }
          else s
        | none => s
      else
        odometerSave { s with clk := { s.clk with toSleep := true, result := 1 } }

/-- The slices are ready (R582). -/
def wakeReady (s : State) : State :=
  if s.clk.waking then
    { s with clk := { s.clk with waking := false, slicesReady := some s.time.openFrame, sliceOn := 0xFF, sliceLock := 0xFF, lost := s.clk.lost &&& 7 } }
  else s

/-- WAKE_READY. -/
def execWakeReady (s : State) : Host.Outcome State Fault Refusal := .next (wakeReady s)

/-- WAKE_TIMEOUT: not ready within 5 ms (R582). -/
def wakeTimeout (s : State) : State :=
  if s.clk.waking then raiseFault qCLK 0x612 0x0A 9 (actEnd 9 s) else s

/-- WAKE_TIMEOUT. -/
def execWakeTimeout (s : State) : Host.Outcome State Fault Refusal := .next (wakeTimeout s)

/-- PWR_REQ falls: ASLEEP begins and the device is held at L1 by source 0x05 (R579, R581, Table 18-2). -/
def pwrReqFall (s : State) : State :=
  if s.clk.toSleep then
    let s := assertSources [{ code := 0x05, target := 0 }] 0 { s with clk := { s.clk with pend := none, toSleep := false } }
    emit (.pwrReq false) { s with clk := { s.clk with level := 0, pwrReq := false } }
  else s

/-- PWR_REQ_FALL. -/
def execPwrReqFall (s : State) : Host.Outcome State Fault Refusal := .next (pwrReqFall s)

/-- The wake source is enabled (Table 17-11, Table 17-8). -/
def wakeEnabled (w : WakeSrc) (s : State) : Bool :=
  let c := rwOf s (baseCLK + 0x40)
  match w with
  | .wakeN => bitAt c 0
  | .switch k => bitAt c 1 && (if k.val < 32 then bitAt (rwOf s (baseCLK + 0x44)) k.val else bitAt (rwOf s (baseCLK + 0x48)) (k.val - 32))
  | .timer => fld c 8 24 != 0

def wakeCode : WakeSrc → Nat
  | .wakeN => 1 | .switch _ => 2 | .timer => 4

/-- A wake source: raises PWR_REQ and is recorded; between a DOZING to ASLEEP request and PWR_REQ's fall the device stays in DOZING
(R583, R593). -/
def wakeSource (w : WakeSrc) (s : State) : State :=
  if wakeEnabled w s then
    if s.clk.toSleep then
      let s := actEnd 0xA s
      { s with clk := { s.clk with toSleep := false } }
    else if s.clk.level = 0 ∧ !s.clk.pwrReq then
      let s := { s with
        clk := { s.clk with
          pwrReq := true, level := 2, wakeCause := wakeCode w
          wakeSwitch := match w with | .switch k => k.val | _ => s.clk.wakeSwitch } }
      emit (.pwrReq true) (maskRails 24 7 (s.time.now + 5000000) s)
    else s
  else s

/-- WAKE_SOURCE. -/
def execWakeSource (w : WakeSrc) (s : State) : Host.Outcome State Fault Refusal := .next (wakeSource w s)

end Sys2Proof.Machine
end

