-- ==== Sys2Proof/Machine/Msg.lean ====
section
/-! DEFINITION. The bytes of a command message: the header of Table 13-2, the target frame and the records of Table 13-3, as the device reads
them (spec/13 R430). -/
namespace Sys2Proof

/-- The number of `n` bytes of the message from offset `k` on. -/
def CmdMessage.at_ (m : CmdMessage) (k n : Nat) : Nat := Machine.leNat ((m.bytes.drop k).take n)

/-- TYPE. -/
def CmdMessage.type (m : CmdMessage) : Nat := m.at_ 0 1
/-- STRICT. -/
def CmdMessage.strict (m : CmdMessage) : Bool := (m.at_ 1 1).testBit 0
/-- Record count as the header gives it. -/
def CmdMessage.count (m : CmdMessage) : Nat := m.at_ 2 2
def CmdMessage.stream (m : CmdMessage) : Nat := m.at_ 4 2
/-- KEY_EPOCH bits [15:0]. -/
def CmdMessage.keyEpoch (m : CmdMessage) : Nat := m.at_ 6 2
def CmdMessage.seq (m : CmdMessage) : Nat := m.at_ 8 4
/-- The target frame. -/
def CmdMessage.frame (m : CmdMessage) : Nat := m.at_ 16 8

/-- The record at offset `k`. -/
def CmdMessage.recordAt (m : CmdMessage) (k : Nat) : CmdRecord :=
  { op := m.at_ k 1, unit := m.at_ (k + 2) 2, arg := m.at_ (k + 4) 4, value := Machine.wordN (m.at_ (k + 8) 4) }

/-- The whole records that the message carries. -/
def CmdMessage.records (m : CmdMessage) : List CmdRecord :=
  (List.range ((m.bytes.length - 24) / 16)).map (fun k => m.recordAt (24 + 16 * k))

end Sys2Proof
end

