-- ==== Sys2Proof/Machine/Trk.lean ====
section
/-! DEFINITION. The angle tracking array (spec/08): signature correction, observer, gating and coast, bounds, learning, map operations
and the trackers' part of the channel record. -/
namespace Sys2Proof.Machine

def tkReg (s : State) (c o : Nat) : Word := inF s (baseTRK + 0x40 * c + o)
/-- P = POLES + 1. -/
def polePairs (s : State) (c : Nat) : Nat := fld (tkReg s c 0) 24 4 + 1
def coastLim (s : State) (c : Nat) : Nat := let n := fld (tkReg s c 0) 16 8; if n = 0 then 1 else min n 64
def coastExit (s : State) (c : Nat) : Nat := max 1 (fld (tkReg s c 0) 8 8)
def kSigma (s : State) (c : Nat) : Nat := max 3 (min 8 (fld (tkReg s c 0) 4 4))
def sigId (s : State) (c : Nat) : Nat := (tkReg s c 0x18).toNat

/-- fc in Hz and T = 1/(2 fc) in s of a channel (R238). -/
def carrier (s : State) (c : Nat) : Rat := 640000 / (groupM s (c / 8) : Rat)
def sampleT (s : State) (c : Nat) : Rat := (groupM s (c / 8) : Rat) / 1280000

/-- B in force (R238). -/
def bandwidth (s : State) (c : Nat) : Rat := max 20 (min (fld (tkReg s c 4) 0 13 : Rat) (min 5000 (carrier s c / 2)))

/-- p = exp(-2 pi B T) and T in force, and those in use, of the last processed sample (R238, R267). -/
def gainsPT (s : State) (c : Nat) : Rat × Rat := (expQ (-(2 * piQ * bandwidth s c * sampleT s c)), sampleT s c)
def usedPT (s : State) (c : Nat) : Rat × Rat := (tkOf s c).gainPT.getD (gainsPT s c)

/-- The gains of p (R238): k1, k2, k3, d. -/
def gainsOf (p : Rat) : Rat × Rat × Rat × Rat :=
  let d := 1 - p
  (1 - p * p * p, 3 / 2 * d * d * (1 + p), d * d * d, d)
/-- Gains in force and in use of a tracker. -/
def gains (s : State) (c : Nat) : Rat × Rat × Rat × Rat := gainsOf (gainsPT s c).1
def usedGains (s : State) (c : Nat) : Rat × Rat × Rat × Rat := gainsOf (usedPT s c).1

/-! ### Signature correction (R235) -/

def q30 (x : Int) : Rat := (x : Rat) / 1073741824
def rev32 (x : Int) : Rat := (x : Rat) / 4294967296

/-- s2 and c2. -/
def correctedQ (m : SigMap) (sn cn : Rat) : Rat × Rat :=
  let s2 := sn - m.ofsS
  (s2, ((cn - m.ofsC) * q30 m.gainC + s2 * q30 m.qs) * q30 m.qc)
def corrected (m : SigMap) (sn cn : Int) : Rat × Rat := correctedQ m sn cn

/-- The harmonic correction at thr, from harmonic `h` on. -/
def harmSum (thr : Rat) : Nat → List (Int × Int) → Rat
  | _, [] => 0
  | h, e :: t => rev32 e.1 * cosRev (h * thr) + rev32 e.2 * sinRev (h * thr) + harmSum thr (h + 1) t

/-- theta_r, the uncorrected angle. -/
def thetaR (m : SigMap) (sn cn : Int) : Rat := let x := corrected m sn cn; cordicRev x.1 x.2

/-- theta_m, 2^-32 rev in [0, 1). -/
def thetaM (m : SigMap) (sn cn : Int) : Nat :=
  let thr := thetaR m sn cn
  unsig 32 (lsb ((thr - harmSum thr 1 m.harm) * 4294967296))

/-- A in sample codes. -/
def ampl (m : SigMap) (sn cn : Int) : Rat := let x := corrected m sn cn; sqrtQ (x.1 * x.1 + x.2 * x.2)

/-- A in the amplitude format (R236). -/
def ampCode (s : State) (c : Nat) (a : Rat) : Nat :=
  let nom := fld (inF s (baseRIN + 0x40 * c + 0xC)) 0 24
  if nom = 0 then 0xFFFF else min 0xFFFF (a * 32768 / nom).floor.toNat

def ampOk (s : State) (c : Nat) (code : Nat) : Bool :=
  let w := tkReg s c 0xC
  decide (fld w 0 16 ≤ code) && decide (code ≤ fld w 16 16)

/-- An angle difference in 2^-32 rev wrapped into [-1/2, 1/2). -/
def wrap32 (x : Int) : Int := (x + 2147483648) % 4294967296 - 2147483648

/-- The newest valid sample enters the coarse path and the quadrature sums (R236). -/
def coarseSample (c : Nat) (d : Demod) (thm : Nat) (a : Rat) (s : State) : State :=
  modTk c (fun t =>
    let x := corrected t.map d.s d.c
    let dth := match t.coarse with | p :: _ => wrap32 ((thm : Int) - p.2.1) | [] => 0
    let sc := t.quadSC + x.1 * x.2
    let ss := t.quadSS + x.1 * x.1 + x.2 * x.2
    let tr := t.quadTravel + dth
    let full := decide (4294967296 ≤ tr.natAbs)
    let quad := if full && ss != 0 then satS 16 (lsb (2 * sc / ss * 32768)) else t.quad
    { t with
      coarse := ((3125 * d.i, thm, a, d.mark, quad) :: t.coarse).take 8
      lastSC := some (d.s, d.c)
      quad
      quadSC := if full then 0 else sc
      quadSS := if full then 0 else ss
      quadTravel := if full then Int.tmod tr 4294967296 else tr }) s

/-! ### Bounds (R247) -/

/-- F_c and F_u in 2^-32 electrical rev, by carrier (Table 8-4). -/
def sigTerms (m : Nat) : Rat × Rat :=
  let as : Rat := 4294967296 / 1296000
  if 64 ≤ m then (6 * as, 40 * as) else if 32 ≤ m then (8 * as, 40 * as) else (12 * as, 45 * as)

/-- f_A. -/
def fAmp (a : Rat) : Rat := if a ≤ 0 then 4294967296 else max 1 (4194304 / a)

/-- E_sig in 2^-32 electrical rev, rounded upward. -/
def eSig (s : State) (c : Nat) (a : Rat) : Nat :=
  let t := tkOf s c
  let f := sigTerms (groupM s (c / 8))
  if t.verified then max (f.1 * fAmp a).ceil.toNat t.map.resSum
  else (f.2 * fAmp a + (fld (tkReg s c 0x14) 0 16 * 256 : Nat)
    + (t.map.harm.foldl (fun n e => n + e.1.natAbs + e.2.natAbs) 0 : Nat)).ceil.toNat

/-- E_tone in 2^-32 electrical rev (R271). -/
def eTone (s : State) (c : Nat) (a : Rat) : Nat :=
  if (tkOf s c).tone = 0 then 0
  else
    let i : Rat := ((fld (inF s (baseRIN + 0x8004)) 0 4 + 1 : Nat) : Rat) / 4000000
    let cosP := match (toneOf s (c / 8)).run with | some r => r.cosPhase | none => true
    let w := if cosP then (rcOf s c).zc else (rcOf s c).zs
    let z : Rat := if w = 0 then 2000 else (fld w 0 16 : Rat) / 10
    let av : Rat := a * 2384 / 10000000000
    if av ≤ 0 then 4294967296 else (i * z / (16 * piQ * av) * 4294967296).ceil.toNat

/-- sigma_use in electrical rev. -/
def sigmaUse (s : State) (c : Nat) (o : Obs) : Rat :=
  let m16 := o.errs.foldl max 0
  max (sqrtQ o.sig2) (max ((fld (tkReg s c 0x14) 16 16 : Rat) / 268435456) (m16 / kSigma s c))

def jElec (s : State) (c : Nat) : Rat := (polePairs s c : Rat) * (tkReg s c 0x10).toNat / 256

/-- D0, D1, D2. -/
def dTerms (s : State) (c : Nat) : Rat × Rat × Rat :=
  let t := (usedPT s c).2
  let d := (usedGains s c).2.2.2
  (t * t * t / (d * d * d), 3 / 5 * t * t / (d * d), 7 / 10 * t / d)

/-- Steady-state variances of theta, omega T and alpha T^2 for unit white measurement noise, of the loop with gains `a`, `b`, `g` on theta,
omega T and alpha T^2: the solution of P = A P A' + K K' (R247). -/
def noiseVar (a b g : Rat) : Rat × Rat × Rat :=
  let w := 4 - 2 * a - b
  let n := w * (2 * a * b + a * g - 2 * g)
  ((2 * b * (2 * a * a + 2 * b - 3 * a * b) - a * g * w) / n, (4 * b * b * b - 4 * b * b * g + 2 * g * g * (2 - a)) / n, 4 * b * g * g / n)

/-- G0, G1, G2 of gains k1, k2, k3, as R247 defines them. The figures of R250's example are those of k3 / 2; an example explains and states no
rule (00_scope; log 97). -/
def noiseGain (k1 k2 k3 : Rat) : Rat × Rat × Rat :=
  let v := noiseVar k1 k2 k3
  (sqrtQ v.1, sqrtQ v.2.1, sqrtQ v.2.2)
/-- The noise gains in force and in use. -/
def noiseG (s : State) (c : Nat) : Rat × Rat × Rat := let g := gains s c; noiseGain g.1 g.2.1 g.2.2.1
def usedNoise (s : State) (c : Nat) : Rat × Rat × Rat := let g := usedGains s c; noiseGain g.1 g.2.1 g.2.2.1

/-- W(H), 2^-32 electrical rev, each term rounded upward (Table 8-2). -/
def posHalf (s : State) (c : Nat) (o : Obs) (h : Rat) : Nat :=
  let r (q : Rat) : Nat := (q * 4294967296).ceil.toNat
  let hn := h / (usedPT s c).2
  let g := usedNoise s c
  let d := dTerms s c
  eSig s c o.amp + r (1 / 2592000) + eTone s c o.amp
    + r (kSigma s c * sigmaUse s c o * (g.1 + g.2.1 * hn + g.2.2 * hn * hn / 2))
    + r (jElec s c * (d.1 + d.2.1 * h + d.2.2 * h * h / 2 + h * h * h / 6))

/-- V(H), 2^-32 electrical rev/s (Table 8-3), with the speed at t_n. -/
def speedHalf (s : State) (c : Nat) (o : Obs) (h w : Rat) : Nat :=
  let r (q : Rat) : Nat := (q * 4294967296).ceil.toNat
  let hn := h / (usedPT s c).2
  let g := usedNoise s c
  let d := dTerms s c
  let t := tkOf s c
  let sd : Rat := if t.verified then (t.map.resD : Rat) / 65536 else 64 * piQ * eSig s c o.amp / 4294967296
  r (kSigma s c * sigmaUse s c o * (g.2.1 + g.2.2 * hn) / (usedPT s c).2)
    + r (jElec s c * (d.2.1 + d.2.2 * h + h * h / 2)) + r (sd * (if w < 0 then -w else w))

/-! ### Command-assisted mode (R256, R257) -/

/-- The generator wired to input 0 with ASSIST = 1. -/
def assistGen (s : State) (c : Nat) : Option Nat :=
  if bitAt (tkReg s c 0) 0 then
    match wireAt s c 0 with
    | some w => if kindOf w.source = 2 then some (w.source - 0x200) else none
    | none => none
  else none

/-- a_as at content instant `tau` ns; none where no assist is in use. -/
def assistAt (s : State) (c : Nat) (tau : Rat) : Option Rat :=
  match assistGen s c with
  | none => none
  | some g =>
    match (pgOf s g).accHist.find? (fun e => decide ((instOf s e.1 : Rat) ≤ tau)) with
    | some e => if e.2.2 then some (((tkReg s c 0x1C).toInt : Rat) / 16777216 * e.2.1 / 256) else none
    | none => none

/-! ### The observer (R239 to R242) -/

/-- Prediction at content instant `tau` ns: theta in 2^-32 rev, omega. -/
def predict (o : Obs) (tau : Rat) : Rat × Rat :=
  let dt := (tau - o.tau) / 1000000000
  let at_ := o.alpha + o.assist.getD 0
  ((o.theta : Rat) + (o.omega * dt + at_ * dt * dt / 2) * 4294967296, o.omega + at_ * dt)

/-- R_B. -/
def rollbackN (s : State) (c : Nat) : Nat := if 32 ≤ groupM s (c / 8) then 2 else 3

/-- N_obs = ceil(20 / d). -/
def nObs (s : State) (c : Nat) : Nat := (20 / (gains s c).2.2.2).ceil.toNat

/-- LOCK_TH in electrical rev. -/
def lockTh (s : State) (c : Nat) : Rat := (fld (tkReg s c 8) 0 16 : Rat) / 16777216

/-- Acquisition (Table 8-7). -/
def acquire (c : Nat) (d : Demod) (thm : Nat) (a tau : Rat) (s : State) : State :=
  let o : Obs := { theta := thm, tau, inst := 3125 * d.i, sig2 := lockTh s c * lockTh s c, amp := a
                   assist := assistAt s c tau }
  modTk c (fun t => { t with obs := some o, back := [], before := [], accepted := 0, lockRun := 0, locked := false, delay := d.delay }) s

/-- An accepted sample (R239, R242, R259). `e` in electrical rev. -/
def acceptSample (c : Nat) (d : Demod) (o : Obs) (e : Rat) (a tau : Rat) (s : State) : State :=
  let g := usedGains s c
  let tt := (usedPT s c).2
  let p := predict o tau
  let ae := if e < 0 then -e else e
  let o' : Obs := {
    theta := lsb (p.1 + g.1 * e * 4294967296)
    omega := p.2 + g.2.1 * e / tt
    alpha := o.alpha + g.2.2.1 * e / (tt * tt)
    tau, inst := 3125 * d.i
    sig2 := o.sig2 + (e * e - o.sig2) / 256
    errs := (ae :: o.errs).take 16
    amp := a
    assist := assistAt s c tau }
  let t := tkOf s c
  let exit := t.exitRun + 1
  let clear := t.coast && decide (coastExit s c ≤ exit) && d.settled
  let acc := t.accepted + 1
  let run := if ae ≤ lockTh s c then t.lockRun + 1 else 0
  let lockN := max 1 (fld (tkReg s c 4) 16 16)
  let s := modTk c (fun t => { t with
      obs := some o', back := (o :: t.back).take 8, before := (o :: t.before).take 3, lastErr := ae, contradict := false, delay := d.delay
      coast := t.coast && !clear
      coastFrames := if clear then 0 else t.coastFrames
      limitRaised := t.limitRaised && !clear
      exitRun := if t.coast && !clear then exit else 0
      accepted := acc, lockRun := run
      locked := t.locked || (decide (nObs s c ≤ acc) && decide (lockN ≤ run)) }) s
  if clear then clearCond c 0x40 0 s else s

/-- OVERSPEED follows the observer state (R246). -/
def speedWatch (c : Nat) (s : State) : State :=
  match (tkOf s c).obs with
  | none => s
  | some o =>
    let ovl := decide (carrier s c / 100 < rAbs o.omega)
    setCond qTRK c 0x44 0 ovl (min (2 ^ 32 - 1) (rAbs o.omega * 64).floor.toNat) (modTk c (fun t => { t with overspeed := ovl }) s)

/-- The rollback to the state held before the last `n` accepted samples, whether or not a coast lies between them; a locked tracker holds it
(R241). -/
def stepBack (n : Nat) (t : TkSt) : TkSt :=
  match t.before[n - 1]? with
  | some o => { t with obs := some o, back := t.back.filter (fun b => decide (b.inst < o.inst)) }
  | none => t

/-- A rejected sample of row `row`: coast entry with rollback, or the exit count restarts (R241, R242). -/
def rejectSample (c row : Nat) (s : State) : State :=
  let t := tkOf s c
  if t.locked && !t.coast then
    setCond qTRK c 0x40 0 true row (modTk c (fun t => stepBack (rollbackN s c) { t with coast := true, exitRun := 0 }) s)
  else modTk c (fun t => { t with exitRun := 0 }) s

/-- A learning segment is discarded (R251). -/
def dropSegment (c : Nat) : State → State := modTk c (fun t => { t with learn := none })

/-- A tone check runs on the channel (R117). -/
def calActive (s : State) (c : Nat) : Bool := match (toneOf s (c / 8)).run with | some r => r.chan.val == c | none => false

/-- LEARN_REVS. -/
def learnRevs (s : State) : Nat := max 1 (fld (inF s (baseTRK + 0x8008)) 0 8)

/-! ### The readable copies of the maps (R255, Table 8-6) -/

/-- A signature map record. -/
def sigRecord (id : Nat) (m : SigMap) (present : Bool) : List Byte :=
  let h := (List.range 32).map (fun k => let e := m.harm.getD k (0, 0); leBytes 4 (unsig 32 e.1) ++ leBytes 4 (unsig 32 e.2))
  let body := leBytes 4 id ++ leBytes 4 (flag m.verified 0 + flag m.xcal 1 + flag present 2)
    ++ ([m.ofsS, m.ofsC, m.gainC, m.qs, m.qc].map (fun x => leBytes 4 (unsig 32 x))).flatten
    ++ leBytes 4 m.resSum ++ leBytes 4 m.resD ++ leBytes 4 m.adoptFrame ++ leBytes 8 0 ++ h.flatten
  body ++ leBytes 4 (crc32c body).toNat ++ leBytes 4 0 ++ leBytes 8 0

/-- The copies of tracker `c`'s map in force and candidate in the SIGMAP region. -/
def sigmapSync (c : Nat) (s : State) : State :=
  match regionOf s 3 with
  | none => s
  | some g =>
    let t := tkOf s c
    let id := (inF s (baseTRK + 0x40 * c + 0x18)).toNat
    let stored := (Tbl.get (constD none) s.maps (c * 2 ^ 32 + id)).isSome
    let cand := match t.cand with | some m => sigRecord id m true | none => List.replicate 320 0
    let at_ := g.first * 0x1000 + 0x280 * c
    let ts := ((List.range 640).map (fun k => (at_ + k) / 0x1000)).eraseDups
    let s := doFor ts openTile s
    doFor ts sealTile (setBytes at_ (sigRecord id t.map stored ++ cand) s)

/-- An angle difference in rev wrapped into [-1/2, 1/2). -/
def wrapQ (x : Rat) : Rat := x - (x + 1 / 2).floor
def sumQ {α : Type} (f : α → Rat) (l : List α) : Rat := l.foldl (fun n x => n + f x) 0

/-- Content instant in s, unwrapped theta_m and theta_r of the samples, the last unwrapped angle being `p`. -/
def unwrapped (p : Rat) : List LearnSmp → List (Rat × Rat × Rat)
  | [] => []
  | x :: t => let q := p + wrapQ (x.thm - p); (x.t / 1000000000, q, x.thr) :: unwrapped q t

/-- The residuals r_k of the least-squares line through the angles, with theta_r (R252). -/
def lineResiduals (l : List (Rat × Rat × Rat)) : List (Rat × Rat) :=
  let k : Rat := (l.length : Nat)
  let st := sumQ (·.1) l
  let sth := sumQ (·.2.1) l
  let w := (k * sumQ (fun x => x.1 * x.2.1) l - st * sth) / (k * sumQ (fun x => x.1 * x.1) l - st * st)
  l.map (fun x => (x.2.1 - (sth - w * st) / k - w * x.1, x.2.2))

/-- (rho_a, rho_b) of harmonic `h` in LSB 2^-32 electrical rev (R252). -/
def residualHarm (r : List (Rat × Rat)) (h : Nat) : Int × Int :=
  let f (g : Rat → Rat) : Int := lsb (2 * sumQ (fun x => x.1 * g (h * x.2)) r / (r.length : Nat) * 4294967296)
  (f cosRev, f sinRev)

/-- The ellipse estimates of a segment (R252): the means of S and C, the ratio of their RMS about the means, and sin of the angle by which
the cosine track leads beyond 90 degrees. -/
def ellipse (l : List LearnSmp) : Rat × Rat × Rat × Rat :=
  let k : Rat := (l.length : Nat)
  let ms := sumQ (fun x => (x.sn : Rat)) l / k
  let mc := sumQ (fun x => (x.cn : Rat)) l / k
  let ss := sumQ (fun x => (x.sn - ms) * (x.sn - ms)) l
  let cc := sumQ (fun x => (x.cn - mc) * (x.cn - mc)) l
  (ms, mc, sqrtQ (ss / cc), max (-1) (min 1 (-(sumQ (fun x => (x.sn - ms) * (x.cn - mc)) l) / sqrtQ (ss * cc))))

/-- A completed segment (R252, R253): residuals, VERIFIED, and a candidate. After a map operation of the same frame the segment is discarded
(R270); beside a cross-calibration candidate of the same frame its own does not remain (spec/09 R298). -/
def learnDone (c : Nat) (g : Segment) (s : State) : State :=
  let t := tkOf s c
  let n := some (frameN s)
  if t.mapAt = n then dropSegment c s
  else
    let r := lineResiduals (unwrapped 0 g.samples)
    let f := (List.range 32).map (fun k => residualHarm r (k + 1))
    let rs : Nat := f.foldl (fun n e => n + e.1.natAbs + e.2.natAbs) 0
    let rd : Nat := ((List.range 32).zip f).foldl (fun n e => n + (e.1 + 1) * (e.2.1.natAbs + e.2.2.natAbs)) 0
    let m := { t.map with resSum := min (2 ^ 32 - 1) rs, resD := satU 32 (lsb (2 * piQ * (rd : Rat) / 65536)), verified := true }
    let e := ellipse g.samples
    let tol : Rat := 1 / 65536
    let differ := decide (8388608 * tol < rAbs (e.1 - m.ofsS)) || decide (8388608 * tol < rAbs (e.2.1 - m.ofsC))
      || decide (tol < rAbs (e.2.2.1 - q30 m.gainC)) || decide (tol < rAbs (asinQ e.2.2.2 - asinQ (q30 m.qs)))
    let add (a b : List (Int × Int)) : List (Int × Int) :=
      (List.range 32).map (fun k => ((a.getD k (0, 0)).1 + (b.getD k (0, 0)).1, (a.getD k (0, 0)).2 + (b.getD k (0, 0)).2))
    let q (x : Rat) : Int := satS 32 (lsb (x * 1073741824))
    let cand : SigMap :=
      if differ then { m with ofsS := lsb e.1, ofsC := lsb e.2.1, gainC := q e.2.2.1, qs := q e.2.2.2, qc := q (1 / sqrtQ (1 - e.2.2.2 * e.2.2.2))
                              verified := false, xcal := false }
      else { m with harm := add m.harm f, verified := false, xcal := false }
    let key := c * 2 ^ 32 + sigId s c
    let s := match Tbl.get (constD none) s.maps key with
      | some en => if en.map.harm = t.map.harm ∧ en.map.ofsS = t.map.ofsS ∧ en.map.ofsC = t.map.ofsC ∧ en.map.gainC = t.map.gainC ∧ en.map.qs = t.map.qs
          then { s with maps := Tbl.set (constD none) s.maps key (some { en with map := m }) } else s
      | none => s
    sigmapSync c (modTk c (fun t => { t with
        map := m, verified := true, cand := if t.xcalAt = n then t.cand else some cand, learn := none, segments := satInc 16 t.segments
        learnResult := if differ then 1 else 2 }) s)

/-- The conditions under which a segment accumulates (R251). -/
def learnOn (c : Nat) (s : State) : Bool :=
  let t := tkOf s c
  let w := inF s (baseTRK + 0x8000)
  let st := stOf s c
  match t.obs with
  | none => false
  | some o =>
    bitAt (tkReg s c 0) 1 && (st == .ready || st == .stopping || st == .holding || st == .active) && t.record.fine && !calActive s c
      && decide ((fld w 0 16 : Rat) ≤ rAbs o.omega * 64) && decide (rAbs o.omega * 64 ≤ (fld w 16 16 : Rat))
      && decide (rAbs o.alpha * 256 ≤ ((inF s (baseTRK + 0x8004)).toNat : Rat))

/-- The learning of an accepted sample (R251, R271). -/
def learnSample (c : Nat) (d : Demod) (thm : Nat) (s : State) : State :=
  let t := tkOf s c
  match t.obs with
  | none => s
  | some o =>
    if !learnOn c s then dropSegment c s
    else
      let th : Rat := rev32 o.theta
      let smp : LearnSmp := { t := o.tau, thm := rev32 (thm : Int), thr := thetaR t.map d.s d.c, sn := d.s, cn := d.c }
      match t.learn with
      | none => modTk c (fun t => { t with learn := some { last := th, travel := 0, samples := [smp] } }) s
      | some g =>
        let g' : Segment := { last := th, travel := g.travel + rAbs (th - g.last), samples := g.samples ++ [smp] }
        if (learnRevs s : Rat) ≤ g'.travel then learnDone c g' s else modTk c (fun t => { t with learn := some g' }) s

/-- The fine path of a demodulated sample (R240). The gains in force at it are in use from it on (R267); |e| of a sample that a row before the
gate rejects is that of its angle too (DEDUCED, log 98). -/
def fineSample (c : Nat) (d : Demod) (s : State) : State :=
  let t := tkOf s c
  let tau : Rat := (3125 * d.i : Nat) / 2 - d.delay
  let thm := thetaM t.map d.s d.c
  let a := ampl t.map d.s d.c
  let aOk := ampOk s c (ampCode s c a)
  let s := modTk c (fun t => { t with gainPT := some (gainsPT s c) }) s
  if !d.ok && d.gap then s
  else
    match t.obs with
    | none => if d.ok && !d.mark && aOk && stOf s c == .preparing then acquire c d thm a tau s else s
    | some o =>
      let e := rev32 (wrap32 ((thm : Int) - lsb (predict o tau).1))
      let ae := rAbs e
      let s := modTk c (fun t => { t with contradict := false, lastErr := if d.ok then ae else t.lastErr }) s
      if !d.ok || d.mark then speedWatch c (rejectSample c 2 s)
      else if !aOk then speedWatch c (rejectSample c 3 s)
      else
        let gate : Rat := (fld (tkReg s c 8) 16 16 : Rat) / 1048576
        if !t.locked || decide (ae ≤ gate) then learnSample c d thm (speedWatch c (acceptSample c d o e a tau s))
        else
          let w : Rat := (posHalf s c o ((tau - o.tau) / 1000000000) : Rat) / 4294967296
          if ae ≤ gate + w then speedWatch c (rejectSample c 5 s)
          else
            let s := raiseFault qTRK c 0x43 (min (2 ^ 32 - 1) (ae * 1048576).floor.toNat) s
            speedWatch c (rejectSample c 6 (modTk c (fun t => { t with contradict := true }) s))

/-- The tracker takes its oldest committed sample (R233). -/
def trackerSample (c : Nat) (s : State) : State :=
  match (tkOf s c).waiting with
  | [] => s
  | d :: rest =>
    let s := modTk c (fun t => { t with waiting := rest, tone := if calActive s c then 2 else t.tone - 1 }) s
    if stOf s c == .dormant then s
    else
      let t := tkOf s c
      let s := if d.ok then coarseSample c d (thetaM t.map d.s d.c) (ampl t.map d.s d.c) s else s
      if stOf s c == .faulted then s else fineSample c d s

/-! ### Coast frames (R243) -/

/-- A boundary at which COAST is 1 counts one coast frame. -/
def coastBoundary (c : Nat) : State → State :=
  modTk c (fun t => if t.coast then { t with coastFrames := min 255 (t.coastFrames + 1) } else t)

/-- COAST_FRAMES has reached COAST_LIM: kind 0x41, once in a coast. -/
def coastLimit (c : Nat) (s : State) : State :=
  let t := tkOf s c
  if t.coast && !t.limitRaised && decide (coastLim s c ≤ t.coastFrames) then
    raiseFault qTRK c 0x41 (t.coastFrames % 256) (modTk c (fun t => { t with limitRaised := true }) s)
  else s

/-- COAST_LIMIT. -/
def execCoastLimit (c : Fin 512) (s : State) : Host.Outcome State Fault Refusal := .next (coastLimit c.val s)

/-! ### Unit states (R255, R259, R272) -/

/-- The zero map (R255). -/
def zeroMap : SigMap := {}

/-- The map corrects something: it is not the zero map (R255). -/
def mapCorrects (m : SigMap) : Bool :=
  !(m.ofsS == 0 && m.ofsC == 0 && m.gainC == 0x40000000 && m.qs == 0 && m.qc == 0x40000000 && m.harm.all (fun e => e.1 == 0 && e.2 == 0))

/-- A tracker enters PREPARING: the map in force from the store, its chain takes a synchronising reset (R166, R255). -/
def trackerPrepare (c : Nat) (s : State) : State :=
  let (m, bad) := match Tbl.get (constD none) s.maps (c * 2 ^ 32 + sigId s c) with
    | some en => if en.crcOk then (en.map, false) else (zeroMap, true)
    | none => (zeroMap, false)
  let s := clearCond c 0x44 0 (clearCond c 0x42 0 (clearCond c 0x40 0 s))
  let s := modTk c (fun t => {
      map := m, verified := m.verified, mapResult := t.mapResult, mapFrame := t.mapFrame, segments := t.segments
      learnResult := t.learnResult, ext0 := t.ext0, ext1 := t.ext1, record := t.record, shown := t.shown, mapAt := t.mapAt }) s
  let s := sigmapSync c (modSe (c / 64) (fun x => { x with sync := x.sync ||| BitVec.ofNat 64 (2 ^ (c % 64)) }) s)
  if bad then raiseFault qTRK c 0x47 (sigId s c) s else s

/-- A tracker enters FAULTED or DORMANT. -/
def trackerStop (c : Nat) (dormant : Bool) (s : State) : State :=
  let s := clearCond c 0x44 0 (clearCond c 0x42 0 (clearCond c 0x40 0 s))
  modTk c (fun t => { t with
    coast := false, locked := false, coastFrames := 0, limitRaised := false, exitRun := 0, learn := none, overspeed := false
    contradict := false, assistOn := false
    obs := if dormant then none else t.obs
    back := if dormant then [] else t.back
    before := if dormant then [] else t.before
    coarse := if dormant then [] else t.coarse
    waiting := if dormant then [] else t.waiting }) s

/-! ### Map operations (R254) -/

/-- theta_m of a map for the pair of amplitude `a` at angle `x`, without the CORDIC's error. -/
def mapAngle (m : SigMap) (a x : Rat) : Rat :=
  let p := correctedQ m (a * sinRev x) (a * cosRev x)
  let thr := atanRev p.1 p.2
  thr - harmSum thr 1 m.harm
/-- The change of correction between two maps at angle `x`, in electrical rev. -/
def mapStepAt (m k : SigMap) (a x : Rat) : Rat := rAbs (wrapQ (mapAngle k a x - mapAngle m a x))

/-- The nominal amplitude of a channel in sample codes, at which the two maps are compared (log 13). -/
def nominalAmp (s : State) (c : Nat) : Rat := (max 1 (fld (inF s (baseRIN + 0x40 * c + 0xC)) 0 24) : Nat)

/-- Some number below `n` has the property. -/
def anyBelow (p : Nat → Bool) : Nat → Bool
  | 0 => false
  | n + 1 => p n || anyBelow p n

/-- The correction changes by more than MAXSTEP at some angle (Table 8-5): at one of the 2^32 angles of the tracker's format (log 13). -/
def mapTooFar (s : State) (c : Nat) (m k : SigMap) : Bool :=
  let lim : Rat := (fld (inF s (baseTRK + 0x8008)) 16 16 : Rat) / 16777216
  anyBelow (fun j => decide (lim < mapStepAt m k (nominalAmp s c) ((j : Rat) / 4294967296))) 4294967296

def mapStateOk (s : State) (c : Nat) : Bool := let st := stOf s c; st == .dormant || st == .preparing || st == .ready

/-- A refused map operation. -/
def mapRefuse (c n code : Nat) (s : State) : State :=
  raiseFault qTRK c 0x45 code (modTk c (fun t => { t with mapResult := code, mapFrame := n % 65536 }) s)

/-- ADOPT at boundary `n`. -/
def mapAdopt (c n : Nat) (s : State) : State :=
  let t := tkOf s c
  match t.cand with
  | none => mapRefuse c n 4 s
  | some k =>
    if !mapStateOk s c then mapRefuse c n 5 s
    else if mapTooFar s c t.map k then mapRefuse c n 6 s
    else
      let m := { k with verified := false, resSum := 0, resD := 0, adoptFrame := n % 2 ^ 32 }
      let sh := match t.lastSC with
        | some p => wrap32 ((thetaM m p.1 p.2 : Int) - thetaM t.map p.1 p.2)
        | none => 0
      let mv (o : Obs) : Obs := { o with theta := o.theta + sh }
      modTk c (fun t => { t with
          map := m, cand := none, verified := false, mapResult := 1, mapFrame := n % 65536, mapAt := some n
          obs := t.obs.map mv, back := t.back.map mv, before := t.before.map mv })
        { s with maps := Tbl.set (constD none) s.maps (c * 2 ^ 32 + sigId s c) (some { map := m, crcOk := true }) }

/-- DISCARD. -/
def mapDiscard (c n : Nat) (s : State) : State :=
  if (tkOf s c).cand.isSome then
    modTk c (fun t => { t with cand := none, mapResult := 2, mapFrame := n % 65536, mapAt := some n }) s
  else mapRefuse c n 4 s

/-- ERASE. -/
def mapErase (c n : Nat) (s : State) : State :=
  if mapStateOk s c then
    modTk c (fun t => { t with map := zeroMap, verified := false, mapResult := 3, mapFrame := n % 65536, mapAt := some n })
      { s with maps := Tbl.set (constD none) s.maps (c * 2 ^ 32 + sigId s c) none }
  else mapRefuse c n 5 s

/-- The operation of a committed TK_MAPCMD at boundary `n`; OP returns to 0 in force and in the shadow. -/
def mapCommand (c n op : Nat) (s : State) : State :=
  let s := if op = 1 then mapAdopt c n s else if op = 2 then mapDiscard c n s else if op = 3 then mapErase c n s else s
  let off := baseTRK + 0x40 * c + 0x3C
  sigmapSync c <| setShadow off (shadowOf s off &&& 0xFFFFFFFC) (setInF off (inF s off &&& 0xFFFFFFFC) s)

/-- POLES and SIG_ID of a tracker that is not DORMANT stay (R265). -/
def trkSnap (r : List (Nat × Word) × State) : List (Nat × Word) × State :=
  (List.range 512).foldl (fun r c =>
    if stOf r.2 c == .dormant then r
    else
      let o := baseTRK + 0x40 * c
      let r := if fld (snapGet r.1 r.2 o) 24 4 ≠ fld (inF r.2 o) 24 4 then snapKeep qTRK c 0x46 o 0x0F000000 r else r
      if snapGet r.1 r.2 (o + 0x18) ≠ inF r.2 (o + 0x18) then snapKeep qTRK c 0x46 (o + 0x18) 0xFFFFFFFF r else r) r

/-! ### The channel record (R236, R237, R244 to R248, R260) -/

/-- A record's bound field: saturated and rounded upward. -/
def boundField (w : Nat) (per : Nat) : Nat := min 0xFFFF (ceilDiv w per)

/-- SIGNAL_FAULT of a channel at half ns `half`: the mark of the newest sample at or before it, or a marked slice (R116). -/
def chanMark (s : State) (c : Nat) (half : Int) : Bool :=
  let after := if half < 3125 * (s.decim : Int) then ((3125 * (s.decim : Int) - half + 3124) / 3125).toNat else 0
  (match (rcOf s c).hist[after]? with | some x => x.mark | none => false) || sliceMarked s (c / 64)

/-- The fine fields at the frame instant `half` from state `o` (R244 to R248). -/
def fineRecord (c : Nat) (o : Obs) (half : Int) (r : ChRec) (s : State) : ChRec × State :=
  let t := tkOf s c
  let tn : Rat := (half : Rat) / 2
  let h := (tn - o.tau) / 1000000000
  let p := predict o tn
  let pp := polePairs s c
  let ovl := decide (carrier s c / 100 < rAbs o.omega)
  let pb := boundField (posHalf s c o h) (pp * 256)
  let vb := boundField (speedHalf s c o h p.2) (pp * 4194304)
  let pb := if ovl then 0xFFFF else pb
  let vb := if ovl then 0xFFFF else vb
  let sat := pb == 0xFFFF || vb == 0xFFFF
  let fine := t.locked && t.settled && !t.coast && !ovl
  let r := { r with
      pos := signed 48 (unsig 48 (nearest (p.1 / pp) + t.turnOfs))
      speed := satS 32 (nearest (p.2 / pp * 65536))
      acc := satS 32 (nearest ((o.alpha + o.assist.getD 0) / pp * 256))
      posBound := pb, speedBound := vb, boundSat := sat, fine, coast := t.coast, overspeed := ovl
      age := satU 32 ((half - o.inst) / 2) }
  let s := modTk c (fun t => { t with
      sigmaUse := sigmaUse s c o, esig := eSig s c o.amp, assistOn := o.assist.isSome }) s
  (r, if fine && stOf s c == .preparing then modUnit c (fun z => { z with prepDone := true }) s else s)

/-- BOUND_SAT becomes set in a running state: kind 0x42 (R248). The bounds of a tracker without a record, DORMANT or FAULTED are saturated. -/
def satWatch (c : Nat) (old r : ChRec) (s : State) : State :=
  if r.boundSat && old.boundSat then s
  else setCond qTRK c 0x42 0 (r.boundSat && running s c) (flag (r.speedBound == 0xFFFF) 1 + flag (r.posBound == 0xFFFF) 0) s

/-- What TK_STATUS shows is that of the record (R264); a segment whose conditions broke is discarded (R251). -/
def showRecord (c : Nat) (s : State) : State :=
  let s := if (tkOf s c).learn.isSome && !learnOn c s then dropSegment c s else s
  modTk c (fun t => { t with shown := {
      angleAbs := t.angleAbs, assistOn := t.assistOn, learning := t.learn.isSome, cand := t.cand.isSome, verified := t.verified
      mapZero := !mapCorrects t.map, coastFrames := t.coastFrames, contradict := t.contradict, locked := t.locked } }) s

/-- The tracker's fields of the record of the frame at `half` half ns. Reach, discrepancy and the twin fields come from their chapters. -/
def trackerRecord (c : Nat) (half : Int) (s : State) : State :=
  let t := tkOf s c
  let st := stOf s c
  let old := t.record
  let base : ChRec := { cal := calActive s c && st != .dormant, sigFault := sliceHeld s (c / 64) || (chanMark s c half && st != .dormant), ext0 := t.ext0, ext1 := t.ext1 }
  if st == .dormant then showRecord c (modTk c (fun t => { t with record := base, prevPos := old.pos, prevFine := old.fine }) s)
  else
    let co := t.coarse.find? (fun e => decide ((e.1 : Int) ≤ half))
    let base := match co with
      | some e =>
        let code := ampCode s c e.2.2.1
        { base with coarse := e.2.1, amp := code, quad := e.2.2.2.2, coarseOk := ampOk s c code && !e.2.2.2.1 && !t.coast }
      | none => { base with quad := if t.coarse.isEmpty then t.quad else 0 }
    let o := ((match t.obs with | some o => [o] | none => []) ++ t.back).find? (fun o => decide (o.inst ≤ half))
    let x : ChRec × State :=
      match o with
      | none => (base, s)
      | some o =>
        if st == .faulted then ({ base with pos := old.pos, age := satU 32 ((half - o.inst) / 2) }, s) else fineRecord c o half base s
    let x := if st == .faulted then ({ x.1 with pos := old.pos }, x.2) else x
    showRecord c (satWatch c old x.1 (modTk c (fun t => { t with record := x.1, prevPos := old.pos, prevFine := old.fine }) x.2))

/-- Trackers of this device that the tree lists. -/
def ownTrackers (s : State) : List Nat := (ownTines s).filter (fun u => decide (u < 0x200))

end Sys2Proof.Machine
end

