-- ==== Sys2Proof/Machine/Jnt.lean ====
section
/-! DEFINITION. Gear links, absolute joint position, cross-calibration and reach (spec/09). -/
namespace Sys2Proof.Machine

def glReg (s : State) (l o : Nat) : Word := inF s (baseJNT + 0x8000 + 0x40 * l + o)
def rhReg (s : State) (c o : Nat) : Word := inF s (baseJNT + 0x40 * c + o)

/-- A 64-bit pair of registers in force, signed. -/
def inF64 (s : State) (off : Nat) : Int := signed 64 ((inF s off).toNat + 2 ^ 32 * (inF s (off + 4)).toNat)

/-- The tracker at an input of gear link `l`: 0 MOTOR, 1 LINK (R275). -/
def glTracker (s : State) (l input : Nat) : Option Nat :=
  match wireAt s (0x500 + l) input with
  | some w => if w.source < 0x200 then some w.source else none
  | none => none

/-- N = RATIO_NUM / RATIO_DEN (R276). -/
def glRatio (s : State) (l : Nat) : Rat := ((glReg s l 4).toInt : Rat) / (glReg s l 8).toNat

/-- READY, STOPPING, HOLDING or ACTIVE. -/
def operates (s : State) (u : Nat) : Bool :=
  match stOf s u with
  | .ready => true | .stopping => true | .holding => true | .active => true | _ => false

/-- A condition takes a value without a message. -/
def markCond (u kind sub : Nat) (b : Bool) (s : State) : State :=
  { s with flt := { s.flt with conds := Tbl.set (constD false) s.flt.conds (condKey u kind sub) b } }

/-! ### The discrepancy (R277, R282) -/

/-- Delta and its bound in link rev, from the records of the frame; a bound of none has no upper limit. -/
def glDelta (s : State) (l m k : Nat) : Rat × Option Rat :=
  let rm := (tkOf s m).record
  let rl := (tkOf s k).record
  let n := glRatio s l
  let d := (rev32 (rm.pos - inF64 s (baseJNT + 0x8000 + 0x40 * l + 0x10))) / n - rev32 rl.pos
  (d, if rm.posBound = 0xFFFF ∨ rl.posBound = 0xFFFF then none
      else some ((rm.posBound : Rat) / 16777216 / rAbs n + (rl.posBound : Rat) / 16777216))

/-- WIND and SLIP of a frame in which Delta is available (R282). -/
def glWatch (l : Nat) (d : Rat) (b : Option Rat) (s : State) : State :=
  let u := 0x500 + l
  let ovl (lim : Nat) : Bool := match b with | some b => decide ((lim : Rat) / 16777216 < rAbs d - b) | none => false
  let wind := ovl (glReg s l 0x20).toNat
  let slip := ovl (glReg s l 0x24).toNat
  let newSlip := slip && !condOf s u 0x49 0
  let det := unsig 32 (max (-0x7FFFFFFF) (min 0x7FFFFFFF (roundAway (d * 16777216))))
  let s := if newSlip then markCond u 0x48 0 wind s else setCond qJNT u 0x48 0 wind det s
  let s := setCond qJNT u 0x49 0 slip det s
  modGl l (fun x => { x with wind, slip }) s

/-- The conditions under which the gear link takes samples for cross-calibration (R284). -/
def xcalOn (s : State) (l m k : Nat) : Bool :=
  let tm := tkOf s m
  match tm.obs with
  | none => false
  | some om =>
    bitAt (glReg s l 0) 0 && operates s (0x500 + l) && tm.record.fine && (tkOf s k).record.fine && !calActive s m && !calActive s k
      && tm.verified && decide (rAbs om.alpha ≤ ((inF s (baseTRK + 0x8004)).toNat : Rat) / 256)

/-- What a link without both its trackers shows of a frame, as one that no image lists does: no discrepancy, its bound saturated, no
cross-calibration (R277, R291, R294). -/
def glGone (x : GlSt) : GlSt := { x with valid := false, disc := -0x80000000, dbound := 2 ^ 32 - 1, xrun := false }

/-- The discrepancy of gear link `l` in the frame's records, its bound, and whether bins accumulate (R277, R294). -/
def glFrame (l : Nat) (s : State) : State :=
  match glTracker s l 0, glTracker s l 1 with
  | some m, some k =>
    let setDisc (v : Int) (s : State) : State :=
      modTk k (fun t => { t with record := { t.record with disc := v } }) (modTk m (fun t => { t with record := { t.record with disc := v } }) s)
    let d := glDelta s l m k
    let db := match d.2 with | some b => min (2 ^ 32 - 1) (b * 16777216).ceil.toNat | none => 2 ^ 32 - 1
    let s := modGl l (fun x => { x with dbound := db, xrun := xcalOn s l m k }) s
    if operates s (0x500 + l) && (tkOf s m).record.fine && (tkOf s k).record.fine then
      let v := max (-0x7FFFFFFF) (min 0x7FFFFFFF (roundAway (d.1 * 16777216)))
      glWatch l d.1 d.2 (setDisc v (modGl l (fun x => { x with valid := true, disc := v }) s))
    else setDisc (-0x80000000) (modGl l (fun x => { x with valid := false, disc := -0x80000000 }) s)
  | _, _ => modGl l glGone s

/-! ### Absolute position (R278 to R280) -/

/-- A result of the procedure: code, and k and lt where it came so far. -/
def absEval (s : State) (l m k : Nat) : Nat × Option (Int × Int × Nat) :=
  let rm := (tkOf s m).record
  let rl := (tkOf s k).record
  let n := glRatio s l
  let pm := polePairs s m
  let lv := rev32 rl.pos
  let mv := rev32 rm.pos
  let lb := rev32 (inF64 s (baseJNT + 0x8000 + 0x40 * l + 0x18))
  let bl : Rat := (rl.posBound : Rat) / 16777216
  let bm : Rat := (rm.posBound : Rat) / 16777216
  if stOf s m != .ready || stOf s k != .ready then (2, none)
  else if polePairs s k ≠ 1 then (6, none)
  else if rl.posBound = 0xFFFF ∨ rm.posBound = 0xFFFF then (4, none)
  else
    let lt : Int := (lb - lv).ceil
    if lv - bl + lt < lb ∨ lb + 1 ≤ lv + bl + lt then (3, none)
    else
      let mp := rev32 (inF64 s (baseJNT + 0x8000 + 0x40 * l + 0x10)) + n * (lv + lt)
      let u24 := ((rAbs n * bl + bm) * 16777216 + (glReg s l 0xC).toNat).ceil.toNat
      let u : Rat := (u24 : Rat) / 16777216
      let kk := roundAway ((mp - mv) * pm)
      let r := some (kk, lt, u24)
      if 1 / (2 * (pm : Rat)) ≤ u then (4, r)
      else if 32768 ≤ rAbs (mv + (kk : Rat) / pm) then (7, r)
      else if u < rAbs (mp - (mv + (kk : Rat) / pm)) then (5, r)
      else (1, r)

/-- ABS_N. -/
def absN (s : State) (l : Nat) : Nat := max 1 (fld (glReg s l 0) 24 8)

/-- One frame of a PREPARING gear link. -/
def absFrame (l : Nat) (s : State) : State :=
  if stOf s (0x500 + l) != .preparing then s
  else
    match glTracker s l 0, glTracker s l 1 with
    | some m, some k =>
      let x := glOf s l
      let r := absEval s l m k
      let same := match r.2 with | some e => decide (e.1 = x.k ∧ e.2.1 = x.lt) | none => false
      let count := if r.1 = 1 then (if same && decide (0 < x.count) then min 255 (x.count + 1) else 1) else 0
      let bad := r.1 == 5 || r.1 == 6 || r.1 == 7
      let s := modGl l (fun x => { x with
          count, code := r.1, raised := x.raised || bad
          k := match r.2 with | some e => e.1 | none => x.k
          lt := match r.2 with | some e => e.2.1 | none => x.lt
          u := match r.2 with | some e => min (2 ^ 32 - 1) e.2.2 | none => x.u }) s
      let s := if bad && !x.raised then raiseFault qJNT (0x500 + l) 0x4B (unsig 16 (glOf s l).k * 65536 + r.1) s else s
      if absN s l ≤ count then modUnit (0x500 + l) (fun z => { z with prepDone := true }) s else s
    | _, _ => s

/-- The gear link becomes READY: the offsets apply (R279). -/
def glReady (l : Nat) (s : State) : State :=
  match glTracker s l 0, glTracker s l 1 with
  | some m, some k =>
    let x := glOf s l
    let s := modTk k (fun t => { t with turnOfs := t.turnOfs + x.lt * 4294967296, angleAbs := true }) s
    let pm := polePairs s m
    modTk m (fun t => { t with turnOfs := t.turnOfs + roundAway ((x.k : Rat) * 4294967296 / pm), angleAbs := true }) s
  | _, _ => s

/-- The gear link enters PREPARING. -/
def glPrepare (l : Nat) (s : State) : State :=
  clearConds (0x500 + l) (modGl l (fun x => { x with count := 0, code := 0, raised := false, lost := false, bins := [], wind := false, slip := false }) s)

/-- The gear link leaves the operating states; WIND and SLIP end where it becomes DORMANT. -/
def glStop (l : Nat) (dormant : Bool) (s : State) : State :=
  let s := modGl l (fun x => { x with bins := [], count := 0, valid := false }) s
  if dormant then clearConds (0x500 + l) (modGl l (fun x => { x with wind := false, slip := false }) s) else s

/-- A boundary: a tracker that has left the operating states is a lost partner (R283); XCAL_EN = 0 clears the bins (R285). -/
def glBoundary (l : Nat) (s : State) : State :=
  let s := if bitAt (glReg s l 0) 0 then s else modGl l (fun x => { x with bins := [] }) s
  match glTracker s l 0, glTracker s l 1 with
  | some m, some k =>
    if operates s (0x500 + l) then
      let gone := [m, k].filter (fun c => !operates s c)
      if gone.isEmpty then modGl l (fun x => { x with lost := false }) s
      else if (glOf s l).lost then s
      else doFor gone (fun c => raiseFault qJNT (0x500 + l) 0x4A c) (modGl l (fun x => { x with lost := true }) s)
    else s
  | _, _ => s

/-- Gear links that the tree lists on this device. -/
def ownLinks (s : State) : List Nat :=
  ((ownTines s).filter (fun u => decide (0x500 ≤ u ∧ u < 0x600))).map (· - 0x500)

/-- Gear links that tracker `c` feeds. -/
def linksOf (s : State) (c : Nat) : List Nat :=
  (ownLinks s).filter (fun l => glTracker s l 0 == some c || glTracker s l 1 == some c)

/-- A map operation or PREPARING of tracker `c` at a boundary: bins clear, and the count of a PREPARING link restarts (R285, R297). -/
def glTrackerEvent (c : Nat) (prepare : Bool) (s : State) : State :=
  doFor (linksOf s c) (fun l s =>
    modGl l (fun x => { x with
      bins := if prepare || glTracker s l 1 == some c then [] else x.bins
      count := if prepare then x.count else 0 }) s) s

/-- A map operation at boundary `n`, and what one that applies does to the tracker's gear links. -/
def mapApply (c n op : Nat) (s : State) : State :=
  let s := mapCommand c n op s
  if 1 ≤ op ∧ (tkOf s c).mapResult < 4 then glTrackerEvent c false s else s

/-- MAP_ADOPT, MAP_DISCARD, MAP_ERASE. -/
def execMapAdopt (c : Fin 512) (s : State) : Host.Outcome State Fault Refusal := .next (mapApply c.val (frameN s) 1 s)
def execMapDiscard (c : Fin 512) (s : State) : Host.Outcome State Fault Refusal := .next (mapApply c.val (frameN s) 2 s)
def execMapErase (c : Fin 512) (s : State) : Host.Outcome State Fault Refusal := .next (mapApply c.val (frameN s) 3 s)

/-! ### Cross-calibration (R284, R285) -/

/-- XCAL_MIN. -/
def xcalMin (s : State) : Nat := max 1 (fld (inF s (baseJNT + 0xC000)) 0 16)

/-- Bins holding XCAL_MIN samples. -/
def xcalFull (s : State) (l : Nat) : Nat := ((glOf s l).bins.filter (fun b => decide (xcalMin s ≤ b.2.1))).length

/-- A completed segment of 128 bins: its harmonics are rounded to nearest, ties away from zero (R276). -/
def xcalDone (l k : Nat) (s : State) : State :=
  let bins := (glOf s l).bins.map (fun b => b.2.2 / (b.2.1 : Rat))
  let mean := meanQ bins
  let rs := bins.map (fun r => r - mean)
  let rho (f : Rat → Rat) (h : Nat) : Int :=
    roundAway (((List.range 128).zip rs).foldl (fun n e => n + e.2 * f ((h : Rat) * (2 * e.1 + 1) / 256)) 0 / 64 * 4294967296)
  let m := (tkOf s k).map
  let harm := (List.range 32).map (fun j =>
    ((m.harm.getD j (0, 0)).1 + rho cosRev (j + 1), (m.harm.getD j (0, 0)).2 + rho sinRev (j + 1)))
  sigmapSync k (modGl l (fun x => { x with bins := [], xcal := satInc 16 x.xcal })
    (modTk k (fun t => { t with cand := some { m with harm, xcal := true, verified := false }, xcalAt := some (frameN s) }) s))

/-- A segment whose 128 bins all hold XCAL_MIN samples is completed (R285). -/
def xcalCheck (l : Nat) (s : State) : State :=
  match glTracker s l 1 with
  | some k => if xcalFull s l = 128 then xcalDone l k s else s
  | none => s

/-- An accepted sample of the link tracker `k` enters the bins. -/
def xcalSample (l m k : Nat) (d : Demod) (s : State) : State :=
  let tm := tkOf s m
  let tl := tkOf s k
  match tm.obs, tl.obs with
  | some om, some _ =>
    if !xcalOn s l m k then s
    else
      let tau : Rat := (3125 * d.i : Nat) / 2 - d.delay
      let mp := (predict om tau).1 / 4294967296 / polePairs s m + rev32 tm.turnOfs
      let x := glOf s l
      let q := rev32 (thetaM tl.map d.s d.c) - ((mp - rev32 (inF64 s (baseJNT + 0x8000 + 0x40 * l + 0x10))) / glRatio s l - x.lt)
      let r := q - (q + 1 / 2).floor
      let b := (128 * thetaR tl.map d.s d.c).floor.toNat % 128
      let s := modGl l (fun x =>
        let o := Tbl.get (constD (0, (0 : Rat))) x.bins b
        { x with bins := Tbl.set (constD (0, (0 : Rat))) x.bins b (o.1 + 1, o.2 + r) }) s
      if xcalFull s l = 128 then xcalDone l k s else s
  | _, _ => s

/-- The tracker's sample, then the gear link that takes it as LINK. -/
def trackerStep (c : Nat) (s : State) : State :=
  match (tkOf s c).waiting with
  | [] => s
  | d :: _ =>
    let s := trackerSample c s
    let accepted := match (tkOf s c).obs with | some o => o.inst == (3125 * d.i : Nat) | none => false
    if accepted then
      doFor (ownLinks s) (fun l s =>
        match glTracker s l 0, glTracker s l 1 with
        | some m, some k => if k = c then xcalSample l m k d s else s
        | _, _ => s) s
    else s

/-- TRACKER_SAMPLE. -/
def execTrackerSample (c : Fin 512) (s : State) : Host.Outcome State Fault Refusal := .next (trackerStep c.val s)

/-! ### Reach (R286 to R288) -/

/-- The stop model in force: t_r in us, A_R, a_s, j_s in LSB 2^-8 (R286; spec/11 R354). -/
def stopModel (s : State) (c : Nat) : Nat × Rat × Rat × Rat :=
  let w := rhReg s c 0
  if bitAt w 12 then
    let o := baseMOT + 0x100 * (fld w 0 12 - 0x200)
    let k : Rat := ((rhReg s c 0x14).toNat : Rat) / 65536
    (fld (inF s (o + 0x24)) 0 20, k * (inF s (o + 0x28)).toNat, k * (inF s (o + 0x2C)).toNat, k * (inF s (o + 0x30)).toNat)
  else (fld (rhReg s c 4) 0 20, (rhReg s c 8).toNat, (rhReg s c 0xC).toNat, (rhReg s c 0x10).toNat)

/-- The model in force as RH_TR_EFF, RH_A_EFF, RH_D_EFF and RH_J_EFF show it: T in ns, and the rest to nearest, ties away from zero (R276,
R286). T is rounded up, as an intermediate result of reach (R287). -/
def stopShown (s : State) (c : Nat) : Nat × Nat × Nat × Nat :=
  let m := stopModel s c
  let f (q : Rat) : Nat := satU 32 (roundAway q)
  (if m.2.2.2 = 0 then 2 ^ 32 - 1 else satU 32 (((m.1 : Rat) / 1000000 + m.2.1 / m.2.2.2) * 1000000000).ceil, f m.2.1, f m.2.2.1, f m.2.2.2)

/-- The distance toward one side at worst speed `vw`, in rev; the root is rounded outward, the rest is exact (R287). -/
def reachSide (tr ar as js vw : Rat) : Rat :=
  let t := tr + ar / js
  let v1 := vw + ar * t
  if v1 ≤ 0 then 0
  else
    let d1 := t * (vw + v1) / 2
    let d2 := if as * as / js ≤ v1 then v1 * (v1 / as + as / js) / 2 else v1 * sqrtUp (v1 / js)
    max 0 (d1 + d2)

/-- Reach of channel `c` in its record. -/
def reachFrame (c : Nat) (s : State) : State :=
  let r := (tkOf s c).record
  let m := stopModel s c
  let tr : Rat := (m.1 : Rat) / 1000000
  let ar := m.2.1 / 256
  let as := m.2.2.1 / 256
  let js := m.2.2.2 / 256
  let dead := stOf s c == .dormant || stOf s c == .faulted
  let ok := bitAt (rhReg s c 0) 16 && r.fine && decide (r.posBound < 0xFFFF) && decide (r.speedBound < 0xFFFF) && decide (as ≠ 0) && decide (js ≠ 0) && !dead
  let bx : Rat := (r.posBound : Rat) / 16777216
  let bv : Rat := (r.speedBound : Rat) / 1024
  let v : Rat := (r.speed : Rat) / 65536
  let hi : Int := if ok then satS 32 ((bx + reachSide tr ar as js (v + bv)) * 65536).ceil else 0x7FFFFFFF
  let lo : Int := if ok then satS 32 (-(bx + reachSide tr ar as js (bv - v)) * 65536).floor else -0x80000000
  let s := modTk c (fun t => { t with record := { t.record with reachLo := lo, reachHi := hi } }) s
  modRh c (fun _ => { valid := ok, sat := decide (hi = 0x7FFFFFFF) || decide (lo = -0x80000000) }) s

/-! ### Committed changes (R292, R293) -/

/-- A ratio of R276. -/
def ratioOk (num : Int) (den : Nat) : Bool := decide (num ≠ 0) && decide (den ≠ 0) && decide (den ≤ num.natAbs) && decide (num.natAbs ≤ 4096 * den)

/-- A register of a snapshot stays and its shadow is reloaded, without a message. -/
def snapHold (off : Nat) (mask : Word) (r : List (Nat × Word) × State) : List (Nat × Word) × State :=
  let old := inF r.2 off
  (r.1.map (fun e => if e.1 = off then (off, keepBits old e.2 mask) else e), setShadow off (keepBits old (shadowOf r.2 off) mask) r.2)

/-- Several registers stay together with one message that names the first (R293). -/
def snapKeepAll (q u kind : Nat) (offs : List Nat) (r : List (Nat × Word) × State) : List (Nat × Word) × State :=
  match offs.filter (fun o => snapGet r.1 r.2 o != inF r.2 o) with
  | [] => r
  | o :: t => t.foldl (fun r o => snapHold o 0xFFFFFFFF r) (snapKeep q u kind o 0xFFFFFFFF r)

/-- The rules of R292 and R293 on a snapshot. -/
def jntSnap (r : List (Nat × Word) × State) : List (Nat × Word) × State :=
  let r := (List.range 512).foldl (fun r c =>
    let o := baseJNT + 0x40 * c
    let w := snapGet r.1 r.2 o
    let g := fld w 0 12
    if (w &&& 0x1FFF) ≠ (inF r.2 o &&& 0x1FFF) ∧ bitAt w 12 = true ∧ ¬(0x200 ≤ g ∧ g < 0x400 ∧ (entOf r.2 g).isSome = true) then
      snapKeep qJNT c 0x4C o 0x1FFF r
    else r) r
  (List.range 256).foldl (fun r l =>
    let o := baseJNT + 0x8000 + 0x40 * l
    let offs := [4, 8, 0x10, 0x14, 0x18, 0x1C].map (o + ·)
    let r := if stOf r.2 (0x500 + l) != .dormant then snapKeepAll qJNT (0x500 + l) 0x4C offs r else r
    if ratioOk (snapGet r.1 r.2 (o + 4)).toInt (snapGet r.1 r.2 (o + 8)).toNat then r
    else snapKeepAll qJNT (0x500 + l) 0x4C offs r) r

/-- Frame n after the extrapolation: gear links, preparation and reach (Table 1-2). -/
def jointsFrame (s : State) : State :=
  let s := doFor (ownLinks s) glFrame s
  let s := doFor (ownLinks s) absFrame s
  doFor (ownTrackers s) reachFrame s

end Sys2Proof.Machine
end

