-- ==== Sys2Proof/Machine/Inc.lean ====
section
/-! DEFINITION. Incremental ports, switches, encoder emulators, position compares and trigger outputs (spec/10). -/
namespace Sys2Proof.Machine

def ipReg (s : State) (p o : Nat) : Word := inF s (baseINC + 0x40 * p + o)

/-! ### Ports (R303 to R311) -/

/-- CPR (Table 10-7). -/
def cpr (s : State) (p : Nat) : Nat := let n := (ipReg s p 4).toNat; if n = 0 then 2 ^ 32 else n
def ipMode (s : State) (p : Nat) : Nat := fld (ipReg s p 0) 0 3
def ipCount (s : State) (p : Nat) (u : Int) : Nat := (u % cpr s p).toNat
def ipTurns (s : State) (p : Nat) (u : Int) : Int := signed 16 (unsig 16 (u / cpr s p))

/-- Counts of an accepted transition of A to `a` with B at `b` (Table 10-2). -/
def countA (mode : Nat) (a b : Bool) : Int :=
  match mode with
  | 1 => if b then 0 else if a then 1 else -1
  | 2 => if a == b then -1 else 1
  | 3 => if a == b then -1 else 1
  | 4 => if a then (if b then 1 else -1) else 0
  | 5 => if a then 1 else 0
  | _ => 0

/-- Counts of an accepted transition of B to `b` with A at `a`. -/
def countB (mode : Nat) (a b : Bool) : Int :=
  match mode with
  | 3 => if a == b then 1 else -1
  | 5 => if b then -1 else 0
  | _ => 0

/-- The port counts: listed and not DORMANT (Table 10-5, R330). -/
def portCounts (s : State) (p : Nat) : Bool := unitExists s (0x480 + p) && stOf s (0x480 + p) != .dormant

/-- One counting transition of `d` at timestamp `t`. -/
def countStep (p t : Nat) (d : Int) (s : State) : State :=
  if d = 0 then s
  else ledProduce 4 1 (modIp p (fun x => { x with u := x.u + d, dir := decide (0 < d), trans := (x.u + d, t) :: x.trans, held := x.held + 1 }) s)

/-- Counting of the transitions of one timestamp: levels read as before them (R305, R306). -/
def portCount (p t : Nat) (a b : Option Bool) (s : State) : State :=
  let x := ipOf s p
  let m := ipMode s p
  let sg (d : Int) : Int := if bitAt (ipReg s p 0) 8 then -d else d
  let chA := match a with | some v => v != x.a | none => false
  let chB := match b with | some v => v != x.b | none => false
  if chA && chB && decide (1 ≤ m ∧ m ≤ 3) then
    raiseFault qINC (0x480 + p) 0x50 (ipCount s p x.u) (modIp p (fun x => { x with
        now := { x.now with qeExtra := min 65535 (x.now.qeExtra + 2), qe := x.now.qe + 1 }, qeTotal := satInc 16 x.qeTotal }) s)
  else
    let s := if chA then countStep p t (sg (countA m (!x.a) x.b)) s else s
    if chB then countStep p t (sg (countB m x.a (!x.b))) s else s

/-- D: U - U_prev modulo 2^16 * CPR, signed (R310). -/
def idxDelta (s : State) (p : Nat) (u prev : Int) : Int :=
  let m : Int := (65536 * cpr s p : Nat)
  let d := (u - prev) % m
  if 2 * d < m then d else d - m

def idxNom (s : State) (p : Nat) : Int := ((ipReg s p 8).toNat : Int)
def idxTol (s : State) (p : Nat) : Int := (fld (ipReg s p 0xC) 0 16 : Int)

/-- The frame that holds timestamp `t`, which lies in the present frame or in the one before it; all ones before the first boundary (R25). -/
def stampFrame (s : State) (t : Nat) : Nat :=
  match s.time.frame with
  | some n => if (t : Int) < instOf s n then n - 1 else n
  | none => 2 ^ 64 - 1

/-- An index capture with timestamp `t` (R310). -/
def idxCapture (p t : Nat) (s : State) : State :=
  let x := ipOf s p
  let put (s : State) : State := modIp p (fun x => { x with
      cap := some (x.u, x.dir), capSkip := false, now := { x.now with caps := (x.now.caps + 1) % 65536 }, capFrame := stampFrame s t % 65536 }) s
  match x.cap with
  | none => put s
  | some c =>
    if idxNom s p = 0 ∨ x.capSkip = true then put s
    else
      let sgn : Int := if x.dir && c.2 then 1 else if !x.dir && !c.2 then -1 else 0
      let e := idxDelta s p x.u c.1 - sgn * idxNom s p
      let s := put (modIp p (fun x => { x with delta := satS 32 e }) s)
      if e.natAbs ≤ (idxTol s p).natAbs then
        clearCond (0x480 + p) 0x51 0 (clearCond (0x480 + p) 0x52 0
          (modIp p (fun x => { x with now := { x.now with qeExtra := 0, sigFault := false }, idxMiss := false, idxFail := false }) s))
      else
        raiseFault qINC (0x480 + p) 0x51 (unsig 32 (satS 32 e)) (markCond (0x480 + p) 0x51 0 true
          (modIp p (fun x => { x with now := { x.now with sigFault := true }, idxFail := true }) s))

/-- The watch for a missing index, once for each capture that is checked next (R311). -/
def idxWatch (p : Nat) (s : State) : State :=
  let x := ipOf s p
  match x.cap with
  | none => s
  | some c =>
    if idxNom s p ≠ 0 ∧ x.capSkip = false ∧ idxNom s p + idxTol s p < (idxDelta s p x.u c.1).natAbs then
      raiseFault qINC (0x480 + p) 0x52 (unsig 16 (ipTurns s p x.u)) (markCond (0x480 + p) 0x52 0 true
        (modIp p (fun x => { x with idxMiss := true, now := { x.now with sigFault := true }, capSkip := true }) s))
    else s

/-- IDX_GATE (Table 10-8). -/
def idxGate (s : State) (p : Nat) (a b : Bool) : Bool :=
  match fld (ipReg s p 0) 4 2 with
  | 0 => true | 1 => a && b | 2 => a | _ => b

/-- FILT_N samples of the I/O grid, in ns (Table 10-8). -/
def filtNs (s : State) (p : Nat) : Nat := max 1 (fld (ipReg s p 0) 24 8) * 5

/-- What the filter lets through of an input at `lvl` with its last transition accepted at `last`: a level that lasted fewer than FILT_N
samples is ignored, and with it the change that began it (R303). -/
def filtered (w t : Nat) (lvl : Bool) (last : Option Nat) (v : Option Bool) : Option Bool :=
  match v with
  | none => none
  | some v => if v == lvl || last.any (fun l => decide (t < l + w)) then none else some v

/-- The view after timestamp `t` is kept where it changed. -/
def portView (t : Nat) (x : IpSt) : IpSt :=
  let old := match x.views with | v :: _ => v.2 | [] => x.view0
  if x.now == old then x else { x with views := (t, x.now) :: x.views }

/-- The transitions accepted with timestamp `t`: levels after inversion. An index capture at it sees the levels and the count after
its other transitions (R337). -/
def portTransition (p t : Nat) (a b z : Option Bool) (s : State) : State :=
  let x := ipOf s p
  let w := filtNs s p
  let a := filtered w t x.a x.accA a
  let b := filtered w t x.b x.accB b
  let z := filtered w t x.z x.accZ z
  let on := portCounts s p
  let s := if on then portCount p t a b s else s
  let rise := match z with | some v => v && !x.z | none => false
  let s := modIp p (fun x => { x with
      a := a.getD x.a, b := b.getD x.b, z := z.getD x.z
      accA := if a.isSome then some t else x.accA, accB := if b.isSome then some t else x.accB, accZ := if z.isSome then some t else x.accZ }) s
  let y := ipOf s p
  let s := if on && rise && idxGate s p y.a y.b then idxCapture p t s else s
  if on then modIp p (portView t) (idxWatch p s) else s

/-- PORT_TRANSITION_ACCEPTED: all transitions of port `p` that carry timestamp `t`. -/
def execPortTransitionAccepted (p : Fin 32) (t : Nat) (a b z : Option Bool) (s : State) : Host.Outcome State Fault Refusal :=
  .next (if deviceUp s then portTransition p.val t a b z s else s)

/-- What a port keeps where its count starts again: its inputs, QERR's total, the frame of the last latch. -/
def portPins (x : IpSt) : IpSt :=
  { a := x.a, b := x.b, z := x.z, accA := x.accA, accB := x.accB, accZ := x.accZ, qeTotal := x.qeTotal, latFrame := x.latFrame }

/-- A port enters PREPARING: it counts from 0 (Table 10-5). -/
def portPrepare (p : Nat) (s : State) : State :=
  let x := ipOf s p
  let s := ledDrop 4 x.held (0x480 + p) s
  modUnit (0x480 + p) (fun z => { z with prepDone := true })
    (clearConds (0x480 + p) (modIp p (fun x => { portPins x with record := x.record }) s))

/-- A port enters DORMANT. -/
def portDormant (p : Nat) (s : State) : State :=
  let x := ipOf s p
  clearConds (0x480 + p) (modIp p portPins (ledDrop 4 x.held (0x480 + p) s))

/-- A changed inversion inverts the accepted level; it counts nothing (R303). -/
def portInvert (p : Nat) (old new : Word) : State → State :=
  modIp p (fun x => { x with a := x.a != (bitAt old 9 != bitAt new 9), b := x.b != (bitAt old 10 != bitAt new 10), z := x.z != (bitAt old 11 != bitAt new 11) })

/-- SPD_WIN in ns. -/
def spdWin (s : State) (p : Nat) : Nat := max 1 (fld (ipReg s p 0) 16 8) * tf s

/-- The unwrapped count at `tn` ns. -/
def countAt (x : IpSt) (tn : Int) : Int :=
  match x.trans.find? (fun e => decide ((e.2 : Int) ≤ tn)) with | some e => e.1 | none => x.base

/-- Speed and exact speed bound in rev/s (R309). Two transitions of one timestamp leave the speed unstated (log 1). -/
def portSpeed (s : State) (p : Nat) (tn : Int) : Rat × Rat :=
  let x := ipOf s p
  let w := x.trans.filter (fun e => decide ((e.2 : Int) ≤ tn) && decide (tn - spdWin s p ≤ e.2))
  let c : Rat := (cpr s p : Rat)
  let win : Rat := (spdWin s p : Rat) / 1000000000
  match w, w.getLast? with
  | e1 :: _ :: _, some e0 =>
    if e1.2 = e0.2 then ((Config.openNat 1 p : Nat), (Config.openNat 2 p : Nat))
    else
      let dt : Rat := ((e1.2 - e0.2 : Nat) : Rat) / 1000000000
      let v := ((e1.1 - e0.1 : Int) : Rat) / (c * dt)
      (v, rAbs v / 100000000 / dt + 1 / (c * win))
  | _, _ => (0, 2 / (c * win))

/-- The port's record of the frame at `tn` ns, with what stood at that instant, and the latch of its count (R307, R308). Transitions of the longest
SPD_WIN stay, for a window that a COMMIT makes longer. -/
def portRecord (p n : Nat) (tn : Int) (s : State) : State :=
  let x := ipOf s p
  let c := cpr s p
  let u := countAt x tn
  let frac : Nat := ipCount s p u * 4294967296 / c
  let sp := portSpeed s p tn
  let y := match x.views.find? (fun e => decide ((e.1 : Int) ≤ tn)) with | some e => e.2 | none => x.view0
  let pb := min 0xFFFF (ceilDiv ((1 + y.qeExtra) * 16777216) c)
  let vb := min 0xFFFF ((sp.2 + 1 / 131072) * 1024).ceil.toNat
  let op := operates s (0x480 + p)
  let newest := match x.trans.find? (fun e => decide ((e.2 : Int) ≤ tn)) with | some e => some e.2 | none => x.baseT
  let dorm := stOf s (0x480 + p) == .dormant
  let r : ChRec := {
    pos := ipTurns s p u * 4294967296 + (frac : Int)
    speed := satS 32 (roundAway (sp.1 * 65536))
    coarse := frac
    posBound := pb, speedBound := vb
    quad := min 0x7FFF (y.qe - x.qeShown)
    fine := op, coarseOk := op
    sigFault := y.sigFault, boundSat := pb == 0xFFFF || vb == 0xFFFF
    age := if dorm then 0xFFFFFFFF else match newest with | some t => satU 32 (tn - t) | none => 0xFFFFFFFF
    ext0 := ipCount s p u
    ext1 := y.caps * 65536 + unsig 16 (ipTurns s p u) }
  let after := (x.trans.filter (fun e => decide (tn < (e.2 : Int)))).length
  let far : Int := tn - (255 * tf s : Nat)
  let keep := x.trans.filter (fun e => decide (far ≤ (e.2 : Int)))
  let cut := x.trans.find? (fun e => decide ((e.2 : Int) < far))
  let used := x.held - after
  ledConsume 4 used (modIp p (fun x => { x with
      record := r, latU := u, latFrame := n % 65536, held := x.held - used
      views := x.views.filter (fun e => decide (tn < (e.1 : Int))), view0 := y, qeShown := y.qe
      trans := keep
      base := match cut with | some e => e.1 | none => x.base
      baseT := match cut with | some e => some e.2 | none => x.baseT }) s)

/-- Ports that the tree lists on this device. -/
def ownPorts (s : State) : List Nat := ((ownTines s).filter (fun u => decide (0x480 ≤ u ∧ u < 0x4A0))).map (· - 0x480)

/-! ### Switches (R312 to R314) -/

/-- SW_CFG. -/
def swCfg (s : State) (k : Nat) : Word := inF s (baseINC + 0xD000 + 4 * k)

/-- The sample of a pin at `level`, after INVERT (R312). -/
def swSample (s : State) (k : Nat) (level : Bool) : Bool := level != bitAt (swCfg s k) 0

/-- DEB_N in force (Table 10-10). -/
def debN (s : State) (k : Nat) : Nat := max 1 (fld (swCfg s k) 16 16)

/-- `n` more samples have shown level `v`: DEB_N of a run make it the debounced level (R312). -/
def swShow (deb n : Nat) (v : Bool) (x : SwSt) : SwSt :=
  let run := min 65535 (n + (if x.raw == v then x.run else 0))
  { x with raw := v, run, level := if deb ≤ run then v else x.level }

/-- A raw sample; where it differs from the one before it is a transition, and the first after an L0 reset is the reference. `level` is that of
the pin. A command that repeats the level brings one more sample that shows it (DESIGN CHOICE, log 99). -/
def switchRaw (k : Nat) (level : Bool) (s : State) : State :=
  let v := swSample s k level
  modSw k (fun x => swShow (debN s k) 1 v
    { x with seen := true, trans := if x.seen && x.raw != v then x.trans + 1 else x.trans }) s

/-- SWITCH_RAW_TRANSITION. -/
def execSwitchRawTransition (k : Fin 64) (level : Bool) (s : State) : Host.Outcome State Fault Refusal :=
  .next (switchRaw k.val level s)

/-- The samples that DEB_N still lacks have come, with the pin at `level`, the level of the last raw sample. DESIGN CHOICE, log 99: no command
brings each of them. -/
def switchChange (k : Nat) (level : Bool) (s : State) : State :=
  let v := swSample s k level
  modSw k (fun x => if x.seen && x.raw == v then swShow (debN s k) (debN s k - x.run) v x else x) s

/-- SWITCH_DEBOUNCE_CHANGE. -/
def execSwitchDebounceChange (k : Fin 64) (level : Bool) (s : State) : Host.Outcome State Fault Refusal :=
  .next (switchChange k.val level s)

/-- A chatter window ends for switch `k` (R313). -/
def chatEnd (k : Nat) (s : State) : State :=
  let th := fld (swCfg s k) 8 8
  let n := (swOf s k).trans
  let chat := decide (th ≠ 0 ∧ th < n)
  let s := modSw k (fun x => { x with chat, trans := 0 }) s
  if chat && deviceUp s && unitExists s (0x640 + k) then raiseFault qINC (0x640 + k) 0x53 (n % 65536) s else s

/-- CHAT_WINDOW_END. -/
def execChatWindowEnd (s : State) : Host.Outcome State Fault Refusal := .next (doFor (List.range 64) chatEnd s)

/-- A boundary latches the debounced level (R18). -/
def switchLatch (k : Nat) : State → State := modSw k (fun x => { x with latched := x.level })

/-- Preparation completes after DEB_N samples since entry (Table 10-5). -/
def switchPrep (k : Nat) (tn : Int) (s : State) : State :=
  if stOf s (0x640 + k) == .preparing && decide (((swOf s k).prepAt + 1000 * debN s k : Nat) ≤ tn) then
    modUnit (0x640 + k) (fun z => { z with prepDone := true }) s
  else s

/-! ### Records by unit -/

/-- The record of a tracker or port unit. -/
def recOf (s : State) (u : Nat) : ChRec := if u < 0x200 then (tkOf s u).record else (ipOf s (u - 0x480)).record

/-- The record of a tracker in DORMANT (spec/08 R263). -/
def restRec (s : State) (c : Nat) : ChRec := { sigFault := sliceHeld s (c / 64), ext0 := (tkOf s c).ext0, ext1 := (tkOf s c).ext1 }

/-- The record that the block shows: of a tracker that a joining twin prepares inside, that of DORMANT (spec/14 R464). -/
def shownRec (s : State) (u : Nat) : ChRec := if hiddenUnit s u then restRec s u else recOf s u

/-- The status word of a channel or port record (spec/12 Table 12-6). -/
def chStatus (s : State) (u : Nat) : Word :=
  let r := shownRec s u
  let t := twinResOf s u
  wordN (u * 2 ^ 20 + flag r.cal 11 + (if u < 0x200 then flag t.present 10 + flag t.agree 9 else 0) + flag r.boundSat 8
    + flag r.sigFault 7 + flag r.coast 6 + flag r.fine 5 + flag r.coarseOk 4 + (unitOf s u).recSt.code)

/-! ### Emulators (R315 to R319) -/

def emEdgeMin (s : State) (e : Nat) : Nat := max 10 (fld (emReg s e 8) 0 16)

/-- Queue length. -/
def emLen (x : EmSt) : Nat := x.queue.foldl (fun n r => n + r.2) 0

/-- E_n from the source record's position (R315). -/
def emTarget (s : State) (e : Nat) (pos : Int) : Int :=
  let t := signed 48 (unsig 48 pos) * (4 * emLines s e : Nat) / 4294967296
  if bitAt (emReg s e 0) 4 then -t else t

/-- Edges of one direction appended to the queue. -/
def emAppend (up : Bool) (n : Nat) (q : List (Bool × Nat)) : List (Bool × Nat) :=
  if n = 0 then q
  else match q.getLast? with
    | some l => if l.1 == up then q.dropLast ++ [(up, l.2 + n)] else q ++ [(up, n)]
    | none => [(up, n)]

/-- Admission toward the target (R316). -/
def emAdmit (e : Nat) (t : Int) (s : State) : State :=
  let x := emOf s e
  let n := min (t - x.target).natAbs (65535 - emLen x)
  let up := decide (x.target < t)
  let left := (t - x.target).natAbs - n
  let s := ledProduce 5 n (modEm e (fun x => { x with
      queue := emAppend up n x.queue, target := if up then x.target + n else x.target - n, full := decide (left ≠ 0) }) s)
  setCond qINC (0x4A0 + e) 0x54 0 (decide (left ≠ 0)) (min left 65535) s

/-- Record ready of a frame for emulator `e`, at an instant from `ready` to `readyBy`. -/
def emFrame (e ready readyBy : Nat) (s : State) : State :=
  let u := 0x4A0 + e
  match wireAt s u 0 with
  | none => s
  | some w =>
    let r := recOf s w.source
    let t := emTarget s e r.pos
    let st := stOf s u
    let s :=
      if st == .preparing then
        if r.fine && !(emOf s e).formed then
          modUnit u (fun z => { z with prepDone := true }) (modEm e (fun x => { x with target := t, emitted := t, formed := true }) s)
        else s
      else if operates s u then
        let bad := !r.fine || !operates s w.source
        let s := setCond qINC u 0x55 0 bad w.source (modEm e (fun x => { x with invalid := bad }) s)
        if bad then s else emAdmit e t s
      else s
    modEm e (fun x =>
      let q := emLen x
      let m := emEdgeMin s e * 5
      { x with ready, readyBy, spacing := if q = 0 then Config.openNat 3 e else max m (tf s / q / 5 * 5) }) s

/-- The oldest queued edge is due at `t`: the later of record ready and the previous edge plus s_n, record ready taken anywhere in its
window until an edge has shown it past (R317; log 101). -/
def emDue (x : EmSt) (t : Nat) : Bool :=
  let d := x.last + x.spacing
  decide (max x.ready d ≤ t) && decide (t ≤ max x.readyBy d)

/-- The oldest queued edge is emitted at `t` (R317, R318). -/
def emEdge (e t : Nat) (s : State) : State :=
  let x := emOf s e
  if operates s (0x4A0 + e) && emDue x t then
    match x.queue with
    | [] => s
    | (up, n) :: rest =>
      let ne := if up then x.emitted + 1 else x.emitted - 1
      emit (.edge e ne t) (ledConsume 5 1 (modEm e (fun x => { x with
          queue := if n ≤ 1 then rest else (up, n - 1) :: rest, emitted := ne, last := t, readyBy := min x.readyBy t }) s))
  else s

/-- EMULATOR_EDGE. -/
def execEmulatorEdge (e : Fin 16) (t : Nat) (s : State) : Host.Outcome State Fault Refusal :=
  .next (if deviceUp s then emEdge e.val t (setNow t s) else s)

/-- The queue is emptied, its edges dropped (Table 10-5, R329). -/
def emEmpty (e : Nat) (s : State) : State :=
  let n := emLen (emOf s e)
  modEm e (fun x => { x with queue := [] }) (ledDrop 5 n (0x4A0 + e) s)

/-- An emulator enters PREPARING or DORMANT. -/
def emPrepare (e : Nat) (s : State) : State :=
  clearConds (0x4A0 + e) (modEm e (fun x => { x with formed := false, full := false, invalid := false }) (emEmpty e s))

/-! ### Compares (R320 to R326) -/

/-- The unit of compare `k`, and its index on the unit. -/
def cmpUnit (k : Nat) : Nat := if k < 1024 then k / 2 else 0x480 + (k - 1024) / 2
def cmpBase (k : Nat) : Nat := baseINC + (if k < 1024 then 0x4000 + 0x20 * k else 0xC000 + 0x20 * (k - 1024))
def cmpCtrl (s : State) (k : Nat) : Word := inF s (cmpBase k)
/-- V in 2^-32 rev, bits [47:0]. -/
def cmpVal (s : State) (k : Nat) : Int :=
  signed 48 ((inF s (cmpBase k + 4)).toNat + 2 ^ 32 * ((inF s (cmpBase k + 8)).toNat % 65536))
/-- 0 POS, 1 NEG, 2 EITHER. -/
def cmpDir (s : State) (k : Nat) : Nat := min 2 (fld (cmpCtrl s k) 0 2)

/-- Position `x` is on or past V in the direction. -/
def pastV (dir : Nat) (x v : Int) : Bool := if dir = 0 then decide (v ≤ x) else decide (x ≤ v)

/-- TG_OFS in force, on the I/O grid (Table 10-7). -/
def tgOfs (s : State) (k : Nat) : Int :=
  let v := max (-50000) (min 1000000 (inF s (baseINC + 0xE800 + 0x20 * k + 4)).toInt)
  roundAway ((v : Rat) / 5) * 5

/-- Trigger `k` takes the events of compare `c`. -/
def trigTakes (s : State) (k c : Nat) : Bool :=
  match wireAt s (0x4B0 + k) 0 with
  | some w => w.source == cmpUnit c && bitAt (inF s (baseINC + 0xE800 + 0x20 * k)) (c % 2)
  | none => false

/-- CMP_LEAD (R322). -/
def cmpLead (s : State) (c : Nat) : Nat :=
  (List.range 16).foldl (fun m k => if trigTakes s k c then max m (-(tgOfs s k)).toNat else m) 0

/-- A firing that has not occurred is withdrawn with the pulses of it; those of an earlier firing stay. -/
def withdraw (c : Nat) (s : State) : State :=
  match (cmpOf s c).firing with
  | none => s
  | some f =>
    doFor (List.range 16) (fun k => modTg k (fun t => { t with starts := t.starts.filter (fun e => !(e.cmp == c && e.tf == f.t)) }))
      (modCmp c (fun x => { x with firing := none }) s)

/-- A COMMIT, WRITE record or SETTINGS wrote the compare's registers at a boundary (R321). -/
def cmpWritten (c : Nat) (ctrl : Bool) (s : State) : State :=
  if bitAt (cmpCtrl s c) 4 then
    modCmp c (fun x => { x with armed := true, fired := false, late := false, behind := false, tested := false, waitBack := false }) (withdraw c s)
  else if ctrl then modCmp c (fun x => { x with armed := false }) (withdraw c s) else s

/-- The source leaves ACTIVE and HOLDING: firings that have not occurred are withdrawn (R338). -/
def cmpSourceLeft (u : Nat) (s : State) : State :=
  let c := if u < 0x200 then 2 * u else 1024 + 2 * (u - 0x480)
  withdraw (c + 1) (withdraw c s)

/-- The earliest crossing time in s after the frame instant, upward through 0, of d + v t + a t^2 / 2 (R323). -/
def crossUp (d v a : Rat) : Option Rat :=
  if a = 0 then
    if 0 < v ∧ d < 0 then some (-d / v) else none
  else
    let q := v * v - 2 * a * d
    if q < 0 ∨ (0 < a ∧ q = 0) then none
    else
      let t := (-v + sqrtQ q) / a
      if 0 < t then some t else none

/-- The crossing of the frame's record in the compare's direction, in s. -/
def cmpCross (s : State) (c : Nat) (r : ChRec) : Option Rat :=
  let d := rev32 (r.pos - cmpVal s c)
  let v : Rat := (r.speed : Rat) / 65536
  let a : Rat := if c < 1024 then (r.acc : Rat) / 256 else 0
  let up := crossUp d v a
  let dn := crossUp (-d) (-v) (-a)
  match cmpDir s c with
  | 0 => up
  | 1 => dn
  | _ => match up, dn with | some x, some y => some (min x y) | some x, none => some x | none, y => y

/-- A time uncertainty in ns, rounded up (R326). -/
def cmpDt (bound : Nat) (v : Rat) : Nat :=
  if bound = 0xFFFF ∨ v = 0 then 2 ^ 32 - 1
  else min (2 ^ 32 - 1) (((bound : Rat) / 16777216) / rAbs v * 1000000000).ceil.toNat

/-- A firing is placed, with the pulses of its triggers (R326, R327). `te` is the take-effect instant of the schedule. -/
def placeFiring (c n te : Nat) (t : Nat) (tc : Option Nat) (late : Bool) (dt : Nat) (s : State) : State :=
  let st := chStatus s (cmpUnit c) ||| wordN (flag late 13)
  let s := modCmp c (fun x => { x with firing := some { t, tc, late, frame := n, dt, status := st } }) s
  doFor ((List.range 16).filter (fun k => trigTakes s k c)) (fun k s =>
    let b := ((t : Int) + tgOfs s k).toNat
    let b := if late then max b te else b
    modTg k (fun x => { x with starts := sortBy (fun a b => decide (a.start < b.start)) (x.starts ++ [{ start := b, cmp := c, tf := t }]) }) s) s

/-- REARM (R325), judged on the record of frame `n`: of a firing at or before its boundary. -/
def cmpRearm (c n : Nat) (r : ChRec) (s : State) : State :=
  let x := cmpOf s c
  let v := cmpVal s c
  let h : Int := ((inF s (cmpBase c + 0xC)).toNat * 256 : Nat)
  let clear := match cmpDir s c with
    | 0 => decide (r.pos ≤ v - h) | 1 => decide (v + h ≤ r.pos) | _ => decide (h ≤ (r.pos - v).natAbs)
  if x.fired && !x.armed && bitAt (cmpCtrl s c) 5 && r.fine && clear && decide ((x.time : Int) ≤ instOf s n) then
    modCmp c (fun x => { x with armed := true, fired := false, late := false, behind := false, tested := true, waitBack := false }) s
  else s

/-- The behind test of a freshly armed compare (R321): kind 0x56, and with LATE_FIRE a late firing. -/
def cmpBehind (c n te : Nat) (r : ChRec) (s : State) : State :=
  let dir := cmpDir s c
  let bh := decide (dir ≠ 2) && pastV dir r.pos (cmpVal s c)
  let s := modCmp c (fun x => { x with tested := true, behind := bh, waitBack := bh }) s
  if !bh then s
  else
    let s := raiseFault qINC (cmpUnit c) 0x56 (c % 2) s
    if bitAt (cmpCtrl s c) 6 then placeFiring c n te te none true (cmpDt r.posBound ((r.speed : Rat) / 65536)) s else s

/-- t_c of a crossing `tau` s after `tn` ns: computed within 1 ns of the exact root, then the nearest instant of the I/O grid (R323; log 100). -/
def crossTime (tn : Nat) (tau : Rat) : Nat :=
  (nearest (((tn : Rat) + tau * 1000000000 + max (-1) (min 1 (Config.crossErr tau))) / 5) * 5).toNat

/-- Schedule `n` of an armed, eligible compare with no standing firing (R323, R324). -/
def cmpPlace (c n te : Nat) (r : ChRec) (prevPos : Int) (s : State) : State :=
  let lead := cmpLead s c
  let dir := cmpDir s c
  let v := cmpVal s c
  let tn := (instOf s n).toNat
  let vn : Rat := (r.speed : Rat) / 65536
  let an : Rat := if c < 1024 then (r.acc : Rat) / 256 else 0
  let passed := if dir = 2 then (pastV 0 r.pos v && !pastV 0 prevPos v) || (pastV 1 r.pos v && !pastV 1 prevPos v)
    else pastV dir r.pos v && !pastV dir prevPos v
  let late (s : State) : State :=
    if passed then placeFiring c n te te none true (cmpDt r.posBound vn) s else s
  match cmpCross s c r with
  | some tau =>
    let tc := crossTime tn tau
    if tc < te + lead then placeFiring c n te (max tc te) (some tc) true (cmpDt r.posBound vn) s
    else if passed then late s
    else if tc < te + lead + tf s then placeFiring c n te tc (some tc) false (cmpDt r.posBound (vn + an * tau)) s
    else s
  | none => late s

/-- Schedule `n` takes effect for compare `c` (R320 to R325). -/
def cmpSchedule (n : Nat) (c : Nat) (s : State) : State :=
  let u := cmpUnit c
  let r := recOf s u
  let te := (instOf s n).toNat + 6000
  let lead := cmpLead s c
  let s := match (cmpOf s c).firing with
    | some f => if te + lead ≤ f.t then withdraw c s else s
    | none => s
  let prev := if u < 0x200 then (tkOf s u).prevPos else (ipOf s (u - 0x480)).prevPos
  let s := cmpRearm c n r s
  let x := cmpOf s c
  let elig := (stOf s u == .active || stOf s u == .holding) && r.fine
  if !x.armed || !elig then s
  else
    let s := if x.tested then s else cmpBehind c n te r s
    let x := cmpOf s c
    if x.firing.isSome then s
    else if x.waitBack then
      if pastV (cmpDir s c) r.pos (cmpVal s c) then s
      else cmpPlace c n te r prev (modCmp c (fun x => { x with waitBack := false }) s)
    else cmpPlace c n te r prev s

/-- Compares of the listed trackers and ports. -/
def ownCompares (s : State) : List Nat :=
  ((ownTrackers s).map (fun c => [2 * c, 2 * c + 1])).flatten ++ ((ownPorts s).map (fun p => [1024 + 2 * p, 1025 + 2 * p])).flatten

/-- COMPARE_SCHEDULE: the schedule of the present frame takes effect. -/
def execCompareSchedule (s : State) : Host.Outcome State Fault Refusal :=
  .next (if deviceUp s && s.time.frame.isSome then doFor (ownCompares s) (cmpSchedule (frameN s)) s else s)

/-- The 32 bytes of a compare event (spec/12 Table 12-10). -/
def cmpEventBytes (c : Nat) (behind : Bool) (v : Int) (f : Firing) : List Byte :=
  [0x01, BitVec.ofNat 8 (flag behind 1 + c % 2)] ++ leBytes 2 (cmpUnit c) ++ leBytes 4 f.status.toNat ++ leBytes 8 f.t
    ++ leBytes 4 (match f.tc with | some tc => unsig 32 (satS 32 ((tc : Int) - f.t)) | none => 0x80000000)
    ++ leBytes 4 f.dt ++ leBytes 6 (unsig 48 v) ++ leBytes 2 (f.frame % 65536)

/-- The scheduled firing of compare `c` occurs (R325, R326). -/
def cmpFire (c : Nat) (s : State) : State :=
  match (cmpOf s c).firing with
  | none => s
  | some f =>
    let x := cmpOf s c
    let s := modCmp c (fun x => { x with
        firing := none, armed := false, fired := true, late := f.late, waitBack := false, time := f.t, count := (x.count + 1) % 2 ^ 32 }) s
    let s := addEvent f.t (cmpEventBytes c x.behind (cmpVal s c) f) s
    if f.late then
      let d := match f.tc with | some tc => min 0xFFFFFF (f.t - tc) | none => 0xFFFFFF
      raiseFault qINC (cmpUnit c) 0x57 (d * 256 + c % 2) s
    else s

/-- COMPARE_FIRE. -/
def execCompareFire (k : Fin 1088) (s : State) : Host.Outcome State Fault Refusal :=
  .next (if deviceUp s then cmpFire k.val s else s)

/-! ### Triggers (R327, R328) -/

def tgWidth (s : State) (k : Nat) : Nat := max 1 (fld (inF s (baseINC + 0xE800 + 0x20 * k)) 16 16) * 5

/-- The next pulse of trigger `k` would begin: one for all firings of that instant (R328). A trigger that is not ACTIVE counts each of them
(R327). -/
def pulseStart (k : Nat) (s : State) : State :=
  match (tgOf s k).starts with
  | [] => s
  | q :: _ =>
    let b := q.start
    let x := tgOf s k
    let m := (x.starts.filter (fun e => e.start == b)).length
    let s := modTg k (fun x => { x with starts := x.starts.filter (fun e => e.start != b) }) s
    if stOf s (0x4B0 + k) == .active then
      let e := if x.asserted then max x.endAt (b + tgWidth s k) else b + tgWidth s k
      let s := modTg k (fun x => { x with asserted := true, endAt := e, pulses := satInc 16 x.pulses, last := b }) s
      if x.asserted then raiseFault qINC (0x4B0 + k) 0x58 (b % 2 ^ 32) s else emit (.trig k (!tgPol s k)) s
    else modTg k (fun x => { x with suppressed := min 255 (x.suppressed + m) }) s

/-- TRIGGER_PULSE_START. -/
def execTriggerPulseStart (k : Fin 16) (s : State) : Host.Outcome State Fault Refusal :=
  .next (if deviceUp s then pulseStart k.val s else s)

/-- The assertion ends. -/
def pulseEnd (k : Nat) (s : State) : State :=
  if (tgOf s k).asserted then emit (.trig k (tgPol s k)) (modTg k (fun x => { x with asserted := false }) s) else s

/-- TRIGGER_PULSE_END. -/
def execTriggerPulseEnd (k : Fin 16) (s : State) : Host.Outcome State Fault Refusal := .next (pulseEnd k.val s)

/-! ### Committed changes (R336) -/

def incSnap (r : List (Nat × Word) × State) : List (Nat × Word) × State :=
  let chg (r : List (Nat × Word) × State) (off : Nat) (m : Word) : Bool := (snapGet r.1 r.2 off &&& m) != (inF r.2 off &&& m)
  let r := (List.range 32).foldl (fun r p =>
    if stOf r.2 (0x480 + p) == .dormant then r
    else
      let o := baseINC + 0x40 * p
      let r := if chg r o 0x107 then snapKeep qINC (0x480 + p) 0x59 o 0x107 r else r
      if chg r (o + 4) 0xFFFFFFFF then snapKeep qINC (0x480 + p) 0x59 (o + 4) 0xFFFFFFFF r else r) r
  (List.range 16).foldl (fun r e =>
    if stOf r.2 (0x4A0 + e) == .dormant then r
    else
      let o := baseINC + 0xE000 + 0x40 * e
      let r := if chg r o 0x10 then snapKeep qINC (0x4A0 + e) 0x59 o 0x10 r else r
      if linesOf (snapGet r.1 r.2 (o + 4)) ≠ linesOf (inF r.2 (o + 4)) then snapKeep qINC (0x4A0 + e) 0x59 (o + 4) 0xFFFFFFFF r else r) r

/-! ### Frame n after the engines complete (Table 1-2) -/

/-- Extrapolation of the trackers, port records, joints, the governor's selections and auxiliary records of the present frame. -/
def frameMeasure (s : State) : State :=
  let n := frameN s
  let half := 2 * instOf s n
  let s := doFor (ownTrackers s) (fun c => trackerRecord c half) s
  let s := doFor (ownPorts s) (fun p s =>
    let old := (ipOf s p).record.pos
    modIp p (fun x => { x with prevPos := old }) (portRecord p n (instOf s n) s)) s
  let s := jointsFrame s
  let s := doFor ((ownTines s).filter (fun u => kindOf u == 7)) (fun u => governor (u - 0x4C0) n) s
  doFor ((ownTines s).filter (fun u => decide (0x400 ≤ u ∧ u < 0x480) && stOf s u != .dormant)) (fun u => auxRecord (u - 0x400) half) s

/-- TRACKER_EXTRAPOLATION. -/
def execTrackerExtrapolation (s : State) : Host.Outcome State Fault Refusal :=
  .next (if deviceUp s && s.time.frame.isSome then frameMeasure s else s)

end Sys2Proof.Machine
end

