-- ==== Sys2Proof/Machine/Plan.lean ====
section
/-! DEFINITION. Jerk-limited plans of the profile generators (spec/11 R347 to R350, R353, R664): moves in whole frames, changes of speed,
replans from motion. A plan is a list of segments: length in s, jerk in rev/s3, phase code. -/
namespace Sys2Proof.Machine

/-- The least n that meets a monotone condition, below 2^bits. -/
def leastNat (p : Nat → Bool) : Nat → Nat → Nat
  | 0, n => n
  | b + 1, n => if p (n + 2 ^ b - 1) then leastNat p b n else leastNat p b (n + 2 ^ b)

/-- Position, speed and acceleration after `t` seconds at jerk `j`. -/
def jerkStep (p v a j t : Rat) : Rat × Rat × Rat :=
  (p + v * t + a * t * t / 2 + j * t * t * t / 6, v + a * t + j * t * t / 2, a + j * t)

/-- A move of R347 over distance `d`: durations of a minimum-time move rounded up to whole frames of `t` seconds, then the jerk. -/
def moveSegs (d V A J t : Rat) : List (Rat × Rat × Nat) :=
  let m := rAbs d
  let up (q : Rat) : Nat := (q / t).ceil.toNat
  let n : Nat × Nat × Nat :=
    if A * A ≤ V * J ∧ V * (A / J + V / A) ≤ m then (up (A / J), up (V / A - A / J), up (m / V - A / J - V / A))
    else if V * J < A * A ∧ 4 * V * V * V ≤ m * m * J then
      (leastNat (fun n => decide (V ≤ J * (n * t) * (n * t))) 40 0, 0,
       leastNat (fun n => decide (m / V ≤ n * t) || decide ((m / V - n * t) * (m / V - n * t) * J ≤ 4 * V)) 40 0)
    else if A * A ≤ V * J ∧ 2 * A * A * A ≤ m * J * J then
      (up (A / J), leastNat (fun n => decide (m ≤ A * (A / J + n * t) * (2 * A / J + n * t))) 40 0, 0)
    else (leastNat (fun n => decide (m ≤ 2 * J * (n * t) * (n * t) * (n * t))) 40 0, 0, 0)
  if d = 0 then [] else
  let tj : Rat := n.1 * t
  let ta : Rat := n.2.1 * t
  let tv : Rat := n.2.2 * t
  let j := d / (tj * (tj + ta) * (2 * tj + ta + tv))
  [(tj, j, 1), (ta, 0, 2), (tj, -j, 3), (tv, 0, 4), (tj, -j, 5), (ta, 0, 6), (tj, j, 7)].filter (fun e => decide (0 < e.1))

/-- The side to which the speed has to go: that of `vt` from the speed left once the acceleration has been brought to 0. -/
def speedDir (v a vt J : Rat) : Rat := if v + a * rAbs a / (2 * J) ≤ vt then 1 else -1

/-- Times of a least-time change of speed to `vt` from an acceleration within `A`: jerk, constant acceleration, jerk back. -/
def speedTimes (v a vt A J : Rat) : Rat × Rat × Rat :=
  let d := speedDir v a vt J
  let b := d * a
  let dv := d * (vt - v)
  let h := J * dv + b * b / 2
  if h ≤ A * A then (let p := sqrtQ h; ((p - b) / J, 0, p / J))
  else ((A - b) / J, (dv - (2 * A * A - b * b) / (2 * J)) / A, A / J)

/-- A jerk-limited change of speed to `vt` within acceleration `A` and jerk `J`; an acceleration beyond `A` falls first (R350, R353,
R664). `c` is the phase code. The spec states no whole-frame rule for it (log 14). -/
def velSegs (v a vt A J : Rat) (c : Nat) : List (Rat × Rat × Nat) :=
  let sg : Rat := if a < 0 then -1 else 1
  let ovl := decide (A < rAbs a)
  let pre : List (Rat × Rat × Nat) := if ovl then [((rAbs a - A) / J, -sg * J, c)] else []
  let a1 := if ovl then sg * A else a
  let v1 := if ovl then v + sg * (a * a - A * A) / (2 * J) else v
  let n := speedTimes v1 a1 vt A J
  let d := speedDir v1 a1 vt J
  (pre ++ [(n.1, d * J, c), (n.2.1, 0, c), (n.2.2, -d * J, c)]).filter (fun e => decide (0 < e.1))

/-- The state at the end of a list of segments. -/
def runAll (segs : List (Rat × Rat × Nat)) (p v a : Rat) : Rat × Rat × Rat :=
  segs.foldl (fun e g => jerkStep e.1 e.2.1 e.2.2 g.2.1 g.1) (p, v, a)

/-- `t` seconds of a plan: what is left, and position, speed, acceleration and phase code at its end. -/
def runPlan : List (Rat × Rat × Nat) → Rat → Rat → Rat → Rat → Nat → List (Rat × Rat × Nat) × Rat × Rat × Rat × Nat
  | [], t, p, v, _, c => ([], p + v * t, v, 0, c)
  | (d, j, k) :: rest, t, p, v, a, c =>
    if t = 0 then ((d, j, k) :: rest, p, v, a, c)
    else if t < d then
      let e := jerkStep p v a j t
      ((d - t, j, k) :: rest, e.1, e.2.1, e.2.2, k)
    else
      let e := jerkStep p v a j d
      runPlan rest (t - d) e.1 e.2.1 e.2.2 k

/-! ### Replans from motion (R348, R349) -/

/-- Segments of `t` seconds each a whole number of frames. R348 gives their phase codes no number within 1 to 7: they are open (log 14). -/
def inFrames (t : Rat) (l : List (Nat × Rat)) : List (Rat × Rat × Nat) :=
  (l.filter (fun e => decide (0 < e.1))).map (fun e => ((e.1 : Rat) * t, e.2, 1 + Config.openNat 4 e.1 % 7))

/-- Speeds in direction `d` that a stage may pass: from standstill to V, or what the state itself forces beyond them. -/
def speedRange (d v a V J : Rat) : Rat × Rat :=
  let w := d * (v + a * rAbs a / (2 * J))
  (min 0 (min (d * v) w), max V (max (d * v) w))

/-- The limits of R348 and R664 over a stage: jerk within J, acceleration within A or falling to it, speed in direction `d` in the range, at the
ends of each segment and where the acceleration passes 0. -/
def stageOk (d : Rat) (r : Rat × Rat) (A J : Rat) : List (Rat × Rat × Nat) → Rat → Rat → Bool
  | [], _, _ => true
  | (T, j, _) :: rest, v, a =>
    let e := jerkStep 0 v a j T
    let turn := if j ≠ 0 ∧ 0 ≤ -(a / j) ∧ -(a / j) ≤ T then v - a * a / (2 * j) else v
    decide (rAbs j ≤ J) && decide (rAbs e.2.2 ≤ max A (rAbs a))
      && decide (r.1 ≤ d * e.2.1 ∧ d * e.2.1 ≤ r.2) && decide (r.1 ≤ d * turn ∧ d * turn ≤ r.2)
      && stageOk d r A J rest e.2.1 e.2.2

/-- A stop in direction `d` (R348, stage 1): the acceleration in that direction falls to 0 or below at once and does not rise above it again, and
no segment runs on at constant speed. -/
def stopOk (d : Rat) : List (Rat × Rat × Nat) → Rat → Rat → Bool
  | [], _, _ => true
  | (T, j, _) :: rest, v, a =>
    let e := jerkStep 0 v a j T
    decide (d * j ≤ 0 ∨ d * a ≤ 0) && decide (d * e.2.2 ≤ max 0 (d * a)) && decide (j ≠ 0 ∨ a ≠ 0) && stopOk d rest e.2.1 e.2.2

/-- Whole frames that hold `q` seconds. -/
def framesOf (t q : Rat) : Nat := (q / t).ceil.toNat

/-- Acceleration to 0 in whole frames at a jerk within J: where it speeds the axis up, at J until it has passed 0, and one frame back. -/
def nullAcc (v a J t : Rat) : List (Nat × Rat) :=
  if a = 0 then []
  else
    let n := framesOf t (rAbs a / J)
    let T : Rat := (n : Rat) * t
    if 0 < v * a then
      let j := -(a / rAbs a) * J
      [(n, j)] ++ (if a + j * T = 0 then [] else [(1, -(a + j * T) / t)])
    else [(n, -a / T)]

/-- A stop in whole frames: the acceleration to 0, then the speed (R348, stage 1). -/
def stopSegs (v a A J t : Rat) : List (Nat × Rat) :=
  let l := nullAcc v a J t
  let w := (runAll (inFrames t l) 0 v a).2.1
  if w = 0 then l
  else
    let n := speedTimes (rAbs w) 0 0 A J
    let n1 := framesOf t n.1
    let n2 := framesOf t n.2.1
    let T : Rat := (n1 : Rat) * t
    let j := w / (T * (T + n2 * t))
    l ++ [(n1, -j), (n2, 0), (n1, j)]

/-- One approach over distance `D`, in its own direction, that does not stop before its end: the structure of R347 with the first three phases
from the present state. Least-time durations rounded up to whole frames, the jerk phases 1, 3 and 5 with 7 longer by `e` frames, phase 3 by one
less; then the jerks that end it exactly. -/
def approachSegs (D v a V A J t : Rat) (e : Nat × Nat × Nat) : List (Nat × Rat) :=
  let travel (w : Rat) : Rat := (runAll (velSegs w 0 0 A J 0) (runAll (velSegs v a w A J 0) 0 v a).1 w 0).1
  let w := V * (leastNat (fun k => decide (D < travel (V * ((k : Rat) + 1) / 65535))) 16 0 : Nat) / 65535
  let up := speedTimes v a w A J
  let dn := speedTimes w 0 0 A J
  let n1 := max 1 (framesOf t up.1 + e.1)
  let n2 := framesOf t up.2.1
  let n3 := max 1 (framesOf t up.2.2 + e.2.1 - 1)
  let n4 := if w = 0 then 0 else framesOf t ((D - travel w) / w)
  let n5 := max 1 (framesOf t dn.1 + e.2.2)
  let n6 := framesOf t dn.2.1
  let T1 : Rat := n1 * t
  let T3 : Rat := n3 * t
  let T5 : Rat := n5 * t
  let plan (p : Rat) : List (Nat × Rat) :=
    let top := v + a * T1 / 2 + p * (T1 / 2 + n2 * t + T3 / 2)
    let j := top / (T5 * (T5 + n6 * t))
    [(n1, (p - a) / T1), (n2, 0), (n3, -p / T3), (n4, 0), (n5, -j), (n6, 0), (n5, j)]
  let reach (p : Rat) : Rat := (runAll (inFrames t (plan p)) 0 v a).1
  plan ((D - reach 0) / (reach 1 - reach 0))

/-- Position `p` lies inside the soft limits, where they are on. -/
def softIn (soft : Option (Rat × Rat)) (p : Rat) : Bool := soft.all (fun l => decide (l.1 ≤ p ∧ p ≤ l.2))

/-- A replan of R348 to `p`, from position `x`, speed `v` and acceleration `a` with the rest `old` of the present motion. Where least-time braking
passes `p` the axis is brought to standstill inside the soft limits, by the motion in progress where no shorter stop is, and then makes a move;
else it approaches `p` at once in at most seven segments, with the acceleration first brought to 0 where that leaves seven. Which whole frames and jerks a stage takes R348 leaves open: `Config.replan` names them where they keep its
rules (log 14). -/
def replanSegs (soft : Option (Rat × Rat)) (old : List (Rat × Rat × Nat)) (x v a p V A J t : Rat) : List (Rat × Rat × Nat) :=
  let z := (runAll (velSegs v a 0 A J 0) x v a).1
  let d : Rat := if x ≤ z then 1 else -1
  let arg := [x, v, a, p, V, A, J, t]
  let rest (l : List (Rat × Rat × Nat)) : Bool := let e := runAll l x v a; decide (e.2.1 = 0) && decide (e.2.2 = 0)
  let last (l : List (Rat × Rat × Nat)) : Rat := (runAll l x v a).1
  let halt := inFrames t (stopSegs v a A J t)
  let free0 := inFrames t (Config.replan (0 :: arg))
  let free1 := inFrames t (Config.replan (1 :: arg))
  let r := speedRange d v a V J
  let stop :=
    if free0.length ≤ 7 && stageOk d (min 0 r.1, r.2) A J free0 v a && rest free0 && stopOk d free0 v a && softIn soft (last free0) then free0
    else if !softIn soft (last halt) && rest old && softIn soft (last old) then old
    else halt
  let staged := stop ++ moveSegs (p - last stop) V A J t
  if d * (p - z) < 0 then staged
  else
    let ok (l : List (Rat × Rat × Nat)) : Bool := decide (l.length ≤ 7) && stageOk d r A J l v a && rest l && decide (last l = p)
    let from_ (l : List (Rat × Rat × Nat)) (e : Nat × Nat × Nat) : List (Rat × Rat × Nat) :=
      let z := runAll l x v a
      l ++ inFrames t ((approachSegs (d * (p - z.1)) (d * z.2.1) (d * z.2.2) V A J t e).map (fun g => (g.1, d * g.2)))
    let longer := [(0, 1, 0), (0, 0, 0), (0, 1, 1), (1, 1, 1), (1, 2, 1), (2, 3, 2), (4, 5, 1), (16, 17, 1), (64, 65, 1), (256, 257, 1), (1024, 1025, 1)]
    match (free1 :: longer.map (from_ []) ++ longer.map (from_ (inFrames t (nullAcc v a J t)))).find? ok with
    | some l => l
    | none => staged

end Sys2Proof.Machine
end

