-- ==== Sys2Proof/Machine/Mot.lean ====
section
/-! DEFINITION. Motion profiles (spec/11): jerk-limited plans and ramps, velocity and look-ahead, gearing, path streams, homing,
guards, microstep outputs. -/
namespace Sys2Proof.Machine

def pgReg (s : State) (g o : Nat) : Word := inF s (baseMOT + 0x100 * g + o)
def pg64 (s : State) (g o : Nat) : Int := inF64 s (baseMOT + 0x100 * g + o)
def pgUnit (g : Nat) : Nat := 0x200 + g
/-- MODE in force (Table 11-2). -/
def pgMode (s : State) (g : Nat) : Nat := let m := fld (pgReg s g 0) 0 4; if 2 ≤ m ∧ m ≤ 5 then m else 1
def pgV (s : State) (g : Nat) : Rat := ((pgReg s g 0x10).toNat : Rat) / 65536
def pgA (s : State) (g : Nat) : Rat := ((pgReg s g 0x14).toNat : Rat) / 256
def pgJ (s : State) (g : Nat) : Rat := ((pgReg s g 0x18).toNat : Rat) / 256
def pgLsb8 (s : State) (g o : Nat) : Rat := ((pgReg s g o).toNat : Rat) / 256
/-- Tf in s. -/
def tfs (s : State) : Rat := (tf s : Rat) / 1000000000
def stepEn (s : State) (g : Nat) : Bool := bitAt (pgReg s g 0) 8
def keepEn (s : State) (g : Nat) : Bool := bitAt (pgReg s g 0) 12
def softEn (s : State) (g : Nat) : Bool := bitAt (pgReg s g 0) 15
/-- VTARGET in force (R350). -/
def vTarget (s : State) (g : Nat) : Rat := max (-(pgV s g)) (min (pgV s g) (((pgReg s g 0xC).toInt : Rat) / 65536))
/-- Standstill (R345). -/
def atRest (x : PgSt) : Bool := decide (x.vel = 0) && decide (x.acc = 0)

/-! ### Making plans (R348, R350 to R353, R355) -/

/-- The detail of kind 0x6C. -/
def zeroDetail (s : State) (g : Nat) (step : Bool) : Nat :=
  ([0x10, 0x14, 0x18, 0x1C, 0x20, 0x2C, 0x30].zip (List.range 7)).foldl (fun n e => n + flag (pgReg s g e.1 == 0) e.2) (flag step 8)

def raisePg (g kind detail : Nat) (s : State) : State := raiseFault qMOT (pgUnit g) kind detail s

/-- The wired switch at an input: none where the input is not wired; whether its unit operates, and its latched level. -/
def swAt (s : State) (g input : Nat) : Option (Bool × Bool × Nat) :=
  (wireAt s (pgUnit g) input).map (fun w => (operates s w.source, (swOf s (w.source - 0x640)).latched, w.source - 0x640))

/-- LIMIT_NEG (3), LIMIT_POS (4) and DRIVER_OK (5): a switch whose unit does not operate reads active (R344). -/
def limitActive (s : State) (g input : Nat) : Bool := match swAt s g input with | some e => !e.1 || e.2.1 | none => false
/-- DRIVER_OK reads inactive (R372). -/
def driverDown (s : State) (g : Nat) : Bool := match swAt s g 5 with | some e => e.1 && !e.2.1 | none => false

/-- The move limits allow a plan (R355). -/
def limitsOk (s : State) (g : Nat) : Bool := decide (pgV s g ≠ 0) && decide (pgA s g ≠ 0) && decide (pgJ s g ≠ 0)

/-- Motion under the move limits is planned by `f`, unless a limit is 0 (kind 0x6C) or the driver is unpowered (R355, R372). -/
def planMotion (g : Nat) (f : State → PgSt → PgSt) (s : State) : State :=
  let none_ (s : State) : State := modPg g (fun x => { x with task := .none, plan := [], goal := none }) s
  if driverDown s g then none_ s
  else if !limitsOk s g then raisePg g 0x6C (zeroDetail s g false) (modPg g (fun x => { x with noPlan := true }) (none_ s))
  else modPg g (fun x => { f s x with noPlan := false }) s

/-- A position outside the soft limits: on which side (R349, R351). -/
def softSide (s : State) (g : Nat) (p : Rat) : Option Bool :=
  if rev32 (pg64 s g 0x3C) < p then some true else if p < rev32 (pg64 s g 0x34) then some false else none

/-- The soft limits in force. -/
def softLimits (s : State) (g : Nat) : Option (Rat × Rat) := if softEn s g then some (rev32 (pg64 s g 0x34), rev32 (pg64 s g 0x3C)) else none

/-- A move to `p`: R347 from standstill, a replan of R348 from motion. No plan goes to a `p` outside the soft limits (R349): DESIGN CHOICE, log 102,
the generator stays at standstill, or comes to it with the move limits, and sets no AT_TARGET. -/
def moveTo (g : Nat) (p : Rat) (task : PgTask) (s : State) (x : PgSt) : PgSt :=
  let V := pgV s g
  let A := pgA s g
  let J := pgJ s g
  if !softIn (softLimits s g) p then
    { x with task := .holdRamp, plan := if atRest x then [] else velSegs x.vel x.acc 0 A J 0xF, goal := none, endVel := 0 }
  else
    let segs := if atRest x then moveSegs (p - x.pos) V A J (tfs s)
      else replanSegs (softLimits s g) x.plan x.pos x.vel x.acc p V A J (tfs s)
    { x with task, plan := segs, goal := some p, endVel := 0 }

/-- An approach to speed `v`. -/
def speedTo (g : Nat) (v : Rat) (task : PgTask) (c : Nat) (s : State) (x : PgSt) : PgSt :=
  { x with task, plan := velSegs x.vel x.acc v (pgA s g) (pgJ s g) c, goal := none, endVel := v }

/-- A ramp to standstill; with a zero parameter while moving it ends in a step (R353, R355). It ends gearing, and an armed change with it (R382). -/
def rampDown (g : Nat) (A J : Rat) (task : PgTask) (c : Nat) (s : State) : State :=
  let x := pgOf s g
  let base (x : PgSt) : PgSt := { x with
      goal := none, endVel := 0, blend := none, coupling := false, armed := x.armed && x.task != .gear, masterPrev := none
      homeStop := false }
  if atRest x then modPg g (fun x => { base x with task, plan := [] }) s
  else if A = 0 ∨ J = 0 then
    raisePg g 0x6C (zeroDetail s g true) (modPg g (fun x => { base x with task, plan := [], vel := 0, acc := 0 }) s)
  else modPg g (fun x => { base x with task, plan := velSegs x.vel x.acc 0 A J c }) s

/-- S_DEC and S_JERK, or QS_DEC and QS_JERK where one of them is 0 (R355). -/
def stopParams (s : State) (g : Nat) : Rat × Rat :=
  if pgLsb8 s g 0x1C = 0 ∨ pgLsb8 s g 0x20 = 0 then (pgLsb8 s g 0x2C, pgLsb8 s g 0x30) else (pgLsb8 s g 0x1C, pgLsb8 s g 0x20)

/-- Where a ramp to standstill with deceleration `A` and jerk `J` ends. -/
def rampEndPos (x : PgSt) (A J : Rat) : Rat := if A = 0 ∨ J = 0 then x.pos else (runAll (velSegs x.vel x.acc 0 A J 0) x.pos x.vel x.acc).1

/-- A STOP ramp of MOVE mode keeps the soft limits (R349, R353): one that would end beyond them runs with the move limits (log 102). -/
def startStop (g : Nat) (s : State) : State :=
  let p := stopParams s g
  let x := pgOf s g
  let out (q : Rat × Rat) : Bool := !softIn (softLimits s g) (rampEndPos x q.1 q.2)
  let q := if pgMode s g = 1 ∧ limitsOk s g = true ∧ out p = true ∧ out (pgA s g, pgJ s g) = false then (pgA s g, pgJ s g) else p
  rampDown g q.1 q.2 .stopRamp 0xD s
/-- A QUICKSTOP ramp, unless one runs. -/
def startQuick (g : Nat) (s : State) : State :=
  if (pgOf s g).task == .quickRamp then s else rampDown g (pgLsb8 s g 0x2C) (pgLsb8 s g 0x30) .quickRamp 0xE s
def startLimitStop (g : Nat) (s : State) : State :=
  let p := stopParams s g
  let p := if p.1 = 0 ∨ p.2 = 0 then (pgA s g, pgJ s g) else p
  rampDown g p.1 p.2 .limitStop 0xD s

/-! ### Commands at a boundary (R352, R353, R360, R365, R366, R371) -/

def homeDir (s : State) (g : Nat) : Rat := if bitAt (pgReg s g 0x78) 8 then 1 else -1
def homeSpeed (s : State) (g o : Nat) : Rat := min (pgV s g) (((pgReg s g o).toNat : Rat) / 65536)

/-- The travel of a homing state begins. -/
def homeTravel (g : Nat) (s : State) : State :=
  let x := pgOf s g
  let d := homeDir s g
  let v := if x.hstate = 4 then d * homeSpeed s g 0x80 else if x.hstate = 1 then d * homeSpeed s g 0x7C else -d * homeSpeed s g 0x7C
  planMotion g (fun s x => { speedTo g v .home 0xC s x with homeStop := false }) s

/-- The reference is R: the shift applies at the next boundary (R366, R367). -/
def homeDone (g : Nat) (r : Rat) : State → State :=
  fun s => modPg g (fun x => { x with shiftDue := some (nearest (((pg64 s g 0x88 : Int) : Rat) - r * 4294967296)) }) s

/-- Byte address of the path table; none without a path region. -/
def pathBase (s : State) (g : Nat) : Option Nat := (regionOf s 2).map (fun r => r.first * 0x1000 + (pgReg s g 0x74).toNat)
def memNat (s : State) (a n : Nat) : Nat := leNat (memBytes s a n)
/-- Point `k`: position in rev, speed, acceleration. -/
def pathPoint (s : State) (base k : Nat) : Rat × Rat × Rat :=
  let a := base + 0x20 + 16 * k
  (rev32 (signed 64 (memNat s a 8)), (signed 32 (memNat s (a + 8) 4) : Rat) / 65536, (signed 32 (memNat s (a + 12) 4) : Rat) / 256)
def pathPoints (s : State) (base : Nat) : Nat := memNat s base 4
def pathInterval (s : State) (base : Nat) : Nat := memNat s (base + 4) 2

/-- The tile of an address is opened by a generator; true where it may be used (R365). -/
def pathOpen (a : Nat) (s : State) : Bool × State := checkTile 3 (a / 0x1000) s

/-- Kind 0x66 and the QUICKSTOP ramp of R356. -/
def pathFail (g code k : Nat) (s : State) : State :=
  raisePg g 0x66 (min k 0xFFFFFF * 256 + code) (startQuick g (modUnit (pgUnit g) (fun u => { u with guardStop := true }) s))

/-- Step 1 of R365, then the move to point 0; a point 0 outside the soft limits is a path error of code 4 (R349, R365). -/
def pathStart (g : Nat) (s : State) : State :=
  match regionOf s 2, pathBase s g with
  | some r, some b =>
    let last := (r.first + r.tiles) * 0x1000
    if (pgReg s g 0x74).toNat % 16 ≠ 0 ∨ last < b + 0x20 then pathFail g 1 0 s
    else
      let (ok, s) := pathOpen b s
      let (ok', s) := if (b + 0x1F) / 0x1000 = b / 0x1000 then (ok, s) else pathOpen (b + 0x1F) s
      if !(ok && ok') then pathFail g 3 0 s
      else if pathPoints s b < 2 ∨ pathInterval s b = 0 ∨ memNat s (b + 6) 2 ≠ 0 ∨ memNat s (b + 12) 20 ≠ 0
          ∨ last < b + 0x20 + 16 * pathPoints s b then pathFail g 1 0 s
      else
        let (ok, s) := if (b + 0x20) / 0x1000 = (b + 0x1F) / 0x1000 then (ok', s) else pathOpen (b + 0x20) s
        if !ok then pathFail g 3 0 s
        else
          let p := pathPoint s b 0
          if p.2.1 ≠ 0 ∨ p.2.2 ≠ 0 then pathFail g 2 0 s
          else if !softIn (softLimits s g) p.1 then pathFail g 4 0 s
          else planMotion g (fun s x => moveTo g p.1 .path s { x with pathAt := 0 }) (modPg g (fun x => { x with pathDone := false }) s)
  | _, _ => pathFail g 1 0 s

/-- START applies to generator `g`. -/
def pgStart (g : Nat) (s : State) : State :=
  let s := modPg g (fun x => { x with limitHold := false, limitHigh := false }) s
  match pgMode s g with
  | 2 => planMotion g (fun s x => speedTo g (vTarget s g) .velocity 8 s x) s
  | 3 => if driverDown s g then s else modPg g (fun x => { x with task := .gear, coupling := true, plan := [], goal := none }) s
  | 4 => if driverDown s g then s else pathStart g s
  | 5 =>
    if bitAt (pgReg s g 0x78) 0 then
      homeDone g (pgOf s g).pos (modPg g (fun x => { x with hstate := 5, task := .home, plan := [], goal := none, endVel := 0 }) s)
    else if driverDown s g then s
    else homeTravel g (modPg g (fun x => { x with hstate := if limitsOk s g then 1 else 0 }) s)
  | _ => planMotion g (fun s x => moveTo g (rev32 x.target) .move s x) s

/-- HOLD applies: a deceleration with the move limits (R352). -/
def pgHold (g : Nat) (s : State) : State := rampDown g (pgA s g) (pgJ s g) .holdRamp 0xF s

/-- The setpoint of a path `q` frames after point 0 (R365). -/
def pathSet (s : State) (b q : Nat) : Rat × Rat × Rat :=
  let n := max 1 (pathInterval s b)
  let k := q / n
  let e0 := pathPoint s b k
  if q % n = 0 then e0
  else
    let e1 := pathPoint s b (k + 1)
    let T : Rat := (n : Rat) * tfs s
    let t : Rat := ((q % n : Nat) : Rat) * tfs s
    let dp := e1.1 - e0.1
    let v0 := e0.2.1
    let v1 := e1.2.1
    let a0 := e0.2.2
    let a1 := e1.2.2
    let c3 := (20 * dp - (8 * v1 + 12 * v0) * T - (3 * a0 - a1) * T * T) / (2 * T * T * T)
    let c4 := (-30 * dp + (14 * v1 + 16 * v0) * T + (3 * a0 - 2 * a1) * T * T) / (2 * T * T * T * T)
    let c5 := (12 * dp - 6 * (v1 + v0) * T - (a0 - a1) * T * T) / (2 * T * T * T * T * T)
    (e0.1 + v0 * t + a0 / 2 * t * t + c3 * t * t * t + c4 * t * t * t * t + c5 * t * t * t * t * t,
     v0 + a0 * t + 3 * c3 * t * t + 4 * c4 * t * t * t + 5 * c5 * t * t * t * t,
     a0 + 6 * c3 * t + 12 * c4 * t * t + 20 * c5 * t * t * t)

/-- VTARGET in force points away from the limit that holds the generator (R351). -/
def awayFromLimit (s : State) (g : Nat) : Bool := if (pgOf s g).limitHigh then decide (vTarget s g < 0) else decide (0 < vTarget s g)

/-- RESUME applies (R352); a generator that a soft limit holds moves only away from it (R351). -/
def pgResume (g : Nat) (s : State) : State :=
  let x := pgOf s g
  match pgMode s g with
  | 2 => if x.limitHold && !awayFromLimit s g then s
    else planMotion g (fun s x => { speedTo g (vTarget s g) .velocity 8 s x with limitHold := false }) s
  | 3 => if x.limitHold || driverDown s g then s else modPg g (fun x => { x with task := .gear, coupling := true, plan := [], goal := none }) s
  | 4 =>
    if x.limitHold || x.pathDone then s
    else match pathBase s g with
      | some b => planMotion g (fun s x => moveTo g (pathSet s b x.pathAt).1 .path s x) s
      | none => s
  | 5 => if 1 ≤ x.hstate ∧ x.hstate ≤ 4 then homeTravel g s else s
  | _ => planMotion g (fun s x => { moveTo g (rev32 x.target) .move s x with replans := satInc 16 x.replans }) s

/-- STOP and QUICKSTOP apply: homing ends (R353, R366). -/
def pgStop (g : Nat) (s : State) : State := startStop g (modPg g (fun x => { x with hstate := 0 }) s)
def pgQuick (g : Nat) (s : State) : State := startQuick g (modPg g (fun x => { x with hstate := 0 }) s)
/-- The unit enters FAULTED: it finishes a QUICKSTOP ramp (R49). -/
def pgFault (g : Nat) (s : State) : State := startQuick g s

def keepOf (s : State) (g : Nat) : Option KeepEnt := Tbl.get (constD none) s.keep g
def setKeep (g : Nat) (e : KeepEnt) (s : State) : State := { s with keep := Tbl.set (constD none) s.keep g (some e) }
def ecyc (s : State) (g : Nat) : Nat := let n := fld (pgReg s g 0x90) 0 16; if n = 0 then 1 else n
def tblLen (s : State) (g : Nat) : Nat := let n := fld (pgReg s g 0x90) 16 13; if n = 0 ∨ 4096 < n then 4096 else n

/-- Entry into PREPARING (Table 11-5, R371). -/
def pgPrepare (g : Nat) (s : State) : State :=
  let s := modPg g (fun x => { x with task := .none, plan := [], goal := none, vel := 0, acc := 0, shift := 0, hstate := 0, blend := none,
                                      coupling := false, armSeen := false, armBack := false, limitHold := false, pathDone := false, still := 0, ssr := false,
                                      masterLost := false, noPlan := false }) s
  let done (s : State) : State := modUnit (pgUnit g) (fun u => { u with prepDone := true }) s
  let lose (s : State) : State := done (modPg g (fun x => { x with pos := 0, homed := false, keepHeld := false }) s)
  if stepEn s g then
    if keepEn s g then
      match keepOf s g with
      | some e =>
        if e.valid && e.ecyc == ecyc s g && e.tblLen == tblLen s g then
          done (modPg g (fun x => { x with pos := rev32 (e.q + e.shift), shift := e.shift, homed := e.homed, keepHeld := true }) s)
        else raisePg g 0x69 (flag (!e.valid) 0) (lose s)
      | none => raisePg g 0x69 1 (lose s)
    else lose s
  else if (wireAt s (pgUnit g) 1).isNone then done s
  else s

/-- Entry into DORMANT: the last position is held. -/
def pgDormant (g : Nat) (s : State) : State :=
  modPg g (fun x => { x with
      pos := rev32 x.spPos, vel := 0, acc := 0, task := .none, plan := [], goal := none, blend := none, coupling := false
      armed := x.armed && x.task != .gear, hstate := 0, shiftDue := none }) s

/-- A boundary: a shift that is due applies (R367). -/
def pgBoundary (g : Nat) (s : State) : State :=
  match (pgOf s g).shiftDue with
  | none => s
  | some d =>
    modPg g (fun x => { x with
        pos := x.pos + rev32 d, goal := x.goal.map (· + rev32 d), target := x.target + d, shift := x.shift + d
        homed := true, homeStep := true, shiftDue := none }) s

/-- TARGET, VTARGET, RC_ARM or SOFT_EN of a snapshot or SETTINGS has changed (R348, R349, R350, R361). SOFT_EN = 1 in a move to a target outside the
soft limits replans it, as `moveTo` does it (log 102). -/
def motApplied (g : Nat) (tgt vt arm soft : Bool) (s : State) : State :=
  let u := pgUnit g
  let s := if arm && bitAt (pgReg s g 0) 21 then modPg g (fun x => { x with armed := true, armBack := false, armSeen := false }) s
    else if arm then modPg g (fun x => { x with armed := false }) s else s
  let t := pg64 s g 4
  let s := if tgt && t != (pgOf s g).target then
      let s := modPg g (fun x => { x with target := t }) s
      if stOf s u == .active && pgMode s g == 1 then
        planMotion g (fun s x => { moveTo g (rev32 t) .move s x with replans := satInc 16 x.replans }) s
      else s
    else if soft && (pgOf s g).task == .move && !softIn (softLimits s g) (rev32 (pgOf s g).target) then
      planMotion g (fun s x => moveTo g (rev32 x.target) .move s x) s
    else s
  if vt && stOf s u == .active && pgMode s g == 2 then
    if (pgOf s g).limitHold && !awayFromLimit s g then s
    else planMotion g (fun s x => { speedTo g (vTarget s g) .velocity 8 s x with limitHold := false, replans := satInc 16 x.replans }) s
  else s

/-! ### One frame -/

/-- A QUICKSTOP ramp of R356, and STOPPING at the next boundary; a homing that runs ends (R366). -/
def tripStop (g : Nat) (s : State) : State :=
  startQuick g (modUnit (pgUnit g) (fun u => { u with guardStop := true })
    (modPg g (fun x => { x with hstate := if 1 ≤ x.hstate ∧ x.hstate ≤ 4 then 0 else x.hstate }) s))

/-- A cause of R356 with its kind. -/
def pgTrip (g kind detail : Nat) (s : State) : State := raisePg g kind detail (tripStop g s)

/-- The reach guard on the frame's feedback record (R356). -/
def pgGuard (g : Nat) (x0 : PgSt) (s : State) : State :=
  let st := stOf s (pgUnit g)
  if !(bitAt (pgReg s g 0) 16) || !(st == .active || st == .holding) || atRest x0 then s
  else match wireAt s (pgUnit g) 1 with
    | none => s
    | some w =>
      let r := recOf s w.source
      let ok := decide (w.source < 0x200) && (rhOf s w.source).valid
      let hi := decide (pg64 s g 0x4C < r.pos + r.reachHi * 65536)
      let lo := decide (r.pos + r.reachLo * 65536 < pg64 s g 0x44)
      if ok && !hi && !lo then s
      else pgTrip g 0x60 (flag hi 1 + flag lo 0 + flag (!ok) 2)
        (modPg g (fun x => { x with guardTrip := true, guardTrips := satInc 16 x.guardTrips }) s)

/-- The limit switches outside HOME mode (R357). -/
def pgHardLimit (g : Nat) (x0 : PgSt) (s : State) : State :=
  let st := stOf s (pgUnit g)
  let pos := decide (0 < x0.vel) && limitActive s g 4
  let neg := decide (x0.vel < 0) && limitActive s g 3
  if pgMode s g ≠ 5 ∧ (st == .active || st == .holding) = true ∧ (pos || neg) = true then
    pgTrip g 0x68 (flag pos 0) (modPg g (fun x => { x with hwLimit := true }) s)
  else s

/-- DRIVER_OK (R372). -/
def pgDriver (g : Nat) (x0 : PgSt) (s : State) : State :=
  let low := driverDown s g
  let moving := !atRest x0
  let u := pgUnit g
  if !low then modPg g (fun x => { x with driverLow := false }) (clearCond u 0x6A 0 s)
  else if condOf s u 0x6A 0 then s
  else if moving || !keepEn s g then
    let s := setCond qMOT u 0x6A 0 true (flag moving 0) (modPg g (fun x => { x with homed := false, driverLow := true }) s)
    if moving then tripStop g s else s
  else modPg g (fun x => { x with driverLow := true }) s

/-- No motion starts while the driver is unpowered: what would start it at standstill is dropped, homing ends (R372; log 70). -/
def pgUnpowered (g : Nat) (x0 : PgSt) (s : State) : State :=
  if driverDown s g && atRest x0 && x0.task != .none && (pgOf s g).task != .quickRamp then
    modPg g (fun x => { x with task := .none, plan := [], goal := none, endVel := 0, coupling := false, blend := none
                               armed := x.armed && x.task != .gear, masterPrev := none, homeStop := false
                               hstate := if 1 ≤ x.hstate ∧ x.hstate ≤ 4 then 0 else x.hstate }) s
  else s

/-- Homing aborts (Table 11-4). -/
def homeAbort (g code : Nat) (s : State) : State := pgTrip g 0x67 code (modPg g (fun x => { x with hstate := 6, abort := code }) s)

/-- A homing state ends in a stop with the move limits. -/
def homeHalt (g : Nat) (s : State) : State :=
  modPg g (fun x => { speedTo g 0 .home 0xC s x with homeStop := true }) s

/-- A homing state is entered and its travel begins. -/
def homeEnter (g h : Nat) (s : State) : State :=
  homeTravel g (modPg g (fun x => { x with hstate := h, homeFrom := x.pos, backFree := none, limFree := false }) s)

/-- Homing in a frame, on the state `x0` applied at t_n (Table 11-4, R366, R367). -/
def pgHoming (g : Nat) (x0 : PgSt) (s : State) : State :=
  let d := homeDir s g
  let posDir := decide (0 < d)
  let ahead := limitActive s g (if posDir then 4 else 3)
  let behind := limitActive s g (if posDir then 3 else 4)
  let still := atRest x0 && x0.plan.isEmpty
  match swAt s g 2 with
  | some (true, home, k) =>
    match x0.hstate with
    | 1 =>
      if home then homeEnter g 3 s
      else if ahead then
        let s := rampDown g (pgLsb8 s g 0x2C) (pgLsb8 s g 0x30) .home 0xC s
        modPg g (fun x => { x with hstate := 2, homeStop := true, limFree := false }) s
      else if behind then homeAbort g 1 s else s
    | 2 =>
      let s := if ahead then s else modPg g (fun x => { x with limFree := true }) s
      if home then homeEnter g 3 s
      else if behind then homeAbort g 2 s
      else if ahead && x0.limFree then homeAbort g 1 s
      else if x0.homeStop && still then homeTravel g s else s
    | 3 =>
      if ahead || behind then homeAbort g 3 s
      else if x0.homeStop then
        if still then homeEnter g 4 (modPg g (fun x => { x with backTravel := rAbs (x.pos - x.homeFrom) }) s) else s
      else if home then modPg g (fun x => { x with backFree := none }) s
      else
        let from_ := x0.backFree.getD x0.pos
        let s := modPg g (fun x => { x with backFree := some from_ }) s
        if ((pgReg s g 0x84).toNat : Rat) / 65536 ≤ rAbs (x0.pos - from_) then homeHalt g s else s
    | 4 =>
      if ahead || behind then homeAbort g 3 s
      else if x0.homeStop then
        if still then modPg g (fun x => { x with hstate := 5, homeStop := false }) s else s
      else if home then
        let deb : Rat := ((max 1 (fld (swCfg s k) 16 16) : Nat) : Rat) / 1000000
        let r := x0.pos - d * (((pgReg s g 0x80).toNat : Rat) / 65536) * (deb + tfs s / 2)
        homeHalt g (modPg g (fun x => { x with homeFrom := r }) s)
      else if 2 * x0.backTravel < rAbs (x0.pos - x0.homeFrom) then homeAbort g 4 s
      else s
    | _ => s
  | _ => if 1 ≤ x0.hstate ∧ x0.hstate ≤ 4 then homeAbort g 5 s else s

/-- The look-ahead of R351 on a candidate setpoint: the side of the limit that its stop point passes. -/
def softAhead (s : State) (g : Nat) (p v a : Rat) : Option Bool :=
  if !softEn s g then none
  else
    let stop (A J : Rat) : Rat := if A = 0 ∨ J = 0 then p else (runAll (velSegs v a 0 A J 0) p v a).1
    let sp := stopParams s g
    match softSide s g (stop (pgA s g) (pgJ s g)) with
    | some b => some b
    | none => softSide s g (stop sp.1 sp.2)

/-- The generator stops at a soft limit (R351). -/
def limitHold (g : Nat) (high : Bool) (s : State) : State :=
  raisePg g 0x61 (flag high 0) (startLimitStop g (modPg g (fun x => { x with limitHold := true, limitHigh := high }) s))

/-- The plan advances one frame; where it ends it ends exactly (R347). -/
def pgAdvance (g : Nat) (s : State) : State :=
  modPg g (fun x =>
    let e := runPlan x.plan (tfs s) x.pos x.vel x.acc 0
    if e.1.isEmpty then
      let p := match x.goal with | some q => q | none => e.2.1
      { x with plan := [], pos := p, vel := x.endVel, acc := 0, phase := e.2.2.2.2 }
    else { x with plan := e.1, pos := e.2.1, vel := e.2.2.1, acc := e.2.2.2.1, phase := e.2.2.2.2 }) s

/-- Bits [47:0] of a master position, signed (R358). -/
def pos48 (x : Int) : Int := signed 48 (unsig 48 x)

/-- R358. -/
def gearStep (dm : Int) (x : PgSt) : PgSt :=
  let acc := dm * x.num + x.rem
  { x with s := x.s + acc / (x.den : Int), rem := (acc % (x.den : Int)).toNat }

/-- f(w) of R362, the ratio there and its change per rev, and whether the blend is complete. -/
def blendAt (b : Blend) (w : Int) : Rat × Rat × Rat × Bool :=
  let ro : Rat := (b.numO : Rat) / b.denO
  let rn : Rat := (b.numN : Rat) / b.denN
  let B : Rat := ((b.dir * b.len : Int) : Rat)
  if b.dir = 0 ∨ b.dir * w ≤ 0 then (ro * w, ro, 0, decide (b.len = 0 ∧ b.dir ≠ 0))
  else if b.dir * w < b.len then (ro * w + (rn - ro) * w * w / (2 * B), ro + (rn - ro) * w / B, (rn - ro) / (B / 4294967296), false)
  else ((ro + rn) * B / 2 + rn * (w - B), rn, 0, true)

/-- A blend evaluated at master position `X`: slave position, ratio and its change per rev. -/
def blendStep (X : Int) (x : PgSt) : PgSt × Rat × Rat :=
  match x.blend with
  | none => (x, (x.num : Rat) / x.den, 0)
  | some b =>
    let w := pos48 (X - b.pos)
    let b := if b.dir = 0 then { b with dir := if 0 < w then 1 else if w < 0 then -1 else 0 } else b
    let f := blendAt b w
    let v := b.fC + f.1
    let fl := v.floor
    if f.2.2.2 then
      ({ x with s := b.sC + fl, rem := ((v - fl) * b.denN).floor.toNat, num := b.numN, den := b.denN, blend := none }, (b.numN : Rat) / b.denN, 0)
    else ({ x with s := b.sC + fl, rem := 0, blend := some b }, f.2.1, f.2.2.1)

/-- 0 POS, 1 NEG, 2 EITHER. -/
def rcDir (s : State) (g : Nat) : Nat := min 2 (fld (pgReg s g 0) 22 2)
/-- RC_POS crossed in `(0, dm]` at distance `dp`. -/
def rcCrossed (dir : Nat) (dp dm : Int) : Bool := (dir != 1 && decide (0 < dp ∧ dp ≤ dm)) || (dir != 0 && decide (dm ≤ dp ∧ dp < 0))

/-- RC_ARM goes to 0 in force and in the shadow (R361). -/
def rcDisarm (g : Nat) (s : State) : State :=
  let o := baseMOT + 0x100 * g
  setInF o (inF s o &&& 0xFFDFFFFF) (setShadow o (shadowOf s o &&& 0xFFDFFFFF) s)

/-- The gearing of frame `n` at master position `X` (R358 to R362): the slave position, the ratio and its change per rev. -/
def gearMove (g n : Nat) (X vm : Int) (s : State) : (Rat × Rat) × State :=
  let x := pgOf s g
  let put (e : PgSt × Rat × Rat) (s : State) : (Rat × Rat) × State := (e.2, modPg g (fun _ => { e.1 with masterPrev := some X }) s)
  match x.coupling, x.masterPrev with
  | false, some prev =>
    let dm := pos48 (X - prev)
    let P := pos48 (pg64 s g 0x64)
    let dir := rcDir s g
    if x.blend.isSome then put (blendStep X x) s
    else if !x.armed then put (gearStep dm x, (x.num : Rat) / x.den, 0) s
    else if !x.armSeen then
      let past := match dir with | 0 => decide (0 ≤ pos48 (X - P)) | 1 => decide (pos48 (X - P) ≤ 0) | _ => false
      let s := if past then raisePg g 0x62 (fld (pgReg s g 0) 22 2) s else s
      put ({ gearStep dm x with armSeen := true, armBack := past }, (x.num : Rat) / x.den, 0) s
    else if x.armBack then
      let before := if dir = 0 then decide (pos48 (X - P) < 0) else decide (0 < pos48 (X - P))
      put ({ gearStep dm x with armBack := !before }, (x.num : Rat) / x.den, 0) s
    else if rcCrossed dir (pos48 (P - prev)) dm then
      let dp := pos48 (P - prev)
      let y := gearStep dp x
      let num := (pgReg s g 0x5C).toInt
      let den := (pgReg s g 0x60).toNat
      let len := (pgReg s g 0x6C).toNat * 65536
      let y := { y with armed := false, ratioSwitch := true, rcFrame := n % 65536 }
      let at_ := (nearest ((tf s : Rat) * dp / dm)).toNat
      let s := rcDisarm g (raisePg g 0x63 at_ s)
      if len = 0 then
        put (gearStep (dm - dp) { y with num, den, rem := y.rem * den / y.den }, (num : Rat) / den, 0) s
      else
        put (blendStep X { y with blend := some { pos := P, numO := y.num, denO := y.den, numN := num, denN := den, sC := y.s
                                                  fC := (y.rem : Rat) / y.den, len, dir := if 0 < dm then 1 else -1 } }) s
    else put (gearStep dm x, (x.num : Rat) / x.den, 0) s
  | _, _ =>
    let e := x.pos * 4294967296
    let num := (pgReg s g 0x54).toInt
    let den := (pgReg s g 0x58).toNat
    let len := (pgReg s g 0x70).toNat * 65536
    let fr := e - e.floor
    let P := pos48 (pg64 s g 0x64)
    let past := match rcDir s g with | 0 => decide (0 ≤ pos48 (X - P)) | 1 => decide (pos48 (X - P) ≤ 0) | _ => false
    let judge := x.armed && !x.armSeen
    let s := if judge && past then raisePg g 0x62 (fld (pgReg s g 0) 22 2) s else s
    let x := { x with coupling := false, armSeen := x.armSeen || judge, armBack := if judge then past else x.armBack, s := e.floor, num, den, rem := (fr * den).floor.toNat, gearOver := false }
    if len = 0 then put (x, (num : Rat) / den, 0) s
    else put (blendStep X { x with blend := some { pos := X, numO := 0, denO := 1, numN := num, denN := den, sC := e.floor, fC := fr, len
                                                   dir := if 0 < vm then 1 else if vm < 0 then -1 else 0 } }) s

/-- The master record may be used (R363). -/
def masterOk (s : State) (g : Nat) : Bool :=
  match wireAt s (pgUnit g) 0 with | some w => (recOf s w.source).fine && operates s w.source | none => false

/-- The master of a generator that gears is lost: it decouples, kind 0x65 where the condition begins (R363, R380). -/
def pgMaster (g : Nat) (x0 : PgSt) (s : State) : State :=
  if masterOk s g || x0.task != .gear then s
  else
    let u := pgUnit g
    let m := match wireAt s u 0 with | some w => w.source | none => 0xFFF
    let s := if x0.masterLost then s else raisePg g 0x65 m s
    startQuick g (modPg g (fun x => { x with masterLost := true }) (modUnit u (fun z => { z with guardStop := true }) s))

/-- A geared frame of a valid master: the setpoint, the soft limits and kind 0x64 (R359, R363, R351). -/
def pgGear (g n : Nat) (s : State) : State :=
  let u := pgUnit g
  let m := match wireAt s u 0 with | some w => w.source | none => 0xFFF
  let r := if m = 0xFFF then {} else recOf s m
  if masterOk s g = false then pgAdvance g s
  else
    let e := gearMove g n (pos48 r.pos) r.speed s
    let s' := e.2
    let x := pgOf s' g
    let vm : Rat := (r.speed : Rat) / 65536
    let am : Rat := if m < 0x200 then (r.acc : Rat) / 256 else 0
    let t := tfs s
    let pred := bitAt (pgReg s g 0) 20
    let ratio := e.1.1
    let p := rev32 x.s + (if pred then ratio * (vm * t + am * t * t / 2) else 0)
    let v := ratio * (if pred then vm + am * t else vm)
    let a := ratio * am + e.1.2 * vm * vm
    match softAhead s' g p v a with
    | some b => pgAdvance g (limitHold g b s')
    | none =>
      let vo := decide (pgV s' g < rAbs v)
      let ao := decide (pgA s' g < rAbs a)
      let ovl := (vo || ao) && decide (pgV s' g ≠ 0) && decide (pgA s' g ≠ 0)
      let s' := modPg g (fun x => { x with pos := p, vel := v, acc := a, plan := [], goal := none, gearOver := ovl
                                           phase := if x.blend.isSome then 0xA else 9 }) s'
      if ovl && !x.gearOver then raisePg g 0x64 (flag ao 1 + flag vo 0) s' else s'

/-- A streaming frame (R365). -/
def pgPath (g : Nat) (s : State) : State :=
  match pathBase s g with
  | none => pgAdvance g (pathFail g 1 0 s)
  | some b =>
    let x := pgOf s g
    if x.pathDone then modPg g (fun x => { x with vel := 0, acc := 0 }) s
    else
      let q := x.pathAt + 1
      let n := max 1 (pathInterval s b)
      let k := (q - 1) / n + 1
      let last := pathPoints s b - 1
      let opens := decide ((q - 1) % n = 0)
      let (ok, s) := if opens then pathOpen (b + 0x20 + 16 * k) s else (true, s)
      let lp := pathPoint s b k
      if !ok then pgAdvance g (pathFail g 3 k s)
      else if opens && k == last && (decide (lp.2.1 ≠ 0) || decide (lp.2.2 ≠ 0)) then pgAdvance g (pathFail g 5 k s)
      else
        let e := pathSet s b q
        if pgV s g < rAbs e.2.1 ∨ pgA s g < rAbs e.2.2 ∨ (softEn s g && (softSide s g e.1).isSome) = true then pgAdvance g (pathFail g 4 k s)
        else match softAhead s g e.1 e.2.1 e.2.2 with
          | some h => pgAdvance g (limitHold g h s)
          | none =>
            let done := decide (q = last * n)
            modPg g (fun x => { x with pathAt := q, pathDone := done, pos := e.1, vel := e.2.1, acc := e.2.2, phase := 0xB }) s

/-- A frame of a plan under the look-ahead of R351. -/
def pgChecked (g : Nat) (s : State) : State :=
  let s' := pgAdvance g s
  let x := pgOf s' g
  match softAhead s g x.pos x.vel x.acc with
  | some h => pgAdvance g (limitHold g h s)
  | none => s'

/-- A frame of the motion that runs. -/
def pgMotion (g n : Nat) (s : State) : State :=
  match (pgOf s g).task with
  | .gear => pgGear g n s
  | .pathRun => pgPath g s
  | .path =>
    let s' := pgChecked g s
    let x := pgOf s' g
    if x.task == .path && x.plan.isEmpty then modPg g (fun x => { x with task := .pathRun }) s' else s'
  | .velocity => pgChecked g s
  | .home =>
    let s := pgAdvance g s
    let x := pgOf s g
    if x.hstate = 4 ∧ x.homeStop = true ∧ x.plan.isEmpty = true then
      homeDone g x.homeFrom (modPg g (fun x => { x with hstate := 5, homeStop := false }) s)
    else s
  | .none => modPg g (fun x => { x with vel := 0, acc := 0 }) s
  | _ =>
    let s := pgAdvance g s
    if (pgOf s g).plan.isEmpty then modPg g (fun x => { x with task := .none, endVel := 0 }) s else s

/-! ### Microstep outputs (R369 to R371) -/

/-- The motor coordinate q in 2^-32 rev. -/
def motorQ (x : PgSt) : Int := x.spPos - x.shift

def msAddr (s : State) (g : Nat) (x : PgSt) : Nat :=
  if !stepEn s g then 0
  else
    let f := unsig 32 (motorQ x * ecyc s g)
    (f * tblLen s g / 2 ^ 32 + fld (pgReg s g 0x98) 0 12) % tblLen s g

def ssrDelay (s : State) (g : Nat) : Nat := fld (pgReg s g 0x94) 16 16
def runScale (s : State) (g : Nat) : Nat := fld (pgReg s g 0x94) 8 8
def holdScale (s : State) (g : Nat) : Nat := fld (pgReg s g 0x94) 0 8

/-- A valid KEEP entry, no sooner than 2 s after the previous one (R371). -/
def keepWrite (g : Nat) (s : State) : State :=
  let x := pgOf s g
  let t := (instOf s (frameN s)).toNat
  let soon := match x.lastKeep with | some l => decide (t < l + 2000000000) | none => false
  if stepEn s g && keepEn s g && x.ssr && !x.keepHeld && !soon then
    modPg g (fun x => { x with keepHeld := true, lastKeep := some t })
      (setKeep g { q := motorQ x, shift := x.shift, homed := x.homed, ecyc := ecyc s g, tblLen := tblLen s g, valid := true } s)
  else s

/-- A frame at standstill after SSR_DELAY others: the scale drops and the entry is written (R370, R371). -/
def ssrApply (g : Nat) (s : State) : State :=
  let x := pgOf s g
  let st := stOf s (pgUnit g)
  if stepEn s g && atRest x && operates s (pgUnit g) && decide (ssrDelay s g < x.still) && st != .dormant then
    keepWrite g (modPg g (fun x => { x with ssr := true, scale := holdScale s g }) s)
  else s

/-- STANDSTILL_CURRENT_REDUCTION. -/
def execStandstillCurrentReduction (g : Fin 512) (s : State) : Host.Outcome State Fault Refusal :=
  .next (if deviceUp s then ssrApply g.val s else s)

/-- Current scale, SSR and the KEEP entry's invalidation of a frame (Table 11-5, R370, R371). -/
def pgScale (g : Nat) (s : State) : State :=
  let x := pgOf s g
  let st := stOf s (pgUnit g)
  let rest := atRest x
  let s := modPg g (fun x => { x with
      still := if rest then x.still + 1 else 0
      ssr := x.ssr && rest
      addr := msAddr s g x
      scale := if !stepEn s g || st == .dormant then 0 else if st == .preparing then holdScale s g
        else if st == .faulted then (if rest then holdScale s g else runScale s g)
        else if x.ssr && rest then holdScale s g else runScale s g }) s
  let s := match keepOf s g with
    | some e => if !rest && e.valid then modPg g (fun x => { x with keepHeld := false }) (setKeep g { e with valid := false } s) else s
    | none => s
  ssrApply g s

/-! ### The profile record (R345, R377) -/

/-- AT_TARGET of the frame: the MOVE setpoint equals TARGET at standstill, no plan to it having failed for want of a limit (Table 11-9, R355). -/
def atTarget (s : State) (g : Nat) : Bool :=
  let x := pgOf s g
  pgMode s g == 1 && atRest x && x.spPos == x.target && !x.noPlan

/-- PG_STATUS of the frame (Table 11-9). -/
def pgStatus (s : State) (g : Nat) : Nat :=
  let x := pgOf s g
  let st := stOf s (pgUnit g)
  let rest := atRest x
  let phase :=
    match x.task with
    | .gear => if x.blend.isSome then 0xA else 9
    | .pathRun => if x.pathDone then 0 else 0xB
    | .home => if 1 ≤ x.hstate ∧ x.hstate ≤ 4 then 0xC else 0
    | .velocity => if rest then 0 else 8
    | _ => if rest then 0 else x.phase
  phase * 2 ^ 28 + x.hstate * 2 ^ 24 + x.abort * 2 ^ 20 + flag (st == .dormant) 11 + flag x.ssr 10 + flag x.pathDone 9 + flag x.homeStep 8
    + flag x.homed 7 + flag x.blend.isSome 6 + flag x.ratioSwitch 5 + flag x.guardTrip 4 + flag x.limitHold 3 + flag x.hwLimit 2
    + flag (atTarget s g) 1 + flag rest 0

/-- The record of frame `n` and the history of acceleration setpoints. -/
def pgRecord (g n : Nat) (s : State) : State :=
  let st := stOf s (pgUnit g)
  let s := modPg g (fun x => { x with
      spPos := nearest (x.pos * 4294967296), spVel := satS 32 (nearest (x.vel * 65536)), spAcc := satS 32 (nearest (x.acc * 256)) }) s
  let s := pgScale g s
  let w := wordN (pgStatus s g)
  modPg g (fun x => { x with
      status := w, homeStep := false
      accHist := ((n + 1, x.spAcc, st == .active || st == .stopping) :: x.accHist).take 640 }) s

/-- At boundary `n` the setpoint applied there counts for the assist where the generator is ACTIVE or STOPPING from it on (spec/08 R257). A
content instant lies at most 545 frames back: 16.8 ms of DELAY and 0.25 ms of demodulation at 31.25 us. -/
def pgAssistMark (g n : Nat) (s : State) : State :=
  let st := stOf s (pgUnit g)
  modPg g (fun x => { x with accHist := x.accHist.map (fun e => if e.1 = n then (e.1, e.2.1, st == .active || st == .stopping) else e) }) s

/-- The setpoint of generator `g` for t_(n+1) (R344). -/
def pgFrame (g n : Nat) (s : State) : State :=
  let u := pgUnit g
  let s := modPg g (fun x => { x with guardTrip := false, hwLimit := false, ratioSwitch := false
                                      masterLost := x.masterLost && !masterOk s g }) s
  let x0 := pgOf s g
  let s := match stOf s u with
    | .dormant => modPg g (fun x => { x with vel := 0, acc := 0 }) s
    | .preparing =>
      let s := pgDriver g x0 s
      if stepEn s g then s
      else match wireAt s u 1 with
        | none => s
        | some w =>
          let r := recOf s w.source
          if r.fine && !(unitOf s u).prepDone then
            modUnit u (fun z => { z with prepDone := true }) (modPg g (fun x => { x with pos := rev32 r.pos }) s)
          else s
    | .ready => pgDriver g x0 (modPg g (fun x => { x with vel := 0, acc := 0 }) s)
    | _ =>
      let homing := x0.task == .home && stOf s u == .active
      let s := if homing then pgHoming g x0 s else s
      let s := pgGuard g x0 s
      let s := pgHardLimit g x0 s
      let s := pgMaster g x0 s
      let s := pgUnpowered g x0 (pgDriver g x0 s)
      let s := pgMotion g n s
      if stOf s u == .stopping && atRest (pgOf s g) then modUnit u (fun z => { z with rampDone := true }) s else s
  pgRecord g n s

/-- Generators that the tree lists on this device. -/
def ownGens (s : State) : List Nat := ((ownTines s).filter (fun u => decide (0x200 ≤ u ∧ u < 0x400))).map (· - 0x200)

/-- GENERATOR_SETPOINT: every generator's setpoint of the present frame. -/
def execGeneratorSetpoint (s : State) : Host.Outcome State Fault Refusal :=
  .next (if deviceUp s && s.time.frame.isSome then doFor (ownGens s) (fun g => pgFrame g (frameN s)) s else s)

/-- PG_TLEFT. -/
def pgLeft (s : State) (g : Nat) : Nat :=
  let x := pgOf s g
  let planned := match x.task with | .move => true | .path => true | .stopRamp => true | .quickRamp => true | .holdRamp => true | .limitStop => true | _ => false
  if x.plan.isEmpty || !planned then 0xFFFFFFFF
  else min 0xFFFFFFFF (x.plan.foldl (fun t e => t + e.1) 0 / tfs s).ceil.toNat

/-! ### Committed changes (R349, R378) and the load check (R663) -/

/-- A 64-bit pair in a snapshot. -/
def snap64 (l : List (Nat × Word)) (s : State) (o : Nat) : Int := signed 64 ((snapGet l s o).toNat + 2 ^ 32 * (snapGet l s (o + 4)).toNat)

/-- Output 0 of a generator is wired to a tracker. -/
def drivesTracker (ws : List Wire) (g : Nat) : Bool := ws.any (fun w => w.source == pgUnit g && w.output == 0 && decide (w.sink < 0x200))

/-- The rules of R378 for generator `g`. -/
def motSnapGen (g : Nat) (r : List (Nat × Word) × State) : List (Nat × Word) × State :=
  let o := baseMOT + 0x100 * g
  let u := pgUnit g
  let chg (r : List (Nat × Word) × State) (d : Nat) (m : Word) : Bool := (snapGet r.1 r.2 (o + d) &&& m) != (inF r.2 (o + d) &&& m)
  let keep (c : Bool) (d : Nat) (m : Word) (r : List (Nat × Word) × State) : List (Nat × Word) × State :=
    if c && chg r d m then snapKeep qMOT u 0x6B (o + d) m r else r
  let keep2 (c : Bool) (ds : List Nat) (r : List (Nat × Word) × State) : List (Nat × Word) × State :=
    if c then snapKeepAll qMOT u 0x6B (ds.map (o + ·)) r else r
  if r.1.all (fun e => decide (e.1 < o ∨ o + 0x100 ≤ e.1)) then r
  else
    let s := r.2
    let st := stOf s u
    let x := pgOf s g
    let busy := st != .dormant && st != .ready
    let moving := !atRest x
    let ws := match s.conf with | some i => i.wires | none => []
    let r := keep busy 0 0x110F r
    let r := keep busy 0x90 0x1FFFFFFF r
    let r := keep busy 0x98 0xFFF r
    let geared := pgMode s g == 3 && (st == .active || st == .holding || st == .stopping)
    let r := keep geared 0x54 0xFFFFFFFF r
    let r := keep (geared || snapGet r.1 r.2 (o + 0x58) == 0) 0x58 0xFFFFFFFF r
    let r := keep (snapGet r.1 r.2 (o + 0x60) == 0) 0x60 0xFFFFFFFF r
    let r := keep (x.blend.isSome && bitAt (snapGet r.1 r.2 o) 21) 0 0x200000 r
    let less (d : Nat) : Bool := moving && decide ((snapGet r.1 r.2 (o + d)).toNat < (inF r.2 (o + d)).toNat)
    let r := keep (less 0x10) 0x10 0xFFFFFFFF r
    let r := keep (less 0x14) 0x14 0xFFFFFFFF r
    let r := keep (less 0x18) 0x18 0xFFFFFFFF r
    let on := bitAt (snapGet r.1 r.2 o) 15
    let sp := nearest (x.pos * 4294967296)
    let out := decide (sp < snap64 r.1 r.2 (o + 0x34)) || decide (snap64 r.1 r.2 (o + 0x3C) < sp)
    let r := keep2 (on && (moving || out)) [0x34, 0x38, 0x3C, 0x40] r
    let out := decide (sp < snap64 r.1 r.2 (o + 0x34)) || decide (snap64 r.1 r.2 (o + 0x3C) < sp)
    let r := keep (on && out) 0 0x8000 r
    let on := bitAt (snapGet r.1 r.2 o) 15
    let t := snap64 r.1 r.2 (o + 4)
    let r := keep2 (on && (decide (t < snap64 r.1 r.2 (o + 0x34)) || decide (snap64 r.1 r.2 (o + 0x3C) < t))) [4, 8] r
    let r := keep (fld (snapGet r.1 r.2 o) 0 4 == 3 && (wireAt s u 0).isNone) 0 0xF r
    let r := keep (bitAt (snapGet r.1 r.2 o) 16 && (wireAt s u 1).isNone) 0 0x10000 r
    keep (bitAt (snapGet r.1 r.2 o) 8 && drivesTracker ws g) 0 0x100 r

def motSnap (r : List (Nat × Word) × State) : List (Nat × Word) × State := (List.range 512).foldl (fun r g => motSnapGen g r) r

/-- R663: the inputs that PG_CTRL in force from the SETTINGS of an image requires of a listed generator are wired. -/
def motLoadOk (i : Image) (g : Nat) : Bool :=
  let w := match lastWhere (fun e => e.1 == baseMOT + 0x100 * g) i.settings with | some e => e.2 | none => regReset (baseMOT + 0x100 * g)
  let wired (k : Nat) : Bool := i.wires.any (fun x => x.sink == pgUnit g && x.input == k)
  !(fld w 0 4 == 3 && !wired 0) && !(bitAt w 16 && !wired 1)

end Sys2Proof.Machine
end

