-- ==== Sys2Proof/Machine/Rec.lean ====
section
/-! DEFINITION. Frame records, the frame block, egress copies, black box, scrubber and ledger (spec/12; the DMA rings and the block
egress of spec/13 R427 to R429, R435 to R438). -/
namespace Sys2Proof.Machine

/-! ### Record bytes (R392 to R401) -/

/-- A u32 field. -/
def w32 (x : Nat) : List Byte := leBytes 4 x
/-- An s32 field. -/
def i32 (x : Int) : List Byte := leBytes 4 (unsig 32 x)
def zeros (n : Nat) : List Byte := List.replicate n 0

/-- Position format: bits [63:48] copy bit 47 (Table 0-5). -/
def posBytes (x : Int) : List Byte := leBytes 8 (unsig 64 (signed 48 (unsig 48 x)))

/-- The twin margin field of a tracker (Table 12-5). -/
def twinMargin (s : State) (u : Nat) : Int :=
  let t := twinResOf s u
  if u < 0x200 ∧ t.present = true then (match t.margin with | some m => satS 32 m | none => -0x80000000) else -0x80000000

/-- A channel or port record (Table 12-5). -/
def chBytes (s : State) (n u : Nat) : List Byte :=
  let r := shownRec s u
  posBytes r.pos ++ i32 r.speed ++ i32 r.acc ++ w32 r.coarse ++ leBytes 2 r.posBound ++ leBytes 2 r.speedBound ++ i32 r.reachLo ++ i32 r.reachHi
    ++ leBytes 2 r.amp ++ leBytes 2 (unsig 16 r.quad) ++ w32 (chStatus s u).toNat ++ w32 n ++ i32 r.disc ++ w32 r.age
    ++ i32 (twinMargin s u) ++ w32 (unsig 32 r.ext0) ++ w32 (unsig 32 r.ext1)

/-- The status word of an auxiliary record (Table 12-6). -/
def auxStatus (s : State) (a : Nat) : Nat :=
  let u := 0x400 + a
  let st := (unitOf s u).recSt
  let r := (axOf s a).record
  u * 2 ^ 20 + (if st == .dormant then flag (sliceHeld s (a / 16)) 7
    else flag r.transient 12 + flag r.sigFault 7 + flag r.fineValid 5 + flag r.coarseValid 4) + st.code

/-- An auxiliary record, or the placeholder of a DORMANT channel (Table 12-7, R393). -/
def auxBytes (s : State) (n a : Nat) : List Byte :=
  let r := (axOf s a).record
  let tail := w32 (auxStatus s a) ++ w32 n
  if (unitOf s (0x400 + a)).recSt == .dormant then zeros 24 ++ tail
  else i32 (if r.valid then r.value else -0x80000000) ++ i32 r.coarse ++ i32 r.peak ++ i32 r.rms ++ i32 r.envl
    ++ w32 (r.mode * 65536 + r.range) ++ tail

/-- The status word of a profile record. -/
def pgStatusWord (s : State) (g : Nat) : Nat :=
  let st := (unitOf s (pgUnit g)).recSt
  pgUnit g * 2 ^ 20 + (if st == .dormant then 0 else 0x30) + st.code

/-- A profile record (Table 12-8). -/
def pgBytes (s : State) (n g : Nat) : List Byte :=
  let x := pgOf s g
  posBytes x.spPos ++ i32 x.spVel ++ i32 x.spAcc ++ leBytes 2 x.addr ++ leBytes 1 x.scale ++ zeros 1 ++ w32 x.status.toNat
    ++ w32 (pgStatusWord s g) ++ w32 n

/-- One bit per switch. -/
def swMask (f : Nat → Bool) : Nat := (List.range 64).foldl (fun n k => n + flag (f k) k) 0

/-- The switch set (Table 12-9). -/
def swBytes (s : State) : List Byte :=
  let listed (k : Nat) : Bool := unitExists s (0x640 + k)
  let st (k : Nat) : UState := (unitOf s (0x640 + k)).recSt
  leBytes 8 (swMask (fun k => (swOf s k).latched)) ++ leBytes 8 (swMask (fun k => (swOf s k).chat)) ++ leBytes 8 (swMask listed)
    ++ leBytes 8 (swMask (fun k => listed k && st k != .dormant && st k != .faulted))
    ++ (List.range 32).map (fun j => BitVec.ofNat 8 ((st (2 * j)).code + 16 * (st (2 * j + 1)).code))

/-- The ledger set (R401). -/
def ledBytes (s : State) : List Byte :=
  ((List.range 9).map (fun k => let l := ledOf s k; w32 l.frameP ++ w32 l.frameC ++ w32 l.frameD ++ w32 l.held)).flatten

/-- Kinds with a ledger event in the block of the last ledger instant (R402). -/
def ledEvents (s : State) : List Nat := (List.range 9).filter (fun k => let l := ledOf s k; decide (l.frameD ≠ 0) || !l.balanced)

/-- A ledger event (Table 12-10). -/
def ledEventBytes (s : State) (n k : Nat) : List Byte :=
  let l := ledOf s k
  [0x03, BitVec.ofNat 8 k, BitVec.ofNat 8 (flag (!l.balanced) 0), 0] ++ w32 n ++ w32 l.frameP ++ w32 l.frameC ++ w32 l.frameD ++ w32 l.held
    ++ w32 l.heldBefore ++ w32 (if l.frameD = 0 then 0 else l.frameUnit)

/-- Bit 7 of TYPE marks a deferred event (R399). -/
def markDeferred : List Byte → List Byte
  | b :: t => (b ||| 0x80) :: t
  | [] => []

/-! ### Sizes (R392, R403) -/

def setOn (i : Image) (k : Nat) : Bool := i.sets.setMask.testBit k

/-- Bytes of the block without the event set. -/
def blockBase (i : Image) : Nat :=
  128 + (if setOn i 0 then 64 * (mapBits i.sets.chMap 512).length else 0) + (if setOn i 1 then 64 * (mapBits i.sets.portMap 32).length else 0)
    + (if setOn i 2 then 32 * (mapBits i.sets.auxMap 128).length else 0) + (if setOn i 3 then 32 * (mapBits i.sets.profMap 512).length else 0)
    + (if setOn i 4 then 64 else 0) + (if setOn i 5 then 144 else 0)
/-- Events that a block can hold. -/
def eventRoom (i : Image) : Nat := if setOn i 6 then i.sets.eventMax else 0
/-- BLOCK_MAX and SLOT_TILES. -/
def blockMax (i : Image) : Nat := blockBase i + 32 * eventRoom i
def slotTiles (i : Image) : Nat := ceilDiv (blockMax i) 4096

/-! ### The ledger (R410 to R413) -/

/-- The snapshot of kind `k` at L_n: an imbalance raises kind 0x72. -/
def ledgerKind (k : Nat) (s : State) : State :=
  let l := ledOf s k
  let h := heldNow s k
  let p := l.produced - l.snapP
  let c := l.consumed - l.snapC
  let d := l.dropped - l.snapD
  let ok := decide (p + l.held = c + d + h)
  let s := modLed k (fun l => { l with
      snapP := l.produced, snapC := l.consumed, snapD := l.dropped, held := h, frameP := p, frameC := c, frameD := d, heldBefore := l.held
      frameUnit := l.firstUnit.getD 0, shownDrop := l.lastDrop, shownUnit := l.lastUnit, firstUnit := none, balanced := ok }) s
  if ok then s else raiseFault qFMEM 0x616 0x72 k s

/-- L_n of the present frame. -/
def ledgerSnapshot (s : State) : State :=
  doFor (List.range 9) ledgerKind { s with fm := { s.fm with ledgerFrame := frameN s % 2 ^ 32 } }

/-- LEDGER_SNAPSHOT. -/
def execLedgerSnapshot (s : State) : Host.Outcome State Fault Refusal :=
  .next (if hubUp s && s.time.frame.isSome then ledgerSnapshot s else s)

/-! ### Events of a block (R399, R402) -/

/-- The event records of block `n`; what stays deferred, and drops of the frame. -/
def blockEvents (n room : Nat) (s : State) : List (List Byte) × State :=
  let tn := instOf s n
  let old := s.fm.deferred.map (fun e => markDeferred e.bytes)
  let due := s.fm.events.filter (fun e => decide ((e.time : Int) ≤ tn))
  let due := sortBy (fun a b => decide (a.time < b.time)) due
  let led := (ledEvents s).map (fun k => ({ time := tn.toNat, bytes := ledEventBytes s n k } : Ev))
  let fresh := due ++ led
  let nOld := min room old.length
  let nNew := min (room - nOld) fresh.length
  let rest := s.fm.deferred.drop nOld ++ fresh.drop nNew
  let lost := rest.length - 1024
  let s := ledConsume 7 (nOld + nNew) (ledProduce 7 led.length s)
  let s := { s with fm := { s.fm with deferred := rest.take 1024, events := s.fm.events.filter (fun e => decide (tn < (e.time : Int))) } }
  let s := if lost = 0 then s else raiseFault qFMEM 0x616 0x74 (min lost 65535) (ledDrop 7 lost 0x616 s)
  (old.take nOld ++ (fresh.take nNew).map (·.bytes), s)

/-! ### The block (R392, R400) -/

/-- SAFETY_SINGLE: every mode but PAIRED (spec/14 R461). -/
def safetySingle (s : State) : Bool := s.twn.mode != 3

/-- The header, with the black-box flag where `zeroed`. -/
def blockHeader (s : State) (i : Image) (n len events : Nat) (zeroed : Bool) : List Byte :=
  let se := sessionOf s 0
  let cnt (k : Nat) (m b : Nat) : Nat := if setOn i k then (mapBits m b).length else 0
  leBytes 4 0x42465647 ++ leBytes 2 1 ++ leBytes 1 (ownPos s)
    ++ leBytes 1 (flag se.isOpen 0 + flag (s.twn.mode != 0) 1 + flag s.slots.velvet.isSome 2 + flag zeroed 3 + flag (safetySingle s) 4)
    ++ leBytes 8 deviceUid ++ w32 i.version ++ w32 len ++ leBytes 8 n ++ leBytes 8 (instOf s n).toNat
    ++ leBytes 2 (cnt 0 i.sets.chMap 512) ++ leBytes 2 (cnt 1 i.sets.portMap 32) ++ leBytes 2 (cnt 2 i.sets.auxMap 128)
    ++ leBytes 2 (cnt 3 i.sets.profMap 512) ++ leBytes 2 events ++ leBytes 1 i.sets.setMask ++ zeros 1
    ++ w32 (if se.isOpen then se.epoch else 0) ++ w32 s.fm.deferred.length ++ zeros 4

/-- The trailer without its tag. -/
def blockTrailer (s : State) : List Byte :=
  let bits (f : LedSt → Bool) : Nat := (List.range 9).foldl (fun m k => m + flag (f (ledOf s k)) k) 0
  leBytes 2 (bits (·.balanced)) ++ leBytes 2 (bits (fun l => decide (l.frameD ≠ 0)))
    ++ ((List.range 9).map (fun k => w32 (ledOf s k).frameD)).flatten ++ w32 s.fm.bbAged ++ zeros 4

/-- The bytes of block `n`. -/
def blockBytes (s : State) (i : Image) (n : Nat) (events : List (List Byte)) : List Byte :=
  let on (k : Nat) (l : List Byte) : List Byte := if setOn i k then l else []
  let body := on 0 ((mapBits i.sets.chMap 512).map (chBytes s n)).flatten
    ++ on 1 ((mapBits i.sets.portMap 32).map (fun p => chBytes s n (0x480 + p))).flatten
    ++ on 2 ((mapBits i.sets.auxMap 128).map (auxBytes s n)).flatten
    ++ on 3 ((mapBits i.sets.profMap 512).map (pgBytes s n)).flatten
    ++ on 4 (swBytes s) ++ on 5 (ledBytes s) ++ events.flatten
  let len := 128 + body.length
  let auth := blockHeader s i n len events.length false ++ body ++ blockTrailer s
  let se := sessionOf s 0
  auth ++ (if se.isOpen then leBytes 16 (gmac se.key (gcmIv 1 n) auth).toNat else zeros 16)

/-! ### Copies (R404 to R406) -/

/-- A copy leaves its slot. -/
def endCopy (frame c : Nat) (s : State) : State :=
  { s with fm := { s.fm with stage := s.fm.stage.map (fun e => if e.frame = frame then { e with copies := e.copies.filter (· != c) } else e) } }

/-- A completed copy is consumed. -/
def copyDone (frame c : Nat) (s : State) : State := ledConsume 6 1 (endCopy frame c s)

/-- A copy is dropped with a reason of kind 0x73. -/
def copyDrop (frame c reason : Nat) (s : State) : State :=
  let s := ledDrop 6 1 0x616 (endCopy frame c s)
  let s := { s with fm :=
      if reason = 5 then { s.fm with dropsForced := satInc 8 s.fm.dropsForced }
      else if c = 0 then { s.fm with dropsBb := satInc 8 s.fm.dropsBb }
      else if c = 9 then { s.fm with dropsTwin := satInc 8 s.fm.dropsTwin }
      else { s.fm with dropsDma := satInc 8 s.fm.dropsDma } }
  let s := if 1 ≤ c ∧ c ≤ 8 then modDma (c - 1) (fun d => { d with dropped := satInc 16 d.dropped }) s else s
  raiseFault qFMEM 0x616 0x73 (reason * 2 ^ 28 + c * 2 ^ 24 + frame % 2 ^ 24) s

/-- First tile of a stage slot. -/
def slotTile (s : State) (slot : Nat) : Nat :=
  match s.conf, regionOf s 1 with | some i, some r => r.first + slot * slotTiles i | _, _ => 0

/-- A consumer opens the tiles of a slot: which are good. -/
def openSlot (consumer first : Nat) (len : Nat) (s : State) : List Bool × State :=
  (List.range (ceilDiv len 4096)).foldl (fun r k => let e := checkTile consumer (first + k) r.2; (r.1 ++ [e.1], e.2)) ([], s)

/-- DMA engine registers (Tables 13-9, 13-10). -/
def dmReg (s : State) (e o : Nat) : Word := rwOf s (baseHST + 0x100 + 0x40 * e + o)
def dmEn (s : State) (e : Nat) : Bool := bitAt (dmReg s e 0) 0
def dmDecim (s : State) (e : Nat) : Nat := max 1 (fld (dmReg s e 0) 24 8)
def dmEntries (s : State) (e : Nat) : Nat := let n := fld (dmReg s e 0xC) 0 17; if 2 ≤ n ∧ n ≤ 65536 then n else 2
/-- The engine takes copies. -/
def dmTakes (s : State) (e n : Nat) : Bool := dmEn s e && !(dmaOf s e).halted && decide (n % dmDecim s e = 0)
/-- The ring is full (R436). -/
def dmFull (s : State) (e : Nat) : Bool :=
  decide (((dmaOf s e).p + 1) % dmEntries s e = fld (dmReg s e 0x1C) 0 16 % 65536)

/-- EG_PORTS. -/
def egPorts (s : State) : Nat := fld (inF s (baseNET + 0x40)) 0 4

/-- The enabled consumers of block `n` but the black box. -/
def consumersOf (s : State) (i : Image) (n : Nat) : List Nat :=
  (if i.sets.consumers.testBit 0 && egPorts s != 0 then [0] else [])
    ++ (if i.sets.consumers.testBit 1 then ((List.range 8).filter (fun e => dmTakes s e n)).map (· + 1) else [])
    ++ (if i.sets.consumers.testBit 2 then [9] else [])

/-- A DMA copy begins at record ready: it is dropped where the ring is full or a tile is BAD (R437, R406). -/
def dmaBegin (n first len e : Nat) (s : State) : State :=
  if dmFull s e then copyDrop n (e + 1) 2 s
  else
    let r := openSlot 1 first len s
    if r.1.all id then r.2 else copyDrop n (e + 1) 4 r.2

/-- The twin exchange's copy at record ready: taken by a link that carries traffic (spec/14 R459, R460), else dropped (R405). -/
def twinCopy (n first len : Nat) (s : State) : State :=
  if twinTalks s then
    let r := openSlot 1 first len s
    let b := memBytes s (0x1000 * first) len
    if r.1.all id then twinSend b (.twinBlock n b) (copyDone n 9 r.2) else copyDrop n 9 4 r.2
  else copyDrop n 9 3 s

/-- Entries of the black box. -/
def bbEntries (s : State) : Nat :=
  match s.conf, regionOf s 5 with | some i, some r => r.tiles / slotTiles i | _, _ => 0

/-- The black-box copy of block `n` (R406, R408, R409). -/
def blackBox (i : Image) (n first len events : Nat) (s : State) : State :=
  let dec := max 1 (fld (inF s baseFMEM) 0 8)
  match regionOf s 5 with
  | none => s
  | some r =>
    let E := bbEntries s
    if E = 0 ∨ n % dec ≠ 0 ∨ i.sets.consumers.testBit 3 = false then s
    else
      let s := ledProduce 6 1 s
      let k := openSlot 2 first len s
      let s := k.2
      let bad := k.1.any (fun b => !b)
      let raw := (List.range (ceilDiv len 4096)).map (fun j => if k.1.getD j true then tileBytes s (first + j) else zeros 4096)
      let bytes := raw.flatten.take len
      let bytes := if bad then blockHeader s i n len events true ++ bytes.drop 64 else bytes
      let h := (s.fm.bbHead + 1) % E
      let t := r.first + h * slotTiles i
      let ts := (List.range (slotTiles i)).map (t + ·)
      let s := doFor ts openTile s
      let s := doFor ts sealTile (setBytes (0x1000 * t) bytes s)
      ledConsume 6 1 { s with fm := { s.fm with
        bbHead := h, bbCount := min E (s.fm.bbCount + 1), bbAged := if s.fm.bbCount = E then (s.fm.bbAged + 1) % 2 ^ 32 else s.fm.bbAged } }

/-- t_(n+2) of block n: unfinished copies end as FORCED and the slot is released (R405). -/
def releaseSlot (frame : Nat) (s : State) : State :=
  match s.fm.stage.find? (fun e => e.frame == frame) with
  | none => s
  | some e =>
    let s := doFor e.copies (fun c => copyDrop frame c 5) s
    ledConsume 2 1 { s with fm := { s.fm with stage := s.fm.stage.filter (fun e => e.frame != frame) } }

def forcedEnd (s : State) : State :=
  doFor ((s.fm.stage.filter (fun e => decide (e.frame + 2 ≤ frameN s))).map (·.frame)) releaseSlot s

/-- EGRESS_FORCED_END. -/
def execEgressForcedEnd (s : State) : Host.Outcome State Fault Refusal := .next (if hubUp s then forcedEnd s else s)

/-- Every copy ends as FORCED: a switch or rollback (R418). -/
def forceAll (s : State) : State := doFor (s.fm.stage.map (·.frame)) releaseSlot s

/-- Emulators that the tree lists on this device. -/
def ownEmus (s : State) : List Nat := ((ownTines s).filter (fun u => decide (0x4A0 ≤ u ∧ u < 0x4B0))).map (· - 0x4A0)

/-- The two copies of every listed unit's state are compared (spec/13 R445). A joining twin in PAIRING runs trackers whose records show
DORMANT (spec/14 R464). -/
def divergence (s : State) : State :=
  if s.twn.joiner && s.twn.mode == 1 then s
  else doFor ((treeUnits s).map (·.id) ++ [0xFFF]) (fun u s =>
    let x := unitOf s u
    if x.st == x.recSt then s else raiseFault qHST u 0x8B x.st.code s) s

/-- Assembly of block `n` opens its slot's tiles at t_n (R404); a block that still holds the slot ends first. -/
def openStage (n : Nat) (s : State) : State :=
  match s.conf with
  | some i =>
    if s.clk.level == 2 then
      let slot := n % max 1 i.sets.stageSlots
      let s := doFor ((s.fm.stage.filter (fun e => decide (e.slot = slot))).map (·.frame)) releaseSlot s
      doFor ((List.range (slotTiles i)).map (slotTile s slot + ·)) openTile s
    else s
  | none => s

/-- Assembly and sealing of block `n`, and the start of its copies (R404). -/
def assemble (i : Image) (n : Nat) (s : State) : State :=
  let slots := max 1 i.sets.stageSlots
  let slot := n % slots
  let s := doFor ((s.fm.stage.filter (fun e => decide (e.slot = slot))).map (·.frame)) releaseSlot s
  let e := blockEvents n (eventRoom i) s
  let s := e.2
  let bytes := blockBytes s i n e.1
  let len := bytes.length
  let first := slotTile s slot
  let ts := (List.range (slotTiles i)).map (first + ·)
  let s := doFor ts openTile s
  let s := doFor ts sealTile (setBytes (0x1000 * first) bytes s)
  let cs := consumersOf s i n
  let s := { s with fm := { s.fm with
      stage := s.fm.stage ++ [{ frame := n, slot, len, copies := cs }], lastLen := len, lastFrame := n, lastSlot := slot } }
  let s := ledProduce 6 cs.length (ledProduce 2 1 s)
  let s := doFor (cs.filter (fun c => decide (1 ≤ c ∧ c ≤ 8))) (fun c => dmaBegin n first len (c - 1)) s
  let s := if 9 ∈ cs then twinCopy n first len s else s
  blackBox i n first len e.1.length s

/-- TICK_DECIM. -/
def tickDecim (s : State) : Nat := max 1 (fld (rwOf s (baseHST + 8)) 0 16)

/-- Record ready of frame `n`. -/
def recordReady (n : Nat) (s : State) : State :=
  let t := (instOf s n).toNat
  let s := showPins trigRest s (doFor (ownEmus s) (fun e => emFrame e (t + 7001) (t + 8000)) s)
  let s := divergence s
  let s := match s.conf with
    | some i => if s.clk.level == 2 then assemble i n s else (blockEvents n 0 s).2
    | none => s
  if n % tickDecim s = 0 then intSource 10 s else s

/-! ### Block egress on the backbone (spec/13 R427 to R429) -/

/-- FRAG_DATA in force. -/
def fragData (s : State) : Nat := let n := fld (inF s (baseNET + 0x40)) 16 14; if 256 ≤ n ∧ n ≤ 8976 ∧ n % 16 = 0 then n else 1440

/-- Ports of EG_PORTS that are up. -/
def portsUp (s : State) : List Nat := (mapBits (egPorts s) 4).filter (fun k => (bbPortOf s k).up)

/-- Big-endian bytes, as Ethernet and the I3C bus carry numbers (PRESUMED, log 40). -/
def beBytes (n x : Nat) : List Byte := (leBytes n x).reverse

/-- FRER of EG_CTRL (Table 13-8). -/
def egFrer (s : State) : Bool := bitAt (inF s (baseNET + 0x40)) 4

/-- The message header of fragment `k` of `count` of the block `e`, with `n` data bytes (Table 13-2). -/
def fragHeader (s : State) (e : StageSlot) (k count n : Nat) : List Byte :=
  [0x01, BitVec.ofNat 8 (flag (decide (k + 1 = count)) 0)] ++ leBytes 2 k ++ leBytes 2 count ++ leBytes 2 n ++ w32 e.frame ++ w32 (k * fragData s)

/-- Fragment `k` of the block `e` as port `p` sends it, up to its FCS (R427): EG_DA, the port's source address, which the spec does not state
(log 1), a C-VLAN tag, an R-TAG of number `q` with FRER = 1, ETYPE, header and data. -/
def fragFrame (s : State) (e : StageSlot) (count p k : Nat) (q : BitVec 16) : List Byte :=
  let tag := inF s (baseNET + 0x4C)
  let data := memBytes s (0x1000 * slotTile s e.slot + k * fragData s) (min (fragData s) (e.len - k * fragData s))
  beBytes 6 ((inF s (baseNET + 0x44)).toNat + fld (inF s (baseNET + 0x48)) 0 16 * 2 ^ 32) ++ leBytes 6 (Config.openNat 11 p)
    ++ beBytes 2 0x8100 ++ beBytes 2 (fld tag 12 3 * 2 ^ 13 + fld tag 0 12)
    ++ (if egFrer s then beBytes 2 0xF1C1 ++ zeros 2 ++ beBytes 2 q.toNat else []) ++ beBytes 2 (fld tag 16 16)
    ++ fragHeader s e k count data.length ++ data

/-- The first `n` fragments of the block `e` as port `p` sends them, their sequence numbers common to all ports (R427, R429). -/
def fragFrames (s : State) (e : StageSlot) (count n p : Nat) : List (List Byte) :=
  (List.range n).map (fun k => fragFrame s e count p k (s.net.frerSeq + BitVec.ofNat 16 k))

/-- The first `n` fragments of the block `e` go out on the ports `ps`. -/
def sendFrags (e : StageSlot) (count n : Nat) (ps : List Nat) (s0 : State) : State :=
  let tc := fld (inF s0 (baseNET + 0x40)) 8 3
  let s := doFor ps (fun p s =>
    modBbPort p (fun x => { x with tx := (x.tx + n) % 2 ^ 32 }) (emit (.block e.frame p tc (fragFrames s0 e count n p)) s)) s0
  { s with net := { s.net with frerSeq := if egFrer s then s.net.frerSeq + BitVec.ofNat 16 n else s.net.frerSeq } }

/-- The window of EG_TC opens: the block's fragments go out on every port that is up, the first `sent` of them where no more complete before it
closes, and then the copy is dropped (R428, R429). -/
def egressWindow (sent : Nat) (s : State) : State :=
  doFor (s.fm.stage.filter (fun e => e.copies.contains 0)) (fun e s =>
    let miss (s : State) : State := { s with net := { s.net with egMisses := satInc 16 s.net.egMisses } }
    let r := openSlot 1 (slotTile s e.slot) e.len s
    let s := r.2
    let ps := portsUp s
    let frags := ceilDiv e.len (fragData s)
    if !(r.1.all id) then copyDrop e.frame 0 4 s
    else if ps.isEmpty then copyDrop e.frame 0 1 s
    else if sent < frags then copyDrop e.frame 0 1 (miss (sendFrags e frags sent ps s))
    else
      let s := copyDone e.frame 0 (sendFrags e frags frags ps s)
      { s with net := { s.net with egFrame := e.frame % 65536 } }) s

/-- EGRESS_WINDOW_OPEN: how many fragments of a block complete before the window closes. -/
def execEgressWindowOpen (sent : Nat) (s : State) : Host.Outcome State Fault Refusal := .next (if hubUp s then egressWindow sent s else s)

/-! ### DMA rings (spec/13 R436 to R438) -/

/-- Engine `e` has written its oldest block: writeback, P, interrupt. A halted engine writes nothing. -/
def dmaComplete (e : Nat) (s : State) : State :=
  match s.fm.stage.find? (fun x => x.copies.contains (e + 1) && !(dmaOf s e).halted) with
  | none => s
  | some x =>
    let d := dmaOf s e
    let p' := (d.p + 1) % dmEntries s e
    let addr := rw64 s (baseHST + 0x100 + 0x40 * e + 4) + d.p * (dmReg s e 0x10).toNat
    let every := max 1 (fld (dmReg s e 0) 16 8)
    let due := decide (every ≤ d.sinceInt + 1)
    let s := modDma e (fun d => { d with p := p', completed := satInc 16 d.completed, sinceInt := if due then 0 else d.sinceInt + 1 })
      (emit (.dma e addr x.frame x.len (rw64 s (baseHST + 0x100 + 0x40 * e + 0x14)) (leBytes 8 x.frame ++ w32 x.len ++ leBytes 2 d.p ++ leBytes 2 p'))
        (copyDone x.frame (e + 1) s))
    if due then intSource e s else s

/-- DMA_COPY_COMPLETE. -/
def execDmaCopyComplete (e : Fin 8) (s : State) : Host.Outcome State Fault Refusal := .next (if hubUp s then dmaComplete e.val s else s)

/-- Engine `e` is halted (R437). -/
def dmaHalt (e : Nat) (s : State) : State :=
  if dmEn s e && !(dmaOf s e).halted then raiseFault qHST 0x618 0x89 e (modDma e (fun d => { d with halted := true }) s) else s

/-- Bus Master Enable takes a value: as it becomes 0 every engine is halted (R437). -/
def setBme (b : Bool) (s : State) : State :=
  let was := s.hst.bme
  let s := { s with hst := { s.hst with bme := b } }
  if was && !b then doFor (List.range 8) dmaHalt s else s

/-- DMA_HALT: the host has rejected a write of engine `e`, or Bus Master Enable has become 0. -/
def execDmaHalt (e : Fin 8) (bmeCleared : Bool) (s : State) : Host.Outcome State Fault Refusal :=
  .next (if hubUp s then dmaHalt e.val (if bmeCleared then setBme false s else s) else s)

/-- DMA copies in progress end as FORCED (R455). -/
def dmaForced (s : State) : State :=
  doFor s.fm.stage (fun e s => doFor (e.copies.filter (fun c => decide (1 ≤ c ∧ c ≤ 8))) (fun c => copyDrop e.frame c 5) s) s

/-- A write of DM_CTRL (R437, R438). -/
def dmaCtrl (e : Nat) (v : Word) (s : State) : State :=
  let was := dmEn s e
  let on := bitAt v 0
  let s := setRw (baseHST + 0x100 + 0x40 * e) (v &&& 0xFFFF0001) s
  modDma e (fun d => { d with halted := d.halted && on, p := if on && !was then 0 else d.p, sinceInt := if on && !was then 0 else d.sinceInt }) s

/-- DMA_ENABLE. -/
def execDmaEnable (e : Fin 8) (v : Word) (s : State) : Host.Outcome State Fault Refusal :=
  .next (if deviceUp s then dmaCtrl e.val v s else s)

/-- A withheld vector is sent once nothing withholds it (R435). -/
def msixDeliver (v : Nat) (s : State) : State :=
  if s.hst.msixPend.getLsbD v && msixOpen s v then
    emit (.msix v) { s with hst := { s.hst with msixPend := s.hst.msixPend &&& ~~~(BitVec.ofNat 64 (2 ^ v)) } }
  else s

/-- MSIX_PENDING_DELIVERY. -/
def execMsixPendingDelivery (v : Fin 64) (s : State) : Host.Outcome State Fault Refusal := .next (msixDeliver v.val s)

/-! ### Scrubber (R388) -/

/-- Tiles of PATH, SIGMAP and FIRSTORE, ascending. -/
def scrubTiles (s : State) : List Nat :=
  let rs := (regionsIn s).filter (fun r => r.type == 2 || r.type == 3 || r.type == 4)
  ((sortBy (fun a b => decide (a.first < b.first)) rs).map (fun r => (List.range r.tiles).map (r.first + ·))).flatten

/-- The next tile to scrub: the next sealed one in ascending order, or one that a consumer opens in the same cycle (R388, R420). -/
def scrubNext (s : State) : Option Nat :=
  let ts := (scrubTiles s).filter (fun t => (tileOf s t).st == 2 || sameCycle true t s)
  match ts.find? (fun t => decide (s.fm.scrubPos ≤ t)) with | some t => some t | none => ts.head?

/-- The next sealed tile is checked, every SCRUB_PERIOD frames. -/
def scrub (s : State) : State :=
  let period := fld (inF s baseFMEM) 16 16
  if period = 0 ∨ s.fm.scrubLeft ≠ 0 then s
  else
    let s := { s with fm := { s.fm with scrubLeft := period } }
    match scrubNext s with
    | none => s
    | some t =>
      let s := (checkTile 5 t s).2
      { s with fm := { s.fm with scrubPos := (t + 1) % 16384 } }

/-- SCRUB_TILE. -/
def execScrubTile (s : State) : Host.Outcome State Fault Refusal := .next (if deviceUp s then scrub s else s)

end Sys2Proof.Machine
end

