-- ==== Sys2Proof/Machine/Net.lean ====
section
/-! DEFINITION. The backbone interface: cell time, grandmaster, link state, command messages and their responses (spec/13 R423 to R433,
R453 to R458; spec/01 R39, R40). -/
namespace Sys2Proof.Machine

/-! ### Cell time (R425, R426; spec/01 R39, R40; spec/17 R576) -/

/-- SYNC_TH in force. -/
def syncTh (s : State) : Nat := max 1 (fld (inF s (baseNET + 0x18)) 0 16)

/-- The synchronised condition takes a value: interrupt source 11 on a change, kind 0x06 while it does not hold (R40). The spec names
no source unit for kinds 0x05 and 0x06: 0x612, which owns the discipline loop (log 24). -/
def setSync (b : Bool) (s : State) : State :=
  let was := s.net.sync
  let s := { s with net := { s.net with sync := b } }
  let s := setCond qCLK 0x612 0x06 0 (!b) 0 s
  if was = b then s else intSource 11 s

/-- Cell time moves by `d` ns: above 1 us the frame instants keep their place and slew, and the grid is misaligned (R39, R576). Before the
first boundary no instant has a place to keep: the frames to come are numbered anew (R14; log 86). -/
def stepTime (d : Int) (raise : Bool) (s : State) : State :=
  let big := decide (1000 < d.natAbs)
  let s := { s with time := { s.time with
      now := ((s.time.now : Int) + d).toNat, slew := if big && s.time.frame.isSome then s.time.slew + d else s.time.slew } }
  if !big then s
  else
    let s := if s.time.frame.isNone then numberFrames s.time.now s else s
    let s := if raise then raiseFault qCLK 0x612 0x05 0 s else s
    let e := (s.clk.modErr + d * 1000) % 3125000
    if s.clk.modLock then setModErr (if e < 1562500 then e else e - 3125000) s else s

/-- The grandmaster is `gmId`: a change of its identity raises kind 0x83 (R426). -/
def setGm (gmId : BitVec 64) (s : State) : State :=
  let chg := s.net.gmId != gmId
  let s := { s with net := { s.net with gmId } }
  if chg then raiseFault qNET 0x617 0x83 (gmId.toNat % 2 ^ 32) s else s

/-- A sync message: the offset from the grandmaster estimate, and what the announcements say of the grandmaster (R426). -/
def syncMessage (offset : Int) (gmId : BitVec 64) (steps : Nat) (gm : Bool) (s : State) : State :=
  let s := setGm gmId s
  let near := decide (offset.natAbs ≤ syncTh s)
  let run := if near then min 8 (s.net.goodRun + 1) else 0
  let was := s.net.sync
  let s := { s with net := { s.net with ptpOn := true, gm, gmSteps := steps % 65536, offset := satS 32 offset, goodRun := run } }
  let s := if gm then s else stepTime (-offset) was s
  setSync (gm || run == 8 || (was && near)) s

/-- SYNC_MESSAGE. -/
def execSyncMessage (offset : Int) (gmId : BitVec 64) (steps : Nat) (grandmaster : Bool) (s : State) : Host.Outcome State Fault Refusal :=
  .next (if hubUp s then syncMessage offset gmId steps grandmaster s else s)

/-- Three sync intervals have passed without a sync message. -/
def syncTimeout (s : State) : State :=
  if s.net.gm then s else setSync false { s with net := { s.net with goodRun := 0 } }

/-- SYNC_TIMEOUT. -/
def execSyncTimeout (s : State) : Host.Outcome State Fault Refusal := .next (if hubUp s then syncTimeout s else s)

/-- The best master selection picks a grandmaster (R426). -/
def gmChange (gmId : BitVec 64) (gm : Bool) (s : State) : State :=
  let s := setGm gmId { s with net := { s.net with gm, ptpOn := true, gmSteps := if gm then 0 else s.net.gmSteps } }
  if gm then setSync true s else s

/-- GRANDMASTER_CHANGE. -/
def execGrandmasterChange (gmId : BitVec 64) (grandmaster : Bool) (s : State) : Host.Outcome State Fault Refusal :=
  .next (if hubUp s then gmChange gmId grandmaster s else s)

/-- A write of CT_INIT_HI: cell time is set once while no image is in force (R425), and is ignored with kind 0x8A otherwise. Setting it is a
step of cell time like any other (spec/01 R14, R39; log 86). -/
def ctInit (hi : Word) (s : State) : State :=
  let lo := rwOf s (baseNET + 0x20)
  if s.conf.isSome then raiseFault qHST 0x618 0x8A (baseNET + 0x24) s
  else
    let s := setRw (baseNET + 0x24) hi s
    stepTime (((lo.toNat + 2 ^ 32 * hi.toNat : Nat) : Int) - s.time.now) true { s with net := { s.net with ctSet := true } }

/-- CT_INIT. -/
def execCtInit (hi : Word) (s : State) : Host.Outcome State Fault Refusal := .next (if deviceUp s then ctInit hi s else s)

/-! ### Ports and ingress policing (R423, R435) -/

/-- A backbone port reports: interrupt source 12 where its link changes state, kind 0x80 where it goes down. Its other fields are what Table 13-7
shows of it (DESIGN CHOICE, log 107: this row brings them). -/
def bbLink (k : Nat) (r : PortReport) (s : State) : State :=
  let was := (bbPortOf s k).up
  let s := modBbPort k (fun p => { p with
    up := r.up, fec := r.fec && r.up, asCapable := r.asCapable && r.up, ptpState := r.ptpState.val, pdelay := r.pdelay.toNat
    rx := (p.rx + r.rx) % 2 ^ 32, fcs := min 0xFFFF (p.fcs + r.fcs) }) s
  if was = r.up then s
  else
    let s := intSource 12 s
    if r.up then s else raiseFault qNET 0x617 0x80 k s

/-- BACKBONE_LINK_CHANGE. -/
def execBackboneLinkChange (k : Fin 4) (r : PortReport) (s : State) : Host.Outcome State Fault Refusal :=
  .next (if hubUp s && !clockHeld s 12 then bbLink k.val r s else s)

/-- A frame that violates its stream filter, gate or meter is discarded (R423). -/
def streamGate (f p : Nat) (s : State) : State :=
  raiseFault qNET 0x617 0x84 f (modBbPort p (fun x => { x with rx := (x.rx + 1) % 2 ^ 32, discards := satInc 16 x.discards }) s)

/-- STREAM_GATE_CLOSED. -/
def execStreamGateClosed (filter : Fin 64) (port : Fin 4) (s : State) : Host.Outcome State Fault Refusal :=
  .next (if hubUp s then streamGate filter.val port.val s else s)

/-- LATENT_ERROR_DETECTION: the FRER latent error test of a command stream finds an error (R423, Table 13-6). -/
def execLatentErrorDetection (stream : Fin 8) (s : State) : Host.Outcome State Fault Refusal :=
  .next (if hubUp s then raiseFault qNET 0x617 0x87 stream.val s else s)

/-! ### Command messages (R430, R431) -/

def csCtrl (s : State) (k : Nat) : Word := inF s (baseNET + 0x400 + 0x20 * k)
/-- CREDITS in force. -/
def csCredits (s : State) (k : Nat) : Nat := max 1 (min 16 (fld (csCtrl s k) 0 5))
/-- Credits free. -/
def csFree (s : State) (k : Nat) : Nat := csCredits s k - (streamOf s k).used

/-- Check 2: the tag under the stream's session. -/
def msgTagOk (s : State) (m : CmdMessage) : Bool :=
  let x := sessionOf s (1 + m.stream)
  x.isOpen && x.epoch % 65536 == m.keyEpoch % 65536 && gmac x.key (gcmIv 2 (m.stream * 2 ^ 32 + m.seq)) m.bytes == m.tag

/-- Check 4: the first failing code, 0 where the format is good: the header's count is that of the records the message carries. -/
def msgFormat (m : CmdMessage) : Nat :=
  if m.type ≠ 2 ∨ m.bytes.length ≠ 24 + 16 * m.count ∨ m.count = 0 ∨ 64 < m.count
      ∨ m.records.any (fun r => !(r.op == 1 || (r.op == 2 && decide (1 ≤ r.arg ∧ r.arg ≤ 8)))) then 4
  else if m.records.any (fun r => r.op == 1 && !isRws r.arg) then 7 else 0

/-- A response waits to be sent (R433). -/
def queueResponse (m : CmdMessage) (result frame : Nat) (results : List Nat) (s : State) : State :=
  { s with net := { s.net with responses := s.net.responses ++ [{ port := m.port, stream := m.stream, seq := m.seq, result, frame, results }] } }

/-- A refused message: kind 0x85, its credit returned at once, its response due (R430, R458). -/
def refuseMsg (m : CmdMessage) (result : Nat) (s : State) : State :=
  queueResponse m result m.frame (List.replicate m.records.length result)
    (ledConsume 0 1 (ledProduce 0 1 (raiseFault qNET 0x617 0x85 (result * 2 ^ 24 + m.stream % 8 * 2 ^ 16 + m.seq % 65536) s)))

/-- The history length of the sequence recovery of a command stream (Table 13-1). -/
def frerLen (s : State) (k : Nat) : Nat := max 1 (min 32 (Config.frerHistory (sectionBytes s 9) k))

/-- The vector recovery algorithm on an R-TAG number `q` with history length `h`: whether the frame is passed, and the stream after it
(Table 13-1; the algorithm is IEEE 802.1CB's, PRESUMED, log 107). -/
def frerAccept (h : Nat) (q : BitVec 16) (x : StreamSt) : Bool × StreamSt :=
  match x.frerNum with
  | none => (true, { x with frerNum := some q, frerHist := [true] })
  | some r =>
    let d := (q - r).toInt
    if (h : Int) ≤ d.natAbs then (false, x)
    else if d ≤ 0 then
      if x.frerHist.getD d.natAbs false then (false, x)
      else
        let l := x.frerHist ++ List.replicate (d.natAbs + 1 - x.frerHist.length) false
        (true, { x with frerHist := l.set d.natAbs true })
    else (true, { x with frerNum := some q, frerHist := (true :: (List.replicate (d.natAbs - 1) false ++ x.frerHist)).take h })

/-- Sequence recovery of a message: one without an R-TAG is passed, a duplicate and one out of range are discarded. -/
def recoverMsg (m : CmdMessage) (s : State) : Bool × State :=
  match m.rtag with
  | none => (true, s)
  | some q =>
    if m.stream < 8 then
      let r := frerAccept (frerLen s m.stream) q (streamOf s m.stream)
      (r.1, modStream m.stream (fun _ => r.2) s)
    else (true, s)

/-- A TYPE 0x02 message that sequence recovery has passed. A record for a spanning beam has its cut-off a frame earlier, and the manager relays it (spec/02 R51,
spec/14 R482). -/
def takeMessage (m : CmdMessage) (s : State) : State :=
  if 8 ≤ m.stream ∨ bitAt (csCtrl s m.stream) 31 = false ∨ csFree s m.stream = 0 then
    raiseFault qNET 0x617 0x86 (m.stream % 8) (ledDrop 0 1 0x617 (ledProduce 0 1 s))
  else if !msgTagOk s m then refuseMsg m 2 s
  else if m.seq ≤ (streamOf s m.stream).seq then refuseMsg m 3 s
  else if msgFormat m ≠ 0 then refuseMsg m (msgFormat m) s
  else
    let spans := (m.records.filter (fun r => r.op == 2 && herdSpan s r.unit))
    let first := s.time.openFrame + (if spans.isEmpty then 0 else 1)
    let late := decide (m.frame < first)
    if late ∧ m.strict = true then refuseMsg m 6 s
    else if farLimit s < m.frame then refuseMsg m 5 s
    else
      let s := modStream m.stream (fun x => { x with used := x.used + 1, seq := m.seq, accepted := satInc 16 x.accepted }) s
      let s := ledProduce 0 1 { s with net := { s.net with msgs := s.net.msgs ++ [{ msg := m, target := max m.frame first, late, results := [] }] } }
      if s.rst.herdMgr then doFor spans (fun r => emit (.herdRelay r.unit r.arg (max m.frame first))) s else s

/-- A command message arrives on a port. -/
def commandMessage (m : CmdMessage) (s : State) : State :=
  let r := recoverMsg m (modBbPort m.port.val (fun p => { p with rx := (p.rx + 1) % 2 ^ 32 }) s)
  if r.1 then takeMessage m r.2 else r.2

/-- COMMAND_MESSAGE. -/
def execCommandMessage (m : CmdMessage) (s : State) : Host.Outcome State Fault Refusal := .next (if deviceUp s then commandMessage m s else s)

/-! ### Responses (R433) -/

/-- The first result that is not APPLIED or APPLIED_LATE, or else the first. -/
def msgResult (rs : List Nat) : Nat := match rs.find? (fun r => decide (1 < r)) with | some r => r | none => rs.foldl max 0

/-- A message leaves at its boundary: its credit is returned and its response is due. -/
def finishMsg (h : HeldMsg) (frame : Nat) (s : State) : State :=
  let s := modStream h.msg.stream (fun x => { x with used := x.used - 1 }) s
  queueResponse h.msg (msgResult h.results) frame h.results (ledConsume 0 1 s)

/-- Every accepted message is discarded at a switch or rollback, its sequence number kept (R454). -/
def discardMsgs (n : Nat) (s : State) : State :=
  let ms := s.net.msgs
  doFor ms (fun h => finishMsg { h with results := h.msg.records.map (fun _ => 0xB) } n) { s with net := { s.net with msgs := [] } }

/-- The bytes of a response before its tag (Table 13-2). -/
def responseBytes (r : Response) (free : Nat) : List Byte :=
  [0x03, BitVec.ofNat 8 free] ++ leBytes 2 r.results.length ++ leBytes 2 r.stream ++ leBytes 2 r.result ++ w32 r.seq ++ zeros 4
    ++ leBytes 8 r.frame ++ r.results.map (BitVec.ofNat 8)

/-- The oldest response that is due is sent. -/
def sendResponse (s : State) : State :=
  match s.net.responses with
  | [] => s
  | r :: rest =>
    let x := sessionOf s (1 + r.stream)
    let free := csFree s r.stream
    let tag := if x.isOpen then gmac x.key (gcmIv 3 (r.stream * 2 ^ 32 + r.seq)) (responseBytes r free) else 0
    emit (.response r free (fld (csCtrl s r.stream) 16 3) tag)
      (modBbPort r.port.val (fun p => { p with tx := (p.tx + 1) % 2 ^ 32 }) { s with net := { s.net with responses := rest } })

/-- COMMAND_RESPONSE. -/
def execCommandResponse (s : State) : Host.Outcome State Fault Refusal := .next (if hubUp s then sendResponse s else s)

end Sys2Proof.Machine
end

