-- ==== Sys2Proof/Machine/Img.lean ====
section
/-! DEFINITION. The Ulusy image: its parts and the load-time checks in the order of Table 2-14 (spec/02 R56 to R58, R661; spec/15 R505
to R507; the checks of spec/06 R186, spec/07 R209, spec/09 R275 and R292, spec/11 R663, spec/12 R390 and R403, spec/16 R535). -/
namespace Sys2Proof.Machine

/-- A failed check: SLOT_RESULT code, fault kind, fault detail, SLOT_DETAIL. -/
structure ImgErr where
  code : Nat
  kind : Nat
  detail : Nat
  slotDetail : Nat
  deriving DecidableEq, Repr

/-- The first failure of a list of checks. -/
def firstErr : List (Option ImgErr) → Option ImgErr
  | [] => none
  | some e :: _ => some e
  | none :: t => firstErr t

/-- A condition that fails names a place. -/
def failIf (c : Bool) (code kind place : Nat) : Option ImgErr :=
  if c then some { code, kind, detail := place, slotDetail := place } else none

/-- SLOT_DETAIL of a unit (Table 2-21). -/
def unitPlace (u : Nat) : Nat := 2 ^ 31 + u % 4096

/-- A header field. -/
def hdr (b : List Byte) (off n : Nat) : Nat := leAt b off n

/-! ### Order 1: format (R56, R57) -/

def sectionCount (b : List Byte) : Nat := hdr b 0x1C 2
/-- Field of section table entry `k`. -/
def secField (b : List Byte) (k off n : Nat) : Nat := leAt b (0x80 + 16 * k + off) n
def secType (b : List Byte) (k : Nat) : Nat := secField b k 0 2
def secOff (b : List Byte) (k : Nat) : Nat := secField b k 4 4
def secLen (b : List Byte) (k : Nat) : Nat := secField b k 8 4
/-- Required section types (Table 2-11). -/
def requiredTypes : List Nat := [1, 2, 6, 7, 0xB]

def err1 (c : Bool) (place : Nat) : Option ImgErr := failIf c 2 0x10 place

/-- Check order 1, on the image as stored; `len` is STAGE_LENGTH or the stored length. DESIGN CHOICE, log 89: a SECTION_COUNT outside 1 to 32
and a section entry with FLAGS other than 0 fail here. -/
def checkFormat (b : List Byte) (len : Nat) : Option ImgErr :=
  let n := sectionCount b
  let ks := List.range n
  let place (k : Nat) : Nat := 0x80 + 16 * k
  let top := 0x80 + 16 * n
  let ovl (k j : Nat) : Bool := decide (secOff b k < secOff b j + secLen b j ∧ secOff b j < secOff b k + secLen b k)
  firstErr
    ([err1 (hdr b 0 4 != 0x59534C55) 0, err1 (hdr b 4 2 != 1) 4, err1 (hdr b 6 2 != 0x80) 6,
      err1 (hdr b 0x38 4 != (crc32c (b.take 0x38)).toNat) 0x38,
      err1 (decide (0x400000 < hdr b 8 4) || hdr b 8 4 != len || b.length != len || decide (len < 0x190)) 8,
      err1 (n == 0 || decide (32 < n)) 0x1C]
    ++ ks.map (fun k => err1 (secField b k 2 2 != 0 || decide (secOff b k < top) || decide (len < secOff b k + secLen b k + 256)
        || decide (secOff b k % 16 ≠ 0) || (List.range k).any (ovl k)) (place k))
    ++ ks.map (fun k => err1 (secField b k 12 4 != (crc32c ((b.drop (secOff b k)).take (secLen b k))).toNat) (place k))
    ++ ks.map (fun k => err1 (secType b k == 0 || decide (0xB < secType b k) || (List.range k).any (fun j => secType b j == secType b k)) (place k))
    ++ requiredTypes.map (fun t => err1 (ks.all (fun k => secType b k != t)) 0x80))

/-! ### Order 2: authentication (spec/15 Table 15-4) -/

/-- A failed step: its number is the detail, the field's image offset SLOT_DETAIL. -/
def err2 (c : Bool) (step place : Nat) : Option ImgErr := if c then some { code := 3, kind := 0xA0, detail := step, slotDetail := place } else none

/-- The key that seals the stored image keys (spec/15 R508). -/
def storeKey : BitVec 256 := Config.sealKey Config.deviceSecret

/-- An image key sealed for the store, and back. DESIGN CHOICE, log 108: AES-256-GCM under the store's key with the KEY_ID as AAD. -/
def sealImageKey (id : Nat) (key iv : List Byte) : SealedKey :=
  let ct := gcmCrypt storeKey iv key
  { id, iv, ct, tag := gcmTag storeKey iv (leBytes 4 id) ct }
def openImageKey (k : SealedKey) : Option (BitVec 256) := (gcmDecrypt storeKey k.iv (leBytes 4 k.id) k.ct k.tag).map keyOf

/-- The installed key of a KEY_ID. -/
def imageKey (s : State) (id : Nat) : Option (BitVec 256) :=
  (List.range 4).foldl (fun r k => match r with
    | some x => some x
    | none => match Tbl.get (constD none) s.sec.imgKeys k with | some e => if e.id = id then openImageKey e else none | none => none) none

def ownerHash (s : State) (k : Nat) : BitVec 384 := Tbl.get (constD 0) s.sec.hashes k
/-- A burned, unrevoked owner key slot (spec/15 R502). -/
def slotUsable (s : State) (k : Nat) : Bool := decide (k < 4) && s.sec.burned.getLsbD k && !s.sec.revoked.getLsbD k

/-- The image with its encrypted part decrypted (spec/15 R507); none where GCM_TAG does not verify. -/
def decryptImage (s : State) (b : List Byte) : Option (List Byte) :=
  let sg := b.length - 256
  if (hdr b 0xC 4).testBit 0 then
    let top := 0x80 + 16 * sectionCount b
    match imageKey s (leAt b (sg + 8) 4) with
    | none => none
    | some key =>
      match gcmDecrypt key ((b.drop (sg + 0xC)).take 12) (b.take top) ((b.drop top).take (sg - top)) ((b.drop (sg + 0x18)).take 16) with
      | some p => some (b.take top ++ p ++ b.drop sg)
      | none => none
  else some b

/-- Check order 2. -/
def checkAuth (s : State) (b : List Byte) : Option ImgErr :=
  let sg := b.length - 256
  let enc := (hdr b 0xC 4).testBit 0
  let slot := leAt b (sg + 4) 1
  let pub := (b.drop (sg + 0x40)).take 96
  firstErr
    [err2 (leAt b sg 4 != 0x47535653) 1 sg, err2 (decide (3 < slot)) 1 (sg + 4), err2 (leAt b (sg + 5) 1 != flag enc 0) 1 (sg + 5),
     err2 (leAt b (sg + 6) 2 != 0) 1 (sg + 6), err2 (leAt b (sg + 0x28) 24 != 0) 1 (sg + 0x28),
     err2 (!slotUsable s slot) 2 (sg + 4), err2 (sha384 pub != ownerHash s slot) 3 (sg + 0x40),
     err2 (!ecdsaVerify pub (b.take (sg + 0xA0)) (b.drop (sg + 0xA0))) 4 (sg + 0xA0),
     err2 (enc && (imageKey s (leAt b (sg + 8) 4)).isNone) 5 (sg + 8),
     err2 (enc && (decryptImage s b).isNone) 6 (sg + 0x18)]

/-! ### The parsed image -/

/-- The section of a type. -/
def findSec (i : Image) (t : Nat) : Option Section := i.sections.find? (fun x => x.type == t)
def secBytes (i : Image) (t : Nat) : List Byte := match findSec i t with | some x => x.bytes | none => []
def secPlace (i : Image) (t : Nat) : Nat := match findSec i t with | some x => x.offset | none => 0

def parseUnit (b : List Byte) (k : Nat) : UnitEnt :=
  let o := 16 * k
  { id := leAt b o 2, parent := leAt b (o + 2) 2, kind := leAt b (o + 4) 1, isolated := (leAt b (o + 5) 1).testBit 0
    safety := (leAt b (o + 5) 1).testBit 1, device := leAt b (o + 6) 1, escalation := leAt b (o + 8) 2, prepareLimit := leAt b (o + 10) 2 }
def parseWire (b : List Byte) (k : Nat) : Wire :=
  let o := 8 * k
  { sink := leAt b o 2, source := leAt b (o + 2) 2, input := leAt b (o + 4) 1, output := leAt b (o + 5) 1 }
def parseRegion (b : List Byte) (k : Nat) : Region :=
  let o := 16 * k
  { type := leAt b o 2, first := leAt b (o + 4) 4, tiles := leAt b (o + 8) 4 }
def parseSets (b : List Byte) : RecordSets :=
  { setMask := leAt b 0 1, stageSlots := leAt b 1 1, eventMax := leAt b 2 2, consumers := leAt b 4 1, evtClass := leAt b 5 1
    chMap := leAt b 0x10 64, profMap := leAt b 0x50 64, auxMap := leAt b 0x90 16, portMap := leAt b 0xA0 4 }
def parsePolicy (b : List Byte) (k : Nat) : PolicyEnt :=
  let o := 16 * k
  { isClass := leAt b o 1 == 2, cls := leAt b (o + 1) 1 % 4, srcLo := leAt b (o + 2) 2, srcHi := leAt b (o + 4) 2, n := leAt b (o + 6) 1
    owner := leAt b (o + 7) 1, w := leAt b (o + 8) 2, escReact := leAt b (o + 10) 1 % 32, react := leAt b (o + 12) 4 }

/-- The bytes that the beam hash covers: UNITS entries of KIND 0x0F, FRAME_PERIOD_NS, FRAME_EPOCH (spec/14 R481). -/
def beamBytes (units b : List Byte) : List Byte :=
  (((List.range (units.length / 16)).filter (fun k => leAt units (16 * k + 4) 1 == 0xF)).map (fun k => (units.drop (16 * k)).take 16)).flatten
    ++ (b.drop 0x20).take 4 ++ (b.drop 0x28).take 8

/-- The image of decrypted bytes. -/
def parseImage (b : List Byte) : Image :=
  let secs : List Section := (List.range (sectionCount b)).map (fun k =>
    { type := secType b k, offset := secOff b k, bytes := (b.drop (secOff b k)).take (secLen b k) })
  let sec (t : Nat) : List Byte := match secs.find? (fun x => x.type == t) with | some x => x.bytes | none => []
  let each {α : Type} (t w : Nat) (f : List Byte → Nat → α) : List α := (List.range ((sec t).length / w)).map (f (sec t))
  let fl := hdr b 0xC 4
  { twin := fl.testBit 1, herd := fl.testBit 2, version := hdr b 0x10 4, secVersion := hdr b 0x14 4, herdPos := hdr b 0x1E 1
    period := hdr b 0x20 4, epoch := hdr b 0x28 8, velvetFrames := hdr b 0x30 2, probation := hdr b 0x32 1
    units := each 1 16 parseUnit, wires := each 2 8 parseWire
    settings := each 3 8 (fun x k => (leAt x (8 * k) 4, wordN (leAt x (8 * k + 4) 4)))
    regions := (each 6 16 parseRegion), sets := parseSets (sec 7), policy := each 8 16 parsePolicy, sections := secs
    hash := sha384 (b.take (b.length - 256)), beamHash := sha384 (beamBytes (sec 1) b) }

/-! ### Orders 3 and 4 -/

def checkPart (s : State) (b : List Byte) : Option ImgErr :=
  firstErr [failIf (hdr b 0x18 2 != 0x512) 4 0x11 0x18, failIf (!(hdr b 0x1A 2).testBit 0) 4 0x11 0x1A,
    failIf (hdr b 0x1E 1 != ownPos s) 4 0x11 0x1E, failIf (decide (hdr b 0x14 4 < s.sec.floor)) 5 0x12 0x14]

/-! ### Order 5: structure -/

def err5 (c : Bool) (place : Nat) : Option ImgErr := failIf c 6 0x13 place

/-- Tf of R13 of spec/01. -/
def tfOk (p : Nat) : Bool := p == 31250 || (decide (32000 ≤ p ∧ p ≤ 4000000) && p % 1000 == 0)

/-- The parent chain reaches the root. -/
def chainFuel (ents : List UnitEnt) : Nat → Nat → Bool
  | 0, _ => false
  | n + 1, u => if u = 0xFFF then true else match ents.find? (fun e => e.id == u) with | some e => chainFuel ents n e.parent | none => false

/-- The sizes of Table 12-2; STAGE by R403. -/
def regionSizeOk (i : Image) (r : Region) : Bool :=
  match r.type with
  | 1 => r.tiles == i.sets.stageSlots * slotTiles i
  | 2 => decide (r.tiles ≤ 6144) | 3 => r.tiles == 80 | 4 => r.tiles == 40 | 5 => decide (r.tiles ≤ 8192) | 6 => r.tiles == 512
  | 7 => decide (1024 ≤ r.tiles) | _ => false

/-- A map names a unit that the image does not list. -/
def mapBad (i : Image) (m b base : Nat) : Bool := (mapBits m b).any (fun k => i.units.all (fun e => e.id != base + k))

/-- The blocks of PATH_TABLES: place in the section, region offset, bytes (spec/11 R364). -/
def pathBlocks : Nat → Nat → List Byte → List (Nat × Nat × List Byte)
  | 0, _, _ => []
  | fuel + 1, at_, bs =>
    if bs.isEmpty then []
    else
      let len := leAt bs 4 4
      (at_, leAt bs 0 4, (bs.drop 8).take len) :: pathBlocks fuel (at_ + align16 (8 + len)) (bs.drop (align16 (8 + len)))

/-- Bytes of the PATH region that an image lays out. -/
def pathRoom (i : Image) : Nat := match i.regions.find? (fun r => r.type == 2) with | some r => r.tiles * 4096 | none => 0

/-- Check order 5. DESIGN CHOICE, log 89: beside what Table 2-14, R390, R403 and R535 list, UNIT_COUNT and WIRE_COUNT, the length of RECORD_SETS,
SET_MASK, STAGE_SLOTS, EVENT_MAX and the bounds of a PATH_TABLES block are judged here. -/
def checkStructure (b : List Byte) (i : Image) : Option ImgErr :=
  let us := i.units
  let idx := List.range us.length
  let at_ (k : Nat) : UnitEnt := us.getD k { id := 0, parent := 0, kind := 0 }
  let rp := secPlace i 6
  let rs := i.regions
  let reg (k : Nat) : Region := rs.getD k { type := 0, first := 0, tiles := 0 }
  let sp := secPlace i 7
  let pp := secPlace i 8
  let pol := secBytes i 8
  firstErr
    ([err5 (hdr b 0x34 2 != us.length) 0x34, err5 (hdr b 0x36 2 != i.wires.length) 0x36]
    ++ idx.map (fun k => let e := at_ k
        err5 ((List.range k).any (fun j => (at_ j).id == e.id) || kindOf e.id == 0 || kindOf e.id == 0xB || e.id == 0xFFF || e.kind != kindOf e.id)
          (unitPlace e.id))
    ++ idx.map (fun k => let e := at_ k
        err5 (e.parent != 0xFFF && !(isBeamId e.parent && us.any (fun x => x.id == e.parent))) (unitPlace e.id))
    ++ idx.map (fun k => let e := at_ k; err5 (!chainFuel us (us.length + 1) e.id) (unitPlace e.id))
    ++ idx.map (fun k => let e := at_ k; err5 (isBeamId e.id && us.all (fun x => x.parent != e.id)) (unitPlace e.id))
    ++ [err5 (!tfOk i.period) 0x20, err5 (i.velvetFrames == 0) 0x30, err5 (decide (2 < i.probation)) 0x32]
    ++ (List.range i.settings.length).map (fun k => err5 (!isRws (i.settings.getD k (0, 0)).1) (secPlace i 3 + 8 * k))
    ++ (List.range rs.length).map (fun k => let r := reg k
        err5 (r.type == 0 || decide (7 < r.type) || (List.range k).any (fun j => (reg j).type == r.type)) (rp + 16 * k))
    ++ [1, 3, 4, 6, 7].map (fun t => err5 (rs.all (fun r => r.type != t)) rp)
    ++ (List.range rs.length).map (fun k => let r := reg k
        err5 (!regionSizeOk i r || (r.tiles != 0 && decide (16384 < r.first + r.tiles))
          || (List.range k).any (fun j => r.tiles != 0 && (reg j).tiles != 0
            && decide (r.first < (reg j).first + (reg j).tiles ∧ (reg j).first < r.first + r.tiles))) (rp + 16 * k))
    ++ [err5 ((secBytes i 7).length != 176) sp, err5 (decide (127 < i.sets.setMask)) sp, err5 (decide (i.sets.stageSlots < 3 ∨ 8 < i.sets.stageSlots)) (sp + 1),
        err5 (decide (256 < i.sets.eventMax)) (sp + 2), err5 (mapBad i i.sets.chMap 512 0) (sp + 0x10), err5 (mapBad i i.sets.profMap 512 0x200) (sp + 0x50),
        err5 (mapBad i i.sets.auxMap 128 0x400) (sp + 0x90), err5 (mapBad i i.sets.portMap 32 0x480) (sp + 0xA0)]
    ++ (List.range i.policy.length).map (fun k =>
        let f (o n : Nat) : Nat := leAt pol (16 * k + o) n
        let t := f 0 1
        err5 ((t != 1 && t != 2) || decide (f 4 2 < f 2 2) || f 11 1 != 0
          || (t == 1 && (f 6 1 == 0 || f 8 2 == 0 || (decide (7 < f 7 1) && f 7 1 != 0xFF)))
          || (t == 2 && (decide (f 7 1 < f 6 1) || f 8 2 != 0 || f 10 1 != 0 || f 12 4 != 0))) (pp + 16 * k))
    ++ (pathBlocks (secBytes i 0xA).length 0 (secBytes i 0xA)).map (fun x =>
        err5 (leAt ((secBytes i 0xA).drop x.1) 4 4 != x.2.2.length || decide (pathRoom i < x.2.1 + x.2.2.length)) (secPlace i 0xA + x.1)))

/-! ### Order 6: wiring -/

def err6 (c : Bool) (place : Nat) : Option ImgErr := failIf c 7 0x16 place

/-- Source kinds that an input accepts; empty: no such input (Tables 9-1, 10-1, 11-1; R234, R275). -/
def accepts (sinkKind input : Nat) : List Nat :=
  match sinkKind with
  | 1 => if input = 0 then [2] else []
  | 2 => if input ≤ 1 then [1, 4] else if input ≤ 5 then [0xA] else []
  | 5 => if input = 0 then [1, 4] else []
  | 6 => if input = 0 then [1, 4] else []
  | 8 => if input ≤ 1 then [1] else []
  | _ => []
/-- Inputs that a kind requires. -/
def requires (kind : Nat) : List Nat := match kind with | 5 => [0] | 6 => [0] | 8 => [0, 1] | _ => []

/-- Units reachable from `u` along wires, `n` steps. -/
def reachFuel (ws : List Wire) : Nat → List Nat → List Nat
  | 0, seen => seen
  | n + 1, seen =>
    let new := ((ws.filter (fun w => seen.contains w.source && !seen.contains w.sink)).map (·.sink)).eraseDups
    if new.isEmpty then seen else reachFuel ws n (seen ++ new)

/-- A register in force from the image: the last SETTINGS entry, else the reset value. -/
def imgReg (i : Image) (off : Nat) : Word := match lastWhere (fun e => e.1 == off) i.settings with | some e => e.2 | none => regReset off

/-- Where SETTINGS put a register in force; the section's start where they do not (R661). -/
def imgRegPlace (i : Image) (off : Nat) : Nat :=
  match lastWhere (fun k => (i.settings.getD k (0, 0)).1 == off) (List.range i.settings.length) with
  | some k => secPlace i 3 + 8 * k
  | none => secPlace i 3

def imgUnit (i : Image) (u : Nat) : Option UnitEnt := i.units.find? (fun e => e.id == u)

/-- Check order 6, with the place of the entry that lies later in the image where two together fail (R661). -/
def checkWiring (i : Image) : Option ImgErr :=
  let ws := i.wires
  let wp := secPlace i 2
  let at_ (k : Nat) : Wire := ws.getD k { sink := 0, source := 0, input := 0, output := 0 }
  let ks := List.range ws.length
  let listed (u : Nat) : Bool := (imgUnit i u).isSome
  let safe (u : Nat) : Bool := match imgUnit i u with | some e => e.safety | none => false
  let dev (u : Nat) : Nat := match imgUnit i u with | some e => e.device | none => 0
  let src (u k : Nat) : Option Nat := (ws.find? (fun w => w.sink == u && w.input == k)).map (·.source)
  let cyc := ks.filter (fun k => (reachFuel ws (ws.length + 1) [(at_ k).sink]).contains (at_ k).source)
  firstErr
    (ks.map (fun k => let w := at_ k
      err6 (!listed w.sink || !listed w.source || w.output != 0 || !(accepts (kindOf w.sink) w.input).contains (kindOf w.source)) (wp + 8 * k))
    ++ ks.map (fun k => let w := at_ k
        err6 ((List.range k).any (fun j => (at_ j).sink == w.sink && (at_ j).input == w.input)) (wp + 8 * k))
    ++ (i.units.map (fun e => (requires e.kind).map (fun n => err6 (src e.id n).isNone (unitPlace e.id)))).flatten
    ++ i.units.map (fun e => err6 (e.kind == 2 && !motLoadOk i (e.id - 0x200)) (unitPlace e.id))
    ++ i.units.map (fun e => match lastWhere (fun k => (at_ k).source == e.id && kindOf (at_ k).sink == 1) ks with
        | some k => err6 (e.kind == 2 && bitAt (imgReg i (baseMOT + 0x100 * (e.id - 0x200))) 8)
            (max (wp + 8 * k) (imgRegPlace i (baseMOT + 0x100 * (e.id - 0x200))))
        | none => none)
    ++ (List.range 512).map (fun ch =>
        let c := imgReg i (baseJNT + 0x40 * ch)
        let g := fld c 0 12
        err6 (bitAt c 12 && !(decide (0x200 ≤ g ∧ g < 0x400) && listed g)) (imgRegPlace i (baseJNT + 0x40 * ch)))
    ++ [match cyc.getLast? with | some k => err6 true (wp + 8 * k) | none => none]
    ++ ks.map (fun k => let w := at_ k; err6 (kindOf w.sink == 1 && safe w.sink) (wp + 8 * k))
    ++ ks.map (fun k => let w := at_ k
        err6 (kindOf w.sink == 8 && (List.range k).any (fun j => (at_ j).sink == w.sink && (at_ j).source == w.source)) (wp + 8 * k))
    ++ ks.map (fun k => let w := at_ k
        err6 (kindOf w.sink == 8 && (List.range k).any (fun j => kindOf (at_ j).sink == 8 && (at_ j).source == w.source && (at_ j).sink != w.sink)) (wp + 8 * k))
    ++ ks.map (fun k => let w := at_ k; err6 (kindOf w.sink == 8 && dev w.source != dev w.sink) (wp + 8 * k)))

/-! ### Order 7: schedule (spec/06 R162, R186; spec/03 R87; spec/07 R209; spec/08 R238; spec/14 R460) -/

def err7 (c : Bool) (place : Nat) : Option ImgErr := failIf c 8 0x17 place

/-- The ENGINE_CODE blocks that name engine `e` (spec/06 R186). -/
def codeBlocks (e : Nat) : Nat → List Byte → Nat
  | 0, _ => 0
  | fuel + 1, bs =>
    if bs.length < 16 then 0
    else (if leAt bs 0 1 = e then 1 else 0) + codeBlocks e fuel (bs.drop (align16 (16 + 8 * leAt bs 4 4 + leAt bs 8 4)))

/-- An engine's SCHEDULE record. -/
def checkEngine (i : Image) (e : Nat) : Option ImgErr :=
  let b := secBytes i 0xB
  let f (o n : Nat) : Nat := leAt b (128 * e + o) n
  let place := secPlace i 0xB + 128 * e
  let on := (f 0 2).testBit 0
  let unit := (imgUnit i (0x600 + e)).isSome
  let lens := (List.range 16).map (fun q => f (4 + q) 1)
  let sum := lens.foldl (· + ·) 0
  let code := codeBlock e 8 (secBytes i 4)
  let words := match code with | some c => c.1.length / 8 | none => 0
  let used := i.units.any (fun u => (u.kind == 1 && u.id / 64 == e) || (u.kind == 3 && (u.id - 0x400) / 16 == e))
  err7 (unit != on || (used && !on)
    || (on && (lens.any (fun l => decide (l < 8 ∨ 96 < l)) || decide (700 < sum) || f 2 2 != 768 - sum
        || (List.range 16).any (fun q => decide (f (4 + q) 1 < f (0x5A + 2 * q) 2)) || decide (768 - sum < f (0x5A + 32) 2) || decide (768 - sum < f 0x7C 2)
        || (List.range 17).any (fun q => decide (words ≤ f (0x14 + 2 * q) 2)) || decide (words ≤ f 0x36 2) || codeBlocks e (secBytes i 4).length (secBytes i 4) != 1 || words == 0
        || decide (8192 < words)))) place

/-- Check order 7. Whether a program is the standard auxiliary program (R209), whether NETWORK opens a window that holds the block in every frame
(spec/13 R428) and whether a joining device's snapshot fits (spec/14 R465) are free predicates of the image (log 25). -/
def checkSchedule (i : Image) : Option ImgErr :=
  let place := secPlace i 0xB
  let groups := (i.units.filter (fun e => e.kind == 7)).map (fun e => e.id - 0x4C0)
  let burstBad (g : Nat) : Bool :=
    let w := imgReg i (baseXCG + 0x100 * g)
    let m := xgM (fld w 8 4)
    fld w 0 2 == 1 && !(i.period * 16 % (m * 25000) == 0 && decide (3 ≤ i.period * 16 / (m * 25000)) && i.epoch * 2 % 3125 == 0
      && (i.epoch * 2 / 3125 + m - fld w 16 9 % m) % m == 0)
  let auxFast (e : Nat) : Bool :=
    i.units.any (fun u => u.kind == 3 && (u.id - 0x400) / 16 == e) && fld (imgReg i (baseAUX + 0x2000 + 0x40 * e)) 0 5 == 1
      && (match codeBlock e 8 (secBytes i 4) with | some c => Config.standardAux c.1 | none => false)
  let bwBad (c : Nat) : Bool :=
    let m := xgM (fld (imgReg i (baseXCG + 0x100 * (c / 8))) 8 4)
    let b := fld (imgReg i (baseTRK + 0x40 * c + 4)) 0 13
    decide (b < 20) || decide (5000 < b) || decide (640000 < 2 * b * m)
  firstErr
    (err7 ((secBytes i 0xB).length != 1024) place :: (List.range 8).map (checkEngine i)
    ++ groups.map (fun g => err7 (burstBad g) place)
    ++ (List.range 8).map (fun e => err7 (auxFast e) (place + 128 * e))
    ++ i.units.map (fun e => err7 (e.kind == 1 && bwBad e.id) place)
    ++ [err7 (i.twin && decide (i.period * 100 < 900000 + 17 * blockMax i)) place,
        err7 (!Config.windowHolds (secBytes i 9) i.period (blockMax i)) place,
        err7 (i.twin && !Config.snapshotFits (i.units.map (·.id)) i.period) place])

/-! ### All checks -/

/-- Table 2-14 on an image of `len` bytes: the first failure, or the image. -/
def checkImage (s : State) (b : List Byte) (len : Nat) : Except ImgErr Image :=
  match checkFormat b len with
  | some e => .error e
  | none =>
    match checkAuth s b with
    | some e => .error e
    | none =>
      let d := (decryptImage s b).getD b
      let i := parseImage d
      match firstErr [checkPart s d, checkStructure d i, checkWiring i, checkSchedule i] with
      | some e => .error e
      | none => .ok i

/-- The image of a stored slot, as the device reads it when it puts it in force. -/
def loadImage (s : State) (b : List Byte) : Image := parseImage ((decryptImage s b).getD b)

end Sys2Proof.Machine
end

