-- ==== Sys2Proof/Machine/Units.lean ====
section
/-! DEFINITION. Units and beams (spec/02 R43 to R55, R69, R70): state changes with what each kind does at them, unit commands with
collisions and fan-out, aggregation, L4 resets with the idle handshake (spec/18 R612, R613), escalation timers (spec/16 R542, R543). -/
namespace Sys2Proof.Machine

/-! ### Entering a state (R47, R49; Tables 3-3, 5-7, 8-10, 9-5, 10-5, 11-5) -/

/-- PREPARE_LIMIT of a unit; none: no limit. -/
def prepareLimit (s : State) (u : Nat) : Option Nat :=
  match entOf s u with | some e => if e.prepareLimit = 0 then none else some e.prepareLimit | none => none

/-- Trigger `k` goes to its inactive level at once (Table 10-5, R327). -/
def trigCut (k : Nat) (s : State) : State := pulseEnd k s

/-- What a tine's hardware does as it enters PREPARING. -/
def prepareTine (u : Nat) (s : State) : State :=
  match kindOf u with
  | 1 => glTrackerEvent u true (trackerPrepare u s)
  | 2 => pgPrepare (u - 0x200) s
  | 3 => auxPrepare (u - 0x400) s
  | 4 => portPrepare (u - 0x480) s
  | 5 => emPrepare (u - 0x4A0) s
  | 6 => modUnit u (fun x => { x with prepDone := true }) s
  | 7 => groupPrepare (u - 0x4C0) s
  | 8 => glPrepare (u - 0x500) s
  | 9 => enginePrepare (u - 0x600) s
  | 0xA => modSw (u - 0x640) (fun x => { x with prepAt := s.time.now }) s
  | _ => s

/-- What a tine's hardware does as it enters FAULTED. -/
def faultTine (u : Nat) (s : State) : State :=
  match kindOf u with
  | 1 => trackerStop u false s
  | 2 => pgFault (u - 0x200) s
  | 3 => auxStop (u - 0x400) s
  | 6 => trigCut (u - 0x4B0) s
  | 7 => groupOff (u - 0x4C0) s
  | 8 => glStop (u - 0x500) false s
  | 9 => engineStop (u - 0x600) s
  | _ => s

/-- What a tine's hardware does as it enters DORMANT. -/
def dormantTine (u : Nat) (s : State) : State :=
  match kindOf u with
  | 1 => trackerStop u true s
  | 2 => pgDormant (u - 0x200) s
  | 3 => auxStop (u - 0x400) s
  | 4 => portDormant (u - 0x480) s
  | 5 => emPrepare (u - 0x4A0) s
  | 6 => trigCut (u - 0x4B0) s
  | 7 => groupOff (u - 0x4C0) s
  | 8 => glStop (u - 0x500) true s
  | 9 => engineStop (u - 0x600) s
  | _ => s

/-- What CLEAR and RESET clear beside the state: a group's TRIPPED (spec/03 R92). -/
def clearTrip (u : Nat) (s : State) : State := if kindOf u = 7 then groupClear (u - 0x4C0) s else s

/-- The state of a unit in both copies. -/
def putState (u : Nat) (st : UState) : State → State :=
  modUnit u (fun x => { x with st, recSt := st, prepDone := false, rampDone := false, guardStop := false, prepLeft := none })

/-- Unit `u` changes to state `st` at boundary `n`; `quick` names a QUICKSTOP ramp. -/
def unitEnter (u : Nat) (st : UState) (quick : Bool) (n : Nat) (s : State) : State :=
  let old := stOf s u
  let live (x : UState) : Bool := x == .active || x == .holding
  let s := modUnit u (fun x => { x with quick := quick && st == .stopping }) (putState u st s)
  let s := if live old && !live st && (kindOf u == 1 || kindOf u == 4) then cmpSourceLeft u s else s
  let s := if kindOf u == 3 && (old == .dormant || old == .faulted) && old != st then auxLeave (u - 0x400) s else s
  let g := u - 0x200
  match st with
  | .preparing => prepareTine u (modUnit u (fun x => { x with prepLeft := prepareLimit s u }) s)
  | .ready =>
    if old == .preparing && kindOf u == 7 then groupReady (u - 0x4C0) n s
    else if old == .preparing && kindOf u == 8 then glReady (u - 0x500) s else s
  | .active => if kindOf u == 2 then (if old == .holding then pgResume g s else pgStart g s) else s
  | .holding => if kindOf u == 2 then pgHold g s else s
  | .stopping => if kindOf u == 2 then (if quick then pgQuick g s else pgStop g s) else s
  | .faulted => faultTine u s
  | .dormant => dormantTine u s

/-! ### Automatic transitions (R49) and infrastructure (spec/16 R539) -/

/-- Step 2 for a tine: the transitions of R49 at boundary `n`, FAULTED first. -/
def autoTine (n : Nat) (u : Nat) (s : State) : State :=
  let x := unitOf s u
  let left := x.prepLeft.map (· - 1)
  if x.faultDue then
    let s := modUnit u (fun x => { x with faultDue := false }) s
    if x.st == .faulted then s else unitEnter u .faulted false n s
  else match x.st with
    | .preparing =>
      if x.prepDone then unitEnter u .ready false n s
      else if left == some 0 then unitEnter u .faulted false n (raiseFault qUNIT u 0x1B 0 s)
      else modUnit u (fun x => { x with prepLeft := left }) s
    | .stopping =>
      if kindOf u != 2 || x.rampDone then unitEnter u .ready false n s else s
    | _ => if x.guardStop && (x.st == .active || x.st == .holding) then putState u .stopping (modUnit u (fun x => { x with quick := true }) s)
      else modUnit u (fun x => { x with guardStop := false }) s

/-- Step 2 for a beam: a fault that names it holds it FAULTED (spec/16 R540). -/
def autoBeam (b : Nat) (s : State) : State :=
  if (unitOf s b).faultDue then putState b .faulted (modUnit b (fun x => { x with faultDue := false, held := true }) s) else s

/-- Infrastructure units (spec/02 Table 2-2). -/
def infraUnits : List Nat := (List.range 12).map (· + 0x610) ++ (List.range 8).map (· + 0x620)

/-- Step 2 for an infrastructure unit: FAULTED, or ACTIVE again once its LATCHED and ACTIVE are 0 (spec/16 R539). -/
def autoInfra (u : Nat) (s : State) : State :=
  let x := unitOf s u
  if x.faultDue then putState u .faulted (modUnit u (fun x => { x with faultDue := false }) s)
  else if x.st == .faulted && !(fsOf s u).latched && !fsActive s u then putState u .active s else s

/-- PREPARE_LIMIT frames pass without the preparation completing: kind 0x1B, FAULTED at the boundary that ends them (R49). DESIGN CHOICE,
log 88: the detail of kind 0x1B is 0, here and in `autoTine`. -/
def prepareExpire (u : Nat) (s : State) : State :=
  let x := unitOf s u
  if x.st == .preparing && !x.prepDone && !x.faultDue && x.prepLeft == some 1 then
    raiseFault qUNIT u 0x1B 0 (modUnit u (fun x => { x with faultDue := true }) s)
  else s

/-- PREPARE_LIMIT_EXPIRY. -/
def execPrepareLimitExpiry (u : BitVec 12) (s : State) : Host.Outcome State Fault Refusal := .next (prepareExpire u.toNat s)

/-! ### L4 resets (spec/18 R612, R613, R620) -/

/-- Kinds whose idle report comes after the boundary (Table 18-6). -/
def idleLater (u : Nat) : Bool := kindOf u == 2 || kindOf u == 3 || kindOf u == 7 || kindOf u == 9

/-- A handshake for the tines `us` under target `u`; a tine that a running handshake waits for is served by it (R620). -/
def idleRequest (u : Nat) (us : List Nat) (s : State) : State :=
  let wait := us.filter (fun t => idleLater t && !(s.rst.idle.any (fun r => r.waiting.contains t)))
  { s with rst := { s.rst with
      idle := if wait.isEmpty then s.rst.idle else s.rst.idle ++ [{ target := u, waiting := wait }]
      idleUnit := u } }

/-- Beams at or below `b`. -/
def beamsUnder (s : State) (b : Nat) : List Nat :=
  if isBeamId b then b :: (((descendants s b).map (fun e => e.id)).filter isBeamId) else []

/-- An L4 reset of unit `u` at boundary `n`: its tines are DORMANT, its beams no longer held (R612, spec/16 R540). -/
def resetUnit (u n : Nat) (s : State) : State :=
  let ts := localTines s u
  let s := doFor ts (fun t s => clearTrip t (unitEnter t .dormant false n s)) s
  let s := doFor (beamsUnder s u) (fun b => modUnit b (fun x => { x with held := false })) s
  idleRequest u ts s

/-- Resets due at step 2, after the transitions of R49 (spec/16 R537). -/
def resetsDue (n : Nat) (s : State) : State :=
  let due := ((treeUnits s).map UnitEnt.id ++ [0xFFF]).filter (fun u => (unitOf s u).resetDue)
  doFor due (fun u s => resetUnit u n (modUnit u (fun x => { x with resetDue := false }) s)) s

/-- A tine reports idle; a handshake that waits for none has ended. -/
def tineIdle (u : Nat) (s : State) : State :=
  { s with rst := { s.rst with
      idle := (s.rst.idle.map (fun r => { r with waiting := r.waiting.filter (· != u) })).filter (fun r => !r.waiting.isEmpty) } }

/-- TINE_IDLE. -/
def execTineIdle (u : BitVec 12) (s : State) : Host.Outcome State Fault Refusal := .next (tineIdle u.toNat s)

/-- IDLE_TO in force. -/
def idleTo (s : State) : Nat := max 10 (fld (rwOf s (baseRST + 0x30)) 0 16)

/-- The oldest handshake times out: each tine that is not idle is FAULTED at the next boundary, with kind 0x02 (R613, spec/02 R71). -/
def idleTimeout (s : State) : State :=
  match s.rst.idle with
  | [] => s
  | r :: rest =>
    doFor r.waiting (fun u s => raiseFault qRST u 0x02 (idleTo s) (modUnit u (fun x => { x with faultDue := true }) s))
      { s with rst := { s.rst with idle := rest } }

/-- IDLE_TIMEOUT. -/
def execIdleTimeout (s : State) : Host.Outcome State Fault Refusal := .next (idleTimeout s)

/-! ### Commands (R50 to R53, R69, R70; spec/01 R30) -/

/-- Table 2-4: the state a command leads to; none: not valid. -/
def cmdNext (st : UState) (code : Nat) : Option UState :=
  match code, st with
  | 1, .dormant => some .preparing
  | 2, .ready => some .active
  | 3, .active => some .holding
  | 4, .holding => some .active
  | 5, .preparing => some .dormant
  | 5, .holding => some .stopping
  | 5, .active => some .stopping
  | 6, .preparing => some .dormant
  | 6, .stopping => some .stopping
  | 6, .holding => some .stopping
  | 6, .active => some .stopping
  | 7, .faulted => some .dormant
  | 8, _ => some .dormant
  | _, _ => none

/-- Precedence of R30; higher wins. -/
def cmdPrec (code : Nat) : Nat := [0, 1, 2, 5, 3, 6, 7, 4, 8].getD code 0

/-- The peer reports the group in a state other than DORMANT or FAULTED, this device is SINGLE and the link is up (spec/14 R473). -/
def peerHolds (s : State) (u : Nat) : Option Nat :=
  if kindOf u == 7 && s.twn.mode == 0 && s.twn.linkUp then
    match s.twn.peerUnits.find? (fun e => e.1 == u) with
    | some e => if e.2 = 0 ∨ e.2 = 7 then none else some e.2
    | none => none
  else none

/-- The state a command is evaluated against: of a spanning beam the herd-wide one that its page shows (spec/14 R483). -/
def cmdState (s : State) (u : Nat) : UState :=
  if herdSpan s u then (match s.hrd.shown.find? (fun e => e.1 == u) with | some e => e.2.1 | none => stOf s u) else stOf s u

/-- The command is valid for the unit as it stands (Table 2-4, R66; spec/14 R473; spec/17 R580). -/
def cmdValid (s : State) (u code : Nat) : Bool :=
  (cmdNext (cmdState s u) code).isSome
    && (code != 7 || !fsActive s u)
    && (code != 1 || (s.conf.isSome && (s.clk.level == 2 || !isTineId u) && (peerHolds s u).isNone))

/-- Where a command came from: a page, record `r` of message `m` of this boundary, or the herd's relay. -/
inductive CmdSrc where
  | page
  | msg (m r : Nat)
  | relay
  deriving DecidableEq, Repr

/-- A command written directly to a unit. -/
structure Direct where
  unit : Nat
  code : Nat
  late : Bool
  src : CmdSrc
  deriving DecidableEq, Repr

/-- `u` is a descendant of `b`. -/
def isUnder (s : State) (b u : Nat) : Bool :=
  isBeamId b && b != u && (b == 0xFFF || underFuel (treeUnits s) 0x1000 b u)

/-- The code of highest precedence; 0 of none. -/
def topCode (l : List Nat) : Nat := l.foldl (fun a c => if cmdPrec a < cmdPrec c then c else a) 0

/-- Codes that reach unit `u`: direct ones and those that beams fanned out. -/
def codesAt (s : State) (ds : List Direct) (fans : List (Nat × Nat)) (u : Nat) : List Nat :=
  (ds.filter (fun d => d.unit == u)).map (·.code) ++ (fans.filter (fun f => isUnder s f.1 u)).map (·.2)

/-- Depth of a unit: its proper ancestors among beams `bs`. -/
def depthIn (s : State) (bs : List Nat) (u : Nat) : Nat := (bs.filter (fun b => isUnder s b u)).length

/-- Valid, or relayed by the herd's manager, which has accepted it (spec/14 R482). -/
def cmdPasses (s : State) (ds : List Direct) (u code : Nat) : Bool :=
  cmdValid s u code || ds.any (fun d => d.unit == u && d.code == code && d.src == .relay)

/-- The beams whose direct command applies, with its code, from the root down (R30, R53). -/
def fansOf (s : State) (ds : List Direct) : List (Nat × Nat) :=
  let bs := ((ds.map (·.unit)).filter isBeamId).eraseDups
  let order := sortBy (fun a b => decide (depthIn s bs a < depthIn s bs b)) bs
  order.foldl (fun fans b =>
    let w := topCode (codesAt s ds fans b)
    if ds.any (fun d => d.unit == b && d.code == w) && cmdPasses s ds b w then fans ++ [(b, w)] else fans) []

/-- Kind 0x15 of a unit (R52). -/
def raiseState (u code : Nat) (s : State) : State := raiseFault qUNIT u 0x15 ((cmdState s u).code * 16 + code % 16) s

/-- The command that applies to a unit at boundary `n`, with its origin: its state, LAST_APPLIED, and for a beam the end of R540. -/
def applyCmd (u code origin n : Nat) (s : State) : State :=
  let s := if isBeamId u then
      (if code = 7 ∨ code = 8 then modUnit u (fun x => { x with held := false }) s else s)
    else match cmdNext (stOf s u) code with
      | none => s
      | some st => let s := unitEnter u st (code == 6) n s; if code = 7 ∨ code = 8 then clearTrip u s else s
  modUnit u (fun x => { x with lastCode := code, lastOrigin := origin, lastFrame := n % 65536 }) s

/-- Steps 5 and 6 for the direct commands `ds` of boundary `n`: every unit they reach applies at most one. The state and the result code of
each command, in the codes of Table 2-9. DESIGN CHOICE, log 88: LAST_APPLIED of a beam below the commanded one is set where the code is valid
in that beam's own state. -/
def runCommands (ds : List Direct) (n : Nat) (s0 : State) : State × List Nat :=
  let fans := fansOf s0 ds
  let reached := (ds.map (·.unit) ++ ((treeUnits s0).map (·.id)).filter (fun u => fans.any (fun f => isUnder s0 f.1 u))).eraseDups
  let reached := reached.filter (fun u => isBeamId u || (match entOf s0 u with | some e => isLocal s0 e | none => s0.conf.isNone))
  let win (u : Nat) : Nat := topCode (codesAt s0 ds fans u)
  let ok (u : Nat) : Bool := cmdPasses s0 ds u (win u)
  let res := ds.map (fun d => if d.code ≠ win d.unit then 7 else if ok d.unit then (if d.late then 3 else 2) else 6)
  -- faults of refused commands and refused copies
  let s := doFor (ds.zip res) (fun p s =>
    let d := p.1
    if p.2 = 7 then raiseFault qUNIT d.unit 0x14 0 s
    else if p.2 = 6 then
      (let s := match (if d.code = 1 then peerHolds s0 d.unit else none) with
        | some p => raiseFault qXCG d.unit 0x96 p s | none => s
       raiseState d.unit d.code s)
    else s) s0
  let s := doFor reached (fun u s =>
    doFor (fans.filter (fun f => isUnder s0 f.1 u && decide (f.2 ≠ win u))) (fun _ => raiseFault qUNIT u 0x14 0) s) s
  let s := doFor (reached.filter ok) (fun u s =>
    let c := win u
    let direct := ds.any (fun d => d.unit == u && d.code == c)
    let origin := if direct then u else match fans.find? (fun f => isUnder s0 f.1 u && f.2 == c) with | some f => f.1 | none => u
    applyCmd u c origin n s) s
  -- one RESET handshake serves a whole subtree
  let s := doFor ((ds.zip res).filter (fun p => p.1.code == 8 && p.2 != 7 && p.2 != 6)) (fun p =>
    idleRequest p.1.unit ((localTines s0 p.1.unit).filter (fun u => win u == 8))) s
  -- fan-out counts
  let s := doFor fans (fun f s =>
    let ts := (localTines s0 f.1).filter (fun u => win u == f.2)
    modUnit f.1 (fun x => { x with fanApplied := (ts.filter ok).length, fanIgnored := (ts.filter (fun u => !ok u)).length }) s) s
  (s, res)

/-! ### Page commands (R50) -/

/-- Fan-out of a spanning beam is the herd's: its cut-off is a frame earlier (R51). -/
def cmdOpen (s : State) (u : Nat) : Nat := s.time.openFrame + (if herdSpan s u then 1 else 0)

/-- CMD_STATUS.RESULT of a page. -/
def pageResult (u r : Nat) : State → State := modUnit u (fun x => { x with result := r })

/-- A write of COMMAND on page `u`: code, and AT. DESIGN CHOICE, log 88: an undefined code reports REFUSED_CODE, PENDING or not. -/
def pageCommand (u code : Nat) (at_ : Bool) (s : State) : State :=
  if isInfra u then raiseState u code s
  else if code = 0 ∨ !unitExists s u then s
  else if 8 < code then pageResult u 8 s
  else if (unitOf s u).page.isSome then pageResult u 4 s
  else if herdSpan s u && !s.rst.herdMgr then raiseFault qHRD u 0x9C code (pageResult u 6 s)
  else
    let want := if at_ then rw64 s (baseUNIT + 0x100 * u + 0x10) else cmdOpen s u
    if farLimit s < want then pageResult u 5 s
    else
      let target := max want (cmdOpen s u)
      let s := modUnit u (fun x => { x with
        page := some { code, target, late := decide (want < cmdOpen s u) }, seq := (x.seq + 1) % 65536, result := 1, cmdFrame := target })
        (ledProduce 0 1 s)
      if herdSpan s u then emit (.herdRelay u code target) s else s

/-- PREPARE, START, HOLD, RESUME, STOP, QUICKSTOP, CLEAR, RESET: a write of COMMAND with the code and AT. -/
def execPrepare (u : BitVec 12) (at_ : Bool) (s : State) : Host.Outcome State Fault Refusal :=
  .next (if deviceUp s then pageCommand u.toNat 1 at_ s else s)
def execStart (u : BitVec 12) (at_ : Bool) (s : State) : Host.Outcome State Fault Refusal :=
  .next (if deviceUp s then pageCommand u.toNat 2 at_ s else s)
def execHold (u : BitVec 12) (at_ : Bool) (s : State) : Host.Outcome State Fault Refusal :=
  .next (if deviceUp s then pageCommand u.toNat 3 at_ s else s)
def execResume (u : BitVec 12) (at_ : Bool) (s : State) : Host.Outcome State Fault Refusal :=
  .next (if deviceUp s then pageCommand u.toNat 4 at_ s else s)
def execStop (u : BitVec 12) (at_ : Bool) (s : State) : Host.Outcome State Fault Refusal :=
  .next (if deviceUp s then pageCommand u.toNat 5 at_ s else s)
def execQuickstop (u : BitVec 12) (at_ : Bool) (s : State) : Host.Outcome State Fault Refusal :=
  .next (if deviceUp s then pageCommand u.toNat 6 at_ s else s)
def execClear (u : BitVec 12) (at_ : Bool) (s : State) : Host.Outcome State Fault Refusal :=
  .next (if deviceUp s then pageCommand u.toNat 7 at_ s else s)
def execReset (u : BitVec 12) (at_ : Bool) (s : State) : Host.Outcome State Fault Refusal :=
  .next (if deviceUp s then pageCommand u.toNat 8 at_ s else s)

/-- Every pending page command is discarded (R60, R63). -/
def discardPages (s : State) : State :=
  doFor ((s.units.filter (fun e => e.2.page.isSome)).map (·.1)) (fun u s =>
    ledConsume 0 1 (modUnit u (fun x => { x with page := none, result := 9 }) s)) s

/-! ### Aggregation (R54), escalation timers (spec/16 R542, R543) -/

/-- R54 over the children of a beam. DESIGN CHOICE, log 88: the root of an image without tines, with no children, is DORMANT. -/
def aggregate (ch : List (Bool × UState)) : UState :=
  if ch.any (fun c => !c.1 && c.2 == .faulted) then .faulted
  else
    match ch.filter (fun c => c.2 != .faulted) with
    | [] => if ch.isEmpty then .dormant else .faulted
    | c :: t => UState.ofCode (t.foldl (fun m x => min m x.2.code) c.2.code)

/-- The children of a beam that this device holds: tines of its own, and beams. -/
def childrenOf (s : State) (b : Nat) : List UnitEnt :=
  (treeUnits s).filter (fun e => e.parent == b && (isBeamId e.id || isLocal s e || s.conf.isNone))

/-- The timer of a beam that becomes or leaves FAULTED at boundary `n`. An acknowledgement applies at its boundary, the timer expired before or
not (R543). -/
def escStep (b n : Nat) (st : UState) (s : State) : State :=
  if b = 0xFFF then s
  else
    let x := (unitOf s b).esc
    if st == .faulted then
      if !x.running && !x.acked && !x.expired then
        let l := match entOf s b with | some e => max 1 e.escalation | none => 1
        modUnit b (fun u => { u with esc := { x with running := true, left := l, start := n, acked := false, expired := false, ackAt := none } }) s
      else
        let x := if x.running then { x with left := x.left - 1 } else x
        let due := match x.ackAt with | some f => decide (f ≤ n) | none => false
        modUnit b (fun u => { u with esc := if due then { x with running := false, acked := true, ackAt := none } else x }) s
    else modUnit b (fun u => { u with esc := escRest u.esc }) s

/-- One beam at step 6: held, broken herd-wide (spec/14 R481, R486), or by its children. -/
def beamState (n : Nat) (b : Nat) (s : State) : State :=
  let st := if (unitOf s b).held || herdBroken s b then .faulted
    else aggregate ((childrenOf s b).map (fun e => (e.isolated, (unitOf s e.id).recSt)))
  let s := escStep b n st s
  modUnit b (fun x => { x with st, recSt := st }) s

/-- Every beam from the leaves to the root. -/
def beamStates (n : Nat) (s : State) : State :=
  let bs := ((treeUnits s).map (·.id)).filter isBeamId
  let order := sortBy (fun a b => decide (depthIn s bs b < depthIn s bs a)) bs
  doFor (order ++ [0xFFF]) (beamState n) s

end Sys2Proof.Machine
end

