-- ==== Sys2Proof/Machine/Slots.lean ====
section
/-! DEFINITION. COMMIT and what puts settings in force (spec/01 R21 to R28, R32, R36 to R38, R660), configuration slots, switch, revert,
velvet and rollback (spec/02 R59 to R68, R72, R73; spec/12 R418; spec/15 R510). -/
namespace Sys2Proof.Machine

/-! ### Values put in force (R21, R660) -/

/-- The bits of a register that a write reaches. -/
def maskOfReg (off : Nat) : Word := match regInfo off with | some i => wordN i.mask | none => 0

/-- The offset of an engine's SE_CTRL. -/
def seCtrlOff (e : Nat) : Nat := baseSE + 0x20000 * e + 0x18000

/-- XG_CTRL values of a snapshot after the rules of its chapter (spec/03 R93). -/
def xgSnap (n : Nat) (r : List (Nat × Word) × State) : List (Nat × Word) × State :=
  (List.range 64).foldl (fun r g =>
    let off := baseXCG + 0x100 * g
    let v := snapGet r.1 r.2 off
    if v = inF r.2 off then r
    else
      let c := xgCtrlChange g n v r.2
      (r.1.map (fun e => if e.1 = off then (off, c.1) else e), c.2)) r

/-- A snapshot after every refusal rule: fields refused stay at their values in force. -/
def refineSnap (n : Nat) (snap : List (Nat × Word)) (s : State) : List (Nat × Word) × State :=
  motSnap (incSnap (jntSnap (trkSnap (auxSnap (xgSnap n (snap, s))))))

/-- What follows from a register's new value in force: `old` was in force before, `refused` collects offsets whose rule refused. -/
def appliedReg (n off : Nat) (old : Word) (s : State) : State :=
  let v := inF s off
  if v = old then s
  else if baseAUX ≤ off ∧ off < baseAUX + 0x2000 ∧ off % 0x40 = 0 then auxCtrlApplied ((off - baseAUX) / 0x40) old s
  else if baseINC ≤ off ∧ off < baseINC + 0x800 ∧ off % 0x40 = 0 then portInvert ((off - baseINC) / 0x40) old v s
  else if baseTRK ≤ off ∧ off < baseTRK + 0x8000 ∧ off % 0x40 = 0x3C then
    mapApply ((off - baseTRK) / 0x40) n (fld v 0 2) s
  else if off = baseJNT + 0xC000 then doFor (ownLinks s) xcalCheck s
  else s

/-- Registers of the generators whose change a plan answers to. -/
def motOffs (g : Nat) : List Nat := [0, 4, 8, 0xC].map (fun o => baseMOT + 0x100 * g + o)

/-- The values of a refined snapshot take effect at boundary `n` with its swap requests `reqs`, engine and bank (spec/06 R175, R176); the
offsets of swap requests that were refused. `writes`: the offsets that the step writes. -/
def putValues (n : Nat) (reqs : List (Nat × Bool)) (writes : List Nat) (snap : List (Nat × Word)) (s0 : State) : List Nat × State :=
  let s := doFor snap (fun e => setInF e.1 e.2) s0
  let r := reqs.foldl (fun (r : List Nat × State) x =>
    let off := seCtrlOff x.1
    let q := swapBoundary x.1 n x.2 r.2
    if q.1 then (r.1, q.2)
    else
      let b := match (seOf q.2 x.1).held with | some h => h.1 | none => false
      (off :: r.1, setInF off ((inF q.2 off &&& 0xFFFFFFFE) ||| (if b then 1 else 0)) q.2)) (([] : List Nat), s)
  let s := r.2
  let s := doFor snap (fun e => appliedReg n e.1 (inF s0 e.1)) s
  let gens := ((snap.filter (fun e => decide (baseMOT ≤ e.1 ∧ e.1 < baseMOT + 0x20000 ∧ e.1 % 0x100 ≤ 0xC))).map
    (fun e => (e.1 - baseMOT) / 0x100)).eraseDups
  let s := doFor gens (fun g s =>
    let chg (o : Nat) : Bool := inF s (baseMOT + 0x100 * g + o) != inF s0 (baseMOT + 0x100 * g + o)
    let bit (k : Nat) : Bool := bitAt (inF s (baseMOT + 0x100 * g)) k != bitAt (inF s0 (baseMOT + 0x100 * g)) k
    motApplied g (chg 4 || chg 8) (chg 0xC) (bit 21) (bit 15) s) s
  -- compares arm on every write (R660; spec/10 R321)
  let cmps := (List.range 1088).filter (fun c => writes.any (fun o => decide (cmpBase c ≤ o ∧ o ≤ cmpBase c + 8)))
  let s := doFor cmps (fun c => cmpWritten c (writes.any (fun o => o == cmpBase c))) s
  (r.1, s)

/-- A snapshot applies at boundary `n`; the offsets that a rule refused, wholly or in part. -/
def applySnap (n : Nat) (reqs : List (Nat × Bool)) (writes : List Nat) (snap : List (Nat × Word)) (s : State) : List Nat × State :=
  let snap := snap.map (fun e => (e.1, e.2 &&& maskOfReg e.1))
  let r := refineSnap n snap s
  let bad := (snap.filter (fun e => snapGet r.1 s e.1 != e.2)).map (·.1)
  let p := putValues n reqs writes r.1 r.2
  let maps := (snap.filter (fun e => decide (baseTRK ≤ e.1 ∧ e.1 < baseTRK + 0x8000 ∧ e.1 % 0x40 = 0x3C) && fld e.2 0 2 != 0
    && decide (4 ≤ (tkOf p.2 ((e.1 - baseTRK) / 0x40)).mapResult))).map (·.1)
  (bad ++ p.1 ++ maps, p.2)

/-! ### COMMIT (R22 to R28, R37, R38; spec/06 R175) -/

/-- A COMMIT write. -/
def commitWrite (v : Word) (s : State) : State :=
  let res (r : Nat) : State := { s with commit := { s.commit with result := r } }
  if !bitAt v 0 then s
  else if s.commit.snap.isSome then res 4
  else
    let want := if bitAt v 1 then s.time.openFrame else rw64 s (baseCFG + 0x220)
    if farLimit s < want then res 5
    else
      let target := max want s.time.openFrame
      let snap := s.written.map (fun e => (e.1, shadowOf s e.1))
      let s := ledProduce 0 1 { s with
        written := []
        commit := { snap := some snap, late := decide (want < s.time.openFrame), seq := (s.commit.seq + 1) % 65536, result := 1, frame := target } }
      doFor (List.range 8) (fun e s => match snap.find? (fun x => x.1 == seCtrlOff e) with
        | some x => noteSwapRequest e x.2 s
        | none => s) s

/-- COMMIT. -/
def execCommit (v : Word) (s : State) : Host.Outcome State Fault Refusal := .next (if deviceUp s then commitWrite v s else s)

/-- Step 3 of boundary `n` (R28, R37). -/
def commitBoundary (n : Nat) (s : State) : State :=
  match s.commit.snap with
  | none => s
  | some snap =>
    if n < s.commit.frame then s
    else
      let reqs := (List.range 8).filterMap (fun e => (seOf s e).asked.map (fun b => (e, b)))
      let s := doFor (reqs.map (·.1)) (fun e => modSe e (fun x => { x with asked := none })) s
      let s := (applySnap n reqs (snap.map (·.1)) snap s).2
      ledConsume 0 1 { s with commit := { s.commit with snap := none, result := if s.commit.late then 3 else 2 } }

/-- Step 4 for one WRITE record (spec/13 R432), a swap request of its own where it changes BANK_SEL: its result, APPLIED or REFUSED_SETTING. -/
def writeRecord (n off : Nat) (v : Word) (late : Bool) (s : State) : Nat × State :=
  let e? := (List.range 8).find? (fun e => seCtrlOff e == off)
  let reqs := match e? with
    | some e => if bitAt v 0 != newestBank (seOf s e) then [(e, bitAt v 0)] else []
    | none => []
  let r := applySnap n reqs [off] [(off, v)] s
  if r.1.isEmpty then
    (if late then 1 else 0, if s.written.any (fun e => e.1 == off) then r.2 else setShadow off (inF r.2 off) r.2)
  else (8, r.2)

/-! ### Frame memory under a new image (spec/12 R389, R390, R418, R662) -/

/-- Blocks of bytes at their offsets into the region of tiles `first` to `first + n - 1`, zeros elsewhere in it, and its tiles sealed. -/
def fillTiles (first n : Nat) (bs : List (Nat × List Byte)) (s : State) : State :=
  let s := { s with fm := { s.fm with mem := s.fm.mem.filter (fun e => decide (e.1 / 0x1000 < first ∨ first + n ≤ e.1 / 0x1000)) } }
  doFor ((List.range n).map (first + ·)) sealTile (doFor bs (fun x => setBytes (first * 0x1000 + x.1) x.2) s)

/-- An engine's COEFFICIENTS block exactly as stored. -/
def coefRaw (e : Nat) : Nat → List Byte → List Byte
  | 0, _ => []
  | fuel + 1, bs =>
    if bs.length < 16 then []
    else
      let len := align16 (16 + 4 * leAt bs 4 4)
      if leAt bs 0 1 = e then bs.take len else coefRaw e fuel (bs.drop len)

/-- The region of type `t` is the one of the layout `old`. -/
def sameRegion (old : List Region) (s : State) (t : Nat) : Bool :=
  (old.find? (fun r => r.type == t && r.tiles != 0)) == regionOf s t

/-- Tile `t` under the regions in force, `old` those before. A tile of a ring that has no state yet is OPEN, as one that nothing has filled
(Table 12-2). -/
def laidTile (old : List Region) (s : State) (t : Nat) : TileSt :=
  match tileType s t with
  | 0 => {}
  | 7 => {}
  | k => if (k = 5 ∨ k = 6) ∧ sameRegion old s k ∧ (tileOf s t).st ≠ 0 then tileOf s t else { st := 1 }

/-- Every tile that has a state under the regions in force. -/
def laidTiles (old : List Region) (s : State) : List (Nat × TileSt) :=
  (List.range 16384).filterMap (fun t => let x := laidTile old s t; if x = {} then none else some (t, x))

/-- The tiles take the types of the regions in force. -/
def layTiles (s : State) : State :=
  let s' := { s with fm := { s.fm with laid := regionsIn s } }
  { s' with fm := { s'.fm with tiles := laidTiles s.fm.laid s' } }

/-- The two rings go on where their regions are those of `old` (R418, R419). -/
def layRings (old : List Region) (s : State) : State :=
  let s := if sameRegion old s 5 then s else { s with fm := { s.fm with bbHead := 0, bbCount := 0 } }
  if sameRegion old s 6 then s else { s with flt := { s.flt with flHead := 0, flWraps := 0 } }

/-- The region of type 2 holds the image's paths. -/
def fillPaths (s : State) : State :=
  match regionOf s 2 with
  | some r => let sec := sectionBytes s 0xA; fillTiles r.first r.tiles ((pathBlocks sec.length 0 sec).map (·.2)) s
  | none => s

/-- The region of type 4 holds each engine's coefficients. -/
def fillCoefs (s : State) : State :=
  match regionOf s 4 with
  | some r => doFor (List.range 8) (fun e => fillTiles (r.first + 5 * e) 5 [(0, coefRaw e 8 (sectionBytes s 5))]) s
  | none => s

/-- The region of type 3 holds the signature maps of the own trackers. -/
def fillMaps (s : State) : State :=
  match regionOf s 3 with
  | some r => doFor (ownTrackers s) sigmapSync (fillTiles r.first r.tiles [] s)
  | none => s

/-- The regions in force replace those that the tiles were laid out to before (R418, R662). The two rings go on where theirs are the same, over
an L2 reset too (R419). -/
def layoutRegions (s : State) : State := fillMaps (fillCoefs (fillPaths (layRings s.fm.laid (layTiles s))))

/-! ### Putting an image in force (R36, R60, R63, R66) -/

/-- Uncommitted and pending host work is discarded (R36, R60, spec/13 R454). -/
def discardPending (n : Nat) (s : State) : State :=
  let s := match s.commit.snap with | some _ => ledConsume 0 1 s | none => s
  let s := { s with commit := { s.commit with snap := none }, written := [] }
  discardMsgs n (discardPages s)

/-- Every tine becomes DORMANT and every unit's transition requests go (R48). -/
def allDormant (n : Nat) (s : State) : State :=
  let s := doFor (ownTines s) (fun u s => if stOf s u == .dormant then s else unitEnter u .dormant false n s) s
  { s with
    units := Tbl.mapVals unitDef (fun u x =>
      if isInfra u then x
      else { x with st := .dormant, recSt := .dormant, prepDone := false, rampDone := false, faultDue := false, resetDue := false, guardStop := false
                    quick := false, prepLeft := none, held := false, esc := escRest x.esc }) s.units
    rst := { s.rst with idle := [] } }

/-- SETTINGS apply in one step in which every other register of type RWS returns to its reset value (DEDUCED, log 28): a change is a value that
differs from the one in force before (R660). Shadows follow. -/
def loadSettings (n : Nat) (s : State) : State :=
  let sets := match s.conf with
    | some i => (i.settings.filter (fun (e : Nat × Word) => (lastWhere (fun (x : Nat × Word) => x.1 == e.1) i.settings) == some e)).eraseDups
    | none => []
  let back := (s.inForce.map (·.1)).filter (fun o => sets.all (fun e => e.1 != o))
  let s := (applySnap n [] (sets.map (·.1)) (sets ++ back.map (fun o => (o, regReset o))) s).2
  { s with shadow := s.inForce }

/-- The image `img` is in force from boundary `n`. -/
def putInForce (img : Option Image) (n : Nat) (s : State) : State :=
  let s := doFor (List.range 64) toneDrop (forceAll (allDormant n (discardPending n s)))
  let listed (u : Nat) : Bool := match img with | some i => i.units.any (fun e => e.id == u) | none => isTineId u
  let s : State := { s with
    conf := img
    units := s.units.filter (fun e => isInfra e.1 || e.1 == 0xFFF || listed e.1)
    xg := Tbl.mapVals (constD {}) (fun _ x => { x with applied := 0 }) s.xg
    tone := []
    tk := Tbl.mapVals (constD {}) (fun c t =>
      { t with cand := none, map := {}, verified := false, ext0 := 0, ext1 := 0, shown := {}, record := if listed c then t.record else {} }) s.tk
    rh := Tbl.mapVals (constD {}) (fun c x => if listed c then x else { sat := true }) s.rh
    gl := Tbl.mapVals (constD {}) (fun l x => if listed (0x500 + l) then x else glGone x) s.gl
    flt := { s.flt with
      fs := Tbl.mapVals (constD {}) (fun _ f => { f with window := none, count := 0, promoted := false }) s.flt.fs
      conds := s.flt.conds.filter (fun e => isInfra (e.1 / 2 ^ 24)) }
    hrd := { s.hrd with relays := [], shown := [], badHash := [], remoteBusy := false, firstTour := true } }
  let s := doFor (List.range 8) (fun e s =>
    engineReload e (modSe e (fun x => { endSwaps n x with asked := none, held := none, cur := false }) s)) s
  let s := loadSettings n (layoutRegions s)
  doFor (List.range 64) (fun g s => setOwner g ((s.twn.mode == 0 || s.twn.mode == 4 || (xgOf s g).owner) && img.isSome && listed (0x4C0 + g)) s) s

/-! ### Slot results and requests (R59 to R62, R68; spec/13 R443) -/

/-- A slot request completes; the mailbox sets NEW, and its interrupt is raised (Table 13-5). Without a `detail` of the result SLOT_DETAIL
keeps its value, and a STAGE that is DONE sets it to 0 (R67 names the detail of some results; DESIGN CHOICE, log 88). -/
def slotResult (code : Nat) (detail : Option Nat) (s : State) : State :=
  intSource 9 { s with slots := { s.slots with seq := (s.slots.seq + 1) % 65536, fresh := true, code, detail := detail.getD s.slots.detail } }

/-- A request that waits is BUSY. -/
def slotBusy (s : State) : Bool := s.slots.pend.isSome || s.slots.stageRun.isSome

/-- A request ignored while BUSY: kind 0x1E with OP (R62, R68). -/
def slotIgnored (op : Nat) : State → State := raiseFault qCFG 0x610 0x1E op

/-- A request that completes as it arrives: its credit comes and goes. -/
def slotAtOnce (code : Nat) (detail : Option Nat) (s : State) : State :=
  slotResult code detail (ledConsume 0 1 (ledProduce 0 1 s))

/-- Bytes of the SCRATCH region in force. -/
def inScratch (s : State) (off len : Nat) : Bool :=
  match regionOf s 7 with
  | some r => decide (r.first * 0x1000 ≤ off ∧ off + len ≤ (r.first + r.tiles) * 0x1000)
  | none => false

/-- STAGE: the source is checked, then the checks of Table 2-14 run (R59). -/
def stageStart (s : State) : State :=
  let off := (rwOf s (baseCFG + 0x34)).toNat
  let len := (rwOf s (baseCFG + 0x38)).toNat
  if slotBusy s then slotIgnored 1 s
  else if off % 4096 ≠ 0 ∨ len = 0 ∨ 0x400000 < len ∨ inScratch s off len = false then
    slotAtOnce 0xE (some 0) (raiseFault qSEC 0x610 0x10 0 s)
  else ledProduce 0 1 { s with slots := { s.slots with stageRun := some (off, len) } }

/-- STAGE. -/
def execStage (s : State) : Host.Outcome State Fault Refusal := .next (if deviceUp s then stageStart s else s)

/-- The configuration hash of a stored image is kept with it (spec/15 R516), and none of an image no longer stored. -/
def keepHash (b : List Byte) (h : BitVec 384) (s : State) : State :=
  { s with slots := { s.slots with
    hashes := (b, h) :: s.slots.hashes.filter (fun e => e.1 != b && (some e.1 == s.slots.active || some e.1 == s.slots.previous)) } }

/-- The running STAGE completes with the checks' outcome. The image's bytes are those that SCRATCH holds when it completes (DESIGN CHOICE,
log 88). -/
def stageComplete (s : State) : State :=
  match s.slots.stageRun with
  | none => s
  | some (off, len) =>
    let b := memBytes s off len
    let s := ledConsume 0 1 { s with slots := { s.slots with stageRun := none } }
    match checkImage s b len with
    | .error e => slotResult e.code (some e.slotDetail) (raiseFault qSEC 0x610 e.kind e.detail s)
    | .ok i => slotResult 1 (some 0) (keepHash b i.hash { s with slots := { s.slots with staged := some b } })

/-- STAGE_COMPLETE. -/
def execStageComplete (s : State) : Host.Outcome State Fault Refusal := .next (if deviceUp s then stageComplete s else s)

/-- SWITCH and REVERT (R60, R61, R68). DESIGN CHOICE, log 88: a SWITCH in velvet with nothing STAGED reports VELVET, not NO_IMAGE. -/
def slotSwitch (revert next : Bool) (s : State) : State :=
  let src := if revert then s.slots.previous else s.slots.staged
  if slotBusy s then slotIgnored (if revert then 4 else 2) s
  else if !revert && s.slots.velvet.isSome then slotAtOnce 0xB none s
  else if src.isNone then slotAtOnce 9 none s
  else
    let want := if next then s.time.openFrame else rw64 s (baseCFG + 0x3C)
    if farLimit s < want then slotAtOnce 0xC none s
    else
      let target := max want s.time.openFrame
      ledProduce 0 1 { s with slots := { s.slots with pend := some { revert, target }, switchFrame := target } }

/-- SWITCH, REVERT, DISCARD_STAGED. -/
def execSwitch (next : Bool) (s : State) : Host.Outcome State Fault Refusal := .next (if deviceUp s then slotSwitch false next s else s)
def execRevert (next : Bool) (s : State) : Host.Outcome State Fault Refusal := .next (if deviceUp s then slotSwitch true next s else s)
def discardStaged (s : State) : State :=
  if slotBusy s then slotIgnored 3 s else slotAtOnce 1 none { s with slots := { s.slots with staged := none } }
def execDiscardStaged (s : State) : Host.Outcome State Fault Refusal := .next (if deviceUp s then discardStaged s else s)

/-- A write of SLOT_CMD (Table 2-18). DESIGN CHOICE, log 88: OP 0 while BUSY raises nothing, as OP 0 at any time. -/
def slotCmd (v : Word) (s : State) : State :=
  match fld v 0 4 with
  | 0 => s
  | 1 => stageStart s
  | 2 => slotSwitch false (bitAt v 8) s
  | 3 => discardStaged s
  | 4 => slotSwitch true (bitAt v 8) s
  | op => if slotBusy s then slotIgnored op s else slotAtOnce 0xD none s

/-! ### Velvet and the floor (R63, R64; spec/15 R510) -/

/-- An image as stored is below the floor. -/
def barred (s : State) : Option (List Byte) → Bool
  | some b => decide (hdr b 0x14 4 < s.sec.floor)
  | none => false

/-- A copy of the floor for the persistent store (spec/15 R510). -/
def floorCopy (v : Nat) : FloorCopy := { value := v, crc := crc32c (leBytes 4 v) }

/-- The floor and both its copies. -/
def setFloor (v : Nat) (s : State) : State := { s with sec := { s.sec with floor := v, floorA := floorCopy v, floorB := floorCopy v } }

/-- The floor takes the deferred value at the end of a velvet; it never falls. -/
def floorApply (s : State) : State :=
  match s.sec.floorPending with
  | none => s
  | some v => raiseFault qSEC 0x615 0xA4 v (setFloor (max s.sec.floor v) { s with sec := { s.sec with floorPending := none } })

/-- VELVET_FRAMES in force. -/
def velvetFrames (s : State) : Nat := match s.conf with | some i => i.velvetFrames | none => 0

/-- The velvet in progress ends where its frames have passed. -/
def velvetEnd (n : Nat) (s : State) : State :=
  match s.slots.velvet with
  | none => s
  | some v =>
    if v + velvetFrames s ≤ n ∧ s.slots.velvetFault = false then floorApply { s with slots := { s.slots with velvet := none } } else s

/-- VELVET_END. -/
def execVelvetEnd (s : State) : Host.Outcome State Fault Refusal := .next (if deviceUp s then velvetEnd (frameN s) s else s)

/-! ### Step 1 (R60, R61, R63, R73) -/

/-- Twin pairing ends with cause 4, or PAIRED acts as a DETACH, at a switch or rollback (spec/14 R467, R477). The messages leave under the image
in force before it. -/
def twinAtSwitch (n : Nat) (s : State) : State :=
  if s.twn.mode = 1 ∨ s.twn.mode = 2 then sendTwin (.failure 4) { s with twn := { s.twn with failure := some 4 } }
  else if s.twn.mode = 3 then sendTwin (.detach n) { s with twn := { s.twn with detachAt := some 0 } }
  else s

/-- An image is put in force by a switch or rollback: RESULT of COMMIT reads DISCARDED_SWITCH (R28, R36). -/
def activate (img : Option Image) (n : Nat) (s : State) : State :=
  let s := putInForce img n (twinAtSwitch n s)
  { s with commit := { s.commit with result := 6 } }

/-- A stored image passes the checks of Table 2-14 as the device now is, or its failure is reported as at STAGE (R65, R74; spec/15 R507, R525). -/
def considerImage (b : List Byte) (s : State) : Option Image × State :=
  match checkImage s b b.length with
  | .ok i => (some i, s)
  | .error e => (none, slotResult e.code (some e.slotDetail) (raiseFault qSEC 0x610 e.kind e.detail s))

/-- PREVIOUS becomes ACTIVE and is put in force at boundary `n` (R63). DESIGN CHOICE, log 103: where it fails a check the device runs with no
configuration, as at P6, with kind 0x1D. -/
def rollbackTo (b : Option (List Byte)) (n : Nat) (s : State) : State :=
  match b with
  | none => activate none n s
  | some b =>
    let r := considerImage b s
    let s := activate r.1 n r.2
    if r.1.isNone then raiseFault qSEC 0x610 0x1D 0 s else s

/-- The automatic rollback at boundary `n`. DESIGN CHOICE, log 88: the details of kinds 0x18 and 0x1A are 0. -/
def rollback (n : Nat) (s : State) : State :=
  if s.slots.velvet.isSome && s.slots.velvetFault then
    if barred s s.slots.previous then
      raiseFault qCFG 0x610 0x1A 0 (floorApply { s with slots := { s.slots with velvet := none, velvetFault := false } })
    else
      let b := s.slots.previous
      let s := { s with
        slots := { s.slots with active := b, previous := none, velvet := none, velvetFault := false, switchFrame := n }
        sec := { s.sec with floorPending := none } }
      raiseFault qCFG 0x610 0x18 0 (rollbackTo b n s)
  else { s with slots := { s.slots with velvetFault := false } }

/-- The lowest-numbered tine that is not idle (R60). -/
def notIdle (s : State) : Option Nat :=
  allTines.find? (fun u => (ownTines s).contains u &&
    (match (unitOf s u).recSt with | .preparing => true | .stopping => true | .holding => true | .active => true | _ => false))

/-- A switch that the next boundary `n` would make: its request has come, and it would pass (R60, R61). -/
def switchActs (n : Nat) (s : State) : Bool :=
  match s.slots.pend with
  | none => false
  | some r =>
    let src := if r.revert then s.slots.previous else s.slots.staged
    decide (r.target ≤ n) && !(r.revert && barred s src) && (notIdle s).isNone
      && (match src with | some b => (match checkImage s b b.length with | .ok _ => true | .error _ => false) | none => false)

/-- A rollback that boundary `n` would make (R63). -/
def rollbackActs (s : State) : Bool := s.slots.velvet.isSome && s.slots.velvetFault && !barred s s.slots.previous

/-- A pending SWITCH or REVERT at its boundary. DESIGN CHOICE, log 88: a REVERT that the floor bars reports FLOOR, idle or not. DESIGN CHOICE,
log 103: an image that no longer passes Table 2-14 is not put in force; the request completes with the failure. -/
def switchBoundaryStep (n : Nat) (s : State) : State :=
  match s.slots.pend with
  | none => s
  | some r =>
    if n < r.target then s
    else
      let s := ledConsume 0 1 { s with slots := { s.slots with pend := none } }
      let src := if r.revert then s.slots.previous else s.slots.staged
      if src.isNone then slotResult 9 none s
      else if r.revert && barred s src then slotResult 5 none s
      else
        match notIdle s with
        | some u =>
          raiseFault qCFG 0x610 0x19 (2 ^ 31 + u) (slotResult 0xA (some (2 ^ 31 + u)) s)
        | none =>
          let inVelvet := s.slots.velvet.isSome
          let img := considerImage (src.getD []) s
          if img.1.isNone then img.2
          else
          let s := { s with
            slots := { s.slots with
              active := src, previous := s.slots.active, staged := if r.revert then s.slots.staged else none
              velvet := if r.revert && inVelvet then none else some n, velvetFault := false, switchFrame := n }
            sec := if r.revert && inVelvet then { s.sec with floorPending := none } else s.sec }
          slotResult 1 none (activate img.1 n s)

/-- Step 1 of boundary `n`. -/
def slotStep (n : Nat) (s : State) : State := switchBoundaryStep n (velvetEnd n (rollback n s))

end Sys2Proof.Machine
end

