-- ==== Sys2Proof/Machine/Sec.lean ====
section
/-! DEFINITION. The service mailbox (spec/13 R443, R444) and the Svetio core: authorisation, owners, image keys, floor, sessions,
attestation, debug port (spec/15). -/
namespace Sys2Proof.Machine

/-! ### The service mailbox -/

/-- SVC_ARG[k]. -/
def svcArg (s : State) (k : Nat) : Word := rwOf s (baseHST + 0x1004 + 4 * k)

/-- The running or finished service publishes a result. -/
def svcPublish (code : Nat) (data : List Byte) (s : State) : State :=
  intSource 9 { s with hst := { s.hst with
    svc := none, svcDone := none, svcSeq := (s.hst.svcSeq + 1) % 65536, svcFresh := true, svcCode := code, svcData := data } }

/-- A request while BUSY is ignored with kind 0x8D; else `f` runs. -/
def svcIfFree (code : Nat) (f : State → State) (s : State) : State :=
  if s.hst.svc.isSome then raiseFault qHST 0x618 0x8D code s else f s

/-- A service runs; `r` is what it will complete with, where its outcome is known (log 29). -/
def svcRun (code : Nat) (r : Option (Nat × List Byte)) (s : State) : State :=
  { s with hst := { s.hst with svc := some code, svcDone := r } }

/-- A request of service `code` whose work answers a result. -/
def svcRequest (code : Nat) (work : State → (Nat × List Byte) × State) (s : State) : State :=
  svcIfFree code (fun s => let r := work s; svcRun code (some r.1) r.2) s

/-! ### Authorisation blocks (R502 to R504) -/

/-- PAYLOAD_LEN of a KIND. -/
def payloadLen (kind : Nat) : Nat := match kind with | 1 => 64 | 2 => 16 | 3 => 176 | _ => 64
/-- Length of a block. -/
def authLen (kind : Nat) : Nat := 0xE0 + payloadLen kind

def authPayload (b : List Byte) (kind : Nat) : List Byte := (b.drop 0x20).take (payloadLen kind)

/-- The checks of R504 in order: 0, or the result code of the first that fails. -/
def authCheck (s : State) (kind : Nat) (b : List Byte) : Nat :=
  let p := payloadLen kind
  let pub := (b.drop (0x20 + p)).take 96
  let uid := leAt b 8 8
  let slot := leAt b 6 1
  let signed := ecdsaVerify pub (b.take (0x80 + p)) ((b.drop (0x80 + p)).take 96)
  if b.length ≠ authLen kind ∨ leAt b 0 4 ≠ 0x55415653 ∨ leAt b 4 2 ≠ kind ∨ leAt b 0x10 4 ≠ p then 5
  else if !(uid == deviceUid || (uid == 0 && kind == 4)) then 0xB
  else if kind = 1 ∧ s.sec.burned = 0 then
    (if sha384 pub == digestOf ((b.drop 0x30).take 48) && signed then 0 else 4)
  else if !slotUsable s slot then 7
  else if sha384 pub == ownerHash s slot && signed then 0 else 4

/-- The block in SCRATCH that SVC_ARG names, of `len` bytes; none: BAD_ARG. -/
def scratchArg (s : State) (len : Nat) : Option (List Byte) :=
  let a := (svcArg s 0).toNat
  if a % 16 = 0 ∧ (svcArg s 1).toNat = len ∧ inScratch s a len = true then some (memBytes s a len) else none

/-- A service under an authorisation block: a refusal raises kind 0xA1. -/
def withAuth (code kind : Nat) (f : List Byte → State → Nat × State) (s : State) : (Nat × List Byte) × State :=
  let no (r : Nat) (s : State) : (Nat × List Byte) × State := ((r, []), raiseFault qSEC 0x615 0xA1 (code * 65536 + r) s)
  match scratchArg s (authLen kind) with
  | none => no 5 s
  | some b =>
    let c := authCheck s kind b
    if c ≠ 0 then no c s
    else
      let r := f (authPayload b kind) s
      if r.1 = 1 ∨ r.1 = 0xC then ((r.1, []), r.2) else no r.1 r.2

/-- A burn that succeeds is `f`; one that fails burns nothing and answers FUSE_FAIL (R519). No rule says when a burn fails: a free value
(log 108). -/
def burnFuse (case_ : Nat) (f : State → State) (s : State) : Nat × State :=
  let d := drawNat s
  if Config.fuseFails case_ d.1 then (0xC, d.2) else (1, f d.2)

/-- OWN_BURN. -/
def ownBurn (p : List Byte) (s : State) : Nat × State :=
  let k := leAt p 0 1
  if 3 < k then (5, s)
  else if s.sec.burned.getLsbD k then (6, s)
  else burnFuse k (fun s =>
    raiseFault qSEC 0x615 0xA2 k { s with sec := { s.sec with
      burned := s.sec.burned ||| BitVec.ofNat 4 (2 ^ k), hashes := Tbl.set (constD 0) s.sec.hashes k (digestOf ((p.drop 0x10).take 48)) } }) s

/-- SLOT_REVOKE. -/
def slotRevoke (p : List Byte) (s : State) : Nat × State :=
  let k := leAt p 0 1
  let rev := s.sec.revoked ||| BitVec.ofNat 4 (2 ^ k)
  if 3 < k then (5, s)
  else if s.sec.burned &&& ~~~rev = 0 then (8, s)
  else burnFuse (4 + k) (fun s => raiseFault qSEC 0x615 0xA3 k { s with sec := { s.sec with revoked := rev } }) s

/-- IMGKEY_LOAD (R508): the key is stored sealed, under an IV that the device draws. -/
def imgkeyLoad (p : List Byte) (s : State) : Nat × State :=
  let k := leAt p 4 1
  if 3 < k then (5, s)
  else
    let z := ecdh identityScalar ((p.drop 0x10).take 96)
    let wrap := hkdf z uidBytes (ascii "RJA-512 image key")
    match gcmDecrypt wrap ((p.drop 0x70).take 12) (p.take 4) ((p.drop 0x7C).take 32) ((p.drop 0x9C).take 16) with
    | none => (4, s)
    | some key =>
      let d := drawNat s
      (1, { d.2 with sec := { d.2.sec with imgKeys := Tbl.set (constD none) d.2.sec.imgKeys k (some (sealImageKey (leAt p 0 4) key (leBytes 12 d.1))) } })

/-- IMGKEY_ERASE (R508); an index beyond 3 is BAD_ARG, an empty index NO_KEY (log 30). -/
def imgkeyErase (k : Nat) (s : State) : Nat × State :=
  if 3 < k then (5, s)
  else if (Tbl.get (constD none) s.sec.imgKeys k).isNone then (0xA, s)
  else (1, { s with sec := { s.sec with imgKeys := Tbl.set (constD none) s.sec.imgKeys k none } })

/-! ### The floor (R510) -/

/-- SECURITY_VERSION of ACTIVE. -/
def activeSecVersion (s : State) : Nat := match s.slots.active with | some b => hdr b 0x14 4 | none => 0

/-- FLOOR_RAISE: refused, deferred to a velvet's end, or applied. -/
def floorRaise (v : Nat) (s : State) : State :=
  if v ≤ s.sec.floor ∨ activeSecVersion s < v then svcRun 7 (some (5, [])) s
  else if s.slots.velvet.isSome then svcPublish 9 [] { s with sec := { s.sec with floorPending := some v } }
  else svcRun 7 (some (1, [])) (raiseFault qSEC 0x615 0xA4 v (setFloor v s))

/-! ### Sessions (R511 to R514) -/

/-- The next KEY_EPOCH of a session. -/
def nextEpoch (e : Nat) : Nat := if (e + 1) % 2 ^ 32 = 0 then 1 else (e + 1) % 2 ^ 32

/-- The checks of a session request (R512): 0, or a result code. `viaHost`: it came through SESSION_OPEN. -/
def sessionCheck (s : State) (viaHost : Bool) (req : List Byte) : Nat :=
  let i := leAt req 0 1
  let auth := req.drop 0x160
  let pay := authPayload auth 4
  let roles := leAt pay 0x30 4
  let stat := (req.drop 0x70).take 96
  if req.length ≠ 0x280 ∨ 8 < i then 5
  else
    let c := authCheck s 4 auth
    if c ≠ 0 then c
    else if sha384 stat != digestOf (pay.take 48) then 4
    else if !(roles.testBit (if i = 0 then 0 else 7 + i)) || (viaHost && !roles.testBit 16) then 5
    else if ecdsaVerify stat (req.take 0x100 ++ uidBytes) ((req.drop 0x100).take 96) then 0 else 4

/-- A refused session request: kind 0xA6. -/
def sessionRefused (code : Nat) (req : List Byte) : State → State := raiseFault qSEC 0x615 0xA6 (leAt req 0 1 % 16 * 256 + code)

/-- The reply to an accepted request, and the key that comes into force at the first boundary whose cut-off has not passed. -/
def sessionReply (req : List Byte) (s : State) : List Byte × State :=
  let i := leAt req 0 1
  let (d, s) := drawNat s
  let x := scalarOf d
  let e := nextEpoch (sessionOf s i).issued
  let f := s.time.openFrame
  let head := publicKey x ++ leBytes 4 e ++ zeros 4 ++ leBytes 8 f ++ zeros 16
  let z := ecdh x ((req.drop 0x10).take 96)
  let key := hkdf z (leBytes 48 (sha384 (req ++ head)).toNat) (ascii "RJA-512 session" ++ [BitVec.ofNat 8 i])
  (head ++ identitySign (req ++ head), modSession i (fun y => { y with issued := e, due := y.due ++ [(f, some (key, e))] }) s)

/-- What is due at boundary `n` for session `i`: the last one counts (R513, R526). -/
def sessionDue (n i : Nat) (s : State) : State :=
  let y := sessionOf s i
  match (y.due.filter (fun d => decide (d.1 ≤ n))).getLast? with
  | none => s
  | some (_, some (key, e)) =>
    let s := modSession i (fun y => { y with isOpen := true, key, epoch := e, due := y.due.filter (fun d => decide (n < d.1)) }) s
    let s := if 1 ≤ i ∧ i ≤ 8 then modStream (i - 1) (fun x => { x with seq := 0 }) s else s
    raiseFault qSEC 0x615 0xA5 (e % 65536 * 65536 + i) s
  | some (_, none) => modSession i (fun y => { y with isOpen := false, key := 0, due := y.due.filter (fun d => decide (n < d.1)) }) s

/-- Session changes of boundary `n`. -/
def sessionBoundary (n : Nat) (s : State) : State := doFor (List.range 10) (sessionDue n) s

/-- SESSION_CLOSE: an index beyond 9 is BAD_ARG (log 30); the session ends at the first boundary whose cut-off has not passed when the service
completes (R513). -/
def sessionCloseWork (i : Nat) (s : State) : (Nat × List Byte) × State := if 9 < i then ((5, []), s) else ((1, leBytes 4 i), s)
def sessionClose (i : Nat) (s : State) : State := modSession i (fun y => { y with due := y.due ++ [(s.time.openFrame, none)] }) s

/-- SESSION_OPEN: the checks; the reply is made as the service completes. -/
def sessionOpenWork (s : State) : (Nat × List Byte) × State :=
  match scratchArg s 0x280 with
  | none => ((5, []), sessionRefused 5 [] s)
  | some req =>
    let c := sessionCheck s true req
    if c = 0 then ((1, req), s) else ((c, []), sessionRefused c req s)

/-! ### Attestation and status words (R516, R522, R523) -/

/-- DEVICE_ID (spec/02 Table 2-16). -/
def deviceId : Nat := 0x0512A100

/-- SEC_STATUS. -/
def secStatus (s : State) : Nat :=
  s.sec.tamperCause % 16 * 2 ^ 16 + flag s.sec.alarmForced 4 + flag s.sec.dbgUnlocked 3 + flag s.sec.dbgLocked 2 + flag s.sec.identityOk 1
    + flag s.sec.fusesOk 0
/-- OWN_STATUS. -/
def ownStatus (s : State) : Nat :=
  flag s.sec.testBurned 16 + s.sec.revoked.toNat * 256 + flag (s.sec.burned != 0) 4 + s.sec.burned.toNat

/-- The stored images in the order ACTIVE, PREVIOUS, STAGED. -/
def slotImages (s : State) : List (Option (List Byte)) := [s.slots.active, s.slots.previous, s.slots.staged]

/-- What a report shows of the device as it is. -/
def viewNow (s : State) : BoundaryView :=
  { own := ownStatus s, sec := secStatus s, floor := s.sec.floor, mode := s.twn.mode, pos := ownPos s, images := slotImages s }

/-- At a boundary, what reports show until the next (R516). -/
def keepView (s : State) : State := { s with sec := { s.sec with atBoundary := some (viewNow s) } }

/-- The configuration hash of a stored image: that kept when it was staged (spec/14 R463). -/
def hashOf (s : State) (b : List Byte) : BitVec 384 :=
  match s.slots.hashes.find? (fun e => e.1 == b) with | some e => e.2 | none => (loadImage s b).hash

/-- The report of Table 15-8: of the most recent boundary; before the first one, of the device as it is (DESIGN CHOICE, log 108). -/
def attestReport (s : State) : List Byte :=
  let v := s.sec.atBoundary.getD (viewNow s)
  let imgs := v.images
  let fieldOf (off : Nat) (b : Option (List Byte)) : List Byte := match b with | some b => leBytes 4 (hdr b off 4) | none => zeros 4
  let body := leBytes 4 0x54415653 ++ leBytes 2 1 ++ zeros 2 ++ uidBytes ++ leBytes 4 deviceId ++ leBytes 4 v.own ++ leBytes 4 v.sec
    ++ leBytes 4 v.floor ++ leBytes 8 (frame64 s) ++ leBytes 8 (instOf s (frameN s)).toNat
    ++ ((List.range 8).map (fun k => leBytes 4 (svcArg s k).toNat)).flatten
    ++ (imgs.map (fun b => match b with | some b => leBytes 48 (hashOf s b).toNat | none => zeros 48)).flatten
    ++ (imgs.map (fieldOf 0x10)).flatten ++ (imgs.map (fieldOf 0x14)).flatten
    ++ leBytes 1 v.mode ++ leBytes 1 v.pos ++ zeros 2 ++ zeros 4 ++ identityPub
  body ++ identitySign body

/-! ### Services -/

/-- A service whose result carries no data. -/
def plain (r : Nat × State) : (Nat × List Byte) × State := ((r.1, []), r.2)

def svcCertGet : State → State :=
  svcRequest 1 (fun s => ((1, leBytes 4 Config.vendorCert.length ++ Config.vendorCert), s))
def svcAttest : State → State := svcRequest 2 (fun s => ((1, attestReport s), s))
def svcOwnBurn : State → State := svcRequest 3 (withAuth 3 1 ownBurn)
def svcSlotRevoke : State → State := svcRequest 4 (withAuth 4 2 slotRevoke)
def svcImgkeyLoad : State → State := svcRequest 5 (withAuth 5 3 imgkeyLoad)
def svcImgkeyErase : State → State := svcRequest 6 (fun s => plain (imgkeyErase (svcArg s 0).toNat s))
def svcFloorRaise : State → State := svcIfFree 7 (fun s => floorRaise (svcArg s 0).toNat s)
def svcSessionOpen : State → State := svcRequest 8 sessionOpenWork
def svcSessionClose : State → State := svcRequest 9 (fun s => sessionCloseWork (svcArg s 0).toNat s)

/-- CERT_GET, ATTEST, OWN_BURN, SLOT_REVOKE, IMGKEY_LOAD, IMGKEY_ERASE, FLOOR_RAISE, SESSION_OPEN, SESSION_CLOSE: SVC_REQ with the code. -/
def execCertGet (s : State) : Host.Outcome State Fault Refusal := .next (if deviceUp s then svcCertGet s else s)
def execAttest (s : State) : Host.Outcome State Fault Refusal := .next (if deviceUp s then svcAttest s else s)
def execOwnBurn (s : State) : Host.Outcome State Fault Refusal := .next (if deviceUp s then svcOwnBurn s else s)
def execSlotRevoke (s : State) : Host.Outcome State Fault Refusal := .next (if deviceUp s then svcSlotRevoke s else s)
def execImgkeyLoad (s : State) : Host.Outcome State Fault Refusal := .next (if deviceUp s then svcImgkeyLoad s else s)
def execImgkeyErase (s : State) : Host.Outcome State Fault Refusal := .next (if deviceUp s then svcImgkeyErase s else s)
def execFloorRaise (s : State) : Host.Outcome State Fault Refusal := .next (if deviceUp s then svcFloorRaise s else s)
def execSessionOpen (s : State) : Host.Outcome State Fault Refusal := .next (if deviceUp s then svcSessionOpen s else s)
def execSessionClose (s : State) : Host.Outcome State Fault Refusal := .next (if deviceUp s then svcSessionClose s else s)

/-- The running service completes (R444); SESSION_OPEN replies now, and SESSION_CLOSE takes its boundary. A service that ends at a boundary completes there. -/
def serviceComplete (s : State) : State :=
  match s.hst.svc, s.hst.svcDone with
  | some code, some (r, data) =>
    if code = 8 ∧ r = 1 then (let q := sessionReply data s; svcPublish 1 q.1 q.2)
    else if code = 9 ∧ r = 1 then svcPublish 1 [] (sessionClose (leNat data) s)
    else svcPublish r data s
  | _, _ => s

/-- SERVICE_COMPLETE. -/
def execServiceComplete (s : State) : Host.Outcome State Fault Refusal := .next (if deviceUp s then serviceComplete s else s)

/-- SERVICE_TIMEOUT: the service has not completed within 2 s. -/
def execServiceTimeout (s : State) : Host.Outcome State Fault Refusal :=
  .next (if deviceUp s && s.hst.svc.isSome then svcPublish 3 [] s else s)

/-- A TYPE 0x04 message: the reply goes as TYPE 0x05. -/
def sessionRequest (req : List Byte) (s : State) : State :=
  let c := sessionCheck s false req
  if c = 0 then (let q := sessionReply req s; emit (.sessionReply q.1) q.2) else sessionRefused c req s

/-- SESSION_REQUEST_MESSAGE. -/
def execSessionRequestMessage (req : List Byte) (s : State) : Host.Outcome State Fault Refusal :=
  .next (if deviceUp s then sessionRequest req s else s)

/-! ### Debug port (R517) -/

/-- Every session closes at once. -/
def closeSessions (s : State) : State :=
  { s with sec := { s.sec with sessions := Tbl.mapVals (constD {}) (fun _ x => { epoch := x.epoch, issued := x.issued }) s.sec.sessions } }

/-- A fault while the collector is held is kept for P7 (spec/18 R610). -/
def raiseOrHold (q u kind detail : Nat) (s : State) : State :=
  if deviceUp s then raiseFault q u kind detail s
  else { s with flt := { s.flt with heldBack := s.flt.heldBack ++ [(u, kind, detail)] } }

/-- SVT_UNLOCK: the check, a new challenge, and on success what R517 lists. -/
def unlock (slot : Nat) (pub sig : List Byte) (s : State) : State :=
  let ok := slotUsable s slot && sha384 pub == ownerHash s slot
    && ecdsaVerify pub (leBytes 32 s.sec.dbgChal.toNat ++ uidBytes) sig
  let s := drawChal { s with sec := { s.sec with jtagIr := .svtUnlock } }
  if ok then
    let s := closeSessions s
    let s := alarmEnter { s with sec := { s.sec with alarmForced := true } }
    raiseOrHold qSEC 0x615 0xA7 slot { s with sec := { s.sec with dbgUnlocked := true, dbgLocked := false } }
  else s

/-- SVT_UNLOCK. -/
def execSvtUnlock (slot : Nat) (pubkey sig : List Byte) (s : State) : Host.Outcome State Fault Refusal := .next (unlock slot pubkey sig s)

/-- An instruction enters the JTAG instruction register. -/
def setIr (i : JtagIr) (s : State) : State := { s with sec := { s.sec with jtagIr := i } }

/-- SVT_CHAL reads the challenge. -/
def execSvtChal (s : State) : Host.Outcome State Fault Refusal :=
  .next (emit (.readData (leBytes 32 s.sec.dbgChal.toNat)) (setIr .svtChal s))
/-- JTAG_BYPASS. -/
def execJtagBypass (s : State) : Host.Outcome State Fault Refusal := .next (setIr .bypass s)
/-- JTAG_IDCODE: a 32-bit code that the spec does not state (log 1). -/
def execJtagIdcode (s : State) : Host.Outcome State Fault Refusal := .next (emit (.readData (leBytes 4 (Config.openNat 5 0))) (setIr .idcode s))

/-- RST_FUSE_PROG: fuse bits burn from 0 to 1, only while the device is unowned (spec/18 R598; DEDUCED, log 31). A locked port does not offer it
(R517): BYPASS is selected (PRESUMED, IEEE 1149.1, log 31). -/
def fuseProg (table : BitVec 64) (pinMap : BitVec 15) (s : State) : State :=
  let s := setIr (if s.sec.dbgLocked then .bypass else .fuseProg) s
  if s.sec.burned = 0 then { s with rst := { s.rst with fuse := s.rst.fuse ||| table, pinMap := s.rst.pinMap ||| pinMap } } else s

/-- RST_FUSE_PROG. -/
def execRstFuseProg (table : BitVec 64) (pinMap : BitVec 15) (s : State) : Host.Outcome State Fault Refusal := .next (fuseProg table pinMap s)

end Sys2Proof.Machine
end

