-- ==== Sys2Proof/Machine/Twin.lean ====
section
/-! DEFINITION. The twin link (spec/14 R459 to R477, R494 to R496): modes, attach and takeover, agreement checks, ownership, detach and
link loss; record ready with the joining device's readiness. -/
namespace Sys2Proof.Machine

/-! ### Settings and facts -/

def twnCfg (s : State) (lo n : Nat) : Nat := max 1 (fld (inF s baseTWN) lo n)
def velvetLen (s : State) : Nat := twnCfg s 16 16
def lossLim (s : State) : Nat := twnCfg s 8 8
def skewMax (s : State) : Nat := twnCfg s 0 8

/-- TWN_OWNMAP as requested. -/
def ownMapReg (s : State) : BitVec 64 := BitVec.ofNat 64 (rw64 s (baseTWN + 0x10))

/-- Every tine of this device shows DORMANT. -/
def tinesDormant (s : State) : Bool := (ownTines s).all (fun u => (unitOf s u).recSt == .dormant)

def confHash (s : State) : BitVec 384 := match s.conf with | some i => i.hash | none => 0

/-- Both devices have an image in force and its configuration hash is the same (R463, HASH_OK). -/
def hashOk (s : State) : Bool := s.conf.isSome && s.twn.linkUp && s.twn.peerHash == some (confHash s)

/-! ### Modes and ownership (R461, R472) -/

/-- Groups that the tree lists on this device. -/
def listedGroups (s : State) : List Nat := ((ownTines s).filter (fun u => kindOf u == 7)).map (· - 0x4C0)

/-- The mode from boundary `n`. -/
def setMode (m n : Nat) (s : State) : State :=
  setBiasSplit (m == 1 || m == 2 || m == 3)
    (modTwn (fun t => { t with
      mode := m, modeFrame := n, frames := 0, joiner := t.joiner && (m == 1 || m == 2), joinReady := false, lost := false, linkLost := false
      orphans := 0, failure := none, missRun := 0, taken := [] }) s)

/-- This device owns every listed group, or none. -/
def ownAll (b : Bool) (s : State) : State := doFor (listedGroups s) (fun g => setOwner g b) s

/-- The owner of group `g` by the map in force: bit 1 is role A. -/
def ownsByMap (s : State) (g : Nat) : Bool := s.twn.mapIn.getLsbD g == !s.rst.twinRole

/-- Ownership by the map in force. -/
def ownByMap (s : State) : State := doFor (listedGroups s) (fun g s => setOwner g (ownsByMap s g) s) s

/-- This device withdraws to SINGLE with every unit DORMANT. -/
def twinWithdraw (n : Nat) (s : State) : State := ownAll true (setMode 0 n (allDormant n s))

/-- This device becomes DEGRADED and takes every group. -/
def degrade (n : Nat) (s : State) : State := ownAll true (setMode 4 n s)

/-! ### Settings CRC and facts (R463, R470) -/

/-- Offsets of type RWS outside NET, TWN and HRD, ascending. -/
def crcOffsets : List Nat :=
  let span (base len : Nat) : List Nat := ((List.range (len / 4)).map (fun k => base + 4 * k)).filter isRws
  [baseFLT] ++ span baseMON 0x400 ++ span baseXCG 0x4000 ++ span baseRIN 0x8020 ++ span baseAUX 0x8004 ++ (List.range 8).map seCtrlOff
    ++ span baseTRK 0x8010 ++ span baseJNT 0xC004 ++ span baseINC 0xEA00 ++ span baseMOT 0x20000 ++ [baseFMEM]

/-- CRC-32C over the values in force, ascending (DEDUCED, log 32). -/
def ownCrc (s : State) : Word := crc32c ((crcOffsets.map (fun o => leBytes 4 (inF s o).toNat)).flatten)

/-- A failure of PAIRING or VELVET ends it at the next boundary, in both devices (R467). -/
def twinFailure (cause : Nat) (s : State) : State :=
  if s.twn.mode = 1 ∨ s.twn.mode = 2 then
    sendTwin (.failure cause) (modTwn (fun t => { t with failure := some (t.failure.getD cause) }) s)
  else s

/-- What this device reports of itself every frame. -/
def ownFacts (s : State) : TwinMsg :=
  .facts s.twn.mode (confHash s) (ownMapReg s) (tinesDormant s) (twinImage s)
    (((ownTines s).filter (fun u => (kindOf u == 1 || kindOf u == 7 || kindOf u == 9) && (unitOf s u).recSt != .dormant)).map
      (fun u => (u, (unitOf s u).recSt.code)))

/-- A settings CRC leaves. -/
def sendCrc (c : Word) : State → State := twinSend (leBytes 4 c.toNat) (fun tag => .twinCrc { crc := c, tag })

/-- The twin traffic of a frame: facts, and the settings CRC; a joining device in PAIRING answers the peer's CRC instead (log 32). -/
def twinFrame (s : State) : State :=
  if twinTalks s then
    let s := sendTwin (ownFacts s) s
    if s.twn.mode = 1 ∧ s.twn.joiner = true then s
    else
      let c := ownCrc s
      sendCrc c (modTwn (fun t => { t with setCrc := c }) s)
  else s

/-- The peer's settings CRC arrives (R470). In PAIRING and VELVET a mismatch is a failure, begun before or not (R467). -/
def settingsCrc (crc : Word) (s : State) : State :=
  let joining := s.twn.mode == 1 && s.twn.joiner
  let own := if joining then ownCrc s else s.twn.setCrc
  let diff := own != crc
  let was := s.twn.setDiff
  let s := modTwn (fun t => { t with setDiff := diff, setCrc := own, peerCrc := crc }) s
  let s := if joining then sendCrc own s else s
  if !diff then s
  else if s.twn.mode = 1 ∨ s.twn.mode = 2 then twinFailure 2 s
  else if was then s else raiseFault qTWN 0x619 0x97 2 s

/-- TWIN_SETTINGS_CRC. -/
def execTwinSettingsCrc (c : TwinCrc) (s : State) : Host.Outcome State Fault Refusal :=
  .next (if hubUp s then twinReceive (leBytes 4 c.crc.toNat) c.tag (settingsCrc c.crc) s else s)

/-! ### Link up, session, link loss (R459, R475; spec/15 R515) -/

/-- The link is lost (R475). -/
def twinLoss (s : State) : State :=
  if s.twn.mode = 3 then modTwn (fun t => { t with lost := true }) s else twinFailure 3 s

/-- The lanes are locked and the peer has identified itself; the device draws its nonce for session 9. -/
def twinLinkUp (uid : BitVec 64) (role : Bool) (s : State) : State :=
  let s := modTwn (fun t => { t with lanes := 0xF, peerUid := uid, peerRole := role, missRun := 0 }) s
  if role = s.rst.twinRole then
    raiseFault qTWN 0x619 0x9E (flag s.rst.twinRole 0) (modTwn (fun t => { t with linkUp := false, roleClash := true }) s)
  else
    let d := drawNat s
    modTwn (fun t => { t with linkUp := true, roleClash := false, nonce := BitVec.ofNat 256 d.1 }) d.2

/-- The peer is heard: a link that was lost has returned while both devices are in PAIRED (R475). -/
def twinBack (s : State) : State :=
  if s.twn.linkUp && s.twn.peerMode == 3 then modTwn (fun t => { t with lost := false, orphans := 0 }) s else s

/-- TWIN_LINK_UP. -/
def execTwinLinkUp (peerUid : BitVec 64) (peerRole : Bool) (s : State) : Host.Outcome State Fault Refusal :=
  .next (if hubUp s && !clockHeld s 13 then twinLinkUp peerUid peerRole s else s)

/-- What a presentation signs: its fields, the signer's nonce and the other's (PRESUMED, log 108). -/
def helloBytes (h : TwinHello) (other : BitVec 256) : List Byte :=
  h.pub ++ h.cert ++ leBytes 4 h.ownStatus.toNat ++ (h.hashes.map (fun x => leBytes 48 x.toNat)).flatten ++ leBytes 32 h.nonce.toNat
    ++ leBytes 32 other.toNat

/-- The hashes of the four owner key slots. -/
def slotHashes (s : State) : List (BitVec 384) := (List.range 4).map (ownerHash s)

/-- What this device presents to a peer with nonce `other`. -/
def ownHello (other : BitVec 256) (s : State) : TwinHello :=
  let h : TwinHello := { pub := identityPub, cert := Config.vendorCert, ownStatus := wordN (ownStatus s), hashes := slotHashes s, nonce := s.twn.nonce, sig := [] }
  { h with sig := identitySign (helloBytes h other) }

/-- The peer is accepted: its certificate chains to the root and is that of the device the link identified, it has signed both nonces, and the
slot hashes and revocations are equal (R515). -/
def helloOk (h : TwinHello) (s : State) : Bool :=
  certGood h.cert h.pub && uidOf h.pub == s.twn.peerUid.toNat && ecdsaVerify h.pub (helloBytes h s.twn.nonce) h.sig
    && h.hashes == slotHashes s && fld h.ownStatus 8 4 == s.sec.revoked.toNat

/-- The devices present themselves to each other; session 9 opens where this one accepts the peer (R515). -/
def twinSession (h : TwinHello) (key : BitVec 256) (s : State) : State :=
  if s.twn.linkUp && twinImage s then
    let s := emit (.twinHello (ownHello h.nonce s)) s
    if helloOk h s then
      let e := nextEpoch (sessionOf s 9).issued
      raiseFault qSEC 0x615 0xA5 (e % 65536 * 65536 + 9)
        (modTwn (fun t => { t with txCount := 0, rxCount := 0 })
          (modSession 9 (fun y => { y with isOpen := true, key, epoch := e, issued := e, due := [] }) s))
    else s
  else s

/-- TWIN_SESSION_OPEN. -/
def execTwinSessionOpen (peer : TwinHello) (key : BitVec 256) (s : State) : Host.Outcome State Fault Refusal :=
  .next (if hubUp s then twinSession peer key s else s)

/-- LINK_UP falls; session 9 ends with the link. -/
def twinLinkDown (lanes : BitVec 4) (s : State) : State :=
  let was := s.twn.linkUp
  let s := modTwn (fun t => { t with lanes, linkUp := false, roleClash := false, peerUnits := [], peerMode := 0, peerTwinFlag := false, peerHash := none }) s
  if was then modSession 9 (fun y => { y with isOpen := false, key := 0, due := [] }) (twinLoss s) else s

/-- TWIN_LINK_DOWN. -/
def execTwinLinkDown (lanes : BitVec 4) (s : State) : Host.Outcome State Fault Refusal :=
  .next (if hubUp s then twinLinkDown lanes s else s)

/-! ### Agreement checks (R468, R469) -/

/-- The margin of two intervals, LSB 2^-24 rev rounded down; none: no check. Positions in 2^-32 rev. -/
def margin (own : ChRec) (p : PeerUnit) : Option Int :=
  if own.fine && !own.boundSat && p.fineValid && !p.boundSat then
    let lo (x b : Int) : Int := x - b * 256
    let hi (x b : Int) : Int := x + b * 256
    some ((min (hi own.pos own.posBound) (hi p.pos p.bound) - max (lo own.pos own.posBound) (lo p.pos p.bound)) / 256)
  else none

/-- One unit of the peer's block is checked. -/
def checkUnit (p : PeerUnit) (s : State) : State :=
  let u := p.unit
  let k := kindOf u
  if !((k == 1 || k == 2 || k == 4) && unitExists s u) then s
  else
    let own := (unitOf s u).recSt.code
    let old := twinResOf s u
    let m := if k == 1 then margin (recOf s u) p else none
    let mis := own != p.state
    let bad := match m with | some x => decide (x < 0) | none => false
    let agree := match m with | some x => decide (0 ≤ x) && !mis | none => false
    let neg := match m with | some x => decide (x < 0) | none => old.neg
    let s := modTwinRes u (fun _ => { present := k == 1, agree, margin := m, neg, mismatch := mis }) s
    let raise (kind det : Nat) (s : State) : State :=
      twinFailure' (raiseFault qTWN u kind det (modTwn (fun t => { t with disagreements := satInc 16 t.disagreements }) s))
    let s := if bad && !old.neg then raise 0x90 (unsig 32 (satS 32 (m.getD 0))) s else s
    if mis && !old.mismatch then raise 0x91 (p.state % 16 * 16 + own) s else s
where
  /-- A disagreement during VELVET fails it. -/
  twinFailure' (s : State) : State := if s.twn.mode = 2 then twinFailure 1 s else s

/-- The peer's block `n` has arrived complete. -/
def blockArrival (n : Nat) (units : List PeerUnit) (s : State) : State :=
  if n = frameN s ∧ s.time.frame.isSome = true then
    let s := twinBack (modTwn (fun t => { t with peerBlock := n + 1, missRun := 0 }) s)
    if s.twn.mode = 2 ∨ s.twn.mode = 3 then
      let s := modTwn (fun t => { t with checked := n + 1 }) s
      let s := doFor ((ownTines s).filter (fun u => kindOf u == 1)) (fun u => modTwinRes u (fun r => { r with present := true })) s
      doFor units checkUnit s
    else s
  else s

/-- A channel or port record of a block, at offset `o` (spec/12 Tables 12-5, 12-6). -/
def peerChannel (b : List Byte) (o : Nat) : PeerUnit :=
  let w := wordN (leAt b (o + 36) 4)
  { unit := fld w 20 12, state := fld w 0 4, fineValid := bitAt w 5, boundSat := bitAt w 8, pos := signed 48 (leAt b o 6), bound := leAt b (o + 20) 2 }

/-- A profile record (spec/12 Table 12-8): its unit and state. -/
def peerProfile (b : List Byte) (o : Nat) : PeerUnit :=
  let w := wordN (leAt b (o + 24) 4)
  { unit := fld w 20 12, state := fld w 0 4, fineValid := false, boundSat := true, pos := 0, bound := 0 }

/-- The channel, port and profile records of a block, by the counts of its header (spec/12 R392, Table 12-3). -/
def peerUnitsOf (b : List Byte) : List PeerUnit :=
  let ch := leAt b 40 2
  let pt := leAt b 42 2
  let ax := leAt b 44 2
  ((List.range (ch + pt)).map (fun k => peerChannel b (64 + 64 * k)))
    ++ (List.range (leAt b 46 2)).map (fun k => peerProfile b (64 + 64 * (ch + pt) + 32 * ax + 32 * k))

/-- TWIN_BLOCK_ARRIVAL: a block whose tag fails is discarded (R460). -/
def execTwinBlockArrival (n : Nat) (tag : BitVec 128) (block : List Byte) (s : State) : Host.Outcome State Fault Refusal :=
  .next (if hubUp s then twinReceive block tag (blockArrival n (peerUnitsOf block)) s else s)

/-- The latest arrival instant of block `n` (R475). -/
def blockDeadline (n : Nat) (s : State) : State :=
  if (s.twn.mode = 1 ∨ s.twn.mode = 2 ∨ s.twn.mode = 3) ∧ s.twn.peerBlock ≠ n + 1 then
    let s := modTwn (fun t => { t with missing := satInc 16 t.missing, missRun := t.missRun + 1 }) s
    if s.twn.missRun = 2 then twinLoss s else s
  else s

/-- TWIN_BLOCK_DEADLINE. -/
def execTwinBlockDeadline (n : Nat) (s : State) : Host.Outcome State Fault Refusal := .next (if hubUp s then blockDeadline n s else s)

/-- Results of checks show in the records of the next frame only (R468, R495). -/
def clearChecks (n : Nat) (s : State) : State :=
  if s.twn.checked = n then s
  else { s with twn := { s.twn with
    res := Tbl.mapVals (constD {}) (fun _ r => { r with present := false, agree := false, margin := none }) s.twn.res } }

/-! ### Services ATTACH, DETACH, OWN_SET (R463, R472, R474, R487) -/

/-- Target frame of a twin service (R23): SVC_ARG[1:0], or with NEXT the first open one. -/
def svcWant (s : State) : Nat :=
  if bitAt (svcArg s 2) 0 then s.time.openFrame else (svcArg s 0).toNat + 2 ^ 32 * (svcArg s 1).toNat
def svcTarget (s : State) : Nat := max (svcWant s) s.time.openFrame

/-- The result code with which ATTACH is refused; 0: accepted. In DOZING it is refused (spec/17 R594) with MODE, the service having no result
TWIN (DESIGN CHOICE, log 111). -/
def attachCheck (s : State) : Nat :=
  let t := s.twn
  if t.roleClash then 8
  else if !(t.linkUp && (sessionOf s 9).isOpen) then 4
  else if !twinImage s || !t.peerTwinFlag || !hashOk s then 5
  else if t.mode ≠ 0 ∨ (t.peerMode ≠ 0 ∧ t.peerMode ≠ 4) ∨ s.clk.level ≠ 2 then 6
  else if !tinesDormant s then 7
  else if ownMapReg s != t.peerMap then 0xC
  else if farLimit s < svcWant s then 0xB else 0

/-- Kind 0x94 of a refused ATTACH. -/
def attachRefused (c : Nat) : State → State := raiseFault qTWN 0x619 0x94 c

def svcAttach : State → State := svcIfFree 0x40 (fun s =>
  let c := attachCheck s
  if c ≠ 0 then svcRun 0x40 (some (c, [])) (attachRefused c s)
  else
    sendTwin (.attach (svcTarget s) (ownMapReg s))
      (svcRun 0x40 none (modTwn (fun t => { t with attachAt := some (svcTarget s), attachMap := ownMapReg s, attachJoin := true }) s)))

def svcDetach : State → State := svcIfFree 0x41 (fun s =>
  if s.twn.mode ≠ 3 then svcRun 0x41 (some (6, [])) s
  else if farLimit s < svcWant s then svcRun 0x41 (some (0xB, [])) s
  else sendTwin (.detach (svcTarget s)) (svcRun 0x41 none (modTwn (fun t => { t with detachAt := some (svcTarget s) }) s)))

def svcOwnSet : State → State := svcIfFree 0x42 (fun s =>
  if s.twn.mode ≠ 3 then svcRun 0x42 (some (6, [])) s
  else if !twinTalks s then svcRun 0x42 (some (4, [])) s
  else if ownMapReg s != s.twn.peerMap then svcRun 0x42 (some (0xC, [])) s
  else if farLimit s < svcWant s then svcRun 0x42 (some (0xB, [])) s
  else sendTwin (.ownSet (svcTarget s) (ownMapReg s))
    (svcRun 0x42 none (modTwn (fun t => { t with ownAt := some (svcTarget s), ownMap := ownMapReg s }) s)))

/-- ATTACH, DETACH, OWN_SET. -/
def execAttach (s : State) : Host.Outcome State Fault Refusal := .next (if deviceUp s then svcAttach s else s)
def execDetach (s : State) : Host.Outcome State Fault Refusal := .next (if deviceUp s then svcDetach s else s)
def execOwnSet (s : State) : Host.Outcome State Fault Refusal := .next (if deviceUp s then svcOwnSet s else s)

/-- Service `code` completes at its boundary, where it is the one that runs. -/
def svcAtBoundary (code result : Nat) (data : List Byte) (s : State) : State :=
  if s.hst.svc = some code ∧ s.hst.svcDone = none then svcPublish result data s else s

/-! ### Pairing (R463 to R466) -/

/-- The peer reports the unit in a state other than DORMANT or FAULTED. -/
def peerRuns (s : State) (u : Nat) : Bool :=
  match s.twn.peerUnits.find? (fun e => e.1 == u) with | some e => e.2 != 0 && e.2 != 7 | none => false

/-- Units that a joining device prepares inside: trackers, and the groups and engines they need (R464; log 33). -/
def joinUnits (s : State) : List Nat := (ownTines s).filter (fun u => kindOf u == 1 || kindOf u == 7 || kindOf u == 9)

/-- The preparation inside J follows what D reports; the records keep showing DORMANT. -/
def joinPrepare (s : State) : State :=
  doFor (joinUnits s) (fun u s =>
    if peerRuns s u && stOf s u == .dormant then prepareTine u (modUnit u (fun x => { x with st := .preparing, prepDone := false }) s)
    else if !peerRuns s u && stOf s u != .dormant then dormantTine u (modUnit u (fun x => { x with st := .dormant, prepDone := false }) s)
    else s) s

/-- J is ready when each tracker that D runs meets every condition of R260 of spec/08 but the state, in the record of this frame. -/
def joinCheck (s : State) : State :=
  if s.twn.mode = 1 ∧ s.twn.joiner = true ∧ s.twn.joinReady = false then
    if ((ownTines s).filter (fun u => kindOf u == 1 && peerRuns s u)).all (fun u => (recOf s u).fine) then
      sendTwin .joinReady (modTwn (fun t => { t with joinReady := true }) s)
    else s
  else s

/-- RECORD_READY. -/
def execRecordReady (s : State) : Host.Outcome State Fault Refusal :=
  .next (if deviceUp s && s.time.frame.isSome then joinCheck (recordReady (frameN s) s) else s)

/-- Settings that differ from `old`, sent to J (R464). -/
def sendSettings (oldF oldS : List (Nat × Word)) (s : State) : State :=
  let keys := ((s.inForce ++ s.shadow ++ oldF ++ oldS).map (·.1)).eraseDups
  doFor (keys.filter (fun o => inF s o != Tbl.get regReset oldF o || shadowOf s o != Tbl.get regReset oldS o))
    (fun o s => sendTwin (.setting o (inF s o) (shadowOf s o)) s) s

/-- This device is D in PAIRING: every change of a setting goes to J. -/
def copiesSettings (s : State) : Bool := s.twn.mode == 1 && !s.twn.joiner

/-- The two compares of a tracker or port. -/
def cmpPair (s : State) (b : Nat) : List CmpSt := [cmpOf s b, cmpOf s (b + 1)]

/-- The items of Table 14-3 of unit `u`. -/
def itemOf (s : State) (u : Nat) : TwinItem :=
  match kindOf u with
  | 1 => let t := tkOf s u; .tracker t.record.pos t.angleAbs t.map t.verified (cmpPair s (2 * u))
  | 2 => .gen (pgOf s (u - 0x200))
  | 4 => let p := ipOf s (u - 0x480); .port p.u p.now.qeExtra p.cap p.capFrame p.capSkip (cmpPair s (1024 + 2 * (u - 0x480)))
  | 5 => let e := emOf s (u - 0x4A0); .emu e.target e.emitted e.queue
  | 7 => .group (xgOf s (u - 0x4C0)).applied
  | 8 => let l := glOf s (u - 0x500); .link l.wind l.slip l.count
  | 9 => let e := seOf s (u - 0x600); .engine e.bankA e.bankB e.cur e.swap e.past e.held e.asked
  | _ => .plain

/-- D's snapshot for J: every tine but auxiliary channels and switches, and the beams. -/
def sendItems (s : State) : State :=
  let us := (ownTines s).filter (fun u => kindOf u != 3 && kindOf u != 0xA) ++ ((treeUnits s).map (·.id)).filter isBeamId ++ [0xFFF]
  doFor us (fun u s => sendTwin (.items u (unitOf s u).recSt.code (itemOf s u)) s) s

/-- Two compares take the transferred state. -/
def takeCmps (b : Nat) (l : List CmpSt) (s : State) : State :=
  doFor ((List.range l.length).zip l) (fun p => modCmp (b + p.1) (fun c => { c with
    armed := p.2.armed, fired := p.2.fired, behind := p.2.behind, waitBack := p.2.waitBack, tested := p.2.tested })) s

/-- J takes the items of unit `u` (R465, R466). -/
def takeItem (u st : Nat) (x : TwinItem) (s : State) : State :=
  let s := modUnit u (fun y => { y with st := UState.ofCode st, recSt := UState.ofCode st, prepDone := false, faultDue := false }) s
  match x with
  | .plain => s
  | .tracker pos angleAbs map verified cmps =>
    let p := polePairs s u
    let t := tkOf s u
    let k := roundAway (((pos - t.record.pos : Int) : Rat) * p / 4294967296)
    let d := roundAway ((k : Rat) * 4294967296 / p)
    takeCmps (2 * u) cmps
      (modTk u (fun t => { t with turnOfs := t.turnOfs + d, prevPos := t.prevPos + d, angleAbs, map, verified, cand := none }) s)
  | .link wind slip count => modGl (u - 0x500) (fun l => { l with wind, slip, count }) s
  | .gen g => modPg (u - 0x200) (fun _ => g) s
  | .port c qe cap capFrame capSkip cmps =>
    takeCmps (1024 + 2 * (u - 0x480)) cmps
      (modIp (u - 0x480) (fun p =>
        let v := { p.now with qeExtra := qe }
        { p with u := c, base := c, trans := [], baseT := none, latU := c, now := v, views := [], view0 := v, cap, capFrame, capSkip }) s)
  | .emu target emitted queue =>
    let old := emLen (emOf s (u - 0x4A0))
    let s := modEm (u - 0x4A0) (fun e => { e with target, emitted, queue, formed := true }) s
    ledProduce 5 (emLen (emOf s (u - 0x4A0))) (ledDrop 5 old u s)
  | .group a => modXg (u - 0x4C0) (fun g => { g with applied := a }) s
  | .engine a b cur swap past held asked => modSe (u - 0x600) (fun e => { e with bankA := a, bankB := b, cur, swap, past, held, asked, hits := hitsBut [.bankA, .bankB] e.hits }) s

/-- Step 1: an accepted ATTACH reaches its target; a device in DOZING does not enter PAIRING (spec/17 R594; log 111). -/
def attachStep (n : Nat) (s : State) : State :=
  match s.twn.attachAt with
  | none => s
  | some t =>
    if n < t then s
    else
      let j := s.twn.attachJoin
      let s := modTwn (fun t => { t with attachAt := none, attachJoin := false }) s
      let ok := twinTalks s && s.clk.level == 2 && (s.twn.mode == 0 || (!j && s.twn.mode == 4)) && (!j || tinesDormant s)
      if !ok then (if j then attachRefused 9 (svcAtBoundary 0x40 9 [] s) else s)
      else
        let before := s.twn.mode
        let s := modTwn (fun t => { t with before, joiner := j, mapIn := t.attachMap }) (setMode 1 n (modTwn (fun t => { t with joiner := j }) s))
        if j then svcAtBoundary 0x40 1 (leBytes 8 n) (ownAll false { s with inForce := [], shadow := [] })
        else sendSettings [] [] (ownAll true s)

/-- Step 1: a failure ends PAIRING or VELVET (R462, R467). -/
def failStep (n : Nat) (s : State) : State :=
  match s.twn.failure with
  | none => s
  | some c =>
    let s := modTwn (fun t => { t with failure := none }) s
    if s.twn.mode = 1 ∨ s.twn.mode = 2 then
      let s := raiseFault qTWN 0x619 0x97 c s
      if s.twn.joiner then twinWithdraw n s else ownAll true (setMode s.twn.before n s)
    else s

/-- A frame of PAIRING, VELVET or a lost link has passed. -/
def countFrame (s : State) : State :=
  if s.twn.mode = 1 ∨ s.twn.mode = 2 ∨ (s.twn.mode = 3 ∧ s.twn.linkLost = true) then
    let s := modTwn (fun t => { t with frames := t.frames + 1 }) s
    if s.twn.mode = 1 ∧ 65535 ≤ s.twn.frames ∧ s.twn.joinReady = false then modTwn (fun t => { t with failure := some (t.failure.getD 5) }) s else s
  else s

/-- Step 1 in PAIRING and VELVET: the takeover, and the end of VELVET. -/
def progressStep (n : Nat) (s : State) : State :=
  if s.twn.mode = 1 then
    if s.twn.joinReady then
      let s := if s.twn.joiner then doFor s.twn.taken (fun e => takeItem e.1 e.2.1 e.2.2) s else s
      setMode 2 n s
    else if s.twn.joiner then joinPrepare s else s
  else if s.twn.mode = 2 ∧ velvetLen s ≤ s.twn.frames then
    ownByMap (setMode 3 n s)
  else s

/-! ### Detach, ownership, link loss (R472, R474 to R476, R494) -/

/-- A target that has come. -/
def dueAt (n : Nat) : Option Nat → Bool
  | some t => decide (t ≤ n)
  | none => false

/-- Step 1: DETACH by this device or its peer; of two at one boundary, role B's applies. -/
def detachStep (n : Nat) (s : State) : State :=
  let own := dueAt n s.twn.detachAt
  let peer := dueAt n s.twn.peerDetachAt
  let s := modTwn (fun t => { t with detachAt := if own then none else t.detachAt, peerDetachAt := if peer then none else t.peerDetachAt }) s
  if s.twn.mode ≠ 3 then (if own then svcAtBoundary 0x41 6 [] s else s)
  else
    let ownApplies := own && (!peer || s.rst.twinRole)
    if ownApplies then svcAtBoundary 0x41 1 [] (twinWithdraw n s)
    else if peer then
      let s := degrade n s
      if own then svcAtBoundary 0x41 6 [] s else s
    else s

/-- Step 1: OWN_SET at its boundary. -/
def ownSetStep (n : Nat) (s : State) : State :=
  if dueAt n s.twn.ownAt then
    let s := modTwn (fun t => { t with ownAt := none }) s
    if s.twn.mode = 3 then svcAtBoundary 0x42 1 [] (ownByMap (modTwn (fun t => { t with mapIn := t.ownMap }) s))
    else svcAtBoundary 0x42 6 [] s
  else s

/-- Groups the peer owns that are in a driving state here. -/
def peerGroups (s : State) : List Nat := (listedGroups s).filter (fun g => !(xgOf s g).owner && groupOn s g)

/-- Every peer-owned group is orphaned (R476; of the driving ones, DEDUCED, log 34). -/
def allOrphaned (s : State) : Bool := s.twn.mode == 3 && s.twn.lost && (peerGroups s).all (fun g => s.twn.orphans.getLsbD g)

/-- GROUP_ORPHANED: XEN_N[g] has read high for 10 us. -/
def groupOrphan (g : Nat) (s : State) : State :=
  if s.twn.mode = 3 ∧ s.twn.lost = true ∧ g ∈ peerGroups s then
    modTwn (fun t => { t with orphans := t.orphans ||| BitVec.ofNat 64 (2 ^ g) }) s
  else s

def execGroupOrphaned (g : Fin 64) (s : State) : Host.Outcome State Fault Refusal := .next (if hubUp s then groupOrphan g.val s else s)

/-- Step 1 in PAIRED: LINK_LOST, its outcome, or its end. -/
def lossStep (n : Nat) (s : State) : State :=
  if s.twn.mode ≠ 3 then s
  else if !s.twn.lost then modTwn (fun t => { t with linkLost := false, orphans := 0 }) s
  else
    let s := if s.twn.linkLost then s
      else raiseFault qTWN 0x619 0x92 s.twn.lanes.toNat (modTwn (fun t => { t with linkLost := true, frames := 0 }) s)
    if allOrphaned s then raiseFault qTWN 0x619 0x93 0 (degrade n s)
    else if s.rst.twinRole && decide (lossLim s ≤ s.twn.frames) then raiseFault qTWN 0x619 0x93 1 (twinWithdraw n s)
    else s

/-- A frame has passed: kind 0x95 where the offset was beyond SKEW_MAX in 8 frames in a row (R471). -/
def skewFrame (s : State) : State :=
  let run := if twinTalks s && decide (skewMax s < s.twn.skew.natAbs) then min 8 (s.twn.skewRun + 1) else 0
  setCond qTWN 0x619 0x95 0 (run == 8) (unsig 16 s.twn.skew) (modTwn (fun t => { t with skewRun := run }) s)

/-- Step 1 of boundary `n` before a switch: what ended since the last boundary. -/
def twinEarly (n : Nat) (s : State) : State := failStep n (countFrame (clearChecks n (skewFrame s)))

/-- Step 1 of boundary `n` after a switch. -/
def twinStep (n : Nat) (s : State) : State :=
  lossStep n (progressStep n (attachStep n (ownSetStep n (detachStep n s))))

/-! ### Expiries and messages -/

/-- LOSS_LIM_EXPIRY: LOSS_LIM frames have passed since LINK_LOST; the next boundary acts. -/
def execLossLimExpiry (s : State) : Host.Outcome State Fault Refusal :=
  .next (if hubUp s && s.twn.mode == 3 && s.twn.linkLost then modTwn (fun t => { t with frames := max t.frames (lossLim s) }) s else s)

/-- TWIN_VELVET_END: VELVET_LEN frames have passed without a failure; the next boundary acts. -/
def execTwinVelvetEnd (s : State) : Host.Outcome State Fault Refusal :=
  .next (if hubUp s && s.twn.mode == 2 then modTwn (fun t => { t with frames := max t.frames (velvetLen s) }) s else s)

/-- PAIRING_TIMEOUT: 65,535 frames have passed in PAIRING; the next boundary acts. -/
def execPairingTimeout (s : State) : Host.Outcome State Fault Refusal :=
  .next (if hubUp s && s.twn.mode == 1 then twinFailure 5 s else s)

/-- The peer's offset at decimation instant `i`, from its cell time there and this device's own (R471). -/
def twinSkew (i : Nat) (half : Int) : State → State :=
  modTwn (fun t => { t with skew := satS 16 (lsb (((half - (3125 * i : Nat) : Int) : Rat) / 2)) })

/-- A control message of the peer. -/
def twinControl (m : TwinMsg) (s : State) : State :=
  match m with
  | .toneReq chan t =>
    modTone (chan.val / 8) (fun x => { x with queue := x.queue ++ [{ chan, mine := false, earliest := toneEarliest t s }] }) s
  | .attach target map => modTwn (fun t => { t with attachAt := some target, attachMap := map, attachJoin := false }) s
  | .ownSet target map => modTwn (fun t => { t with ownAt := some target, ownMap := map }) s
  | .detach target => modTwn (fun t => { t with peerDetachAt := some target }) s
  | .failure c => if s.twn.mode = 1 ∨ s.twn.mode = 2 then modTwn (fun t => { t with failure := some (t.failure.getD c) }) s else s
  | .setting off f sh => if s.twn.mode = 1 ∧ s.twn.joiner = true ∧ isRws off = true then setShadow off sh (setInF off f s) else s
  | .joinReady => if s.twn.mode = 1 ∧ s.twn.joiner = false then sendItems (modTwn (fun t => { t with joinReady := true }) s) else s
  | .items u st x => if s.twn.mode = 1 ∧ s.twn.joiner = true then modTwn (fun t => { t with taken := t.taken ++ [(u, st, x)] }) s else s
  | .facts mode hash map dormant tw states =>
    twinBack (modTwn (fun t => { t with
      peerMode := mode, peerHash := some hash, peerMap := map, peerDormant := dormant, peerTwinFlag := tw, peerUnits := states }) s)
  | .stamp i half => twinSkew i half s
  | .resetReq target => assertSources [{ code := 0x16, target }] 0 s

/-- TWIN_CONTROL_MESSAGE: under session 9. -/
def execTwinControlMessage (m : TwinTagged) (s : State) : Host.Outcome State Fault Refusal :=
  .next (if hubUp s then twinReceive (Config.twinWire m.msg) m.tag (twinControl m.msg) s else s)

end Sys2Proof.Machine
end

