-- ==== Sys2Proof/Machine/Herd.lean ====
section
/-! DEFINITION. The P6 load (spec/02 R63 to R65) and the herd link (spec/14 R478 to R486, R497, R498): enumeration, relayed commands, the
frame token and the herd-wide states. -/
namespace Sys2Proof.Machine

/-! ### The P6 load (spec/02 R65) -/

def modSlots (f : SlotSt → SlotSt) (s : State) : State := { s with slots := f s.slots }

/-- An unfinished velvet is rolled back first; whether that left no image in the ACTIVE role. Details as at `rollback` (log 88). -/
def p6Rollback (s : State) : Bool × State :=
  if s.slots.velvet.isSome then
    if barred s s.slots.previous then
      (false, raiseFault qCFG 0x610 0x1A 0 (floorApply (modSlots (fun x => { x with velvet := none, velvetFault := false }) s)))
    else
      let s := modSlots (fun x => { x with active := x.previous, previous := none, velvet := none, velvetFault := false }) s
      (s.slots.active.isNone, raiseFault qCFG 0x610 0x18 0 { s with sec := { s.sec with floorPending := none } })
  else (false, s)

/-- An optional image is considered. -/
def p6Try (b : Option (List Byte)) (s : State) : Option Image × State :=
  match b with | some b => considerImage b s | none => (none, s)

/-- The image is put in force, or none is. -/
def p6Force (img : Option Image) (source : Nat) (s : State) : State :=
  putInForce img (frameN s) (modSlots (fun x => { x with bootSource := source }) s)

/-- Selection and load. DESIGN CHOICE, log 88: the details of kinds 0x1C and 0x1D are 0. -/
def p6Load (s : State) : State :=
  let r := p6Rollback s
  let s := r.2
  let s := { s with rst := { s.rst with loaded := true } }
  if r.1 then p6Force none 2 s
  else
    let a := p6Try s.slots.active s
    if a.1.isSome then p6Force a.1 0 a.2
    else
      let p := p6Try a.2.slots.previous a.2
      if p.1.isSome then
        let s := modSlots (fun x => { x with active := x.previous, previous := x.active }) p.2
        p6Force p.1 1 (raiseFault qSEC 0x610 0x1C 0 s)
      else p6Force none 2 (raiseFault qSEC 0x610 0x1D 0 p.2)

/-! ### Ports and enumeration (R478 to R480) -/

def modHrd (f : HrdSt → HrdSt) (s : State) : State := { s with hrd := f s.hrd }

/-- TOUR: in line mode the token goes to each far end and back (DEDUCED, log 36). -/
def tourOf (line : Bool) (devices : Nat) : Nat := if line then 2 * (devices - 1) else devices

/-- HERD_LINK_TRAINED. -/
def herdTrained (down ok : Bool) (s : State) : State :=
  modHrd (fun h => if down then { h with downOk := ok } else { h with upOk := ok }) s

def execHerdLinkTrained (down ok : Bool) (s : State) : Host.Outcome State Fault Refusal := .next (if hubUp s then herdTrained down ok s else s)

/-- This device's UID. -/
def ownUid : BitVec 64 := BitVec.ofNat 64 deviceUid

/-- The manager sends the enumeration message out of DOWN; its own position is 0. -/
def enumerate (s : State) : State :=
  let s := modHrd (fun h => { h with
    position := some 0, line := !(h.upOk && h.downOk), devices := 1, uids := [ownUid], tour := 0, unreached := [] }) s
  if s.hrd.downOk then emit (.herdEnum 0 ownUid [ownUid]) s else s

/-- A tine of this device below a spanning beam is not DORMANT. -/
def localBusy (s : State) : Bool :=
  (((treeUnits s).map UnitEnt.id) ++ [0xFFF]).any (fun b => herdSpan s b && (localTines s b).any (fun u => stOf s u != UState.dormant))

/-- A spanning beam has a descendant that is not DORMANT: here, or by what the last token told (DESIGN CHOICE, log 109: each device's part of the
token says it). -/
def spanBusy (s : State) : Bool := s.hrd.remoteBusy || localBusy s

/-- Service HERD_ENUM (R487). -/
def svcHerdEnum : State → State := svcIfFree 0x48 (fun s =>
  if !s.rst.herdMgr then svcRun 0x48 (some (0xA, [])) s
  else if spanBusy s then svcRun 0x48 (some (7, [])) s
  else svcRun 0x48 none (enumerate s))

/-- HERD_ENUM. -/
def execHerdEnum (s : State) : Host.Outcome State Fault Refusal := .next (if deviceUp s then svcHerdEnum s else s)

/-- The enumeration message in the manager: its own has come round, or there are two managers and neither enumerates (R478). -/
def enumReturn (mgr : BitVec 64) (uids : List (BitVec 64)) (s : State) : State :=
  if mgr = ownUid then
    svcAtBoundary 0x48 1 []
      (modHrd (fun h => { h with devices := uids.length, uids := uids.take 16, tour := tourOf h.line uids.length }) s)
  else
    raiseFault qHRD 0x61A 0x9A 1
      (svcAtBoundary 0x48 9 [] (modHrd (fun h => { h with position := none, devices := 0, uids := [], tour := 0 }) s))

/-- The enumeration message in a worker: the position of the device on its UP port where that is its twin and the twin link is up, else the next
(R479). -/
def enumWorker (pos : Nat) (sender mgr : BitVec 64) (uids : List (BitVec 64)) (s : State) : State :=
  let new := if s.twn.linkUp && s.twn.peerUid == sender then pos else pos + 1
  let pass (p : Nat) (s : State) : State := emit (.herdEnum p mgr (uids ++ [ownUid])) s
  match s.hrd.position with
  | some p => pass p (if p = new then s else raiseFault qHRD 0x61A 0x9A 3 s)
  | none =>
    if 15 < new then pass pos (raiseFault qHRD 0x61A 0x9A 2 s)
    else
      let late := s.hrd.waiting && s.rst.loaded
      let s := pass new (modHrd (fun h => { h with position := some new, waiting := false }) s)
      if late then p6Load s else s

/-- HERD_ENUM_MESSAGE. -/
def execHerdEnumMessage (pos : Nat) (sender mgr : BitVec 64) (uids : List (BitVec 64)) (s : State) : Host.Outcome State Fault Refusal :=
  .next (if hubUp s then (if s.rst.herdMgr then enumReturn mgr uids s else enumWorker pos sender mgr uids s) else s)

/-- HERD_POSITION_WAIT_EXPIRY: a worker in P6 loads with position 0. -/
def positionExpiry (s : State) : State :=
  if s.rst.phase = 6 ∧ s.hrd.waiting = true ∧ s.rst.loaded = false then p6Load s else s

def execHerdPositionWaitExpiry (s : State) : Host.Outcome State Fault Refusal := .next (if hubUp s then positionExpiry s else s)

/-! ### Relayed commands (R482, R497) -/

/-- A relayed command waits for its target boundary, and goes on to the next device. -/
def commandRelay (u code target : Nat) (s : State) : State :=
  if s.rst.herdMgr then s
  else emit (.herdRelay u code target) (modHrd (fun h => { h with relays := h.relays ++ [{ unit := u, code, target }] }) s)

/-- HERD_COMMAND_RELAY. -/
def execHerdCommandRelay (u : BitVec 12) (code target : Nat) (s : State) : Host.Outcome State Fault Refusal :=
  .next (if deviceUp s && herdSpan s u.toNat then commandRelay u.toNat code target s else s)

/-! ### Partial aggregates and herd-wide states (R483) -/

/-- Spanning beams, deepest first. -/
def spanBeams (s : State) : List Nat :=
  let bs := (((treeUnits s).map (·.id)).filter isBeamId).filter (herdSpan s)
  let order := sortBy (fun a b => decide (depthIn s bs b < depthIn s bs a)) bs
  if herdSpan s 0xFFF then order ++ [0xFFF] else order

/-- A child that this device holds: a tine of its own, or a beam that does not span with such a tine below it. -/
def heldChild (s : State) (e : UnitEnt) : Bool :=
  if isBeamId e.id then !herdSpan s e.id && !(localTines s e.id).isEmpty else isLocal s e

/-- This device's partial for beam `b`; none where it holds no child. -/
def partialOf (s : State) (b : Nat) : Option Partial :=
  let ch := ((treeUnits s).filter (fun e => e.parent == b && heldChild s e)).map (fun e => (e.isolated, (unitOf s e.id).recSt))
  let up := (ch.filter (fun c => c.2 != .faulted)).map (fun c => c.2.code)
  if ch.isEmpty then none
  else some { beam := b, rank := up.min?, anyFault := ch.any (fun c => !c.1 && c.2 == .faulted), allIsoFault := ch.all (fun c => c.1 && c.2 == .faulted) }

/-- Step 6: the partials of this boundary. -/
def formPartials (s : State) : State := modHrd (fun h => { h with partials := (spanBeams s).filterMap (partialOf s) }) s

/-- The herd-wide state of beam `b` from all partials, and from nested spanning beams already combined (R54, R483). -/
def combine (s : State) (ps : List Partial) (done : List (Nat × UState)) (b : Nat) : UState :=
  let mine := ps.filter (fun p => p.beam == b)
  let nested := ((treeUnits s).filter (fun e => e.parent == b)).filterMap (fun e =>
    match done.find? (fun d => d.1 == e.id) with | some d => some (e.isolated, d.2) | none => none)
  let ranks := mine.filterMap (·.rank) ++ (nested.filter (fun c => c.2 != .faulted)).map (fun c => c.2.code)
  if herdBroken s b || mine.any (·.anyFault) || nested.any (fun c => !c.1 && c.2 == .faulted) then .faulted
  else match ranks.min? with
    | some r => UState.ofCode r
    | none => if mine.isEmpty && nested.isEmpty then .dormant else .faulted

/-- The herd-wide states of all spanning beams, bottom-up. -/
def herdStates (s : State) (ps : List Partial) : List (Nat × UState) :=
  (spanBeams s).foldl (fun done b => done ++ [(b, combine s ps done b)]) []

/-! ### The frame token (R484, R485) -/

/-- A herd runs: this device has a position and the image in force is a herd image. -/
def herdRuns (s : State) : Bool := s.hrd.position.isSome && (match s.conf with | some i => i.herd | none => false)

def beamHashOf (s : State) : BitVec 384 := match s.conf with | some i => i.beamHash | none => 0

/-- What this device adds to a token (R481, R483, R484). -/
def ownPart (s : State) : TokenPart :=
  { uid := ownUid, pos := ownPos s, frame := frameN s, paired := s.twn.mode == 3, idle := !localBusy s, hash := beamHashOf s, parts := s.hrd.partials }

/-- The partials that count: of two devices at one position whose twin checks both report PAIRED, those of the first (R498; DESIGN CHOICE,
log 109: which of the two). -/
def countedParts : List TokenPart → List TokenPart
  | [] => []
  | a :: t => a :: (countedParts t).filter (fun b => !(a.paired && b.paired && a.pos == b.pos))

/-- The states that a token carries. -/
def shownStates (s : State) : List (Nat × Nat × Nat) := s.hrd.shown.map (fun e => (e.1, e.2.1.code, e.2.2))

/-- The manager's token has not returned. -/
def tokenLost (s : State) : State :=
  match s.hrd.token with
  | none => s
  | some f =>
    raiseFault qHRD 0x61A 0x99 (f % 2 ^ 32)
      (ledDrop 3 1 0x61A (modHrd (fun h => { h with token := none, tokensLost := satInc 16 h.tokensLost, tokenOk := false }) s))

/-- HERD_TOKEN_ISSUE: out of DOWN; in line mode with DOWN open, out of UP (R486). -/
def tokenIssue (s : State) : State :=
  if s.rst.herdMgr && herdRuns s && s.time.frame.isSome then
    let s := tokenLost s
    emit (.herdToken s.hrd.downOk (frameN s) (shownStates s) [] (beamHashOf s))
      (ledProduce 3 1 (modHrd (fun h => { h with token := some (frameN s) }) s))
  else s

def execHerdTokenIssue (s : State) : Host.Outcome State Fault Refusal := .next (if deviceUp s then tokenIssue s else s)

/-- The port by which a worker passes the token on: across, or, at the far end of a line, back (R486). -/
def passDown (h : TokenHop) (s : State) : Bool := if h.fromUp then s.hrd.downOk else !s.hrd.upOk

/-- A worker's beam hash is compared on the first token after a load (R481). -/
def hashCheck (hash : BitVec 384) (s : State) : State :=
  let bad := s.hrd.firstTour && hash != beamHashOf s
  let s := modHrd (fun h => { h with beamOk := hash == beamHashOf s, firstTour := false }) s
  if bad then raiseFault qHRD 0x61A 0x9D (ownPos s % 16) s else s

/-- HERD_TOKEN_RECEIVE. A worker adds its part once (R483, R484). -/
def tokenReceive (frame : Nat) (states : List (Nat × Nat × Nat)) (ps : List TokenPart) (hash : BitVec 384) (hop : TokenHop) (s : State) : State :=
  if s.rst.herdMgr then s
  else
    let s := ledProduce 3 1 s
    let s := if frame = frameN s then s else raiseFault qHRD 0x61A 0x9B (frame % 2 ^ 32) s
    let s := hashCheck hash (modHrd (fun h => { h with since := 0, shown := states.map (fun e => (e.1, UState.ofCode e.2.1, e.2.2)) }) s)
    if hop.canPass then
      let mine := if ps.any (fun p => p.uid == ownUid) then [] else [ownPart s]
      emit (.herdToken (passDown hop s) frame states (ps ++ mine) hash) (ledConsume 3 1 (modHrd (fun h => { h with tokenFrame := frame, tokenOk := true }) s))
    else
      raiseFault qHRD 0x61A 0x99 (frame % 2 ^ 32)
        (ledDrop 3 1 0x61A (modHrd (fun h => { h with tokensLost := satInc 16 h.tokensLost, tokenOk := false }) s))

def execHerdTokenReceive (frame : Nat) (states : List (Nat × Nat × Nat)) (parts : List TokenPart) (beamHash : BitVec 384) (hop : TokenHop) (s : State) :
    Host.Outcome State Fault Refusal :=
  .next (if deviceUp s && s.time.frame.isSome then tokenReceive frame states parts beamHash hop s else s)

/-- The manager retires its token: on the first tour after a load it compares the beam hashes, then it combines the partials, its own too
(R481, R483, R498). -/
def retireToken (frame : Nat) (ps : List TokenPart) (tourNs : Nat) (s : State) : State :=
  let s := ledConsume 3 1 (modHrd (fun h => { h with
    token := none, tokenFrame := frame, tourNs, tokenOk := true, beamOk := true, remoteBusy := ps.any (fun p => !p.idle) }) s)
  let bad := (ps.filter (fun p => p.hash != beamHashOf s)).map (·.pos)
  let s := if s.hrd.firstTour then modHrd (fun h => { h with firstTour := false, badHash := bad }) s else s
  let parts := (countedParts (ownPart s :: ps)).flatMap (·.parts)
  modHrd (fun h => { h with shown := (herdStates s parts).map (fun e => (e.1, e.2, frame)) }) s

/-- The token is back. In line mode, back from DOWN, it goes along the UP arm where there is one (R486); else it retires. -/
def tokenRetire (frame : Nat) (ps : List TokenPart) (fromDown : Bool) (tourNs : Nat) (s : State) : State :=
  if s.hrd.token = some frame then
    if s.hrd.line && fromDown && s.hrd.upOk then emit (.herdToken false frame (shownStates s) ps (beamHashOf s)) s
    else retireToken frame ps tourNs s
  else s

def execHerdTokenRetire (frame : Nat) (parts : List TokenPart) (fromDown : Bool) (tourNs : Nat) (s : State) : Host.Outcome State Fault Refusal :=
  .next (if deviceUp s && s.rst.herdMgr then tokenRetire frame parts fromDown tourNs s else s)

/-- HERD_TOKEN_TIMEOUT: t_(n+1) has come with the token out. -/
def execHerdTokenTimeout (s : State) : Host.Outcome State Fault Refusal := .next (if deviceUp s && s.rst.herdMgr then tokenLost s else s)

/-- HERD_TOKEN_ABSENT: a worker has received no token for 2 frames (R486). -/
def tokenAbsent (s : State) : State :=
  if !s.rst.herdMgr && herdRuns s && decide (2 ≤ s.hrd.since) then
    raiseFault qHRD 0x61A 0x99 (frame64 s % 2 ^ 32) (modHrd (fun h => { h with since := 0, tokenOk := false }) s)
  else s

def execHerdTokenAbsent (s : State) : Host.Outcome State Fault Refusal := .next (if deviceUp s then tokenAbsent s else s)

/-- HERD_RING_OPEN (R486): until a new enumeration the positions that no path reaches stay so (DESIGN CHOICE, log 109). -/
def ringOpen (down : Bool) (unreached : List Nat) (s : State) : State :=
  raiseFault qHRD 0x61A 0x98 (flag down 0) (modHrd (fun h => { h with line := true, tour := tourOf true h.devices, unreached }) s)

def execHerdRingOpen (down : Bool) (unreached : List Nat) (s : State) : Host.Outcome State Fault Refusal :=
  .next (if hubUp s && s.rst.herdMgr then ringOpen down unreached s else s)

/-- What boundary `n` does to the herd link before its steps: a token still out is lost, a worker counts a frame without one; TOKEN_OK tells of
the frame that has ended (Table 14-11). -/
def herdBoundary (s : State) : State :=
  let s := if s.rst.herdMgr then tokenLost s else s
  if herdRuns s && !s.rst.herdMgr then modHrd (fun h => { h with since := h.since + 1, tokenOk := h.tokenOk && h.since == 0 }) s else s

/-- Commands relayed for boundary `n`. -/
def dueRelays (n : Nat) (s : State) : List Direct :=
  (s.hrd.relays.filter (fun r => decide (r.target ≤ n))).map (fun r => { unit := r.unit, code := r.code, late := false, src := .relay })
def dropRelays (n : Nat) (s : State) : State := modHrd (fun h => { h with relays := h.relays.filter (fun r => decide (n < r.target)) }) s

end Sys2Proof.Machine
end

