-- ==== Sys2Proof/Machine/Bring.lean ====
section
/-! DEFINITION. The reset controller's commands (spec/18): sources, bring-up phases, reset requests, watchdog; tamper (spec/15 R518);
the PCI Express link (spec/13 R455). -/
namespace Sys2Proof.Machine

def modRst (f : RstSt → RstSt) (s : State) : State := { s with rst := f s.rst }

/-! ### Sources (R597, R602 to R604) -/

/-- A kind that the fawn domain holds back until P7 (R610). -/
def holdBack (u kind detail : Nat) (s : State) : State := { s with flt := { s.flt with heldBack := s.flt.heldBack ++ [(u, kind, detail)] } }

/-- A tamper detector is noted, with kind 0xA8 for P7 (spec/15 R518). -/
def tamperNote (det : Nat) (s : State) : State := holdBack 0x615 0xA8 det { s with sec := { s.sec with tamperCause := det } }

/-- The sources that assert in one cycle. In hot reset, acted on or not, the DMA copies in progress end as FORCED (spec/13 R455). A tamper among
them names its detector as its target, and what R518 of spec/15 says of it happens. -/
def assertAll (srcs : List SourceReq) (s : State) : State :=
  let s := if srcs.any (fun r => r.code == 0x12) then dmaForced s else s
  match srcs.find? (fun r => r.code == 2) with
  | some r => assertSources srcs (r.target % 16) (tamperNote (r.target % 16) s)
  | none => assertSources srcs 0 s

/-- RESET_SOURCE_ASSERT. -/
def execResetSourceAssert (srcs : List SourceReq) (s : State) : Host.Outcome State Fault Refusal := .next (assertAll srcs s)

/-- A source releases: what no other source holds is released, down to the level that remains. -/
def sourceRelease (code : Nat) (s : State) : State :=
  let before := heldSlices s
  let up := deviceUp s
  let s := modRst (fun r => { r with sources := r.sources.filter (fun x => x.code != code) }) s
  let s := if up then releaseSlices (before &&& ~~~heldSlices s) s else s
  let s := modRst (fun r => { r with
      wait := r.wait && phaseHeld s r.phase, railsGood := if code = 4 then s.time.now else r.railsGood }) s
  alarmLeave s

/-- RESET_SOURCE_RELEASE. -/
def execResetSourceRelease (code : Nat) (s : State) : Host.Outcome State Fault Refusal := .next (sourceRelease code s)

/-- A tamper detector: the fixed L1 reset, the detector kept, kind 0xA8 in P7 (spec/15 R518). -/
def tamper (det : Nat) (s : State) : State :=
  if det = 0 then s
  else assertSources [{ code := 0x02, target := 0 }] det (tamperNote det s)

/-- TAMPER. -/
def execTamper (det : Fin 5) (s : State) : Host.Outcome State Fault Refusal := .next (tamper det.val s)

/-- RST_SEEN_CLEAR: the bits written 1 clear. -/
def seenClear (v : Word) (s : State) : State := modRst (fun r => { r with seen := r.seen &&& ~~~v }) s
def execRstSeenClear (v : Word) (s : State) : Host.Outcome State Fault Refusal := .next (if 4 ≤ s.rst.phase then seenClear v s else s)

/-! ### Bring-up (R608 to R610) -/

/-- Bring-up reaches the entry of phase `p`. -/
def enterPhase (p : Nat) (s : State) : State := modRst (fun r => { r with phase := p, wait := phaseHeld s p }) s

/-- A failed attempt in phase `p`: counted, and bring-up restarts from P1 or stops (R609). -/
def attemptFail (p : Nat) (s : State) : State :=
  let a := min 15 (s.rst.attempts + 1)
  let s := holdBack 0x611 0x0C (p + 16 * a) s
  enterPhase 1 (modRst (fun r => { r with attempts := a, fails := r.fails + 1, phaseFail := decide (3 ≤ r.fails + 1) }) s)

/-- P1: options, fuse table, pin map and straps (R606; spec/15 R517). -/
def loadOptions (s : State) : State :=
  { s with
    rst := { s.rst with fuseIn := s.rst.fuse, pinMapIn := s.rst.pinMap, herdMgr := Config.strapHerdMgr, twinRole := Config.strapTwinRole }
    sec := { s.sec with fusesOk := true, dbgLocked := s.sec.burned != 0 && !s.sec.dbgUnlocked } }

/-- P7. -/
def enterReady (t : Nat) (s : State) : State :=
  let s := modRst (fun r => { r with
      phase := 7, wait := false, fails := 0, boots := satInc 16 r.boots, bootMs := min 65535 ((t - r.railsGood) / 1000000) }) s
  let s := raiseFault qRST 0x611 0x00 (s.rst.causeSrc * 2 ^ 24 + s.rst.causeLevel * 2 ^ 20) s
  let held := s.flt.heldBack
  let s := doFor held (fun k => raiseFault qRST k.1 k.2.1 k.2.2) { s with flt := { s.flt with heldBack := [] } }
  alarmLeave (numberFrames t s)

/-- The calibration of the lowest slice released from L3 ends (R608, R614). -/
def calibrated (s : State) : State :=
  match (List.range 8).find? (fun k => s.rst.calib.getLsbD k) with
  | none => s
  | some k =>
    raiseFault qRST 0x611 0x00 (s.rst.causeSrc * 2 ^ 24 + 3 * 2 ^ 20 + k) (modRst (fun r => { r with calib := r.calib &&& ~~~bit8 k }) s)

/-- The higher copy of the floor that passes its CRC (spec/15 R510). -/
def floorStored (s : State) : Option Nat :=
  match [s.sec.floorA, s.sec.floorB].filter (fun c => c.crc == crc32c (leBytes 4 c.value)) with
  | [] => none
  | a :: t => some (t.foldl (fun m c => max m c.value) a.value)

/-- P4, the security core: identity, certificate, image keys and floor from the persistent store; what is invalid waits as kind 0xA9 for P7
(spec/15 R499, R500, R508, R510, R522). -/
def secureLoad (s : State) : State :=
  let s : State := { s with sec := { s.sec with
    identityOk := identityKey.isSome && !Config.vendorCert.isEmpty, floor := (floorStored s).getD 0xFFFFFFFF } }
  let s := if (floorStored s).isNone then holdBack 0x615 0xA9 1 s else s
  let s := if s.sec.imgKeys.any (fun e => match e.2 with | some k => (openImageKey k).isNone | none => false) then holdBack 0x615 0xA9 2 s else s
  if certGood Config.vendorCert identityPub then s else holdBack 0x615 0xA9 3 s

/-- The phase in progress completes with outcome `o` at `t`. In P6 a worker without a position waits (spec/14 R480); HERD_POSITION_WAIT_EXPIRY
then loads. -/
def phaseDone (o : PhaseOutcome) (t : Nat) (s : State) : State :=
  match s.rst.phase with
  | 0 =>
    let s := emit (.pwrReq true) (drawChal { s with clk := { s.clk with pwrReq := true } })
    enterPhase 1 (maskRails 24 7 (t + 5000000) (modRst (fun r => { r with railsGood := t }) s))
  | 1 =>
    let s := match o with | .options f => if f = 3 then holdBack 0x611 0x03 3 s else s | _ => s
    enterPhase 2 (loadOptions s)
  | 2 => match o with | .firmwareFailed => attemptFail 2 s | _ => enterPhase 3 s
  | 3 => enterPhase 4 { s with clk := { s.clk with coreLock := true, modLock := true, ioLock := true, refOk := true, modAligned := true, modErr := 0 } }
  | 4 =>
    let pend (p : Nat) : BitVec 14 := if pllLocked s p then 0 else bit14 (p - 1)
    let grid : BitVec 14 := if s.clk.modLock && s.clk.modAligned then 0 else bit14 1
    let s := doFor ((List.range 8).filter (fun k => !s.clk.sliceOn.getLsbD k)) (fun k => maskRails (3 * k) 3 (t + 100000 * k + 200000))
      (secureLoad s)
    enterPhase 5 { s with
      rst := { s.rst with pendingClock := s.rst.pendingClock ||| pend 1 ||| grid ||| pend 3 ||| pend 12 ||| pend 13 ||| pend 14 } }
  | 5 =>
    let lock := s.clk.sliceLock ||| ~~~s.clk.sliceOn
    let s : State := { s with
      biasOff := false
      clk := { s.clk with sliceOn := 0xFF, sliceLock := lock }
      rst := { s.rst with pendingClock := s.rst.pendingClock ||| ((~~~lock).setWidth 14 <<< 3) } }
    let s := if s.rst.herdMgr then enumerate s else s
    enterPhase 6 (modRst (fun r => { r with loaded := false }) s)
  | 6 =>
    if s.rst.loaded then enterReady t s
    else if !s.rst.herdMgr && s.hrd.position.isNone then modHrd (fun h => { h with waiting := true }) s
    else enterReady t (p6Load s)
  | _ => calibrated s

/-- BRINGUP_PHASE_DONE: nothing happens while a source holds the phase or bring-up has stopped. -/
def execBringupPhaseDone (o : PhaseOutcome) (t : Nat) (s : State) : Host.Outcome State Fault Refusal :=
  .next (if s.rst.wait || s.rst.phaseFail || phaseHeld s s.rst.phase then s else showPins trigPin s (phaseDone o t (setNow t s)))

/-- A release deferred CLK_TO ms: a failed attempt in P3, else kind 0x01 (R607). -/
def deferralTimeout (p : Nat) (s : State) : State :=
  if s.rst.phase = 3 then (if 1 ≤ p ∧ p ≤ 3 then attemptFail 3 s else s)
  else if 1 ≤ p ∧ s.rst.pendingClock.getLsbD (p - 1) = true then raiseOrHold qRST 0x611 0x01 p s else s

/-- CLOCK_DEFERRAL_TIMEOUT. -/
def execClockDeferralTimeout (pll : Fin 15) (s : State) : Host.Outcome State Fault Refusal := .next (deferralTimeout pll.val s)

/-! ### Reset requests (R600, R618) -/

/-- A refused request: kind 0x04. -/
def reqRefused (code : Nat) : State → State := raiseFault qRST 0x611 0x04 code

/-- TARGET is a slice or a listed unit, as the level of the source asks. -/
def targetOk (s : State) (code target : Nat) : Bool :=
  match sourceLevel s code with
  | 3 => decide (target < 8)
  | 4 => unitExists s target && !isInfra target
  | _ => true

/-- DEST 0b00: source 0x19 of this device. -/
def reqLocal (v : Word) (s : State) : State :=
  if fld v 24 8 ≠ 0xA5 then reqRefused 1 s
  else if fld v 20 2 = 3 then reqRefused 2 s
  else if sourceLevel s 0x19 = 5 then reqRefused 3 s
  else if !targetOk s 0x19 (fld v 0 12) then reqRefused 2 s
  else assertSources [{ code := 0x19, target := fld v 0 12 }] 0 s

/-- RST_REQ_LOCAL. -/
def execRstReqLocal (v : Word) (s : State) : Host.Outcome State Fault Refusal := .next (if deviceUp s then reqLocal v s else s)

/-- DEST 0b01: source 0x16 of the twin peer. -/
def reqTwin (v : Word) (enabled : Bool) (s : State) : State :=
  if fld v 24 8 ≠ 0xA5 then reqRefused 1 s
  else if !twinTalks s then reqRefused 4 s
  else if !enabled then reqRefused 3 s
  else sendTwin (.resetReq (fld v 0 12)) s

/-- RST_REQ_TWIN: `peerEnabled`, the source is enabled in the peer. -/
def execRstReqTwin (v : Word) (peerEnabled : Bool) (s : State) : Host.Outcome State Fault Refusal :=
  .next (if deviceUp s then reqTwin v peerEnabled s else s)

/-- DEST 0b10: source 0x17 of the device at POSITION. -/
def reqHerd (v : Word) (reachable enabled : Bool) (s : State) : State :=
  if fld v 24 8 ≠ 0xA5 then reqRefused 1 s
  else if !s.rst.herdMgr then reqRefused 5 s
  else if !reachable then reqRefused 4 s
  else if !enabled then reqRefused 3 s
  else emit (.herdReset (fld v 16 4) (fld v 0 12)) s

/-- RST_REQ_HERD: whether the position is reachable and the source enabled there. -/
def execRstReqHerd (v : Word) (reachable enabled : Bool) (s : State) : Host.Outcome State Fault Refusal :=
  .next (if deviceUp s then reqHerd v reachable enabled s else s)

/-! ### Watchdog (R601, R619) -/

def wdtReg (s : State) : Word := rwOf s (baseRST + 0x24)
def wdtPeriod (s : State) : Nat := max 1 (fld (wdtReg s) 16 16)
def wdtReload (s : State) : State := modRst (fun r => { r with wdtLeft := wdtPeriod s, wdtAt := s.time.now }) s

/-- A write of WDT_CTRL. -/
def wdtCtrl (v : Word) (s : State) : State :=
  if bitAt (wdtReg s) 1 then reqRefused 6 s
  else
    let s := modRst (fun r => { r with wdtLeft := wdtLeft s, wdtAt := s.time.now }) s
    let s := setRw (baseRST + 0x24) (v &&& 0xFFFF0003) s
    if bitAt v 0 then wdtReload s else s

/-- WDT_CTRL_WRITE. -/
def execWdtCtrlWrite (v : Word) (s : State) : Host.Outcome State Fault Refusal := .next (if deviceUp s then wdtCtrl v s else s)

/-- A write of WDT_KICK. -/
def wdtKick (v : Word) (s : State) : State := if fld v 0 16 = 0x4B1C then wdtReload s else s

/-- WDT_KICK. -/
def execWdtKick (v : Word) (s : State) : Host.Outcome State Fault Refusal := .next (if deviceUp s then wdtKick v s else s)

/-- WATCHDOG_EXPIRY: source 0x14 fires, the count reloads. -/
def execWatchdogExpiry (s : State) : Host.Outcome State Fault Refusal :=
  .next (if deviceUp s && bitAt (wdtReg s) 0 then assertSources [{ code := 0x14, target := 0 }] 0 (wdtReload s) else s)

/-! ### The PCI Express link (spec/13 R455) -/

/-- The PCI Express function's read-only and fixed configuration (R434): vendor identifier, which the spec does not state (log 1), device
identifier, class code, Device Serial Number, largest Max_Payload_Size, size of BAR0. -/
structure PciIdentity where
  vendor : Nat
  device : Nat
  cls : Nat
  serial : Nat
  maxPayload : Nat
  bar0 : Nat
  deriving DecidableEq, Repr

def pciIdentity : PciIdentity :=
  { vendor := Config.openNat 12 0 % 65536, device := 0x0512, cls := 0x118000, serial := deviceUid, maxPayload := 512, bar0 := 0x10000000 }

/-- The link changes, and `fn` is what the host has set in the function. Going down ends the DMA copies in progress as FORCED; Bus Master Enable
that becomes 0 halts the engines (R437); an uncorrectable error that AER shows anew raises kind 0x88 (Table 13-6). -/
def linkChange (up : Bool) (width rate : Nat) (fn : PcieFn) (s : State) : State :=
  let err := fn.aer &&& ~~~s.hst.aer != 0
  let s := setBme fn.bme { s with hst := { s.hst with
      linkUp := up, width := if up then width else 0, rate := if up then rate else 0
      msixEn := fn.msixEn, fmask := fn.fmask, d3hot := fn.d3hot, aer := fn.aer } }
  let s := if err then raiseFault qHST 0x618 0x88 fn.aer.toNat s else s
  if up then s else dmaForced s

/-- PCIE_LINK_CHANGE. -/
def execPcieLinkChange (up : Bool) (width rate : Nat) (fn : PcieFn) (s : State) : Host.Outcome State Fault Refusal :=
  .next (if decide (4 ≤ s.rst.phase) && !(up && clockHeld s 14) then linkChange up width rate fn s else s)

end Sys2Proof.Machine
end

