-- ==== Sys2Proof/Machine/Boundary.lean ====
section
/-! DEFINITION. The frame boundary: what every block does at t_n in the order of Table 1-7 (spec/01 R13 to R16, R18, R29 to R31, R39),
and the cut-off (R23). -/
namespace Sys2Proof.Machine

/-! ### Time -/

/-- The next boundary's number. -/
def nextFrame (s : State) : Nat := match s.time.frame with | some n => n + 1 | none => s.time.firstFrame

/-- Up to 1 us of a time step is slewed in each frame (R39). -/
def slewStep (x : Int) : Int := if 0 < x then x - min x 1000 else x + min (-x) 1000

/-- Cell time has come to instant `n`. -/
def startFrame (n : Nat) (s : State) : State :=
  let s := { s with time := { s.time with slew := slewStep s.time.slew } }
  { s with time := { s.time with frame := some n, openFrame := max s.time.openFrame (n + 1), now := max s.time.now (instOf s n).toNat } }

/-- A velvet that starts at this boundary counts its frames from number `n` (spec/02 R63). -/
def velvetFrom (n : Nat) (s : State) : State := { s with slots := { s.slots with velvet := s.slots.velvet.map (fun _ => n) } }

/-- After a switch that changes Tf or FRAME_EPOCH the number is that of the new grid at this instant, for the velvet that starts here too
(R14; spec/02 R63; log 37). -/
def regrid (t : Int) (p e : Nat) (s : State) : State :=
  if tf s = p ∧ epoch s = e then s
  else if t < epoch s then velvetFrom 0 { s with time := { s.time with frame := none, firstFrame := 0, openFrame := 0, slew := 0 } }
  else
    let n := ((t - epoch s) / tf s).toNat
    velvetFrom n { s with time := { s.time with frame := some n, openFrame := n + 1, slew := 0 } }

/-! ### Before the steps -/

/-- Kinds without a named condition stop being ACTIVE; windows close (spec/16 R534, R538). -/
def collectorBoundary (s : State) : State :=
  let s := { s with flt := { s.flt with fs := Tbl.mapVals (constD {}) (fun _ f => { f with momentary := false }) s.flt.fs } }
  let s := doFor ((s.flt.fs.filter (fun e => e.2.window.isSome)).map (·.1)) closeWindow s
  doFor s.flt.flOpen sealTile { s with flt := { s.flt with flOpen := [] } }

/-- Frames are paced without synchronised cell time: kind 0x06 (R40). -/
def syncBoundary (s : State) : State := setCond qCLK 0x612 0x06 0 (!s.net.sync) 0 s

/-! ### Step 2 -/

/-- Step 2: transitions of R49 of spec/02 for every unit, then resets. -/
def stateStep (n : Nat) (s : State) : State :=
  let s := doFor (ownTines s) (fun u s => if hiddenUnit s u then s else autoTine n u s) s
  let s := doFor (((treeUnits s).map UnitEnt.id).filter isBeamId ++ [0xFFF]) autoBeam s
  resetsDue n (doFor infraUnits autoInfra s)

/-! ### Steps 4 to 6 -/

/-- Messages of boundary `n`, in order of arrival. -/
def dueMsgs (n : Nat) (s : State) : List HeldMsg := s.net.msgs.filter (fun m => decide (m.target ≤ n))

/-- The WRITE records of a message: results in record order, a UNIT_CMD's to follow. -/
def writeRecords (n : Nat) (h : HeldMsg) (s : State) : List Nat × State :=
  h.msg.records.foldl (fun (r : List Nat × State) rec =>
    if rec.op = 1 then (let q := writeRecord n rec.arg rec.value h.late r.2; (r.1 ++ [q.1], q.2)) else (r.1 ++ [0], r.2)) ([], s)

/-- Step 4: every due message keeps its results. -/
def writeStep (n : Nat) (ms : List HeldMsg) (s : State) : List HeldMsg × State :=
  ms.foldl (fun (r : List HeldMsg × State) h => let q := writeRecords n h r.2; (r.1 ++ [{ h with results := q.1 }], q.2)) ([], s)

/-- The device can be asked to apply a UNIT_CMD record to the unit. -/
def cmdTakes (s : State) (u : Nat) : Bool := !isInfra u && unitExists s u && (!herdSpan s u || s.rst.herdMgr)

/-- Commands of due pages, of the messages' records and of the herd's relay. -/
def dueCommands (n : Nat) (ms : List HeldMsg) (s : State) : List Direct :=
  let pages : List Direct := s.units.filterMap (fun e =>
    match e.2.page with
    | some p => if p.target ≤ n then some { unit := e.1, code := p.code, late := p.late, src := CmdSrc.page } else none
    | none => none)
  let recs : List Direct := ((List.range ms.length).zip ms).flatMap (fun m =>
    ((List.range m.2.msg.records.length).zip m.2.msg.records).filterMap (fun r =>
      if r.2.op = 2 ∧ cmdTakes s r.2.unit = true then some { unit := r.2.unit, code := r.2.arg, late := m.2.late, src := CmdSrc.msg m.1 r.1 } else none))
  pages ++ recs ++ dueRelays n s

/-- Command result code of a page's result (Tables 2-9, 13-4). -/
def msgCode (r : Nat) : Nat := match r with | 2 => 0 | 3 => 1 | 6 => 9 | _ => 0xA

/-- Results of the UNIT_CMD records of message `m`. -/
def cmdResults (m : Nat) (h : HeldMsg) (rs : List (Direct × Nat)) : List Nat :=
  ((List.range h.msg.records.length).zip (h.msg.records.zip h.results)).map (fun e =>
    if e.2.1.op = 2 then (match rs.find? (fun x => x.1.src == CmdSrc.msg m e.1) with | some x => msgCode x.2 | none => 9) else e.2.2)

/-- Kinds of records that no unit takes: 0x9C in a herd's worker, 0x15 of an infrastructure unit. -/
def refuseRecords (h : HeldMsg) (s : State) : State :=
  doFor (h.msg.records.filter (fun r => r.op == 2)) (fun r s =>
    if isInfra r.unit then raiseState r.unit r.arg s
    else if herdSpan s r.unit && !s.rst.herdMgr then raiseFault qHRD r.unit 0x9C (r.arg % 16) s
    else s) s

/-- Steps 5 and 6: commands, fan-out, results, beam states. -/
def commandStep (n : Nat) (ms : List HeldMsg) (s : State) : State :=
  let ds := dueCommands n ms s
  let s := doFor ms refuseRecords (dropRelays n s)
  let r := runCommands ds n s
  let rs := ds.zip r.2
  let s := doFor (rs.filter (fun x => x.1.src == CmdSrc.page)) (fun x s =>
    ledConsume 0 1 (modUnit x.1.unit (fun u => { u with page := none, result := x.2 }) s)) r.1
  let s := { s with net := { s.net with msgs := s.net.msgs.filter (fun m => decide (n < m.target)) } }
  let s := doFor ((List.range ms.length).zip ms) (fun m => finishMsg { m.2 with results := cmdResults m.1 m.2 rs } n) s
  formPartials (beamStates n s)

/-! ### After the steps -/

/-- The count of a port is latched (spec/01 R18; spec/10 R307). -/
def portLatch (n : Nat) (tn : Int) (p : Nat) (s : State) : State :=
  let x := ipOf s p
  let after := (x.trans.filter (fun e => decide (tn < (e.2 : Int)))).length
  ledConsume 4 (x.held - after) (modIp p (fun x => { x with latU := countAt x tn, latFrame := n % 65536, held := min x.held after }) s)

/-- Groups whose drive time counts. -/
def dutyGroups (s : State) : List Nat :=
  (List.range 64).filter (fun g => let x := xgOf s g; x.driving || x.driven != 0 || !x.dutyHist.isEmpty)

/-- What the blocks do at a boundary beside the steps. -/
def blockBoundary (n : Nat) (s : State) : State :=
  let tn := instOf s n
  let us := ownTines s
  let of (k base : Nat) : List Nat := (us.filter (fun u => kindOf u == k)).map (· - base)
  let s := doFor (of 1 0) coastBoundary s
  let s := doFor (of 2 0x200) (fun g => pgAssistMark g n) s
  let s := doFor (of 8 0x500) glBoundary s
  let s := doFor (List.range 32) (portLatch n tn) s
  let s := doFor (List.range 64) (switchLatch) s
  let s := doFor (dutyGroups s) (dutyFrame (2 * tn).toNat) s
  let s := doFor (of 7 0x4C0) (toneBoundary n) s
  { s with fm := { s.fm with scrubLeft := s.fm.scrubLeft - 1 } }

/-- The record states of this boundary, kept for 16 boundaries (spec/13 R446). -/
def keepStates (n : Nat) (s : State) : State :=
  let now := (s.units.filter (fun e => e.2.recSt != .dormant)).map (fun e => (e.1, e.2.recSt))
  { s with hist := ((n, now) :: s.hist).take 16 }

/-- Steps 2 to 6, and what the blocks do beside them, at boundary `m`; the block of the frame is opened. -/
def laterSteps (m : Nat) (s : State) : State :=
  let s := doFor (List.range 64) (fun k => switchPrep k (instOf s m)) s
  let s := stateStep m (twinStep m s)
  let s0 := s
  let f := s.inForce
  let sh := s.shadow
  let s := commitBoundary m s
  let w := writeStep m (dueMsgs m s) s
  let w := (w.1, latchXf s0 w.2)
  let s := if copiesSettings w.2 then sendSettings f sh w.2 else w.2
  let s := doFor ((ownTines s).filter (fun u => kindOf u == 2)) (fun u => pgBoundary (u - 0x200)) s
  openStage m (keepStates m (blockBoundary m (commandStep m w.1 s)))

/-- Steps 1 to 6 of boundary `n`. Where step 1 has put the epoch ahead, no frame instant has occurred and no other step follows (R15); a DETACH that the switch is (spec/14 R477)
applies. -/
def boundarySteps (n : Nat) (s : State) : State :=
  let t := instOf s n
  let p := tf s
  let e := epoch s
  let s := regrid t p e (slotStep n (twinEarly n (actBoundary n s)))
  if s.time.frame.isNone then (if s.twn.detachAt.isSome then detachStep n s else s) else laterSteps (frameN s) s

/-- FRAME_BOUNDARY at t_n. -/
def frameBoundary (s : State) : State :=
  let n := nextFrame s
  let s := slewGrid (sessionBoundary n (syncBoundary (collectorBoundary (herdBoundary (startFrame n s)))))
  keepView (twinFrame (boundarySteps n s))

/-- FRAME_BOUNDARY at t_n, with the pins that rest at another level after it. -/
def frameStep (s : State) : State := showPins trigRest s (frameBoundary s)

/-- FRAME_BOUNDARY. -/
def execFrameBoundary (s : State) : Host.Outcome State Fault Refusal := .next (if deviceUp s then frameStep s else s)

/-- In PAIRED the twin is told before the boundary of a switch or rollback, so that it becomes DEGRADED at the same one (spec/14 R477; DESIGN
CHOICE, log 108: at the cut-off; what makes one later is told at the boundary). -/
def twinForeseen (s : State) : State :=
  if s.twn.mode = 3 ∧ (rollbackActs s || switchActs (nextFrame s) s) = true then sendTwin (.detach (nextFrame s)) s else s

/-- The cut-off of the next frame passes: requests from here on take a later one (R23). -/
def cutoff (s : State) : State := twinForeseen { s with time := { s.time with openFrame := max s.time.openFrame (nextFrame s + 1) } }

/-- COMMAND_CUTOFF. -/
def execCommandCutoff (s : State) : Host.Outcome State Fault Refusal := .next (if deviceUp s then cutoff s else s)

end Sys2Proof.Machine
end

