-- ==== Sys2Proof/Machine/RegRead.lean ====
section
/-! DEFINITION. What every register of BAR0 reads as (spec/00 R3 to R5; spec/01 R21, R33 to R35; the register tables of every chapter).
A register of type RWS reads as its shadow, one of type RW as it was written, one of type WO as 0. -/
namespace Sys2Proof.Machine

/-- 32-bit half `k` of a 64-bit number. -/
def half (x k : Nat) : Nat := x / 2 ^ (32 * k) % 2 ^ 32

/-- 32-bit word `k` of a byte string; 0 beyond its end. -/
def wordAt (bs : List Byte) (k : Nat) : Nat := leAt bs (4 * k) 4

/-! ### CFG, RST, CLK, FLT, MON, SEC -/

/-- Frames of velvet left (spec/02 Table 2-15). -/
def velvetLeft (s : State) : Nat := match s.slots.velvet with | some n => min 65535 (n + velvetFrames s - frameN s) | none => 0

/-- CONFIG_VERSION of a stored image; 0 if none. -/
def versionOf (b : Option (List Byte)) : Nat := match b with | some b => hdr b 0x10 4 | none => 0

/-- SLOT_RESULT (spec/02 Table 2-19). -/
def slotResultReg (s : State) : Nat := s.slots.seq * 2 ^ 16 + flag s.slots.fresh 15 + flag (slotBusy s) 14 + s.slots.code

/-- SLOT_STATUS (spec/02 Table 2-17). -/
def slotStatus (s : State) : Nat :=
  s.slots.bootSource * 2 ^ 10 + flag (barred s s.slots.previous) 9 + flag s.slots.pend.isSome 8 + flag s.slots.velvet.isSome 3
    + flag s.slots.staged.isSome 2 + flag s.slots.previous.isSome 1 + flag s.conf.isSome 0

/-- CFG (spec/02 Table 2-15, spec/01 Tables 1-3 to 1-6). -/
def readCFG (s : State) (o : Nat) : Nat :=
  match o with
  | 0 => deviceId
  | 0x10 => slotStatus s
  | 0x14 => versionOf s.slots.active
  | 0x18 => versionOf s.slots.previous
  | 0x1C => versionOf s.slots.staged
  | 0x24 => velvetLeft s
  | 0x44 => slotResultReg s
  | 0x48 => s.slots.detail
  | 0x4C => half s.slots.switchFrame 0
  | 0x50 => half s.slots.switchFrame 1
  | 0x200 => half (frame64 s) 0
  | 0x204 => half (frame64 s) 1
  | 0x208 => tf s
  | 0x20C => half (epoch s) 0
  | 0x210 => half (epoch s) 1
  | 0x22C => s.commit.seq * 2 ^ 16 + s.commit.result * 16 + flag s.commit.snap.isSome 0
  | 0x230 => half s.commit.frame 0
  | 0x234 => half s.commit.frame 1
  | _ => 0

/-- RST (spec/18 Tables 18-8 to 18-10, 18-12). -/
def readRST (s : State) (o : Nat) : Nat :=
  let r := s.rst
  match o with
  | 0 => (heldSlices s).toNat * 2 ^ 24 + flag (!r.idle.isEmpty) 16 + r.idleUnit
  | 4 => flag r.phaseFail 31 + flag r.wait 30 + r.attempts * 2 ^ 24 + r.phase * 2 ^ 16 + r.bootMs
  | 8 => r.causeSrc * 2 ^ 24 + r.causeLevel * 2 ^ 20 + r.boots
  | 0xC => r.causeDetail
  | 0x10 => r.causeFrame
  | 0x14 => r.seen.toNat
  | 0x18 => r.pendingClock.toNat
  | 0x24 => (rwOf s (baseRST + 0x24)).toNat
  | 0x2C => wdtLeft s
  | 0x40 => half r.fuseIn.toNat 0
  | 0x44 => half r.fuseIn.toNat 1
  | 0x48 => flag r.twinRole 17 + flag r.herdMgr 16 + r.pinMapIn.toNat
  | _ => 0

/-- CLK_STATUS (spec/17 Table 17-10). -/
def clkStatus (s : State) : Nat :=
  let c := s.clk
  c.sliceLock.toNat * 2 ^ 24 + c.sliceOn.toNat * 2 ^ 16 + flag c.refHold 8 + flag c.refOk 7 + flag c.pcieLock 6 + flag (c.bbLock && c.twLock) 5
    + flag c.modAligned 4 + flag c.discOn 3 + flag c.ioLock 2 + flag c.modLock 1 + flag c.coreLock 0

/-- CLK (spec/17 Tables 17-8, 17-9). -/
def readCLK (s : State) (o : Nat) : Nat :=
  let c := s.clk
  match o with
  | 4 => c.seq * 2 ^ 16 + c.result * 2 ^ 12 + c.pendingLevel * 2 ^ 8 + flag c.pend.isSome 4 + flag c.waking 3 + c.level
  | 0x10 => half c.actFrame 0
  | 0x14 => half c.actFrame 1
  | 0x20 => clkStatus s
  | 0x24 => unsig 32 (satS 32 c.modErr)
  | 0x28 => unsig 32 (satS 32 c.modFreq)
  | 0x4C => c.wakeCause * 2 ^ 8 + c.wakeSwitch
  | 0x50 => c.rcTrim * 2 ^ 16 + flag c.rcTrimmed 1 + flag c.xtalFail 0
  | _ => 0

/-- FS[u] (spec/16 Table 16-13). -/
def fsWord (s : State) (u : Nat) : Nat :=
  let f := fsOf s u
  f.count * 2 ^ 24 + f.lastKind * 2 ^ 16 + f.maxClass * 2 ^ 14 + flag f.promoted 13 + flag f.alarmHeld 12 + flag (fsActive s u) 9 + flag f.latched 8

/-- ALARM_STATUS (spec/16 Table 16-12). -/
def alarmStatus (s : State) : Nat :=
  flag (s.flt.alarm && decide (s.time.now < s.flt.alarmHold)) 4 + flag s.flt.hbLost 3 + flag s.sec.alarmForced 2
    + flag (s.flt.fs.any (fun e => e.2.alarmHeld)) 1 + flag s.flt.alarm 0

/-- FLT (spec/16 Tables 16-10 to 16-13). -/
def readFLT (s : State) (o : Nat) : Nat :=
  let f := s.flt
  if 0x20000 ≤ o then
    let u := (o - 0x20000) / 16
    let p := policyOf s u
    match o % 16 with
    | 0 => (p.react &&& 0x1F1F1F1F)
    | 4 => p.w * 2 ^ 16 + p.n * 2 ^ 8
    | _ => p.escReact * 2 ^ 8 + ownerEngine s u * 16 + p.cls
  else if 0x10000 ≤ o then fsWord s ((o - 0x10000) / 4)
  else if 0x8000 ≤ o then
    match Tbl.get (constD none) f.ring ((o - 0x8000) / 32) with
    | some r => wordAt (faultEventBytes r) (o % 32 / 4)
    | none => 0
  else if 0x30 ≤ o ∧ o < 0x40 then Tbl.get (constD 0) f.classCount ((o - 0x30) / 4)
  else match o with
  | 4 => f.seq
  | 8 => f.drops
  | 0x10 => flag f.ffValid 31 + f.ffClass * 2 ^ 16 + flag f.ffPromoted 15 + f.ffSimult
  | 0x14 => half f.ffMsg.toNat 0
  | 0x18 => half f.ffMsg.toNat 1
  | 0x1C => half f.ffTime 0
  | 0x20 => half f.ffTime 1
  | 0x24 => f.ffSeq
  | 0x40 => alarmStatus s
  | 0x44 => f.alarmCount
  | 0x50 => f.flWraps * 2 ^ 16 + f.flHead
  | 0x54 => f.notStored * 2 ^ 16 + f.ringHead * 2 ^ 8 + f.ringHeld
  | _ => 0

/-- MON (spec/16 Table 16-15). -/
def readMON (s : State) (o : Nat) : Nat :=
  let m := s.mon
  if o < 0x60 then
    let t := tempOf s (o / 4)
    flag t.bad 31 + flag t.high 30 + flag t.warn 29 + flag t.low 28 + unsig 16 t.reading
  else if o = 0xE4 then (match tempMax s with | some (k, r) => k * 2 ^ 16 + unsig 16 r | none => 0)
  else if 0x100 ≤ o ∧ o < 0x180 then
    let r := railOf s ((o - 0x100) / 4)
    flag r.uv 31 + flag r.ov 30 + r.mv
  else if 0x200 ≤ o ∧ o < 0x280 then railNom ((o - 0x200) / 4)
  else if 0x280 ≤ o ∧ o < 0x2C0 then
    let r := Tbl.get (constD ({} : RoSt)) m.ro ((o - 0x280) / 4)
    unsig 16 r.dev * 2 ^ 16 + r.freq
  else if 0x300 ≤ o ∧ o < 0x320 then
    let a := Tbl.get (constD ({} : AgeSt)) m.age ((o - 0x300) / 4)
    a.test * 2 ^ 16 + a.nowPs
  else match o with
  | 0x400 => m.lifeOn
  | 0x404 => lifeEqReg m
  | 0x408 => min 65535 (lifeUsed m)
  | 0x40C => m.lifeHot
  | 0x410 => unsig 16 m.lifePeak
  | 0x414 => m.lifeSaved
  | _ => 0

/-- SEC (spec/15 Tables 15-11 to 15-13). -/
def readSEC (s : State) (o : Nat) : Nat :=
  let c := s.sec
  if 0x200 ≤ o then c.dbgChal.toNat / 2 ^ (32 * ((o - 0x200) / 4)) % 2 ^ 32
  else if 0x100 ≤ o then (ownerHash s ((o - 0x100) / 0x30)).toNat / 2 ^ (32 * ((o - 0x100) % 0x30 / 4)) % 2 ^ 32
  else if 0x80 ≤ o then (match Tbl.get (constD none) c.imgKeys ((o - 0x80) / 4) with | some k => k.id | none => 0)
  else if 0x40 ≤ o then
    let y := sessionOf s ((o - 0x40) / 4)
    y.epoch % 2 ^ 16 * 2 ^ 16 + flag (!y.due.isEmpty) 1 + flag y.isOpen 0
  else match o with
  | 0 => secStatus s
  | 4 => ownStatus s
  | 8 => half deviceUid 0
  | 0xC => half deviceUid 1
  | 0x10 => c.floor
  | 0x14 => c.floorPending.getD 0
  | 0x18 => (List.range 4).foldl (fun n k => n + flag (Tbl.get (constD none) c.imgKeys k).isSome k) 0
  | _ => 0

/-! ### XCG, RIN, AUX -/

/-- One bit for each of 32 indices from `b`. -/
def bits32 (b : Nat) (f : Nat → Bool) : Nat := (List.range 32).foldl (fun n k => n + flag (f (b + k)) k) 0

/-- XG_STATUS (spec/03 Table 3-10). -/
def xgStatus (s : State) (g : Nat) : Nat :=
  let x := xgOf s g
  (if burstMode s g then x.burstLen else 0) * 2 ^ 24
    + (if burstMode s g && bitAt (xgReg s g 8) 16 then x.govSel else 0xA) * 2 ^ 20 + flag x.driveGap 12 + flag x.loopLimit 11 + flag x.phFail 10 + flag x.iHigh 9 + flag x.iLow 8
    + flag x.vHigh 7 + flag x.vLow 6 + flag x.tripped 3 + flag x.driving 2 + flag x.owner 1 + flag (burstMode s g) 0

/-- XCG (spec/03 Table 3-6). -/
def readXCG (s : State) (o : Nat) : Nat :=
  if o < 0x4000 then
    let g := o / 0x100
    let x := xgOf s g
    match o % 0x100 with
    | 0x60 => xgStatus s g
    | 0x64 => x.i * 2 ^ 16 + x.v
    | 0x68 => x.measFrame * 2 ^ 16 + unsig 8 x.ph
    | 0x6C => x.applied
    | 0x70 => xgDuty s g
    | 0x74 => x.trips
    | _ => 0
  else match o with
  | 0x8000 => bits32 0 (fun g => (xgOf s g).owner)
  | 0x8004 => bits32 32 (fun g => (xgOf s g).owner)
  | 0x8008 => bits32 0 (fun g => (xgOf s g).driving)
  | 0x800C => bits32 32 (fun g => (xgOf s g).driving)
  | _ => 0

/-- TT_RESULT (spec/04 Table 4-11). -/
def toneResultReg (s : State) : Nat :=
  let b := s.toneBox
  b.seq * 2 ^ 16 + flag b.fresh 15 + flag b.busy 14 + b.code * 2 ^ 9 + b.chan

/-- RC_STATUS (spec/04 Table 4-10). -/
def rcStatus (s : State) (c : Nat) : Nat :=
  let x := rcOf s c
  let phase := match (toneOf s (c / 8)).run with | some r => r.cosPhase | none => false
  flag (calActive s c) 15 + flag (calActive s c && phase) 14 + flag x.ovrC 13 + flag x.ovrS 12 + flag x.envHigh 11 + flag x.envLow 10 + x.cond.toNat

/-- RIN (spec/04 Table 4-7). -/
def readRIN (s : State) (o : Nat) : Nat :=
  if o < 0x8000 then
    let c := o / 0x40
    let x := rcOf s c
    match o % 0x40 with
    | 0x20 => rcStatus s c
    | 0x24 => x.env
    | 0x28 => x.zs.toNat
    | 0x2C => x.zc.toNat
    | 0x30 => x.xt.toNat
    | 0x34 => x.detections * 2 ^ 16 + x.saturated
    | 0x38 => unsig 16 x.dcC * 2 ^ 16 + unsig 16 x.dcS
    | _ => 0
  else match o with
  | 0x8000 => flag s.biasSplit 0
  | 0x8014 => toneResultReg s
  | 0x8018 => s.toneBox.zs.toNat
  | 0x801C => s.toneBox.zc.toNat
  | 0x8020 => s.toneBox.xt.toNat
  | 0x8030 => half s.decim 0
  | 0x8034 => half s.decim 1
  | _ => 0

/-- AX_STATUS (spec/05 Table 5-10); SERVICE_OK of a channel that does not operate reads 0. -/
def axStatus (s : State) (a : Nat) : Nat :=
  let x := axOf s a
  x.range * 2 ^ 20 + auxMode s a * 2 ^ 16 + flag x.calFail 5 + flag x.leadHigh 4 + flag x.compliance 3 + flag x.ovl 2 + flag x.transient 1
    + flag (auxOn s a && serviceOk s a) 0

/-- AUX (spec/05 Table 5-8). -/
def readAUX (s : State) (o : Nat) : Nat :=
  if o < 0x2000 then
    let a := o / 0x40
    let x := axOf s a
    match o % 0x40 with
    | 0x20 => axStatus s a
    | 0x24 => x.codeRange * 2 ^ 16 + unsig 16 x.code
    | 0x28 => leadReg s a
    | 0x2C => imeas s a
    | 0x30 => x.steps * 2 ^ 16 + x.resyncs * 2 ^ 8 + x.compEvents
    | _ => 0
  else if o < 0x2200 ∧ o % 0x40 = 4 then (axsOf s ((o - 0x2000) / 0x40)).cycle else 0

/-! ### SE, TRK, JNT -/

/-- SE_STATUS (spec/06 Table 6-13). -/
def seStatus (s : State) (e : Nat) : Nat :=
  let x := seOf s e
  flag (!x.traps.isEmpty) 7 + flag (engineRuns s e) 6 + flag (bankLocked x) 5 + flag x.held.isSome 4 + flag x.swap.isSome 3 + flag x.busyLast 2
    + flag (newestBank x) 1 + flag x.cur 0

/-- Sample boundaries left on the slowest stream (spec/06 Table 6-11). -/
def xfLeft (x : SeSt) : Nat := match x.swap with | some r => r.ks.foldl (fun m k => max m (r.xfLen - k)) 0 | none => 0

/-- Completion latency of lane group `q` (spec/06 R161, R163). -/
def seDone (s : State) (e q : Nat) : Nat := if q = 16 then 4136 else 2600 + 2 * lanesLen s e (q + 1)

/-- A unit of the tree that operates. -/
def listedOn (s : State) (u : Nat) : Bool := unitExists s u && stOf s u != .dormant

/-- The chain of unit `u` runs on engine `e`: the unit is listed and in a running state, and the engine runs. -/
def chainRuns (s : State) (e u : Nat) : Bool := unitExists s u && running s u && engineRuns s e

/-- SETTLE_LEFT of stream `x` (spec/07 Table 7-8). -/
def settleLeft (s : State) (e x : Nat) : Nat :=
  if x < 64 then
    let c := 64 * e + x
    let need := descWord (seOf s e) (x / 4) (0x40 + 4 * x + 3) % 4096
    if !chainRuns s e c then 0xFFFF
    else if (tkOf s c).settled then 0
    else match (tkOf s c).settle with | some k => need - k | none => need
  else
    let k := x - 64
    let a := 16 * e + k
    if !chainRuns s e (0x400 + a) then 0xFFFF
    else match (axOf s a).settle with | some n => auxSettle s e k - n | none => auxSettle s e k

/-- A host read of a bank word and of a DMEM word (spec/06 R173). What a DMEM word with an uncorrectable error holds as stored is not
stated: a free value (log 15). -/
def bankRead (x : SeSt) (b : Bool) (k : Nat) : Nat :=
  if wordBad x (bankMem b) k then 0x80000000 else (Tbl.get (constD 0) (if b then x.bankB else x.bankA) k).toNat
def dmemRead (x : SeSt) (k : Nat) : Nat :=
  let w : Word := Tbl.get (constD 0) x.dmem k
  if wordBad x .data k then (Config.seOption 19 k w.toInt 0).toNat % 2 ^ 32 else w.toNat

/-- SE (spec/06 Table 6-11, spec/07 Table 7-8). CH_RDELAY is to the nearest ns as every DELAY is (spec/07 R213; DEDUCED, log 95). -/
def readSE (s : State) (o0 : Nat) : Nat :=
  let e := o0 / 0x20000
  let o := o0 % 0x20000
  let x := seOf s e
  if o < 0x10000 then dmemRead x (o / 4)
  else if o < 0x14000 then bankRead x false ((o - 0x10000) / 4)
  else if o < 0x18000 then bankRead x true ((o - 0x14000) / 4)
  else if 0x18040 ≤ o ∧ o ≤ 0x18080 then seDone s e ((o - 0x18040) / 4)
  else if 0x18100 ≤ o ∧ o < 0x18200 then
    let m := (o - 0x18100) / 4
    if listedOn s (64 * e + m) then satU 32 (roundAway (resDelay s e (m / 4) (m % 4))) else 0
  else if 0x18200 ≤ o ∧ o < 0x18240 then
    let a := 16 * e + (o - 0x18200) / 4
    if listedOn s (0x400 + a) then auxDelay s a else 0
  else if 0x18300 ≤ o ∧ o < 0x18440 then settleLeft s e ((o - 0x18300) / 4)
  else match o with
  | 0x18004 => seStatus s e
  | 0x18008 => xfLeft x
  | 0x1800C => x.swapStart
  | 0x18010 => x.swapDone
  | 0x18014 => x.overruns * 2 ^ 16 + x.excs * 2 ^ 8 + x.refusals
  | 0x18018 => x.ecc * 2 ^ 16
  | 0x1801C => x.lastExc.toNat
  | 0x18020 => x.trapsRun * 2 ^ 16 + x.trapsDropped
  | 0x18440 => if x.prog.isEmpty then 0 else Config.chainCap x.prog &&& 0xFFC7FFFF
  | _ => 0

/-- TK_STATUS (spec/08 Table 8-11): every field is that of the most recent record. -/
def tkStatus (s : State) (c : Nat) : Nat :=
  let t := tkOf s c
  let r := t.record
  let recd := s.conf.isSome && unitExists s c && s.time.frame.isSome
  let w := t.shown
  flag w.angleAbs 21 + flag w.assistOn 20 + flag w.learning 19 + flag w.cand 18 + flag w.verified 17 + flag w.mapZero 16
    + w.coastFrames * 2 ^ 8 + flag r.overspeed 7 + flag w.contradict 6 + flag w.locked 5 + flag (recd && r.boundSat) 4 + flag r.coast 3
    + flag r.sigFault 2 + flag r.fine 1 + flag r.coarseOk 0

/-- TRK (spec/08 Table 8-9). -/
def readTRK (s : State) (o : Nat) : Nat :=
  let c := o / 0x40
  let t := tkOf s c
  let g := noiseG s c
  match o % 0x40 with
  | 0x20 => tkStatus s c
  | 0x24 => satU 16 (lsb (t.sigmaUse * 2 ^ 28)) * 2 ^ 16 + satU 16 (lsb (t.lastErr * 2 ^ 20))
  | 0x28 => satU 16 (lsb (g.1 * 2 ^ 14)) * 2 ^ 16 + satU 16 (lsb (g.2.1 * 2 ^ 14))
  | 0x2C => satU 32 (lsb (g.2.2 * 2 ^ 30))
  | 0x30 => t.esig
  | 0x34 => t.mapResult * 2 ^ 28 + t.mapFrame % 2 ^ 16
  | 0x38 => t.segments * 2 ^ 16 + t.learnResult * 2 ^ 8 + (match t.learn with | some g => min 255 g.travel.floor.toNat | none => 0)
  | _ => 0

/-- JNT (spec/09 Tables 9-2, 9-5). -/
def readJNT (s : State) (o : Nat) : Nat :=
  if o < 0x8000 then
    let x := rhOf s (o / 0x40)
    match o % 0x40 with
    | 0x20 => flag x.sat 1 + flag x.valid 0
    | 0x24 => (stopShown s (o / 0x40)).1
    | 0x28 => (stopShown s (o / 0x40)).2.1
    | 0x2C => (stopShown s (o / 0x40)).2.2.1
    | 0x30 => (stopShown s (o / 0x40)).2.2.2
    | _ => 0
  else
    let l := (o - 0x8000) / 0x40
    let x := glOf s l
    match o % 0x40 with
    | 0x28 => x.count * 2 ^ 24 + x.code * 2 ^ 20 + flag x.xrun 3 + flag x.slip 2 + flag x.wind 1 + flag x.valid 0
    | 0x2C => unsig 32 x.disc
    | 0x30 => min (2 ^ 32 - 1) x.dbound
    | 0x34 => min (2 ^ 32 - 1) x.u
    | 0x38 => unsig 32 x.k
    | 0x3C => x.xcal * 2 ^ 16 + min 255 (xcalFull s l)
    | _ => 0

/-! ### INC, MOT -/

/-- CMP_STATUS, CMP_TIME, CMP_COUNT of compare `k` (spec/10 Table 10-7). -/
def readCMP (s : State) (k r : Nat) : Nat :=
  let x := cmpOf s k
  match r with
  | 0x10 => flag x.late 4 + flag x.fired 3 + flag x.behind 2 + flag x.armed 1 + flag x.firing.isSome 0
  | 0x14 => half x.time 0
  | 0x18 => half x.time 1
  | 0x1C => x.count % 2 ^ 32
  | _ => 0

/-- INC (spec/10 Table 10-7). -/
def readINC (s : State) (o : Nat) : Nat :=
  if o < 0x800 then
    let p := o / 0x40
    let x := ipOf s p
    let cap : Int := match x.cap with | some c => c.1 | none => 0
    match o % 0x40 with
    | 0x10 => ipCount s p x.latU
    | 0x14 => x.latFrame % 2 ^ 16 * 2 ^ 16 + unsig 16 (ipTurns s p x.latU)
    | 0x18 => ipCount s p cap
    | 0x1C => unsig 16 (ipTurns s p cap) * 2 ^ 16 + x.capFrame % 2 ^ 16
    | 0x20 => unsig 32 (satS 32 x.delta)
    | 0x24 => flag x.idxMiss 6 + flag x.idxFail 5 + flag x.cap.isSome 4 + flag x.dir 3 + flag x.a 2 + flag x.b 1 + flag x.z 0
    | 0x28 => x.qeTotal * 2 ^ 16 + x.now.qeExtra
    | _ => 0
  else if 0x4000 ≤ o ∧ o < 0xC000 then readCMP s ((o - 0x4000) / 0x20) (o % 0x20)
  else if 0xC000 ≤ o ∧ o < 0xC800 then readCMP s (1024 + (o - 0xC000) / 0x20) (o % 0x20)
  else if 0xE000 ≤ o ∧ o < 0xE400 then
    let e := (o - 0xE000) / 0x40
    let x := emOf s e
    let q := emLen x
    match o % 0x40 with
    | 0xC => min 65535 q + flag (match x.queue with | r :: _ => r.1 | [] => false) 16
    | 0x10 => half (unsig 64 x.emitted) 0
    | 0x14 => half (unsig 64 x.emitted) 1
    | 0x18 => flag x.full 2 + flag x.invalid 1 + flag (decide (q ≠ 0)) 0
    | 0x1C => x.spacing
    | _ => 0
  else if 0xE800 ≤ o ∧ o < 0xEA00 then
    let x := tgOf s ((o - 0xE800) / 0x20)
    match o % 0x20 with
    | 8 => x.pulses * 2 ^ 16 + x.suppressed * 2 ^ 8 + flag x.asserted 1 + flag (!x.starts.isEmpty) 0
    | 0xC => half x.last 0
    | 0x10 => half x.last 1
    | _ => 0
  else match o with
  | 0xD100 => bits32 0 (fun k => (swOf s k).latched)
  | 0xD104 => bits32 32 (fun k => (swOf s k).latched)
  | 0xD108 => bits32 0 (fun k => (swOf s k).raw)
  | 0xD10C => bits32 32 (fun k => (swOf s k).raw)
  | 0xD110 => bits32 0 (fun k => (swOf s k).chat)
  | 0xD114 => bits32 32 (fun k => (swOf s k).chat)
  | _ => 0

/-- MOT (spec/11 Tables 11-7, 11-9). -/
def readMOT (s : State) (o : Nat) : Nat :=
  let g := o / 0x100
  let x := pgOf s g
  let pos := unsig 64 (pos48 x.spPos)
  let sh := unsig 64 (pos48 x.shift)
  match o % 0x100 with
  | 0xA0 => x.status.toNat
  | 0xA4 => half pos 0
  | 0xA8 => half pos 1
  | 0xAC => unsig 32 x.spVel
  | 0xB0 => unsig 32 x.spAcc
  | 0xB4 => x.addr * 2 ^ 16 + x.scale
  | 0xB8 => pgLeft s g
  | 0xBC => x.rem % 2 ^ 32
  | 0xC0 => half sh 0
  | 0xC4 => half sh 1
  | 0xC8 => x.rcFrame % 2 ^ 16 * 2 ^ 16 + flag x.blend.isSome 1 + flag x.armed 0
  | 0xCC => x.guardTrips * 2 ^ 16 + x.replans
  | _ => 0

/-! ### FMEM, NET, HST, TWN, HRD -/

/-- FM_STATUS (spec/12 Table 12-18). -/
def fmStatus (s : State) : Nat :=
  (match s.conf with | some i => i.sets.stageSlots * 2 ^ 24 + slotTiles i * 2 ^ 16 | none => 0) + s.fm.lastSlot * 2 ^ 8
    + flag (regionOf s 5).isSome 2 + flag (regionOf s 2).isSome 1 + flag s.conf.isSome 0

/-- A ledger register of kind `k` (spec/12 R415). -/
def readLedger (s : State) (k r : Nat) : Nat :=
  let l := ledOf s k
  match r with
  | 0 => l.snapP % 2 ^ 32
  | 4 => l.snapC % 2 ^ 32
  | 8 => l.snapD % 2 ^ 32
  | 0xC => l.held % 2 ^ 32
  | 0x10 => l.frameD % 2 ^ 32
  | 0x14 => l.shownDrop
  | 0x18 => l.shownUnit
  | _ => s.fm.ledgerFrame

/-- FMEM (spec/12 Table 12-16). -/
def readFMEM (s : State) (o : Nat) : Nat :=
  let f := s.fm
  if 0x20000 ≤ o then (tileOf s ((o - 0x20000) / 4)).crc.toNat
  else if 0x10000 ≤ o then (List.range 16).foldl (fun n k => n + (tileOf s ((o - 0x10000) * 4 + k)).st * 4 ^ k) 0
  else if 0x100 ≤ o then readLedger s ((o - 0x100) / 0x20) (o % 0x20)
  else if 0x20 ≤ o ∧ o < 0x58 then
    (match regionOf s ((o - 0x18) / 8) with | some r => if o % 8 = 0 then r.first else r.tiles | none => 0)
  else match o with
  | 4 => fmStatus s
  | 8 => (match s.conf with | some i => blockMax i | none => 0)
  | 0xC => f.lastLen
  | 0x10 => half f.lastFrame 0
  | 0x14 => half f.lastFrame 1
  | 0x60 => f.bbHead
  | 0x64 => bbEntries s
  | 0x68 => f.bbAged
  | 0x70 => f.tileFails * 2 ^ 16 + f.lastBad
  | 0x74 => (scrubNext s).getD f.scrubPos
  | 0x78 => f.dropsBb * 2 ^ 24 + f.dropsDma * 2 ^ 16 + f.dropsTwin * 2 ^ 8 + f.dropsForced
  | _ => 0

/-- NET (spec/13 Table 13-7). -/
def readNET (s : State) (o : Nat) : Nat :=
  let n := s.net
  if 0x1000 ≤ o then wordAt (sectionBytes s 9) ((o - 0x1000) / 4)
  else if 0x400 ≤ o then
    let k := (o - 0x400) / 0x20
    if o % 0x20 = 4 then (streamOf s k).accepted * 2 ^ 16 + csFree s k else (streamOf s k).seq
  else if 0x100 ≤ o then
    let p := bbPortOf s ((o - 0x100) / 0x40)
    match o % 0x40 with
    | 0 => flag p.asCapable 8 + p.ptpState * 16 + flag p.fec 1 + flag p.up 0
    | 4 => p.pdelay
    | 8 => p.rx
    | 0xC => p.tx
    | _ => p.discards * 2 ^ 16 + p.fcs
  else match o with
  | 0 => n.gmSteps * 2 ^ 16 + flag n.gm 2 + flag n.sync 1 + flag n.ptpOn 0
  | 4 => half s.time.now 0
  | 8 => half s.time.now 1
  | 0xC => unsig 32 (satS 32 n.offset)
  | 0x10 => half n.gmId.toNat 0
  | 0x14 => half n.gmId.toNat 1
  | 0x24 => (rwOf s (baseNET + 0x24)).toNat
  | 0x50 => n.egFrame * 2 ^ 16 + n.egMisses
  | _ => 0

/-- SVC_RESULT (spec/13 Table 13-11). -/
def svcResultReg (s : State) : Nat := s.hst.svcSeq * 2 ^ 16 + flag s.hst.svcFresh 15 + flag s.hst.svc.isSome 14 + s.hst.svcCode

/-- HST (spec/13 Tables 13-9 to 13-11). -/
def readHST (s : State) (o : Nat) : Nat :=
  let h := s.hst
  if 0x1100 ≤ o ∧ o < 0x2100 then wordAt h.svcData ((o - 0x1100) / 4)
  else if 0x100 ≤ o ∧ o < 0x300 then
    let e := (o - 0x100) / 0x40
    match o % 0x40 with
    | 0 => (dmReg s e 0).toNat + flag (dmaOf s e).halted 15
    | 0x20 => (dmaOf s e).p % 2 ^ 16
    | 0x24 => (dmaOf s e).completed * 2 ^ 16 + (dmaOf s e).dropped
    | _ => 0
  else match o with
  | 0 => h.width * 2 ^ 16 + h.rate
  | 4 => flag h.bme 2 + flag h.msixEn 1 + flag h.fmask 0
  | 0x30 => h.i3c.chal.toNat
  | 0x1024 => svcResultReg s
  | 0x9000 => half h.msixPend.toNat 0
  | 0x9004 => half h.msixPend.toNat 1
  | _ => 0

/-- TWN_STATUS (spec/14 Table 14-9). -/
def twnStatus (s : State) : Nat :=
  let t := s.twn
  t.lanes.toNat * 2 ^ 24 + flag s.rst.twinRole 23 + flag t.linkUp 22 + flag t.linkLost 21 + flag (allOrphaned s) 20 + flag t.setDiff 19
    + flag (hashOk s) 18 + flag (safetySingle s) 17 + flag t.joiner 16 + t.mode

/-- TWN (spec/14 Table 14-7). -/
def readTWN (s : State) (o : Nat) : Nat :=
  let t := s.twn
  match o with
  | 4 => twnStatus s
  | 8 => half t.peerUid.toNat 0
  | 0xC => half t.peerUid.toNat 1
  | 0x18 => unsig 16 (satS 16 t.skew)
  | 0x1C => t.disagreements * 2 ^ 16 + t.missing
  | 0x20 => half t.modeFrame 0
  | 0x24 => half t.modeFrame 1
  | 0x28 => t.setCrc.toNat
  | 0x2C => t.peerCrc.toNat
  | 0x30 => half t.mapIn.toNat 0
  | 0x34 => half t.mapIn.toNat 1
  | _ => 0

/-- HRD (spec/14 Tables 14-10, 14-11). -/
def readHRD (s : State) (o : Nat) : Nat :=
  let h := s.hrd
  if 0x100 ≤ o then half (h.uids.getD ((o - 0x100) / 8) 0).toNat (o % 8 / 4)
  else match o with
  | 0 => ownPos s * 2 ^ 16 + flag s.rst.herdMgr 15 + flag h.position.isSome 14 + flag h.upOk 13 + flag h.downOk 12 + flag h.line 11
      + flag h.tokenOk 10 + flag h.beamOk 9
  | 4 => h.tour * 2 ^ 8 + h.devices
  | 8 => h.tokenFrame % 2 ^ 16 * 2 ^ 16 + h.tokensLost
  | 0xC => h.tourNs
  | _ => 0

/-! ### Unit state pages (spec/02 R55, spec/16 R558) -/

/-- The state a page shows: of a spanning beam the herd-wide one with its frame (spec/14 R483), of a unit that a joining twin prepares
internally the record's (spec/14 R464). Before the first boundary FRAME holds its reset value (Table 2-7). -/
def pageState (s : State) (u : Nat) : Nat × Nat :=
  match s.hrd.shown.find? (fun e => e.1 == u) with
  | some e => (e.2.1.code, e.2.2)
  | none => ((if hiddenUnit s u then (unitOf s u).recSt else stOf s u).code, s.time.frame.getD 0)

/-- UNIT_INFO (Table 2-6, R46). -/
def unitInfo (s : State) (u : Nat) : Nat :=
  if isInfra u then 0xB * 2 ^ 24 + ownPos s * 2 ^ 20 + 0xFFF
  else match entOf s u with
    | some e => e.kind * 2 ^ 24 + e.device * 2 ^ 20 + flag e.safety 17 + flag e.isolated 16 + e.parent
    | none => kindOf u * 2 ^ 24 + (if isTineId u && s.conf.isNone then ownPos s * 2 ^ 20 else 0) + 0xFFF

/-- ESC_STATUS (spec/16 Table 16-14). -/
def escStatus (s : State) (u : Nat) : Nat :=
  let x := (unitOf s u).esc
  x.left % 2 ^ 16 * 2 ^ 16 + flag x.expired 3 + flag x.ackAt.isSome 2 + flag x.acked 1 + flag x.running 0

/-- A unit's page at offset `r`. -/
def readPage (s : State) (u r : Nat) : Nat :=
  let x := unitOf s u
  match r with
  | 0 => unitInfo s u
  | 4 => (pageState s u).2 % 2 ^ 16 * 2 ^ 16 + flag (herdSpan s u) 7 + (pageState s u).1
  | 0xC => x.seq * 2 ^ 16 + x.result * 16 + flag x.page.isSome 0
  | 0x10 => (rwOf s (baseUNIT + 0x100 * u + 0x10)).toNat
  | 0x14 => (rwOf s (baseUNIT + 0x100 * u + 0x14)).toNat
  | 0x18 => half x.cmdFrame 0
  | 0x1C => half x.cmdFrame 1
  | 0x20 => x.lastCode * 2 ^ 28 + x.lastOrigin * 2 ^ 16 + x.lastFrame
  | 0x24 => if isBeamId u then x.fanApplied * 2 ^ 16 + x.fanIgnored else 0
  | 0x28 => x.prepLeft.getD 0xFFFF
  | 0x40 => if isBeamId u then escStatus s u else 0
  | 0x48 => half x.esc.start 0
  | 0x4C => half x.esc.start 1
  | 0x50 => x.esc.count
  | 0x54 => fsWord s u
  | 0x58 => half (fsOf s u).lastMsg.toNat 0
  | 0x5C => half (fsOf s u).lastMsg.toNat 1
  | _ => 0

/-! ### The whole map -/

/-- The value of a register that is neither RWS nor RW. -/
def roRead (s : State) (off : Nat) : Nat :=
  let o := off % 0x100000
  if baseUNIT ≤ off then readPage s ((off - baseUNIT) / 0x100) (off % 0x100)
  else match off / 0x100000 with
  | 0x80 => readCFG s o | 0x81 => readRST s o | 0x82 => readCLK s o | 0x83 => readFLT s o | 0x84 => readMON s o | 0x85 => readSEC s o
  | 0x86 => readXCG s o | 0x87 => readRIN s o | 0x88 => readAUX s o | 0x89 => readSE s o | 0x8A => readTRK s o | 0x8B => readJNT s o
  | 0x8C => readINC s o | 0x8D => readMOT s o | 0x8E => readFMEM s o | 0x8F => readNET s o | 0x90 => readHST s o | 0x91 => readTWN s o
  | 0x92 => readHRD s o | _ => 0

/-- The register at `off`; none: undefined (R35). The page of an id that does not exist is undefined (spec/02 R55). -/
def regAt (s : State) (off : Nat) : Option RegInfo :=
  if baseUNIT ≤ off ∧ unitExists s ((off - baseUNIT) / 0x100) = false then none else regInfo off

/-- What the naturally aligned register at `off` reads as; an undefined offset reads 0. -/
def regRead (s : State) (off : Nat) : Word :=
  match regAt s off with
  | none => 0
  | some i => match i.acc with
    | .rws => shadowOf s off
    | .rw => rwOf s off
    | _ => wordN (roRead s off)

/-- One byte of BAR0 as the host reads it: of frame memory, an unused tile reading 0 (spec/12 R388, R389), or of a register. -/
def barByte (s : State) (a : Nat) : Byte :=
  if a < 0x4000000 then (if tileType s (a / 0x1000) = 0 then 0 else memByte s a)
  else BitVec.ofNat 8 ((regRead s (a / 4 * 4)).toNat / 256 ^ (a % 4))

end Sys2Proof.Machine
end

