-- ==== Sys2Proof/Machine/RegWrite.lean ====
section
/-! DEFINITION. What a host access to BAR0 does (spec/00 R3 to R5; spec/01 R21, R34, R35, R38; spec/02 R46, R50; spec/12 R391; spec/13
R438, R443, R444, R446; spec/15 R521; spec/18 R611). -/
namespace Sys2Proof.Machine

/-- A fault of the host interface with an offset as its detail. -/
def hostFault (kind off : Nat) : State → State := raiseFault qHST 0x618 kind off

/-- A write of a register of type RWS: its shadow, and a shadow write that a COMMIT takes (R21, R22, R38). A device that a peer joins copies the
change (spec/14 R464). -/
def writeShadow (off : Nat) (v : Word) (s : State) : State :=
  let s := setShadow off v { s with written := Tbl.set (constD false) s.written off true }
  if copiesSettings s then sendTwin (.setting off (inF s off) v) s else s

/-- The ring registers of DMA engines (spec/13 R438): their engine. -/
def ringReg (off : Nat) : Option Nat :=
  let o := off - baseHST
  if baseHST + 0x100 ≤ off ∧ off < baseHST + 0x300 ∧ o % 0x40 ∈ [4, 8, 0xC, 0x10, 0x14, 0x18] then some ((o - 0x100) / 0x40) else none

/-- A write of a register of type RW: ring registers of an enabled engine are refused with kind 0x8A. -/
def writeRw (off : Nat) (v : Word) (s : State) : State :=
  match ringReg off with
  | some e => if dmEn s e then hostFault 0x8A off s else setRw off v s
  | none => setRw off v s

/-- RST_REQ by DEST; what the twin or herd would answer is not in the write: the request is taken as reachable and enabled (log 38). -/
def resetRequest (v : Word) (s : State) : State :=
  match fld v 20 2 with
  | 1 => reqTwin v true s
  | 2 => reqHerd v true true s
  | _ => reqLocal v s

/-- SVC_REQ: a request by its CODE; any other code completes at once with BAD_CODE (spec/13 R444). -/
def svcRequestWrite (v : Word) (s : State) : State :=
  if !bitAt v 0 then s
  else match fld v 16 8 with
    | 0x01 => svcCertGet s | 0x02 => svcAttest s | 0x03 => svcOwnBurn s | 0x04 => svcSlotRevoke s | 0x05 => svcImgkeyLoad s
    | 0x06 => svcImgkeyErase s | 0x07 => svcFloorRaise s | 0x08 => svcSessionOpen s | 0x09 => svcSessionClose s
    | 0x40 => svcAttach s | 0x41 => svcDetach s | 0x42 => svcOwnSet s | 0x48 => svcHerdEnum s
    | code => svcIfFree code (svcPublish 2 []) s

/-- The record state of unit `u` at the newest kept boundary whose frame bits are `bits` (R446). -/
def recordState (s : State) (u bits : Nat) : Option UState :=
  match s.hist.find? (fun e => e.1 % 65536 == bits) with
  | none => none
  | some e => match e.2.find? (fun x => x.1 == u) with
    | some x => some x.2
    | none => some (unitDef u).recSt

/-- DIVERGE_REPORT (R446). -/
def divergeReport (v : Word) (s : State) : State :=
  let u := fld v 16 12
  match recordState s u (fld v 0 16) with
  | none => hostFault 0x8A (baseHST + 0x3000) s
  | some st => if st.code = fld v 28 4 then s else raiseFault qHST u 0x8B (2 ^ 31 + fld v 28 4) s

/-- DIVERGE_REPORT. -/
def execDivergeReport (v : Word) (s : State) : Host.Outcome State Fault Refusal := .next (if deviceUp s then divergeReport v s else s)

/-- A write of a register that has its own rule. -/
def writeAct (off : Nat) (v : Word) (s : State) : State :=
  let o := off % 0x100000
  if baseUNIT ≤ off then
    let u := (off - baseUNIT) / 0x100
    if off % 0x100 = 8 then pageCommand u (fld v 0 4) (bitAt v 8) s else ackEscalation u v s
  else match off / 0x100000 with
    | 0x80 => if o = 0x30 then slotCmd v s else commitWrite v s
    | 0x81 => if o = 0x14 then seenClear v s else if o = 0x20 then resetRequest v s else if o = 0x24 then wdtCtrl v s else wdtKick v s
    | 0x82 => if bitAt v 31 then actRequest (fld v 0 2) (bitAt v 8) s else s
    | 0x83 =>
      if o = 0x10 then (if bitAt v 31 then clearFirstFault s else s)
      else if o = 0x40 then (if bitAt v 3 then clearHbLost s else s)
      else if bitAt v 8 then clearLatched ((o - 0x10000) / 4) s else s
    | 0x87 => toneRequest v s.time.now s
    | 0x89 => bankWrite (o / 0x20000) (decide (0x14000 ≤ o % 0x20000)) ((o % 0x20000 - 0x10000) / 4 % 4096) v s
    | 0x8F => ctInit v s
    | 0x90 => if o = 0x1000 then svcRequestWrite v s else if o = 0x3000 then divergeReport v s else dmaCtrl ((o - 0x100) / 0x40) v s
    | _ => s

/-- A full write of the naturally aligned word at `off` of a register block. SEC takes none (spec/15 R521). -/
def regWrite (off : Nat) (v : Word) (s : State) : State :=
  match regAt s off with
  | none => hostFault 0x81 off s
  | some i =>
    if off / 0x100000 = 0x85 then hostFault 0x81 off s
    else match i.acc with
      | .rws => writeShadow off (v &&& wordN i.mask) s
      | .rw => writeRw off (v &&& wordN i.mask) s
      | .ro => s
      | .act => writeAct off v s

/-- The enabled bytes of a word go to frame memory. -/
def windowBytes (a : Nat) (v : Word) (be : BitVec 4) (s : State) : State :=
  doFor (List.range 4) (fun k s => if be.getLsbD k then setByte (a + k) (BitVec.ofNat 8 (v.toNat / 256 ^ k)) s else s) s

/-- One aligned word of a host write (R34, R35; spec/12 R389, R391). -/
def wordWrite (a : Nat) (v : Word) (be : BitVec 4) (s : State) : State :=
  if be = 0 then s
  else if a < 0x4000000 then
    match tileType s (a / 0x1000) with
    | 0 => hostFault 0x81 a s
    | 7 => windowBytes a v be s
    | _ => raiseFault qFMEM 0x616 0x71 a s
  else if be = 0xF then regWrite a v s
  else if (regAt s a).isSome && a / 0x100000 != 0x85 then hostFault 0x82 a s
  else hostFault 0x81 a s

/-- A 32-bit host write at any address with byte enables: the device splits it into the words it touches, lower address first (R34). -/
def hostWrite (off : Nat) (v : Word) (be : BitVec 4) (s : State) : State :=
  let k := off % 4
  let a := off - k
  let x := v.toNat * 256 ^ k
  let b := be.toNat * 2 ^ k
  wordWrite (a + 4) (wordN (x / 2 ^ 32)) (BitVec.ofNat 4 (b / 16)) (wordWrite a (wordN x) (BitVec.ofNat 4 b) s)

/-- A host write before P7: only RST_SEEN takes it, from P4 on (spec/18 R611). -/
def earlyWrite (off : Nat) (v : Word) (be : BitVec 4) (s : State) : State :=
  if hubUp s && off == baseRST + 0x14 && be == 0xF then seenClear v s else s

/-- REGISTER_WRITE. -/
def execRegisterWrite (off : Nat) (v : Word) (be : BitVec 4) (s : State) : Host.Outcome State Fault Refusal :=
  .next (if deviceUp s then hostWrite off v be s else earlyWrite off v be s)

/-! ### Reads (R4, R35, R443) -/

/-- A byte as a BAR0 read returns it: from P4 until P7 only CFG and RST return their contents (spec/18 R611). -/
def hostByte (s : State) (a : Nat) : Byte :=
  if deviceUp s then barByte s a else if a / 0x100000 = 0x80 ∨ a / 0x100000 = 0x81 then barByte s a else 0

/-- The bytes of a read. -/
def hostBytes (s : State) (a n : Nat) : List Byte := (List.range n).map (fun k => hostByte s (a + k))

/-- NEW of the mailbox at `a` clears with the first read of its result (R443). -/
def clearNew (s : State) (a : Nat) : State :=
  if a = baseCFG + 0x44 then { s with slots := { s.slots with fresh := false } }
  else if !deviceUp s then s
  else if a = baseRIN + 0x8014 then { s with toneBox := { s.toneBox with fresh := false } }
  else if a = baseHST + 0x1024 then { s with hst := { s.hst with svcFresh := false } }
  else s

/-- The registers that a read of `len` bytes at `off` touches, lower address first (R34). -/
def touched (off len : Nat) : List Nat := (List.range ((off + len + 3) / 4 - off / 4)).map (fun k => (off / 4 + k) * 4)

/-- A host read of `len` bytes at `off`: its bytes, and NEW of each mailbox that it touches (R34, R443). -/
def hostRead (off len : Nat) (s : State) : State :=
  emit (.readData (hostBytes s off len)) (doFor (touched off len) (fun a s => clearNew s a) s)

/-- MAILBOX_READ: a read of BAR0, of whole registers or with some bytes enabled. -/
def execMailboxRead (r : BarRead) (s : State) : Host.Outcome State Fault Refusal := .next (if hubUp s then hostRead r.off r.len s else s)

end Sys2Proof.Machine
end

