-- ==== Sys2Proof/Machine/I3c.lean ====
section
/-! DEFINITION. The I3C management target (spec/13 R439 to R442, R457; spec/18 R611) and the debug port's accesses (spec/15 R517). -/
namespace Sys2Proof.Machine

def modI3c (f : I3cSt → I3cSt) (s : State) : State := { s with hst := { s.hst with i3c := f s.hst.i3c } }

/-! ### The view (R440) -/

/-- The byte lies in a range of the view. -/
def inView (s : State) (a : Nat) : Bool :=
  let b := a / 0x100000
  (0x80 ≤ b && b ≤ 0x84) || b == 0x8E || b == 0x8F || (decide (baseUNIT ≤ a) && decide (a < baseUNIT + 0x100000))
    || (decide (baseHST ≤ a) && decide (a < baseHST + 0x40)) || (decide (a < 0x4000000) && tileType s (a / 0x1000) == 6)

/-- A byte of the view; before P7 only the RST block is seen (spec/18 R611). -/
def viewByte (s : State) (a : Nat) : Byte :=
  if deviceUp s then (if inView s a then barByte s a else 0)
  else if a / 0x100000 = 0x81 then barByte s a else 0

/-- What a private read returns: the frame number, then bytes from V on, at most MRL bytes in all. -/
def viewBytes (s : State) (len : Nat) : List Byte :=
  (leBytes 8 (if deviceUp s then frame64 s else 0)
    ++ (List.range (s.hst.i3c.mrl - 8)).map (fun k => viewByte s (s.hst.i3c.view + k))).take (min len s.hst.i3c.mrl)

/-- A private write sets the view offset if it has 4 bytes, least significant first (DESIGN CHOICE, log 40), and is else ignored with kind 0x8A,
whose detail then names the bus only (R440, Table 13-6). A common command code that the target does not support is not acknowledged (R439). -/
def i3cWrite (w : I3cWrite) (s : State) : State :=
  match w with
  | .priv bytes => if bytes.length = 4 then modI3c (fun x => { x with view := leNat bytes }) s else hostFault 0x8A (2 ^ 31) s
  | .otherCcc => emit .nack s

/-- I3C_VIEW_OFFSET. -/
def execI3cViewOffset (w : I3cWrite) (s : State) : Host.Outcome State Fault Refusal := .next (if hubUp s then i3cWrite w s else s)

/-- I3C_VIEW_READ. -/
def execI3cViewRead (len : Nat) (s : State) : Host.Outcome State Fault Refusal :=
  .next (if hubUp s then emit (.readData (viewBytes s len)) s else s)

/-! ### The reset request (R441) -/

/-- The first write arms the request. -/
def i3cArm (target chal : BitVec 16) (t : Nat) : State → State := modI3c (fun x => { x with armed := some (target, chal, t) })

/-- The request ends and the challenge changes: to any other value. -/
def i3cEnd (s : State) : State :=
  let d := drawNat s
  modI3c (fun x => { x with armed := none, chal := x.chal + BitVec.ofNat 16 (1 + d.1 % 65535) }) d.2

/-- Why a request is refused; 0: it is accepted. -/
def i3cCheck (s : State) (target chal : BitVec 16) (armedAt t : Nat) : Nat :=
  if sourceLevel s 0x18 = 5 then 1
  else if chal ≠ s.hst.i3c.chal then 2
  else if armedAt + 20000000 < t then 3
  else if !targetOk s 0x18 target.toNat then 4 else 0

/-- The second write, which repeats the armed TARGET; a write that names another TARGET is a first write (log 39). -/
def i3cConfirm (target chal : BitVec 16) (t : Nat) (s : State) : State :=
  match s.hst.i3c.armed with
  | none => i3cArm target chal t s
  | some (tg, _, at_) =>
    if tg ≠ target then i3cArm target chal t s
    else
      let c := i3cCheck s target chal at_ t
      if c = 0 then assertSources [{ code := 0x18, target := target.toNat }] 0 (i3cEnd s) else hostFault 0x8C c (i3cEnd s)

/-- I3C_RESET_ARM: with a request armed the device takes the write as the second one. -/
def execI3cResetArm (target chal : BitVec 16) (t : Nat) (s : State) : Host.Outcome State Fault Refusal :=
  .next (if hubUp s then
    (if s.hst.i3c.armed.isSome then i3cConfirm target chal t (setNow t s) else i3cArm target chal t (setNow t s)) else s)

/-- I3C_RESET_CONFIRM. -/
def execI3cResetConfirm (target chal : BitVec 16) (t : Nat) (s : State) : Host.Outcome State Fault Refusal :=
  .next (if hubUp s then i3cConfirm target chal t (setNow t s) else s)

/-! ### Common command codes (R439) -/

/-- What the target answers on the bus. -/
def answer (b : List Byte) : State → State := emit (.readData b)

/-- ENTDAA: a target without a dynamic address takes the one assigned. -/
def execEntdaa (addr : BitVec 7) (s : State) : Host.Outcome State Fault Refusal :=
  .next (if hubUp s && s.hst.i3c.dyn.isNone then modI3c (fun x => { x with dyn := some addr }) s else s)

/-- SETDASA: the target whose static address it names takes the dynamic address. -/
def execSetdasa (stat dyn : BitVec 7) (s : State) : Host.Outcome State Fault Refusal :=
  .next (if hubUp s && s.hst.i3c.dyn.isNone && stat == s.hst.i3c.saddr then modI3c (fun x => { x with dyn := some dyn }) s else s)

/-- SETNEWDA: a target with a dynamic address takes another. -/
def execSetnewda (dyn : BitVec 7) (s : State) : Host.Outcome State Fault Refusal :=
  .next (if hubUp s && s.hst.i3c.dyn.isSome then modI3c (fun x => { x with dyn := some dyn }) s else s)

/-- RSTDAA: no dynamic address; I3C_SADDR comes into force (Table 13-9). -/
def execRstdaa (s : State) : Host.Outcome State Fault Refusal :=
  .next (if hubUp s then modI3c (fun x => { x with dyn := none, saddr := (rwOf s (baseHST + 0x10)).setWidth 7 }) s else s)

/-- The Provisioned ID; the manufacturer ID is a number that the spec does not state (log 1). -/
def provisionedId : Nat := Config.openNat 8 0 % 2 ^ 15 * 2 ^ 33 + 2 ^ 32 + deviceUid % 2 ^ 32

/-- GETPID. -/
def execGetpid (s : State) : Host.Outcome State Fault Refusal := .next (if hubUp s then answer (beBytes 6 provisionedId) s else s)

/-- GETBCR. -/
def execGetbcr (s : State) : Host.Outcome State Fault Refusal := .next (if hubUp s then answer [0x06] s else s)

/-- GETDCR. -/
def execGetdcr (s : State) : Host.Outcome State Fault Refusal := .next (if hubUp s then answer [0x00] s else s)

/-- GETSTATUS: two bytes whose content the spec does not state (log 1). -/
def execGetstatus (s : State) : Host.Outcome State Fault Refusal :=
  .next (if hubUp s then (let d := drawNat s; answer (beBytes 2 (Config.openNat 6 d.1)) d.2) else s)

/-- GETMRL. -/
def execGetmrl (s : State) : Host.Outcome State Fault Refusal := .next (if hubUp s then answer (beBytes 2 s.hst.i3c.mrl) s else s)

/-- MRL after SETMRL: 8 to 264; what a value outside gives, the spec does not state (log 1). -/
def mrlOf (n : Nat) : Nat := if 8 ≤ n ∧ n ≤ 264 then n else 8 + Config.openNat 7 n % 257

/-- SETMRL. -/
def execSetmrl (n : Nat) (s : State) : Host.Outcome State Fault Refusal :=
  .next (if hubUp s then modI3c (fun x => { x with mrl := mrlOf n }) s else s)

/-- GETMWL. -/
def execGetmwl (s : State) : Host.Outcome State Fault Refusal := .next (if hubUp s then answer (beBytes 2 s.hst.i3c.mwl) s else s)

/-- SETMWL. -/
def execSetmwl (n : Nat) (s : State) : Host.Outcome State Fault Refusal := .next (if hubUp s then modI3c (fun x => { x with mwl := n }) s else s)

/-- ENEC: bit 0 enables the in-band interrupt (PRESUMED, log 40). -/
def execEnec (events : Byte) (s : State) : Host.Outcome State Fault Refusal :=
  .next (if hubUp s then modI3c (fun x => { x with ibi := x.ibi || events.getLsbD 0 }) s else s)

/-- DISEC. -/
def execDisec (events : Byte) (s : State) : Host.Outcome State Fault Refusal :=
  .next (if hubUp s then modI3c (fun x => { x with ibi := x.ibi && !events.getLsbD 0 }) s else s)

/-- RSTACT: only defining byte 0x00 is supported; the target NACKs every other. -/
def execRstact (defining : Byte) (s : State) : Host.Outcome State Fault Refusal :=
  .next (if hubUp s then (if defining = 0 then modI3c (fun x => { x with rstact := true }) s else emit .nack s) else s)

/-! ### Debug accesses (spec/15 R517) -/

/-- A word of an engine memory (spec/06 R161, R173). -/
def seWord (s : State) (e : Nat) (m : SeMem) (k : Nat) : Nat :=
  let x := seOf s e
  match m with
  | .program => (Tbl.get (constD 0) x.prog k).toNat
  | .data => (Tbl.get (constD 0) x.dmem k).toNat
  | .bankA => (Tbl.get (constD 0) x.bankA k).toNat
  | .bankB => (Tbl.get (constD 0) x.bankB k).toNat

/-- A word written there; it is then free of errors. -/
def setSeWord (e : Nat) (m : SeMem) (k : Nat) (v : BitVec 64) (s : State) : State :=
  modSe e (fun x =>
    let x := { x with hits := x.hits.filter (fun h => !(h.mem == m && h.addr == k)) }
    match m with
    | .program => { x with prog := Tbl.set (constD 0) x.prog k v }
    | .data => { x with dmem := Tbl.set (constD 0) x.dmem k (v.setWidth 32) }
    | .bankA => { x with bankA := Tbl.set (constD 0) x.bankA k (bankStore (v.setWidth 32).toNat) }
    | .bankB => { x with bankB := Tbl.set (constD 0) x.bankB k (bankStore (v.setWidth 32).toNat) }) s

/-- Words of an engine memory (spec/06 R159). -/
def seWords : SeMem → Nat | .program => 8192 | .data => 16384 | _ => 4096

/-- What the persistent store holds of an item: the floor's copies as 4 and 4 bytes, the odometer's as 8, 16, 8, 4 and 4 (log 110), an image as
stored. -/
def storeBytes (s : State) (x : StoreItem) : List Byte :=
  match x with
  | .floor k => let c := if k = 0 then s.sec.floorA else s.sec.floorB; leBytes 4 c.value ++ leBytes 4 c.crc.toNat
  | .life k => match (if k = 0 then s.mon.savedA else s.mon.savedB) with
    | some c => leBytes 8 c.on ++ leBytes 16 c.eq ++ leBytes 8 c.hot ++ leBytes 4 (unsig 32 c.peak) ++ leBytes 4 c.crc.toNat
    | none => []
  | .image k => ((slotImages s).getD k.val none).getD []

def setStore (x : StoreItem) (v : List Byte) (s : State) : State :=
  match x with
  | .floor k =>
    let c : FloorCopy := { value := leAt v 0 4, crc := wordN (leAt v 4 4) }
    { s with sec := if k = 0 then { s.sec with floorA := c } else { s.sec with floorB := c } }
  | .life k =>
    let c : LifeCopy := { on := leAt v 0 8, eq := leAt v 8 16, hot := leAt v 24 8, peak := signed 32 (leAt v 32 4), crc := wordN (leAt v 36 4) }
    { s with mon := if k = 0 then { s.mon with savedA := some c } else { s.mon with savedB := some c } }
  | .image k =>
    let b := if v.isEmpty then none else some v
    { s with slots := if k = 0 then { s.slots with active := b } else if k = 1 then { s.slots with previous := b } else { s.slots with staged := b } }

/-- An access of the open or unlocked port: every register, as a host access has it, frame memory, the engines' memories, and the persistent
store; the fuse secret, the identity scalar and the image keys have no access. -/
def debugAccess (a : DebugAccess) (s : State) : State :=
  match a with
  | .readReg off => answer (leBytes 4 (regRead s off).toNat) s
  | .writeReg off v => if deviceUp s then regWrite off v s else s
  | .readMem a => answer [memByte s a] s
  | .writeMem a v => if a < 0x4000000 then setByte a v s else s
  | .readSe e m k => answer (leBytes (if m == .program then 8 else 4) (seWord s e.val m k)) s
  | .writeSe e m k v => if k < seWords m then setSeWord e.val m k v s else s
  | .readStore x => answer (storeBytes s x) s
  | .writeStore x v => setStore x v s

/-- JTAG_DEBUG_ACCESS: the locked port offers none. -/
def execJtagDebugAccess (a : DebugAccess) (s : State) : Host.Outcome State Fault Refusal := .next (if s.sec.dbgLocked then s else debugAccess a s)

end Sys2Proof.Machine
end

