-- ==== Sys2Proof/Machine/Dispatch.lean ====
section
/-! DEFINITION. The meaning of every command: one arm per constructor, in the order of the opcode table. -/
namespace Sys2Proof.Machine

def exec (i : Instr) (s : State) : Host.Outcome State Fault Refusal :=
  match i with
  | .frameBoundary => Sys2Proof.Machine.execFrameBoundary s
  | .commandCutoff => Sys2Proof.Machine.execCommandCutoff s
  | .mapAdopt c => Sys2Proof.Machine.execMapAdopt c s
  | .mapDiscard c => Sys2Proof.Machine.execMapDiscard c s
  | .mapErase c => Sys2Proof.Machine.execMapErase c s
  | .commit v => Sys2Proof.Machine.execCommit v s
  | .prepare u at_ => Sys2Proof.Machine.execPrepare u at_ s
  | .start u at_ => Sys2Proof.Machine.execStart u at_ s
  | .hold u at_ => Sys2Proof.Machine.execHold u at_ s
  | .resume u at_ => Sys2Proof.Machine.execResume u at_ s
  | .stop u at_ => Sys2Proof.Machine.execStop u at_ s
  | .quickstop u at_ => Sys2Proof.Machine.execQuickstop u at_ s
  | .clear u at_ => Sys2Proof.Machine.execClear u at_ s
  | .reset u at_ => Sys2Proof.Machine.execReset u at_ s
  | .stage => Sys2Proof.Machine.execStage s
  | .stageComplete => Sys2Proof.Machine.execStageComplete s
  | .switch next => Sys2Proof.Machine.execSwitch next s
  | .discardStaged => Sys2Proof.Machine.execDiscardStaged s
  | .revert next => Sys2Proof.Machine.execRevert next s
  | .velvetEnd => Sys2Proof.Machine.execVelvetEnd s
  | .prepareLimitExpiry u => Sys2Proof.Machine.execPrepareLimitExpiry u s
  | .registerWrite off v be => Sys2Proof.Machine.execRegisterWrite off v be s
  | .mailboxRead r => Sys2Proof.Machine.execMailboxRead r s
  | .bankWrite k0 bankB word v => Sys2Proof.Machine.execBankWrite k0 bankB word v s
  | .escAck u v => Sys2Proof.Machine.execEscAck u v s
  | .divergeReport v => Sys2Proof.Machine.execDivergeReport v s
  | .latchedClear u => Sys2Proof.Machine.execLatchedClear u s
  | .firstFaultClear => Sys2Proof.Machine.execFirstFaultClear s
  | .hbLostClear => Sys2Proof.Machine.execHbLostClear s
  | .rstSeenClear v => Sys2Proof.Machine.execRstSeenClear v s
  | .ttReq v t => Sys2Proof.Machine.execTtReq v t s
  | .tonePhaseEnd g => Sys2Proof.Machine.execTonePhaseEnd g s
  | .toneCheckComplete g zSin zCos phSin phCos xtSC xtCS => Sys2Proof.Machine.execToneCheckComplete g zSin zCos phSin phCos xtSC xtCS s
  | .toneCheckTimeout g => Sys2Proof.Machine.execToneCheckTimeout g s
  | .captureSample k1 chans sense => Sys2Proof.Machine.execCaptureSample k1 chans sense s
  | .carrierCycleStart g k1 => Sys2Proof.Machine.execCarrierCycleStart g k1 s
  | .handoverDriveStart g => Sys2Proof.Machine.execHandoverDriveStart g s
  | .burstStart g n => Sys2Proof.Machine.execBurstStart g n s
  | .burstEnd g n => Sys2Proof.Machine.execBurstEnd g n s
  | .senseCycle g v k1 ph => Sys2Proof.Machine.execSenseCycle g v k1 ph s
  | .auxSlot k0 j slot => Sys2Proof.Machine.execAuxSlot k0 j slot s
  | .auxConversionComplete k0 code aexP => Sys2Proof.Machine.execAuxConversionComplete k0 code aexP s
  | .sePass k0 k1 ecc => Sys2Proof.Machine.execSePass k0 k1 ecc s
  | .slotOverrun k0 => Sys2Proof.Machine.execSlotOverrun k0 s
  | .nop k0 f => Sys2Proof.Machine.execNop k0 f s
  | .movi k0 f => Sys2Proof.Machine.execMovi k0 f s
  | .sadd k0 f => Sys2Proof.Machine.execSadd k0 f s
  | .lds k0 f e => Sys2Proof.Machine.execLds k0 f e s
  | .sts k0 f => Sys2Proof.Machine.execSts k0 f s
  | .ldv k0 f e => Sys2Proof.Machine.execLdv k0 f e s
  | .stv k0 f => Sys2Proof.Machine.execStv k0 f s
  | .ldc k0 f e => Sys2Proof.Machine.execLdc k0 f e s
  | .cap k0 f => Sys2Proof.Machine.execCap k0 f s
  | .ctx k0 f => Sys2Proof.Machine.execCtx k0 f s
  | .mac k0 f => Sys2Proof.Machine.execMac k0 f s
  | .macm k0 f e => Sys2Proof.Machine.execMacm k0 f e s
  | .hsum k0 f => Sys2Proof.Machine.execHsum k0 f s
  | .rnd k0 f => Sys2Proof.Machine.execRnd k0 f s
  | .add k0 f => Sys2Proof.Machine.execAdd k0 f s
  | .sub k0 f => Sys2Proof.Machine.execSub k0 f s
  | .abs k0 f => Sys2Proof.Machine.execAbs k0 f s
  | .mnx k0 f => Sys2Proof.Machine.execMnx k0 f s
  | .shf k0 f => Sys2Proof.Machine.execShf k0 f s
  | .cmp k0 f => Sys2Proof.Machine.execCmp k0 f s
  | .sel k0 f => Sys2Proof.Machine.execSel k0 f s
  | .bq k0 f e => Sys2Proof.Machine.execBq k0 f e s
  | .sqrt k0 f => Sys2Proof.Machine.execSqrt k0 f s
  | .out k0 f => Sys2Proof.Machine.execOut k0 f s
  | .loop k0 f => Sys2Proof.Machine.execLoop k0 f s
  | .br k0 f => Sys2Proof.Machine.execBr k0 f s
  | .raise k0 f => Sys2Proof.Machine.execRaise k0 f s
  | .yield k0 f => Sys2Proof.Machine.execYield k0 f s
  | .trackerSample c => Sys2Proof.Machine.execTrackerSample c s
  | .coastLimit c => Sys2Proof.Machine.execCoastLimit c s
  | .trackerExtrapolation => Sys2Proof.Machine.execTrackerExtrapolation s
  | .compareSchedule => Sys2Proof.Machine.execCompareSchedule s
  | .compareFire k => Sys2Proof.Machine.execCompareFire k s
  | .triggerPulseStart k => Sys2Proof.Machine.execTriggerPulseStart k s
  | .triggerPulseEnd k => Sys2Proof.Machine.execTriggerPulseEnd k s
  | .generatorSetpoint => Sys2Proof.Machine.execGeneratorSetpoint s
  | .standstillCurrentReduction g => Sys2Proof.Machine.execStandstillCurrentReduction g s
  | .ledgerSnapshot => Sys2Proof.Machine.execLedgerSnapshot s
  | .recordReady => Sys2Proof.Machine.execRecordReady s
  | .egressWindowOpen fits => Sys2Proof.Machine.execEgressWindowOpen fits s
  | .egressForcedEnd => Sys2Proof.Machine.execEgressForcedEnd s
  | .dmaCopyComplete e => Sys2Proof.Machine.execDmaCopyComplete e s
  | .dmaHalt e bmeCleared => Sys2Proof.Machine.execDmaHalt e bmeCleared s
  | .dmaEnable e v => Sys2Proof.Machine.execDmaEnable e v s
  | .msixPendingDelivery v => Sys2Proof.Machine.execMsixPendingDelivery v s
  | .emulatorEdge e t => Sys2Proof.Machine.execEmulatorEdge e t s
  | .portTransitionAccepted p t a b z => Sys2Proof.Machine.execPortTransitionAccepted p t a b z s
  | .switchDebounceChange k level => Sys2Proof.Machine.execSwitchDebounceChange k level s
  | .chatWindowEnd => Sys2Proof.Machine.execChatWindowEnd s
  | .scrubTile => Sys2Proof.Machine.execScrubTile s
  | .faultAccept queues t => Sys2Proof.Machine.execFaultAccept queues t s
  | .countWindowClose u => Sys2Proof.Machine.execCountWindowClose u s
  | .beamEscalation u => Sys2Proof.Machine.execBeamEscalation u s
  | .alarmExit t => Sys2Proof.Machine.execAlarmExit t s
  | .heartbeat t => Sys2Proof.Machine.execHeartbeat t s
  | .heartbeatLost t => Sys2Proof.Machine.execHeartbeatLost t s
  | .tempConversion k reading failed => Sys2Proof.Machine.execTempConversion k reading failed s
  | .railSample r mv => Sys2Proof.Machine.execRailSample r mv s
  | .roMeasure k freq dev => Sys2Proof.Machine.execRoMeasure k freq dev s
  | .agingMeasure k margin => Sys2Proof.Machine.execAgingMeasure k margin s
  | .odometerTick => Sys2Proof.Machine.execOdometerTick s
  | .rcTrim word => Sys2Proof.Machine.execRcTrim word s
  | .xtalFail => Sys2Proof.Machine.execXtalFail s
  | .xtalRecover => Sys2Proof.Machine.execXtalRecover s
  | .pllLockLost pll => Sys2Proof.Machine.execPllLockLost pll s
  | .pllLock pll modAligned => Sys2Proof.Machine.execPllLock pll modAligned s
  | .refclkLost => Sys2Proof.Machine.execRefclkLost s
  | .refclkHoldoverExpiry => Sys2Proof.Machine.execRefclkHoldoverExpiry s
  | .actReqRunning next => Sys2Proof.Machine.execActReqRunning next s
  | .actReqDozing next => Sys2Proof.Machine.execActReqDozing next s
  | .actReqAsleep next => Sys2Proof.Machine.execActReqAsleep next s
  | .wakeReady => Sys2Proof.Machine.execWakeReady s
  | .wakeTimeout => Sys2Proof.Machine.execWakeTimeout s
  | .pwrReqFall => Sys2Proof.Machine.execPwrReqFall s
  | .wakeSource w => Sys2Proof.Machine.execWakeSource w s
  | .resetSourceAssert srcs => Sys2Proof.Machine.execResetSourceAssert srcs s
  | .resetSourceRelease code => Sys2Proof.Machine.execResetSourceRelease code s
  | .tamper det => Sys2Proof.Machine.execTamper det s
  | .bringupPhaseDone o t => Sys2Proof.Machine.execBringupPhaseDone o t s
  | .clockDeferralTimeout pll => Sys2Proof.Machine.execClockDeferralTimeout pll s
  | .tineIdle u => Sys2Proof.Machine.execTineIdle u s
  | .idleTimeout => Sys2Proof.Machine.execIdleTimeout s
  | .rstReqLocal v => Sys2Proof.Machine.execRstReqLocal v s
  | .rstReqTwin v peerEnabled => Sys2Proof.Machine.execRstReqTwin v peerEnabled s
  | .rstReqHerd v reachable enabled => Sys2Proof.Machine.execRstReqHerd v reachable enabled s
  | .wdtCtrlWrite v => Sys2Proof.Machine.execWdtCtrlWrite v s
  | .wdtKick v => Sys2Proof.Machine.execWdtKick v s
  | .watchdogExpiry => Sys2Proof.Machine.execWatchdogExpiry s
  | .commandMessage m => Sys2Proof.Machine.execCommandMessage m s
  | .commandResponse => Sys2Proof.Machine.execCommandResponse s
  | .sessionRequestMessage req => Sys2Proof.Machine.execSessionRequestMessage req s
  | .syncMessage offset gmId steps grandmaster => Sys2Proof.Machine.execSyncMessage offset gmId steps grandmaster s
  | .syncTimeout => Sys2Proof.Machine.execSyncTimeout s
  | .backboneLinkChange k up => Sys2Proof.Machine.execBackboneLinkChange k up s
  | .ctInit hi => Sys2Proof.Machine.execCtInit hi s
  | .i3cViewOffset off => Sys2Proof.Machine.execI3cViewOffset off s
  | .i3cViewRead len => Sys2Proof.Machine.execI3cViewRead len s
  | .i3cResetArm target chal t => Sys2Proof.Machine.execI3cResetArm target chal t s
  | .i3cResetConfirm target chal t => Sys2Proof.Machine.execI3cResetConfirm target chal t s
  | .entdaa addr => Sys2Proof.Machine.execEntdaa addr s
  | .setdasa stat dyn => Sys2Proof.Machine.execSetdasa stat dyn s
  | .setnewda dyn => Sys2Proof.Machine.execSetnewda dyn s
  | .rstdaa => Sys2Proof.Machine.execRstdaa s
  | .getpid => Sys2Proof.Machine.execGetpid s
  | .getbcr => Sys2Proof.Machine.execGetbcr s
  | .getdcr => Sys2Proof.Machine.execGetdcr s
  | .getstatus => Sys2Proof.Machine.execGetstatus s
  | .getmrl => Sys2Proof.Machine.execGetmrl s
  | .setmrl n => Sys2Proof.Machine.execSetmrl n s
  | .getmwl => Sys2Proof.Machine.execGetmwl s
  | .setmwl n => Sys2Proof.Machine.execSetmwl n s
  | .enec events => Sys2Proof.Machine.execEnec events s
  | .disec events => Sys2Proof.Machine.execDisec events s
  | .rstact defining => Sys2Proof.Machine.execRstact defining s
  | .certGet => Sys2Proof.Machine.execCertGet s
  | .attest => Sys2Proof.Machine.execAttest s
  | .ownBurn => Sys2Proof.Machine.execOwnBurn s
  | .slotRevoke => Sys2Proof.Machine.execSlotRevoke s
  | .imgkeyLoad => Sys2Proof.Machine.execImgkeyLoad s
  | .imgkeyErase => Sys2Proof.Machine.execImgkeyErase s
  | .floorRaise => Sys2Proof.Machine.execFloorRaise s
  | .sessionOpen => Sys2Proof.Machine.execSessionOpen s
  | .sessionClose => Sys2Proof.Machine.execSessionClose s
  | .attach => Sys2Proof.Machine.execAttach s
  | .detach => Sys2Proof.Machine.execDetach s
  | .ownSet => Sys2Proof.Machine.execOwnSet s
  | .herdEnum => Sys2Proof.Machine.execHerdEnum s
  | .serviceComplete => Sys2Proof.Machine.execServiceComplete s
  | .serviceTimeout => Sys2Proof.Machine.execServiceTimeout s
  | .twinLinkUp peerUid peerRole => Sys2Proof.Machine.execTwinLinkUp peerUid peerRole s
  | .twinSessionOpen certOk slotsEqual => Sys2Proof.Machine.execTwinSessionOpen certOk slotsEqual s
  | .twinLinkDown lanes => Sys2Proof.Machine.execTwinLinkDown lanes s
  | .twinBlockArrival n tagOk units => Sys2Proof.Machine.execTwinBlockArrival n tagOk units s
  | .twinBlockDeadline n => Sys2Proof.Machine.execTwinBlockDeadline n s
  | .twinSettingsCrc crc => Sys2Proof.Machine.execTwinSettingsCrc crc s
  | .groupOrphaned g => Sys2Proof.Machine.execGroupOrphaned g s
  | .lossLimExpiry => Sys2Proof.Machine.execLossLimExpiry s
  | .twinVelvetEnd => Sys2Proof.Machine.execTwinVelvetEnd s
  | .pairingTimeout => Sys2Proof.Machine.execPairingTimeout s
  | .herdEnumMessage pos twinUp own uids => Sys2Proof.Machine.execHerdEnumMessage pos twinUp own uids s
  | .herdPositionWaitExpiry => Sys2Proof.Machine.execHerdPositionWaitExpiry s
  | .herdCommandRelay u code target => Sys2Proof.Machine.execHerdCommandRelay u code target s
  | .herdTokenIssue => Sys2Proof.Machine.execHerdTokenIssue s
  | .herdTokenReceive frame states partials beamHash canPass => Sys2Proof.Machine.execHerdTokenReceive frame states partials beamHash canPass s
  | .herdTokenRetire frame partials hashOk tourNs => Sys2Proof.Machine.execHerdTokenRetire frame partials hashOk tourNs s
  | .herdTokenTimeout => Sys2Proof.Machine.execHerdTokenTimeout s
  | .herdTokenAbsent => Sys2Proof.Machine.execHerdTokenAbsent s
  | .herdRingOpen down unreached => Sys2Proof.Machine.execHerdRingOpen down unreached s
  | .svtChal => Sys2Proof.Machine.execSvtChal s
  | .svtUnlock slot pubkey sig => Sys2Proof.Machine.execSvtUnlock slot pubkey sig s
  | .jtagBypass => Sys2Proof.Machine.execJtagBypass s
  | .jtagIdcode => Sys2Proof.Machine.execJtagIdcode s
  | .rstFuseProg table pinMap => Sys2Proof.Machine.execRstFuseProg table pinMap s
  | .refclkReturn => Sys2Proof.Machine.execRefclkReturn s
  | .pcieLinkChange up width rate fn => Sys2Proof.Machine.execPcieLinkChange up width rate fn s
  | .herdLinkTrained down ok => Sys2Proof.Machine.execHerdLinkTrained down ok s
  | .twinControlMessage m => Sys2Proof.Machine.execTwinControlMessage m s
  | .grandmasterChange gmId grandmaster => Sys2Proof.Machine.execGrandmasterChange gmId grandmaster s
  | .streamGateClosed filter port => Sys2Proof.Machine.execStreamGateClosed filter port s
  | .latentErrorDetection stream => Sys2Proof.Machine.execLatentErrorDetection stream s
  | .jtagDebugAccess a => Sys2Proof.Machine.execJtagDebugAccess a s
  | .switchRawTransition k level => Sys2Proof.Machine.execSwitchRawTransition k level s
  | .alarmHalfPeriod t => Sys2Proof.Machine.execAlarmHalfPeriod t s

end Sys2Proof.Machine
end

