-- ==== Sys2Proof/Safety.lean ====
section
/-! DEFINITION. The terms in which the statements speak: a safe step, a fault message offered to a queue, what an engine instruction
that goes on leaves alone, and the invariants of the machine. -/
namespace Sys2Proof
open Sys2Proof.Machine

/-- The step at `s` answers a next state. -/
def SafeStep (s : Machine.State) : Prop := ∃ t, Machine.step s = .next t

/-- The command `c` runs at `s`: it answers a next state. -/
def Runs (c : Instr) (s : Machine.State) : Prop := ∃ t, Machine.exec c s = .next t

/-- From `s` to `t` exactly one message entered queue `q`, of unit `u`, kind and detail, with the class in force and the number of the most
recent boundary; none where the queue was full (spec/16 R529 to R531). -/
def Raised (q u kind detail : Nat) (s t : Machine.State) : Prop :=
  queueOf t q =
    if (queueOf s q).length < queueCap q then queueOf s q ++ [mkMsg u kind (baseClass s u kind) (frame64 s) detail] else queueOf s q

/-- An instruction of engine `e` that reads the registers `reads` and takes `cost` cycles can run in the slot that the engine is in: the
engine runs, the slot's program has not ended, the slot timer has room for it and no word of memory is named with an error (spec/06 R168,
R172, R173). -/
def SeReady (e : Nat) (reads : List Nat) (cost : Nat) (s : Machine.State) : Prop :=
  engineRuns s e = true ∧ (seOf s e).ctx.ended = false ∧ (seOf s e).hits = [] ∧
    issueAt (seOf s e) reads + cost ≤ (seOf s e).ctx.limit

/-- An instruction of engine `e` went on: the next word follows, loops counted; the slot goes on; of the state, only engine `e` changed. -/
def SeStep (e : Nat) (s t : Machine.State) : Prop :=
  { t with se := s.se } = s ∧ (∀ k, k ≠ e → seOf t k = seOf s k) ∧
    (seOf t e).pc = (loopNext (seOf s e).pc (seOf s e).ctx.loops).1 ∧ (seOf t e).ctx.ended = false

/-- `SeStep`, and of engine `e` vector D alone changed: `val n` saturated to 24 bits in every lane `n` that the predicate enables. -/
def SeWritesV (e : Nat) (f : SeFields) (val : Nat → Int) (s t : Machine.State) : Prop :=
  SeStep e s t ∧
  (∀ r n, n < 8 → vOf (seOf t e) r n =
    if vIdx r = vIdx f.d.val ∧ enabled f (seOf s e) n = true then satS 24 (val n) else vOf (seOf s e) r n) ∧
  { seOf t e with v := (seOf s e).v, pc := (seOf s e).pc, ctx := (seOf s e).ctx } = seOf s e

/-- The same of accumulator D, saturated to 56 bits. -/
def SeWritesAcc (e : Nat) (f : SeFields) (val : Nat → Int) (s t : Machine.State) : Prop :=
  SeStep e s t ∧
  (∀ r n, n < 8 → accOf (seOf t e) r n =
    if accIdx r = accIdx f.d.val ∧ enabled f (seOf s e) n = true then satS 56 (val n) else accOf (seOf s e) r n) ∧
  { seOf t e with acc := (seOf s e).acc, pc := (seOf s e).pc, ctx := (seOf s e).ctx } = seOf s e

/-- The same of scalar D; S0 ignores the write. -/
def SeWritesS (e d : Nat) (val : Word) (s t : Machine.State) : Prop :=
  SeStep e s t ∧
  (∀ r, sOf (seOf t e) r = if sIdx r = sIdx d ∧ sIdx r ≠ 0 then val else sOf (seOf s e) r) ∧
  { seOf t e with s := (seOf s e).s, pc := (seOf s e).pc, ctx := (seOf s e).ctx } = seOf s e

/-- The slot that engine `e` is in ended with an exception of Table 6-8: cause and kind 0x3B reported, staged outputs discarded, no register
or data word written (spec/06 R172). -/
def SeEnds (e cause : Nat) (s t : Machine.State) : Prop :=
  (seOf t e).ctx.ended = true ∧ (seOf t e).ctx.staged = [] ∧ (seOf t e).lastExc = wordN (excDetail cause (seOf s e)) ∧
  (seOf t e).v = (seOf s e).v ∧ (seOf t e).acc = (seOf s e).acc ∧ (seOf t e).s = (seOf s e).s ∧ (seOf t e).p = (seOf s e).p ∧
  (seOf t e).dmem = (seOf s e).dmem ∧ Raised qSE (0x600 + e) 0x3B (excDetail cause (seOf s e)) s t

/-- Ownership (spec/15 R503): no slot is burned and none revoked, or a burned slot is not revoked. -/
def OwnInv (s : Machine.State) : Prop :=
  (s.sec.burned = 0 ∧ s.sec.revoked = 0) ∨ s.sec.burned &&& ~~~s.sec.revoked ≠ 0

/-- Both copies of the floor in the persistent store hold it (spec/15 R510). -/
def FloorStored (s : Machine.State) : Prop :=
  s.sec.floorA = floorCopy s.sec.floor ∧ s.sec.floorB = floorCopy s.sec.floor

/-- Frame memory is in its canonical form: addresses strictly rising, no listed byte 0. -/
def MemInv (s : Machine.State) : Prop := Tbl.wf (constD (0 : Byte)) s.fm.mem = true

/-- What is burned stays burned from `s` to `t`: owner slots, revocations, the fuse bits of the reset controller, its pin map (spec/15 R502,
R503; spec/18 R598, R599). -/
def FusesKept (s t : Machine.State) : Prop :=
  s.sec.burned &&& t.sec.burned = s.sec.burned ∧ s.sec.revoked &&& t.sec.revoked = s.sec.revoked ∧
    s.rst.fuse &&& t.rst.fuse = s.rst.fuse ∧ s.rst.pinMap &&& t.rst.pinMap = s.rst.pinMap

end Sys2Proof
end

