-- ==== Sys2Proof/Certificates/Slice0/Obligations.lean ====
section
/-! DEFINITION. The statements for the provers, from the numbered rules of spec/. An equation of the form with-updates equal to `s` is a
frame: of the state, only the fields named in it may differ. -/
open Sys2Proof Sys2Proof.Machine

/-- The step takes the command at the front of the queue and runs it on the state with the queue's rest. -/
def Obligations.StepRunsFront : Prop :=
  ∀ (c : Instr) (rest : List Instr) (s : State), s.pending = c :: rest → step s = exec c { s with pending := rest }

/-- The machine right after reset: phase P0 of bring-up, every slice held, the alarm pair in the alarm state, the floor 0, no slot in use,
no frame memory tile written, cell time unset; the invariants below hold; a register at its reset value, an infrastructure unit ACTIVE, a
tine DORMANT. Where the spec states no value (slots, fuses, memory, some registers) the values are the model's choice, logs 2 to 9. -/
def Obligations.ResetState : Prop :=
  State.reset.rst.phase = 0 ∧ heldSlices State.reset = 0xFF ∧ State.reset.flt.alarm = true ∧ State.reset.sec.floor = 0 ∧
  State.reset.slots.active = none ∧ State.reset.time.frame = none ∧ frame64 State.reset = 2 ^ 64 - 1 ∧
  State.reset.sec.burned = 0 ∧ State.reset.twn.mode = 0 ∧ State.reset.rst.wdtLeft = 0x3E8 ∧
  (∀ off, inF State.reset off = regReset off ∧ shadowOf State.reset off = regReset off ∧ rwOf State.reset off = regReset off) ∧
  (∀ u, isInfra u = true → stOf State.reset u = .active) ∧ (∀ u, isInfra u = false → stOf State.reset u = .dormant) ∧
  (∀ a, memByte State.reset a = 0) ∧ OwnInv State.reset ∧ MemInv State.reset ∧ FloorStored State.reset

/-- A message enters its queue while it has room; a full queue drops it and counts the drop, and nothing else of the queues changes
(R531). FAULT_ACCEPT of one queue: the oldest message is taken, numbered, its source LATCHED with its kind, and where no first fault was
held it becomes the first fault; for a message whose reactions do not ask for a chip reset (R531, R532, R538, R541). -/
def Obligations.CollectorQueues : Prop :=
  (∀ (q : Nat) (m : FaultMsg) (s : State),
    queueOf (queueMsg q m s) q = (if (queueOf s q).length < queueCap q then queueOf s q ++ [m] else queueOf s q) ∧
    (queueMsg q m s).flt.drops = (if (queueOf s q).length < queueCap q then s.flt.drops else satInc 32 s.flt.drops) ∧
    (∀ p, p ≠ q → queueOf (queueMsg q m s) p = queueOf s p) ∧
    { queueMsg q m s with flt := s.flt, fm := s.fm } = s) ∧
  (∀ (q : Fin 28) (tm : Nat) (m : FaultMsg) (rest : List FaultMsg) (s : State),
    hubUp s = true → queueOf s q.val = m :: rest → (∀ cls, (maskOf s q.val m cls).testBit 3 = false) →
    ∃ t, exec (.faultAccept [q] tm) s = .next t ∧
      queueOf t q.val = rest ∧
      t.flt.seq = (if s.flt.seq = 0xFFFFFFFF then 1 else s.flt.seq + 1) ∧
      (fsOf t (msgSource m)).latched = true ∧ (fsOf t (msgSource m)).lastKind = msgKind m ∧ (fsOf t (msgSource m)).lastMsg = m ∧
      msgClass m ≤ (fsOf t (msgSource m)).maxClass ∧
      t.flt.ffValid = true ∧
      (s.flt.ffValid = false → t.flt.ffMsg = m ∧ t.flt.ffTime = tm ∧ t.flt.ffSeq = t.flt.seq ∧ t.flt.ffSimult = 0) ∧
      (s.flt.ffValid = true → t.flt.ffMsg = s.flt.ffMsg ∧ t.flt.ffSeq = s.flt.ffSeq))

/-- LATCHED_CLEAR clears LATCHED, MAX_CLASS and ALARM_HELD of a source that is not ACTIVE; of an ACTIVE source nothing (R538).
FIRST_FAULT_CLEAR empties the first fault; COUNT_WINDOW_CLOSE ends a window whose boundary has come, with COUNT and PROMOTED;
HB_LOST_CLEAR clears HB_LOST while heartbeats arrive (R534, R541, R547). -/
def Obligations.StatusClears : Prop :=
  (∀ (u : BitVec 12) (s : State),
    (fsActive s u.toNat = false → ∃ t, exec (.latchedClear u) s = .next t ∧
      fsOf t u.toNat = { fsOf s u.toNat with latched := false, maxClass := 0, alarmHeld := false } ∧
      (∀ v, v ≠ u.toNat → fsOf t v = fsOf s v) ∧
      { t with flt := { t.flt with fs := s.flt.fs, alarmFree := s.flt.alarmFree, alarmOn := s.flt.alarmOn } } = s) ∧
    (fsActive s u.toNat = true → exec (.latchedClear u) s = .next s)) ∧
  ((∀ s : State, exec .firstFaultClear s = .next { s with flt := { s.flt with ffValid := false, ffSimult := 0 } }) ∧
  (∀ (u : BitVec 12) (e n : Nat) (s : State), (fsOf s u.toNat).window = some e → s.time.frame = some n →
    (e ≤ n → ∃ t, exec (.countWindowClose u) s = .next t ∧
      fsOf t u.toNat = { fsOf s u.toNat with window := none, count := 0, promoted := false } ∧
      (∀ v, v ≠ u.toNat → fsOf t v = fsOf s v) ∧ { t with flt := { t.flt with fs := s.flt.fs } } = s) ∧
    (n < e → exec (.countWindowClose u) s = .next s)) ∧
  (∀ s : State,
    (s.time.now < s.flt.hbLast + 1000000 → ∃ t, exec .hbLostClear s = .next t ∧ t.flt.hbLost = false ∧
      { t with flt := { t.flt with hbLost := s.flt.hbLost, alarmFree := s.flt.alarmFree, alarmOn := s.flt.alarmOn } } = s) ∧
    (s.flt.hbLast + 1000000 ≤ s.time.now → exec .hbLostClear s = .next s)))

/-- ESC_ACK of a beam's running escalation timer is held for the first boundary whose cut-off has not passed at the first such write; any
other write does nothing. BEAM_ESCALATION of a running timer with no time left raises kind 0x1F of the beam's parent, naming the beam, and
counts; of any other timer it does nothing (R543, R544). The alarm pair: healthy it toggles at each half period; an ALARM_EXIT, or a half
period in the alarm state, resumes the healthy pattern where no condition holds, the conditions ended before it and the minimum time held
of R545 is over, and else changes nothing; a heartbeat is noted by the fawn domain while the device is up, and 1 ms without one sets
HB_LOST and the alarm state (R545, R547). -/
def Obligations.EscalationAndAlarm : Prop :=
  ((∀ (u : BitVec 12) (v : Word) (s : State),
    (bitAt v 0 = true → isBeamId u.toNat = true → (unitOf s u.toNat).esc.running = true →
      ∃ t, exec (.escAck u v) s = .next t ∧
        unitOf t u.toNat = { unitOf s u.toNat with esc := { (unitOf s u.toNat).esc with ackAt := some ((unitOf s u.toNat).esc.ackAt.getD s.time.openFrame) } } ∧
        (∀ w, w ≠ u.toNat → unitOf t w = unitOf s w) ∧ { t with units := s.units } = s) ∧
    (bitAt v 0 = false ∨ isBeamId u.toNat = false ∨ (unitOf s u.toNat).esc.running = false → exec (.escAck u v) s = .next s)) ∧
  (∀ (u : BitVec 12) (s : State), (unitOf s u.toNat).esc.running = true → (unitOf s u.toNat).esc.left = 0 →
    ∃ t, exec (.beamEscalation u) s = .next t ∧
      (unitOf t u.toNat).esc.running = false ∧ (unitOf t u.toNat).esc.expired = true ∧
      (unitOf t u.toNat).esc.count = satInc 32 (unitOf s u.toNat).esc.count ∧
      Raised qFLT (parentOf s u.toNat) 0x1F u.toNat s t ∧
      (∀ w, w ≠ u.toNat → unitOf t w = unitOf s w) ∧ { t with units := s.units, flt := s.flt, fm := s.fm } = s) ∧
  (∀ (u : BitVec 12) (s : State), (unitOf s u.toNat).esc.running = false ∨ (unitOf s u.toNat).esc.left ≠ 0 →
    exec (.beamEscalation u) s = .next s)) ∧
  ((∀ (tm : Nat) (s : State), s.flt.alarm = false →
    exec (.alarmHalfPeriod tm) s = .next { s with
      time := { s.time with now := max s.time.now tm }
      flt := { s.flt with alarmLevel := !s.flt.alarmLevel }
      outbox := s.outbox ++ [.alarm (!s.flt.alarmLevel) s.flt.alarmLevel] }) ∧
  (∀ (tm : Nat) (s : State), s.flt.alarm = true →
    exec (.alarmHalfPeriod tm) s = exec (.alarmExit tm) s ∧
    (alarmDue s = false → s.flt.alarmFree < tm → s.flt.alarmHold ≤ tm →
      exec (.alarmExit tm) s = .next { s with
        time := { s.time with now := max s.time.now tm }
        flt := { s.flt with alarm := false, alarmLevel := !s.flt.alarmLevel }
        outbox := s.outbox ++ [.alarm (!s.flt.alarmLevel) s.flt.alarmLevel] }) ∧
    (alarmDue s = true ∨ tm ≤ s.flt.alarmFree ∨ tm < s.flt.alarmHold →
      exec (.alarmExit tm) s = .next { s with time := { s.time with now := max s.time.now tm } })) ∧
  (∀ (tm : Nat) (s : State), deviceUp s = true → s.clk.coreLock = true →
    ∃ t, exec (.heartbeat tm) s = .next t ∧ t.flt.hbLast = tm ∧
      (s.flt.hbLost = false ∨ tm < s.flt.hbLast + 1000000 →
        t = { s with time := { s.time with now := max s.time.now tm }, flt := { s.flt with hbLast := tm } }) ∧
      (s.flt.hbLost = true → s.flt.hbLast + 1000000 ≤ tm →
        Raised qFLT 0x613 0xBC (min ((tm - s.flt.hbLast) / 1000) (2 ^ 32 - 1)) s t)) ∧
  (∀ (tm : Nat) (s : State), s.flt.hbLast + 1000000 ≤ tm → s.flt.hbLost = false →
    ∃ t, exec (.heartbeatLost tm) s = .next t ∧ t.flt.hbLost = true ∧ t.flt.hbLostAt = tm ∧ t.flt.alarm = true ∧
      { t with time := s.time, flt := s.flt, outbox := s.outbox } = s))

/-- TEMP_CONVERSION: a reading sets HIGH and WARN above its limit and LOW below the low limit, and clears each 2 degrees back (readings in
2^-4 degC), and the conditions 0xB0, 0xB1, 0xB3 and 0xBB of the sensor's unit follow WARN, HIGH, LOW and a bad sensor; a reading above 120
degC after one that was not is counted (the second trips, below); a failed conversion marks the sensor bad and keeps the reading (R550,
R551). The thermal trip: a second consecutive reading above 120 degC asserts source 0x03, the fixed L1 reset: bring-up returns to P1, the
reading is the cause's detail, kind 0xB2 waits for P7 and the pins show the alarm state (R551). RAIL_SAMPLE (an under- or overvoltage of
three consecutive samples sets its condition and raises its kind; a masked rail holds none), RO_MEASURE, AGING_MEASURE (conditions 0xB7
and 0xB8), ODOMETER_TICK while the hub is powered (hours, equivalent hours, the two stored copies every hour, kinds 0xB9 and 0xBA as
LIFE_USED crosses 80 % and 100 %): the monitors' registers and conditions (R552 to R555, R569). -/
def Obligations.HealthMonitors : Prop :=
  (∀ (k : Fin 24) (r : Int) (s : State), hubUp s = true →
    (r ≤ 1920 ∨ (tempOf s k.val).hot = 0 → ∃ t, exec (.tempConversion k r false) s = .next t ∧
      (tempOf t k.val).reading = r ∧ (tempOf t k.val).hot = (if 1920 < r then 1 else 0) ∧ (tempOf t k.val).seen = true ∧
      ((tempOf t k.val).bad = true ↔ r < -880 ∨ 2400 < r) ∧
      ((tempOf t k.val).high = true ↔ sfld (inF s (baseMON + 0x80 + 4 * k.val)) 16 16 < r ∨
        (sfld (inF s (baseMON + 0x80 + 4 * k.val)) 16 16 < r + 32 ∧ (tempOf s k.val).high = true)) ∧
      ((tempOf t k.val).warn = true ↔ sfld (inF s (baseMON + 0x80 + 4 * k.val)) 0 16 < r ∨
        (sfld (inF s (baseMON + 0x80 + 4 * k.val)) 0 16 < r + 32 ∧ (tempOf s k.val).warn = true)) ∧
      ((tempOf t k.val).low = true ↔ r < sfld (inF s (baseMON + 0xE0)) 0 16 ∨
        (r < sfld (inF s (baseMON + 0xE0)) 0 16 + 32 ∧ (tempOf s k.val).low = true)) ∧
      condOf t (tempUnit k.val) 0xB0 k.val = (tempOf t k.val).warn ∧ condOf t (tempUnit k.val) 0xB1 k.val = (tempOf t k.val).high ∧
      condOf t (tempUnit k.val) 0xB3 k.val = (tempOf t k.val).low ∧ condOf t (tempUnit k.val) 0xBB k.val = (tempOf t k.val).bad ∧
      (∀ j, j ≠ k.val → tempOf t j = tempOf s j) ∧ { t with mon := s.mon, flt := s.flt, fm := s.fm } = s) ∧
    (∃ t, exec (.tempConversion k r true) s = .next t ∧
      tempOf t k.val = { tempOf s k.val with bad := true, seen := true } ∧
      condOf t (tempUnit k.val) 0xBB k.val = true ∧
      (condOf s (tempUnit k.val) 0xBB k.val = false → Raised qMON (tempUnit k.val) 0xBB (k.val * 2 ^ 16) s t) ∧
      (∀ j, j ≠ k.val → tempOf t j = tempOf s j) ∧ { t with mon := s.mon, flt := s.flt, fm := s.fm } = s)) ∧
  (∀ (k : Fin 24) (r : Int) (s : State), hubUp s = true → 1920 < r → 1 ≤ (tempOf s k.val).hot →
    ∃ t, exec (.tempConversion k r false) s = .next t ∧
      t.rst.causeSrc = 3 ∧ t.rst.causeLevel = 1 ∧ t.rst.causeDetail = k.val * 2 ^ 16 + unsig 16 r ∧
      t.rst.phase = 1 ∧ t.rst.wait = true ∧ t.flt.alarm = true ∧
      t.flt.heldBack = s.flt.heldBack ++ [(0x614, 0xB2, k.val * 2 ^ 16 + unsig 16 r)] ∧
      t.sec.burned = s.sec.burned ∧ t.slots.active = s.slots.active ∧ t.maps = s.maps) ∧
  ((∀ (r : Fin 32) (mv : Nat) (s : State), hubUp s = true →
    ∃ t, exec (.railSample r mv) s = .next t ∧ (railOf t r.val).mv = mv ∧
      (railMasked s r.val = true → railOf t r.val = { railOf s r.val with mv, uv := false, ov := false, uvRun := 0, ovRun := 0 } ∧
        condOf t (railUnit r.val) 0xB4 r.val = false ∧ condOf t (railUnit r.val) 0xB5 r.val = false ∧ queueOf t qMON = queueOf s qMON) ∧
      (railMasked s r.val = false →
        ((railOf t r.val).uv = true ↔
          railNom r.val * fld (inF s (baseMON + 0x180 + 4 * r.val)) 0 8 < (railNom r.val - mv) * 1000 ∧
            ((railOf s r.val).uv = true ∨ 2 ≤ (railOf s r.val).uvRun)) ∧
        ((railOf t r.val).ov = true ↔
          railNom r.val * fld (inF s (baseMON + 0x180 + 4 * r.val)) 8 8 < (mv - railNom r.val) * 1000 ∧
            ((railOf s r.val).ov = true ∨ 2 ≤ (railOf s r.val).ovRun)) ∧
        (railOf t r.val).uvRun = (if railNom r.val * fld (inF s (baseMON + 0x180 + 4 * r.val)) 0 8 < (railNom r.val - mv) * 1000
          then min 3 ((railOf s r.val).uvRun + 1) else 0) ∧
        (railOf t r.val).ovRun = (if railNom r.val * fld (inF s (baseMON + 0x180 + 4 * r.val)) 8 8 < (mv - railNom r.val) * 1000
          then min 3 ((railOf s r.val).ovRun + 1) else 0) ∧
        condOf t (railUnit r.val) 0xB4 r.val = (railOf t r.val).uv ∧ condOf t (railUnit r.val) 0xB5 r.val = (railOf t r.val).ov ∧
        ((railOf t r.val).uv = true → condOf s (railUnit r.val) 0xB4 r.val = false →
          Raised qMON (railUnit r.val) 0xB4 (r.val * 2 ^ 16 + mv % 65536) s t) ∧
        ((railOf t r.val).ov = true → condOf s (railUnit r.val) 0xB5 r.val = false →
          Raised qMON (railUnit r.val) 0xB5 (r.val * 2 ^ 16 + mv % 65536) s t)) ∧
      (∀ j, j ≠ r.val → railOf t j = railOf s j) ∧ { t with mon := s.mon, flt := s.flt, fm := s.fm } = s) ∧
  (∀ (k : Fin 16) (fr : Nat) (dev : Int) (s : State), hubUp s = true →
    ∃ t, exec (.roMeasure k fr dev) s = .next t ∧
      Tbl.get (constD {}) t.mon.ro k.val = { freq := fr, dev } ∧
      (fld (inF s (baseMON + 0x2C0)) 0 8 * 100 < dev.natAbs → Raised qMON 0x614 0xB6 (k.val * 2 ^ 16 + unsig 16 dev) s t) ∧
      (dev.natAbs ≤ fld (inF s (baseMON + 0x2C0)) 0 8 * 100 → t.flt = s.flt) ∧
      { t with mon := s.mon, flt := s.flt, fm := s.fm } = s) ∧
  (∀ (k : Fin 8) (margin : Nat) (s : State), hubUp s = true →
    ∃ t, exec (.agingMeasure k margin) s = .next t ∧
      (Tbl.get (constD {}) t.mon.age k.val).nowPs = margin ∧
      ((Tbl.get (constD {}) t.mon.age k.val).warn = true ↔ margin < fld (inF s (baseMON + 0x320)) 0 16 ∨
        (margin < fld (inF s (baseMON + 0x320)) 0 16 + 5 ∧ (Tbl.get (constD {}) s.mon.age k.val).warn = true)) ∧
      ((Tbl.get (constD {}) t.mon.age k.val).crit = true ↔ margin < fld (inF s (baseMON + 0x320)) 16 16 ∨
        (margin < fld (inF s (baseMON + 0x320)) 16 16 + 5 ∧ (Tbl.get (constD {}) s.mon.age k.val).crit = true)) ∧
      condOf t 0x614 0xB7 k.val = (Tbl.get (constD {}) t.mon.age k.val).warn ∧
      condOf t 0x614 0xB8 k.val = (Tbl.get (constD {}) t.mon.age k.val).crit ∧
      { t with mon := s.mon, flt := s.flt, fm := s.fm } = s) ∧
  (∀ s : State, s.clk.pwrReq = true →
    ∃ t, exec .odometerTick s = .next t ∧ t.mon.lifeOn = s.mon.lifeOn + 1 ∧
      (tempMax s = none → t.mon.lifeEq = s.mon.lifeEq ∧ t.mon.lifeHot = s.mon.lifeHot ∧ t.mon.lifePeak = s.mon.lifePeak) ∧
      (∀ k r, tempMax s = some (k, r) → t.mon.lifeEq = s.mon.lifeEq + lifeFactor r ∧
        t.mon.lifeHot = (if 1760 < r then s.mon.lifeHot + 1 else s.mon.lifeHot) ∧ t.mon.lifePeak = max s.mon.lifePeak r) ∧
      (s.mon.lifeSaved + 3600 ≤ s.mon.lifeOn + 1 →
        t.mon.lifeSaved = t.mon.lifeOn ∧ t.mon.savedA = some (lifeCopy t.mon) ∧ t.mon.savedB = some (lifeCopy t.mon)) ∧
      (s.mon.lifeOn + 1 < s.mon.lifeSaved + 3600 → t.mon.lifeSaved = s.mon.lifeSaved ∧ t.mon.savedA = s.mon.savedA ∧ t.mon.savedB = s.mon.savedB) ∧
      (lifeUsed s.mon < 800 → 800 ≤ lifeUsed t.mon → lifeUsed t.mon < 1000 → Raised qMON 0x614 0xB9 (lifeUsed t.mon) s t) ∧
      (800 ≤ lifeUsed s.mon → lifeUsed s.mon < 1000 → 1000 ≤ lifeUsed t.mon → Raised qMON 0x614 0xBA (lifeUsed t.mon) s t) ∧
      ((lifeUsed s.mon < 800 ↔ lifeUsed t.mon < 800) → (lifeUsed s.mon < 1000 ↔ lifeUsed t.mon < 1000) → t.flt = s.flt) ∧
      { t with mon := s.mon, flt := s.flt, fm := s.fm } = s))

/-- A PLL that loses lock: LOCK clears, the samples of PLLs 1 to 11 are marked in signal fault, kind 0x07 names it; LOCK sets again and
the marks end when it locks, the modulator's once aligned, and a slice whose release waited for it calibrates with its units DORMANT
(R577, R607, R608). A modulator that locks unaligned has a free phase error above 2 ns: log 1. -/
def Obligations.PllRules : Prop :=
  (∀ (p : Fin 15) (s : State), pllLocked s p.val = true →
    ∃ t, exec (.pllLockLost p) s = .next t ∧ pllLocked t p.val = false ∧
      (∀ q, q ≠ p.val → pllLocked t q = pllLocked s q) ∧
      (1 ≤ p.val → p.val ≤ 11 → t.clk.lost.getLsbD (p.val - 1) = true) ∧
      (p.val = 2 → t.clk.modAligned = false) ∧
      (hubUp s = true → Raised qCLK 0x612 0x07 p.val s t) ∧
      { t with clk := s.clk, flt := s.flt, fm := s.fm } = s) ∧
  (∀ (p : Fin 15) (s : State), pllLocked s p.val = false → exec (.pllLockLost p) s = .next s) ∧
  (∀ (al : Bool) (s : State), exec (.pllLock 0 al) s = .next s) ∧
  (∀ s : State, ∃ t, exec (.pllLock 2 false) s = .next t ∧ t.clk.modLock = true ∧ t.clk.modAligned = false ∧ 2000 < t.clk.modErr ∧
    t.clk.lost = s.clk.lost ∧ t.rst = s.rst ∧ { t with clk := s.clk, rst := s.rst, flt := s.flt, fm := s.fm, freeCtr := s.freeCtr } = s) ∧
  (∀ (p : Fin 15) (al : Bool) (s : State), 1 ≤ p.val → p.val ≠ 2 →
    ∃ t, exec (.pllLock p al) s = .next t ∧ pllLocked t p.val = true ∧
      (∀ q, q ≠ p.val → pllLocked t q = pllLocked s q) ∧
      (p.val ≤ 11 → t.clk.lost.getLsbD (p.val - 1) = false) ∧ t.rst.pendingClock.getLsbD (p.val - 1) = false ∧
      (p.val < 4 ∨ 11 < p.val ∨ s.rst.pendingClock.getLsbD (p.val - 1) = false → { t with clk := s.clk, rst := s.rst } = s) ∧
      (4 ≤ p.val → p.val ≤ 11 → s.rst.pendingClock.getLsbD (p.val - 1) = true → t.rst.calib.getLsbD (p.val - 4) = true ∧
        ∀ u, sliceOfUnit u = some (p.val - 4) → isTineId u = true → stOf t u = .dormant)) ∧
  (∀ s : State, ∃ t, exec (.pllLock 2 true) s = .next t ∧
    t.clk.modLock = true ∧ t.clk.modAligned = true ∧ t.clk.modErr = 0 ∧ t.clk.lost.getLsbD 1 = false ∧
    t.rst.pendingClock.getLsbD 1 = false ∧ { t with clk := s.clk, rst := s.rst } = s)

/-- REFCLK lost: holdover and kind 0x09; its return ends the holdover; 1 ms of absence unlocks every PLL that it feeds, the endpoint's
excepted (R578). The source unit and the message at the return are the model's reading, logs 24 and 19. The fawn time base: the RC
oscillator is trimmed while the crystal runs; a crystal failure is noted once, with kind 0x0B raised or held back until P7; its recovery
clears the note (R572, R573). -/
def Obligations.ReferenceClocks : Prop :=
  ((∀ s : State, ∃ t, exec .refclkLost s = .next t ∧ t.clk = { s.clk with refOk := false, refHold := true } ∧
    (hubUp s = true → Raised qCLK 0x612 0x09 0 s t) ∧ (hubUp s = false → t.flt = s.flt) ∧
    { t with clk := s.clk, flt := s.flt, fm := s.fm } = s) ∧
  (∀ s : State, ∃ t, exec .refclkReturn s = .next t ∧ t.clk = { s.clk with refOk := true, refHold := false } ∧
    (hubUp s = true → s.clk.refHold = true → Raised qCLK 0x612 0x09 1 s t) ∧ (s.clk.refHold = false → t.flt = s.flt) ∧
    { t with clk := s.clk, flt := s.flt, fm := s.fm } = s) ∧
  (∀ s : State, s.clk.refHold = true → ∃ t, exec .refclkHoldoverExpiry s = .next t ∧ t.clk.refHold = false ∧
    (∀ p, 1 ≤ p → p ≤ 13 → pllLocked t p = false) ∧ t.clk.pcieLock = s.clk.pcieLock ∧
    { t with clk := s.clk, flt := s.flt, fm := s.fm } = s) ∧
  (∀ s : State, s.clk.refHold = false → exec .refclkHoldoverExpiry s = .next s)) ∧
  ((∀ (w : BitVec 16) (s : State),
    (s.clk.xtalFail = false → exec (.rcTrim w) s = .next { s with clk := { s.clk with rcTrim := w.toNat, rcTrimmed := true } }) ∧
    (s.clk.xtalFail = true → exec (.rcTrim w) s = .next s)) ∧
  (∀ s : State,
    (s.clk.xtalFail = true → exec .xtalFail s = .next s) ∧
    (s.clk.xtalFail = false → ∃ t, exec .xtalFail s = .next t ∧ t.clk = { s.clk with xtalFail := true } ∧
      (deviceUp s = true → Raised qCLK 0x612 0x0B s.clk.rcTrim s t) ∧
      (deviceUp s = false → t.flt = { s.flt with heldBack := s.flt.heldBack ++ [(0x612, 0x0B, s.clk.rcTrim)] }) ∧
      { t with clk := s.clk, flt := s.flt, fm := s.fm } = s)) ∧
  (∀ s : State, exec .xtalRecover s = .next { s with clk := { s.clk with xtalFail := false } }))

/-- A level request: accepted for the greater of its target and the first frame whose cut-off has not passed; refused as busy while one is
pending, as too far beyond the limit, and ASLEEP while RUNNING as no such transition (R581). RUNNING accepted in DOZING begins the wake.
The wake of the slices ends in readiness or after 5 ms in kind 0x0A; PWR_REQ falls with the level ASLEEP and source 0x05 asserted; an
enabled wake source in ASLEEP raises PWR_REQ and is recorded, and before PWR_REQ has fallen it ends the request (R579, R581 to R583,
R593); with no wake, no fall or no enabled source due the commands do nothing. -/
def Obligations.ActivityLevels : Prop :=
  (∀ (s : State) (nx : Bool), deviceUp s = true →
    (s.clk.pend.isSome = true →
      (∃ t, exec (.actReqRunning nx) s = .next t ∧ t.clk = { s.clk with result := 4 } ∧ Raised qCLK 0x612 0x0A 4 s t) ∧
      (∃ t, exec (.actReqDozing nx) s = .next t ∧ t.clk = { s.clk with result := 4 } ∧ Raised qCLK 0x612 0x0A 4 s t) ∧
      (∃ t, exec (.actReqAsleep nx) s = .next t ∧ t.clk = { s.clk with result := 4 } ∧ Raised qCLK 0x612 0x0A 4 s t)) ∧
    (s.clk.pend = none → ∀ want, want = (if nx = true then s.time.openFrame else rw64 s (baseCLK + 8)) → want ≤ farLimit s →
      (∃ t, exec (.actReqRunning nx) s = .next t ∧ t.clk = { s.clk with
          pend := some { level := 2, target := max want s.time.openFrame, late := decide (want < s.time.openFrame) }
          seq := (s.clk.seq + 1) % 65536, result := 1, pendingLevel := 2, actFrame := max want s.time.openFrame
          waking := decide (s.clk.level = 1), slicesReady := none } ∧
        (s.clk.level ≠ 1 → t.mon = s.mon) ∧ { t with clk := s.clk, mon := s.mon } = s) ∧
      (exec (.actReqDozing nx) s = .next { s with clk := { s.clk with
          pend := some { level := 1, target := max want s.time.openFrame, late := decide (want < s.time.openFrame) }
          seq := (s.clk.seq + 1) % 65536, result := 1, pendingLevel := 1, actFrame := max want s.time.openFrame
          waking := false, slicesReady := none } }) ∧
      (s.clk.level ≠ 2 → exec (.actReqAsleep nx) s = .next { s with clk := { s.clk with
          pend := some { level := 0, target := max want s.time.openFrame, late := decide (want < s.time.openFrame) }
          seq := (s.clk.seq + 1) % 65536, result := 1, pendingLevel := 0, actFrame := max want s.time.openFrame
          waking := false, slicesReady := none } }) ∧
      (s.clk.level = 2 → ∃ t, exec (.actReqAsleep nx) s = .next t ∧ t.clk = { s.clk with result := 7 } ∧ Raised qCLK 0x612 0x0A 7 s t)) ∧
    (s.clk.pend = none → farLimit s < (if nx = true then s.time.openFrame else rw64 s (baseCLK + 8)) →
      (∃ t, exec (.actReqRunning nx) s = .next t ∧ t.clk = { s.clk with result := 8 } ∧ Raised qCLK 0x612 0x0A 8 s t) ∧
      (∃ t, exec (.actReqDozing nx) s = .next t ∧ t.clk = { s.clk with result := 8 } ∧ Raised qCLK 0x612 0x0A 8 s t) ∧
      (s.clk.level ≠ 2 → ∃ t, exec (.actReqAsleep nx) s = .next t ∧ t.clk = { s.clk with result := 8 } ∧ Raised qCLK 0x612 0x0A 8 s t))) ∧
  ((∀ s : State, s.clk.waking = true → exec .wakeReady s = .next { s with clk := { s.clk with
    waking := false, slicesReady := some s.time.openFrame, sliceOn := 0xFF, sliceLock := 0xFF, lost := s.clk.lost &&& 7 } }) ∧
  (∀ s : State, s.clk.waking = true → ∃ t, exec .wakeTimeout s = .next t ∧
    t.clk = { s.clk with pend := none, result := 9, waking := false, slicesReady := none } ∧ Raised qCLK 0x612 0x0A 9 s t) ∧
  (∀ s : State, s.clk.toSleep = true → 1 ≤ s.rst.phase → ∃ t, exec .pwrReqFall s = .next t ∧
    t.clk.level = 0 ∧ t.clk.pwrReq = false ∧ t.clk.pend = none ∧ t.clk.toSleep = false ∧
    t.rst.causeSrc = 5 ∧ t.rst.causeLevel = 1 ∧ t.rst.phase = 1 ∧ t.flt.alarm = true ∧ t.outbox.getLast? = some (.pwrReq false) ∧
    t.slots.active = s.slots.active ∧ t.maps = s.maps ∧ t.keep = s.keep) ∧
  (∀ (w : WakeSrc) (s : State), wakeEnabled w s = true →
    (s.clk.toSleep = false → s.clk.level = 0 → s.clk.pwrReq = false → ∃ t, exec (.wakeSource w) s = .next t ∧
      t.clk.pwrReq = true ∧ t.clk.level = 2 ∧ t.clk.wakeCause = wakeCode w ∧ t.outbox = s.outbox ++ [.pwrReq true] ∧
      { t with clk := s.clk, mon := s.mon, outbox := s.outbox } = s) ∧
    (s.clk.toSleep = true → exec (.wakeSource w) s = .next { s with clk := { s.clk with
      pend := none, result := 0xA, waking := false, slicesReady := none, toSleep := false } }) ∧
    (s.clk.toSleep = false → s.clk.level ≠ 0 ∨ s.clk.pwrReq = true → exec (.wakeSource w) s = .next s)) ∧
  (∀ (w : WakeSrc) (s : State), wakeEnabled w s = false → exec (.wakeSource w) s = .next s) ∧
  (∀ s : State, s.clk.waking = false → exec .wakeReady s = .next s ∧ exec .wakeTimeout s = .next s) ∧
  (∀ s : State, s.clk.toSleep = false → exec .pwrReqFall s = .next s))

/-- CARRIER_CYCLE_START on the carrier grid: a group that is neither tripped nor handed over drives where it is owned, with a ramp cycle,
a continuous one, or one of its burst or of the gap; a group that does not operate is off (R79, R80, R82, R85, R86, R97); at a handover
the cycle is not valid, or of the gap (R90); the windows in force are the cycle's (R103); a running tone check counts the period (R117,
R130). Off the grid, and in a slice that does not run, it does nothing. HANDOVER_DRIVE_START makes the new owner drive where the group
operates (R90). Of the state only the group changes. BURST_START begins a burst of the governor's length with the amplitude in force,
after the loop's update by the previous burst's mean where the loop is on, or merges with one that still runs and keeps its amplitude;
BURST_END ends a burst with which no later one has merged, and the continuous drive before the first burst; where none is due neither does
anything (R80, R81, R86, R88, R97, R98, R103). -/
def Obligations.DriveCycles : Prop :=
  ((∀ (g : Fin 64) (i : Nat) (s : State), sliceRuns s (g.val / 8) = true →
    (i + groupM s g.val - groupPhase s g.val) % groupM s g.val = 0 →
    ∃ t, exec (.carrierCycleStart g i) s = .next t ∧
      (groupOn s g.val = false ∨ (xgOf s g.val).tripped = true →
        (xgOf t g.val).cyc = .off ∧ (xgOf t g.val).driving = false ∧ (xgOf t g.val).xen = false) ∧
      (groupOn s g.val = true → (xgOf s g.val).tripped = false → (xgOf s g.val).handover = none →
        (xgOf t g.val).driving = (xgOf s g.val).owner ∧ (xgOf t g.val).xen = (xgOf s g.val).owner ∧
        (stOf s (0x4C0 + g.val) = .preparing → (xgOf s g.val).rampCycle < 16 →
          (xgOf t g.val).cyc = .ramp ∧ (xgOf t g.val).rampCycle = (xgOf s g.val).rampCycle + 1) ∧
        (stOf s (0x4C0 + g.val) = .preparing → 16 ≤ (xgOf s g.val).rampCycle →
          (xgOf t g.val).cyc = .valid ∧ (xgOf t g.val).applied = amplNow s g.val (xgOf s g.val)) ∧
        (stOf s (0x4C0 + g.val) ≠ .preparing → burstMode s g.val = false → waitsCont (xgOf s g.val) i = false →
          (xgOf t g.val).cyc = (if (xgOf s g.val).cyc = .gapFirst ∨ (xgOf s g.val).cyc = .gap then .invalid else .valid) ∧
          (xgOf t g.val).applied = amplNow s g.val (xgOf s g.val)) ∧
        (stOf s (0x4C0 + g.val) ≠ .preparing → burstMode s g.val = false → waitsCont (xgOf s g.val) i = true → (xgOf t g.val).cyc = .gap) ∧
        (stOf s (0x4C0 + g.val) ≠ .preparing → burstMode s g.val = true → (xgOf s g.val).preBurst = true → (xgOf t g.val).cyc = .valid) ∧
        (stOf s (0x4C0 + g.val) ≠ .preparing → burstMode s g.val = true → (xgOf s g.val).preBurst = false → 0 < (xgOf s g.val).burstLeft →
          (xgOf t g.val).cyc = (if (xgOf s g.val).burstLeft = (xgOf s g.val).burstLen then .settle else .valid) ∧
          (xgOf t g.val).burstLeft = (xgOf s g.val).burstLeft - 1 ∧ (xgOf t g.val).applied = (xgOf s g.val).applied) ∧
        (stOf s (0x4C0 + g.val) ≠ .preparing → burstMode s g.val = true → (xgOf s g.val).preBurst = false → (xgOf s g.val).burstLeft = 0 →
          (xgOf t g.val).cyc = (if (xgOf s g.val).cyc = .gapFirst ∨ (xgOf s g.val).cyc = .gap then .gap else .gapFirst))) ∧
      (groupOn s g.val = true → (xgOf s g.val).tripped = false → (xgOf s g.val).handover = some false →
        (xgOf t g.val).driving = false ∧ (xgOf t g.val).xen = false ∧ (xgOf t g.val).handover = none ∧
        (burstMode s g.val = false ∧ waitsCont (xgOf s g.val) i = false ∨ stOf s (0x4C0 + g.val) = .preparing → (xgOf t g.val).cyc = .invalid)) ∧
      (groupOn s g.val = true → (xgOf s g.val).tripped = false → (xgOf s g.val).handover = some true →
        (xgOf t g.val).driving = false ∧ (xgOf t g.val).driveNext = true ∧ (xgOf t g.val).handover = none ∧
        (burstMode s g.val = false ∧ waitsCont (xgOf s g.val) i = false ∨ stOf s (0x4C0 + g.val) = .preparing → (xgOf t g.val).cyc = .invalid)) ∧
      (xgOf t g.val).winV = xgReg s g.val 0x10 ∧ (xgOf t g.val).winI = xgReg s g.val 0x14 ∧ (xgOf t g.val).winP = xgReg s g.val 0x18 ∧
      (xgOf t g.val).cycFrame = frame64 s % 65536 ∧
      (∀ r, (toneOf s g.val).run = some r → (toneOf t g.val).run = some { r with
        began := true, periods := if r.began = true then r.periods + (if toneCounts s g.val = true then 1 else 0) else 0
        from_ := if r.began = true then r.from_ else i }) ∧
      (∀ k, k ≠ g.val → xgOf t k = xgOf s k ∧ toneOf t k = toneOf s k) ∧ { t with xg := s.xg, tone := s.tone } = s) ∧
  (∀ (g : Fin 64) (i : Nat) (s : State),
    sliceRuns s (g.val / 8) = false ∨ (i + groupM s g.val - groupPhase s g.val) % groupM s g.val ≠ 0 → exec (.carrierCycleStart g i) s = .next s) ∧
  (∀ (g : Fin 64) (s : State), sliceRuns s (g.val / 8) = false → exec (.handoverDriveStart g) s = .next s) ∧
  (∀ (g : Fin 64) (s : State), sliceRuns s (g.val / 8) = true → (xgOf s g.val).driveNext = true →
    ∃ t, exec (.handoverDriveStart g) s = .next t ∧
      xgOf t g.val = countDrive ((xgOf s g.val).cycAt + 3125)
        { xgOf s g.val with
          driveNext := false
          driving := (xgOf s g.val).owner && groupOn s g.val && !(xgOf s g.val).tripped
          xen := (xgOf s g.val).owner && groupOn s g.val && !(xgOf s g.val).tripped } ∧
      (∀ k, k ≠ g.val → xgOf t k = xgOf s k) ∧ { t with xg := s.xg } = s)) ∧
  ((∀ (g : Fin 64) (n : Nat) (s : State), sliceRuns s (g.val / 8) = true → burstDue s g.val n = true →
    ((xgOf s g.val).burstLeft = 0 →
      ∃ t, exec (.burstStart g n) s = .next t ∧
        (xgOf t g.val).burstLeft = burstLength s g.val n ∧ (xgOf t g.val).burstLen = burstLength s g.val n ∧
        (xgOf t g.val).burstFrame = n ∧ (xgOf t g.val).preBurst = false ∧ (xgOf t g.val).burstSum = 0 ∧ (xgOf t g.val).burstCount = 0 ∧
        (bitAt (xgReg s g.val 0) 4 = false ∨ (xgOf s g.val).burstCount = 0 →
          (xgOf t g.val).applied = amplNow s g.val (xgOf s g.val) ∧ { t with xg := s.xg } = s) ∧
        (bitAt (xgReg s g.val 0) 4 = true → 0 < (xgOf s g.val).burstCount →
          (xgOf t g.val).applied =
            min (loopStep s g.val (burstMean (xgOf s g.val)) (xgOf s g.val).applied) (fld (xgReg s g.val 4) 0 16)) ∧
        (∀ k, k ≠ g.val → xgOf t k = xgOf s k) ∧ { t with xg := s.xg, flt := s.flt, fm := s.fm } = s) ∧
    (0 < (xgOf s g.val).burstLeft → ∃ t, exec (.burstStart g n) s = .next t ∧
      xgOf t g.val = { xgOf s g.val with
        burstLen := (xgOf s g.val).burstLen - (xgOf s g.val).burstLeft + burstLength s g.val n
        burstLeft := burstLength s g.val n
        burstFrame := n
        preBurst := false } ∧
      (∀ k, k ≠ g.val → xgOf t k = xgOf s k) ∧ { t with xg := s.xg } = s)) ∧
  (∀ (g : Fin 64) (n : Nat) (s : State), sliceRuns s (g.val / 8) = true → burstMode s g.val = true → groupOn s g.val = true →
    ((match (xgOf s g.val).burstFrom with | some f => f ≤ n + 1 | none => True) → (xgOf s g.val).burstFrame ≤ n →
      ∃ t, exec (.burstEnd g n) s = .next t ∧
        xgOf t g.val = { xgOf s g.val with
          burstLeft := 0, preBurst := if (xgOf s g.val).burstFrom.isSome = true then false else (xgOf s g.val).preBurst } ∧
        (∀ k, k ≠ g.val → xgOf t k = xgOf s k) ∧ { t with xg := s.xg } = s) ∧
    (n < (xgOf s g.val).burstFrame ∨ (∃ f, (xgOf s g.val).burstFrom = some f ∧ n + 1 < f) → ∃ t, exec (.burstEnd g n) s = .next t ∧
      (∀ k, xgOf t k = xgOf s k) ∧ { t with xg := s.xg } = s)) ∧
  (∀ (g : Fin 64) (n : Nat) (s : State), sliceRuns s (g.val / 8) = false ∨ burstDue s g.val n = false → exec (.burstStart g n) s = .next s) ∧
  (∀ (g : Fin 64) (n : Nat) (s : State), sliceRuns s (g.val / 8) = false ∨ burstMode s g.val = false ∨ groupOn s g.val = false →
    exec (.burstEnd g n) s = .next s))

/-- SENSE_CYCLE of a ramp cycle records the three measurements, the phase as an s8; of a valid cycle it records them and compares them
with the windows in force at the cycle's start: flags, runs, the conditions 0x20 to 0x24, where the current's condition needs no run; a
current above IHI trips an owned group: the drive stops, TRIPPED and the count show it; else the amplitude loop of continuous drive takes
its step. A gap cycle after the first is compared with a quarter of VLO, condition 0x26. Any other cycle, a group that does not operate
and a slice that does not run: nothing (R77, R81, R91, R92, R96, R103). -/
def Obligations.SenseRules : Prop :=
  (∀ (g : Fin 64) (v i : Nat) (ph : Int) (s : State), sliceRuns s (g.val / 8) = false ∨ groupOn s g.val = false →
    exec (.senseCycle g v i ph) s = .next s) ∧
  ∀ (g : Fin 64) (v i : Nat) (ph : Int) (s : State), sliceRuns s (g.val / 8) = true → groupOn s g.val = true →
    ((xgOf s g.val).cyc = .off ∨ (xgOf s g.val).cyc = .settle ∨ (xgOf s g.val).cyc = .invalid ∨ (xgOf s g.val).cyc = .gapFirst →
      exec (.senseCycle g v i ph) s = .next s) ∧
    ((xgOf s g.val).cyc = .gap → ∃ t, exec (.senseCycle g v i ph) s = .next t ∧
      xgOf t g.val = { xgOf s g.val with
        gapRun := if fld (xgOf s g.val).winV 0 16 < 4 * v then min (senseCount s g.val) ((xgOf s g.val).gapRun + 1) else 0
        driveGap := decide (fld (xgOf s g.val).winV 0 16 < 4 * v ∧ senseCount s g.val ≤ (xgOf s g.val).gapRun + 1) } ∧
      condOf t (0x4C0 + g.val) 0x26 0 = (xgOf t g.val).driveGap ∧
      (∀ k, k ≠ g.val → xgOf t k = xgOf s k) ∧ { t with xg := s.xg, flt := s.flt, fm := s.fm } = s) ∧
    ((xgOf s g.val).cyc = .ramp → ∃ t, exec (.senseCycle g v i ph) s = .next t ∧
      xgOf t g.val = { xgOf s g.val with v, i, ph := signed 8 (unsig 8 ph), measFrame := (xgOf s g.val).cycFrame } ∧
      (∀ k, k ≠ g.val → xgOf t k = xgOf s k) ∧ { t with xg := s.xg } = s) ∧
    ((xgOf s g.val).cyc = .valid → ∃ t, exec (.senseCycle g v i ph) s = .next t ∧
      (xgOf t g.val).v = v ∧ (xgOf t g.val).i = i ∧ (xgOf t g.val).ph = signed 8 (unsig 8 ph) ∧
      (xgOf t g.val).measFrame = (xgOf s g.val).cycFrame ∧
      (xgOf t g.val).phFail = !phaseOk (xgOf s g.val).winP (signed 8 (unsig 8 ph)) ∧
      (xgOf t g.val).vLoRun = (if (xgOf t g.val).vLow = true then min (senseCount s g.val) ((xgOf s g.val).vLoRun + 1) else 0) ∧
      (xgOf t g.val).vHiRun = (if (xgOf t g.val).vHigh = true then min (senseCount s g.val) ((xgOf s g.val).vHiRun + 1) else 0) ∧
      (xgOf t g.val).iLoRun = (if (xgOf t g.val).iLow = true then min (senseCount s g.val) ((xgOf s g.val).iLoRun + 1) else 0) ∧
      (xgOf t g.val).phRun = (if (xgOf t g.val).phFail = true then min (senseCount s g.val) ((xgOf s g.val).phRun + 1) else 0) ∧
      condOf t (0x4C0 + g.val) 0x20 0 = ((xgOf t g.val).vLow && (xgOf t g.val).vLoRun == senseCount s g.val) ∧
      condOf t (0x4C0 + g.val) 0x21 0 = ((xgOf t g.val).vHigh && (xgOf t g.val).vHiRun == senseCount s g.val) ∧
      condOf t (0x4C0 + g.val) 0x22 0 = ((xgOf t g.val).iLow && (xgOf t g.val).iLoRun == senseCount s g.val) ∧
      condOf t (0x4C0 + g.val) 0x23 0 = (xgOf t g.val).iHigh ∧
      condOf t (0x4C0 + g.val) 0x24 0 = ((xgOf t g.val).phFail && (xgOf t g.val).phRun == senseCount s g.val) ∧
      (xgOf t g.val).vLow = decide (v < fld (xgOf s g.val).winV 0 16) ∧
      (xgOf t g.val).vHigh = decide (fld (xgOf s g.val).winV 16 16 < v) ∧
      (xgOf t g.val).iLow = decide (i < fld (xgOf s g.val).winI 0 16) ∧
      (xgOf t g.val).iHigh = decide (fld (xgOf s g.val).winI 16 16 < i) ∧
      (fld (xgOf s g.val).winI 16 16 < i → (xgOf s g.val).owner = true →
        (xgOf t g.val).tripped = true ∧ (xgOf t g.val).driving = false ∧ (xgOf t g.val).xen = false ∧
        (xgOf t g.val).trips = satInc 16 (xgOf s g.val).trips) ∧
      (i ≤ fld (xgOf s g.val).winI 16 16 ∨ (xgOf s g.val).owner = false →
        (xgOf t g.val).tripped = (xgOf s g.val).tripped ∧ (xgOf t g.val).driving = (xgOf s g.val).driving ∧
        (bitAt (xgReg s g.val 0) 4 = true → (xgOf s g.val).tripped = false → burstMode s g.val = false →
          (xgOf t g.val).applied = loopStep s g.val v (xgOf s g.val).applied)) ∧
      (bitAt (xgReg s g.val 0) 4 = false → (xgOf t g.val).applied = (xgOf s g.val).applied) ∧
      (∀ k, k ≠ g.val → xgOf t k = xgOf s k) ∧ { t with xg := s.xg, flt := s.flt, fm := s.fm, units := s.units } = s)

/-- TT_REQ with START: refused as busy with kind 0x2E while a requested check of this device waits or runs; REFUSED in the mailbox where
the channel cannot be checked; else it joins its group's queue; without START it does nothing but give the time (R121, R122). The other
commands of a check: its second phase once the carrier periods of the first have passed; its completion after those of the second, which
shows what the two phases' correlations give, the command's operands where one took no sample (log 91); its timeout; with no check in
progress they do nothing (R117, R118, R121, R130). Pin bias, wire check and tone (R107, R109, R117, R124, R128): a slice with supply
biases its pins with 50 kOhm, split 100, and carries the wire-check current of 20 or 10 uA where WB_EN asks for it, an L3 reset of the
slice keeps both; without supply, and after an L2 reset of a split bias, the pins are high impedance; only the group's owner injects the
tone, into the pair of the check's phase, from the carrier cycle start at which the phase begins until its periods have passed. -/
def Obligations.ToneChecks : Prop :=
  ((∀ (v : Word) (tm : Nat) (s : State),
    (deviceUp s = false → exec (.ttReq v tm) s = .next s) ∧
    (deviceUp s = true → bitAt v 24 = false → exec (.ttReq v tm) s = .next { s with time := { s.time with now := max s.time.now tm } })) ∧
  (∀ (g : Fin 64) (s : State), (toneOf s g.val).run = none →
    exec (.tonePhaseEnd g) s = .next s ∧ exec (.toneCheckTimeout g) s = .next s ∧
    ∀ (zS zC : Nat) (pS pC : Int) (sc cs : Nat), exec (.toneCheckComplete g zS zC pS pC sc cs) s = .next s) ∧
  (∀ (v : Word) (tm : Nat) (s : State), deviceUp s = true → bitAt v 24 = true →
    (s.toneBox.busy = true → ∃ t, exec (.ttReq v tm) s = .next t ∧ Raised qRIN (fld v 0 9) 0x2E (fld v 0 9) s t ∧ t.toneBox = s.toneBox ∧
      t.tone = s.tone) ∧
    (s.toneBox.busy = false → toneRefused (fld v 0 9) s = true → ∃ t, exec (.ttReq v tm) s = .next t ∧
      t.toneBox.code = 7 ∧ t.toneBox.fresh = true ∧ t.toneBox.seq = (s.toneBox.seq + 1) % 65536 ∧ t.toneBox.chan = fld v 0 9 ∧
      t.tone = s.tone) ∧
    (s.toneBox.busy = false → toneRefused (fld v 0 9) s = false → ∃ t, exec (.ttReq v tm) s = .next t ∧
      t.toneBox = { s.toneBox with busy := true } ∧
      (toneOf t (fld v 0 9 / 8)).queue.length = (toneOf s (fld v 0 9 / 8)).queue.length + 1 ∧
      (∃ r, (toneOf t (fld v 0 9 / 8)).queue.getLast? = some r ∧ r.chan.val = fld v 0 9 ∧ r.mine = true) ∧
      (∀ k, k ≠ fld v 0 9 / 8 → toneOf t k = toneOf s k))) ∧
  (∀ (g : Fin 64) (r : ToneRun) (s : State), (toneOf s g.val).run = some r →
    (r.cosPhase = false → 64 * toneLen s ≤ r.periods → ∃ t, exec (.tonePhaseEnd g) s = .next t ∧
      (toneOf t g.val).run = some { r with cosPhase := true, periods := 0, from_ := (xgOf s g.val).cycAt / 3125 } ∧
      (∀ k, k ≠ g.val → toneOf t k = toneOf s k) ∧ { t with tone := s.tone } = s) ∧
    (r.cosPhase = true ∨ r.periods < 64 * toneLen s → exec (.tonePhaseEnd g) s = .next s) ∧
    (r.cosPhase = false ∨ r.periods < 64 * toneLen s → ∀ (zS zC : Nat) (pS pC : Int) (sc cs : Nat),
      exec (.toneCheckComplete g zS zC pS pC sc cs) s = .next s) ∧
    (r.cosPhase = true → 64 * toneLen s ≤ r.periods → ∀ (zS zC : Nat) (pS pC : Int) (sc cs : Nat), ∃ t, exec (.toneCheckComplete g zS zC pS pC sc cs) s = .next t ∧
      (toneOf t g.val).run = none ∧ (rcOf t r.chan.val).checks = ((rcOf s r.chan.val).checks + 1) % 256 ∧
      fld (rcOf t r.chan.val).zs 0 16 = min (tonePhaseResult (toneAmp s) r.accS zS pS sc).1 65535 ∧
      fld (rcOf t r.chan.val).zs 16 8 = unsig 8 (tonePhaseResult (toneAmp s) r.accS zS pS sc).2.1 ∧
      fld (rcOf t r.chan.val).zc 0 16 = min (tonePhaseResult (toneAmp s) r.accC zC pC cs).1 65535 ∧
      fld (rcOf t r.chan.val).zc 16 8 = unsig 8 (tonePhaseResult (toneAmp s) r.accC zC pC cs).2.1 ∧
      fld (rcOf t r.chan.val).xt 0 16 = min (tonePhaseResult (toneAmp s) r.accS zS pS sc).2.2 65535 ∧
      fld (rcOf t r.chan.val).xt 16 16 = min (tonePhaseResult (toneAmp s) r.accC zC pC cs).2.2 65535 ∧
      (r.requested = true → r.mine = true → t.toneBox.fresh = true ∧ t.toneBox.chan = r.chan.val ∧ t.toneBox.busy = false ∧
        t.toneBox.seq = (s.toneBox.seq + 1) % 65536) ∧
      (r.requested = false → t.toneBox = s.toneBox)) ∧
    (r.start + 65535 ≤ frameN s → ∃ t, exec (.toneCheckTimeout g) s = .next t ∧ (toneOf t g.val).run = none ∧
      (r.requested = true → r.mine = true → t.toneBox.code = 6 ∧ t.toneBox.fresh = true)) ∧
    (frameN s < r.start + 65535 → exec (.toneCheckTimeout g) s = .next s))) ∧
  ((∀ (c : Fin 512) (s : State),
    (s.clk.sliceOn.getLsbD (c.val / 64) = true → s.biasOff = false →
      pinBias s (c.val / 64) = some (if s.biasSplit = true then 100 else 50) ∧
      wireCheck s c.val = (if bitAt (rinReg s c.val 0) 0 = true then (if s.biasSplit = true then 10 else 20) else 0)) ∧
    (s.clk.sliceOn.getLsbD (c.val / 64) = false ∨ s.biasOff = true → pinBias s (c.val / 64) = none ∧ wireCheck s c.val = 0) ∧
    (∀ k, pinBias (sliceReset k s) (c.val / 64) = pinBias s (c.val / 64) ∧ wireCheck (sliceReset k s) c.val = wireCheck s c.val) ∧
    (s.biasSplit = true → pinBias (hubReset s) (c.val / 64) = none) ∧
    (s.biasSplit = false → pinBias (hubReset s) (c.val / 64) = pinBias s (c.val / 64))) ∧
  (∀ (g : Fin 64) (r : ToneRun) (s : State), (toneOf s g.val).run = some r →
    ((xgOf s g.val).owner = true → r.began = true → r.periods < 64 * toneLen s → toneInjected s g.val =
      some (r.chan.val, r.cosPhase, (10000 * toneNum s : Rat) / groupM s g.val, (fld (inF s (baseRIN + 0x8004)) 0 4 + 1) * 250)) ∧
    ((xgOf s g.val).owner = false ∨ r.began = false ∨ 64 * toneLen s ≤ r.periods → toneInjected s g.val = none)) ∧
  (∀ (g : Fin 64) (s : State), (toneOf s g.val).run = none → toneInjected s g.val = none))

/-- CAPTURE_SAMPLE: the instant is counted; every engine that runs has a full set of capture entries to read, which the ledger counts as
128 items produced, and a channel or a sense pair that the step delivers has its output words, which saturate at plus or minus 0x7FFFFF,
as the newest sample (R104, R106, R111, R164). AUX_SLOT gives the first 16 slots of a cycle to the MAIN conversions of the channels that
convert, else open, and the other four to service jobs in turn; a conversion's completion ends the oldest slot's work: a MAIN conversion
with no held value pending and no swap in progress enters the engine's FIFO with its code, a CAL or LEAD conversion enters its channel's
mean of 16; with no slot in progress, and in a slice that does not run, nothing happens (R139 to R142, R148, R164). -/
def Obligations.CaptureAndAux : Prop :=
  ((∀ (i : Nat) (s : State), ∃ t, exec (.captureSample i [] []) s = .next t ∧ t.decim = i ∧
    (∀ e, e < 8 → sliceRuns s e = true → engineRuns s e = true →
      (seOf t e).unread = 0xFFFF ∧ (seOf t e).capture = [] ∧ (seOf t e).captureAt = i) ∧
    (ledOf t 1).produced = (ledOf s 1).produced + 128 * ((List.range 8).filter (fun e => sliceRuns s e && engineRuns s e)).length ∧
    { t with decim := s.decim, se := s.se, flt := s.flt, fm := s.fm, outbox := s.outbox, twn := s.twn } = s) ∧
  (∀ (i : Nat) (x : ChanSample) (s : State), sliceRuns s (x.chan.val / 64) = true →
    ∃ t, exec (.captureSample i [x] []) s = .next t ∧ t.decim = i ∧
      (∃ h, (rcOf t x.chan.val).hist.head? = some h ∧ h.s = satCode x.s ∧ h.c = satCode x.c) ∧
      (∀ c, c ≠ x.chan.val → rcOf t c = rcOf s c) ∧ t.tk = s.tk ∧ t.xg = s.xg ∧ t.units = s.units) ∧
  (∀ (i : Nat) (x : SensePins) (s : State), sliceRuns s (x.group.val / 8) = true →
    ∃ t, exec (.captureSample i [] [x]) s = .next t ∧ t.decim = i ∧
      (∃ h, (rcOf t (512 + x.group.val)).hist.head? = some h ∧ h.s = satCode x.vs ∧ h.c = satCode x.is) ∧
      (∀ c, c ≠ 512 + x.group.val → rcOf t c = rcOf s c) ∧ t.tk = s.tk ∧ t.xg = s.xg ∧ t.units = s.units)) ∧
  ((∀ (e : Fin 8) (j : Nat) (sl : Fin 20) (s : State), sliceRuns s e.val = true →
    (sl.val < 16 → ∃ t, exec (.auxSlot e j sl) s = .next t ∧
      (axsOf t e.val).slot = (axsOf s e.val).slot ++ [(sl.val, (if auxOn s (16 * e.val + sl.val) = true then .main else .open_), j,
        (20 * j + sl.val + 1) * slotUs s e.val * 2000)] ∧ (∀ k, k ≠ e.val → axsOf t k = axsOf s k) ∧
      { t with axs := s.axs, ax := s.ax, flt := s.flt, fm := s.fm } = s) ∧
    (16 ≤ sl.val → nextJob s e.val = none → ∃ t, exec (.auxSlot e j sl) s = .next t ∧
      (axsOf t e.val).slot = (axsOf s e.val).slot ++ [(16, .open_, j, (20 * j + sl.val + 1) * slotUs s e.val * 2000)] ∧
      (∀ k, k ≠ e.val → axsOf t k = axsOf s k) ∧ { t with axs := s.axs } = s) ∧
    (16 ≤ sl.val → ∀ c, nextJob s e.val = some c → ∃ t, exec (.auxSlot e j sl) s = .next t ∧
      (axsOf t e.val).slot =
        (axsOf s e.val).slot ++ [(c / 2, (if c % 2 = 0 then .cal else .lead), j, (20 * j + sl.val + 1) * slotUs s e.val * 2000)] ∧
      (axsOf t e.val).next = c + 1 ∧ (∀ k, k ≠ e.val → axsOf t k = axsOf s k) ∧ { t with axs := s.axs } = s)) ∧
  (∀ (e : Fin 8) (j : Nat) (sl : Fin 20) (code : Int) (aexP : Nat) (s : State), sliceRuns s e.val = false →
    exec (.auxSlot e j sl) s = .next s ∧ exec (.auxConversionComplete e code aexP) s = .next s) ∧
  (∀ (e : Fin 8) (code : Int) (aexP : Nat) (s : State), (axsOf s e.val).slot = [] → exec (.auxConversionComplete e code aexP) s = .next s) ∧
  (∀ (e : Fin 8) (code : Int) (aexP pos j at_ : Nat) (rest : List (Nat × AxJob × Nat × Nat)) (s : State), sliceRuns s e.val = true → pos < 16 →
    auxOn s (16 * e.val + pos) = true →
    ((axsOf s e.val).slot = (pos, .cal, j, at_) :: rest → ∃ t, exec (.auxConversionComplete e code aexP) s = .next t ∧ (axsOf t e.val).slot = rest ∧
      (axOf t (16 * e.val + pos)).cal =
        (codeVolts (calIndex (iexc s (16 * e.val + pos))) code :: (axOf s (16 * e.val + pos)).cal).take 16 ∧
      (∀ k, k ≠ 16 * e.val + pos → axOf t k = axOf s k) ∧ t.se = s.se) ∧
    ((axsOf s e.val).slot = (pos, .lead, j, at_) :: rest → ∃ t, exec (.auxConversionComplete e code aexP) s = .next t ∧ (axsOf t e.val).slot = rest ∧
      (axOf t (16 * e.val + pos)).lead = (codeVolts 3 code :: (axOf s (16 * e.val + pos)).lead).take 16 ∧
      (∀ k, k ≠ 16 * e.val + pos → axOf t k = axOf s k) ∧ t.se = s.se)) ∧
  (∀ (e : Fin 8) (code : Int) (aexP pos j at_ : Nat) (rest : List (Nat × AxJob × Nat × Nat)) (s : State), sliceRuns s e.val = true → engineRuns s e.val = true → pos < 16 →
    (axsOf s e.val).slot = (pos, .main, j, at_) :: rest → auxOn s (16 * e.val + pos) = true → (axOf s (16 * e.val + pos)).held = false →
    (seOf s e.val).swap = none → (seOf s e.val).past = none → (seOf s e.val).fifo.length < 16 →
    ∃ t, exec (.auxConversionComplete e code aexP) s = .next t ∧ (axsOf t e.val).slot = rest ∧
      (axOf t (16 * e.val + pos)).code = code ∧
      (∃ en, (seOf t e.val).fifo = (seOf s e.val).fifo ++ [en] ∧ en.code = code ∧ en.held = false ∧ en.pos = pos ∧ en.cycle = j ∧ en.at_ = at_ ∧
        en.range = (axOf s (16 * e.val + pos)).range)))

/-- The lane-wise instructions of two or one vectors: in every lane that the predicate enables, vector D becomes the sum, difference,
magnitude, lesser or greater, or shifted value, saturated to 24 bits; SEL chooses per lane; a shift outside 23 places and an option above
1 of MNX, which the spec leaves open, give a free value (log 15) (Table 6-6). -/
def Obligations.VectorArithmetic : Prop :=
  ∀ (e : Fin 8) (f : SeFields) (s : State) (x : SeSt), x = seOf s e.val →
    (SeReady e.val [kV f.a.val, kV f.b.val, kP f.ps.val] 1 s →
      (∃ t, exec (.add e f) s = .next t ∧ SeWritesV e.val f (fun n => vOf x f.a.val n + vOf x f.b.val n) s t) ∧
      (∃ t, exec (.sub e f) s = .next t ∧ SeWritesV e.val f (fun n => vOf x f.a.val n - vOf x f.b.val n) s t) ∧
      (∃ t, exec (.mnx e f) s = .next t ∧ SeWritesV e.val f (fun n =>
        if f.x = 0 then min (vOf x f.a.val n) (vOf x f.b.val n) else if f.x = 1 then max (vOf x f.a.val n) (vOf x f.b.val n)
        else Config.seOption 11 f.x.toNat (vOf x f.a.val n) (vOf x f.b.val n)) s t) ∧
      (∃ t, exec (.sel e f) s = .next t ∧ SeStep e.val s t ∧
        (∀ n, n < 8 → vOf (seOf t e.val) f.d.val n = if enabled f x n = true then vOf x f.a.val n else vOf x f.b.val n) ∧
        (∀ r, vIdx r ≠ vIdx f.d.val → ∀ n, vOf (seOf t e.val) r n = vOf x r n) ∧
        { seOf t e.val with v := x.v, pc := x.pc, ctx := x.ctx } = x)) ∧
    (SeReady e.val [kV f.a.val, kP f.ps.val] 1 s →
      (∃ t, exec (.abs e f) s = .next t ∧ SeWritesV e.val f (fun n => ((vOf x f.a.val n).natAbs : Int)) s t) ∧
      (0 ≤ f.imm.toInt → f.imm.toInt ≤ 23 → ∃ t, exec (.shf e f) s = .next t ∧
        SeWritesV e.val f (fun n => vOf x f.a.val n * (2 ^ f.imm.toInt.toNat : Nat)) s t) ∧
      (-23 ≤ f.imm.toInt → f.imm.toInt < 0 → ∃ t, exec (.shf e f) s = .next t ∧
        SeWritesV e.val f (fun n => roundShift (vOf x f.a.val n) (-f.imm.toInt).toNat) s t) ∧
      (23 < f.imm.toInt ∨ f.imm.toInt < -23 → ∃ t, exec (.shf e f) s = .next t ∧
        SeWritesV e.val f (fun n => Config.seOption 12 0 f.imm.toInt (vOf x f.a.val n)) s t))

/-- Vectors from memory, capture, references and accumulators: LDV, LDC with one word or eight, CAP of a lane group (zeros, not valid,
where the entries are another instant's) and of the auxiliary FIFO (zeros where it is empty), CTX, RND (by more than 47 places a free
value, log 15), SQRT, where the addresses lie in their memories and no memory word is in error (R164, R169, Table 6-6, Table 6-8). The
square root of SQRT is the largest number of at most 23 bits whose square is at most the accumulator's lane (Table 6-6). -/
def Obligations.VectorSources : Prop :=
  (∀ (e : Fin 8) (f : SeFields) (s : State) (x : SeSt), x = seOf s e.val →
    (SeReady e.val [kS f.a.val, kP f.ps.val] 1 s →
      (dataOk (memAddr f x) 32 32 = true → ∃ t, exec (.ldv e f .none) s = .next t ∧
        SeWritesV e.val f (fun n => dataLane x (memAddr f x / 4) n) s t) ∧
      (f.x.getLsbD 0 = true → memAddr f x + 4 ≤ 16384 → ∃ t, exec (.ldc e f .none) s = .next t ∧
        SeWritesV e.val f (fun _ => bankWord x (instrBank x (f.x.getLsbD 1)) (coefWord (memAddr f x))) s t) ∧
      (f.x.getLsbD 0 = false → memAddr f x + 32 ≤ 16384 → ∃ t, exec (.ldc e f .none) s = .next t ∧
        SeWritesV e.val f (fun n => bankWord x (instrBank x (f.x.getLsbD 1)) (coefWord (memAddr f x) + n)) s t)) ∧
    (SeReady e.val [kS 12, kP f.ps.val] 1 s → f.x.toNat ≤ 3 → ∃ t, exec (.ctx e f) s = .next t ∧
      SeWritesV e.val f (fun n => ctxValue s e.val f.x.toNat n) s t) ∧
    (SeReady e.val [kA f.a.val, kP f.ps.val] 1 s → ∃ t, exec (.rnd e f) s = .next t ∧
      SeWritesV e.val f (fun n => if f.imm.toNat ≤ 47 then roundShift (accOf x f.a.val n) f.imm.toNat
        else Config.seOption 10 f.imm.toNat (accOf x f.a.val n) 0) s t) ∧
    (SeReady e.val [kA f.a.val, kP f.ps.val] 8 s → ∃ t, exec (.sqrt e f) s = .next t ∧
      SeWritesV e.val f (fun n => (sqrt23 (accOf x f.a.val n).toNat : Int)) s t) ∧
    (SeReady e.val [kP f.ps.val] 1 s → x.ctx.slot < 16 → x.captureAt = x.ctx.index → ∃ t, exec (.cap e f) s = .next t ∧
      (∀ n, n < 8 → vOf (seOf t e.val) f.d.val n = if enabled f x n = true
        then satS 24 (Tbl.get (constD (0, false)) x.capture (8 * x.ctx.slot + n)).1 else vOf x f.d.val n) ∧
      (∀ n, n < 8 → (pOf (seOf t e.val) 3).getLsbD n = (Tbl.get (constD (0, false)) x.capture (8 * x.ctx.slot + n)).2) ∧
      (seOf t e.val).unread.getLsbD x.ctx.slot = false) ∧
    (SeReady e.val [kP f.ps.val] 1 s → x.ctx.slot < 16 → x.captureAt ≠ x.ctx.index → ∃ t, exec (.cap e f) s = .next t ∧
      (∀ n, n < 8 → vOf (seOf t e.val) f.d.val n = if enabled f x n = true then 0 else vOf x f.d.val n) ∧
      (∀ n, n < 8 → (pOf (seOf t e.val) 3).getLsbD n = false) ∧ (seOf t e.val).unread = x.unread) ∧
    (SeReady e.val [kP f.ps.val] 1 s → 16 ≤ x.ctx.slot →
      (x.fifo = [] → ∃ t, exec (.cap e f) s = .next t ∧
        (∀ n, n < 8 → vOf (seOf t e.val) f.d.val n = if enabled f x n = true then 0 else vOf x f.d.val n) ∧
        sOf (seOf t e.val) f.d.val = 0 ∧ (seOf t e.val).fifo = []) ∧
      (∀ (en : FifoEnt) (rest : List FifoEnt), x.fifo = en :: rest → ∃ t, exec (.cap e f) s = .next t ∧
        (∀ n, n < 8 → vOf (seOf t e.val) f.d.val n =
          if enabled f x n = true then (if n = 0 then satS 24 (en.code * 256) else 0) else vOf x f.d.val n) ∧
        (sIdx f.d.val ≠ 0 → sOf (seOf t e.val) f.d.val = entryStatus en) ∧
        (seOf t e.val).fifo = rest ∧ (seOf t e.val).ctx.lastCap = some en))) ∧
  (∀ a : Nat, sqrt23 a * sqrt23 a ≤ a ∧ sqrt23 a < 2 ^ 23 ∧ (sqrt23 a + 1 < 2 ^ 23 → a < (sqrt23 a + 1) * (sqrt23 a + 1)))

/-- The accumulators: MAC adds or subtracts the product, cleared first where asked; MACM multiplies a data vector by one coefficient word
and steps both addresses (a data window of length 0 leaves the next address free, log 15); HSUM sums the lanes into lane 0 (Table 6-6). -/
def Obligations.AccumulatorRules : Prop :=
  ∀ (e : Fin 8) (f : SeFields) (s : State) (x : SeSt), x = seOf s e.val →
    (SeReady e.val ([kV f.a.val, kV f.b.val, kP f.ps.val] ++ if f.x.getLsbD 0 = true then [] else [kA f.d.val]) 1 s →
      ∃ t, exec (.mac e f) s = .next t ∧ SeWritesAcc e.val f (fun n =>
        (if f.x.getLsbD 0 = true then 0 else accOf x f.d.val n) +
          (if f.x.getLsbD 1 = true then -(vOf x f.a.val n * vOf x f.b.val n) else vOf x f.a.val n * vOf x f.b.val n)) s t) ∧
    (SeReady e.val [kA f.a.val, kP f.ps.val] 3 s → ∃ t, exec (.hsum e f) s = .next t ∧ SeWritesAcc e.val f (fun n =>
      if n = 0 then accOf x f.a.val 0 + accOf x f.a.val 1 + accOf x f.a.val 2 + accOf x f.a.val 3 + accOf x f.a.val 4 + accOf x f.a.val 5
        + accOf x f.a.val 6 + accOf x f.a.val 7 else 0) s t) ∧
    (SeReady e.val [kS f.a.val, kS f.b.val, kS 9, kA f.d.val, kP f.ps.val] 1 s → dataOk (sOf x f.a.val).toNat 32 32 = true →
      (sOf x f.b.val).toNat + 4 ≤ 16384 → ∃ t, exec (.macm e f .none) s = .next t ∧
      (∀ n, n < 8 → accOf (seOf t e.val) f.d.val n = if enabled f x n = true
        then satS 56 (accOf x f.d.val n + dataLane x ((sOf x f.a.val).toNat / 4) n *
          bankWord x (instrBank x (f.x.getLsbD 1)) (coefWord (sOf x f.b.val).toNat)) else accOf x f.d.val n) ∧
      (sIdx f.a.val ≠ sIdx f.b.val → sIdx f.a.val ≠ 0 → sOf (seOf t e.val) f.a.val = wordN (macmNext x (sOf x f.a.val).toNat)) ∧
      (sIdx f.a.val ≠ sIdx f.b.val → sIdx f.b.val ≠ 0 → sOf (seOf t e.val) f.b.val = sOf x f.b.val + 4) ∧
      (sIdx f.a.val = sIdx f.b.val → sIdx f.a.val ≠ 0 → sOf (seOf t e.val) f.b.val = wordN (macmNext x (sOf x f.a.val).toNat) + 4) ∧ SeStep e.val s t)

/-- Scalars and stores: MOVI, SADD and LDS write scalar D, S0 excepted, which ignores the write; STS stores a scalar, STV the enabled
lanes of a vector; every other word of data memory stays (Table 6-4, Table 6-6). -/
def Obligations.ScalarsAndStores : Prop :=
  ∀ (e : Fin 8) (f : SeFields) (s : State) (x : SeSt), x = seOf s e.val →
    (SeReady e.val [] 1 s → ∃ t, exec (.movi e f) s = .next t ∧ SeWritesS e.val f.d.val f.imm s t) ∧
    (SeReady e.val [kS f.a.val] 1 s →
      (∃ t, exec (.sadd e f) s = .next t ∧ SeWritesS e.val f.d.val (sOf x f.a.val + f.imm) s t) ∧
      (dataOk (memAddr f x) 4 4 = true → ∃ t, exec (.lds e f .none) s = .next t ∧
        SeWritesS e.val f.d.val (dataWord x (memAddr f x / 4)) s t)) ∧
    (SeReady e.val [kS f.a.val, kS f.d.val] 1 s → dataOk (memAddr f x) 4 4 = true → ∃ t, exec (.sts e f) s = .next t ∧ SeStep e.val s t ∧
      (∀ k, dataWord (seOf t e.val) k = if k = memAddr f x / 4 then sOf x f.d.val else dataWord x k) ∧
      { seOf t e.val with dmem := x.dmem, pc := x.pc, ctx := x.ctx } = x) ∧
    (SeReady e.val [kS f.a.val, kV f.a.val, kP f.ps.val] 1 s → dataOk (memAddr f x) 32 32 = true → ∃ t, exec (.stv e f) s = .next t ∧
      SeStep e.val s t ∧
      (∀ k, dataWord (seOf t e.val) k =
        if memAddr f x / 4 ≤ k ∧ k < memAddr f x / 4 + 8 ∧ enabled f x (k - memAddr f x / 4) = true
        then wordI (vOf x f.a.val (k - memAddr f x / 4)) else dataWord x k) ∧
      { seOf t e.val with dmem := x.dmem, pc := x.pc, ctx := x.ctx } = x)

/-- CMP writes predicate D in the enabled lanes by its condition (an option above 5: a free value, log 15), and P0 is no destination; BQ
computes one direct-form section per enabled lane, with one set of coefficients or one per lane, rounded at 22 bits, and shifts its
history, every other word of data memory unchanged (R170, Table 6-6, Table 6-8 cause 3). -/
def Obligations.CompareAndBiquad : Prop :=
  ∀ (e : Fin 8) (f : SeFields) (s : State) (x : SeSt), x = seOf s e.val →
    (SeReady e.val [kV f.a.val, kV f.b.val, kP f.ps.val] 1 s →
      (f.d.val ≠ 0 → ∃ t, exec (.cmp e f) s = .next t ∧ SeStep e.val s t ∧
        (∀ n, n < 8 → (pOf (seOf t e.val) f.d.val).getLsbD n =
          if enabled f x n = true then cmpCond f.x.toNat (vOf x f.a.val n) (vOf x f.b.val n) else (pOf x f.d.val).getLsbD n) ∧
        { seOf t e.val with p := x.p, pc := x.pc, ctx := x.ctx } = x) ∧
      (f.d.val = 0 → ∃ t, exec (.cmp e f) s = .next t ∧ (seOf t e.val).ctx.ended = true ∧ (seOf t e.val).ctx.staged = [] ∧
        (seOf t e.val).lastExc = wordN (excDetail 3 x) ∧ (seOf t e.val).p = x.p ∧ Raised qSE (0x600 + e.val) 0x3B (excDetail 3 x) s t)) ∧
    (SeReady e.val [kV f.a.val, kS f.a.val, kS f.b.val, kP f.ps.val] 5 s → dataOk (memAddr f x) 32 128 = true →
      (sOf x f.b.val).toNat + (if f.x.getLsbD 0 = true then 20 else 160) ≤ 16384 →
      ∀ (k : Nat) (co : Nat → Nat → Int), k = memAddr f x / 4 →
      (∀ c n, co c n = bankWord x (instrBank x (f.x.getLsbD 1))
        (coefWord (sOf x f.b.val).toNat + (if f.x.getLsbD 0 = true then c else 8 * c + n))) →
      ∃ t, exec (.bq e f .none) s = .next t ∧ SeStep e.val s t ∧
        (∀ n, n < 8 → enabled f x n = true →
          vOf (seOf t e.val) f.d.val n = satS 24 (roundShift
            (co 0 n * vOf x f.a.val n + co 1 n * dataLane x k n + co 2 n * dataLane x (k + 8) n
              - co 3 n * dataLane x (k + 16) n - co 4 n * dataLane x (k + 24) n) 22) ∧
          dataWord (seOf t e.val) (k + n) = wordI (vOf x f.a.val n) ∧
          dataWord (seOf t e.val) (k + 8 + n) = wordI (dataLane x k n) ∧
          dataWord (seOf t e.val) (k + 16 + n) = wordI (vOf (seOf t e.val) f.d.val n) ∧
          dataWord (seOf t e.val) (k + 24 + n) = wordI (dataLane x (k + 16) n)) ∧
        (∀ n, n < 8 → enabled f x n = false → vOf (seOf t e.val) f.d.val n = vOf x f.d.val n ∧
          dataWord (seOf t e.val) (k + n) = dataWord x (k + n) ∧ dataWord (seOf t e.val) (k + 8 + n) = dataWord x (k + 8 + n) ∧
          dataWord (seOf t e.val) (k + 16 + n) = dataWord x (k + 16 + n) ∧ dataWord (seOf t e.val) (k + 24 + n) = dataWord x (k + 24 + n)) ∧
        (∀ w, (w < k ∨ k + 32 ≤ w) → dataWord (seOf t e.val) w = dataWord x w))

/-- Control: NOP goes on; LOOP opens a loop while fewer than two are open; BR jumps by IMM words where its condition holds and the target
lies in the innermost loop and in program memory; RAISE offers a message of the program's kind at the engine's own queue; OUT stages a
value where its port is permitted; YIELD ends the slot and delivers what is staged, of one output staged: port 0 a demodulated sample for
each listed channel that is not DORMANT, port 1 the extension fields of the channels that the image lists, port 2 a chain output and port
3 the detector values of the auxiliary channel whose entry was taken; SLOT_OVERRUN ends the slot with cause 1 and kind 0x39, and does
nothing where no slot runs (R168, R171, R172, R180, Table 6-6, Table 6-7). -/
def Obligations.EngineControl : Prop :=
  ∀ (e : Fin 8) (f : SeFields) (s : State) (x : SeSt), x = seOf s e.val →
    (SeReady e.val [] 1 s →
      (∃ t, exec (.nop e f) s = .next t ∧ SeStep e.val s t ∧ { seOf t e.val with pc := x.pc, ctx := x.ctx } = x) ∧
      (f.x ≠ 0 → 1 ≤ f.imm.toNat → f.imm.toNat ≤ 4096 → x.ctx.loops.length < 2 → ∃ t, exec (.loop e f) s = .next t ∧
        (seOf t e.val).pc = (x.pc + 1) % 8192 ∧
        (seOf t e.val).ctx.loops =
          { first := (x.pc + 1) % 8192, last := (x.pc + f.x.toNat) % 8192, left := f.imm.toNat } :: x.ctx.loops) ∧
      (x.ctx.staged = [] → ∃ t, exec (.yield e f) s = .next t ∧ (seOf t e.val).ctx.ended = true ∧
        { seOf t e.val with ctx := x.ctx } = x ∧ { t with se := s.se } = s) ∧
      (∀ (o : Staged) (q : Nat), x.ctx.staged = [o] → o.port = 1 → x.ctx.slot = q → ∃ t, exec (.yield e f) s = .next t ∧
        (seOf t e.val).ctx.ended = true ∧ (seOf t e.val).ctx.staged = [] ∧
        ∀ m, m < 4 →
          (unitExists s (64 * e.val + 4 * q + m) = false →
            tkOf t (64 * e.val + 4 * q + m) = tkOf s (64 * e.val + 4 * q + m)) ∧
          (unitExists s (64 * e.val + 4 * q + m) = true → o.mask.getLsbD (2 * m) = true → (tkOf t (64 * e.val + 4 * q + m)).ext0 = o.lanes.getD (2 * m) 0) ∧
          (unitExists s (64 * e.val + 4 * q + m) = true → o.mask.getLsbD (2 * m + 1) = true → (tkOf t (64 * e.val + 4 * q + m)).ext1 = o.lanes.getD (2 * m + 1) 0)) ∧
      (∀ (o : Staged) (q : Nat), x.ctx.staged = [o] → o.port = 0 → x.ctx.slot = q → ∃ t, exec (.yield e f) s = .next t ∧
        (seOf t e.val).ctx.ended = true ∧ (seOf t e.val).ctx.staged = [] ∧
        ∀ m, m < 4 → unitExists s (64 * e.val + 4 * q + m) = true → stOf s (64 * e.val + 4 * q + m) ≠ .dormant →
          ∃ d, (tkOf t (64 * e.val + 4 * q + m)).waiting = (tkOf s (64 * e.val + 4 * q + m)).waiting ++ [d] ∧ d.i = x.ctx.index ∧
            d.s = o.lanes.getD (2 * m) 0 ∧ d.c = o.lanes.getD (2 * m + 1) 0 ∧
            d.ok = (o.mask.getLsbD (2 * m) && o.mask.getLsbD (2 * m + 1))) ∧
      (∀ (o : Staged) (en : FifoEnt), x.ctx.staged = [o] → o.port = 2 → o.cap = some en → ∃ t, exec (.yield e f) s = .next t ∧
        (seOf t e.val).ctx.ended = true ∧ (seOf t e.val).ctx.staged = [] ∧
        ∃ r, (axOf t (16 * e.val + en.pos)).outs.head? = some r ∧ r.at_ = en.at_ ∧ r.y = o.lanes.getD 0 0 ∧ r.ok = o.mask.getLsbD 0 ∧
          r.range = en.range) ∧
      (∀ (o : Staged) (en : FifoEnt), x.ctx.staged = [o] → o.port = 3 → o.cap = some en → ∃ t, exec (.yield e f) s = .next t ∧
        (seOf t e.val).ctx.ended = true ∧ (seOf t e.val).ctx.staged = [] ∧
        ∃ r, (axOf t (16 * e.val + en.pos)).dets.head? = some r ∧ r.at_ = en.at_ ∧ r.range = en.range ∧
          r.peak = (if o.mask.getLsbD 0 = true then some (o.lanes.getD 0 0) else none) ∧
          r.rms = (if o.mask.getLsbD 1 = true then some (o.lanes.getD 1 0) else none) ∧
          r.envl = (if o.mask.getLsbD 2 = true then some (o.lanes.getD 2 0) else none))) ∧
    (brCond f.x.toNat (sOf x f.a.val) = true → SeReady e.val [kS f.a.val] 2 s →
      (∀ l, x.ctx.loops.head? = some l → x.pc + f.imm.toNat ≤ l.last) → x.pc + f.imm.toNat < 8192 →
      ∃ t, exec (.br e f) s = .next t ∧ (seOf t e.val).pc = x.pc + f.imm.toNat ∧ (seOf t e.val).ctx.ended = false ∧
        { seOf t e.val with pc := x.pc, ctx := x.ctx } = x ∧ { t with se := s.se } = s) ∧
    (brCond f.x.toNat (sOf x f.a.val) = false → SeReady e.val [kS f.a.val] 1 s →
      ∃ t, exec (.br e f) s = .next t ∧ SeStep e.val s t ∧ { seOf t e.val with pc := x.pc, ctx := x.ctx } = x) ∧
    (SeReady e.val [kS f.a.val] 1 s → 0xC0 ≤ fld f.imm 0 8 → f.x.toNat ≤ 9 →
      ∃ t, exec (.raise e f) s = .next t ∧
        Raised (qEng e.val) (raiseSource e.val f.x.toNat x) (fld f.imm 0 8) (sOf x f.a.val).toNat s t ∧
        (seOf t e.val).pc = (loopNext x.pc x.ctx.loops).1 ∧ { seOf t e.val with pc := x.pc, ctx := x.ctx } = x) ∧
    (SeReady e.val [kV f.a.val, kP f.ps.val] 1 s → portOk s e.val f.x.toNat = true →
      ∃ t, exec (.out e f) s = .next t ∧ SeStep e.val s t ∧
        (∃ o, (seOf t e.val).ctx.staged.getLast? = some o ∧ o.port = f.x.toNat ∧
          (∀ n, n < 8 → o.lanes.getD n 0 = vOf x f.a.val n ∧ o.mask.getLsbD n = enabled f x n)) ∧
        { seOf t e.val with pc := x.pc, ctx := x.ctx } = x) ∧
    (engineRuns s e.val = true → x.ctx.ended = false → ∃ t, exec (.slotOverrun e) s = .next t ∧ (seOf t e.val).ctx.ended = true ∧
      (seOf t e.val).ctx.staged = [] ∧ (seOf t e.val).lastExc = wordN (excDetail 1 x) ∧
      Raised qSE (0x600 + e.val) 0x39 (x.ctx.slot * 65536 + x.pc) s t) ∧
    (engineRuns s e.val = false ∨ x.ctx.ended = true → exec (.slotOverrun e) s = .next s)

/-- LDS, LDV, LDC, MACM or BQ whose first word read is uncorrectable ends the slot with cause 9 and writes no register; an LDS or LDV
whose first word is corrected counts it and goes on (R173). An instruction that the slot timer has no room for, its operands' latencies
counted, does nothing but end the slot with cause 1 and kind 0x39, and after the slot's end, or in an engine that does not run, no
instruction has an effect: each of the 28 instructions, a load without a memory error (R161, R168, R172). The exceptions of Table 6-8 end
the slot with their cause and kind 0x3B, staged outputs discarded and no register or data word written: an access outside data memory or
misaligned (4), a coefficient address beyond the bank (5), an option or count outside its range (3), a third loop level and a branch past
the innermost loop's end (6), a branch beyond program memory (7), an output port not permitted (8). -/
def Obligations.SlotEnds : Prop :=
  (∀ (e : Fin 8) (f : SeFields) (s : State) (x : SeSt), x = seOf s e.val →
    (SeReady e.val [kS f.a.val] 1 s → dataOk (memAddr f x) 4 4 = true →
      (∃ t, exec (.lds e f .uncorrectable) s = .next t ∧ (seOf t e.val).ctx.ended = true ∧
        (seOf t e.val).lastExc = wordN (excDetail 9 x) ∧ (seOf t e.val).s = x.s) ∧
      (∃ t, exec (.lds e f .corrected) s = .next t ∧ (seOf t e.val).ecc = satInc 16 x.ecc ∧ (seOf t e.val).ctx.ended = false ∧
        (sIdx f.d.val ≠ 0 → sOf (seOf t e.val) f.d.val = dataWord x (memAddr f x / 4)))) ∧
    (SeReady e.val [kS f.a.val, kP f.ps.val] 1 s → dataOk (memAddr f x) 32 32 = true →
      (∃ t, exec (.ldv e f .uncorrectable) s = .next t ∧ (seOf t e.val).ctx.ended = true ∧
        (seOf t e.val).lastExc = wordN (excDetail 9 x) ∧ (seOf t e.val).v = x.v) ∧
      (∃ t, exec (.ldv e f .corrected) s = .next t ∧ (seOf t e.val).ecc = satInc 16 x.ecc ∧ (seOf t e.val).ctx.ended = false)) ∧
    (SeReady e.val [kS f.a.val, kP f.ps.val] 1 s → memAddr f x + (if f.x.getLsbD 0 = true then 4 else 32) ≤ 16384 →
      ∃ t, exec (.ldc e f .uncorrectable) s = .next t ∧ (seOf t e.val).ctx.ended = true ∧
        (seOf t e.val).lastExc = wordN (excDetail 9 x) ∧ (seOf t e.val).v = x.v) ∧
    (SeReady e.val [kS f.a.val, kS f.b.val, kS 9, kA f.d.val, kP f.ps.val] 1 s → dataOk (sOf x f.a.val).toNat 32 32 = true →
      (sOf x f.b.val).toNat + 4 ≤ 16384 → ∃ t, exec (.macm e f .uncorrectable) s = .next t ∧ (seOf t e.val).ctx.ended = true ∧
        (seOf t e.val).lastExc = wordN (excDetail 9 x) ∧ (seOf t e.val).acc = x.acc) ∧
    (SeReady e.val [kV f.a.val, kS f.a.val, kS f.b.val, kP f.ps.val] 5 s → dataOk (memAddr f x) 32 128 = true →
      (sOf x f.b.val).toNat + (if f.x.getLsbD 0 = true then 20 else 160) ≤ 16384 →
      ∃ t, exec (.bq e f .uncorrectable) s = .next t ∧ (seOf t e.val).ctx.ended = true ∧
        (seOf t e.val).lastExc = wordN (excDetail 9 x) ∧ (seOf t e.val).v = x.v ∧ (seOf t e.val).dmem = x.dmem)) ∧
  ((∀ (e : Fin 8) (f : SeFields) (s : State), engineRuns s e.val = true → (seOf s e.val).ctx.ended = false →
    ((seOf s e.val).ctx.limit < issueAt (seOf s e.val) [] + 1 →
      exec (.movi e f) s = .next (seOverrun e.val s) ∧ exec (.nop e f) s = .next (seOverrun e.val s) ∧ exec (.loop e f) s = .next (seOverrun e.val s) ∧ exec (.yield e f) s = .next (seOverrun e.val s)) ∧
    ((seOf s e.val).ctx.limit < issueAt (seOf s e.val) [kS f.a.val] + 1 →
      exec (.sadd e f) s = .next (seOverrun e.val s) ∧ exec (.lds e f .none) s = .next (seOverrun e.val s) ∧ exec (.raise e f) s = .next (seOverrun e.val s)) ∧
    ((seOf s e.val).ctx.limit < issueAt (seOf s e.val) [kS f.a.val, kS f.d.val] + 1 →
      exec (.sts e f) s = .next (seOverrun e.val s)) ∧
    ((seOf s e.val).ctx.limit < issueAt (seOf s e.val) [kS f.a.val, kP f.ps.val] + 1 →
      exec (.ldv e f .none) s = .next (seOverrun e.val s) ∧ exec (.ldc e f .none) s = .next (seOverrun e.val s)) ∧
    ((seOf s e.val).ctx.limit < issueAt (seOf s e.val) [kS f.a.val, kV f.a.val, kP f.ps.val] + 1 →
      exec (.stv e f) s = .next (seOverrun e.val s)) ∧
    ((seOf s e.val).ctx.limit < issueAt (seOf s e.val) [kP f.ps.val] + 1 →
      exec (.cap e f) s = .next (seOverrun e.val s)) ∧
    ((seOf s e.val).ctx.limit < issueAt (seOf s e.val) [kS 12, kP f.ps.val] + 1 →
      exec (.ctx e f) s = .next (seOverrun e.val s)) ∧
    ((seOf s e.val).ctx.limit < issueAt (seOf s e.val) ([kV f.a.val, kV f.b.val, kP f.ps.val] ++ if f.x.getLsbD 0 = true then [] else [kA f.d.val]) + 1 →
      exec (.mac e f) s = .next (seOverrun e.val s)) ∧
    ((seOf s e.val).ctx.limit < issueAt (seOf s e.val) [kS f.a.val, kS f.b.val, kS 9, kA f.d.val, kP f.ps.val] + 1 →
      exec (.macm e f .none) s = .next (seOverrun e.val s)) ∧
    ((seOf s e.val).ctx.limit < issueAt (seOf s e.val) [kA f.a.val, kP f.ps.val] + 3 →
      exec (.hsum e f) s = .next (seOverrun e.val s)) ∧
    ((seOf s e.val).ctx.limit < issueAt (seOf s e.val) [kA f.a.val, kP f.ps.val] + 1 →
      exec (.rnd e f) s = .next (seOverrun e.val s)) ∧
    ((seOf s e.val).ctx.limit < issueAt (seOf s e.val) [kV f.a.val, kV f.b.val, kP f.ps.val] + 1 →
      exec (.add e f) s = .next (seOverrun e.val s) ∧ exec (.sub e f) s = .next (seOverrun e.val s) ∧ exec (.mnx e f) s = .next (seOverrun e.val s) ∧ exec (.cmp e f) s = .next (seOverrun e.val s) ∧ exec (.sel e f) s = .next (seOverrun e.val s)) ∧
    ((seOf s e.val).ctx.limit < issueAt (seOf s e.val) [kV f.a.val, kP f.ps.val] + 1 →
      exec (.abs e f) s = .next (seOverrun e.val s) ∧ exec (.shf e f) s = .next (seOverrun e.val s) ∧ exec (.out e f) s = .next (seOverrun e.val s)) ∧
    ((seOf s e.val).ctx.limit < issueAt (seOf s e.val) [kV f.a.val, kS f.a.val, kS f.b.val, kP f.ps.val] + 5 →
      exec (.bq e f .none) s = .next (seOverrun e.val s)) ∧
    ((seOf s e.val).ctx.limit < issueAt (seOf s e.val) [kA f.a.val, kP f.ps.val] + 8 →
      exec (.sqrt e f) s = .next (seOverrun e.val s)) ∧
    ((seOf s e.val).ctx.limit < issueAt (seOf s e.val) [kS f.a.val] + (if brCond f.x.toNat (sOf (seOf s e.val) f.a.val) = true then 2 else 1) →
      exec (.br e f) s = .next (seOverrun e.val s))) ∧
  (∀ (e : Fin 8) (f : SeFields) (s : State), engineRuns s e.val = false ∨ (seOf s e.val).ctx.ended = true →
    exec (.movi e f) s = .next s ∧ exec (.nop e f) s = .next s ∧ exec (.loop e f) s = .next s ∧ exec (.yield e f) s = .next s ∧
    exec (.sadd e f) s = .next s ∧ exec (.lds e f .none) s = .next s ∧ exec (.raise e f) s = .next s ∧ exec (.sts e f) s = .next s ∧
    exec (.ldv e f .none) s = .next s ∧ exec (.ldc e f .none) s = .next s ∧ exec (.stv e f) s = .next s ∧
    exec (.cap e f) s = .next s ∧ exec (.ctx e f) s = .next s ∧ exec (.mac e f) s = .next s ∧ exec (.macm e f .none) s = .next s ∧
    exec (.hsum e f) s = .next s ∧ exec (.rnd e f) s = .next s ∧ exec (.add e f) s = .next s ∧ exec (.sub e f) s = .next s ∧
    exec (.mnx e f) s = .next s ∧ exec (.cmp e f) s = .next s ∧ exec (.sel e f) s = .next s ∧ exec (.abs e f) s = .next s ∧
    exec (.shf e f) s = .next s ∧ exec (.out e f) s = .next s ∧ exec (.bq e f .none) s = .next s ∧ exec (.sqrt e f) s = .next s ∧
    exec (.br e f) s = .next s)) ∧
  (∀ (e : Fin 8) (f : SeFields) (s : State) (x : SeSt), x = seOf s e.val →
    (SeReady e.val [kS f.a.val] 1 s → dataOk (memAddr f x) 4 4 = false → ∃ t, exec (.lds e f .none) s = .next t ∧ SeEnds e.val 4 s t) ∧
    (SeReady e.val [kS f.a.val, kS f.d.val] 1 s → dataOk (memAddr f x) 4 4 = false → ∃ t, exec (.sts e f) s = .next t ∧ SeEnds e.val 4 s t) ∧
    (SeReady e.val [kS f.a.val, kP f.ps.val] 1 s → dataOk (memAddr f x) 32 32 = false →
      ∃ t, exec (.ldv e f .none) s = .next t ∧ SeEnds e.val 4 s t) ∧
    (SeReady e.val [kS f.a.val, kV f.a.val, kP f.ps.val] 1 s → dataOk (memAddr f x) 32 32 = false →
      ∃ t, exec (.stv e f) s = .next t ∧ SeEnds e.val 4 s t) ∧
    (SeReady e.val [kS f.a.val, kP f.ps.val] 1 s → 16384 < memAddr f x + (if f.x.getLsbD 0 = true then 4 else 32) →
      ∃ t, exec (.ldc e f .none) s = .next t ∧ SeEnds e.val 5 s t) ∧
    (SeReady e.val [kS f.a.val, kS f.b.val, kS 9, kA f.d.val, kP f.ps.val] 1 s →
      (dataOk (sOf x f.a.val).toNat 32 32 = false → ∃ t, exec (.macm e f .none) s = .next t ∧ SeEnds e.val 4 s t) ∧
      (dataOk (sOf x f.a.val).toNat 32 32 = true → 16384 < (sOf x f.b.val).toNat + 4 →
        ∃ t, exec (.macm e f .none) s = .next t ∧ SeEnds e.val 5 s t)) ∧
    (SeReady e.val [kV f.a.val, kS f.a.val, kS f.b.val, kP f.ps.val] 5 s →
      (dataOk (memAddr f x) 32 128 = false → ∃ t, exec (.bq e f .none) s = .next t ∧ SeEnds e.val 4 s t) ∧
      (dataOk (memAddr f x) 32 128 = true → 16384 < (sOf x f.b.val).toNat + (if f.x.getLsbD 0 = true then 20 else 160) →
        ∃ t, exec (.bq e f .none) s = .next t ∧ SeEnds e.val 5 s t)) ∧
    (SeReady e.val [kS 12, kP f.ps.val] 1 s → 3 < f.x.toNat → ∃ t, exec (.ctx e f) s = .next t ∧ SeEnds e.val 3 s t) ∧
    (SeReady e.val [] 1 s →
      (f.x = 0 ∨ f.imm.toNat = 0 ∨ 4096 < f.imm.toNat → ∃ t, exec (.loop e f) s = .next t ∧ SeEnds e.val 3 s t) ∧
      (f.x ≠ 0 → 1 ≤ f.imm.toNat → f.imm.toNat ≤ 4096 → 2 ≤ x.ctx.loops.length → ∃ t, exec (.loop e f) s = .next t ∧ SeEnds e.val 6 s t)) ∧
    (SeReady e.val [kS f.a.val] 1 s → fld f.imm 0 8 < 0xC0 ∨ 9 < f.x.toNat → ∃ t, exec (.raise e f) s = .next t ∧ SeEnds e.val 3 s t) ∧
    (brCond f.x.toNat (sOf x f.a.val) = true → SeReady e.val [kS f.a.val] 2 s →
      (∀ l, x.ctx.loops.head? = some l → l.last < x.pc + f.imm.toNat → ∃ t, exec (.br e f) s = .next t ∧ SeEnds e.val 6 s t) ∧
      ((∀ l, x.ctx.loops.head? = some l → x.pc + f.imm.toNat ≤ l.last) → 8192 ≤ x.pc + f.imm.toNat →
        ∃ t, exec (.br e f) s = .next t ∧ SeEnds e.val 7 s t)) ∧
    (SeReady e.val [kV f.a.val, kP f.ps.val] 1 s → portOk s e.val f.x.toNat = false → ∃ t, exec (.out e f) s = .next t ∧ SeEnds e.val 8 s t))

/-- BANK_WRITE stores a word, its low 24 bits extended by their sign, in the bank that is not in force while no swap locks the banks; else
it is refused with kind 0x3A and counted, its reason 2 for locked banks and 1 for the bank in force (R174, R175). SE_PASS of an engine
that does not run has no effect; of one that runs, the pass ends with the engine at its index, no output staged, no slot ended, and its
preparation complete (R161, R183); where an engine stands between two passes is the model's choice, log 94. -/
def Obligations.BanksAndPasses : Prop :=
  (∀ (e : Fin 8) (b : Bool) (w : Fin 4096) (v : Word) (s : State), deviceUp s = true →
    (bankLocked (seOf s e.val) = false → b ≠ (seOf s e.val).cur → ∃ t, exec (.bankWrite e b w v) s = .next t ∧
      (∀ k, bankWord (seOf t e.val) b k = if k = w.val then sfld v 0 24 else bankWord (seOf s e.val) b k) ∧
      Tbl.get (constD 0) (if b = true then (seOf t e.val).bankB else (seOf t e.val).bankA) w.val = wordI (sfld v 0 24) ∧
      (∀ k, bankWord (seOf t e.val) (!b) k = bankWord (seOf s e.val) (!b) k) ∧
      (∀ k, k ≠ e.val → seOf t k = seOf s k) ∧ { t with se := s.se } = s) ∧
    (bankLocked (seOf s e.val) = true ∨ b = (seOf s e.val).cur → ∃ t, exec (.bankWrite e b w v) s = .next t ∧
      seOf t e.val = { seOf s e.val with refusals := satInc 8 (seOf s e.val).refusals } ∧
      Raised qSE (0x600 + e.val) 0x3A ((if bankLocked (seOf s e.val) = true then 2 else 1) * 2 ^ 28 + (if b = true then 0x4000 else 0) + 4 * w.val) s t ∧
      (∀ k, k ≠ e.val → seOf t k = seOf s k) ∧ { t with se := s.se, flt := s.flt, fm := s.fm } = s)) ∧
  (∀ (e : Fin 8) (b : Bool) (w : Fin 4096) (v : Word) (s : State), deviceUp s = false → exec (.bankWrite e b w v) s = .next s) ∧
  (∀ (e : Fin 8) (i : Nat) (h : List EccHit) (s : State),
    (engineRuns s e.val = false → exec (.sePass e i h) s = .next s) ∧
    (engineRuns s e.val = true → ∃ t, exec (.sePass e i h) s = .next t ∧ (seOf t e.val).ctx.index = i ∧ (seOf t e.val).ctx.ended = false ∧
       (seOf t e.val).ctx.staged = [] ∧
       (stOf s (0x600 + e.val) = .preparing → (unitOf t (0x600 + e.val)).prepDone = true)))

/-- TRACKER_SAMPLE takes the oldest waiting sample. In PREPARING a good sample acquires: the observer starts at the measured angle, at
rest and unlocked (Table 8-7). A sample that is not good, of a locked tracker, starts the coast with kind 0x40 (R233, R239, R241).
COAST_LIMIT raises kind 0x41 once in a coast, when the coast frames have reached COAST_LIM (R243). -/
def Obligations.TrackerSamples : Prop :=
  (∀ (c : Fin 512) (d : Demod) (rest : List Demod) (s : State), (tkOf s c.val).waiting = d :: rest →
    (stOf s c.val = .dormant → (tkOf s c.val).obs = none → ∃ t, exec (.trackerSample c) s = .next t ∧
      (tkOf t c.val).waiting = rest ∧ (∀ k, k ≠ c.val → tkOf t k = tkOf s k) ∧ { t with tk := s.tk } = s) ∧
    (stOf s c.val = .preparing → (tkOf s c.val).obs = none → d.ok = true → d.mark = false →
      ampOk s c.val (ampCode s c.val (ampl (tkOf s c.val).map d.s d.c)) = true → ∃ t, exec (.trackerSample c) s = .next t ∧
      (tkOf t c.val).waiting = rest ∧ (tkOf t c.val).locked = false ∧ (tkOf t c.val).accepted = 0 ∧
      ∃ o, (tkOf t c.val).obs = some o ∧ o.theta = (thetaM (tkOf s c.val).map d.s d.c : Int) ∧ o.omega = 0 ∧ o.alpha = 0 ∧
        o.tau = (3125 * d.i : Nat) / 2 - d.delay) ∧
    (stOf s c.val ≠ .dormant → stOf s c.val ≠ .faulted → ∀ o, (tkOf s c.val).obs = some o → (tkOf s c.val).locked = true →
      (tkOf s c.val).coast = false → d.ok = false → d.gap = false → ∃ t, exec (.trackerSample c) s = .next t ∧
      (tkOf t c.val).coast = true ∧ condOf t c.val 0x40 0 = true ∧ (tkOf t c.val).map = (tkOf s c.val).map)) ∧
  (∀ (c : Fin 512) (s : State),
    ((tkOf s c.val).coast = true → (tkOf s c.val).limitRaised = false → coastLim s c.val ≤ (tkOf s c.val).coastFrames →
      ∃ t, exec (.coastLimit c) s = .next t ∧ tkOf t c.val = { tkOf s c.val with limitRaised := true } ∧
        Raised qTRK c.val 0x41 ((tkOf s c.val).coastFrames % 256) s t ∧ { t with tk := s.tk, flt := s.flt, fm := s.fm } = s) ∧
    ((tkOf s c.val).coast = false ∨ (tkOf s c.val).limitRaised = true → exec (.coastLimit c) s = .next s))

/-- Map operations (R254): ADOPT puts the candidate in force, not verified, stores it, and needs a candidate, a state, and a step in
limits; DISCARD erases the candidate, and the count of a gear link that the tracker feeds restarts (R297); ERASE sets the zero map in
force and erases the stored entry. A refusal is kind 0x45 with its code. -/
def Obligations.MapOperations : Prop :=
  ∀ (c : Fin 512) (s : State),
    (∀ k, (tkOf s c.val).cand = some k → mapStateOk s c.val = true →
      mapTooFar s c.val (tkOf s c.val).map k = false →
      ∃ t, exec (.mapAdopt c) s = .next t ∧
        (tkOf t c.val).map = { k with verified := false, resSum := 0, resD := 0, adoptFrame := frameN s % 2 ^ 32 } ∧
        (tkOf t c.val).cand = none ∧ (tkOf t c.val).verified = false ∧ (tkOf t c.val).mapResult = 1 ∧
        Tbl.get (constD none) t.maps (c.val * 2 ^ 32 + sigId s c.val) = some { map := (tkOf t c.val).map, crcOk := true } ∧
        fld (inF t (baseTRK + 0x40 * c.val + 0x3C)) 0 2 = 0 ∧ (∀ j, j ≠ c.val → tkOf t j = tkOf s j) ∧ t.flt = s.flt) ∧
    ((tkOf s c.val).cand = none → ∃ t, exec (.mapAdopt c) s = .next t ∧ (tkOf t c.val).map = (tkOf s c.val).map ∧
      (tkOf t c.val).mapResult = 4 ∧ t.maps = s.maps ∧ Raised qTRK c.val 0x45 4 s t) ∧
    (∀ k, (tkOf s c.val).cand = some k → mapStateOk s c.val = true → mapTooFar s c.val (tkOf s c.val).map k = true →
      ∃ t, exec (.mapAdopt c) s = .next t ∧ (tkOf t c.val).map = (tkOf s c.val).map ∧
        (tkOf t c.val).mapResult = 6 ∧ t.maps = s.maps ∧ Raised qTRK c.val 0x45 6 s t) ∧
    ((tkOf s c.val).cand.isSome = true → mapStateOk s c.val = false → ∃ t, exec (.mapAdopt c) s = .next t ∧
      (tkOf t c.val).map = (tkOf s c.val).map ∧ (tkOf t c.val).mapResult = 5 ∧ t.maps = s.maps ∧ Raised qTRK c.val 0x45 5 s t) ∧
    (∃ t, exec (.mapDiscard c) s = .next t ∧ (tkOf t c.val).cand = none ∧ (tkOf t c.val).map = (tkOf s c.val).map ∧ t.maps = s.maps ∧
      ((tkOf s c.val).cand.isSome = true → (tkOf t c.val).mapResult = 2 ∧ t.flt = s.flt ∧
        (∀ l, linksOf s c.val = [l] → (glOf t l).count = 0)) ∧
      ((tkOf s c.val).cand = none → (tkOf t c.val).mapResult = 4 ∧ Raised qTRK c.val 0x45 4 s t)) ∧
    (mapStateOk s c.val = true → ∃ t, exec (.mapErase c) s = .next t ∧ (tkOf t c.val).map = zeroMap ∧ (tkOf t c.val).verified = false ∧
      (tkOf t c.val).mapResult = 3 ∧ Tbl.get (constD none) t.maps (c.val * 2 ^ 32 + sigId s c.val) = none ∧ t.flt = s.flt) ∧
    (mapStateOk s c.val = false → ∃ t, exec (.mapErase c) s = .next t ∧ (tkOf t c.val).map = (tkOf s c.val).map ∧ t.maps = s.maps ∧
      (tkOf t c.val).mapResult = 5 ∧ Raised qTRK c.val 0x45 5 s t)

/-- A transition that the filter lets through counts by the decode mode and the other channel's level; one sooner than FILT_N samples
after the last of its input is ignored; A and B at one timestamp count nothing in quadrature and raise kind 0x50, and in the other modes
count each; a rising Z whose gate is open captures the count, is checked against IDX_NOM and raises kind 0x51 beyond IDX_TOL, any other Z
captures nothing; the accepted levels follow; a port that does not count keeps its count; of a device that is not up nothing changes (R303
to R306, R310). Switches: a raw transition of the pin's sample, inverted by INVERT, is counted, the first sample after L0 is the
reference; the debounced level is the one that the last DEB_N samples showed; a chatter window ends with its verdict for every switch and
a new count (R312, R313). That SWITCH_DEBOUNCE_CHANGE brings the samples that DEB_N still lacks, at the level of the last raw sample, and
is ignored at another, and that a command ends the chatter window, is the model's choice, logs 99 and 43. -/
def Obligations.PortsAndSwitches : Prop :=
  ((∀ (p : Fin 32) (tm : Nat) (a b z : Option Bool) (s : State), deviceUp s = false → exec (.portTransitionAccepted p tm a b z) s = .next s) ∧
  ∀ (p : Fin 32) (tm : Nat) (s : State), deviceUp s = true →
    (portCounts s p.val = true → (∀ l, (ipOf s p.val).accA = some l → l + filtNs s p.val ≤ tm) →
      ∃ t, exec (.portTransitionAccepted p tm (some (!(ipOf s p.val).a)) none none) s = .next t ∧
      (ipOf t p.val).u = (ipOf s p.val).u +
        (if bitAt (ipReg s p.val 0) 8 = true then -countA (ipMode s p.val) (!(ipOf s p.val).a) (ipOf s p.val).b
          else countA (ipMode s p.val) (!(ipOf s p.val).a) (ipOf s p.val).b) ∧
      (ipOf t p.val).a = !(ipOf s p.val).a ∧ (ipOf t p.val).b = (ipOf s p.val).b ∧ (∀ k, k ≠ p.val → ipOf t k = ipOf s k)) ∧
    (portCounts s p.val = true → (∀ l, (ipOf s p.val).accB = some l → l + filtNs s p.val ≤ tm) →
      ∃ t, exec (.portTransitionAccepted p tm none (some (!(ipOf s p.val).b)) none) s = .next t ∧
      (ipOf t p.val).u = (ipOf s p.val).u +
        (if bitAt (ipReg s p.val 0) 8 = true then -countB (ipMode s p.val) (ipOf s p.val).a (!(ipOf s p.val).b)
          else countB (ipMode s p.val) (ipOf s p.val).a (!(ipOf s p.val).b)) ∧
      (ipOf t p.val).a = (ipOf s p.val).a ∧ (ipOf t p.val).b = !(ipOf s p.val).b) ∧
    (portCounts s p.val = true → 1 ≤ ipMode s p.val → ipMode s p.val ≤ 3 →
      (∀ l, (ipOf s p.val).accA = some l → l + filtNs s p.val ≤ tm) → (∀ l, (ipOf s p.val).accB = some l → l + filtNs s p.val ≤ tm) →
      ∃ t, exec (.portTransitionAccepted p tm (some (!(ipOf s p.val).a)) (some (!(ipOf s p.val).b)) none) s = .next t ∧
        (ipOf t p.val).u = (ipOf s p.val).u ∧ (ipOf t p.val).qeTotal = satInc 16 (ipOf s p.val).qeTotal ∧
        (ipOf t p.val).now.qeExtra = min 65535 ((ipOf s p.val).now.qeExtra + 2)) ∧
    (portCounts s p.val = true → ipMode s p.val = 0 ∨ 3 < ipMode s p.val →
      (∀ l, (ipOf s p.val).accA = some l → l + filtNs s p.val ≤ tm) → (∀ l, (ipOf s p.val).accB = some l → l + filtNs s p.val ≤ tm) →
      ∃ t, exec (.portTransitionAccepted p tm (some (!(ipOf s p.val).a)) (some (!(ipOf s p.val).b)) none) s = .next t ∧
        (ipOf t p.val).u = (ipOf s p.val).u +
          (if bitAt (ipReg s p.val 0) 8 = true
            then -countA (ipMode s p.val) (!(ipOf s p.val).a) (ipOf s p.val).b - countB (ipMode s p.val) (ipOf s p.val).a (!(ipOf s p.val).b)
            else countA (ipMode s p.val) (!(ipOf s p.val).a) (ipOf s p.val).b + countB (ipMode s p.val) (ipOf s p.val).a (!(ipOf s p.val).b)) ∧
        (ipOf t p.val).a = !(ipOf s p.val).a ∧ (ipOf t p.val).b = !(ipOf s p.val).b) ∧
    (portCounts s p.val = true → (ipOf s p.val).z = false → (∀ l, (ipOf s p.val).accZ = some l → l + filtNs s p.val ≤ tm) →
      (idxGate s p.val (ipOf s p.val).a (ipOf s p.val).b = true →
        (ipOf s p.val).cap = none ∨ idxNom s p.val = 0 ∨ (ipOf s p.val).capSkip = true →
        ∃ t, exec (.portTransitionAccepted p tm none none (some true)) s = .next t ∧
          (ipOf t p.val).z = true ∧ (ipOf t p.val).u = (ipOf s p.val).u ∧ (ipOf t p.val).cap = some ((ipOf s p.val).u, (ipOf s p.val).dir) ∧
          (ipOf t p.val).now.caps = ((ipOf s p.val).now.caps + 1) % 65536 ∧ (ipOf t p.val).capFrame = stampFrame s tm % 65536 ∧
          { t with ip := s.ip } = s) ∧
      (idxGate s p.val (ipOf s p.val).a (ipOf s p.val).b = true → ∀ (c : Int × Bool) (d : Int), (ipOf s p.val).cap = some c → idxNom s p.val ≠ 0 →
        (ipOf s p.val).capSkip = false →
        d = idxDelta s p.val (ipOf s p.val).u c.1 - (if (ipOf s p.val).dir = true ∧ c.2 = true then 1
          else if (ipOf s p.val).dir = false ∧ c.2 = false then -1 else 0) * idxNom s p.val →
        ∃ t, exec (.portTransitionAccepted p tm none none (some true)) s = .next t ∧
          (ipOf t p.val).z = true ∧ (ipOf t p.val).u = (ipOf s p.val).u ∧ (ipOf t p.val).cap = some ((ipOf s p.val).u, (ipOf s p.val).dir) ∧
          (ipOf t p.val).delta = satS 32 d ∧
          ((d.natAbs : Int) ≤ idxTol s p.val →
            (ipOf t p.val).now.sigFault = false ∧ (ipOf t p.val).now.qeExtra = 0 ∧ ∀ q, queueOf t q = queueOf s q) ∧
          (idxTol s p.val < d.natAbs → (ipOf t p.val).now.sigFault = true ∧ (ipOf t p.val).idxFail = true ∧
            Raised qINC (0x480 + p.val) 0x51 (unsig 32 (satS 32 d)) s t)) ∧
      (idxGate s p.val (ipOf s p.val).a (ipOf s p.val).b = false → ∃ t, exec (.portTransitionAccepted p tm none none (some true)) s = .next t ∧
        (ipOf t p.val).z = true ∧ (ipOf t p.val).u = (ipOf s p.val).u ∧ (ipOf t p.val).cap = (ipOf s p.val).cap)) ∧
    (portCounts s p.val = true → (ipOf s p.val).z = true → (∀ l, (ipOf s p.val).accZ = some l → l + filtNs s p.val ≤ tm) →
      ∃ t, exec (.portTransitionAccepted p tm none none (some false)) s = .next t ∧
        (ipOf t p.val).z = false ∧ (ipOf t p.val).u = (ipOf s p.val).u ∧ (ipOf t p.val).cap = (ipOf s p.val).cap) ∧
    (∀ l v, portCounts s p.val = true → (ipOf s p.val).accA = some l → tm < l + filtNs s p.val →
      ∃ t, exec (.portTransitionAccepted p tm (some v) none none) s = .next t ∧
        (ipOf t p.val).u = (ipOf s p.val).u ∧ (ipOf t p.val).a = (ipOf s p.val).a ∧ (ipOf t p.val).accA = some l) ∧
    (portCounts s p.val = false → ∀ a b z a' b' z',
      a' = filtered (filtNs s p.val) tm (ipOf s p.val).a (ipOf s p.val).accA a →
      b' = filtered (filtNs s p.val) tm (ipOf s p.val).b (ipOf s p.val).accB b →
      z' = filtered (filtNs s p.val) tm (ipOf s p.val).z (ipOf s p.val).accZ z →
      ∃ t, exec (.portTransitionAccepted p tm a b z) s = .next t ∧
      ipOf t p.val = { ipOf s p.val with
        a := a'.getD (ipOf s p.val).a, b := b'.getD (ipOf s p.val).b, z := z'.getD (ipOf s p.val).z
        accA := if a'.isSome then some tm else (ipOf s p.val).accA
        accB := if b'.isSome then some tm else (ipOf s p.val).accB
        accZ := if z'.isSome then some tm else (ipOf s p.val).accZ } ∧
      { t with ip := s.ip } = s)) ∧
  ((∀ (k : Fin 64) (l : Bool) (s : State), ∃ t, exec (.switchRawTransition k l) s = .next t ∧
    (swOf t k.val).seen = true ∧ (swOf t k.val).raw = swSample s k.val l ∧
    (swOf t k.val).trans = (if (swOf s k.val).seen = true ∧ (swOf s k.val).raw ≠ swSample s k.val l then (swOf s k.val).trans + 1
      else (swOf s k.val).trans) ∧
    (swOf t k.val).run = min 65535 (1 + if (swOf s k.val).raw = swSample s k.val l then (swOf s k.val).run else 0) ∧
    (swOf t k.val).level = (if debN s k.val ≤ (swOf t k.val).run then swSample s k.val l else (swOf s k.val).level) ∧ (∀ j, j ≠ k.val → swOf t j = swOf s j) ∧ { t with sw := s.sw } = s) ∧
  (∀ (k : Fin 64) (l : Bool) (s : State), (swOf s k.val).seen = true → (swOf s k.val).raw = swSample s k.val l →
    ∃ t, exec (.switchDebounceChange k l) s = .next t ∧
      swOf t k.val = { swOf s k.val with level := swSample s k.val l, run := min 65535 (max (debN s k.val) (swOf s k.val).run) } ∧
      (∀ j, j ≠ k.val → swOf t j = swOf s j) ∧ { t with sw := s.sw } = s) ∧
  (∀ (k : Fin 64) (l : Bool) (s : State), (swOf s k.val).seen = false ∨ (swOf s k.val).raw ≠ swSample s k.val l →
    ∃ t, exec (.switchDebounceChange k l) s = .next t ∧ (∀ j, swOf t j = swOf s j) ∧ { t with sw := s.sw } = s) ∧
  (∀ s : State, ∃ t, exec .chatWindowEnd s = .next t ∧
    (∀ k, k < 64 → (swOf t k).trans = 0 ∧
      (swOf t k).chat = decide (fld (swCfg s k) 8 8 ≠ 0 ∧ fld (swCfg s k) 8 8 < (swOf s k).trans) ∧
      (swOf t k).level = (swOf s k).level ∧ (swOf t k).raw = (swOf s k).raw) ∧
    { t with sw := s.sw, flt := s.flt, fm := s.fm } = s))

/-- EMULATOR_EDGE emits the oldest queued edge of an emulator that operates, in its direction, at the later of record ready and the
spacing after the edge before, and at no other time; of one that does not operate or has no edge queued, nothing leaves (R317, R318).
Record ready is anywhere in its window, the model's choice, log 101. Trigger pulses: an ACTIVE trigger asserts for its width, one that is
asserted already goes on with kind 0x58 and one pulse stands for every firing of its instant; one that is not ACTIVE counts each of them
as suppressed; the end negates it; with no pulse due nothing changes (R327, R328). -/
def Obligations.EmulatorsAndTriggers : Prop :=
  ((∀ (e : Fin 16) (tm : Nat) (s : State), deviceUp s = false → exec (.emulatorEdge e tm) s = .next s) ∧
  (∀ (e : Fin 16) (tm : Nat) (s : State), operates s (0x4A0 + e.val) = false ∨ (emOf s e.val).queue = [] →
    ∃ t, exec (.emulatorEdge e tm) s = .next t ∧ { t with time := s.time } = s) ∧
  ∀ (e : Fin 16) (tm n d : Nat) (up : Bool) (rest : List (Bool × Nat)) (s : State), deviceUp s = true → operates s (0x4A0 + e.val) = true →
    (emOf s e.val).queue = (up, n) :: rest → d = (emOf s e.val).last + (emOf s e.val).spacing →
    (max (emOf s e.val).ready d ≤ tm → tm ≤ max (emOf s e.val).readyBy d → ∃ t, exec (.emulatorEdge e tm) s = .next t ∧
      (emOf t e.val).emitted = (if up = true then (emOf s e.val).emitted + 1 else (emOf s e.val).emitted - 1) ∧
      (emOf t e.val).last = tm ∧ (emOf t e.val).queue = (if n ≤ 1 then rest else (up, n - 1) :: rest) ∧
      (emOf t e.val).readyBy = min (emOf s e.val).readyBy tm ∧
      t.outbox = s.outbox ++ [.edge e.val (emOf t e.val).emitted tm] ∧ (∀ k, k ≠ e.val → emOf t k = emOf s k)) ∧
    (tm < max (emOf s e.val).ready d ∨ max (emOf s e.val).readyBy d < tm → ∃ t, exec (.emulatorEdge e tm) s = .next t ∧ t.em = s.em ∧
      t.outbox = s.outbox)) ∧
  ((∀ (k : Fin 16) (q : Pulse) (rest : List Pulse) (s : State), deviceUp s = true → (tgOf s k.val).starts = q :: rest →
    (stOf s (0x4B0 + k.val) = .active → ∃ t, exec (.triggerPulseStart k) s = .next t ∧ (tgOf t k.val).asserted = true ∧
      (tgOf t k.val).pulses = satInc 16 (tgOf s k.val).pulses ∧ (tgOf t k.val).last = q.start ∧
      (tgOf t k.val).starts = rest.filter (fun e => e.start != q.start) ∧
      ((tgOf s k.val).asserted = false → (tgOf t k.val).endAt = q.start + tgWidth s k.val ∧
        t.outbox = s.outbox ++ [.trig k.val (!tgPol s k.val)] ∧ t.flt = s.flt) ∧
      ((tgOf s k.val).asserted = true → (tgOf t k.val).endAt = max (tgOf s k.val).endAt (q.start + tgWidth s k.val) ∧
        t.outbox = s.outbox ∧ Raised qINC (0x4B0 + k.val) 0x58 (q.start % 2 ^ 32) s t)) ∧
    (stOf s (0x4B0 + k.val) ≠ .active → ∃ t, exec (.triggerPulseStart k) s = .next t ∧
      (tgOf t k.val).asserted = (tgOf s k.val).asserted ∧
      (tgOf t k.val).suppressed = min 255 ((tgOf s k.val).suppressed + 1 + (rest.filter (fun e => e.start == q.start)).length) ∧
      t.outbox = s.outbox)) ∧
  (∀ (k : Fin 16) (s : State),
    ((tgOf s k.val).asserted = true → ∃ t, exec (.triggerPulseEnd k) s = .next t ∧ (tgOf t k.val).asserted = false ∧
      t.outbox = s.outbox ++ [.trig k.val (tgPol s k.val)] ∧ { t with tg := s.tg, outbox := s.outbox } = s) ∧
    ((tgOf s k.val).asserted = false → exec (.triggerPulseEnd k) s = .next s) ∧
    (deviceUp s = false ∨ (tgOf s k.val).starts = [] → exec (.triggerPulseStart k) s = .next s)))

/-- COMPARE_SCHEDULE places the firing of an armed compare at the crossing that the record extrapolates to, within 1 ns and on the I/O
grid, where it lies in the schedule's window and no record has passed V since the one before; COMPARE_FIRE fires: FIRED and the count show
it, an event records it, a late one raises kind 0x57; with no firing placed it does nothing (R320 to R326). -/
def Obligations.CompareRules : Prop :=
  (∀ (c n tc : Nat) (tau : Rat) (s : State), deviceUp s = true → s.time.frame = some n → ownTrackers s = [c] → ownPorts s = [] → c < 512 →
    (stOf s c = .active ∨ stOf s c = .holding) → (tkOf s c).record.fine = true →
    (cmpOf s (2 * c)).armed = true → (cmpOf s (2 * c)).fired = false → (cmpOf s (2 * c)).tested = true →
    (cmpOf s (2 * c)).waitBack = false → (cmpOf s (2 * c)).firing = none →
    (cmpOf s (2 * c + 1)).armed = false → (cmpOf s (2 * c + 1)).fired = false → (cmpOf s (2 * c + 1)).firing = none →
    (∀ d, d = cmpDir s (2 * c) ∨ cmpDir s (2 * c) = 2 ∧ d < 2 → pastV d (tkOf s c).record.pos (cmpVal s (2 * c)) = true →
      pastV d (tkOf s c).prevPos (cmpVal s (2 * c)) = true) →
    cmpCross s (2 * c) (tkOf s c).record = some tau → tc = crossTime (instOf s n).toNat tau →
    (instOf s n).toNat + 6000 + cmpLead s (2 * c) ≤ tc → tc < (instOf s n).toNat + 6000 + cmpLead s (2 * c) + tf s →
    ∃ t f, exec .compareSchedule s = .next t ∧ (cmpOf t (2 * c)).firing = some f ∧ f.t = tc ∧ f.late = false ∧ f.frame = n ∧
      (cmpOf t (2 * c)).armed = true ∧ (cmpOf t (2 * c)).fired = false) ∧
  (∀ (k : Fin 1088) (f : Firing) (s : State), deviceUp s = true → (cmpOf s k.val).firing = some f →
    ∃ t, exec (.compareFire k) s = .next t ∧
      (cmpOf t k.val).firing = none ∧ (cmpOf t k.val).armed = false ∧ (cmpOf t k.val).fired = true ∧ (cmpOf t k.val).late = f.late ∧
      (cmpOf t k.val).time = f.t ∧ (cmpOf t k.val).count = ((cmpOf s k.val).count + 1) % 2 ^ 32 ∧
      t.fm.events = s.fm.events ++ [{ time := f.t, bytes := cmpEventBytes k.val (cmpOf s k.val).behind (cmpVal s k.val) f }] ∧
      (f.late = false → t.flt = s.flt) ∧
      (f.late = true → ∀ tc, f.tc = some tc → Raised qINC (cmpUnit k.val) 0x57 (min 0xFFFFFF (f.t - tc) * 256 + k.val % 2) s t) ∧
      (f.late = true → f.tc = none → Raised qINC (cmpUnit k.val) 0x57 (0xFFFFFF * 256 + k.val % 2) s t) ∧
      (∀ j, j ≠ k.val → cmpOf t j = cmpOf s j)) ∧
  (∀ (k : Fin 1088) (s : State), deviceUp s = false ∨ (cmpOf s k.val).firing = none → exec (.compareFire k) s = .next s)

/-- TRACKER_EXTRAPOLATION makes the records of the present frame: a port's count at the frame instant is latched with the frame's number,
what comes after the instant is left to the next frame, and every record keeps the previous position (R307, R308; R244). That ports'
records are made at the same command is the model's choice, log 69. GENERATOR_SETPOINT: the record shows the setpoint, rounded to its
formats, and the history takes the acceleration for the next frame; a DORMANT generator stands still (R344, R345).
STANDSTILL_CURRENT_REDUCTION lowers the scale of an operating stepper generator at rest for more than SSR_DELAY frames, and else does
nothing (R370). Ties of a rounding are open, log 1. -/
def Obligations.RecordsAndSetpoints : Prop :=
  (∀ (n : Nat) (s : State), deviceUp s = true → s.time.frame = some n →
    (∀ p, ownPorts s = [p] → ∃ t, exec .trackerExtrapolation s = .next t ∧
      (ipOf t p).latU = countAt (ipOf s p) (instOf s n) ∧ (ipOf t p).latFrame = n % 65536 ∧ (ipOf t p).now = (ipOf s p).now ∧
      (ipOf t p).qeShown = (ipOf t p).view0.qe ∧ (∀ e, e ∈ (ipOf t p).views → instOf s n < (e.1 : Int)) ∧
      (ipOf t p).prevPos = (ipOf s p).record.pos ∧ (ipOf t p).a = (ipOf s p).a ∧ (ipOf t p).u = (ipOf s p).u) ∧
    (∀ c, ownTrackers s = [c] → ∃ t, exec .trackerExtrapolation s = .next t ∧ (tkOf t c).prevPos = (tkOf s c).record.pos ∧
      (stOf s c = .dormant → (tkOf t c).record.fine = false ∧ (tkOf t c).record.pos = 0 ∧ (tkOf t c).record.posBound = 0xFFFF))) ∧
  ((∀ (n g : Nat) (s : State), deviceUp s = true → s.time.frame = some n → ownGens s = [g] → ∃ t, exec .generatorSetpoint s = .next t ∧
    (pgOf t g).spPos = nearest ((pgOf t g).pos * 4294967296) ∧ (pgOf t g).spVel = satS 32 (nearest ((pgOf t g).vel * 65536)) ∧
    (pgOf t g).spAcc = satS 32 (nearest ((pgOf t g).acc * 256)) ∧
    (∃ b, (pgOf t g).accHist.head? = some (n + 1, (pgOf t g).spAcc, b)) ∧
    (stOf s (pgUnit g) = .dormant → (pgOf t g).pos = (pgOf s g).pos ∧ (pgOf t g).vel = 0 ∧ (pgOf t g).acc = 0 ∧ (pgOf t g).spVel = 0 ∧
      (pgOf t g).scale = 0)) ∧
  (∀ (g : Fin 512) (s : State), deviceUp s = true →
    (stepEn s g.val = true → atRest (pgOf s g.val) = true → operates s (pgUnit g.val) = true → stOf s (pgUnit g.val) ≠ .dormant →
      ssrDelay s g.val < (pgOf s g.val).still →
      ∃ t, exec (.standstillCurrentReduction g) s = .next t ∧ (pgOf t g.val).ssr = true ∧ (pgOf t g.val).scale = holdScale s g.val ∧
        (pgOf t g.val).pos = (pgOf s g.val).pos ∧ (∀ k, k ≠ g.val → pgOf t k = pgOf s k)) ∧
    (stepEn s g.val = false ∨ operates s (pgUnit g.val) = false ∨ atRest (pgOf s g.val) = false ∨ (pgOf s g.val).still ≤ ssrDelay s g.val →
      exec (.standstillCurrentReduction g) s = .next s)))

/-- A byte of frame memory reads what was last written to it and every other address reads as before, also over the bytes of a longer
write; the canonical form is kept (R385). The scrubber checks the next sealed tile of its round, when its period has passed: one whose
CRC-32C fails becomes BAD with kind 0x70, raised once where a consumer's check of the tile failed in the same cycle; with SCRUB_PERIOD 0,
and until the period has passed, nothing (R387, R388, R420). -/
def Obligations.FrameMemory : Prop :=
  (∀ (a : Nat) (bs : List Byte) (s : State),
    (∀ k, k < bs.length → memByte (setBytes a bs s) (a + k) = bs.getD k 0) ∧
    (∀ x, (x < a ∨ a + bs.length ≤ x) → memByte (setBytes a bs s) x = memByte s x) ∧
    (MemInv s → MemInv (setBytes a bs s))) ∧
  (∀ s : State, deviceUp s = true →
    (fld (inF s baseFMEM) 16 16 = 0 ∨ s.fm.scrubLeft ≠ 0 → exec .scrubTile s = .next s) ∧
    (fld (inF s baseFMEM) 16 16 ≠ 0 → s.fm.scrubLeft = 0 → scrubNext s = none → ∃ t, exec .scrubTile s = .next t ∧
      t.fm = { s.fm with scrubLeft := fld (inF s baseFMEM) 16 16 } ∧ { t with fm := s.fm } = s) ∧
    (∀ tl, fld (inF s baseFMEM) 16 16 ≠ 0 → s.fm.scrubLeft = 0 → scrubNext s = some tl →
      ∃ t, exec .scrubTile s = .next t ∧ t.fm.scrubPos = (tl + 1) % 16384 ∧ t.fm.scrubLeft = fld (inF s baseFMEM) 16 16 ∧ t.fm.mem = s.fm.mem ∧
        ((tileOf s tl).st ≠ 3 → (tileOf s tl).crc = crc32c (tileBytes s tl) → t.fm.tiles = s.fm.tiles ∧ t.flt = s.flt) ∧
        ((tileOf s tl).st = 3 ∨ (tileOf s tl).st = 2 ∧ (tileOf s tl).crc ≠ crc32c (tileBytes s tl) →
          (tileOf t tl).st = 3 ∧ t.fm.tileFails = satInc 16 s.fm.tileFails ∧ t.fm.lastBad = tl ∧
          (sameCycle true tl s = false → Raised qFMEM 0x616 0x70 (5 * 2 ^ 28 + tileType s tl * 2 ^ 16 + tl) s t) ∧
          (sameCycle true tl s = true → t.flt = s.flt))))

/-- LEDGER_SNAPSHOT takes for each kind below the messages the items of the frame and what is present, and judges the balance (R411,
R413). -/
def Obligations.LedgerBalances : Prop :=
  ∀ (n : Nat) (s : State), hubUp s = true → s.time.frame = some n → ∃ t, exec .ledgerSnapshot s = .next t ∧
    t.fm.ledgerFrame = n % 2 ^ 32 ∧
    (∀ k, k < 8 → (ledOf t k).held = heldNow s k ∧
      (ledOf t k).frameP = (ledOf s k).produced - (ledOf s k).snapP ∧ (ledOf t k).frameC = (ledOf s k).consumed - (ledOf s k).snapC ∧
      (ledOf t k).frameD = (ledOf s k).dropped - (ledOf s k).snapD ∧ (ledOf t k).heldBefore = (ledOf s k).held ∧
      ((ledOf t k).balanced = true ↔
        (ledOf t k).frameP + (ledOf s k).held = (ledOf t k).frameC + (ledOf t k).frameD + heldNow s k)) ∧
    t.fm.mem = s.fm.mem ∧ t.fm.stage = s.fm.stage

/-- RECORD_READY assembles the frame's block in the stage slot of its number; at t_(n+2) every block two frames old has left the stage
region (R404, R405). Egress: the window sends the block in fragments on every port of EG_PORTS that is up; with no port up the copy is
dropped, and where the window closes after some fragments those have left, the copy is dropped and the miss is counted; a copy of no block
waits: nothing (R427 to R429). -/
def Obligations.BlocksAndEgress : Prop :=
  ((∀ (n : Nat) (i : Image) (s : State), deviceUp s = true → s.time.frame = some n → s.conf = some i → s.clk.level = 2 →
    ∃ t, exec .recordReady s = .next t ∧ t.fm.lastFrame = n ∧ t.fm.lastSlot = n % max 1 i.sets.stageSlots ∧
      (∃ e, e ∈ t.fm.stage ∧ e.frame = n ∧ e.slot = n % max 1 i.sets.stageSlots ∧ e.len = t.fm.lastLen) ∧ t.conf = some i) ∧
  (∀ s : State, hubUp s = true → ∃ t, exec .egressForcedEnd s = .next t ∧ (∀ e, e ∈ t.fm.stage → frameN s < e.frame + 2) ∧
    (∀ e, e ∈ s.fm.stage → frameN s < e.frame + 2 → ∃ x, x ∈ t.fm.stage ∧ x.frame = e.frame) ∧ t.fm.mem = s.fm.mem)) ∧
  ((∀ (sent : Nat) (s : State), hubUp s = false ∨ (∀ e, e ∈ s.fm.stage → e.copies.contains 0 = false) → exec (.egressWindowOpen sent) s = .next s) ∧
  ∀ (sent : Nat) (e : StageSlot) (s : State), hubUp s = true → s.fm.stage = [e] → e.copies.contains 0 = true →
    (openSlot 1 (slotTile s e.slot) e.len s).1.all id = true → ∀ n, n = ceilDiv e.len (fragData s) →
    (n ≤ sent → portsUp s ≠ [] → ∃ t, exec (.egressWindowOpen sent) s = .next t ∧ t.net.egFrame = e.frame % 65536 ∧
      t.outbox = s.outbox ++ (portsUp s).map (fun p => .block e.frame p (fld (inF s (baseNET + 0x40)) 8 3) (fragFrames s e n n p)) ∧
      t.net.frerSeq = (if egFrer s = true then s.net.frerSeq + BitVec.ofNat 16 n else s.net.frerSeq) ∧
      t.fm.stage = [{ e with copies := e.copies.filter (· != 0) }] ∧ t.fm.dropsBb = s.fm.dropsBb) ∧
    (portsUp s = [] → ∃ t, exec (.egressWindowOpen sent) s = .next t ∧ t.fm.dropsBb = satInc 8 s.fm.dropsBb ∧ t.outbox = s.outbox ∧
      t.net.egMisses = s.net.egMisses ∧ t.fm.stage = [{ e with copies := e.copies.filter (· != 0) }]) ∧
    (sent < n → portsUp s ≠ [] → ∃ t, exec (.egressWindowOpen sent) s = .next t ∧ t.net.egMisses = satInc 16 s.net.egMisses ∧
      t.outbox = s.outbox ++ (portsUp s).map (fun p => .block e.frame p (fld (inF s (baseNET + 0x40)) 8 3) (fragFrames s e n sent p)) ∧
      t.fm.dropsBb = satInc 8 s.fm.dropsBb ∧ t.fm.stage = [{ e with copies := e.copies.filter (· != 0) }]))

/-- DMA rings and interrupts: a completed copy of an engine that is not halted writes its entry and the writeback and advances P modulo
the ring; a halt is kind 0x89 once, and Bus Master Enable becoming 0 halts every enabled engine; DM_CTRL with EN rising starts at P = 0; a
pending vector is sent once nothing withholds it (R435 to R438). -/
def Obligations.DmaAndVectors : Prop :=
  (∀ (e : Fin 8) (x : StageSlot) (s : State), hubUp s = true → (dmaOf s e.val).halted = false →
    s.fm.stage.find? (fun y => y.copies.contains (e.val + 1)) = some x →
    ∃ t, exec (.dmaCopyComplete e) s = .next t ∧ (dmaOf t e.val).p = ((dmaOf s e.val).p + 1) % dmEntries s e.val ∧
      (dmaOf t e.val).completed = satInc 16 (dmaOf s e.val).completed ∧
      (Output.dma e.val (rw64 s (baseHST + 0x100 + 0x40 * e.val + 4) + (dmaOf s e.val).p * (dmReg s e.val 0x10).toNat) x.frame x.len
        (rw64 s (baseHST + 0x100 + 0x40 * e.val + 0x14))
        (leBytes 8 x.frame ++ leBytes 4 x.len ++ leBytes 2 (dmaOf s e.val).p ++ leBytes 2 (dmaOf t e.val).p)) ∈ t.outbox ∧
      (∀ k, k ≠ e.val → dmaOf t k = dmaOf s k)) ∧
  (∀ (e : Fin 8) (s : State),
    hubUp s = false ∨ (dmaOf s e.val).halted = true ∨ s.fm.stage.find? (fun y => y.copies.contains (e.val + 1)) = none →
    exec (.dmaCopyComplete e) s = .next s) ∧
  (∀ (e : Fin 8) (b : Bool) (s : State), hubUp s = true →
    (dmEn s e.val = true → (dmaOf s e.val).halted = false → ∃ t, exec (.dmaHalt e b) s = .next t ∧ (dmaOf t e.val).halted = true ∧
      (b = false ∨ s.hst.bme = false → Raised qHST 0x618 0x89 e.val s t) ∧
      (b = true → s.hst.bme = true → ∀ k, k < 8 → dmEn s k = true → (dmaOf t k).halted = true) ∧
      (t.hst.bme = if b = true then false else s.hst.bme)) ∧
    ((dmaOf s e.val).halted = true ∨ dmEn s e.val = false → b = false ∨ s.hst.bme = false → ∃ t, exec (.dmaHalt e b) s = .next t ∧ t.hst = { s.hst with bme := if b = true then false else s.hst.bme } ∧
      t.flt = s.flt) ∧
    ((dmaOf s e.val).halted = true ∨ dmEn s e.val = false → b = true → s.hst.bme = true → ∃ t, exec (.dmaHalt e b) s = .next t ∧
      t.hst.bme = false ∧ ∀ k, k < 8 → dmEn s k = true → (dmaOf t k).halted = true)) ∧
  (∀ (e : Fin 8) (v : Word) (s : State), deviceUp s = true → ∃ t, exec (.dmaEnable e v) s = .next t ∧
    dmReg t e.val 0 = v &&& 0xFFFF0001 ∧
    (bitAt v 0 = true → dmEn s e.val = false → (dmaOf t e.val).p = 0) ∧ (bitAt v 0 = false → (dmaOf t e.val).halted = false) ∧
    (bitAt v 0 = dmEn s e.val → (dmaOf t e.val).p = (dmaOf s e.val).p) ∧ (∀ k, k ≠ e.val → dmaOf t k = dmaOf s k)) ∧
  (∀ (v : Fin 64) (s : State),
    (s.hst.msixPend.getLsbD v.val = true → msixOpen s v.val = true → ∃ t, exec (.msixPendingDelivery v) s = .next t ∧
      t.hst.msixPend.getLsbD v.val = false ∧ t.outbox = s.outbox ++ [.msix v.val] ∧ { t with hst := s.hst, outbox := s.outbox } = s) ∧
    (s.hst.msixPend.getLsbD v.val = false ∨ msixOpen s v.val = false → exec (.msixPendingDelivery v) s = .next s))

/-- Cell time follows the grandmaster: a sync message moves cell time by its offset, above 1000 ns the frame instants keep their place;
before the first boundary the frames to come are numbered anew (R14; log 86); eight messages in a row within SYNC_TH, or being the
grandmaster, make the device synchronised, three lost intervals end it; a new grandmaster identity raises kind 0x83 (R39, R40, R426);
CT_INIT sets cell time while no image is in force (R425), a step like any other (log 86). Ports and policing: a port's report is shown,
and its link raises kind 0x80 when it goes down; while the backbone's PLL holds the port no report is taken; a policed frame is discarded
and counted with kind 0x84; the latent error test raises kind 0x87 (R423, R448, R607). That a command brings a port's counts and states is
the model's choice, log 107. -/
def Obligations.BackboneTime : Prop :=
  ((∀ (o : Int) (id : BitVec 64) (k : Nat) (s : State), hubUp s = true → ∃ t, exec (.syncMessage o id k false) s = .next t ∧
    t.time.now = ((s.time.now : Int) - o).toNat ∧ t.time.frame = s.time.frame ∧
    (1000 < o.natAbs → s.time.frame.isSome = true → t.time.slew = s.time.slew - o ∧ t.time.openFrame = s.time.openFrame) ∧
    (1000 < o.natAbs → s.time.frame = none → t.time.slew = 0 ∧ t.time.openFrame = firstOpen t.time.now s ∧
      t.time.firstFrame = t.time.openFrame) ∧
    (o.natAbs ≤ 1000 → t.time.slew = s.time.slew ∧ t.time.openFrame = s.time.openFrame) ∧
    t.net.offset = satS 32 o ∧ t.net.gmId = id ∧ t.net.gm = false ∧ (id ≠ s.net.gmId → Raised qNET 0x617 0x83 (id.toNat % 2 ^ 32) s t) ∧
    t.net.goodRun = (if o.natAbs ≤ syncTh s then min 8 (s.net.goodRun + 1) else 0) ∧
    (t.net.sync = true ↔ o.natAbs ≤ syncTh s ∧ (s.net.sync = true ∨ 7 ≤ s.net.goodRun))) ∧
  (∀ (o : Int) (id : BitVec 64) (k : Nat) (s : State), hubUp s = true → ∃ t, exec (.syncMessage o id k true) s = .next t ∧
    t.time = s.time ∧ t.net.sync = true ∧ t.net.gm = true ∧ t.net.gmId = id ∧ (id ≠ s.net.gmId → Raised qNET 0x617 0x83 (id.toNat % 2 ^ 32) s t)) ∧
  (∀ s : State, hubUp s = true →
    (s.net.gm = true → exec .syncTimeout s = .next s) ∧
    (s.net.gm = false → ∃ t, exec .syncTimeout s = .next t ∧ t.net.sync = false ∧ t.net.goodRun = 0 ∧ condOf t 0x612 0x06 0 = true)) ∧
  (∀ (id : BitVec 64) (s : State), hubUp s = true →
    (∃ t, exec (.grandmasterChange id true) s = .next t ∧ t.net.gmId = id ∧ t.net.gm = true ∧ t.net.gmSteps = 0 ∧ t.net.sync = true ∧
      (id ≠ s.net.gmId → Raised qNET 0x617 0x83 (id.toNat % 2 ^ 32) s t)) ∧
    (∃ t, exec (.grandmasterChange id false) s = .next t ∧ t.net.gmId = id ∧ t.net.gm = false ∧ t.net.sync = s.net.sync ∧
      (id ≠ s.net.gmId → Raised qNET 0x617 0x83 (id.toNat % 2 ^ 32) s t))) ∧
  (∀ (hi : Word) (s : State), deviceUp s = true →
    (s.conf = none → ∀ v d : Int, v = ((rwOf s (baseNET + 0x20)).toNat : Int) + 2 ^ 32 * (hi.toNat : Int) → d = v - s.time.now →
      ∃ t, exec (.ctInit hi) s = .next t ∧ t.net.ctSet = true ∧ (t.time.now : Int) = v ∧ t.time.frame = s.time.frame ∧
        (1000 < d.natAbs → s.time.frame.isSome = true → t.time.slew = s.time.slew + d ∧ t.time.openFrame = s.time.openFrame) ∧
        (1000 < d.natAbs → s.time.frame = none → t.time.slew = 0 ∧ t.time.openFrame = firstOpen t.time.now s) ∧
        (d.natAbs ≤ 1000 → t.time.slew = s.time.slew ∧ t.time.openFrame = s.time.openFrame)) ∧
    (s.conf.isSome = true → ∃ t, exec (.ctInit hi) s = .next t ∧ t.time = s.time ∧ t.net = s.net ∧ t.rw = s.rw ∧
      Raised qHST 0x618 0x8A (baseNET + 0x24) s t))) ∧
  ((∀ (k : Fin 4) (r : PortReport) (s : State),
    (hubUp s = false ∨ clockHeld s 12 = true → exec (.backboneLinkChange k r) s = .next s) ∧
    (hubUp s = true → clockHeld s 12 = false → ∃ t, exec (.backboneLinkChange k r) s = .next t ∧
      bbPortOf t k.val = { bbPortOf s k.val with
        up := r.up, fec := r.fec && r.up, asCapable := r.asCapable && r.up, ptpState := r.ptpState.val, pdelay := r.pdelay.toNat
        rx := ((bbPortOf s k.val).rx + r.rx) % 2 ^ 32, fcs := min 65535 ((bbPortOf s k.val).fcs + r.fcs) } ∧
      (∀ j, j ≠ k.val → bbPortOf t j = bbPortOf s j) ∧
      ((bbPortOf s k.val).up = r.up → { t with net := s.net } = s) ∧
      ((bbPortOf s k.val).up = true → r.up = false → Raised qNET 0x617 0x80 k.val s t) ∧ (r.up = true → t.flt = s.flt))) ∧
  (∀ (f : Fin 64) (p : Fin 4) (s : State), hubUp s = true → ∃ t, exec (.streamGateClosed f p) s = .next t ∧
    bbPortOf t p.val = { bbPortOf s p.val with rx := ((bbPortOf s p.val).rx + 1) % 2 ^ 32, discards := satInc 16 (bbPortOf s p.val).discards } ∧
    Raised qNET 0x617 0x84 f.val s t ∧ { t with net := s.net, flt := s.flt, fm := s.fm } = s) ∧
  (∀ (k : Fin 8) (s : State), hubUp s = true → ∃ t, exec (.latentErrorDetection k) s = .next t ∧ Raised qNET 0x617 0x87 k.val s t ∧
    { t with flt := s.flt, fm := s.fm } = s))

/-- A command message that sequence recovery passes meets its checks in order: a free credit, the tag, a newer sequence number, the
format, its frame, for a record of a spanning beam a frame earlier; an accepted one takes a credit, and the herd's manager relays its
records of spanning beams; a refused one is answered at once with its code; one that recovery eliminates changes nothing but a port
counter; the oldest response due is sent, under the stream's session key (R423, R430, R431, R433, R514). -/
def Obligations.CommandMessages : Prop :=
  (∀ (m : CmdMessage) (s s1 : State), deviceUp s = true → s1 = (recoverMsg m s).2 →
    ((recoverMsg m s).1 = false → ∃ t, exec (.commandMessage m) s = .next t ∧ t.net.msgs = s.net.msgs ∧ t.net.responses = s.net.responses ∧
      t.flt = s.flt ∧ (∀ k, (streamOf t k).used = (streamOf s k).used ∧ (streamOf t k).seq = (streamOf s k).seq)) ∧
    ((recoverMsg m s).1 = true → 8 ≤ m.stream ∨ bitAt (csCtrl s m.stream) 31 = false ∨ csFree s m.stream = 0 →
      ∃ t, exec (.commandMessage m) s = .next t ∧
      t.net.msgs = s.net.msgs ∧ t.net.responses = s.net.responses ∧ Raised qNET 0x617 0x86 (m.stream % 8) s t) ∧
    ((recoverMsg m s).1 = true → m.stream < 8 → bitAt (csCtrl s m.stream) 31 = true → csFree s m.stream ≠ 0 →
      (∀ code, msgTagOk s m = false ∧ code = 2 ∨
          msgTagOk s m = true ∧ m.seq ≤ (streamOf s m.stream).seq ∧ code = 3 ∨
          msgTagOk s m = true ∧ (streamOf s m.stream).seq < m.seq ∧ msgFormat m ≠ 0 ∧ code = msgFormat m →
        ∃ t, exec (.commandMessage m) s = .next t ∧ t.net.msgs = s.net.msgs ∧ t.net.streams = s1.net.streams ∧
          t.net.responses = s.net.responses ++ [{ port := m.port, stream := m.stream, seq := m.seq, result := code, frame := m.frame
                                                  results := List.replicate m.records.length code }] ∧
          Raised qNET 0x617 0x85 (code * 2 ^ 24 + m.stream % 8 * 2 ^ 16 + m.seq % 65536) s t) ∧
      (∀ first, msgTagOk s m = true → (streamOf s m.stream).seq < m.seq → msgFormat m = 0 →
        first = s.time.openFrame + (if m.records.any (fun r => r.op == 2 && herdSpan s r.unit) = true then 1 else 0) →
        (∀ code, m.strict = true ∧ m.frame < first ∧ code = 6 ∨
            (m.strict = true → first ≤ m.frame) ∧ farLimit s < m.frame ∧ code = 5 →
          ∃ t, exec (.commandMessage m) s = .next t ∧ t.net.msgs = s.net.msgs ∧ t.net.streams = s1.net.streams ∧
            t.net.responses = s.net.responses ++ [{ port := m.port, stream := m.stream, seq := m.seq, result := code, frame := m.frame
                                                    results := List.replicate m.records.length code }] ∧
            Raised qNET 0x617 0x85 (code * 2 ^ 24 + m.stream % 8 * 2 ^ 16 + m.seq % 65536) s t) ∧
        ((m.strict = true → first ≤ m.frame) → m.frame ≤ farLimit s → ∃ t, exec (.commandMessage m) s = .next t ∧
          t.net.msgs = s.net.msgs ++ [{ msg := m, target := max m.frame first, late := decide (m.frame < first), results := [] }] ∧
          (streamOf t m.stream).used = (streamOf s m.stream).used + 1 ∧ (streamOf t m.stream).seq = m.seq ∧
          t.net.responses = s.net.responses ∧ t.flt = s.flt ∧
          t.outbox = s.outbox ++ (if s.rst.herdMgr = true then (m.records.filter (fun r => r.op == 2 && herdSpan s r.unit)).map
            (fun r => .herdRelay r.unit r.arg (max m.frame first)) else []))))) ∧
  (∀ (r : Response) (rest : List Response) (s : State), hubUp s = true → s.net.responses = r :: rest → ∃ t, exec .commandResponse s = .next t ∧
    t.net.responses = rest ∧
    t.outbox = s.outbox ++ [.response r (csFree s r.stream) (fld (csCtrl s r.stream) 16 3)
      (if (sessionOf s (1 + r.stream)).isOpen = true
        then gmac (sessionOf s (1 + r.stream)).key (gcmIv 3 (r.stream * 2 ^ 32 + r.seq)) (responseBytes r (csFree s r.stream)) else 0)] ∧
    (bbPortOf t r.port.val).tx = ((bbPortOf s r.port.val).tx + 1) % 2 ^ 32) ∧
  (∀ s : State, hubUp s = false ∨ s.net.responses = [] → exec .commandResponse s = .next s)

/-- A page command on a unit that exists and is no infrastructure unit: pending for the greater of its target and the first open frame,
for a spanning beam a frame later, with its sequence number, and relayed to the herd for a spanning beam; BUSY while one is pending;
refused where its target is too far, and with kind 0x9C on a spanning beam of a worker; on an infrastructure unit it raises kind 0x15; on
a unit that does not exist it does nothing (R50, R51, R52, R482). The state a valid command leads to (Table 2-4): no command leaves
PREPARING for READY, only CLEAR and RESET leave FAULTED, and RESET leads to DORMANT from every state. -/
def Obligations.UnitCommands : Prop :=
  (∀ (i : Instr) (code : Nat) (u : BitVec 12) (at_ : Bool) (s : State), deviceUp s = true →
    (i = .prepare u at_ ∧ code = 1 ∨ i = .start u at_ ∧ code = 2 ∨ i = .hold u at_ ∧ code = 3 ∨ i = .resume u at_ ∧ code = 4 ∨
      i = .stop u at_ ∧ code = 5 ∨ i = .quickstop u at_ ∧ code = 6 ∨ i = .clear u at_ ∧ code = 7 ∨ i = .reset u at_ ∧ code = 8) →
    (isInfra u.toNat = true → ∃ t, exec i s = .next t ∧ Raised qUNIT u.toNat 0x15 ((cmdState s u.toNat).code * 16 + code) s t ∧
      { t with flt := s.flt, fm := s.fm } = s) ∧
    (unitExists s u.toNat = false → exec i s = .next s) ∧
    (isInfra u.toNat = false → unitExists s u.toNat = true → herdSpan s u.toNat = true → s.rst.herdMgr = false →
      (unitOf s u.toNat).page = none → ∃ t, exec i s = .next t ∧ unitOf t u.toNat = { unitOf s u.toNat with result := 6 } ∧
      Raised qHRD u.toNat 0x9C code s t ∧ { t with units := s.units, flt := s.flt, fm := s.fm } = s) ∧
    ∀ op want, isInfra u.toNat = false → unitExists s u.toNat = true →
    op = s.time.openFrame + (if herdSpan s u.toNat = true then 1 else 0) →
    want = (if at_ = true then rw64 s (baseUNIT + 0x100 * u.toNat + 0x10) else op) →
    (herdSpan s u.toNat = false ∨ s.rst.herdMgr = true → (unitOf s u.toNat).page = none → want ≤ farLimit s → ∃ t, exec i s = .next t ∧
      unitOf t u.toNat = { unitOf s u.toNat with
        page := some { code, target := max want op, late := decide (want < op) }
        seq := ((unitOf s u.toNat).seq + 1) % 65536, result := 1, cmdFrame := max want op } ∧
      t.outbox = s.outbox ++ (if herdSpan s u.toNat = true then [.herdRelay u.toNat code (max want op)] else []) ∧
      (∀ w, w ≠ u.toNat → unitOf t w = unitOf s w) ∧ { t with units := s.units, fm := s.fm, outbox := s.outbox } = s) ∧
    ((unitOf s u.toNat).page.isSome = true → ∃ t, exec i s = .next t ∧ unitOf t u.toNat = { unitOf s u.toNat with result := 4 } ∧
      { t with units := s.units } = s) ∧
    (herdSpan s u.toNat = false ∨ s.rst.herdMgr = true → (unitOf s u.toNat).page = none → farLimit s < want → ∃ t, exec i s = .next t ∧
      unitOf t u.toNat = { unitOf s u.toNat with result := 5 } ∧ { t with units := s.units } = s)) ∧
  ((∀ (st : UState) (code : Nat), cmdNext st code ≠ some .ready ∧ cmdNext st code ≠ some .faulted) ∧
  (∀ code, (cmdNext .faulted code).isSome = true ↔ code = 7 ∨ code = 8) ∧
  (∀ st, cmdNext st 8 = some .dormant) ∧
  (∀ st code, cmdNext st code = some .active ↔ (st = .ready ∧ code = 2) ∨ (st = .holding ∧ code = 4)) ∧
  (∀ st, (cmdNext st 1).isSome = true ↔ st = .dormant))

/-- PREPARE_LIMIT_EXPIRY of a unit whose last frame of preparation passes raises kind 0x1B and faults it at the boundary; TINE_IDLE ends
its share of the handshakes; IDLE_TIMEOUT faults every tine of the oldest handshake that is not idle, with kind 0x02, and with no
handshake in progress does nothing (R49, R71, R613). -/
def Obligations.PreparationAndIdle : Prop :=
  (∀ (u : BitVec 12) (s : State),
    (stOf s u.toNat = .preparing → (unitOf s u.toNat).prepDone = false → (unitOf s u.toNat).faultDue = false →
      (unitOf s u.toNat).prepLeft = some 1 → ∃ t, exec (.prepareLimitExpiry u) s = .next t ∧
        unitOf t u.toNat = { unitOf s u.toNat with faultDue := true } ∧ (∀ w, w ≠ u.toNat → unitOf t w = unitOf s w) ∧
        Raised qUNIT u.toNat 0x1B 0 s t ∧ { t with units := s.units, flt := s.flt, fm := s.fm } = s) ∧
    (stOf s u.toNat ≠ .preparing ∨ (unitOf s u.toNat).prepDone = true → exec (.prepareLimitExpiry u) s = .next s)) ∧
  (∀ (u : BitVec 12) (s : State), ∃ t, exec (.tineIdle u) s = .next t ∧
    (∀ r, r ∈ t.rst.idle → u.toNat ∉ r.waiting ∧ r.waiting ≠ []) ∧
    (∀ r, r ∈ s.rst.idle → u.toNat ∉ r.waiting → r.waiting ≠ [] → r ∈ t.rst.idle) ∧
    { t with rst := { t.rst with idle := s.rst.idle } } = s) ∧
  (∀ (r : IdleRun) (rest : List IdleRun) (s : State), s.rst.idle = r :: rest → ∃ t, exec .idleTimeout s = .next t ∧ t.rst.idle = rest ∧
    (∀ u, u ∈ r.waiting → (unitOf t u).faultDue = true) ∧ (∀ u, u ∉ r.waiting → unitOf t u = unitOf s u) ∧
    (∀ u, r.waiting = [u] → Raised qRST u 0x02 (idleTo s) s t)) ∧
  (∀ s : State, s.rst.idle = [] → exec .idleTimeout s = .next s)

/-- An accepted COMMIT takes a snapshot of every shadow write received before it and leaves none; a shadow write received after it waits
for the next COMMIT (R22); of a field written twice the snapshot holds the last value (R38). -/
def Obligations.CommitTakesShadowWrites : Prop :=
  (∀ (v : Word) (want : Nat) (s : State), deviceUp s = true → bitAt v 0 = true → s.commit.snap = none →
    want = (if bitAt v 1 = true then s.time.openFrame else rw64 s (baseCFG + 0x220)) → want ≤ farLimit s →
    ∃ t, exec (.commit v) s = .next t ∧ t.commit.snap = some (s.written.map (fun e => (e.1, shadowOf s e.1))) ∧ t.written = [] ∧
      (∀ (off : Nat) (w : Word) (i : RegInfo), off % 4 = 0 → 0x4000000 ≤ off → off / 0x100000 ≠ 0x85 → regAt s off = some i → i.acc = .rws →
        ∃ u, exec (.registerWrite off w 0xF) t = .next u ∧ u.commit = t.commit ∧ Tbl.get (constD false) u.written off = true)) ∧
  (∀ (off : Nat) (v w : Word) (i : RegInfo) (s : State), deviceUp s = true → off % 4 = 0 → 0x4000000 ≤ off → off / 0x100000 ≠ 0x85 →
    regAt s off = some i → i.acc = .rws → s.commit.snap = none → s.time.openFrame ≤ farLimit s →
    ∃ a b t l, exec (.registerWrite off v 0xF) s = .next a ∧ exec (.registerWrite off w 0xF) a = .next b ∧ exec (.commit 3) b = .next t ∧
      t.commit.snap = some l ∧ (off, w &&& wordN i.mask) ∈ l ∧ (∀ x, (off, x) ∈ l → x = w &&& wordN i.mask))

/-- A COMMIT write with GO takes every uncommitted shadow write into a snapshot for the greater of its target and the first open frame;
BUSY while a snapshot is pending; TOO_FAR beyond the limit; without GO nothing happens (R22 to R27). -/
def Obligations.CommitSnapshots : Prop :=
  ∀ (v : Word) (s : State), deviceUp s = true →
    (bitAt v 0 = false → exec (.commit v) s = .next s) ∧
    (bitAt v 0 = true → s.commit.snap.isSome = true → exec (.commit v) s = .next { s with commit := { s.commit with result := 4 } }) ∧
    (∀ want, want = (if bitAt v 1 = true then s.time.openFrame else rw64 s (baseCFG + 0x220)) → bitAt v 0 = true → s.commit.snap = none →
      (farLimit s < want → exec (.commit v) s = .next { s with commit := { s.commit with result := 5 } }) ∧
      (want ≤ farLimit s → ∃ t, exec (.commit v) s = .next t ∧ t.written = [] ∧
        t.commit = { snap := some (s.written.map (fun e => (e.1, shadowOf s e.1))), late := decide (want < s.time.openFrame)
                     seq := (s.commit.seq + 1) % 65536, result := 1, frame := max want s.time.openFrame } ∧
        t.inForce = s.inForce ∧ t.shadow = s.shadow ∧ { t with written := s.written, commit := s.commit, fm := s.fm, se := s.se } = s))

/-- The slot requests: STAGE of a source in SCRATCH begins its checks and ends with the image STAGED, or with another code and the slot as
it was; SWITCH and REVERT wait for the greater of their target and the first open frame, and end at once with FAR beyond the limit;
DISCARD_STAGED empties the slot; every request is ignored with kind 0x1E while one waits; with nothing to switch to, NO_IMAGE at once, and
a SWITCH in velvet VELVET; STAGE_COMPLETE with no STAGE in progress does nothing (R59 to R62, R67, R68). That STAGE reads the image's
bytes as it completes, and that a SWITCH in velvet with nothing staged reports VELVET, is the model's choice, log 88. VELVET_END once the
frames have passed without a fault: the velvet is over and a deferred floor applies, in both stored copies (R63, R510). -/
def Obligations.SlotRequests : Prop :=
  ((∀ s : State, deviceUp s = true → slotBusy s = true →
    (∃ t, exec .stage s = .next t ∧ t.slots = s.slots ∧ Raised qCFG 0x610 0x1E 1 s t) ∧
    (∀ nx, ∃ t, exec (.switch nx) s = .next t ∧ t.slots = s.slots ∧ Raised qCFG 0x610 0x1E 2 s t) ∧
    (∃ t, exec .discardStaged s = .next t ∧ t.slots = s.slots ∧ Raised qCFG 0x610 0x1E 3 s t) ∧
    (∀ nx, ∃ t, exec (.revert nx) s = .next t ∧ t.slots = s.slots ∧ Raised qCFG 0x610 0x1E 4 s t)) ∧
  (∀ (off len : Nat) (s : State), deviceUp s = true → slotBusy s = false → off = (rwOf s (baseCFG + 0x34)).toNat →
    len = (rwOf s (baseCFG + 0x38)).toNat →
    (off % 4096 = 0 → len ≠ 0 → len ≤ 0x400000 → inScratch s off len = true → ∃ t, exec .stage s = .next t ∧
      t.slots = { s.slots with stageRun := some (off, len) } ∧ { t with slots := s.slots, fm := s.fm } = s) ∧
    (off % 4096 ≠ 0 ∨ len = 0 ∨ 0x400000 < len ∨ inScratch s off len = false → ∃ t, exec .stage s = .next t ∧ t.slots.code = 0xE ∧
      t.slots.detail = 0 ∧ t.slots.fresh = true ∧ t.slots.seq = (s.slots.seq + 1) % 65536 ∧ t.slots.staged = s.slots.staged ∧
      Raised qSEC 0x610 0x10 0 s t)) ∧
  (∀ (off len : Nat) (s : State), deviceUp s = true → s.slots.stageRun = some (off, len) → ∃ t, exec .stageComplete s = .next t ∧
    t.slots.stageRun = none ∧ t.slots.fresh = true ∧ t.slots.seq = (s.slots.seq + 1) % 65536 ∧ t.slots.active = s.slots.active ∧
    (t.slots.code = 1 → t.slots.staged = some (memBytes s off len)) ∧ (t.slots.code ≠ 1 → t.slots.staged = s.slots.staged)) ∧
  (∀ s : State, deviceUp s = true → slotBusy s = false → ∃ t, exec .discardStaged s = .next t ∧ t.slots.staged = none ∧ t.slots.code = 1 ∧
    t.slots.fresh = true ∧ t.slots.active = s.slots.active ∧ t.slots.previous = s.slots.previous) ∧
  (∀ (nx : Bool) (want : Nat) (s : State), deviceUp s = true → slotBusy s = false →
    want = (if nx = true then s.time.openFrame else rw64 s (baseCFG + 0x3C)) → want ≤ farLimit s →
    (s.slots.staged.isSome = true → s.slots.velvet = none → ∃ t, exec (.switch nx) s = .next t ∧
      t.slots = { s.slots with pend := some { revert := false, target := max want s.time.openFrame }, switchFrame := max want s.time.openFrame } ∧
      { t with slots := s.slots, fm := s.fm } = s) ∧
    (s.slots.previous.isSome = true → ∃ t, exec (.revert nx) s = .next t ∧
      t.slots = { s.slots with pend := some { revert := true, target := max want s.time.openFrame }, switchFrame := max want s.time.openFrame } ∧
      { t with slots := s.slots, fm := s.fm } = s)) ∧
  (∀ (nx : Bool) (s : State), deviceUp s = true → slotBusy s = false →
    (s.slots.staged = none → s.slots.velvet = none → ∃ t, exec (.switch nx) s = .next t ∧ t.slots.code = 9 ∧ t.slots.pend = none) ∧
    (s.slots.velvet.isSome = true → ∃ t, exec (.switch nx) s = .next t ∧ t.slots.code = 0xB ∧ t.slots.pend = none) ∧
    (farLimit s < (if nx = true then s.time.openFrame else rw64 s (baseCFG + 0x3C)) → s.slots.staged.isSome = true → s.slots.velvet = none →
      ∃ t, exec (.switch nx) s = .next t ∧ t.slots.code = 0xC ∧ t.slots.pend = none) ∧
    (farLimit s < (if nx = true then s.time.openFrame else rw64 s (baseCFG + 0x3C)) → s.slots.previous.isSome = true →
      ∃ t, exec (.revert nx) s = .next t ∧ t.slots.code = 0xC ∧ t.slots.pend = none) ∧
    (s.slots.previous = none → ∃ t, exec (.revert nx) s = .next t ∧ t.slots.code = 9 ∧ t.slots.pend = none)) ∧
  (∀ s : State, s.slots.stageRun = none → exec .stageComplete s = .next s)) ∧
  (∀ (v : Nat) (s : State), deviceUp s = true → s.slots.velvet = some v →
    (v + velvetFrames s ≤ frameN s → s.slots.velvetFault = false → ∃ t, exec .velvetEnd s = .next t ∧ t.slots = { s.slots with velvet := none } ∧
      (s.sec.floorPending = none → { t with slots := s.slots } = s) ∧
      (∀ f, s.sec.floorPending = some f → t.sec = { s.sec with
          floor := max s.sec.floor f, floorA := floorCopy (max s.sec.floor f), floorB := floorCopy (max s.sec.floor f), floorPending := none } ∧
        Raised qSEC 0x615 0xA4 f s t)) ∧
    (frameN s < v + velvetFrames s ∨ s.slots.velvetFault = true → exec .velvetEnd s = .next s))

/-- A rollback and a pending REVERT at one boundary: the rollback applies, the REVERT completes with NO_IMAGE (R73). -/
def Obligations.RollbackBeatsRevert : Prop :=
  ∀ (v m : Nat) (s : State), deviceUp s = true → s.slots.velvet = some v → s.slots.velvetFault = true → barred s s.slots.previous = false →
    s.slots.pend = some { revert := true, target := m } → m ≤ nextFrame s →
    ∃ t, exec .frameBoundary s = .next t ∧ t.slots.active = s.slots.previous ∧ t.slots.previous = none ∧ t.slots.velvet = none ∧
      t.slots.code = 9 ∧ t.slots.fresh = true ∧ t.slots.pend = none ∧
      (s.slots.previous = none → t.slots.seq = (s.slots.seq + 1) % 65536) ∧
      (∀ b i, s.slots.previous = some b → checkImage s b b.length = .ok i → t.slots.seq = (s.slots.seq + 1) % 65536)

/-- OWN_BURN and SLOT_REVOKE under a block that passes its checks burn the fuse of the slot that it names, once and never so as to leave
no usable slot; a burn that fails burns nothing and reports FUSE_FAIL; a block that fails its checks, or is not in SCRATCH, changes no
fuse and raises kind 0xA1 (R502 to R504, R519). That a service's work runs at its request is the model's choice, log 29, and when a burn
fails is free, log 108. -/
def Obligations.OwnerServices : Prop :=
  ∀ (s : State) (b : List Byte) (k : Nat), deviceUp s = true → s.hst.svc = none →
    (scratchArg s (authLen 1) = some b → k = leAt (authPayload b 1) 0 1 →
      (authCheck s 1 b = 0 → k ≤ 3 → s.sec.burned.getLsbD k = false → Config.fuseFails k (Config.freeWord s.freeCtr) = true →
        ∃ t, exec .ownBurn s = .next t ∧ t.hst.svcDone = some (0xC, []) ∧ t.sec = s.sec ∧ t.flt = s.flt) ∧
      (authCheck s 1 b = 0 → 3 < k → ∃ t, exec .ownBurn s = .next t ∧ t.sec = s.sec ∧ t.hst.svcDone = some (5, []) ∧
        Raised qSEC 0x615 0xA1 (3 * 65536 + 5) s t) ∧
      (authCheck s 1 b = 0 → k ≤ 3 → s.sec.burned.getLsbD k = false → Config.fuseFails k (Config.freeWord s.freeCtr) = false →
        ∃ t, exec .ownBurn s = .next t ∧
        t.hst.svc = some 3 ∧ t.hst.svcDone = some (1, []) ∧ t.sec.burned = s.sec.burned ||| BitVec.ofNat 4 (2 ^ k) ∧
        Tbl.get (constD 0) t.sec.hashes k = digestOf (((authPayload b 1).drop 0x10).take 48) ∧ t.sec.revoked = s.sec.revoked ∧
        Raised qSEC 0x615 0xA2 k s t) ∧
      (authCheck s 1 b = 0 → k ≤ 3 → s.sec.burned.getLsbD k = true → ∃ t, exec .ownBurn s = .next t ∧ t.sec = s.sec ∧
        t.hst.svcDone = some (6, []) ∧ Raised qSEC 0x615 0xA1 (3 * 65536 + 6) s t) ∧
      (authCheck s 1 b ≠ 0 → ∃ t, exec .ownBurn s = .next t ∧ t.sec = s.sec ∧ t.hst.svcDone = some (authCheck s 1 b, []) ∧
        Raised qSEC 0x615 0xA1 (3 * 65536 + authCheck s 1 b) s t)) ∧
    (scratchArg s (authLen 1) = none → ∃ t, exec .ownBurn s = .next t ∧ t.sec = s.sec ∧ t.hst.svcDone = some (5, []) ∧
      Raised qSEC 0x615 0xA1 (3 * 65536 + 5) s t) ∧
    (scratchArg s (authLen 2) = none → ∃ t, exec .slotRevoke s = .next t ∧ t.sec = s.sec ∧ t.hst.svcDone = some (5, []) ∧
      Raised qSEC 0x615 0xA1 (4 * 65536 + 5) s t) ∧
    (scratchArg s (authLen 2) = some b → authCheck s 2 b ≠ 0 → ∃ t, exec .slotRevoke s = .next t ∧ t.sec = s.sec ∧
      t.hst.svcDone = some (authCheck s 2 b, []) ∧ Raised qSEC 0x615 0xA1 (4 * 65536 + authCheck s 2 b) s t) ∧
    (scratchArg s (authLen 2) = some b → k = leAt (authPayload b 2) 0 1 → authCheck s 2 b = 0 → 3 < k →
      ∃ t, exec .slotRevoke s = .next t ∧ t.sec = s.sec ∧ t.hst.svcDone = some (5, [])) ∧
    (scratchArg s (authLen 2) = some b → k = leAt (authPayload b 2) 0 1 → authCheck s 2 b = 0 → k ≤ 3 →
      (s.sec.burned &&& ~~~(s.sec.revoked ||| BitVec.ofNat 4 (2 ^ k)) ≠ 0 → Config.fuseFails (4 + k) (Config.freeWord s.freeCtr) = true →
        ∃ t, exec .slotRevoke s = .next t ∧ t.hst.svcDone = some (0xC, []) ∧ t.sec = s.sec ∧ t.flt = s.flt) ∧
      (s.sec.burned &&& ~~~(s.sec.revoked ||| BitVec.ofNat 4 (2 ^ k)) ≠ 0 → Config.fuseFails (4 + k) (Config.freeWord s.freeCtr) = false →
        ∃ t, exec .slotRevoke s = .next t ∧
        t.hst.svcDone = some (1, []) ∧ t.sec = { s.sec with revoked := s.sec.revoked ||| BitVec.ofNat 4 (2 ^ k) } ∧ Raised qSEC 0x615 0xA3 k s t) ∧
      (s.sec.burned &&& ~~~(s.sec.revoked ||| BitVec.ofNat 4 (2 ^ k)) = 0 → ∃ t, exec .slotRevoke s = .next t ∧ t.sec = s.sec ∧
        t.hst.svcDone = some (8, [])))

/-- Image keys and the floor: IMGKEY_LOAD stores the key that the wrap yields, sealed under a key of the device, and a wrap that does not
open is refused; IMGKEY_ERASE empties its index; FLOOR_RAISE takes a value above the floor and at most ACTIVE's SECURITY_VERSION, in both
stored copies, and in a velvet defers it (R508, R510). Some result codes are the model's reading, log 30. -/
def Obligations.KeysAndFloor : Prop :=
  (∀ (s : State) (b p : List Byte) (key : List Byte) (k : Nat), deviceUp s = true → s.hst.svc = none → scratchArg s (authLen 3) = some b →
    authCheck s 3 b = 0 → p = authPayload b 3 → k = leAt p 4 1 → k ≤ 3 →
    (gcmDecrypt (hkdf (ecdh identityScalar ((p.drop 0x10).take 96)) uidBytes (ascii "RJA-512 image key")) ((p.drop 0x70).take 12)
      (p.take 4) ((p.drop 0x7C).take 32) ((p.drop 0x9C).take 16) = some key →
      ∃ t, exec .imgkeyLoad s = .next t ∧ t.hst.svcDone = some (1, []) ∧
        Tbl.get (constD none) t.sec.imgKeys k = some (sealImageKey (leAt p 0 4) key (leBytes 12 (Config.freeWord s.freeCtr))) ∧
        (∀ j, j ≠ k → Tbl.get (constD none) t.sec.imgKeys j = Tbl.get (constD none) s.sec.imgKeys j) ∧ t.flt = s.flt) ∧
    (gcmDecrypt (hkdf (ecdh identityScalar ((p.drop 0x10).take 96)) uidBytes (ascii "RJA-512 image key")) ((p.drop 0x70).take 12)
      (p.take 4) ((p.drop 0x7C).take 32) ((p.drop 0x9C).take 16) = none →
      ∃ t, exec .imgkeyLoad s = .next t ∧ t.hst.svcDone = some (4, []) ∧ t.sec = s.sec ∧ Raised qSEC 0x615 0xA1 (5 * 65536 + 4) s t)) ∧
  (∀ (s : State) (b : List Byte), deviceUp s = true → s.hst.svc = none → scratchArg s (authLen 3) = some b → authCheck s 3 b ≠ 0 →
    ∃ t, exec .imgkeyLoad s = .next t ∧ t.sec = s.sec ∧ t.hst.svcDone = some (authCheck s 3 b, []) ∧
      Raised qSEC 0x615 0xA1 (5 * 65536 + authCheck s 3 b) s t) ∧
  (∀ s : State, deviceUp s = true → s.hst.svc = none → 3 < (svcArg s 0).toNat →
    ∃ t, exec .imgkeyErase s = .next t ∧ t.hst.svcDone = some (5, []) ∧ t.sec = s.sec) ∧
  (∀ (s : State) (k : Nat), deviceUp s = true → s.hst.svc = none → k = (svcArg s 0).toNat → k ≤ 3 →
    ((Tbl.get (constD none) s.sec.imgKeys k).isSome = true → ∃ t, exec .imgkeyErase s = .next t ∧ t.hst.svcDone = some (1, []) ∧
      Tbl.get (constD none) t.sec.imgKeys k = none ∧ (∀ j, j ≠ k → Tbl.get (constD none) t.sec.imgKeys j = Tbl.get (constD none) s.sec.imgKeys j)) ∧
    ((Tbl.get (constD none) s.sec.imgKeys k).isNone = true → ∃ t, exec .imgkeyErase s = .next t ∧ t.hst.svcDone = some (0xA, []) ∧ t.sec = s.sec)) ∧
  (∀ (s : State) (v : Nat), deviceUp s = true → s.hst.svc = none → v = (svcArg s 0).toNat →
    (s.sec.floor < v → v ≤ activeSecVersion s → s.slots.velvet = none → ∃ t, exec .floorRaise s = .next t ∧ t.hst.svc = some 7 ∧
      t.hst.svcDone = some (1, []) ∧ t.sec = { s.sec with floor := v, floorA := floorCopy v, floorB := floorCopy v } ∧ Raised qSEC 0x615 0xA4 v s t) ∧
    (s.sec.floor < v → v ≤ activeSecVersion s → s.slots.velvet.isSome = true → ∃ t, exec .floorRaise s = .next t ∧ t.hst.svcCode = 9 ∧
      t.sec = { s.sec with floorPending := some v } ∧ t.flt = s.flt) ∧
    (v ≤ s.sec.floor ∨ activeSecVersion s < v → ∃ t, exec .floorRaise s = .next t ∧ t.hst.svcDone = some (5, []) ∧ t.sec = s.sec))

/-- Every service of the mailbox is ignored with kind 0x8D while one runs (spec/13 R443, R444). CERT_GET, ATTEST, SESSION_OPEN,
SESSION_CLOSE run as services; SERVICE_COMPLETE publishes the result, and then SESSION_OPEN's key and SESSION_CLOSE's end wait for the
first boundary whose cut-off has not passed; SERVICE_TIMEOUT ends a running service with the timeout's code; with no service running
neither does anything; a session request of the backbone that passes is answered at once (R444, R512, R513, R516). That a service's work
runs at its request, and some codes, are the model's choice, logs 29 and 30. -/
def Obligations.ServicesAndSessions : Prop :=
  (∀ (s : State) (c : Instr) (code : Nat), deviceUp s = true → s.hst.svc.isSome = true →
    (c = .certGet ∧ code = 1 ∨ c = .attest ∧ code = 2 ∨ c = .ownBurn ∧ code = 3 ∨ c = .slotRevoke ∧ code = 4 ∨ c = .imgkeyLoad ∧ code = 5 ∨
      c = .imgkeyErase ∧ code = 6 ∨ c = .floorRaise ∧ code = 7 ∨ c = .sessionOpen ∧ code = 8 ∨ c = .sessionClose ∧ code = 9 ∨
      c = .attach ∧ code = 0x40 ∨ c = .detach ∧ code = 0x41 ∨ c = .ownSet ∧ code = 0x42 ∨ c = .herdEnum ∧ code = 0x48) →
    ∃ t, exec c s = .next t ∧ Raised qHST 0x618 0x8D code s t ∧ { t with flt := s.flt, fm := s.fm } = s) ∧
  ((∀ s : State, deviceUp s = true → s.hst.svc = none →
    (∃ t, exec .certGet s = .next t ∧ t = { s with hst := { s.hst with
      svc := some 1, svcDone := some (1, leBytes 4 Config.vendorCert.length ++ Config.vendorCert) } }) ∧
    (∃ t, exec .attest s = .next t ∧ t = { s with hst := { s.hst with svc := some 2, svcDone := some (1, attestReport s) } }) ∧
    (∀ req, scratchArg s 0x280 = some req → sessionCheck s true req = 0 → ∃ t, exec .sessionOpen s = .next t ∧
      t = { s with hst := { s.hst with svc := some 8, svcDone := some (1, req) } }) ∧
    (∀ req, scratchArg s 0x280 = some req → sessionCheck s true req ≠ 0 → ∃ t, exec .sessionOpen s = .next t ∧ t.sec = s.sec ∧
      t.hst.svcDone = some (sessionCheck s true req, []) ∧
      Raised qSEC 0x615 0xA6 (leAt req 0 1 % 16 * 256 + sessionCheck s true req) s t) ∧
    ((svcArg s 0).toNat ≤ 9 → ∃ t, exec .sessionClose s = .next t ∧ t = { s with hst := { s.hst with
      svc := some 9, svcDone := some (1, leBytes 4 (svcArg s 0).toNat) } }) ∧
    (9 < (svcArg s 0).toNat → ∃ t, exec .sessionClose s = .next t ∧ t = { s with hst := { s.hst with svc := some 9, svcDone := some (5, []) } })) ∧
  (∀ (s : State) (code r : Nat) (data : List Byte), deviceUp s = true → s.hst.svc = some code → s.hst.svcDone = some (r, data) →
    (code ≠ 8 ∧ code ≠ 9 ∨ r ≠ 1 → ∃ t, exec .serviceComplete s = .next t ∧ t.hst.svc = none ∧ t.hst.svcFresh = true ∧ t.hst.svcCode = r ∧ t.hst.svcData = data ∧
      t.hst.svcSeq = (s.hst.svcSeq + 1) % 65536 ∧ t.sec = s.sec) ∧
    (code = 9 → r = 1 → ∃ t, exec .serviceComplete s = .next t ∧ t.hst.svc = none ∧ t.hst.svcFresh = true ∧ t.hst.svcCode = 1 ∧
      (sessionOf t (leNat data)).due = (sessionOf s (leNat data)).due ++ [(s.time.openFrame, none)] ∧
      (∀ k, k ≠ leNat data → sessionOf t k = sessionOf s k)) ∧
    (code = 8 → r = 1 → ∃ t key, exec .serviceComplete s = .next t ∧ t.hst.svc = none ∧ t.hst.svcCode = 1 ∧
      (sessionOf t (leAt data 0 1)).issued = nextEpoch (sessionOf s (leAt data 0 1)).issued ∧
      (sessionOf t (leAt data 0 1)).due = (sessionOf s (leAt data 0 1)).due ++
        [(s.time.openFrame, some (key, nextEpoch (sessionOf s (leAt data 0 1)).issued))])) ∧
  (∀ (s : State), deviceUp s = true → s.hst.svc.isSome = true → ∃ t, exec .serviceTimeout s = .next t ∧ t.hst.svc = none ∧ t.hst.svcCode = 3 ∧
    t.hst.svcFresh = true ∧ t.sec = s.sec) ∧
  (∀ s : State, s.hst.svc = none → exec .serviceComplete s = .next s ∧ exec .serviceTimeout s = .next s) ∧
  (∀ (s : State) (req : List Byte), deviceUp s = true →
    (sessionCheck s false req = 0 → ∃ t rep, exec (.sessionRequestMessage req) s = .next t ∧ t.outbox = s.outbox ++ [.sessionReply rep] ∧
      (sessionOf t (leAt req 0 1)).due.length = (sessionOf s (leAt req 0 1)).due.length + 1) ∧
    (sessionCheck s false req ≠ 0 → ∃ t, exec (.sessionRequestMessage req) s = .next t ∧ t.sec = s.sec ∧ t.outbox = s.outbox ∧
      Raised qSEC 0x615 0xA6 (leAt req 0 1 % 16 * 256 + sessionCheck s false req) s t)))

/-- The debug port: SVT_CHAL reads the challenge; SVT_UNLOCK draws a new challenge at every attempt, and only a good one opens the port,
closes every session and forces the alarm; BYPASS and IDCODE change no more than the instruction register; fuses are programmed only while
the device is unowned (R517, R598). That programming adds bits to the fuses, and that a locked port selects BYPASS, is the model's
reading, log 31; the identification code is open, log 1. An access of the debug port: the locked port offers none; the open one has every
register as a host access has it, every byte of frame memory, every word of the engines' memories, and what the persistent store holds
beside the image keys and the certificate (R517). Which memories these are is the model's reading, log 48. -/
def Obligations.DebugPort : Prop :=
  ((∀ s : State, exec .svtChal s = .next { s with
    sec := { s.sec with jtagIr := .svtChal }, outbox := s.outbox ++ [.readData (leBytes 32 s.sec.dbgChal.toNat)] }) ∧
  (∀ (k : Nat) (pub sig : List Byte) (s : State),
    ((slotUsable s k && sha384 pub == ownerHash s k && ecdsaVerify pub (leBytes 32 s.sec.dbgChal.toNat ++ uidBytes) sig) = true →
      ∃ t, exec (.svtUnlock k pub sig) s = .next t ∧ t.sec.dbgUnlocked = true ∧ t.sec.dbgLocked = false ∧ t.sec.alarmForced = true ∧
        t.flt.alarm = true ∧ (∀ i, (sessionOf t i).isOpen = false) ∧ t.freeCtr = s.freeCtr + 1 ∧
        (deviceUp s = true → Raised qSEC 0x615 0xA7 k s t)) ∧
    ((slotUsable s k && sha384 pub == ownerHash s k && ecdsaVerify pub (leBytes 32 s.sec.dbgChal.toNat ++ uidBytes) sig) = false →
      ∃ t, exec (.svtUnlock k pub sig) s = .next t ∧ t.sec.dbgUnlocked = s.sec.dbgUnlocked ∧ t.sec.dbgLocked = s.sec.dbgLocked ∧
        t.sec.sessions = s.sec.sessions ∧ t.flt = s.flt ∧ t.freeCtr = s.freeCtr + 1)) ∧
  (∀ s : State, exec .jtagBypass s = .next { s with sec := { s.sec with jtagIr := .bypass } }) ∧
  (∀ s : State, ∃ t x, exec .jtagIdcode s = .next t ∧ t = { s with
    sec := { s.sec with jtagIr := .idcode }, outbox := s.outbox ++ [.readData (leBytes 4 x)] }) ∧
  (∀ (tb : BitVec 64) (pm : BitVec 15) (s : State),
    (s.sec.burned = 0 → exec (.rstFuseProg tb pm) s = .next { s with
      sec := { s.sec with jtagIr := if s.sec.dbgLocked = true then .bypass else .fuseProg }, rst := { s.rst with fuse := s.rst.fuse ||| tb, pinMap := s.rst.pinMap ||| pm } }) ∧
    (s.sec.burned ≠ 0 → exec (.rstFuseProg tb pm) s = .next { s with
      sec := { s.sec with jtagIr := if s.sec.dbgLocked = true then .bypass else .fuseProg } }))) ∧
  ((∀ (a : DebugAccess) (s : State), s.sec.dbgLocked = true → exec (.jtagDebugAccess a) s = .next s) ∧
  (∀ (a : Nat) (b : Byte) (s : State), s.sec.dbgLocked = false →
    exec (.jtagDebugAccess (.readMem a)) s = .next { s with outbox := s.outbox ++ [.readData [memByte s a]] } ∧
    exec (.jtagDebugAccess (.readReg a)) s = .next { s with outbox := s.outbox ++ [.readData (leBytes 4 (regRead s a).toNat)] } ∧
    (a < 0x4000000 → ∃ t, exec (.jtagDebugAccess (.writeMem a b)) s = .next t ∧ memByte t a = b ∧ (∀ x, x ≠ a → memByte t x = memByte s x) ∧
      { t with fm := { t.fm with mem := s.fm.mem } } = s)) ∧
  (∀ (off : Nat) (v : Word) (s : State), s.sec.dbgLocked = false → deviceUp s = true → off % 4 = 0 → 0x4000000 ≤ off →
    exec (.jtagDebugAccess (.writeReg off v)) s = exec (.registerWrite off v 0xF) s) ∧
  (∀ (e : Fin 8) (m : SeMem) (k : Nat) (v : BitVec 64) (s : State), s.sec.dbgLocked = false →
    exec (.jtagDebugAccess (.readSe e m k)) s =
      .next { s with outbox := s.outbox ++ [.readData (leBytes (if m = .program then 8 else 4) (seWord s e.val m k))] } ∧
    (k < seWords m → ∃ t, exec (.jtagDebugAccess (.writeSe e m k v)) s = .next t ∧
      seWord t e.val m k = (match m with
        | .program => v.toNat | .data => v.toNat % 2 ^ 32 | _ => (bankStore (v.setWidth 32).toNat).toNat) ∧
      (∀ j n x, j ≠ e.val ∨ x ≠ m ∨ n ≠ k → seWord t j x n = seWord s j x n) ∧ { t with se := s.se } = s) ∧
    (seWords m ≤ k → exec (.jtagDebugAccess (.writeSe e m k v)) s = .next s)) ∧
  (∀ (x : StoreItem) (v : List Byte) (s : State), s.sec.dbgLocked = false →
    exec (.jtagDebugAccess (.readStore x)) s = .next { s with outbox := s.outbox ++ [.readData (storeBytes s x)] } ∧
    (∃ t, exec (.jtagDebugAccess (.writeStore x v)) s = .next t ∧ { t with sec := s.sec, mon := s.mon, slots := s.slots } = s ∧
      (∀ k, x = .floor k → v.length = 8 → storeBytes t x = v) ∧
      (∀ k, x = .image k → storeBytes t x = v ∧ t.sec = s.sec ∧ t.mon = s.mon) ∧
      (∀ k, x = .life k → v.length = 40 → storeBytes t x = v ∧ t.sec = s.sec ∧ t.slots = s.slots) ∧ t.sec.floor = s.sec.floor)))

/-- FRAME_BOUNDARY of a device with no switch pending and no velvet: the next frame begins, its instant has come (slewed by at most 1 us),
the next cut-off is that of a later frame, the image stays, and a COMMIT applies at its boundary and at no other (R13 to R16, R28, R39).
COMMAND_CUTOFF closes the next frame to requests, and tells the twin where a switch or rollback of that boundary ends PAIRED (R23; the
cut-off as the instant is the model's choice, log 108). Of a device that does not run neither changes anything. -/
def Obligations.FrameBoundaries : Prop :=
  (∀ (n : Nat) (s : State), deviceUp s = true → s.slots.pend = none → s.slots.velvet = none → n = nextFrame s →
    ∃ t, exec .frameBoundary s = .next t ∧ t.time.frame = some n ∧ t.time.openFrame = max s.time.openFrame (n + 1) ∧
      t.time.now = max s.time.now (((epoch s + n * tf s : Nat) : Int) + slewStep s.time.slew).toNat ∧ t.conf = s.conf ∧
      (s.commit.snap = none ∨ n < s.commit.frame → t.commit = s.commit) ∧
      (s.commit.snap.isSome = true → s.commit.frame ≤ n →
        t.commit = { s.commit with snap := none, result := if s.commit.late = true then 3 else 2 })) ∧
  (∀ s a : State, deviceUp s = true → a = { s with time := { s.time with openFrame := max s.time.openFrame (nextFrame s + 1) } } →
    exec .commandCutoff s =
      .next (if s.twn.mode = 3 ∧ (rollbackActs a || switchActs (nextFrame a) a) = true then sendTwin (.detach (nextFrame a)) a else a)) ∧
  (∀ s : State, deviceUp s = false → exec .frameBoundary s = .next s ∧ exec .commandCutoff s = .next s)

/-- A source that asserts, by the level the fuse table gives it: L0 and L1 return bring-up to P0 and P1, L2 clears the hub and returns it
to P4, L3 leaves the hub, L4 marks the unit for the next boundary, disabled nothing; of two sources the higher reach is the cause, which a
tamper beside it replaces (the model's choice beside L0, log 41); hot reset ends the DMA copies in progress; a release removes the source
and holds the phase while another remains; a tamper detector resets at L1 and is kept (R596 to R604; spec/13 R455; spec/15 R518). -/
def Obligations.ResetSources : Prop :=
  (∀ (c tg : Nat) (s : State),
    (sourceLevel s c = 0 → ∃ t, exec (.resetSourceAssert [{ code := c, target := tg }]) s = .next t ∧
      t.rst.causeSrc = c ∧ t.rst.causeLevel = 0 ∧ t.rst.phase = 0 ∧ t.rst.wait = true ∧ t.flt.alarm = true ∧ t.conf = none ∧
      t.rst.seen = seenBit c ∧ (∀ a, memByte t a = 0) ∧ t.slots.active = s.slots.active ∧ t.sec.burned = s.sec.burned ∧ t.rst.fuse = s.rst.fuse) ∧
    (sourceLevel s c = 1 → 1 ≤ s.rst.phase → ∃ t, exec (.resetSourceAssert [{ code := c, target := tg }]) s = .next t ∧
      t.rst.causeSrc = c ∧ t.rst.causeLevel = 1 ∧ t.rst.phase = 1 ∧ t.rst.wait = true ∧ t.flt.alarm = true ∧ t.conf = none ∧
      t.rst.seen = s.rst.seen ||| seenBit c ∧ (∀ a, memByte t a = 0) ∧ t.slots.active = s.slots.active ∧
      t.rst.causeDetail = (if c = 2 then tg % 16 else 0) ∧ t.sec.tamperCause = (if c = 2 then tg % 16 else s.sec.tamperCause) ∧
      t.flt.heldBack = s.flt.heldBack ++ (if c = 2 then [(0x615, 0xA8, tg % 16)] else [])) ∧
    (sourceLevel s c = 2 → 4 ≤ s.rst.phase → ∃ t, exec (.resetSourceAssert [{ code := c, target := tg }]) s = .next t ∧
      t.rst.causeSrc = c ∧ t.rst.causeLevel = 2 ∧ t.rst.phase = 4 ∧ t.rst.wait = true ∧ t.flt.alarm = true ∧ t.conf = none ∧
      t.rst.sources = s.rst.sources ++ [{ code := c, target := tg }] ∧ t.rst.seen = s.rst.seen ||| seenBit c ∧
      t.slots.active = s.slots.active ∧ t.fm.mem = s.fm.mem ∧ t.maps = s.maps) ∧
    (sourceLevel s c = 3 → ∃ t, exec (.resetSourceAssert [{ code := c, target := tg }]) s = .next t ∧
      t.rst.causeSrc = c ∧ t.rst.causeLevel = 3 ∧ t.rst.phase = s.rst.phase ∧ t.conf = s.conf ∧ t.fm.mem = s.fm.mem ∧ t.units = s.units ∧
      t.slots = s.slots ∧ t.maps = s.maps ∧ t.rst.sources = s.rst.sources ++ [{ code := c, target := tg }]) ∧
    (sourceLevel s c = 4 → ∃ t, exec (.resetSourceAssert [{ code := c, target := tg }]) s = .next t ∧
      t.rst.causeSrc = c ∧ t.rst.causeLevel = 4 ∧ t.rst.sources = s.rst.sources ∧
      (unitOf t (if c ≤ 0x14 then 0xFFF else tg)).resetDue = true ∧
      (∀ u, u ≠ (if c ≤ 0x14 then 0xFFF else tg) → unitOf t u = unitOf s u) ∧ t.fm.mem = s.fm.mem ∧ t.conf = s.conf) ∧
    (sourceLevel s c = 5 → exec (.resetSourceAssert [{ code := c, target := tg }]) s = .next (if c = 0x12 then dmaForced s else s))) ∧
  (∀ (a b ta tb : Nat) (s : State), sourceLevel s a < sourceLevel s b → sourceLevel s b < 5 →
    ∃ t, exec (.resetSourceAssert [{ code := b, target := tb }, { code := a, target := ta }]) s = .next t ∧ t.rst.causeLevel = sourceLevel s a ∧
      t.rst.causeSrc = (if b = 2 then 2 else a)) ∧
  (∀ (c : Nat) (s : State), ∃ t, exec (.resetSourceRelease c) s = .next t ∧
    t.rst.sources = s.rst.sources.filter (fun x => x.code != c) ∧ t.rst.phase = s.rst.phase ∧
    t.rst.wait = (s.rst.wait && phaseHeld t s.rst.phase) ∧ t.conf = s.conf ∧ t.fm.mem = s.fm.mem ∧ t.sec = s.sec) ∧
  (∀ (d : Fin 5) (s : State),
    (d.val = 0 → exec (.tamper d) s = .next s) ∧
    (d.val ≠ 0 → 1 ≤ s.rst.phase → ∃ t, exec (.tamper d) s = .next t ∧ t.sec.tamperCause = d.val ∧ t.rst.causeSrc = 2 ∧ t.rst.causeLevel = 1 ∧
      t.rst.causeDetail = d.val ∧ t.rst.phase = 1 ∧ t.rst.wait = true ∧ t.flt.alarm = true ∧ t.sec.dbgUnlocked = false ∧
      t.flt.heldBack = s.flt.heldBack ++ [(0x615, 0xA8, d.val)] ∧ t.sec.burned = s.sec.burned ∧ t.slots.active = s.slots.active))

/-- RST_REQ by its destination: the wrong key is refused with kind 0x04, and so are an undefined destination, a source that is disabled, a
target that the level does not have, a peer or position that is not reached and a device that manages no herd; the local request fires
source 0x19, the others go to the peer and to the herd; the watchdog: a locked control refuses, a write of the control or a kick with the
key loads the count, the expiry fires source 0x14 and reloads it (R600, R601, R618, R619). While the device does not run none of them
changes anything. -/
def Obligations.ResetRequests : Prop :=
  (∀ (v : Word) (a b : Bool) (s : State), deviceUp s = true →
    (fld v 24 8 ≠ 0xA5 →
      (∃ t, exec (.rstReqLocal v) s = .next t ∧ Raised qRST 0x611 0x04 1 s t ∧ { t with flt := s.flt, fm := s.fm } = s) ∧
      (∃ t, exec (.rstReqTwin v a) s = .next t ∧ Raised qRST 0x611 0x04 1 s t ∧ { t with flt := s.flt, fm := s.fm } = s) ∧
      (∃ t, exec (.rstReqHerd v a b) s = .next t ∧ Raised qRST 0x611 0x04 1 s t ∧ { t with flt := s.flt, fm := s.fm } = s)) ∧
    (fld v 24 8 = 0xA5 → fld v 20 2 ≠ 3 → sourceLevel s 0x19 ≠ 5 → targetOk s 0x19 (fld v 0 12) = true →
      ∃ t, exec (.rstReqLocal v) s = .next t ∧ t.rst.causeSrc = 0x19 ∧ t.rst.causeLevel = sourceLevel s 0x19) ∧
    (∀ code, fld v 24 8 = 0xA5 → (fld v 20 2 = 3 ∧ code = 2) ∨ (fld v 20 2 ≠ 3 ∧ sourceLevel s 0x19 = 5 ∧ code = 3) ∨
        (fld v 20 2 ≠ 3 ∧ sourceLevel s 0x19 ≠ 5 ∧ targetOk s 0x19 (fld v 0 12) = false ∧ code = 2) →
      ∃ t, exec (.rstReqLocal v) s = .next t ∧ Raised qRST 0x611 0x04 code s t ∧ { t with flt := s.flt, fm := s.fm } = s) ∧
    (fld v 24 8 = 0xA5 → twinTalks s = true → a = true →
      exec (.rstReqTwin v a) s = .next { s with
        twn := { s.twn with txCount := s.twn.txCount + 1 }
        outbox := s.outbox ++ [.twinMsg ⟨.resetReq (fld v 0 12),
                                          twinTag s s.rst.twinRole s.twn.txCount (Config.twinWire (.resetReq (fld v 0 12)))⟩] }) ∧
    (∀ code, fld v 24 8 = 0xA5 → (twinTalks s = false ∧ code = 4) ∨ (twinTalks s = true ∧ a = false ∧ code = 3) →
      ∃ t, exec (.rstReqTwin v a) s = .next t ∧ Raised qRST 0x611 0x04 code s t ∧ { t with flt := s.flt, fm := s.fm } = s) ∧
    (fld v 24 8 = 0xA5 → s.rst.herdMgr = true → a = true → b = true →
      exec (.rstReqHerd v a b) s = .next { s with outbox := s.outbox ++ [.herdReset (fld v 16 4) (fld v 0 12)] }) ∧
    (∀ code, fld v 24 8 = 0xA5 → (s.rst.herdMgr = false ∧ code = 5) ∨ (s.rst.herdMgr = true ∧ a = false ∧ code = 4) ∨
        (s.rst.herdMgr = true ∧ a = true ∧ b = false ∧ code = 3) →
      ∃ t, exec (.rstReqHerd v a b) s = .next t ∧ Raised qRST 0x611 0x04 code s t ∧ { t with flt := s.flt, fm := s.fm } = s)) ∧
  (∀ (v : Word) (s : State), deviceUp s = true →
    (bitAt (wdtReg s) 1 = true → ∃ t, exec (.wdtCtrlWrite v) s = .next t ∧ Raised qRST 0x611 0x04 6 s t ∧ { t with flt := s.flt, fm := s.fm } = s) ∧
    (bitAt (wdtReg s) 1 = false → ∃ t, exec (.wdtCtrlWrite v) s = .next t ∧ wdtReg t = v &&& 0xFFFF0003 ∧
      (bitAt v 0 = true → t.rst = { s.rst with wdtLeft := max 1 (fld v 16 16), wdtAt := s.time.now }) ∧
      (bitAt v 0 = false → t.rst = { s.rst with wdtLeft := wdtLeft s, wdtAt := s.time.now }) ∧
      (∀ o, o ≠ baseRST + 0x24 → rwOf t o = rwOf s o) ∧ { t with rst := s.rst, rw := s.rw } = s) ∧
    (fld v 0 16 = 0x4B1C → exec (.wdtKick v) s = .next { s with rst := { s.rst with wdtLeft := wdtPeriod s, wdtAt := s.time.now } }) ∧
    (fld v 0 16 ≠ 0x4B1C → exec (.wdtKick v) s = .next s)) ∧
  (∀ s : State, deviceUp s = true →
    (bitAt (wdtReg s) 0 = true → sourceLevel s 0x14 ≠ 5 → ∃ t, exec .watchdogExpiry s = .next t ∧ t.rst.causeSrc = 0x14 ∧
      t.rst.causeLevel = sourceLevel s 0x14) ∧
    (bitAt (wdtReg s) 0 = true → sourceLevel s 0x14 = 5 →
      exec .watchdogExpiry s = .next { s with rst := { s.rst with wdtLeft := wdtPeriod s, wdtAt := s.time.now } }) ∧
    (bitAt (wdtReg s) 0 = false → exec .watchdogExpiry s = .next s)) ∧
  (∀ (v : Word) (a b : Bool) (s : State), deviceUp s = false →
    exec (.rstReqLocal v) s = .next s ∧ exec (.rstReqTwin v a) s = .next s ∧ exec (.rstReqHerd v a b) s = .next s ∧
    exec (.wdtCtrlWrite v) s = .next s ∧ exec (.wdtKick v) s = .next s ∧ exec .watchdogExpiry s = .next s)

/-- Bring-up: a phase that is held, or has stopped, does not end; else each phase leads to the next: P0 with the power request, P1 with
the fuses loaded, P3 with the clocks locked, P4 with the floor of the store, what is invalid there held back as kind 0xA9; a failed
firmware or clock counts an attempt and returns to P1, the third in a row stops; P6 leads to P7 with no frame and the held kinds raised;
in P7 a slice's calibration ends with kind 0x00; a worker without a position in P6 waits, and loads as the wait ends (R603, R606 to R610,
R614; spec/14 R480; spec/15 R499, R510, R522). That P3 ends aligned is the model's reading, log 66. -/
def Obligations.BringUp : Prop :=
  (∀ (o : PhaseOutcome) (tm : Nat) (s : State),
    (s.rst.wait = true ∨ s.rst.phaseFail = true ∨ phaseHeld s s.rst.phase = true → exec (.bringupPhaseDone o tm) s = .next s) ∧
    (s.rst.wait = false → s.rst.phaseFail = false → phaseHeld s s.rst.phase = false →
      (s.rst.phase = 0 → ∃ t, exec (.bringupPhaseDone o tm) s = .next t ∧ t.rst.phase = 1 ∧ t.rst.wait = phaseHeld t 1 ∧ t.clk.pwrReq = true ∧
        t.rst.railsGood = tm ∧ (∀ k, 24 ≤ k → k ≤ 30 → (railOf t k).maskUntil = tm + 5000000)) ∧
      (s.rst.phase = 1 → ∃ t, exec (.bringupPhaseDone o tm) s = .next t ∧ t.rst.phase = 2 ∧ t.rst.wait = phaseHeld t 2 ∧
        t.rst.fuseIn = s.rst.fuse ∧ t.rst.pinMapIn = s.rst.pinMap ∧ t.sec.fusesOk = true ∧ t.rst.herdMgr = Config.strapHerdMgr ∧
        t.rst.twinRole = Config.strapTwinRole ∧ (t.sec.dbgLocked = true ↔ s.sec.burned ≠ 0 ∧ s.sec.dbgUnlocked = false) ∧
        t.flt.heldBack = s.flt.heldBack ++ (if o = .options 3 then [(0x611, 0x03, 3)] else [])) ∧
      (s.rst.phase = 2 → o ≠ .firmwareFailed → ∃ t, exec (.bringupPhaseDone o tm) s = .next t ∧ t.rst.phase = 3 ∧ t.rst.wait = phaseHeld t 3) ∧
      (s.rst.phase = 2 → o = .firmwareFailed → ∃ t, exec (.bringupPhaseDone o tm) s = .next t ∧ t.rst.phase = 1 ∧
        t.rst.attempts = min 15 (s.rst.attempts + 1) ∧ t.rst.fails = s.rst.fails + 1 ∧ (t.rst.phaseFail = true ↔ 2 ≤ s.rst.fails) ∧
        t.flt.heldBack = s.flt.heldBack ++ [(0x611, 0x0C, 2 + 16 * t.rst.attempts)]) ∧
      (s.rst.phase = 3 → ∃ t, exec (.bringupPhaseDone o tm) s = .next t ∧ t.rst.phase = 4 ∧ pllLocked t 1 = true ∧ pllLocked t 2 = true ∧
        pllLocked t 3 = true ∧ t.clk.modAligned = true) ∧
      (s.rst.phase = 4 → ∃ t, exec (.bringupPhaseDone o tm) s = .next t ∧ t.rst.phase = 5 ∧
        t.sec.identityOk = (identityKey.isSome && !Config.vendorCert.isEmpty) ∧ t.sec.floor = (floorStored s).getD 0xFFFFFFFF ∧
        t.flt.heldBack = s.flt.heldBack ++ (if (floorStored s).isNone = true then [(0x615, 0xA9, 1)] else []) ++
          (if (s.sec.imgKeys.any (fun e => match e.2 with | some k => (openImageKey k).isNone | none => false)) = true then [(0x615, 0xA9, 2)] else []) ++
          (if certGood Config.vendorCert identityPub = true then [] else [(0x615, 0xA9, 3)])) ∧
      (s.rst.phase = 5 → ∃ t, exec (.bringupPhaseDone o tm) s = .next t ∧ t.rst.phase = 6 ∧ t.clk.sliceOn = 0xFF ∧ t.rst.loaded = false ∧
        (s.rst.herdMgr = true → t.hrd.position = some 0)) ∧
      (s.rst.phase = 6 → s.rst.loaded = true → ∃ t, exec (.bringupPhaseDone o tm) s = .next t ∧ t.rst.phase = 7 ∧
        t.rst.boots = satInc 16 s.rst.boots ∧ t.rst.fails = 0 ∧ t.flt.heldBack = [] ∧ t.time.frame = none ∧ t.time.firstFrame = firstOpen tm s ∧
        t.time.openFrame = firstOpen tm s ∧ t.conf = s.conf) ∧
      (s.rst.phase = 6 → s.rst.loaded = false → s.rst.herdMgr = true ∨ s.hrd.position.isSome = true → s.slots.active = none →
        s.slots.previous = none → s.slots.velvet = none →
        ∃ t, exec (.bringupPhaseDone o tm) s = .next t ∧ t.rst.phase = 7 ∧ t.conf = none ∧ t.slots.bootSource = 2) ∧
      (s.rst.phase = 6 → s.rst.loaded = false → s.rst.herdMgr = false → s.hrd.position = none →
        ∃ t, exec (.bringupPhaseDone o tm) s = .next t ∧ t.hrd.waiting = true ∧ t.rst = s.rst) ∧
      (s.rst.phase = 7 → (s.rst.calib = 0 → ∃ t, exec (.bringupPhaseDone o tm) s = .next t ∧ { t with time := s.time } = s) ∧
        (∀ k, k < 8 → s.rst.calib.getLsbD k = true → (∀ j, j < k → s.rst.calib.getLsbD j = false) →
          ∃ t, exec (.bringupPhaseDone o tm) s = .next t ∧ t.rst.calib = s.rst.calib &&& ~~~bit8 k ∧
            Raised qRST 0x611 0x00 (s.rst.causeSrc * 2 ^ 24 + 3 * 2 ^ 20 + k) s t)))) ∧
  (∀ (p : Fin 15) (s : State),
    (s.rst.phase = 3 → 1 ≤ p.val → p.val ≤ 3 → ∃ t, exec (.clockDeferralTimeout p) s = .next t ∧ t.rst.phase = 1 ∧
      t.rst.attempts = min 15 (s.rst.attempts + 1) ∧ (t.rst.phaseFail = true ↔ 2 ≤ s.rst.fails) ∧
      t.flt.heldBack = s.flt.heldBack ++ [(0x611, 0x0C, 3 + 16 * t.rst.attempts)]) ∧
    (s.rst.phase ≠ 3 → 1 ≤ p.val → s.rst.pendingClock.getLsbD (p.val - 1) = true → ∃ t, exec (.clockDeferralTimeout p) s = .next t ∧
      (deviceUp s = true → Raised qRST 0x611 0x01 p.val s t) ∧
      (deviceUp s = false → t.flt = { s.flt with heldBack := s.flt.heldBack ++ [(0x611, 0x01, p.val)] }) ∧ { t with flt := s.flt, fm := s.fm } = s) ∧
    (s.rst.phase ≠ 3 → s.rst.pendingClock.getLsbD (p.val - 1) = false → exec (.clockDeferralTimeout p) s = .next s) ∧
    (p.val = 0 ∨ (s.rst.phase = 3 ∧ 3 < p.val) → exec (.clockDeferralTimeout p) s = .next s)) ∧
  (∀ s : State, hubUp s = true →
    (s.rst.phase = 6 → s.hrd.waiting = true → s.rst.loaded = false → ∃ t, exec .herdPositionWaitExpiry s = .next t ∧ t.rst.loaded = true ∧
      t.rst.phase = 6) ∧
    (s.hrd.waiting = false ∨ s.rst.loaded = true ∨ s.rst.phase ≠ 6 → exec .herdPositionWaitExpiry s = .next s)) ∧
  (∀ (v : Word) (s : State),
    (4 ≤ s.rst.phase → exec (.rstSeenClear v) s = .next { s with rst := { s.rst with seen := s.rst.seen &&& ~~~v } }) ∧
    (s.rst.phase < 4 → exec (.rstSeenClear v) s = .next s))

/-- A host write: an RWS register takes its shadow and keeps its value in force (a device that a peer joins sends the change), an RW
register the value, an RO register nothing; a place without a register is kind 0x81, a part of a register kind 0x82; the bytes enabled go
to SCRATCH at any alignment, to another region not (kind 0x71). Before P7 only RST_SEEN is written (R21, R34, R35; spec/12 R391; spec/18
R611). That only writes raise kind 0x81 is the model's reading, log 45. DIVERGE_REPORT compares the host's state with the record's (R446);
the PCI Express link's state and the function's configuration are shown; Bus Master Enable that becomes 0 halts the engines; an
uncorrectable error that is new raises kind 0x88; before P4, or while the endpoint waits for its clock, no link comes (R437, R447, R455;
spec/18 R607). That the AER status comes with the link is the model's choice, log 107. -/
def Obligations.HostWrites : Prop :=
  ((∀ (off : Nat) (v : Word) (i : RegInfo) (s : State), deviceUp s = true → off % 4 = 0 → 0x4000000 ≤ off → off / 0x100000 ≠ 0x85 →
    regAt s off = some i →
    (i.acc = .rws → ∃ t, exec (.registerWrite off v 0xF) s = .next t ∧ shadowOf t off = v &&& wordN i.mask ∧
      (∀ o, o ≠ off → shadowOf t o = shadowOf s o) ∧ Tbl.get (constD false) t.written off = true ∧
      { t with shadow := s.shadow, written := s.written, outbox := s.outbox, twn := { t.twn with txCount := s.twn.txCount } } = s ∧
      (copiesSettings s = false → t.outbox = s.outbox)) ∧
    (i.acc = .rw → ringReg off = none → ∃ t, exec (.registerWrite off v 0xF) s = .next t ∧ rwOf t off = v &&& wordN i.mask ∧
      (∀ o, o ≠ off → rwOf t o = rwOf s o) ∧ { t with rw := s.rw } = s) ∧
    (∀ e, i.acc = .rw → ringReg off = some e → dmEn s e = true → ∃ t, exec (.registerWrite off v 0xF) s = .next t ∧ t.rw = s.rw ∧
      Raised qHST 0x618 0x8A off s t) ∧
    (i.acc = .ro → exec (.registerWrite off v 0xF) s = .next s) ∧
    (∀ be : BitVec 4, be ≠ 0 → be ≠ 0xF → ∃ t, exec (.registerWrite off v be) s = .next t ∧ Raised qHST 0x618 0x82 off s t ∧
      { t with flt := s.flt, fm := s.fm } = s)) ∧
  (∀ (off : Nat) (v : Word) (s : State), deviceUp s = true → off % 4 = 0 → 0x4000000 ≤ off → regAt s off = none →
    ∃ t, exec (.registerWrite off v 0xF) s = .next t ∧ Raised qHST 0x618 0x81 off s t ∧ { t with flt := s.flt, fm := s.fm } = s) ∧
  (∀ (off : Nat) (v : Word) (be : BitVec 4) (s : State), deviceUp s = true → off + 3 < 0x4000000 →
    (tileType s (off / 0x1000) = 7 → tileType s ((off + 3) / 0x1000) = 7 → ∃ t, exec (.registerWrite off v be) s = .next t ∧
      (∀ k, k < 4 → memByte t (off + k) = if be.getLsbD k = true then BitVec.ofNat 8 (v.toNat / 256 ^ k) else memByte s (off + k)) ∧
      (∀ a, (a < off ∨ off + 4 ≤ a) → memByte t a = memByte s a) ∧ { t with fm := { t.fm with mem := s.fm.mem } } = s) ∧
    (off % 4 = 0 → be ≠ 0 → tileType s (off / 0x1000) ≠ 7 → tileType s (off / 0x1000) ≠ 0 → ∃ t, exec (.registerWrite off v be) s = .next t ∧
      Raised qFMEM 0x616 0x71 off s t ∧ (∀ a, memByte t a = memByte s a))) ∧
  (∀ (off : Nat) (v : Word) (be : BitVec 4) (s : State), deviceUp s = false →
    (hubUp s = true → off = baseRST + 0x14 → be = 0xF → exec (.registerWrite off v be) s = .next { s with rst := { s.rst with seen := s.rst.seen &&& ~~~v } }) ∧
    (hubUp s = false ∨ off ≠ baseRST + 0x14 → exec (.registerWrite off v be) s = .next s))) ∧
  ((∀ (v : Word) (s : State), deviceUp s = true →
    (recordState s (fld v 16 12) (fld v 0 16) = none → ∃ t, exec (.divergeReport v) s = .next t ∧ Raised qHST 0x618 0x8A (baseHST + 0x3000) s t ∧
      { t with flt := s.flt, fm := s.fm } = s) ∧
    (∀ st, recordState s (fld v 16 12) (fld v 0 16) = some st →
      (st.code = fld v 28 4 → exec (.divergeReport v) s = .next s) ∧
      (st.code ≠ fld v 28 4 → ∃ t, exec (.divergeReport v) s = .next t ∧ Raised qHST (fld v 16 12) 0x8B (2 ^ 31 + fld v 28 4) s t ∧
        { t with flt := s.flt, fm := s.fm } = s))) ∧
  (∀ (up : Bool) (w r : Nat) (fn : PcieFn) (s : State),
    (s.rst.phase < 4 ∨ up = true ∧ clockHeld s 14 = true → exec (.pcieLinkChange up w r fn) s = .next s) ∧
    (4 ≤ s.rst.phase → up = false ∨ clockHeld s 14 = false → ∃ t, exec (.pcieLinkChange up w r fn) s = .next t ∧
      t.hst.linkUp = up ∧ t.hst.width = (if up = true then w else 0) ∧ t.hst.rate = (if up = true then r else 0) ∧ t.hst.bme = fn.bme ∧
      t.hst.msixEn = fn.msixEn ∧ t.hst.fmask = fn.fmask ∧ t.hst.d3hot = fn.d3hot ∧ t.hst.aer = fn.aer ∧
      (s.hst.bme = true → fn.bme = false → up = true ∨ s.fm.stage = [] → ∀ e : Fin 8, dmEn s e.val = true → (dmaOf t e.val).halted = true) ∧
      (s.hst.bme = false ∨ fn.bme = true → up = true ∨ s.fm.stage = [] →
        (fn.aer &&& ~~~s.hst.aer = 0 → { t with hst := s.hst } = s) ∧
        (fn.aer &&& ~~~s.hst.aer ≠ 0 → Raised qHST 0x618 0x88 fn.aer.toNat s t ∧ { t with hst := s.hst, flt := s.flt, fm := s.fm } = s)))))

/-- Reading has no effect on the device: a host read, of whole registers or of some bytes, answers its bytes and clears NEW of a mailbox's
result that it reads, a management read and a read of the debug port answer and change nothing (R4). -/
def Obligations.ReadsHaveNoEffect : Prop :=
  (∀ (r : BarRead) (s : State), hubUp s = true → ∃ t, exec (.mailboxRead r) s = .next t ∧
    t.outbox = s.outbox ++ [.readData (hostBytes s r.off r.len)] ∧
    (r.off < baseCFG + 0x48 → baseCFG + 0x44 < r.off + r.len → t.slots.fresh = false) ∧
    (deviceUp s = true → r.off < baseRIN + 0x8018 → baseRIN + 0x8014 < r.off + r.len → t.toneBox.fresh = false) ∧
    (deviceUp s = true → r.off < baseHST + 0x1028 → baseHST + 0x1024 < r.off + r.len → t.hst.svcFresh = false) ∧
    (baseCFG + 0x48 ≤ r.off ∨ r.off + r.len ≤ baseCFG + 0x44 → t.slots = s.slots) ∧
    (baseRIN + 0x8018 ≤ r.off ∨ r.off + r.len ≤ baseRIN + 0x8014 → t.toneBox = s.toneBox) ∧
    (baseHST + 0x1028 ≤ r.off ∨ r.off + r.len ≤ baseHST + 0x1024 → t.hst = s.hst) ∧
    { t with outbox := s.outbox, slots := { t.slots with fresh := s.slots.fresh }, toneBox := { t.toneBox with fresh := s.toneBox.fresh }
             hst := { t.hst with svcFresh := s.hst.svcFresh } } = s) ∧
  (∀ (r : BarRead) (s : State), hubUp s = false → exec (.mailboxRead r) s = .next s) ∧
  (∀ (len : Nat) (s : State), ∃ t, exec (.i3cViewRead len) s = .next t ∧ { t with outbox := s.outbox } = s) ∧
  (∀ (a : Nat) (s : State),
    (∃ t, exec (.jtagDebugAccess (.readReg a)) s = .next t ∧ { t with outbox := s.outbox } = s) ∧
    (∃ t, exec (.jtagDebugAccess (.readMem a)) s = .next t ∧ { t with outbox := s.outbox } = s) ∧
    (∀ e m, ∃ t, exec (.jtagDebugAccess (.readSe e m a)) s = .next t ∧ { t with outbox := s.outbox } = s) ∧
    (∀ x, ∃ t, exec (.jtagDebugAccess (.readStore x)) s = .next t ∧ { t with outbox := s.outbox } = s))

/-- COMMAND_CUTOFF completes in every state of a device that runs: the next frame is closed to requests, which take a later one (R23); of
the state nothing else changes but what tells a twin in PAIRED. MAILBOX_READ completes in every state in which the hub runs, at every
offset and length: the bytes read go out, each as the read of its byte alone gives it, and a read of the 32-bit word that holds NEW of the
slot mailbox, the tone mailbox or the service mailbox clears that NEW (R4, R34, R443); no register, no queue and no memory byte changes.
-/
def Obligations.CutoffAndMailboxReads : Prop :=
  (∀ s : State, deviceUp s = true → ∃ t, exec .commandCutoff s = .next t ∧ t.time.openFrame = max s.time.openFrame (nextFrame s + 1) ∧
    nextFrame t < t.time.openFrame ∧
    { t with time := { t.time with openFrame := s.time.openFrame }, twn := { t.twn with txCount := s.twn.txCount }, outbox := s.outbox } = s ∧
    (s.twn.mode ≠ 3 → t.twn = s.twn ∧ t.outbox = s.outbox)) ∧
  (∀ (r : BarRead) (s : State), hubUp s = true → ∃ t, exec (.mailboxRead r) s = .next t ∧
    (∃ bytes, t.outbox = s.outbox ++ [.readData bytes] ∧ bytes.length = r.len ∧ ∀ k, k < r.len → bytes.getD k 0 = hostByte s (r.off + k)) ∧
    (r = ⟨baseCFG + 0x44, 4⟩ → t.slots.fresh = false) ∧
    (r = ⟨baseRIN + 0x8014, 4⟩ → deviceUp s = true → t.toneBox.fresh = false) ∧
    (r = ⟨baseHST + 0x1024, 4⟩ → deviceUp s = true → t.hst.svcFresh = false) ∧
    t.inForce = s.inForce ∧ t.shadow = s.shadow ∧ t.rw = s.rw ∧ t.pending = s.pending ∧ t.fm = s.fm ∧ t.time = s.time)

/-- The I3C target: addresses, lengths, events and the reset action by their common command codes, any other not acknowledged (R439); the
view, set by a write of 4 bytes, any other private write ignored with kind 0x8A (R440); the reset request, armed and confirmed with the
challenge, refused with kind 0x8C, after which the challenge is another (R441). The byte order on the bus, the bit of ENEC and what a
write of another TARGET does are the model's choice, logs 40 and 39. -/
def Obligations.I3cTarget : Prop :=
  (∀ (s : State), hubUp s = true →
    (∀ b : List Byte, b.length = 4 →
      exec (.i3cViewOffset (.priv b)) s = .next { s with hst := { s.hst with i3c := { s.hst.i3c with view := leNat b } } }) ∧
    (∀ b : List Byte, b.length ≠ 4 → ∃ t, exec (.i3cViewOffset (.priv b)) s = .next t ∧ Raised qHST 0x618 0x8A (2 ^ 31) s t ∧
      { t with flt := s.flt, fm := s.fm } = s) ∧
    exec (.i3cViewOffset .otherCcc) s = .next { s with outbox := s.outbox ++ [.nack] } ∧
    (∀ len, 8 ≤ s.hst.i3c.mrl → ∃ b, exec (.i3cViewRead len) s = .next { s with outbox := s.outbox ++ [.readData b] } ∧
      b.length = min len s.hst.i3c.mrl ∧ (8 ≤ len → deviceUp s = true → b.take 8 = leBytes 8 (frame64 s))) ∧
    (∀ a : BitVec 7,
      (s.hst.i3c.dyn = none → exec (.entdaa a) s = .next { s with hst := { s.hst with i3c := { s.hst.i3c with dyn := some a } } }) ∧
      (s.hst.i3c.dyn.isSome = true → exec (.entdaa a) s = .next s) ∧
      (s.hst.i3c.dyn = none → exec (.setdasa s.hst.i3c.saddr a) s = .next { s with hst := { s.hst with i3c := { s.hst.i3c with dyn := some a } } }) ∧
      (s.hst.i3c.dyn.isSome = true → exec (.setnewda a) s = .next { s with hst := { s.hst with i3c := { s.hst.i3c with dyn := some a } } }) ∧
      (s.hst.i3c.dyn = none → exec (.setnewda a) s = .next s)) ∧
    exec .rstdaa s = .next { s with hst := { s.hst with i3c := { s.hst.i3c with dyn := none, saddr := (rwOf s (baseHST + 0x10)).setWidth 7 } } } ∧
    (∃ b, exec .getpid s = .next { s with outbox := s.outbox ++ [.readData b] } ∧ b.length = 6) ∧
    exec .getbcr s = .next { s with outbox := s.outbox ++ [.readData [0x06]] } ∧
    exec .getdcr s = .next { s with outbox := s.outbox ++ [.readData [0x00]] } ∧
    (∃ b, exec .getstatus s = .next { s with outbox := s.outbox ++ [.readData b], freeCtr := s.freeCtr + 1 } ∧ b.length = 2) ∧
    exec .getmrl s = .next { s with outbox := s.outbox ++ [.readData (leBytes 2 s.hst.i3c.mrl).reverse] } ∧
    exec .getmwl s = .next { s with outbox := s.outbox ++ [.readData (leBytes 2 s.hst.i3c.mwl).reverse] } ∧
    (∀ n, 8 ≤ n → n ≤ 264 → exec (.setmrl n) s = .next { s with hst := { s.hst with i3c := { s.hst.i3c with mrl := n } } }) ∧
    (∀ n, exec (.setmwl n) s = .next { s with hst := { s.hst with i3c := { s.hst.i3c with mwl := n } } }) ∧
    (∀ ev : Byte, ev.getLsbD 0 = true →
      exec (.enec ev) s = .next { s with hst := { s.hst with i3c := { s.hst.i3c with ibi := true } } } ∧
      exec (.disec ev) s = .next { s with hst := { s.hst with i3c := { s.hst.i3c with ibi := false } } }) ∧
    exec (.rstact 0) s = .next { s with hst := { s.hst with i3c := { s.hst.i3c with rstact := true } } } ∧
    (∀ d : Byte, d ≠ 0 → exec (.rstact d) s = .next { s with outbox := s.outbox ++ [.nack] })) ∧
  (∀ (tg ch : BitVec 16) (tm : Nat) (s : State), hubUp s = true →
    (s.hst.i3c.armed = none → exec (.i3cResetArm tg ch tm) s = .next { s with
      time := { s.time with now := max s.time.now tm }, hst := { s.hst with i3c := { s.hst.i3c with armed := some (tg, ch, tm) } } }) ∧
    (s.hst.i3c.armed.isSome = true → exec (.i3cResetArm tg ch tm) s = exec (.i3cResetConfirm tg ch tm) s) ∧
    (s.hst.i3c.armed = none → exec (.i3cResetConfirm tg ch tm) s = exec (.i3cResetArm tg ch tm) s) ∧
    (∀ t0 c0 at_, s.hst.i3c.armed = some (t0, c0, at_) → t0 ≠ tg → exec (.i3cResetConfirm tg ch tm) s = .next { s with
      time := { s.time with now := max s.time.now tm }, hst := { s.hst with i3c := { s.hst.i3c with armed := some (tg, ch, tm) } } }) ∧
    (∀ c0 at_, s.hst.i3c.armed = some (tg, c0, at_) →
      (i3cCheck s tg ch at_ tm = 0 → ∃ t, exec (.i3cResetConfirm tg ch tm) s = .next t ∧ t.rst.causeSrc = 0x18 ∧
        t.rst.causeLevel = sourceLevel s 0x18) ∧
      (i3cCheck s tg ch at_ tm ≠ 0 → ∃ t, exec (.i3cResetConfirm tg ch tm) s = .next t ∧ t.hst.i3c.armed = none ∧ t.hst.i3c.chal ≠ s.hst.i3c.chal ∧ t.rst = s.rst ∧
        Raised qHST 0x618 0x8C (i3cCheck s tg ch at_ tm) s t)))

/-- The twin link and its services: a peer of the other role brings the link up, one of the same role is kind 0x9E; the device presents
itself, and session 9 opens where the peer's certificate, signature and slots are good; the link's loss closes it; ATTACH, DETACH and
OWN_SET are accepted with their targets and told to the peer, or refused with their codes (R459, R463, R467, R472, R474, R475; spec/15
R515; spec/18 R607). -/
def Obligations.TwinServices : Prop :=
  (∀ (uid : BitVec 64) (role : Bool) (s : State),
    (hubUp s = false ∨ clockHeld s 13 = true → exec (.twinLinkUp uid role) s = .next s) ∧
    (hubUp s = true → clockHeld s 13 = false →
      (role ≠ s.rst.twinRole → ∃ t, exec (.twinLinkUp uid role) s = .next t ∧ t.twn.linkUp = true ∧ t.twn.roleClash = false ∧ t.twn.peerUid = uid ∧
        t.twn.lanes = 0xF ∧ t.twn.mode = s.twn.mode ∧ { t with twn := s.twn, freeCtr := s.freeCtr } = s) ∧
      (role = s.rst.twinRole → ∃ t, exec (.twinLinkUp uid role) s = .next t ∧ t.twn.linkUp = false ∧ t.twn.roleClash = true ∧
        Raised qTWN 0x619 0x9E (if role = true then 1 else 0) s t ∧ { t with twn := s.twn, flt := s.flt, fm := s.fm } = s))) ∧
  (∀ (h : TwinHello) (key : BitVec 256) (s : State), hubUp s = true →
    (s.twn.linkUp = true → twinImage s = true → helloOk h s = true → ∃ t, exec (.twinSessionOpen h key) s = .next t ∧
      (sessionOf t 9).isOpen = true ∧ (sessionOf t 9).key = key ∧ t.twn.txCount = 0 ∧ t.twn.rxCount = 0 ∧
      (sessionOf t 9).epoch = nextEpoch (sessionOf s 9).issued ∧ (∀ k, k ≠ 9 → sessionOf t k = sessionOf s k) ∧
      t.outbox = s.outbox ++ [.twinHello (ownHello h.nonce s)] ∧
      Raised qSEC 0x615 0xA5 (nextEpoch (sessionOf s 9).issued % 65536 * 65536 + 9) s t) ∧
    (s.twn.linkUp = true → twinImage s = true → helloOk h s = false →
      exec (.twinSessionOpen h key) s = .next { s with outbox := s.outbox ++ [.twinHello (ownHello h.nonce s)] }) ∧
    (s.twn.linkUp = false ∨ twinImage s = false → exec (.twinSessionOpen h key) s = .next s)) ∧
  (∀ (l : BitVec 4) (s : State), hubUp s = true →
    (s.twn.linkUp = true → ∃ t, exec (.twinLinkDown l) s = .next t ∧ t.twn.linkUp = false ∧
      t.twn.lanes = l ∧ (sessionOf t 9).isOpen = false ∧ t.twn.mode = s.twn.mode ∧ t.twn.peerMode = 0 ∧ t.twn.peerHash = none ∧
      (s.twn.mode = 3 → t.twn.lost = true) ∧
      (s.twn.mode = 1 ∨ s.twn.mode = 2 → t.twn.failure = some (s.twn.failure.getD 3)) ∧ t.outbox = s.outbox) ∧
    (s.twn.linkUp = false → exec (.twinLinkDown l) s = .next { s with twn := { s.twn with
      lanes := l, linkUp := false, roleClash := false, peerUnits := [], peerMode := 0, peerTwinFlag := false, peerHash := none } })) ∧
  (∀ s : State, deviceUp s = true → s.hst.svc = none →
    (attachCheck s = 0 → ∃ t, exec .attach s = .next t ∧ t.hst.svc = some 0x40 ∧ t.hst.svcDone = none ∧ t.twn.attachAt = some (svcTarget s) ∧
      t.twn.attachJoin = true ∧ t.twn.attachMap = ownMapReg s ∧ t.twn.mode = s.twn.mode ∧
      t.outbox = s.outbox ++ [.twinMsg ⟨.attach (svcTarget s) (ownMapReg s),
        twinTag s s.rst.twinRole s.twn.txCount (Config.twinWire (.attach (svcTarget s) (ownMapReg s)))⟩]) ∧
    (attachCheck s ≠ 0 → ∃ t, exec .attach s = .next t ∧ t.hst.svcDone = some (attachCheck s, []) ∧ t.twn = s.twn ∧
      Raised qTWN 0x619 0x94 (attachCheck s) s t) ∧
    (s.twn.mode = 3 → svcWant s ≤ farLimit s → ∃ t, exec .detach s = .next t ∧ t.hst.svc = some 0x41 ∧ t.hst.svcDone = none ∧
      t.twn.detachAt = some (svcTarget s) ∧ t.twn.mode = 3 ∧
      t.outbox = s.outbox ++ (if twinTalks s = true then [.twinMsg ⟨.detach (svcTarget s),
        twinTag s s.rst.twinRole s.twn.txCount (Config.twinWire (.detach (svcTarget s)))⟩] else [])) ∧
    (s.twn.mode = 3 → farLimit s < svcWant s → ∃ t, exec .detach s = .next t ∧ t.hst.svcDone = some (0xB, []) ∧ t.twn = s.twn) ∧
    (s.twn.mode ≠ 3 → ∃ t, exec .detach s = .next t ∧ t.hst.svcDone = some (6, []) ∧ t.twn = s.twn) ∧
    (s.twn.mode = 3 → twinTalks s = true → ownMapReg s = s.twn.peerMap → svcWant s ≤ farLimit s → ∃ t, exec .ownSet s = .next t ∧
      t.hst.svc = some 0x42 ∧ t.hst.svcDone = none ∧ t.twn.ownAt = some (svcTarget s) ∧ t.twn.ownMap = ownMapReg s ∧
      t.outbox = s.outbox ++ [.twinMsg ⟨.ownSet (svcTarget s) (ownMapReg s),
        twinTag s s.rst.twinRole s.twn.txCount (Config.twinWire (.ownSet (svcTarget s) (ownMapReg s)))⟩]) ∧
    (∀ code, s.twn.mode = 3 → (twinTalks s = false ∧ code = 4) ∨ (twinTalks s = true ∧ ownMapReg s ≠ s.twn.peerMap ∧ code = 0xC) ∨
        (twinTalks s = true ∧ ownMapReg s = s.twn.peerMap ∧ farLimit s < svcWant s ∧ code = 0xB) →
      ∃ t, exec .ownSet s = .next t ∧ t.hst.svcDone = some (code, []) ∧ t.twn = s.twn) ∧
    (s.twn.mode ≠ 3 → ∃ t, exec .ownSet s = .next t ∧ t.hst.svcDone = some (6, []) ∧ t.twn = s.twn))

/-- The twin's running. A message counts as it arrives and is discarded where its tag fails. A block of this frame is noted; in VELVET and
PAIRED a tracker's intervals are compared with the margin of R468, a negative margin counts a disagreement with kind 0x90, another state
one with kind 0x91; two blocks missing lose the link or fail the pairing; the settings CRC is compared, and a joining device answers with
its own; an orphaned group is noted; the expiries bring their frame count to its limit; a control message has its effect (R460, R462 to
R465, R467 to R472, R474 to R476; spec/15 R514). Which groups count as orphaned, and that expiries act at the next boundary, are the
model's reading, logs 34 and 80. -/
def Obligations.TwinChecks : Prop :=
  (∀ (n : Nat) (tag : BitVec 128) (b : List Byte) (s : State), hubUp s = true →
    (twinTalks s = false → exec (.twinBlockArrival n tag b) s = .next s) ∧
    (twinTalks s = true → twinTag s (!s.rst.twinRole) s.twn.rxCount b ≠ tag ∨ s.time.frame ≠ some n →
      exec (.twinBlockArrival n tag b) s = .next { s with twn := { s.twn with rxCount := s.twn.rxCount + 1 } }) ∧
    (twinTalks s = true → twinTag s (!s.rst.twinRole) s.twn.rxCount b = tag → s.time.frame = some n →
      (s.twn.mode ≠ 2 → s.twn.mode ≠ 3 → exec (.twinBlockArrival n tag b) s = .next { s with twn := { s.twn with
        rxCount := s.twn.rxCount + 1, peerBlock := n + 1, missRun := 0
        lost := if s.twn.peerMode = 3 then false else s.twn.lost, orphans := if s.twn.peerMode = 3 then 0 else s.twn.orphans } }) ∧
      (∀ p, s.twn.mode = 3 → peerUnitsOf b = [p] → unitExists s p.unit = true →
        ∃ t, exec (.twinBlockArrival n tag b) s = .next t ∧ t.twn.peerBlock = n + 1 ∧ t.twn.missRun = 0 ∧ t.twn.mode = 3 ∧
        (s.twn.peerMode = 3 → t.twn.lost = false) ∧ { t with twn := s.twn, flt := s.flt, fm := s.fm } = s ∧
        (∀ m, kindOf p.unit = 1 → margin (recOf s p.unit) p = some m → (unitOf s p.unit).recSt.code = p.state →
          twinResOf t p.unit = { present := true, agree := decide (0 ≤ m), margin := some m, neg := decide (m < 0), mismatch := false } ∧
          (0 ≤ m → t.flt = s.flt ∧ t.twn.disagreements = s.twn.disagreements) ∧
          (m < 0 → (twinResOf s p.unit).neg = false → t.twn.disagreements = satInc 16 s.twn.disagreements ∧
            Raised qTWN p.unit 0x90 (unsig 32 (satS 32 m)) s t)) ∧
        (kindOf p.unit = 2 ∨ kindOf p.unit = 4 → (unitOf s p.unit).recSt.code ≠ p.state → (twinResOf s p.unit).mismatch = false →
          (twinResOf t p.unit).mismatch = true ∧ t.twn.disagreements = satInc 16 s.twn.disagreements ∧
          Raised qTWN p.unit 0x91 (p.state % 16 * 16 + (unitOf s p.unit).recSt.code) s t)))) ∧
  (∀ (n : Nat) (s : State), hubUp s = true →
    (s.twn.peerBlock = n + 1 ∨ s.twn.mode = 0 ∨ s.twn.mode = 4 → exec (.twinBlockDeadline n) s = .next s) ∧
    (s.twn.mode = 3 → s.twn.peerBlock ≠ n + 1 → ∃ t, exec (.twinBlockDeadline n) s = .next t ∧ t.twn.missing = satInc 16 s.twn.missing ∧
      t.twn.missRun = s.twn.missRun + 1 ∧ (t.twn.lost = true ↔ s.twn.lost = true ∨ s.twn.missRun = 1) ∧ { t with twn := s.twn } = s) ∧
    (s.twn.mode = 1 ∨ s.twn.mode = 2 → s.twn.peerBlock ≠ n + 1 → ∃ t, exec (.twinBlockDeadline n) s = .next t ∧
      t.twn.missing = satInc 16 s.twn.missing ∧ t.twn.missRun = s.twn.missRun + 1 ∧
      t.twn.failure = (if s.twn.missRun = 1 then some (s.twn.failure.getD 3) else s.twn.failure) ∧
      { t with twn := s.twn, outbox := s.outbox } = s)) ∧
  (∀ (c : TwinCrc) (s : State), hubUp s = true →
    (twinTalks s = false → exec (.twinSettingsCrc c) s = .next s) ∧
    (twinTalks s = true → twinTag s (!s.rst.twinRole) s.twn.rxCount (leBytes 4 c.crc.toNat) ≠ c.tag →
      exec (.twinSettingsCrc c) s = .next { s with twn := { s.twn with rxCount := s.twn.rxCount + 1 } }) ∧
    (twinTalks s = true → twinTag s (!s.rst.twinRole) s.twn.rxCount (leBytes 4 c.crc.toNat) = c.tag →
      (s.twn.mode = 3 → ∃ t, exec (.twinSettingsCrc c) s = .next t ∧
        t.twn.peerCrc = c.crc ∧ (t.twn.setDiff = true ↔ s.twn.setCrc ≠ c.crc) ∧
        (s.twn.setCrc ≠ c.crc → s.twn.setDiff = false → Raised qTWN 0x619 0x97 2 s t) ∧
        (s.twn.setCrc = c.crc ∨ s.twn.setDiff = true → t.flt = s.flt) ∧ { t with twn := s.twn, flt := s.flt, fm := s.fm } = s) ∧
      (s.twn.mode = 2 → ∃ t, exec (.twinSettingsCrc c) s = .next t ∧ t.twn.failure =
        (if s.twn.setCrc = c.crc then s.twn.failure else some (s.twn.failure.getD 2)) ∧ { t with twn := s.twn, outbox := s.outbox } = s) ∧
      (s.twn.mode = 1 → s.twn.joiner = true → ownCrc s = c.crc → ∃ t, exec (.twinSettingsCrc c) s = .next t ∧
        t.outbox = s.outbox ++ [.twinCrc { crc := ownCrc s, tag := twinTag s s.rst.twinRole s.twn.txCount (leBytes 4 (ownCrc s).toNat) }] ∧
        t.twn.failure = s.twn.failure ∧ { t with twn := s.twn, outbox := s.outbox } = s))) ∧
  (∀ (g : Fin 64) (s : State), hubUp s = true →
    (s.twn.mode = 3 → s.twn.lost = true → g.val ∈ peerGroups s → ∃ t, exec (.groupOrphaned g) s = .next t ∧ t.twn.orphans.getLsbD g.val = true ∧
      (∀ k, k < 64 → k ≠ g.val → t.twn.orphans.getLsbD k = s.twn.orphans.getLsbD k) ∧ { t with twn := s.twn } = s) ∧
    (s.twn.mode ≠ 3 ∨ s.twn.lost = false ∨ g.val ∉ peerGroups s → exec (.groupOrphaned g) s = .next s)) ∧
  (∀ s : State, hubUp s = true →
    (s.twn.mode = 3 → s.twn.linkLost = true → exec .lossLimExpiry s = .next { s with twn := { s.twn with frames := max s.twn.frames (lossLim s) } }) ∧
    (s.twn.mode ≠ 3 ∨ s.twn.linkLost = false → exec .lossLimExpiry s = .next s) ∧
    (s.twn.mode = 2 → exec .twinVelvetEnd s = .next { s with twn := { s.twn with frames := max s.twn.frames (velvetLen s) } }) ∧
    (s.twn.mode ≠ 2 → exec .twinVelvetEnd s = .next s) ∧
    (s.twn.mode = 1 → ∃ t, exec .pairingTimeout s = .next t ∧ t.twn.failure = some (s.twn.failure.getD 5) ∧ t.twn.mode = 1 ∧
      { t with twn := s.twn, outbox := s.outbox } = s ∧
      t.outbox = s.outbox ++ (if twinTalks s = true then [.twinMsg ⟨.failure 5,
        twinTag s s.rst.twinRole s.twn.txCount (Config.twinWire (.failure 5))⟩] else [])) ∧
    (s.twn.mode ≠ 1 → exec .pairingTimeout s = .next s)) ∧
  (∀ (m : TwinMsg) (tag : BitVec 128) (s : State), hubUp s = true →
    (twinTalks s = false → exec (.twinControlMessage { msg := m, tag := tag }) s = .next s) ∧
    (twinTalks s = true → twinTag s (!s.rst.twinRole) s.twn.rxCount (Config.twinWire m) ≠ tag →
      exec (.twinControlMessage { msg := m, tag := tag }) s = .next { s with twn := { s.twn with rxCount := s.twn.rxCount + 1 } }) ∧
    (twinTalks s = true → twinTag s (!s.rst.twinRole) s.twn.rxCount (Config.twinWire m) = tag → ∃ t,
      exec (.twinControlMessage { msg := m, tag := tag }) s = .next t ∧
      (∀ f mp, m = .attach f mp → t = { s with twn := { s.twn with
        rxCount := s.twn.rxCount + 1, attachAt := some f, attachMap := mp, attachJoin := false } }) ∧
      (∀ f mp, m = .ownSet f mp → t = { s with twn := { s.twn with rxCount := s.twn.rxCount + 1, ownAt := some f, ownMap := mp } }) ∧
      (∀ f, m = .detach f → t = { s with twn := { s.twn with rxCount := s.twn.rxCount + 1, peerDetachAt := some f } }) ∧
      (∀ c, m = .failure c → t = { s with twn := { s.twn with
        rxCount := s.twn.rxCount + 1
        failure := if s.twn.mode = 1 ∨ s.twn.mode = 2 then some (s.twn.failure.getD c) else s.twn.failure } }) ∧
      (∀ off f sh, m = .setting off f sh → s.twn.mode = 1 → s.twn.joiner = true → isRws off = true →
        inF t off = f ∧ shadowOf t off = sh ∧ (∀ o, o ≠ off → inF t o = inF s o ∧ shadowOf t o = shadowOf s o)) ∧
      (∀ u st x, m = .items u st x → s.twn.mode = 1 → s.twn.joiner = true → t.twn.taken = s.twn.taken ++ [(u, st, x)]) ∧
      (∀ md h mp d tw us, m = .facts md h mp d tw us → t.twn.peerMode = md ∧ t.twn.peerHash = some h ∧ t.twn.peerMap = mp ∧ t.twn.peerDormant = d ∧
        t.twn.peerTwinFlag = tw ∧ t.twn.peerUnits = us ∧ (md = 3 → t.twn.lost = false) ∧ (md ≠ 3 → t.twn.lost = s.twn.lost)) ∧
      (∀ i half, m = .stamp i half → t = { s with twn := { s.twn with
        rxCount := s.twn.rxCount + 1, skew := satS 16 (lsb (((half - (3125 * i : Nat) : Int) : Rat) / 2)) } }) ∧
      (∀ tg, m = .resetReq tg → sourceLevel s 0x16 ≠ 5 → t.rst.causeSrc = 0x16 ∧ t.rst.causeLevel = sourceLevel s 0x16)))

/-- Herd ports and enumeration: the manager numbers itself 0 and sends the message out of DOWN; its own coming round ends the service with
the devices counted, another manager's is kind 0x9A, ends the service with an error and leaves the herd without positions; a worker takes
the next position unless its twin link leads to the sender, adds its UID and passes the message on; of more than 16 positions it takes
none, kind 0x9A; another position than its own is kind 0x9A (R478 to R480, R487). The tour of a line is the model's reading, log 36. -/
def Obligations.HerdEnumeration : Prop :=
  (∀ (d ok : Bool) (s : State), hubUp s = true → exec (.herdLinkTrained d ok) s = .next { s with hrd := { s.hrd with
    downOk := if d = true then ok else s.hrd.downOk, upOk := if d = true then s.hrd.upOk else ok } }) ∧
  (∀ s : State, deviceUp s = true → s.hst.svc = none →
    (s.rst.herdMgr = false → ∃ t, exec .herdEnum s = .next t ∧ t.hst.svcDone = some (0xA, []) ∧ t.hrd = s.hrd) ∧
    (s.rst.herdMgr = true → spanBusy s = true → ∃ t, exec .herdEnum s = .next t ∧ t.hst.svcDone = some (7, []) ∧ t.hrd = s.hrd) ∧
    (s.rst.herdMgr = true → spanBusy s = false → ∃ t, exec .herdEnum s = .next t ∧ t.hst.svc = some 0x48 ∧
      t.hst.svcDone = none ∧ t.hrd.position = some 0 ∧ t.hrd.devices = 1 ∧ (t.hrd.line = true ↔ s.hrd.upOk = false ∨ s.hrd.downOk = false) ∧
      t.outbox = s.outbox ++ (if s.hrd.downOk = true then [.herdEnum 0 ownUid [ownUid]] else []))) ∧
  (∀ (pos : Nat) (snd mgr : BitVec 64) (uids : List (BitVec 64)) (s : State), hubUp s = true →
    (s.rst.herdMgr = true → mgr = ownUid → ∃ t, exec (.herdEnumMessage pos snd mgr uids) s = .next t ∧ t.hrd.devices = uids.length ∧
      t.hrd.uids = uids.take 16 ∧ t.hrd.tour = (if s.hrd.line = true then 2 * (uids.length - 1) else uids.length) ∧
      (s.hst.svc = some 0x48 → s.hst.svcDone = none → t.hst.svc = none ∧ t.hst.svcCode = 1)) ∧
    (s.rst.herdMgr = true → mgr ≠ ownUid → ∃ t, exec (.herdEnumMessage pos snd mgr uids) s = .next t ∧ Raised qHRD 0x61A 0x9A 1 s t ∧
      t.hrd.position = none ∧ t.hrd.devices = 0 ∧
      (s.hst.svc = some 0x48 → s.hst.svcDone = none → t.hst.svc = none ∧ t.hst.svcCode = 9)) ∧
    (s.rst.herdMgr = false → ∀ new, new = (if s.twn.linkUp = true ∧ s.twn.peerUid = snd then pos else pos + 1) →
      (s.hrd.position = none → new ≤ 15 → ∃ t, exec (.herdEnumMessage pos snd mgr uids) s = .next t ∧
        t.hrd.position = some new ∧ t.hrd.waiting = false ∧
        (s.hrd.waiting = false ∨ s.rst.loaded = false → t.outbox = s.outbox ++ [.herdEnum new mgr (uids ++ [ownUid])] ∧ t.flt = s.flt)) ∧
      (s.hrd.position = none → 15 < new → ∃ t, exec (.herdEnumMessage pos snd mgr uids) s = .next t ∧ t.hrd = s.hrd ∧
        t.outbox = s.outbox ++ [.herdEnum pos mgr (uids ++ [ownUid])] ∧ Raised qHRD 0x61A 0x9A 2 s t) ∧
      (∀ p, s.hrd.position = some p → ∃ t, exec (.herdEnumMessage pos snd mgr uids) s = .next t ∧ t.hrd = s.hrd ∧
        t.outbox = s.outbox ++ [.herdEnum p mgr (uids ++ [ownUid])] ∧
        (p = new → t.flt = s.flt) ∧ (p ≠ new → Raised qHRD 0x61A 0x9A 3 s t))))

/-- The herd's token and relayed commands: a relayed command waits and goes on; the manager issues a token each frame, out of DOWN or,
with DOWN open, of UP, retires it as it returns (in a line from DOWN it first goes along the UP arm), and one that is still out is lost
with kind 0x99; a worker passes a token on with its part, or loses it; a token of another frame is kind 0x9B, another beam hash on the
first tour kind 0x9D; two frames without one are kind 0x99; an open ring makes the herd a line, kind 0x98 (R481 to R486). -/
def Obligations.HerdToken : Prop :=
  (∀ (u : BitVec 12) (code tg : Nat) (s : State), deviceUp s = true →
    (herdSpan s u.toNat = true → s.rst.herdMgr = false → exec (.herdCommandRelay u code tg) s = .next { s with
      hrd := { s.hrd with relays := s.hrd.relays ++ [{ unit := u.toNat, code, target := tg }] }
      outbox := s.outbox ++ [.herdRelay u.toNat code tg] }) ∧
    (herdSpan s u.toNat = false ∨ s.rst.herdMgr = true → exec (.herdCommandRelay u code tg) s = .next s)) ∧
  (∀ (n : Nat) (s : State), deviceUp s = true → s.rst.herdMgr = true → herdRuns s = true → s.time.frame = some n →
    (s.hrd.token = none → ∃ t, exec .herdTokenIssue s = .next t ∧ t.hrd = { s.hrd with token := some n } ∧ t.flt = s.flt ∧
      t.outbox = s.outbox ++ [.herdToken s.hrd.downOk n (shownStates s) [] (beamHashOf s)]) ∧
    (∀ f, s.hrd.token = some f → ∃ t, exec .herdTokenIssue s = .next t ∧ t.hrd.token = some n ∧ t.hrd.tokensLost = satInc 16 s.hrd.tokensLost ∧
      Raised qHRD 0x61A 0x99 (f % 2 ^ 32) s t)) ∧
  (∀ s : State, deviceUp s = true → s.rst.herdMgr = false ∨ herdRuns s = false ∨ s.time.frame = none → exec .herdTokenIssue s = .next s) ∧
  (∀ (s : State), deviceUp s = true → s.rst.herdMgr = true →
    (s.hrd.token = none → exec .herdTokenTimeout s = .next s) ∧
    (∀ f, s.hrd.token = some f → ∃ t, exec .herdTokenTimeout s = .next t ∧ t.hrd.token = none ∧ t.hrd.tokenOk = false ∧
      t.hrd.tokensLost = satInc 16 s.hrd.tokensLost ∧ Raised qHRD 0x61A 0x99 (f % 2 ^ 32) s t) ∧
    (∀ f ps dn ns, s.hrd.token = some f → s.hrd.line = true → dn = true → s.hrd.upOk = true → exec (.herdTokenRetire f ps dn ns) s =
      .next { s with outbox := s.outbox ++ [.herdToken false f (shownStates s) ps (beamHashOf s)] }) ∧
    (∀ f ps dn ns, s.hrd.token = some f → s.hrd.line = false ∨ dn = false ∨ s.hrd.upOk = false →
      ∃ t, exec (.herdTokenRetire f ps dn ns) s = .next t ∧ t.hrd.token = none ∧
      t.hrd.tokenFrame = f ∧ t.hrd.tourNs = ns ∧ t.hrd.tokenOk = true ∧ t.flt = s.flt ∧ t.outbox = s.outbox ∧
      t.hrd.badHash = (if s.hrd.firstTour = true then (ps.filter (fun p => p.hash != beamHashOf s)).map (·.pos) else s.hrd.badHash) ∧
      t.hrd.remoteBusy = ps.any (fun p => !p.idle)) ∧
    (∀ f ps dn ns, s.hrd.token ≠ some f → exec (.herdTokenRetire f ps dn ns) s = .next s)) ∧
  (∀ (f n : Nat) (st : List (Nat × Nat × Nat)) (ps : List TokenPart) (h : BitVec 384) (hop : TokenHop) (s : State), deviceUp s = true →
    s.time.frame = some n →
    (s.rst.herdMgr = true → exec (.herdTokenReceive f st ps h hop) s = .next s) ∧
    (s.rst.herdMgr = false →
      (hop.canPass = true → ∃ t, exec (.herdTokenReceive f st ps h hop) s = .next t ∧ t.hrd.tokenFrame = f ∧ t.hrd.tokenOk = true ∧ t.hrd.since = 0 ∧
        t.hrd.firstTour = false ∧ t.hrd.beamOk = (h == beamHashOf s) ∧
        t.outbox = s.outbox ++ [.herdToken (passDown hop s) f st (ps ++ (if (ps.any (fun p => p.uid == ownUid)) = true then [] else [ownPart s])) h] ∧
        (f = n → s.hrd.firstTour = false ∨ h = beamHashOf s → t.flt = s.flt) ∧
        (f ≠ n → s.hrd.firstTour = false ∨ h = beamHashOf s → Raised qHRD 0x61A 0x9B (f % 2 ^ 32) s t) ∧
        (f = n → s.hrd.firstTour = true → h ≠ beamHashOf s → Raised qHRD 0x61A 0x9D (ownPos s % 16) s t)) ∧
      (hop.canPass = false → ∃ t, exec (.herdTokenReceive f st ps h hop) s = .next t ∧ t.hrd.tokenOk = false ∧
        t.hrd.tokensLost = satInc 16 s.hrd.tokensLost ∧ t.hrd.tokenFrame = s.hrd.tokenFrame ∧ t.outbox = s.outbox ∧
        (f = n → s.hrd.firstTour = false ∨ h = beamHashOf s → Raised qHRD 0x61A 0x99 (f % 2 ^ 32) s t)))) ∧
  (∀ s : State, deviceUp s = true →
    (s.rst.herdMgr = false → herdRuns s = true → 2 ≤ s.hrd.since → ∃ t, exec .herdTokenAbsent s = .next t ∧
      t.hrd = { s.hrd with since := 0, tokenOk := false } ∧ Raised qHRD 0x61A 0x99 (frame64 s % 2 ^ 32) s t) ∧
    (s.rst.herdMgr = true ∨ herdRuns s = false ∨ s.hrd.since < 2 → exec .herdTokenAbsent s = .next s)) ∧
  (∀ (d : Bool) (lost : List Nat) (s : State), hubUp s = true →
    (s.rst.herdMgr = true → ∃ t, exec (.herdRingOpen d lost) s = .next t ∧
      t.hrd = { s.hrd with line := true, tour := 2 * (s.hrd.devices - 1), unreached := lost } ∧
      Raised qHRD 0x61A 0x98 (if d = true then 1 else 0) s t ∧ { t with hrd := s.hrd, flt := s.flt, fm := s.fm } = s) ∧
    (s.rst.herdMgr = false → exec (.herdRingOpen d lost) s = .next s))

/-- OwnInv: a device that has been owned keeps a usable owner slot, whatever command runs (spec/15 R503). -/
def Obligations.OwnedStaysOwned : Prop :=
  ∀ s t : State, step s = .next t → OwnInv s → OwnInv t

/-- While both copies of the floor in the persistent store hold it, the floor never falls, whatever command runs, and both copies keep
holding it but for a debug access that writes the store (spec/15 R510, R517). -/
def Obligations.FloorNeverFalls : Prop :=
  ∀ s t : State, FloorStored s → step s = .next t →
    s.sec.floor ≤ t.sec.floor ∧ ((∀ x v, s.pending.head? ≠ some (.jtagDebugAccess (.writeStore x v))) → FloorStored t)

/-- Fuses stay burned over every step, and once an owner slot is burned no command programs the reset controller's fuses (spec/15 R502,
R503; spec/18 R598, R599). -/
def Obligations.FusesStayBurned : Prop :=
  ∀ s t : State, step s = .next t → FusesKept s t ∧ (s.sec.burned ≠ 0 → t.rst.fuse = s.rst.fuse ∧ t.rst.pinMap = s.rst.pinMap)

/-- Frame memory keeps its canonical form over every step: the model's own invariant (log 5). -/
def Obligations.MemoryStaysCanonical : Prop :=
  ∀ s t : State, step s = .next t → MemInv s → MemInv t

/-- A command changes everything but the queue, and every command is answered: no command stops the machine (the model's form of a block).
With no command waiting the block idles: the model's choice, log 42. -/
def Obligations.CommandsKeepTheQueue : Prop :=
  (∀ (c : Instr) (s : State), ∃ t, exec c s = .next t ∧ t.pending = s.pending) ∧
  (∀ s : State, s.pending = [] → step s = .next s)
end

