-- ==== Sys2Proof/Laws/Kept.lean ====
section
/-! SUPPORT. What no operation but a few changes: the queue, the burned fuses, the floor. One lemma for each operation over State: the
projection `kept` is the same after it; and for the few that change it, `Grows`. -/
namespace Sys2Proof.Laws
open Sys2Proof Sys2Proof.Machine

/-- What only few operations change: the queue, the burned fuses and the floor. -/
def kept (s : State) : List Instr × BitVec 4 × BitVec 4 × Nat × FloorCopy × FloorCopy × BitVec 64 × BitVec 15 :=
  (s.pending, s.sec.burned, s.sec.revoked, s.sec.floor, s.sec.floorA, s.sec.floorB, s.rst.fuse, s.rst.pinMap)

theorem kept_mk (x0 : List Instr) (x1 : Nat) (x2 : List Output) (x3 : TimeSt) (x4 : List (Nat × Word)) (x5 : List (Nat × Word))
    (x6 : List (Nat × Word)) (x7 : List (Nat × Bool)) (x8 : CommitSt) (x9 : Option Image) (x10 : SlotSt) (x11 : List (Nat × UnitSt))
        (x12 : List (Nat × List (Nat × UState))) (x13 : List (Nat × XgSt)) (x14 : List (Nat × RcSt)) (x15 : List (Nat × ToneSt))
            (x16 : ToneBox) (x17 : Bool) (x18 : Bool) (x19 : Nat) (x20 : List (Nat × AxSt)) (x21 : List (Nat × AxsSt))
                (x22 : List (Nat × SeSt)) (x23 : List (Nat × TkSt)) (x24 : List (Nat × Option MapEntry)) (x25 : List (Nat × GlSt))
                    (x26 : List (Nat × RhSt)) (x27 : List (Nat × IpSt)) (x28 : List (Nat × SwSt)) (x29 : List (Nat × EmSt))
                        (x30 : List (Nat × CmpSt)) (x31 : List (Nat × TgSt)) (x32 : List (Nat × PgSt)) (x33 : List (Nat × Option KeepEnt))
                            (x34 : FmSt) (x35 : NetSt) (x36 : HstSt) (x37 : TwnSt) (x38 : HrdSt) (x39 : SecSt) (x40 : FltSt) (x41 : MonSt)
                                (x42 : ClkSt) (x43 : RstSt) :
    kept ⟨x0, x1, x2, x3, x4, x5, x6, x7, x8, x9, x10, x11, x12, x13, x14, x15, x16, x17, x18, x19, x20, x21, x22, x23, x24, x25, x26, x27,
        x28, x29, x30, x31, x32, x33, x34, x35, x36, x37, x38, x39, x40, x41, x42, x43⟩ = (x0, x39.burned, x39.revoked, x39.floor,
            x39.floorA, x39.floorB, x43.fuse, x43.pinMap) := rfl
theorem kept_fold (s : State) : (s.pending, s.sec.burned, s.sec.revoked, s.sec.floor, s.sec.floorA, s.sec.floorB, s.rst.fuse,
    s.rst.pinMap) = kept s := rfl
theorem kept_ite (c : Prop) [Decidable c] (a b : State) : kept (if c then a else b) = if c then kept a else kept b := apply_ite kept c a b
theorem kept_ite_snd {α : Type} (c : Prop) [Decidable c] (a b : α × State) :
    kept (if c then a else b).2 = if c then kept a.2 else kept b.2 :=
  apply_ite (fun r : α × State => kept r.2) c a b
theorem kept_ite_fst {α : Type} (c : Prop) [Decidable c] (a b : State × α) :
    kept (if c then a else b).1 = if c then kept a.1 else kept b.1 :=
  apply_ite (fun r : State × α => kept r.1) c a b
theorem kept_foldl {α : Type} (f : State → α → State) (h : ∀ s a, kept (f s a) = kept s) : ∀ (l : List α) (s : State),
    kept (l.foldl f s) = kept s
  | [], _ => rfl
  | a :: l, s => (kept_foldl f h l (f s a)).trans (h s a)
theorem kept_foldl_snd {α β : Type} (f : β × State → α → β × State) (h : ∀ r a, kept (f r a).2 = kept r.2) :
    ∀ (l : List α) (r : β × State), kept (l.foldl f r).2 = kept r.2
  | [], _ => rfl
  | a :: l, r => (kept_foldl_snd f h l (f r a)).trans (h r a)
theorem kept_doFor {α : Type} (l : List α) (f : α → State → State) (h : ∀ a s,
    kept (f a s) = kept s) (s : State) : kept (doFor l f s) = kept s :=
  kept_foldl _ (fun s a => h a s) l s

theorem kept_drawNat (s : State) : kept (drawNat s).2 = kept s := (rfl)
theorem kept_emit (x0 : Output) (s : State) : kept (emit x0 s) = kept s := (rfl)
theorem kept_setInF (x0 : Nat) (x1 : Word) (s : State) : kept (setInF x0 x1 s) = kept s := (rfl)
theorem kept_setShadow (x0 : Nat) (x1 : Word) (s : State) : kept (setShadow x0 x1 s) = kept s := (rfl)
theorem kept_setRw (x0 : Nat) (x1 : Word) (s : State) : kept (setRw x0 x1 s) = kept s := (rfl)
theorem kept_modUnit (x0 : Nat) (x1 : UnitSt → UnitSt) (s : State) : kept (modUnit x0 x1 s) = kept s := (rfl)
theorem kept_modXg (x0 : Nat) (x1 : XgSt → XgSt) (s : State) : kept (modXg x0 x1 s) = kept s := (rfl)
theorem kept_modRc (x0 : Nat) (x1 : RcSt → RcSt) (s : State) : kept (modRc x0 x1 s) = kept s := (rfl)
theorem kept_modTone (x0 : Nat) (x1 : ToneSt → ToneSt) (s : State) : kept (modTone x0 x1 s) = kept s := (rfl)
theorem kept_modAx (x0 : Nat) (x1 : AxSt → AxSt) (s : State) : kept (modAx x0 x1 s) = kept s := (rfl)
theorem kept_modAxs (x0 : Nat) (x1 : AxsSt → AxsSt) (s : State) : kept (modAxs x0 x1 s) = kept s := (rfl)
theorem kept_modSe (x0 : Nat) (x1 : SeSt → SeSt) (s : State) : kept (modSe x0 x1 s) = kept s := (rfl)
theorem kept_modTk (x0 : Nat) (x1 : TkSt → TkSt) (s : State) : kept (modTk x0 x1 s) = kept s := (rfl)
theorem kept_modGl (x0 : Nat) (x1 : GlSt → GlSt) (s : State) : kept (modGl x0 x1 s) = kept s := (rfl)
theorem kept_modRh (x0 : Nat) (x1 : RhSt → RhSt) (s : State) : kept (modRh x0 x1 s) = kept s := (rfl)
theorem kept_modIp (x0 : Nat) (x1 : IpSt → IpSt) (s : State) : kept (modIp x0 x1 s) = kept s := (rfl)
theorem kept_modSw (x0 : Nat) (x1 : SwSt → SwSt) (s : State) : kept (modSw x0 x1 s) = kept s := (rfl)
theorem kept_modEm (x0 : Nat) (x1 : EmSt → EmSt) (s : State) : kept (modEm x0 x1 s) = kept s := (rfl)
theorem kept_modCmp (x0 : Nat) (x1 : CmpSt → CmpSt) (s : State) : kept (modCmp x0 x1 s) = kept s := (rfl)
theorem kept_modTg (x0 : Nat) (x1 : TgSt → TgSt) (s : State) : kept (modTg x0 x1 s) = kept s := (rfl)
theorem kept_modPg (x0 : Nat) (x1 : PgSt → PgSt) (s : State) : kept (modPg x0 x1 s) = kept s := (rfl)
theorem kept_modTile (x0 : Nat) (x1 : TileSt → TileSt) (s : State) : kept (modTile x0 x1 s) = kept s := (rfl)
theorem kept_modLed (x0 : Nat) (x1 : LedSt → LedSt) (s : State) : kept (modLed x0 x1 s) = kept s := (rfl)
theorem kept_modFs (x0 : Nat) (x1 : FsSt → FsSt) (s : State) : kept (modFs x0 x1 s) = kept s := (rfl)
theorem kept_modBbPort (x0 : Nat) (x1 : BbPort → BbPort) (s : State) : kept (modBbPort x0 x1 s) = kept s := (rfl)
theorem kept_modStream (x0 : Nat) (x1 : StreamSt → StreamSt) (s : State) : kept (modStream x0 x1 s) = kept s := (rfl)
theorem kept_modDma (x0 : Nat) (x1 : DmaSt → DmaSt) (s : State) : kept (modDma x0 x1 s) = kept s := (rfl)
theorem kept_modTwinRes (x0 : Nat) (x1 : TwinRes → TwinRes) (s : State) : kept (modTwinRes x0 x1 s) = kept s := (rfl)
theorem kept_modSession (x0 : Nat) (x1 : Session → Session) (s : State) : kept (modSession x0 x1 s) = kept s := (rfl)
theorem kept_modTemp (x0 : Nat) (x1 : TempSt → TempSt) (s : State) : kept (modTemp x0 x1 s) = kept s := (rfl)
theorem kept_maskRails (x0 : Nat) (x1 : Nat) (x2 : Nat) (s : State) : kept (maskRails x0 x1 x2 s) = kept s := (rfl)
theorem kept_modRail (x0 : Nat) (x1 : RailSt → RailSt) (s : State) : kept (modRail x0 x1 s) = kept s := (rfl)
theorem kept_numberFrames (x0 : Nat) (s : State) : kept (numberFrames x0 s) = kept s := (rfl)
theorem kept_ledProduce (x0 : Nat) (x1 : Nat) (s : State) : kept (ledProduce x0 x1 s) = kept s := (rfl)
theorem kept_ledConsume (x0 : Nat) (x1 : Nat) (s : State) : kept (ledConsume x0 x1 s) = kept s := (rfl)
theorem kept_ledDrop (x0 : Nat) (x1 : Nat) (x2 : Nat) (s : State) : kept (ledDrop x0 x1 x2 s) = kept s := by
  unfold ledDrop
  simp only [kept_ite, ite_self, kept_modLed]
theorem kept_queueMsg (x0 : Nat) (x1 : FaultMsg) (s : State) : kept (queueMsg x0 x1 s) = kept s := by
  unfold queueMsg
  simp only [kept_mk, kept_fold, kept_ite, ite_self, kept_ledProduce, kept_ledDrop]
theorem kept_raiseFault (x0 : Nat) (x1 : Nat) (x2 : Nat) (x3 : Nat) (s : State) : kept (raiseFault x0 x1 x2 x3 s) = kept s := by
  unfold raiseFault
  simp only [kept_queueMsg]
theorem kept_setCond (x0 : Nat) (x1 : Nat) (x2 : Nat) (x3 : Nat) (x4 : Bool) (x5 : Nat) (s : State) :
    kept (setCond x0 x1 x2 x3 x4 x5 s) = kept s := by
  unfold setCond
  simp only [kept_mk, kept_fold, kept_ite, ite_self, kept_raiseFault]
theorem kept_clearCond (x0 : Nat) (x1 : Nat) (x2 : Nat) (s : State) : kept (clearCond x0 x1 x2 s) = kept s := (rfl)
theorem kept_clearConds (x0 : Nat) (s : State) : kept (clearConds x0 s) = kept s := (rfl)
theorem kept_sendVector (x0 : Nat) (s : State) : kept (sendVector x0 s) = kept s := by
  unfold sendVector
  simp only [kept_mk, kept_fold, kept_ite, ite_self, kept_emit]
theorem kept_intSource (x0 : Nat) (s : State) : kept (intSource x0 s) = kept s := by
  unfold intSource
  simp only [kept_ite, ite_self, kept_sendVector]
theorem kept_sendIbi (x0 : Nat) (s : State) : kept (sendIbi x0 s) = kept s := by
  unfold sendIbi
  simp only [kept_ite, ite_self, kept_emit]
theorem kept_setByte (x0 : Nat) (x1 : Byte) (s : State) : kept (setByte x0 x1 s) = kept s := (rfl)
theorem kept_setBytes : ∀ (bs : List Byte) (a : Nat) (s : State), kept (setBytes a bs s) = kept s
  | [], _, _ => rfl
  | b :: t, a, s => (kept_setBytes t (a + 1) (setByte a b s)).trans (kept_setByte a b s)
theorem kept_modTwn (x0 : TwnSt → TwnSt) (s : State) : kept (modTwn x0 s) = kept s := (rfl)
theorem kept_twinSend (x0 : List Byte) (x1 : BitVec 128 → Output) (s : State) : kept (twinSend x0 x1 s) = kept s := by
  unfold twinSend
  simp only [kept_ite, ite_self, kept_emit, kept_modTwn]
theorem kept_sendTwin (x0 : TwinMsg) (s : State) : kept (sendTwin x0 s) = kept s := by
  unfold sendTwin
  simp only [kept_twinSend]
theorem kept_alarmEnter (s : State) : kept (alarmEnter s) = kept s := by
  unfold alarmEnter
  simp only [kept_mk, kept_fold, kept_ite, ite_self, kept_emit, kept_sendIbi]
theorem kept_alarmLeave (s : State) : kept (alarmLeave s) = kept s := by
  unfold alarmLeave
  simp only [kept_mk, kept_fold, kept_ite, ite_self]
theorem kept_showPins (x0 : State → Nat → PinLevel) (x1 s : State) : kept (showPins x0 x1 s) = kept s := by
  unfold showPins
  split <;> simp only [kept_emit]
theorem kept_setNow (x0 : Nat) (s : State) : kept (setNow x0 s) = kept s := (rfl)
theorem kept_toneMail (x0 : Nat) (x1 : Nat) (x2 : Word) (x3 : Word) (x4 : Word) (s : State) :
    kept (toneMail x0 x1 x2 x3 x4 s) = kept s := by
  unfold toneMail
  simp only [kept_mk, kept_fold, kept_intSource]
theorem kept_toneCode (x0 : Nat) (x1 : Nat) (s : State) : kept (toneCode x0 x1 s) = kept s := by
  unfold toneCode
  simp only [kept_toneMail]
theorem kept_toneAbort (x0 : Nat) (s : State) : kept (toneAbort x0 s) = kept s := by
  unfold toneAbort
  split <;> simp only [kept_ite, ite_self, kept_modTone, kept_toneCode]
theorem kept_toneRefuse (x0 : Nat) (x1 : ToneReq → Bool) (s : State) : kept (toneRefuse x0 x1 s) = kept s := by
  unfold toneRefuse
  simp only [kept_doFor, kept_modTone, kept_toneCode, implies_true]
theorem kept_toneDrop (x0 : Nat) (s : State) : kept (toneDrop x0 s) = kept s := by
  unfold toneDrop
  simp only [kept_toneAbort, kept_toneRefuse]
theorem kept_dropQueued (s : State) : kept (dropQueued s) = kept s := by
  unfold dropQueued
  simp only [kept_doFor, kept_ledConsume, kept_ledDrop, implies_true]
theorem kept_hubReset (s : State) : kept (hubReset s) = kept s := by
  unfold hubReset
  simp only [kept_mk, kept_fold, kept_dropQueued]
theorem kept_drawChal (s : State) : kept (drawChal s) = kept s := (rfl)
theorem kept_chipReset (s : State) : kept (chipReset s) = kept s := by
  unfold chipReset
  simp only [kept_mk, kept_fold, kept_hubReset, kept_drawChal]
theorem kept_odometerSave (s : State) : kept (odometerSave s) = kept s := (rfl)
theorem kept_coldReset (s : State) : kept (coldReset s) = kept s := by
  unfold coldReset
  simp only [kept_mk, kept_fold, kept_chipReset]
theorem kept_sliceReset (x0 : Nat) (s : State) : kept (sliceReset x0 s) = kept s := by
  unfold sliceReset
  simp only [kept_mk, kept_fold, kept_doFor, kept_ledDrop, kept_toneDrop, implies_true]
theorem kept_holdDevice (x0 : Nat) (s : State) : kept (holdDevice x0 s) = kept s := by
  unfold holdDevice
  simp only [kept_mk, kept_fold, kept_ite, ite_self, kept_hubReset, kept_chipReset, kept_coldReset]
theorem kept_holdSlices (x0 : BitVec 8) (s : State) : kept (holdSlices x0 s) = kept s := by
  unfold holdSlices
  simp only [kept_mk, kept_fold, kept_doFor, kept_sliceReset, implies_true]
theorem kept_sourceEffect (x0 : SourceReq) (s : State) : kept (sourceEffect x0 s) = kept s := by
  unfold sourceEffect
  simp only [kept_ite, ite_self, kept_modUnit, kept_holdDevice, kept_holdSlices]
theorem kept_assertSources (x0 : List SourceReq) (x1 : Nat) (s : State) : kept (assertSources x0 x1 s) = kept s := by
  unfold assertSources
  simp only []
  (repeat' split) <;> simp only [kept_mk, kept_fold, kept_doFor, kept_alarmEnter, kept_showPins, kept_sourceEffect, implies_true]
theorem kept_openTile (x0 : Nat) (s : State) : kept (openTile x0 s) = kept s := (rfl)
theorem kept_sealTile (x0 : Nat) (s : State) : kept (sealTile x0 s) = kept s := (rfl)
theorem kept_tileFailed (x0 : Nat) (x1 : Nat) (s : State) : kept (tileFailed x0 x1 s) = kept s := by
  unfold tileFailed
  simp only [kept_mk, kept_fold, kept_ite, ite_self, kept_modTile, kept_raiseFault]
theorem kept_checkTile (x0 : Nat) (x1 : Nat) (s : State) : kept (checkTile x0 x1 s).2 = kept s := by
  unfold checkTile
  simp only [ite_self, kept_tileFailed, kept_ite_snd]
theorem kept_takeMsgs : ∀ (l : List (Fin 28)) (s : State), kept (takeMsgs l s).2 = kept s
  | [], _ => rfl
  | q :: t, s => by
    unfold takeMsgs
    split
    · exact kept_takeMsgs t s
    · exact (kept_takeMsgs t _).trans ((kept_ledConsume 8 1 _).trans rfl)
theorem kept_countMsg (x0 : FaultMsg) (s : State) : kept (countMsg x0 s).2 = kept s := (rfl)
theorem kept_countAll : ∀ (l : List Taken) (s : State), kept (countAll l s).2 = kept s
  | [], _ => rfl
  | x :: t, s => (kept_countAll t _).trans (kept_countMsg x.2 s)
theorem kept_addEvent (x0 : Nat) (x1 : List Byte) (s : State) : kept (addEvent x0 x1 s) = kept s := (rfl)
theorem kept_logWrite (x0 : LogRec) (s : State) : kept (logWrite x0 s) = kept s := by
  unfold logWrite
  split <;> simp only [kept_mk, kept_fold, kept_setBytes, kept_openTile]
theorem kept_ringWrite (x0 : LogRec) (s : State) : kept (ringWrite x0 s) = kept s := by
  unfold ringWrite
  simp only [kept_mk, kept_fold, kept_ite, ite_self]
theorem kept_queueTrap (x0 : Nat) (x1 : FaultMsg) (s : State) : kept (queueTrap x0 x1 s) = kept s := by
  unfold queueTrap
  simp only [kept_ite, ite_self, kept_modSe, kept_sendVector]
theorem kept_startSlice (x0 : Nat) (s : State) : kept (startSlice x0 s) = kept s := by
  unfold startSlice
  simp only [kept_mk, kept_fold, kept_sliceReset]
theorem kept_releaseSlices (x0 : BitVec 8) (s : State) : kept (releaseSlices x0 s) = kept s := by
  unfold releaseSlices
  simp only [kept_mk, kept_fold, kept_ite, ite_self, kept_doFor, kept_startSlice, implies_true]
theorem kept_unitReset (x0 : Nat) (s : State) : kept (unitReset x0 s) = kept s := by
  unfold unitReset
  simp only [kept_ite, ite_self, kept_modUnit, kept_holdSlices, kept_releaseSlices]
theorem kept_statusAccept (x0 : FaultMsg) (x1 : Nat) (s : State) : kept (statusAccept x0 x1 s) = kept s := by
  unfold statusAccept
  simp only []
  (repeat' split) <;> simp only [kept_mk, kept_fold, kept_modUnit, kept_modFs]
theorem kept_applyReact (x0 : Nat) (x1 : Nat) (x2 : FaultMsg) (s : State) : kept (applyReact x0 x1 x2 s) = kept s := by
  unfold applyReact
  simp only [kept_ite, ite_self, kept_modFs, kept_intSource, kept_queueTrap, kept_unitReset]
theorem kept_acceptOne (x0 : Nat) (x1 : Taken × Nat × Bool) (s : State) : kept (acceptOne x0 x1 s) = kept s := by
  unfold acceptOne
  extract_lets m cls mask seq r f1 s1 f2 s2 s3 s4 s5 s6 s7
  have h1 : kept s1 = kept s := rfl
  have h2 : kept s2 = kept s1 := by
    simp only [s2]; split <;> rfl
  have h3 : kept s3 = kept s2 := kept_statusAccept m cls s2
  have h4 : kept s4 = kept s3 := by
    simp only [s4]; split
    · exact kept_logWrite r s3
    · rfl
  have h5 : kept s5 = kept s4 := by
    simp only [s5]; split
    · exact kept_ringWrite r s4
    · rfl
  have h6 : kept s6 = kept s5 := by
    simp only [s6]; split
    · split
      · exact kept_addEvent x0 _ s5
      · rfl
    · rfl
  have h7 : kept s7 = kept s6 := by
    simp only [s7]; split
    · exact kept_sendIbi _ s6
    · rfl
  exact (kept_applyReact _ _ _ s7).trans (h7.trans (h6.trans (h5.trans (h4.trans (h3.trans (h2.trans h1))))))
theorem kept_acceptCycle (x0 : List (Fin 28)) (x1 : Nat) (s : State) : kept (acceptCycle x0 x1 s) = kept s := by
  unfold acceptCycle
  simp only []
  (repeat' split) <;> simp only [kept_mk, kept_fold, kept_doFor, kept_alarmEnter, kept_assertSources, kept_takeMsgs, kept_countAll,
      kept_acceptOne, implies_true]
theorem kept_closeWindow (x0 : Nat) (s : State) : kept (closeWindow x0 s) = kept s := by
  unfold closeWindow
  split <;> simp only [kept_ite, ite_self, kept_modFs]
theorem kept_clearLatched (x0 : Nat) (s : State) : kept (clearLatched x0 s) = kept s := by
  unfold clearLatched
  simp only [kept_ite, ite_self, kept_modFs, kept_alarmLeave]
theorem kept_clearFirstFault (s : State) : kept (clearFirstFault s) = kept s := (rfl)
theorem kept_clearHbLost (s : State) : kept (clearHbLost s) = kept s := by
  unfold clearHbLost
  simp only [kept_mk, kept_fold, kept_ite, ite_self, kept_alarmLeave]
theorem kept_ackEscalation (x0 : Nat) (x1 : Word) (s : State) : kept (ackEscalation x0 x1 s) = kept s := by
  unfold ackEscalation
  simp only [kept_ite, ite_self, kept_modUnit]
theorem kept_expireEscalation (x0 : Nat) (s : State) : kept (expireEscalation x0 s) = kept s := by
  unfold expireEscalation
  simp only [kept_ite, ite_self, kept_modUnit, kept_raiseFault]
theorem kept_alarmExit (x0 : Nat) (s : State) : kept (alarmExit x0 s) = kept s := by
  unfold alarmExit
  simp only [kept_mk, kept_fold, kept_ite, ite_self, kept_emit]
theorem kept_alarmToggle (x0 : Nat) (s : State) : kept (alarmToggle x0 s) = kept s := by
  unfold alarmToggle
  simp only [kept_mk, kept_fold, kept_ite, ite_self, kept_emit, kept_alarmExit]
theorem kept_heartbeat (x0 : Nat) (s : State) : kept (heartbeat x0 s) = kept s := by
  unfold heartbeat
  simp only [kept_mk, kept_fold, kept_ite, ite_self, kept_raiseFault]
theorem kept_heartbeatLost (x0 : Nat) (s : State) : kept (heartbeatLost x0 s) = kept s := by
  unfold heartbeatLost
  simp only [kept_mk, kept_fold, kept_ite, ite_self, kept_alarmEnter]
theorem kept_tempConvert (x0 : Nat) (x1 : Int) (x2 : Bool) (s : State) : kept (tempConvert x0 x1 x2 s) = kept s := by
  unfold tempConvert
  simp only [kept_ite, ite_self, kept_modTemp, kept_setCond]
theorem kept_thermalTrip (x0 : Nat) (x1 : Int) (s : State) : kept (thermalTrip x0 x1 s) = kept s := by
  unfold thermalTrip
  simp only [kept_mk, kept_fold, kept_ite, ite_self, kept_assertSources]
theorem kept_railSample (x0 : Nat) (x1 : Nat) (s : State) : kept (railSample x0 x1 s) = kept s := by
  unfold railSample
  simp only [kept_ite, ite_self, kept_modRail, kept_setCond]
theorem kept_roMeasure (x0 : Nat) (x1 : Nat) (x2 : Int) (s : State) : kept (roMeasure x0 x1 x2 s) = kept s := by
  unfold roMeasure
  simp only [kept_mk, kept_fold, kept_ite, ite_self, kept_raiseFault]
theorem kept_agingMeasure (x0 : Nat) (x1 : Nat) (s : State) : kept (agingMeasure x0 x1 s) = kept s := by
  unfold agingMeasure
  simp only [kept_mk, kept_fold, kept_setCond]
theorem kept_odometerTick (s : State) : kept (odometerTick s) = kept s := by
  unfold odometerTick
  simp only [kept_mk, kept_fold, kept_ite, ite_self, kept_raiseFault, kept_odometerSave]
theorem kept_pllLost (x0 : Nat) (s : State) : kept (pllLost x0 s) = kept s := by
  unfold pllLost
  simp only [kept_mk, kept_fold, kept_ite, ite_self, kept_raiseFault]
theorem kept_setModErr (x0 : Int) (s : State) : kept (setModErr x0 s) = kept s := by
  unfold setModErr
  simp only [kept_mk, kept_fold, kept_ite, ite_self, kept_raiseFault]
theorem kept_slewGrid (s : State) : kept (slewGrid s) = kept s := by
  unfold slewGrid
  simp only [kept_ite, ite_self, kept_setModErr]
theorem kept_pllLock (x0 : Nat) (x1 : Bool) (s : State) : kept (pllLock x0 x1 s) = kept s := by
  unfold pllLock
  simp only [kept_mk, kept_fold, kept_ite, ite_self, kept_drawNat, kept_startSlice, kept_setModErr]
theorem kept_refLost (s : State) : kept (refLost s) = kept s := by
  unfold refLost
  simp only [kept_mk, kept_fold, kept_ite, ite_self, kept_raiseFault]
theorem kept_refReturn (s : State) : kept (refReturn s) = kept s := by
  unfold refReturn
  simp only [kept_mk, kept_fold, kept_ite, ite_self, kept_raiseFault]
theorem kept_holdoverExpiry (s : State) : kept (holdoverExpiry s) = kept s := by
  unfold holdoverExpiry
  simp only [kept_mk, kept_fold, kept_ite, ite_self, kept_doFor, kept_pllLost, implies_true]
theorem kept_rcTrim (x0 : BitVec 16) (s : State) : kept (rcTrim x0 s) = kept s := by
  unfold rcTrim
  simp only [kept_mk, kept_fold, kept_ite, ite_self]
theorem kept_xtalFail (s : State) : kept (xtalFail s) = kept s := by
  unfold xtalFail
  simp only [kept_mk, kept_fold, kept_ite, ite_self, kept_raiseFault]
theorem kept_actRefuse (x0 : Nat) (s : State) : kept (actRefuse x0 s) = kept s := by
  unfold actRefuse
  simp only [kept_mk, kept_fold, kept_raiseFault]
theorem kept_actRequest (x0 : Nat) (x1 : Bool) (s : State) : kept (actRequest x0 x1 s) = kept s := by
  unfold actRequest
  simp only [kept_mk, kept_fold, kept_ite, ite_self, kept_maskRails, kept_actRefuse]
theorem kept_actEnd (x0 : Nat) (s : State) : kept (actEnd x0 s) = kept s := (rfl)
theorem kept_actBoundary (x0 : Nat) (s : State) : kept (actBoundary x0 s) = kept s := by
  unfold actBoundary
  (repeat' split) <;> simp only [kept_mk, kept_fold, kept_raiseFault, kept_odometerSave, kept_actEnd]
theorem kept_wakeReady (s : State) : kept (wakeReady s) = kept s := by
  unfold wakeReady
  simp only [kept_mk, kept_fold, kept_ite, ite_self]
theorem kept_wakeTimeout (s : State) : kept (wakeTimeout s) = kept s := by
  unfold wakeTimeout
  simp only [kept_ite, ite_self, kept_raiseFault, kept_actEnd]
theorem kept_pwrReqFall (s : State) : kept (pwrReqFall s) = kept s := by
  unfold pwrReqFall
  simp only [kept_mk, kept_fold, kept_ite, ite_self, kept_emit, kept_assertSources]
theorem kept_wakeSource (x0 : WakeSrc) (s : State) : kept (wakeSource x0 s) = kept s := by
  unfold wakeSource
  simp only [kept_mk, kept_fold, kept_ite, ite_self, kept_emit, kept_maskRails, kept_actEnd]
theorem kept_cycleStart (x0 : Nat) (x1 : Nat) (s : State) : kept (cycleStart x0 x1 s) = kept s := (rfl)
theorem kept_toneCycle (x0 : Nat) (x1 : Nat) (s : State) : kept (toneCycle x0 x1 s) = kept s := (rfl)
theorem kept_handoverDrive (x0 : Nat) (s : State) : kept (handoverDrive x0 s) = kept s := (rfl)
theorem kept_loopLimit (x0 : Nat) (x1 : Nat) (s : State) : kept (loopLimit x0 x1 s) = kept s := by
  unfold loopLimit
  simp only [kept_modXg, kept_setCond]
theorem kept_loopUpdate (x0 : Nat) (x1 : Nat) (s : State) : kept (loopUpdate x0 x1 s) = kept s := by
  unfold loopUpdate
  simp only [kept_modXg, kept_loopLimit]
theorem kept_burstStart (x0 : Nat) (x1 : Nat) (s : State) : kept (burstStart x0 x1 s) = kept s := by
  unfold burstStart
  simp only [kept_ite, ite_self, kept_modXg, kept_loopUpdate]
theorem kept_burstEnd (x0 : Nat) (x1 : Nat) (s : State) : kept (burstEnd x0 x1 s) = kept s := (rfl)
theorem kept_governor (x0 : Nat) (x1 : Nat) (s : State) : kept (governor x0 x1 s) = kept s := (rfl)
theorem kept_tripGroup (x0 : Nat) (s : State) : kept (tripGroup x0 s) = kept s := (rfl)
theorem kept_senseWindows (x0 : Nat) (x1 : Nat) (x2 : Nat) (x3 : Int) (s : State) : kept (senseWindows x0 x1 x2 x3 s) = kept s := by
  unfold senseWindows
  simp only [kept_ite, ite_self, kept_modUnit, kept_modXg, kept_setCond, kept_tripGroup]
theorem kept_senseGap (x0 : Nat) (x1 : Nat) (s : State) : kept (senseGap x0 x1 s) = kept s := by
  unfold senseGap
  simp only [kept_modXg, kept_setCond]
theorem kept_senseCycle (x0 : Nat) (x1 : Nat) (x2 : Nat) (x3 : Int) (s : State) : kept (senseCycle x0 x1 x2 x3 s) = kept s := by
  unfold senseCycle
  simp only []
  (repeat' split) <;> simp only [kept_modXg, kept_loopUpdate, kept_senseWindows, kept_senseGap]
theorem kept_groupPrepare (x0 : Nat) (s : State) : kept (groupPrepare x0 s) = kept s := (rfl)
theorem kept_toBursts (x0 : Nat) (x1 : Nat) (s : State) : kept (toBursts x0 x1 s) = kept s := (rfl)
theorem kept_toContinuous (x0 : Nat) (x1 : Nat) (s : State) : kept (toContinuous x0 x1 s) = kept s := (rfl)
theorem kept_loopOff (x0 : Nat) (s : State) : kept (loopOff x0 s) = kept s := (rfl)
theorem kept_groupReady (x0 : Nat) (x1 : Nat) (s : State) : kept (groupReady x0 x1 s) = kept s := by
  unfold groupReady
  simp only [kept_ite, ite_self, kept_toBursts]
theorem kept_groupOff (x0 : Nat) (s : State) : kept (groupOff x0 s) = kept s := (rfl)
theorem kept_groupClear (x0 : Nat) (s : State) : kept (groupClear x0 s) = kept s := (rfl)
theorem kept_setOwner (x0 : Nat) (x1 : Bool) (s : State) : kept (setOwner x0 x1 s) = kept s := by
  unfold setOwner
  simp only [kept_ite, ite_self, kept_modXg, kept_toneAbort]
theorem kept_xgCtrlChange (x0 : Nat) (x1 : Nat) (x2 : Word) (s : State) : kept (xgCtrlChange x0 x1 x2 s).2 = kept s := by
  unfold xgCtrlChange
  simp only [kept_ite, ite_self, kept_setShadow, kept_raiseFault, kept_toBursts, kept_toContinuous, kept_loopOff]
theorem kept_dutyFrame (x0 : Nat) (x1 : Nat) (s : State) : kept (dutyFrame x0 x1 s) = kept s := (rfl)
theorem kept_windowCheck (x0 : Nat) (x1 : Nat) (x2 : Nat) (x3 : Bool) (x4 : Word) (x5 : Nat) (x6 : List Nat) (s : State) :
    kept (windowCheck x0 x1 x2 x3 x4 x5 x6 s) = kept s := by
  unfold windowCheck
  simp only [kept_ite, ite_self, kept_modRc, kept_setCond, kept_clearCond]
theorem kept_envelopeCheck (x0 : Nat) (x1 : Nat) (x2 : Nat) (x3 : Nat) (s : State) : kept (envelopeCheck x0 x1 x2 x3 s) = kept s := by
  unfold envelopeCheck
  split <;> simp only [kept_ite, ite_self, kept_modRc, kept_setCond, kept_clearCond]
theorem kept_overrange (x0 : Nat) (x1 : Nat) (x2 : Int) (x3 : Int) (s : State) : kept (overrange x0 x1 x2 x3 s) = kept s := by
  unfold overrange
  simp only [kept_mk, kept_fold, kept_ite, ite_self, kept_modRc, kept_raiseFault]
theorem kept_toneSample (x0 : Nat) (x1 : Nat) (x2 : Int) (x3 : Int) (s : State) : kept (toneSample x0 x1 x2 x3 s) = kept s := by
  unfold toneSample
  simp only [kept_ite, ite_self, kept_modTone]
theorem kept_toneWindow (x0 : Nat) (x1 : BitVec 8) (s : State) : kept (toneWindow x0 x1 s) = kept s := by
  unfold toneWindow
  split <;> simp only [kept_ite, ite_self, kept_toneAbort]
theorem kept_toneReport (x0 : Nat) (x1 : ToneRun) (x2 : Nat × Int × Nat) (x3 : Nat × Int × Nat) (s : State) :
    kept (toneReport x0 x1 x2 x3 s) = kept s := by
  unfold toneReport
  simp only [kept_ite, ite_self, kept_modRc, kept_modTone, kept_raiseFault, kept_toneMail]
theorem kept_toneComplete (x0 : Nat) (x1 : Nat) (x2 : Nat) (x3 : Int) (x4 : Int) (x5 : Nat) (x6 : Nat) (s : State) :
    kept (toneComplete x0 x1 x2 x3 x4 x5 x6 s) = kept s := by
  unfold toneComplete
  split <;> simp only [kept_ite, ite_self, kept_toneReport]
theorem kept_toneTimeout (x0 : Nat) (s : State) : kept (toneTimeout x0 s) = kept s := by
  unfold toneTimeout
  split <;> simp only [kept_ite, ite_self, kept_toneAbort]
theorem kept_toneRequest (x0 : Word) (x1 : Nat) (s : State) : kept (toneRequest x0 x1 s) = kept s := by
  unfold toneRequest
  simp only [kept_mk, kept_fold, kept_ite, ite_self, kept_modTone, kept_raiseFault, kept_sendTwin, kept_toneCode]
theorem kept_toneBoundary (x0 : Nat) (x1 : Nat) (s : State) : kept (toneBoundary x0 x1 s) = kept s := by
  unfold toneBoundary
  simp only []
  (repeat' split) <;> simp only [kept_modTone, kept_toneAbort, kept_toneRefuse]
theorem kept_chanSample (x0 : Nat) (x1 : ChanSample) (s : State) : kept (chanSample x0 x1 s) = kept s := by
  unfold chanSample
  simp only [kept_ite, ite_self, kept_modRc, kept_modSe, kept_windowCheck, kept_envelopeCheck, kept_overrange, kept_toneSample,
      kept_toneWindow]
theorem kept_senseSample (x0 : SensePins) (s : State) : kept (senseSample x0 s) = kept s := by
  unfold senseSample
  simp only [kept_modRc, kept_windowCheck]
theorem kept_captureOpen (x0 : Nat) (x1 : Nat) (s : State) : kept (captureOpen x0 x1 s) = kept s := by
  unfold captureOpen
  simp only [kept_ite, ite_self, kept_doFor, kept_modSe, kept_ledProduce, kept_ledDrop, kept_raiseFault, implies_true]
theorem kept_captureSample (x0 : Nat) (x1 : List ChanSample) (x2 : List SensePins) (s : State) :
    kept (captureSample x0 x1 x2 s) = kept s := by
  unfold captureSample
  simp only [kept_mk, kept_fold, kept_doFor, kept_sendTwin, kept_chanSample, kept_senseSample, kept_captureOpen, implies_true]
theorem kept_setBiasSplit (x0 : Bool) (s : State) : kept (setBiasSplit x0 s) = kept s := by
  unfold setBiasSplit
  simp only [kept_mk, kept_fold, kept_ite, ite_self, kept_doFor, kept_modRc, implies_true]
theorem kept_engineReload (x0 : Nat) (s : State) : kept (engineReload x0 s) = kept s := (rfl)
theorem kept_firstoreBank (x0 : Nat) (s : State) : kept (firstoreBank x0 s).2 = kept s := by
  unfold firstoreBank
  split <;> simp only [ite_self, kept_checkTile, kept_foldl_snd, implies_true, kept_ite_snd]
theorem kept_enginePrepare (x0 : Nat) (s : State) : kept (enginePrepare x0 s) = kept s := by
  unfold enginePrepare
  simp only []
  (repeat' split) <;> simp only [kept_modSe, kept_engineReload, kept_firstoreBank]
theorem kept_settleSwap (x0 : Nat) (x1 : Nat) (s : State) : kept (settleSwap x0 x1 s) = kept s := by
  unfold settleSwap
  simp only []
  (repeat' split) <;> simp only [kept_modSe]
theorem kept_settleSwaps (x0 : Nat) (x1 : Nat) (s : State) : kept (settleSwaps x0 x1 s) = kept s := by
  unfold settleSwaps
  simp only [kept_settleSwap]
theorem kept_countBoundary (x0 : Nat) (x1 : Nat) (x2 : Nat) (s : State) : kept (countBoundary x0 x1 x2 s).2 = kept s := by
  unfold countBoundary
  simp only []
  (repeat' split) <;> simp only [kept_modSe, kept_settleSwaps]
theorem kept_swapBoundary (x0 : Nat) (x1 : Nat) (x2 : Bool) (s : State) : kept (swapBoundary x0 x1 x2 s).2 = kept s := by
  unfold swapBoundary
  simp only []
  (repeat' split) <;> simp only [kept_setShadow, kept_modSe, kept_raiseFault, kept_settleSwaps]
theorem kept_latchXf (x0 : State) (s : State) : kept (latchXf x0 s) = kept s := by
  unfold latchXf
  simp only [kept_doFor, kept_modSe, implies_true]
theorem kept_engineStop (x0 : Nat) (s : State) : kept (engineStop x0 s) = kept s := by
  unfold engineStop
  simp only [kept_modSe, kept_ledDrop]
theorem kept_bankWrite (x0 : Nat) (x1 : Bool) (x2 : Nat) (x3 : Word) (s : State) : kept (bankWrite x0 x1 x2 x3 s) = kept s := by
  unfold bankWrite
  simp only [kept_ite, ite_self, kept_modSe, kept_raiseFault]
theorem kept_seException (x0 : Nat) (x1 : Nat) (s : State) : kept (seException x0 x1 s) = kept s := by
  unfold seException
  simp only [kept_modSe, kept_raiseFault]
theorem kept_seOverrun (x0 : Nat) (s : State) : kept (seOverrun x0 s) = kept s := by
  unfold seOverrun
  simp only [kept_modSe, kept_raiseFault]
theorem kept_readHits (x0 : Nat) (x1 : SeMem) : ∀ (l : List Nat) (s : State), kept (readHits x0 x1 l s).2 = kept s
  | [], _ => rfl
  | a :: t, s => by
    unfold readHits
    split
    · exact kept_readHits x0 x1 t s
    · split
      · exact kept_raiseFault _ _ _ _ s
      · exact (kept_readHits x0 x1 t _).trans (kept_modSe _ _ s)
theorem kept_seOp (x0 : Nat) (x1 : List Nat) (x2 : Nat) (x3 : List (Nat × Nat)) (x4 : State → State × SeRes) (h : ∀ s,
    kept (x4 s).1 = kept s)
    (s : State) : kept (seOp x0 x1 x2 x3 x4 s) = kept s := by
  unfold seOp
  simp only []
  (repeat' split) <;> simp only [kept_modSe, kept_seException, kept_seOverrun, h]
theorem kept_seReg (x0 : Nat) (x1 : SeSt → SeSt) (s : State) : kept (seReg x0 x1 s).1 = kept s := (rfl)
theorem kept_seRead (x0 : Nat) (x1 : SeMem) (x2 : List Nat) (x3 : SeSt → SeSt) (s : State) : kept (seRead x0 x1 x2 x3 s).1 = kept s := by
  unfold seRead
  simp only [ite_self, kept_modSe, kept_readHits, kept_ite_fst]
theorem kept_opNop (x0 : Nat) (x1 : SeFields) (s : State) : kept (opNop x0 x1 s) = kept s := by
  unfold opNop
  simp only [kept_seOp, implies_true]
theorem kept_opMovi (x0 : Nat) (x1 : SeFields) (s : State) : kept (opMovi x0 x1 s) = kept s := by
  unfold opMovi
  simp only [kept_seOp, kept_seReg, implies_true]
theorem kept_opSadd (x0 : Nat) (x1 : SeFields) (s : State) : kept (opSadd x0 x1 s) = kept s := by
  unfold opSadd
  simp only [kept_seOp, kept_seReg, implies_true]
theorem kept_opLds (x0 : Nat) (x1 : SeFields) (s : State) : kept (opLds x0 x1 s) = kept s := by
  unfold opLds
  simp only [ite_self, kept_seOp, kept_seRead, implies_true, kept_ite_fst]
theorem kept_opSts (x0 : Nat) (x1 : SeFields) (s : State) : kept (opSts x0 x1 s) = kept s := by
  unfold opSts
  simp only [ite_self, kept_seOp, kept_seReg, implies_true, kept_ite_fst]
theorem kept_opLdv (x0 : Nat) (x1 : SeFields) (s : State) : kept (opLdv x0 x1 s) = kept s := by
  unfold opLdv
  simp only [ite_self, kept_seOp, kept_seRead, implies_true, kept_ite_fst]
theorem kept_opStv (x0 : Nat) (x1 : SeFields) (s : State) : kept (opStv x0 x1 s) = kept s := by
  unfold opStv
  simp only [ite_self, kept_seOp, kept_seReg, implies_true, kept_ite_fst]
theorem kept_opLdc (x0 : Nat) (x1 : SeFields) (s : State) : kept (opLdc x0 x1 s) = kept s := by
  unfold opLdc
  simp only [ite_self, kept_seOp, kept_seRead, implies_true, kept_ite_fst]
theorem kept_noteEntry (x0 : Nat) (x1 : FifoEnt) (s : State) : kept (noteEntry x0 x1 s) = kept s := (rfl)
theorem kept_capLane (x0 : Nat) (x1 : SeFields) (s : State) : kept (capLane x0 x1 s) = kept s := by
  unfold capLane
  simp only [kept_ite, ite_self, kept_modSe, kept_ledConsume]
theorem kept_capAux (x0 : Nat) (x1 : SeFields) (s : State) : kept (capAux x0 x1 s) = kept s := by
  unfold capAux
  split <;> simp only [kept_modSe, kept_ledConsume, kept_noteEntry]
theorem kept_opCap (x0 : Nat) (x1 : SeFields) (s : State) : kept (opCap x0 x1 s) = kept s := by
  unfold opCap
  simp only [kept_ite, ite_self, kept_seOp, kept_capLane, kept_capAux, implies_true]
theorem kept_opCtx (x0 : Nat) (x1 : SeFields) (s : State) : kept (opCtx x0 x1 s) = kept s := by
  unfold opCtx
  simp only [ite_self, kept_seOp, kept_seReg, implies_true, kept_ite_fst]
theorem kept_opMac (x0 : Nat) (x1 : SeFields) (s : State) : kept (opMac x0 x1 s) = kept s := by
  unfold opMac
  simp only [kept_seOp, kept_seReg, implies_true]
theorem kept_opMacm (x0 : Nat) (x1 : SeFields) (s : State) : kept (opMacm x0 x1 s) = kept s := by
  unfold opMacm
  simp only [ite_self, kept_readHits, kept_seOp, kept_seRead, implies_true, kept_ite_fst]
theorem kept_opHsum (x0 : Nat) (x1 : SeFields) (s : State) : kept (opHsum x0 x1 s) = kept s := by
  unfold opHsum
  simp only [kept_seOp, kept_seReg, implies_true]
theorem kept_opRnd (x0 : Nat) (x1 : SeFields) (s : State) : kept (opRnd x0 x1 s) = kept s := by
  unfold opRnd
  simp only [kept_seOp, kept_seReg, implies_true]
theorem kept_opVec2 (x0 : Nat) (x1 : SeFields) (x2 : Int → Int → Int) (s : State) : kept (opVec2 x0 x1 x2 s) = kept s := by
  unfold opVec2
  simp only [kept_seOp, kept_seReg, implies_true]
theorem kept_opAdd (x0 : Nat) (x1 : SeFields) (s : State) : kept (opAdd x0 x1 s) = kept s := by
  unfold opAdd
  simp only [kept_opVec2]
theorem kept_opSub (x0 : Nat) (x1 : SeFields) (s : State) : kept (opSub x0 x1 s) = kept s := by
  unfold opSub
  simp only [kept_opVec2]
theorem kept_opAbs (x0 : Nat) (x1 : SeFields) (s : State) : kept (opAbs x0 x1 s) = kept s := by
  unfold opAbs
  simp only [kept_seOp, kept_seReg, implies_true]
theorem kept_opMnx (x0 : Nat) (x1 : SeFields) (s : State) : kept (opMnx x0 x1 s) = kept s := by
  unfold opMnx
  simp only [kept_opVec2]
theorem kept_opShf (x0 : Nat) (x1 : SeFields) (s : State) : kept (opShf x0 x1 s) = kept s := by
  unfold opShf
  simp only [kept_seOp, kept_seReg, implies_true]
theorem kept_opCmp (x0 : Nat) (x1 : SeFields) (s : State) : kept (opCmp x0 x1 s) = kept s := by
  unfold opCmp
  simp only [ite_self, kept_seOp, kept_seReg, implies_true, kept_ite_fst]
theorem kept_opSel (x0 : Nat) (x1 : SeFields) (s : State) : kept (opSel x0 x1 s) = kept s := by
  unfold opSel
  simp only [kept_seOp, kept_seReg, implies_true]
theorem kept_opBq (x0 : Nat) (x1 : SeFields) (s : State) : kept (opBq x0 x1 s) = kept s := by
  unfold opBq
  simp only [ite_self, kept_readHits, kept_seOp, kept_seRead, implies_true, kept_ite_fst]
theorem kept_opSqrt (x0 : Nat) (x1 : SeFields) (s : State) : kept (opSqrt x0 x1 s) = kept s := by
  unfold opSqrt
  simp only [kept_seOp, kept_seReg, implies_true]
theorem kept_opLoop (x0 : Nat) (x1 : SeFields) (s : State) : kept (opLoop x0 x1 s) = kept s := by
  unfold opLoop
  simp only [ite_self, kept_seOp, kept_seReg, implies_true, kept_ite_fst]
theorem kept_opBr (x0 : Nat) (x1 : SeFields) (s : State) : kept (opBr x0 x1 s) = kept s := by
  unfold opBr
  simp only [ite_self, kept_seOp, implies_true, kept_ite_fst]
theorem kept_opRaise (x0 : Nat) (x1 : SeFields) (s : State) : kept (opRaise x0 x1 s) = kept s := by
  unfold opRaise
  simp only [ite_self, kept_raiseFault, kept_seOp, implies_true, kept_ite_fst]
theorem kept_opOut (x0 : Nat) (x1 : SeFields) (s : State) : kept (opOut x0 x1 s) = kept s := by
  unfold opOut
  simp only [ite_self, kept_seOp, kept_seReg, implies_true, kept_ite_fst]
theorem kept_deliverChan (x0 : Nat) (x1 : Nat) (x2 : Nat) (x3 : Staged) (s : State) : kept (deliverChan x0 x1 x2 x3 s) = kept s := by
  unfold deliverChan
  simp only [kept_ite, ite_self, kept_modTk]
theorem kept_deliverExt (x0 : Nat) (x1 : Nat) (x2 : Nat) (x3 : Staged) (s : State) : kept (deliverExt x0 x1 x2 x3 s) = kept s := by
  unfold deliverExt
  simp only [kept_ite, ite_self, kept_modTk]
theorem kept_auxPrepCheck (x0 : Nat) (s : State) : kept (auxPrepCheck x0 s) = kept s := by
  unfold auxPrepCheck
  simp only [kept_ite, ite_self, kept_modUnit]
theorem kept_deliverAux (x0 : Nat) (x1 : FifoEnt) (x2 : Staged) (s : State) : kept (deliverAux x0 x1 x2 s) = kept s := by
  unfold deliverAux
  simp only [kept_modAx, kept_auxPrepCheck]
theorem kept_deliverDet (x0 : Nat) (x1 : FifoEnt) (x2 : Staged) (s : State) : kept (deliverDet x0 x1 x2 s) = kept s := (rfl)
theorem kept_deliver (x0 : Nat) (x1 : Staged) (s : State) : kept (deliver x0 x1 s) = kept s := by
  unfold deliver
  (repeat' split) <;> simp only [kept_doFor, kept_deliverChan, kept_deliverExt, kept_deliverAux, kept_deliverDet, implies_true]
theorem kept_opYield (x0 : Nat) (x1 : SeFields) (s : State) : kept (opYield x0 x1 s) = kept s := by
  unfold opYield
  simp only [kept_doFor, kept_modSe, kept_seOp, kept_deliver, implies_true]
theorem kept_opIllegal (x0 : Nat) (s : State) : kept (opIllegal x0 s) = kept s := by
  unfold opIllegal
  simp only [kept_seOp, implies_true]
theorem kept_withHit (x0 : Nat) (x1 : SeMem) (x2 : Nat) (x3 : MemErr) (x4 : State → State) (h : ∀ s, kept (x4 s) = kept s) (s : State) :
    kept (withHit x0 x1 x2 x3 x4 s) = kept s := by
  unfold withHit
  split <;> simp only [kept_modSe, h]
theorem kept_seInstr (x0 : Nat) (x1 : Nat) (x2 : SeFields) (s : State) : kept (seInstr x0 x1 x2 s) = kept s := by
  unfold seInstr
  split <;> simp only [kept_opNop, kept_opMovi, kept_opSadd, kept_opLds, kept_opSts, kept_opLdv, kept_opStv, kept_opLdc, kept_opCap,
      kept_opCtx, kept_opMac, kept_opMacm, kept_opHsum, kept_opRnd, kept_opAdd, kept_opSub, kept_opAbs, kept_opMnx, kept_opShf, kept_opCmp,
          kept_opSel, kept_opBq, kept_opSqrt, kept_opLoop, kept_opBr, kept_opRaise, kept_opOut, kept_opYield, kept_opIllegal]
theorem kept_seFetch (x0 : Nat) (s : State) : kept (seFetch x0 s) = kept s := by
  unfold seFetch
  simp only [kept_ite, ite_self, kept_seException, kept_readHits, kept_seInstr]
theorem kept_runSlot (x0 : Nat) : ∀ (n : Nat) (s : State), kept (runSlot x0 n s) = kept s
  | 0, _ => rfl
  | n + 1, s => by
    unfold runSlot
    split
    · rfl
    · exact (kept_runSlot x0 n _).trans (kept_seFetch x0 s)
theorem kept_startSlot (x0 : Nat) (x1 : Nat) (x2 : Nat) (x3 : Nat) (x4 : Nat) (x5 : Word) (x6 : Word) (x7 : Nat) (x8 : FaultMsg)
    (x9 : Option (Nat × Nat)) (s : State) : kept (startSlot x0 x1 x2 x3 x4 x5 x6 x7 x8 x9 s) = kept s := (rfl)
theorem kept_laneSlot (x0 : Nat) (x1 : Nat) (x2 : Nat) (s : State) : kept (laneSlot x0 x1 x2 s) = kept s := by
  unfold laneSlot
  simp only [kept_ite, ite_self, kept_doFor, kept_modSe, kept_modTk, kept_ledDrop, kept_raiseFault, kept_countBoundary, kept_runSlot,
      kept_startSlot, implies_true, kept_ite_snd]
theorem kept_auxSlotRun (x0 : Nat) (x1 : Nat) (s : State) : kept (auxSlotRun x0 x1 s) = kept s := by
  unfold auxSlotRun
  split <;> simp only [kept_modSe, kept_runSlot, kept_startSlot]
theorem kept_sePass (x0 : Nat) (x1 : Nat) (x2 : List EccHit) (s : State) : kept (sePass x0 x1 x2 s) = kept s := by
  unfold sePass
  simp only [kept_ite, ite_self, kept_doFor, kept_modUnit, kept_modSe, kept_settleSwaps, kept_laneSlot, kept_auxSlotRun, implies_true]
theorem kept_noteSwapRequest (x0 : Nat) (x1 : Word) (s : State) : kept (noteSwapRequest x0 x1 s) = kept s := (rfl)
theorem kept_stepTo (x0 : Nat) (x1 : Nat) (s : State) : kept (stepTo x0 x1 s) = kept s := by
  unfold stepTo
  simp only [kept_ite, ite_self, kept_modAx, kept_raiseFault]
theorem kept_rangeNow (x0 : Nat) (s : State) : kept (rangeNow x0 s) = kept s := by
  unfold rangeNow
  simp only [kept_modAx, kept_stepTo]
theorem kept_auxSlotStart (x0 : Nat) (x1 : Nat) (x2 : Nat) (s : State) : kept (auxSlotStart x0 x1 x2 s) = kept s := by
  unfold auxSlotStart
  simp only []
  (repeat' split) <;> simp only [kept_modAxs, kept_rangeNow]
theorem kept_fifoPush (x0 : Nat) (x1 : FifoEnt) (s : State) : kept (fifoPush x0 x1 s) = kept s := by
  unfold fifoPush
  simp only [kept_ite, ite_self, kept_modSe, kept_ledProduce, kept_ledDrop, kept_raiseFault]
theorem kept_auxFaults (x0 : Nat) (x1 : Int) (x2 : Bool) (x3 : Nat) (s : State) : kept (auxFaults x0 x1 x2 x3 s) = kept s := by
  unfold auxFaults
  simp only [kept_modAx, kept_setCond]
theorem kept_autoDecide (x0 : Nat) (x1 : Int) (s : State) : kept (autoDecide x0 x1 s) = kept s := (rfl)
theorem kept_mainDone (x0 : Nat) (x1 : Nat) (x2 : Nat) (x3 : Int) (x4 : Nat) (x5 : Option (Nat × Nat)) (s : State) :
    kept (mainDone x0 x1 x2 x3 x4 x5 s) = kept s := by
  unfold mainDone
  simp only [kept_ite, ite_self, kept_modAx, kept_fifoPush, kept_auxFaults, kept_autoDecide]
theorem kept_serviceChecks (x0 : Nat) (s : State) : kept (serviceChecks x0 s) = kept s := by
  unfold serviceChecks
  simp only [kept_modAx, kept_setCond, kept_auxPrepCheck]
theorem kept_calDone (x0 : Nat) (x1 : Int) (s : State) : kept (calDone x0 x1 s) = kept s := by
  unfold calDone
  simp only [kept_modAx, kept_serviceChecks]
theorem kept_leadDone (x0 : Nat) (x1 : Int) (s : State) : kept (leadDone x0 x1 s) = kept s := by
  unfold leadDone
  simp only [kept_modAx, kept_serviceChecks]
theorem kept_auxComplete (x0 : Nat) (x1 : Int) (x2 : Nat) (s : State) : kept (auxComplete x0 x1 x2 s) = kept s := by
  unfold auxComplete
  (repeat' split) <;> simp only [kept_ite, ite_self, kept_modAxs, kept_countBoundary, kept_mainDone, kept_calDone, kept_leadDone]
theorem kept_auxPrepare (x0 : Nat) (s : State) : kept (auxPrepare x0 s) = kept s := (rfl)
theorem kept_auxStop (x0 : Nat) (s : State) : kept (auxStop x0 s) = kept s := (rfl)
theorem kept_auxLeave (x0 : Nat) (s : State) : kept (auxLeave x0 s) = kept s := (rfl)
theorem kept_auxCtrlApplied (x0 : Nat) (x1 : Word) (s : State) : kept (auxCtrlApplied x0 x1 s) = kept s := by
  unfold auxCtrlApplied
  simp only [kept_ite, ite_self, kept_modAx]
theorem kept_auxRecord (x0 : Nat) (x1 : Int) (s : State) : kept (auxRecord x0 x1 s) = kept s := (rfl)
theorem kept_coarseSample (x0 : Nat) (x1 : Demod) (x2 : Nat) (x3 : Rat) (s : State) : kept (coarseSample x0 x1 x2 x3 s) = kept s := (rfl)
theorem kept_acquire (x0 : Nat) (x1 : Demod) (x2 : Nat) (x3 : Rat) (x4 : Rat) (s : State) :
    kept (acquire x0 x1 x2 x3 x4 s) = kept s := (rfl)
theorem kept_acceptSample (x0 : Nat) (x1 : Demod) (x2 : Obs) (x3 : Rat) (x4 : Rat) (x5 : Rat) (s : State) :
    kept (acceptSample x0 x1 x2 x3 x4 x5 s) = kept s := by
  unfold acceptSample
  simp only [kept_ite, ite_self, kept_modTk, kept_clearCond]
theorem kept_speedWatch (x0 : Nat) (s : State) : kept (speedWatch x0 s) = kept s := by
  unfold speedWatch
  split <;> simp only [kept_modTk, kept_setCond]
theorem kept_rejectSample (x0 : Nat) (x1 : Nat) (s : State) : kept (rejectSample x0 x1 s) = kept s := by
  unfold rejectSample
  simp only [kept_ite, ite_self, kept_modTk, kept_setCond]
theorem kept_dropSegment (x0 : Nat) (s : State) : kept (dropSegment x0 s) = kept s := (rfl)
theorem kept_sigmapSync (x0 : Nat) (s : State) : kept (sigmapSync x0 s) = kept s := by
  unfold sigmapSync
  split <;> simp only [kept_doFor, kept_setBytes, kept_openTile, kept_sealTile, implies_true]
theorem kept_learnDone (x0 : Nat) (x1 : Segment) (s : State) : kept (learnDone x0 x1 s) = kept s := by
  unfold learnDone
  simp only []
  (repeat' split) <;> simp only [kept_mk, kept_fold, kept_modTk, kept_dropSegment, kept_sigmapSync]
theorem kept_learnSample (x0 : Nat) (x1 : Demod) (x2 : Nat) (s : State) : kept (learnSample x0 x1 x2 s) = kept s := by
  unfold learnSample
  simp only []
  (repeat' split) <;> simp only [kept_modTk, kept_dropSegment, kept_learnDone]
theorem kept_fineSample (x0 : Nat) (x1 : Demod) (s : State) : kept (fineSample x0 x1 s) = kept s := by
  unfold fineSample
  simp only []
  (repeat' split) <;> simp only [kept_modTk, kept_raiseFault, kept_acquire, kept_acceptSample, kept_speedWatch, kept_rejectSample,
      kept_learnSample]
theorem kept_trackerSample (x0 : Nat) (s : State) : kept (trackerSample x0 s) = kept s := by
  unfold trackerSample
  split <;> simp only [kept_ite, ite_self, kept_modTk, kept_coarseSample, kept_fineSample]
theorem kept_coastBoundary (x0 : Nat) (s : State) : kept (coastBoundary x0 s) = kept s := (rfl)
theorem kept_coastLimit (x0 : Nat) (s : State) : kept (coastLimit x0 s) = kept s := by
  unfold coastLimit
  simp only [kept_ite, ite_self, kept_modTk, kept_raiseFault]
theorem kept_trackerPrepare (x0 : Nat) (s : State) : kept (trackerPrepare x0 s) = kept s := by
  unfold trackerPrepare
  simp only [kept_ite, ite_self, kept_modSe, kept_modTk, kept_raiseFault, kept_clearCond, kept_sigmapSync]
theorem kept_trackerStop (x0 : Nat) (x1 : Bool) (s : State) : kept (trackerStop x0 x1 s) = kept s := by
  unfold trackerStop
  simp only [kept_modTk, kept_clearCond]
theorem kept_mapRefuse (x0 : Nat) (x1 : Nat) (x2 : Nat) (s : State) : kept (mapRefuse x0 x1 x2 s) = kept s := by
  unfold mapRefuse
  simp only [kept_modTk, kept_raiseFault]
theorem kept_mapAdopt (x0 : Nat) (x1 : Nat) (s : State) : kept (mapAdopt x0 x1 s) = kept s := by
  unfold mapAdopt
  simp only []
  (repeat' split) <;> simp only [kept_mk, kept_fold, kept_modTk, kept_mapRefuse]
theorem kept_mapDiscard (x0 : Nat) (x1 : Nat) (s : State) : kept (mapDiscard x0 x1 s) = kept s := by
  unfold mapDiscard
  simp only [kept_ite, ite_self, kept_modTk, kept_mapRefuse]
theorem kept_mapErase (x0 : Nat) (x1 : Nat) (s : State) : kept (mapErase x0 x1 s) = kept s := by
  unfold mapErase
  simp only [kept_mk, kept_fold, kept_ite, ite_self, kept_modTk, kept_mapRefuse]
theorem kept_mapCommand (x0 : Nat) (x1 : Nat) (x2 : Nat) (s : State) : kept (mapCommand x0 x1 x2 s) = kept s := by
  unfold mapCommand
  simp only [kept_ite, ite_self, kept_setInF, kept_setShadow, kept_sigmapSync, kept_mapAdopt, kept_mapDiscard, kept_mapErase]
theorem kept_fineRecord (x0 : Nat) (x1 : Obs) (x2 : Int) (x3 : ChRec) (s : State) : kept (fineRecord x0 x1 x2 x3 s).2 = kept s := by
  unfold fineRecord
  simp only [kept_ite, ite_self, kept_modUnit, kept_modTk]
theorem kept_satWatch (x0 : Nat) (x1 : ChRec) (x2 : ChRec) (s : State) : kept (satWatch x0 x1 x2 s) = kept s := by
  unfold satWatch
  simp only [kept_ite, ite_self, kept_setCond]
theorem kept_showRecord (x0 : Nat) (s : State) : kept (showRecord x0 s) = kept s := by
  unfold showRecord
  simp only [kept_ite, ite_self, kept_modTk, kept_dropSegment]
theorem kept_trackerRecord (x0 : Nat) (x1 : Int) (s : State) : kept (trackerRecord x0 x1 s) = kept s := by
  unfold trackerRecord
  simp only []
  (repeat' split) <;> simp only [kept_modTk, kept_fineRecord, kept_satWatch, kept_showRecord]
theorem kept_markCond (x0 : Nat) (x1 : Nat) (x2 : Nat) (x3 : Bool) (s : State) : kept (markCond x0 x1 x2 x3 s) = kept s := (rfl)
theorem kept_glWatch (x0 : Nat) (x1 : Rat) (x2 : Option Rat) (s : State) : kept (glWatch x0 x1 x2 s) = kept s := by
  unfold glWatch
  simp only [kept_ite, ite_self, kept_modGl, kept_setCond, kept_markCond]
theorem kept_glFrame (x0 : Nat) (s : State) : kept (glFrame x0 s) = kept s := by
  unfold glFrame
  split <;> simp only [kept_ite, ite_self, kept_modTk, kept_modGl, kept_glWatch]
theorem kept_absFrame (x0 : Nat) (s : State) : kept (absFrame x0 s) = kept s := by
  unfold absFrame
  (repeat' split) <;> simp only [kept_ite, ite_self, kept_modUnit, kept_modGl, kept_raiseFault]
theorem kept_glReady (x0 : Nat) (s : State) : kept (glReady x0 s) = kept s := by
  unfold glReady
  split <;> simp only [kept_modTk]
theorem kept_glPrepare (x0 : Nat) (s : State) : kept (glPrepare x0 s) = kept s := (rfl)
theorem kept_glStop (x0 : Nat) (x1 : Bool) (s : State) : kept (glStop x0 x1 s) = kept s := by
  unfold glStop
  simp only [kept_ite, ite_self, kept_modGl, kept_clearConds]
theorem kept_glBoundary (x0 : Nat) (s : State) : kept (glBoundary x0 s) = kept s := by
  unfold glBoundary
  simp only []
  (repeat' split) <;> simp only [kept_doFor, kept_modGl, kept_raiseFault, implies_true]
theorem kept_glTrackerEvent (x0 : Nat) (x1 : Bool) (s : State) : kept (glTrackerEvent x0 x1 s) = kept s := by
  unfold glTrackerEvent
  simp only [kept_doFor, kept_modGl, implies_true]
theorem kept_mapApply (x0 : Nat) (x1 : Nat) (x2 : Nat) (s : State) : kept (mapApply x0 x1 x2 s) = kept s := by
  unfold mapApply
  simp only [kept_ite, ite_self, kept_mapCommand, kept_glTrackerEvent]
theorem kept_xcalDone (x0 : Nat) (x1 : Nat) (s : State) : kept (xcalDone x0 x1 s) = kept s := by
  unfold xcalDone
  simp only [kept_modTk, kept_modGl, kept_sigmapSync]
theorem kept_xcalCheck (x0 : Nat) (s : State) : kept (xcalCheck x0 s) = kept s := by
  unfold xcalCheck
  split <;> simp only [kept_ite, ite_self, kept_xcalDone]
theorem kept_xcalSample (x0 : Nat) (x1 : Nat) (x2 : Nat) (x3 : Demod) (s : State) : kept (xcalSample x0 x1 x2 x3 s) = kept s := by
  unfold xcalSample
  simp only []
  (repeat' split) <;> simp only [kept_modGl, kept_xcalDone]
theorem kept_trackerStep (x0 : Nat) (s : State) : kept (trackerStep x0 s) = kept s := by
  unfold trackerStep
  split
  · rfl
  · extract_lets s1 acc
    have h1 : kept s1 = kept s := kept_trackerSample x0 s
    split
    · refine (kept_doFor _ _ (fun l s => ?_) s1).trans h1
      (repeat' split) <;> first | rfl | exact kept_xcalSample _ _ _ _ s
    · exact h1
theorem kept_reachFrame (x0 : Nat) (s : State) : kept (reachFrame x0 s) = kept s := (rfl)
theorem kept_jointsFrame (s : State) : kept (jointsFrame s) = kept s := by
  unfold jointsFrame
  simp only [kept_doFor, kept_glFrame, kept_absFrame, kept_reachFrame, implies_true]
theorem kept_countStep (x0 : Nat) (x1 : Nat) (x2 : Int) (s : State) : kept (countStep x0 x1 x2 s) = kept s := by
  unfold countStep
  simp only [kept_ite, ite_self, kept_modIp, kept_ledProduce]
theorem kept_portCount (x0 : Nat) (x1 : Nat) (x2 : Option Bool) (x3 : Option Bool) (s : State) :
    kept (portCount x0 x1 x2 x3 s) = kept s := by
  unfold portCount
  simp only [kept_ite, ite_self, kept_modIp, kept_raiseFault, kept_countStep]
theorem kept_idxCapture (x0 : Nat) (x1 : Nat) (s : State) : kept (idxCapture x0 x1 s) = kept s := by
  unfold idxCapture
  simp only []
  (repeat' split) <;> simp only [kept_modIp, kept_raiseFault, kept_clearCond, kept_markCond]
theorem kept_idxWatch (x0 : Nat) (s : State) : kept (idxWatch x0 s) = kept s := by
  unfold idxWatch
  simp only []
  (repeat' split) <;> simp only [kept_modIp, kept_raiseFault, kept_markCond]
theorem kept_portTransition (x0 : Nat) (x1 : Nat) (x2 : Option Bool) (x3 : Option Bool) (x4 : Option Bool) (s : State) :
    kept (portTransition x0 x1 x2 x3 x4 s) = kept s := by
  unfold portTransition
  simp only [kept_ite, ite_self, kept_modIp, kept_portCount, kept_idxCapture, kept_idxWatch]
theorem kept_portPrepare (x0 : Nat) (s : State) : kept (portPrepare x0 s) = kept s := by
  unfold portPrepare
  simp only [kept_modUnit, kept_modIp, kept_ledDrop, kept_clearConds]
theorem kept_portDormant (x0 : Nat) (s : State) : kept (portDormant x0 s) = kept s := by
  unfold portDormant
  simp only [kept_modIp, kept_ledDrop, kept_clearConds]
theorem kept_portInvert (x0 : Nat) (x1 : Word) (x2 : Word) (s : State) : kept (portInvert x0 x1 x2 s) = kept s := (rfl)
theorem kept_portRecord (x0 : Nat) (x1 : Nat) (x2 : Int) (s : State) : kept (portRecord x0 x1 x2 s) = kept s := (rfl)
theorem kept_switchRaw (x0 : Nat) (x1 : Bool) (s : State) : kept (switchRaw x0 x1 s) = kept s := (rfl)
theorem kept_switchChange (x0 : Nat) (x1 : Bool) (s : State) : kept (switchChange x0 x1 s) = kept s := (rfl)
theorem kept_chatEnd (x0 : Nat) (s : State) : kept (chatEnd x0 s) = kept s := by
  unfold chatEnd
  simp only [kept_ite, ite_self, kept_modSw, kept_raiseFault]
theorem kept_switchLatch (x0 : Nat) (s : State) : kept (switchLatch x0 s) = kept s := (rfl)
theorem kept_switchPrep (x0 : Nat) (x1 : Int) (s : State) : kept (switchPrep x0 x1 s) = kept s := by
  unfold switchPrep
  simp only [kept_ite, ite_self, kept_modUnit]
theorem kept_emAdmit (x0 : Nat) (x1 : Int) (s : State) : kept (emAdmit x0 x1 s) = kept s := by
  unfold emAdmit
  simp only [kept_modEm, kept_ledProduce, kept_setCond]
theorem kept_emFrame (x0 : Nat) (x1 : Nat) (x2 : Nat) (s : State) : kept (emFrame x0 x1 x2 s) = kept s := by
  unfold emFrame
  simp only []
  (repeat' split) <;> simp only [kept_modUnit, kept_modEm, kept_setCond, kept_emAdmit]
theorem kept_emEdge (x0 : Nat) (x1 : Nat) (s : State) : kept (emEdge x0 x1 s) = kept s := by
  unfold emEdge
  simp only []
  (repeat' split) <;> simp only [kept_emit, kept_modEm, kept_ledConsume]
theorem kept_emEmpty (x0 : Nat) (s : State) : kept (emEmpty x0 s) = kept s := by
  unfold emEmpty
  simp only [kept_modEm, kept_ledDrop]
theorem kept_emPrepare (x0 : Nat) (s : State) : kept (emPrepare x0 s) = kept s := by
  unfold emPrepare
  simp only [kept_modEm, kept_clearConds, kept_emEmpty]
theorem kept_withdraw (x0 : Nat) (s : State) : kept (withdraw x0 s) = kept s := by
  unfold withdraw
  split <;> simp only [kept_doFor, kept_modCmp, kept_modTg, implies_true]
theorem kept_cmpWritten (x0 : Nat) (x1 : Bool) (s : State) : kept (cmpWritten x0 x1 s) = kept s := by
  unfold cmpWritten
  simp only [kept_ite, ite_self, kept_modCmp, kept_withdraw]
theorem kept_cmpSourceLeft (x0 : Nat) (s : State) : kept (cmpSourceLeft x0 s) = kept s := by
  unfold cmpSourceLeft
  simp only [kept_withdraw]
theorem kept_placeFiring (x0 : Nat) (x1 : Nat) (x2 : Nat) (x3 : Nat) (x4 : Option Nat) (x5 : Bool) (x6 : Nat) (s : State) :
    kept (placeFiring x0 x1 x2 x3 x4 x5 x6 s) = kept s := by
  unfold placeFiring
  simp only [kept_doFor, kept_modCmp, kept_modTg, implies_true]
theorem kept_cmpRearm (x0 : Nat) (x1 : Nat) (x2 : ChRec) (s : State) : kept (cmpRearm x0 x1 x2 s) = kept s := by
  unfold cmpRearm
  simp only [kept_ite, ite_self, kept_modCmp]
theorem kept_cmpBehind (x0 : Nat) (x1 : Nat) (x2 : Nat) (x3 : ChRec) (s : State) : kept (cmpBehind x0 x1 x2 x3 s) = kept s := by
  unfold cmpBehind
  simp only [kept_ite, ite_self, kept_modCmp, kept_raiseFault, kept_placeFiring]
theorem kept_cmpPlace (x0 : Nat) (x1 : Nat) (x2 : Nat) (x3 : ChRec) (x4 : Int) (s : State) : kept (cmpPlace x0 x1 x2 x3 x4 s) = kept s := by
  unfold cmpPlace
  (repeat' split) <;> simp only [kept_ite, ite_self, kept_placeFiring]
theorem kept_cmpSchedule (x0 : Nat) (x1 : Nat) (s : State) : kept (cmpSchedule x0 x1 s) = kept s := by
  unfold cmpSchedule
  split <;> simp only [kept_ite, ite_self, kept_modCmp, kept_withdraw, kept_cmpRearm, kept_cmpBehind, kept_cmpPlace]
theorem kept_cmpFire (x0 : Nat) (s : State) : kept (cmpFire x0 s) = kept s := by
  unfold cmpFire
  split <;> simp only [kept_ite, ite_self, kept_modCmp, kept_raiseFault, kept_addEvent]
theorem kept_pulseStart (x0 : Nat) (s : State) : kept (pulseStart x0 s) = kept s := by
  unfold pulseStart
  split <;> simp only [kept_ite, ite_self, kept_emit, kept_modTg, kept_raiseFault]
theorem kept_pulseEnd (x0 : Nat) (s : State) : kept (pulseEnd x0 s) = kept s := by
  unfold pulseEnd
  simp only [kept_ite, ite_self, kept_emit, kept_modTg]
theorem kept_frameMeasure (s : State) : kept (frameMeasure s) = kept s := by
  unfold frameMeasure
  simp only [kept_doFor, kept_modIp, kept_governor, kept_auxRecord, kept_trackerRecord, kept_jointsFrame, kept_portRecord, implies_true]
theorem kept_raisePg (x0 : Nat) (x1 : Nat) (x2 : Nat) (s : State) : kept (raisePg x0 x1 x2 s) = kept s := by
  unfold raisePg
  simp only [kept_raiseFault]
theorem kept_planMotion (x0 : Nat) (x1 : State → PgSt → PgSt) (s : State) : kept (planMotion x0 x1 s) = kept s := by
  unfold planMotion
  simp only [kept_ite, ite_self, kept_modPg, kept_raisePg]
theorem kept_rampDown (x0 : Nat) (x1 : Rat) (x2 : Rat) (x3 : PgTask) (x4 : Nat) (s : State) :
    kept (rampDown x0 x1 x2 x3 x4 s) = kept s := by
  unfold rampDown
  simp only [kept_ite, ite_self, kept_modPg, kept_raisePg]
theorem kept_startStop (x0 : Nat) (s : State) : kept (startStop x0 s) = kept s := by
  unfold startStop
  simp only [kept_rampDown]
theorem kept_startQuick (x0 : Nat) (s : State) : kept (startQuick x0 s) = kept s := by
  unfold startQuick
  simp only [kept_ite, ite_self, kept_rampDown]
theorem kept_startLimitStop (x0 : Nat) (s : State) : kept (startLimitStop x0 s) = kept s := by
  unfold startLimitStop
  simp only [kept_rampDown]
theorem kept_homeTravel (x0 : Nat) (s : State) : kept (homeTravel x0 s) = kept s := by
  unfold homeTravel
  simp only [kept_planMotion]
theorem kept_homeDone (x0 : Nat) (x1 : Rat) (s : State) : kept (homeDone x0 x1 s) = kept s := (rfl)
theorem kept_pathOpen (x0 : Nat) (s : State) : kept (pathOpen x0 s).2 = kept s := by
  unfold pathOpen
  simp only [kept_checkTile]
theorem kept_pathFail (x0 : Nat) (x1 : Nat) (x2 : Nat) (s : State) : kept (pathFail x0 x1 x2 s) = kept s := by
  unfold pathFail
  simp only [kept_modUnit, kept_raisePg, kept_startQuick]
theorem kept_pathStart (x0 : Nat) (s : State) : kept (pathStart x0 s) = kept s := by
  unfold pathStart
  split <;> simp only [kept_ite, ite_self, kept_modPg, kept_planMotion, kept_pathOpen, kept_pathFail, kept_ite_snd]
theorem kept_pgStart (x0 : Nat) (s : State) : kept (pgStart x0 s) = kept s := by
  unfold pgStart
  simp only []
  (repeat' split) <;> simp only [kept_modPg, kept_planMotion, kept_homeTravel, kept_homeDone, kept_pathStart]
theorem kept_pgHold (x0 : Nat) (s : State) : kept (pgHold x0 s) = kept s := by
  unfold pgHold
  simp only [kept_rampDown]
theorem kept_pgResume (x0 : Nat) (s : State) : kept (pgResume x0 s) = kept s := by
  unfold pgResume
  (repeat' split) <;> simp only [kept_ite, ite_self, kept_modPg, kept_planMotion, kept_homeTravel]
theorem kept_pgStop (x0 : Nat) (s : State) : kept (pgStop x0 s) = kept s := by
  unfold pgStop
  simp only [kept_modPg, kept_startStop]
theorem kept_pgQuick (x0 : Nat) (s : State) : kept (pgQuick x0 s) = kept s := by
  unfold pgQuick
  simp only [kept_modPg, kept_startQuick]
theorem kept_pgFault (x0 : Nat) (s : State) : kept (pgFault x0 s) = kept s := by
  unfold pgFault
  simp only [kept_startQuick]
theorem kept_setKeep (x0 : Nat) (x1 : KeepEnt) (s : State) : kept (setKeep x0 x1 s) = kept s := (rfl)
theorem kept_pgPrepare (x0 : Nat) (s : State) : kept (pgPrepare x0 s) = kept s := by
  unfold pgPrepare
  simp only []
  (repeat' split) <;> simp only [kept_modUnit, kept_modPg, kept_raisePg]
theorem kept_pgDormant (x0 : Nat) (s : State) : kept (pgDormant x0 s) = kept s := (rfl)
theorem kept_pgBoundary (x0 : Nat) (s : State) : kept (pgBoundary x0 s) = kept s := by
  unfold pgBoundary
  split <;> simp only [kept_modPg]
theorem kept_motApplied (x0 : Nat) (x1 : Bool) (x2 : Bool) (x3 : Bool) (x4 : Bool) (s : State) :
    kept (motApplied x0 x1 x2 x3 x4 s) = kept s := by
  unfold motApplied
  simp only [kept_ite, ite_self, kept_modPg, kept_planMotion]
theorem kept_tripStop (x0 : Nat) (s : State) : kept (tripStop x0 s) = kept s := by
  unfold tripStop
  simp only [kept_modUnit, kept_modPg, kept_startQuick]
theorem kept_pgTrip (x0 : Nat) (x1 : Nat) (x2 : Nat) (s : State) : kept (pgTrip x0 x1 x2 s) = kept s := by
  unfold pgTrip
  simp only [kept_raisePg, kept_tripStop]
theorem kept_pgGuard (x0 : Nat) (x1 : PgSt) (s : State) : kept (pgGuard x0 x1 s) = kept s := by
  unfold pgGuard
  split <;> simp only [kept_ite, ite_self, kept_modPg, kept_pgTrip]
theorem kept_pgHardLimit (x0 : Nat) (x1 : PgSt) (s : State) : kept (pgHardLimit x0 x1 s) = kept s := by
  unfold pgHardLimit
  simp only [kept_ite, ite_self, kept_modPg, kept_pgTrip]
theorem kept_pgDriver (x0 : Nat) (x1 : PgSt) (s : State) : kept (pgDriver x0 x1 s) = kept s := by
  unfold pgDriver
  simp only [kept_ite, ite_self, kept_modPg, kept_setCond, kept_clearCond, kept_tripStop]
theorem kept_pgUnpowered (x0 : Nat) (x1 : PgSt) (s : State) : kept (pgUnpowered x0 x1 s) = kept s := by
  unfold pgUnpowered
  simp only [kept_ite, ite_self, kept_modPg]
theorem kept_homeAbort (x0 : Nat) (x1 : Nat) (s : State) : kept (homeAbort x0 x1 s) = kept s := by
  unfold homeAbort
  simp only [kept_modPg, kept_pgTrip]
theorem kept_homeHalt (x0 : Nat) (s : State) : kept (homeHalt x0 s) = kept s := (rfl)
theorem kept_homeEnter (x0 : Nat) (x1 : Nat) (s : State) : kept (homeEnter x0 x1 s) = kept s := by
  unfold homeEnter
  simp only [kept_modPg, kept_homeTravel]
theorem kept_pgHoming (x0 : Nat) (x1 : PgSt) (s : State) : kept (pgHoming x0 x1 s) = kept s := by
  unfold pgHoming
  (repeat' split) <;> simp only [kept_ite, ite_self, kept_modPg, kept_rampDown, kept_homeTravel, kept_homeAbort, kept_homeHalt,
      kept_homeEnter]
theorem kept_limitHold (x0 : Nat) (x1 : Bool) (s : State) : kept (limitHold x0 x1 s) = kept s := by
  unfold limitHold
  simp only [kept_modPg, kept_raisePg, kept_startLimitStop]
theorem kept_pgAdvance (x0 : Nat) (s : State) : kept (pgAdvance x0 s) = kept s := (rfl)
theorem kept_rcDisarm (x0 : Nat) (s : State) : kept (rcDisarm x0 s) = kept s := (rfl)
theorem kept_gearMove (x0 : Nat) (x1 : Nat) (x2 : Int) (x3 : Int) (s : State) : kept (gearMove x0 x1 x2 x3 s).2 = kept s := by
  unfold gearMove
  simp only []
  (repeat' split) <;> simp only [kept_modPg, kept_raisePg, kept_rcDisarm]
theorem kept_pgMaster (x0 : Nat) (x1 : PgSt) (s : State) : kept (pgMaster x0 x1 s) = kept s := by
  unfold pgMaster
  simp only [kept_ite, ite_self, kept_modUnit, kept_modPg, kept_raisePg, kept_startQuick]
theorem kept_pgGear (x0 : Nat) (x1 : Nat) (s : State) : kept (pgGear x0 x1 s) = kept s := by
  unfold pgGear
  simp only []
  (repeat' split) <;> simp only [kept_modPg, kept_raisePg, kept_limitHold, kept_pgAdvance, kept_gearMove]
theorem kept_pgPath (x0 : Nat) (s : State) : kept (pgPath x0 s) = kept s := by
  unfold pgPath
  simp only []
  (repeat' split) <;> simp only [kept_modPg, kept_pathOpen, kept_pathFail, kept_limitHold, kept_pgAdvance]
theorem kept_pgChecked (x0 : Nat) (s : State) : kept (pgChecked x0 s) = kept s := by
  unfold pgChecked
  simp only []
  (repeat' split) <;> simp only [kept_limitHold, kept_pgAdvance]
theorem kept_pgMotion (x0 : Nat) (x1 : Nat) (s : State) : kept (pgMotion x0 x1 s) = kept s := by
  unfold pgMotion
  split <;> simp only [kept_ite, ite_self, kept_modPg, kept_homeDone, kept_pgAdvance, kept_pgGear, kept_pgPath, kept_pgChecked]
theorem kept_keepWrite (x0 : Nat) (s : State) : kept (keepWrite x0 s) = kept s := by
  unfold keepWrite
  simp only [kept_ite, ite_self, kept_modPg, kept_setKeep]
theorem kept_ssrApply (x0 : Nat) (s : State) : kept (ssrApply x0 s) = kept s := by
  unfold ssrApply
  simp only [kept_ite, ite_self, kept_modPg, kept_keepWrite]
theorem kept_pgScale (x0 : Nat) (s : State) : kept (pgScale x0 s) = kept s := by
  unfold pgScale
  simp only []
  (repeat' split) <;> simp only [kept_modPg, kept_setKeep, kept_ssrApply]
theorem kept_pgRecord (x0 : Nat) (x1 : Nat) (s : State) : kept (pgRecord x0 x1 s) = kept s := by
  unfold pgRecord
  simp only [kept_modPg, kept_pgScale]
theorem kept_pgAssistMark (x0 : Nat) (x1 : Nat) (s : State) : kept (pgAssistMark x0 x1 s) = kept s := (rfl)
theorem kept_pgFrame (x0 : Nat) (x1 : Nat) (s : State) : kept (pgFrame x0 x1 s) = kept s := by
  unfold pgFrame
  simp only []
  (repeat' split) <;> simp only [kept_modUnit, kept_modPg, kept_pgGuard, kept_pgHardLimit, kept_pgDriver, kept_pgUnpowered, kept_pgHoming,
      kept_pgMaster, kept_pgMotion, kept_pgRecord]
theorem kept_ledgerKind (x0 : Nat) (s : State) : kept (ledgerKind x0 s) = kept s := by
  unfold ledgerKind
  simp only [kept_ite, ite_self, kept_modLed, kept_raiseFault]
theorem kept_ledgerSnapshot (s : State) : kept (ledgerSnapshot s) = kept s := by
  unfold ledgerSnapshot
  simp only [kept_mk, kept_fold, kept_doFor, kept_ledgerKind, implies_true]
theorem kept_blockEvents (x0 : Nat) (x1 : Nat) (s : State) : kept (blockEvents x0 x1 s).2 = kept s := by
  unfold blockEvents
  simp only [kept_mk, kept_fold, kept_ite, ite_self, kept_ledProduce, kept_ledConsume, kept_ledDrop, kept_raiseFault]
theorem kept_endCopy (x0 : Nat) (x1 : Nat) (s : State) : kept (endCopy x0 x1 s) = kept s := (rfl)
theorem kept_copyDone (x0 : Nat) (x1 : Nat) (s : State) : kept (copyDone x0 x1 s) = kept s := (rfl)
theorem kept_copyDrop (x0 : Nat) (x1 : Nat) (x2 : Nat) (s : State) : kept (copyDrop x0 x1 x2 s) = kept s := by
  unfold copyDrop
  simp only [kept_mk, kept_fold, kept_ite, ite_self, kept_modDma, kept_ledDrop, kept_raiseFault, kept_endCopy]
theorem kept_openSlot (x0 : Nat) (x1 : Nat) (x2 : Nat) (s : State) : kept (openSlot x0 x1 x2 s).2 = kept s := by
  unfold openSlot
  simp only [kept_checkTile, kept_foldl_snd, implies_true]
theorem kept_dmaBegin (x0 : Nat) (x1 : Nat) (x2 : Nat) (x3 : Nat) (s : State) : kept (dmaBegin x0 x1 x2 x3 s) = kept s := by
  unfold dmaBegin
  simp only [kept_ite, ite_self, kept_copyDrop, kept_openSlot]
theorem kept_twinCopy (x0 : Nat) (x1 : Nat) (x2 : Nat) (s : State) : kept (twinCopy x0 x1 x2 s) = kept s := by
  unfold twinCopy
  simp only [kept_ite, ite_self, kept_twinSend, kept_copyDone, kept_copyDrop, kept_openSlot]
theorem kept_blackBox (x0 : Image) (x1 : Nat) (x2 : Nat) (x3 : Nat) (x4 : Nat) (s : State) : kept (blackBox x0 x1 x2 x3 x4 s) = kept s := by
  unfold blackBox
  split <;> simp only [kept_mk, kept_fold, kept_ite, ite_self, kept_doFor, kept_ledProduce, kept_ledConsume, kept_setBytes, kept_openTile,
      kept_sealTile, kept_openSlot, implies_true]
theorem kept_releaseSlot (x0 : Nat) (s : State) : kept (releaseSlot x0 s) = kept s := by
  unfold releaseSlot
  split <;> simp only [kept_mk, kept_fold, kept_doFor, kept_ledConsume, kept_copyDrop, implies_true]
theorem kept_forcedEnd (s : State) : kept (forcedEnd s) = kept s := by
  unfold forcedEnd
  simp only [kept_doFor, kept_releaseSlot, implies_true]
theorem kept_forceAll (s : State) : kept (forceAll s) = kept s := by
  unfold forceAll
  simp only [kept_doFor, kept_releaseSlot, implies_true]
theorem kept_divergence (s : State) : kept (divergence s) = kept s := by
  unfold divergence
  simp only [kept_ite, ite_self, kept_doFor, kept_raiseFault, implies_true]
theorem kept_openStage (x0 : Nat) (s : State) : kept (openStage x0 s) = kept s := by
  unfold openStage
  split <;> simp only [kept_ite, ite_self, kept_doFor, kept_openTile, kept_releaseSlot, implies_true]
theorem kept_assemble (x0 : Image) (x1 : Nat) (s : State) : kept (assemble x0 x1 s) = kept s := by
  unfold assemble
  simp only [kept_mk, kept_fold, kept_ite, ite_self, kept_doFor, kept_ledProduce, kept_setBytes, kept_openTile, kept_sealTile,
      kept_blockEvents, kept_dmaBegin, kept_twinCopy, kept_blackBox, kept_releaseSlot, implies_true]
theorem kept_recordReady (x0 : Nat) (s : State) : kept (recordReady x0 s) = kept s := by
  unfold recordReady
  simp only []
  (repeat' split) <;> simp only [kept_doFor, kept_intSource, kept_showPins, kept_emFrame, kept_blockEvents, kept_divergence, kept_assemble,
      implies_true]
theorem kept_sendFrags (x0 : StageSlot) (x1 : Nat) (x2 : Nat) (x3 : List Nat) (s : State) : kept (sendFrags x0 x1 x2 x3 s) = kept s := by
  unfold sendFrags
  simp only [kept_mk, kept_fold, kept_doFor, kept_emit, kept_modBbPort, implies_true]
theorem kept_egressWindow (x0 : Nat) (s : State) : kept (egressWindow x0 s) = kept s := by
  unfold egressWindow
  simp only [kept_mk, kept_fold, kept_ite, ite_self, kept_doFor, kept_copyDone, kept_copyDrop, kept_openSlot, kept_sendFrags, implies_true]
theorem kept_dmaComplete (x0 : Nat) (s : State) : kept (dmaComplete x0 s) = kept s := by
  unfold dmaComplete
  split <;> simp only [kept_ite, ite_self, kept_emit, kept_modDma, kept_intSource, kept_copyDone]
theorem kept_dmaHalt (x0 : Nat) (s : State) : kept (dmaHalt x0 s) = kept s := by
  unfold dmaHalt
  simp only [kept_ite, ite_self, kept_modDma, kept_raiseFault]
theorem kept_setBme (x0 : Bool) (s : State) : kept (setBme x0 s) = kept s := by
  unfold setBme
  simp only [kept_mk, kept_fold, kept_ite, ite_self, kept_doFor, kept_dmaHalt, implies_true]
theorem kept_dmaForced (s : State) : kept (dmaForced s) = kept s := by
  unfold dmaForced
  simp only [kept_doFor, kept_copyDrop, implies_true]
theorem kept_dmaCtrl (x0 : Nat) (x1 : Word) (s : State) : kept (dmaCtrl x0 x1 s) = kept s := (rfl)
theorem kept_msixDeliver (x0 : Nat) (s : State) : kept (msixDeliver x0 s) = kept s := by
  unfold msixDeliver
  simp only [kept_mk, kept_fold, kept_ite, ite_self, kept_emit]
theorem kept_scrub (s : State) : kept (scrub s) = kept s := by
  unfold scrub
  simp only []
  (repeat' split) <;> simp only [kept_mk, kept_fold, kept_checkTile]
theorem kept_setSync (x0 : Bool) (s : State) : kept (setSync x0 s) = kept s := by
  unfold setSync
  simp only [kept_mk, kept_fold, kept_ite, ite_self, kept_setCond, kept_intSource]
theorem kept_stepTime (x0 : Int) (x1 : Bool) (s : State) : kept (stepTime x0 x1 s) = kept s := by
  unfold stepTime
  simp only [kept_mk, kept_fold, kept_ite, ite_self, kept_numberFrames, kept_raiseFault, kept_setModErr]
theorem kept_setGm (x0 : BitVec 64) (s : State) : kept (setGm x0 s) = kept s := by
  unfold setGm
  simp only [kept_mk, kept_fold, kept_ite, ite_self, kept_raiseFault]
theorem kept_syncMessage (x0 : Int) (x1 : BitVec 64) (x2 : Nat) (x3 : Bool) (s : State) : kept (syncMessage x0 x1 x2 x3 s) = kept s := by
  unfold syncMessage
  simp only [kept_mk, kept_fold, kept_ite, ite_self, kept_setSync, kept_stepTime, kept_setGm]
theorem kept_syncTimeout (s : State) : kept (syncTimeout s) = kept s := by
  unfold syncTimeout
  simp only [kept_mk, kept_fold, kept_ite, ite_self, kept_setSync]
theorem kept_gmChange (x0 : BitVec 64) (x1 : Bool) (s : State) : kept (gmChange x0 x1 s) = kept s := by
  unfold gmChange
  simp only [kept_mk, kept_fold, kept_ite, ite_self, kept_setSync, kept_setGm]
theorem kept_ctInit (x0 : Word) (s : State) : kept (ctInit x0 s) = kept s := by
  unfold ctInit
  simp only [kept_mk, kept_fold, kept_ite, ite_self, kept_setRw, kept_raiseFault, kept_stepTime]
theorem kept_bbLink (x0 : Nat) (x1 : PortReport) (s : State) : kept (bbLink x0 x1 s) = kept s := by
  unfold bbLink
  simp only [kept_ite, ite_self, kept_modBbPort, kept_raiseFault, kept_intSource]
theorem kept_streamGate (x0 : Nat) (x1 : Nat) (s : State) : kept (streamGate x0 x1 s) = kept s := by
  unfold streamGate
  simp only [kept_modBbPort, kept_raiseFault]
theorem kept_queueResponse (x0 : CmdMessage) (x1 : Nat) (x2 : Nat) (x3 : List Nat) (s : State) :
    kept (queueResponse x0 x1 x2 x3 s) = kept s := (rfl)
theorem kept_refuseMsg (x0 : CmdMessage) (x1 : Nat) (s : State) : kept (refuseMsg x0 x1 s) = kept s := by
  unfold refuseMsg
  simp only [kept_ledProduce, kept_ledConsume, kept_raiseFault, kept_queueResponse]
theorem kept_recoverMsg (x0 : CmdMessage) (s : State) : kept (recoverMsg x0 s).2 = kept s := by
  unfold recoverMsg
  split <;> simp only [ite_self, kept_modStream, kept_ite_snd]
theorem kept_takeMessage (x0 : CmdMessage) (s : State) : kept (takeMessage x0 s) = kept s := by
  unfold takeMessage
  simp only [kept_mk, kept_fold, kept_ite, ite_self, kept_doFor, kept_emit, kept_modStream, kept_ledProduce, kept_ledDrop, kept_raiseFault,
      kept_refuseMsg, implies_true]
theorem kept_commandMessage (x0 : CmdMessage) (s : State) : kept (commandMessage x0 s) = kept s := by
  unfold commandMessage
  simp only [kept_ite, ite_self, kept_modBbPort, kept_recoverMsg, kept_takeMessage]
theorem kept_finishMsg (x0 : HeldMsg) (x1 : Nat) (s : State) : kept (finishMsg x0 x1 s) = kept s := by
  unfold finishMsg
  simp only [kept_queueResponse, kept_ledConsume, kept_modStream]
theorem kept_discardMsgs (x0 : Nat) (s : State) : kept (discardMsgs x0 s) = kept s := by
  unfold discardMsgs
  simp only [kept_mk, kept_fold, kept_doFor, kept_finishMsg, implies_true]
theorem kept_sendResponse (s : State) : kept (sendResponse s) = kept s := by
  unfold sendResponse
  split <;> simp only [kept_mk, kept_fold, kept_emit, kept_modBbPort]
theorem kept_trigCut (x0 : Nat) (s : State) : kept (trigCut x0 s) = kept s := by
  unfold trigCut
  simp only [kept_pulseEnd]
theorem kept_prepareTine (x0 : Nat) (s : State) : kept (prepareTine x0 s) = kept s := by
  unfold prepareTine
  split <;> simp only [kept_modUnit, kept_modSw, kept_groupPrepare, kept_enginePrepare, kept_auxPrepare, kept_trackerPrepare,
      kept_glPrepare, kept_glTrackerEvent, kept_portPrepare, kept_emPrepare, kept_pgPrepare]
theorem kept_faultTine (x0 : Nat) (s : State) : kept (faultTine x0 s) = kept s := by
  unfold faultTine
  split <;> simp only [kept_groupOff, kept_engineStop, kept_auxStop, kept_trackerStop, kept_glStop, kept_pgFault, kept_trigCut]
theorem kept_dormantTine (x0 : Nat) (s : State) : kept (dormantTine x0 s) = kept s := by
  unfold dormantTine
  split <;> simp only [kept_groupOff, kept_engineStop, kept_auxStop, kept_trackerStop, kept_glStop, kept_portDormant, kept_emPrepare,
      kept_pgDormant, kept_trigCut]
theorem kept_clearTrip (x0 : Nat) (s : State) : kept (clearTrip x0 s) = kept s := by
  unfold clearTrip
  simp only [kept_ite, ite_self, kept_groupClear]
theorem kept_putState (x0 : Nat) (x1 : UState) (s : State) : kept (putState x0 x1 s) = kept s := (rfl)
theorem kept_unitEnter (x0 : Nat) (x1 : UState) (x2 : Bool) (x3 : Nat) (s : State) : kept (unitEnter x0 x1 x2 x3 s) = kept s := by
  unfold unitEnter
  split <;> simp only [kept_ite, ite_self, kept_modUnit, kept_groupReady, kept_auxLeave, kept_glReady, kept_cmpSourceLeft, kept_pgStart,
      kept_pgHold, kept_pgResume, kept_pgStop, kept_pgQuick, kept_prepareTine, kept_faultTine, kept_dormantTine, kept_putState]
theorem kept_autoTine (x0 : Nat) (x1 : Nat) (s : State) : kept (autoTine x0 x1 s) = kept s := by
  unfold autoTine
  simp only []
  (repeat' split) <;> simp only [kept_modUnit, kept_raiseFault, kept_putState, kept_unitEnter]
theorem kept_autoBeam (x0 : Nat) (s : State) : kept (autoBeam x0 s) = kept s := by
  unfold autoBeam
  simp only [kept_ite, ite_self, kept_modUnit, kept_putState]
theorem kept_autoInfra (x0 : Nat) (s : State) : kept (autoInfra x0 s) = kept s := by
  unfold autoInfra
  simp only [kept_ite, ite_self, kept_modUnit, kept_putState]
theorem kept_prepareExpire (x0 : Nat) (s : State) : kept (prepareExpire x0 s) = kept s := by
  unfold prepareExpire
  simp only [kept_ite, ite_self, kept_modUnit, kept_raiseFault]
theorem kept_idleRequest (x0 : Nat) (x1 : List Nat) (s : State) : kept (idleRequest x0 x1 s) = kept s := (rfl)
theorem kept_resetUnit (x0 : Nat) (x1 : Nat) (s : State) : kept (resetUnit x0 x1 s) = kept s := by
  unfold resetUnit
  simp only [kept_doFor, kept_modUnit, kept_clearTrip, kept_unitEnter, kept_idleRequest, implies_true]
theorem kept_resetsDue (x0 : Nat) (s : State) : kept (resetsDue x0 s) = kept s := by
  unfold resetsDue
  simp only [kept_doFor, kept_modUnit, kept_resetUnit, implies_true]
theorem kept_tineIdle (x0 : Nat) (s : State) : kept (tineIdle x0 s) = kept s := (rfl)
theorem kept_idleTimeout (s : State) : kept (idleTimeout s) = kept s := by
  unfold idleTimeout
  split <;> simp only [kept_mk, kept_fold, kept_doFor, kept_modUnit, kept_raiseFault, implies_true]
theorem kept_raiseState (x0 : Nat) (x1 : Nat) (s : State) : kept (raiseState x0 x1 s) = kept s := by
  unfold raiseState
  simp only [kept_raiseFault]
theorem kept_applyCmd (x0 : Nat) (x1 : Nat) (x2 : Nat) (x3 : Nat) (s : State) : kept (applyCmd x0 x1 x2 x3 s) = kept s := by
  unfold applyCmd
  (repeat' split) <;> simp only [kept_modUnit, kept_clearTrip, kept_unitEnter]
theorem kept_refused (u code : Nat) (k : Option Nat) (s : State) :
    kept (raiseState u code (match k with | some p => raiseFault qXCG u 0x96 p s | none => s)) = kept s := by
  refine (kept_raiseState _ _ _).trans ?_
  cases k with
  | none => rfl
  | some k => exact kept_raiseFault _ _ _ _ s
theorem kept_runCommands (x0 : List Direct) (x1 : Nat) (s0 : State) : kept (runCommands x0 x1 s0).1 = kept s0 := by
  unfold runCommands
  extract_lets fans r1 r2 win ok res s1 s2 s3 s4 s5
  have h1 : kept s1 = kept s0 := kept_doFor _ _ (fun p s => by
    extract_lets d
    split
    · exact kept_raiseFault _ _ _ _ s
    · split
      · exact kept_refused _ _ _ s
      · rfl) s0
  have h2 : kept s2 = kept s1 := kept_doFor _ _ (fun u s => kept_doFor _ _ (fun _ s => kept_raiseFault _ _ _ _ s) s) s1
  have h3 : kept s3 = kept s2 := kept_doFor _ _ (fun u s => kept_applyCmd _ _ _ _ s) s2
  have h4 : kept s4 = kept s3 := kept_doFor _ _ (fun u s => kept_idleRequest _ _ s) s3
  have h5 : kept s5 = kept s4 := kept_doFor _ _ (fun u s => kept_modUnit _ _ s) s4
  exact h5.trans (h4.trans (h3.trans (h2.trans h1)))
theorem kept_pageResult (x0 : Nat) (x1 : Nat) (s : State) : kept (pageResult x0 x1 s) = kept s := (rfl)
theorem kept_pageCommand (x0 : Nat) (x1 : Nat) (x2 : Bool) (s : State) : kept (pageCommand x0 x1 x2 s) = kept s := by
  unfold pageCommand
  simp only [kept_ite, ite_self, kept_emit, kept_modUnit, kept_ledProduce, kept_raiseFault, kept_raiseState, kept_pageResult]
theorem kept_discardPages (s : State) : kept (discardPages s) = kept s := by
  unfold discardPages
  simp only [kept_doFor, kept_modUnit, kept_ledConsume, implies_true]
theorem kept_escStep (x0 : Nat) (x1 : Nat) (x2 : UState) (s : State) : kept (escStep x0 x1 x2 s) = kept s := by
  unfold escStep
  simp only [kept_ite, ite_self, kept_modUnit]
theorem kept_beamState (x0 : Nat) (x1 : Nat) (s : State) : kept (beamState x0 x1 s) = kept s := by
  unfold beamState
  simp only [kept_modUnit, kept_escStep]
theorem kept_beamStates (x0 : Nat) (s : State) : kept (beamStates x0 s) = kept s := by
  unfold beamStates
  simp only [kept_doFor, kept_beamState, implies_true]
theorem kept_snapKeep (q u k off : Nat) (m : Word) (r : List (Nat × Word) × State) : kept (snapKeep q u k off m r).2 = kept r.2 :=
  (kept_raiseFault _ _ _ _ _).trans (kept_setShadow _ _ r.2)
theorem kept_snapHold (off : Nat) (m : Word) (r : List (Nat × Word) × State) : kept (snapHold off m r).2 = kept r.2 :=
  kept_setShadow _ _ r.2
theorem kept_snapKeepAll (q u k : Nat) (offs : List Nat) (r : List (Nat × Word) × State) :
    kept (snapKeepAll q u k offs r).2 = kept r.2 := by
  unfold snapKeepAll
  split
  · rfl
  · exact (kept_foldl_snd _ (fun r o => kept_snapHold o _ r) _ _).trans (kept_snapKeep q u k _ _ r)
theorem kept_ite_pair {α : Type} (c : Prop) [Decidable c] (a b r : α × State) (ha : kept a.2 = kept r.2) (hb : kept b.2 = kept r.2) :
    kept (if c then a else b).2 = kept r.2 := by
  split
  · exact ha
  · exact hb
theorem kept_xgSnap (n : Nat) (r : List (Nat × Word) × State) : kept (xgSnap n r).2 = kept r.2 := by
  unfold xgSnap
  apply kept_foldl_snd
  intro r _
  exact kept_ite_pair _ _ _ r rfl (kept_xgCtrlChange _ _ _ r.2)
theorem kept_auxSnapChan (a : Nat) (r : List (Nat × Word) × State) : kept (auxSnapChan a r).2 = kept r.2 :=
  have h := kept_ite_pair _ _ _ r (kept_snapKeep _ _ _ _ _ r) rfl
  (kept_ite_pair _ _ _ _ (kept_snapKeep _ _ _ _ _ _) rfl).trans h
theorem kept_auxSnapSlice (a : Nat) (r : List (Nat × Word) × State) : kept (auxSnapSlice a r).2 = kept r.2 := by
  unfold auxSnapSlice
  extract_lets o chans chg busy long keepDisch both r1 r2
  have hk : ∀ r a, kept (keepDisch r a).2 = kept r.2 := fun r a => kept_ite_pair _ _ _ r (kept_snapKeep _ _ _ _ _ r) rfl
  have h1 : kept r1.2 = kept r.2 := by
    simp only [r1]
    split
    · split
      · exact kept_snapKeep _ _ _ _ _ r
      · rfl
    · rfl
  have h2 : kept r2.2 = kept r1.2 := kept_foldl_snd _ hk _ r1
  exact (kept_foldl_snd _ hk _ r2).trans (h2.trans h1)
theorem kept_auxSnap (r : List (Nat × Word) × State) : kept (auxSnap r).2 = kept r.2 :=
  (kept_foldl_snd _ (fun r e => kept_auxSnapSlice e r) _ _).trans (kept_foldl_snd _ (fun r e => kept_auxSnapChan e r) _ _)
theorem kept_trkSnap (r : List (Nat × Word) × State) : kept (trkSnap r).2 = kept r.2 :=
  kept_foldl_snd _ (fun r _ => kept_ite_pair _ _ _ r rfl
    ((kept_ite_pair _ _ _ _ (kept_snapKeep _ _ _ _ _ _) rfl).trans (kept_ite_pair _ _ _ r (kept_snapKeep _ _ _ _ _ r) rfl))) _ _
theorem kept_jntSnap (r : List (Nat × Word) × State) : kept (jntSnap r).2 = kept r.2 :=
  (kept_foldl_snd _ (fun r _ => (kept_ite_pair _ _ _ _ rfl (kept_snapKeepAll _ _ _ _ _)).trans
      (kept_ite_pair _ _ _ r (kept_snapKeepAll _ _ _ _ r) rfl)) _ _).trans
    (kept_foldl_snd _ (fun r _ => kept_ite_pair _ _ _ r (kept_snapKeep _ _ _ _ _ r) rfl) _ _)
theorem kept_incSnap (r : List (Nat × Word) × State) : kept (incSnap r).2 = kept r.2 :=
  (kept_foldl_snd _ (fun r _ => kept_ite_pair _ _ _ r rfl
    ((kept_ite_pair _ _ _ _ (kept_snapKeep _ _ _ _ _ _) rfl).trans (kept_ite_pair _ _ _ r (kept_snapKeep _ _ _ _ _ r) rfl))) _ _).trans
  (kept_foldl_snd _ (fun r _ => kept_ite_pair _ _ _ r rfl
    ((kept_ite_pair _ _ _ _ (kept_snapKeep _ _ _ _ _ _) rfl).trans (kept_ite_pair _ _ _ r (kept_snapKeep _ _ _ _ _ r) rfl))) _ _)
theorem kept_motSnapGen (g : Nat) (r : List (Nat × Word) × State) : kept (motSnapGen g r).2 = kept r.2 := by
  unfold motSnapGen
  extract_lets o u chg keep keep2 s st x busy moving ws r0 r1 r2 geared r3 r4 r5 r6 less r7 r8 r9 on sp out ra out2 rb on2 t rc rd re
  have hk : ∀ c d m r, kept (keep c d m r).2 = kept r.2 := fun c d m r => kept_ite_pair _ _ _ r (kept_snapKeep _ _ _ _ _ r) rfl
  have hk2 : ∀ c ds r, kept (keep2 c ds r).2 = kept r.2 := fun c ds r => kept_ite_pair _ _ _ r (kept_snapKeepAll _ _ _ _ r) rfl
  have h3 : kept r3.2 = kept r.2 := (hk _ _ _ r2).trans ((hk _ _ _ r1).trans ((hk _ _ _ r0).trans (hk _ _ _ r)))
  have h6 : kept r6.2 = kept r.2 := (hk _ _ _ r5).trans ((hk _ _ _ r4).trans ((hk _ _ _ r3).trans h3))
  have h9 : kept r9.2 = kept r.2 := (hk _ _ _ r8).trans ((hk _ _ _ r7).trans ((hk _ _ _ r6).trans h6))
  have hc : kept rc.2 = kept r.2 := (hk2 _ _ rb).trans ((hk _ _ _ ra).trans ((hk2 _ _ r9).trans h9))
  have he : kept re.2 = kept r.2 := (hk _ _ _ rd).trans ((hk _ _ _ rc).trans hc)
  split
  · rfl
  · exact (hk _ _ _ re).trans he
theorem kept_motSnap (r : List (Nat × Word) × State) : kept (motSnap r).2 = kept r.2 :=
  kept_foldl_snd _ (fun r g => kept_motSnapGen g r) _ r
theorem kept_refineSnap (x0 : Nat) (x1 : List (Nat × Word)) (s : State) : kept (refineSnap x0 x1 s).2 = kept s :=
  (kept_motSnap _).trans ((kept_incSnap _).trans ((kept_jntSnap _).trans ((kept_trkSnap _).trans ((kept_auxSnap _).trans (kept_xgSnap x0 (x1, s))))))
theorem kept_appliedReg (x0 : Nat) (x1 : Nat) (x2 : Word) (s : State) : kept (appliedReg x0 x1 x2 s) = kept s := by
  unfold appliedReg
  simp only [kept_ite, ite_self, kept_doFor, kept_auxCtrlApplied, kept_mapApply, kept_xcalCheck, kept_portInvert, implies_true]
theorem kept_putValues (x0 : Nat) (x1 : List (Nat × Bool)) (x2 : List Nat) (x3 : List (Nat × Word)) (s : State) :
    kept (putValues x0 x1 x2 x3 s).2 = kept s := by
  unfold putValues
  simp only [ite_self, kept_doFor, kept_setInF, kept_swapBoundary, kept_cmpWritten, kept_motApplied, kept_appliedReg, kept_foldl_snd,
      implies_true, kept_ite_snd]
theorem kept_applySnap (x0 : Nat) (x1 : List (Nat × Bool)) (x2 : List Nat) (x3 : List (Nat × Word)) (s : State) :
    kept (applySnap x0 x1 x2 x3 s).2 = kept s := by
  unfold applySnap
  simp only [kept_refineSnap, kept_putValues]
theorem kept_commitWrite (x0 : Word) (s : State) : kept (commitWrite x0 s) = kept s := by
  unfold commitWrite
  extract_lets res want
  split
  · rfl
  · split
    · rfl
    · split
      · rfl
      · refine (kept_doFor _ _ (fun e s => ?_) _).trans ((kept_ledProduce 0 1 _).trans rfl)
        split
        · exact kept_noteSwapRequest _ _ s
        · rfl
theorem kept_commitDone (c : CommitSt) (s : State) : kept (ledConsume 0 1 { s with commit := c }) = kept s :=
  (kept_ledConsume 0 1 _).trans rfl
theorem kept_commitBoundary (x0 : Nat) (s : State) : kept (commitBoundary x0 s) = kept s := by
  unfold commitBoundary
  split
  · rfl
  · rename_i snap _
    split
    · rfl
    · extract_lets reqs s1 s2
      have h1 : kept s1 = kept s := kept_doFor _ _ (fun e s => kept_modSe e _ s) s
      have h2 : kept s2 = kept s1 := kept_applySnap x0 reqs _ snap s1
      exact (kept_commitDone _ s2).trans (h2.trans h1)
theorem kept_writeRecord (x0 x1 : Nat) (x2 : Word) (x3 : Bool) (s : State) : kept (writeRecord x0 x1 x2 x3 s).2 = kept s := by
  unfold writeRecord
  extract_lets e reqs r
  have h : kept r.2 = kept s := kept_applySnap x0 reqs _ _ s
  generalize r = q at h ⊢
  split
  · refine Eq.trans ?_ h
    show kept (if _ then q.2 else setShadow x1 (inF q.2 x1) q.2) = _
    split
    · rfl
    · exact kept_setShadow _ _ q.2
  · exact h
theorem kept_fillTiles (x0 : Nat) (x1 : Nat) (x2 : List (Nat × List Byte)) (s : State) : kept (fillTiles x0 x1 x2 s) = kept s := by
  unfold fillTiles
  simp only [kept_mk, kept_fold, kept_doFor, kept_setBytes, kept_sealTile, implies_true]
theorem kept_layTiles (s : State) : kept (layTiles s) = kept s := by
  unfold layTiles
  extract_lets f s'
  generalize laidTiles s.fm.laid s' = ts
  exact (rfl)
theorem kept_layRings (old : List Region) (s : State) : kept (layRings old s) = kept s := by
  unfold layRings
  simp only [kept_mk, kept_fold, kept_ite, ite_self]
theorem kept_fillPaths (s : State) : kept (fillPaths s) = kept s := by
  unfold fillPaths
  split <;> simp only [kept_fillTiles]
theorem kept_fillCoefs (s : State) : kept (fillCoefs s) = kept s := by
  unfold fillCoefs
  split <;> simp only [kept_doFor, kept_fillTiles, implies_true]
theorem kept_fillMaps (s : State) : kept (fillMaps s) = kept s := by
  unfold fillMaps
  split <;> simp only [kept_doFor, kept_fillTiles, kept_sigmapSync, implies_true]
theorem kept_layoutRegions (s : State) : kept (layoutRegions s) = kept s := by
  simp only [layoutRegions, kept_fillMaps, kept_fillCoefs, kept_fillPaths, kept_layRings, kept_layTiles]
theorem kept_discardPending (x0 : Nat) (s : State) : kept (discardPending x0 s) = kept s := by
  unfold discardPending
  split <;> simp only [kept_mk, kept_fold, kept_ledConsume, kept_discardMsgs, kept_discardPages]
theorem kept_allDormant (x0 : Nat) (s : State) : kept (allDormant x0 s) = kept s := by
  unfold allDormant
  simp only [kept_mk, kept_fold, kept_ite, ite_self, kept_doFor, kept_unitEnter, implies_true]
theorem kept_loadSettings (x0 : Nat) (s : State) : kept (loadSettings x0 s) = kept s := by
  unfold loadSettings
  extract_lets sets back q
  have h : kept q = kept s := kept_applySnap x0 [] _ _ s
  generalize q = p at h ⊢
  exact h
theorem kept_putInForce (x0 : Option Image) (x1 : Nat) (s : State) : kept (putInForce x0 x1 s) = kept s := by
  unfold putInForce
  simp only [kept_mk, kept_fold, kept_doFor, kept_modSe, kept_toneDrop, kept_setOwner, kept_engineReload, kept_forceAll,
      kept_layoutRegions, kept_discardPending, kept_allDormant, kept_loadSettings, implies_true]
theorem kept_slotResult (x0 : Nat) (x1 : Option Nat) (s : State) : kept (slotResult x0 x1 s) = kept s := by
  unfold slotResult
  simp only [kept_mk, kept_fold, kept_intSource]
theorem kept_slotIgnored (x0 : Nat) (s : State) : kept (slotIgnored x0 s) = kept s := by
  unfold slotIgnored
  simp only [kept_raiseFault]
theorem kept_slotAtOnce (x0 : Nat) (x1 : Option Nat) (s : State) : kept (slotAtOnce x0 x1 s) = kept s := by
  unfold slotAtOnce
  simp only [kept_ledProduce, kept_ledConsume, kept_slotResult]
theorem kept_stageStart (s : State) : kept (stageStart s) = kept s := by
  unfold stageStart
  simp only [kept_mk, kept_fold, kept_ite, ite_self, kept_ledProduce, kept_raiseFault, kept_slotIgnored, kept_slotAtOnce]
theorem kept_keepHash (x0 : List Byte) (x1 : BitVec 384) (s : State) : kept (keepHash x0 x1 s) = kept s := (rfl)
theorem kept_stageComplete (s : State) : kept (stageComplete s) = kept s := by
  unfold stageComplete
  simp only []
  (repeat' split) <;> simp only [kept_mk, kept_fold, kept_ledConsume, kept_raiseFault, kept_slotResult, kept_keepHash]
theorem kept_slotSwitch (x0 : Bool) (x1 : Bool) (s : State) : kept (slotSwitch x0 x1 s) = kept s := by
  unfold slotSwitch
  simp only [kept_mk, kept_fold, kept_ite, ite_self, kept_ledProduce, kept_slotIgnored, kept_slotAtOnce]
theorem kept_discardStaged (s : State) : kept (discardStaged s) = kept s := by
  unfold discardStaged
  simp only [kept_mk, kept_fold, kept_ite, ite_self, kept_slotIgnored, kept_slotAtOnce]
theorem kept_slotCmd (x0 : Word) (s : State) : kept (slotCmd x0 s) = kept s := by
  unfold slotCmd
  split <;> simp only [kept_ite, ite_self, kept_slotIgnored, kept_slotAtOnce, kept_stageStart, kept_slotSwitch, kept_discardStaged]

theorem kept_twinAtSwitch (x0 : Nat) (s : State) : kept (twinAtSwitch x0 s) = kept s := by
  unfold twinAtSwitch
  simp only [kept_mk, kept_fold, kept_ite, ite_self, kept_sendTwin]
theorem kept_activate (x0 : Option Image) (x1 : Nat) (s : State) : kept (activate x0 x1 s) = kept s := by
  unfold activate
  simp only [kept_mk, kept_fold, kept_putInForce, kept_twinAtSwitch]
theorem kept_considerImage (x0 : List Byte) (s : State) : kept (considerImage x0 s).2 = kept s := by
  unfold considerImage
  split <;> simp only [kept_raiseFault, kept_slotResult]
theorem kept_rollbackTo (x0 : Option (List Byte)) (x1 : Nat) (s : State) : kept (rollbackTo x0 x1 s) = kept s := by
  unfold rollbackTo
  split <;> simp only [kept_ite, ite_self, kept_raiseFault, kept_activate, kept_considerImage]

theorem kept_switchBoundaryStep (x0 : Nat) (s : State) : kept (switchBoundaryStep x0 s) = kept s := by
  unfold switchBoundaryStep
  simp only []
  (repeat' split) <;> simp only [kept_mk, kept_fold, kept_ledConsume, kept_raiseFault, kept_slotResult, kept_activate, kept_considerImage]

theorem kept_svcPublish (x0 : Nat) (x1 : List Byte) (s : State) : kept (svcPublish x0 x1 s) = kept s := by
  unfold svcPublish
  simp only [kept_mk, kept_fold, kept_intSource]
theorem kept_svcIfFree (x0 : Nat) (x1 : State → State) (h : ∀ s, kept (x1 s) = kept s) (s : State) : kept (svcIfFree x0 x1 s) = kept s := by
  unfold svcIfFree
  simp only [kept_ite, ite_self, kept_raiseFault, h]
theorem kept_svcRun (x0 : Nat) (x1 : Option (Nat × List Byte)) (s : State) : kept (svcRun x0 x1 s) = kept s := (rfl)
theorem kept_svcRequest (x0 : Nat) (x1 : State → (Nat × List Byte) × State) (h : ∀ s, kept (x1 s).2 = kept s) (s : State) :
    kept (svcRequest x0 x1 s) = kept s := by
  unfold svcRequest
  simp only [kept_svcIfFree, kept_svcRun, h, implies_true]
theorem kept_withAuth (x0 x1 : Nat) (x2 : List Byte → State → Nat × State) (h : ∀ b s, kept (x2 b s).2 = kept s) (s : State) :
    kept (withAuth x0 x1 x2 s).2 = kept s := by
  unfold withAuth
  split <;> simp only [ite_self, kept_raiseFault, h, kept_ite_snd]
theorem kept_imgkeyLoad (x0 : List Byte) (s : State) : kept (imgkeyLoad x0 s).2 = kept s := by
  unfold imgkeyLoad
  simp only []
  (repeat' split) <;> simp only [kept_mk, kept_fold, kept_drawNat]
theorem kept_imgkeyErase (x0 : Nat) (s : State) : kept (imgkeyErase x0 s).2 = kept s := by
  unfold imgkeyErase
  simp only [kept_mk, kept_fold, ite_self, kept_ite_snd]
theorem kept_sessionRefused (x0 : Nat) (x1 : List Byte) (s : State) : kept (sessionRefused x0 x1 s) = kept s := by
  unfold sessionRefused
  simp only [kept_raiseFault]
theorem kept_sessionReply (x0 : List Byte) (s : State) : kept (sessionReply x0 s).2 = kept s := (rfl)
theorem kept_sessionDue (x0 : Nat) (x1 : Nat) (s : State) : kept (sessionDue x0 x1 s) = kept s := by
  unfold sessionDue
  simp only []
  (repeat' split) <;> simp only [kept_modStream, kept_modSession, kept_raiseFault]
theorem kept_sessionBoundary (x0 : Nat) (s : State) : kept (sessionBoundary x0 s) = kept s := by
  unfold sessionBoundary
  simp only [kept_doFor, kept_sessionDue, implies_true]
theorem kept_sessionCloseWork (x0 : Nat) (s : State) : kept (sessionCloseWork x0 s).2 = kept s := by
  unfold sessionCloseWork
  simp only [ite_self, kept_ite_snd]
theorem kept_sessionClose (x0 : Nat) (s : State) : kept (sessionClose x0 s) = kept s := (rfl)
theorem kept_sessionOpenWork (s : State) : kept (sessionOpenWork s).2 = kept s := by
  unfold sessionOpenWork
  split <;> simp only [ite_self, kept_sessionRefused, kept_ite_snd]
theorem kept_keepView (s : State) : kept (keepView s) = kept s := (rfl)
theorem kept_svcCertGet (s : State) : kept (svcCertGet s) = kept s := by
  unfold svcCertGet
  simp only [kept_svcRequest, implies_true]
theorem kept_svcAttest (s : State) : kept (svcAttest s) = kept s := by
  unfold svcAttest
  simp only [kept_svcRequest, implies_true]


theorem kept_svcImgkeyLoad (s : State) : kept (svcImgkeyLoad s) = kept s := by
  unfold svcImgkeyLoad
  simp only [kept_svcRequest, kept_withAuth, kept_imgkeyLoad, implies_true]
theorem kept_svcImgkeyErase (s : State) : kept (svcImgkeyErase s) = kept s :=
  kept_svcRequest _ _ (fun s => kept_imgkeyErase _ s) s

theorem kept_svcSessionOpen (s : State) : kept (svcSessionOpen s) = kept s := by
  unfold svcSessionOpen
  simp only [kept_svcRequest, kept_sessionOpenWork, implies_true]
theorem kept_svcSessionClose (s : State) : kept (svcSessionClose s) = kept s :=
  kept_svcRequest _ _ (fun s => kept_sessionCloseWork _ s) s
theorem kept_serviceComplete (s : State) : kept (serviceComplete s) = kept s := by
  unfold serviceComplete
  split <;> simp only [kept_ite, ite_self, kept_svcPublish, kept_sessionReply, kept_sessionClose]
theorem kept_sessionRequest (x0 : List Byte) (s : State) : kept (sessionRequest x0 s) = kept s := by
  unfold sessionRequest
  simp only [kept_ite, ite_self, kept_emit, kept_sessionRefused, kept_sessionReply]
theorem kept_closeSessions (s : State) : kept (closeSessions s) = kept s := (rfl)
theorem kept_raiseOrHold (x0 : Nat) (x1 : Nat) (x2 : Nat) (x3 : Nat) (s : State) : kept (raiseOrHold x0 x1 x2 x3 s) = kept s := by
  unfold raiseOrHold
  simp only [kept_mk, kept_fold, kept_ite, ite_self, kept_raiseFault]
theorem kept_unlock (x0 : Nat) (x1 : List Byte) (x2 : List Byte) (s : State) : kept (unlock x0 x1 x2 s) = kept s := by
  unfold unlock
  simp only [kept_mk, kept_fold, kept_ite, ite_self, kept_alarmEnter, kept_drawChal, kept_closeSessions, kept_raiseOrHold]
theorem kept_setIr (x0 : JtagIr) (s : State) : kept (setIr x0 s) = kept s := (rfl)
theorem kept_setMode (x0 : Nat) (x1 : Nat) (s : State) : kept (setMode x0 x1 s) = kept s := by
  unfold setMode
  simp only [kept_modTwn, kept_setBiasSplit]
theorem kept_ownAll (x0 : Bool) (s : State) : kept (ownAll x0 s) = kept s := by
  unfold ownAll
  simp only [kept_doFor, kept_setOwner, implies_true]
theorem kept_ownByMap (s : State) : kept (ownByMap s) = kept s := by
  unfold ownByMap
  simp only [kept_doFor, kept_setOwner, implies_true]
theorem kept_twinWithdraw (x0 : Nat) (s : State) : kept (twinWithdraw x0 s) = kept s := by
  unfold twinWithdraw
  simp only [kept_allDormant, kept_setMode, kept_ownAll]
theorem kept_degrade (x0 : Nat) (s : State) : kept (degrade x0 s) = kept s := by
  unfold degrade
  simp only [kept_setMode, kept_ownAll]
theorem kept_twinFailure (x0 : Nat) (s : State) : kept (twinFailure x0 s) = kept s := by
  unfold twinFailure
  simp only [kept_ite, ite_self, kept_modTwn, kept_sendTwin]
theorem kept_sendCrc (x0 : Word) (s : State) : kept (sendCrc x0 s) = kept s := by
  unfold sendCrc
  simp only [kept_twinSend]
theorem kept_twinFrame (s : State) : kept (twinFrame s) = kept s := by
  unfold twinFrame
  simp only [kept_ite, ite_self, kept_modTwn, kept_sendTwin, kept_sendCrc]
theorem kept_settingsCrc (x0 : Word) (s : State) : kept (settingsCrc x0 s) = kept s := by
  unfold settingsCrc
  simp only [kept_ite, ite_self, kept_raiseFault, kept_modTwn, kept_twinFailure, kept_sendCrc]
theorem kept_twinLoss (s : State) : kept (twinLoss s) = kept s := by
  unfold twinLoss
  simp only [kept_ite, ite_self, kept_modTwn, kept_twinFailure]
theorem kept_twinLinkUp (x0 : BitVec 64) (x1 : Bool) (s : State) : kept (twinLinkUp x0 x1 s) = kept s := by
  unfold twinLinkUp
  simp only [kept_ite, ite_self, kept_drawNat, kept_raiseFault, kept_modTwn]
theorem kept_twinBack (s : State) : kept (twinBack s) = kept s := by
  unfold twinBack
  simp only [kept_ite, ite_self, kept_modTwn]
theorem kept_twinSession (x0 : TwinHello) (x1 : BitVec 256) (s : State) : kept (twinSession x0 x1 s) = kept s := by
  unfold twinSession
  simp only [kept_ite, ite_self, kept_emit, kept_modSession, kept_raiseFault, kept_modTwn]
theorem kept_twinLinkDown (x0 : BitVec 4) (s : State) : kept (twinLinkDown x0 s) = kept s := by
  unfold twinLinkDown
  simp only [kept_ite, ite_self, kept_modSession, kept_modTwn, kept_twinLoss]
theorem kept_checkUnit_twinFailure (s : State) : kept (checkUnit.twinFailure' s) = kept s := by
  unfold checkUnit.twinFailure'
  split
  · exact kept_twinFailure 1 s
  · rfl
theorem kept_checkUnit (x0 : PeerUnit) (s : State) : kept (checkUnit x0 s) = kept s := by
  unfold checkUnit
  extract_lets u k own old m mis bad agree neg s1 raise s2
  have h1 : kept s1 = kept s := kept_modTwinRes _ _ s
  have hr : ∀ a b s, kept (raise a b s) = kept s := fun a b s =>
    (kept_checkUnit_twinFailure _).trans ((kept_raiseFault _ _ _ _ _).trans (kept_modTwn _ s))
  have h2 : kept s2 = kept s1 := by
    simp only [s2]; split
    · exact hr _ _ s1
    · rfl
  split
  · rfl
  · split
    · exact (hr _ _ s2).trans (h2.trans h1)
    · exact h2.trans h1
theorem kept_checkUnit_twinFailure_p (s : State) : kept (checkUnit.twinFailure' s) = kept s := by
  unfold checkUnit.twinFailure'
  simp only [kept_ite, ite_self, kept_twinFailure]
theorem kept_blockArrival (x0 : Nat) (x1 : List PeerUnit) (s : State) : kept (blockArrival x0 x1 s) = kept s := by
  unfold blockArrival
  simp only [kept_ite, ite_self, kept_doFor, kept_modTwinRes, kept_modTwn, kept_twinBack, kept_checkUnit, implies_true]
theorem kept_blockDeadline (x0 : Nat) (s : State) : kept (blockDeadline x0 s) = kept s := by
  unfold blockDeadline
  simp only [kept_ite, ite_self, kept_modTwn, kept_twinLoss]
theorem kept_clearChecks (x0 : Nat) (s : State) : kept (clearChecks x0 s) = kept s := by
  unfold clearChecks
  simp only [kept_mk, kept_fold, kept_ite, ite_self]
theorem kept_attachRefused (x0 : Nat) (s : State) : kept (attachRefused x0 s) = kept s := by
  unfold attachRefused
  simp only [kept_raiseFault]
theorem kept_svcAttach (s : State) : kept (svcAttach s) = kept s := by
  unfold svcAttach
  simp only [kept_ite, ite_self, kept_modTwn, kept_sendTwin, kept_svcIfFree, kept_svcRun, kept_attachRefused, implies_true]
theorem kept_svcDetach (s : State) : kept (svcDetach s) = kept s := by
  unfold svcDetach
  simp only [kept_ite, ite_self, kept_modTwn, kept_sendTwin, kept_svcIfFree, kept_svcRun, implies_true]
theorem kept_svcOwnSet (s : State) : kept (svcOwnSet s) = kept s := by
  unfold svcOwnSet
  simp only [kept_ite, ite_self, kept_modTwn, kept_sendTwin, kept_svcIfFree, kept_svcRun, implies_true]
theorem kept_svcAtBoundary (x0 : Nat) (x1 : Nat) (x2 : List Byte) (s : State) : kept (svcAtBoundary x0 x1 x2 s) = kept s := by
  unfold svcAtBoundary
  simp only [kept_ite, ite_self, kept_svcPublish]
theorem kept_joinPrepare (s : State) : kept (joinPrepare s) = kept s := by
  unfold joinPrepare
  simp only [kept_ite, ite_self, kept_doFor, kept_modUnit, kept_prepareTine, kept_dormantTine, implies_true]
theorem kept_joinCheck (s : State) : kept (joinCheck s) = kept s := by
  unfold joinCheck
  simp only [kept_ite, ite_self, kept_modTwn, kept_sendTwin]
theorem kept_sendSettings (x0 : List (Nat × Word)) (x1 : List (Nat × Word)) (s : State) : kept (sendSettings x0 x1 s) = kept s := by
  unfold sendSettings
  simp only [kept_doFor, kept_sendTwin, implies_true]
theorem kept_sendItems (s : State) : kept (sendItems s) = kept s := by
  unfold sendItems
  simp only [kept_doFor, kept_sendTwin, implies_true]
theorem kept_takeCmps (x0 : Nat) (x1 : List CmpSt) (s : State) : kept (takeCmps x0 x1 s) = kept s := by
  unfold takeCmps
  simp only [kept_doFor, kept_modCmp, implies_true]
theorem kept_takeItem (x0 : Nat) (x1 : Nat) (x2 : TwinItem) (s : State) : kept (takeItem x0 x1 x2 s) = kept s := by
  unfold takeItem
  split <;> simp only [kept_modUnit, kept_modXg, kept_modSe, kept_modTk, kept_modGl, kept_modIp, kept_modEm, kept_modPg, kept_ledProduce,
      kept_ledDrop, kept_takeCmps]
theorem kept_attachStep (x0 : Nat) (s : State) : kept (attachStep x0 s) = kept s := by
  unfold attachStep
  split <;> simp only [kept_mk, kept_fold, kept_ite, ite_self, kept_modTwn, kept_setMode, kept_ownAll, kept_attachRefused,
      kept_svcAtBoundary, kept_sendSettings]
theorem kept_failStep (x0 : Nat) (s : State) : kept (failStep x0 s) = kept s := by
  unfold failStep
  split <;> simp only [kept_ite, ite_self, kept_raiseFault, kept_modTwn, kept_setMode, kept_ownAll, kept_twinWithdraw]
theorem kept_countFrame (s : State) : kept (countFrame s) = kept s := by
  unfold countFrame
  simp only [kept_ite, ite_self, kept_modTwn]
theorem kept_progressStep (x0 : Nat) (s : State) : kept (progressStep x0 s) = kept s := by
  unfold progressStep
  simp only [kept_ite, ite_self, kept_doFor, kept_setMode, kept_ownByMap, kept_joinPrepare, kept_takeItem, implies_true]
theorem kept_detachStep (x0 : Nat) (s : State) : kept (detachStep x0 s) = kept s := by
  unfold detachStep
  simp only [kept_ite, ite_self, kept_modTwn, kept_twinWithdraw, kept_degrade, kept_svcAtBoundary]
theorem kept_ownSetStep (x0 : Nat) (s : State) : kept (ownSetStep x0 s) = kept s := by
  unfold ownSetStep
  simp only [kept_ite, ite_self, kept_modTwn, kept_ownByMap, kept_svcAtBoundary]
theorem kept_groupOrphan (x0 : Nat) (s : State) : kept (groupOrphan x0 s) = kept s := by
  unfold groupOrphan
  simp only [kept_ite, ite_self, kept_modTwn]
theorem kept_lossStep (x0 : Nat) (s : State) : kept (lossStep x0 s) = kept s := by
  unfold lossStep
  simp only [kept_ite, ite_self, kept_raiseFault, kept_modTwn, kept_twinWithdraw, kept_degrade]
theorem kept_skewFrame (s : State) : kept (skewFrame s) = kept s := by
  unfold skewFrame
  simp only [kept_setCond, kept_modTwn]
theorem kept_twinEarly (x0 : Nat) (s : State) : kept (twinEarly x0 s) = kept s := by
  unfold twinEarly
  simp only [kept_clearChecks, kept_failStep, kept_countFrame, kept_skewFrame]
theorem kept_twinStep (x0 : Nat) (s : State) : kept (twinStep x0 s) = kept s := by
  unfold twinStep
  simp only [kept_attachStep, kept_progressStep, kept_detachStep, kept_ownSetStep, kept_lossStep]
theorem kept_twinSkew (x0 : Nat) (x1 : Int) (s : State) : kept (twinSkew x0 x1 s) = kept s := (rfl)
theorem kept_twinControl (x0 : TwinMsg) (s : State) : kept (twinControl x0 s) = kept s := by
  unfold twinControl
  split <;> simp only [kept_ite, ite_self, kept_setInF, kept_setShadow, kept_modTone, kept_modTwn, kept_assertSources, kept_twinBack,
      kept_sendItems, kept_twinSkew]
theorem kept_modSlots (x0 : SlotSt → SlotSt) (s : State) : kept (modSlots x0 s) = kept s := (rfl)

theorem kept_p6Try (x0 : Option (List Byte)) (s : State) : kept (p6Try x0 s).2 = kept s := by
  unfold p6Try
  split <;> simp only [kept_considerImage]
theorem kept_p6Force (x0 : Option Image) (x1 : Nat) (s : State) : kept (p6Force x0 x1 s) = kept s := by
  unfold p6Force
  simp only [kept_putInForce, kept_modSlots]

theorem kept_modHrd (x0 : HrdSt → HrdSt) (s : State) : kept (modHrd x0 s) = kept s := (rfl)
theorem kept_herdTrained (x0 : Bool) (x1 : Bool) (s : State) : kept (herdTrained x0 x1 s) = kept s := (rfl)
theorem kept_enumerate (s : State) : kept (enumerate s) = kept s := by
  unfold enumerate
  simp only [kept_ite, ite_self, kept_emit, kept_modHrd]
theorem kept_svcHerdEnum (s : State) : kept (svcHerdEnum s) = kept s := by
  unfold svcHerdEnum
  simp only [kept_ite, ite_self, kept_svcIfFree, kept_svcRun, kept_enumerate, implies_true]
theorem kept_enumReturn (x0 : BitVec 64) (x1 : List (BitVec 64)) (s : State) : kept (enumReturn x0 x1 s) = kept s := by
  unfold enumReturn
  simp only [kept_ite, ite_self, kept_raiseFault, kept_svcAtBoundary, kept_modHrd]


theorem kept_commandRelay (x0 : Nat) (x1 : Nat) (x2 : Nat) (s : State) : kept (commandRelay x0 x1 x2 s) = kept s := by
  unfold commandRelay
  simp only [kept_ite, ite_self, kept_emit, kept_modHrd]
theorem kept_formPartials (s : State) : kept (formPartials s) = kept s := (rfl)
theorem kept_tokenLost (s : State) : kept (tokenLost s) = kept s := by
  unfold tokenLost
  split <;> simp only [kept_ledDrop, kept_raiseFault, kept_modHrd]
theorem kept_tokenIssue (s : State) : kept (tokenIssue s) = kept s := by
  unfold tokenIssue
  simp only [kept_ite, ite_self, kept_emit, kept_ledProduce, kept_modHrd, kept_tokenLost]
theorem kept_hashCheck (x0 : BitVec 384) (s : State) : kept (hashCheck x0 s) = kept s := by
  unfold hashCheck
  simp only [kept_ite, ite_self, kept_raiseFault, kept_modHrd]
theorem kept_tokenReceive (x0 : Nat) (x1 : List (Nat × Nat × Nat)) (x2 : List TokenPart) (x3 : BitVec 384) (x4 : TokenHop)
    (s : State) : kept (tokenReceive x0 x1 x2 x3 x4 s) = kept s := by
  unfold tokenReceive
  simp only [kept_ite, ite_self, kept_emit, kept_ledProduce, kept_ledConsume, kept_ledDrop, kept_raiseFault, kept_modHrd, kept_hashCheck]
theorem kept_retireToken (x0 : Nat) (x1 : List TokenPart) (x2 : Nat) (s : State) : kept (retireToken x0 x1 x2 s) = kept s := by
  unfold retireToken
  simp only [kept_ite, ite_self, kept_ledConsume, kept_modHrd]
theorem kept_tokenRetire (x0 : Nat) (x1 : List TokenPart) (x2 : Bool) (x3 : Nat) (s : State) :
    kept (tokenRetire x0 x1 x2 x3 s) = kept s := by
  unfold tokenRetire
  simp only [kept_ite, ite_self, kept_emit, kept_retireToken]
theorem kept_tokenAbsent (s : State) : kept (tokenAbsent s) = kept s := by
  unfold tokenAbsent
  simp only [kept_ite, ite_self, kept_raiseFault, kept_modHrd]
theorem kept_ringOpen (x0 : Bool) (x1 : List Nat) (s : State) : kept (ringOpen x0 x1 s) = kept s := by
  unfold ringOpen
  simp only [kept_raiseFault, kept_modHrd]
theorem kept_herdBoundary (s : State) : kept (herdBoundary s) = kept s := by
  unfold herdBoundary
  simp only [kept_ite, ite_self, kept_modHrd, kept_tokenLost]
theorem kept_dropRelays (x0 : Nat) (s : State) : kept (dropRelays x0 s) = kept s := (rfl)
theorem kept_modRst (f : RstSt → RstSt) (h : ∀ x,
    (f x).fuse = x.fuse ∧ (f x).pinMap = x.pinMap) (s : State) : kept (modRst f s) = kept s := by
  simp only [kept, modRst, h]
theorem kept_holdBack (x0 : Nat) (x1 : Nat) (x2 : Nat) (s : State) : kept (holdBack x0 x1 x2 s) = kept s := (rfl)
theorem kept_tamperNote (x0 : Nat) (s : State) : kept (tamperNote x0 s) = kept s := (rfl)
theorem kept_assertAll (x0 : List SourceReq) (s : State) : kept (assertAll x0 s) = kept s := by
  unfold assertAll
  (repeat' split) <;> simp only [kept_assertSources, kept_dmaForced, kept_tamperNote]
theorem kept_sourceRelease (x0 : Nat) (s : State) : kept (sourceRelease x0 s) = kept s := by
  unfold sourceRelease
  simp only [kept_ite, ite_self, and_self, kept_alarmLeave, kept_releaseSlices, kept_modRst, implies_true]
theorem kept_tamper (x0 : Nat) (s : State) : kept (tamper x0 s) = kept s := by
  unfold tamper
  simp only [kept_ite, ite_self, kept_assertSources, kept_tamperNote]
theorem kept_seenClear (x0 : Word) (s : State) : kept (seenClear x0 s) = kept s := (rfl)
theorem kept_enterPhase (x0 : Nat) (s : State) : kept (enterPhase x0 s) = kept s := (rfl)
theorem kept_attemptFail (x0 : Nat) (s : State) : kept (attemptFail x0 s) = kept s := by
  unfold attemptFail
  rw [kept_enterPhase, kept_modRst, kept_holdBack]
  exact fun _ => ⟨rfl, rfl⟩
theorem kept_loadOptions (s : State) : kept (loadOptions s) = kept s := (rfl)
theorem kept_enterReady (x0 : Nat) (s : State) : kept (enterReady x0 s) = kept s := by
  unfold enterReady
  simp only [kept_mk, kept_fold, and_self, kept_doFor, kept_numberFrames, kept_raiseFault, kept_alarmLeave, kept_modRst, implies_true]
theorem kept_calibrated (s : State) : kept (calibrated s) = kept s := by
  unfold calibrated
  split <;> simp only [and_self, kept_raiseFault, kept_modRst, implies_true]

theorem kept_deferralTimeout (x0 : Nat) (s : State) : kept (deferralTimeout x0 s) = kept s := by
  unfold deferralTimeout
  simp only [kept_ite, ite_self, kept_raiseOrHold, kept_attemptFail]
theorem kept_reqRefused (x0 : Nat) (s : State) : kept (reqRefused x0 s) = kept s := by
  unfold reqRefused
  simp only [kept_raiseFault]
theorem kept_reqLocal (x0 : Word) (s : State) : kept (reqLocal x0 s) = kept s := by
  unfold reqLocal
  simp only [kept_ite, ite_self, kept_assertSources, kept_reqRefused]
theorem kept_reqTwin (x0 : Word) (x1 : Bool) (s : State) : kept (reqTwin x0 x1 s) = kept s := by
  unfold reqTwin
  simp only [kept_ite, ite_self, kept_sendTwin, kept_reqRefused]
theorem kept_reqHerd (x0 : Word) (x1 : Bool) (x2 : Bool) (s : State) : kept (reqHerd x0 x1 x2 s) = kept s := by
  unfold reqHerd
  simp only [kept_ite, ite_self, kept_emit, kept_reqRefused]
theorem kept_wdtReload (s : State) : kept (wdtReload s) = kept s := (rfl)
theorem kept_wdtCtrl (x0 : Word) (s : State) : kept (wdtCtrl x0 s) = kept s := by
  unfold wdtCtrl
  simp only [kept_ite, ite_self, and_self, kept_setRw, kept_modRst, kept_reqRefused, kept_wdtReload, implies_true]
theorem kept_wdtKick (x0 : Word) (s : State) : kept (wdtKick x0 s) = kept s := by
  unfold wdtKick
  simp only [kept_ite, ite_self, kept_wdtReload]
theorem kept_linkChange (x0 : Bool) (x1 : Nat) (x2 : Nat) (x3 : PcieFn) (s : State) : kept (linkChange x0 x1 x2 x3 s) = kept s := by
  unfold linkChange
  simp only [kept_mk, kept_fold, kept_ite, ite_self, kept_raiseFault, kept_setBme, kept_dmaForced]
theorem kept_startFrame (x0 : Nat) (s : State) : kept (startFrame x0 s) = kept s := (rfl)
theorem kept_velvetFrom (x0 : Nat) (s : State) : kept (velvetFrom x0 s) = kept s := (rfl)
theorem kept_regrid (x0 : Int) (x1 : Nat) (x2 : Nat) (s : State) : kept (regrid x0 x1 x2 s) = kept s := by
  unfold regrid
  simp only [kept_mk, kept_fold, kept_ite, ite_self, kept_velvetFrom]
theorem kept_collectorBoundary (s : State) : kept (collectorBoundary s) = kept s := by
  unfold collectorBoundary
  simp only [kept_mk, kept_fold, kept_doFor, kept_sealTile, kept_closeWindow, implies_true]
theorem kept_syncBoundary (s : State) : kept (syncBoundary s) = kept s := by
  unfold syncBoundary
  simp only [kept_setCond]
theorem kept_stateStep (x0 : Nat) (s : State) : kept (stateStep x0 s) = kept s := by
  unfold stateStep
  simp only [kept_ite, ite_self, kept_doFor, kept_autoTine, kept_autoBeam, kept_autoInfra, kept_resetsDue, implies_true]
theorem kept_recordCase (c : Prop) [Decidable c] (q : Nat × State) (r : List Nat × State) (h : kept q.2 = kept r.2) :
    kept (if c then (r.1 ++ [q.1], q.2) else (r.1 ++ [0], r.2)).2 = kept r.2 := by
  split
  · exact h
  · rfl
theorem kept_writeRecords (x0 : Nat) (x1 : HeldMsg) (s : State) : kept (writeRecords x0 x1 s).2 = kept s := by
  unfold writeRecords
  refine kept_foldl_snd _ ?_ _ _
  intro r a
  dsimp only
  exact kept_recordCase (a.op = 1) (writeRecord x0 a.arg a.value x1.late r.2) r (kept_writeRecord x0 a.arg a.value x1.late r.2)
theorem kept_writeStep (x0 : Nat) (x1 : List HeldMsg) (s : State) : kept (writeStep x0 x1 s).2 = kept s := by
  unfold writeStep
  simp only [kept_writeRecords, kept_foldl_snd, implies_true]
theorem kept_refuseRecords (x0 : HeldMsg) (s : State) : kept (refuseRecords x0 s) = kept s := by
  unfold refuseRecords
  simp only [kept_ite, ite_self, kept_doFor, kept_raiseFault, kept_raiseState, implies_true]
theorem kept_commandStep (x0 : Nat) (x1 : List HeldMsg) (s : State) : kept (commandStep x0 x1 s) = kept s := by
  unfold commandStep
  simp only [kept_mk, kept_fold, kept_doFor, kept_modUnit, kept_ledConsume, kept_finishMsg, kept_runCommands, kept_beamStates,
      kept_formPartials, kept_dropRelays, kept_refuseRecords, implies_true]
theorem kept_portLatch (x0 : Nat) (x1 : Int) (x2 : Nat) (s : State) : kept (portLatch x0 x1 x2 s) = kept s := (rfl)
theorem kept_blockBoundary (x0 : Nat) (s : State) : kept (blockBoundary x0 s) = kept s := by
  unfold blockBoundary
  simp only [kept_mk, kept_fold, kept_doFor, kept_dutyFrame, kept_toneBoundary, kept_coastBoundary, kept_glBoundary, kept_switchLatch,
      kept_pgAssistMark, kept_portLatch, implies_true]
theorem kept_keepStates (x0 : Nat) (s : State) : kept (keepStates x0 s) = kept s := (rfl)
theorem kept_laterSteps (x0 : Nat) (s : State) : kept (laterSteps x0 s) = kept s := by
  unfold laterSteps
  simp only [kept_ite, ite_self, kept_doFor, kept_latchXf, kept_switchPrep, kept_pgBoundary, kept_openStage, kept_commitBoundary,
      kept_sendSettings, kept_twinStep, kept_stateStep, kept_writeStep, kept_commandStep, kept_blockBoundary, kept_keepStates, implies_true]



theorem kept_twinForeseen (s : State) : kept (twinForeseen s) = kept s := by
  unfold twinForeseen
  simp only [kept_ite, ite_self, kept_sendTwin]
theorem kept_cutoff (s : State) : kept (cutoff s) = kept s := by
  unfold cutoff
  simp only [kept_mk, kept_fold, kept_twinForeseen]
theorem kept_hostFault (x0 : Nat) (x1 : Nat) (s : State) : kept (hostFault x0 x1 s) = kept s := by
  unfold hostFault
  simp only [kept_raiseFault]
theorem kept_writeShadow (x0 : Nat) (x1 : Word) (s : State) : kept (writeShadow x0 x1 s) = kept s := by
  unfold writeShadow
  simp only [kept_mk, kept_fold, kept_ite, ite_self, kept_setShadow, kept_sendTwin]
theorem kept_writeRw (x0 : Nat) (x1 : Word) (s : State) : kept (writeRw x0 x1 s) = kept s := by
  unfold writeRw
  split <;> simp only [kept_ite, ite_self, kept_setRw, kept_hostFault]
theorem kept_resetRequest (x0 : Word) (s : State) : kept (resetRequest x0 s) = kept s := by
  unfold resetRequest
  split <;> simp only [kept_reqLocal, kept_reqTwin, kept_reqHerd]

theorem kept_divergeReport (x0 : Word) (s : State) : kept (divergeReport x0 s) = kept s := by
  unfold divergeReport
  simp only []
  (repeat' split) <;> simp only [kept_raiseFault, kept_hostFault]


theorem kept_windowBytes (x0 : Nat) (x1 : Word) (x2 : BitVec 4) (s : State) : kept (windowBytes x0 x1 x2 s) = kept s := by
  unfold windowBytes
  simp only [kept_ite, ite_self, kept_doFor, kept_setByte, implies_true]


theorem kept_earlyWrite (x0 : Nat) (x1 : Word) (x2 : BitVec 4) (s : State) : kept (earlyWrite x0 x1 x2 s) = kept s := by
  unfold earlyWrite
  simp only [kept_ite, ite_self, kept_seenClear]
theorem kept_clearNew (s : State) (x1 : Nat) : kept (clearNew s x1) = kept s := by
  unfold clearNew
  simp only [kept_mk, kept_fold, kept_ite, ite_self]
theorem kept_hostRead (x0 : Nat) (x1 : Nat) (s : State) : kept (hostRead x0 x1 s) = kept s := by
  unfold hostRead
  simp only [kept_doFor, kept_emit, kept_clearNew, implies_true]
theorem kept_modI3c (x0 : I3cSt → I3cSt) (s : State) : kept (modI3c x0 s) = kept s := (rfl)
theorem kept_i3cWrite (x0 : I3cWrite) (s : State) : kept (i3cWrite x0 s) = kept s := by
  unfold i3cWrite
  split <;> simp only [kept_ite, ite_self, kept_emit, kept_hostFault, kept_modI3c]
theorem kept_i3cArm (x0 : BitVec 16) (x1 : BitVec 16) (x2 : Nat) (s : State) : kept (i3cArm x0 x1 x2 s) = kept s := (rfl)
theorem kept_i3cEnd (s : State) : kept (i3cEnd s) = kept s := (rfl)
theorem kept_i3cConfirm (x0 : BitVec 16) (x1 : BitVec 16) (x2 : Nat) (s : State) : kept (i3cConfirm x0 x1 x2 s) = kept s := by
  unfold i3cConfirm
  split <;> simp only [kept_ite, ite_self, kept_assertSources, kept_hostFault, kept_i3cArm, kept_i3cEnd]
theorem kept_answer (x0 : List Byte) (s : State) : kept (answer x0 s) = kept s := (rfl)
theorem kept_setSeWord (x0 : Nat) (x1 : SeMem) (x2 : Nat) (x3 : BitVec 64) (s : State) : kept (setSeWord x0 x1 x2 x3 s) = kept s := (rfl)

/-! ### What grows: fuses, revocations, the floor -/

/-- What every operation leaves at least as it was: the queue is the same, what is burned stays burned, an owned device keeps a usable slot, a
device with a burned slot keeps the reset controller's fuses, and the floor, where its copies hold it, does not fall. -/
def GrowsIn (s t : State) : Prop :=
  t.pending = s.pending ∧ FusesKept s t ∧ (OwnInv s → OwnInv t) ∧
    (s.sec.burned ≠ 0 → t.rst.fuse = s.rst.fuse ∧ t.rst.pinMap = s.rst.pinMap) ∧ (FloorStored s → s.sec.floor ≤ t.sec.floor)
/-- `GrowsIn`, and the copies of the floor go on holding it. -/
def Grows (s t : State) : Prop := GrowsIn s t ∧ (FloorStored s → FloorStored t)

theorem kept_pending {s t : State} (h : kept t = kept s) : t.pending = s.pending := congrArg (·.1) h
theorem kept_burned {s t : State} (h : kept t = kept s) : t.sec.burned = s.sec.burned := congrArg (·.2.1) h
theorem kept_revoked {s t : State} (h : kept t = kept s) : t.sec.revoked = s.sec.revoked := congrArg (·.2.2.1) h
theorem kept_floor {s t : State} (h : kept t = kept s) : t.sec.floor = s.sec.floor := congrArg (·.2.2.2.1) h
theorem kept_floorA {s t : State} (h : kept t = kept s) : t.sec.floorA = s.sec.floorA := congrArg (·.2.2.2.2.1) h
theorem kept_floorB {s t : State} (h : kept t = kept s) : t.sec.floorB = s.sec.floorB := congrArg (·.2.2.2.2.2.1) h
theorem kept_fuse {s t : State} (h : kept t = kept s) : t.rst.fuse = s.rst.fuse := congrArg (·.2.2.2.2.2.2.1) h
theorem kept_pinMap {s t : State} (h : kept t = kept s) : t.rst.pinMap = s.rst.pinMap := congrArg (·.2.2.2.2.2.2.2) h
theorem growsIn_of_eq {s t : State} (hp : t.pending = s.pending) (hb : t.sec.burned = s.sec.burned) (hr : t.sec.revoked = s.sec.revoked)
    (hu : t.rst.fuse = s.rst.fuse) (hm : t.rst.pinMap = s.rst.pinMap) (hf : FloorStored s → s.sec.floor ≤ t.sec.floor) : GrowsIn s t := by
  refine ⟨hp, ?_, ?_, fun _ => ⟨hu, hm⟩, hf⟩
  · simp only [FusesKept, hb, hr, hu, hm, BitVec.and_self, and_self]
  · simp only [OwnInv, hb, hr, imp_self]
theorem grows_of_eq {s t : State} (hp : t.pending = s.pending) (hb : t.sec.burned = s.sec.burned) (hr : t.sec.revoked = s.sec.revoked)
    (hu : t.rst.fuse = s.rst.fuse) (hm : t.rst.pinMap = s.rst.pinMap) (hf : FloorStored s → s.sec.floor ≤ t.sec.floor ∧ FloorStored t) : Grows s t :=
  ⟨growsIn_of_eq hp hb hr hu hm (fun h => (hf h).1), fun h => (hf h).2⟩
theorem grows_of_kept {s t : State} (h : kept t = kept s) : Grows s t :=
  grows_of_eq (kept_pending h) (kept_burned h) (kept_revoked h) (kept_fuse h) (kept_pinMap h)
    (fun i => ⟨Nat.le_of_eq (kept_floor h).symm, by
      unfold FloorStored at i ⊢; rw [kept_floor h, kept_floorA h, kept_floorB h]; exact i⟩)
theorem grows_refl (s : State) : Grows s s := grows_of_kept rfl
/-- Where only the floor and its copies change, and upwards. -/
theorem grows_setFloor (v : Nat) (s : State) (h : s.sec.floor ≤ v) : Grows s (setFloor v s) :=
  grows_of_eq rfl rfl rfl rfl rfl (fun _ => ⟨h, rfl, rfl⟩)
theorem and_keep_trans {n : Nat} {a b c : BitVec n} (h : a &&& b = a) (k : b &&& c = b) : a &&& c = a := by
  rw [← h, BitVec.and_assoc, k]
theorem grows_trans {s t u : State} (h : Grows s t) (k : Grows t u) : Grows s u := by
  obtain ⟨⟨hp, ⟨hb, hr, hu, hm⟩, ho, hl, hf⟩, hs⟩ := h
  obtain ⟨⟨kp, ⟨kb, kr, ku, km⟩, ko, kl, kf⟩, ks⟩ := k
  refine ⟨⟨kp.trans hp, ⟨and_keep_trans hb kb, and_keep_trans hr kr, and_keep_trans hu ku, and_keep_trans hm km⟩,
    fun i => ko (ho i), fun i => ?_, fun i => Nat.le_trans (hf i) (kf (hs i))⟩, fun i => ks (hs i)⟩
  have j : t.sec.burned ≠ 0 := fun z => i (by rw [z] at hb; rw [← hb]; exact BitVec.and_zero)
  exact ⟨(kl j).1.trans (hl i).1, (kl j).2.trans (hl i).2⟩

theorem grows_floorApply (s : State) : Grows s (floorApply s) := by
  unfold floorApply
  split
  · exact grows_refl s
  · rename_i v _
    refine grows_trans (grows_trans (t := { s with sec := { s.sec with floorPending := none } }) (grows_of_kept rfl) ?_)
      (grows_of_kept (kept_raiseFault _ _ _ _ _))
    exact grows_setFloor _ _ (Nat.le_max_left _ _)
theorem grows_velvetEnd (n : Nat) (s : State) : Grows s (velvetEnd n s) := by
  unfold velvetEnd
  split
  · exact grows_refl s
  · split
    · refine grows_trans ?_ (grows_floorApply _)
      exact grows_of_kept rfl
    · exact grows_refl s
theorem grows_rollback (n : Nat) (s : State) : Grows s (rollback n s) := by
  unfold rollback
  split
  · split
    · refine grows_trans (grows_trans ?_ (grows_floorApply _)) (grows_of_kept (kept_raiseFault _ _ _ _ _))
      exact grows_of_kept rfl
    · exact grows_of_kept ((kept_raiseFault _ _ _ _ _).trans ((kept_rollbackTo _ _ _).trans rfl))
  · exact grows_of_kept rfl
theorem grows_slotStep (n : Nat) (s : State) : Grows s (slotStep n s) :=
  grows_trans (grows_trans (grows_rollback n s) (grows_velvetEnd n _)) (grows_of_kept (kept_switchBoundaryStep n _))
theorem grows_boundarySteps (n : Nat) (s : State) : Grows s (boundarySteps n s) := by
  unfold boundarySteps
  extract_lets t p e s1
  have h1 : Grows s s1 := grows_trans (grows_of_kept ((kept_twinEarly n _).trans (kept_actBoundary n s)))
    (grows_trans (grows_slotStep n _) (grows_of_kept (kept_regrid _ _ _ _)))
  refine grows_trans h1 (grows_of_kept ?_)
  split
  · split
    · exact kept_detachStep _ _
    · rfl
  · exact kept_laterSteps _ _
theorem grows_frameBoundary (s : State) : Grows s (frameBoundary s) := by
  unfold frameBoundary
  extract_lets n q
  have hq : kept q = kept s := (kept_slewGrid _).trans ((kept_sessionBoundary _ _).trans ((kept_syncBoundary _).trans
    ((kept_collectorBoundary _).trans ((kept_herdBoundary _).trans (kept_startFrame _ s)))))
  exact grows_trans (grows_trans (grows_of_kept hq) (grows_boundarySteps _ _)) (grows_of_kept ((kept_keepView _).trans (kept_twinFrame _)))
theorem grows_frameStep (s : State) : Grows s (frameStep s) :=
  grows_trans (grows_frameBoundary s) (grows_of_kept (kept_showPins _ _ _))

theorem grows_p6Rollback (s : State) : Grows s (p6Rollback s).2 := by
  unfold p6Rollback
  split
  · split
    · exact grows_trans (grows_trans (grows_of_kept (kept_modSlots _ s)) (grows_floorApply _)) (grows_of_kept (kept_raiseFault _ _ _ _ _))
    · exact grows_of_kept ((kept_raiseFault _ _ _ _ _).trans ((rfl : kept _ = kept _).trans (kept_modSlots _ s)))
  · exact grows_refl s
theorem kept_p6Second (p : Option Image × State) :
    kept (if p.1.isSome then
        p6Force p.1 1 (raiseFault qSEC 0x610 0x1C 0 (modSlots (fun x => { x with active := x.previous, previous := x.active }) p.2))
      else p6Force none 2 (raiseFault qSEC 0x610 0x1D 0 p.2)) = kept p.2 := by
  split
  · exact (kept_p6Force _ _ _).trans ((kept_raiseFault _ _ _ _ _).trans (kept_modSlots _ _))
  · exact (kept_p6Force _ _ _).trans (kept_raiseFault _ _ _ _ _)
theorem kept_p6First (a : Option Image × State) :
    kept (if a.1.isSome then p6Force a.1 0 a.2
      else
        if (p6Try a.2.slots.previous a.2).1.isSome then
          p6Force (p6Try a.2.slots.previous a.2).1 1
            (raiseFault qSEC 0x610 0x1C 0
              (modSlots (fun x => { x with active := x.previous, previous := x.active }) (p6Try a.2.slots.previous a.2).2))
        else p6Force none 2 (raiseFault qSEC 0x610 0x1D 0 (p6Try a.2.slots.previous a.2).2)) = kept a.2 := by
  split
  · exact kept_p6Force _ _ _
  · exact (kept_p6Second (p6Try a.2.slots.previous a.2)).trans (kept_p6Try _ _)
theorem grows_p6Load (s : State) : Grows s (p6Load s) := by
  unfold p6Load
  extract_lets r s0 f q
  have h : Grows s q := grows_trans (grows_p6Rollback s) (grows_of_kept rfl)
  refine grows_trans h (grows_of_kept ?_)
  split
  · exact kept_p6Force _ _ _
  · exact (kept_p6First (p6Try q.slots.active q)).trans (kept_p6Try _ q)
theorem grows_enumWorker (x0 : Nat) (x1 x2 : BitVec 64) (x3 : List (BitVec 64)) (s : State) : Grows s (enumWorker x0 x1 x2 x3 s) := by
  unfold enumWorker
  extract_lets new pass late q
  have hp : ∀ p s, kept (pass p s) = kept s := fun _ s => kept_emit _ s
  have hq : kept q = kept s := (hp _ _).trans (kept_modHrd _ s)
  split
  · refine grows_of_kept ((hp _ _).trans ?_)
    split
    · rfl
    · exact kept_raiseFault _ _ _ _ s
  · split
    · exact grows_of_kept ((hp _ _).trans (kept_raiseFault _ _ _ _ s))
    · split
      · exact grows_trans (grows_of_kept hq) (grows_p6Load q)
      · exact grows_of_kept hq
theorem grows_positionExpiry (s : State) : Grows s (positionExpiry s) := by
  unfold positionExpiry
  split
  · exact grows_p6Load s
  · exact grows_refl s

/-! ### The floor as loaded -/

@[simp] theorem floorCopy_value (v : Nat) : (floorCopy v).value = v := rfl
@[simp] theorem floorCopy_crc (v : Nat) : (floorCopy v).crc = crc32c (leBytes 4 v) := rfl
/-- What P4 loads is the floor itself, where its copies hold it. -/
theorem floorStored_eq {s : State} (h : FloorStored s) : floorStored s = some s.sec.floor := by
  unfold floorStored
  rw [h.1, h.2]
  simp
theorem grows_floorLoad (i : Bool) (s : State) :
    Grows s { s with sec := { s.sec with identityOk := i, floor := (floorStored s).getD 0xFFFFFFFF } } := by
  refine grows_of_eq rfl rfl rfl rfl rfl (fun h => ?_)
  have e : (floorStored s).getD 0xFFFFFFFF = s.sec.floor := by rw [floorStored_eq h]; rfl
  simp only [FloorStored, e]
  exact ⟨Nat.le_refl _, h⟩
theorem grows_secureLoad (s : State) : Grows s (secureLoad s) := by
  unfold secureLoad
  extract_lets r s1 s2 s3
  have h1 : Grows s s1 := grows_floorLoad _ s
  have h2 : kept s2 = kept s1 := by
    simp only [s2]; split
    · exact kept_holdBack _ _ _ s1
    · rfl
  have h3 : kept s3 = kept s2 := by
    simp only [s3]; split
    · exact kept_holdBack _ _ _ s2
    · rfl
  refine grows_trans h1 (grows_of_kept ?_)
  split
  · exact h3.trans h2
  · exact (kept_holdBack _ _ _ s3).trans (h3.trans h2)
theorem grows_phaseDone (x0 : PhaseOutcome) (x1 : Nat) (s : State) : Grows s (phaseDone x0 x1 s) := by
  unfold phaseDone
  split
  · refine grows_of_kept ((kept_enterPhase _ _).trans ((kept_maskRails _ _ _ _).trans ((kept_modRst _ (fun _ => ⟨rfl, rfl⟩) _).trans ?_)))
    exact (kept_emit _ _).trans ((kept_drawChal _).trans rfl)
  · refine grows_of_kept ((kept_enterPhase _ _).trans ((kept_loadOptions _).trans ?_))
    split
    · split
      · exact kept_holdBack _ _ _ s
      · rfl
    · rfl
  · split
    · exact grows_of_kept (kept_attemptFail _ s)
    · exact grows_of_kept (kept_enterPhase _ s)
  · exact grows_of_kept ((kept_enterPhase _ _).trans rfl)
  · refine grows_trans (grows_secureLoad s) (grows_of_kept ((kept_enterPhase _ _).trans ?_))
    exact (rfl : kept _ = kept _).trans (kept_doFor _ _ (fun k s => kept_maskRails _ _ _ s) _)
  · refine grows_of_kept ((kept_enterPhase _ _).trans ((kept_modRst _ (fun _ => ⟨rfl, rfl⟩) _).trans ?_))
    split
    · exact (kept_enumerate _).trans rfl
    · rfl
  · split
    · exact grows_of_kept (kept_enterReady _ s)
    · split
      · exact grows_of_kept (kept_modHrd _ s)
      · exact grows_trans (grows_p6Load s) (grows_of_kept (kept_enterReady _ _))
  · exact grows_of_kept (kept_calibrated s)

/-! ### Owner services -/

theorem bit_and_or {n : Nat} (a b : BitVec n) : a &&& (a ||| b) = a := by
  ext i hi
  simp only [BitVec.getElem_and, BitVec.getElem_or]
  cases a[i] <;> rfl
theorem own_burn_inv (burned revoked : BitVec 4) (k : Nat) (hk : k ≤ 3)
    (h : (burned = 0 ∧ revoked = 0) ∨ burned &&& ~~~revoked ≠ 0) : (burned ||| BitVec.ofNat 4 (2 ^ k)) &&& ~~~revoked ≠ 0 := by
  obtain rfl | rfl | rfl | rfl : k = 0 ∨ k = 1 ∨ k = 2 ∨ k = 3 := by omega
  all_goals (revert burned revoked; decide)
theorem grows_burnFuse (k : Nat) (f : State → State) (s : State) (h : ∀ s', kept s' = kept s → Grows s' (f s')) : Grows s (burnFuse k f s).2 := by
  unfold burnFuse
  extract_lets d
  have hd : kept d.2 = kept s := kept_drawNat s
  split
  · exact grows_of_kept hd
  · exact grows_trans (grows_of_kept hd) (h _ hd)
theorem grows_ownBurn (b : List Byte) (s : State) : Grows s (ownBurn b s).2 := by
  unfold ownBurn
  extract_lets k
  split
  · exact grows_refl s
  · split
    · exact grows_refl s
    · refine grows_burnFuse _ _ s (fun q _ => grows_trans ?_ (grows_of_kept (kept_raiseFault _ _ _ _ _)))
      exact ⟨⟨rfl, ⟨bit_and_or _ _, BitVec.and_self, BitVec.and_self, BitVec.and_self⟩, fun h => .inr (own_burn_inv _ _ k (by omega) h),
        fun _ => ⟨rfl, rfl⟩, fun _ => Nat.le_refl _⟩, id⟩
theorem grows_slotRevoke (b : List Byte) (s : State) : Grows s (slotRevoke b s).2 := by
  unfold slotRevoke
  extract_lets k rev
  split
  · exact grows_refl s
  · split
    · exact grows_refl s
    · rename_i hr
      refine grows_burnFuse _ _ s (fun q hq => grows_trans ?_ (grows_of_kept (kept_raiseFault _ _ _ _ _)))
      have hv : rev = q.sec.revoked ||| BitVec.ofNat 4 (2 ^ k) := by rw [kept_revoked hq]
      refine ⟨⟨rfl, ⟨BitVec.and_self, ?_, BitVec.and_self, BitVec.and_self⟩, fun _ => .inr ?_, fun _ => ⟨rfl, rfl⟩, fun _ => Nat.le_refl _⟩, id⟩
      · show q.sec.revoked &&& rev = q.sec.revoked
        rw [hv]; exact bit_and_or _ _
      · show q.sec.burned &&& ~~~rev ≠ 0
        rw [kept_burned hq]; exact hr
theorem grows_floorRaise (v : Nat) (s : State) : Grows s (floorRaise v s) := by
  unfold floorRaise
  split
  · exact grows_of_kept (kept_svcRun _ _ s)
  · split
    · exact grows_of_kept ((kept_svcPublish _ _ _).trans rfl)
    · rename_i h _
      refine grows_trans (grows_trans ?_ (grows_of_kept (kept_raiseFault _ _ _ _ _))) (grows_of_kept (kept_svcRun _ _ _))
      exact grows_setFloor _ _ (by omega)
theorem grows_withAuth (x0 x1 : Nat) (f : List Byte → State → Nat × State) (hf : ∀ b s, Grows s (f b s).2) (s : State) :
    Grows s (withAuth x0 x1 f s).2 := by
  unfold withAuth
  extract_lets no
  have hn : ∀ r s, kept (no r s).2 = kept s := fun r s => kept_raiseFault _ _ _ _ s
  split
  · exact grows_of_kept (hn _ s)
  · extract_lets c r
    split
    · exact grows_of_kept (hn _ s)
    · split
      · exact hf _ s
      · exact grows_trans (hf _ s) (grows_of_kept (hn _ _))
theorem grows_svcIfFree (x0 : Nat) (f : State → State) (hf : ∀ s, Grows s (f s)) (s : State) : Grows s (svcIfFree x0 f s) := by
  unfold svcIfFree
  split
  · exact grows_of_kept (kept_raiseFault _ _ _ _ s)
  · exact hf s
theorem grows_svcRequest (x0 : Nat) (f : State → (Nat × List Byte) × State) (hf : ∀ s, Grows s (f s).2) (s : State) :
    Grows s (svcRequest x0 f s) :=
  grows_svcIfFree x0 _ (fun s => grows_trans (hf s) (grows_of_kept (kept_svcRun _ _ _))) s
theorem grows_svcOwnBurn (s : State) : Grows s (svcOwnBurn s) := grows_svcRequest 3 _ (grows_withAuth 3 1 ownBurn grows_ownBurn) s
theorem grows_svcSlotRevoke (s : State) : Grows s (svcSlotRevoke s) := grows_svcRequest 4 _ (grows_withAuth 4 2 slotRevoke grows_slotRevoke) s
theorem grows_svcFloorRaise (s : State) : Grows s (svcFloorRaise s) := grows_svcIfFree 7 _ (fun s => grows_floorRaise _ s) s
theorem grows_fuseProg (x0 : BitVec 64) (x1 : BitVec 15) (s : State) : Grows s (fuseProg x0 x1 s) := by
  unfold fuseProg
  extract_lets q
  have hq : kept q = kept s := kept_setIr _ s
  refine grows_trans (grows_of_kept hq) ?_
  split
  · rename_i h
    exact ⟨⟨rfl, ⟨BitVec.and_self, BitVec.and_self, bit_and_or _ _, bit_and_or _ _⟩, id, fun i => absurd h i, fun _ => Nat.le_refl _⟩, id⟩
  · exact grows_refl q

/-! ### Host writes -/

theorem grows_svcRequestWrite (v : Word) (s : State) : Grows s (svcRequestWrite v s) := by
  unfold svcRequestWrite
  split
  · exact grows_refl s
  · split
    · exact grows_of_kept (kept_svcCertGet s)
    · exact grows_of_kept (kept_svcAttest s)
    · exact grows_svcOwnBurn s
    · exact grows_svcSlotRevoke s
    · exact grows_of_kept (kept_svcImgkeyLoad s)
    · exact grows_of_kept (kept_svcImgkeyErase s)
    · exact grows_svcFloorRaise s
    · exact grows_of_kept (kept_svcSessionOpen s)
    · exact grows_of_kept (kept_svcSessionClose s)
    · exact grows_of_kept (kept_svcAttach s)
    · exact grows_of_kept (kept_svcDetach s)
    · exact grows_of_kept (kept_svcOwnSet s)
    · exact grows_of_kept (kept_svcHerdEnum s)
    · exact grows_of_kept (kept_svcIfFree _ _ (fun s => kept_svcPublish _ _ s) s)
theorem grows_ite (c : Prop) [Decidable c] (s a b : State) (ha : Grows s a) (hb : Grows s b) : Grows s (if c then a else b) := by
  split
  · exact ha
  · exact hb
theorem grows_writeAct (off : Nat) (v : Word) (s : State) : Grows s (writeAct off v s) := by
  unfold writeAct
  extract_lets o u
  split
  · exact grows_ite _ _ _ _ (grows_of_kept (kept_pageCommand _ _ _ s)) (grows_of_kept (kept_ackEscalation _ _ s))
  · split
    · exact grows_ite _ _ _ _ (grows_of_kept (kept_slotCmd _ s)) (grows_of_kept (kept_commitWrite _ s))
    · exact grows_ite _ _ _ _ (grows_of_kept (kept_seenClear _ s)) (grows_ite _ _ _ _ (grows_of_kept (kept_resetRequest _ s))
        (grows_ite _ _ _ _ (grows_of_kept (kept_wdtCtrl _ s)) (grows_of_kept (kept_wdtKick _ s))))
    · exact grows_ite _ _ _ _ (grows_of_kept (kept_actRequest _ _ s)) (grows_refl s)
    · exact grows_ite _ _ _ _ (grows_ite _ _ _ _ (grows_of_kept (kept_clearFirstFault s)) (grows_refl s))
        (grows_ite _ _ _ _ (grows_ite _ _ _ _ (grows_of_kept (kept_clearHbLost s)) (grows_refl s))
          (grows_ite _ _ _ _ (grows_of_kept (kept_clearLatched _ s)) (grows_refl s)))
    · exact grows_of_kept (kept_toneRequest _ _ s)
    · exact grows_of_kept (kept_bankWrite _ _ _ _ s)
    · exact grows_of_kept (kept_ctInit _ s)
    · exact grows_ite _ _ _ _ (grows_svcRequestWrite _ s) (grows_ite _ _ _ _ (grows_of_kept (kept_divergeReport _ s))
        (grows_of_kept (kept_dmaCtrl _ _ s)))
    · exact grows_refl s
theorem grows_regWrite (off : Nat) (v : Word) (s : State) : Grows s (regWrite off v s) := by
  unfold regWrite
  split
  · exact grows_of_kept (kept_hostFault _ _ s)
  · split
    · exact grows_of_kept (kept_hostFault _ _ s)
    · split
      · exact grows_of_kept (kept_writeShadow _ _ s)
      · exact grows_of_kept (kept_writeRw _ _ s)
      · exact grows_refl s
      · exact grows_writeAct _ _ s
theorem grows_wordWrite (a : Nat) (v : Word) (be : BitVec 4) (s : State) : Grows s (wordWrite a v be s) := by
  unfold wordWrite
  refine grows_ite _ _ _ _ (grows_refl s) (grows_ite _ _ _ _ ?_ (grows_ite _ _ _ _ (grows_regWrite _ _ s)
    (grows_ite _ _ _ _ (grows_of_kept (kept_hostFault _ _ s)) (grows_of_kept (kept_hostFault _ _ s)))))
  split
  · exact grows_of_kept (kept_hostFault _ _ s)
  · exact grows_of_kept (kept_windowBytes _ _ _ s)
  · exact grows_of_kept (kept_raiseFault _ _ _ _ s)
theorem grows_hostWrite (off : Nat) (v : Word) (be : BitVec 4) (s : State) : Grows s (hostWrite off v be s) :=
  grows_trans (grows_wordWrite _ _ _ s) (grows_wordWrite _ _ _ _)
/-- The debug port's access of the persistent store may put other copies there; the floor itself stays. -/
theorem growsIn_setStore (x : StoreItem) (v : List Byte) (s : State) : GrowsIn s (setStore x v s) := by
  unfold setStore
  split
  · extract_lets c
    split <;> exact growsIn_of_eq rfl rfl rfl rfl rfl (fun _ => Nat.le_refl _)
  · extract_lets c
    split <;> exact growsIn_of_eq rfl rfl rfl rfl rfl (fun _ => Nat.le_refl _)
  · extract_lets b
    split
    · exact growsIn_of_eq rfl rfl rfl rfl rfl (fun _ => Nat.le_refl _)
    · split <;> exact growsIn_of_eq rfl rfl rfl rfl rfl (fun _ => Nat.le_refl _)
theorem grows_debugAccess (a : DebugAccess) (s : State) (h : ∀ x v, a ≠ .writeStore x v) : Grows s (debugAccess a s) := by
  unfold debugAccess
  split
  · exact grows_of_kept (kept_answer _ s)
  · exact grows_ite _ _ _ _ (grows_regWrite _ _ s) (grows_refl s)
  · exact grows_of_kept (kept_answer _ s)
  · exact grows_ite _ _ _ _ (grows_of_kept (kept_setByte _ _ s)) (grows_refl s)
  · exact grows_of_kept (kept_answer _ s)
  · exact grows_ite _ _ _ _ (grows_of_kept (kept_setSeWord _ _ _ _ s)) (grows_refl s)
  · exact grows_of_kept (kept_answer _ s)
  · exact absurd rfl (h _ _)
theorem growsIn_debugAccess (a : DebugAccess) (s : State) : GrowsIn s (debugAccess a s) := by
  cases a with
  | writeStore x v => exact growsIn_setStore x v s
  | _ => exact (grows_debugAccess _ s (by intro _ _ h; cases h)).1
end Sys2Proof.Laws
end

