-- ==== Sys2Proof/Laws/Table.lean ====
section
/-! SUPPORT. Sparse tables: what a key reads after a write, without any hypothesis on the table, and the canonical form kept by writes. -/
namespace Sys2Proof.Machine

theorem Tbl.get_del_self {α : Type} (d : Nat → α) (t : List (Nat × α)) (k : Nat) : Tbl.get d (Tbl.del t k) k = d k := by
  induction t with
  | nil => rfl
  | cons e t ih =>
    obtain ⟨j, a⟩ := e
    by_cases h : j = k
    · simpa [Tbl.del, h] using ih
    · have h' : ¬ k = j := fun x => h x.symm
      simpa [Tbl.del, h, Tbl.get, h'] using ih

theorem Tbl.get_del_ne {α : Type} (d : Nat → α) (t : List (Nat × α)) {k k' : Nat} (hk : k' ≠ k) :
    Tbl.get d (Tbl.del t k) k' = Tbl.get d t k' := by
  induction t with
  | nil => rfl
  | cons e t ih =>
    obtain ⟨j, a⟩ := e
    by_cases h : j = k
    · have : ¬ k' = j := fun x => hk (x.trans h)
      simpa [Tbl.del, h, Tbl.get, this, hk] using ih
    · by_cases h' : k' = j
      · simp [Tbl.del, h, Tbl.get, h']
      · simpa [Tbl.del, h, Tbl.get, h'] using ih

theorem Tbl.get_put_self {α : Type} (d : Nat → α) (t : List (Nat × α)) (k : Nat) (v : α) : Tbl.get d (Tbl.put t k v) k = v := by
  induction t with
  | nil => simp [Tbl.put, Tbl.get]
  | cons e t ih =>
    obtain ⟨j, a⟩ := e
    by_cases h : k = j
    · simp [Tbl.put, Tbl.get, h]
    · by_cases h' : k < j
      · simp [Tbl.put, Tbl.get, h, h']
      · simpa [Tbl.put, Tbl.get, h, h'] using ih

theorem Tbl.get_put_ne {α : Type} (d : Nat → α) (t : List (Nat × α)) {k k' : Nat} (v : α) (hk : k' ≠ k) :
    Tbl.get d (Tbl.put t k v) k' = Tbl.get d t k' := by
  induction t with
  | nil => simp [Tbl.put, Tbl.get, hk]
  | cons e t ih =>
    obtain ⟨j, a⟩ := e
    by_cases h : k = j
    · subst h; simp [Tbl.put, Tbl.get, hk]
    · by_cases h' : k < j
      · simp [Tbl.put, Tbl.get, h, h', hk]
      · by_cases h2 : k' = j
        · simp [Tbl.put, Tbl.get, h, h', h2]
        · simpa [Tbl.put, Tbl.get, h, h', h2] using ih

/-- A read after a write of the same key gives the value written. -/
@[simp] theorem Tbl.get_set_self {α : Type} [DecidableEq α] (d : Nat → α) (t : List (Nat × α)) (k : Nat) (v : α) :
    Tbl.get d (Tbl.set d t k v) k = v := by
  unfold Tbl.set
  split
  · next h => rw [Tbl.get_del_self, h]
  · exact Tbl.get_put_self d t k v

/-- A write leaves every other key alone. -/
theorem Tbl.get_set_ne {α : Type} [DecidableEq α] (d : Nat → α) (t : List (Nat × α)) {k k' : Nat} (v : α) (hk : k' ≠ k) :
    Tbl.get d (Tbl.set d t k v) k' = Tbl.get d t k' := by
  unfold Tbl.set
  split
  · exact Tbl.get_del_ne d t hk
  · exact Tbl.get_put_ne d t v hk

theorem Tbl.get_set {α : Type} [DecidableEq α] (d : Nat → α) (t : List (Nat × α)) (k k' : Nat) (v : α) :
    Tbl.get d (Tbl.set d t k v) k' = if k' = k then v else Tbl.get d t k' := by
  split
  · next h => subst h; exact Tbl.get_set_self d t k' v
  · next h => exact Tbl.get_set_ne d t v h

theorem Tbl.rising_mono {α : Type} {lo lo' : Nat} (t : List (Nat × α)) (h : lo' ≤ lo) (hr : Tbl.rising lo t = true) :
    Tbl.rising lo' t = true := by
  cases t with
  | nil => rfl
  | cons e t =>
    simp only [Tbl.rising, Bool.and_eq_true, decide_eq_true_eq] at hr ⊢
    exact ⟨Nat.le_trans h hr.1, hr.2⟩

theorem Tbl.rising_filter {α : Type} (p : Nat × α → Bool) (t : List (Nat × α)) (lo : Nat) (h : Tbl.rising lo t = true) :
    Tbl.rising lo (t.filter p) = true := by
  induction t generalizing lo with
  | nil => rfl
  | cons e t ih =>
    simp only [Tbl.rising, Bool.and_eq_true, decide_eq_true_eq] at h
    by_cases hp : p e = true
    · simp only [List.filter_cons, hp, if_true, Tbl.rising, Bool.and_eq_true, decide_eq_true_eq]
      exact ⟨h.1, ih _ h.2⟩
    · simp only [List.filter_cons, hp]
      exact Tbl.rising_mono _ (Nat.le_trans h.1 (Nat.le_succ _)) (ih _ h.2)

theorem Tbl.rising_put {α : Type} (t : List (Nat × α)) (lo k : Nat) (v : α) (hk : lo ≤ k) (h : Tbl.rising lo t = true) :
    Tbl.rising lo (Tbl.put t k v) = true := by
  induction t generalizing lo with
  | nil => simp [Tbl.put, Tbl.rising, hk]
  | cons e t ih =>
    obtain ⟨j, a⟩ := e
    simp only [Tbl.rising, Bool.and_eq_true, decide_eq_true_eq] at h
    by_cases h1 : k = j
    · subst h1; simp [Tbl.put, Tbl.rising, hk, h.2]
    · by_cases h2 : k < j
      · simp [Tbl.put, h1, h2, Tbl.rising, hk, h.2]
      · simp only [Tbl.put, h1, h2, if_false, Tbl.rising, Bool.and_eq_true, decide_eq_true_eq]
        exact ⟨h.1, ih _ (by omega) h.2⟩

theorem Tbl.mem_put {α : Type} (t : List (Nat × α)) (k : Nat) (v : α) (e : Nat × α) (h : e ∈ Tbl.put t k v) : e = (k, v) ∨ e ∈ t := by
  induction t with
  | nil => simpa [Tbl.put] using h
  | cons x t ih =>
    obtain ⟨j, a⟩ := x
    by_cases h1 : k = j
    · simp only [Tbl.put, h1, if_true, List.mem_cons] at h
      rcases h with h | h
      · exact .inl (by rw [h, h1])
      · exact .inr (List.mem_cons_of_mem _ h)
    · by_cases h2 : k < j
      · simp only [Tbl.put, h1, h2, if_true, if_false, List.mem_cons] at h
        rcases h with h | h
        · exact .inl h
        · exact .inr (List.mem_cons.2 h)
      · simp only [Tbl.put, h1, h2, if_false, List.mem_cons] at h
        rcases h with h | h
        · exact .inr (List.mem_cons.2 (.inl h))
        · rcases ih h with h | h
          · exact .inl h
          · exact .inr (List.mem_cons_of_mem _ h)

/-- A write keeps the canonical form. -/
theorem Tbl.wf_set {α : Type} [DecidableEq α] (d : Nat → α) (t : List (Nat × α)) (k : Nat) (v : α) (h : Tbl.wf d t = true) :
    Tbl.wf d (Tbl.set d t k v) = true := by
  simp only [Tbl.wf, Bool.and_eq_true, List.all_eq_true, decide_eq_true_eq] at h ⊢
  unfold Tbl.set
  split
  · refine ⟨Tbl.rising_filter _ t 0 h.1, fun e he => h.2 e (List.mem_filter.1 he).1⟩
  · next hv =>
    refine ⟨Tbl.rising_put t 0 k v (Nat.zero_le _) h.1, fun e he => ?_⟩
    rcases Tbl.mem_put t k v e he with rfl | he
    · exact hv
    · exact h.2 e he

end Sys2Proof.Machine
end

