-- ==== Sys2Proof/Laws/State.lean ====
section
/-! SUPPORT. One lemma for each field of State and each named update: an update changes its own field only, and what its accessor then reads. -/
namespace Sys2Proof.Machine

/-! ### Registers -/

@[simp] theorem setInF_pending (off : Nat) (v : Word) (s : State) : (setInF off v s).pending = s.pending := rfl
@[simp] theorem setInF_freeCtr (off : Nat) (v : Word) (s : State) : (setInF off v s).freeCtr = s.freeCtr := rfl
@[simp] theorem setInF_outbox (off : Nat) (v : Word) (s : State) : (setInF off v s).outbox = s.outbox := rfl
@[simp] theorem setInF_time (off : Nat) (v : Word) (s : State) : (setInF off v s).time = s.time := rfl
@[simp] theorem setInF_shadow (off : Nat) (v : Word) (s : State) : (setInF off v s).shadow = s.shadow := rfl
@[simp] theorem setInF_rw (off : Nat) (v : Word) (s : State) : (setInF off v s).rw = s.rw := rfl
@[simp] theorem setInF_written (off : Nat) (v : Word) (s : State) : (setInF off v s).written = s.written := rfl
@[simp] theorem setInF_commit (off : Nat) (v : Word) (s : State) : (setInF off v s).commit = s.commit := rfl
@[simp] theorem setInF_conf (off : Nat) (v : Word) (s : State) : (setInF off v s).conf = s.conf := rfl
@[simp] theorem setInF_slots (off : Nat) (v : Word) (s : State) : (setInF off v s).slots = s.slots := rfl
@[simp] theorem setInF_units (off : Nat) (v : Word) (s : State) : (setInF off v s).units = s.units := rfl
@[simp] theorem setInF_hist (off : Nat) (v : Word) (s : State) : (setInF off v s).hist = s.hist := rfl
@[simp] theorem setInF_xg (off : Nat) (v : Word) (s : State) : (setInF off v s).xg = s.xg := rfl
@[simp] theorem setInF_rc (off : Nat) (v : Word) (s : State) : (setInF off v s).rc = s.rc := rfl
@[simp] theorem setInF_tone (off : Nat) (v : Word) (s : State) : (setInF off v s).tone = s.tone := rfl
@[simp] theorem setInF_toneBox (off : Nat) (v : Word) (s : State) : (setInF off v s).toneBox = s.toneBox := rfl
@[simp] theorem setInF_biasSplit (off : Nat) (v : Word) (s : State) : (setInF off v s).biasSplit = s.biasSplit := rfl
@[simp] theorem setInF_biasOff (off : Nat) (v : Word) (s : State) : (setInF off v s).biasOff = s.biasOff := rfl
@[simp] theorem setInF_decim (off : Nat) (v : Word) (s : State) : (setInF off v s).decim = s.decim := rfl
@[simp] theorem setInF_ax (off : Nat) (v : Word) (s : State) : (setInF off v s).ax = s.ax := rfl
@[simp] theorem setInF_axs (off : Nat) (v : Word) (s : State) : (setInF off v s).axs = s.axs := rfl
@[simp] theorem setInF_se (off : Nat) (v : Word) (s : State) : (setInF off v s).se = s.se := rfl
@[simp] theorem setInF_tk (off : Nat) (v : Word) (s : State) : (setInF off v s).tk = s.tk := rfl
@[simp] theorem setInF_maps (off : Nat) (v : Word) (s : State) : (setInF off v s).maps = s.maps := rfl
@[simp] theorem setInF_gl (off : Nat) (v : Word) (s : State) : (setInF off v s).gl = s.gl := rfl
@[simp] theorem setInF_rh (off : Nat) (v : Word) (s : State) : (setInF off v s).rh = s.rh := rfl
@[simp] theorem setInF_ip (off : Nat) (v : Word) (s : State) : (setInF off v s).ip = s.ip := rfl
@[simp] theorem setInF_sw (off : Nat) (v : Word) (s : State) : (setInF off v s).sw = s.sw := rfl
@[simp] theorem setInF_em (off : Nat) (v : Word) (s : State) : (setInF off v s).em = s.em := rfl
@[simp] theorem setInF_cmp (off : Nat) (v : Word) (s : State) : (setInF off v s).cmp = s.cmp := rfl
@[simp] theorem setInF_tg (off : Nat) (v : Word) (s : State) : (setInF off v s).tg = s.tg := rfl
@[simp] theorem setInF_pg (off : Nat) (v : Word) (s : State) : (setInF off v s).pg = s.pg := rfl
@[simp] theorem setInF_keep (off : Nat) (v : Word) (s : State) : (setInF off v s).keep = s.keep := rfl
@[simp] theorem setInF_fm (off : Nat) (v : Word) (s : State) : (setInF off v s).fm = s.fm := rfl
@[simp] theorem setInF_net (off : Nat) (v : Word) (s : State) : (setInF off v s).net = s.net := rfl
@[simp] theorem setInF_hst (off : Nat) (v : Word) (s : State) : (setInF off v s).hst = s.hst := rfl
@[simp] theorem setInF_twn (off : Nat) (v : Word) (s : State) : (setInF off v s).twn = s.twn := rfl
@[simp] theorem setInF_hrd (off : Nat) (v : Word) (s : State) : (setInF off v s).hrd = s.hrd := rfl
@[simp] theorem setInF_sec (off : Nat) (v : Word) (s : State) : (setInF off v s).sec = s.sec := rfl
@[simp] theorem setInF_flt (off : Nat) (v : Word) (s : State) : (setInF off v s).flt = s.flt := rfl
@[simp] theorem setInF_mon (off : Nat) (v : Word) (s : State) : (setInF off v s).mon = s.mon := rfl
@[simp] theorem setInF_clk (off : Nat) (v : Word) (s : State) : (setInF off v s).clk = s.clk := rfl
@[simp] theorem setInF_rst (off : Nat) (v : Word) (s : State) : (setInF off v s).rst = s.rst := rfl
@[simp] theorem inF_setInF (off : Nat) (v : Word) (s : State) : inF (setInF off v s) off = v := Tbl.get_set_self _ _ _ _
theorem inF_setInF_ne (off : Nat) (v : Word) (s : State) {o : Nat} (h : o ≠ off) : inF (setInF off v s) o = inF s o := Tbl.get_set_ne _ _ _ h
@[simp] theorem setShadow_pending (off : Nat) (v : Word) (s : State) : (setShadow off v s).pending = s.pending := rfl
@[simp] theorem setShadow_freeCtr (off : Nat) (v : Word) (s : State) : (setShadow off v s).freeCtr = s.freeCtr := rfl
@[simp] theorem setShadow_outbox (off : Nat) (v : Word) (s : State) : (setShadow off v s).outbox = s.outbox := rfl
@[simp] theorem setShadow_time (off : Nat) (v : Word) (s : State) : (setShadow off v s).time = s.time := rfl
@[simp] theorem setShadow_inForce (off : Nat) (v : Word) (s : State) : (setShadow off v s).inForce = s.inForce := rfl
@[simp] theorem setShadow_rw (off : Nat) (v : Word) (s : State) : (setShadow off v s).rw = s.rw := rfl
@[simp] theorem setShadow_written (off : Nat) (v : Word) (s : State) : (setShadow off v s).written = s.written := rfl
@[simp] theorem setShadow_commit (off : Nat) (v : Word) (s : State) : (setShadow off v s).commit = s.commit := rfl
@[simp] theorem setShadow_conf (off : Nat) (v : Word) (s : State) : (setShadow off v s).conf = s.conf := rfl
@[simp] theorem setShadow_slots (off : Nat) (v : Word) (s : State) : (setShadow off v s).slots = s.slots := rfl
@[simp] theorem setShadow_units (off : Nat) (v : Word) (s : State) : (setShadow off v s).units = s.units := rfl
@[simp] theorem setShadow_hist (off : Nat) (v : Word) (s : State) : (setShadow off v s).hist = s.hist := rfl
@[simp] theorem setShadow_xg (off : Nat) (v : Word) (s : State) : (setShadow off v s).xg = s.xg := rfl
@[simp] theorem setShadow_rc (off : Nat) (v : Word) (s : State) : (setShadow off v s).rc = s.rc := rfl
@[simp] theorem setShadow_tone (off : Nat) (v : Word) (s : State) : (setShadow off v s).tone = s.tone := rfl
@[simp] theorem setShadow_toneBox (off : Nat) (v : Word) (s : State) : (setShadow off v s).toneBox = s.toneBox := rfl
@[simp] theorem setShadow_biasSplit (off : Nat) (v : Word) (s : State) : (setShadow off v s).biasSplit = s.biasSplit := rfl
@[simp] theorem setShadow_biasOff (off : Nat) (v : Word) (s : State) : (setShadow off v s).biasOff = s.biasOff := rfl
@[simp] theorem setShadow_decim (off : Nat) (v : Word) (s : State) : (setShadow off v s).decim = s.decim := rfl
@[simp] theorem setShadow_ax (off : Nat) (v : Word) (s : State) : (setShadow off v s).ax = s.ax := rfl
@[simp] theorem setShadow_axs (off : Nat) (v : Word) (s : State) : (setShadow off v s).axs = s.axs := rfl
@[simp] theorem setShadow_se (off : Nat) (v : Word) (s : State) : (setShadow off v s).se = s.se := rfl
@[simp] theorem setShadow_tk (off : Nat) (v : Word) (s : State) : (setShadow off v s).tk = s.tk := rfl
@[simp] theorem setShadow_maps (off : Nat) (v : Word) (s : State) : (setShadow off v s).maps = s.maps := rfl
@[simp] theorem setShadow_gl (off : Nat) (v : Word) (s : State) : (setShadow off v s).gl = s.gl := rfl
@[simp] theorem setShadow_rh (off : Nat) (v : Word) (s : State) : (setShadow off v s).rh = s.rh := rfl
@[simp] theorem setShadow_ip (off : Nat) (v : Word) (s : State) : (setShadow off v s).ip = s.ip := rfl
@[simp] theorem setShadow_sw (off : Nat) (v : Word) (s : State) : (setShadow off v s).sw = s.sw := rfl
@[simp] theorem setShadow_em (off : Nat) (v : Word) (s : State) : (setShadow off v s).em = s.em := rfl
@[simp] theorem setShadow_cmp (off : Nat) (v : Word) (s : State) : (setShadow off v s).cmp = s.cmp := rfl
@[simp] theorem setShadow_tg (off : Nat) (v : Word) (s : State) : (setShadow off v s).tg = s.tg := rfl
@[simp] theorem setShadow_pg (off : Nat) (v : Word) (s : State) : (setShadow off v s).pg = s.pg := rfl
@[simp] theorem setShadow_keep (off : Nat) (v : Word) (s : State) : (setShadow off v s).keep = s.keep := rfl
@[simp] theorem setShadow_fm (off : Nat) (v : Word) (s : State) : (setShadow off v s).fm = s.fm := rfl
@[simp] theorem setShadow_net (off : Nat) (v : Word) (s : State) : (setShadow off v s).net = s.net := rfl
@[simp] theorem setShadow_hst (off : Nat) (v : Word) (s : State) : (setShadow off v s).hst = s.hst := rfl
@[simp] theorem setShadow_twn (off : Nat) (v : Word) (s : State) : (setShadow off v s).twn = s.twn := rfl
@[simp] theorem setShadow_hrd (off : Nat) (v : Word) (s : State) : (setShadow off v s).hrd = s.hrd := rfl
@[simp] theorem setShadow_sec (off : Nat) (v : Word) (s : State) : (setShadow off v s).sec = s.sec := rfl
@[simp] theorem setShadow_flt (off : Nat) (v : Word) (s : State) : (setShadow off v s).flt = s.flt := rfl
@[simp] theorem setShadow_mon (off : Nat) (v : Word) (s : State) : (setShadow off v s).mon = s.mon := rfl
@[simp] theorem setShadow_clk (off : Nat) (v : Word) (s : State) : (setShadow off v s).clk = s.clk := rfl
@[simp] theorem setShadow_rst (off : Nat) (v : Word) (s : State) : (setShadow off v s).rst = s.rst := rfl
@[simp] theorem shadowOf_setShadow (off : Nat) (v : Word) (s : State) : shadowOf (setShadow off v s) off = v := Tbl.get_set_self _ _ _ _
theorem shadowOf_setShadow_ne (off : Nat) (v : Word) (s : State) {o : Nat} (h : o ≠ off) : shadowOf (setShadow off v s) o = shadowOf s o := Tbl.get_set_ne _ _ _ h
@[simp] theorem setRw_pending (off : Nat) (v : Word) (s : State) : (setRw off v s).pending = s.pending := rfl
@[simp] theorem setRw_freeCtr (off : Nat) (v : Word) (s : State) : (setRw off v s).freeCtr = s.freeCtr := rfl
@[simp] theorem setRw_outbox (off : Nat) (v : Word) (s : State) : (setRw off v s).outbox = s.outbox := rfl
@[simp] theorem setRw_time (off : Nat) (v : Word) (s : State) : (setRw off v s).time = s.time := rfl
@[simp] theorem setRw_inForce (off : Nat) (v : Word) (s : State) : (setRw off v s).inForce = s.inForce := rfl
@[simp] theorem setRw_shadow (off : Nat) (v : Word) (s : State) : (setRw off v s).shadow = s.shadow := rfl
@[simp] theorem setRw_written (off : Nat) (v : Word) (s : State) : (setRw off v s).written = s.written := rfl
@[simp] theorem setRw_commit (off : Nat) (v : Word) (s : State) : (setRw off v s).commit = s.commit := rfl
@[simp] theorem setRw_conf (off : Nat) (v : Word) (s : State) : (setRw off v s).conf = s.conf := rfl
@[simp] theorem setRw_slots (off : Nat) (v : Word) (s : State) : (setRw off v s).slots = s.slots := rfl
@[simp] theorem setRw_units (off : Nat) (v : Word) (s : State) : (setRw off v s).units = s.units := rfl
@[simp] theorem setRw_hist (off : Nat) (v : Word) (s : State) : (setRw off v s).hist = s.hist := rfl
@[simp] theorem setRw_xg (off : Nat) (v : Word) (s : State) : (setRw off v s).xg = s.xg := rfl
@[simp] theorem setRw_rc (off : Nat) (v : Word) (s : State) : (setRw off v s).rc = s.rc := rfl
@[simp] theorem setRw_tone (off : Nat) (v : Word) (s : State) : (setRw off v s).tone = s.tone := rfl
@[simp] theorem setRw_toneBox (off : Nat) (v : Word) (s : State) : (setRw off v s).toneBox = s.toneBox := rfl
@[simp] theorem setRw_biasSplit (off : Nat) (v : Word) (s : State) : (setRw off v s).biasSplit = s.biasSplit := rfl
@[simp] theorem setRw_biasOff (off : Nat) (v : Word) (s : State) : (setRw off v s).biasOff = s.biasOff := rfl
@[simp] theorem setRw_decim (off : Nat) (v : Word) (s : State) : (setRw off v s).decim = s.decim := rfl
@[simp] theorem setRw_ax (off : Nat) (v : Word) (s : State) : (setRw off v s).ax = s.ax := rfl
@[simp] theorem setRw_axs (off : Nat) (v : Word) (s : State) : (setRw off v s).axs = s.axs := rfl
@[simp] theorem setRw_se (off : Nat) (v : Word) (s : State) : (setRw off v s).se = s.se := rfl
@[simp] theorem setRw_tk (off : Nat) (v : Word) (s : State) : (setRw off v s).tk = s.tk := rfl
@[simp] theorem setRw_maps (off : Nat) (v : Word) (s : State) : (setRw off v s).maps = s.maps := rfl
@[simp] theorem setRw_gl (off : Nat) (v : Word) (s : State) : (setRw off v s).gl = s.gl := rfl
@[simp] theorem setRw_rh (off : Nat) (v : Word) (s : State) : (setRw off v s).rh = s.rh := rfl
@[simp] theorem setRw_ip (off : Nat) (v : Word) (s : State) : (setRw off v s).ip = s.ip := rfl
@[simp] theorem setRw_sw (off : Nat) (v : Word) (s : State) : (setRw off v s).sw = s.sw := rfl
@[simp] theorem setRw_em (off : Nat) (v : Word) (s : State) : (setRw off v s).em = s.em := rfl
@[simp] theorem setRw_cmp (off : Nat) (v : Word) (s : State) : (setRw off v s).cmp = s.cmp := rfl
@[simp] theorem setRw_tg (off : Nat) (v : Word) (s : State) : (setRw off v s).tg = s.tg := rfl
@[simp] theorem setRw_pg (off : Nat) (v : Word) (s : State) : (setRw off v s).pg = s.pg := rfl
@[simp] theorem setRw_keep (off : Nat) (v : Word) (s : State) : (setRw off v s).keep = s.keep := rfl
@[simp] theorem setRw_fm (off : Nat) (v : Word) (s : State) : (setRw off v s).fm = s.fm := rfl
@[simp] theorem setRw_net (off : Nat) (v : Word) (s : State) : (setRw off v s).net = s.net := rfl
@[simp] theorem setRw_hst (off : Nat) (v : Word) (s : State) : (setRw off v s).hst = s.hst := rfl
@[simp] theorem setRw_twn (off : Nat) (v : Word) (s : State) : (setRw off v s).twn = s.twn := rfl
@[simp] theorem setRw_hrd (off : Nat) (v : Word) (s : State) : (setRw off v s).hrd = s.hrd := rfl
@[simp] theorem setRw_sec (off : Nat) (v : Word) (s : State) : (setRw off v s).sec = s.sec := rfl
@[simp] theorem setRw_flt (off : Nat) (v : Word) (s : State) : (setRw off v s).flt = s.flt := rfl
@[simp] theorem setRw_mon (off : Nat) (v : Word) (s : State) : (setRw off v s).mon = s.mon := rfl
@[simp] theorem setRw_clk (off : Nat) (v : Word) (s : State) : (setRw off v s).clk = s.clk := rfl
@[simp] theorem setRw_rst (off : Nat) (v : Word) (s : State) : (setRw off v s).rst = s.rst := rfl
@[simp] theorem rwOf_setRw (off : Nat) (v : Word) (s : State) : rwOf (setRw off v s) off = v := Tbl.get_set_self _ _ _ _
theorem rwOf_setRw_ne (off : Nat) (v : Word) (s : State) {o : Nat} (h : o ≠ off) : rwOf (setRw off v s) o = rwOf s o := Tbl.get_set_ne _ _ _ h

/-! ### Tables of State -/

@[simp] theorem modUnit_pending (u : Nat) (f : UnitSt → UnitSt) (s : State) : (modUnit u f s).pending = s.pending := rfl
@[simp] theorem modUnit_freeCtr (u : Nat) (f : UnitSt → UnitSt) (s : State) : (modUnit u f s).freeCtr = s.freeCtr := rfl
@[simp] theorem modUnit_outbox (u : Nat) (f : UnitSt → UnitSt) (s : State) : (modUnit u f s).outbox = s.outbox := rfl
@[simp] theorem modUnit_time (u : Nat) (f : UnitSt → UnitSt) (s : State) : (modUnit u f s).time = s.time := rfl
@[simp] theorem modUnit_inForce (u : Nat) (f : UnitSt → UnitSt) (s : State) : (modUnit u f s).inForce = s.inForce := rfl
@[simp] theorem modUnit_shadow (u : Nat) (f : UnitSt → UnitSt) (s : State) : (modUnit u f s).shadow = s.shadow := rfl
@[simp] theorem modUnit_rw (u : Nat) (f : UnitSt → UnitSt) (s : State) : (modUnit u f s).rw = s.rw := rfl
@[simp] theorem modUnit_written (u : Nat) (f : UnitSt → UnitSt) (s : State) : (modUnit u f s).written = s.written := rfl
@[simp] theorem modUnit_commit (u : Nat) (f : UnitSt → UnitSt) (s : State) : (modUnit u f s).commit = s.commit := rfl
@[simp] theorem modUnit_conf (u : Nat) (f : UnitSt → UnitSt) (s : State) : (modUnit u f s).conf = s.conf := rfl
@[simp] theorem modUnit_slots (u : Nat) (f : UnitSt → UnitSt) (s : State) : (modUnit u f s).slots = s.slots := rfl
@[simp] theorem modUnit_hist (u : Nat) (f : UnitSt → UnitSt) (s : State) : (modUnit u f s).hist = s.hist := rfl
@[simp] theorem modUnit_xg (u : Nat) (f : UnitSt → UnitSt) (s : State) : (modUnit u f s).xg = s.xg := rfl
@[simp] theorem modUnit_rc (u : Nat) (f : UnitSt → UnitSt) (s : State) : (modUnit u f s).rc = s.rc := rfl
@[simp] theorem modUnit_tone (u : Nat) (f : UnitSt → UnitSt) (s : State) : (modUnit u f s).tone = s.tone := rfl
@[simp] theorem modUnit_toneBox (u : Nat) (f : UnitSt → UnitSt) (s : State) : (modUnit u f s).toneBox = s.toneBox := rfl
@[simp] theorem modUnit_biasSplit (u : Nat) (f : UnitSt → UnitSt) (s : State) : (modUnit u f s).biasSplit = s.biasSplit := rfl
@[simp] theorem modUnit_biasOff (u : Nat) (f : UnitSt → UnitSt) (s : State) : (modUnit u f s).biasOff = s.biasOff := rfl
@[simp] theorem modUnit_decim (u : Nat) (f : UnitSt → UnitSt) (s : State) : (modUnit u f s).decim = s.decim := rfl
@[simp] theorem modUnit_ax (u : Nat) (f : UnitSt → UnitSt) (s : State) : (modUnit u f s).ax = s.ax := rfl
@[simp] theorem modUnit_axs (u : Nat) (f : UnitSt → UnitSt) (s : State) : (modUnit u f s).axs = s.axs := rfl
@[simp] theorem modUnit_se (u : Nat) (f : UnitSt → UnitSt) (s : State) : (modUnit u f s).se = s.se := rfl
@[simp] theorem modUnit_tk (u : Nat) (f : UnitSt → UnitSt) (s : State) : (modUnit u f s).tk = s.tk := rfl
@[simp] theorem modUnit_maps (u : Nat) (f : UnitSt → UnitSt) (s : State) : (modUnit u f s).maps = s.maps := rfl
@[simp] theorem modUnit_gl (u : Nat) (f : UnitSt → UnitSt) (s : State) : (modUnit u f s).gl = s.gl := rfl
@[simp] theorem modUnit_rh (u : Nat) (f : UnitSt → UnitSt) (s : State) : (modUnit u f s).rh = s.rh := rfl
@[simp] theorem modUnit_ip (u : Nat) (f : UnitSt → UnitSt) (s : State) : (modUnit u f s).ip = s.ip := rfl
@[simp] theorem modUnit_sw (u : Nat) (f : UnitSt → UnitSt) (s : State) : (modUnit u f s).sw = s.sw := rfl
@[simp] theorem modUnit_em (u : Nat) (f : UnitSt → UnitSt) (s : State) : (modUnit u f s).em = s.em := rfl
@[simp] theorem modUnit_cmp (u : Nat) (f : UnitSt → UnitSt) (s : State) : (modUnit u f s).cmp = s.cmp := rfl
@[simp] theorem modUnit_tg (u : Nat) (f : UnitSt → UnitSt) (s : State) : (modUnit u f s).tg = s.tg := rfl
@[simp] theorem modUnit_pg (u : Nat) (f : UnitSt → UnitSt) (s : State) : (modUnit u f s).pg = s.pg := rfl
@[simp] theorem modUnit_keep (u : Nat) (f : UnitSt → UnitSt) (s : State) : (modUnit u f s).keep = s.keep := rfl
@[simp] theorem modUnit_fm (u : Nat) (f : UnitSt → UnitSt) (s : State) : (modUnit u f s).fm = s.fm := rfl
@[simp] theorem modUnit_net (u : Nat) (f : UnitSt → UnitSt) (s : State) : (modUnit u f s).net = s.net := rfl
@[simp] theorem modUnit_hst (u : Nat) (f : UnitSt → UnitSt) (s : State) : (modUnit u f s).hst = s.hst := rfl
@[simp] theorem modUnit_twn (u : Nat) (f : UnitSt → UnitSt) (s : State) : (modUnit u f s).twn = s.twn := rfl
@[simp] theorem modUnit_hrd (u : Nat) (f : UnitSt → UnitSt) (s : State) : (modUnit u f s).hrd = s.hrd := rfl
@[simp] theorem modUnit_sec (u : Nat) (f : UnitSt → UnitSt) (s : State) : (modUnit u f s).sec = s.sec := rfl
@[simp] theorem modUnit_flt (u : Nat) (f : UnitSt → UnitSt) (s : State) : (modUnit u f s).flt = s.flt := rfl
@[simp] theorem modUnit_mon (u : Nat) (f : UnitSt → UnitSt) (s : State) : (modUnit u f s).mon = s.mon := rfl
@[simp] theorem modUnit_clk (u : Nat) (f : UnitSt → UnitSt) (s : State) : (modUnit u f s).clk = s.clk := rfl
@[simp] theorem modUnit_rst (u : Nat) (f : UnitSt → UnitSt) (s : State) : (modUnit u f s).rst = s.rst := rfl
@[simp] theorem unitOf_modUnit (u : Nat) (f : UnitSt → UnitSt) (s : State) : unitOf (modUnit u f s) u = f (unitOf s u) := Tbl.get_set_self _ _ _ _
theorem unitOf_modUnit_ne (u : Nat) (f : UnitSt → UnitSt) (s : State) {k' : Nat} (h : k' ≠ u) : unitOf (modUnit u f s) k' = unitOf s k' := Tbl.get_set_ne _ _ _ h
@[simp] theorem modXg_pending (g : Nat) (f : XgSt → XgSt) (s : State) : (modXg g f s).pending = s.pending := rfl
@[simp] theorem modXg_freeCtr (g : Nat) (f : XgSt → XgSt) (s : State) : (modXg g f s).freeCtr = s.freeCtr := rfl
@[simp] theorem modXg_outbox (g : Nat) (f : XgSt → XgSt) (s : State) : (modXg g f s).outbox = s.outbox := rfl
@[simp] theorem modXg_time (g : Nat) (f : XgSt → XgSt) (s : State) : (modXg g f s).time = s.time := rfl
@[simp] theorem modXg_inForce (g : Nat) (f : XgSt → XgSt) (s : State) : (modXg g f s).inForce = s.inForce := rfl
@[simp] theorem modXg_shadow (g : Nat) (f : XgSt → XgSt) (s : State) : (modXg g f s).shadow = s.shadow := rfl
@[simp] theorem modXg_rw (g : Nat) (f : XgSt → XgSt) (s : State) : (modXg g f s).rw = s.rw := rfl
@[simp] theorem modXg_written (g : Nat) (f : XgSt → XgSt) (s : State) : (modXg g f s).written = s.written := rfl
@[simp] theorem modXg_commit (g : Nat) (f : XgSt → XgSt) (s : State) : (modXg g f s).commit = s.commit := rfl
@[simp] theorem modXg_conf (g : Nat) (f : XgSt → XgSt) (s : State) : (modXg g f s).conf = s.conf := rfl
@[simp] theorem modXg_slots (g : Nat) (f : XgSt → XgSt) (s : State) : (modXg g f s).slots = s.slots := rfl
@[simp] theorem modXg_units (g : Nat) (f : XgSt → XgSt) (s : State) : (modXg g f s).units = s.units := rfl
@[simp] theorem modXg_hist (g : Nat) (f : XgSt → XgSt) (s : State) : (modXg g f s).hist = s.hist := rfl
@[simp] theorem modXg_rc (g : Nat) (f : XgSt → XgSt) (s : State) : (modXg g f s).rc = s.rc := rfl
@[simp] theorem modXg_tone (g : Nat) (f : XgSt → XgSt) (s : State) : (modXg g f s).tone = s.tone := rfl
@[simp] theorem modXg_toneBox (g : Nat) (f : XgSt → XgSt) (s : State) : (modXg g f s).toneBox = s.toneBox := rfl
@[simp] theorem modXg_biasSplit (g : Nat) (f : XgSt → XgSt) (s : State) : (modXg g f s).biasSplit = s.biasSplit := rfl
@[simp] theorem modXg_biasOff (g : Nat) (f : XgSt → XgSt) (s : State) : (modXg g f s).biasOff = s.biasOff := rfl
@[simp] theorem modXg_decim (g : Nat) (f : XgSt → XgSt) (s : State) : (modXg g f s).decim = s.decim := rfl
@[simp] theorem modXg_ax (g : Nat) (f : XgSt → XgSt) (s : State) : (modXg g f s).ax = s.ax := rfl
@[simp] theorem modXg_axs (g : Nat) (f : XgSt → XgSt) (s : State) : (modXg g f s).axs = s.axs := rfl
@[simp] theorem modXg_se (g : Nat) (f : XgSt → XgSt) (s : State) : (modXg g f s).se = s.se := rfl
@[simp] theorem modXg_tk (g : Nat) (f : XgSt → XgSt) (s : State) : (modXg g f s).tk = s.tk := rfl
@[simp] theorem modXg_maps (g : Nat) (f : XgSt → XgSt) (s : State) : (modXg g f s).maps = s.maps := rfl
@[simp] theorem modXg_gl (g : Nat) (f : XgSt → XgSt) (s : State) : (modXg g f s).gl = s.gl := rfl
@[simp] theorem modXg_rh (g : Nat) (f : XgSt → XgSt) (s : State) : (modXg g f s).rh = s.rh := rfl
@[simp] theorem modXg_ip (g : Nat) (f : XgSt → XgSt) (s : State) : (modXg g f s).ip = s.ip := rfl
@[simp] theorem modXg_sw (g : Nat) (f : XgSt → XgSt) (s : State) : (modXg g f s).sw = s.sw := rfl
@[simp] theorem modXg_em (g : Nat) (f : XgSt → XgSt) (s : State) : (modXg g f s).em = s.em := rfl
@[simp] theorem modXg_cmp (g : Nat) (f : XgSt → XgSt) (s : State) : (modXg g f s).cmp = s.cmp := rfl
@[simp] theorem modXg_tg (g : Nat) (f : XgSt → XgSt) (s : State) : (modXg g f s).tg = s.tg := rfl
@[simp] theorem modXg_pg (g : Nat) (f : XgSt → XgSt) (s : State) : (modXg g f s).pg = s.pg := rfl
@[simp] theorem modXg_keep (g : Nat) (f : XgSt → XgSt) (s : State) : (modXg g f s).keep = s.keep := rfl
@[simp] theorem modXg_fm (g : Nat) (f : XgSt → XgSt) (s : State) : (modXg g f s).fm = s.fm := rfl
@[simp] theorem modXg_net (g : Nat) (f : XgSt → XgSt) (s : State) : (modXg g f s).net = s.net := rfl
@[simp] theorem modXg_hst (g : Nat) (f : XgSt → XgSt) (s : State) : (modXg g f s).hst = s.hst := rfl
@[simp] theorem modXg_twn (g : Nat) (f : XgSt → XgSt) (s : State) : (modXg g f s).twn = s.twn := rfl
@[simp] theorem modXg_hrd (g : Nat) (f : XgSt → XgSt) (s : State) : (modXg g f s).hrd = s.hrd := rfl
@[simp] theorem modXg_sec (g : Nat) (f : XgSt → XgSt) (s : State) : (modXg g f s).sec = s.sec := rfl
@[simp] theorem modXg_flt (g : Nat) (f : XgSt → XgSt) (s : State) : (modXg g f s).flt = s.flt := rfl
@[simp] theorem modXg_mon (g : Nat) (f : XgSt → XgSt) (s : State) : (modXg g f s).mon = s.mon := rfl
@[simp] theorem modXg_clk (g : Nat) (f : XgSt → XgSt) (s : State) : (modXg g f s).clk = s.clk := rfl
@[simp] theorem modXg_rst (g : Nat) (f : XgSt → XgSt) (s : State) : (modXg g f s).rst = s.rst := rfl
@[simp] theorem xgOf_modXg (g : Nat) (f : XgSt → XgSt) (s : State) : xgOf (modXg g f s) g = f (xgOf s g) := Tbl.get_set_self _ _ _ _
theorem xgOf_modXg_ne (g : Nat) (f : XgSt → XgSt) (s : State) {k' : Nat} (h : k' ≠ g) : xgOf (modXg g f s) k' = xgOf s k' := Tbl.get_set_ne _ _ _ h
@[simp] theorem modRc_pending (c : Nat) (f : RcSt → RcSt) (s : State) : (modRc c f s).pending = s.pending := rfl
@[simp] theorem modRc_freeCtr (c : Nat) (f : RcSt → RcSt) (s : State) : (modRc c f s).freeCtr = s.freeCtr := rfl
@[simp] theorem modRc_outbox (c : Nat) (f : RcSt → RcSt) (s : State) : (modRc c f s).outbox = s.outbox := rfl
@[simp] theorem modRc_time (c : Nat) (f : RcSt → RcSt) (s : State) : (modRc c f s).time = s.time := rfl
@[simp] theorem modRc_inForce (c : Nat) (f : RcSt → RcSt) (s : State) : (modRc c f s).inForce = s.inForce := rfl
@[simp] theorem modRc_shadow (c : Nat) (f : RcSt → RcSt) (s : State) : (modRc c f s).shadow = s.shadow := rfl
@[simp] theorem modRc_rw (c : Nat) (f : RcSt → RcSt) (s : State) : (modRc c f s).rw = s.rw := rfl
@[simp] theorem modRc_written (c : Nat) (f : RcSt → RcSt) (s : State) : (modRc c f s).written = s.written := rfl
@[simp] theorem modRc_commit (c : Nat) (f : RcSt → RcSt) (s : State) : (modRc c f s).commit = s.commit := rfl
@[simp] theorem modRc_conf (c : Nat) (f : RcSt → RcSt) (s : State) : (modRc c f s).conf = s.conf := rfl
@[simp] theorem modRc_slots (c : Nat) (f : RcSt → RcSt) (s : State) : (modRc c f s).slots = s.slots := rfl
@[simp] theorem modRc_units (c : Nat) (f : RcSt → RcSt) (s : State) : (modRc c f s).units = s.units := rfl
@[simp] theorem modRc_hist (c : Nat) (f : RcSt → RcSt) (s : State) : (modRc c f s).hist = s.hist := rfl
@[simp] theorem modRc_xg (c : Nat) (f : RcSt → RcSt) (s : State) : (modRc c f s).xg = s.xg := rfl
@[simp] theorem modRc_tone (c : Nat) (f : RcSt → RcSt) (s : State) : (modRc c f s).tone = s.tone := rfl
@[simp] theorem modRc_toneBox (c : Nat) (f : RcSt → RcSt) (s : State) : (modRc c f s).toneBox = s.toneBox := rfl
@[simp] theorem modRc_biasSplit (c : Nat) (f : RcSt → RcSt) (s : State) : (modRc c f s).biasSplit = s.biasSplit := rfl
@[simp] theorem modRc_biasOff (c : Nat) (f : RcSt → RcSt) (s : State) : (modRc c f s).biasOff = s.biasOff := rfl
@[simp] theorem modRc_decim (c : Nat) (f : RcSt → RcSt) (s : State) : (modRc c f s).decim = s.decim := rfl
@[simp] theorem modRc_ax (c : Nat) (f : RcSt → RcSt) (s : State) : (modRc c f s).ax = s.ax := rfl
@[simp] theorem modRc_axs (c : Nat) (f : RcSt → RcSt) (s : State) : (modRc c f s).axs = s.axs := rfl
@[simp] theorem modRc_se (c : Nat) (f : RcSt → RcSt) (s : State) : (modRc c f s).se = s.se := rfl
@[simp] theorem modRc_tk (c : Nat) (f : RcSt → RcSt) (s : State) : (modRc c f s).tk = s.tk := rfl
@[simp] theorem modRc_maps (c : Nat) (f : RcSt → RcSt) (s : State) : (modRc c f s).maps = s.maps := rfl
@[simp] theorem modRc_gl (c : Nat) (f : RcSt → RcSt) (s : State) : (modRc c f s).gl = s.gl := rfl
@[simp] theorem modRc_rh (c : Nat) (f : RcSt → RcSt) (s : State) : (modRc c f s).rh = s.rh := rfl
@[simp] theorem modRc_ip (c : Nat) (f : RcSt → RcSt) (s : State) : (modRc c f s).ip = s.ip := rfl
@[simp] theorem modRc_sw (c : Nat) (f : RcSt → RcSt) (s : State) : (modRc c f s).sw = s.sw := rfl
@[simp] theorem modRc_em (c : Nat) (f : RcSt → RcSt) (s : State) : (modRc c f s).em = s.em := rfl
@[simp] theorem modRc_cmp (c : Nat) (f : RcSt → RcSt) (s : State) : (modRc c f s).cmp = s.cmp := rfl
@[simp] theorem modRc_tg (c : Nat) (f : RcSt → RcSt) (s : State) : (modRc c f s).tg = s.tg := rfl
@[simp] theorem modRc_pg (c : Nat) (f : RcSt → RcSt) (s : State) : (modRc c f s).pg = s.pg := rfl
@[simp] theorem modRc_keep (c : Nat) (f : RcSt → RcSt) (s : State) : (modRc c f s).keep = s.keep := rfl
@[simp] theorem modRc_fm (c : Nat) (f : RcSt → RcSt) (s : State) : (modRc c f s).fm = s.fm := rfl
@[simp] theorem modRc_net (c : Nat) (f : RcSt → RcSt) (s : State) : (modRc c f s).net = s.net := rfl
@[simp] theorem modRc_hst (c : Nat) (f : RcSt → RcSt) (s : State) : (modRc c f s).hst = s.hst := rfl
@[simp] theorem modRc_twn (c : Nat) (f : RcSt → RcSt) (s : State) : (modRc c f s).twn = s.twn := rfl
@[simp] theorem modRc_hrd (c : Nat) (f : RcSt → RcSt) (s : State) : (modRc c f s).hrd = s.hrd := rfl
@[simp] theorem modRc_sec (c : Nat) (f : RcSt → RcSt) (s : State) : (modRc c f s).sec = s.sec := rfl
@[simp] theorem modRc_flt (c : Nat) (f : RcSt → RcSt) (s : State) : (modRc c f s).flt = s.flt := rfl
@[simp] theorem modRc_mon (c : Nat) (f : RcSt → RcSt) (s : State) : (modRc c f s).mon = s.mon := rfl
@[simp] theorem modRc_clk (c : Nat) (f : RcSt → RcSt) (s : State) : (modRc c f s).clk = s.clk := rfl
@[simp] theorem modRc_rst (c : Nat) (f : RcSt → RcSt) (s : State) : (modRc c f s).rst = s.rst := rfl
@[simp] theorem rcOf_modRc (c : Nat) (f : RcSt → RcSt) (s : State) : rcOf (modRc c f s) c = f (rcOf s c) := Tbl.get_set_self _ _ _ _
theorem rcOf_modRc_ne (c : Nat) (f : RcSt → RcSt) (s : State) {k' : Nat} (h : k' ≠ c) : rcOf (modRc c f s) k' = rcOf s k' := Tbl.get_set_ne _ _ _ h
@[simp] theorem modTone_pending (g : Nat) (f : ToneSt → ToneSt) (s : State) : (modTone g f s).pending = s.pending := rfl
@[simp] theorem modTone_freeCtr (g : Nat) (f : ToneSt → ToneSt) (s : State) : (modTone g f s).freeCtr = s.freeCtr := rfl
@[simp] theorem modTone_outbox (g : Nat) (f : ToneSt → ToneSt) (s : State) : (modTone g f s).outbox = s.outbox := rfl
@[simp] theorem modTone_time (g : Nat) (f : ToneSt → ToneSt) (s : State) : (modTone g f s).time = s.time := rfl
@[simp] theorem modTone_inForce (g : Nat) (f : ToneSt → ToneSt) (s : State) : (modTone g f s).inForce = s.inForce := rfl
@[simp] theorem modTone_shadow (g : Nat) (f : ToneSt → ToneSt) (s : State) : (modTone g f s).shadow = s.shadow := rfl
@[simp] theorem modTone_rw (g : Nat) (f : ToneSt → ToneSt) (s : State) : (modTone g f s).rw = s.rw := rfl
@[simp] theorem modTone_written (g : Nat) (f : ToneSt → ToneSt) (s : State) : (modTone g f s).written = s.written := rfl
@[simp] theorem modTone_commit (g : Nat) (f : ToneSt → ToneSt) (s : State) : (modTone g f s).commit = s.commit := rfl
@[simp] theorem modTone_conf (g : Nat) (f : ToneSt → ToneSt) (s : State) : (modTone g f s).conf = s.conf := rfl
@[simp] theorem modTone_slots (g : Nat) (f : ToneSt → ToneSt) (s : State) : (modTone g f s).slots = s.slots := rfl
@[simp] theorem modTone_units (g : Nat) (f : ToneSt → ToneSt) (s : State) : (modTone g f s).units = s.units := rfl
@[simp] theorem modTone_hist (g : Nat) (f : ToneSt → ToneSt) (s : State) : (modTone g f s).hist = s.hist := rfl
@[simp] theorem modTone_xg (g : Nat) (f : ToneSt → ToneSt) (s : State) : (modTone g f s).xg = s.xg := rfl
@[simp] theorem modTone_rc (g : Nat) (f : ToneSt → ToneSt) (s : State) : (modTone g f s).rc = s.rc := rfl
@[simp] theorem modTone_toneBox (g : Nat) (f : ToneSt → ToneSt) (s : State) : (modTone g f s).toneBox = s.toneBox := rfl
@[simp] theorem modTone_biasSplit (g : Nat) (f : ToneSt → ToneSt) (s : State) : (modTone g f s).biasSplit = s.biasSplit := rfl
@[simp] theorem modTone_biasOff (g : Nat) (f : ToneSt → ToneSt) (s : State) : (modTone g f s).biasOff = s.biasOff := rfl
@[simp] theorem modTone_decim (g : Nat) (f : ToneSt → ToneSt) (s : State) : (modTone g f s).decim = s.decim := rfl
@[simp] theorem modTone_ax (g : Nat) (f : ToneSt → ToneSt) (s : State) : (modTone g f s).ax = s.ax := rfl
@[simp] theorem modTone_axs (g : Nat) (f : ToneSt → ToneSt) (s : State) : (modTone g f s).axs = s.axs := rfl
@[simp] theorem modTone_se (g : Nat) (f : ToneSt → ToneSt) (s : State) : (modTone g f s).se = s.se := rfl
@[simp] theorem modTone_tk (g : Nat) (f : ToneSt → ToneSt) (s : State) : (modTone g f s).tk = s.tk := rfl
@[simp] theorem modTone_maps (g : Nat) (f : ToneSt → ToneSt) (s : State) : (modTone g f s).maps = s.maps := rfl
@[simp] theorem modTone_gl (g : Nat) (f : ToneSt → ToneSt) (s : State) : (modTone g f s).gl = s.gl := rfl
@[simp] theorem modTone_rh (g : Nat) (f : ToneSt → ToneSt) (s : State) : (modTone g f s).rh = s.rh := rfl
@[simp] theorem modTone_ip (g : Nat) (f : ToneSt → ToneSt) (s : State) : (modTone g f s).ip = s.ip := rfl
@[simp] theorem modTone_sw (g : Nat) (f : ToneSt → ToneSt) (s : State) : (modTone g f s).sw = s.sw := rfl
@[simp] theorem modTone_em (g : Nat) (f : ToneSt → ToneSt) (s : State) : (modTone g f s).em = s.em := rfl
@[simp] theorem modTone_cmp (g : Nat) (f : ToneSt → ToneSt) (s : State) : (modTone g f s).cmp = s.cmp := rfl
@[simp] theorem modTone_tg (g : Nat) (f : ToneSt → ToneSt) (s : State) : (modTone g f s).tg = s.tg := rfl
@[simp] theorem modTone_pg (g : Nat) (f : ToneSt → ToneSt) (s : State) : (modTone g f s).pg = s.pg := rfl
@[simp] theorem modTone_keep (g : Nat) (f : ToneSt → ToneSt) (s : State) : (modTone g f s).keep = s.keep := rfl
@[simp] theorem modTone_fm (g : Nat) (f : ToneSt → ToneSt) (s : State) : (modTone g f s).fm = s.fm := rfl
@[simp] theorem modTone_net (g : Nat) (f : ToneSt → ToneSt) (s : State) : (modTone g f s).net = s.net := rfl
@[simp] theorem modTone_hst (g : Nat) (f : ToneSt → ToneSt) (s : State) : (modTone g f s).hst = s.hst := rfl
@[simp] theorem modTone_twn (g : Nat) (f : ToneSt → ToneSt) (s : State) : (modTone g f s).twn = s.twn := rfl
@[simp] theorem modTone_hrd (g : Nat) (f : ToneSt → ToneSt) (s : State) : (modTone g f s).hrd = s.hrd := rfl
@[simp] theorem modTone_sec (g : Nat) (f : ToneSt → ToneSt) (s : State) : (modTone g f s).sec = s.sec := rfl
@[simp] theorem modTone_flt (g : Nat) (f : ToneSt → ToneSt) (s : State) : (modTone g f s).flt = s.flt := rfl
@[simp] theorem modTone_mon (g : Nat) (f : ToneSt → ToneSt) (s : State) : (modTone g f s).mon = s.mon := rfl
@[simp] theorem modTone_clk (g : Nat) (f : ToneSt → ToneSt) (s : State) : (modTone g f s).clk = s.clk := rfl
@[simp] theorem modTone_rst (g : Nat) (f : ToneSt → ToneSt) (s : State) : (modTone g f s).rst = s.rst := rfl
@[simp] theorem toneOf_modTone (g : Nat) (f : ToneSt → ToneSt) (s : State) : toneOf (modTone g f s) g = f (toneOf s g) := Tbl.get_set_self _ _ _ _
theorem toneOf_modTone_ne (g : Nat) (f : ToneSt → ToneSt) (s : State) {k' : Nat} (h : k' ≠ g) : toneOf (modTone g f s) k' = toneOf s k' := Tbl.get_set_ne _ _ _ h
@[simp] theorem modAx_pending (a : Nat) (f : AxSt → AxSt) (s : State) : (modAx a f s).pending = s.pending := rfl
@[simp] theorem modAx_freeCtr (a : Nat) (f : AxSt → AxSt) (s : State) : (modAx a f s).freeCtr = s.freeCtr := rfl
@[simp] theorem modAx_outbox (a : Nat) (f : AxSt → AxSt) (s : State) : (modAx a f s).outbox = s.outbox := rfl
@[simp] theorem modAx_time (a : Nat) (f : AxSt → AxSt) (s : State) : (modAx a f s).time = s.time := rfl
@[simp] theorem modAx_inForce (a : Nat) (f : AxSt → AxSt) (s : State) : (modAx a f s).inForce = s.inForce := rfl
@[simp] theorem modAx_shadow (a : Nat) (f : AxSt → AxSt) (s : State) : (modAx a f s).shadow = s.shadow := rfl
@[simp] theorem modAx_rw (a : Nat) (f : AxSt → AxSt) (s : State) : (modAx a f s).rw = s.rw := rfl
@[simp] theorem modAx_written (a : Nat) (f : AxSt → AxSt) (s : State) : (modAx a f s).written = s.written := rfl
@[simp] theorem modAx_commit (a : Nat) (f : AxSt → AxSt) (s : State) : (modAx a f s).commit = s.commit := rfl
@[simp] theorem modAx_conf (a : Nat) (f : AxSt → AxSt) (s : State) : (modAx a f s).conf = s.conf := rfl
@[simp] theorem modAx_slots (a : Nat) (f : AxSt → AxSt) (s : State) : (modAx a f s).slots = s.slots := rfl
@[simp] theorem modAx_units (a : Nat) (f : AxSt → AxSt) (s : State) : (modAx a f s).units = s.units := rfl
@[simp] theorem modAx_hist (a : Nat) (f : AxSt → AxSt) (s : State) : (modAx a f s).hist = s.hist := rfl
@[simp] theorem modAx_xg (a : Nat) (f : AxSt → AxSt) (s : State) : (modAx a f s).xg = s.xg := rfl
@[simp] theorem modAx_rc (a : Nat) (f : AxSt → AxSt) (s : State) : (modAx a f s).rc = s.rc := rfl
@[simp] theorem modAx_tone (a : Nat) (f : AxSt → AxSt) (s : State) : (modAx a f s).tone = s.tone := rfl
@[simp] theorem modAx_toneBox (a : Nat) (f : AxSt → AxSt) (s : State) : (modAx a f s).toneBox = s.toneBox := rfl
@[simp] theorem modAx_biasSplit (a : Nat) (f : AxSt → AxSt) (s : State) : (modAx a f s).biasSplit = s.biasSplit := rfl
@[simp] theorem modAx_biasOff (a : Nat) (f : AxSt → AxSt) (s : State) : (modAx a f s).biasOff = s.biasOff := rfl
@[simp] theorem modAx_decim (a : Nat) (f : AxSt → AxSt) (s : State) : (modAx a f s).decim = s.decim := rfl
@[simp] theorem modAx_axs (a : Nat) (f : AxSt → AxSt) (s : State) : (modAx a f s).axs = s.axs := rfl
@[simp] theorem modAx_se (a : Nat) (f : AxSt → AxSt) (s : State) : (modAx a f s).se = s.se := rfl
@[simp] theorem modAx_tk (a : Nat) (f : AxSt → AxSt) (s : State) : (modAx a f s).tk = s.tk := rfl
@[simp] theorem modAx_maps (a : Nat) (f : AxSt → AxSt) (s : State) : (modAx a f s).maps = s.maps := rfl
@[simp] theorem modAx_gl (a : Nat) (f : AxSt → AxSt) (s : State) : (modAx a f s).gl = s.gl := rfl
@[simp] theorem modAx_rh (a : Nat) (f : AxSt → AxSt) (s : State) : (modAx a f s).rh = s.rh := rfl
@[simp] theorem modAx_ip (a : Nat) (f : AxSt → AxSt) (s : State) : (modAx a f s).ip = s.ip := rfl
@[simp] theorem modAx_sw (a : Nat) (f : AxSt → AxSt) (s : State) : (modAx a f s).sw = s.sw := rfl
@[simp] theorem modAx_em (a : Nat) (f : AxSt → AxSt) (s : State) : (modAx a f s).em = s.em := rfl
@[simp] theorem modAx_cmp (a : Nat) (f : AxSt → AxSt) (s : State) : (modAx a f s).cmp = s.cmp := rfl
@[simp] theorem modAx_tg (a : Nat) (f : AxSt → AxSt) (s : State) : (modAx a f s).tg = s.tg := rfl
@[simp] theorem modAx_pg (a : Nat) (f : AxSt → AxSt) (s : State) : (modAx a f s).pg = s.pg := rfl
@[simp] theorem modAx_keep (a : Nat) (f : AxSt → AxSt) (s : State) : (modAx a f s).keep = s.keep := rfl
@[simp] theorem modAx_fm (a : Nat) (f : AxSt → AxSt) (s : State) : (modAx a f s).fm = s.fm := rfl
@[simp] theorem modAx_net (a : Nat) (f : AxSt → AxSt) (s : State) : (modAx a f s).net = s.net := rfl
@[simp] theorem modAx_hst (a : Nat) (f : AxSt → AxSt) (s : State) : (modAx a f s).hst = s.hst := rfl
@[simp] theorem modAx_twn (a : Nat) (f : AxSt → AxSt) (s : State) : (modAx a f s).twn = s.twn := rfl
@[simp] theorem modAx_hrd (a : Nat) (f : AxSt → AxSt) (s : State) : (modAx a f s).hrd = s.hrd := rfl
@[simp] theorem modAx_sec (a : Nat) (f : AxSt → AxSt) (s : State) : (modAx a f s).sec = s.sec := rfl
@[simp] theorem modAx_flt (a : Nat) (f : AxSt → AxSt) (s : State) : (modAx a f s).flt = s.flt := rfl
@[simp] theorem modAx_mon (a : Nat) (f : AxSt → AxSt) (s : State) : (modAx a f s).mon = s.mon := rfl
@[simp] theorem modAx_clk (a : Nat) (f : AxSt → AxSt) (s : State) : (modAx a f s).clk = s.clk := rfl
@[simp] theorem modAx_rst (a : Nat) (f : AxSt → AxSt) (s : State) : (modAx a f s).rst = s.rst := rfl
@[simp] theorem axOf_modAx (a : Nat) (f : AxSt → AxSt) (s : State) : axOf (modAx a f s) a = f (axOf s a) := Tbl.get_set_self _ _ _ _
theorem axOf_modAx_ne (a : Nat) (f : AxSt → AxSt) (s : State) {k' : Nat} (h : k' ≠ a) : axOf (modAx a f s) k' = axOf s k' := Tbl.get_set_ne _ _ _ h
@[simp] theorem modAxs_pending (a : Nat) (f : AxsSt → AxsSt) (s : State) : (modAxs a f s).pending = s.pending := rfl
@[simp] theorem modAxs_freeCtr (a : Nat) (f : AxsSt → AxsSt) (s : State) : (modAxs a f s).freeCtr = s.freeCtr := rfl
@[simp] theorem modAxs_outbox (a : Nat) (f : AxsSt → AxsSt) (s : State) : (modAxs a f s).outbox = s.outbox := rfl
@[simp] theorem modAxs_time (a : Nat) (f : AxsSt → AxsSt) (s : State) : (modAxs a f s).time = s.time := rfl
@[simp] theorem modAxs_inForce (a : Nat) (f : AxsSt → AxsSt) (s : State) : (modAxs a f s).inForce = s.inForce := rfl
@[simp] theorem modAxs_shadow (a : Nat) (f : AxsSt → AxsSt) (s : State) : (modAxs a f s).shadow = s.shadow := rfl
@[simp] theorem modAxs_rw (a : Nat) (f : AxsSt → AxsSt) (s : State) : (modAxs a f s).rw = s.rw := rfl
@[simp] theorem modAxs_written (a : Nat) (f : AxsSt → AxsSt) (s : State) : (modAxs a f s).written = s.written := rfl
@[simp] theorem modAxs_commit (a : Nat) (f : AxsSt → AxsSt) (s : State) : (modAxs a f s).commit = s.commit := rfl
@[simp] theorem modAxs_conf (a : Nat) (f : AxsSt → AxsSt) (s : State) : (modAxs a f s).conf = s.conf := rfl
@[simp] theorem modAxs_slots (a : Nat) (f : AxsSt → AxsSt) (s : State) : (modAxs a f s).slots = s.slots := rfl
@[simp] theorem modAxs_units (a : Nat) (f : AxsSt → AxsSt) (s : State) : (modAxs a f s).units = s.units := rfl
@[simp] theorem modAxs_hist (a : Nat) (f : AxsSt → AxsSt) (s : State) : (modAxs a f s).hist = s.hist := rfl
@[simp] theorem modAxs_xg (a : Nat) (f : AxsSt → AxsSt) (s : State) : (modAxs a f s).xg = s.xg := rfl
@[simp] theorem modAxs_rc (a : Nat) (f : AxsSt → AxsSt) (s : State) : (modAxs a f s).rc = s.rc := rfl
@[simp] theorem modAxs_tone (a : Nat) (f : AxsSt → AxsSt) (s : State) : (modAxs a f s).tone = s.tone := rfl
@[simp] theorem modAxs_toneBox (a : Nat) (f : AxsSt → AxsSt) (s : State) : (modAxs a f s).toneBox = s.toneBox := rfl
@[simp] theorem modAxs_biasSplit (a : Nat) (f : AxsSt → AxsSt) (s : State) : (modAxs a f s).biasSplit = s.biasSplit := rfl
@[simp] theorem modAxs_biasOff (a : Nat) (f : AxsSt → AxsSt) (s : State) : (modAxs a f s).biasOff = s.biasOff := rfl
@[simp] theorem modAxs_decim (a : Nat) (f : AxsSt → AxsSt) (s : State) : (modAxs a f s).decim = s.decim := rfl
@[simp] theorem modAxs_ax (a : Nat) (f : AxsSt → AxsSt) (s : State) : (modAxs a f s).ax = s.ax := rfl
@[simp] theorem modAxs_se (a : Nat) (f : AxsSt → AxsSt) (s : State) : (modAxs a f s).se = s.se := rfl
@[simp] theorem modAxs_tk (a : Nat) (f : AxsSt → AxsSt) (s : State) : (modAxs a f s).tk = s.tk := rfl
@[simp] theorem modAxs_maps (a : Nat) (f : AxsSt → AxsSt) (s : State) : (modAxs a f s).maps = s.maps := rfl
@[simp] theorem modAxs_gl (a : Nat) (f : AxsSt → AxsSt) (s : State) : (modAxs a f s).gl = s.gl := rfl
@[simp] theorem modAxs_rh (a : Nat) (f : AxsSt → AxsSt) (s : State) : (modAxs a f s).rh = s.rh := rfl
@[simp] theorem modAxs_ip (a : Nat) (f : AxsSt → AxsSt) (s : State) : (modAxs a f s).ip = s.ip := rfl
@[simp] theorem modAxs_sw (a : Nat) (f : AxsSt → AxsSt) (s : State) : (modAxs a f s).sw = s.sw := rfl
@[simp] theorem modAxs_em (a : Nat) (f : AxsSt → AxsSt) (s : State) : (modAxs a f s).em = s.em := rfl
@[simp] theorem modAxs_cmp (a : Nat) (f : AxsSt → AxsSt) (s : State) : (modAxs a f s).cmp = s.cmp := rfl
@[simp] theorem modAxs_tg (a : Nat) (f : AxsSt → AxsSt) (s : State) : (modAxs a f s).tg = s.tg := rfl
@[simp] theorem modAxs_pg (a : Nat) (f : AxsSt → AxsSt) (s : State) : (modAxs a f s).pg = s.pg := rfl
@[simp] theorem modAxs_keep (a : Nat) (f : AxsSt → AxsSt) (s : State) : (modAxs a f s).keep = s.keep := rfl
@[simp] theorem modAxs_fm (a : Nat) (f : AxsSt → AxsSt) (s : State) : (modAxs a f s).fm = s.fm := rfl
@[simp] theorem modAxs_net (a : Nat) (f : AxsSt → AxsSt) (s : State) : (modAxs a f s).net = s.net := rfl
@[simp] theorem modAxs_hst (a : Nat) (f : AxsSt → AxsSt) (s : State) : (modAxs a f s).hst = s.hst := rfl
@[simp] theorem modAxs_twn (a : Nat) (f : AxsSt → AxsSt) (s : State) : (modAxs a f s).twn = s.twn := rfl
@[simp] theorem modAxs_hrd (a : Nat) (f : AxsSt → AxsSt) (s : State) : (modAxs a f s).hrd = s.hrd := rfl
@[simp] theorem modAxs_sec (a : Nat) (f : AxsSt → AxsSt) (s : State) : (modAxs a f s).sec = s.sec := rfl
@[simp] theorem modAxs_flt (a : Nat) (f : AxsSt → AxsSt) (s : State) : (modAxs a f s).flt = s.flt := rfl
@[simp] theorem modAxs_mon (a : Nat) (f : AxsSt → AxsSt) (s : State) : (modAxs a f s).mon = s.mon := rfl
@[simp] theorem modAxs_clk (a : Nat) (f : AxsSt → AxsSt) (s : State) : (modAxs a f s).clk = s.clk := rfl
@[simp] theorem modAxs_rst (a : Nat) (f : AxsSt → AxsSt) (s : State) : (modAxs a f s).rst = s.rst := rfl
@[simp] theorem axsOf_modAxs (a : Nat) (f : AxsSt → AxsSt) (s : State) : axsOf (modAxs a f s) a = f (axsOf s a) := Tbl.get_set_self _ _ _ _
theorem axsOf_modAxs_ne (a : Nat) (f : AxsSt → AxsSt) (s : State) {k' : Nat} (h : k' ≠ a) : axsOf (modAxs a f s) k' = axsOf s k' := Tbl.get_set_ne _ _ _ h
@[simp] theorem modSe_pending (e : Nat) (f : SeSt → SeSt) (s : State) : (modSe e f s).pending = s.pending := rfl
@[simp] theorem modSe_freeCtr (e : Nat) (f : SeSt → SeSt) (s : State) : (modSe e f s).freeCtr = s.freeCtr := rfl
@[simp] theorem modSe_outbox (e : Nat) (f : SeSt → SeSt) (s : State) : (modSe e f s).outbox = s.outbox := rfl
@[simp] theorem modSe_time (e : Nat) (f : SeSt → SeSt) (s : State) : (modSe e f s).time = s.time := rfl
@[simp] theorem modSe_inForce (e : Nat) (f : SeSt → SeSt) (s : State) : (modSe e f s).inForce = s.inForce := rfl
@[simp] theorem modSe_shadow (e : Nat) (f : SeSt → SeSt) (s : State) : (modSe e f s).shadow = s.shadow := rfl
@[simp] theorem modSe_rw (e : Nat) (f : SeSt → SeSt) (s : State) : (modSe e f s).rw = s.rw := rfl
@[simp] theorem modSe_written (e : Nat) (f : SeSt → SeSt) (s : State) : (modSe e f s).written = s.written := rfl
@[simp] theorem modSe_commit (e : Nat) (f : SeSt → SeSt) (s : State) : (modSe e f s).commit = s.commit := rfl
@[simp] theorem modSe_conf (e : Nat) (f : SeSt → SeSt) (s : State) : (modSe e f s).conf = s.conf := rfl
@[simp] theorem modSe_slots (e : Nat) (f : SeSt → SeSt) (s : State) : (modSe e f s).slots = s.slots := rfl
@[simp] theorem modSe_units (e : Nat) (f : SeSt → SeSt) (s : State) : (modSe e f s).units = s.units := rfl
@[simp] theorem modSe_hist (e : Nat) (f : SeSt → SeSt) (s : State) : (modSe e f s).hist = s.hist := rfl
@[simp] theorem modSe_xg (e : Nat) (f : SeSt → SeSt) (s : State) : (modSe e f s).xg = s.xg := rfl
@[simp] theorem modSe_rc (e : Nat) (f : SeSt → SeSt) (s : State) : (modSe e f s).rc = s.rc := rfl
@[simp] theorem modSe_tone (e : Nat) (f : SeSt → SeSt) (s : State) : (modSe e f s).tone = s.tone := rfl
@[simp] theorem modSe_toneBox (e : Nat) (f : SeSt → SeSt) (s : State) : (modSe e f s).toneBox = s.toneBox := rfl
@[simp] theorem modSe_biasSplit (e : Nat) (f : SeSt → SeSt) (s : State) : (modSe e f s).biasSplit = s.biasSplit := rfl
@[simp] theorem modSe_biasOff (e : Nat) (f : SeSt → SeSt) (s : State) : (modSe e f s).biasOff = s.biasOff := rfl
@[simp] theorem modSe_decim (e : Nat) (f : SeSt → SeSt) (s : State) : (modSe e f s).decim = s.decim := rfl
@[simp] theorem modSe_ax (e : Nat) (f : SeSt → SeSt) (s : State) : (modSe e f s).ax = s.ax := rfl
@[simp] theorem modSe_axs (e : Nat) (f : SeSt → SeSt) (s : State) : (modSe e f s).axs = s.axs := rfl
@[simp] theorem modSe_tk (e : Nat) (f : SeSt → SeSt) (s : State) : (modSe e f s).tk = s.tk := rfl
@[simp] theorem modSe_maps (e : Nat) (f : SeSt → SeSt) (s : State) : (modSe e f s).maps = s.maps := rfl
@[simp] theorem modSe_gl (e : Nat) (f : SeSt → SeSt) (s : State) : (modSe e f s).gl = s.gl := rfl
@[simp] theorem modSe_rh (e : Nat) (f : SeSt → SeSt) (s : State) : (modSe e f s).rh = s.rh := rfl
@[simp] theorem modSe_ip (e : Nat) (f : SeSt → SeSt) (s : State) : (modSe e f s).ip = s.ip := rfl
@[simp] theorem modSe_sw (e : Nat) (f : SeSt → SeSt) (s : State) : (modSe e f s).sw = s.sw := rfl
@[simp] theorem modSe_em (e : Nat) (f : SeSt → SeSt) (s : State) : (modSe e f s).em = s.em := rfl
@[simp] theorem modSe_cmp (e : Nat) (f : SeSt → SeSt) (s : State) : (modSe e f s).cmp = s.cmp := rfl
@[simp] theorem modSe_tg (e : Nat) (f : SeSt → SeSt) (s : State) : (modSe e f s).tg = s.tg := rfl
@[simp] theorem modSe_pg (e : Nat) (f : SeSt → SeSt) (s : State) : (modSe e f s).pg = s.pg := rfl
@[simp] theorem modSe_keep (e : Nat) (f : SeSt → SeSt) (s : State) : (modSe e f s).keep = s.keep := rfl
@[simp] theorem modSe_fm (e : Nat) (f : SeSt → SeSt) (s : State) : (modSe e f s).fm = s.fm := rfl
@[simp] theorem modSe_net (e : Nat) (f : SeSt → SeSt) (s : State) : (modSe e f s).net = s.net := rfl
@[simp] theorem modSe_hst (e : Nat) (f : SeSt → SeSt) (s : State) : (modSe e f s).hst = s.hst := rfl
@[simp] theorem modSe_twn (e : Nat) (f : SeSt → SeSt) (s : State) : (modSe e f s).twn = s.twn := rfl
@[simp] theorem modSe_hrd (e : Nat) (f : SeSt → SeSt) (s : State) : (modSe e f s).hrd = s.hrd := rfl
@[simp] theorem modSe_sec (e : Nat) (f : SeSt → SeSt) (s : State) : (modSe e f s).sec = s.sec := rfl
@[simp] theorem modSe_flt (e : Nat) (f : SeSt → SeSt) (s : State) : (modSe e f s).flt = s.flt := rfl
@[simp] theorem modSe_mon (e : Nat) (f : SeSt → SeSt) (s : State) : (modSe e f s).mon = s.mon := rfl
@[simp] theorem modSe_clk (e : Nat) (f : SeSt → SeSt) (s : State) : (modSe e f s).clk = s.clk := rfl
@[simp] theorem modSe_rst (e : Nat) (f : SeSt → SeSt) (s : State) : (modSe e f s).rst = s.rst := rfl
@[simp] theorem seOf_modSe (e : Nat) (f : SeSt → SeSt) (s : State) : seOf (modSe e f s) e = f (seOf s e) := Tbl.get_set_self _ _ _ _
theorem seOf_modSe_ne (e : Nat) (f : SeSt → SeSt) (s : State) {k' : Nat} (h : k' ≠ e) : seOf (modSe e f s) k' = seOf s k' := Tbl.get_set_ne _ _ _ h
@[simp] theorem modTk_pending (c : Nat) (f : TkSt → TkSt) (s : State) : (modTk c f s).pending = s.pending := rfl
@[simp] theorem modTk_freeCtr (c : Nat) (f : TkSt → TkSt) (s : State) : (modTk c f s).freeCtr = s.freeCtr := rfl
@[simp] theorem modTk_outbox (c : Nat) (f : TkSt → TkSt) (s : State) : (modTk c f s).outbox = s.outbox := rfl
@[simp] theorem modTk_time (c : Nat) (f : TkSt → TkSt) (s : State) : (modTk c f s).time = s.time := rfl
@[simp] theorem modTk_inForce (c : Nat) (f : TkSt → TkSt) (s : State) : (modTk c f s).inForce = s.inForce := rfl
@[simp] theorem modTk_shadow (c : Nat) (f : TkSt → TkSt) (s : State) : (modTk c f s).shadow = s.shadow := rfl
@[simp] theorem modTk_rw (c : Nat) (f : TkSt → TkSt) (s : State) : (modTk c f s).rw = s.rw := rfl
@[simp] theorem modTk_written (c : Nat) (f : TkSt → TkSt) (s : State) : (modTk c f s).written = s.written := rfl
@[simp] theorem modTk_commit (c : Nat) (f : TkSt → TkSt) (s : State) : (modTk c f s).commit = s.commit := rfl
@[simp] theorem modTk_conf (c : Nat) (f : TkSt → TkSt) (s : State) : (modTk c f s).conf = s.conf := rfl
@[simp] theorem modTk_slots (c : Nat) (f : TkSt → TkSt) (s : State) : (modTk c f s).slots = s.slots := rfl
@[simp] theorem modTk_units (c : Nat) (f : TkSt → TkSt) (s : State) : (modTk c f s).units = s.units := rfl
@[simp] theorem modTk_hist (c : Nat) (f : TkSt → TkSt) (s : State) : (modTk c f s).hist = s.hist := rfl
@[simp] theorem modTk_xg (c : Nat) (f : TkSt → TkSt) (s : State) : (modTk c f s).xg = s.xg := rfl
@[simp] theorem modTk_rc (c : Nat) (f : TkSt → TkSt) (s : State) : (modTk c f s).rc = s.rc := rfl
@[simp] theorem modTk_tone (c : Nat) (f : TkSt → TkSt) (s : State) : (modTk c f s).tone = s.tone := rfl
@[simp] theorem modTk_toneBox (c : Nat) (f : TkSt → TkSt) (s : State) : (modTk c f s).toneBox = s.toneBox := rfl
@[simp] theorem modTk_biasSplit (c : Nat) (f : TkSt → TkSt) (s : State) : (modTk c f s).biasSplit = s.biasSplit := rfl
@[simp] theorem modTk_biasOff (c : Nat) (f : TkSt → TkSt) (s : State) : (modTk c f s).biasOff = s.biasOff := rfl
@[simp] theorem modTk_decim (c : Nat) (f : TkSt → TkSt) (s : State) : (modTk c f s).decim = s.decim := rfl
@[simp] theorem modTk_ax (c : Nat) (f : TkSt → TkSt) (s : State) : (modTk c f s).ax = s.ax := rfl
@[simp] theorem modTk_axs (c : Nat) (f : TkSt → TkSt) (s : State) : (modTk c f s).axs = s.axs := rfl
@[simp] theorem modTk_se (c : Nat) (f : TkSt → TkSt) (s : State) : (modTk c f s).se = s.se := rfl
@[simp] theorem modTk_maps (c : Nat) (f : TkSt → TkSt) (s : State) : (modTk c f s).maps = s.maps := rfl
@[simp] theorem modTk_gl (c : Nat) (f : TkSt → TkSt) (s : State) : (modTk c f s).gl = s.gl := rfl
@[simp] theorem modTk_rh (c : Nat) (f : TkSt → TkSt) (s : State) : (modTk c f s).rh = s.rh := rfl
@[simp] theorem modTk_ip (c : Nat) (f : TkSt → TkSt) (s : State) : (modTk c f s).ip = s.ip := rfl
@[simp] theorem modTk_sw (c : Nat) (f : TkSt → TkSt) (s : State) : (modTk c f s).sw = s.sw := rfl
@[simp] theorem modTk_em (c : Nat) (f : TkSt → TkSt) (s : State) : (modTk c f s).em = s.em := rfl
@[simp] theorem modTk_cmp (c : Nat) (f : TkSt → TkSt) (s : State) : (modTk c f s).cmp = s.cmp := rfl
@[simp] theorem modTk_tg (c : Nat) (f : TkSt → TkSt) (s : State) : (modTk c f s).tg = s.tg := rfl
@[simp] theorem modTk_pg (c : Nat) (f : TkSt → TkSt) (s : State) : (modTk c f s).pg = s.pg := rfl
@[simp] theorem modTk_keep (c : Nat) (f : TkSt → TkSt) (s : State) : (modTk c f s).keep = s.keep := rfl
@[simp] theorem modTk_fm (c : Nat) (f : TkSt → TkSt) (s : State) : (modTk c f s).fm = s.fm := rfl
@[simp] theorem modTk_net (c : Nat) (f : TkSt → TkSt) (s : State) : (modTk c f s).net = s.net := rfl
@[simp] theorem modTk_hst (c : Nat) (f : TkSt → TkSt) (s : State) : (modTk c f s).hst = s.hst := rfl
@[simp] theorem modTk_twn (c : Nat) (f : TkSt → TkSt) (s : State) : (modTk c f s).twn = s.twn := rfl
@[simp] theorem modTk_hrd (c : Nat) (f : TkSt → TkSt) (s : State) : (modTk c f s).hrd = s.hrd := rfl
@[simp] theorem modTk_sec (c : Nat) (f : TkSt → TkSt) (s : State) : (modTk c f s).sec = s.sec := rfl
@[simp] theorem modTk_flt (c : Nat) (f : TkSt → TkSt) (s : State) : (modTk c f s).flt = s.flt := rfl
@[simp] theorem modTk_mon (c : Nat) (f : TkSt → TkSt) (s : State) : (modTk c f s).mon = s.mon := rfl
@[simp] theorem modTk_clk (c : Nat) (f : TkSt → TkSt) (s : State) : (modTk c f s).clk = s.clk := rfl
@[simp] theorem modTk_rst (c : Nat) (f : TkSt → TkSt) (s : State) : (modTk c f s).rst = s.rst := rfl
@[simp] theorem tkOf_modTk (c : Nat) (f : TkSt → TkSt) (s : State) : tkOf (modTk c f s) c = f (tkOf s c) := Tbl.get_set_self _ _ _ _
theorem tkOf_modTk_ne (c : Nat) (f : TkSt → TkSt) (s : State) {k' : Nat} (h : k' ≠ c) : tkOf (modTk c f s) k' = tkOf s k' := Tbl.get_set_ne _ _ _ h
@[simp] theorem modGl_pending (j : Nat) (f : GlSt → GlSt) (s : State) : (modGl j f s).pending = s.pending := rfl
@[simp] theorem modGl_freeCtr (j : Nat) (f : GlSt → GlSt) (s : State) : (modGl j f s).freeCtr = s.freeCtr := rfl
@[simp] theorem modGl_outbox (j : Nat) (f : GlSt → GlSt) (s : State) : (modGl j f s).outbox = s.outbox := rfl
@[simp] theorem modGl_time (j : Nat) (f : GlSt → GlSt) (s : State) : (modGl j f s).time = s.time := rfl
@[simp] theorem modGl_inForce (j : Nat) (f : GlSt → GlSt) (s : State) : (modGl j f s).inForce = s.inForce := rfl
@[simp] theorem modGl_shadow (j : Nat) (f : GlSt → GlSt) (s : State) : (modGl j f s).shadow = s.shadow := rfl
@[simp] theorem modGl_rw (j : Nat) (f : GlSt → GlSt) (s : State) : (modGl j f s).rw = s.rw := rfl
@[simp] theorem modGl_written (j : Nat) (f : GlSt → GlSt) (s : State) : (modGl j f s).written = s.written := rfl
@[simp] theorem modGl_commit (j : Nat) (f : GlSt → GlSt) (s : State) : (modGl j f s).commit = s.commit := rfl
@[simp] theorem modGl_conf (j : Nat) (f : GlSt → GlSt) (s : State) : (modGl j f s).conf = s.conf := rfl
@[simp] theorem modGl_slots (j : Nat) (f : GlSt → GlSt) (s : State) : (modGl j f s).slots = s.slots := rfl
@[simp] theorem modGl_units (j : Nat) (f : GlSt → GlSt) (s : State) : (modGl j f s).units = s.units := rfl
@[simp] theorem modGl_hist (j : Nat) (f : GlSt → GlSt) (s : State) : (modGl j f s).hist = s.hist := rfl
@[simp] theorem modGl_xg (j : Nat) (f : GlSt → GlSt) (s : State) : (modGl j f s).xg = s.xg := rfl
@[simp] theorem modGl_rc (j : Nat) (f : GlSt → GlSt) (s : State) : (modGl j f s).rc = s.rc := rfl
@[simp] theorem modGl_tone (j : Nat) (f : GlSt → GlSt) (s : State) : (modGl j f s).tone = s.tone := rfl
@[simp] theorem modGl_toneBox (j : Nat) (f : GlSt → GlSt) (s : State) : (modGl j f s).toneBox = s.toneBox := rfl
@[simp] theorem modGl_biasSplit (j : Nat) (f : GlSt → GlSt) (s : State) : (modGl j f s).biasSplit = s.biasSplit := rfl
@[simp] theorem modGl_biasOff (j : Nat) (f : GlSt → GlSt) (s : State) : (modGl j f s).biasOff = s.biasOff := rfl
@[simp] theorem modGl_decim (j : Nat) (f : GlSt → GlSt) (s : State) : (modGl j f s).decim = s.decim := rfl
@[simp] theorem modGl_ax (j : Nat) (f : GlSt → GlSt) (s : State) : (modGl j f s).ax = s.ax := rfl
@[simp] theorem modGl_axs (j : Nat) (f : GlSt → GlSt) (s : State) : (modGl j f s).axs = s.axs := rfl
@[simp] theorem modGl_se (j : Nat) (f : GlSt → GlSt) (s : State) : (modGl j f s).se = s.se := rfl
@[simp] theorem modGl_tk (j : Nat) (f : GlSt → GlSt) (s : State) : (modGl j f s).tk = s.tk := rfl
@[simp] theorem modGl_maps (j : Nat) (f : GlSt → GlSt) (s : State) : (modGl j f s).maps = s.maps := rfl
@[simp] theorem modGl_rh (j : Nat) (f : GlSt → GlSt) (s : State) : (modGl j f s).rh = s.rh := rfl
@[simp] theorem modGl_ip (j : Nat) (f : GlSt → GlSt) (s : State) : (modGl j f s).ip = s.ip := rfl
@[simp] theorem modGl_sw (j : Nat) (f : GlSt → GlSt) (s : State) : (modGl j f s).sw = s.sw := rfl
@[simp] theorem modGl_em (j : Nat) (f : GlSt → GlSt) (s : State) : (modGl j f s).em = s.em := rfl
@[simp] theorem modGl_cmp (j : Nat) (f : GlSt → GlSt) (s : State) : (modGl j f s).cmp = s.cmp := rfl
@[simp] theorem modGl_tg (j : Nat) (f : GlSt → GlSt) (s : State) : (modGl j f s).tg = s.tg := rfl
@[simp] theorem modGl_pg (j : Nat) (f : GlSt → GlSt) (s : State) : (modGl j f s).pg = s.pg := rfl
@[simp] theorem modGl_keep (j : Nat) (f : GlSt → GlSt) (s : State) : (modGl j f s).keep = s.keep := rfl
@[simp] theorem modGl_fm (j : Nat) (f : GlSt → GlSt) (s : State) : (modGl j f s).fm = s.fm := rfl
@[simp] theorem modGl_net (j : Nat) (f : GlSt → GlSt) (s : State) : (modGl j f s).net = s.net := rfl
@[simp] theorem modGl_hst (j : Nat) (f : GlSt → GlSt) (s : State) : (modGl j f s).hst = s.hst := rfl
@[simp] theorem modGl_twn (j : Nat) (f : GlSt → GlSt) (s : State) : (modGl j f s).twn = s.twn := rfl
@[simp] theorem modGl_hrd (j : Nat) (f : GlSt → GlSt) (s : State) : (modGl j f s).hrd = s.hrd := rfl
@[simp] theorem modGl_sec (j : Nat) (f : GlSt → GlSt) (s : State) : (modGl j f s).sec = s.sec := rfl
@[simp] theorem modGl_flt (j : Nat) (f : GlSt → GlSt) (s : State) : (modGl j f s).flt = s.flt := rfl
@[simp] theorem modGl_mon (j : Nat) (f : GlSt → GlSt) (s : State) : (modGl j f s).mon = s.mon := rfl
@[simp] theorem modGl_clk (j : Nat) (f : GlSt → GlSt) (s : State) : (modGl j f s).clk = s.clk := rfl
@[simp] theorem modGl_rst (j : Nat) (f : GlSt → GlSt) (s : State) : (modGl j f s).rst = s.rst := rfl
@[simp] theorem glOf_modGl (j : Nat) (f : GlSt → GlSt) (s : State) : glOf (modGl j f s) j = f (glOf s j) := Tbl.get_set_self _ _ _ _
theorem glOf_modGl_ne (j : Nat) (f : GlSt → GlSt) (s : State) {k' : Nat} (h : k' ≠ j) : glOf (modGl j f s) k' = glOf s k' := Tbl.get_set_ne _ _ _ h
@[simp] theorem modRh_pending (c : Nat) (f : RhSt → RhSt) (s : State) : (modRh c f s).pending = s.pending := rfl
@[simp] theorem modRh_freeCtr (c : Nat) (f : RhSt → RhSt) (s : State) : (modRh c f s).freeCtr = s.freeCtr := rfl
@[simp] theorem modRh_outbox (c : Nat) (f : RhSt → RhSt) (s : State) : (modRh c f s).outbox = s.outbox := rfl
@[simp] theorem modRh_time (c : Nat) (f : RhSt → RhSt) (s : State) : (modRh c f s).time = s.time := rfl
@[simp] theorem modRh_inForce (c : Nat) (f : RhSt → RhSt) (s : State) : (modRh c f s).inForce = s.inForce := rfl
@[simp] theorem modRh_shadow (c : Nat) (f : RhSt → RhSt) (s : State) : (modRh c f s).shadow = s.shadow := rfl
@[simp] theorem modRh_rw (c : Nat) (f : RhSt → RhSt) (s : State) : (modRh c f s).rw = s.rw := rfl
@[simp] theorem modRh_written (c : Nat) (f : RhSt → RhSt) (s : State) : (modRh c f s).written = s.written := rfl
@[simp] theorem modRh_commit (c : Nat) (f : RhSt → RhSt) (s : State) : (modRh c f s).commit = s.commit := rfl
@[simp] theorem modRh_conf (c : Nat) (f : RhSt → RhSt) (s : State) : (modRh c f s).conf = s.conf := rfl
@[simp] theorem modRh_slots (c : Nat) (f : RhSt → RhSt) (s : State) : (modRh c f s).slots = s.slots := rfl
@[simp] theorem modRh_units (c : Nat) (f : RhSt → RhSt) (s : State) : (modRh c f s).units = s.units := rfl
@[simp] theorem modRh_hist (c : Nat) (f : RhSt → RhSt) (s : State) : (modRh c f s).hist = s.hist := rfl
@[simp] theorem modRh_xg (c : Nat) (f : RhSt → RhSt) (s : State) : (modRh c f s).xg = s.xg := rfl
@[simp] theorem modRh_rc (c : Nat) (f : RhSt → RhSt) (s : State) : (modRh c f s).rc = s.rc := rfl
@[simp] theorem modRh_tone (c : Nat) (f : RhSt → RhSt) (s : State) : (modRh c f s).tone = s.tone := rfl
@[simp] theorem modRh_toneBox (c : Nat) (f : RhSt → RhSt) (s : State) : (modRh c f s).toneBox = s.toneBox := rfl
@[simp] theorem modRh_biasSplit (c : Nat) (f : RhSt → RhSt) (s : State) : (modRh c f s).biasSplit = s.biasSplit := rfl
@[simp] theorem modRh_biasOff (c : Nat) (f : RhSt → RhSt) (s : State) : (modRh c f s).biasOff = s.biasOff := rfl
@[simp] theorem modRh_decim (c : Nat) (f : RhSt → RhSt) (s : State) : (modRh c f s).decim = s.decim := rfl
@[simp] theorem modRh_ax (c : Nat) (f : RhSt → RhSt) (s : State) : (modRh c f s).ax = s.ax := rfl
@[simp] theorem modRh_axs (c : Nat) (f : RhSt → RhSt) (s : State) : (modRh c f s).axs = s.axs := rfl
@[simp] theorem modRh_se (c : Nat) (f : RhSt → RhSt) (s : State) : (modRh c f s).se = s.se := rfl
@[simp] theorem modRh_tk (c : Nat) (f : RhSt → RhSt) (s : State) : (modRh c f s).tk = s.tk := rfl
@[simp] theorem modRh_maps (c : Nat) (f : RhSt → RhSt) (s : State) : (modRh c f s).maps = s.maps := rfl
@[simp] theorem modRh_gl (c : Nat) (f : RhSt → RhSt) (s : State) : (modRh c f s).gl = s.gl := rfl
@[simp] theorem modRh_ip (c : Nat) (f : RhSt → RhSt) (s : State) : (modRh c f s).ip = s.ip := rfl
@[simp] theorem modRh_sw (c : Nat) (f : RhSt → RhSt) (s : State) : (modRh c f s).sw = s.sw := rfl
@[simp] theorem modRh_em (c : Nat) (f : RhSt → RhSt) (s : State) : (modRh c f s).em = s.em := rfl
@[simp] theorem modRh_cmp (c : Nat) (f : RhSt → RhSt) (s : State) : (modRh c f s).cmp = s.cmp := rfl
@[simp] theorem modRh_tg (c : Nat) (f : RhSt → RhSt) (s : State) : (modRh c f s).tg = s.tg := rfl
@[simp] theorem modRh_pg (c : Nat) (f : RhSt → RhSt) (s : State) : (modRh c f s).pg = s.pg := rfl
@[simp] theorem modRh_keep (c : Nat) (f : RhSt → RhSt) (s : State) : (modRh c f s).keep = s.keep := rfl
@[simp] theorem modRh_fm (c : Nat) (f : RhSt → RhSt) (s : State) : (modRh c f s).fm = s.fm := rfl
@[simp] theorem modRh_net (c : Nat) (f : RhSt → RhSt) (s : State) : (modRh c f s).net = s.net := rfl
@[simp] theorem modRh_hst (c : Nat) (f : RhSt → RhSt) (s : State) : (modRh c f s).hst = s.hst := rfl
@[simp] theorem modRh_twn (c : Nat) (f : RhSt → RhSt) (s : State) : (modRh c f s).twn = s.twn := rfl
@[simp] theorem modRh_hrd (c : Nat) (f : RhSt → RhSt) (s : State) : (modRh c f s).hrd = s.hrd := rfl
@[simp] theorem modRh_sec (c : Nat) (f : RhSt → RhSt) (s : State) : (modRh c f s).sec = s.sec := rfl
@[simp] theorem modRh_flt (c : Nat) (f : RhSt → RhSt) (s : State) : (modRh c f s).flt = s.flt := rfl
@[simp] theorem modRh_mon (c : Nat) (f : RhSt → RhSt) (s : State) : (modRh c f s).mon = s.mon := rfl
@[simp] theorem modRh_clk (c : Nat) (f : RhSt → RhSt) (s : State) : (modRh c f s).clk = s.clk := rfl
@[simp] theorem modRh_rst (c : Nat) (f : RhSt → RhSt) (s : State) : (modRh c f s).rst = s.rst := rfl
@[simp] theorem rhOf_modRh (c : Nat) (f : RhSt → RhSt) (s : State) : rhOf (modRh c f s) c = f (rhOf s c) := Tbl.get_set_self _ _ _ _
theorem rhOf_modRh_ne (c : Nat) (f : RhSt → RhSt) (s : State) {k' : Nat} (h : k' ≠ c) : rhOf (modRh c f s) k' = rhOf s k' := Tbl.get_set_ne _ _ _ h
@[simp] theorem modIp_pending (p : Nat) (f : IpSt → IpSt) (s : State) : (modIp p f s).pending = s.pending := rfl
@[simp] theorem modIp_freeCtr (p : Nat) (f : IpSt → IpSt) (s : State) : (modIp p f s).freeCtr = s.freeCtr := rfl
@[simp] theorem modIp_outbox (p : Nat) (f : IpSt → IpSt) (s : State) : (modIp p f s).outbox = s.outbox := rfl
@[simp] theorem modIp_time (p : Nat) (f : IpSt → IpSt) (s : State) : (modIp p f s).time = s.time := rfl
@[simp] theorem modIp_inForce (p : Nat) (f : IpSt → IpSt) (s : State) : (modIp p f s).inForce = s.inForce := rfl
@[simp] theorem modIp_shadow (p : Nat) (f : IpSt → IpSt) (s : State) : (modIp p f s).shadow = s.shadow := rfl
@[simp] theorem modIp_rw (p : Nat) (f : IpSt → IpSt) (s : State) : (modIp p f s).rw = s.rw := rfl
@[simp] theorem modIp_written (p : Nat) (f : IpSt → IpSt) (s : State) : (modIp p f s).written = s.written := rfl
@[simp] theorem modIp_commit (p : Nat) (f : IpSt → IpSt) (s : State) : (modIp p f s).commit = s.commit := rfl
@[simp] theorem modIp_conf (p : Nat) (f : IpSt → IpSt) (s : State) : (modIp p f s).conf = s.conf := rfl
@[simp] theorem modIp_slots (p : Nat) (f : IpSt → IpSt) (s : State) : (modIp p f s).slots = s.slots := rfl
@[simp] theorem modIp_units (p : Nat) (f : IpSt → IpSt) (s : State) : (modIp p f s).units = s.units := rfl
@[simp] theorem modIp_hist (p : Nat) (f : IpSt → IpSt) (s : State) : (modIp p f s).hist = s.hist := rfl
@[simp] theorem modIp_xg (p : Nat) (f : IpSt → IpSt) (s : State) : (modIp p f s).xg = s.xg := rfl
@[simp] theorem modIp_rc (p : Nat) (f : IpSt → IpSt) (s : State) : (modIp p f s).rc = s.rc := rfl
@[simp] theorem modIp_tone (p : Nat) (f : IpSt → IpSt) (s : State) : (modIp p f s).tone = s.tone := rfl
@[simp] theorem modIp_toneBox (p : Nat) (f : IpSt → IpSt) (s : State) : (modIp p f s).toneBox = s.toneBox := rfl
@[simp] theorem modIp_biasSplit (p : Nat) (f : IpSt → IpSt) (s : State) : (modIp p f s).biasSplit = s.biasSplit := rfl
@[simp] theorem modIp_biasOff (p : Nat) (f : IpSt → IpSt) (s : State) : (modIp p f s).biasOff = s.biasOff := rfl
@[simp] theorem modIp_decim (p : Nat) (f : IpSt → IpSt) (s : State) : (modIp p f s).decim = s.decim := rfl
@[simp] theorem modIp_ax (p : Nat) (f : IpSt → IpSt) (s : State) : (modIp p f s).ax = s.ax := rfl
@[simp] theorem modIp_axs (p : Nat) (f : IpSt → IpSt) (s : State) : (modIp p f s).axs = s.axs := rfl
@[simp] theorem modIp_se (p : Nat) (f : IpSt → IpSt) (s : State) : (modIp p f s).se = s.se := rfl
@[simp] theorem modIp_tk (p : Nat) (f : IpSt → IpSt) (s : State) : (modIp p f s).tk = s.tk := rfl
@[simp] theorem modIp_maps (p : Nat) (f : IpSt → IpSt) (s : State) : (modIp p f s).maps = s.maps := rfl
@[simp] theorem modIp_gl (p : Nat) (f : IpSt → IpSt) (s : State) : (modIp p f s).gl = s.gl := rfl
@[simp] theorem modIp_rh (p : Nat) (f : IpSt → IpSt) (s : State) : (modIp p f s).rh = s.rh := rfl
@[simp] theorem modIp_sw (p : Nat) (f : IpSt → IpSt) (s : State) : (modIp p f s).sw = s.sw := rfl
@[simp] theorem modIp_em (p : Nat) (f : IpSt → IpSt) (s : State) : (modIp p f s).em = s.em := rfl
@[simp] theorem modIp_cmp (p : Nat) (f : IpSt → IpSt) (s : State) : (modIp p f s).cmp = s.cmp := rfl
@[simp] theorem modIp_tg (p : Nat) (f : IpSt → IpSt) (s : State) : (modIp p f s).tg = s.tg := rfl
@[simp] theorem modIp_pg (p : Nat) (f : IpSt → IpSt) (s : State) : (modIp p f s).pg = s.pg := rfl
@[simp] theorem modIp_keep (p : Nat) (f : IpSt → IpSt) (s : State) : (modIp p f s).keep = s.keep := rfl
@[simp] theorem modIp_fm (p : Nat) (f : IpSt → IpSt) (s : State) : (modIp p f s).fm = s.fm := rfl
@[simp] theorem modIp_net (p : Nat) (f : IpSt → IpSt) (s : State) : (modIp p f s).net = s.net := rfl
@[simp] theorem modIp_hst (p : Nat) (f : IpSt → IpSt) (s : State) : (modIp p f s).hst = s.hst := rfl
@[simp] theorem modIp_twn (p : Nat) (f : IpSt → IpSt) (s : State) : (modIp p f s).twn = s.twn := rfl
@[simp] theorem modIp_hrd (p : Nat) (f : IpSt → IpSt) (s : State) : (modIp p f s).hrd = s.hrd := rfl
@[simp] theorem modIp_sec (p : Nat) (f : IpSt → IpSt) (s : State) : (modIp p f s).sec = s.sec := rfl
@[simp] theorem modIp_flt (p : Nat) (f : IpSt → IpSt) (s : State) : (modIp p f s).flt = s.flt := rfl
@[simp] theorem modIp_mon (p : Nat) (f : IpSt → IpSt) (s : State) : (modIp p f s).mon = s.mon := rfl
@[simp] theorem modIp_clk (p : Nat) (f : IpSt → IpSt) (s : State) : (modIp p f s).clk = s.clk := rfl
@[simp] theorem modIp_rst (p : Nat) (f : IpSt → IpSt) (s : State) : (modIp p f s).rst = s.rst := rfl
@[simp] theorem ipOf_modIp (p : Nat) (f : IpSt → IpSt) (s : State) : ipOf (modIp p f s) p = f (ipOf s p) := Tbl.get_set_self _ _ _ _
theorem ipOf_modIp_ne (p : Nat) (f : IpSt → IpSt) (s : State) {k' : Nat} (h : k' ≠ p) : ipOf (modIp p f s) k' = ipOf s k' := Tbl.get_set_ne _ _ _ h
@[simp] theorem modSw_pending (k : Nat) (f : SwSt → SwSt) (s : State) : (modSw k f s).pending = s.pending := rfl
@[simp] theorem modSw_freeCtr (k : Nat) (f : SwSt → SwSt) (s : State) : (modSw k f s).freeCtr = s.freeCtr := rfl
@[simp] theorem modSw_outbox (k : Nat) (f : SwSt → SwSt) (s : State) : (modSw k f s).outbox = s.outbox := rfl
@[simp] theorem modSw_time (k : Nat) (f : SwSt → SwSt) (s : State) : (modSw k f s).time = s.time := rfl
@[simp] theorem modSw_inForce (k : Nat) (f : SwSt → SwSt) (s : State) : (modSw k f s).inForce = s.inForce := rfl
@[simp] theorem modSw_shadow (k : Nat) (f : SwSt → SwSt) (s : State) : (modSw k f s).shadow = s.shadow := rfl
@[simp] theorem modSw_rw (k : Nat) (f : SwSt → SwSt) (s : State) : (modSw k f s).rw = s.rw := rfl
@[simp] theorem modSw_written (k : Nat) (f : SwSt → SwSt) (s : State) : (modSw k f s).written = s.written := rfl
@[simp] theorem modSw_commit (k : Nat) (f : SwSt → SwSt) (s : State) : (modSw k f s).commit = s.commit := rfl
@[simp] theorem modSw_conf (k : Nat) (f : SwSt → SwSt) (s : State) : (modSw k f s).conf = s.conf := rfl
@[simp] theorem modSw_slots (k : Nat) (f : SwSt → SwSt) (s : State) : (modSw k f s).slots = s.slots := rfl
@[simp] theorem modSw_units (k : Nat) (f : SwSt → SwSt) (s : State) : (modSw k f s).units = s.units := rfl
@[simp] theorem modSw_hist (k : Nat) (f : SwSt → SwSt) (s : State) : (modSw k f s).hist = s.hist := rfl
@[simp] theorem modSw_xg (k : Nat) (f : SwSt → SwSt) (s : State) : (modSw k f s).xg = s.xg := rfl
@[simp] theorem modSw_rc (k : Nat) (f : SwSt → SwSt) (s : State) : (modSw k f s).rc = s.rc := rfl
@[simp] theorem modSw_tone (k : Nat) (f : SwSt → SwSt) (s : State) : (modSw k f s).tone = s.tone := rfl
@[simp] theorem modSw_toneBox (k : Nat) (f : SwSt → SwSt) (s : State) : (modSw k f s).toneBox = s.toneBox := rfl
@[simp] theorem modSw_biasSplit (k : Nat) (f : SwSt → SwSt) (s : State) : (modSw k f s).biasSplit = s.biasSplit := rfl
@[simp] theorem modSw_biasOff (k : Nat) (f : SwSt → SwSt) (s : State) : (modSw k f s).biasOff = s.biasOff := rfl
@[simp] theorem modSw_decim (k : Nat) (f : SwSt → SwSt) (s : State) : (modSw k f s).decim = s.decim := rfl
@[simp] theorem modSw_ax (k : Nat) (f : SwSt → SwSt) (s : State) : (modSw k f s).ax = s.ax := rfl
@[simp] theorem modSw_axs (k : Nat) (f : SwSt → SwSt) (s : State) : (modSw k f s).axs = s.axs := rfl
@[simp] theorem modSw_se (k : Nat) (f : SwSt → SwSt) (s : State) : (modSw k f s).se = s.se := rfl
@[simp] theorem modSw_tk (k : Nat) (f : SwSt → SwSt) (s : State) : (modSw k f s).tk = s.tk := rfl
@[simp] theorem modSw_maps (k : Nat) (f : SwSt → SwSt) (s : State) : (modSw k f s).maps = s.maps := rfl
@[simp] theorem modSw_gl (k : Nat) (f : SwSt → SwSt) (s : State) : (modSw k f s).gl = s.gl := rfl
@[simp] theorem modSw_rh (k : Nat) (f : SwSt → SwSt) (s : State) : (modSw k f s).rh = s.rh := rfl
@[simp] theorem modSw_ip (k : Nat) (f : SwSt → SwSt) (s : State) : (modSw k f s).ip = s.ip := rfl
@[simp] theorem modSw_em (k : Nat) (f : SwSt → SwSt) (s : State) : (modSw k f s).em = s.em := rfl
@[simp] theorem modSw_cmp (k : Nat) (f : SwSt → SwSt) (s : State) : (modSw k f s).cmp = s.cmp := rfl
@[simp] theorem modSw_tg (k : Nat) (f : SwSt → SwSt) (s : State) : (modSw k f s).tg = s.tg := rfl
@[simp] theorem modSw_pg (k : Nat) (f : SwSt → SwSt) (s : State) : (modSw k f s).pg = s.pg := rfl
@[simp] theorem modSw_keep (k : Nat) (f : SwSt → SwSt) (s : State) : (modSw k f s).keep = s.keep := rfl
@[simp] theorem modSw_fm (k : Nat) (f : SwSt → SwSt) (s : State) : (modSw k f s).fm = s.fm := rfl
@[simp] theorem modSw_net (k : Nat) (f : SwSt → SwSt) (s : State) : (modSw k f s).net = s.net := rfl
@[simp] theorem modSw_hst (k : Nat) (f : SwSt → SwSt) (s : State) : (modSw k f s).hst = s.hst := rfl
@[simp] theorem modSw_twn (k : Nat) (f : SwSt → SwSt) (s : State) : (modSw k f s).twn = s.twn := rfl
@[simp] theorem modSw_hrd (k : Nat) (f : SwSt → SwSt) (s : State) : (modSw k f s).hrd = s.hrd := rfl
@[simp] theorem modSw_sec (k : Nat) (f : SwSt → SwSt) (s : State) : (modSw k f s).sec = s.sec := rfl
@[simp] theorem modSw_flt (k : Nat) (f : SwSt → SwSt) (s : State) : (modSw k f s).flt = s.flt := rfl
@[simp] theorem modSw_mon (k : Nat) (f : SwSt → SwSt) (s : State) : (modSw k f s).mon = s.mon := rfl
@[simp] theorem modSw_clk (k : Nat) (f : SwSt → SwSt) (s : State) : (modSw k f s).clk = s.clk := rfl
@[simp] theorem modSw_rst (k : Nat) (f : SwSt → SwSt) (s : State) : (modSw k f s).rst = s.rst := rfl
@[simp] theorem swOf_modSw (k : Nat) (f : SwSt → SwSt) (s : State) : swOf (modSw k f s) k = f (swOf s k) := Tbl.get_set_self _ _ _ _
theorem swOf_modSw_ne (k : Nat) (f : SwSt → SwSt) (s : State) {k' : Nat} (h : k' ≠ k) : swOf (modSw k f s) k' = swOf s k' := Tbl.get_set_ne _ _ _ h
@[simp] theorem modEm_pending (e : Nat) (f : EmSt → EmSt) (s : State) : (modEm e f s).pending = s.pending := rfl
@[simp] theorem modEm_freeCtr (e : Nat) (f : EmSt → EmSt) (s : State) : (modEm e f s).freeCtr = s.freeCtr := rfl
@[simp] theorem modEm_outbox (e : Nat) (f : EmSt → EmSt) (s : State) : (modEm e f s).outbox = s.outbox := rfl
@[simp] theorem modEm_time (e : Nat) (f : EmSt → EmSt) (s : State) : (modEm e f s).time = s.time := rfl
@[simp] theorem modEm_inForce (e : Nat) (f : EmSt → EmSt) (s : State) : (modEm e f s).inForce = s.inForce := rfl
@[simp] theorem modEm_shadow (e : Nat) (f : EmSt → EmSt) (s : State) : (modEm e f s).shadow = s.shadow := rfl
@[simp] theorem modEm_rw (e : Nat) (f : EmSt → EmSt) (s : State) : (modEm e f s).rw = s.rw := rfl
@[simp] theorem modEm_written (e : Nat) (f : EmSt → EmSt) (s : State) : (modEm e f s).written = s.written := rfl
@[simp] theorem modEm_commit (e : Nat) (f : EmSt → EmSt) (s : State) : (modEm e f s).commit = s.commit := rfl
@[simp] theorem modEm_conf (e : Nat) (f : EmSt → EmSt) (s : State) : (modEm e f s).conf = s.conf := rfl
@[simp] theorem modEm_slots (e : Nat) (f : EmSt → EmSt) (s : State) : (modEm e f s).slots = s.slots := rfl
@[simp] theorem modEm_units (e : Nat) (f : EmSt → EmSt) (s : State) : (modEm e f s).units = s.units := rfl
@[simp] theorem modEm_hist (e : Nat) (f : EmSt → EmSt) (s : State) : (modEm e f s).hist = s.hist := rfl
@[simp] theorem modEm_xg (e : Nat) (f : EmSt → EmSt) (s : State) : (modEm e f s).xg = s.xg := rfl
@[simp] theorem modEm_rc (e : Nat) (f : EmSt → EmSt) (s : State) : (modEm e f s).rc = s.rc := rfl
@[simp] theorem modEm_tone (e : Nat) (f : EmSt → EmSt) (s : State) : (modEm e f s).tone = s.tone := rfl
@[simp] theorem modEm_toneBox (e : Nat) (f : EmSt → EmSt) (s : State) : (modEm e f s).toneBox = s.toneBox := rfl
@[simp] theorem modEm_biasSplit (e : Nat) (f : EmSt → EmSt) (s : State) : (modEm e f s).biasSplit = s.biasSplit := rfl
@[simp] theorem modEm_biasOff (e : Nat) (f : EmSt → EmSt) (s : State) : (modEm e f s).biasOff = s.biasOff := rfl
@[simp] theorem modEm_decim (e : Nat) (f : EmSt → EmSt) (s : State) : (modEm e f s).decim = s.decim := rfl
@[simp] theorem modEm_ax (e : Nat) (f : EmSt → EmSt) (s : State) : (modEm e f s).ax = s.ax := rfl
@[simp] theorem modEm_axs (e : Nat) (f : EmSt → EmSt) (s : State) : (modEm e f s).axs = s.axs := rfl
@[simp] theorem modEm_se (e : Nat) (f : EmSt → EmSt) (s : State) : (modEm e f s).se = s.se := rfl
@[simp] theorem modEm_tk (e : Nat) (f : EmSt → EmSt) (s : State) : (modEm e f s).tk = s.tk := rfl
@[simp] theorem modEm_maps (e : Nat) (f : EmSt → EmSt) (s : State) : (modEm e f s).maps = s.maps := rfl
@[simp] theorem modEm_gl (e : Nat) (f : EmSt → EmSt) (s : State) : (modEm e f s).gl = s.gl := rfl
@[simp] theorem modEm_rh (e : Nat) (f : EmSt → EmSt) (s : State) : (modEm e f s).rh = s.rh := rfl
@[simp] theorem modEm_ip (e : Nat) (f : EmSt → EmSt) (s : State) : (modEm e f s).ip = s.ip := rfl
@[simp] theorem modEm_sw (e : Nat) (f : EmSt → EmSt) (s : State) : (modEm e f s).sw = s.sw := rfl
@[simp] theorem modEm_cmp (e : Nat) (f : EmSt → EmSt) (s : State) : (modEm e f s).cmp = s.cmp := rfl
@[simp] theorem modEm_tg (e : Nat) (f : EmSt → EmSt) (s : State) : (modEm e f s).tg = s.tg := rfl
@[simp] theorem modEm_pg (e : Nat) (f : EmSt → EmSt) (s : State) : (modEm e f s).pg = s.pg := rfl
@[simp] theorem modEm_keep (e : Nat) (f : EmSt → EmSt) (s : State) : (modEm e f s).keep = s.keep := rfl
@[simp] theorem modEm_fm (e : Nat) (f : EmSt → EmSt) (s : State) : (modEm e f s).fm = s.fm := rfl
@[simp] theorem modEm_net (e : Nat) (f : EmSt → EmSt) (s : State) : (modEm e f s).net = s.net := rfl
@[simp] theorem modEm_hst (e : Nat) (f : EmSt → EmSt) (s : State) : (modEm e f s).hst = s.hst := rfl
@[simp] theorem modEm_twn (e : Nat) (f : EmSt → EmSt) (s : State) : (modEm e f s).twn = s.twn := rfl
@[simp] theorem modEm_hrd (e : Nat) (f : EmSt → EmSt) (s : State) : (modEm e f s).hrd = s.hrd := rfl
@[simp] theorem modEm_sec (e : Nat) (f : EmSt → EmSt) (s : State) : (modEm e f s).sec = s.sec := rfl
@[simp] theorem modEm_flt (e : Nat) (f : EmSt → EmSt) (s : State) : (modEm e f s).flt = s.flt := rfl
@[simp] theorem modEm_mon (e : Nat) (f : EmSt → EmSt) (s : State) : (modEm e f s).mon = s.mon := rfl
@[simp] theorem modEm_clk (e : Nat) (f : EmSt → EmSt) (s : State) : (modEm e f s).clk = s.clk := rfl
@[simp] theorem modEm_rst (e : Nat) (f : EmSt → EmSt) (s : State) : (modEm e f s).rst = s.rst := rfl
@[simp] theorem emOf_modEm (e : Nat) (f : EmSt → EmSt) (s : State) : emOf (modEm e f s) e = f (emOf s e) := Tbl.get_set_self _ _ _ _
theorem emOf_modEm_ne (e : Nat) (f : EmSt → EmSt) (s : State) {k' : Nat} (h : k' ≠ e) : emOf (modEm e f s) k' = emOf s k' := Tbl.get_set_ne _ _ _ h
@[simp] theorem modCmp_pending (k : Nat) (f : CmpSt → CmpSt) (s : State) : (modCmp k f s).pending = s.pending := rfl
@[simp] theorem modCmp_freeCtr (k : Nat) (f : CmpSt → CmpSt) (s : State) : (modCmp k f s).freeCtr = s.freeCtr := rfl
@[simp] theorem modCmp_outbox (k : Nat) (f : CmpSt → CmpSt) (s : State) : (modCmp k f s).outbox = s.outbox := rfl
@[simp] theorem modCmp_time (k : Nat) (f : CmpSt → CmpSt) (s : State) : (modCmp k f s).time = s.time := rfl
@[simp] theorem modCmp_inForce (k : Nat) (f : CmpSt → CmpSt) (s : State) : (modCmp k f s).inForce = s.inForce := rfl
@[simp] theorem modCmp_shadow (k : Nat) (f : CmpSt → CmpSt) (s : State) : (modCmp k f s).shadow = s.shadow := rfl
@[simp] theorem modCmp_rw (k : Nat) (f : CmpSt → CmpSt) (s : State) : (modCmp k f s).rw = s.rw := rfl
@[simp] theorem modCmp_written (k : Nat) (f : CmpSt → CmpSt) (s : State) : (modCmp k f s).written = s.written := rfl
@[simp] theorem modCmp_commit (k : Nat) (f : CmpSt → CmpSt) (s : State) : (modCmp k f s).commit = s.commit := rfl
@[simp] theorem modCmp_conf (k : Nat) (f : CmpSt → CmpSt) (s : State) : (modCmp k f s).conf = s.conf := rfl
@[simp] theorem modCmp_slots (k : Nat) (f : CmpSt → CmpSt) (s : State) : (modCmp k f s).slots = s.slots := rfl
@[simp] theorem modCmp_units (k : Nat) (f : CmpSt → CmpSt) (s : State) : (modCmp k f s).units = s.units := rfl
@[simp] theorem modCmp_hist (k : Nat) (f : CmpSt → CmpSt) (s : State) : (modCmp k f s).hist = s.hist := rfl
@[simp] theorem modCmp_xg (k : Nat) (f : CmpSt → CmpSt) (s : State) : (modCmp k f s).xg = s.xg := rfl
@[simp] theorem modCmp_rc (k : Nat) (f : CmpSt → CmpSt) (s : State) : (modCmp k f s).rc = s.rc := rfl
@[simp] theorem modCmp_tone (k : Nat) (f : CmpSt → CmpSt) (s : State) : (modCmp k f s).tone = s.tone := rfl
@[simp] theorem modCmp_toneBox (k : Nat) (f : CmpSt → CmpSt) (s : State) : (modCmp k f s).toneBox = s.toneBox := rfl
@[simp] theorem modCmp_biasSplit (k : Nat) (f : CmpSt → CmpSt) (s : State) : (modCmp k f s).biasSplit = s.biasSplit := rfl
@[simp] theorem modCmp_biasOff (k : Nat) (f : CmpSt → CmpSt) (s : State) : (modCmp k f s).biasOff = s.biasOff := rfl
@[simp] theorem modCmp_decim (k : Nat) (f : CmpSt → CmpSt) (s : State) : (modCmp k f s).decim = s.decim := rfl
@[simp] theorem modCmp_ax (k : Nat) (f : CmpSt → CmpSt) (s : State) : (modCmp k f s).ax = s.ax := rfl
@[simp] theorem modCmp_axs (k : Nat) (f : CmpSt → CmpSt) (s : State) : (modCmp k f s).axs = s.axs := rfl
@[simp] theorem modCmp_se (k : Nat) (f : CmpSt → CmpSt) (s : State) : (modCmp k f s).se = s.se := rfl
@[simp] theorem modCmp_tk (k : Nat) (f : CmpSt → CmpSt) (s : State) : (modCmp k f s).tk = s.tk := rfl
@[simp] theorem modCmp_maps (k : Nat) (f : CmpSt → CmpSt) (s : State) : (modCmp k f s).maps = s.maps := rfl
@[simp] theorem modCmp_gl (k : Nat) (f : CmpSt → CmpSt) (s : State) : (modCmp k f s).gl = s.gl := rfl
@[simp] theorem modCmp_rh (k : Nat) (f : CmpSt → CmpSt) (s : State) : (modCmp k f s).rh = s.rh := rfl
@[simp] theorem modCmp_ip (k : Nat) (f : CmpSt → CmpSt) (s : State) : (modCmp k f s).ip = s.ip := rfl
@[simp] theorem modCmp_sw (k : Nat) (f : CmpSt → CmpSt) (s : State) : (modCmp k f s).sw = s.sw := rfl
@[simp] theorem modCmp_em (k : Nat) (f : CmpSt → CmpSt) (s : State) : (modCmp k f s).em = s.em := rfl
@[simp] theorem modCmp_tg (k : Nat) (f : CmpSt → CmpSt) (s : State) : (modCmp k f s).tg = s.tg := rfl
@[simp] theorem modCmp_pg (k : Nat) (f : CmpSt → CmpSt) (s : State) : (modCmp k f s).pg = s.pg := rfl
@[simp] theorem modCmp_keep (k : Nat) (f : CmpSt → CmpSt) (s : State) : (modCmp k f s).keep = s.keep := rfl
@[simp] theorem modCmp_fm (k : Nat) (f : CmpSt → CmpSt) (s : State) : (modCmp k f s).fm = s.fm := rfl
@[simp] theorem modCmp_net (k : Nat) (f : CmpSt → CmpSt) (s : State) : (modCmp k f s).net = s.net := rfl
@[simp] theorem modCmp_hst (k : Nat) (f : CmpSt → CmpSt) (s : State) : (modCmp k f s).hst = s.hst := rfl
@[simp] theorem modCmp_twn (k : Nat) (f : CmpSt → CmpSt) (s : State) : (modCmp k f s).twn = s.twn := rfl
@[simp] theorem modCmp_hrd (k : Nat) (f : CmpSt → CmpSt) (s : State) : (modCmp k f s).hrd = s.hrd := rfl
@[simp] theorem modCmp_sec (k : Nat) (f : CmpSt → CmpSt) (s : State) : (modCmp k f s).sec = s.sec := rfl
@[simp] theorem modCmp_flt (k : Nat) (f : CmpSt → CmpSt) (s : State) : (modCmp k f s).flt = s.flt := rfl
@[simp] theorem modCmp_mon (k : Nat) (f : CmpSt → CmpSt) (s : State) : (modCmp k f s).mon = s.mon := rfl
@[simp] theorem modCmp_clk (k : Nat) (f : CmpSt → CmpSt) (s : State) : (modCmp k f s).clk = s.clk := rfl
@[simp] theorem modCmp_rst (k : Nat) (f : CmpSt → CmpSt) (s : State) : (modCmp k f s).rst = s.rst := rfl
@[simp] theorem cmpOf_modCmp (k : Nat) (f : CmpSt → CmpSt) (s : State) : cmpOf (modCmp k f s) k = f (cmpOf s k) := Tbl.get_set_self _ _ _ _
theorem cmpOf_modCmp_ne (k : Nat) (f : CmpSt → CmpSt) (s : State) {k' : Nat} (h : k' ≠ k) : cmpOf (modCmp k f s) k' = cmpOf s k' := Tbl.get_set_ne _ _ _ h
@[simp] theorem modTg_pending (k : Nat) (f : TgSt → TgSt) (s : State) : (modTg k f s).pending = s.pending := rfl
@[simp] theorem modTg_freeCtr (k : Nat) (f : TgSt → TgSt) (s : State) : (modTg k f s).freeCtr = s.freeCtr := rfl
@[simp] theorem modTg_outbox (k : Nat) (f : TgSt → TgSt) (s : State) : (modTg k f s).outbox = s.outbox := rfl
@[simp] theorem modTg_time (k : Nat) (f : TgSt → TgSt) (s : State) : (modTg k f s).time = s.time := rfl
@[simp] theorem modTg_inForce (k : Nat) (f : TgSt → TgSt) (s : State) : (modTg k f s).inForce = s.inForce := rfl
@[simp] theorem modTg_shadow (k : Nat) (f : TgSt → TgSt) (s : State) : (modTg k f s).shadow = s.shadow := rfl
@[simp] theorem modTg_rw (k : Nat) (f : TgSt → TgSt) (s : State) : (modTg k f s).rw = s.rw := rfl
@[simp] theorem modTg_written (k : Nat) (f : TgSt → TgSt) (s : State) : (modTg k f s).written = s.written := rfl
@[simp] theorem modTg_commit (k : Nat) (f : TgSt → TgSt) (s : State) : (modTg k f s).commit = s.commit := rfl
@[simp] theorem modTg_conf (k : Nat) (f : TgSt → TgSt) (s : State) : (modTg k f s).conf = s.conf := rfl
@[simp] theorem modTg_slots (k : Nat) (f : TgSt → TgSt) (s : State) : (modTg k f s).slots = s.slots := rfl
@[simp] theorem modTg_units (k : Nat) (f : TgSt → TgSt) (s : State) : (modTg k f s).units = s.units := rfl
@[simp] theorem modTg_hist (k : Nat) (f : TgSt → TgSt) (s : State) : (modTg k f s).hist = s.hist := rfl
@[simp] theorem modTg_xg (k : Nat) (f : TgSt → TgSt) (s : State) : (modTg k f s).xg = s.xg := rfl
@[simp] theorem modTg_rc (k : Nat) (f : TgSt → TgSt) (s : State) : (modTg k f s).rc = s.rc := rfl
@[simp] theorem modTg_tone (k : Nat) (f : TgSt → TgSt) (s : State) : (modTg k f s).tone = s.tone := rfl
@[simp] theorem modTg_toneBox (k : Nat) (f : TgSt → TgSt) (s : State) : (modTg k f s).toneBox = s.toneBox := rfl
@[simp] theorem modTg_biasSplit (k : Nat) (f : TgSt → TgSt) (s : State) : (modTg k f s).biasSplit = s.biasSplit := rfl
@[simp] theorem modTg_biasOff (k : Nat) (f : TgSt → TgSt) (s : State) : (modTg k f s).biasOff = s.biasOff := rfl
@[simp] theorem modTg_decim (k : Nat) (f : TgSt → TgSt) (s : State) : (modTg k f s).decim = s.decim := rfl
@[simp] theorem modTg_ax (k : Nat) (f : TgSt → TgSt) (s : State) : (modTg k f s).ax = s.ax := rfl
@[simp] theorem modTg_axs (k : Nat) (f : TgSt → TgSt) (s : State) : (modTg k f s).axs = s.axs := rfl
@[simp] theorem modTg_se (k : Nat) (f : TgSt → TgSt) (s : State) : (modTg k f s).se = s.se := rfl
@[simp] theorem modTg_tk (k : Nat) (f : TgSt → TgSt) (s : State) : (modTg k f s).tk = s.tk := rfl
@[simp] theorem modTg_maps (k : Nat) (f : TgSt → TgSt) (s : State) : (modTg k f s).maps = s.maps := rfl
@[simp] theorem modTg_gl (k : Nat) (f : TgSt → TgSt) (s : State) : (modTg k f s).gl = s.gl := rfl
@[simp] theorem modTg_rh (k : Nat) (f : TgSt → TgSt) (s : State) : (modTg k f s).rh = s.rh := rfl
@[simp] theorem modTg_ip (k : Nat) (f : TgSt → TgSt) (s : State) : (modTg k f s).ip = s.ip := rfl
@[simp] theorem modTg_sw (k : Nat) (f : TgSt → TgSt) (s : State) : (modTg k f s).sw = s.sw := rfl
@[simp] theorem modTg_em (k : Nat) (f : TgSt → TgSt) (s : State) : (modTg k f s).em = s.em := rfl
@[simp] theorem modTg_cmp (k : Nat) (f : TgSt → TgSt) (s : State) : (modTg k f s).cmp = s.cmp := rfl
@[simp] theorem modTg_pg (k : Nat) (f : TgSt → TgSt) (s : State) : (modTg k f s).pg = s.pg := rfl
@[simp] theorem modTg_keep (k : Nat) (f : TgSt → TgSt) (s : State) : (modTg k f s).keep = s.keep := rfl
@[simp] theorem modTg_fm (k : Nat) (f : TgSt → TgSt) (s : State) : (modTg k f s).fm = s.fm := rfl
@[simp] theorem modTg_net (k : Nat) (f : TgSt → TgSt) (s : State) : (modTg k f s).net = s.net := rfl
@[simp] theorem modTg_hst (k : Nat) (f : TgSt → TgSt) (s : State) : (modTg k f s).hst = s.hst := rfl
@[simp] theorem modTg_twn (k : Nat) (f : TgSt → TgSt) (s : State) : (modTg k f s).twn = s.twn := rfl
@[simp] theorem modTg_hrd (k : Nat) (f : TgSt → TgSt) (s : State) : (modTg k f s).hrd = s.hrd := rfl
@[simp] theorem modTg_sec (k : Nat) (f : TgSt → TgSt) (s : State) : (modTg k f s).sec = s.sec := rfl
@[simp] theorem modTg_flt (k : Nat) (f : TgSt → TgSt) (s : State) : (modTg k f s).flt = s.flt := rfl
@[simp] theorem modTg_mon (k : Nat) (f : TgSt → TgSt) (s : State) : (modTg k f s).mon = s.mon := rfl
@[simp] theorem modTg_clk (k : Nat) (f : TgSt → TgSt) (s : State) : (modTg k f s).clk = s.clk := rfl
@[simp] theorem modTg_rst (k : Nat) (f : TgSt → TgSt) (s : State) : (modTg k f s).rst = s.rst := rfl
@[simp] theorem tgOf_modTg (k : Nat) (f : TgSt → TgSt) (s : State) : tgOf (modTg k f s) k = f (tgOf s k) := Tbl.get_set_self _ _ _ _
theorem tgOf_modTg_ne (k : Nat) (f : TgSt → TgSt) (s : State) {k' : Nat} (h : k' ≠ k) : tgOf (modTg k f s) k' = tgOf s k' := Tbl.get_set_ne _ _ _ h
@[simp] theorem modPg_pending (g : Nat) (f : PgSt → PgSt) (s : State) : (modPg g f s).pending = s.pending := rfl
@[simp] theorem modPg_freeCtr (g : Nat) (f : PgSt → PgSt) (s : State) : (modPg g f s).freeCtr = s.freeCtr := rfl
@[simp] theorem modPg_outbox (g : Nat) (f : PgSt → PgSt) (s : State) : (modPg g f s).outbox = s.outbox := rfl
@[simp] theorem modPg_time (g : Nat) (f : PgSt → PgSt) (s : State) : (modPg g f s).time = s.time := rfl
@[simp] theorem modPg_inForce (g : Nat) (f : PgSt → PgSt) (s : State) : (modPg g f s).inForce = s.inForce := rfl
@[simp] theorem modPg_shadow (g : Nat) (f : PgSt → PgSt) (s : State) : (modPg g f s).shadow = s.shadow := rfl
@[simp] theorem modPg_rw (g : Nat) (f : PgSt → PgSt) (s : State) : (modPg g f s).rw = s.rw := rfl
@[simp] theorem modPg_written (g : Nat) (f : PgSt → PgSt) (s : State) : (modPg g f s).written = s.written := rfl
@[simp] theorem modPg_commit (g : Nat) (f : PgSt → PgSt) (s : State) : (modPg g f s).commit = s.commit := rfl
@[simp] theorem modPg_conf (g : Nat) (f : PgSt → PgSt) (s : State) : (modPg g f s).conf = s.conf := rfl
@[simp] theorem modPg_slots (g : Nat) (f : PgSt → PgSt) (s : State) : (modPg g f s).slots = s.slots := rfl
@[simp] theorem modPg_units (g : Nat) (f : PgSt → PgSt) (s : State) : (modPg g f s).units = s.units := rfl
@[simp] theorem modPg_hist (g : Nat) (f : PgSt → PgSt) (s : State) : (modPg g f s).hist = s.hist := rfl
@[simp] theorem modPg_xg (g : Nat) (f : PgSt → PgSt) (s : State) : (modPg g f s).xg = s.xg := rfl
@[simp] theorem modPg_rc (g : Nat) (f : PgSt → PgSt) (s : State) : (modPg g f s).rc = s.rc := rfl
@[simp] theorem modPg_tone (g : Nat) (f : PgSt → PgSt) (s : State) : (modPg g f s).tone = s.tone := rfl
@[simp] theorem modPg_toneBox (g : Nat) (f : PgSt → PgSt) (s : State) : (modPg g f s).toneBox = s.toneBox := rfl
@[simp] theorem modPg_biasSplit (g : Nat) (f : PgSt → PgSt) (s : State) : (modPg g f s).biasSplit = s.biasSplit := rfl
@[simp] theorem modPg_biasOff (g : Nat) (f : PgSt → PgSt) (s : State) : (modPg g f s).biasOff = s.biasOff := rfl
@[simp] theorem modPg_decim (g : Nat) (f : PgSt → PgSt) (s : State) : (modPg g f s).decim = s.decim := rfl
@[simp] theorem modPg_ax (g : Nat) (f : PgSt → PgSt) (s : State) : (modPg g f s).ax = s.ax := rfl
@[simp] theorem modPg_axs (g : Nat) (f : PgSt → PgSt) (s : State) : (modPg g f s).axs = s.axs := rfl
@[simp] theorem modPg_se (g : Nat) (f : PgSt → PgSt) (s : State) : (modPg g f s).se = s.se := rfl
@[simp] theorem modPg_tk (g : Nat) (f : PgSt → PgSt) (s : State) : (modPg g f s).tk = s.tk := rfl
@[simp] theorem modPg_maps (g : Nat) (f : PgSt → PgSt) (s : State) : (modPg g f s).maps = s.maps := rfl
@[simp] theorem modPg_gl (g : Nat) (f : PgSt → PgSt) (s : State) : (modPg g f s).gl = s.gl := rfl
@[simp] theorem modPg_rh (g : Nat) (f : PgSt → PgSt) (s : State) : (modPg g f s).rh = s.rh := rfl
@[simp] theorem modPg_ip (g : Nat) (f : PgSt → PgSt) (s : State) : (modPg g f s).ip = s.ip := rfl
@[simp] theorem modPg_sw (g : Nat) (f : PgSt → PgSt) (s : State) : (modPg g f s).sw = s.sw := rfl
@[simp] theorem modPg_em (g : Nat) (f : PgSt → PgSt) (s : State) : (modPg g f s).em = s.em := rfl
@[simp] theorem modPg_cmp (g : Nat) (f : PgSt → PgSt) (s : State) : (modPg g f s).cmp = s.cmp := rfl
@[simp] theorem modPg_tg (g : Nat) (f : PgSt → PgSt) (s : State) : (modPg g f s).tg = s.tg := rfl
@[simp] theorem modPg_keep (g : Nat) (f : PgSt → PgSt) (s : State) : (modPg g f s).keep = s.keep := rfl
@[simp] theorem modPg_fm (g : Nat) (f : PgSt → PgSt) (s : State) : (modPg g f s).fm = s.fm := rfl
@[simp] theorem modPg_net (g : Nat) (f : PgSt → PgSt) (s : State) : (modPg g f s).net = s.net := rfl
@[simp] theorem modPg_hst (g : Nat) (f : PgSt → PgSt) (s : State) : (modPg g f s).hst = s.hst := rfl
@[simp] theorem modPg_twn (g : Nat) (f : PgSt → PgSt) (s : State) : (modPg g f s).twn = s.twn := rfl
@[simp] theorem modPg_hrd (g : Nat) (f : PgSt → PgSt) (s : State) : (modPg g f s).hrd = s.hrd := rfl
@[simp] theorem modPg_sec (g : Nat) (f : PgSt → PgSt) (s : State) : (modPg g f s).sec = s.sec := rfl
@[simp] theorem modPg_flt (g : Nat) (f : PgSt → PgSt) (s : State) : (modPg g f s).flt = s.flt := rfl
@[simp] theorem modPg_mon (g : Nat) (f : PgSt → PgSt) (s : State) : (modPg g f s).mon = s.mon := rfl
@[simp] theorem modPg_clk (g : Nat) (f : PgSt → PgSt) (s : State) : (modPg g f s).clk = s.clk := rfl
@[simp] theorem modPg_rst (g : Nat) (f : PgSt → PgSt) (s : State) : (modPg g f s).rst = s.rst := rfl
@[simp] theorem pgOf_modPg (g : Nat) (f : PgSt → PgSt) (s : State) : pgOf (modPg g f s) g = f (pgOf s g) := Tbl.get_set_self _ _ _ _
theorem pgOf_modPg_ne (g : Nat) (f : PgSt → PgSt) (s : State) {k' : Nat} (h : k' ≠ g) : pgOf (modPg g f s) k' = pgOf s k' := Tbl.get_set_ne _ _ _ h

/-! ### Tables inside a part -/

@[simp] theorem modTile_pending (t : Nat) (f : TileSt → TileSt) (s : State) : (modTile t f s).pending = s.pending := rfl
@[simp] theorem modTile_freeCtr (t : Nat) (f : TileSt → TileSt) (s : State) : (modTile t f s).freeCtr = s.freeCtr := rfl
@[simp] theorem modTile_outbox (t : Nat) (f : TileSt → TileSt) (s : State) : (modTile t f s).outbox = s.outbox := rfl
@[simp] theorem modTile_time (t : Nat) (f : TileSt → TileSt) (s : State) : (modTile t f s).time = s.time := rfl
@[simp] theorem modTile_inForce (t : Nat) (f : TileSt → TileSt) (s : State) : (modTile t f s).inForce = s.inForce := rfl
@[simp] theorem modTile_shadow (t : Nat) (f : TileSt → TileSt) (s : State) : (modTile t f s).shadow = s.shadow := rfl
@[simp] theorem modTile_rw (t : Nat) (f : TileSt → TileSt) (s : State) : (modTile t f s).rw = s.rw := rfl
@[simp] theorem modTile_written (t : Nat) (f : TileSt → TileSt) (s : State) : (modTile t f s).written = s.written := rfl
@[simp] theorem modTile_commit (t : Nat) (f : TileSt → TileSt) (s : State) : (modTile t f s).commit = s.commit := rfl
@[simp] theorem modTile_conf (t : Nat) (f : TileSt → TileSt) (s : State) : (modTile t f s).conf = s.conf := rfl
@[simp] theorem modTile_slots (t : Nat) (f : TileSt → TileSt) (s : State) : (modTile t f s).slots = s.slots := rfl
@[simp] theorem modTile_units (t : Nat) (f : TileSt → TileSt) (s : State) : (modTile t f s).units = s.units := rfl
@[simp] theorem modTile_hist (t : Nat) (f : TileSt → TileSt) (s : State) : (modTile t f s).hist = s.hist := rfl
@[simp] theorem modTile_xg (t : Nat) (f : TileSt → TileSt) (s : State) : (modTile t f s).xg = s.xg := rfl
@[simp] theorem modTile_rc (t : Nat) (f : TileSt → TileSt) (s : State) : (modTile t f s).rc = s.rc := rfl
@[simp] theorem modTile_tone (t : Nat) (f : TileSt → TileSt) (s : State) : (modTile t f s).tone = s.tone := rfl
@[simp] theorem modTile_toneBox (t : Nat) (f : TileSt → TileSt) (s : State) : (modTile t f s).toneBox = s.toneBox := rfl
@[simp] theorem modTile_biasSplit (t : Nat) (f : TileSt → TileSt) (s : State) : (modTile t f s).biasSplit = s.biasSplit := rfl
@[simp] theorem modTile_biasOff (t : Nat) (f : TileSt → TileSt) (s : State) : (modTile t f s).biasOff = s.biasOff := rfl
@[simp] theorem modTile_decim (t : Nat) (f : TileSt → TileSt) (s : State) : (modTile t f s).decim = s.decim := rfl
@[simp] theorem modTile_ax (t : Nat) (f : TileSt → TileSt) (s : State) : (modTile t f s).ax = s.ax := rfl
@[simp] theorem modTile_axs (t : Nat) (f : TileSt → TileSt) (s : State) : (modTile t f s).axs = s.axs := rfl
@[simp] theorem modTile_se (t : Nat) (f : TileSt → TileSt) (s : State) : (modTile t f s).se = s.se := rfl
@[simp] theorem modTile_tk (t : Nat) (f : TileSt → TileSt) (s : State) : (modTile t f s).tk = s.tk := rfl
@[simp] theorem modTile_maps (t : Nat) (f : TileSt → TileSt) (s : State) : (modTile t f s).maps = s.maps := rfl
@[simp] theorem modTile_gl (t : Nat) (f : TileSt → TileSt) (s : State) : (modTile t f s).gl = s.gl := rfl
@[simp] theorem modTile_rh (t : Nat) (f : TileSt → TileSt) (s : State) : (modTile t f s).rh = s.rh := rfl
@[simp] theorem modTile_ip (t : Nat) (f : TileSt → TileSt) (s : State) : (modTile t f s).ip = s.ip := rfl
@[simp] theorem modTile_sw (t : Nat) (f : TileSt → TileSt) (s : State) : (modTile t f s).sw = s.sw := rfl
@[simp] theorem modTile_em (t : Nat) (f : TileSt → TileSt) (s : State) : (modTile t f s).em = s.em := rfl
@[simp] theorem modTile_cmp (t : Nat) (f : TileSt → TileSt) (s : State) : (modTile t f s).cmp = s.cmp := rfl
@[simp] theorem modTile_tg (t : Nat) (f : TileSt → TileSt) (s : State) : (modTile t f s).tg = s.tg := rfl
@[simp] theorem modTile_pg (t : Nat) (f : TileSt → TileSt) (s : State) : (modTile t f s).pg = s.pg := rfl
@[simp] theorem modTile_keep (t : Nat) (f : TileSt → TileSt) (s : State) : (modTile t f s).keep = s.keep := rfl
@[simp] theorem modTile_fm_mem (t : Nat) (f : TileSt → TileSt) (s : State) : (modTile t f s).fm.mem = s.fm.mem := rfl
@[simp] theorem modTile_fm_stage (t : Nat) (f : TileSt → TileSt) (s : State) : (modTile t f s).fm.stage = s.fm.stage := rfl
@[simp] theorem modTile_fm_lastLen (t : Nat) (f : TileSt → TileSt) (s : State) : (modTile t f s).fm.lastLen = s.fm.lastLen := rfl
@[simp] theorem modTile_fm_lastFrame (t : Nat) (f : TileSt → TileSt) (s : State) : (modTile t f s).fm.lastFrame = s.fm.lastFrame := rfl
@[simp] theorem modTile_fm_lastSlot (t : Nat) (f : TileSt → TileSt) (s : State) : (modTile t f s).fm.lastSlot = s.fm.lastSlot := rfl
@[simp] theorem modTile_fm_laid (t : Nat) (f : TileSt → TileSt) (s : State) : (modTile t f s).fm.laid = s.fm.laid := rfl
@[simp] theorem modTile_fm_bbHead (t : Nat) (f : TileSt → TileSt) (s : State) : (modTile t f s).fm.bbHead = s.fm.bbHead := rfl
@[simp] theorem modTile_fm_bbCount (t : Nat) (f : TileSt → TileSt) (s : State) : (modTile t f s).fm.bbCount = s.fm.bbCount := rfl
@[simp] theorem modTile_fm_bbAged (t : Nat) (f : TileSt → TileSt) (s : State) : (modTile t f s).fm.bbAged = s.fm.bbAged := rfl
@[simp] theorem modTile_fm_tileFails (t : Nat) (f : TileSt → TileSt) (s : State) : (modTile t f s).fm.tileFails = s.fm.tileFails := rfl
@[simp] theorem modTile_fm_lastBad (t : Nat) (f : TileSt → TileSt) (s : State) : (modTile t f s).fm.lastBad = s.fm.lastBad := rfl
@[simp] theorem modTile_fm_scrubPos (t : Nat) (f : TileSt → TileSt) (s : State) : (modTile t f s).fm.scrubPos = s.fm.scrubPos := rfl
@[simp] theorem modTile_fm_failAt (t : Nat) (f : TileSt → TileSt) (s : State) : (modTile t f s).fm.failAt = s.fm.failAt := rfl
@[simp] theorem modTile_fm_scrubLeft (t : Nat) (f : TileSt → TileSt) (s : State) : (modTile t f s).fm.scrubLeft = s.fm.scrubLeft := rfl
@[simp] theorem modTile_fm_dropsBb (t : Nat) (f : TileSt → TileSt) (s : State) : (modTile t f s).fm.dropsBb = s.fm.dropsBb := rfl
@[simp] theorem modTile_fm_dropsDma (t : Nat) (f : TileSt → TileSt) (s : State) : (modTile t f s).fm.dropsDma = s.fm.dropsDma := rfl
@[simp] theorem modTile_fm_dropsTwin (t : Nat) (f : TileSt → TileSt) (s : State) : (modTile t f s).fm.dropsTwin = s.fm.dropsTwin := rfl
@[simp] theorem modTile_fm_dropsForced (t : Nat) (f : TileSt → TileSt) (s : State) : (modTile t f s).fm.dropsForced = s.fm.dropsForced := rfl
@[simp] theorem modTile_fm_ledger (t : Nat) (f : TileSt → TileSt) (s : State) : (modTile t f s).fm.ledger = s.fm.ledger := rfl
@[simp] theorem modTile_fm_ledgerFrame (t : Nat) (f : TileSt → TileSt) (s : State) : (modTile t f s).fm.ledgerFrame = s.fm.ledgerFrame := rfl
@[simp] theorem modTile_fm_deferred (t : Nat) (f : TileSt → TileSt) (s : State) : (modTile t f s).fm.deferred = s.fm.deferred := rfl
@[simp] theorem modTile_fm_events (t : Nat) (f : TileSt → TileSt) (s : State) : (modTile t f s).fm.events = s.fm.events := rfl
@[simp] theorem modTile_net (t : Nat) (f : TileSt → TileSt) (s : State) : (modTile t f s).net = s.net := rfl
@[simp] theorem modTile_hst (t : Nat) (f : TileSt → TileSt) (s : State) : (modTile t f s).hst = s.hst := rfl
@[simp] theorem modTile_twn (t : Nat) (f : TileSt → TileSt) (s : State) : (modTile t f s).twn = s.twn := rfl
@[simp] theorem modTile_hrd (t : Nat) (f : TileSt → TileSt) (s : State) : (modTile t f s).hrd = s.hrd := rfl
@[simp] theorem modTile_sec (t : Nat) (f : TileSt → TileSt) (s : State) : (modTile t f s).sec = s.sec := rfl
@[simp] theorem modTile_flt (t : Nat) (f : TileSt → TileSt) (s : State) : (modTile t f s).flt = s.flt := rfl
@[simp] theorem modTile_mon (t : Nat) (f : TileSt → TileSt) (s : State) : (modTile t f s).mon = s.mon := rfl
@[simp] theorem modTile_clk (t : Nat) (f : TileSt → TileSt) (s : State) : (modTile t f s).clk = s.clk := rfl
@[simp] theorem modTile_rst (t : Nat) (f : TileSt → TileSt) (s : State) : (modTile t f s).rst = s.rst := rfl
@[simp] theorem tileOf_modTile (t : Nat) (f : TileSt → TileSt) (s : State) : tileOf (modTile t f s) t = f (tileOf s t) := Tbl.get_set_self _ _ _ _
theorem tileOf_modTile_ne (t : Nat) (f : TileSt → TileSt) (s : State) {k' : Nat} (h : k' ≠ t) : tileOf (modTile t f s) k' = tileOf s k' := Tbl.get_set_ne _ _ _ h
@[simp] theorem modLed_pending (k : Nat) (f : LedSt → LedSt) (s : State) : (modLed k f s).pending = s.pending := rfl
@[simp] theorem modLed_freeCtr (k : Nat) (f : LedSt → LedSt) (s : State) : (modLed k f s).freeCtr = s.freeCtr := rfl
@[simp] theorem modLed_outbox (k : Nat) (f : LedSt → LedSt) (s : State) : (modLed k f s).outbox = s.outbox := rfl
@[simp] theorem modLed_time (k : Nat) (f : LedSt → LedSt) (s : State) : (modLed k f s).time = s.time := rfl
@[simp] theorem modLed_inForce (k : Nat) (f : LedSt → LedSt) (s : State) : (modLed k f s).inForce = s.inForce := rfl
@[simp] theorem modLed_shadow (k : Nat) (f : LedSt → LedSt) (s : State) : (modLed k f s).shadow = s.shadow := rfl
@[simp] theorem modLed_rw (k : Nat) (f : LedSt → LedSt) (s : State) : (modLed k f s).rw = s.rw := rfl
@[simp] theorem modLed_written (k : Nat) (f : LedSt → LedSt) (s : State) : (modLed k f s).written = s.written := rfl
@[simp] theorem modLed_commit (k : Nat) (f : LedSt → LedSt) (s : State) : (modLed k f s).commit = s.commit := rfl
@[simp] theorem modLed_conf (k : Nat) (f : LedSt → LedSt) (s : State) : (modLed k f s).conf = s.conf := rfl
@[simp] theorem modLed_slots (k : Nat) (f : LedSt → LedSt) (s : State) : (modLed k f s).slots = s.slots := rfl
@[simp] theorem modLed_units (k : Nat) (f : LedSt → LedSt) (s : State) : (modLed k f s).units = s.units := rfl
@[simp] theorem modLed_hist (k : Nat) (f : LedSt → LedSt) (s : State) : (modLed k f s).hist = s.hist := rfl
@[simp] theorem modLed_xg (k : Nat) (f : LedSt → LedSt) (s : State) : (modLed k f s).xg = s.xg := rfl
@[simp] theorem modLed_rc (k : Nat) (f : LedSt → LedSt) (s : State) : (modLed k f s).rc = s.rc := rfl
@[simp] theorem modLed_tone (k : Nat) (f : LedSt → LedSt) (s : State) : (modLed k f s).tone = s.tone := rfl
@[simp] theorem modLed_toneBox (k : Nat) (f : LedSt → LedSt) (s : State) : (modLed k f s).toneBox = s.toneBox := rfl
@[simp] theorem modLed_biasSplit (k : Nat) (f : LedSt → LedSt) (s : State) : (modLed k f s).biasSplit = s.biasSplit := rfl
@[simp] theorem modLed_biasOff (k : Nat) (f : LedSt → LedSt) (s : State) : (modLed k f s).biasOff = s.biasOff := rfl
@[simp] theorem modLed_decim (k : Nat) (f : LedSt → LedSt) (s : State) : (modLed k f s).decim = s.decim := rfl
@[simp] theorem modLed_ax (k : Nat) (f : LedSt → LedSt) (s : State) : (modLed k f s).ax = s.ax := rfl
@[simp] theorem modLed_axs (k : Nat) (f : LedSt → LedSt) (s : State) : (modLed k f s).axs = s.axs := rfl
@[simp] theorem modLed_se (k : Nat) (f : LedSt → LedSt) (s : State) : (modLed k f s).se = s.se := rfl
@[simp] theorem modLed_tk (k : Nat) (f : LedSt → LedSt) (s : State) : (modLed k f s).tk = s.tk := rfl
@[simp] theorem modLed_maps (k : Nat) (f : LedSt → LedSt) (s : State) : (modLed k f s).maps = s.maps := rfl
@[simp] theorem modLed_gl (k : Nat) (f : LedSt → LedSt) (s : State) : (modLed k f s).gl = s.gl := rfl
@[simp] theorem modLed_rh (k : Nat) (f : LedSt → LedSt) (s : State) : (modLed k f s).rh = s.rh := rfl
@[simp] theorem modLed_ip (k : Nat) (f : LedSt → LedSt) (s : State) : (modLed k f s).ip = s.ip := rfl
@[simp] theorem modLed_sw (k : Nat) (f : LedSt → LedSt) (s : State) : (modLed k f s).sw = s.sw := rfl
@[simp] theorem modLed_em (k : Nat) (f : LedSt → LedSt) (s : State) : (modLed k f s).em = s.em := rfl
@[simp] theorem modLed_cmp (k : Nat) (f : LedSt → LedSt) (s : State) : (modLed k f s).cmp = s.cmp := rfl
@[simp] theorem modLed_tg (k : Nat) (f : LedSt → LedSt) (s : State) : (modLed k f s).tg = s.tg := rfl
@[simp] theorem modLed_pg (k : Nat) (f : LedSt → LedSt) (s : State) : (modLed k f s).pg = s.pg := rfl
@[simp] theorem modLed_keep (k : Nat) (f : LedSt → LedSt) (s : State) : (modLed k f s).keep = s.keep := rfl
@[simp] theorem modLed_fm_mem (k : Nat) (f : LedSt → LedSt) (s : State) : (modLed k f s).fm.mem = s.fm.mem := rfl
@[simp] theorem modLed_fm_tiles (k : Nat) (f : LedSt → LedSt) (s : State) : (modLed k f s).fm.tiles = s.fm.tiles := rfl
@[simp] theorem modLed_fm_stage (k : Nat) (f : LedSt → LedSt) (s : State) : (modLed k f s).fm.stage = s.fm.stage := rfl
@[simp] theorem modLed_fm_lastLen (k : Nat) (f : LedSt → LedSt) (s : State) : (modLed k f s).fm.lastLen = s.fm.lastLen := rfl
@[simp] theorem modLed_fm_lastFrame (k : Nat) (f : LedSt → LedSt) (s : State) : (modLed k f s).fm.lastFrame = s.fm.lastFrame := rfl
@[simp] theorem modLed_fm_lastSlot (k : Nat) (f : LedSt → LedSt) (s : State) : (modLed k f s).fm.lastSlot = s.fm.lastSlot := rfl
@[simp] theorem modLed_fm_laid (k : Nat) (f : LedSt → LedSt) (s : State) : (modLed k f s).fm.laid = s.fm.laid := rfl
@[simp] theorem modLed_fm_bbHead (k : Nat) (f : LedSt → LedSt) (s : State) : (modLed k f s).fm.bbHead = s.fm.bbHead := rfl
@[simp] theorem modLed_fm_bbCount (k : Nat) (f : LedSt → LedSt) (s : State) : (modLed k f s).fm.bbCount = s.fm.bbCount := rfl
@[simp] theorem modLed_fm_bbAged (k : Nat) (f : LedSt → LedSt) (s : State) : (modLed k f s).fm.bbAged = s.fm.bbAged := rfl
@[simp] theorem modLed_fm_tileFails (k : Nat) (f : LedSt → LedSt) (s : State) : (modLed k f s).fm.tileFails = s.fm.tileFails := rfl
@[simp] theorem modLed_fm_lastBad (k : Nat) (f : LedSt → LedSt) (s : State) : (modLed k f s).fm.lastBad = s.fm.lastBad := rfl
@[simp] theorem modLed_fm_scrubPos (k : Nat) (f : LedSt → LedSt) (s : State) : (modLed k f s).fm.scrubPos = s.fm.scrubPos := rfl
@[simp] theorem modLed_fm_failAt (k : Nat) (f : LedSt → LedSt) (s : State) : (modLed k f s).fm.failAt = s.fm.failAt := rfl
@[simp] theorem modLed_fm_scrubLeft (k : Nat) (f : LedSt → LedSt) (s : State) : (modLed k f s).fm.scrubLeft = s.fm.scrubLeft := rfl
@[simp] theorem modLed_fm_dropsBb (k : Nat) (f : LedSt → LedSt) (s : State) : (modLed k f s).fm.dropsBb = s.fm.dropsBb := rfl
@[simp] theorem modLed_fm_dropsDma (k : Nat) (f : LedSt → LedSt) (s : State) : (modLed k f s).fm.dropsDma = s.fm.dropsDma := rfl
@[simp] theorem modLed_fm_dropsTwin (k : Nat) (f : LedSt → LedSt) (s : State) : (modLed k f s).fm.dropsTwin = s.fm.dropsTwin := rfl
@[simp] theorem modLed_fm_dropsForced (k : Nat) (f : LedSt → LedSt) (s : State) : (modLed k f s).fm.dropsForced = s.fm.dropsForced := rfl
@[simp] theorem modLed_fm_ledgerFrame (k : Nat) (f : LedSt → LedSt) (s : State) : (modLed k f s).fm.ledgerFrame = s.fm.ledgerFrame := rfl
@[simp] theorem modLed_fm_deferred (k : Nat) (f : LedSt → LedSt) (s : State) : (modLed k f s).fm.deferred = s.fm.deferred := rfl
@[simp] theorem modLed_fm_events (k : Nat) (f : LedSt → LedSt) (s : State) : (modLed k f s).fm.events = s.fm.events := rfl
@[simp] theorem modLed_net (k : Nat) (f : LedSt → LedSt) (s : State) : (modLed k f s).net = s.net := rfl
@[simp] theorem modLed_hst (k : Nat) (f : LedSt → LedSt) (s : State) : (modLed k f s).hst = s.hst := rfl
@[simp] theorem modLed_twn (k : Nat) (f : LedSt → LedSt) (s : State) : (modLed k f s).twn = s.twn := rfl
@[simp] theorem modLed_hrd (k : Nat) (f : LedSt → LedSt) (s : State) : (modLed k f s).hrd = s.hrd := rfl
@[simp] theorem modLed_sec (k : Nat) (f : LedSt → LedSt) (s : State) : (modLed k f s).sec = s.sec := rfl
@[simp] theorem modLed_flt (k : Nat) (f : LedSt → LedSt) (s : State) : (modLed k f s).flt = s.flt := rfl
@[simp] theorem modLed_mon (k : Nat) (f : LedSt → LedSt) (s : State) : (modLed k f s).mon = s.mon := rfl
@[simp] theorem modLed_clk (k : Nat) (f : LedSt → LedSt) (s : State) : (modLed k f s).clk = s.clk := rfl
@[simp] theorem modLed_rst (k : Nat) (f : LedSt → LedSt) (s : State) : (modLed k f s).rst = s.rst := rfl
@[simp] theorem ledOf_modLed (k : Nat) (f : LedSt → LedSt) (s : State) : ledOf (modLed k f s) k = f (ledOf s k) := Tbl.get_set_self _ _ _ _
theorem ledOf_modLed_ne (k : Nat) (f : LedSt → LedSt) (s : State) {k' : Nat} (h : k' ≠ k) : ledOf (modLed k f s) k' = ledOf s k' := Tbl.get_set_ne _ _ _ h
@[simp] theorem modFs_pending (u : Nat) (f : FsSt → FsSt) (s : State) : (modFs u f s).pending = s.pending := rfl
@[simp] theorem modFs_freeCtr (u : Nat) (f : FsSt → FsSt) (s : State) : (modFs u f s).freeCtr = s.freeCtr := rfl
@[simp] theorem modFs_outbox (u : Nat) (f : FsSt → FsSt) (s : State) : (modFs u f s).outbox = s.outbox := rfl
@[simp] theorem modFs_time (u : Nat) (f : FsSt → FsSt) (s : State) : (modFs u f s).time = s.time := rfl
@[simp] theorem modFs_inForce (u : Nat) (f : FsSt → FsSt) (s : State) : (modFs u f s).inForce = s.inForce := rfl
@[simp] theorem modFs_shadow (u : Nat) (f : FsSt → FsSt) (s : State) : (modFs u f s).shadow = s.shadow := rfl
@[simp] theorem modFs_rw (u : Nat) (f : FsSt → FsSt) (s : State) : (modFs u f s).rw = s.rw := rfl
@[simp] theorem modFs_written (u : Nat) (f : FsSt → FsSt) (s : State) : (modFs u f s).written = s.written := rfl
@[simp] theorem modFs_commit (u : Nat) (f : FsSt → FsSt) (s : State) : (modFs u f s).commit = s.commit := rfl
@[simp] theorem modFs_conf (u : Nat) (f : FsSt → FsSt) (s : State) : (modFs u f s).conf = s.conf := rfl
@[simp] theorem modFs_slots (u : Nat) (f : FsSt → FsSt) (s : State) : (modFs u f s).slots = s.slots := rfl
@[simp] theorem modFs_units (u : Nat) (f : FsSt → FsSt) (s : State) : (modFs u f s).units = s.units := rfl
@[simp] theorem modFs_hist (u : Nat) (f : FsSt → FsSt) (s : State) : (modFs u f s).hist = s.hist := rfl
@[simp] theorem modFs_xg (u : Nat) (f : FsSt → FsSt) (s : State) : (modFs u f s).xg = s.xg := rfl
@[simp] theorem modFs_rc (u : Nat) (f : FsSt → FsSt) (s : State) : (modFs u f s).rc = s.rc := rfl
@[simp] theorem modFs_tone (u : Nat) (f : FsSt → FsSt) (s : State) : (modFs u f s).tone = s.tone := rfl
@[simp] theorem modFs_toneBox (u : Nat) (f : FsSt → FsSt) (s : State) : (modFs u f s).toneBox = s.toneBox := rfl
@[simp] theorem modFs_biasSplit (u : Nat) (f : FsSt → FsSt) (s : State) : (modFs u f s).biasSplit = s.biasSplit := rfl
@[simp] theorem modFs_biasOff (u : Nat) (f : FsSt → FsSt) (s : State) : (modFs u f s).biasOff = s.biasOff := rfl
@[simp] theorem modFs_decim (u : Nat) (f : FsSt → FsSt) (s : State) : (modFs u f s).decim = s.decim := rfl
@[simp] theorem modFs_ax (u : Nat) (f : FsSt → FsSt) (s : State) : (modFs u f s).ax = s.ax := rfl
@[simp] theorem modFs_axs (u : Nat) (f : FsSt → FsSt) (s : State) : (modFs u f s).axs = s.axs := rfl
@[simp] theorem modFs_se (u : Nat) (f : FsSt → FsSt) (s : State) : (modFs u f s).se = s.se := rfl
@[simp] theorem modFs_tk (u : Nat) (f : FsSt → FsSt) (s : State) : (modFs u f s).tk = s.tk := rfl
@[simp] theorem modFs_maps (u : Nat) (f : FsSt → FsSt) (s : State) : (modFs u f s).maps = s.maps := rfl
@[simp] theorem modFs_gl (u : Nat) (f : FsSt → FsSt) (s : State) : (modFs u f s).gl = s.gl := rfl
@[simp] theorem modFs_rh (u : Nat) (f : FsSt → FsSt) (s : State) : (modFs u f s).rh = s.rh := rfl
@[simp] theorem modFs_ip (u : Nat) (f : FsSt → FsSt) (s : State) : (modFs u f s).ip = s.ip := rfl
@[simp] theorem modFs_sw (u : Nat) (f : FsSt → FsSt) (s : State) : (modFs u f s).sw = s.sw := rfl
@[simp] theorem modFs_em (u : Nat) (f : FsSt → FsSt) (s : State) : (modFs u f s).em = s.em := rfl
@[simp] theorem modFs_cmp (u : Nat) (f : FsSt → FsSt) (s : State) : (modFs u f s).cmp = s.cmp := rfl
@[simp] theorem modFs_tg (u : Nat) (f : FsSt → FsSt) (s : State) : (modFs u f s).tg = s.tg := rfl
@[simp] theorem modFs_pg (u : Nat) (f : FsSt → FsSt) (s : State) : (modFs u f s).pg = s.pg := rfl
@[simp] theorem modFs_keep (u : Nat) (f : FsSt → FsSt) (s : State) : (modFs u f s).keep = s.keep := rfl
@[simp] theorem modFs_fm (u : Nat) (f : FsSt → FsSt) (s : State) : (modFs u f s).fm = s.fm := rfl
@[simp] theorem modFs_net (u : Nat) (f : FsSt → FsSt) (s : State) : (modFs u f s).net = s.net := rfl
@[simp] theorem modFs_hst (u : Nat) (f : FsSt → FsSt) (s : State) : (modFs u f s).hst = s.hst := rfl
@[simp] theorem modFs_twn (u : Nat) (f : FsSt → FsSt) (s : State) : (modFs u f s).twn = s.twn := rfl
@[simp] theorem modFs_hrd (u : Nat) (f : FsSt → FsSt) (s : State) : (modFs u f s).hrd = s.hrd := rfl
@[simp] theorem modFs_sec (u : Nat) (f : FsSt → FsSt) (s : State) : (modFs u f s).sec = s.sec := rfl
@[simp] theorem modFs_flt_queues (u : Nat) (f : FsSt → FsSt) (s : State) : (modFs u f s).flt.queues = s.flt.queues := rfl
@[simp] theorem modFs_flt_seq (u : Nat) (f : FsSt → FsSt) (s : State) : (modFs u f s).flt.seq = s.flt.seq := rfl
@[simp] theorem modFs_flt_drops (u : Nat) (f : FsSt → FsSt) (s : State) : (modFs u f s).flt.drops = s.flt.drops := rfl
@[simp] theorem modFs_flt_conds (u : Nat) (f : FsSt → FsSt) (s : State) : (modFs u f s).flt.conds = s.flt.conds := rfl
@[simp] theorem modFs_flt_ffValid (u : Nat) (f : FsSt → FsSt) (s : State) : (modFs u f s).flt.ffValid = s.flt.ffValid := rfl
@[simp] theorem modFs_flt_ffClass (u : Nat) (f : FsSt → FsSt) (s : State) : (modFs u f s).flt.ffClass = s.flt.ffClass := rfl
@[simp] theorem modFs_flt_ffPromoted (u : Nat) (f : FsSt → FsSt) (s : State) : (modFs u f s).flt.ffPromoted = s.flt.ffPromoted := rfl
@[simp] theorem modFs_flt_ffSimult (u : Nat) (f : FsSt → FsSt) (s : State) : (modFs u f s).flt.ffSimult = s.flt.ffSimult := rfl
@[simp] theorem modFs_flt_ffMsg (u : Nat) (f : FsSt → FsSt) (s : State) : (modFs u f s).flt.ffMsg = s.flt.ffMsg := rfl
@[simp] theorem modFs_flt_ffTime (u : Nat) (f : FsSt → FsSt) (s : State) : (modFs u f s).flt.ffTime = s.flt.ffTime := rfl
@[simp] theorem modFs_flt_ffSeq (u : Nat) (f : FsSt → FsSt) (s : State) : (modFs u f s).flt.ffSeq = s.flt.ffSeq := rfl
@[simp] theorem modFs_flt_classCount (u : Nat) (f : FsSt → FsSt) (s : State) : (modFs u f s).flt.classCount = s.flt.classCount := rfl
@[simp] theorem modFs_flt_alarm (u : Nat) (f : FsSt → FsSt) (s : State) : (modFs u f s).flt.alarm = s.flt.alarm := rfl
@[simp] theorem modFs_flt_alarmHold (u : Nat) (f : FsSt → FsSt) (s : State) : (modFs u f s).flt.alarmHold = s.flt.alarmHold := rfl
@[simp] theorem modFs_flt_alarmCount (u : Nat) (f : FsSt → FsSt) (s : State) : (modFs u f s).flt.alarmCount = s.flt.alarmCount := rfl
@[simp] theorem modFs_flt_alarmOn (u : Nat) (f : FsSt → FsSt) (s : State) : (modFs u f s).flt.alarmOn = s.flt.alarmOn := rfl
@[simp] theorem modFs_flt_alarmFree (u : Nat) (f : FsSt → FsSt) (s : State) : (modFs u f s).flt.alarmFree = s.flt.alarmFree := rfl
@[simp] theorem modFs_flt_alarmLevel (u : Nat) (f : FsSt → FsSt) (s : State) : (modFs u f s).flt.alarmLevel = s.flt.alarmLevel := rfl
@[simp] theorem modFs_flt_hbLost (u : Nat) (f : FsSt → FsSt) (s : State) : (modFs u f s).flt.hbLost = s.flt.hbLost := rfl
@[simp] theorem modFs_flt_hbLast (u : Nat) (f : FsSt → FsSt) (s : State) : (modFs u f s).flt.hbLast = s.flt.hbLast := rfl
@[simp] theorem modFs_flt_hbLostAt (u : Nat) (f : FsSt → FsSt) (s : State) : (modFs u f s).flt.hbLostAt = s.flt.hbLostAt := rfl
@[simp] theorem modFs_flt_flHead (u : Nat) (f : FsSt → FsSt) (s : State) : (modFs u f s).flt.flHead = s.flt.flHead := rfl
@[simp] theorem modFs_flt_flWraps (u : Nat) (f : FsSt → FsSt) (s : State) : (modFs u f s).flt.flWraps = s.flt.flWraps := rfl
@[simp] theorem modFs_flt_flOpen (u : Nat) (f : FsSt → FsSt) (s : State) : (modFs u f s).flt.flOpen = s.flt.flOpen := rfl
@[simp] theorem modFs_flt_ring (u : Nat) (f : FsSt → FsSt) (s : State) : (modFs u f s).flt.ring = s.flt.ring := rfl
@[simp] theorem modFs_flt_ringHead (u : Nat) (f : FsSt → FsSt) (s : State) : (modFs u f s).flt.ringHead = s.flt.ringHead := rfl
@[simp] theorem modFs_flt_ringHeld (u : Nat) (f : FsSt → FsSt) (s : State) : (modFs u f s).flt.ringHeld = s.flt.ringHeld := rfl
@[simp] theorem modFs_flt_notStored (u : Nat) (f : FsSt → FsSt) (s : State) : (modFs u f s).flt.notStored = s.flt.notStored := rfl
@[simp] theorem modFs_flt_ringSecond (u : Nat) (f : FsSt → FsSt) (s : State) : (modFs u f s).flt.ringSecond = s.flt.ringSecond := rfl
@[simp] theorem modFs_flt_ringInSecond (u : Nat) (f : FsSt → FsSt) (s : State) : (modFs u f s).flt.ringInSecond = s.flt.ringInSecond := rfl
@[simp] theorem modFs_flt_heldBack (u : Nat) (f : FsSt → FsSt) (s : State) : (modFs u f s).flt.heldBack = s.flt.heldBack := rfl
@[simp] theorem modFs_mon (u : Nat) (f : FsSt → FsSt) (s : State) : (modFs u f s).mon = s.mon := rfl
@[simp] theorem modFs_clk (u : Nat) (f : FsSt → FsSt) (s : State) : (modFs u f s).clk = s.clk := rfl
@[simp] theorem modFs_rst (u : Nat) (f : FsSt → FsSt) (s : State) : (modFs u f s).rst = s.rst := rfl
@[simp] theorem fsOf_modFs (u : Nat) (f : FsSt → FsSt) (s : State) : fsOf (modFs u f s) u = f (fsOf s u) := Tbl.get_set_self _ _ _ _
theorem fsOf_modFs_ne (u : Nat) (f : FsSt → FsSt) (s : State) {k' : Nat} (h : k' ≠ u) : fsOf (modFs u f s) k' = fsOf s k' := Tbl.get_set_ne _ _ _ h
@[simp] theorem modBbPort_pending (k : Nat) (f : BbPort → BbPort) (s : State) : (modBbPort k f s).pending = s.pending := rfl
@[simp] theorem modBbPort_freeCtr (k : Nat) (f : BbPort → BbPort) (s : State) : (modBbPort k f s).freeCtr = s.freeCtr := rfl
@[simp] theorem modBbPort_outbox (k : Nat) (f : BbPort → BbPort) (s : State) : (modBbPort k f s).outbox = s.outbox := rfl
@[simp] theorem modBbPort_time (k : Nat) (f : BbPort → BbPort) (s : State) : (modBbPort k f s).time = s.time := rfl
@[simp] theorem modBbPort_inForce (k : Nat) (f : BbPort → BbPort) (s : State) : (modBbPort k f s).inForce = s.inForce := rfl
@[simp] theorem modBbPort_shadow (k : Nat) (f : BbPort → BbPort) (s : State) : (modBbPort k f s).shadow = s.shadow := rfl
@[simp] theorem modBbPort_rw (k : Nat) (f : BbPort → BbPort) (s : State) : (modBbPort k f s).rw = s.rw := rfl
@[simp] theorem modBbPort_written (k : Nat) (f : BbPort → BbPort) (s : State) : (modBbPort k f s).written = s.written := rfl
@[simp] theorem modBbPort_commit (k : Nat) (f : BbPort → BbPort) (s : State) : (modBbPort k f s).commit = s.commit := rfl
@[simp] theorem modBbPort_conf (k : Nat) (f : BbPort → BbPort) (s : State) : (modBbPort k f s).conf = s.conf := rfl
@[simp] theorem modBbPort_slots (k : Nat) (f : BbPort → BbPort) (s : State) : (modBbPort k f s).slots = s.slots := rfl
@[simp] theorem modBbPort_units (k : Nat) (f : BbPort → BbPort) (s : State) : (modBbPort k f s).units = s.units := rfl
@[simp] theorem modBbPort_hist (k : Nat) (f : BbPort → BbPort) (s : State) : (modBbPort k f s).hist = s.hist := rfl
@[simp] theorem modBbPort_xg (k : Nat) (f : BbPort → BbPort) (s : State) : (modBbPort k f s).xg = s.xg := rfl
@[simp] theorem modBbPort_rc (k : Nat) (f : BbPort → BbPort) (s : State) : (modBbPort k f s).rc = s.rc := rfl
@[simp] theorem modBbPort_tone (k : Nat) (f : BbPort → BbPort) (s : State) : (modBbPort k f s).tone = s.tone := rfl
@[simp] theorem modBbPort_toneBox (k : Nat) (f : BbPort → BbPort) (s : State) : (modBbPort k f s).toneBox = s.toneBox := rfl
@[simp] theorem modBbPort_biasSplit (k : Nat) (f : BbPort → BbPort) (s : State) : (modBbPort k f s).biasSplit = s.biasSplit := rfl
@[simp] theorem modBbPort_biasOff (k : Nat) (f : BbPort → BbPort) (s : State) : (modBbPort k f s).biasOff = s.biasOff := rfl
@[simp] theorem modBbPort_decim (k : Nat) (f : BbPort → BbPort) (s : State) : (modBbPort k f s).decim = s.decim := rfl
@[simp] theorem modBbPort_ax (k : Nat) (f : BbPort → BbPort) (s : State) : (modBbPort k f s).ax = s.ax := rfl
@[simp] theorem modBbPort_axs (k : Nat) (f : BbPort → BbPort) (s : State) : (modBbPort k f s).axs = s.axs := rfl
@[simp] theorem modBbPort_se (k : Nat) (f : BbPort → BbPort) (s : State) : (modBbPort k f s).se = s.se := rfl
@[simp] theorem modBbPort_tk (k : Nat) (f : BbPort → BbPort) (s : State) : (modBbPort k f s).tk = s.tk := rfl
@[simp] theorem modBbPort_maps (k : Nat) (f : BbPort → BbPort) (s : State) : (modBbPort k f s).maps = s.maps := rfl
@[simp] theorem modBbPort_gl (k : Nat) (f : BbPort → BbPort) (s : State) : (modBbPort k f s).gl = s.gl := rfl
@[simp] theorem modBbPort_rh (k : Nat) (f : BbPort → BbPort) (s : State) : (modBbPort k f s).rh = s.rh := rfl
@[simp] theorem modBbPort_ip (k : Nat) (f : BbPort → BbPort) (s : State) : (modBbPort k f s).ip = s.ip := rfl
@[simp] theorem modBbPort_sw (k : Nat) (f : BbPort → BbPort) (s : State) : (modBbPort k f s).sw = s.sw := rfl
@[simp] theorem modBbPort_em (k : Nat) (f : BbPort → BbPort) (s : State) : (modBbPort k f s).em = s.em := rfl
@[simp] theorem modBbPort_cmp (k : Nat) (f : BbPort → BbPort) (s : State) : (modBbPort k f s).cmp = s.cmp := rfl
@[simp] theorem modBbPort_tg (k : Nat) (f : BbPort → BbPort) (s : State) : (modBbPort k f s).tg = s.tg := rfl
@[simp] theorem modBbPort_pg (k : Nat) (f : BbPort → BbPort) (s : State) : (modBbPort k f s).pg = s.pg := rfl
@[simp] theorem modBbPort_keep (k : Nat) (f : BbPort → BbPort) (s : State) : (modBbPort k f s).keep = s.keep := rfl
@[simp] theorem modBbPort_fm (k : Nat) (f : BbPort → BbPort) (s : State) : (modBbPort k f s).fm = s.fm := rfl
@[simp] theorem modBbPort_net_sync (k : Nat) (f : BbPort → BbPort) (s : State) : (modBbPort k f s).net.sync = s.net.sync := rfl
@[simp] theorem modBbPort_net_gm (k : Nat) (f : BbPort → BbPort) (s : State) : (modBbPort k f s).net.gm = s.net.gm := rfl
@[simp] theorem modBbPort_net_ptpOn (k : Nat) (f : BbPort → BbPort) (s : State) : (modBbPort k f s).net.ptpOn = s.net.ptpOn := rfl
@[simp] theorem modBbPort_net_gmSteps (k : Nat) (f : BbPort → BbPort) (s : State) : (modBbPort k f s).net.gmSteps = s.net.gmSteps := rfl
@[simp] theorem modBbPort_net_offset (k : Nat) (f : BbPort → BbPort) (s : State) : (modBbPort k f s).net.offset = s.net.offset := rfl
@[simp] theorem modBbPort_net_gmId (k : Nat) (f : BbPort → BbPort) (s : State) : (modBbPort k f s).net.gmId = s.net.gmId := rfl
@[simp] theorem modBbPort_net_goodRun (k : Nat) (f : BbPort → BbPort) (s : State) : (modBbPort k f s).net.goodRun = s.net.goodRun := rfl
@[simp] theorem modBbPort_net_ctSet (k : Nat) (f : BbPort → BbPort) (s : State) : (modBbPort k f s).net.ctSet = s.net.ctSet := rfl
@[simp] theorem modBbPort_net_streams (k : Nat) (f : BbPort → BbPort) (s : State) : (modBbPort k f s).net.streams = s.net.streams := rfl
@[simp] theorem modBbPort_net_msgs (k : Nat) (f : BbPort → BbPort) (s : State) : (modBbPort k f s).net.msgs = s.net.msgs := rfl
@[simp] theorem modBbPort_net_responses (k : Nat) (f : BbPort → BbPort) (s : State) : (modBbPort k f s).net.responses = s.net.responses := rfl
@[simp] theorem modBbPort_net_egFrame (k : Nat) (f : BbPort → BbPort) (s : State) : (modBbPort k f s).net.egFrame = s.net.egFrame := rfl
@[simp] theorem modBbPort_net_egMisses (k : Nat) (f : BbPort → BbPort) (s : State) : (modBbPort k f s).net.egMisses = s.net.egMisses := rfl
@[simp] theorem modBbPort_net_frerSeq (k : Nat) (f : BbPort → BbPort) (s : State) : (modBbPort k f s).net.frerSeq = s.net.frerSeq := rfl
@[simp] theorem modBbPort_hst (k : Nat) (f : BbPort → BbPort) (s : State) : (modBbPort k f s).hst = s.hst := rfl
@[simp] theorem modBbPort_twn (k : Nat) (f : BbPort → BbPort) (s : State) : (modBbPort k f s).twn = s.twn := rfl
@[simp] theorem modBbPort_hrd (k : Nat) (f : BbPort → BbPort) (s : State) : (modBbPort k f s).hrd = s.hrd := rfl
@[simp] theorem modBbPort_sec (k : Nat) (f : BbPort → BbPort) (s : State) : (modBbPort k f s).sec = s.sec := rfl
@[simp] theorem modBbPort_flt (k : Nat) (f : BbPort → BbPort) (s : State) : (modBbPort k f s).flt = s.flt := rfl
@[simp] theorem modBbPort_mon (k : Nat) (f : BbPort → BbPort) (s : State) : (modBbPort k f s).mon = s.mon := rfl
@[simp] theorem modBbPort_clk (k : Nat) (f : BbPort → BbPort) (s : State) : (modBbPort k f s).clk = s.clk := rfl
@[simp] theorem modBbPort_rst (k : Nat) (f : BbPort → BbPort) (s : State) : (modBbPort k f s).rst = s.rst := rfl
@[simp] theorem bbPortOf_modBbPort (k : Nat) (f : BbPort → BbPort) (s : State) : bbPortOf (modBbPort k f s) k = f (bbPortOf s k) := Tbl.get_set_self _ _ _ _
theorem bbPortOf_modBbPort_ne (k : Nat) (f : BbPort → BbPort) (s : State) {k' : Nat} (h : k' ≠ k) : bbPortOf (modBbPort k f s) k' = bbPortOf s k' := Tbl.get_set_ne _ _ _ h
@[simp] theorem modStream_pending (k : Nat) (f : StreamSt → StreamSt) (s : State) : (modStream k f s).pending = s.pending := rfl
@[simp] theorem modStream_freeCtr (k : Nat) (f : StreamSt → StreamSt) (s : State) : (modStream k f s).freeCtr = s.freeCtr := rfl
@[simp] theorem modStream_outbox (k : Nat) (f : StreamSt → StreamSt) (s : State) : (modStream k f s).outbox = s.outbox := rfl
@[simp] theorem modStream_time (k : Nat) (f : StreamSt → StreamSt) (s : State) : (modStream k f s).time = s.time := rfl
@[simp] theorem modStream_inForce (k : Nat) (f : StreamSt → StreamSt) (s : State) : (modStream k f s).inForce = s.inForce := rfl
@[simp] theorem modStream_shadow (k : Nat) (f : StreamSt → StreamSt) (s : State) : (modStream k f s).shadow = s.shadow := rfl
@[simp] theorem modStream_rw (k : Nat) (f : StreamSt → StreamSt) (s : State) : (modStream k f s).rw = s.rw := rfl
@[simp] theorem modStream_written (k : Nat) (f : StreamSt → StreamSt) (s : State) : (modStream k f s).written = s.written := rfl
@[simp] theorem modStream_commit (k : Nat) (f : StreamSt → StreamSt) (s : State) : (modStream k f s).commit = s.commit := rfl
@[simp] theorem modStream_conf (k : Nat) (f : StreamSt → StreamSt) (s : State) : (modStream k f s).conf = s.conf := rfl
@[simp] theorem modStream_slots (k : Nat) (f : StreamSt → StreamSt) (s : State) : (modStream k f s).slots = s.slots := rfl
@[simp] theorem modStream_units (k : Nat) (f : StreamSt → StreamSt) (s : State) : (modStream k f s).units = s.units := rfl
@[simp] theorem modStream_hist (k : Nat) (f : StreamSt → StreamSt) (s : State) : (modStream k f s).hist = s.hist := rfl
@[simp] theorem modStream_xg (k : Nat) (f : StreamSt → StreamSt) (s : State) : (modStream k f s).xg = s.xg := rfl
@[simp] theorem modStream_rc (k : Nat) (f : StreamSt → StreamSt) (s : State) : (modStream k f s).rc = s.rc := rfl
@[simp] theorem modStream_tone (k : Nat) (f : StreamSt → StreamSt) (s : State) : (modStream k f s).tone = s.tone := rfl
@[simp] theorem modStream_toneBox (k : Nat) (f : StreamSt → StreamSt) (s : State) : (modStream k f s).toneBox = s.toneBox := rfl
@[simp] theorem modStream_biasSplit (k : Nat) (f : StreamSt → StreamSt) (s : State) : (modStream k f s).biasSplit = s.biasSplit := rfl
@[simp] theorem modStream_biasOff (k : Nat) (f : StreamSt → StreamSt) (s : State) : (modStream k f s).biasOff = s.biasOff := rfl
@[simp] theorem modStream_decim (k : Nat) (f : StreamSt → StreamSt) (s : State) : (modStream k f s).decim = s.decim := rfl
@[simp] theorem modStream_ax (k : Nat) (f : StreamSt → StreamSt) (s : State) : (modStream k f s).ax = s.ax := rfl
@[simp] theorem modStream_axs (k : Nat) (f : StreamSt → StreamSt) (s : State) : (modStream k f s).axs = s.axs := rfl
@[simp] theorem modStream_se (k : Nat) (f : StreamSt → StreamSt) (s : State) : (modStream k f s).se = s.se := rfl
@[simp] theorem modStream_tk (k : Nat) (f : StreamSt → StreamSt) (s : State) : (modStream k f s).tk = s.tk := rfl
@[simp] theorem modStream_maps (k : Nat) (f : StreamSt → StreamSt) (s : State) : (modStream k f s).maps = s.maps := rfl
@[simp] theorem modStream_gl (k : Nat) (f : StreamSt → StreamSt) (s : State) : (modStream k f s).gl = s.gl := rfl
@[simp] theorem modStream_rh (k : Nat) (f : StreamSt → StreamSt) (s : State) : (modStream k f s).rh = s.rh := rfl
@[simp] theorem modStream_ip (k : Nat) (f : StreamSt → StreamSt) (s : State) : (modStream k f s).ip = s.ip := rfl
@[simp] theorem modStream_sw (k : Nat) (f : StreamSt → StreamSt) (s : State) : (modStream k f s).sw = s.sw := rfl
@[simp] theorem modStream_em (k : Nat) (f : StreamSt → StreamSt) (s : State) : (modStream k f s).em = s.em := rfl
@[simp] theorem modStream_cmp (k : Nat) (f : StreamSt → StreamSt) (s : State) : (modStream k f s).cmp = s.cmp := rfl
@[simp] theorem modStream_tg (k : Nat) (f : StreamSt → StreamSt) (s : State) : (modStream k f s).tg = s.tg := rfl
@[simp] theorem modStream_pg (k : Nat) (f : StreamSt → StreamSt) (s : State) : (modStream k f s).pg = s.pg := rfl
@[simp] theorem modStream_keep (k : Nat) (f : StreamSt → StreamSt) (s : State) : (modStream k f s).keep = s.keep := rfl
@[simp] theorem modStream_fm (k : Nat) (f : StreamSt → StreamSt) (s : State) : (modStream k f s).fm = s.fm := rfl
@[simp] theorem modStream_net_sync (k : Nat) (f : StreamSt → StreamSt) (s : State) : (modStream k f s).net.sync = s.net.sync := rfl
@[simp] theorem modStream_net_gm (k : Nat) (f : StreamSt → StreamSt) (s : State) : (modStream k f s).net.gm = s.net.gm := rfl
@[simp] theorem modStream_net_ptpOn (k : Nat) (f : StreamSt → StreamSt) (s : State) : (modStream k f s).net.ptpOn = s.net.ptpOn := rfl
@[simp] theorem modStream_net_gmSteps (k : Nat) (f : StreamSt → StreamSt) (s : State) : (modStream k f s).net.gmSteps = s.net.gmSteps := rfl
@[simp] theorem modStream_net_offset (k : Nat) (f : StreamSt → StreamSt) (s : State) : (modStream k f s).net.offset = s.net.offset := rfl
@[simp] theorem modStream_net_gmId (k : Nat) (f : StreamSt → StreamSt) (s : State) : (modStream k f s).net.gmId = s.net.gmId := rfl
@[simp] theorem modStream_net_goodRun (k : Nat) (f : StreamSt → StreamSt) (s : State) : (modStream k f s).net.goodRun = s.net.goodRun := rfl
@[simp] theorem modStream_net_ctSet (k : Nat) (f : StreamSt → StreamSt) (s : State) : (modStream k f s).net.ctSet = s.net.ctSet := rfl
@[simp] theorem modStream_net_ports (k : Nat) (f : StreamSt → StreamSt) (s : State) : (modStream k f s).net.ports = s.net.ports := rfl
@[simp] theorem modStream_net_msgs (k : Nat) (f : StreamSt → StreamSt) (s : State) : (modStream k f s).net.msgs = s.net.msgs := rfl
@[simp] theorem modStream_net_responses (k : Nat) (f : StreamSt → StreamSt) (s : State) : (modStream k f s).net.responses = s.net.responses := rfl
@[simp] theorem modStream_net_egFrame (k : Nat) (f : StreamSt → StreamSt) (s : State) : (modStream k f s).net.egFrame = s.net.egFrame := rfl
@[simp] theorem modStream_net_egMisses (k : Nat) (f : StreamSt → StreamSt) (s : State) : (modStream k f s).net.egMisses = s.net.egMisses := rfl
@[simp] theorem modStream_net_frerSeq (k : Nat) (f : StreamSt → StreamSt) (s : State) : (modStream k f s).net.frerSeq = s.net.frerSeq := rfl
@[simp] theorem modStream_hst (k : Nat) (f : StreamSt → StreamSt) (s : State) : (modStream k f s).hst = s.hst := rfl
@[simp] theorem modStream_twn (k : Nat) (f : StreamSt → StreamSt) (s : State) : (modStream k f s).twn = s.twn := rfl
@[simp] theorem modStream_hrd (k : Nat) (f : StreamSt → StreamSt) (s : State) : (modStream k f s).hrd = s.hrd := rfl
@[simp] theorem modStream_sec (k : Nat) (f : StreamSt → StreamSt) (s : State) : (modStream k f s).sec = s.sec := rfl
@[simp] theorem modStream_flt (k : Nat) (f : StreamSt → StreamSt) (s : State) : (modStream k f s).flt = s.flt := rfl
@[simp] theorem modStream_mon (k : Nat) (f : StreamSt → StreamSt) (s : State) : (modStream k f s).mon = s.mon := rfl
@[simp] theorem modStream_clk (k : Nat) (f : StreamSt → StreamSt) (s : State) : (modStream k f s).clk = s.clk := rfl
@[simp] theorem modStream_rst (k : Nat) (f : StreamSt → StreamSt) (s : State) : (modStream k f s).rst = s.rst := rfl
@[simp] theorem streamOf_modStream (k : Nat) (f : StreamSt → StreamSt) (s : State) : streamOf (modStream k f s) k = f (streamOf s k) := Tbl.get_set_self _ _ _ _
theorem streamOf_modStream_ne (k : Nat) (f : StreamSt → StreamSt) (s : State) {k' : Nat} (h : k' ≠ k) : streamOf (modStream k f s) k' = streamOf s k' := Tbl.get_set_ne _ _ _ h
@[simp] theorem modDma_pending (e : Nat) (f : DmaSt → DmaSt) (s : State) : (modDma e f s).pending = s.pending := rfl
@[simp] theorem modDma_freeCtr (e : Nat) (f : DmaSt → DmaSt) (s : State) : (modDma e f s).freeCtr = s.freeCtr := rfl
@[simp] theorem modDma_outbox (e : Nat) (f : DmaSt → DmaSt) (s : State) : (modDma e f s).outbox = s.outbox := rfl
@[simp] theorem modDma_time (e : Nat) (f : DmaSt → DmaSt) (s : State) : (modDma e f s).time = s.time := rfl
@[simp] theorem modDma_inForce (e : Nat) (f : DmaSt → DmaSt) (s : State) : (modDma e f s).inForce = s.inForce := rfl
@[simp] theorem modDma_shadow (e : Nat) (f : DmaSt → DmaSt) (s : State) : (modDma e f s).shadow = s.shadow := rfl
@[simp] theorem modDma_rw (e : Nat) (f : DmaSt → DmaSt) (s : State) : (modDma e f s).rw = s.rw := rfl
@[simp] theorem modDma_written (e : Nat) (f : DmaSt → DmaSt) (s : State) : (modDma e f s).written = s.written := rfl
@[simp] theorem modDma_commit (e : Nat) (f : DmaSt → DmaSt) (s : State) : (modDma e f s).commit = s.commit := rfl
@[simp] theorem modDma_conf (e : Nat) (f : DmaSt → DmaSt) (s : State) : (modDma e f s).conf = s.conf := rfl
@[simp] theorem modDma_slots (e : Nat) (f : DmaSt → DmaSt) (s : State) : (modDma e f s).slots = s.slots := rfl
@[simp] theorem modDma_units (e : Nat) (f : DmaSt → DmaSt) (s : State) : (modDma e f s).units = s.units := rfl
@[simp] theorem modDma_hist (e : Nat) (f : DmaSt → DmaSt) (s : State) : (modDma e f s).hist = s.hist := rfl
@[simp] theorem modDma_xg (e : Nat) (f : DmaSt → DmaSt) (s : State) : (modDma e f s).xg = s.xg := rfl
@[simp] theorem modDma_rc (e : Nat) (f : DmaSt → DmaSt) (s : State) : (modDma e f s).rc = s.rc := rfl
@[simp] theorem modDma_tone (e : Nat) (f : DmaSt → DmaSt) (s : State) : (modDma e f s).tone = s.tone := rfl
@[simp] theorem modDma_toneBox (e : Nat) (f : DmaSt → DmaSt) (s : State) : (modDma e f s).toneBox = s.toneBox := rfl
@[simp] theorem modDma_biasSplit (e : Nat) (f : DmaSt → DmaSt) (s : State) : (modDma e f s).biasSplit = s.biasSplit := rfl
@[simp] theorem modDma_biasOff (e : Nat) (f : DmaSt → DmaSt) (s : State) : (modDma e f s).biasOff = s.biasOff := rfl
@[simp] theorem modDma_decim (e : Nat) (f : DmaSt → DmaSt) (s : State) : (modDma e f s).decim = s.decim := rfl
@[simp] theorem modDma_ax (e : Nat) (f : DmaSt → DmaSt) (s : State) : (modDma e f s).ax = s.ax := rfl
@[simp] theorem modDma_axs (e : Nat) (f : DmaSt → DmaSt) (s : State) : (modDma e f s).axs = s.axs := rfl
@[simp] theorem modDma_se (e : Nat) (f : DmaSt → DmaSt) (s : State) : (modDma e f s).se = s.se := rfl
@[simp] theorem modDma_tk (e : Nat) (f : DmaSt → DmaSt) (s : State) : (modDma e f s).tk = s.tk := rfl
@[simp] theorem modDma_maps (e : Nat) (f : DmaSt → DmaSt) (s : State) : (modDma e f s).maps = s.maps := rfl
@[simp] theorem modDma_gl (e : Nat) (f : DmaSt → DmaSt) (s : State) : (modDma e f s).gl = s.gl := rfl
@[simp] theorem modDma_rh (e : Nat) (f : DmaSt → DmaSt) (s : State) : (modDma e f s).rh = s.rh := rfl
@[simp] theorem modDma_ip (e : Nat) (f : DmaSt → DmaSt) (s : State) : (modDma e f s).ip = s.ip := rfl
@[simp] theorem modDma_sw (e : Nat) (f : DmaSt → DmaSt) (s : State) : (modDma e f s).sw = s.sw := rfl
@[simp] theorem modDma_em (e : Nat) (f : DmaSt → DmaSt) (s : State) : (modDma e f s).em = s.em := rfl
@[simp] theorem modDma_cmp (e : Nat) (f : DmaSt → DmaSt) (s : State) : (modDma e f s).cmp = s.cmp := rfl
@[simp] theorem modDma_tg (e : Nat) (f : DmaSt → DmaSt) (s : State) : (modDma e f s).tg = s.tg := rfl
@[simp] theorem modDma_pg (e : Nat) (f : DmaSt → DmaSt) (s : State) : (modDma e f s).pg = s.pg := rfl
@[simp] theorem modDma_keep (e : Nat) (f : DmaSt → DmaSt) (s : State) : (modDma e f s).keep = s.keep := rfl
@[simp] theorem modDma_fm (e : Nat) (f : DmaSt → DmaSt) (s : State) : (modDma e f s).fm = s.fm := rfl
@[simp] theorem modDma_net (e : Nat) (f : DmaSt → DmaSt) (s : State) : (modDma e f s).net = s.net := rfl
@[simp] theorem modDma_hst_linkUp (e : Nat) (f : DmaSt → DmaSt) (s : State) : (modDma e f s).hst.linkUp = s.hst.linkUp := rfl
@[simp] theorem modDma_hst_width (e : Nat) (f : DmaSt → DmaSt) (s : State) : (modDma e f s).hst.width = s.hst.width := rfl
@[simp] theorem modDma_hst_rate (e : Nat) (f : DmaSt → DmaSt) (s : State) : (modDma e f s).hst.rate = s.hst.rate := rfl
@[simp] theorem modDma_hst_bme (e : Nat) (f : DmaSt → DmaSt) (s : State) : (modDma e f s).hst.bme = s.hst.bme := rfl
@[simp] theorem modDma_hst_d3hot (e : Nat) (f : DmaSt → DmaSt) (s : State) : (modDma e f s).hst.d3hot = s.hst.d3hot := rfl
@[simp] theorem modDma_hst_aer (e : Nat) (f : DmaSt → DmaSt) (s : State) : (modDma e f s).hst.aer = s.hst.aer := rfl
@[simp] theorem modDma_hst_msixEn (e : Nat) (f : DmaSt → DmaSt) (s : State) : (modDma e f s).hst.msixEn = s.hst.msixEn := rfl
@[simp] theorem modDma_hst_fmask (e : Nat) (f : DmaSt → DmaSt) (s : State) : (modDma e f s).hst.fmask = s.hst.fmask := rfl
@[simp] theorem modDma_hst_msixPend (e : Nat) (f : DmaSt → DmaSt) (s : State) : (modDma e f s).hst.msixPend = s.hst.msixPend := rfl
@[simp] theorem modDma_hst_i3c (e : Nat) (f : DmaSt → DmaSt) (s : State) : (modDma e f s).hst.i3c = s.hst.i3c := rfl
@[simp] theorem modDma_hst_svc (e : Nat) (f : DmaSt → DmaSt) (s : State) : (modDma e f s).hst.svc = s.hst.svc := rfl
@[simp] theorem modDma_hst_svcDone (e : Nat) (f : DmaSt → DmaSt) (s : State) : (modDma e f s).hst.svcDone = s.hst.svcDone := rfl
@[simp] theorem modDma_hst_svcSeq (e : Nat) (f : DmaSt → DmaSt) (s : State) : (modDma e f s).hst.svcSeq = s.hst.svcSeq := rfl
@[simp] theorem modDma_hst_svcFresh (e : Nat) (f : DmaSt → DmaSt) (s : State) : (modDma e f s).hst.svcFresh = s.hst.svcFresh := rfl
@[simp] theorem modDma_hst_svcCode (e : Nat) (f : DmaSt → DmaSt) (s : State) : (modDma e f s).hst.svcCode = s.hst.svcCode := rfl
@[simp] theorem modDma_hst_svcData (e : Nat) (f : DmaSt → DmaSt) (s : State) : (modDma e f s).hst.svcData = s.hst.svcData := rfl
@[simp] theorem modDma_twn (e : Nat) (f : DmaSt → DmaSt) (s : State) : (modDma e f s).twn = s.twn := rfl
@[simp] theorem modDma_hrd (e : Nat) (f : DmaSt → DmaSt) (s : State) : (modDma e f s).hrd = s.hrd := rfl
@[simp] theorem modDma_sec (e : Nat) (f : DmaSt → DmaSt) (s : State) : (modDma e f s).sec = s.sec := rfl
@[simp] theorem modDma_flt (e : Nat) (f : DmaSt → DmaSt) (s : State) : (modDma e f s).flt = s.flt := rfl
@[simp] theorem modDma_mon (e : Nat) (f : DmaSt → DmaSt) (s : State) : (modDma e f s).mon = s.mon := rfl
@[simp] theorem modDma_clk (e : Nat) (f : DmaSt → DmaSt) (s : State) : (modDma e f s).clk = s.clk := rfl
@[simp] theorem modDma_rst (e : Nat) (f : DmaSt → DmaSt) (s : State) : (modDma e f s).rst = s.rst := rfl
@[simp] theorem dmaOf_modDma (e : Nat) (f : DmaSt → DmaSt) (s : State) : dmaOf (modDma e f s) e = f (dmaOf s e) := Tbl.get_set_self _ _ _ _
theorem dmaOf_modDma_ne (e : Nat) (f : DmaSt → DmaSt) (s : State) {k' : Nat} (h : k' ≠ e) : dmaOf (modDma e f s) k' = dmaOf s k' := Tbl.get_set_ne _ _ _ h
@[simp] theorem modTwinRes_pending (u : Nat) (f : TwinRes → TwinRes) (s : State) : (modTwinRes u f s).pending = s.pending := rfl
@[simp] theorem modTwinRes_freeCtr (u : Nat) (f : TwinRes → TwinRes) (s : State) : (modTwinRes u f s).freeCtr = s.freeCtr := rfl
@[simp] theorem modTwinRes_outbox (u : Nat) (f : TwinRes → TwinRes) (s : State) : (modTwinRes u f s).outbox = s.outbox := rfl
@[simp] theorem modTwinRes_time (u : Nat) (f : TwinRes → TwinRes) (s : State) : (modTwinRes u f s).time = s.time := rfl
@[simp] theorem modTwinRes_inForce (u : Nat) (f : TwinRes → TwinRes) (s : State) : (modTwinRes u f s).inForce = s.inForce := rfl
@[simp] theorem modTwinRes_shadow (u : Nat) (f : TwinRes → TwinRes) (s : State) : (modTwinRes u f s).shadow = s.shadow := rfl
@[simp] theorem modTwinRes_rw (u : Nat) (f : TwinRes → TwinRes) (s : State) : (modTwinRes u f s).rw = s.rw := rfl
@[simp] theorem modTwinRes_written (u : Nat) (f : TwinRes → TwinRes) (s : State) : (modTwinRes u f s).written = s.written := rfl
@[simp] theorem modTwinRes_commit (u : Nat) (f : TwinRes → TwinRes) (s : State) : (modTwinRes u f s).commit = s.commit := rfl
@[simp] theorem modTwinRes_conf (u : Nat) (f : TwinRes → TwinRes) (s : State) : (modTwinRes u f s).conf = s.conf := rfl
@[simp] theorem modTwinRes_slots (u : Nat) (f : TwinRes → TwinRes) (s : State) : (modTwinRes u f s).slots = s.slots := rfl
@[simp] theorem modTwinRes_units (u : Nat) (f : TwinRes → TwinRes) (s : State) : (modTwinRes u f s).units = s.units := rfl
@[simp] theorem modTwinRes_hist (u : Nat) (f : TwinRes → TwinRes) (s : State) : (modTwinRes u f s).hist = s.hist := rfl
@[simp] theorem modTwinRes_xg (u : Nat) (f : TwinRes → TwinRes) (s : State) : (modTwinRes u f s).xg = s.xg := rfl
@[simp] theorem modTwinRes_rc (u : Nat) (f : TwinRes → TwinRes) (s : State) : (modTwinRes u f s).rc = s.rc := rfl
@[simp] theorem modTwinRes_tone (u : Nat) (f : TwinRes → TwinRes) (s : State) : (modTwinRes u f s).tone = s.tone := rfl
@[simp] theorem modTwinRes_toneBox (u : Nat) (f : TwinRes → TwinRes) (s : State) : (modTwinRes u f s).toneBox = s.toneBox := rfl
@[simp] theorem modTwinRes_biasSplit (u : Nat) (f : TwinRes → TwinRes) (s : State) : (modTwinRes u f s).biasSplit = s.biasSplit := rfl
@[simp] theorem modTwinRes_biasOff (u : Nat) (f : TwinRes → TwinRes) (s : State) : (modTwinRes u f s).biasOff = s.biasOff := rfl
@[simp] theorem modTwinRes_decim (u : Nat) (f : TwinRes → TwinRes) (s : State) : (modTwinRes u f s).decim = s.decim := rfl
@[simp] theorem modTwinRes_ax (u : Nat) (f : TwinRes → TwinRes) (s : State) : (modTwinRes u f s).ax = s.ax := rfl
@[simp] theorem modTwinRes_axs (u : Nat) (f : TwinRes → TwinRes) (s : State) : (modTwinRes u f s).axs = s.axs := rfl
@[simp] theorem modTwinRes_se (u : Nat) (f : TwinRes → TwinRes) (s : State) : (modTwinRes u f s).se = s.se := rfl
@[simp] theorem modTwinRes_tk (u : Nat) (f : TwinRes → TwinRes) (s : State) : (modTwinRes u f s).tk = s.tk := rfl
@[simp] theorem modTwinRes_maps (u : Nat) (f : TwinRes → TwinRes) (s : State) : (modTwinRes u f s).maps = s.maps := rfl
@[simp] theorem modTwinRes_gl (u : Nat) (f : TwinRes → TwinRes) (s : State) : (modTwinRes u f s).gl = s.gl := rfl
@[simp] theorem modTwinRes_rh (u : Nat) (f : TwinRes → TwinRes) (s : State) : (modTwinRes u f s).rh = s.rh := rfl
@[simp] theorem modTwinRes_ip (u : Nat) (f : TwinRes → TwinRes) (s : State) : (modTwinRes u f s).ip = s.ip := rfl
@[simp] theorem modTwinRes_sw (u : Nat) (f : TwinRes → TwinRes) (s : State) : (modTwinRes u f s).sw = s.sw := rfl
@[simp] theorem modTwinRes_em (u : Nat) (f : TwinRes → TwinRes) (s : State) : (modTwinRes u f s).em = s.em := rfl
@[simp] theorem modTwinRes_cmp (u : Nat) (f : TwinRes → TwinRes) (s : State) : (modTwinRes u f s).cmp = s.cmp := rfl
@[simp] theorem modTwinRes_tg (u : Nat) (f : TwinRes → TwinRes) (s : State) : (modTwinRes u f s).tg = s.tg := rfl
@[simp] theorem modTwinRes_pg (u : Nat) (f : TwinRes → TwinRes) (s : State) : (modTwinRes u f s).pg = s.pg := rfl
@[simp] theorem modTwinRes_keep (u : Nat) (f : TwinRes → TwinRes) (s : State) : (modTwinRes u f s).keep = s.keep := rfl
@[simp] theorem modTwinRes_fm (u : Nat) (f : TwinRes → TwinRes) (s : State) : (modTwinRes u f s).fm = s.fm := rfl
@[simp] theorem modTwinRes_net (u : Nat) (f : TwinRes → TwinRes) (s : State) : (modTwinRes u f s).net = s.net := rfl
@[simp] theorem modTwinRes_hst (u : Nat) (f : TwinRes → TwinRes) (s : State) : (modTwinRes u f s).hst = s.hst := rfl
@[simp] theorem modTwinRes_twn_mode (u : Nat) (f : TwinRes → TwinRes) (s : State) : (modTwinRes u f s).twn.mode = s.twn.mode := rfl
@[simp] theorem modTwinRes_twn_lanes (u : Nat) (f : TwinRes → TwinRes) (s : State) : (modTwinRes u f s).twn.lanes = s.twn.lanes := rfl
@[simp] theorem modTwinRes_twn_linkUp (u : Nat) (f : TwinRes → TwinRes) (s : State) : (modTwinRes u f s).twn.linkUp = s.twn.linkUp := rfl
@[simp] theorem modTwinRes_twn_linkLost (u : Nat) (f : TwinRes → TwinRes) (s : State) : (modTwinRes u f s).twn.linkLost = s.twn.linkLost := rfl
@[simp] theorem modTwinRes_twn_lost (u : Nat) (f : TwinRes → TwinRes) (s : State) : (modTwinRes u f s).twn.lost = s.twn.lost := rfl
@[simp] theorem modTwinRes_twn_orphans (u : Nat) (f : TwinRes → TwinRes) (s : State) : (modTwinRes u f s).twn.orphans = s.twn.orphans := rfl
@[simp] theorem modTwinRes_twn_setDiff (u : Nat) (f : TwinRes → TwinRes) (s : State) : (modTwinRes u f s).twn.setDiff = s.twn.setDiff := rfl
@[simp] theorem modTwinRes_twn_joiner (u : Nat) (f : TwinRes → TwinRes) (s : State) : (modTwinRes u f s).twn.joiner = s.twn.joiner := rfl
@[simp] theorem modTwinRes_twn_mapIn (u : Nat) (f : TwinRes → TwinRes) (s : State) : (modTwinRes u f s).twn.mapIn = s.twn.mapIn := rfl
@[simp] theorem modTwinRes_twn_skew (u : Nat) (f : TwinRes → TwinRes) (s : State) : (modTwinRes u f s).twn.skew = s.twn.skew := rfl
@[simp] theorem modTwinRes_twn_skewRun (u : Nat) (f : TwinRes → TwinRes) (s : State) : (modTwinRes u f s).twn.skewRun = s.twn.skewRun := rfl
@[simp] theorem modTwinRes_twn_disagreements (u : Nat) (f : TwinRes → TwinRes) (s : State) : (modTwinRes u f s).twn.disagreements = s.twn.disagreements := rfl
@[simp] theorem modTwinRes_twn_missing (u : Nat) (f : TwinRes → TwinRes) (s : State) : (modTwinRes u f s).twn.missing = s.twn.missing := rfl
@[simp] theorem modTwinRes_twn_missRun (u : Nat) (f : TwinRes → TwinRes) (s : State) : (modTwinRes u f s).twn.missRun = s.twn.missRun := rfl
@[simp] theorem modTwinRes_twn_peerBlock (u : Nat) (f : TwinRes → TwinRes) (s : State) : (modTwinRes u f s).twn.peerBlock = s.twn.peerBlock := rfl
@[simp] theorem modTwinRes_twn_checked (u : Nat) (f : TwinRes → TwinRes) (s : State) : (modTwinRes u f s).twn.checked = s.twn.checked := rfl
@[simp] theorem modTwinRes_twn_modeFrame (u : Nat) (f : TwinRes → TwinRes) (s : State) : (modTwinRes u f s).twn.modeFrame = s.twn.modeFrame := rfl
@[simp] theorem modTwinRes_twn_nonce (u : Nat) (f : TwinRes → TwinRes) (s : State) : (modTwinRes u f s).twn.nonce = s.twn.nonce := rfl
@[simp] theorem modTwinRes_twn_txCount (u : Nat) (f : TwinRes → TwinRes) (s : State) : (modTwinRes u f s).twn.txCount = s.twn.txCount := rfl
@[simp] theorem modTwinRes_twn_rxCount (u : Nat) (f : TwinRes → TwinRes) (s : State) : (modTwinRes u f s).twn.rxCount = s.twn.rxCount := rfl
@[simp] theorem modTwinRes_twn_setCrc (u : Nat) (f : TwinRes → TwinRes) (s : State) : (modTwinRes u f s).twn.setCrc = s.twn.setCrc := rfl
@[simp] theorem modTwinRes_twn_peerCrc (u : Nat) (f : TwinRes → TwinRes) (s : State) : (modTwinRes u f s).twn.peerCrc = s.twn.peerCrc := rfl
@[simp] theorem modTwinRes_twn_peerUid (u : Nat) (f : TwinRes → TwinRes) (s : State) : (modTwinRes u f s).twn.peerUid = s.twn.peerUid := rfl
@[simp] theorem modTwinRes_twn_peerRole (u : Nat) (f : TwinRes → TwinRes) (s : State) : (modTwinRes u f s).twn.peerRole = s.twn.peerRole := rfl
@[simp] theorem modTwinRes_twn_roleClash (u : Nat) (f : TwinRes → TwinRes) (s : State) : (modTwinRes u f s).twn.roleClash = s.twn.roleClash := rfl
@[simp] theorem modTwinRes_twn_peerMode (u : Nat) (f : TwinRes → TwinRes) (s : State) : (modTwinRes u f s).twn.peerMode = s.twn.peerMode := rfl
@[simp] theorem modTwinRes_twn_peerHash (u : Nat) (f : TwinRes → TwinRes) (s : State) : (modTwinRes u f s).twn.peerHash = s.twn.peerHash := rfl
@[simp] theorem modTwinRes_twn_peerMap (u : Nat) (f : TwinRes → TwinRes) (s : State) : (modTwinRes u f s).twn.peerMap = s.twn.peerMap := rfl
@[simp] theorem modTwinRes_twn_peerDormant (u : Nat) (f : TwinRes → TwinRes) (s : State) : (modTwinRes u f s).twn.peerDormant = s.twn.peerDormant := rfl
@[simp] theorem modTwinRes_twn_peerTwinFlag (u : Nat) (f : TwinRes → TwinRes) (s : State) : (modTwinRes u f s).twn.peerTwinFlag = s.twn.peerTwinFlag := rfl
@[simp] theorem modTwinRes_twn_peerUnits (u : Nat) (f : TwinRes → TwinRes) (s : State) : (modTwinRes u f s).twn.peerUnits = s.twn.peerUnits := rfl
@[simp] theorem modTwinRes_twn_attachAt (u : Nat) (f : TwinRes → TwinRes) (s : State) : (modTwinRes u f s).twn.attachAt = s.twn.attachAt := rfl
@[simp] theorem modTwinRes_twn_attachMap (u : Nat) (f : TwinRes → TwinRes) (s : State) : (modTwinRes u f s).twn.attachMap = s.twn.attachMap := rfl
@[simp] theorem modTwinRes_twn_attachJoin (u : Nat) (f : TwinRes → TwinRes) (s : State) : (modTwinRes u f s).twn.attachJoin = s.twn.attachJoin := rfl
@[simp] theorem modTwinRes_twn_detachAt (u : Nat) (f : TwinRes → TwinRes) (s : State) : (modTwinRes u f s).twn.detachAt = s.twn.detachAt := rfl
@[simp] theorem modTwinRes_twn_peerDetachAt (u : Nat) (f : TwinRes → TwinRes) (s : State) : (modTwinRes u f s).twn.peerDetachAt = s.twn.peerDetachAt := rfl
@[simp] theorem modTwinRes_twn_ownAt (u : Nat) (f : TwinRes → TwinRes) (s : State) : (modTwinRes u f s).twn.ownAt = s.twn.ownAt := rfl
@[simp] theorem modTwinRes_twn_ownMap (u : Nat) (f : TwinRes → TwinRes) (s : State) : (modTwinRes u f s).twn.ownMap = s.twn.ownMap := rfl
@[simp] theorem modTwinRes_twn_before (u : Nat) (f : TwinRes → TwinRes) (s : State) : (modTwinRes u f s).twn.before = s.twn.before := rfl
@[simp] theorem modTwinRes_twn_frames (u : Nat) (f : TwinRes → TwinRes) (s : State) : (modTwinRes u f s).twn.frames = s.twn.frames := rfl
@[simp] theorem modTwinRes_twn_joinReady (u : Nat) (f : TwinRes → TwinRes) (s : State) : (modTwinRes u f s).twn.joinReady = s.twn.joinReady := rfl
@[simp] theorem modTwinRes_twn_failure (u : Nat) (f : TwinRes → TwinRes) (s : State) : (modTwinRes u f s).twn.failure = s.twn.failure := rfl
@[simp] theorem modTwinRes_twn_taken (u : Nat) (f : TwinRes → TwinRes) (s : State) : (modTwinRes u f s).twn.taken = s.twn.taken := rfl
@[simp] theorem modTwinRes_hrd (u : Nat) (f : TwinRes → TwinRes) (s : State) : (modTwinRes u f s).hrd = s.hrd := rfl
@[simp] theorem modTwinRes_sec (u : Nat) (f : TwinRes → TwinRes) (s : State) : (modTwinRes u f s).sec = s.sec := rfl
@[simp] theorem modTwinRes_flt (u : Nat) (f : TwinRes → TwinRes) (s : State) : (modTwinRes u f s).flt = s.flt := rfl
@[simp] theorem modTwinRes_mon (u : Nat) (f : TwinRes → TwinRes) (s : State) : (modTwinRes u f s).mon = s.mon := rfl
@[simp] theorem modTwinRes_clk (u : Nat) (f : TwinRes → TwinRes) (s : State) : (modTwinRes u f s).clk = s.clk := rfl
@[simp] theorem modTwinRes_rst (u : Nat) (f : TwinRes → TwinRes) (s : State) : (modTwinRes u f s).rst = s.rst := rfl
@[simp] theorem twinResOf_modTwinRes (u : Nat) (f : TwinRes → TwinRes) (s : State) : twinResOf (modTwinRes u f s) u = f (twinResOf s u) := Tbl.get_set_self _ _ _ _
theorem twinResOf_modTwinRes_ne (u : Nat) (f : TwinRes → TwinRes) (s : State) {k' : Nat} (h : k' ≠ u) : twinResOf (modTwinRes u f s) k' = twinResOf s k' := Tbl.get_set_ne _ _ _ h
@[simp] theorem modSession_pending (p : Nat) (f : Session → Session) (s : State) : (modSession p f s).pending = s.pending := rfl
@[simp] theorem modSession_freeCtr (p : Nat) (f : Session → Session) (s : State) : (modSession p f s).freeCtr = s.freeCtr := rfl
@[simp] theorem modSession_outbox (p : Nat) (f : Session → Session) (s : State) : (modSession p f s).outbox = s.outbox := rfl
@[simp] theorem modSession_time (p : Nat) (f : Session → Session) (s : State) : (modSession p f s).time = s.time := rfl
@[simp] theorem modSession_inForce (p : Nat) (f : Session → Session) (s : State) : (modSession p f s).inForce = s.inForce := rfl
@[simp] theorem modSession_shadow (p : Nat) (f : Session → Session) (s : State) : (modSession p f s).shadow = s.shadow := rfl
@[simp] theorem modSession_rw (p : Nat) (f : Session → Session) (s : State) : (modSession p f s).rw = s.rw := rfl
@[simp] theorem modSession_written (p : Nat) (f : Session → Session) (s : State) : (modSession p f s).written = s.written := rfl
@[simp] theorem modSession_commit (p : Nat) (f : Session → Session) (s : State) : (modSession p f s).commit = s.commit := rfl
@[simp] theorem modSession_conf (p : Nat) (f : Session → Session) (s : State) : (modSession p f s).conf = s.conf := rfl
@[simp] theorem modSession_slots (p : Nat) (f : Session → Session) (s : State) : (modSession p f s).slots = s.slots := rfl
@[simp] theorem modSession_units (p : Nat) (f : Session → Session) (s : State) : (modSession p f s).units = s.units := rfl
@[simp] theorem modSession_hist (p : Nat) (f : Session → Session) (s : State) : (modSession p f s).hist = s.hist := rfl
@[simp] theorem modSession_xg (p : Nat) (f : Session → Session) (s : State) : (modSession p f s).xg = s.xg := rfl
@[simp] theorem modSession_rc (p : Nat) (f : Session → Session) (s : State) : (modSession p f s).rc = s.rc := rfl
@[simp] theorem modSession_tone (p : Nat) (f : Session → Session) (s : State) : (modSession p f s).tone = s.tone := rfl
@[simp] theorem modSession_toneBox (p : Nat) (f : Session → Session) (s : State) : (modSession p f s).toneBox = s.toneBox := rfl
@[simp] theorem modSession_biasSplit (p : Nat) (f : Session → Session) (s : State) : (modSession p f s).biasSplit = s.biasSplit := rfl
@[simp] theorem modSession_biasOff (p : Nat) (f : Session → Session) (s : State) : (modSession p f s).biasOff = s.biasOff := rfl
@[simp] theorem modSession_decim (p : Nat) (f : Session → Session) (s : State) : (modSession p f s).decim = s.decim := rfl
@[simp] theorem modSession_ax (p : Nat) (f : Session → Session) (s : State) : (modSession p f s).ax = s.ax := rfl
@[simp] theorem modSession_axs (p : Nat) (f : Session → Session) (s : State) : (modSession p f s).axs = s.axs := rfl
@[simp] theorem modSession_se (p : Nat) (f : Session → Session) (s : State) : (modSession p f s).se = s.se := rfl
@[simp] theorem modSession_tk (p : Nat) (f : Session → Session) (s : State) : (modSession p f s).tk = s.tk := rfl
@[simp] theorem modSession_maps (p : Nat) (f : Session → Session) (s : State) : (modSession p f s).maps = s.maps := rfl
@[simp] theorem modSession_gl (p : Nat) (f : Session → Session) (s : State) : (modSession p f s).gl = s.gl := rfl
@[simp] theorem modSession_rh (p : Nat) (f : Session → Session) (s : State) : (modSession p f s).rh = s.rh := rfl
@[simp] theorem modSession_ip (p : Nat) (f : Session → Session) (s : State) : (modSession p f s).ip = s.ip := rfl
@[simp] theorem modSession_sw (p : Nat) (f : Session → Session) (s : State) : (modSession p f s).sw = s.sw := rfl
@[simp] theorem modSession_em (p : Nat) (f : Session → Session) (s : State) : (modSession p f s).em = s.em := rfl
@[simp] theorem modSession_cmp (p : Nat) (f : Session → Session) (s : State) : (modSession p f s).cmp = s.cmp := rfl
@[simp] theorem modSession_tg (p : Nat) (f : Session → Session) (s : State) : (modSession p f s).tg = s.tg := rfl
@[simp] theorem modSession_pg (p : Nat) (f : Session → Session) (s : State) : (modSession p f s).pg = s.pg := rfl
@[simp] theorem modSession_keep (p : Nat) (f : Session → Session) (s : State) : (modSession p f s).keep = s.keep := rfl
@[simp] theorem modSession_fm (p : Nat) (f : Session → Session) (s : State) : (modSession p f s).fm = s.fm := rfl
@[simp] theorem modSession_net (p : Nat) (f : Session → Session) (s : State) : (modSession p f s).net = s.net := rfl
@[simp] theorem modSession_hst (p : Nat) (f : Session → Session) (s : State) : (modSession p f s).hst = s.hst := rfl
@[simp] theorem modSession_twn (p : Nat) (f : Session → Session) (s : State) : (modSession p f s).twn = s.twn := rfl
@[simp] theorem modSession_hrd (p : Nat) (f : Session → Session) (s : State) : (modSession p f s).hrd = s.hrd := rfl
@[simp] theorem modSession_sec_burned (p : Nat) (f : Session → Session) (s : State) : (modSession p f s).sec.burned = s.sec.burned := rfl
@[simp] theorem modSession_sec_revoked (p : Nat) (f : Session → Session) (s : State) : (modSession p f s).sec.revoked = s.sec.revoked := rfl
@[simp] theorem modSession_sec_hashes (p : Nat) (f : Session → Session) (s : State) : (modSession p f s).sec.hashes = s.sec.hashes := rfl
@[simp] theorem modSession_sec_testBurned (p : Nat) (f : Session → Session) (s : State) : (modSession p f s).sec.testBurned = s.sec.testBurned := rfl
@[simp] theorem modSession_sec_fusesOk (p : Nat) (f : Session → Session) (s : State) : (modSession p f s).sec.fusesOk = s.sec.fusesOk := rfl
@[simp] theorem modSession_sec_identityOk (p : Nat) (f : Session → Session) (s : State) : (modSession p f s).sec.identityOk = s.sec.identityOk := rfl
@[simp] theorem modSession_sec_floor (p : Nat) (f : Session → Session) (s : State) : (modSession p f s).sec.floor = s.sec.floor := rfl
@[simp] theorem modSession_sec_floorA (p : Nat) (f : Session → Session) (s : State) : (modSession p f s).sec.floorA = s.sec.floorA := rfl
@[simp] theorem modSession_sec_floorB (p : Nat) (f : Session → Session) (s : State) : (modSession p f s).sec.floorB = s.sec.floorB := rfl
@[simp] theorem modSession_sec_floorPending (p : Nat) (f : Session → Session) (s : State) : (modSession p f s).sec.floorPending = s.sec.floorPending := rfl
@[simp] theorem modSession_sec_imgKeys (p : Nat) (f : Session → Session) (s : State) : (modSession p f s).sec.imgKeys = s.sec.imgKeys := rfl
@[simp] theorem modSession_sec_atBoundary (p : Nat) (f : Session → Session) (s : State) : (modSession p f s).sec.atBoundary = s.sec.atBoundary := rfl
@[simp] theorem modSession_sec_dbgChal (p : Nat) (f : Session → Session) (s : State) : (modSession p f s).sec.dbgChal = s.sec.dbgChal := rfl
@[simp] theorem modSession_sec_dbgUnlocked (p : Nat) (f : Session → Session) (s : State) : (modSession p f s).sec.dbgUnlocked = s.sec.dbgUnlocked := rfl
@[simp] theorem modSession_sec_dbgLocked (p : Nat) (f : Session → Session) (s : State) : (modSession p f s).sec.dbgLocked = s.sec.dbgLocked := rfl
@[simp] theorem modSession_sec_tamperCause (p : Nat) (f : Session → Session) (s : State) : (modSession p f s).sec.tamperCause = s.sec.tamperCause := rfl
@[simp] theorem modSession_sec_alarmForced (p : Nat) (f : Session → Session) (s : State) : (modSession p f s).sec.alarmForced = s.sec.alarmForced := rfl
@[simp] theorem modSession_sec_jtagIr (p : Nat) (f : Session → Session) (s : State) : (modSession p f s).sec.jtagIr = s.sec.jtagIr := rfl
@[simp] theorem modSession_flt (p : Nat) (f : Session → Session) (s : State) : (modSession p f s).flt = s.flt := rfl
@[simp] theorem modSession_mon (p : Nat) (f : Session → Session) (s : State) : (modSession p f s).mon = s.mon := rfl
@[simp] theorem modSession_clk (p : Nat) (f : Session → Session) (s : State) : (modSession p f s).clk = s.clk := rfl
@[simp] theorem modSession_rst (p : Nat) (f : Session → Session) (s : State) : (modSession p f s).rst = s.rst := rfl
@[simp] theorem sessionOf_modSession (p : Nat) (f : Session → Session) (s : State) : sessionOf (modSession p f s) p = f (sessionOf s p) := Tbl.get_set_self _ _ _ _
theorem sessionOf_modSession_ne (p : Nat) (f : Session → Session) (s : State) {k' : Nat} (h : k' ≠ p) : sessionOf (modSession p f s) k' = sessionOf s k' := Tbl.get_set_ne _ _ _ h
@[simp] theorem modTemp_pending (k : Nat) (f : TempSt → TempSt) (s : State) : (modTemp k f s).pending = s.pending := rfl
@[simp] theorem modTemp_freeCtr (k : Nat) (f : TempSt → TempSt) (s : State) : (modTemp k f s).freeCtr = s.freeCtr := rfl
@[simp] theorem modTemp_outbox (k : Nat) (f : TempSt → TempSt) (s : State) : (modTemp k f s).outbox = s.outbox := rfl
@[simp] theorem modTemp_time (k : Nat) (f : TempSt → TempSt) (s : State) : (modTemp k f s).time = s.time := rfl
@[simp] theorem modTemp_inForce (k : Nat) (f : TempSt → TempSt) (s : State) : (modTemp k f s).inForce = s.inForce := rfl
@[simp] theorem modTemp_shadow (k : Nat) (f : TempSt → TempSt) (s : State) : (modTemp k f s).shadow = s.shadow := rfl
@[simp] theorem modTemp_rw (k : Nat) (f : TempSt → TempSt) (s : State) : (modTemp k f s).rw = s.rw := rfl
@[simp] theorem modTemp_written (k : Nat) (f : TempSt → TempSt) (s : State) : (modTemp k f s).written = s.written := rfl
@[simp] theorem modTemp_commit (k : Nat) (f : TempSt → TempSt) (s : State) : (modTemp k f s).commit = s.commit := rfl
@[simp] theorem modTemp_conf (k : Nat) (f : TempSt → TempSt) (s : State) : (modTemp k f s).conf = s.conf := rfl
@[simp] theorem modTemp_slots (k : Nat) (f : TempSt → TempSt) (s : State) : (modTemp k f s).slots = s.slots := rfl
@[simp] theorem modTemp_units (k : Nat) (f : TempSt → TempSt) (s : State) : (modTemp k f s).units = s.units := rfl
@[simp] theorem modTemp_hist (k : Nat) (f : TempSt → TempSt) (s : State) : (modTemp k f s).hist = s.hist := rfl
@[simp] theorem modTemp_xg (k : Nat) (f : TempSt → TempSt) (s : State) : (modTemp k f s).xg = s.xg := rfl
@[simp] theorem modTemp_rc (k : Nat) (f : TempSt → TempSt) (s : State) : (modTemp k f s).rc = s.rc := rfl
@[simp] theorem modTemp_tone (k : Nat) (f : TempSt → TempSt) (s : State) : (modTemp k f s).tone = s.tone := rfl
@[simp] theorem modTemp_toneBox (k : Nat) (f : TempSt → TempSt) (s : State) : (modTemp k f s).toneBox = s.toneBox := rfl
@[simp] theorem modTemp_biasSplit (k : Nat) (f : TempSt → TempSt) (s : State) : (modTemp k f s).biasSplit = s.biasSplit := rfl
@[simp] theorem modTemp_biasOff (k : Nat) (f : TempSt → TempSt) (s : State) : (modTemp k f s).biasOff = s.biasOff := rfl
@[simp] theorem modTemp_decim (k : Nat) (f : TempSt → TempSt) (s : State) : (modTemp k f s).decim = s.decim := rfl
@[simp] theorem modTemp_ax (k : Nat) (f : TempSt → TempSt) (s : State) : (modTemp k f s).ax = s.ax := rfl
@[simp] theorem modTemp_axs (k : Nat) (f : TempSt → TempSt) (s : State) : (modTemp k f s).axs = s.axs := rfl
@[simp] theorem modTemp_se (k : Nat) (f : TempSt → TempSt) (s : State) : (modTemp k f s).se = s.se := rfl
@[simp] theorem modTemp_tk (k : Nat) (f : TempSt → TempSt) (s : State) : (modTemp k f s).tk = s.tk := rfl
@[simp] theorem modTemp_maps (k : Nat) (f : TempSt → TempSt) (s : State) : (modTemp k f s).maps = s.maps := rfl
@[simp] theorem modTemp_gl (k : Nat) (f : TempSt → TempSt) (s : State) : (modTemp k f s).gl = s.gl := rfl
@[simp] theorem modTemp_rh (k : Nat) (f : TempSt → TempSt) (s : State) : (modTemp k f s).rh = s.rh := rfl
@[simp] theorem modTemp_ip (k : Nat) (f : TempSt → TempSt) (s : State) : (modTemp k f s).ip = s.ip := rfl
@[simp] theorem modTemp_sw (k : Nat) (f : TempSt → TempSt) (s : State) : (modTemp k f s).sw = s.sw := rfl
@[simp] theorem modTemp_em (k : Nat) (f : TempSt → TempSt) (s : State) : (modTemp k f s).em = s.em := rfl
@[simp] theorem modTemp_cmp (k : Nat) (f : TempSt → TempSt) (s : State) : (modTemp k f s).cmp = s.cmp := rfl
@[simp] theorem modTemp_tg (k : Nat) (f : TempSt → TempSt) (s : State) : (modTemp k f s).tg = s.tg := rfl
@[simp] theorem modTemp_pg (k : Nat) (f : TempSt → TempSt) (s : State) : (modTemp k f s).pg = s.pg := rfl
@[simp] theorem modTemp_keep (k : Nat) (f : TempSt → TempSt) (s : State) : (modTemp k f s).keep = s.keep := rfl
@[simp] theorem modTemp_fm (k : Nat) (f : TempSt → TempSt) (s : State) : (modTemp k f s).fm = s.fm := rfl
@[simp] theorem modTemp_net (k : Nat) (f : TempSt → TempSt) (s : State) : (modTemp k f s).net = s.net := rfl
@[simp] theorem modTemp_hst (k : Nat) (f : TempSt → TempSt) (s : State) : (modTemp k f s).hst = s.hst := rfl
@[simp] theorem modTemp_twn (k : Nat) (f : TempSt → TempSt) (s : State) : (modTemp k f s).twn = s.twn := rfl
@[simp] theorem modTemp_hrd (k : Nat) (f : TempSt → TempSt) (s : State) : (modTemp k f s).hrd = s.hrd := rfl
@[simp] theorem modTemp_sec (k : Nat) (f : TempSt → TempSt) (s : State) : (modTemp k f s).sec = s.sec := rfl
@[simp] theorem modTemp_flt (k : Nat) (f : TempSt → TempSt) (s : State) : (modTemp k f s).flt = s.flt := rfl
@[simp] theorem modTemp_mon_rails (k : Nat) (f : TempSt → TempSt) (s : State) : (modTemp k f s).mon.rails = s.mon.rails := rfl
@[simp] theorem modTemp_mon_ro (k : Nat) (f : TempSt → TempSt) (s : State) : (modTemp k f s).mon.ro = s.mon.ro := rfl
@[simp] theorem modTemp_mon_age (k : Nat) (f : TempSt → TempSt) (s : State) : (modTemp k f s).mon.age = s.mon.age := rfl
@[simp] theorem modTemp_mon_lifeOn (k : Nat) (f : TempSt → TempSt) (s : State) : (modTemp k f s).mon.lifeOn = s.mon.lifeOn := rfl
@[simp] theorem modTemp_mon_lifeEq (k : Nat) (f : TempSt → TempSt) (s : State) : (modTemp k f s).mon.lifeEq = s.mon.lifeEq := rfl
@[simp] theorem modTemp_mon_lifeHot (k : Nat) (f : TempSt → TempSt) (s : State) : (modTemp k f s).mon.lifeHot = s.mon.lifeHot := rfl
@[simp] theorem modTemp_mon_lifePeak (k : Nat) (f : TempSt → TempSt) (s : State) : (modTemp k f s).mon.lifePeak = s.mon.lifePeak := rfl
@[simp] theorem modTemp_mon_lifeSaved (k : Nat) (f : TempSt → TempSt) (s : State) : (modTemp k f s).mon.lifeSaved = s.mon.lifeSaved := rfl
@[simp] theorem modTemp_mon_savedA (k : Nat) (f : TempSt → TempSt) (s : State) : (modTemp k f s).mon.savedA = s.mon.savedA := rfl
@[simp] theorem modTemp_mon_savedB (k : Nat) (f : TempSt → TempSt) (s : State) : (modTemp k f s).mon.savedB = s.mon.savedB := rfl
@[simp] theorem modTemp_clk (k : Nat) (f : TempSt → TempSt) (s : State) : (modTemp k f s).clk = s.clk := rfl
@[simp] theorem modTemp_rst (k : Nat) (f : TempSt → TempSt) (s : State) : (modTemp k f s).rst = s.rst := rfl
@[simp] theorem tempOf_modTemp (k : Nat) (f : TempSt → TempSt) (s : State) : tempOf (modTemp k f s) k = f (tempOf s k) := Tbl.get_set_self _ _ _ _
theorem tempOf_modTemp_ne (k : Nat) (f : TempSt → TempSt) (s : State) {k' : Nat} (h : k' ≠ k) : tempOf (modTemp k f s) k' = tempOf s k' := Tbl.get_set_ne _ _ _ h
@[simp] theorem modRail_pending (k : Nat) (f : RailSt → RailSt) (s : State) : (modRail k f s).pending = s.pending := rfl
@[simp] theorem modRail_freeCtr (k : Nat) (f : RailSt → RailSt) (s : State) : (modRail k f s).freeCtr = s.freeCtr := rfl
@[simp] theorem modRail_outbox (k : Nat) (f : RailSt → RailSt) (s : State) : (modRail k f s).outbox = s.outbox := rfl
@[simp] theorem modRail_time (k : Nat) (f : RailSt → RailSt) (s : State) : (modRail k f s).time = s.time := rfl
@[simp] theorem modRail_inForce (k : Nat) (f : RailSt → RailSt) (s : State) : (modRail k f s).inForce = s.inForce := rfl
@[simp] theorem modRail_shadow (k : Nat) (f : RailSt → RailSt) (s : State) : (modRail k f s).shadow = s.shadow := rfl
@[simp] theorem modRail_rw (k : Nat) (f : RailSt → RailSt) (s : State) : (modRail k f s).rw = s.rw := rfl
@[simp] theorem modRail_written (k : Nat) (f : RailSt → RailSt) (s : State) : (modRail k f s).written = s.written := rfl
@[simp] theorem modRail_commit (k : Nat) (f : RailSt → RailSt) (s : State) : (modRail k f s).commit = s.commit := rfl
@[simp] theorem modRail_conf (k : Nat) (f : RailSt → RailSt) (s : State) : (modRail k f s).conf = s.conf := rfl
@[simp] theorem modRail_slots (k : Nat) (f : RailSt → RailSt) (s : State) : (modRail k f s).slots = s.slots := rfl
@[simp] theorem modRail_units (k : Nat) (f : RailSt → RailSt) (s : State) : (modRail k f s).units = s.units := rfl
@[simp] theorem modRail_hist (k : Nat) (f : RailSt → RailSt) (s : State) : (modRail k f s).hist = s.hist := rfl
@[simp] theorem modRail_xg (k : Nat) (f : RailSt → RailSt) (s : State) : (modRail k f s).xg = s.xg := rfl
@[simp] theorem modRail_rc (k : Nat) (f : RailSt → RailSt) (s : State) : (modRail k f s).rc = s.rc := rfl
@[simp] theorem modRail_tone (k : Nat) (f : RailSt → RailSt) (s : State) : (modRail k f s).tone = s.tone := rfl
@[simp] theorem modRail_toneBox (k : Nat) (f : RailSt → RailSt) (s : State) : (modRail k f s).toneBox = s.toneBox := rfl
@[simp] theorem modRail_biasSplit (k : Nat) (f : RailSt → RailSt) (s : State) : (modRail k f s).biasSplit = s.biasSplit := rfl
@[simp] theorem modRail_biasOff (k : Nat) (f : RailSt → RailSt) (s : State) : (modRail k f s).biasOff = s.biasOff := rfl
@[simp] theorem modRail_decim (k : Nat) (f : RailSt → RailSt) (s : State) : (modRail k f s).decim = s.decim := rfl
@[simp] theorem modRail_ax (k : Nat) (f : RailSt → RailSt) (s : State) : (modRail k f s).ax = s.ax := rfl
@[simp] theorem modRail_axs (k : Nat) (f : RailSt → RailSt) (s : State) : (modRail k f s).axs = s.axs := rfl
@[simp] theorem modRail_se (k : Nat) (f : RailSt → RailSt) (s : State) : (modRail k f s).se = s.se := rfl
@[simp] theorem modRail_tk (k : Nat) (f : RailSt → RailSt) (s : State) : (modRail k f s).tk = s.tk := rfl
@[simp] theorem modRail_maps (k : Nat) (f : RailSt → RailSt) (s : State) : (modRail k f s).maps = s.maps := rfl
@[simp] theorem modRail_gl (k : Nat) (f : RailSt → RailSt) (s : State) : (modRail k f s).gl = s.gl := rfl
@[simp] theorem modRail_rh (k : Nat) (f : RailSt → RailSt) (s : State) : (modRail k f s).rh = s.rh := rfl
@[simp] theorem modRail_ip (k : Nat) (f : RailSt → RailSt) (s : State) : (modRail k f s).ip = s.ip := rfl
@[simp] theorem modRail_sw (k : Nat) (f : RailSt → RailSt) (s : State) : (modRail k f s).sw = s.sw := rfl
@[simp] theorem modRail_em (k : Nat) (f : RailSt → RailSt) (s : State) : (modRail k f s).em = s.em := rfl
@[simp] theorem modRail_cmp (k : Nat) (f : RailSt → RailSt) (s : State) : (modRail k f s).cmp = s.cmp := rfl
@[simp] theorem modRail_tg (k : Nat) (f : RailSt → RailSt) (s : State) : (modRail k f s).tg = s.tg := rfl
@[simp] theorem modRail_pg (k : Nat) (f : RailSt → RailSt) (s : State) : (modRail k f s).pg = s.pg := rfl
@[simp] theorem modRail_keep (k : Nat) (f : RailSt → RailSt) (s : State) : (modRail k f s).keep = s.keep := rfl
@[simp] theorem modRail_fm (k : Nat) (f : RailSt → RailSt) (s : State) : (modRail k f s).fm = s.fm := rfl
@[simp] theorem modRail_net (k : Nat) (f : RailSt → RailSt) (s : State) : (modRail k f s).net = s.net := rfl
@[simp] theorem modRail_hst (k : Nat) (f : RailSt → RailSt) (s : State) : (modRail k f s).hst = s.hst := rfl
@[simp] theorem modRail_twn (k : Nat) (f : RailSt → RailSt) (s : State) : (modRail k f s).twn = s.twn := rfl
@[simp] theorem modRail_hrd (k : Nat) (f : RailSt → RailSt) (s : State) : (modRail k f s).hrd = s.hrd := rfl
@[simp] theorem modRail_sec (k : Nat) (f : RailSt → RailSt) (s : State) : (modRail k f s).sec = s.sec := rfl
@[simp] theorem modRail_flt (k : Nat) (f : RailSt → RailSt) (s : State) : (modRail k f s).flt = s.flt := rfl
@[simp] theorem modRail_mon_temps (k : Nat) (f : RailSt → RailSt) (s : State) : (modRail k f s).mon.temps = s.mon.temps := rfl
@[simp] theorem modRail_mon_ro (k : Nat) (f : RailSt → RailSt) (s : State) : (modRail k f s).mon.ro = s.mon.ro := rfl
@[simp] theorem modRail_mon_age (k : Nat) (f : RailSt → RailSt) (s : State) : (modRail k f s).mon.age = s.mon.age := rfl
@[simp] theorem modRail_mon_lifeOn (k : Nat) (f : RailSt → RailSt) (s : State) : (modRail k f s).mon.lifeOn = s.mon.lifeOn := rfl
@[simp] theorem modRail_mon_lifeEq (k : Nat) (f : RailSt → RailSt) (s : State) : (modRail k f s).mon.lifeEq = s.mon.lifeEq := rfl
@[simp] theorem modRail_mon_lifeHot (k : Nat) (f : RailSt → RailSt) (s : State) : (modRail k f s).mon.lifeHot = s.mon.lifeHot := rfl
@[simp] theorem modRail_mon_lifePeak (k : Nat) (f : RailSt → RailSt) (s : State) : (modRail k f s).mon.lifePeak = s.mon.lifePeak := rfl
@[simp] theorem modRail_mon_lifeSaved (k : Nat) (f : RailSt → RailSt) (s : State) : (modRail k f s).mon.lifeSaved = s.mon.lifeSaved := rfl
@[simp] theorem modRail_mon_savedA (k : Nat) (f : RailSt → RailSt) (s : State) : (modRail k f s).mon.savedA = s.mon.savedA := rfl
@[simp] theorem modRail_mon_savedB (k : Nat) (f : RailSt → RailSt) (s : State) : (modRail k f s).mon.savedB = s.mon.savedB := rfl
@[simp] theorem modRail_clk (k : Nat) (f : RailSt → RailSt) (s : State) : (modRail k f s).clk = s.clk := rfl
@[simp] theorem modRail_rst (k : Nat) (f : RailSt → RailSt) (s : State) : (modRail k f s).rst = s.rst := rfl
@[simp] theorem railOf_modRail (k : Nat) (f : RailSt → RailSt) (s : State) : railOf (modRail k f s) k = f (railOf s k) := Tbl.get_set_self _ _ _ _
theorem railOf_modRail_ne (k : Nat) (f : RailSt → RailSt) (s : State) {k' : Nat} (h : k' ≠ k) : railOf (modRail k f s) k' = railOf s k' := Tbl.get_set_ne _ _ _ h

/-! ### Parts, outputs, time, memory -/

@[simp] theorem modTwn_pending (f : TwnSt → TwnSt) (s : State) : (modTwn f s).pending = s.pending := rfl
@[simp] theorem modTwn_freeCtr (f : TwnSt → TwnSt) (s : State) : (modTwn f s).freeCtr = s.freeCtr := rfl
@[simp] theorem modTwn_outbox (f : TwnSt → TwnSt) (s : State) : (modTwn f s).outbox = s.outbox := rfl
@[simp] theorem modTwn_time (f : TwnSt → TwnSt) (s : State) : (modTwn f s).time = s.time := rfl
@[simp] theorem modTwn_inForce (f : TwnSt → TwnSt) (s : State) : (modTwn f s).inForce = s.inForce := rfl
@[simp] theorem modTwn_shadow (f : TwnSt → TwnSt) (s : State) : (modTwn f s).shadow = s.shadow := rfl
@[simp] theorem modTwn_rw (f : TwnSt → TwnSt) (s : State) : (modTwn f s).rw = s.rw := rfl
@[simp] theorem modTwn_written (f : TwnSt → TwnSt) (s : State) : (modTwn f s).written = s.written := rfl
@[simp] theorem modTwn_commit (f : TwnSt → TwnSt) (s : State) : (modTwn f s).commit = s.commit := rfl
@[simp] theorem modTwn_conf (f : TwnSt → TwnSt) (s : State) : (modTwn f s).conf = s.conf := rfl
@[simp] theorem modTwn_slots (f : TwnSt → TwnSt) (s : State) : (modTwn f s).slots = s.slots := rfl
@[simp] theorem modTwn_units (f : TwnSt → TwnSt) (s : State) : (modTwn f s).units = s.units := rfl
@[simp] theorem modTwn_hist (f : TwnSt → TwnSt) (s : State) : (modTwn f s).hist = s.hist := rfl
@[simp] theorem modTwn_xg (f : TwnSt → TwnSt) (s : State) : (modTwn f s).xg = s.xg := rfl
@[simp] theorem modTwn_rc (f : TwnSt → TwnSt) (s : State) : (modTwn f s).rc = s.rc := rfl
@[simp] theorem modTwn_tone (f : TwnSt → TwnSt) (s : State) : (modTwn f s).tone = s.tone := rfl
@[simp] theorem modTwn_toneBox (f : TwnSt → TwnSt) (s : State) : (modTwn f s).toneBox = s.toneBox := rfl
@[simp] theorem modTwn_biasSplit (f : TwnSt → TwnSt) (s : State) : (modTwn f s).biasSplit = s.biasSplit := rfl
@[simp] theorem modTwn_biasOff (f : TwnSt → TwnSt) (s : State) : (modTwn f s).biasOff = s.biasOff := rfl
@[simp] theorem modTwn_decim (f : TwnSt → TwnSt) (s : State) : (modTwn f s).decim = s.decim := rfl
@[simp] theorem modTwn_ax (f : TwnSt → TwnSt) (s : State) : (modTwn f s).ax = s.ax := rfl
@[simp] theorem modTwn_axs (f : TwnSt → TwnSt) (s : State) : (modTwn f s).axs = s.axs := rfl
@[simp] theorem modTwn_se (f : TwnSt → TwnSt) (s : State) : (modTwn f s).se = s.se := rfl
@[simp] theorem modTwn_tk (f : TwnSt → TwnSt) (s : State) : (modTwn f s).tk = s.tk := rfl
@[simp] theorem modTwn_maps (f : TwnSt → TwnSt) (s : State) : (modTwn f s).maps = s.maps := rfl
@[simp] theorem modTwn_gl (f : TwnSt → TwnSt) (s : State) : (modTwn f s).gl = s.gl := rfl
@[simp] theorem modTwn_rh (f : TwnSt → TwnSt) (s : State) : (modTwn f s).rh = s.rh := rfl
@[simp] theorem modTwn_ip (f : TwnSt → TwnSt) (s : State) : (modTwn f s).ip = s.ip := rfl
@[simp] theorem modTwn_sw (f : TwnSt → TwnSt) (s : State) : (modTwn f s).sw = s.sw := rfl
@[simp] theorem modTwn_em (f : TwnSt → TwnSt) (s : State) : (modTwn f s).em = s.em := rfl
@[simp] theorem modTwn_cmp (f : TwnSt → TwnSt) (s : State) : (modTwn f s).cmp = s.cmp := rfl
@[simp] theorem modTwn_tg (f : TwnSt → TwnSt) (s : State) : (modTwn f s).tg = s.tg := rfl
@[simp] theorem modTwn_pg (f : TwnSt → TwnSt) (s : State) : (modTwn f s).pg = s.pg := rfl
@[simp] theorem modTwn_keep (f : TwnSt → TwnSt) (s : State) : (modTwn f s).keep = s.keep := rfl
@[simp] theorem modTwn_fm (f : TwnSt → TwnSt) (s : State) : (modTwn f s).fm = s.fm := rfl
@[simp] theorem modTwn_net (f : TwnSt → TwnSt) (s : State) : (modTwn f s).net = s.net := rfl
@[simp] theorem modTwn_hst (f : TwnSt → TwnSt) (s : State) : (modTwn f s).hst = s.hst := rfl
@[simp] theorem modTwn_hrd (f : TwnSt → TwnSt) (s : State) : (modTwn f s).hrd = s.hrd := rfl
@[simp] theorem modTwn_sec (f : TwnSt → TwnSt) (s : State) : (modTwn f s).sec = s.sec := rfl
@[simp] theorem modTwn_flt (f : TwnSt → TwnSt) (s : State) : (modTwn f s).flt = s.flt := rfl
@[simp] theorem modTwn_mon (f : TwnSt → TwnSt) (s : State) : (modTwn f s).mon = s.mon := rfl
@[simp] theorem modTwn_clk (f : TwnSt → TwnSt) (s : State) : (modTwn f s).clk = s.clk := rfl
@[simp] theorem modTwn_rst (f : TwnSt → TwnSt) (s : State) : (modTwn f s).rst = s.rst := rfl
@[simp] theorem modTwn_twn (f : TwnSt → TwnSt) (s : State) : (modTwn f s).twn = f s.twn := rfl
@[simp] theorem modHrd_pending (f : HrdSt → HrdSt) (s : State) : (modHrd f s).pending = s.pending := rfl
@[simp] theorem modHrd_freeCtr (f : HrdSt → HrdSt) (s : State) : (modHrd f s).freeCtr = s.freeCtr := rfl
@[simp] theorem modHrd_outbox (f : HrdSt → HrdSt) (s : State) : (modHrd f s).outbox = s.outbox := rfl
@[simp] theorem modHrd_time (f : HrdSt → HrdSt) (s : State) : (modHrd f s).time = s.time := rfl
@[simp] theorem modHrd_inForce (f : HrdSt → HrdSt) (s : State) : (modHrd f s).inForce = s.inForce := rfl
@[simp] theorem modHrd_shadow (f : HrdSt → HrdSt) (s : State) : (modHrd f s).shadow = s.shadow := rfl
@[simp] theorem modHrd_rw (f : HrdSt → HrdSt) (s : State) : (modHrd f s).rw = s.rw := rfl
@[simp] theorem modHrd_written (f : HrdSt → HrdSt) (s : State) : (modHrd f s).written = s.written := rfl
@[simp] theorem modHrd_commit (f : HrdSt → HrdSt) (s : State) : (modHrd f s).commit = s.commit := rfl
@[simp] theorem modHrd_conf (f : HrdSt → HrdSt) (s : State) : (modHrd f s).conf = s.conf := rfl
@[simp] theorem modHrd_slots (f : HrdSt → HrdSt) (s : State) : (modHrd f s).slots = s.slots := rfl
@[simp] theorem modHrd_units (f : HrdSt → HrdSt) (s : State) : (modHrd f s).units = s.units := rfl
@[simp] theorem modHrd_hist (f : HrdSt → HrdSt) (s : State) : (modHrd f s).hist = s.hist := rfl
@[simp] theorem modHrd_xg (f : HrdSt → HrdSt) (s : State) : (modHrd f s).xg = s.xg := rfl
@[simp] theorem modHrd_rc (f : HrdSt → HrdSt) (s : State) : (modHrd f s).rc = s.rc := rfl
@[simp] theorem modHrd_tone (f : HrdSt → HrdSt) (s : State) : (modHrd f s).tone = s.tone := rfl
@[simp] theorem modHrd_toneBox (f : HrdSt → HrdSt) (s : State) : (modHrd f s).toneBox = s.toneBox := rfl
@[simp] theorem modHrd_biasSplit (f : HrdSt → HrdSt) (s : State) : (modHrd f s).biasSplit = s.biasSplit := rfl
@[simp] theorem modHrd_biasOff (f : HrdSt → HrdSt) (s : State) : (modHrd f s).biasOff = s.biasOff := rfl
@[simp] theorem modHrd_decim (f : HrdSt → HrdSt) (s : State) : (modHrd f s).decim = s.decim := rfl
@[simp] theorem modHrd_ax (f : HrdSt → HrdSt) (s : State) : (modHrd f s).ax = s.ax := rfl
@[simp] theorem modHrd_axs (f : HrdSt → HrdSt) (s : State) : (modHrd f s).axs = s.axs := rfl
@[simp] theorem modHrd_se (f : HrdSt → HrdSt) (s : State) : (modHrd f s).se = s.se := rfl
@[simp] theorem modHrd_tk (f : HrdSt → HrdSt) (s : State) : (modHrd f s).tk = s.tk := rfl
@[simp] theorem modHrd_maps (f : HrdSt → HrdSt) (s : State) : (modHrd f s).maps = s.maps := rfl
@[simp] theorem modHrd_gl (f : HrdSt → HrdSt) (s : State) : (modHrd f s).gl = s.gl := rfl
@[simp] theorem modHrd_rh (f : HrdSt → HrdSt) (s : State) : (modHrd f s).rh = s.rh := rfl
@[simp] theorem modHrd_ip (f : HrdSt → HrdSt) (s : State) : (modHrd f s).ip = s.ip := rfl
@[simp] theorem modHrd_sw (f : HrdSt → HrdSt) (s : State) : (modHrd f s).sw = s.sw := rfl
@[simp] theorem modHrd_em (f : HrdSt → HrdSt) (s : State) : (modHrd f s).em = s.em := rfl
@[simp] theorem modHrd_cmp (f : HrdSt → HrdSt) (s : State) : (modHrd f s).cmp = s.cmp := rfl
@[simp] theorem modHrd_tg (f : HrdSt → HrdSt) (s : State) : (modHrd f s).tg = s.tg := rfl
@[simp] theorem modHrd_pg (f : HrdSt → HrdSt) (s : State) : (modHrd f s).pg = s.pg := rfl
@[simp] theorem modHrd_keep (f : HrdSt → HrdSt) (s : State) : (modHrd f s).keep = s.keep := rfl
@[simp] theorem modHrd_fm (f : HrdSt → HrdSt) (s : State) : (modHrd f s).fm = s.fm := rfl
@[simp] theorem modHrd_net (f : HrdSt → HrdSt) (s : State) : (modHrd f s).net = s.net := rfl
@[simp] theorem modHrd_hst (f : HrdSt → HrdSt) (s : State) : (modHrd f s).hst = s.hst := rfl
@[simp] theorem modHrd_twn (f : HrdSt → HrdSt) (s : State) : (modHrd f s).twn = s.twn := rfl
@[simp] theorem modHrd_sec (f : HrdSt → HrdSt) (s : State) : (modHrd f s).sec = s.sec := rfl
@[simp] theorem modHrd_flt (f : HrdSt → HrdSt) (s : State) : (modHrd f s).flt = s.flt := rfl
@[simp] theorem modHrd_mon (f : HrdSt → HrdSt) (s : State) : (modHrd f s).mon = s.mon := rfl
@[simp] theorem modHrd_clk (f : HrdSt → HrdSt) (s : State) : (modHrd f s).clk = s.clk := rfl
@[simp] theorem modHrd_rst (f : HrdSt → HrdSt) (s : State) : (modHrd f s).rst = s.rst := rfl
@[simp] theorem modHrd_hrd (f : HrdSt → HrdSt) (s : State) : (modHrd f s).hrd = f s.hrd := rfl
@[simp] theorem modRst_pending (f : RstSt → RstSt) (s : State) : (modRst f s).pending = s.pending := rfl
@[simp] theorem modRst_freeCtr (f : RstSt → RstSt) (s : State) : (modRst f s).freeCtr = s.freeCtr := rfl
@[simp] theorem modRst_outbox (f : RstSt → RstSt) (s : State) : (modRst f s).outbox = s.outbox := rfl
@[simp] theorem modRst_time (f : RstSt → RstSt) (s : State) : (modRst f s).time = s.time := rfl
@[simp] theorem modRst_inForce (f : RstSt → RstSt) (s : State) : (modRst f s).inForce = s.inForce := rfl
@[simp] theorem modRst_shadow (f : RstSt → RstSt) (s : State) : (modRst f s).shadow = s.shadow := rfl
@[simp] theorem modRst_rw (f : RstSt → RstSt) (s : State) : (modRst f s).rw = s.rw := rfl
@[simp] theorem modRst_written (f : RstSt → RstSt) (s : State) : (modRst f s).written = s.written := rfl
@[simp] theorem modRst_commit (f : RstSt → RstSt) (s : State) : (modRst f s).commit = s.commit := rfl
@[simp] theorem modRst_conf (f : RstSt → RstSt) (s : State) : (modRst f s).conf = s.conf := rfl
@[simp] theorem modRst_slots (f : RstSt → RstSt) (s : State) : (modRst f s).slots = s.slots := rfl
@[simp] theorem modRst_units (f : RstSt → RstSt) (s : State) : (modRst f s).units = s.units := rfl
@[simp] theorem modRst_hist (f : RstSt → RstSt) (s : State) : (modRst f s).hist = s.hist := rfl
@[simp] theorem modRst_xg (f : RstSt → RstSt) (s : State) : (modRst f s).xg = s.xg := rfl
@[simp] theorem modRst_rc (f : RstSt → RstSt) (s : State) : (modRst f s).rc = s.rc := rfl
@[simp] theorem modRst_tone (f : RstSt → RstSt) (s : State) : (modRst f s).tone = s.tone := rfl
@[simp] theorem modRst_toneBox (f : RstSt → RstSt) (s : State) : (modRst f s).toneBox = s.toneBox := rfl
@[simp] theorem modRst_biasSplit (f : RstSt → RstSt) (s : State) : (modRst f s).biasSplit = s.biasSplit := rfl
@[simp] theorem modRst_biasOff (f : RstSt → RstSt) (s : State) : (modRst f s).biasOff = s.biasOff := rfl
@[simp] theorem modRst_decim (f : RstSt → RstSt) (s : State) : (modRst f s).decim = s.decim := rfl
@[simp] theorem modRst_ax (f : RstSt → RstSt) (s : State) : (modRst f s).ax = s.ax := rfl
@[simp] theorem modRst_axs (f : RstSt → RstSt) (s : State) : (modRst f s).axs = s.axs := rfl
@[simp] theorem modRst_se (f : RstSt → RstSt) (s : State) : (modRst f s).se = s.se := rfl
@[simp] theorem modRst_tk (f : RstSt → RstSt) (s : State) : (modRst f s).tk = s.tk := rfl
@[simp] theorem modRst_maps (f : RstSt → RstSt) (s : State) : (modRst f s).maps = s.maps := rfl
@[simp] theorem modRst_gl (f : RstSt → RstSt) (s : State) : (modRst f s).gl = s.gl := rfl
@[simp] theorem modRst_rh (f : RstSt → RstSt) (s : State) : (modRst f s).rh = s.rh := rfl
@[simp] theorem modRst_ip (f : RstSt → RstSt) (s : State) : (modRst f s).ip = s.ip := rfl
@[simp] theorem modRst_sw (f : RstSt → RstSt) (s : State) : (modRst f s).sw = s.sw := rfl
@[simp] theorem modRst_em (f : RstSt → RstSt) (s : State) : (modRst f s).em = s.em := rfl
@[simp] theorem modRst_cmp (f : RstSt → RstSt) (s : State) : (modRst f s).cmp = s.cmp := rfl
@[simp] theorem modRst_tg (f : RstSt → RstSt) (s : State) : (modRst f s).tg = s.tg := rfl
@[simp] theorem modRst_pg (f : RstSt → RstSt) (s : State) : (modRst f s).pg = s.pg := rfl
@[simp] theorem modRst_keep (f : RstSt → RstSt) (s : State) : (modRst f s).keep = s.keep := rfl
@[simp] theorem modRst_fm (f : RstSt → RstSt) (s : State) : (modRst f s).fm = s.fm := rfl
@[simp] theorem modRst_net (f : RstSt → RstSt) (s : State) : (modRst f s).net = s.net := rfl
@[simp] theorem modRst_hst (f : RstSt → RstSt) (s : State) : (modRst f s).hst = s.hst := rfl
@[simp] theorem modRst_twn (f : RstSt → RstSt) (s : State) : (modRst f s).twn = s.twn := rfl
@[simp] theorem modRst_hrd (f : RstSt → RstSt) (s : State) : (modRst f s).hrd = s.hrd := rfl
@[simp] theorem modRst_sec (f : RstSt → RstSt) (s : State) : (modRst f s).sec = s.sec := rfl
@[simp] theorem modRst_flt (f : RstSt → RstSt) (s : State) : (modRst f s).flt = s.flt := rfl
@[simp] theorem modRst_mon (f : RstSt → RstSt) (s : State) : (modRst f s).mon = s.mon := rfl
@[simp] theorem modRst_clk (f : RstSt → RstSt) (s : State) : (modRst f s).clk = s.clk := rfl
@[simp] theorem modRst_rst (f : RstSt → RstSt) (s : State) : (modRst f s).rst = f s.rst := rfl
@[simp] theorem modSlots_pending (f : SlotSt → SlotSt) (s : State) : (modSlots f s).pending = s.pending := rfl
@[simp] theorem modSlots_freeCtr (f : SlotSt → SlotSt) (s : State) : (modSlots f s).freeCtr = s.freeCtr := rfl
@[simp] theorem modSlots_outbox (f : SlotSt → SlotSt) (s : State) : (modSlots f s).outbox = s.outbox := rfl
@[simp] theorem modSlots_time (f : SlotSt → SlotSt) (s : State) : (modSlots f s).time = s.time := rfl
@[simp] theorem modSlots_inForce (f : SlotSt → SlotSt) (s : State) : (modSlots f s).inForce = s.inForce := rfl
@[simp] theorem modSlots_shadow (f : SlotSt → SlotSt) (s : State) : (modSlots f s).shadow = s.shadow := rfl
@[simp] theorem modSlots_rw (f : SlotSt → SlotSt) (s : State) : (modSlots f s).rw = s.rw := rfl
@[simp] theorem modSlots_written (f : SlotSt → SlotSt) (s : State) : (modSlots f s).written = s.written := rfl
@[simp] theorem modSlots_commit (f : SlotSt → SlotSt) (s : State) : (modSlots f s).commit = s.commit := rfl
@[simp] theorem modSlots_conf (f : SlotSt → SlotSt) (s : State) : (modSlots f s).conf = s.conf := rfl
@[simp] theorem modSlots_units (f : SlotSt → SlotSt) (s : State) : (modSlots f s).units = s.units := rfl
@[simp] theorem modSlots_hist (f : SlotSt → SlotSt) (s : State) : (modSlots f s).hist = s.hist := rfl
@[simp] theorem modSlots_xg (f : SlotSt → SlotSt) (s : State) : (modSlots f s).xg = s.xg := rfl
@[simp] theorem modSlots_rc (f : SlotSt → SlotSt) (s : State) : (modSlots f s).rc = s.rc := rfl
@[simp] theorem modSlots_tone (f : SlotSt → SlotSt) (s : State) : (modSlots f s).tone = s.tone := rfl
@[simp] theorem modSlots_toneBox (f : SlotSt → SlotSt) (s : State) : (modSlots f s).toneBox = s.toneBox := rfl
@[simp] theorem modSlots_biasSplit (f : SlotSt → SlotSt) (s : State) : (modSlots f s).biasSplit = s.biasSplit := rfl
@[simp] theorem modSlots_biasOff (f : SlotSt → SlotSt) (s : State) : (modSlots f s).biasOff = s.biasOff := rfl
@[simp] theorem modSlots_decim (f : SlotSt → SlotSt) (s : State) : (modSlots f s).decim = s.decim := rfl
@[simp] theorem modSlots_ax (f : SlotSt → SlotSt) (s : State) : (modSlots f s).ax = s.ax := rfl
@[simp] theorem modSlots_axs (f : SlotSt → SlotSt) (s : State) : (modSlots f s).axs = s.axs := rfl
@[simp] theorem modSlots_se (f : SlotSt → SlotSt) (s : State) : (modSlots f s).se = s.se := rfl
@[simp] theorem modSlots_tk (f : SlotSt → SlotSt) (s : State) : (modSlots f s).tk = s.tk := rfl
@[simp] theorem modSlots_maps (f : SlotSt → SlotSt) (s : State) : (modSlots f s).maps = s.maps := rfl
@[simp] theorem modSlots_gl (f : SlotSt → SlotSt) (s : State) : (modSlots f s).gl = s.gl := rfl
@[simp] theorem modSlots_rh (f : SlotSt → SlotSt) (s : State) : (modSlots f s).rh = s.rh := rfl
@[simp] theorem modSlots_ip (f : SlotSt → SlotSt) (s : State) : (modSlots f s).ip = s.ip := rfl
@[simp] theorem modSlots_sw (f : SlotSt → SlotSt) (s : State) : (modSlots f s).sw = s.sw := rfl
@[simp] theorem modSlots_em (f : SlotSt → SlotSt) (s : State) : (modSlots f s).em = s.em := rfl
@[simp] theorem modSlots_cmp (f : SlotSt → SlotSt) (s : State) : (modSlots f s).cmp = s.cmp := rfl
@[simp] theorem modSlots_tg (f : SlotSt → SlotSt) (s : State) : (modSlots f s).tg = s.tg := rfl
@[simp] theorem modSlots_pg (f : SlotSt → SlotSt) (s : State) : (modSlots f s).pg = s.pg := rfl
@[simp] theorem modSlots_keep (f : SlotSt → SlotSt) (s : State) : (modSlots f s).keep = s.keep := rfl
@[simp] theorem modSlots_fm (f : SlotSt → SlotSt) (s : State) : (modSlots f s).fm = s.fm := rfl
@[simp] theorem modSlots_net (f : SlotSt → SlotSt) (s : State) : (modSlots f s).net = s.net := rfl
@[simp] theorem modSlots_hst (f : SlotSt → SlotSt) (s : State) : (modSlots f s).hst = s.hst := rfl
@[simp] theorem modSlots_twn (f : SlotSt → SlotSt) (s : State) : (modSlots f s).twn = s.twn := rfl
@[simp] theorem modSlots_hrd (f : SlotSt → SlotSt) (s : State) : (modSlots f s).hrd = s.hrd := rfl
@[simp] theorem modSlots_sec (f : SlotSt → SlotSt) (s : State) : (modSlots f s).sec = s.sec := rfl
@[simp] theorem modSlots_flt (f : SlotSt → SlotSt) (s : State) : (modSlots f s).flt = s.flt := rfl
@[simp] theorem modSlots_mon (f : SlotSt → SlotSt) (s : State) : (modSlots f s).mon = s.mon := rfl
@[simp] theorem modSlots_clk (f : SlotSt → SlotSt) (s : State) : (modSlots f s).clk = s.clk := rfl
@[simp] theorem modSlots_rst (f : SlotSt → SlotSt) (s : State) : (modSlots f s).rst = s.rst := rfl
@[simp] theorem modSlots_slots (f : SlotSt → SlotSt) (s : State) : (modSlots f s).slots = f s.slots := rfl
@[simp] theorem modI3c_pending (f : I3cSt → I3cSt) (s : State) : (modI3c f s).pending = s.pending := rfl
@[simp] theorem modI3c_freeCtr (f : I3cSt → I3cSt) (s : State) : (modI3c f s).freeCtr = s.freeCtr := rfl
@[simp] theorem modI3c_outbox (f : I3cSt → I3cSt) (s : State) : (modI3c f s).outbox = s.outbox := rfl
@[simp] theorem modI3c_time (f : I3cSt → I3cSt) (s : State) : (modI3c f s).time = s.time := rfl
@[simp] theorem modI3c_inForce (f : I3cSt → I3cSt) (s : State) : (modI3c f s).inForce = s.inForce := rfl
@[simp] theorem modI3c_shadow (f : I3cSt → I3cSt) (s : State) : (modI3c f s).shadow = s.shadow := rfl
@[simp] theorem modI3c_rw (f : I3cSt → I3cSt) (s : State) : (modI3c f s).rw = s.rw := rfl
@[simp] theorem modI3c_written (f : I3cSt → I3cSt) (s : State) : (modI3c f s).written = s.written := rfl
@[simp] theorem modI3c_commit (f : I3cSt → I3cSt) (s : State) : (modI3c f s).commit = s.commit := rfl
@[simp] theorem modI3c_conf (f : I3cSt → I3cSt) (s : State) : (modI3c f s).conf = s.conf := rfl
@[simp] theorem modI3c_slots (f : I3cSt → I3cSt) (s : State) : (modI3c f s).slots = s.slots := rfl
@[simp] theorem modI3c_units (f : I3cSt → I3cSt) (s : State) : (modI3c f s).units = s.units := rfl
@[simp] theorem modI3c_hist (f : I3cSt → I3cSt) (s : State) : (modI3c f s).hist = s.hist := rfl
@[simp] theorem modI3c_xg (f : I3cSt → I3cSt) (s : State) : (modI3c f s).xg = s.xg := rfl
@[simp] theorem modI3c_rc (f : I3cSt → I3cSt) (s : State) : (modI3c f s).rc = s.rc := rfl
@[simp] theorem modI3c_tone (f : I3cSt → I3cSt) (s : State) : (modI3c f s).tone = s.tone := rfl
@[simp] theorem modI3c_toneBox (f : I3cSt → I3cSt) (s : State) : (modI3c f s).toneBox = s.toneBox := rfl
@[simp] theorem modI3c_biasSplit (f : I3cSt → I3cSt) (s : State) : (modI3c f s).biasSplit = s.biasSplit := rfl
@[simp] theorem modI3c_biasOff (f : I3cSt → I3cSt) (s : State) : (modI3c f s).biasOff = s.biasOff := rfl
@[simp] theorem modI3c_decim (f : I3cSt → I3cSt) (s : State) : (modI3c f s).decim = s.decim := rfl
@[simp] theorem modI3c_ax (f : I3cSt → I3cSt) (s : State) : (modI3c f s).ax = s.ax := rfl
@[simp] theorem modI3c_axs (f : I3cSt → I3cSt) (s : State) : (modI3c f s).axs = s.axs := rfl
@[simp] theorem modI3c_se (f : I3cSt → I3cSt) (s : State) : (modI3c f s).se = s.se := rfl
@[simp] theorem modI3c_tk (f : I3cSt → I3cSt) (s : State) : (modI3c f s).tk = s.tk := rfl
@[simp] theorem modI3c_maps (f : I3cSt → I3cSt) (s : State) : (modI3c f s).maps = s.maps := rfl
@[simp] theorem modI3c_gl (f : I3cSt → I3cSt) (s : State) : (modI3c f s).gl = s.gl := rfl
@[simp] theorem modI3c_rh (f : I3cSt → I3cSt) (s : State) : (modI3c f s).rh = s.rh := rfl
@[simp] theorem modI3c_ip (f : I3cSt → I3cSt) (s : State) : (modI3c f s).ip = s.ip := rfl
@[simp] theorem modI3c_sw (f : I3cSt → I3cSt) (s : State) : (modI3c f s).sw = s.sw := rfl
@[simp] theorem modI3c_em (f : I3cSt → I3cSt) (s : State) : (modI3c f s).em = s.em := rfl
@[simp] theorem modI3c_cmp (f : I3cSt → I3cSt) (s : State) : (modI3c f s).cmp = s.cmp := rfl
@[simp] theorem modI3c_tg (f : I3cSt → I3cSt) (s : State) : (modI3c f s).tg = s.tg := rfl
@[simp] theorem modI3c_pg (f : I3cSt → I3cSt) (s : State) : (modI3c f s).pg = s.pg := rfl
@[simp] theorem modI3c_keep (f : I3cSt → I3cSt) (s : State) : (modI3c f s).keep = s.keep := rfl
@[simp] theorem modI3c_fm (f : I3cSt → I3cSt) (s : State) : (modI3c f s).fm = s.fm := rfl
@[simp] theorem modI3c_net (f : I3cSt → I3cSt) (s : State) : (modI3c f s).net = s.net := rfl
@[simp] theorem modI3c_hst_linkUp (f : I3cSt → I3cSt) (s : State) : (modI3c f s).hst.linkUp = s.hst.linkUp := rfl
@[simp] theorem modI3c_hst_width (f : I3cSt → I3cSt) (s : State) : (modI3c f s).hst.width = s.hst.width := rfl
@[simp] theorem modI3c_hst_rate (f : I3cSt → I3cSt) (s : State) : (modI3c f s).hst.rate = s.hst.rate := rfl
@[simp] theorem modI3c_hst_bme (f : I3cSt → I3cSt) (s : State) : (modI3c f s).hst.bme = s.hst.bme := rfl
@[simp] theorem modI3c_hst_d3hot (f : I3cSt → I3cSt) (s : State) : (modI3c f s).hst.d3hot = s.hst.d3hot := rfl
@[simp] theorem modI3c_hst_aer (f : I3cSt → I3cSt) (s : State) : (modI3c f s).hst.aer = s.hst.aer := rfl
@[simp] theorem modI3c_hst_msixEn (f : I3cSt → I3cSt) (s : State) : (modI3c f s).hst.msixEn = s.hst.msixEn := rfl
@[simp] theorem modI3c_hst_fmask (f : I3cSt → I3cSt) (s : State) : (modI3c f s).hst.fmask = s.hst.fmask := rfl
@[simp] theorem modI3c_hst_dma (f : I3cSt → I3cSt) (s : State) : (modI3c f s).hst.dma = s.hst.dma := rfl
@[simp] theorem modI3c_hst_msixPend (f : I3cSt → I3cSt) (s : State) : (modI3c f s).hst.msixPend = s.hst.msixPend := rfl
@[simp] theorem modI3c_hst_svc (f : I3cSt → I3cSt) (s : State) : (modI3c f s).hst.svc = s.hst.svc := rfl
@[simp] theorem modI3c_hst_svcDone (f : I3cSt → I3cSt) (s : State) : (modI3c f s).hst.svcDone = s.hst.svcDone := rfl
@[simp] theorem modI3c_hst_svcSeq (f : I3cSt → I3cSt) (s : State) : (modI3c f s).hst.svcSeq = s.hst.svcSeq := rfl
@[simp] theorem modI3c_hst_svcFresh (f : I3cSt → I3cSt) (s : State) : (modI3c f s).hst.svcFresh = s.hst.svcFresh := rfl
@[simp] theorem modI3c_hst_svcCode (f : I3cSt → I3cSt) (s : State) : (modI3c f s).hst.svcCode = s.hst.svcCode := rfl
@[simp] theorem modI3c_hst_svcData (f : I3cSt → I3cSt) (s : State) : (modI3c f s).hst.svcData = s.hst.svcData := rfl
@[simp] theorem modI3c_twn (f : I3cSt → I3cSt) (s : State) : (modI3c f s).twn = s.twn := rfl
@[simp] theorem modI3c_hrd (f : I3cSt → I3cSt) (s : State) : (modI3c f s).hrd = s.hrd := rfl
@[simp] theorem modI3c_sec (f : I3cSt → I3cSt) (s : State) : (modI3c f s).sec = s.sec := rfl
@[simp] theorem modI3c_flt (f : I3cSt → I3cSt) (s : State) : (modI3c f s).flt = s.flt := rfl
@[simp] theorem modI3c_mon (f : I3cSt → I3cSt) (s : State) : (modI3c f s).mon = s.mon := rfl
@[simp] theorem modI3c_clk (f : I3cSt → I3cSt) (s : State) : (modI3c f s).clk = s.clk := rfl
@[simp] theorem modI3c_rst (f : I3cSt → I3cSt) (s : State) : (modI3c f s).rst = s.rst := rfl
@[simp] theorem modI3c_i3c (f : I3cSt → I3cSt) (s : State) : (modI3c f s).hst.i3c = f s.hst.i3c := rfl
@[simp] theorem emit_pending (o : Output) (s : State) : (emit o s).pending = s.pending := rfl
@[simp] theorem emit_freeCtr (o : Output) (s : State) : (emit o s).freeCtr = s.freeCtr := rfl
@[simp] theorem emit_time (o : Output) (s : State) : (emit o s).time = s.time := rfl
@[simp] theorem emit_inForce (o : Output) (s : State) : (emit o s).inForce = s.inForce := rfl
@[simp] theorem emit_shadow (o : Output) (s : State) : (emit o s).shadow = s.shadow := rfl
@[simp] theorem emit_rw (o : Output) (s : State) : (emit o s).rw = s.rw := rfl
@[simp] theorem emit_written (o : Output) (s : State) : (emit o s).written = s.written := rfl
@[simp] theorem emit_commit (o : Output) (s : State) : (emit o s).commit = s.commit := rfl
@[simp] theorem emit_conf (o : Output) (s : State) : (emit o s).conf = s.conf := rfl
@[simp] theorem emit_slots (o : Output) (s : State) : (emit o s).slots = s.slots := rfl
@[simp] theorem emit_units (o : Output) (s : State) : (emit o s).units = s.units := rfl
@[simp] theorem emit_hist (o : Output) (s : State) : (emit o s).hist = s.hist := rfl
@[simp] theorem emit_xg (o : Output) (s : State) : (emit o s).xg = s.xg := rfl
@[simp] theorem emit_rc (o : Output) (s : State) : (emit o s).rc = s.rc := rfl
@[simp] theorem emit_tone (o : Output) (s : State) : (emit o s).tone = s.tone := rfl
@[simp] theorem emit_toneBox (o : Output) (s : State) : (emit o s).toneBox = s.toneBox := rfl
@[simp] theorem emit_biasSplit (o : Output) (s : State) : (emit o s).biasSplit = s.biasSplit := rfl
@[simp] theorem emit_biasOff (o : Output) (s : State) : (emit o s).biasOff = s.biasOff := rfl
@[simp] theorem emit_decim (o : Output) (s : State) : (emit o s).decim = s.decim := rfl
@[simp] theorem emit_ax (o : Output) (s : State) : (emit o s).ax = s.ax := rfl
@[simp] theorem emit_axs (o : Output) (s : State) : (emit o s).axs = s.axs := rfl
@[simp] theorem emit_se (o : Output) (s : State) : (emit o s).se = s.se := rfl
@[simp] theorem emit_tk (o : Output) (s : State) : (emit o s).tk = s.tk := rfl
@[simp] theorem emit_maps (o : Output) (s : State) : (emit o s).maps = s.maps := rfl
@[simp] theorem emit_gl (o : Output) (s : State) : (emit o s).gl = s.gl := rfl
@[simp] theorem emit_rh (o : Output) (s : State) : (emit o s).rh = s.rh := rfl
@[simp] theorem emit_ip (o : Output) (s : State) : (emit o s).ip = s.ip := rfl
@[simp] theorem emit_sw (o : Output) (s : State) : (emit o s).sw = s.sw := rfl
@[simp] theorem emit_em (o : Output) (s : State) : (emit o s).em = s.em := rfl
@[simp] theorem emit_cmp (o : Output) (s : State) : (emit o s).cmp = s.cmp := rfl
@[simp] theorem emit_tg (o : Output) (s : State) : (emit o s).tg = s.tg := rfl
@[simp] theorem emit_pg (o : Output) (s : State) : (emit o s).pg = s.pg := rfl
@[simp] theorem emit_keep (o : Output) (s : State) : (emit o s).keep = s.keep := rfl
@[simp] theorem emit_fm (o : Output) (s : State) : (emit o s).fm = s.fm := rfl
@[simp] theorem emit_net (o : Output) (s : State) : (emit o s).net = s.net := rfl
@[simp] theorem emit_hst (o : Output) (s : State) : (emit o s).hst = s.hst := rfl
@[simp] theorem emit_twn (o : Output) (s : State) : (emit o s).twn = s.twn := rfl
@[simp] theorem emit_hrd (o : Output) (s : State) : (emit o s).hrd = s.hrd := rfl
@[simp] theorem emit_sec (o : Output) (s : State) : (emit o s).sec = s.sec := rfl
@[simp] theorem emit_flt (o : Output) (s : State) : (emit o s).flt = s.flt := rfl
@[simp] theorem emit_mon (o : Output) (s : State) : (emit o s).mon = s.mon := rfl
@[simp] theorem emit_clk (o : Output) (s : State) : (emit o s).clk = s.clk := rfl
@[simp] theorem emit_rst (o : Output) (s : State) : (emit o s).rst = s.rst := rfl
@[simp] theorem emit_outbox (o : Output) (s : State) : (emit o s).outbox = s.outbox ++ [o] := rfl
@[simp] theorem setNow_pending (t : Nat) (s : State) : (setNow t s).pending = s.pending := rfl
@[simp] theorem setNow_freeCtr (t : Nat) (s : State) : (setNow t s).freeCtr = s.freeCtr := rfl
@[simp] theorem setNow_outbox (t : Nat) (s : State) : (setNow t s).outbox = s.outbox := rfl
@[simp] theorem setNow_time_frame (t : Nat) (s : State) : (setNow t s).time.frame = s.time.frame := rfl
@[simp] theorem setNow_time_firstFrame (t : Nat) (s : State) : (setNow t s).time.firstFrame = s.time.firstFrame := rfl
@[simp] theorem setNow_time_openFrame (t : Nat) (s : State) : (setNow t s).time.openFrame = s.time.openFrame := rfl
@[simp] theorem setNow_time_slew (t : Nat) (s : State) : (setNow t s).time.slew = s.time.slew := rfl
@[simp] theorem setNow_inForce (t : Nat) (s : State) : (setNow t s).inForce = s.inForce := rfl
@[simp] theorem setNow_shadow (t : Nat) (s : State) : (setNow t s).shadow = s.shadow := rfl
@[simp] theorem setNow_rw (t : Nat) (s : State) : (setNow t s).rw = s.rw := rfl
@[simp] theorem setNow_written (t : Nat) (s : State) : (setNow t s).written = s.written := rfl
@[simp] theorem setNow_commit (t : Nat) (s : State) : (setNow t s).commit = s.commit := rfl
@[simp] theorem setNow_conf (t : Nat) (s : State) : (setNow t s).conf = s.conf := rfl
@[simp] theorem setNow_slots (t : Nat) (s : State) : (setNow t s).slots = s.slots := rfl
@[simp] theorem setNow_units (t : Nat) (s : State) : (setNow t s).units = s.units := rfl
@[simp] theorem setNow_hist (t : Nat) (s : State) : (setNow t s).hist = s.hist := rfl
@[simp] theorem setNow_xg (t : Nat) (s : State) : (setNow t s).xg = s.xg := rfl
@[simp] theorem setNow_rc (t : Nat) (s : State) : (setNow t s).rc = s.rc := rfl
@[simp] theorem setNow_tone (t : Nat) (s : State) : (setNow t s).tone = s.tone := rfl
@[simp] theorem setNow_toneBox (t : Nat) (s : State) : (setNow t s).toneBox = s.toneBox := rfl
@[simp] theorem setNow_biasSplit (t : Nat) (s : State) : (setNow t s).biasSplit = s.biasSplit := rfl
@[simp] theorem setNow_biasOff (t : Nat) (s : State) : (setNow t s).biasOff = s.biasOff := rfl
@[simp] theorem setNow_decim (t : Nat) (s : State) : (setNow t s).decim = s.decim := rfl
@[simp] theorem setNow_ax (t : Nat) (s : State) : (setNow t s).ax = s.ax := rfl
@[simp] theorem setNow_axs (t : Nat) (s : State) : (setNow t s).axs = s.axs := rfl
@[simp] theorem setNow_se (t : Nat) (s : State) : (setNow t s).se = s.se := rfl
@[simp] theorem setNow_tk (t : Nat) (s : State) : (setNow t s).tk = s.tk := rfl
@[simp] theorem setNow_maps (t : Nat) (s : State) : (setNow t s).maps = s.maps := rfl
@[simp] theorem setNow_gl (t : Nat) (s : State) : (setNow t s).gl = s.gl := rfl
@[simp] theorem setNow_rh (t : Nat) (s : State) : (setNow t s).rh = s.rh := rfl
@[simp] theorem setNow_ip (t : Nat) (s : State) : (setNow t s).ip = s.ip := rfl
@[simp] theorem setNow_sw (t : Nat) (s : State) : (setNow t s).sw = s.sw := rfl
@[simp] theorem setNow_em (t : Nat) (s : State) : (setNow t s).em = s.em := rfl
@[simp] theorem setNow_cmp (t : Nat) (s : State) : (setNow t s).cmp = s.cmp := rfl
@[simp] theorem setNow_tg (t : Nat) (s : State) : (setNow t s).tg = s.tg := rfl
@[simp] theorem setNow_pg (t : Nat) (s : State) : (setNow t s).pg = s.pg := rfl
@[simp] theorem setNow_keep (t : Nat) (s : State) : (setNow t s).keep = s.keep := rfl
@[simp] theorem setNow_fm (t : Nat) (s : State) : (setNow t s).fm = s.fm := rfl
@[simp] theorem setNow_net (t : Nat) (s : State) : (setNow t s).net = s.net := rfl
@[simp] theorem setNow_hst (t : Nat) (s : State) : (setNow t s).hst = s.hst := rfl
@[simp] theorem setNow_twn (t : Nat) (s : State) : (setNow t s).twn = s.twn := rfl
@[simp] theorem setNow_hrd (t : Nat) (s : State) : (setNow t s).hrd = s.hrd := rfl
@[simp] theorem setNow_sec (t : Nat) (s : State) : (setNow t s).sec = s.sec := rfl
@[simp] theorem setNow_flt (t : Nat) (s : State) : (setNow t s).flt = s.flt := rfl
@[simp] theorem setNow_mon (t : Nat) (s : State) : (setNow t s).mon = s.mon := rfl
@[simp] theorem setNow_clk (t : Nat) (s : State) : (setNow t s).clk = s.clk := rfl
@[simp] theorem setNow_rst (t : Nat) (s : State) : (setNow t s).rst = s.rst := rfl
@[simp] theorem setNow_now (t : Nat) (s : State) : (setNow t s).time.now = max s.time.now t := rfl
@[simp] theorem setIr_pending (i : JtagIr) (s : State) : (setIr i s).pending = s.pending := rfl
@[simp] theorem setIr_freeCtr (i : JtagIr) (s : State) : (setIr i s).freeCtr = s.freeCtr := rfl
@[simp] theorem setIr_outbox (i : JtagIr) (s : State) : (setIr i s).outbox = s.outbox := rfl
@[simp] theorem setIr_time (i : JtagIr) (s : State) : (setIr i s).time = s.time := rfl
@[simp] theorem setIr_inForce (i : JtagIr) (s : State) : (setIr i s).inForce = s.inForce := rfl
@[simp] theorem setIr_shadow (i : JtagIr) (s : State) : (setIr i s).shadow = s.shadow := rfl
@[simp] theorem setIr_rw (i : JtagIr) (s : State) : (setIr i s).rw = s.rw := rfl
@[simp] theorem setIr_written (i : JtagIr) (s : State) : (setIr i s).written = s.written := rfl
@[simp] theorem setIr_commit (i : JtagIr) (s : State) : (setIr i s).commit = s.commit := rfl
@[simp] theorem setIr_conf (i : JtagIr) (s : State) : (setIr i s).conf = s.conf := rfl
@[simp] theorem setIr_slots (i : JtagIr) (s : State) : (setIr i s).slots = s.slots := rfl
@[simp] theorem setIr_units (i : JtagIr) (s : State) : (setIr i s).units = s.units := rfl
@[simp] theorem setIr_hist (i : JtagIr) (s : State) : (setIr i s).hist = s.hist := rfl
@[simp] theorem setIr_xg (i : JtagIr) (s : State) : (setIr i s).xg = s.xg := rfl
@[simp] theorem setIr_rc (i : JtagIr) (s : State) : (setIr i s).rc = s.rc := rfl
@[simp] theorem setIr_tone (i : JtagIr) (s : State) : (setIr i s).tone = s.tone := rfl
@[simp] theorem setIr_toneBox (i : JtagIr) (s : State) : (setIr i s).toneBox = s.toneBox := rfl
@[simp] theorem setIr_biasSplit (i : JtagIr) (s : State) : (setIr i s).biasSplit = s.biasSplit := rfl
@[simp] theorem setIr_biasOff (i : JtagIr) (s : State) : (setIr i s).biasOff = s.biasOff := rfl
@[simp] theorem setIr_decim (i : JtagIr) (s : State) : (setIr i s).decim = s.decim := rfl
@[simp] theorem setIr_ax (i : JtagIr) (s : State) : (setIr i s).ax = s.ax := rfl
@[simp] theorem setIr_axs (i : JtagIr) (s : State) : (setIr i s).axs = s.axs := rfl
@[simp] theorem setIr_se (i : JtagIr) (s : State) : (setIr i s).se = s.se := rfl
@[simp] theorem setIr_tk (i : JtagIr) (s : State) : (setIr i s).tk = s.tk := rfl
@[simp] theorem setIr_maps (i : JtagIr) (s : State) : (setIr i s).maps = s.maps := rfl
@[simp] theorem setIr_gl (i : JtagIr) (s : State) : (setIr i s).gl = s.gl := rfl
@[simp] theorem setIr_rh (i : JtagIr) (s : State) : (setIr i s).rh = s.rh := rfl
@[simp] theorem setIr_ip (i : JtagIr) (s : State) : (setIr i s).ip = s.ip := rfl
@[simp] theorem setIr_sw (i : JtagIr) (s : State) : (setIr i s).sw = s.sw := rfl
@[simp] theorem setIr_em (i : JtagIr) (s : State) : (setIr i s).em = s.em := rfl
@[simp] theorem setIr_cmp (i : JtagIr) (s : State) : (setIr i s).cmp = s.cmp := rfl
@[simp] theorem setIr_tg (i : JtagIr) (s : State) : (setIr i s).tg = s.tg := rfl
@[simp] theorem setIr_pg (i : JtagIr) (s : State) : (setIr i s).pg = s.pg := rfl
@[simp] theorem setIr_keep (i : JtagIr) (s : State) : (setIr i s).keep = s.keep := rfl
@[simp] theorem setIr_fm (i : JtagIr) (s : State) : (setIr i s).fm = s.fm := rfl
@[simp] theorem setIr_net (i : JtagIr) (s : State) : (setIr i s).net = s.net := rfl
@[simp] theorem setIr_hst (i : JtagIr) (s : State) : (setIr i s).hst = s.hst := rfl
@[simp] theorem setIr_twn (i : JtagIr) (s : State) : (setIr i s).twn = s.twn := rfl
@[simp] theorem setIr_hrd (i : JtagIr) (s : State) : (setIr i s).hrd = s.hrd := rfl
@[simp] theorem setIr_sec_burned (i : JtagIr) (s : State) : (setIr i s).sec.burned = s.sec.burned := rfl
@[simp] theorem setIr_sec_revoked (i : JtagIr) (s : State) : (setIr i s).sec.revoked = s.sec.revoked := rfl
@[simp] theorem setIr_sec_hashes (i : JtagIr) (s : State) : (setIr i s).sec.hashes = s.sec.hashes := rfl
@[simp] theorem setIr_sec_testBurned (i : JtagIr) (s : State) : (setIr i s).sec.testBurned = s.sec.testBurned := rfl
@[simp] theorem setIr_sec_fusesOk (i : JtagIr) (s : State) : (setIr i s).sec.fusesOk = s.sec.fusesOk := rfl
@[simp] theorem setIr_sec_identityOk (i : JtagIr) (s : State) : (setIr i s).sec.identityOk = s.sec.identityOk := rfl
@[simp] theorem setIr_sec_floor (i : JtagIr) (s : State) : (setIr i s).sec.floor = s.sec.floor := rfl
@[simp] theorem setIr_sec_floorA (i : JtagIr) (s : State) : (setIr i s).sec.floorA = s.sec.floorA := rfl
@[simp] theorem setIr_sec_floorB (i : JtagIr) (s : State) : (setIr i s).sec.floorB = s.sec.floorB := rfl
@[simp] theorem setIr_sec_floorPending (i : JtagIr) (s : State) : (setIr i s).sec.floorPending = s.sec.floorPending := rfl
@[simp] theorem setIr_sec_imgKeys (i : JtagIr) (s : State) : (setIr i s).sec.imgKeys = s.sec.imgKeys := rfl
@[simp] theorem setIr_sec_atBoundary (i : JtagIr) (s : State) : (setIr i s).sec.atBoundary = s.sec.atBoundary := rfl
@[simp] theorem setIr_sec_sessions (i : JtagIr) (s : State) : (setIr i s).sec.sessions = s.sec.sessions := rfl
@[simp] theorem setIr_sec_dbgChal (i : JtagIr) (s : State) : (setIr i s).sec.dbgChal = s.sec.dbgChal := rfl
@[simp] theorem setIr_sec_dbgUnlocked (i : JtagIr) (s : State) : (setIr i s).sec.dbgUnlocked = s.sec.dbgUnlocked := rfl
@[simp] theorem setIr_sec_dbgLocked (i : JtagIr) (s : State) : (setIr i s).sec.dbgLocked = s.sec.dbgLocked := rfl
@[simp] theorem setIr_sec_tamperCause (i : JtagIr) (s : State) : (setIr i s).sec.tamperCause = s.sec.tamperCause := rfl
@[simp] theorem setIr_sec_alarmForced (i : JtagIr) (s : State) : (setIr i s).sec.alarmForced = s.sec.alarmForced := rfl
@[simp] theorem setIr_flt (i : JtagIr) (s : State) : (setIr i s).flt = s.flt := rfl
@[simp] theorem setIr_mon (i : JtagIr) (s : State) : (setIr i s).mon = s.mon := rfl
@[simp] theorem setIr_clk (i : JtagIr) (s : State) : (setIr i s).clk = s.clk := rfl
@[simp] theorem setIr_rst (i : JtagIr) (s : State) : (setIr i s).rst = s.rst := rfl
@[simp] theorem setByte_pending (a : Nat) (v : Byte) (s : State) : (setByte a v s).pending = s.pending := rfl
@[simp] theorem setByte_freeCtr (a : Nat) (v : Byte) (s : State) : (setByte a v s).freeCtr = s.freeCtr := rfl
@[simp] theorem setByte_outbox (a : Nat) (v : Byte) (s : State) : (setByte a v s).outbox = s.outbox := rfl
@[simp] theorem setByte_time (a : Nat) (v : Byte) (s : State) : (setByte a v s).time = s.time := rfl
@[simp] theorem setByte_inForce (a : Nat) (v : Byte) (s : State) : (setByte a v s).inForce = s.inForce := rfl
@[simp] theorem setByte_shadow (a : Nat) (v : Byte) (s : State) : (setByte a v s).shadow = s.shadow := rfl
@[simp] theorem setByte_rw (a : Nat) (v : Byte) (s : State) : (setByte a v s).rw = s.rw := rfl
@[simp] theorem setByte_written (a : Nat) (v : Byte) (s : State) : (setByte a v s).written = s.written := rfl
@[simp] theorem setByte_commit (a : Nat) (v : Byte) (s : State) : (setByte a v s).commit = s.commit := rfl
@[simp] theorem setByte_conf (a : Nat) (v : Byte) (s : State) : (setByte a v s).conf = s.conf := rfl
@[simp] theorem setByte_slots (a : Nat) (v : Byte) (s : State) : (setByte a v s).slots = s.slots := rfl
@[simp] theorem setByte_units (a : Nat) (v : Byte) (s : State) : (setByte a v s).units = s.units := rfl
@[simp] theorem setByte_hist (a : Nat) (v : Byte) (s : State) : (setByte a v s).hist = s.hist := rfl
@[simp] theorem setByte_xg (a : Nat) (v : Byte) (s : State) : (setByte a v s).xg = s.xg := rfl
@[simp] theorem setByte_rc (a : Nat) (v : Byte) (s : State) : (setByte a v s).rc = s.rc := rfl
@[simp] theorem setByte_tone (a : Nat) (v : Byte) (s : State) : (setByte a v s).tone = s.tone := rfl
@[simp] theorem setByte_toneBox (a : Nat) (v : Byte) (s : State) : (setByte a v s).toneBox = s.toneBox := rfl
@[simp] theorem setByte_biasSplit (a : Nat) (v : Byte) (s : State) : (setByte a v s).biasSplit = s.biasSplit := rfl
@[simp] theorem setByte_biasOff (a : Nat) (v : Byte) (s : State) : (setByte a v s).biasOff = s.biasOff := rfl
@[simp] theorem setByte_decim (a : Nat) (v : Byte) (s : State) : (setByte a v s).decim = s.decim := rfl
@[simp] theorem setByte_ax (a : Nat) (v : Byte) (s : State) : (setByte a v s).ax = s.ax := rfl
@[simp] theorem setByte_axs (a : Nat) (v : Byte) (s : State) : (setByte a v s).axs = s.axs := rfl
@[simp] theorem setByte_se (a : Nat) (v : Byte) (s : State) : (setByte a v s).se = s.se := rfl
@[simp] theorem setByte_tk (a : Nat) (v : Byte) (s : State) : (setByte a v s).tk = s.tk := rfl
@[simp] theorem setByte_maps (a : Nat) (v : Byte) (s : State) : (setByte a v s).maps = s.maps := rfl
@[simp] theorem setByte_gl (a : Nat) (v : Byte) (s : State) : (setByte a v s).gl = s.gl := rfl
@[simp] theorem setByte_rh (a : Nat) (v : Byte) (s : State) : (setByte a v s).rh = s.rh := rfl
@[simp] theorem setByte_ip (a : Nat) (v : Byte) (s : State) : (setByte a v s).ip = s.ip := rfl
@[simp] theorem setByte_sw (a : Nat) (v : Byte) (s : State) : (setByte a v s).sw = s.sw := rfl
@[simp] theorem setByte_em (a : Nat) (v : Byte) (s : State) : (setByte a v s).em = s.em := rfl
@[simp] theorem setByte_cmp (a : Nat) (v : Byte) (s : State) : (setByte a v s).cmp = s.cmp := rfl
@[simp] theorem setByte_tg (a : Nat) (v : Byte) (s : State) : (setByte a v s).tg = s.tg := rfl
@[simp] theorem setByte_pg (a : Nat) (v : Byte) (s : State) : (setByte a v s).pg = s.pg := rfl
@[simp] theorem setByte_keep (a : Nat) (v : Byte) (s : State) : (setByte a v s).keep = s.keep := rfl
@[simp] theorem setByte_fm_tiles (a : Nat) (v : Byte) (s : State) : (setByte a v s).fm.tiles = s.fm.tiles := rfl
@[simp] theorem setByte_fm_stage (a : Nat) (v : Byte) (s : State) : (setByte a v s).fm.stage = s.fm.stage := rfl
@[simp] theorem setByte_fm_lastLen (a : Nat) (v : Byte) (s : State) : (setByte a v s).fm.lastLen = s.fm.lastLen := rfl
@[simp] theorem setByte_fm_lastFrame (a : Nat) (v : Byte) (s : State) : (setByte a v s).fm.lastFrame = s.fm.lastFrame := rfl
@[simp] theorem setByte_fm_lastSlot (a : Nat) (v : Byte) (s : State) : (setByte a v s).fm.lastSlot = s.fm.lastSlot := rfl
@[simp] theorem setByte_fm_laid (a : Nat) (v : Byte) (s : State) : (setByte a v s).fm.laid = s.fm.laid := rfl
@[simp] theorem setByte_fm_bbHead (a : Nat) (v : Byte) (s : State) : (setByte a v s).fm.bbHead = s.fm.bbHead := rfl
@[simp] theorem setByte_fm_bbCount (a : Nat) (v : Byte) (s : State) : (setByte a v s).fm.bbCount = s.fm.bbCount := rfl
@[simp] theorem setByte_fm_bbAged (a : Nat) (v : Byte) (s : State) : (setByte a v s).fm.bbAged = s.fm.bbAged := rfl
@[simp] theorem setByte_fm_tileFails (a : Nat) (v : Byte) (s : State) : (setByte a v s).fm.tileFails = s.fm.tileFails := rfl
@[simp] theorem setByte_fm_lastBad (a : Nat) (v : Byte) (s : State) : (setByte a v s).fm.lastBad = s.fm.lastBad := rfl
@[simp] theorem setByte_fm_scrubPos (a : Nat) (v : Byte) (s : State) : (setByte a v s).fm.scrubPos = s.fm.scrubPos := rfl
@[simp] theorem setByte_fm_failAt (a : Nat) (v : Byte) (s : State) : (setByte a v s).fm.failAt = s.fm.failAt := rfl
@[simp] theorem setByte_fm_scrubLeft (a : Nat) (v : Byte) (s : State) : (setByte a v s).fm.scrubLeft = s.fm.scrubLeft := rfl
@[simp] theorem setByte_fm_dropsBb (a : Nat) (v : Byte) (s : State) : (setByte a v s).fm.dropsBb = s.fm.dropsBb := rfl
@[simp] theorem setByte_fm_dropsDma (a : Nat) (v : Byte) (s : State) : (setByte a v s).fm.dropsDma = s.fm.dropsDma := rfl
@[simp] theorem setByte_fm_dropsTwin (a : Nat) (v : Byte) (s : State) : (setByte a v s).fm.dropsTwin = s.fm.dropsTwin := rfl
@[simp] theorem setByte_fm_dropsForced (a : Nat) (v : Byte) (s : State) : (setByte a v s).fm.dropsForced = s.fm.dropsForced := rfl
@[simp] theorem setByte_fm_ledger (a : Nat) (v : Byte) (s : State) : (setByte a v s).fm.ledger = s.fm.ledger := rfl
@[simp] theorem setByte_fm_ledgerFrame (a : Nat) (v : Byte) (s : State) : (setByte a v s).fm.ledgerFrame = s.fm.ledgerFrame := rfl
@[simp] theorem setByte_fm_deferred (a : Nat) (v : Byte) (s : State) : (setByte a v s).fm.deferred = s.fm.deferred := rfl
@[simp] theorem setByte_fm_events (a : Nat) (v : Byte) (s : State) : (setByte a v s).fm.events = s.fm.events := rfl
@[simp] theorem setByte_net (a : Nat) (v : Byte) (s : State) : (setByte a v s).net = s.net := rfl
@[simp] theorem setByte_hst (a : Nat) (v : Byte) (s : State) : (setByte a v s).hst = s.hst := rfl
@[simp] theorem setByte_twn (a : Nat) (v : Byte) (s : State) : (setByte a v s).twn = s.twn := rfl
@[simp] theorem setByte_hrd (a : Nat) (v : Byte) (s : State) : (setByte a v s).hrd = s.hrd := rfl
@[simp] theorem setByte_sec (a : Nat) (v : Byte) (s : State) : (setByte a v s).sec = s.sec := rfl
@[simp] theorem setByte_flt (a : Nat) (v : Byte) (s : State) : (setByte a v s).flt = s.flt := rfl
@[simp] theorem setByte_mon (a : Nat) (v : Byte) (s : State) : (setByte a v s).mon = s.mon := rfl
@[simp] theorem setByte_clk (a : Nat) (v : Byte) (s : State) : (setByte a v s).clk = s.clk := rfl
@[simp] theorem setByte_rst (a : Nat) (v : Byte) (s : State) : (setByte a v s).rst = s.rst := rfl
@[simp] theorem clearCond_pending (u kind sub : Nat) (s : State) : (clearCond u kind sub s).pending = s.pending := rfl
@[simp] theorem clearCond_freeCtr (u kind sub : Nat) (s : State) : (clearCond u kind sub s).freeCtr = s.freeCtr := rfl
@[simp] theorem clearCond_outbox (u kind sub : Nat) (s : State) : (clearCond u kind sub s).outbox = s.outbox := rfl
@[simp] theorem clearCond_time (u kind sub : Nat) (s : State) : (clearCond u kind sub s).time = s.time := rfl
@[simp] theorem clearCond_inForce (u kind sub : Nat) (s : State) : (clearCond u kind sub s).inForce = s.inForce := rfl
@[simp] theorem clearCond_shadow (u kind sub : Nat) (s : State) : (clearCond u kind sub s).shadow = s.shadow := rfl
@[simp] theorem clearCond_rw (u kind sub : Nat) (s : State) : (clearCond u kind sub s).rw = s.rw := rfl
@[simp] theorem clearCond_written (u kind sub : Nat) (s : State) : (clearCond u kind sub s).written = s.written := rfl
@[simp] theorem clearCond_commit (u kind sub : Nat) (s : State) : (clearCond u kind sub s).commit = s.commit := rfl
@[simp] theorem clearCond_conf (u kind sub : Nat) (s : State) : (clearCond u kind sub s).conf = s.conf := rfl
@[simp] theorem clearCond_slots (u kind sub : Nat) (s : State) : (clearCond u kind sub s).slots = s.slots := rfl
@[simp] theorem clearCond_units (u kind sub : Nat) (s : State) : (clearCond u kind sub s).units = s.units := rfl
@[simp] theorem clearCond_hist (u kind sub : Nat) (s : State) : (clearCond u kind sub s).hist = s.hist := rfl
@[simp] theorem clearCond_xg (u kind sub : Nat) (s : State) : (clearCond u kind sub s).xg = s.xg := rfl
@[simp] theorem clearCond_rc (u kind sub : Nat) (s : State) : (clearCond u kind sub s).rc = s.rc := rfl
@[simp] theorem clearCond_tone (u kind sub : Nat) (s : State) : (clearCond u kind sub s).tone = s.tone := rfl
@[simp] theorem clearCond_toneBox (u kind sub : Nat) (s : State) : (clearCond u kind sub s).toneBox = s.toneBox := rfl
@[simp] theorem clearCond_biasSplit (u kind sub : Nat) (s : State) : (clearCond u kind sub s).biasSplit = s.biasSplit := rfl
@[simp] theorem clearCond_biasOff (u kind sub : Nat) (s : State) : (clearCond u kind sub s).biasOff = s.biasOff := rfl
@[simp] theorem clearCond_decim (u kind sub : Nat) (s : State) : (clearCond u kind sub s).decim = s.decim := rfl
@[simp] theorem clearCond_ax (u kind sub : Nat) (s : State) : (clearCond u kind sub s).ax = s.ax := rfl
@[simp] theorem clearCond_axs (u kind sub : Nat) (s : State) : (clearCond u kind sub s).axs = s.axs := rfl
@[simp] theorem clearCond_se (u kind sub : Nat) (s : State) : (clearCond u kind sub s).se = s.se := rfl
@[simp] theorem clearCond_tk (u kind sub : Nat) (s : State) : (clearCond u kind sub s).tk = s.tk := rfl
@[simp] theorem clearCond_maps (u kind sub : Nat) (s : State) : (clearCond u kind sub s).maps = s.maps := rfl
@[simp] theorem clearCond_gl (u kind sub : Nat) (s : State) : (clearCond u kind sub s).gl = s.gl := rfl
@[simp] theorem clearCond_rh (u kind sub : Nat) (s : State) : (clearCond u kind sub s).rh = s.rh := rfl
@[simp] theorem clearCond_ip (u kind sub : Nat) (s : State) : (clearCond u kind sub s).ip = s.ip := rfl
@[simp] theorem clearCond_sw (u kind sub : Nat) (s : State) : (clearCond u kind sub s).sw = s.sw := rfl
@[simp] theorem clearCond_em (u kind sub : Nat) (s : State) : (clearCond u kind sub s).em = s.em := rfl
@[simp] theorem clearCond_cmp (u kind sub : Nat) (s : State) : (clearCond u kind sub s).cmp = s.cmp := rfl
@[simp] theorem clearCond_tg (u kind sub : Nat) (s : State) : (clearCond u kind sub s).tg = s.tg := rfl
@[simp] theorem clearCond_pg (u kind sub : Nat) (s : State) : (clearCond u kind sub s).pg = s.pg := rfl
@[simp] theorem clearCond_keep (u kind sub : Nat) (s : State) : (clearCond u kind sub s).keep = s.keep := rfl
@[simp] theorem clearCond_fm (u kind sub : Nat) (s : State) : (clearCond u kind sub s).fm = s.fm := rfl
@[simp] theorem clearCond_net (u kind sub : Nat) (s : State) : (clearCond u kind sub s).net = s.net := rfl
@[simp] theorem clearCond_hst (u kind sub : Nat) (s : State) : (clearCond u kind sub s).hst = s.hst := rfl
@[simp] theorem clearCond_twn (u kind sub : Nat) (s : State) : (clearCond u kind sub s).twn = s.twn := rfl
@[simp] theorem clearCond_hrd (u kind sub : Nat) (s : State) : (clearCond u kind sub s).hrd = s.hrd := rfl
@[simp] theorem clearCond_sec (u kind sub : Nat) (s : State) : (clearCond u kind sub s).sec = s.sec := rfl
@[simp] theorem clearCond_flt_queues (u kind sub : Nat) (s : State) : (clearCond u kind sub s).flt.queues = s.flt.queues := rfl
@[simp] theorem clearCond_flt_seq (u kind sub : Nat) (s : State) : (clearCond u kind sub s).flt.seq = s.flt.seq := rfl
@[simp] theorem clearCond_flt_drops (u kind sub : Nat) (s : State) : (clearCond u kind sub s).flt.drops = s.flt.drops := rfl
@[simp] theorem clearCond_flt_fs (u kind sub : Nat) (s : State) : (clearCond u kind sub s).flt.fs = s.flt.fs := rfl
@[simp] theorem clearCond_flt_ffValid (u kind sub : Nat) (s : State) : (clearCond u kind sub s).flt.ffValid = s.flt.ffValid := rfl
@[simp] theorem clearCond_flt_ffClass (u kind sub : Nat) (s : State) : (clearCond u kind sub s).flt.ffClass = s.flt.ffClass := rfl
@[simp] theorem clearCond_flt_ffPromoted (u kind sub : Nat) (s : State) : (clearCond u kind sub s).flt.ffPromoted = s.flt.ffPromoted := rfl
@[simp] theorem clearCond_flt_ffSimult (u kind sub : Nat) (s : State) : (clearCond u kind sub s).flt.ffSimult = s.flt.ffSimult := rfl
@[simp] theorem clearCond_flt_ffMsg (u kind sub : Nat) (s : State) : (clearCond u kind sub s).flt.ffMsg = s.flt.ffMsg := rfl
@[simp] theorem clearCond_flt_ffTime (u kind sub : Nat) (s : State) : (clearCond u kind sub s).flt.ffTime = s.flt.ffTime := rfl
@[simp] theorem clearCond_flt_ffSeq (u kind sub : Nat) (s : State) : (clearCond u kind sub s).flt.ffSeq = s.flt.ffSeq := rfl
@[simp] theorem clearCond_flt_classCount (u kind sub : Nat) (s : State) : (clearCond u kind sub s).flt.classCount = s.flt.classCount := rfl
@[simp] theorem clearCond_flt_alarm (u kind sub : Nat) (s : State) : (clearCond u kind sub s).flt.alarm = s.flt.alarm := rfl
@[simp] theorem clearCond_flt_alarmHold (u kind sub : Nat) (s : State) : (clearCond u kind sub s).flt.alarmHold = s.flt.alarmHold := rfl
@[simp] theorem clearCond_flt_alarmCount (u kind sub : Nat) (s : State) : (clearCond u kind sub s).flt.alarmCount = s.flt.alarmCount := rfl
@[simp] theorem clearCond_flt_alarmOn (u kind sub : Nat) (s : State) : (clearCond u kind sub s).flt.alarmOn = s.flt.alarmOn := rfl
@[simp] theorem clearCond_flt_alarmFree (u kind sub : Nat) (s : State) : (clearCond u kind sub s).flt.alarmFree = s.flt.alarmFree := rfl
@[simp] theorem clearCond_flt_alarmLevel (u kind sub : Nat) (s : State) : (clearCond u kind sub s).flt.alarmLevel = s.flt.alarmLevel := rfl
@[simp] theorem clearCond_flt_hbLost (u kind sub : Nat) (s : State) : (clearCond u kind sub s).flt.hbLost = s.flt.hbLost := rfl
@[simp] theorem clearCond_flt_hbLast (u kind sub : Nat) (s : State) : (clearCond u kind sub s).flt.hbLast = s.flt.hbLast := rfl
@[simp] theorem clearCond_flt_hbLostAt (u kind sub : Nat) (s : State) : (clearCond u kind sub s).flt.hbLostAt = s.flt.hbLostAt := rfl
@[simp] theorem clearCond_flt_flHead (u kind sub : Nat) (s : State) : (clearCond u kind sub s).flt.flHead = s.flt.flHead := rfl
@[simp] theorem clearCond_flt_flWraps (u kind sub : Nat) (s : State) : (clearCond u kind sub s).flt.flWraps = s.flt.flWraps := rfl
@[simp] theorem clearCond_flt_flOpen (u kind sub : Nat) (s : State) : (clearCond u kind sub s).flt.flOpen = s.flt.flOpen := rfl
@[simp] theorem clearCond_flt_ring (u kind sub : Nat) (s : State) : (clearCond u kind sub s).flt.ring = s.flt.ring := rfl
@[simp] theorem clearCond_flt_ringHead (u kind sub : Nat) (s : State) : (clearCond u kind sub s).flt.ringHead = s.flt.ringHead := rfl
@[simp] theorem clearCond_flt_ringHeld (u kind sub : Nat) (s : State) : (clearCond u kind sub s).flt.ringHeld = s.flt.ringHeld := rfl
@[simp] theorem clearCond_flt_notStored (u kind sub : Nat) (s : State) : (clearCond u kind sub s).flt.notStored = s.flt.notStored := rfl
@[simp] theorem clearCond_flt_ringSecond (u kind sub : Nat) (s : State) : (clearCond u kind sub s).flt.ringSecond = s.flt.ringSecond := rfl
@[simp] theorem clearCond_flt_ringInSecond (u kind sub : Nat) (s : State) : (clearCond u kind sub s).flt.ringInSecond = s.flt.ringInSecond := rfl
@[simp] theorem clearCond_flt_heldBack (u kind sub : Nat) (s : State) : (clearCond u kind sub s).flt.heldBack = s.flt.heldBack := rfl
@[simp] theorem clearCond_mon (u kind sub : Nat) (s : State) : (clearCond u kind sub s).mon = s.mon := rfl
@[simp] theorem clearCond_clk (u kind sub : Nat) (s : State) : (clearCond u kind sub s).clk = s.clk := rfl
@[simp] theorem clearCond_rst (u kind sub : Nat) (s : State) : (clearCond u kind sub s).rst = s.rst := rfl
@[simp] theorem clearConds_pending (u : Nat) (s : State) : (clearConds u s).pending = s.pending := rfl
@[simp] theorem clearConds_freeCtr (u : Nat) (s : State) : (clearConds u s).freeCtr = s.freeCtr := rfl
@[simp] theorem clearConds_outbox (u : Nat) (s : State) : (clearConds u s).outbox = s.outbox := rfl
@[simp] theorem clearConds_time (u : Nat) (s : State) : (clearConds u s).time = s.time := rfl
@[simp] theorem clearConds_inForce (u : Nat) (s : State) : (clearConds u s).inForce = s.inForce := rfl
@[simp] theorem clearConds_shadow (u : Nat) (s : State) : (clearConds u s).shadow = s.shadow := rfl
@[simp] theorem clearConds_rw (u : Nat) (s : State) : (clearConds u s).rw = s.rw := rfl
@[simp] theorem clearConds_written (u : Nat) (s : State) : (clearConds u s).written = s.written := rfl
@[simp] theorem clearConds_commit (u : Nat) (s : State) : (clearConds u s).commit = s.commit := rfl
@[simp] theorem clearConds_conf (u : Nat) (s : State) : (clearConds u s).conf = s.conf := rfl
@[simp] theorem clearConds_slots (u : Nat) (s : State) : (clearConds u s).slots = s.slots := rfl
@[simp] theorem clearConds_units (u : Nat) (s : State) : (clearConds u s).units = s.units := rfl
@[simp] theorem clearConds_hist (u : Nat) (s : State) : (clearConds u s).hist = s.hist := rfl
@[simp] theorem clearConds_xg (u : Nat) (s : State) : (clearConds u s).xg = s.xg := rfl
@[simp] theorem clearConds_rc (u : Nat) (s : State) : (clearConds u s).rc = s.rc := rfl
@[simp] theorem clearConds_tone (u : Nat) (s : State) : (clearConds u s).tone = s.tone := rfl
@[simp] theorem clearConds_toneBox (u : Nat) (s : State) : (clearConds u s).toneBox = s.toneBox := rfl
@[simp] theorem clearConds_biasSplit (u : Nat) (s : State) : (clearConds u s).biasSplit = s.biasSplit := rfl
@[simp] theorem clearConds_biasOff (u : Nat) (s : State) : (clearConds u s).biasOff = s.biasOff := rfl
@[simp] theorem clearConds_decim (u : Nat) (s : State) : (clearConds u s).decim = s.decim := rfl
@[simp] theorem clearConds_ax (u : Nat) (s : State) : (clearConds u s).ax = s.ax := rfl
@[simp] theorem clearConds_axs (u : Nat) (s : State) : (clearConds u s).axs = s.axs := rfl
@[simp] theorem clearConds_se (u : Nat) (s : State) : (clearConds u s).se = s.se := rfl
@[simp] theorem clearConds_tk (u : Nat) (s : State) : (clearConds u s).tk = s.tk := rfl
@[simp] theorem clearConds_maps (u : Nat) (s : State) : (clearConds u s).maps = s.maps := rfl
@[simp] theorem clearConds_gl (u : Nat) (s : State) : (clearConds u s).gl = s.gl := rfl
@[simp] theorem clearConds_rh (u : Nat) (s : State) : (clearConds u s).rh = s.rh := rfl
@[simp] theorem clearConds_ip (u : Nat) (s : State) : (clearConds u s).ip = s.ip := rfl
@[simp] theorem clearConds_sw (u : Nat) (s : State) : (clearConds u s).sw = s.sw := rfl
@[simp] theorem clearConds_em (u : Nat) (s : State) : (clearConds u s).em = s.em := rfl
@[simp] theorem clearConds_cmp (u : Nat) (s : State) : (clearConds u s).cmp = s.cmp := rfl
@[simp] theorem clearConds_tg (u : Nat) (s : State) : (clearConds u s).tg = s.tg := rfl
@[simp] theorem clearConds_pg (u : Nat) (s : State) : (clearConds u s).pg = s.pg := rfl
@[simp] theorem clearConds_keep (u : Nat) (s : State) : (clearConds u s).keep = s.keep := rfl
@[simp] theorem clearConds_fm (u : Nat) (s : State) : (clearConds u s).fm = s.fm := rfl
@[simp] theorem clearConds_net (u : Nat) (s : State) : (clearConds u s).net = s.net := rfl
@[simp] theorem clearConds_hst (u : Nat) (s : State) : (clearConds u s).hst = s.hst := rfl
@[simp] theorem clearConds_twn (u : Nat) (s : State) : (clearConds u s).twn = s.twn := rfl
@[simp] theorem clearConds_hrd (u : Nat) (s : State) : (clearConds u s).hrd = s.hrd := rfl
@[simp] theorem clearConds_sec (u : Nat) (s : State) : (clearConds u s).sec = s.sec := rfl
@[simp] theorem clearConds_flt_queues (u : Nat) (s : State) : (clearConds u s).flt.queues = s.flt.queues := rfl
@[simp] theorem clearConds_flt_seq (u : Nat) (s : State) : (clearConds u s).flt.seq = s.flt.seq := rfl
@[simp] theorem clearConds_flt_drops (u : Nat) (s : State) : (clearConds u s).flt.drops = s.flt.drops := rfl
@[simp] theorem clearConds_flt_fs (u : Nat) (s : State) : (clearConds u s).flt.fs = s.flt.fs := rfl
@[simp] theorem clearConds_flt_ffValid (u : Nat) (s : State) : (clearConds u s).flt.ffValid = s.flt.ffValid := rfl
@[simp] theorem clearConds_flt_ffClass (u : Nat) (s : State) : (clearConds u s).flt.ffClass = s.flt.ffClass := rfl
@[simp] theorem clearConds_flt_ffPromoted (u : Nat) (s : State) : (clearConds u s).flt.ffPromoted = s.flt.ffPromoted := rfl
@[simp] theorem clearConds_flt_ffSimult (u : Nat) (s : State) : (clearConds u s).flt.ffSimult = s.flt.ffSimult := rfl
@[simp] theorem clearConds_flt_ffMsg (u : Nat) (s : State) : (clearConds u s).flt.ffMsg = s.flt.ffMsg := rfl
@[simp] theorem clearConds_flt_ffTime (u : Nat) (s : State) : (clearConds u s).flt.ffTime = s.flt.ffTime := rfl
@[simp] theorem clearConds_flt_ffSeq (u : Nat) (s : State) : (clearConds u s).flt.ffSeq = s.flt.ffSeq := rfl
@[simp] theorem clearConds_flt_classCount (u : Nat) (s : State) : (clearConds u s).flt.classCount = s.flt.classCount := rfl
@[simp] theorem clearConds_flt_alarm (u : Nat) (s : State) : (clearConds u s).flt.alarm = s.flt.alarm := rfl
@[simp] theorem clearConds_flt_alarmHold (u : Nat) (s : State) : (clearConds u s).flt.alarmHold = s.flt.alarmHold := rfl
@[simp] theorem clearConds_flt_alarmCount (u : Nat) (s : State) : (clearConds u s).flt.alarmCount = s.flt.alarmCount := rfl
@[simp] theorem clearConds_flt_alarmOn (u : Nat) (s : State) : (clearConds u s).flt.alarmOn = s.flt.alarmOn := rfl
@[simp] theorem clearConds_flt_alarmFree (u : Nat) (s : State) : (clearConds u s).flt.alarmFree = s.flt.alarmFree := rfl
@[simp] theorem clearConds_flt_alarmLevel (u : Nat) (s : State) : (clearConds u s).flt.alarmLevel = s.flt.alarmLevel := rfl
@[simp] theorem clearConds_flt_hbLost (u : Nat) (s : State) : (clearConds u s).flt.hbLost = s.flt.hbLost := rfl
@[simp] theorem clearConds_flt_hbLast (u : Nat) (s : State) : (clearConds u s).flt.hbLast = s.flt.hbLast := rfl
@[simp] theorem clearConds_flt_hbLostAt (u : Nat) (s : State) : (clearConds u s).flt.hbLostAt = s.flt.hbLostAt := rfl
@[simp] theorem clearConds_flt_flHead (u : Nat) (s : State) : (clearConds u s).flt.flHead = s.flt.flHead := rfl
@[simp] theorem clearConds_flt_flWraps (u : Nat) (s : State) : (clearConds u s).flt.flWraps = s.flt.flWraps := rfl
@[simp] theorem clearConds_flt_flOpen (u : Nat) (s : State) : (clearConds u s).flt.flOpen = s.flt.flOpen := rfl
@[simp] theorem clearConds_flt_ring (u : Nat) (s : State) : (clearConds u s).flt.ring = s.flt.ring := rfl
@[simp] theorem clearConds_flt_ringHead (u : Nat) (s : State) : (clearConds u s).flt.ringHead = s.flt.ringHead := rfl
@[simp] theorem clearConds_flt_ringHeld (u : Nat) (s : State) : (clearConds u s).flt.ringHeld = s.flt.ringHeld := rfl
@[simp] theorem clearConds_flt_notStored (u : Nat) (s : State) : (clearConds u s).flt.notStored = s.flt.notStored := rfl
@[simp] theorem clearConds_flt_ringSecond (u : Nat) (s : State) : (clearConds u s).flt.ringSecond = s.flt.ringSecond := rfl
@[simp] theorem clearConds_flt_ringInSecond (u : Nat) (s : State) : (clearConds u s).flt.ringInSecond = s.flt.ringInSecond := rfl
@[simp] theorem clearConds_flt_heldBack (u : Nat) (s : State) : (clearConds u s).flt.heldBack = s.flt.heldBack := rfl
@[simp] theorem clearConds_mon (u : Nat) (s : State) : (clearConds u s).mon = s.mon := rfl
@[simp] theorem clearConds_clk (u : Nat) (s : State) : (clearConds u s).clk = s.clk := rfl
@[simp] theorem clearConds_rst (u : Nat) (s : State) : (clearConds u s).rst = s.rst := rfl

end Sys2Proof.Machine
end

