-- ==== Sys2Proof/Laws/Ops.lean ====
section
/-! SUPPORT. The shared operations: what each leaves alone, what a raised fault and a condition change, bytes of frame memory, repeated
updates. -/
namespace Sys2Proof.Machine

/-! ### The ledger -/

@[simp] theorem ledProduce_pending (k n : Nat) (s : State) : (ledProduce k n s).pending = s.pending := rfl
@[simp] theorem ledProduce_freeCtr (k n : Nat) (s : State) : (ledProduce k n s).freeCtr = s.freeCtr := rfl
@[simp] theorem ledProduce_outbox (k n : Nat) (s : State) : (ledProduce k n s).outbox = s.outbox := rfl
@[simp] theorem ledProduce_time (k n : Nat) (s : State) : (ledProduce k n s).time = s.time := rfl
@[simp] theorem ledProduce_inForce (k n : Nat) (s : State) : (ledProduce k n s).inForce = s.inForce := rfl
@[simp] theorem ledProduce_shadow (k n : Nat) (s : State) : (ledProduce k n s).shadow = s.shadow := rfl
@[simp] theorem ledProduce_rw (k n : Nat) (s : State) : (ledProduce k n s).rw = s.rw := rfl
@[simp] theorem ledProduce_written (k n : Nat) (s : State) : (ledProduce k n s).written = s.written := rfl
@[simp] theorem ledProduce_commit (k n : Nat) (s : State) : (ledProduce k n s).commit = s.commit := rfl
@[simp] theorem ledProduce_conf (k n : Nat) (s : State) : (ledProduce k n s).conf = s.conf := rfl
@[simp] theorem ledProduce_slots (k n : Nat) (s : State) : (ledProduce k n s).slots = s.slots := rfl
@[simp] theorem ledProduce_units (k n : Nat) (s : State) : (ledProduce k n s).units = s.units := rfl
@[simp] theorem ledProduce_hist (k n : Nat) (s : State) : (ledProduce k n s).hist = s.hist := rfl
@[simp] theorem ledProduce_xg (k n : Nat) (s : State) : (ledProduce k n s).xg = s.xg := rfl
@[simp] theorem ledProduce_rc (k n : Nat) (s : State) : (ledProduce k n s).rc = s.rc := rfl
@[simp] theorem ledProduce_tone (k n : Nat) (s : State) : (ledProduce k n s).tone = s.tone := rfl
@[simp] theorem ledProduce_toneBox (k n : Nat) (s : State) : (ledProduce k n s).toneBox = s.toneBox := rfl
@[simp] theorem ledProduce_biasSplit (k n : Nat) (s : State) : (ledProduce k n s).biasSplit = s.biasSplit := rfl
@[simp] theorem ledProduce_biasOff (k n : Nat) (s : State) : (ledProduce k n s).biasOff = s.biasOff := rfl
@[simp] theorem ledProduce_decim (k n : Nat) (s : State) : (ledProduce k n s).decim = s.decim := rfl
@[simp] theorem ledProduce_ax (k n : Nat) (s : State) : (ledProduce k n s).ax = s.ax := rfl
@[simp] theorem ledProduce_axs (k n : Nat) (s : State) : (ledProduce k n s).axs = s.axs := rfl
@[simp] theorem ledProduce_se (k n : Nat) (s : State) : (ledProduce k n s).se = s.se := rfl
@[simp] theorem ledProduce_tk (k n : Nat) (s : State) : (ledProduce k n s).tk = s.tk := rfl
@[simp] theorem ledProduce_maps (k n : Nat) (s : State) : (ledProduce k n s).maps = s.maps := rfl
@[simp] theorem ledProduce_gl (k n : Nat) (s : State) : (ledProduce k n s).gl = s.gl := rfl
@[simp] theorem ledProduce_rh (k n : Nat) (s : State) : (ledProduce k n s).rh = s.rh := rfl
@[simp] theorem ledProduce_ip (k n : Nat) (s : State) : (ledProduce k n s).ip = s.ip := rfl
@[simp] theorem ledProduce_sw (k n : Nat) (s : State) : (ledProduce k n s).sw = s.sw := rfl
@[simp] theorem ledProduce_em (k n : Nat) (s : State) : (ledProduce k n s).em = s.em := rfl
@[simp] theorem ledProduce_cmp (k n : Nat) (s : State) : (ledProduce k n s).cmp = s.cmp := rfl
@[simp] theorem ledProduce_tg (k n : Nat) (s : State) : (ledProduce k n s).tg = s.tg := rfl
@[simp] theorem ledProduce_pg (k n : Nat) (s : State) : (ledProduce k n s).pg = s.pg := rfl
@[simp] theorem ledProduce_keep (k n : Nat) (s : State) : (ledProduce k n s).keep = s.keep := rfl
@[simp] theorem ledProduce_fm_mem (k n : Nat) (s : State) : (ledProduce k n s).fm.mem = s.fm.mem := rfl
@[simp] theorem ledProduce_fm_tiles (k n : Nat) (s : State) : (ledProduce k n s).fm.tiles = s.fm.tiles := rfl
@[simp] theorem ledProduce_fm_stage (k n : Nat) (s : State) : (ledProduce k n s).fm.stage = s.fm.stage := rfl
@[simp] theorem ledProduce_fm_lastLen (k n : Nat) (s : State) : (ledProduce k n s).fm.lastLen = s.fm.lastLen := rfl
@[simp] theorem ledProduce_fm_lastFrame (k n : Nat) (s : State) : (ledProduce k n s).fm.lastFrame = s.fm.lastFrame := rfl
@[simp] theorem ledProduce_fm_lastSlot (k n : Nat) (s : State) : (ledProduce k n s).fm.lastSlot = s.fm.lastSlot := rfl
@[simp] theorem ledProduce_fm_laid (k n : Nat) (s : State) : (ledProduce k n s).fm.laid = s.fm.laid := rfl
@[simp] theorem ledProduce_fm_bbHead (k n : Nat) (s : State) : (ledProduce k n s).fm.bbHead = s.fm.bbHead := rfl
@[simp] theorem ledProduce_fm_bbCount (k n : Nat) (s : State) : (ledProduce k n s).fm.bbCount = s.fm.bbCount := rfl
@[simp] theorem ledProduce_fm_bbAged (k n : Nat) (s : State) : (ledProduce k n s).fm.bbAged = s.fm.bbAged := rfl
@[simp] theorem ledProduce_fm_tileFails (k n : Nat) (s : State) : (ledProduce k n s).fm.tileFails = s.fm.tileFails := rfl
@[simp] theorem ledProduce_fm_lastBad (k n : Nat) (s : State) : (ledProduce k n s).fm.lastBad = s.fm.lastBad := rfl
@[simp] theorem ledProduce_fm_scrubPos (k n : Nat) (s : State) : (ledProduce k n s).fm.scrubPos = s.fm.scrubPos := rfl
@[simp] theorem ledProduce_fm_failAt (k n : Nat) (s : State) : (ledProduce k n s).fm.failAt = s.fm.failAt := rfl
@[simp] theorem ledProduce_fm_scrubLeft (k n : Nat) (s : State) : (ledProduce k n s).fm.scrubLeft = s.fm.scrubLeft := rfl
@[simp] theorem ledProduce_fm_dropsBb (k n : Nat) (s : State) : (ledProduce k n s).fm.dropsBb = s.fm.dropsBb := rfl
@[simp] theorem ledProduce_fm_dropsDma (k n : Nat) (s : State) : (ledProduce k n s).fm.dropsDma = s.fm.dropsDma := rfl
@[simp] theorem ledProduce_fm_dropsTwin (k n : Nat) (s : State) : (ledProduce k n s).fm.dropsTwin = s.fm.dropsTwin := rfl
@[simp] theorem ledProduce_fm_dropsForced (k n : Nat) (s : State) : (ledProduce k n s).fm.dropsForced = s.fm.dropsForced := rfl
@[simp] theorem ledProduce_fm_ledgerFrame (k n : Nat) (s : State) : (ledProduce k n s).fm.ledgerFrame = s.fm.ledgerFrame := rfl
@[simp] theorem ledProduce_fm_deferred (k n : Nat) (s : State) : (ledProduce k n s).fm.deferred = s.fm.deferred := rfl
@[simp] theorem ledProduce_fm_events (k n : Nat) (s : State) : (ledProduce k n s).fm.events = s.fm.events := rfl
@[simp] theorem ledProduce_net (k n : Nat) (s : State) : (ledProduce k n s).net = s.net := rfl
@[simp] theorem ledProduce_hst (k n : Nat) (s : State) : (ledProduce k n s).hst = s.hst := rfl
@[simp] theorem ledProduce_twn (k n : Nat) (s : State) : (ledProduce k n s).twn = s.twn := rfl
@[simp] theorem ledProduce_hrd (k n : Nat) (s : State) : (ledProduce k n s).hrd = s.hrd := rfl
@[simp] theorem ledProduce_sec (k n : Nat) (s : State) : (ledProduce k n s).sec = s.sec := rfl
@[simp] theorem ledProduce_flt (k n : Nat) (s : State) : (ledProduce k n s).flt = s.flt := rfl
@[simp] theorem ledProduce_mon (k n : Nat) (s : State) : (ledProduce k n s).mon = s.mon := rfl
@[simp] theorem ledProduce_clk (k n : Nat) (s : State) : (ledProduce k n s).clk = s.clk := rfl
@[simp] theorem ledProduce_rst (k n : Nat) (s : State) : (ledProduce k n s).rst = s.rst := rfl
@[simp] theorem ledConsume_pending (k n : Nat) (s : State) : (ledConsume k n s).pending = s.pending := rfl
@[simp] theorem ledConsume_freeCtr (k n : Nat) (s : State) : (ledConsume k n s).freeCtr = s.freeCtr := rfl
@[simp] theorem ledConsume_outbox (k n : Nat) (s : State) : (ledConsume k n s).outbox = s.outbox := rfl
@[simp] theorem ledConsume_time (k n : Nat) (s : State) : (ledConsume k n s).time = s.time := rfl
@[simp] theorem ledConsume_inForce (k n : Nat) (s : State) : (ledConsume k n s).inForce = s.inForce := rfl
@[simp] theorem ledConsume_shadow (k n : Nat) (s : State) : (ledConsume k n s).shadow = s.shadow := rfl
@[simp] theorem ledConsume_rw (k n : Nat) (s : State) : (ledConsume k n s).rw = s.rw := rfl
@[simp] theorem ledConsume_written (k n : Nat) (s : State) : (ledConsume k n s).written = s.written := rfl
@[simp] theorem ledConsume_commit (k n : Nat) (s : State) : (ledConsume k n s).commit = s.commit := rfl
@[simp] theorem ledConsume_conf (k n : Nat) (s : State) : (ledConsume k n s).conf = s.conf := rfl
@[simp] theorem ledConsume_slots (k n : Nat) (s : State) : (ledConsume k n s).slots = s.slots := rfl
@[simp] theorem ledConsume_units (k n : Nat) (s : State) : (ledConsume k n s).units = s.units := rfl
@[simp] theorem ledConsume_hist (k n : Nat) (s : State) : (ledConsume k n s).hist = s.hist := rfl
@[simp] theorem ledConsume_xg (k n : Nat) (s : State) : (ledConsume k n s).xg = s.xg := rfl
@[simp] theorem ledConsume_rc (k n : Nat) (s : State) : (ledConsume k n s).rc = s.rc := rfl
@[simp] theorem ledConsume_tone (k n : Nat) (s : State) : (ledConsume k n s).tone = s.tone := rfl
@[simp] theorem ledConsume_toneBox (k n : Nat) (s : State) : (ledConsume k n s).toneBox = s.toneBox := rfl
@[simp] theorem ledConsume_biasSplit (k n : Nat) (s : State) : (ledConsume k n s).biasSplit = s.biasSplit := rfl
@[simp] theorem ledConsume_biasOff (k n : Nat) (s : State) : (ledConsume k n s).biasOff = s.biasOff := rfl
@[simp] theorem ledConsume_decim (k n : Nat) (s : State) : (ledConsume k n s).decim = s.decim := rfl
@[simp] theorem ledConsume_ax (k n : Nat) (s : State) : (ledConsume k n s).ax = s.ax := rfl
@[simp] theorem ledConsume_axs (k n : Nat) (s : State) : (ledConsume k n s).axs = s.axs := rfl
@[simp] theorem ledConsume_se (k n : Nat) (s : State) : (ledConsume k n s).se = s.se := rfl
@[simp] theorem ledConsume_tk (k n : Nat) (s : State) : (ledConsume k n s).tk = s.tk := rfl
@[simp] theorem ledConsume_maps (k n : Nat) (s : State) : (ledConsume k n s).maps = s.maps := rfl
@[simp] theorem ledConsume_gl (k n : Nat) (s : State) : (ledConsume k n s).gl = s.gl := rfl
@[simp] theorem ledConsume_rh (k n : Nat) (s : State) : (ledConsume k n s).rh = s.rh := rfl
@[simp] theorem ledConsume_ip (k n : Nat) (s : State) : (ledConsume k n s).ip = s.ip := rfl
@[simp] theorem ledConsume_sw (k n : Nat) (s : State) : (ledConsume k n s).sw = s.sw := rfl
@[simp] theorem ledConsume_em (k n : Nat) (s : State) : (ledConsume k n s).em = s.em := rfl
@[simp] theorem ledConsume_cmp (k n : Nat) (s : State) : (ledConsume k n s).cmp = s.cmp := rfl
@[simp] theorem ledConsume_tg (k n : Nat) (s : State) : (ledConsume k n s).tg = s.tg := rfl
@[simp] theorem ledConsume_pg (k n : Nat) (s : State) : (ledConsume k n s).pg = s.pg := rfl
@[simp] theorem ledConsume_keep (k n : Nat) (s : State) : (ledConsume k n s).keep = s.keep := rfl
@[simp] theorem ledConsume_fm_mem (k n : Nat) (s : State) : (ledConsume k n s).fm.mem = s.fm.mem := rfl
@[simp] theorem ledConsume_fm_tiles (k n : Nat) (s : State) : (ledConsume k n s).fm.tiles = s.fm.tiles := rfl
@[simp] theorem ledConsume_fm_stage (k n : Nat) (s : State) : (ledConsume k n s).fm.stage = s.fm.stage := rfl
@[simp] theorem ledConsume_fm_lastLen (k n : Nat) (s : State) : (ledConsume k n s).fm.lastLen = s.fm.lastLen := rfl
@[simp] theorem ledConsume_fm_lastFrame (k n : Nat) (s : State) : (ledConsume k n s).fm.lastFrame = s.fm.lastFrame := rfl
@[simp] theorem ledConsume_fm_lastSlot (k n : Nat) (s : State) : (ledConsume k n s).fm.lastSlot = s.fm.lastSlot := rfl
@[simp] theorem ledConsume_fm_laid (k n : Nat) (s : State) : (ledConsume k n s).fm.laid = s.fm.laid := rfl
@[simp] theorem ledConsume_fm_bbHead (k n : Nat) (s : State) : (ledConsume k n s).fm.bbHead = s.fm.bbHead := rfl
@[simp] theorem ledConsume_fm_bbCount (k n : Nat) (s : State) : (ledConsume k n s).fm.bbCount = s.fm.bbCount := rfl
@[simp] theorem ledConsume_fm_bbAged (k n : Nat) (s : State) : (ledConsume k n s).fm.bbAged = s.fm.bbAged := rfl
@[simp] theorem ledConsume_fm_tileFails (k n : Nat) (s : State) : (ledConsume k n s).fm.tileFails = s.fm.tileFails := rfl
@[simp] theorem ledConsume_fm_lastBad (k n : Nat) (s : State) : (ledConsume k n s).fm.lastBad = s.fm.lastBad := rfl
@[simp] theorem ledConsume_fm_scrubPos (k n : Nat) (s : State) : (ledConsume k n s).fm.scrubPos = s.fm.scrubPos := rfl
@[simp] theorem ledConsume_fm_failAt (k n : Nat) (s : State) : (ledConsume k n s).fm.failAt = s.fm.failAt := rfl
@[simp] theorem ledConsume_fm_scrubLeft (k n : Nat) (s : State) : (ledConsume k n s).fm.scrubLeft = s.fm.scrubLeft := rfl
@[simp] theorem ledConsume_fm_dropsBb (k n : Nat) (s : State) : (ledConsume k n s).fm.dropsBb = s.fm.dropsBb := rfl
@[simp] theorem ledConsume_fm_dropsDma (k n : Nat) (s : State) : (ledConsume k n s).fm.dropsDma = s.fm.dropsDma := rfl
@[simp] theorem ledConsume_fm_dropsTwin (k n : Nat) (s : State) : (ledConsume k n s).fm.dropsTwin = s.fm.dropsTwin := rfl
@[simp] theorem ledConsume_fm_dropsForced (k n : Nat) (s : State) : (ledConsume k n s).fm.dropsForced = s.fm.dropsForced := rfl
@[simp] theorem ledConsume_fm_ledgerFrame (k n : Nat) (s : State) : (ledConsume k n s).fm.ledgerFrame = s.fm.ledgerFrame := rfl
@[simp] theorem ledConsume_fm_deferred (k n : Nat) (s : State) : (ledConsume k n s).fm.deferred = s.fm.deferred := rfl
@[simp] theorem ledConsume_fm_events (k n : Nat) (s : State) : (ledConsume k n s).fm.events = s.fm.events := rfl
@[simp] theorem ledConsume_net (k n : Nat) (s : State) : (ledConsume k n s).net = s.net := rfl
@[simp] theorem ledConsume_hst (k n : Nat) (s : State) : (ledConsume k n s).hst = s.hst := rfl
@[simp] theorem ledConsume_twn (k n : Nat) (s : State) : (ledConsume k n s).twn = s.twn := rfl
@[simp] theorem ledConsume_hrd (k n : Nat) (s : State) : (ledConsume k n s).hrd = s.hrd := rfl
@[simp] theorem ledConsume_sec (k n : Nat) (s : State) : (ledConsume k n s).sec = s.sec := rfl
@[simp] theorem ledConsume_flt (k n : Nat) (s : State) : (ledConsume k n s).flt = s.flt := rfl
@[simp] theorem ledConsume_mon (k n : Nat) (s : State) : (ledConsume k n s).mon = s.mon := rfl
@[simp] theorem ledConsume_clk (k n : Nat) (s : State) : (ledConsume k n s).clk = s.clk := rfl
@[simp] theorem ledConsume_rst (k n : Nat) (s : State) : (ledConsume k n s).rst = s.rst := rfl
@[simp] theorem ledDrop_pending (k n u : Nat) (s : State) : (ledDrop k n u s).pending = s.pending := by unfold ledDrop; split <;> rfl
@[simp] theorem ledDrop_freeCtr (k n u : Nat) (s : State) : (ledDrop k n u s).freeCtr = s.freeCtr := by unfold ledDrop; split <;> rfl
@[simp] theorem ledDrop_outbox (k n u : Nat) (s : State) : (ledDrop k n u s).outbox = s.outbox := by unfold ledDrop; split <;> rfl
@[simp] theorem ledDrop_time (k n u : Nat) (s : State) : (ledDrop k n u s).time = s.time := by unfold ledDrop; split <;> rfl
@[simp] theorem ledDrop_inForce (k n u : Nat) (s : State) : (ledDrop k n u s).inForce = s.inForce := by unfold ledDrop; split <;> rfl
@[simp] theorem ledDrop_shadow (k n u : Nat) (s : State) : (ledDrop k n u s).shadow = s.shadow := by unfold ledDrop; split <;> rfl
@[simp] theorem ledDrop_rw (k n u : Nat) (s : State) : (ledDrop k n u s).rw = s.rw := by unfold ledDrop; split <;> rfl
@[simp] theorem ledDrop_written (k n u : Nat) (s : State) : (ledDrop k n u s).written = s.written := by unfold ledDrop; split <;> rfl
@[simp] theorem ledDrop_commit (k n u : Nat) (s : State) : (ledDrop k n u s).commit = s.commit := by unfold ledDrop; split <;> rfl
@[simp] theorem ledDrop_conf (k n u : Nat) (s : State) : (ledDrop k n u s).conf = s.conf := by unfold ledDrop; split <;> rfl
@[simp] theorem ledDrop_slots (k n u : Nat) (s : State) : (ledDrop k n u s).slots = s.slots := by unfold ledDrop; split <;> rfl
@[simp] theorem ledDrop_units (k n u : Nat) (s : State) : (ledDrop k n u s).units = s.units := by unfold ledDrop; split <;> rfl
@[simp] theorem ledDrop_hist (k n u : Nat) (s : State) : (ledDrop k n u s).hist = s.hist := by unfold ledDrop; split <;> rfl
@[simp] theorem ledDrop_xg (k n u : Nat) (s : State) : (ledDrop k n u s).xg = s.xg := by unfold ledDrop; split <;> rfl
@[simp] theorem ledDrop_rc (k n u : Nat) (s : State) : (ledDrop k n u s).rc = s.rc := by unfold ledDrop; split <;> rfl
@[simp] theorem ledDrop_tone (k n u : Nat) (s : State) : (ledDrop k n u s).tone = s.tone := by unfold ledDrop; split <;> rfl
@[simp] theorem ledDrop_toneBox (k n u : Nat) (s : State) : (ledDrop k n u s).toneBox = s.toneBox := by unfold ledDrop; split <;> rfl
@[simp] theorem ledDrop_biasSplit (k n u : Nat) (s : State) : (ledDrop k n u s).biasSplit = s.biasSplit := by unfold ledDrop; split <;> rfl
@[simp] theorem ledDrop_biasOff (k n u : Nat) (s : State) : (ledDrop k n u s).biasOff = s.biasOff := by unfold ledDrop; split <;> rfl
@[simp] theorem ledDrop_decim (k n u : Nat) (s : State) : (ledDrop k n u s).decim = s.decim := by unfold ledDrop; split <;> rfl
@[simp] theorem ledDrop_ax (k n u : Nat) (s : State) : (ledDrop k n u s).ax = s.ax := by unfold ledDrop; split <;> rfl
@[simp] theorem ledDrop_axs (k n u : Nat) (s : State) : (ledDrop k n u s).axs = s.axs := by unfold ledDrop; split <;> rfl
@[simp] theorem ledDrop_se (k n u : Nat) (s : State) : (ledDrop k n u s).se = s.se := by unfold ledDrop; split <;> rfl
@[simp] theorem ledDrop_tk (k n u : Nat) (s : State) : (ledDrop k n u s).tk = s.tk := by unfold ledDrop; split <;> rfl
@[simp] theorem ledDrop_maps (k n u : Nat) (s : State) : (ledDrop k n u s).maps = s.maps := by unfold ledDrop; split <;> rfl
@[simp] theorem ledDrop_gl (k n u : Nat) (s : State) : (ledDrop k n u s).gl = s.gl := by unfold ledDrop; split <;> rfl
@[simp] theorem ledDrop_rh (k n u : Nat) (s : State) : (ledDrop k n u s).rh = s.rh := by unfold ledDrop; split <;> rfl
@[simp] theorem ledDrop_ip (k n u : Nat) (s : State) : (ledDrop k n u s).ip = s.ip := by unfold ledDrop; split <;> rfl
@[simp] theorem ledDrop_sw (k n u : Nat) (s : State) : (ledDrop k n u s).sw = s.sw := by unfold ledDrop; split <;> rfl
@[simp] theorem ledDrop_em (k n u : Nat) (s : State) : (ledDrop k n u s).em = s.em := by unfold ledDrop; split <;> rfl
@[simp] theorem ledDrop_cmp (k n u : Nat) (s : State) : (ledDrop k n u s).cmp = s.cmp := by unfold ledDrop; split <;> rfl
@[simp] theorem ledDrop_tg (k n u : Nat) (s : State) : (ledDrop k n u s).tg = s.tg := by unfold ledDrop; split <;> rfl
@[simp] theorem ledDrop_pg (k n u : Nat) (s : State) : (ledDrop k n u s).pg = s.pg := by unfold ledDrop; split <;> rfl
@[simp] theorem ledDrop_keep (k n u : Nat) (s : State) : (ledDrop k n u s).keep = s.keep := by unfold ledDrop; split <;> rfl
@[simp] theorem ledDrop_fm_mem (k n u : Nat) (s : State) : (ledDrop k n u s).fm.mem = s.fm.mem := by unfold ledDrop; split <;> rfl
@[simp] theorem ledDrop_fm_tiles (k n u : Nat) (s : State) : (ledDrop k n u s).fm.tiles = s.fm.tiles := by unfold ledDrop; split <;> rfl
@[simp] theorem ledDrop_fm_stage (k n u : Nat) (s : State) : (ledDrop k n u s).fm.stage = s.fm.stage := by unfold ledDrop; split <;> rfl
@[simp] theorem ledDrop_fm_lastLen (k n u : Nat) (s : State) : (ledDrop k n u s).fm.lastLen = s.fm.lastLen := by unfold ledDrop; split <;> rfl
@[simp] theorem ledDrop_fm_lastFrame (k n u : Nat) (s : State) : (ledDrop k n u s).fm.lastFrame = s.fm.lastFrame := by unfold ledDrop; split <;> rfl
@[simp] theorem ledDrop_fm_lastSlot (k n u : Nat) (s : State) : (ledDrop k n u s).fm.lastSlot = s.fm.lastSlot := by unfold ledDrop; split <;> rfl
@[simp] theorem ledDrop_fm_laid (k n u : Nat) (s : State) : (ledDrop k n u s).fm.laid = s.fm.laid := by unfold ledDrop; split <;> rfl
@[simp] theorem ledDrop_fm_bbHead (k n u : Nat) (s : State) : (ledDrop k n u s).fm.bbHead = s.fm.bbHead := by unfold ledDrop; split <;> rfl
@[simp] theorem ledDrop_fm_bbCount (k n u : Nat) (s : State) : (ledDrop k n u s).fm.bbCount = s.fm.bbCount := by unfold ledDrop; split <;> rfl
@[simp] theorem ledDrop_fm_bbAged (k n u : Nat) (s : State) : (ledDrop k n u s).fm.bbAged = s.fm.bbAged := by unfold ledDrop; split <;> rfl
@[simp] theorem ledDrop_fm_tileFails (k n u : Nat) (s : State) : (ledDrop k n u s).fm.tileFails = s.fm.tileFails := by unfold ledDrop; split <;> rfl
@[simp] theorem ledDrop_fm_lastBad (k n u : Nat) (s : State) : (ledDrop k n u s).fm.lastBad = s.fm.lastBad := by unfold ledDrop; split <;> rfl
@[simp] theorem ledDrop_fm_scrubPos (k n u : Nat) (s : State) : (ledDrop k n u s).fm.scrubPos = s.fm.scrubPos := by unfold ledDrop; split <;> rfl
@[simp] theorem ledDrop_fm_failAt (k n u : Nat) (s : State) : (ledDrop k n u s).fm.failAt = s.fm.failAt := by unfold ledDrop; split <;> rfl
@[simp] theorem ledDrop_fm_scrubLeft (k n u : Nat) (s : State) : (ledDrop k n u s).fm.scrubLeft = s.fm.scrubLeft := by unfold ledDrop; split <;> rfl
@[simp] theorem ledDrop_fm_dropsBb (k n u : Nat) (s : State) : (ledDrop k n u s).fm.dropsBb = s.fm.dropsBb := by unfold ledDrop; split <;> rfl
@[simp] theorem ledDrop_fm_dropsDma (k n u : Nat) (s : State) : (ledDrop k n u s).fm.dropsDma = s.fm.dropsDma := by unfold ledDrop; split <;> rfl
@[simp] theorem ledDrop_fm_dropsTwin (k n u : Nat) (s : State) : (ledDrop k n u s).fm.dropsTwin = s.fm.dropsTwin := by unfold ledDrop; split <;> rfl
@[simp] theorem ledDrop_fm_dropsForced (k n u : Nat) (s : State) : (ledDrop k n u s).fm.dropsForced = s.fm.dropsForced := by unfold ledDrop; split <;> rfl
@[simp] theorem ledDrop_fm_ledgerFrame (k n u : Nat) (s : State) : (ledDrop k n u s).fm.ledgerFrame = s.fm.ledgerFrame := by unfold ledDrop; split <;> rfl
@[simp] theorem ledDrop_fm_deferred (k n u : Nat) (s : State) : (ledDrop k n u s).fm.deferred = s.fm.deferred := by unfold ledDrop; split <;> rfl
@[simp] theorem ledDrop_fm_events (k n u : Nat) (s : State) : (ledDrop k n u s).fm.events = s.fm.events := by unfold ledDrop; split <;> rfl
@[simp] theorem ledDrop_net (k n u : Nat) (s : State) : (ledDrop k n u s).net = s.net := by unfold ledDrop; split <;> rfl
@[simp] theorem ledDrop_hst (k n u : Nat) (s : State) : (ledDrop k n u s).hst = s.hst := by unfold ledDrop; split <;> rfl
@[simp] theorem ledDrop_twn (k n u : Nat) (s : State) : (ledDrop k n u s).twn = s.twn := by unfold ledDrop; split <;> rfl
@[simp] theorem ledDrop_hrd (k n u : Nat) (s : State) : (ledDrop k n u s).hrd = s.hrd := by unfold ledDrop; split <;> rfl
@[simp] theorem ledDrop_sec (k n u : Nat) (s : State) : (ledDrop k n u s).sec = s.sec := by unfold ledDrop; split <;> rfl
@[simp] theorem ledDrop_flt (k n u : Nat) (s : State) : (ledDrop k n u s).flt = s.flt := by unfold ledDrop; split <;> rfl
@[simp] theorem ledDrop_mon (k n u : Nat) (s : State) : (ledDrop k n u s).mon = s.mon := by unfold ledDrop; split <;> rfl
@[simp] theorem ledDrop_clk (k n u : Nat) (s : State) : (ledDrop k n u s).clk = s.clk := by unfold ledDrop; split <;> rfl
@[simp] theorem ledDrop_rst (k n u : Nat) (s : State) : (ledDrop k n u s).rst = s.rst := by unfold ledDrop; split <;> rfl

/-! ### Fault messages and conditions -/

@[simp] theorem queueMsg_pending (q : Nat) (m : FaultMsg) (s : State) : (queueMsg q m s).pending = s.pending := by unfold queueMsg; dsimp only; split <;> rfl
@[simp] theorem queueMsg_freeCtr (q : Nat) (m : FaultMsg) (s : State) : (queueMsg q m s).freeCtr = s.freeCtr := by unfold queueMsg; dsimp only; split <;> rfl
@[simp] theorem queueMsg_outbox (q : Nat) (m : FaultMsg) (s : State) : (queueMsg q m s).outbox = s.outbox := by unfold queueMsg; dsimp only; split <;> rfl
@[simp] theorem queueMsg_time (q : Nat) (m : FaultMsg) (s : State) : (queueMsg q m s).time = s.time := by unfold queueMsg; dsimp only; split <;> rfl
@[simp] theorem queueMsg_inForce (q : Nat) (m : FaultMsg) (s : State) : (queueMsg q m s).inForce = s.inForce := by unfold queueMsg; dsimp only; split <;> rfl
@[simp] theorem queueMsg_shadow (q : Nat) (m : FaultMsg) (s : State) : (queueMsg q m s).shadow = s.shadow := by unfold queueMsg; dsimp only; split <;> rfl
@[simp] theorem queueMsg_rw (q : Nat) (m : FaultMsg) (s : State) : (queueMsg q m s).rw = s.rw := by unfold queueMsg; dsimp only; split <;> rfl
@[simp] theorem queueMsg_written (q : Nat) (m : FaultMsg) (s : State) : (queueMsg q m s).written = s.written := by unfold queueMsg; dsimp only; split <;> rfl
@[simp] theorem queueMsg_commit (q : Nat) (m : FaultMsg) (s : State) : (queueMsg q m s).commit = s.commit := by unfold queueMsg; dsimp only; split <;> rfl
@[simp] theorem queueMsg_conf (q : Nat) (m : FaultMsg) (s : State) : (queueMsg q m s).conf = s.conf := by unfold queueMsg; dsimp only; split <;> rfl
@[simp] theorem queueMsg_slots (q : Nat) (m : FaultMsg) (s : State) : (queueMsg q m s).slots = s.slots := by unfold queueMsg; dsimp only; split <;> rfl
@[simp] theorem queueMsg_units (q : Nat) (m : FaultMsg) (s : State) : (queueMsg q m s).units = s.units := by unfold queueMsg; dsimp only; split <;> rfl
@[simp] theorem queueMsg_hist (q : Nat) (m : FaultMsg) (s : State) : (queueMsg q m s).hist = s.hist := by unfold queueMsg; dsimp only; split <;> rfl
@[simp] theorem queueMsg_xg (q : Nat) (m : FaultMsg) (s : State) : (queueMsg q m s).xg = s.xg := by unfold queueMsg; dsimp only; split <;> rfl
@[simp] theorem queueMsg_rc (q : Nat) (m : FaultMsg) (s : State) : (queueMsg q m s).rc = s.rc := by unfold queueMsg; dsimp only; split <;> rfl
@[simp] theorem queueMsg_tone (q : Nat) (m : FaultMsg) (s : State) : (queueMsg q m s).tone = s.tone := by unfold queueMsg; dsimp only; split <;> rfl
@[simp] theorem queueMsg_toneBox (q : Nat) (m : FaultMsg) (s : State) : (queueMsg q m s).toneBox = s.toneBox := by unfold queueMsg; dsimp only; split <;> rfl
@[simp] theorem queueMsg_biasSplit (q : Nat) (m : FaultMsg) (s : State) : (queueMsg q m s).biasSplit = s.biasSplit := by unfold queueMsg; dsimp only; split <;> rfl
@[simp] theorem queueMsg_biasOff (q : Nat) (m : FaultMsg) (s : State) : (queueMsg q m s).biasOff = s.biasOff := by unfold queueMsg; dsimp only; split <;> rfl
@[simp] theorem queueMsg_decim (q : Nat) (m : FaultMsg) (s : State) : (queueMsg q m s).decim = s.decim := by unfold queueMsg; dsimp only; split <;> rfl
@[simp] theorem queueMsg_ax (q : Nat) (m : FaultMsg) (s : State) : (queueMsg q m s).ax = s.ax := by unfold queueMsg; dsimp only; split <;> rfl
@[simp] theorem queueMsg_axs (q : Nat) (m : FaultMsg) (s : State) : (queueMsg q m s).axs = s.axs := by unfold queueMsg; dsimp only; split <;> rfl
@[simp] theorem queueMsg_se (q : Nat) (m : FaultMsg) (s : State) : (queueMsg q m s).se = s.se := by unfold queueMsg; dsimp only; split <;> rfl
@[simp] theorem queueMsg_tk (q : Nat) (m : FaultMsg) (s : State) : (queueMsg q m s).tk = s.tk := by unfold queueMsg; dsimp only; split <;> rfl
@[simp] theorem queueMsg_maps (q : Nat) (m : FaultMsg) (s : State) : (queueMsg q m s).maps = s.maps := by unfold queueMsg; dsimp only; split <;> rfl
@[simp] theorem queueMsg_gl (q : Nat) (m : FaultMsg) (s : State) : (queueMsg q m s).gl = s.gl := by unfold queueMsg; dsimp only; split <;> rfl
@[simp] theorem queueMsg_rh (q : Nat) (m : FaultMsg) (s : State) : (queueMsg q m s).rh = s.rh := by unfold queueMsg; dsimp only; split <;> rfl
@[simp] theorem queueMsg_ip (q : Nat) (m : FaultMsg) (s : State) : (queueMsg q m s).ip = s.ip := by unfold queueMsg; dsimp only; split <;> rfl
@[simp] theorem queueMsg_sw (q : Nat) (m : FaultMsg) (s : State) : (queueMsg q m s).sw = s.sw := by unfold queueMsg; dsimp only; split <;> rfl
@[simp] theorem queueMsg_em (q : Nat) (m : FaultMsg) (s : State) : (queueMsg q m s).em = s.em := by unfold queueMsg; dsimp only; split <;> rfl
@[simp] theorem queueMsg_cmp (q : Nat) (m : FaultMsg) (s : State) : (queueMsg q m s).cmp = s.cmp := by unfold queueMsg; dsimp only; split <;> rfl
@[simp] theorem queueMsg_tg (q : Nat) (m : FaultMsg) (s : State) : (queueMsg q m s).tg = s.tg := by unfold queueMsg; dsimp only; split <;> rfl
@[simp] theorem queueMsg_pg (q : Nat) (m : FaultMsg) (s : State) : (queueMsg q m s).pg = s.pg := by unfold queueMsg; dsimp only; split <;> rfl
@[simp] theorem queueMsg_keep (q : Nat) (m : FaultMsg) (s : State) : (queueMsg q m s).keep = s.keep := by unfold queueMsg; dsimp only; split <;> rfl
@[simp] theorem queueMsg_fm_mem (q : Nat) (m : FaultMsg) (s : State) : (queueMsg q m s).fm.mem = s.fm.mem := by unfold queueMsg; dsimp only; split <;> rfl
@[simp] theorem queueMsg_fm_tiles (q : Nat) (m : FaultMsg) (s : State) : (queueMsg q m s).fm.tiles = s.fm.tiles := by unfold queueMsg; dsimp only; split <;> rfl
@[simp] theorem queueMsg_fm_stage (q : Nat) (m : FaultMsg) (s : State) : (queueMsg q m s).fm.stage = s.fm.stage := by unfold queueMsg; dsimp only; split <;> rfl
@[simp] theorem queueMsg_fm_lastLen (q : Nat) (m : FaultMsg) (s : State) : (queueMsg q m s).fm.lastLen = s.fm.lastLen := by unfold queueMsg; dsimp only; split <;> rfl
@[simp] theorem queueMsg_fm_lastFrame (q : Nat) (m : FaultMsg) (s : State) : (queueMsg q m s).fm.lastFrame = s.fm.lastFrame := by unfold queueMsg; dsimp only; split <;> rfl
@[simp] theorem queueMsg_fm_lastSlot (q : Nat) (m : FaultMsg) (s : State) : (queueMsg q m s).fm.lastSlot = s.fm.lastSlot := by unfold queueMsg; dsimp only; split <;> rfl
@[simp] theorem queueMsg_fm_laid (q : Nat) (m : FaultMsg) (s : State) : (queueMsg q m s).fm.laid = s.fm.laid := by unfold queueMsg; dsimp only; split <;> rfl
@[simp] theorem queueMsg_fm_bbHead (q : Nat) (m : FaultMsg) (s : State) : (queueMsg q m s).fm.bbHead = s.fm.bbHead := by unfold queueMsg; dsimp only; split <;> rfl
@[simp] theorem queueMsg_fm_bbCount (q : Nat) (m : FaultMsg) (s : State) : (queueMsg q m s).fm.bbCount = s.fm.bbCount := by unfold queueMsg; dsimp only; split <;> rfl
@[simp] theorem queueMsg_fm_bbAged (q : Nat) (m : FaultMsg) (s : State) : (queueMsg q m s).fm.bbAged = s.fm.bbAged := by unfold queueMsg; dsimp only; split <;> rfl
@[simp] theorem queueMsg_fm_tileFails (q : Nat) (m : FaultMsg) (s : State) : (queueMsg q m s).fm.tileFails = s.fm.tileFails := by unfold queueMsg; dsimp only; split <;> rfl
@[simp] theorem queueMsg_fm_lastBad (q : Nat) (m : FaultMsg) (s : State) : (queueMsg q m s).fm.lastBad = s.fm.lastBad := by unfold queueMsg; dsimp only; split <;> rfl
@[simp] theorem queueMsg_fm_scrubPos (q : Nat) (m : FaultMsg) (s : State) : (queueMsg q m s).fm.scrubPos = s.fm.scrubPos := by unfold queueMsg; dsimp only; split <;> rfl
@[simp] theorem queueMsg_fm_failAt (q : Nat) (m : FaultMsg) (s : State) : (queueMsg q m s).fm.failAt = s.fm.failAt := by unfold queueMsg; dsimp only; split <;> rfl
@[simp] theorem queueMsg_fm_scrubLeft (q : Nat) (m : FaultMsg) (s : State) : (queueMsg q m s).fm.scrubLeft = s.fm.scrubLeft := by unfold queueMsg; dsimp only; split <;> rfl
@[simp] theorem queueMsg_fm_dropsBb (q : Nat) (m : FaultMsg) (s : State) : (queueMsg q m s).fm.dropsBb = s.fm.dropsBb := by unfold queueMsg; dsimp only; split <;> rfl
@[simp] theorem queueMsg_fm_dropsDma (q : Nat) (m : FaultMsg) (s : State) : (queueMsg q m s).fm.dropsDma = s.fm.dropsDma := by unfold queueMsg; dsimp only; split <;> rfl
@[simp] theorem queueMsg_fm_dropsTwin (q : Nat) (m : FaultMsg) (s : State) : (queueMsg q m s).fm.dropsTwin = s.fm.dropsTwin := by unfold queueMsg; dsimp only; split <;> rfl
@[simp] theorem queueMsg_fm_dropsForced (q : Nat) (m : FaultMsg) (s : State) : (queueMsg q m s).fm.dropsForced = s.fm.dropsForced := by unfold queueMsg; dsimp only; split <;> rfl
@[simp] theorem queueMsg_fm_ledgerFrame (q : Nat) (m : FaultMsg) (s : State) : (queueMsg q m s).fm.ledgerFrame = s.fm.ledgerFrame := by unfold queueMsg; dsimp only; split <;> rfl
@[simp] theorem queueMsg_fm_deferred (q : Nat) (m : FaultMsg) (s : State) : (queueMsg q m s).fm.deferred = s.fm.deferred := by unfold queueMsg; dsimp only; split <;> rfl
@[simp] theorem queueMsg_fm_events (q : Nat) (m : FaultMsg) (s : State) : (queueMsg q m s).fm.events = s.fm.events := by unfold queueMsg; dsimp only; split <;> rfl
@[simp] theorem queueMsg_net (q : Nat) (m : FaultMsg) (s : State) : (queueMsg q m s).net = s.net := by unfold queueMsg; dsimp only; split <;> rfl
@[simp] theorem queueMsg_hst (q : Nat) (m : FaultMsg) (s : State) : (queueMsg q m s).hst = s.hst := by unfold queueMsg; dsimp only; split <;> rfl
@[simp] theorem queueMsg_twn (q : Nat) (m : FaultMsg) (s : State) : (queueMsg q m s).twn = s.twn := by unfold queueMsg; dsimp only; split <;> rfl
@[simp] theorem queueMsg_hrd (q : Nat) (m : FaultMsg) (s : State) : (queueMsg q m s).hrd = s.hrd := by unfold queueMsg; dsimp only; split <;> rfl
@[simp] theorem queueMsg_sec (q : Nat) (m : FaultMsg) (s : State) : (queueMsg q m s).sec = s.sec := by unfold queueMsg; dsimp only; split <;> rfl
@[simp] theorem queueMsg_flt_seq (q : Nat) (m : FaultMsg) (s : State) : (queueMsg q m s).flt.seq = s.flt.seq := by unfold queueMsg; dsimp only; split <;> rfl
@[simp] theorem queueMsg_flt_fs (q : Nat) (m : FaultMsg) (s : State) : (queueMsg q m s).flt.fs = s.flt.fs := by unfold queueMsg; dsimp only; split <;> rfl
@[simp] theorem queueMsg_flt_conds (q : Nat) (m : FaultMsg) (s : State) : (queueMsg q m s).flt.conds = s.flt.conds := by unfold queueMsg; dsimp only; split <;> rfl
@[simp] theorem queueMsg_flt_ffValid (q : Nat) (m : FaultMsg) (s : State) : (queueMsg q m s).flt.ffValid = s.flt.ffValid := by unfold queueMsg; dsimp only; split <;> rfl
@[simp] theorem queueMsg_flt_ffClass (q : Nat) (m : FaultMsg) (s : State) : (queueMsg q m s).flt.ffClass = s.flt.ffClass := by unfold queueMsg; dsimp only; split <;> rfl
@[simp] theorem queueMsg_flt_ffPromoted (q : Nat) (m : FaultMsg) (s : State) : (queueMsg q m s).flt.ffPromoted = s.flt.ffPromoted := by unfold queueMsg; dsimp only; split <;> rfl
@[simp] theorem queueMsg_flt_ffSimult (q : Nat) (m : FaultMsg) (s : State) : (queueMsg q m s).flt.ffSimult = s.flt.ffSimult := by unfold queueMsg; dsimp only; split <;> rfl
@[simp] theorem queueMsg_flt_ffMsg (q : Nat) (m : FaultMsg) (s : State) : (queueMsg q m s).flt.ffMsg = s.flt.ffMsg := by unfold queueMsg; dsimp only; split <;> rfl
@[simp] theorem queueMsg_flt_ffTime (q : Nat) (m : FaultMsg) (s : State) : (queueMsg q m s).flt.ffTime = s.flt.ffTime := by unfold queueMsg; dsimp only; split <;> rfl
@[simp] theorem queueMsg_flt_ffSeq (q : Nat) (m : FaultMsg) (s : State) : (queueMsg q m s).flt.ffSeq = s.flt.ffSeq := by unfold queueMsg; dsimp only; split <;> rfl
@[simp] theorem queueMsg_flt_classCount (q : Nat) (m : FaultMsg) (s : State) : (queueMsg q m s).flt.classCount = s.flt.classCount := by unfold queueMsg; dsimp only; split <;> rfl
@[simp] theorem queueMsg_flt_alarm (q : Nat) (m : FaultMsg) (s : State) : (queueMsg q m s).flt.alarm = s.flt.alarm := by unfold queueMsg; dsimp only; split <;> rfl
@[simp] theorem queueMsg_flt_alarmHold (q : Nat) (m : FaultMsg) (s : State) : (queueMsg q m s).flt.alarmHold = s.flt.alarmHold := by unfold queueMsg; dsimp only; split <;> rfl
@[simp] theorem queueMsg_flt_alarmCount (q : Nat) (m : FaultMsg) (s : State) : (queueMsg q m s).flt.alarmCount = s.flt.alarmCount := by unfold queueMsg; dsimp only; split <;> rfl
@[simp] theorem queueMsg_flt_alarmOn (q : Nat) (m : FaultMsg) (s : State) : (queueMsg q m s).flt.alarmOn = s.flt.alarmOn := by unfold queueMsg; dsimp only; split <;> rfl
@[simp] theorem queueMsg_flt_alarmFree (q : Nat) (m : FaultMsg) (s : State) : (queueMsg q m s).flt.alarmFree = s.flt.alarmFree := by unfold queueMsg; dsimp only; split <;> rfl
@[simp] theorem queueMsg_flt_alarmLevel (q : Nat) (m : FaultMsg) (s : State) : (queueMsg q m s).flt.alarmLevel = s.flt.alarmLevel := by unfold queueMsg; dsimp only; split <;> rfl
@[simp] theorem queueMsg_flt_hbLost (q : Nat) (m : FaultMsg) (s : State) : (queueMsg q m s).flt.hbLost = s.flt.hbLost := by unfold queueMsg; dsimp only; split <;> rfl
@[simp] theorem queueMsg_flt_hbLast (q : Nat) (m : FaultMsg) (s : State) : (queueMsg q m s).flt.hbLast = s.flt.hbLast := by unfold queueMsg; dsimp only; split <;> rfl
@[simp] theorem queueMsg_flt_hbLostAt (q : Nat) (m : FaultMsg) (s : State) : (queueMsg q m s).flt.hbLostAt = s.flt.hbLostAt := by unfold queueMsg; dsimp only; split <;> rfl
@[simp] theorem queueMsg_flt_flHead (q : Nat) (m : FaultMsg) (s : State) : (queueMsg q m s).flt.flHead = s.flt.flHead := by unfold queueMsg; dsimp only; split <;> rfl
@[simp] theorem queueMsg_flt_flWraps (q : Nat) (m : FaultMsg) (s : State) : (queueMsg q m s).flt.flWraps = s.flt.flWraps := by unfold queueMsg; dsimp only; split <;> rfl
@[simp] theorem queueMsg_flt_flOpen (q : Nat) (m : FaultMsg) (s : State) : (queueMsg q m s).flt.flOpen = s.flt.flOpen := by unfold queueMsg; dsimp only; split <;> rfl
@[simp] theorem queueMsg_flt_ring (q : Nat) (m : FaultMsg) (s : State) : (queueMsg q m s).flt.ring = s.flt.ring := by unfold queueMsg; dsimp only; split <;> rfl
@[simp] theorem queueMsg_flt_ringHead (q : Nat) (m : FaultMsg) (s : State) : (queueMsg q m s).flt.ringHead = s.flt.ringHead := by unfold queueMsg; dsimp only; split <;> rfl
@[simp] theorem queueMsg_flt_ringHeld (q : Nat) (m : FaultMsg) (s : State) : (queueMsg q m s).flt.ringHeld = s.flt.ringHeld := by unfold queueMsg; dsimp only; split <;> rfl
@[simp] theorem queueMsg_flt_notStored (q : Nat) (m : FaultMsg) (s : State) : (queueMsg q m s).flt.notStored = s.flt.notStored := by unfold queueMsg; dsimp only; split <;> rfl
@[simp] theorem queueMsg_flt_ringSecond (q : Nat) (m : FaultMsg) (s : State) : (queueMsg q m s).flt.ringSecond = s.flt.ringSecond := by unfold queueMsg; dsimp only; split <;> rfl
@[simp] theorem queueMsg_flt_ringInSecond (q : Nat) (m : FaultMsg) (s : State) : (queueMsg q m s).flt.ringInSecond = s.flt.ringInSecond := by unfold queueMsg; dsimp only; split <;> rfl
@[simp] theorem queueMsg_flt_heldBack (q : Nat) (m : FaultMsg) (s : State) : (queueMsg q m s).flt.heldBack = s.flt.heldBack := by unfold queueMsg; dsimp only; split <;> rfl
@[simp] theorem queueMsg_mon (q : Nat) (m : FaultMsg) (s : State) : (queueMsg q m s).mon = s.mon := by unfold queueMsg; dsimp only; split <;> rfl
@[simp] theorem queueMsg_clk (q : Nat) (m : FaultMsg) (s : State) : (queueMsg q m s).clk = s.clk := by unfold queueMsg; dsimp only; split <;> rfl
@[simp] theorem queueMsg_rst (q : Nat) (m : FaultMsg) (s : State) : (queueMsg q m s).rst = s.rst := by unfold queueMsg; dsimp only; split <;> rfl
@[simp] theorem raiseFault_pending (q u kind detail : Nat) (s : State) : (raiseFault q u kind detail s).pending = s.pending := queueMsg_pending _ _ _
@[simp] theorem raiseFault_freeCtr (q u kind detail : Nat) (s : State) : (raiseFault q u kind detail s).freeCtr = s.freeCtr := queueMsg_freeCtr _ _ _
@[simp] theorem raiseFault_outbox (q u kind detail : Nat) (s : State) : (raiseFault q u kind detail s).outbox = s.outbox := queueMsg_outbox _ _ _
@[simp] theorem raiseFault_time (q u kind detail : Nat) (s : State) : (raiseFault q u kind detail s).time = s.time := queueMsg_time _ _ _
@[simp] theorem raiseFault_inForce (q u kind detail : Nat) (s : State) : (raiseFault q u kind detail s).inForce = s.inForce := queueMsg_inForce _ _ _
@[simp] theorem raiseFault_shadow (q u kind detail : Nat) (s : State) : (raiseFault q u kind detail s).shadow = s.shadow := queueMsg_shadow _ _ _
@[simp] theorem raiseFault_rw (q u kind detail : Nat) (s : State) : (raiseFault q u kind detail s).rw = s.rw := queueMsg_rw _ _ _
@[simp] theorem raiseFault_written (q u kind detail : Nat) (s : State) : (raiseFault q u kind detail s).written = s.written := queueMsg_written _ _ _
@[simp] theorem raiseFault_commit (q u kind detail : Nat) (s : State) : (raiseFault q u kind detail s).commit = s.commit := queueMsg_commit _ _ _
@[simp] theorem raiseFault_conf (q u kind detail : Nat) (s : State) : (raiseFault q u kind detail s).conf = s.conf := queueMsg_conf _ _ _
@[simp] theorem raiseFault_slots (q u kind detail : Nat) (s : State) : (raiseFault q u kind detail s).slots = s.slots := queueMsg_slots _ _ _
@[simp] theorem raiseFault_units (q u kind detail : Nat) (s : State) : (raiseFault q u kind detail s).units = s.units := queueMsg_units _ _ _
@[simp] theorem raiseFault_hist (q u kind detail : Nat) (s : State) : (raiseFault q u kind detail s).hist = s.hist := queueMsg_hist _ _ _
@[simp] theorem raiseFault_xg (q u kind detail : Nat) (s : State) : (raiseFault q u kind detail s).xg = s.xg := queueMsg_xg _ _ _
@[simp] theorem raiseFault_rc (q u kind detail : Nat) (s : State) : (raiseFault q u kind detail s).rc = s.rc := queueMsg_rc _ _ _
@[simp] theorem raiseFault_tone (q u kind detail : Nat) (s : State) : (raiseFault q u kind detail s).tone = s.tone := queueMsg_tone _ _ _
@[simp] theorem raiseFault_toneBox (q u kind detail : Nat) (s : State) : (raiseFault q u kind detail s).toneBox = s.toneBox := queueMsg_toneBox _ _ _
@[simp] theorem raiseFault_biasSplit (q u kind detail : Nat) (s : State) : (raiseFault q u kind detail s).biasSplit = s.biasSplit := queueMsg_biasSplit _ _ _
@[simp] theorem raiseFault_biasOff (q u kind detail : Nat) (s : State) : (raiseFault q u kind detail s).biasOff = s.biasOff := queueMsg_biasOff _ _ _
@[simp] theorem raiseFault_decim (q u kind detail : Nat) (s : State) : (raiseFault q u kind detail s).decim = s.decim := queueMsg_decim _ _ _
@[simp] theorem raiseFault_ax (q u kind detail : Nat) (s : State) : (raiseFault q u kind detail s).ax = s.ax := queueMsg_ax _ _ _
@[simp] theorem raiseFault_axs (q u kind detail : Nat) (s : State) : (raiseFault q u kind detail s).axs = s.axs := queueMsg_axs _ _ _
@[simp] theorem raiseFault_se (q u kind detail : Nat) (s : State) : (raiseFault q u kind detail s).se = s.se := queueMsg_se _ _ _
@[simp] theorem raiseFault_tk (q u kind detail : Nat) (s : State) : (raiseFault q u kind detail s).tk = s.tk := queueMsg_tk _ _ _
@[simp] theorem raiseFault_maps (q u kind detail : Nat) (s : State) : (raiseFault q u kind detail s).maps = s.maps := queueMsg_maps _ _ _
@[simp] theorem raiseFault_gl (q u kind detail : Nat) (s : State) : (raiseFault q u kind detail s).gl = s.gl := queueMsg_gl _ _ _
@[simp] theorem raiseFault_rh (q u kind detail : Nat) (s : State) : (raiseFault q u kind detail s).rh = s.rh := queueMsg_rh _ _ _
@[simp] theorem raiseFault_ip (q u kind detail : Nat) (s : State) : (raiseFault q u kind detail s).ip = s.ip := queueMsg_ip _ _ _
@[simp] theorem raiseFault_sw (q u kind detail : Nat) (s : State) : (raiseFault q u kind detail s).sw = s.sw := queueMsg_sw _ _ _
@[simp] theorem raiseFault_em (q u kind detail : Nat) (s : State) : (raiseFault q u kind detail s).em = s.em := queueMsg_em _ _ _
@[simp] theorem raiseFault_cmp (q u kind detail : Nat) (s : State) : (raiseFault q u kind detail s).cmp = s.cmp := queueMsg_cmp _ _ _
@[simp] theorem raiseFault_tg (q u kind detail : Nat) (s : State) : (raiseFault q u kind detail s).tg = s.tg := queueMsg_tg _ _ _
@[simp] theorem raiseFault_pg (q u kind detail : Nat) (s : State) : (raiseFault q u kind detail s).pg = s.pg := queueMsg_pg _ _ _
@[simp] theorem raiseFault_keep (q u kind detail : Nat) (s : State) : (raiseFault q u kind detail s).keep = s.keep := queueMsg_keep _ _ _
@[simp] theorem raiseFault_fm_mem (q u kind detail : Nat) (s : State) : (raiseFault q u kind detail s).fm.mem = s.fm.mem := queueMsg_fm_mem _ _ _
@[simp] theorem raiseFault_fm_tiles (q u kind detail : Nat) (s : State) : (raiseFault q u kind detail s).fm.tiles = s.fm.tiles := queueMsg_fm_tiles _ _ _
@[simp] theorem raiseFault_fm_stage (q u kind detail : Nat) (s : State) : (raiseFault q u kind detail s).fm.stage = s.fm.stage := queueMsg_fm_stage _ _ _
@[simp] theorem raiseFault_fm_lastLen (q u kind detail : Nat) (s : State) : (raiseFault q u kind detail s).fm.lastLen = s.fm.lastLen := queueMsg_fm_lastLen _ _ _
@[simp] theorem raiseFault_fm_lastFrame (q u kind detail : Nat) (s : State) : (raiseFault q u kind detail s).fm.lastFrame = s.fm.lastFrame := queueMsg_fm_lastFrame _ _ _
@[simp] theorem raiseFault_fm_lastSlot (q u kind detail : Nat) (s : State) : (raiseFault q u kind detail s).fm.lastSlot = s.fm.lastSlot := queueMsg_fm_lastSlot _ _ _
@[simp] theorem raiseFault_fm_laid (q u kind detail : Nat) (s : State) : (raiseFault q u kind detail s).fm.laid = s.fm.laid := queueMsg_fm_laid _ _ _
@[simp] theorem raiseFault_fm_bbHead (q u kind detail : Nat) (s : State) : (raiseFault q u kind detail s).fm.bbHead = s.fm.bbHead := queueMsg_fm_bbHead _ _ _
@[simp] theorem raiseFault_fm_bbCount (q u kind detail : Nat) (s : State) : (raiseFault q u kind detail s).fm.bbCount = s.fm.bbCount := queueMsg_fm_bbCount _ _ _
@[simp] theorem raiseFault_fm_bbAged (q u kind detail : Nat) (s : State) : (raiseFault q u kind detail s).fm.bbAged = s.fm.bbAged := queueMsg_fm_bbAged _ _ _
@[simp] theorem raiseFault_fm_tileFails (q u kind detail : Nat) (s : State) : (raiseFault q u kind detail s).fm.tileFails = s.fm.tileFails := queueMsg_fm_tileFails _ _ _
@[simp] theorem raiseFault_fm_lastBad (q u kind detail : Nat) (s : State) : (raiseFault q u kind detail s).fm.lastBad = s.fm.lastBad := queueMsg_fm_lastBad _ _ _
@[simp] theorem raiseFault_fm_scrubPos (q u kind detail : Nat) (s : State) : (raiseFault q u kind detail s).fm.scrubPos = s.fm.scrubPos := queueMsg_fm_scrubPos _ _ _
@[simp] theorem raiseFault_fm_failAt (q u kind detail : Nat) (s : State) : (raiseFault q u kind detail s).fm.failAt = s.fm.failAt := queueMsg_fm_failAt _ _ _
@[simp] theorem raiseFault_fm_scrubLeft (q u kind detail : Nat) (s : State) : (raiseFault q u kind detail s).fm.scrubLeft = s.fm.scrubLeft := queueMsg_fm_scrubLeft _ _ _
@[simp] theorem raiseFault_fm_dropsBb (q u kind detail : Nat) (s : State) : (raiseFault q u kind detail s).fm.dropsBb = s.fm.dropsBb := queueMsg_fm_dropsBb _ _ _
@[simp] theorem raiseFault_fm_dropsDma (q u kind detail : Nat) (s : State) : (raiseFault q u kind detail s).fm.dropsDma = s.fm.dropsDma := queueMsg_fm_dropsDma _ _ _
@[simp] theorem raiseFault_fm_dropsTwin (q u kind detail : Nat) (s : State) : (raiseFault q u kind detail s).fm.dropsTwin = s.fm.dropsTwin := queueMsg_fm_dropsTwin _ _ _
@[simp] theorem raiseFault_fm_dropsForced (q u kind detail : Nat) (s : State) : (raiseFault q u kind detail s).fm.dropsForced = s.fm.dropsForced := queueMsg_fm_dropsForced _ _ _
@[simp] theorem raiseFault_fm_ledgerFrame (q u kind detail : Nat) (s : State) : (raiseFault q u kind detail s).fm.ledgerFrame = s.fm.ledgerFrame := queueMsg_fm_ledgerFrame _ _ _
@[simp] theorem raiseFault_fm_deferred (q u kind detail : Nat) (s : State) : (raiseFault q u kind detail s).fm.deferred = s.fm.deferred := queueMsg_fm_deferred _ _ _
@[simp] theorem raiseFault_fm_events (q u kind detail : Nat) (s : State) : (raiseFault q u kind detail s).fm.events = s.fm.events := queueMsg_fm_events _ _ _
@[simp] theorem raiseFault_net (q u kind detail : Nat) (s : State) : (raiseFault q u kind detail s).net = s.net := queueMsg_net _ _ _
@[simp] theorem raiseFault_hst (q u kind detail : Nat) (s : State) : (raiseFault q u kind detail s).hst = s.hst := queueMsg_hst _ _ _
@[simp] theorem raiseFault_twn (q u kind detail : Nat) (s : State) : (raiseFault q u kind detail s).twn = s.twn := queueMsg_twn _ _ _
@[simp] theorem raiseFault_hrd (q u kind detail : Nat) (s : State) : (raiseFault q u kind detail s).hrd = s.hrd := queueMsg_hrd _ _ _
@[simp] theorem raiseFault_sec (q u kind detail : Nat) (s : State) : (raiseFault q u kind detail s).sec = s.sec := queueMsg_sec _ _ _
@[simp] theorem raiseFault_flt_seq (q u kind detail : Nat) (s : State) : (raiseFault q u kind detail s).flt.seq = s.flt.seq := queueMsg_flt_seq _ _ _
@[simp] theorem raiseFault_flt_fs (q u kind detail : Nat) (s : State) : (raiseFault q u kind detail s).flt.fs = s.flt.fs := queueMsg_flt_fs _ _ _
@[simp] theorem raiseFault_flt_conds (q u kind detail : Nat) (s : State) : (raiseFault q u kind detail s).flt.conds = s.flt.conds := queueMsg_flt_conds _ _ _
@[simp] theorem raiseFault_flt_ffValid (q u kind detail : Nat) (s : State) : (raiseFault q u kind detail s).flt.ffValid = s.flt.ffValid := queueMsg_flt_ffValid _ _ _
@[simp] theorem raiseFault_flt_ffClass (q u kind detail : Nat) (s : State) : (raiseFault q u kind detail s).flt.ffClass = s.flt.ffClass := queueMsg_flt_ffClass _ _ _
@[simp] theorem raiseFault_flt_ffPromoted (q u kind detail : Nat) (s : State) : (raiseFault q u kind detail s).flt.ffPromoted = s.flt.ffPromoted := queueMsg_flt_ffPromoted _ _ _
@[simp] theorem raiseFault_flt_ffSimult (q u kind detail : Nat) (s : State) : (raiseFault q u kind detail s).flt.ffSimult = s.flt.ffSimult := queueMsg_flt_ffSimult _ _ _
@[simp] theorem raiseFault_flt_ffMsg (q u kind detail : Nat) (s : State) : (raiseFault q u kind detail s).flt.ffMsg = s.flt.ffMsg := queueMsg_flt_ffMsg _ _ _
@[simp] theorem raiseFault_flt_ffTime (q u kind detail : Nat) (s : State) : (raiseFault q u kind detail s).flt.ffTime = s.flt.ffTime := queueMsg_flt_ffTime _ _ _
@[simp] theorem raiseFault_flt_ffSeq (q u kind detail : Nat) (s : State) : (raiseFault q u kind detail s).flt.ffSeq = s.flt.ffSeq := queueMsg_flt_ffSeq _ _ _
@[simp] theorem raiseFault_flt_classCount (q u kind detail : Nat) (s : State) : (raiseFault q u kind detail s).flt.classCount = s.flt.classCount := queueMsg_flt_classCount _ _ _
@[simp] theorem raiseFault_flt_alarm (q u kind detail : Nat) (s : State) : (raiseFault q u kind detail s).flt.alarm = s.flt.alarm := queueMsg_flt_alarm _ _ _
@[simp] theorem raiseFault_flt_alarmHold (q u kind detail : Nat) (s : State) : (raiseFault q u kind detail s).flt.alarmHold = s.flt.alarmHold := queueMsg_flt_alarmHold _ _ _
@[simp] theorem raiseFault_flt_alarmCount (q u kind detail : Nat) (s : State) : (raiseFault q u kind detail s).flt.alarmCount = s.flt.alarmCount := queueMsg_flt_alarmCount _ _ _
@[simp] theorem raiseFault_flt_alarmOn (q u kind detail : Nat) (s : State) : (raiseFault q u kind detail s).flt.alarmOn = s.flt.alarmOn := queueMsg_flt_alarmOn _ _ _
@[simp] theorem raiseFault_flt_alarmFree (q u kind detail : Nat) (s : State) : (raiseFault q u kind detail s).flt.alarmFree = s.flt.alarmFree := queueMsg_flt_alarmFree _ _ _
@[simp] theorem raiseFault_flt_alarmLevel (q u kind detail : Nat) (s : State) : (raiseFault q u kind detail s).flt.alarmLevel = s.flt.alarmLevel := queueMsg_flt_alarmLevel _ _ _
@[simp] theorem raiseFault_flt_hbLost (q u kind detail : Nat) (s : State) : (raiseFault q u kind detail s).flt.hbLost = s.flt.hbLost := queueMsg_flt_hbLost _ _ _
@[simp] theorem raiseFault_flt_hbLast (q u kind detail : Nat) (s : State) : (raiseFault q u kind detail s).flt.hbLast = s.flt.hbLast := queueMsg_flt_hbLast _ _ _
@[simp] theorem raiseFault_flt_hbLostAt (q u kind detail : Nat) (s : State) : (raiseFault q u kind detail s).flt.hbLostAt = s.flt.hbLostAt := queueMsg_flt_hbLostAt _ _ _
@[simp] theorem raiseFault_flt_flHead (q u kind detail : Nat) (s : State) : (raiseFault q u kind detail s).flt.flHead = s.flt.flHead := queueMsg_flt_flHead _ _ _
@[simp] theorem raiseFault_flt_flWraps (q u kind detail : Nat) (s : State) : (raiseFault q u kind detail s).flt.flWraps = s.flt.flWraps := queueMsg_flt_flWraps _ _ _
@[simp] theorem raiseFault_flt_flOpen (q u kind detail : Nat) (s : State) : (raiseFault q u kind detail s).flt.flOpen = s.flt.flOpen := queueMsg_flt_flOpen _ _ _
@[simp] theorem raiseFault_flt_ring (q u kind detail : Nat) (s : State) : (raiseFault q u kind detail s).flt.ring = s.flt.ring := queueMsg_flt_ring _ _ _
@[simp] theorem raiseFault_flt_ringHead (q u kind detail : Nat) (s : State) : (raiseFault q u kind detail s).flt.ringHead = s.flt.ringHead := queueMsg_flt_ringHead _ _ _
@[simp] theorem raiseFault_flt_ringHeld (q u kind detail : Nat) (s : State) : (raiseFault q u kind detail s).flt.ringHeld = s.flt.ringHeld := queueMsg_flt_ringHeld _ _ _
@[simp] theorem raiseFault_flt_notStored (q u kind detail : Nat) (s : State) : (raiseFault q u kind detail s).flt.notStored = s.flt.notStored := queueMsg_flt_notStored _ _ _
@[simp] theorem raiseFault_flt_ringSecond (q u kind detail : Nat) (s : State) : (raiseFault q u kind detail s).flt.ringSecond = s.flt.ringSecond := queueMsg_flt_ringSecond _ _ _
@[simp] theorem raiseFault_flt_ringInSecond (q u kind detail : Nat) (s : State) : (raiseFault q u kind detail s).flt.ringInSecond = s.flt.ringInSecond := queueMsg_flt_ringInSecond _ _ _
@[simp] theorem raiseFault_flt_heldBack (q u kind detail : Nat) (s : State) : (raiseFault q u kind detail s).flt.heldBack = s.flt.heldBack := queueMsg_flt_heldBack _ _ _
@[simp] theorem raiseFault_mon (q u kind detail : Nat) (s : State) : (raiseFault q u kind detail s).mon = s.mon := queueMsg_mon _ _ _
@[simp] theorem raiseFault_clk (q u kind detail : Nat) (s : State) : (raiseFault q u kind detail s).clk = s.clk := queueMsg_clk _ _ _
@[simp] theorem raiseFault_rst (q u kind detail : Nat) (s : State) : (raiseFault q u kind detail s).rst = s.rst := queueMsg_rst _ _ _
@[simp] theorem setCond_pending (q u kind sub : Nat) (b : Bool) (detail : Nat) (s : State) : (setCond q u kind sub b detail s).pending = s.pending := by unfold setCond; dsimp only; split <;> simp
@[simp] theorem setCond_freeCtr (q u kind sub : Nat) (b : Bool) (detail : Nat) (s : State) : (setCond q u kind sub b detail s).freeCtr = s.freeCtr := by unfold setCond; dsimp only; split <;> simp
@[simp] theorem setCond_outbox (q u kind sub : Nat) (b : Bool) (detail : Nat) (s : State) : (setCond q u kind sub b detail s).outbox = s.outbox := by unfold setCond; dsimp only; split <;> simp
@[simp] theorem setCond_time (q u kind sub : Nat) (b : Bool) (detail : Nat) (s : State) : (setCond q u kind sub b detail s).time = s.time := by unfold setCond; dsimp only; split <;> simp
@[simp] theorem setCond_inForce (q u kind sub : Nat) (b : Bool) (detail : Nat) (s : State) : (setCond q u kind sub b detail s).inForce = s.inForce := by unfold setCond; dsimp only; split <;> simp
@[simp] theorem setCond_shadow (q u kind sub : Nat) (b : Bool) (detail : Nat) (s : State) : (setCond q u kind sub b detail s).shadow = s.shadow := by unfold setCond; dsimp only; split <;> simp
@[simp] theorem setCond_rw (q u kind sub : Nat) (b : Bool) (detail : Nat) (s : State) : (setCond q u kind sub b detail s).rw = s.rw := by unfold setCond; dsimp only; split <;> simp
@[simp] theorem setCond_written (q u kind sub : Nat) (b : Bool) (detail : Nat) (s : State) : (setCond q u kind sub b detail s).written = s.written := by unfold setCond; dsimp only; split <;> simp
@[simp] theorem setCond_commit (q u kind sub : Nat) (b : Bool) (detail : Nat) (s : State) : (setCond q u kind sub b detail s).commit = s.commit := by unfold setCond; dsimp only; split <;> simp
@[simp] theorem setCond_conf (q u kind sub : Nat) (b : Bool) (detail : Nat) (s : State) : (setCond q u kind sub b detail s).conf = s.conf := by unfold setCond; dsimp only; split <;> simp
@[simp] theorem setCond_slots (q u kind sub : Nat) (b : Bool) (detail : Nat) (s : State) : (setCond q u kind sub b detail s).slots = s.slots := by unfold setCond; dsimp only; split <;> simp
@[simp] theorem setCond_units (q u kind sub : Nat) (b : Bool) (detail : Nat) (s : State) : (setCond q u kind sub b detail s).units = s.units := by unfold setCond; dsimp only; split <;> simp
@[simp] theorem setCond_hist (q u kind sub : Nat) (b : Bool) (detail : Nat) (s : State) : (setCond q u kind sub b detail s).hist = s.hist := by unfold setCond; dsimp only; split <;> simp
@[simp] theorem setCond_xg (q u kind sub : Nat) (b : Bool) (detail : Nat) (s : State) : (setCond q u kind sub b detail s).xg = s.xg := by unfold setCond; dsimp only; split <;> simp
@[simp] theorem setCond_rc (q u kind sub : Nat) (b : Bool) (detail : Nat) (s : State) : (setCond q u kind sub b detail s).rc = s.rc := by unfold setCond; dsimp only; split <;> simp
@[simp] theorem setCond_tone (q u kind sub : Nat) (b : Bool) (detail : Nat) (s : State) : (setCond q u kind sub b detail s).tone = s.tone := by unfold setCond; dsimp only; split <;> simp
@[simp] theorem setCond_toneBox (q u kind sub : Nat) (b : Bool) (detail : Nat) (s : State) : (setCond q u kind sub b detail s).toneBox = s.toneBox := by unfold setCond; dsimp only; split <;> simp
@[simp] theorem setCond_biasSplit (q u kind sub : Nat) (b : Bool) (detail : Nat) (s : State) : (setCond q u kind sub b detail s).biasSplit = s.biasSplit := by unfold setCond; dsimp only; split <;> simp
@[simp] theorem setCond_biasOff (q u kind sub : Nat) (b : Bool) (detail : Nat) (s : State) : (setCond q u kind sub b detail s).biasOff = s.biasOff := by unfold setCond; dsimp only; split <;> simp
@[simp] theorem setCond_decim (q u kind sub : Nat) (b : Bool) (detail : Nat) (s : State) : (setCond q u kind sub b detail s).decim = s.decim := by unfold setCond; dsimp only; split <;> simp
@[simp] theorem setCond_ax (q u kind sub : Nat) (b : Bool) (detail : Nat) (s : State) : (setCond q u kind sub b detail s).ax = s.ax := by unfold setCond; dsimp only; split <;> simp
@[simp] theorem setCond_axs (q u kind sub : Nat) (b : Bool) (detail : Nat) (s : State) : (setCond q u kind sub b detail s).axs = s.axs := by unfold setCond; dsimp only; split <;> simp
@[simp] theorem setCond_se (q u kind sub : Nat) (b : Bool) (detail : Nat) (s : State) : (setCond q u kind sub b detail s).se = s.se := by unfold setCond; dsimp only; split <;> simp
@[simp] theorem setCond_tk (q u kind sub : Nat) (b : Bool) (detail : Nat) (s : State) : (setCond q u kind sub b detail s).tk = s.tk := by unfold setCond; dsimp only; split <;> simp
@[simp] theorem setCond_maps (q u kind sub : Nat) (b : Bool) (detail : Nat) (s : State) : (setCond q u kind sub b detail s).maps = s.maps := by unfold setCond; dsimp only; split <;> simp
@[simp] theorem setCond_gl (q u kind sub : Nat) (b : Bool) (detail : Nat) (s : State) : (setCond q u kind sub b detail s).gl = s.gl := by unfold setCond; dsimp only; split <;> simp
@[simp] theorem setCond_rh (q u kind sub : Nat) (b : Bool) (detail : Nat) (s : State) : (setCond q u kind sub b detail s).rh = s.rh := by unfold setCond; dsimp only; split <;> simp
@[simp] theorem setCond_ip (q u kind sub : Nat) (b : Bool) (detail : Nat) (s : State) : (setCond q u kind sub b detail s).ip = s.ip := by unfold setCond; dsimp only; split <;> simp
@[simp] theorem setCond_sw (q u kind sub : Nat) (b : Bool) (detail : Nat) (s : State) : (setCond q u kind sub b detail s).sw = s.sw := by unfold setCond; dsimp only; split <;> simp
@[simp] theorem setCond_em (q u kind sub : Nat) (b : Bool) (detail : Nat) (s : State) : (setCond q u kind sub b detail s).em = s.em := by unfold setCond; dsimp only; split <;> simp
@[simp] theorem setCond_cmp (q u kind sub : Nat) (b : Bool) (detail : Nat) (s : State) : (setCond q u kind sub b detail s).cmp = s.cmp := by unfold setCond; dsimp only; split <;> simp
@[simp] theorem setCond_tg (q u kind sub : Nat) (b : Bool) (detail : Nat) (s : State) : (setCond q u kind sub b detail s).tg = s.tg := by unfold setCond; dsimp only; split <;> simp
@[simp] theorem setCond_pg (q u kind sub : Nat) (b : Bool) (detail : Nat) (s : State) : (setCond q u kind sub b detail s).pg = s.pg := by unfold setCond; dsimp only; split <;> simp
@[simp] theorem setCond_keep (q u kind sub : Nat) (b : Bool) (detail : Nat) (s : State) : (setCond q u kind sub b detail s).keep = s.keep := by unfold setCond; dsimp only; split <;> simp
@[simp] theorem setCond_fm_mem (q u kind sub : Nat) (b : Bool) (detail : Nat) (s : State) : (setCond q u kind sub b detail s).fm.mem = s.fm.mem := by unfold setCond; dsimp only; split <;> simp
@[simp] theorem setCond_fm_tiles (q u kind sub : Nat) (b : Bool) (detail : Nat) (s : State) : (setCond q u kind sub b detail s).fm.tiles = s.fm.tiles := by unfold setCond; dsimp only; split <;> simp
@[simp] theorem setCond_fm_stage (q u kind sub : Nat) (b : Bool) (detail : Nat) (s : State) : (setCond q u kind sub b detail s).fm.stage = s.fm.stage := by unfold setCond; dsimp only; split <;> simp
@[simp] theorem setCond_fm_lastLen (q u kind sub : Nat) (b : Bool) (detail : Nat) (s : State) : (setCond q u kind sub b detail s).fm.lastLen = s.fm.lastLen := by unfold setCond; dsimp only; split <;> simp
@[simp] theorem setCond_fm_lastFrame (q u kind sub : Nat) (b : Bool) (detail : Nat) (s : State) : (setCond q u kind sub b detail s).fm.lastFrame = s.fm.lastFrame := by unfold setCond; dsimp only; split <;> simp
@[simp] theorem setCond_fm_lastSlot (q u kind sub : Nat) (b : Bool) (detail : Nat) (s : State) : (setCond q u kind sub b detail s).fm.lastSlot = s.fm.lastSlot := by unfold setCond; dsimp only; split <;> simp
@[simp] theorem setCond_fm_laid (q u kind sub : Nat) (b : Bool) (detail : Nat) (s : State) : (setCond q u kind sub b detail s).fm.laid = s.fm.laid := by unfold setCond; dsimp only; split <;> simp
@[simp] theorem setCond_fm_bbHead (q u kind sub : Nat) (b : Bool) (detail : Nat) (s : State) : (setCond q u kind sub b detail s).fm.bbHead = s.fm.bbHead := by unfold setCond; dsimp only; split <;> simp
@[simp] theorem setCond_fm_bbCount (q u kind sub : Nat) (b : Bool) (detail : Nat) (s : State) : (setCond q u kind sub b detail s).fm.bbCount = s.fm.bbCount := by unfold setCond; dsimp only; split <;> simp
@[simp] theorem setCond_fm_bbAged (q u kind sub : Nat) (b : Bool) (detail : Nat) (s : State) : (setCond q u kind sub b detail s).fm.bbAged = s.fm.bbAged := by unfold setCond; dsimp only; split <;> simp
@[simp] theorem setCond_fm_tileFails (q u kind sub : Nat) (b : Bool) (detail : Nat) (s : State) : (setCond q u kind sub b detail s).fm.tileFails = s.fm.tileFails := by unfold setCond; dsimp only; split <;> simp
@[simp] theorem setCond_fm_lastBad (q u kind sub : Nat) (b : Bool) (detail : Nat) (s : State) : (setCond q u kind sub b detail s).fm.lastBad = s.fm.lastBad := by unfold setCond; dsimp only; split <;> simp
@[simp] theorem setCond_fm_scrubPos (q u kind sub : Nat) (b : Bool) (detail : Nat) (s : State) : (setCond q u kind sub b detail s).fm.scrubPos = s.fm.scrubPos := by unfold setCond; dsimp only; split <;> simp
@[simp] theorem setCond_fm_failAt (q u kind sub : Nat) (b : Bool) (detail : Nat) (s : State) : (setCond q u kind sub b detail s).fm.failAt = s.fm.failAt := by unfold setCond; dsimp only; split <;> simp
@[simp] theorem setCond_fm_scrubLeft (q u kind sub : Nat) (b : Bool) (detail : Nat) (s : State) : (setCond q u kind sub b detail s).fm.scrubLeft = s.fm.scrubLeft := by unfold setCond; dsimp only; split <;> simp
@[simp] theorem setCond_fm_dropsBb (q u kind sub : Nat) (b : Bool) (detail : Nat) (s : State) : (setCond q u kind sub b detail s).fm.dropsBb = s.fm.dropsBb := by unfold setCond; dsimp only; split <;> simp
@[simp] theorem setCond_fm_dropsDma (q u kind sub : Nat) (b : Bool) (detail : Nat) (s : State) : (setCond q u kind sub b detail s).fm.dropsDma = s.fm.dropsDma := by unfold setCond; dsimp only; split <;> simp
@[simp] theorem setCond_fm_dropsTwin (q u kind sub : Nat) (b : Bool) (detail : Nat) (s : State) : (setCond q u kind sub b detail s).fm.dropsTwin = s.fm.dropsTwin := by unfold setCond; dsimp only; split <;> simp
@[simp] theorem setCond_fm_dropsForced (q u kind sub : Nat) (b : Bool) (detail : Nat) (s : State) : (setCond q u kind sub b detail s).fm.dropsForced = s.fm.dropsForced := by unfold setCond; dsimp only; split <;> simp
@[simp] theorem setCond_fm_ledgerFrame (q u kind sub : Nat) (b : Bool) (detail : Nat) (s : State) : (setCond q u kind sub b detail s).fm.ledgerFrame = s.fm.ledgerFrame := by unfold setCond; dsimp only; split <;> simp
@[simp] theorem setCond_fm_deferred (q u kind sub : Nat) (b : Bool) (detail : Nat) (s : State) : (setCond q u kind sub b detail s).fm.deferred = s.fm.deferred := by unfold setCond; dsimp only; split <;> simp
@[simp] theorem setCond_fm_events (q u kind sub : Nat) (b : Bool) (detail : Nat) (s : State) : (setCond q u kind sub b detail s).fm.events = s.fm.events := by unfold setCond; dsimp only; split <;> simp
@[simp] theorem setCond_net (q u kind sub : Nat) (b : Bool) (detail : Nat) (s : State) : (setCond q u kind sub b detail s).net = s.net := by unfold setCond; dsimp only; split <;> simp
@[simp] theorem setCond_hst (q u kind sub : Nat) (b : Bool) (detail : Nat) (s : State) : (setCond q u kind sub b detail s).hst = s.hst := by unfold setCond; dsimp only; split <;> simp
@[simp] theorem setCond_twn (q u kind sub : Nat) (b : Bool) (detail : Nat) (s : State) : (setCond q u kind sub b detail s).twn = s.twn := by unfold setCond; dsimp only; split <;> simp
@[simp] theorem setCond_hrd (q u kind sub : Nat) (b : Bool) (detail : Nat) (s : State) : (setCond q u kind sub b detail s).hrd = s.hrd := by unfold setCond; dsimp only; split <;> simp
@[simp] theorem setCond_sec (q u kind sub : Nat) (b : Bool) (detail : Nat) (s : State) : (setCond q u kind sub b detail s).sec = s.sec := by unfold setCond; dsimp only; split <;> simp
@[simp] theorem setCond_flt_seq (q u kind sub : Nat) (b : Bool) (detail : Nat) (s : State) : (setCond q u kind sub b detail s).flt.seq = s.flt.seq := by unfold setCond; dsimp only; split <;> simp
@[simp] theorem setCond_flt_fs (q u kind sub : Nat) (b : Bool) (detail : Nat) (s : State) : (setCond q u kind sub b detail s).flt.fs = s.flt.fs := by unfold setCond; dsimp only; split <;> simp
@[simp] theorem setCond_flt_ffValid (q u kind sub : Nat) (b : Bool) (detail : Nat) (s : State) : (setCond q u kind sub b detail s).flt.ffValid = s.flt.ffValid := by unfold setCond; dsimp only; split <;> simp
@[simp] theorem setCond_flt_ffClass (q u kind sub : Nat) (b : Bool) (detail : Nat) (s : State) : (setCond q u kind sub b detail s).flt.ffClass = s.flt.ffClass := by unfold setCond; dsimp only; split <;> simp
@[simp] theorem setCond_flt_ffPromoted (q u kind sub : Nat) (b : Bool) (detail : Nat) (s : State) : (setCond q u kind sub b detail s).flt.ffPromoted = s.flt.ffPromoted := by unfold setCond; dsimp only; split <;> simp
@[simp] theorem setCond_flt_ffSimult (q u kind sub : Nat) (b : Bool) (detail : Nat) (s : State) : (setCond q u kind sub b detail s).flt.ffSimult = s.flt.ffSimult := by unfold setCond; dsimp only; split <;> simp
@[simp] theorem setCond_flt_ffMsg (q u kind sub : Nat) (b : Bool) (detail : Nat) (s : State) : (setCond q u kind sub b detail s).flt.ffMsg = s.flt.ffMsg := by unfold setCond; dsimp only; split <;> simp
@[simp] theorem setCond_flt_ffTime (q u kind sub : Nat) (b : Bool) (detail : Nat) (s : State) : (setCond q u kind sub b detail s).flt.ffTime = s.flt.ffTime := by unfold setCond; dsimp only; split <;> simp
@[simp] theorem setCond_flt_ffSeq (q u kind sub : Nat) (b : Bool) (detail : Nat) (s : State) : (setCond q u kind sub b detail s).flt.ffSeq = s.flt.ffSeq := by unfold setCond; dsimp only; split <;> simp
@[simp] theorem setCond_flt_classCount (q u kind sub : Nat) (b : Bool) (detail : Nat) (s : State) : (setCond q u kind sub b detail s).flt.classCount = s.flt.classCount := by unfold setCond; dsimp only; split <;> simp
@[simp] theorem setCond_flt_alarm (q u kind sub : Nat) (b : Bool) (detail : Nat) (s : State) : (setCond q u kind sub b detail s).flt.alarm = s.flt.alarm := by unfold setCond; dsimp only; split <;> simp
@[simp] theorem setCond_flt_alarmHold (q u kind sub : Nat) (b : Bool) (detail : Nat) (s : State) : (setCond q u kind sub b detail s).flt.alarmHold = s.flt.alarmHold := by unfold setCond; dsimp only; split <;> simp
@[simp] theorem setCond_flt_alarmCount (q u kind sub : Nat) (b : Bool) (detail : Nat) (s : State) : (setCond q u kind sub b detail s).flt.alarmCount = s.flt.alarmCount := by unfold setCond; dsimp only; split <;> simp
@[simp] theorem setCond_flt_alarmOn (q u kind sub : Nat) (b : Bool) (detail : Nat) (s : State) : (setCond q u kind sub b detail s).flt.alarmOn = s.flt.alarmOn := by unfold setCond; dsimp only; split <;> simp
@[simp] theorem setCond_flt_alarmFree (q u kind sub : Nat) (b : Bool) (detail : Nat) (s : State) : (setCond q u kind sub b detail s).flt.alarmFree = s.flt.alarmFree := by unfold setCond; dsimp only; split <;> simp
@[simp] theorem setCond_flt_alarmLevel (q u kind sub : Nat) (b : Bool) (detail : Nat) (s : State) : (setCond q u kind sub b detail s).flt.alarmLevel = s.flt.alarmLevel := by unfold setCond; dsimp only; split <;> simp
@[simp] theorem setCond_flt_hbLost (q u kind sub : Nat) (b : Bool) (detail : Nat) (s : State) : (setCond q u kind sub b detail s).flt.hbLost = s.flt.hbLost := by unfold setCond; dsimp only; split <;> simp
@[simp] theorem setCond_flt_hbLast (q u kind sub : Nat) (b : Bool) (detail : Nat) (s : State) : (setCond q u kind sub b detail s).flt.hbLast = s.flt.hbLast := by unfold setCond; dsimp only; split <;> simp
@[simp] theorem setCond_flt_hbLostAt (q u kind sub : Nat) (b : Bool) (detail : Nat) (s : State) : (setCond q u kind sub b detail s).flt.hbLostAt = s.flt.hbLostAt := by unfold setCond; dsimp only; split <;> simp
@[simp] theorem setCond_flt_flHead (q u kind sub : Nat) (b : Bool) (detail : Nat) (s : State) : (setCond q u kind sub b detail s).flt.flHead = s.flt.flHead := by unfold setCond; dsimp only; split <;> simp
@[simp] theorem setCond_flt_flWraps (q u kind sub : Nat) (b : Bool) (detail : Nat) (s : State) : (setCond q u kind sub b detail s).flt.flWraps = s.flt.flWraps := by unfold setCond; dsimp only; split <;> simp
@[simp] theorem setCond_flt_flOpen (q u kind sub : Nat) (b : Bool) (detail : Nat) (s : State) : (setCond q u kind sub b detail s).flt.flOpen = s.flt.flOpen := by unfold setCond; dsimp only; split <;> simp
@[simp] theorem setCond_flt_ring (q u kind sub : Nat) (b : Bool) (detail : Nat) (s : State) : (setCond q u kind sub b detail s).flt.ring = s.flt.ring := by unfold setCond; dsimp only; split <;> simp
@[simp] theorem setCond_flt_ringHead (q u kind sub : Nat) (b : Bool) (detail : Nat) (s : State) : (setCond q u kind sub b detail s).flt.ringHead = s.flt.ringHead := by unfold setCond; dsimp only; split <;> simp
@[simp] theorem setCond_flt_ringHeld (q u kind sub : Nat) (b : Bool) (detail : Nat) (s : State) : (setCond q u kind sub b detail s).flt.ringHeld = s.flt.ringHeld := by unfold setCond; dsimp only; split <;> simp
@[simp] theorem setCond_flt_notStored (q u kind sub : Nat) (b : Bool) (detail : Nat) (s : State) : (setCond q u kind sub b detail s).flt.notStored = s.flt.notStored := by unfold setCond; dsimp only; split <;> simp
@[simp] theorem setCond_flt_ringSecond (q u kind sub : Nat) (b : Bool) (detail : Nat) (s : State) : (setCond q u kind sub b detail s).flt.ringSecond = s.flt.ringSecond := by unfold setCond; dsimp only; split <;> simp
@[simp] theorem setCond_flt_ringInSecond (q u kind sub : Nat) (b : Bool) (detail : Nat) (s : State) : (setCond q u kind sub b detail s).flt.ringInSecond = s.flt.ringInSecond := by unfold setCond; dsimp only; split <;> simp
@[simp] theorem setCond_flt_heldBack (q u kind sub : Nat) (b : Bool) (detail : Nat) (s : State) : (setCond q u kind sub b detail s).flt.heldBack = s.flt.heldBack := by unfold setCond; dsimp only; split <;> simp
@[simp] theorem setCond_mon (q u kind sub : Nat) (b : Bool) (detail : Nat) (s : State) : (setCond q u kind sub b detail s).mon = s.mon := by unfold setCond; dsimp only; split <;> simp
@[simp] theorem setCond_clk (q u kind sub : Nat) (b : Bool) (detail : Nat) (s : State) : (setCond q u kind sub b detail s).clk = s.clk := by unfold setCond; dsimp only; split <;> simp
@[simp] theorem setCond_rst (q u kind sub : Nat) (b : Bool) (detail : Nat) (s : State) : (setCond q u kind sub b detail s).rst = s.rst := by unfold setCond; dsimp only; split <;> simp

/-! ### Interrupts and pins -/

@[simp] theorem sendVector_pending (v : Nat) (s : State) : (sendVector v s).pending = s.pending := by unfold sendVector; split <;> rfl
@[simp] theorem sendVector_freeCtr (v : Nat) (s : State) : (sendVector v s).freeCtr = s.freeCtr := by unfold sendVector; split <;> rfl
@[simp] theorem sendVector_time (v : Nat) (s : State) : (sendVector v s).time = s.time := by unfold sendVector; split <;> rfl
@[simp] theorem sendVector_inForce (v : Nat) (s : State) : (sendVector v s).inForce = s.inForce := by unfold sendVector; split <;> rfl
@[simp] theorem sendVector_shadow (v : Nat) (s : State) : (sendVector v s).shadow = s.shadow := by unfold sendVector; split <;> rfl
@[simp] theorem sendVector_rw (v : Nat) (s : State) : (sendVector v s).rw = s.rw := by unfold sendVector; split <;> rfl
@[simp] theorem sendVector_written (v : Nat) (s : State) : (sendVector v s).written = s.written := by unfold sendVector; split <;> rfl
@[simp] theorem sendVector_commit (v : Nat) (s : State) : (sendVector v s).commit = s.commit := by unfold sendVector; split <;> rfl
@[simp] theorem sendVector_conf (v : Nat) (s : State) : (sendVector v s).conf = s.conf := by unfold sendVector; split <;> rfl
@[simp] theorem sendVector_slots (v : Nat) (s : State) : (sendVector v s).slots = s.slots := by unfold sendVector; split <;> rfl
@[simp] theorem sendVector_units (v : Nat) (s : State) : (sendVector v s).units = s.units := by unfold sendVector; split <;> rfl
@[simp] theorem sendVector_hist (v : Nat) (s : State) : (sendVector v s).hist = s.hist := by unfold sendVector; split <;> rfl
@[simp] theorem sendVector_xg (v : Nat) (s : State) : (sendVector v s).xg = s.xg := by unfold sendVector; split <;> rfl
@[simp] theorem sendVector_rc (v : Nat) (s : State) : (sendVector v s).rc = s.rc := by unfold sendVector; split <;> rfl
@[simp] theorem sendVector_tone (v : Nat) (s : State) : (sendVector v s).tone = s.tone := by unfold sendVector; split <;> rfl
@[simp] theorem sendVector_toneBox (v : Nat) (s : State) : (sendVector v s).toneBox = s.toneBox := by unfold sendVector; split <;> rfl
@[simp] theorem sendVector_biasSplit (v : Nat) (s : State) : (sendVector v s).biasSplit = s.biasSplit := by unfold sendVector; split <;> rfl
@[simp] theorem sendVector_biasOff (v : Nat) (s : State) : (sendVector v s).biasOff = s.biasOff := by unfold sendVector; split <;> rfl
@[simp] theorem sendVector_decim (v : Nat) (s : State) : (sendVector v s).decim = s.decim := by unfold sendVector; split <;> rfl
@[simp] theorem sendVector_ax (v : Nat) (s : State) : (sendVector v s).ax = s.ax := by unfold sendVector; split <;> rfl
@[simp] theorem sendVector_axs (v : Nat) (s : State) : (sendVector v s).axs = s.axs := by unfold sendVector; split <;> rfl
@[simp] theorem sendVector_se (v : Nat) (s : State) : (sendVector v s).se = s.se := by unfold sendVector; split <;> rfl
@[simp] theorem sendVector_tk (v : Nat) (s : State) : (sendVector v s).tk = s.tk := by unfold sendVector; split <;> rfl
@[simp] theorem sendVector_maps (v : Nat) (s : State) : (sendVector v s).maps = s.maps := by unfold sendVector; split <;> rfl
@[simp] theorem sendVector_gl (v : Nat) (s : State) : (sendVector v s).gl = s.gl := by unfold sendVector; split <;> rfl
@[simp] theorem sendVector_rh (v : Nat) (s : State) : (sendVector v s).rh = s.rh := by unfold sendVector; split <;> rfl
@[simp] theorem sendVector_ip (v : Nat) (s : State) : (sendVector v s).ip = s.ip := by unfold sendVector; split <;> rfl
@[simp] theorem sendVector_sw (v : Nat) (s : State) : (sendVector v s).sw = s.sw := by unfold sendVector; split <;> rfl
@[simp] theorem sendVector_em (v : Nat) (s : State) : (sendVector v s).em = s.em := by unfold sendVector; split <;> rfl
@[simp] theorem sendVector_cmp (v : Nat) (s : State) : (sendVector v s).cmp = s.cmp := by unfold sendVector; split <;> rfl
@[simp] theorem sendVector_tg (v : Nat) (s : State) : (sendVector v s).tg = s.tg := by unfold sendVector; split <;> rfl
@[simp] theorem sendVector_pg (v : Nat) (s : State) : (sendVector v s).pg = s.pg := by unfold sendVector; split <;> rfl
@[simp] theorem sendVector_keep (v : Nat) (s : State) : (sendVector v s).keep = s.keep := by unfold sendVector; split <;> rfl
@[simp] theorem sendVector_fm (v : Nat) (s : State) : (sendVector v s).fm = s.fm := by unfold sendVector; split <;> rfl
@[simp] theorem sendVector_net (v : Nat) (s : State) : (sendVector v s).net = s.net := by unfold sendVector; split <;> rfl
@[simp] theorem sendVector_hst_linkUp (v : Nat) (s : State) : (sendVector v s).hst.linkUp = s.hst.linkUp := by unfold sendVector; split <;> rfl
@[simp] theorem sendVector_hst_width (v : Nat) (s : State) : (sendVector v s).hst.width = s.hst.width := by unfold sendVector; split <;> rfl
@[simp] theorem sendVector_hst_rate (v : Nat) (s : State) : (sendVector v s).hst.rate = s.hst.rate := by unfold sendVector; split <;> rfl
@[simp] theorem sendVector_hst_bme (v : Nat) (s : State) : (sendVector v s).hst.bme = s.hst.bme := by unfold sendVector; split <;> rfl
@[simp] theorem sendVector_hst_d3hot (v : Nat) (s : State) : (sendVector v s).hst.d3hot = s.hst.d3hot := by unfold sendVector; split <;> rfl
@[simp] theorem sendVector_hst_aer (v : Nat) (s : State) : (sendVector v s).hst.aer = s.hst.aer := by unfold sendVector; split <;> rfl
@[simp] theorem sendVector_hst_msixEn (v : Nat) (s : State) : (sendVector v s).hst.msixEn = s.hst.msixEn := by unfold sendVector; split <;> rfl
@[simp] theorem sendVector_hst_fmask (v : Nat) (s : State) : (sendVector v s).hst.fmask = s.hst.fmask := by unfold sendVector; split <;> rfl
@[simp] theorem sendVector_hst_dma (v : Nat) (s : State) : (sendVector v s).hst.dma = s.hst.dma := by unfold sendVector; split <;> rfl
@[simp] theorem sendVector_hst_i3c (v : Nat) (s : State) : (sendVector v s).hst.i3c = s.hst.i3c := by unfold sendVector; split <;> rfl
@[simp] theorem sendVector_hst_svc (v : Nat) (s : State) : (sendVector v s).hst.svc = s.hst.svc := by unfold sendVector; split <;> rfl
@[simp] theorem sendVector_hst_svcDone (v : Nat) (s : State) : (sendVector v s).hst.svcDone = s.hst.svcDone := by unfold sendVector; split <;> rfl
@[simp] theorem sendVector_hst_svcSeq (v : Nat) (s : State) : (sendVector v s).hst.svcSeq = s.hst.svcSeq := by unfold sendVector; split <;> rfl
@[simp] theorem sendVector_hst_svcFresh (v : Nat) (s : State) : (sendVector v s).hst.svcFresh = s.hst.svcFresh := by unfold sendVector; split <;> rfl
@[simp] theorem sendVector_hst_svcCode (v : Nat) (s : State) : (sendVector v s).hst.svcCode = s.hst.svcCode := by unfold sendVector; split <;> rfl
@[simp] theorem sendVector_hst_svcData (v : Nat) (s : State) : (sendVector v s).hst.svcData = s.hst.svcData := by unfold sendVector; split <;> rfl
@[simp] theorem sendVector_twn (v : Nat) (s : State) : (sendVector v s).twn = s.twn := by unfold sendVector; split <;> rfl
@[simp] theorem sendVector_hrd (v : Nat) (s : State) : (sendVector v s).hrd = s.hrd := by unfold sendVector; split <;> rfl
@[simp] theorem sendVector_sec (v : Nat) (s : State) : (sendVector v s).sec = s.sec := by unfold sendVector; split <;> rfl
@[simp] theorem sendVector_flt (v : Nat) (s : State) : (sendVector v s).flt = s.flt := by unfold sendVector; split <;> rfl
@[simp] theorem sendVector_mon (v : Nat) (s : State) : (sendVector v s).mon = s.mon := by unfold sendVector; split <;> rfl
@[simp] theorem sendVector_clk (v : Nat) (s : State) : (sendVector v s).clk = s.clk := by unfold sendVector; split <;> rfl
@[simp] theorem sendVector_rst (v : Nat) (s : State) : (sendVector v s).rst = s.rst := by unfold sendVector; split <;> rfl
@[simp] theorem intSource_pending (k : Nat) (s : State) : (intSource k s).pending = s.pending := by unfold intSource; dsimp only; split <;> simp
@[simp] theorem intSource_freeCtr (k : Nat) (s : State) : (intSource k s).freeCtr = s.freeCtr := by unfold intSource; dsimp only; split <;> simp
@[simp] theorem intSource_time (k : Nat) (s : State) : (intSource k s).time = s.time := by unfold intSource; dsimp only; split <;> simp
@[simp] theorem intSource_inForce (k : Nat) (s : State) : (intSource k s).inForce = s.inForce := by unfold intSource; dsimp only; split <;> simp
@[simp] theorem intSource_shadow (k : Nat) (s : State) : (intSource k s).shadow = s.shadow := by unfold intSource; dsimp only; split <;> simp
@[simp] theorem intSource_rw (k : Nat) (s : State) : (intSource k s).rw = s.rw := by unfold intSource; dsimp only; split <;> simp
@[simp] theorem intSource_written (k : Nat) (s : State) : (intSource k s).written = s.written := by unfold intSource; dsimp only; split <;> simp
@[simp] theorem intSource_commit (k : Nat) (s : State) : (intSource k s).commit = s.commit := by unfold intSource; dsimp only; split <;> simp
@[simp] theorem intSource_conf (k : Nat) (s : State) : (intSource k s).conf = s.conf := by unfold intSource; dsimp only; split <;> simp
@[simp] theorem intSource_slots (k : Nat) (s : State) : (intSource k s).slots = s.slots := by unfold intSource; dsimp only; split <;> simp
@[simp] theorem intSource_units (k : Nat) (s : State) : (intSource k s).units = s.units := by unfold intSource; dsimp only; split <;> simp
@[simp] theorem intSource_hist (k : Nat) (s : State) : (intSource k s).hist = s.hist := by unfold intSource; dsimp only; split <;> simp
@[simp] theorem intSource_xg (k : Nat) (s : State) : (intSource k s).xg = s.xg := by unfold intSource; dsimp only; split <;> simp
@[simp] theorem intSource_rc (k : Nat) (s : State) : (intSource k s).rc = s.rc := by unfold intSource; dsimp only; split <;> simp
@[simp] theorem intSource_tone (k : Nat) (s : State) : (intSource k s).tone = s.tone := by unfold intSource; dsimp only; split <;> simp
@[simp] theorem intSource_toneBox (k : Nat) (s : State) : (intSource k s).toneBox = s.toneBox := by unfold intSource; dsimp only; split <;> simp
@[simp] theorem intSource_biasSplit (k : Nat) (s : State) : (intSource k s).biasSplit = s.biasSplit := by unfold intSource; dsimp only; split <;> simp
@[simp] theorem intSource_biasOff (k : Nat) (s : State) : (intSource k s).biasOff = s.biasOff := by unfold intSource; dsimp only; split <;> simp
@[simp] theorem intSource_decim (k : Nat) (s : State) : (intSource k s).decim = s.decim := by unfold intSource; dsimp only; split <;> simp
@[simp] theorem intSource_ax (k : Nat) (s : State) : (intSource k s).ax = s.ax := by unfold intSource; dsimp only; split <;> simp
@[simp] theorem intSource_axs (k : Nat) (s : State) : (intSource k s).axs = s.axs := by unfold intSource; dsimp only; split <;> simp
@[simp] theorem intSource_se (k : Nat) (s : State) : (intSource k s).se = s.se := by unfold intSource; dsimp only; split <;> simp
@[simp] theorem intSource_tk (k : Nat) (s : State) : (intSource k s).tk = s.tk := by unfold intSource; dsimp only; split <;> simp
@[simp] theorem intSource_maps (k : Nat) (s : State) : (intSource k s).maps = s.maps := by unfold intSource; dsimp only; split <;> simp
@[simp] theorem intSource_gl (k : Nat) (s : State) : (intSource k s).gl = s.gl := by unfold intSource; dsimp only; split <;> simp
@[simp] theorem intSource_rh (k : Nat) (s : State) : (intSource k s).rh = s.rh := by unfold intSource; dsimp only; split <;> simp
@[simp] theorem intSource_ip (k : Nat) (s : State) : (intSource k s).ip = s.ip := by unfold intSource; dsimp only; split <;> simp
@[simp] theorem intSource_sw (k : Nat) (s : State) : (intSource k s).sw = s.sw := by unfold intSource; dsimp only; split <;> simp
@[simp] theorem intSource_em (k : Nat) (s : State) : (intSource k s).em = s.em := by unfold intSource; dsimp only; split <;> simp
@[simp] theorem intSource_cmp (k : Nat) (s : State) : (intSource k s).cmp = s.cmp := by unfold intSource; dsimp only; split <;> simp
@[simp] theorem intSource_tg (k : Nat) (s : State) : (intSource k s).tg = s.tg := by unfold intSource; dsimp only; split <;> simp
@[simp] theorem intSource_pg (k : Nat) (s : State) : (intSource k s).pg = s.pg := by unfold intSource; dsimp only; split <;> simp
@[simp] theorem intSource_keep (k : Nat) (s : State) : (intSource k s).keep = s.keep := by unfold intSource; dsimp only; split <;> simp
@[simp] theorem intSource_fm (k : Nat) (s : State) : (intSource k s).fm = s.fm := by unfold intSource; dsimp only; split <;> simp
@[simp] theorem intSource_net (k : Nat) (s : State) : (intSource k s).net = s.net := by unfold intSource; dsimp only; split <;> simp
@[simp] theorem intSource_hst_linkUp (k : Nat) (s : State) : (intSource k s).hst.linkUp = s.hst.linkUp := by unfold intSource; dsimp only; split <;> simp
@[simp] theorem intSource_hst_width (k : Nat) (s : State) : (intSource k s).hst.width = s.hst.width := by unfold intSource; dsimp only; split <;> simp
@[simp] theorem intSource_hst_rate (k : Nat) (s : State) : (intSource k s).hst.rate = s.hst.rate := by unfold intSource; dsimp only; split <;> simp
@[simp] theorem intSource_hst_bme (k : Nat) (s : State) : (intSource k s).hst.bme = s.hst.bme := by unfold intSource; dsimp only; split <;> simp
@[simp] theorem intSource_hst_d3hot (k : Nat) (s : State) : (intSource k s).hst.d3hot = s.hst.d3hot := by unfold intSource; dsimp only; split <;> simp
@[simp] theorem intSource_hst_aer (k : Nat) (s : State) : (intSource k s).hst.aer = s.hst.aer := by unfold intSource; dsimp only; split <;> simp
@[simp] theorem intSource_hst_msixEn (k : Nat) (s : State) : (intSource k s).hst.msixEn = s.hst.msixEn := by unfold intSource; dsimp only; split <;> simp
@[simp] theorem intSource_hst_fmask (k : Nat) (s : State) : (intSource k s).hst.fmask = s.hst.fmask := by unfold intSource; dsimp only; split <;> simp
@[simp] theorem intSource_hst_dma (k : Nat) (s : State) : (intSource k s).hst.dma = s.hst.dma := by unfold intSource; dsimp only; split <;> simp
@[simp] theorem intSource_hst_i3c (k : Nat) (s : State) : (intSource k s).hst.i3c = s.hst.i3c := by unfold intSource; dsimp only; split <;> simp
@[simp] theorem intSource_hst_svc (k : Nat) (s : State) : (intSource k s).hst.svc = s.hst.svc := by unfold intSource; dsimp only; split <;> simp
@[simp] theorem intSource_hst_svcDone (k : Nat) (s : State) : (intSource k s).hst.svcDone = s.hst.svcDone := by unfold intSource; dsimp only; split <;> simp
@[simp] theorem intSource_hst_svcSeq (k : Nat) (s : State) : (intSource k s).hst.svcSeq = s.hst.svcSeq := by unfold intSource; dsimp only; split <;> simp
@[simp] theorem intSource_hst_svcFresh (k : Nat) (s : State) : (intSource k s).hst.svcFresh = s.hst.svcFresh := by unfold intSource; dsimp only; split <;> simp
@[simp] theorem intSource_hst_svcCode (k : Nat) (s : State) : (intSource k s).hst.svcCode = s.hst.svcCode := by unfold intSource; dsimp only; split <;> simp
@[simp] theorem intSource_hst_svcData (k : Nat) (s : State) : (intSource k s).hst.svcData = s.hst.svcData := by unfold intSource; dsimp only; split <;> simp
@[simp] theorem intSource_twn (k : Nat) (s : State) : (intSource k s).twn = s.twn := by unfold intSource; dsimp only; split <;> simp
@[simp] theorem intSource_hrd (k : Nat) (s : State) : (intSource k s).hrd = s.hrd := by unfold intSource; dsimp only; split <;> simp
@[simp] theorem intSource_sec (k : Nat) (s : State) : (intSource k s).sec = s.sec := by unfold intSource; dsimp only; split <;> simp
@[simp] theorem intSource_flt (k : Nat) (s : State) : (intSource k s).flt = s.flt := by unfold intSource; dsimp only; split <;> simp
@[simp] theorem intSource_mon (k : Nat) (s : State) : (intSource k s).mon = s.mon := by unfold intSource; dsimp only; split <;> simp
@[simp] theorem intSource_clk (k : Nat) (s : State) : (intSource k s).clk = s.clk := by unfold intSource; dsimp only; split <;> simp
@[simp] theorem intSource_rst (k : Nat) (s : State) : (intSource k s).rst = s.rst := by unfold intSource; dsimp only; split <;> simp
@[simp] theorem sendIbi_pending (data : Nat) (s : State) : (sendIbi data s).pending = s.pending := by unfold sendIbi; split <;> rfl
@[simp] theorem sendIbi_freeCtr (data : Nat) (s : State) : (sendIbi data s).freeCtr = s.freeCtr := by unfold sendIbi; split <;> rfl
@[simp] theorem sendIbi_time (data : Nat) (s : State) : (sendIbi data s).time = s.time := by unfold sendIbi; split <;> rfl
@[simp] theorem sendIbi_inForce (data : Nat) (s : State) : (sendIbi data s).inForce = s.inForce := by unfold sendIbi; split <;> rfl
@[simp] theorem sendIbi_shadow (data : Nat) (s : State) : (sendIbi data s).shadow = s.shadow := by unfold sendIbi; split <;> rfl
@[simp] theorem sendIbi_rw (data : Nat) (s : State) : (sendIbi data s).rw = s.rw := by unfold sendIbi; split <;> rfl
@[simp] theorem sendIbi_written (data : Nat) (s : State) : (sendIbi data s).written = s.written := by unfold sendIbi; split <;> rfl
@[simp] theorem sendIbi_commit (data : Nat) (s : State) : (sendIbi data s).commit = s.commit := by unfold sendIbi; split <;> rfl
@[simp] theorem sendIbi_conf (data : Nat) (s : State) : (sendIbi data s).conf = s.conf := by unfold sendIbi; split <;> rfl
@[simp] theorem sendIbi_slots (data : Nat) (s : State) : (sendIbi data s).slots = s.slots := by unfold sendIbi; split <;> rfl
@[simp] theorem sendIbi_units (data : Nat) (s : State) : (sendIbi data s).units = s.units := by unfold sendIbi; split <;> rfl
@[simp] theorem sendIbi_hist (data : Nat) (s : State) : (sendIbi data s).hist = s.hist := by unfold sendIbi; split <;> rfl
@[simp] theorem sendIbi_xg (data : Nat) (s : State) : (sendIbi data s).xg = s.xg := by unfold sendIbi; split <;> rfl
@[simp] theorem sendIbi_rc (data : Nat) (s : State) : (sendIbi data s).rc = s.rc := by unfold sendIbi; split <;> rfl
@[simp] theorem sendIbi_tone (data : Nat) (s : State) : (sendIbi data s).tone = s.tone := by unfold sendIbi; split <;> rfl
@[simp] theorem sendIbi_toneBox (data : Nat) (s : State) : (sendIbi data s).toneBox = s.toneBox := by unfold sendIbi; split <;> rfl
@[simp] theorem sendIbi_biasSplit (data : Nat) (s : State) : (sendIbi data s).biasSplit = s.biasSplit := by unfold sendIbi; split <;> rfl
@[simp] theorem sendIbi_biasOff (data : Nat) (s : State) : (sendIbi data s).biasOff = s.biasOff := by unfold sendIbi; split <;> rfl
@[simp] theorem sendIbi_decim (data : Nat) (s : State) : (sendIbi data s).decim = s.decim := by unfold sendIbi; split <;> rfl
@[simp] theorem sendIbi_ax (data : Nat) (s : State) : (sendIbi data s).ax = s.ax := by unfold sendIbi; split <;> rfl
@[simp] theorem sendIbi_axs (data : Nat) (s : State) : (sendIbi data s).axs = s.axs := by unfold sendIbi; split <;> rfl
@[simp] theorem sendIbi_se (data : Nat) (s : State) : (sendIbi data s).se = s.se := by unfold sendIbi; split <;> rfl
@[simp] theorem sendIbi_tk (data : Nat) (s : State) : (sendIbi data s).tk = s.tk := by unfold sendIbi; split <;> rfl
@[simp] theorem sendIbi_maps (data : Nat) (s : State) : (sendIbi data s).maps = s.maps := by unfold sendIbi; split <;> rfl
@[simp] theorem sendIbi_gl (data : Nat) (s : State) : (sendIbi data s).gl = s.gl := by unfold sendIbi; split <;> rfl
@[simp] theorem sendIbi_rh (data : Nat) (s : State) : (sendIbi data s).rh = s.rh := by unfold sendIbi; split <;> rfl
@[simp] theorem sendIbi_ip (data : Nat) (s : State) : (sendIbi data s).ip = s.ip := by unfold sendIbi; split <;> rfl
@[simp] theorem sendIbi_sw (data : Nat) (s : State) : (sendIbi data s).sw = s.sw := by unfold sendIbi; split <;> rfl
@[simp] theorem sendIbi_em (data : Nat) (s : State) : (sendIbi data s).em = s.em := by unfold sendIbi; split <;> rfl
@[simp] theorem sendIbi_cmp (data : Nat) (s : State) : (sendIbi data s).cmp = s.cmp := by unfold sendIbi; split <;> rfl
@[simp] theorem sendIbi_tg (data : Nat) (s : State) : (sendIbi data s).tg = s.tg := by unfold sendIbi; split <;> rfl
@[simp] theorem sendIbi_pg (data : Nat) (s : State) : (sendIbi data s).pg = s.pg := by unfold sendIbi; split <;> rfl
@[simp] theorem sendIbi_keep (data : Nat) (s : State) : (sendIbi data s).keep = s.keep := by unfold sendIbi; split <;> rfl
@[simp] theorem sendIbi_fm (data : Nat) (s : State) : (sendIbi data s).fm = s.fm := by unfold sendIbi; split <;> rfl
@[simp] theorem sendIbi_net (data : Nat) (s : State) : (sendIbi data s).net = s.net := by unfold sendIbi; split <;> rfl
@[simp] theorem sendIbi_hst (data : Nat) (s : State) : (sendIbi data s).hst = s.hst := by unfold sendIbi; split <;> rfl
@[simp] theorem sendIbi_twn (data : Nat) (s : State) : (sendIbi data s).twn = s.twn := by unfold sendIbi; split <;> rfl
@[simp] theorem sendIbi_hrd (data : Nat) (s : State) : (sendIbi data s).hrd = s.hrd := by unfold sendIbi; split <;> rfl
@[simp] theorem sendIbi_sec (data : Nat) (s : State) : (sendIbi data s).sec = s.sec := by unfold sendIbi; split <;> rfl
@[simp] theorem sendIbi_flt (data : Nat) (s : State) : (sendIbi data s).flt = s.flt := by unfold sendIbi; split <;> rfl
@[simp] theorem sendIbi_mon (data : Nat) (s : State) : (sendIbi data s).mon = s.mon := by unfold sendIbi; split <;> rfl
@[simp] theorem sendIbi_clk (data : Nat) (s : State) : (sendIbi data s).clk = s.clk := by unfold sendIbi; split <;> rfl
@[simp] theorem sendIbi_rst (data : Nat) (s : State) : (sendIbi data s).rst = s.rst := by unfold sendIbi; split <;> rfl
@[simp] theorem alarmEnter_pending (s : State) : (alarmEnter s).pending = s.pending := by unfold alarmEnter; dsimp only; split <;> (try split) <;> simp
@[simp] theorem alarmEnter_freeCtr (s : State) : (alarmEnter s).freeCtr = s.freeCtr := by unfold alarmEnter; dsimp only; split <;> (try split) <;> simp
@[simp] theorem alarmEnter_time (s : State) : (alarmEnter s).time = s.time := by unfold alarmEnter; dsimp only; split <;> (try split) <;> simp
@[simp] theorem alarmEnter_inForce (s : State) : (alarmEnter s).inForce = s.inForce := by unfold alarmEnter; dsimp only; split <;> (try split) <;> simp
@[simp] theorem alarmEnter_shadow (s : State) : (alarmEnter s).shadow = s.shadow := by unfold alarmEnter; dsimp only; split <;> (try split) <;> simp
@[simp] theorem alarmEnter_rw (s : State) : (alarmEnter s).rw = s.rw := by unfold alarmEnter; dsimp only; split <;> (try split) <;> simp
@[simp] theorem alarmEnter_written (s : State) : (alarmEnter s).written = s.written := by unfold alarmEnter; dsimp only; split <;> (try split) <;> simp
@[simp] theorem alarmEnter_commit (s : State) : (alarmEnter s).commit = s.commit := by unfold alarmEnter; dsimp only; split <;> (try split) <;> simp
@[simp] theorem alarmEnter_conf (s : State) : (alarmEnter s).conf = s.conf := by unfold alarmEnter; dsimp only; split <;> (try split) <;> simp
@[simp] theorem alarmEnter_slots (s : State) : (alarmEnter s).slots = s.slots := by unfold alarmEnter; dsimp only; split <;> (try split) <;> simp
@[simp] theorem alarmEnter_units (s : State) : (alarmEnter s).units = s.units := by unfold alarmEnter; dsimp only; split <;> (try split) <;> simp
@[simp] theorem alarmEnter_hist (s : State) : (alarmEnter s).hist = s.hist := by unfold alarmEnter; dsimp only; split <;> (try split) <;> simp
@[simp] theorem alarmEnter_xg (s : State) : (alarmEnter s).xg = s.xg := by unfold alarmEnter; dsimp only; split <;> (try split) <;> simp
@[simp] theorem alarmEnter_rc (s : State) : (alarmEnter s).rc = s.rc := by unfold alarmEnter; dsimp only; split <;> (try split) <;> simp
@[simp] theorem alarmEnter_tone (s : State) : (alarmEnter s).tone = s.tone := by unfold alarmEnter; dsimp only; split <;> (try split) <;> simp
@[simp] theorem alarmEnter_toneBox (s : State) : (alarmEnter s).toneBox = s.toneBox := by unfold alarmEnter; dsimp only; split <;> (try split) <;> simp
@[simp] theorem alarmEnter_biasSplit (s : State) : (alarmEnter s).biasSplit = s.biasSplit := by unfold alarmEnter; dsimp only; split <;> (try split) <;> simp
@[simp] theorem alarmEnter_biasOff (s : State) : (alarmEnter s).biasOff = s.biasOff := by unfold alarmEnter; dsimp only; split <;> (try split) <;> simp
@[simp] theorem alarmEnter_decim (s : State) : (alarmEnter s).decim = s.decim := by unfold alarmEnter; dsimp only; split <;> (try split) <;> simp
@[simp] theorem alarmEnter_ax (s : State) : (alarmEnter s).ax = s.ax := by unfold alarmEnter; dsimp only; split <;> (try split) <;> simp
@[simp] theorem alarmEnter_axs (s : State) : (alarmEnter s).axs = s.axs := by unfold alarmEnter; dsimp only; split <;> (try split) <;> simp
@[simp] theorem alarmEnter_se (s : State) : (alarmEnter s).se = s.se := by unfold alarmEnter; dsimp only; split <;> (try split) <;> simp
@[simp] theorem alarmEnter_tk (s : State) : (alarmEnter s).tk = s.tk := by unfold alarmEnter; dsimp only; split <;> (try split) <;> simp
@[simp] theorem alarmEnter_maps (s : State) : (alarmEnter s).maps = s.maps := by unfold alarmEnter; dsimp only; split <;> (try split) <;> simp
@[simp] theorem alarmEnter_gl (s : State) : (alarmEnter s).gl = s.gl := by unfold alarmEnter; dsimp only; split <;> (try split) <;> simp
@[simp] theorem alarmEnter_rh (s : State) : (alarmEnter s).rh = s.rh := by unfold alarmEnter; dsimp only; split <;> (try split) <;> simp
@[simp] theorem alarmEnter_ip (s : State) : (alarmEnter s).ip = s.ip := by unfold alarmEnter; dsimp only; split <;> (try split) <;> simp
@[simp] theorem alarmEnter_sw (s : State) : (alarmEnter s).sw = s.sw := by unfold alarmEnter; dsimp only; split <;> (try split) <;> simp
@[simp] theorem alarmEnter_em (s : State) : (alarmEnter s).em = s.em := by unfold alarmEnter; dsimp only; split <;> (try split) <;> simp
@[simp] theorem alarmEnter_cmp (s : State) : (alarmEnter s).cmp = s.cmp := by unfold alarmEnter; dsimp only; split <;> (try split) <;> simp
@[simp] theorem alarmEnter_tg (s : State) : (alarmEnter s).tg = s.tg := by unfold alarmEnter; dsimp only; split <;> (try split) <;> simp
@[simp] theorem alarmEnter_pg (s : State) : (alarmEnter s).pg = s.pg := by unfold alarmEnter; dsimp only; split <;> (try split) <;> simp
@[simp] theorem alarmEnter_keep (s : State) : (alarmEnter s).keep = s.keep := by unfold alarmEnter; dsimp only; split <;> (try split) <;> simp
@[simp] theorem alarmEnter_fm (s : State) : (alarmEnter s).fm = s.fm := by unfold alarmEnter; dsimp only; split <;> (try split) <;> simp
@[simp] theorem alarmEnter_net (s : State) : (alarmEnter s).net = s.net := by unfold alarmEnter; dsimp only; split <;> (try split) <;> simp
@[simp] theorem alarmEnter_hst (s : State) : (alarmEnter s).hst = s.hst := by unfold alarmEnter; dsimp only; split <;> (try split) <;> simp
@[simp] theorem alarmEnter_twn (s : State) : (alarmEnter s).twn = s.twn := by unfold alarmEnter; dsimp only; split <;> (try split) <;> simp
@[simp] theorem alarmEnter_hrd (s : State) : (alarmEnter s).hrd = s.hrd := by unfold alarmEnter; dsimp only; split <;> (try split) <;> simp
@[simp] theorem alarmEnter_sec (s : State) : (alarmEnter s).sec = s.sec := by unfold alarmEnter; dsimp only; split <;> (try split) <;> simp
@[simp] theorem alarmEnter_flt_queues (s : State) : (alarmEnter s).flt.queues = s.flt.queues := by unfold alarmEnter; dsimp only; split <;> (try split) <;> simp
@[simp] theorem alarmEnter_flt_seq (s : State) : (alarmEnter s).flt.seq = s.flt.seq := by unfold alarmEnter; dsimp only; split <;> (try split) <;> simp
@[simp] theorem alarmEnter_flt_drops (s : State) : (alarmEnter s).flt.drops = s.flt.drops := by unfold alarmEnter; dsimp only; split <;> (try split) <;> simp
@[simp] theorem alarmEnter_flt_fs (s : State) : (alarmEnter s).flt.fs = s.flt.fs := by unfold alarmEnter; dsimp only; split <;> (try split) <;> simp
@[simp] theorem alarmEnter_flt_conds (s : State) : (alarmEnter s).flt.conds = s.flt.conds := by unfold alarmEnter; dsimp only; split <;> (try split) <;> simp
@[simp] theorem alarmEnter_flt_ffValid (s : State) : (alarmEnter s).flt.ffValid = s.flt.ffValid := by unfold alarmEnter; dsimp only; split <;> (try split) <;> simp
@[simp] theorem alarmEnter_flt_ffClass (s : State) : (alarmEnter s).flt.ffClass = s.flt.ffClass := by unfold alarmEnter; dsimp only; split <;> (try split) <;> simp
@[simp] theorem alarmEnter_flt_ffPromoted (s : State) : (alarmEnter s).flt.ffPromoted = s.flt.ffPromoted := by unfold alarmEnter; dsimp only; split <;> (try split) <;> simp
@[simp] theorem alarmEnter_flt_ffSimult (s : State) : (alarmEnter s).flt.ffSimult = s.flt.ffSimult := by unfold alarmEnter; dsimp only; split <;> (try split) <;> simp
@[simp] theorem alarmEnter_flt_ffMsg (s : State) : (alarmEnter s).flt.ffMsg = s.flt.ffMsg := by unfold alarmEnter; dsimp only; split <;> (try split) <;> simp
@[simp] theorem alarmEnter_flt_ffTime (s : State) : (alarmEnter s).flt.ffTime = s.flt.ffTime := by unfold alarmEnter; dsimp only; split <;> (try split) <;> simp
@[simp] theorem alarmEnter_flt_ffSeq (s : State) : (alarmEnter s).flt.ffSeq = s.flt.ffSeq := by unfold alarmEnter; dsimp only; split <;> (try split) <;> simp
@[simp] theorem alarmEnter_flt_classCount (s : State) : (alarmEnter s).flt.classCount = s.flt.classCount := by unfold alarmEnter; dsimp only; split <;> (try split) <;> simp
@[simp] theorem alarmEnter_flt_alarmFree (s : State) : (alarmEnter s).flt.alarmFree = s.flt.alarmFree := by unfold alarmEnter; dsimp only; split <;> (try split) <;> simp
@[simp] theorem alarmEnter_flt_alarmLevel (s : State) : (alarmEnter s).flt.alarmLevel = s.flt.alarmLevel := by unfold alarmEnter; dsimp only; split <;> (try split) <;> simp
@[simp] theorem alarmEnter_flt_hbLost (s : State) : (alarmEnter s).flt.hbLost = s.flt.hbLost := by unfold alarmEnter; dsimp only; split <;> (try split) <;> simp
@[simp] theorem alarmEnter_flt_hbLast (s : State) : (alarmEnter s).flt.hbLast = s.flt.hbLast := by unfold alarmEnter; dsimp only; split <;> (try split) <;> simp
@[simp] theorem alarmEnter_flt_hbLostAt (s : State) : (alarmEnter s).flt.hbLostAt = s.flt.hbLostAt := by unfold alarmEnter; dsimp only; split <;> (try split) <;> simp
@[simp] theorem alarmEnter_flt_flHead (s : State) : (alarmEnter s).flt.flHead = s.flt.flHead := by unfold alarmEnter; dsimp only; split <;> (try split) <;> simp
@[simp] theorem alarmEnter_flt_flWraps (s : State) : (alarmEnter s).flt.flWraps = s.flt.flWraps := by unfold alarmEnter; dsimp only; split <;> (try split) <;> simp
@[simp] theorem alarmEnter_flt_flOpen (s : State) : (alarmEnter s).flt.flOpen = s.flt.flOpen := by unfold alarmEnter; dsimp only; split <;> (try split) <;> simp
@[simp] theorem alarmEnter_flt_ring (s : State) : (alarmEnter s).flt.ring = s.flt.ring := by unfold alarmEnter; dsimp only; split <;> (try split) <;> simp
@[simp] theorem alarmEnter_flt_ringHead (s : State) : (alarmEnter s).flt.ringHead = s.flt.ringHead := by unfold alarmEnter; dsimp only; split <;> (try split) <;> simp
@[simp] theorem alarmEnter_flt_ringHeld (s : State) : (alarmEnter s).flt.ringHeld = s.flt.ringHeld := by unfold alarmEnter; dsimp only; split <;> (try split) <;> simp
@[simp] theorem alarmEnter_flt_notStored (s : State) : (alarmEnter s).flt.notStored = s.flt.notStored := by unfold alarmEnter; dsimp only; split <;> (try split) <;> simp
@[simp] theorem alarmEnter_flt_ringSecond (s : State) : (alarmEnter s).flt.ringSecond = s.flt.ringSecond := by unfold alarmEnter; dsimp only; split <;> (try split) <;> simp
@[simp] theorem alarmEnter_flt_ringInSecond (s : State) : (alarmEnter s).flt.ringInSecond = s.flt.ringInSecond := by unfold alarmEnter; dsimp only; split <;> (try split) <;> simp
@[simp] theorem alarmEnter_flt_heldBack (s : State) : (alarmEnter s).flt.heldBack = s.flt.heldBack := by unfold alarmEnter; dsimp only; split <;> (try split) <;> simp
@[simp] theorem alarmEnter_mon (s : State) : (alarmEnter s).mon = s.mon := by unfold alarmEnter; dsimp only; split <;> (try split) <;> simp
@[simp] theorem alarmEnter_clk (s : State) : (alarmEnter s).clk = s.clk := by unfold alarmEnter; dsimp only; split <;> (try split) <;> simp
@[simp] theorem alarmEnter_rst (s : State) : (alarmEnter s).rst = s.rst := by unfold alarmEnter; dsimp only; split <;> (try split) <;> simp
@[simp] theorem alarmLeave_pending (s : State) : (alarmLeave s).pending = s.pending := by unfold alarmLeave; split <;> rfl
@[simp] theorem alarmLeave_freeCtr (s : State) : (alarmLeave s).freeCtr = s.freeCtr := by unfold alarmLeave; split <;> rfl
@[simp] theorem alarmLeave_outbox (s : State) : (alarmLeave s).outbox = s.outbox := by unfold alarmLeave; split <;> rfl
@[simp] theorem alarmLeave_time (s : State) : (alarmLeave s).time = s.time := by unfold alarmLeave; split <;> rfl
@[simp] theorem alarmLeave_inForce (s : State) : (alarmLeave s).inForce = s.inForce := by unfold alarmLeave; split <;> rfl
@[simp] theorem alarmLeave_shadow (s : State) : (alarmLeave s).shadow = s.shadow := by unfold alarmLeave; split <;> rfl
@[simp] theorem alarmLeave_rw (s : State) : (alarmLeave s).rw = s.rw := by unfold alarmLeave; split <;> rfl
@[simp] theorem alarmLeave_written (s : State) : (alarmLeave s).written = s.written := by unfold alarmLeave; split <;> rfl
@[simp] theorem alarmLeave_commit (s : State) : (alarmLeave s).commit = s.commit := by unfold alarmLeave; split <;> rfl
@[simp] theorem alarmLeave_conf (s : State) : (alarmLeave s).conf = s.conf := by unfold alarmLeave; split <;> rfl
@[simp] theorem alarmLeave_slots (s : State) : (alarmLeave s).slots = s.slots := by unfold alarmLeave; split <;> rfl
@[simp] theorem alarmLeave_units (s : State) : (alarmLeave s).units = s.units := by unfold alarmLeave; split <;> rfl
@[simp] theorem alarmLeave_hist (s : State) : (alarmLeave s).hist = s.hist := by unfold alarmLeave; split <;> rfl
@[simp] theorem alarmLeave_xg (s : State) : (alarmLeave s).xg = s.xg := by unfold alarmLeave; split <;> rfl
@[simp] theorem alarmLeave_rc (s : State) : (alarmLeave s).rc = s.rc := by unfold alarmLeave; split <;> rfl
@[simp] theorem alarmLeave_tone (s : State) : (alarmLeave s).tone = s.tone := by unfold alarmLeave; split <;> rfl
@[simp] theorem alarmLeave_toneBox (s : State) : (alarmLeave s).toneBox = s.toneBox := by unfold alarmLeave; split <;> rfl
@[simp] theorem alarmLeave_biasSplit (s : State) : (alarmLeave s).biasSplit = s.biasSplit := by unfold alarmLeave; split <;> rfl
@[simp] theorem alarmLeave_biasOff (s : State) : (alarmLeave s).biasOff = s.biasOff := by unfold alarmLeave; split <;> rfl
@[simp] theorem alarmLeave_decim (s : State) : (alarmLeave s).decim = s.decim := by unfold alarmLeave; split <;> rfl
@[simp] theorem alarmLeave_ax (s : State) : (alarmLeave s).ax = s.ax := by unfold alarmLeave; split <;> rfl
@[simp] theorem alarmLeave_axs (s : State) : (alarmLeave s).axs = s.axs := by unfold alarmLeave; split <;> rfl
@[simp] theorem alarmLeave_se (s : State) : (alarmLeave s).se = s.se := by unfold alarmLeave; split <;> rfl
@[simp] theorem alarmLeave_tk (s : State) : (alarmLeave s).tk = s.tk := by unfold alarmLeave; split <;> rfl
@[simp] theorem alarmLeave_maps (s : State) : (alarmLeave s).maps = s.maps := by unfold alarmLeave; split <;> rfl
@[simp] theorem alarmLeave_gl (s : State) : (alarmLeave s).gl = s.gl := by unfold alarmLeave; split <;> rfl
@[simp] theorem alarmLeave_rh (s : State) : (alarmLeave s).rh = s.rh := by unfold alarmLeave; split <;> rfl
@[simp] theorem alarmLeave_ip (s : State) : (alarmLeave s).ip = s.ip := by unfold alarmLeave; split <;> rfl
@[simp] theorem alarmLeave_sw (s : State) : (alarmLeave s).sw = s.sw := by unfold alarmLeave; split <;> rfl
@[simp] theorem alarmLeave_em (s : State) : (alarmLeave s).em = s.em := by unfold alarmLeave; split <;> rfl
@[simp] theorem alarmLeave_cmp (s : State) : (alarmLeave s).cmp = s.cmp := by unfold alarmLeave; split <;> rfl
@[simp] theorem alarmLeave_tg (s : State) : (alarmLeave s).tg = s.tg := by unfold alarmLeave; split <;> rfl
@[simp] theorem alarmLeave_pg (s : State) : (alarmLeave s).pg = s.pg := by unfold alarmLeave; split <;> rfl
@[simp] theorem alarmLeave_keep (s : State) : (alarmLeave s).keep = s.keep := by unfold alarmLeave; split <;> rfl
@[simp] theorem alarmLeave_fm (s : State) : (alarmLeave s).fm = s.fm := by unfold alarmLeave; split <;> rfl
@[simp] theorem alarmLeave_net (s : State) : (alarmLeave s).net = s.net := by unfold alarmLeave; split <;> rfl
@[simp] theorem alarmLeave_hst (s : State) : (alarmLeave s).hst = s.hst := by unfold alarmLeave; split <;> rfl
@[simp] theorem alarmLeave_twn (s : State) : (alarmLeave s).twn = s.twn := by unfold alarmLeave; split <;> rfl
@[simp] theorem alarmLeave_hrd (s : State) : (alarmLeave s).hrd = s.hrd := by unfold alarmLeave; split <;> rfl
@[simp] theorem alarmLeave_sec (s : State) : (alarmLeave s).sec = s.sec := by unfold alarmLeave; split <;> rfl
@[simp] theorem alarmLeave_flt_queues (s : State) : (alarmLeave s).flt.queues = s.flt.queues := by unfold alarmLeave; split <;> rfl
@[simp] theorem alarmLeave_flt_seq (s : State) : (alarmLeave s).flt.seq = s.flt.seq := by unfold alarmLeave; split <;> rfl
@[simp] theorem alarmLeave_flt_drops (s : State) : (alarmLeave s).flt.drops = s.flt.drops := by unfold alarmLeave; split <;> rfl
@[simp] theorem alarmLeave_flt_fs (s : State) : (alarmLeave s).flt.fs = s.flt.fs := by unfold alarmLeave; split <;> rfl
@[simp] theorem alarmLeave_flt_conds (s : State) : (alarmLeave s).flt.conds = s.flt.conds := by unfold alarmLeave; split <;> rfl
@[simp] theorem alarmLeave_flt_ffValid (s : State) : (alarmLeave s).flt.ffValid = s.flt.ffValid := by unfold alarmLeave; split <;> rfl
@[simp] theorem alarmLeave_flt_ffClass (s : State) : (alarmLeave s).flt.ffClass = s.flt.ffClass := by unfold alarmLeave; split <;> rfl
@[simp] theorem alarmLeave_flt_ffPromoted (s : State) : (alarmLeave s).flt.ffPromoted = s.flt.ffPromoted := by unfold alarmLeave; split <;> rfl
@[simp] theorem alarmLeave_flt_ffSimult (s : State) : (alarmLeave s).flt.ffSimult = s.flt.ffSimult := by unfold alarmLeave; split <;> rfl
@[simp] theorem alarmLeave_flt_ffMsg (s : State) : (alarmLeave s).flt.ffMsg = s.flt.ffMsg := by unfold alarmLeave; split <;> rfl
@[simp] theorem alarmLeave_flt_ffTime (s : State) : (alarmLeave s).flt.ffTime = s.flt.ffTime := by unfold alarmLeave; split <;> rfl
@[simp] theorem alarmLeave_flt_ffSeq (s : State) : (alarmLeave s).flt.ffSeq = s.flt.ffSeq := by unfold alarmLeave; split <;> rfl
@[simp] theorem alarmLeave_flt_classCount (s : State) : (alarmLeave s).flt.classCount = s.flt.classCount := by unfold alarmLeave; split <;> rfl
@[simp] theorem alarmLeave_flt_alarm (s : State) : (alarmLeave s).flt.alarm = s.flt.alarm := by unfold alarmLeave; split <;> rfl
@[simp] theorem alarmLeave_flt_alarmHold (s : State) : (alarmLeave s).flt.alarmHold = s.flt.alarmHold := by unfold alarmLeave; split <;> rfl
@[simp] theorem alarmLeave_flt_alarmCount (s : State) : (alarmLeave s).flt.alarmCount = s.flt.alarmCount := by unfold alarmLeave; split <;> rfl
@[simp] theorem alarmLeave_flt_alarmLevel (s : State) : (alarmLeave s).flt.alarmLevel = s.flt.alarmLevel := by unfold alarmLeave; split <;> rfl
@[simp] theorem alarmLeave_flt_hbLost (s : State) : (alarmLeave s).flt.hbLost = s.flt.hbLost := by unfold alarmLeave; split <;> rfl
@[simp] theorem alarmLeave_flt_hbLast (s : State) : (alarmLeave s).flt.hbLast = s.flt.hbLast := by unfold alarmLeave; split <;> rfl
@[simp] theorem alarmLeave_flt_hbLostAt (s : State) : (alarmLeave s).flt.hbLostAt = s.flt.hbLostAt := by unfold alarmLeave; split <;> rfl
@[simp] theorem alarmLeave_flt_flHead (s : State) : (alarmLeave s).flt.flHead = s.flt.flHead := by unfold alarmLeave; split <;> rfl
@[simp] theorem alarmLeave_flt_flWraps (s : State) : (alarmLeave s).flt.flWraps = s.flt.flWraps := by unfold alarmLeave; split <;> rfl
@[simp] theorem alarmLeave_flt_flOpen (s : State) : (alarmLeave s).flt.flOpen = s.flt.flOpen := by unfold alarmLeave; split <;> rfl
@[simp] theorem alarmLeave_flt_ring (s : State) : (alarmLeave s).flt.ring = s.flt.ring := by unfold alarmLeave; split <;> rfl
@[simp] theorem alarmLeave_flt_ringHead (s : State) : (alarmLeave s).flt.ringHead = s.flt.ringHead := by unfold alarmLeave; split <;> rfl
@[simp] theorem alarmLeave_flt_ringHeld (s : State) : (alarmLeave s).flt.ringHeld = s.flt.ringHeld := by unfold alarmLeave; split <;> rfl
@[simp] theorem alarmLeave_flt_notStored (s : State) : (alarmLeave s).flt.notStored = s.flt.notStored := by unfold alarmLeave; split <;> rfl
@[simp] theorem alarmLeave_flt_ringSecond (s : State) : (alarmLeave s).flt.ringSecond = s.flt.ringSecond := by unfold alarmLeave; split <;> rfl
@[simp] theorem alarmLeave_flt_ringInSecond (s : State) : (alarmLeave s).flt.ringInSecond = s.flt.ringInSecond := by unfold alarmLeave; split <;> rfl
@[simp] theorem alarmLeave_flt_heldBack (s : State) : (alarmLeave s).flt.heldBack = s.flt.heldBack := by unfold alarmLeave; split <;> rfl
@[simp] theorem alarmLeave_mon (s : State) : (alarmLeave s).mon = s.mon := by unfold alarmLeave; split <;> rfl
@[simp] theorem alarmLeave_clk (s : State) : (alarmLeave s).clk = s.clk := by unfold alarmLeave; split <;> rfl
@[simp] theorem alarmLeave_rst (s : State) : (alarmLeave s).rst = s.rst := by unfold alarmLeave; split <;> rfl
@[simp] theorem maskRails_pending (r n t : Nat) (s : State) : (maskRails r n t s).pending = s.pending := rfl
@[simp] theorem maskRails_freeCtr (r n t : Nat) (s : State) : (maskRails r n t s).freeCtr = s.freeCtr := rfl
@[simp] theorem maskRails_outbox (r n t : Nat) (s : State) : (maskRails r n t s).outbox = s.outbox := rfl
@[simp] theorem maskRails_time (r n t : Nat) (s : State) : (maskRails r n t s).time = s.time := rfl
@[simp] theorem maskRails_inForce (r n t : Nat) (s : State) : (maskRails r n t s).inForce = s.inForce := rfl
@[simp] theorem maskRails_shadow (r n t : Nat) (s : State) : (maskRails r n t s).shadow = s.shadow := rfl
@[simp] theorem maskRails_rw (r n t : Nat) (s : State) : (maskRails r n t s).rw = s.rw := rfl
@[simp] theorem maskRails_written (r n t : Nat) (s : State) : (maskRails r n t s).written = s.written := rfl
@[simp] theorem maskRails_commit (r n t : Nat) (s : State) : (maskRails r n t s).commit = s.commit := rfl
@[simp] theorem maskRails_conf (r n t : Nat) (s : State) : (maskRails r n t s).conf = s.conf := rfl
@[simp] theorem maskRails_slots (r n t : Nat) (s : State) : (maskRails r n t s).slots = s.slots := rfl
@[simp] theorem maskRails_units (r n t : Nat) (s : State) : (maskRails r n t s).units = s.units := rfl
@[simp] theorem maskRails_hist (r n t : Nat) (s : State) : (maskRails r n t s).hist = s.hist := rfl
@[simp] theorem maskRails_xg (r n t : Nat) (s : State) : (maskRails r n t s).xg = s.xg := rfl
@[simp] theorem maskRails_rc (r n t : Nat) (s : State) : (maskRails r n t s).rc = s.rc := rfl
@[simp] theorem maskRails_tone (r n t : Nat) (s : State) : (maskRails r n t s).tone = s.tone := rfl
@[simp] theorem maskRails_toneBox (r n t : Nat) (s : State) : (maskRails r n t s).toneBox = s.toneBox := rfl
@[simp] theorem maskRails_biasSplit (r n t : Nat) (s : State) : (maskRails r n t s).biasSplit = s.biasSplit := rfl
@[simp] theorem maskRails_biasOff (r n t : Nat) (s : State) : (maskRails r n t s).biasOff = s.biasOff := rfl
@[simp] theorem maskRails_decim (r n t : Nat) (s : State) : (maskRails r n t s).decim = s.decim := rfl
@[simp] theorem maskRails_ax (r n t : Nat) (s : State) : (maskRails r n t s).ax = s.ax := rfl
@[simp] theorem maskRails_axs (r n t : Nat) (s : State) : (maskRails r n t s).axs = s.axs := rfl
@[simp] theorem maskRails_se (r n t : Nat) (s : State) : (maskRails r n t s).se = s.se := rfl
@[simp] theorem maskRails_tk (r n t : Nat) (s : State) : (maskRails r n t s).tk = s.tk := rfl
@[simp] theorem maskRails_maps (r n t : Nat) (s : State) : (maskRails r n t s).maps = s.maps := rfl
@[simp] theorem maskRails_gl (r n t : Nat) (s : State) : (maskRails r n t s).gl = s.gl := rfl
@[simp] theorem maskRails_rh (r n t : Nat) (s : State) : (maskRails r n t s).rh = s.rh := rfl
@[simp] theorem maskRails_ip (r n t : Nat) (s : State) : (maskRails r n t s).ip = s.ip := rfl
@[simp] theorem maskRails_sw (r n t : Nat) (s : State) : (maskRails r n t s).sw = s.sw := rfl
@[simp] theorem maskRails_em (r n t : Nat) (s : State) : (maskRails r n t s).em = s.em := rfl
@[simp] theorem maskRails_cmp (r n t : Nat) (s : State) : (maskRails r n t s).cmp = s.cmp := rfl
@[simp] theorem maskRails_tg (r n t : Nat) (s : State) : (maskRails r n t s).tg = s.tg := rfl
@[simp] theorem maskRails_pg (r n t : Nat) (s : State) : (maskRails r n t s).pg = s.pg := rfl
@[simp] theorem maskRails_keep (r n t : Nat) (s : State) : (maskRails r n t s).keep = s.keep := rfl
@[simp] theorem maskRails_fm (r n t : Nat) (s : State) : (maskRails r n t s).fm = s.fm := rfl
@[simp] theorem maskRails_net (r n t : Nat) (s : State) : (maskRails r n t s).net = s.net := rfl
@[simp] theorem maskRails_hst (r n t : Nat) (s : State) : (maskRails r n t s).hst = s.hst := rfl
@[simp] theorem maskRails_twn (r n t : Nat) (s : State) : (maskRails r n t s).twn = s.twn := rfl
@[simp] theorem maskRails_hrd (r n t : Nat) (s : State) : (maskRails r n t s).hrd = s.hrd := rfl
@[simp] theorem maskRails_sec (r n t : Nat) (s : State) : (maskRails r n t s).sec = s.sec := rfl
@[simp] theorem maskRails_flt (r n t : Nat) (s : State) : (maskRails r n t s).flt = s.flt := rfl
@[simp] theorem maskRails_mon_temps (r n t : Nat) (s : State) : (maskRails r n t s).mon.temps = s.mon.temps := rfl
@[simp] theorem maskRails_mon_ro (r n t : Nat) (s : State) : (maskRails r n t s).mon.ro = s.mon.ro := rfl
@[simp] theorem maskRails_mon_age (r n t : Nat) (s : State) : (maskRails r n t s).mon.age = s.mon.age := rfl
@[simp] theorem maskRails_mon_lifeOn (r n t : Nat) (s : State) : (maskRails r n t s).mon.lifeOn = s.mon.lifeOn := rfl
@[simp] theorem maskRails_mon_lifeEq (r n t : Nat) (s : State) : (maskRails r n t s).mon.lifeEq = s.mon.lifeEq := rfl
@[simp] theorem maskRails_mon_lifeHot (r n t : Nat) (s : State) : (maskRails r n t s).mon.lifeHot = s.mon.lifeHot := rfl
@[simp] theorem maskRails_mon_lifePeak (r n t : Nat) (s : State) : (maskRails r n t s).mon.lifePeak = s.mon.lifePeak := rfl
@[simp] theorem maskRails_mon_lifeSaved (r n t : Nat) (s : State) : (maskRails r n t s).mon.lifeSaved = s.mon.lifeSaved := rfl
@[simp] theorem maskRails_mon_savedA (r n t : Nat) (s : State) : (maskRails r n t s).mon.savedA = s.mon.savedA := rfl
@[simp] theorem maskRails_mon_savedB (r n t : Nat) (s : State) : (maskRails r n t s).mon.savedB = s.mon.savedB := rfl
@[simp] theorem maskRails_clk (r n t : Nat) (s : State) : (maskRails r n t s).clk = s.clk := rfl
@[simp] theorem maskRails_rst (r n t : Nat) (s : State) : (maskRails r n t s).rst = s.rst := rfl
/-! ### What a message changes -/

theorem queueMsg_frame (q : Nat) (m : FaultMsg) (s : State) : { queueMsg q m s with flt := s.flt, fm := s.fm } = s := by
  unfold queueMsg; dsimp only; split <;> rfl
theorem raiseFault_frame (q u kind detail : Nat) (s : State) : { raiseFault q u kind detail s with flt := s.flt, fm := s.fm } = s := queueMsg_frame _ _ _
theorem setCond_frame (q u kind sub : Nat) (b : Bool) (detail : Nat) (s : State) : { setCond q u kind sub b detail s with flt := s.flt, fm := s.fm } = s := by
  unfold setCond; dsimp only; split
  · have h := raiseFault_frame q u kind detail { s with flt := { s.flt with conds := Tbl.set (constD false) s.flt.conds (condKey u kind sub) b } }
    simpa using congrArg (fun t : State => { t with flt := s.flt, fm := s.fm }) h
  · rfl

/-- The queue a message enters, while it has room. -/
@[simp] theorem queueOf_queueMsg (q : Nat) (m : FaultMsg) (s : State) :
    queueOf (queueMsg q m s) q = if (queueOf s q).length < queueCap q then queueOf s q ++ [m] else queueOf s q := by
  unfold queueMsg; dsimp only
  split
  · next h => rw [if_pos (show (queueOf s q).length < queueCap q from h)]; exact Tbl.get_set_self _ _ _ _
  · next h => rw [if_neg (show ¬ (queueOf s q).length < queueCap q from h)]; rfl
theorem queueOf_queueMsg_ne (q : Nat) (m : FaultMsg) (s : State) {p : Nat} (h : p ≠ q) : queueOf (queueMsg q m s) p = queueOf s p := by
  unfold queueMsg; dsimp only
  split
  · exact Tbl.get_set_ne _ _ _ h
  · rfl
theorem drops_queueMsg (q : Nat) (m : FaultMsg) (s : State) :
    (queueMsg q m s).flt.drops = if (queueOf s q).length < queueCap q then s.flt.drops else satInc 32 s.flt.drops := by
  unfold queueMsg; dsimp only
  split
  · next h => rw [if_pos (show (queueOf s q).length < queueCap q from h)]; rfl
  · next h => rw [if_neg (show ¬ (queueOf s q).length < queueCap q from h)]; rfl

/-- A raised fault is one message. -/
theorem raised_raiseFault (q u kind detail : Nat) (s : State) : Raised q u kind detail s (raiseFault q u kind detail s) :=
  queueOf_queueMsg _ _ _
/-- A fault raised after updates that leave the queues, the configuration and the frame number alone. -/
theorem raised_of_eq (q u kind detail : Nat) (s t : State) (hq : t.flt.queues = s.flt.queues) (hc : t.conf = s.conf) (hf : t.time.frame = s.time.frame) :
    Raised q u kind detail s (raiseFault q u kind detail t) := by
  have h1 : queueOf t q = queueOf s q := by unfold queueOf; rw [hq]
  have h2 : baseClass t u kind = baseClass s u kind := by unfold baseClass; rw [hc]
  have h3 : frame64 t = frame64 s := by unfold frame64; rw [hf]
  have h := raised_raiseFault q u kind detail t
  unfold Raised at h ⊢
  rw [h, h1, h2, h3]

/-- The condition's value after it is set. -/
@[simp] theorem condOf_setCond (q u kind sub : Nat) (b : Bool) (detail : Nat) (s : State) : condOf (setCond q u kind sub b detail s) u kind sub = b := by
  unfold setCond; dsimp only
  split
  · unfold condOf; rw [raiseFault_flt_conds]; exact Tbl.get_set_self _ _ _ _
  · exact Tbl.get_set_self _ _ _ _
/-- A condition that sets raises its kind; one that held or that clears raises nothing. -/
theorem raised_setCond (q u kind sub detail : Nat) (s : State) (h : condOf s u kind sub = false) : Raised q u kind detail s (setCond q u kind sub true detail s) := by
  unfold setCond; dsimp only
  rw [if_pos (show (true && !condOf s u kind sub) = true by rw [h]; rfl)]
  exact raised_of_eq q u kind detail s _ rfl rfl rfl
theorem queues_setCond_off (q u kind sub : Nat) (b : Bool) (detail : Nat) (s : State) (h : b = false ∨ condOf s u kind sub = true) :
    (setCond q u kind sub b detail s).flt.queues = s.flt.queues := by
  unfold setCond; dsimp only
  rcases h with h | h
  · subst h; rfl
  · rw [h]; simp

/-! ### Frame memory -/

@[simp] theorem memByte_setByte (a : Nat) (v : Byte) (s : State) : memByte (setByte a v s) a = v := Tbl.get_set_self _ _ _ _
theorem memByte_setByte_ne (a : Nat) (v : Byte) (s : State) {x : Nat} (h : x ≠ a) : memByte (setByte a v s) x = memByte s x := Tbl.get_set_ne _ _ _ h
theorem memInv_setByte (a : Nat) (v : Byte) (s : State) (h : MemInv s) : MemInv (setByte a v s) := Tbl.wf_set _ _ _ _ h
/-- Equal memories keep the canonical form. -/
theorem memInv_of_eq {s t : State} (h : t.fm.mem = s.fm.mem) (hs : MemInv s) : MemInv t := by unfold MemInv at *; rw [h]; exact hs

/-! ### Repeated updates -/

/-- What every single update keeps, `doFor` keeps. -/
theorem doFor_keeps {α β : Type} (p : State → β) (f : α → State → State) (h : ∀ a s, p (f a s) = p s) (l : List α) (s : State) :
    p (doFor l f s) = p s := by
  unfold doFor
  induction l generalizing s with
  | nil => rfl
  | cons a t ih => rw [List.foldl_cons, ih, h]
/-- The same of an invariant. -/
theorem doFor_inv {α : Type} (P : State → Prop) (f : α → State → State) (h : ∀ a s, P s → P (f a s)) (l : List α) (s : State) (hs : P s) :
    P (doFor l f s) := by
  unfold doFor
  induction l generalizing s with
  | nil => exact hs
  | cons a t ih => exact ih _ (h a s hs)
@[simp] theorem doFor_nil {α : Type} (f : α → State → State) (s : State) : doFor [] f s = s := rfl
@[simp] theorem doFor_cons {α : Type} (a : α) (l : List α) (f : α → State → State) (s : State) : doFor (a :: l) f s = doFor l f (f a s) := rfl
@[simp] theorem doIf_true (f : State → State) (s : State) : doIf true f s = f s := rfl
@[simp] theorem doIf_false (f : State → State) (s : State) : doIf false f s = s := rfl

end Sys2Proof.Machine
end

