-- ==== Sys2Proof/Laws/Mem.lean ====
section
/-! SUPPORT. The canonical form of frame memory over every operation: most leave the memory alone, and the few that write it keep the
form. -/
namespace Sys2Proof.Laws
open Sys2Proof Sys2Proof.Machine

theorem memInv_mk (x0 : List Instr) (x1 : Nat) (x2 : List Output) (x3 : TimeSt) (x4 : List (Nat × Word)) (x5 : List (Nat × Word))
    (x6 : List (Nat × Word)) (x7 : List (Nat × Bool)) (x8 : CommitSt) (x9 : Option Image) (x10 : SlotSt) (x11 : List (Nat × UnitSt))
        (x12 : List (Nat × List (Nat × UState))) (x13 : List (Nat × XgSt)) (x14 : List (Nat × RcSt)) (x15 : List (Nat × ToneSt))
            (x16 : ToneBox) (x17 : Bool) (x18 : Bool) (x19 : Nat) (x20 : List (Nat × AxSt)) (x21 : List (Nat × AxsSt))
                (x22 : List (Nat × SeSt)) (x23 : List (Nat × TkSt)) (x24 : List (Nat × Option MapEntry)) (x25 : List (Nat × GlSt))
                    (x26 : List (Nat × RhSt)) (x27 : List (Nat × IpSt)) (x28 : List (Nat × SwSt)) (x29 : List (Nat × EmSt))
                        (x30 : List (Nat × CmpSt)) (x31 : List (Nat × TgSt)) (x32 : List (Nat × PgSt)) (x33 : List (Nat × Option KeepEnt))
                            (x34 : FmSt) (x35 : NetSt) (x36 : HstSt) (x37 : TwnSt) (x38 : HrdSt) (x39 : SecSt) (x40 : FltSt) (x41 : MonSt)
                                (x42 : ClkSt) (x43 : RstSt) :
    MemInv ⟨x0, x1, x2, x3, x4, x5, x6, x7, x8, x9, x10, x11, x12, x13, x14, x15, x16, x17, x18, x19, x20, x21, x22, x23, x24, x25, x26,
        x27, x28, x29, x30, x31, x32, x33, x34, x35, x36, x37, x38, x39, x40, x41, x42, x43⟩ = (Tbl.wf (constD (0 : Byte)) (x34.mem) = true) := rfl
theorem memInv_fold (s : State) : (Tbl.wf (constD (0 : Byte)) (s.fm.mem) = true) = MemInv s := rfl
theorem memInv_ite (c : Prop) [Decidable c] (a b : State) : MemInv (if c then a else b) = if c then MemInv a else MemInv b := apply_ite MemInv c a b
theorem memInv_ite_snd {α : Type} (c : Prop) [Decidable c] (a b : α × State) : MemInv (if c then a else b).2 = if c then MemInv a.2 else MemInv b.2 :=
  apply_ite (fun r : α × State => MemInv r.2) c a b
theorem memInv_ite_fst {α : Type} (c : Prop) [Decidable c] (a b : State × α) : MemInv (if c then a else b).1 = if c then MemInv a.1 else MemInv b.1 :=
  apply_ite (fun r : State × α => MemInv r.1) c a b
theorem memInv_foldl {α : Type} (f : State → α → State) (h : ∀ s a, MemInv (f s a) = MemInv s) : ∀ (l : List α)
    (s : State), MemInv (l.foldl f s) = MemInv s
  | [], _ => rfl
  | a :: l, s => (memInv_foldl f h l (f s a)).trans (h s a)
theorem memInv_foldl_snd {α β : Type} (f : β × State → α → β × State) (h : ∀ r a, MemInv (f r a).2 = MemInv r.2) :
    ∀ (l : List α) (r : β × State), MemInv (l.foldl f r).2 = MemInv r.2
  | [], _ => rfl
  | a :: l, r => (memInv_foldl_snd f h l (f r a)).trans (h r a)
theorem memInv_doFor {α : Type} (l : List α) (f : α → State → State) (h : ∀ a s, MemInv (f a s) = MemInv s) (s : State) :
    MemInv (doFor l f s) = MemInv s :=
  memInv_foldl _ (fun s a => h a s) l s

theorem memInv_drawNat (s : State) : MemInv (drawNat s).2 = MemInv s := (rfl)
theorem memInv_emit (x0 : Output) (s : State) : MemInv (emit x0 s) = MemInv s := (rfl)
theorem memInv_setInF (x0 : Nat) (x1 : Word) (s : State) : MemInv (setInF x0 x1 s) = MemInv s := (rfl)
theorem memInv_setShadow (x0 : Nat) (x1 : Word) (s : State) : MemInv (setShadow x0 x1 s) = MemInv s := (rfl)
theorem memInv_setRw (x0 : Nat) (x1 : Word) (s : State) : MemInv (setRw x0 x1 s) = MemInv s := (rfl)
theorem memInv_modUnit (x0 : Nat) (x1 : UnitSt → UnitSt) (s : State) : MemInv (modUnit x0 x1 s) = MemInv s := (rfl)
theorem memInv_modXg (x0 : Nat) (x1 : XgSt → XgSt) (s : State) : MemInv (modXg x0 x1 s) = MemInv s := (rfl)
theorem memInv_modRc (x0 : Nat) (x1 : RcSt → RcSt) (s : State) : MemInv (modRc x0 x1 s) = MemInv s := (rfl)
theorem memInv_modTone (x0 : Nat) (x1 : ToneSt → ToneSt) (s : State) : MemInv (modTone x0 x1 s) = MemInv s := (rfl)
theorem memInv_modAx (x0 : Nat) (x1 : AxSt → AxSt) (s : State) : MemInv (modAx x0 x1 s) = MemInv s := (rfl)
theorem memInv_modAxs (x0 : Nat) (x1 : AxsSt → AxsSt) (s : State) : MemInv (modAxs x0 x1 s) = MemInv s := (rfl)
theorem memInv_modSe (x0 : Nat) (x1 : SeSt → SeSt) (s : State) : MemInv (modSe x0 x1 s) = MemInv s := (rfl)
theorem memInv_modTk (x0 : Nat) (x1 : TkSt → TkSt) (s : State) : MemInv (modTk x0 x1 s) = MemInv s := (rfl)
theorem memInv_modGl (x0 : Nat) (x1 : GlSt → GlSt) (s : State) : MemInv (modGl x0 x1 s) = MemInv s := (rfl)
theorem memInv_modRh (x0 : Nat) (x1 : RhSt → RhSt) (s : State) : MemInv (modRh x0 x1 s) = MemInv s := (rfl)
theorem memInv_modIp (x0 : Nat) (x1 : IpSt → IpSt) (s : State) : MemInv (modIp x0 x1 s) = MemInv s := (rfl)
theorem memInv_modSw (x0 : Nat) (x1 : SwSt → SwSt) (s : State) : MemInv (modSw x0 x1 s) = MemInv s := (rfl)
theorem memInv_modEm (x0 : Nat) (x1 : EmSt → EmSt) (s : State) : MemInv (modEm x0 x1 s) = MemInv s := (rfl)
theorem memInv_modCmp (x0 : Nat) (x1 : CmpSt → CmpSt) (s : State) : MemInv (modCmp x0 x1 s) = MemInv s := (rfl)
theorem memInv_modTg (x0 : Nat) (x1 : TgSt → TgSt) (s : State) : MemInv (modTg x0 x1 s) = MemInv s := (rfl)
theorem memInv_modPg (x0 : Nat) (x1 : PgSt → PgSt) (s : State) : MemInv (modPg x0 x1 s) = MemInv s := (rfl)
theorem memInv_modTile (x0 : Nat) (x1 : TileSt → TileSt) (s : State) : MemInv (modTile x0 x1 s) = MemInv s := (rfl)
theorem memInv_modLed (x0 : Nat) (x1 : LedSt → LedSt) (s : State) : MemInv (modLed x0 x1 s) = MemInv s := (rfl)
theorem memInv_modFs (x0 : Nat) (x1 : FsSt → FsSt) (s : State) : MemInv (modFs x0 x1 s) = MemInv s := (rfl)
theorem memInv_modBbPort (x0 : Nat) (x1 : BbPort → BbPort) (s : State) : MemInv (modBbPort x0 x1 s) = MemInv s := (rfl)
theorem memInv_modStream (x0 : Nat) (x1 : StreamSt → StreamSt) (s : State) : MemInv (modStream x0 x1 s) = MemInv s := (rfl)
theorem memInv_modDma (x0 : Nat) (x1 : DmaSt → DmaSt) (s : State) : MemInv (modDma x0 x1 s) = MemInv s := (rfl)
theorem memInv_modTwinRes (x0 : Nat) (x1 : TwinRes → TwinRes) (s : State) : MemInv (modTwinRes x0 x1 s) = MemInv s := (rfl)
theorem memInv_modSession (x0 : Nat) (x1 : Session → Session) (s : State) : MemInv (modSession x0 x1 s) = MemInv s := (rfl)
theorem memInv_modTemp (x0 : Nat) (x1 : TempSt → TempSt) (s : State) : MemInv (modTemp x0 x1 s) = MemInv s := (rfl)
theorem memInv_maskRails (x0 : Nat) (x1 : Nat) (x2 : Nat) (s : State) : MemInv (maskRails x0 x1 x2 s) = MemInv s := (rfl)
theorem memInv_modRail (x0 : Nat) (x1 : RailSt → RailSt) (s : State) : MemInv (modRail x0 x1 s) = MemInv s := (rfl)
theorem memInv_numberFrames (x0 : Nat) (s : State) : MemInv (numberFrames x0 s) = MemInv s := (rfl)
theorem memInv_ledProduce (x0 : Nat) (x1 : Nat) (s : State) : MemInv (ledProduce x0 x1 s) = MemInv s := (rfl)
theorem memInv_ledConsume (x0 : Nat) (x1 : Nat) (s : State) : MemInv (ledConsume x0 x1 s) = MemInv s := (rfl)
theorem memInv_ledDrop (x0 : Nat) (x1 : Nat) (x2 : Nat) (s : State) : MemInv (ledDrop x0 x1 x2 s) = MemInv s := by
  unfold ledDrop
  simp only [memInv_ite, ite_self, memInv_modLed]
theorem memInv_queueMsg (x0 : Nat) (x1 : FaultMsg) (s : State) : MemInv (queueMsg x0 x1 s) = MemInv s := by
  unfold queueMsg
  simp only [memInv_mk, memInv_fold, memInv_ite, ite_self, memInv_ledProduce, memInv_ledDrop]
theorem memInv_raiseFault (x0 : Nat) (x1 : Nat) (x2 : Nat) (x3 : Nat) (s : State) : MemInv (raiseFault x0 x1 x2 x3 s) = MemInv s := by
  unfold raiseFault
  simp only [memInv_queueMsg]
theorem memInv_setCond (x0 : Nat) (x1 : Nat) (x2 : Nat) (x3 : Nat) (x4 : Bool) (x5 : Nat) (s : State) :
    MemInv (setCond x0 x1 x2 x3 x4 x5 s) = MemInv s := by
  unfold setCond
  simp only [memInv_mk, memInv_fold, memInv_ite, ite_self, memInv_raiseFault]
theorem memInv_clearCond (x0 : Nat) (x1 : Nat) (x2 : Nat) (s : State) : MemInv (clearCond x0 x1 x2 s) = MemInv s := (rfl)
theorem memInv_clearConds (x0 : Nat) (s : State) : MemInv (clearConds x0 s) = MemInv s := (rfl)
theorem memInv_sendVector (x0 : Nat) (s : State) : MemInv (sendVector x0 s) = MemInv s := by
  unfold sendVector
  simp only [memInv_mk, memInv_fold, memInv_ite, ite_self, memInv_emit]
theorem memInv_intSource (x0 : Nat) (s : State) : MemInv (intSource x0 s) = MemInv s := by
  unfold intSource
  simp only [memInv_ite, ite_self, memInv_sendVector]
theorem memInv_sendIbi (x0 : Nat) (s : State) : MemInv (sendIbi x0 s) = MemInv s := by
  unfold sendIbi
  simp only [memInv_ite, ite_self, memInv_emit]
theorem memInv_modTwn (x0 : TwnSt → TwnSt) (s : State) : MemInv (modTwn x0 s) = MemInv s := (rfl)
theorem memInv_twinSend (x0 : List Byte) (x1 : BitVec 128 → Output) (s : State) : MemInv (twinSend x0 x1 s) = MemInv s := by
  unfold twinSend
  simp only [memInv_ite, ite_self, memInv_emit, memInv_modTwn]
theorem memInv_sendTwin (x0 : TwinMsg) (s : State) : MemInv (sendTwin x0 s) = MemInv s := by
  unfold sendTwin
  simp only [memInv_twinSend]
theorem memInv_alarmEnter (s : State) : MemInv (alarmEnter s) = MemInv s := by
  unfold alarmEnter
  simp only [memInv_mk, memInv_fold, memInv_ite, ite_self, memInv_emit, memInv_sendIbi]
theorem memInv_alarmLeave (s : State) : MemInv (alarmLeave s) = MemInv s := by
  unfold alarmLeave
  simp only [memInv_mk, memInv_fold, memInv_ite, ite_self]
theorem memInv_showPins (x0 : State → Nat → PinLevel) (x1 s : State) : MemInv (showPins x0 x1 s) = MemInv s := by
  unfold showPins
  split <;> simp only [memInv_emit]
theorem memInv_setNow (x0 : Nat) (s : State) : MemInv (setNow x0 s) = MemInv s := (rfl)
theorem memInv_toneMail (x0 : Nat) (x1 : Nat) (x2 : Word) (x3 : Word) (x4 : Word) (s : State) : MemInv (toneMail x0 x1 x2 x3 x4 s) = MemInv s := by
  unfold toneMail
  simp only [memInv_mk, memInv_fold, memInv_intSource]
theorem memInv_toneCode (x0 : Nat) (x1 : Nat) (s : State) : MemInv (toneCode x0 x1 s) = MemInv s := by
  unfold toneCode
  simp only [memInv_toneMail]
theorem memInv_toneAbort (x0 : Nat) (s : State) : MemInv (toneAbort x0 s) = MemInv s := by
  unfold toneAbort
  split <;> simp only [memInv_ite, ite_self, memInv_modTone, memInv_toneCode]
theorem memInv_toneRefuse (x0 : Nat) (x1 : ToneReq → Bool) (s : State) : MemInv (toneRefuse x0 x1 s) = MemInv s := by
  unfold toneRefuse
  simp only [memInv_doFor, memInv_modTone, memInv_toneCode, implies_true]
theorem memInv_toneDrop (x0 : Nat) (s : State) : MemInv (toneDrop x0 s) = MemInv s := by
  unfold toneDrop
  simp only [memInv_toneAbort, memInv_toneRefuse]
theorem memInv_dropQueued (s : State) : MemInv (dropQueued s) = MemInv s := by
  unfold dropQueued
  simp only [memInv_doFor, memInv_ledConsume, memInv_ledDrop, implies_true]
theorem memInv_hubReset (s : State) : MemInv (hubReset s) = MemInv s := by
  unfold hubReset
  simp only [memInv_mk, memInv_fold, memInv_dropQueued]
theorem memInv_drawChal (s : State) : MemInv (drawChal s) = MemInv s := (rfl)
theorem memInv_odometerSave (s : State) : MemInv (odometerSave s) = MemInv s := (rfl)
theorem memInv_sliceReset (x0 : Nat) (s : State) : MemInv (sliceReset x0 s) = MemInv s := by
  unfold sliceReset
  simp only [memInv_mk, memInv_fold, memInv_doFor, memInv_ledDrop, memInv_toneDrop, implies_true]
theorem memInv_holdSlices (x0 : BitVec 8) (s : State) : MemInv (holdSlices x0 s) = MemInv s := by
  unfold holdSlices
  simp only [memInv_mk, memInv_fold, memInv_doFor, memInv_sliceReset, implies_true]
theorem memInv_openTile (x0 : Nat) (s : State) : MemInv (openTile x0 s) = MemInv s := (rfl)
theorem memInv_sealTile (x0 : Nat) (s : State) : MemInv (sealTile x0 s) = MemInv s := (rfl)
theorem memInv_tileFailed (x0 : Nat) (x1 : Nat) (s : State) : MemInv (tileFailed x0 x1 s) = MemInv s := by
  unfold tileFailed
  simp only [memInv_mk, memInv_fold, memInv_ite, ite_self, memInv_modTile, memInv_raiseFault]
theorem memInv_checkTile (x0 : Nat) (x1 : Nat) (s : State) : MemInv (checkTile x0 x1 s).2 = MemInv s := by
  unfold checkTile
  simp only [ite_self, memInv_tileFailed, memInv_ite_snd]
theorem memInv_takeMsgs : ∀ (l : List (Fin 28)) (s : State), MemInv (takeMsgs l s).2 = MemInv s
  | [], _ => rfl
  | q :: t, s => by
    unfold takeMsgs
    split
    · exact memInv_takeMsgs t s
    · exact (memInv_takeMsgs t _).trans ((memInv_ledConsume 8 1 _).trans rfl)
theorem memInv_countMsg (x0 : FaultMsg) (s : State) : MemInv (countMsg x0 s).2 = MemInv s := (rfl)
theorem memInv_countAll : ∀ (l : List Taken) (s : State), MemInv (countAll l s).2 = MemInv s
  | [], _ => rfl
  | x :: t, s => (memInv_countAll t _).trans (memInv_countMsg x.2 s)
theorem memInv_addEvent (x0 : Nat) (x1 : List Byte) (s : State) : MemInv (addEvent x0 x1 s) = MemInv s := (rfl)
theorem memInv_ringWrite (x0 : LogRec) (s : State) : MemInv (ringWrite x0 s) = MemInv s := by
  unfold ringWrite
  simp only [memInv_mk, memInv_fold, memInv_ite, ite_self]
theorem memInv_queueTrap (x0 : Nat) (x1 : FaultMsg) (s : State) : MemInv (queueTrap x0 x1 s) = MemInv s := by
  unfold queueTrap
  simp only [memInv_ite, ite_self, memInv_modSe, memInv_sendVector]
theorem memInv_startSlice (x0 : Nat) (s : State) : MemInv (startSlice x0 s) = MemInv s := by
  unfold startSlice
  simp only [memInv_mk, memInv_fold, memInv_sliceReset]
theorem memInv_releaseSlices (x0 : BitVec 8) (s : State) : MemInv (releaseSlices x0 s) = MemInv s := by
  unfold releaseSlices
  simp only [memInv_mk, memInv_fold, memInv_ite, ite_self, memInv_doFor, memInv_startSlice, implies_true]
theorem memInv_unitReset (x0 : Nat) (s : State) : MemInv (unitReset x0 s) = MemInv s := by
  unfold unitReset
  simp only [memInv_ite, ite_self, memInv_modUnit, memInv_holdSlices, memInv_releaseSlices]
theorem memInv_statusAccept (x0 : FaultMsg) (x1 : Nat) (s : State) : MemInv (statusAccept x0 x1 s) = MemInv s := by
  unfold statusAccept
  simp only []
  (repeat' split) <;> simp only [memInv_mk, memInv_fold, memInv_modUnit, memInv_modFs]
theorem memInv_applyReact (x0 : Nat) (x1 : Nat) (x2 : FaultMsg) (s : State) : MemInv (applyReact x0 x1 x2 s) = MemInv s := by
  unfold applyReact
  simp only [memInv_ite, ite_self, memInv_modFs, memInv_intSource, memInv_queueTrap, memInv_unitReset]
theorem memInv_closeWindow (x0 : Nat) (s : State) : MemInv (closeWindow x0 s) = MemInv s := by
  unfold closeWindow
  split <;> simp only [memInv_ite, ite_self, memInv_modFs]
theorem memInv_clearLatched (x0 : Nat) (s : State) : MemInv (clearLatched x0 s) = MemInv s := by
  unfold clearLatched
  simp only [memInv_ite, ite_self, memInv_modFs, memInv_alarmLeave]
theorem memInv_clearFirstFault (s : State) : MemInv (clearFirstFault s) = MemInv s := (rfl)
theorem memInv_clearHbLost (s : State) : MemInv (clearHbLost s) = MemInv s := by
  unfold clearHbLost
  simp only [memInv_mk, memInv_fold, memInv_ite, ite_self, memInv_alarmLeave]
theorem memInv_ackEscalation (x0 : Nat) (x1 : Word) (s : State) : MemInv (ackEscalation x0 x1 s) = MemInv s := by
  unfold ackEscalation
  simp only [memInv_ite, ite_self, memInv_modUnit]
theorem memInv_expireEscalation (x0 : Nat) (s : State) : MemInv (expireEscalation x0 s) = MemInv s := by
  unfold expireEscalation
  simp only [memInv_ite, ite_self, memInv_modUnit, memInv_raiseFault]
theorem memInv_alarmExit (x0 : Nat) (s : State) : MemInv (alarmExit x0 s) = MemInv s := by
  unfold alarmExit
  simp only [memInv_mk, memInv_fold, memInv_ite, ite_self, memInv_emit]
theorem memInv_alarmToggle (x0 : Nat) (s : State) : MemInv (alarmToggle x0 s) = MemInv s := by
  unfold alarmToggle
  simp only [memInv_mk, memInv_fold, memInv_ite, ite_self, memInv_emit, memInv_alarmExit]
theorem memInv_heartbeat (x0 : Nat) (s : State) : MemInv (heartbeat x0 s) = MemInv s := by
  unfold heartbeat
  simp only [memInv_mk, memInv_fold, memInv_ite, ite_self, memInv_raiseFault]
theorem memInv_heartbeatLost (x0 : Nat) (s : State) : MemInv (heartbeatLost x0 s) = MemInv s := by
  unfold heartbeatLost
  simp only [memInv_mk, memInv_fold, memInv_ite, ite_self, memInv_alarmEnter]
theorem memInv_tempConvert (x0 : Nat) (x1 : Int) (x2 : Bool) (s : State) : MemInv (tempConvert x0 x1 x2 s) = MemInv s := by
  unfold tempConvert
  simp only [memInv_ite, ite_self, memInv_modTemp, memInv_setCond]
theorem memInv_railSample (x0 : Nat) (x1 : Nat) (s : State) : MemInv (railSample x0 x1 s) = MemInv s := by
  unfold railSample
  simp only [memInv_ite, ite_self, memInv_modRail, memInv_setCond]
theorem memInv_roMeasure (x0 : Nat) (x1 : Nat) (x2 : Int) (s : State) : MemInv (roMeasure x0 x1 x2 s) = MemInv s := by
  unfold roMeasure
  simp only [memInv_mk, memInv_fold, memInv_ite, ite_self, memInv_raiseFault]
theorem memInv_agingMeasure (x0 : Nat) (x1 : Nat) (s : State) : MemInv (agingMeasure x0 x1 s) = MemInv s := by
  unfold agingMeasure
  simp only [memInv_mk, memInv_fold, memInv_setCond]
theorem memInv_odometerTick (s : State) : MemInv (odometerTick s) = MemInv s := by
  unfold odometerTick
  simp only [memInv_mk, memInv_fold, memInv_ite, ite_self, memInv_raiseFault, memInv_odometerSave]
theorem memInv_pllLost (x0 : Nat) (s : State) : MemInv (pllLost x0 s) = MemInv s := by
  unfold pllLost
  simp only [memInv_mk, memInv_fold, memInv_ite, ite_self, memInv_raiseFault]
theorem memInv_setModErr (x0 : Int) (s : State) : MemInv (setModErr x0 s) = MemInv s := by
  unfold setModErr
  simp only [memInv_mk, memInv_fold, memInv_ite, ite_self, memInv_raiseFault]
theorem memInv_slewGrid (s : State) : MemInv (slewGrid s) = MemInv s := by
  unfold slewGrid
  simp only [memInv_ite, ite_self, memInv_setModErr]
theorem memInv_pllLock (x0 : Nat) (x1 : Bool) (s : State) : MemInv (pllLock x0 x1 s) = MemInv s := by
  unfold pllLock
  simp only [memInv_mk, memInv_fold, memInv_ite, ite_self, memInv_drawNat, memInv_startSlice, memInv_setModErr]
theorem memInv_refLost (s : State) : MemInv (refLost s) = MemInv s := by
  unfold refLost
  simp only [memInv_mk, memInv_fold, memInv_ite, ite_self, memInv_raiseFault]
theorem memInv_refReturn (s : State) : MemInv (refReturn s) = MemInv s := by
  unfold refReturn
  simp only [memInv_mk, memInv_fold, memInv_ite, ite_self, memInv_raiseFault]
theorem memInv_holdoverExpiry (s : State) : MemInv (holdoverExpiry s) = MemInv s := by
  unfold holdoverExpiry
  simp only [memInv_mk, memInv_fold, memInv_ite, ite_self, memInv_doFor, memInv_pllLost, implies_true]
theorem memInv_rcTrim (x0 : BitVec 16) (s : State) : MemInv (rcTrim x0 s) = MemInv s := by
  unfold rcTrim
  simp only [memInv_mk, memInv_fold, memInv_ite, ite_self]
theorem memInv_xtalFail (s : State) : MemInv (xtalFail s) = MemInv s := by
  unfold xtalFail
  simp only [memInv_mk, memInv_fold, memInv_ite, ite_self, memInv_raiseFault]
theorem memInv_actRefuse (x0 : Nat) (s : State) : MemInv (actRefuse x0 s) = MemInv s := by
  unfold actRefuse
  simp only [memInv_mk, memInv_fold, memInv_raiseFault]
theorem memInv_actRequest (x0 : Nat) (x1 : Bool) (s : State) : MemInv (actRequest x0 x1 s) = MemInv s := by
  unfold actRequest
  simp only [memInv_mk, memInv_fold, memInv_ite, ite_self, memInv_maskRails, memInv_actRefuse]
theorem memInv_actEnd (x0 : Nat) (s : State) : MemInv (actEnd x0 s) = MemInv s := (rfl)
theorem memInv_actBoundary (x0 : Nat) (s : State) : MemInv (actBoundary x0 s) = MemInv s := by
  unfold actBoundary
  (repeat' split) <;> simp only [memInv_mk, memInv_fold, memInv_raiseFault, memInv_odometerSave, memInv_actEnd]
theorem memInv_wakeReady (s : State) : MemInv (wakeReady s) = MemInv s := by
  unfold wakeReady
  simp only [memInv_mk, memInv_fold, memInv_ite, ite_self]
theorem memInv_wakeTimeout (s : State) : MemInv (wakeTimeout s) = MemInv s := by
  unfold wakeTimeout
  simp only [memInv_ite, ite_self, memInv_raiseFault, memInv_actEnd]
theorem memInv_wakeSource (x0 : WakeSrc) (s : State) : MemInv (wakeSource x0 s) = MemInv s := by
  unfold wakeSource
  simp only [memInv_mk, memInv_fold, memInv_ite, ite_self, memInv_emit, memInv_maskRails, memInv_actEnd]
theorem memInv_cycleStart (x0 : Nat) (x1 : Nat) (s : State) : MemInv (cycleStart x0 x1 s) = MemInv s := (rfl)
theorem memInv_toneCycle (x0 : Nat) (x1 : Nat) (s : State) : MemInv (toneCycle x0 x1 s) = MemInv s := (rfl)
theorem memInv_handoverDrive (x0 : Nat) (s : State) : MemInv (handoverDrive x0 s) = MemInv s := (rfl)
theorem memInv_loopLimit (x0 : Nat) (x1 : Nat) (s : State) : MemInv (loopLimit x0 x1 s) = MemInv s := by
  unfold loopLimit
  simp only [memInv_modXg, memInv_setCond]
theorem memInv_loopUpdate (x0 : Nat) (x1 : Nat) (s : State) : MemInv (loopUpdate x0 x1 s) = MemInv s := by
  unfold loopUpdate
  simp only [memInv_modXg, memInv_loopLimit]
theorem memInv_burstStart (x0 : Nat) (x1 : Nat) (s : State) : MemInv (burstStart x0 x1 s) = MemInv s := by
  unfold burstStart
  simp only [memInv_ite, ite_self, memInv_modXg, memInv_loopUpdate]
theorem memInv_burstEnd (x0 : Nat) (x1 : Nat) (s : State) : MemInv (burstEnd x0 x1 s) = MemInv s := (rfl)
theorem memInv_governor (x0 : Nat) (x1 : Nat) (s : State) : MemInv (governor x0 x1 s) = MemInv s := (rfl)
theorem memInv_tripGroup (x0 : Nat) (s : State) : MemInv (tripGroup x0 s) = MemInv s := (rfl)
theorem memInv_senseWindows (x0 : Nat) (x1 : Nat) (x2 : Nat) (x3 : Int) (s : State) : MemInv (senseWindows x0 x1 x2 x3 s) = MemInv s := by
  unfold senseWindows
  simp only [memInv_ite, ite_self, memInv_modUnit, memInv_modXg, memInv_setCond, memInv_tripGroup]
theorem memInv_senseGap (x0 : Nat) (x1 : Nat) (s : State) : MemInv (senseGap x0 x1 s) = MemInv s := by
  unfold senseGap
  simp only [memInv_modXg, memInv_setCond]
theorem memInv_senseCycle (x0 : Nat) (x1 : Nat) (x2 : Nat) (x3 : Int) (s : State) : MemInv (senseCycle x0 x1 x2 x3 s) = MemInv s := by
  unfold senseCycle
  simp only []
  (repeat' split) <;> simp only [memInv_modXg, memInv_loopUpdate, memInv_senseWindows, memInv_senseGap]
theorem memInv_groupPrepare (x0 : Nat) (s : State) : MemInv (groupPrepare x0 s) = MemInv s := (rfl)
theorem memInv_toBursts (x0 : Nat) (x1 : Nat) (s : State) : MemInv (toBursts x0 x1 s) = MemInv s := (rfl)
theorem memInv_toContinuous (x0 : Nat) (x1 : Nat) (s : State) : MemInv (toContinuous x0 x1 s) = MemInv s := (rfl)
theorem memInv_loopOff (x0 : Nat) (s : State) : MemInv (loopOff x0 s) = MemInv s := (rfl)
theorem memInv_groupReady (x0 : Nat) (x1 : Nat) (s : State) : MemInv (groupReady x0 x1 s) = MemInv s := by
  unfold groupReady
  simp only [memInv_ite, ite_self, memInv_toBursts]
theorem memInv_groupOff (x0 : Nat) (s : State) : MemInv (groupOff x0 s) = MemInv s := (rfl)
theorem memInv_groupClear (x0 : Nat) (s : State) : MemInv (groupClear x0 s) = MemInv s := (rfl)
theorem memInv_setOwner (x0 : Nat) (x1 : Bool) (s : State) : MemInv (setOwner x0 x1 s) = MemInv s := by
  unfold setOwner
  simp only [memInv_ite, ite_self, memInv_modXg, memInv_toneAbort]
theorem memInv_xgCtrlChange (x0 : Nat) (x1 : Nat) (x2 : Word) (s : State) : MemInv (xgCtrlChange x0 x1 x2 s).2 = MemInv s := by
  unfold xgCtrlChange
  simp only [memInv_ite, ite_self, memInv_setShadow, memInv_raiseFault, memInv_toBursts, memInv_toContinuous, memInv_loopOff]
theorem memInv_dutyFrame (x0 : Nat) (x1 : Nat) (s : State) : MemInv (dutyFrame x0 x1 s) = MemInv s := (rfl)
theorem memInv_windowCheck (x0 : Nat) (x1 : Nat) (x2 : Nat) (x3 : Bool) (x4 : Word) (x5 : Nat) (x6 : List Nat) (s : State) :
    MemInv (windowCheck x0 x1 x2 x3 x4 x5 x6 s) = MemInv s := by
  unfold windowCheck
  simp only [memInv_ite, ite_self, memInv_modRc, memInv_setCond, memInv_clearCond]
theorem memInv_envelopeCheck (x0 : Nat) (x1 : Nat) (x2 : Nat) (x3 : Nat) (s : State) : MemInv (envelopeCheck x0 x1 x2 x3 s) = MemInv s := by
  unfold envelopeCheck
  split <;> simp only [memInv_ite, ite_self, memInv_modRc, memInv_setCond, memInv_clearCond]
theorem memInv_overrange (x0 : Nat) (x1 : Nat) (x2 : Int) (x3 : Int) (s : State) : MemInv (overrange x0 x1 x2 x3 s) = MemInv s := by
  unfold overrange
  simp only [memInv_mk, memInv_fold, memInv_ite, ite_self, memInv_modRc, memInv_raiseFault]
theorem memInv_toneSample (x0 : Nat) (x1 : Nat) (x2 : Int) (x3 : Int) (s : State) : MemInv (toneSample x0 x1 x2 x3 s) = MemInv s := by
  unfold toneSample
  simp only [memInv_ite, ite_self, memInv_modTone]
theorem memInv_toneWindow (x0 : Nat) (x1 : BitVec 8) (s : State) : MemInv (toneWindow x0 x1 s) = MemInv s := by
  unfold toneWindow
  split <;> simp only [memInv_ite, ite_self, memInv_toneAbort]
theorem memInv_toneReport (x0 : Nat) (x1 : ToneRun) (x2 : Nat × Int × Nat) (x3 : Nat × Int × Nat) (s : State) :
    MemInv (toneReport x0 x1 x2 x3 s) = MemInv s := by
  unfold toneReport
  simp only [memInv_ite, ite_self, memInv_modRc, memInv_modTone, memInv_raiseFault, memInv_toneMail]
theorem memInv_toneComplete (x0 : Nat) (x1 : Nat) (x2 : Nat) (x3 : Int) (x4 : Int) (x5 : Nat) (x6 : Nat) (s : State) :
    MemInv (toneComplete x0 x1 x2 x3 x4 x5 x6 s) = MemInv s := by
  unfold toneComplete
  split <;> simp only [memInv_ite, ite_self, memInv_toneReport]
theorem memInv_toneTimeout (x0 : Nat) (s : State) : MemInv (toneTimeout x0 s) = MemInv s := by
  unfold toneTimeout
  split <;> simp only [memInv_ite, ite_self, memInv_toneAbort]
theorem memInv_toneRequest (x0 : Word) (x1 : Nat) (s : State) : MemInv (toneRequest x0 x1 s) = MemInv s := by
  unfold toneRequest
  simp only [memInv_mk, memInv_fold, memInv_ite, ite_self, memInv_modTone, memInv_raiseFault, memInv_sendTwin, memInv_toneCode]
theorem memInv_toneBoundary (x0 : Nat) (x1 : Nat) (s : State) : MemInv (toneBoundary x0 x1 s) = MemInv s := by
  unfold toneBoundary
  simp only []
  (repeat' split) <;> simp only [memInv_modTone, memInv_toneAbort, memInv_toneRefuse]
theorem memInv_chanSample (x0 : Nat) (x1 : ChanSample) (s : State) : MemInv (chanSample x0 x1 s) = MemInv s := by
  unfold chanSample
  simp only [memInv_ite, ite_self, memInv_modRc, memInv_modSe, memInv_windowCheck, memInv_envelopeCheck, memInv_overrange,
      memInv_toneSample, memInv_toneWindow]
theorem memInv_senseSample (x0 : SensePins) (s : State) : MemInv (senseSample x0 s) = MemInv s := by
  unfold senseSample
  simp only [memInv_modRc, memInv_windowCheck]
theorem memInv_captureOpen (x0 : Nat) (x1 : Nat) (s : State) : MemInv (captureOpen x0 x1 s) = MemInv s := by
  unfold captureOpen
  simp only [memInv_ite, ite_self, memInv_doFor, memInv_modSe, memInv_ledProduce, memInv_ledDrop, memInv_raiseFault, implies_true]
theorem memInv_captureSample (x0 : Nat) (x1 : List ChanSample) (x2 : List SensePins) (s : State) : MemInv (captureSample x0 x1 x2 s) = MemInv s := by
  unfold captureSample
  simp only [memInv_mk, memInv_fold, memInv_doFor, memInv_sendTwin, memInv_chanSample, memInv_senseSample, memInv_captureOpen, implies_true]
theorem memInv_setBiasSplit (x0 : Bool) (s : State) : MemInv (setBiasSplit x0 s) = MemInv s := by
  unfold setBiasSplit
  simp only [memInv_mk, memInv_fold, memInv_ite, ite_self, memInv_doFor, memInv_modRc, implies_true]
theorem memInv_engineReload (x0 : Nat) (s : State) : MemInv (engineReload x0 s) = MemInv s := (rfl)
theorem memInv_firstoreBank (x0 : Nat) (s : State) : MemInv (firstoreBank x0 s).2 = MemInv s := by
  unfold firstoreBank
  split <;> simp only [ite_self, memInv_checkTile, memInv_foldl_snd, implies_true, memInv_ite_snd]
theorem memInv_enginePrepare (x0 : Nat) (s : State) : MemInv (enginePrepare x0 s) = MemInv s := by
  unfold enginePrepare
  simp only []
  (repeat' split) <;> simp only [memInv_modSe, memInv_engineReload, memInv_firstoreBank]
theorem memInv_settleSwap (x0 : Nat) (x1 : Nat) (s : State) : MemInv (settleSwap x0 x1 s) = MemInv s := by
  unfold settleSwap
  simp only []
  (repeat' split) <;> simp only [memInv_modSe]
theorem memInv_settleSwaps (x0 : Nat) (x1 : Nat) (s : State) : MemInv (settleSwaps x0 x1 s) = MemInv s := by
  unfold settleSwaps
  simp only [memInv_settleSwap]
theorem memInv_countBoundary (x0 : Nat) (x1 : Nat) (x2 : Nat) (s : State) : MemInv (countBoundary x0 x1 x2 s).2 = MemInv s := by
  unfold countBoundary
  simp only []
  (repeat' split) <;> simp only [memInv_modSe, memInv_settleSwaps]
theorem memInv_swapBoundary (x0 : Nat) (x1 : Nat) (x2 : Bool) (s : State) : MemInv (swapBoundary x0 x1 x2 s).2 = MemInv s := by
  unfold swapBoundary
  simp only []
  (repeat' split) <;> simp only [memInv_setShadow, memInv_modSe, memInv_raiseFault, memInv_settleSwaps]
theorem memInv_latchXf (x0 : State) (s : State) : MemInv (latchXf x0 s) = MemInv s := by
  unfold latchXf
  simp only [memInv_doFor, memInv_modSe, implies_true]
theorem memInv_engineStop (x0 : Nat) (s : State) : MemInv (engineStop x0 s) = MemInv s := by
  unfold engineStop
  simp only [memInv_modSe, memInv_ledDrop]
theorem memInv_bankWrite (x0 : Nat) (x1 : Bool) (x2 : Nat) (x3 : Word) (s : State) : MemInv (bankWrite x0 x1 x2 x3 s) = MemInv s := by
  unfold bankWrite
  simp only [memInv_ite, ite_self, memInv_modSe, memInv_raiseFault]
theorem memInv_seException (x0 : Nat) (x1 : Nat) (s : State) : MemInv (seException x0 x1 s) = MemInv s := by
  unfold seException
  simp only [memInv_modSe, memInv_raiseFault]
theorem memInv_seOverrun (x0 : Nat) (s : State) : MemInv (seOverrun x0 s) = MemInv s := by
  unfold seOverrun
  simp only [memInv_modSe, memInv_raiseFault]
theorem memInv_readHits (x0 : Nat) (x1 : SeMem) : ∀ (l : List Nat) (s : State), MemInv (readHits x0 x1 l s).2 = MemInv s
  | [], _ => rfl
  | a :: t, s => by
    unfold readHits
    split
    · exact memInv_readHits x0 x1 t s
    · split
      · exact memInv_raiseFault _ _ _ _ s
      · exact (memInv_readHits x0 x1 t _).trans (memInv_modSe _ _ s)
theorem memInv_seOp (x0 : Nat) (x1 : List Nat) (x2 : Nat) (x3 : List (Nat × Nat)) (x4 : State → State × SeRes) (h : ∀ s, MemInv (x4 s).1 = MemInv s)
    (s : State) : MemInv (seOp x0 x1 x2 x3 x4 s) = MemInv s := by
  unfold seOp
  simp only []
  (repeat' split) <;> simp only [memInv_modSe, memInv_seException, memInv_seOverrun, h]
theorem memInv_seReg (x0 : Nat) (x1 : SeSt → SeSt) (s : State) : MemInv (seReg x0 x1 s).1 = MemInv s := (rfl)
theorem memInv_seRead (x0 : Nat) (x1 : SeMem) (x2 : List Nat) (x3 : SeSt → SeSt) (s : State) : MemInv (seRead x0 x1 x2 x3 s).1 = MemInv s := by
  unfold seRead
  simp only [ite_self, memInv_modSe, memInv_readHits, memInv_ite_fst]
theorem memInv_opNop (x0 : Nat) (x1 : SeFields) (s : State) : MemInv (opNop x0 x1 s) = MemInv s := by
  unfold opNop
  simp only [memInv_seOp, implies_true]
theorem memInv_opMovi (x0 : Nat) (x1 : SeFields) (s : State) : MemInv (opMovi x0 x1 s) = MemInv s := by
  unfold opMovi
  simp only [memInv_seOp, memInv_seReg, implies_true]
theorem memInv_opSadd (x0 : Nat) (x1 : SeFields) (s : State) : MemInv (opSadd x0 x1 s) = MemInv s := by
  unfold opSadd
  simp only [memInv_seOp, memInv_seReg, implies_true]
theorem memInv_opLds (x0 : Nat) (x1 : SeFields) (s : State) : MemInv (opLds x0 x1 s) = MemInv s := by
  unfold opLds
  simp only [ite_self, memInv_seOp, memInv_seRead, implies_true, memInv_ite_fst]
theorem memInv_opSts (x0 : Nat) (x1 : SeFields) (s : State) : MemInv (opSts x0 x1 s) = MemInv s := by
  unfold opSts
  simp only [ite_self, memInv_seOp, memInv_seReg, implies_true, memInv_ite_fst]
theorem memInv_opLdv (x0 : Nat) (x1 : SeFields) (s : State) : MemInv (opLdv x0 x1 s) = MemInv s := by
  unfold opLdv
  simp only [ite_self, memInv_seOp, memInv_seRead, implies_true, memInv_ite_fst]
theorem memInv_opStv (x0 : Nat) (x1 : SeFields) (s : State) : MemInv (opStv x0 x1 s) = MemInv s := by
  unfold opStv
  simp only [ite_self, memInv_seOp, memInv_seReg, implies_true, memInv_ite_fst]
theorem memInv_opLdc (x0 : Nat) (x1 : SeFields) (s : State) : MemInv (opLdc x0 x1 s) = MemInv s := by
  unfold opLdc
  simp only [ite_self, memInv_seOp, memInv_seRead, implies_true, memInv_ite_fst]
theorem memInv_noteEntry (x0 : Nat) (x1 : FifoEnt) (s : State) : MemInv (noteEntry x0 x1 s) = MemInv s := (rfl)
theorem memInv_capLane (x0 : Nat) (x1 : SeFields) (s : State) : MemInv (capLane x0 x1 s) = MemInv s := by
  unfold capLane
  simp only [memInv_ite, ite_self, memInv_modSe, memInv_ledConsume]
theorem memInv_capAux (x0 : Nat) (x1 : SeFields) (s : State) : MemInv (capAux x0 x1 s) = MemInv s := by
  unfold capAux
  split <;> simp only [memInv_modSe, memInv_ledConsume, memInv_noteEntry]
theorem memInv_opCap (x0 : Nat) (x1 : SeFields) (s : State) : MemInv (opCap x0 x1 s) = MemInv s := by
  unfold opCap
  simp only [memInv_ite, ite_self, memInv_seOp, memInv_capLane, memInv_capAux, implies_true]
theorem memInv_opCtx (x0 : Nat) (x1 : SeFields) (s : State) : MemInv (opCtx x0 x1 s) = MemInv s := by
  unfold opCtx
  simp only [ite_self, memInv_seOp, memInv_seReg, implies_true, memInv_ite_fst]
theorem memInv_opMac (x0 : Nat) (x1 : SeFields) (s : State) : MemInv (opMac x0 x1 s) = MemInv s := by
  unfold opMac
  simp only [memInv_seOp, memInv_seReg, implies_true]
theorem memInv_opMacm (x0 : Nat) (x1 : SeFields) (s : State) : MemInv (opMacm x0 x1 s) = MemInv s := by
  unfold opMacm
  simp only [ite_self, memInv_readHits, memInv_seOp, memInv_seRead, implies_true, memInv_ite_fst]
theorem memInv_opHsum (x0 : Nat) (x1 : SeFields) (s : State) : MemInv (opHsum x0 x1 s) = MemInv s := by
  unfold opHsum
  simp only [memInv_seOp, memInv_seReg, implies_true]
theorem memInv_opRnd (x0 : Nat) (x1 : SeFields) (s : State) : MemInv (opRnd x0 x1 s) = MemInv s := by
  unfold opRnd
  simp only [memInv_seOp, memInv_seReg, implies_true]
theorem memInv_opVec2 (x0 : Nat) (x1 : SeFields) (x2 : Int → Int → Int) (s : State) : MemInv (opVec2 x0 x1 x2 s) = MemInv s := by
  unfold opVec2
  simp only [memInv_seOp, memInv_seReg, implies_true]
theorem memInv_opAdd (x0 : Nat) (x1 : SeFields) (s : State) : MemInv (opAdd x0 x1 s) = MemInv s := by
  unfold opAdd
  simp only [memInv_opVec2]
theorem memInv_opSub (x0 : Nat) (x1 : SeFields) (s : State) : MemInv (opSub x0 x1 s) = MemInv s := by
  unfold opSub
  simp only [memInv_opVec2]
theorem memInv_opAbs (x0 : Nat) (x1 : SeFields) (s : State) : MemInv (opAbs x0 x1 s) = MemInv s := by
  unfold opAbs
  simp only [memInv_seOp, memInv_seReg, implies_true]
theorem memInv_opMnx (x0 : Nat) (x1 : SeFields) (s : State) : MemInv (opMnx x0 x1 s) = MemInv s := by
  unfold opMnx
  simp only [memInv_opVec2]
theorem memInv_opShf (x0 : Nat) (x1 : SeFields) (s : State) : MemInv (opShf x0 x1 s) = MemInv s := by
  unfold opShf
  simp only [memInv_seOp, memInv_seReg, implies_true]
theorem memInv_opCmp (x0 : Nat) (x1 : SeFields) (s : State) : MemInv (opCmp x0 x1 s) = MemInv s := by
  unfold opCmp
  simp only [ite_self, memInv_seOp, memInv_seReg, implies_true, memInv_ite_fst]
theorem memInv_opSel (x0 : Nat) (x1 : SeFields) (s : State) : MemInv (opSel x0 x1 s) = MemInv s := by
  unfold opSel
  simp only [memInv_seOp, memInv_seReg, implies_true]
theorem memInv_opBq (x0 : Nat) (x1 : SeFields) (s : State) : MemInv (opBq x0 x1 s) = MemInv s := by
  unfold opBq
  simp only [ite_self, memInv_readHits, memInv_seOp, memInv_seRead, implies_true, memInv_ite_fst]
theorem memInv_opSqrt (x0 : Nat) (x1 : SeFields) (s : State) : MemInv (opSqrt x0 x1 s) = MemInv s := by
  unfold opSqrt
  simp only [memInv_seOp, memInv_seReg, implies_true]
theorem memInv_opLoop (x0 : Nat) (x1 : SeFields) (s : State) : MemInv (opLoop x0 x1 s) = MemInv s := by
  unfold opLoop
  simp only [ite_self, memInv_seOp, memInv_seReg, implies_true, memInv_ite_fst]
theorem memInv_opBr (x0 : Nat) (x1 : SeFields) (s : State) : MemInv (opBr x0 x1 s) = MemInv s := by
  unfold opBr
  simp only [ite_self, memInv_seOp, implies_true, memInv_ite_fst]
theorem memInv_opRaise (x0 : Nat) (x1 : SeFields) (s : State) : MemInv (opRaise x0 x1 s) = MemInv s := by
  unfold opRaise
  simp only [ite_self, memInv_raiseFault, memInv_seOp, implies_true, memInv_ite_fst]
theorem memInv_opOut (x0 : Nat) (x1 : SeFields) (s : State) : MemInv (opOut x0 x1 s) = MemInv s := by
  unfold opOut
  simp only [ite_self, memInv_seOp, memInv_seReg, implies_true, memInv_ite_fst]
theorem memInv_deliverChan (x0 : Nat) (x1 : Nat) (x2 : Nat) (x3 : Staged) (s : State) : MemInv (deliverChan x0 x1 x2 x3 s) = MemInv s := by
  unfold deliverChan
  simp only [memInv_ite, ite_self, memInv_modTk]
theorem memInv_deliverExt (x0 : Nat) (x1 : Nat) (x2 : Nat) (x3 : Staged) (s : State) : MemInv (deliverExt x0 x1 x2 x3 s) = MemInv s := by
  unfold deliverExt
  simp only [memInv_ite, ite_self, memInv_modTk]
theorem memInv_auxPrepCheck (x0 : Nat) (s : State) : MemInv (auxPrepCheck x0 s) = MemInv s := by
  unfold auxPrepCheck
  simp only [memInv_ite, ite_self, memInv_modUnit]
theorem memInv_deliverAux (x0 : Nat) (x1 : FifoEnt) (x2 : Staged) (s : State) : MemInv (deliverAux x0 x1 x2 s) = MemInv s := by
  unfold deliverAux
  simp only [memInv_modAx, memInv_auxPrepCheck]
theorem memInv_deliverDet (x0 : Nat) (x1 : FifoEnt) (x2 : Staged) (s : State) : MemInv (deliverDet x0 x1 x2 s) = MemInv s := (rfl)
theorem memInv_deliver (x0 : Nat) (x1 : Staged) (s : State) : MemInv (deliver x0 x1 s) = MemInv s := by
  unfold deliver
  (repeat' split) <;> simp only [memInv_doFor, memInv_deliverChan, memInv_deliverExt, memInv_deliverAux, memInv_deliverDet, implies_true]
theorem memInv_opYield (x0 : Nat) (x1 : SeFields) (s : State) : MemInv (opYield x0 x1 s) = MemInv s := by
  unfold opYield
  simp only [memInv_doFor, memInv_modSe, memInv_seOp, memInv_deliver, implies_true]
theorem memInv_opIllegal (x0 : Nat) (s : State) : MemInv (opIllegal x0 s) = MemInv s := by
  unfold opIllegal
  simp only [memInv_seOp, implies_true]
theorem memInv_withHit (x0 : Nat) (x1 : SeMem) (x2 : Nat) (x3 : MemErr) (x4 : State → State) (h : ∀ s, MemInv (x4 s) = MemInv s) (s : State) :
    MemInv (withHit x0 x1 x2 x3 x4 s) = MemInv s := by
  unfold withHit
  split <;> simp only [memInv_modSe, h]
theorem memInv_seInstr (x0 : Nat) (x1 : Nat) (x2 : SeFields) (s : State) : MemInv (seInstr x0 x1 x2 s) = MemInv s := by
  unfold seInstr
  split <;> simp only [memInv_opNop, memInv_opMovi, memInv_opSadd, memInv_opLds, memInv_opSts, memInv_opLdv, memInv_opStv,
      memInv_opLdc, memInv_opCap, memInv_opCtx, memInv_opMac, memInv_opMacm, memInv_opHsum, memInv_opRnd, memInv_opAdd,
          memInv_opSub, memInv_opAbs, memInv_opMnx, memInv_opShf, memInv_opCmp, memInv_opSel, memInv_opBq, memInv_opSqrt,
              memInv_opLoop, memInv_opBr, memInv_opRaise, memInv_opOut, memInv_opYield, memInv_opIllegal]
theorem memInv_seFetch (x0 : Nat) (s : State) : MemInv (seFetch x0 s) = MemInv s := by
  unfold seFetch
  simp only [memInv_ite, ite_self, memInv_seException, memInv_readHits, memInv_seInstr]
theorem memInv_runSlot (x0 : Nat) : ∀ (n : Nat) (s : State), MemInv (runSlot x0 n s) = MemInv s
  | 0, _ => rfl
  | n + 1, s => by
    unfold runSlot
    split
    · rfl
    · exact (memInv_runSlot x0 n _).trans (memInv_seFetch x0 s)
theorem memInv_startSlot (x0 : Nat) (x1 : Nat) (x2 : Nat) (x3 : Nat) (x4 : Nat) (x5 : Word) (x6 : Word) (x7 : Nat) (x8 : FaultMsg)
    (x9 : Option (Nat × Nat)) (s : State) : MemInv (startSlot x0 x1 x2 x3 x4 x5 x6 x7 x8 x9 s) = MemInv s := (rfl)
theorem memInv_laneSlot (x0 : Nat) (x1 : Nat) (x2 : Nat) (s : State) : MemInv (laneSlot x0 x1 x2 s) = MemInv s := by
  unfold laneSlot
  simp only [memInv_ite, ite_self, memInv_doFor, memInv_modSe, memInv_modTk, memInv_ledDrop, memInv_raiseFault,
      memInv_countBoundary, memInv_runSlot, memInv_startSlot, implies_true, memInv_ite_snd]
theorem memInv_auxSlotRun (x0 : Nat) (x1 : Nat) (s : State) : MemInv (auxSlotRun x0 x1 s) = MemInv s := by
  unfold auxSlotRun
  split <;> simp only [memInv_modSe, memInv_runSlot, memInv_startSlot]
theorem memInv_sePass (x0 : Nat) (x1 : Nat) (x2 : List EccHit) (s : State) : MemInv (sePass x0 x1 x2 s) = MemInv s := by
  unfold sePass
  simp only [memInv_ite, ite_self, memInv_doFor, memInv_modUnit, memInv_modSe, memInv_settleSwaps, memInv_laneSlot, memInv_auxSlotRun, implies_true]
theorem memInv_noteSwapRequest (x0 : Nat) (x1 : Word) (s : State) : MemInv (noteSwapRequest x0 x1 s) = MemInv s := (rfl)
theorem memInv_stepTo (x0 : Nat) (x1 : Nat) (s : State) : MemInv (stepTo x0 x1 s) = MemInv s := by
  unfold stepTo
  simp only [memInv_ite, ite_self, memInv_modAx, memInv_raiseFault]
theorem memInv_rangeNow (x0 : Nat) (s : State) : MemInv (rangeNow x0 s) = MemInv s := by
  unfold rangeNow
  simp only [memInv_modAx, memInv_stepTo]
theorem memInv_auxSlotStart (x0 : Nat) (x1 : Nat) (x2 : Nat) (s : State) : MemInv (auxSlotStart x0 x1 x2 s) = MemInv s := by
  unfold auxSlotStart
  simp only []
  (repeat' split) <;> simp only [memInv_modAxs, memInv_rangeNow]
theorem memInv_fifoPush (x0 : Nat) (x1 : FifoEnt) (s : State) : MemInv (fifoPush x0 x1 s) = MemInv s := by
  unfold fifoPush
  simp only [memInv_ite, ite_self, memInv_modSe, memInv_ledProduce, memInv_ledDrop, memInv_raiseFault]
theorem memInv_auxFaults (x0 : Nat) (x1 : Int) (x2 : Bool) (x3 : Nat) (s : State) : MemInv (auxFaults x0 x1 x2 x3 s) = MemInv s := by
  unfold auxFaults
  simp only [memInv_modAx, memInv_setCond]
theorem memInv_autoDecide (x0 : Nat) (x1 : Int) (s : State) : MemInv (autoDecide x0 x1 s) = MemInv s := (rfl)
theorem memInv_mainDone (x0 : Nat) (x1 : Nat) (x2 : Nat) (x3 : Int) (x4 : Nat) (x5 : Option (Nat × Nat)) (s : State) :
    MemInv (mainDone x0 x1 x2 x3 x4 x5 s) = MemInv s := by
  unfold mainDone
  simp only [memInv_ite, ite_self, memInv_modAx, memInv_fifoPush, memInv_auxFaults, memInv_autoDecide]
theorem memInv_serviceChecks (x0 : Nat) (s : State) : MemInv (serviceChecks x0 s) = MemInv s := by
  unfold serviceChecks
  simp only [memInv_modAx, memInv_setCond, memInv_auxPrepCheck]
theorem memInv_calDone (x0 : Nat) (x1 : Int) (s : State) : MemInv (calDone x0 x1 s) = MemInv s := by
  unfold calDone
  simp only [memInv_modAx, memInv_serviceChecks]
theorem memInv_leadDone (x0 : Nat) (x1 : Int) (s : State) : MemInv (leadDone x0 x1 s) = MemInv s := by
  unfold leadDone
  simp only [memInv_modAx, memInv_serviceChecks]
theorem memInv_auxComplete (x0 : Nat) (x1 : Int) (x2 : Nat) (s : State) : MemInv (auxComplete x0 x1 x2 s) = MemInv s := by
  unfold auxComplete
  (repeat' split) <;> simp only [memInv_ite, ite_self, memInv_modAxs, memInv_countBoundary, memInv_mainDone, memInv_calDone, memInv_leadDone]
theorem memInv_auxPrepare (x0 : Nat) (s : State) : MemInv (auxPrepare x0 s) = MemInv s := (rfl)
theorem memInv_auxStop (x0 : Nat) (s : State) : MemInv (auxStop x0 s) = MemInv s := (rfl)
theorem memInv_auxLeave (x0 : Nat) (s : State) : MemInv (auxLeave x0 s) = MemInv s := (rfl)
theorem memInv_auxCtrlApplied (x0 : Nat) (x1 : Word) (s : State) : MemInv (auxCtrlApplied x0 x1 s) = MemInv s := by
  unfold auxCtrlApplied
  simp only [memInv_ite, ite_self, memInv_modAx]
theorem memInv_auxRecord (x0 : Nat) (x1 : Int) (s : State) : MemInv (auxRecord x0 x1 s) = MemInv s := (rfl)
theorem memInv_coarseSample (x0 : Nat) (x1 : Demod) (x2 : Nat) (x3 : Rat) (s : State) : MemInv (coarseSample x0 x1 x2 x3 s) = MemInv s := (rfl)
theorem memInv_acquire (x0 : Nat) (x1 : Demod) (x2 : Nat) (x3 : Rat) (x4 : Rat) (s : State) : MemInv (acquire x0 x1 x2 x3 x4 s) = MemInv s := (rfl)
theorem memInv_acceptSample (x0 : Nat) (x1 : Demod) (x2 : Obs) (x3 : Rat) (x4 : Rat) (x5 : Rat) (s : State) :
    MemInv (acceptSample x0 x1 x2 x3 x4 x5 s) = MemInv s := by
  unfold acceptSample
  simp only [memInv_ite, ite_self, memInv_modTk, memInv_clearCond]
theorem memInv_speedWatch (x0 : Nat) (s : State) : MemInv (speedWatch x0 s) = MemInv s := by
  unfold speedWatch
  split <;> simp only [memInv_modTk, memInv_setCond]
theorem memInv_rejectSample (x0 : Nat) (x1 : Nat) (s : State) : MemInv (rejectSample x0 x1 s) = MemInv s := by
  unfold rejectSample
  simp only [memInv_ite, ite_self, memInv_modTk, memInv_setCond]
theorem memInv_dropSegment (x0 : Nat) (s : State) : MemInv (dropSegment x0 s) = MemInv s := (rfl)
theorem memInv_coastBoundary (x0 : Nat) (s : State) : MemInv (coastBoundary x0 s) = MemInv s := (rfl)
theorem memInv_coastLimit (x0 : Nat) (s : State) : MemInv (coastLimit x0 s) = MemInv s := by
  unfold coastLimit
  simp only [memInv_ite, ite_self, memInv_modTk, memInv_raiseFault]
theorem memInv_trackerStop (x0 : Nat) (x1 : Bool) (s : State) : MemInv (trackerStop x0 x1 s) = MemInv s := by
  unfold trackerStop
  simp only [memInv_modTk, memInv_clearCond]
theorem memInv_mapRefuse (x0 : Nat) (x1 : Nat) (x2 : Nat) (s : State) : MemInv (mapRefuse x0 x1 x2 s) = MemInv s := by
  unfold mapRefuse
  simp only [memInv_modTk, memInv_raiseFault]
theorem memInv_mapAdopt (x0 : Nat) (x1 : Nat) (s : State) : MemInv (mapAdopt x0 x1 s) = MemInv s := by
  unfold mapAdopt
  simp only []
  (repeat' split) <;> simp only [memInv_mk, memInv_fold, memInv_modTk, memInv_mapRefuse]
theorem memInv_mapDiscard (x0 : Nat) (x1 : Nat) (s : State) : MemInv (mapDiscard x0 x1 s) = MemInv s := by
  unfold mapDiscard
  simp only [memInv_ite, ite_self, memInv_modTk, memInv_mapRefuse]
theorem memInv_mapErase (x0 : Nat) (x1 : Nat) (s : State) : MemInv (mapErase x0 x1 s) = MemInv s := by
  unfold mapErase
  simp only [memInv_mk, memInv_fold, memInv_ite, ite_self, memInv_modTk, memInv_mapRefuse]
theorem memInv_fineRecord (x0 : Nat) (x1 : Obs) (x2 : Int) (x3 : ChRec) (s : State) : MemInv (fineRecord x0 x1 x2 x3 s).2 = MemInv s := by
  unfold fineRecord
  simp only [memInv_ite, ite_self, memInv_modUnit, memInv_modTk]
theorem memInv_satWatch (x0 : Nat) (x1 : ChRec) (x2 : ChRec) (s : State) : MemInv (satWatch x0 x1 x2 s) = MemInv s := by
  unfold satWatch
  simp only [memInv_ite, ite_self, memInv_setCond]
theorem memInv_showRecord (x0 : Nat) (s : State) : MemInv (showRecord x0 s) = MemInv s := by
  unfold showRecord
  simp only [memInv_ite, ite_self, memInv_modTk, memInv_dropSegment]
theorem memInv_trackerRecord (x0 : Nat) (x1 : Int) (s : State) : MemInv (trackerRecord x0 x1 s) = MemInv s := by
  unfold trackerRecord
  simp only []
  (repeat' split) <;> simp only [memInv_modTk, memInv_fineRecord, memInv_satWatch, memInv_showRecord]
theorem memInv_markCond (x0 : Nat) (x1 : Nat) (x2 : Nat) (x3 : Bool) (s : State) : MemInv (markCond x0 x1 x2 x3 s) = MemInv s := (rfl)
theorem memInv_glWatch (x0 : Nat) (x1 : Rat) (x2 : Option Rat) (s : State) : MemInv (glWatch x0 x1 x2 s) = MemInv s := by
  unfold glWatch
  simp only [memInv_ite, ite_self, memInv_modGl, memInv_setCond, memInv_markCond]
theorem memInv_glFrame (x0 : Nat) (s : State) : MemInv (glFrame x0 s) = MemInv s := by
  unfold glFrame
  split <;> simp only [memInv_ite, ite_self, memInv_modTk, memInv_modGl, memInv_glWatch]
theorem memInv_absFrame (x0 : Nat) (s : State) : MemInv (absFrame x0 s) = MemInv s := by
  unfold absFrame
  (repeat' split) <;> simp only [memInv_ite, ite_self, memInv_modUnit, memInv_modGl, memInv_raiseFault]
theorem memInv_glReady (x0 : Nat) (s : State) : MemInv (glReady x0 s) = MemInv s := by
  unfold glReady
  split <;> simp only [memInv_modTk]
theorem memInv_glPrepare (x0 : Nat) (s : State) : MemInv (glPrepare x0 s) = MemInv s := (rfl)
theorem memInv_glStop (x0 : Nat) (x1 : Bool) (s : State) : MemInv (glStop x0 x1 s) = MemInv s := by
  unfold glStop
  simp only [memInv_ite, ite_self, memInv_modGl, memInv_clearConds]
theorem memInv_glBoundary (x0 : Nat) (s : State) : MemInv (glBoundary x0 s) = MemInv s := by
  unfold glBoundary
  simp only []
  (repeat' split) <;> simp only [memInv_doFor, memInv_modGl, memInv_raiseFault, implies_true]
theorem memInv_glTrackerEvent (x0 : Nat) (x1 : Bool) (s : State) : MemInv (glTrackerEvent x0 x1 s) = MemInv s := by
  unfold glTrackerEvent
  simp only [memInv_doFor, memInv_modGl, implies_true]
theorem memInv_reachFrame (x0 : Nat) (s : State) : MemInv (reachFrame x0 s) = MemInv s := (rfl)
theorem memInv_jointsFrame (s : State) : MemInv (jointsFrame s) = MemInv s := by
  unfold jointsFrame
  simp only [memInv_doFor, memInv_glFrame, memInv_absFrame, memInv_reachFrame, implies_true]
theorem memInv_countStep (x0 : Nat) (x1 : Nat) (x2 : Int) (s : State) : MemInv (countStep x0 x1 x2 s) = MemInv s := by
  unfold countStep
  simp only [memInv_ite, ite_self, memInv_modIp, memInv_ledProduce]
theorem memInv_portCount (x0 : Nat) (x1 : Nat) (x2 : Option Bool) (x3 : Option Bool) (s : State) : MemInv (portCount x0 x1 x2 x3 s) = MemInv s := by
  unfold portCount
  simp only [memInv_ite, ite_self, memInv_modIp, memInv_raiseFault, memInv_countStep]
theorem memInv_idxCapture (x0 : Nat) (x1 : Nat) (s : State) : MemInv (idxCapture x0 x1 s) = MemInv s := by
  unfold idxCapture
  simp only []
  (repeat' split) <;> simp only [memInv_modIp, memInv_raiseFault, memInv_clearCond, memInv_markCond]
theorem memInv_idxWatch (x0 : Nat) (s : State) : MemInv (idxWatch x0 s) = MemInv s := by
  unfold idxWatch
  simp only []
  (repeat' split) <;> simp only [memInv_modIp, memInv_raiseFault, memInv_markCond]
theorem memInv_portTransition (x0 : Nat) (x1 : Nat) (x2 : Option Bool) (x3 : Option Bool) (x4 : Option Bool) (s : State) :
    MemInv (portTransition x0 x1 x2 x3 x4 s) = MemInv s := by
  unfold portTransition
  simp only [memInv_ite, ite_self, memInv_modIp, memInv_portCount, memInv_idxCapture, memInv_idxWatch]
theorem memInv_portPrepare (x0 : Nat) (s : State) : MemInv (portPrepare x0 s) = MemInv s := by
  unfold portPrepare
  simp only [memInv_modUnit, memInv_modIp, memInv_ledDrop, memInv_clearConds]
theorem memInv_portDormant (x0 : Nat) (s : State) : MemInv (portDormant x0 s) = MemInv s := by
  unfold portDormant
  simp only [memInv_modIp, memInv_ledDrop, memInv_clearConds]
theorem memInv_portInvert (x0 : Nat) (x1 : Word) (x2 : Word) (s : State) : MemInv (portInvert x0 x1 x2 s) = MemInv s := (rfl)
theorem memInv_portRecord (x0 : Nat) (x1 : Nat) (x2 : Int) (s : State) : MemInv (portRecord x0 x1 x2 s) = MemInv s := (rfl)
theorem memInv_switchRaw (x0 : Nat) (x1 : Bool) (s : State) : MemInv (switchRaw x0 x1 s) = MemInv s := (rfl)
theorem memInv_switchChange (x0 : Nat) (x1 : Bool) (s : State) : MemInv (switchChange x0 x1 s) = MemInv s := (rfl)
theorem memInv_chatEnd (x0 : Nat) (s : State) : MemInv (chatEnd x0 s) = MemInv s := by
  unfold chatEnd
  simp only [memInv_ite, ite_self, memInv_modSw, memInv_raiseFault]
theorem memInv_switchLatch (x0 : Nat) (s : State) : MemInv (switchLatch x0 s) = MemInv s := (rfl)
theorem memInv_switchPrep (x0 : Nat) (x1 : Int) (s : State) : MemInv (switchPrep x0 x1 s) = MemInv s := by
  unfold switchPrep
  simp only [memInv_ite, ite_self, memInv_modUnit]
theorem memInv_emAdmit (x0 : Nat) (x1 : Int) (s : State) : MemInv (emAdmit x0 x1 s) = MemInv s := by
  unfold emAdmit
  simp only [memInv_modEm, memInv_ledProduce, memInv_setCond]
theorem memInv_emFrame (x0 : Nat) (x1 : Nat) (x2 : Nat) (s : State) : MemInv (emFrame x0 x1 x2 s) = MemInv s := by
  unfold emFrame
  simp only []
  (repeat' split) <;> simp only [memInv_modUnit, memInv_modEm, memInv_setCond, memInv_emAdmit]
theorem memInv_emEdge (x0 : Nat) (x1 : Nat) (s : State) : MemInv (emEdge x0 x1 s) = MemInv s := by
  unfold emEdge
  simp only []
  (repeat' split) <;> simp only [memInv_emit, memInv_modEm, memInv_ledConsume]
theorem memInv_emEmpty (x0 : Nat) (s : State) : MemInv (emEmpty x0 s) = MemInv s := by
  unfold emEmpty
  simp only [memInv_modEm, memInv_ledDrop]
theorem memInv_emPrepare (x0 : Nat) (s : State) : MemInv (emPrepare x0 s) = MemInv s := by
  unfold emPrepare
  simp only [memInv_modEm, memInv_clearConds, memInv_emEmpty]
theorem memInv_withdraw (x0 : Nat) (s : State) : MemInv (withdraw x0 s) = MemInv s := by
  unfold withdraw
  split <;> simp only [memInv_doFor, memInv_modCmp, memInv_modTg, implies_true]
theorem memInv_cmpWritten (x0 : Nat) (x1 : Bool) (s : State) : MemInv (cmpWritten x0 x1 s) = MemInv s := by
  unfold cmpWritten
  simp only [memInv_ite, ite_self, memInv_modCmp, memInv_withdraw]
theorem memInv_cmpSourceLeft (x0 : Nat) (s : State) : MemInv (cmpSourceLeft x0 s) = MemInv s := by
  unfold cmpSourceLeft
  simp only [memInv_withdraw]
theorem memInv_placeFiring (x0 : Nat) (x1 : Nat) (x2 : Nat) (x3 : Nat) (x4 : Option Nat) (x5 : Bool) (x6 : Nat) (s : State) :
    MemInv (placeFiring x0 x1 x2 x3 x4 x5 x6 s) = MemInv s := by
  unfold placeFiring
  simp only [memInv_doFor, memInv_modCmp, memInv_modTg, implies_true]
theorem memInv_cmpRearm (x0 : Nat) (x1 : Nat) (x2 : ChRec) (s : State) : MemInv (cmpRearm x0 x1 x2 s) = MemInv s := by
  unfold cmpRearm
  simp only [memInv_ite, ite_self, memInv_modCmp]
theorem memInv_cmpBehind (x0 : Nat) (x1 : Nat) (x2 : Nat) (x3 : ChRec) (s : State) : MemInv (cmpBehind x0 x1 x2 x3 s) = MemInv s := by
  unfold cmpBehind
  simp only [memInv_ite, ite_self, memInv_modCmp, memInv_raiseFault, memInv_placeFiring]
theorem memInv_cmpPlace (x0 : Nat) (x1 : Nat) (x2 : Nat) (x3 : ChRec) (x4 : Int) (s : State) : MemInv (cmpPlace x0 x1 x2 x3 x4 s) = MemInv s := by
  unfold cmpPlace
  (repeat' split) <;> simp only [memInv_ite, ite_self, memInv_placeFiring]
theorem memInv_cmpSchedule (x0 : Nat) (x1 : Nat) (s : State) : MemInv (cmpSchedule x0 x1 s) = MemInv s := by
  unfold cmpSchedule
  split <;> simp only [memInv_ite, ite_self, memInv_modCmp, memInv_withdraw, memInv_cmpRearm, memInv_cmpBehind, memInv_cmpPlace]
theorem memInv_cmpFire (x0 : Nat) (s : State) : MemInv (cmpFire x0 s) = MemInv s := by
  unfold cmpFire
  split <;> simp only [memInv_ite, ite_self, memInv_modCmp, memInv_raiseFault, memInv_addEvent]
theorem memInv_pulseStart (x0 : Nat) (s : State) : MemInv (pulseStart x0 s) = MemInv s := by
  unfold pulseStart
  split <;> simp only [memInv_ite, ite_self, memInv_emit, memInv_modTg, memInv_raiseFault]
theorem memInv_pulseEnd (x0 : Nat) (s : State) : MemInv (pulseEnd x0 s) = MemInv s := by
  unfold pulseEnd
  simp only [memInv_ite, ite_self, memInv_emit, memInv_modTg]
theorem memInv_frameMeasure (s : State) : MemInv (frameMeasure s) = MemInv s := by
  unfold frameMeasure
  simp only [memInv_doFor, memInv_modIp, memInv_governor, memInv_auxRecord, memInv_trackerRecord, memInv_jointsFrame, memInv_portRecord, implies_true]
theorem memInv_raisePg (x0 : Nat) (x1 : Nat) (x2 : Nat) (s : State) : MemInv (raisePg x0 x1 x2 s) = MemInv s := by
  unfold raisePg
  simp only [memInv_raiseFault]
theorem memInv_planMotion (x0 : Nat) (x1 : State → PgSt → PgSt) (s : State) : MemInv (planMotion x0 x1 s) = MemInv s := by
  unfold planMotion
  simp only [memInv_ite, ite_self, memInv_modPg, memInv_raisePg]
theorem memInv_rampDown (x0 : Nat) (x1 : Rat) (x2 : Rat) (x3 : PgTask) (x4 : Nat) (s : State) : MemInv (rampDown x0 x1 x2 x3 x4 s) = MemInv s := by
  unfold rampDown
  simp only [memInv_ite, ite_self, memInv_modPg, memInv_raisePg]
theorem memInv_startStop (x0 : Nat) (s : State) : MemInv (startStop x0 s) = MemInv s := by
  unfold startStop
  simp only [memInv_rampDown]
theorem memInv_startQuick (x0 : Nat) (s : State) : MemInv (startQuick x0 s) = MemInv s := by
  unfold startQuick
  simp only [memInv_ite, ite_self, memInv_rampDown]
theorem memInv_startLimitStop (x0 : Nat) (s : State) : MemInv (startLimitStop x0 s) = MemInv s := by
  unfold startLimitStop
  simp only [memInv_rampDown]
theorem memInv_homeTravel (x0 : Nat) (s : State) : MemInv (homeTravel x0 s) = MemInv s := by
  unfold homeTravel
  simp only [memInv_planMotion]
theorem memInv_homeDone (x0 : Nat) (x1 : Rat) (s : State) : MemInv (homeDone x0 x1 s) = MemInv s := (rfl)
theorem memInv_pathOpen (x0 : Nat) (s : State) : MemInv (pathOpen x0 s).2 = MemInv s := by
  unfold pathOpen
  simp only [memInv_checkTile]
theorem memInv_pathFail (x0 : Nat) (x1 : Nat) (x2 : Nat) (s : State) : MemInv (pathFail x0 x1 x2 s) = MemInv s := by
  unfold pathFail
  simp only [memInv_modUnit, memInv_raisePg, memInv_startQuick]
theorem memInv_pathStart (x0 : Nat) (s : State) : MemInv (pathStart x0 s) = MemInv s := by
  unfold pathStart
  split <;> simp only [memInv_ite, ite_self, memInv_modPg, memInv_planMotion, memInv_pathOpen, memInv_pathFail, memInv_ite_snd]
theorem memInv_pgStart (x0 : Nat) (s : State) : MemInv (pgStart x0 s) = MemInv s := by
  unfold pgStart
  simp only []
  (repeat' split) <;> simp only [memInv_modPg, memInv_planMotion, memInv_homeTravel, memInv_homeDone, memInv_pathStart]
theorem memInv_pgHold (x0 : Nat) (s : State) : MemInv (pgHold x0 s) = MemInv s := by
  unfold pgHold
  simp only [memInv_rampDown]
theorem memInv_pgResume (x0 : Nat) (s : State) : MemInv (pgResume x0 s) = MemInv s := by
  unfold pgResume
  (repeat' split) <;> simp only [memInv_ite, ite_self, memInv_modPg, memInv_planMotion, memInv_homeTravel]
theorem memInv_pgStop (x0 : Nat) (s : State) : MemInv (pgStop x0 s) = MemInv s := by
  unfold pgStop
  simp only [memInv_modPg, memInv_startStop]
theorem memInv_pgQuick (x0 : Nat) (s : State) : MemInv (pgQuick x0 s) = MemInv s := by
  unfold pgQuick
  simp only [memInv_modPg, memInv_startQuick]
theorem memInv_pgFault (x0 : Nat) (s : State) : MemInv (pgFault x0 s) = MemInv s := by
  unfold pgFault
  simp only [memInv_startQuick]
theorem memInv_setKeep (x0 : Nat) (x1 : KeepEnt) (s : State) : MemInv (setKeep x0 x1 s) = MemInv s := (rfl)
theorem memInv_pgPrepare (x0 : Nat) (s : State) : MemInv (pgPrepare x0 s) = MemInv s := by
  unfold pgPrepare
  simp only []
  (repeat' split) <;> simp only [memInv_modUnit, memInv_modPg, memInv_raisePg]
theorem memInv_pgDormant (x0 : Nat) (s : State) : MemInv (pgDormant x0 s) = MemInv s := (rfl)
theorem memInv_pgBoundary (x0 : Nat) (s : State) : MemInv (pgBoundary x0 s) = MemInv s := by
  unfold pgBoundary
  split <;> simp only [memInv_modPg]
theorem memInv_motApplied (x0 : Nat) (x1 : Bool) (x2 : Bool) (x3 : Bool) (x4 : Bool) (s : State) :
    MemInv (motApplied x0 x1 x2 x3 x4 s) = MemInv s := by
  unfold motApplied
  simp only [memInv_ite, ite_self, memInv_modPg, memInv_planMotion]
theorem memInv_tripStop (x0 : Nat) (s : State) : MemInv (tripStop x0 s) = MemInv s := by
  unfold tripStop
  simp only [memInv_modUnit, memInv_modPg, memInv_startQuick]
theorem memInv_pgTrip (x0 : Nat) (x1 : Nat) (x2 : Nat) (s : State) : MemInv (pgTrip x0 x1 x2 s) = MemInv s := by
  unfold pgTrip
  simp only [memInv_raisePg, memInv_tripStop]
theorem memInv_pgGuard (x0 : Nat) (x1 : PgSt) (s : State) : MemInv (pgGuard x0 x1 s) = MemInv s := by
  unfold pgGuard
  split <;> simp only [memInv_ite, ite_self, memInv_modPg, memInv_pgTrip]
theorem memInv_pgHardLimit (x0 : Nat) (x1 : PgSt) (s : State) : MemInv (pgHardLimit x0 x1 s) = MemInv s := by
  unfold pgHardLimit
  simp only [memInv_ite, ite_self, memInv_modPg, memInv_pgTrip]
theorem memInv_pgDriver (x0 : Nat) (x1 : PgSt) (s : State) : MemInv (pgDriver x0 x1 s) = MemInv s := by
  unfold pgDriver
  simp only [memInv_ite, ite_self, memInv_modPg, memInv_setCond, memInv_clearCond, memInv_tripStop]
theorem memInv_pgUnpowered (x0 : Nat) (x1 : PgSt) (s : State) : MemInv (pgUnpowered x0 x1 s) = MemInv s := by
  unfold pgUnpowered
  simp only [memInv_ite, ite_self, memInv_modPg]
theorem memInv_homeAbort (x0 : Nat) (x1 : Nat) (s : State) : MemInv (homeAbort x0 x1 s) = MemInv s := by
  unfold homeAbort
  simp only [memInv_modPg, memInv_pgTrip]
theorem memInv_homeHalt (x0 : Nat) (s : State) : MemInv (homeHalt x0 s) = MemInv s := (rfl)
theorem memInv_homeEnter (x0 : Nat) (x1 : Nat) (s : State) : MemInv (homeEnter x0 x1 s) = MemInv s := by
  unfold homeEnter
  simp only [memInv_modPg, memInv_homeTravel]
theorem memInv_pgHoming (x0 : Nat) (x1 : PgSt) (s : State) : MemInv (pgHoming x0 x1 s) = MemInv s := by
  unfold pgHoming
  (repeat' split) <;> simp only [memInv_ite, ite_self, memInv_modPg, memInv_rampDown, memInv_homeTravel, memInv_homeAbort,
      memInv_homeHalt, memInv_homeEnter]
theorem memInv_limitHold (x0 : Nat) (x1 : Bool) (s : State) : MemInv (limitHold x0 x1 s) = MemInv s := by
  unfold limitHold
  simp only [memInv_modPg, memInv_raisePg, memInv_startLimitStop]
theorem memInv_pgAdvance (x0 : Nat) (s : State) : MemInv (pgAdvance x0 s) = MemInv s := (rfl)
theorem memInv_rcDisarm (x0 : Nat) (s : State) : MemInv (rcDisarm x0 s) = MemInv s := (rfl)
theorem memInv_gearMove (x0 : Nat) (x1 : Nat) (x2 : Int) (x3 : Int) (s : State) : MemInv (gearMove x0 x1 x2 x3 s).2 = MemInv s := by
  unfold gearMove
  simp only []
  (repeat' split) <;> simp only [memInv_modPg, memInv_raisePg, memInv_rcDisarm]
theorem memInv_pgMaster (x0 : Nat) (x1 : PgSt) (s : State) : MemInv (pgMaster x0 x1 s) = MemInv s := by
  unfold pgMaster
  simp only [memInv_ite, ite_self, memInv_modUnit, memInv_modPg, memInv_raisePg, memInv_startQuick]
theorem memInv_pgGear (x0 : Nat) (x1 : Nat) (s : State) : MemInv (pgGear x0 x1 s) = MemInv s := by
  unfold pgGear
  simp only []
  (repeat' split) <;> simp only [memInv_modPg, memInv_raisePg, memInv_limitHold, memInv_pgAdvance, memInv_gearMove]
theorem memInv_pgPath (x0 : Nat) (s : State) : MemInv (pgPath x0 s) = MemInv s := by
  unfold pgPath
  simp only []
  (repeat' split) <;> simp only [memInv_modPg, memInv_pathOpen, memInv_pathFail, memInv_limitHold, memInv_pgAdvance]
theorem memInv_pgChecked (x0 : Nat) (s : State) : MemInv (pgChecked x0 s) = MemInv s := by
  unfold pgChecked
  simp only []
  (repeat' split) <;> simp only [memInv_limitHold, memInv_pgAdvance]
theorem memInv_pgMotion (x0 : Nat) (x1 : Nat) (s : State) : MemInv (pgMotion x0 x1 s) = MemInv s := by
  unfold pgMotion
  split <;> simp only [memInv_ite, ite_self, memInv_modPg, memInv_homeDone, memInv_pgAdvance, memInv_pgGear, memInv_pgPath, memInv_pgChecked]
theorem memInv_keepWrite (x0 : Nat) (s : State) : MemInv (keepWrite x0 s) = MemInv s := by
  unfold keepWrite
  simp only [memInv_ite, ite_self, memInv_modPg, memInv_setKeep]
theorem memInv_ssrApply (x0 : Nat) (s : State) : MemInv (ssrApply x0 s) = MemInv s := by
  unfold ssrApply
  simp only [memInv_ite, ite_self, memInv_modPg, memInv_keepWrite]
theorem memInv_pgScale (x0 : Nat) (s : State) : MemInv (pgScale x0 s) = MemInv s := by
  unfold pgScale
  simp only []
  (repeat' split) <;> simp only [memInv_modPg, memInv_setKeep, memInv_ssrApply]
theorem memInv_pgRecord (x0 : Nat) (x1 : Nat) (s : State) : MemInv (pgRecord x0 x1 s) = MemInv s := by
  unfold pgRecord
  simp only [memInv_modPg, memInv_pgScale]
theorem memInv_pgAssistMark (x0 : Nat) (x1 : Nat) (s : State) : MemInv (pgAssistMark x0 x1 s) = MemInv s := (rfl)
theorem memInv_pgFrame (x0 : Nat) (x1 : Nat) (s : State) : MemInv (pgFrame x0 x1 s) = MemInv s := by
  unfold pgFrame
  simp only []
  (repeat' split) <;> simp only [memInv_modUnit, memInv_modPg, memInv_pgGuard, memInv_pgHardLimit, memInv_pgDriver,
      memInv_pgUnpowered, memInv_pgHoming, memInv_pgMaster, memInv_pgMotion, memInv_pgRecord]
theorem memInv_ledgerKind (x0 : Nat) (s : State) : MemInv (ledgerKind x0 s) = MemInv s := by
  unfold ledgerKind
  simp only [memInv_ite, ite_self, memInv_modLed, memInv_raiseFault]
theorem memInv_ledgerSnapshot (s : State) : MemInv (ledgerSnapshot s) = MemInv s := by
  unfold ledgerSnapshot
  simp only [memInv_mk, memInv_fold, memInv_doFor, memInv_ledgerKind, implies_true]
theorem memInv_blockEvents (x0 : Nat) (x1 : Nat) (s : State) : MemInv (blockEvents x0 x1 s).2 = MemInv s := by
  unfold blockEvents
  simp only [memInv_mk, memInv_fold, memInv_ite, ite_self, memInv_ledProduce, memInv_ledConsume, memInv_ledDrop, memInv_raiseFault]
theorem memInv_endCopy (x0 : Nat) (x1 : Nat) (s : State) : MemInv (endCopy x0 x1 s) = MemInv s := (rfl)
theorem memInv_copyDone (x0 : Nat) (x1 : Nat) (s : State) : MemInv (copyDone x0 x1 s) = MemInv s := (rfl)
theorem memInv_copyDrop (x0 : Nat) (x1 : Nat) (x2 : Nat) (s : State) : MemInv (copyDrop x0 x1 x2 s) = MemInv s := by
  unfold copyDrop
  (repeat' split) <;> simp only [memInv_mk, memInv_fold, memInv_modDma, memInv_ledDrop, memInv_raiseFault, memInv_endCopy]
theorem memInv_openSlot (x0 : Nat) (x1 : Nat) (x2 : Nat) (s : State) : MemInv (openSlot x0 x1 x2 s).2 = MemInv s := by
  unfold openSlot
  simp only [memInv_checkTile, memInv_foldl_snd, implies_true]
theorem memInv_dmaBegin (x0 : Nat) (x1 : Nat) (x2 : Nat) (x3 : Nat) (s : State) : MemInv (dmaBegin x0 x1 x2 x3 s) = MemInv s := by
  unfold dmaBegin
  simp only [memInv_ite, ite_self, memInv_copyDrop, memInv_openSlot]
theorem memInv_twinCopy (x0 : Nat) (x1 : Nat) (x2 : Nat) (s : State) : MemInv (twinCopy x0 x1 x2 s) = MemInv s := by
  unfold twinCopy
  simp only [memInv_ite, ite_self, memInv_twinSend, memInv_copyDone, memInv_copyDrop, memInv_openSlot]
theorem memInv_releaseSlot (x0 : Nat) (s : State) : MemInv (releaseSlot x0 s) = MemInv s := by
  unfold releaseSlot
  split <;> simp only [memInv_mk, memInv_fold, memInv_doFor, memInv_ledConsume, memInv_copyDrop, implies_true]
theorem memInv_forcedEnd (s : State) : MemInv (forcedEnd s) = MemInv s := by
  unfold forcedEnd
  simp only [memInv_doFor, memInv_releaseSlot, implies_true]
theorem memInv_forceAll (s : State) : MemInv (forceAll s) = MemInv s := by
  unfold forceAll
  simp only [memInv_doFor, memInv_releaseSlot, implies_true]
theorem memInv_divergence (s : State) : MemInv (divergence s) = MemInv s := by
  unfold divergence
  simp only [memInv_ite, ite_self, memInv_doFor, memInv_raiseFault, implies_true]
theorem memInv_openStage (x0 : Nat) (s : State) : MemInv (openStage x0 s) = MemInv s := by
  unfold openStage
  split <;> simp only [memInv_ite, ite_self, memInv_doFor, memInv_openTile, memInv_releaseSlot, implies_true]
theorem memInv_sendFrags (x0 : StageSlot) (x1 : Nat) (x2 : Nat) (x3 : List Nat) (s : State) : MemInv (sendFrags x0 x1 x2 x3 s) = MemInv s := by
  unfold sendFrags
  simp only [memInv_mk, memInv_fold, memInv_doFor, memInv_emit, memInv_modBbPort, implies_true]
theorem memInv_egressWindow (x0 : Nat) (s : State) : MemInv (egressWindow x0 s) = MemInv s := by
  unfold egressWindow
  simp only [memInv_mk, memInv_fold, memInv_ite, ite_self, memInv_doFor, memInv_copyDone, memInv_copyDrop, memInv_openSlot,
      memInv_sendFrags, implies_true]
theorem memInv_dmaComplete (x0 : Nat) (s : State) : MemInv (dmaComplete x0 s) = MemInv s := by
  unfold dmaComplete
  split <;> simp only [memInv_ite, ite_self, memInv_emit, memInv_modDma, memInv_intSource, memInv_copyDone]
theorem memInv_dmaHalt (x0 : Nat) (s : State) : MemInv (dmaHalt x0 s) = MemInv s := by
  unfold dmaHalt
  simp only [memInv_ite, ite_self, memInv_modDma, memInv_raiseFault]
theorem memInv_setBme (x0 : Bool) (s : State) : MemInv (setBme x0 s) = MemInv s := by
  unfold setBme
  simp only [memInv_mk, memInv_fold, memInv_ite, ite_self, memInv_doFor, memInv_dmaHalt, implies_true]
theorem memInv_dmaForced (s : State) : MemInv (dmaForced s) = MemInv s := by
  unfold dmaForced
  simp only [memInv_doFor, memInv_copyDrop, implies_true]
theorem memInv_dmaCtrl (x0 : Nat) (x1 : Word) (s : State) : MemInv (dmaCtrl x0 x1 s) = MemInv s := (rfl)
theorem memInv_msixDeliver (x0 : Nat) (s : State) : MemInv (msixDeliver x0 s) = MemInv s := by
  unfold msixDeliver
  simp only [memInv_mk, memInv_fold, memInv_ite, ite_self, memInv_emit]
theorem memInv_scrub (s : State) : MemInv (scrub s) = MemInv s := by
  unfold scrub
  simp only []
  (repeat' split) <;> simp only [memInv_mk, memInv_fold, memInv_checkTile]
theorem memInv_setSync (x0 : Bool) (s : State) : MemInv (setSync x0 s) = MemInv s := by
  unfold setSync
  simp only [memInv_mk, memInv_fold, memInv_ite, ite_self, memInv_setCond, memInv_intSource]
theorem memInv_stepTime (x0 : Int) (x1 : Bool) (s : State) : MemInv (stepTime x0 x1 s) = MemInv s := by
  unfold stepTime
  simp only [memInv_mk, memInv_fold, memInv_ite, ite_self, memInv_numberFrames, memInv_raiseFault, memInv_setModErr]
theorem memInv_setGm (x0 : BitVec 64) (s : State) : MemInv (setGm x0 s) = MemInv s := by
  unfold setGm
  simp only [memInv_mk, memInv_fold, memInv_ite, ite_self, memInv_raiseFault]
theorem memInv_syncMessage (x0 : Int) (x1 : BitVec 64) (x2 : Nat) (x3 : Bool) (s : State) : MemInv (syncMessage x0 x1 x2 x3 s) = MemInv s := by
  unfold syncMessage
  simp only [memInv_mk, memInv_fold, memInv_ite, ite_self, memInv_setSync, memInv_stepTime, memInv_setGm]
theorem memInv_syncTimeout (s : State) : MemInv (syncTimeout s) = MemInv s := by
  unfold syncTimeout
  simp only [memInv_mk, memInv_fold, memInv_ite, ite_self, memInv_setSync]
theorem memInv_gmChange (x0 : BitVec 64) (x1 : Bool) (s : State) : MemInv (gmChange x0 x1 s) = MemInv s := by
  unfold gmChange
  simp only [memInv_mk, memInv_fold, memInv_ite, ite_self, memInv_setSync, memInv_setGm]
theorem memInv_ctInit (x0 : Word) (s : State) : MemInv (ctInit x0 s) = MemInv s := by
  unfold ctInit
  simp only [memInv_mk, memInv_fold, memInv_ite, ite_self, memInv_setRw, memInv_raiseFault, memInv_stepTime]
theorem memInv_bbLink (x0 : Nat) (x1 : PortReport) (s : State) : MemInv (bbLink x0 x1 s) = MemInv s := by
  unfold bbLink
  simp only [memInv_ite, ite_self, memInv_modBbPort, memInv_raiseFault, memInv_intSource]
theorem memInv_streamGate (x0 : Nat) (x1 : Nat) (s : State) : MemInv (streamGate x0 x1 s) = MemInv s := by
  unfold streamGate
  simp only [memInv_modBbPort, memInv_raiseFault]
theorem memInv_queueResponse (x0 : CmdMessage) (x1 : Nat) (x2 : Nat) (x3 : List Nat) (s : State) :
    MemInv (queueResponse x0 x1 x2 x3 s) = MemInv s := (rfl)
theorem memInv_refuseMsg (x0 : CmdMessage) (x1 : Nat) (s : State) : MemInv (refuseMsg x0 x1 s) = MemInv s := by
  unfold refuseMsg
  simp only [memInv_ledProduce, memInv_ledConsume, memInv_raiseFault, memInv_queueResponse]
theorem memInv_recoverMsg (x0 : CmdMessage) (s : State) : MemInv (recoverMsg x0 s).2 = MemInv s := by
  unfold recoverMsg
  split <;> simp only [ite_self, memInv_modStream, memInv_ite_snd]
theorem memInv_takeMessage (x0 : CmdMessage) (s : State) : MemInv (takeMessage x0 s) = MemInv s := by
  unfold takeMessage
  simp only [memInv_mk, memInv_fold, memInv_ite, ite_self, memInv_doFor, memInv_emit, memInv_modStream, memInv_ledProduce,
      memInv_ledDrop, memInv_raiseFault, memInv_refuseMsg, implies_true]
theorem memInv_commandMessage (x0 : CmdMessage) (s : State) : MemInv (commandMessage x0 s) = MemInv s := by
  unfold commandMessage
  simp only [memInv_ite, ite_self, memInv_modBbPort, memInv_recoverMsg, memInv_takeMessage]
theorem memInv_finishMsg (x0 : HeldMsg) (x1 : Nat) (s : State) : MemInv (finishMsg x0 x1 s) = MemInv s := by
  unfold finishMsg
  simp only [memInv_queueResponse, memInv_ledConsume, memInv_modStream]
theorem memInv_discardMsgs (x0 : Nat) (s : State) : MemInv (discardMsgs x0 s) = MemInv s := by
  unfold discardMsgs
  simp only [memInv_mk, memInv_fold, memInv_doFor, memInv_finishMsg, implies_true]
theorem memInv_sendResponse (s : State) : MemInv (sendResponse s) = MemInv s := by
  unfold sendResponse
  split <;> simp only [memInv_mk, memInv_fold, memInv_emit, memInv_modBbPort]
theorem memInv_trigCut (x0 : Nat) (s : State) : MemInv (trigCut x0 s) = MemInv s := by
  unfold trigCut
  simp only [memInv_pulseEnd]
theorem memInv_faultTine (x0 : Nat) (s : State) : MemInv (faultTine x0 s) = MemInv s := by
  unfold faultTine
  split <;> simp only [memInv_groupOff, memInv_engineStop, memInv_auxStop, memInv_trackerStop, memInv_glStop, memInv_pgFault, memInv_trigCut]
theorem memInv_dormantTine (x0 : Nat) (s : State) : MemInv (dormantTine x0 s) = MemInv s := by
  unfold dormantTine
  split <;> simp only [memInv_groupOff, memInv_engineStop, memInv_auxStop, memInv_trackerStop, memInv_glStop, memInv_portDormant,
      memInv_emPrepare, memInv_pgDormant, memInv_trigCut]
theorem memInv_clearTrip (x0 : Nat) (s : State) : MemInv (clearTrip x0 s) = MemInv s := by
  unfold clearTrip
  simp only [memInv_ite, ite_self, memInv_groupClear]
theorem memInv_putState (x0 : Nat) (x1 : UState) (s : State) : MemInv (putState x0 x1 s) = MemInv s := (rfl)
theorem memInv_autoBeam (x0 : Nat) (s : State) : MemInv (autoBeam x0 s) = MemInv s := by
  unfold autoBeam
  simp only [memInv_ite, ite_self, memInv_modUnit, memInv_putState]
theorem memInv_autoInfra (x0 : Nat) (s : State) : MemInv (autoInfra x0 s) = MemInv s := by
  unfold autoInfra
  simp only [memInv_ite, ite_self, memInv_modUnit, memInv_putState]
theorem memInv_prepareExpire (x0 : Nat) (s : State) : MemInv (prepareExpire x0 s) = MemInv s := by
  unfold prepareExpire
  simp only [memInv_ite, ite_self, memInv_modUnit, memInv_raiseFault]
theorem memInv_idleRequest (x0 : Nat) (x1 : List Nat) (s : State) : MemInv (idleRequest x0 x1 s) = MemInv s := (rfl)
theorem memInv_tineIdle (x0 : Nat) (s : State) : MemInv (tineIdle x0 s) = MemInv s := (rfl)
theorem memInv_idleTimeout (s : State) : MemInv (idleTimeout s) = MemInv s := by
  unfold idleTimeout
  split <;> simp only [memInv_mk, memInv_fold, memInv_doFor, memInv_modUnit, memInv_raiseFault, implies_true]
theorem memInv_raiseState (x0 : Nat) (x1 : Nat) (s : State) : MemInv (raiseState x0 x1 s) = MemInv s := by
  unfold raiseState
  simp only [memInv_raiseFault]
theorem memInv_pageResult (x0 : Nat) (x1 : Nat) (s : State) : MemInv (pageResult x0 x1 s) = MemInv s := (rfl)
theorem memInv_pageCommand (x0 : Nat) (x1 : Nat) (x2 : Bool) (s : State) : MemInv (pageCommand x0 x1 x2 s) = MemInv s := by
  unfold pageCommand
  simp only [memInv_ite, ite_self, memInv_emit, memInv_modUnit, memInv_ledProduce, memInv_raiseFault, memInv_raiseState, memInv_pageResult]
theorem memInv_discardPages (s : State) : MemInv (discardPages s) = MemInv s := by
  unfold discardPages
  simp only [memInv_doFor, memInv_modUnit, memInv_ledConsume, implies_true]
theorem memInv_escStep (x0 : Nat) (x1 : Nat) (x2 : UState) (s : State) : MemInv (escStep x0 x1 x2 s) = MemInv s := by
  unfold escStep
  simp only [memInv_ite, ite_self, memInv_modUnit]
theorem memInv_beamState (x0 : Nat) (x1 : Nat) (s : State) : MemInv (beamState x0 x1 s) = MemInv s := by
  unfold beamState
  simp only [memInv_modUnit, memInv_escStep]
theorem memInv_beamStates (x0 : Nat) (s : State) : MemInv (beamStates x0 s) = MemInv s := by
  unfold beamStates
  simp only [memInv_doFor, memInv_beamState, implies_true]
theorem memInv_snapKeep (q u k off : Nat) (m : Word) (r : List (Nat × Word) × State) : MemInv (snapKeep q u k off m r).2 = MemInv r.2 :=
  (memInv_raiseFault _ _ _ _ _).trans (memInv_setShadow _ _ r.2)
theorem memInv_snapHold (off : Nat) (m : Word) (r : List (Nat × Word) × State) : MemInv (snapHold off m r).2 = MemInv r.2 :=
  memInv_setShadow _ _ r.2
theorem memInv_snapKeepAll (q u k : Nat) (offs : List Nat) (r : List (Nat × Word) × State) : MemInv (snapKeepAll q u k offs r).2 = MemInv r.2 := by
  unfold snapKeepAll
  split
  · rfl
  · exact (memInv_foldl_snd _ (fun r o => memInv_snapHold o _ r) _ _).trans (memInv_snapKeep q u k _ _ r)
theorem memInv_ite_pair {α : Type} (c : Prop) [Decidable c] (a b r : α × State) (ha : MemInv a.2 = MemInv r.2) (hb : MemInv b.2 = MemInv r.2) :
    MemInv (if c then a else b).2 = MemInv r.2 := by
  split
  · exact ha
  · exact hb
theorem memInv_xgSnap (n : Nat) (r : List (Nat × Word) × State) : MemInv (xgSnap n r).2 = MemInv r.2 := by
  unfold xgSnap
  apply memInv_foldl_snd
  intro r _
  exact memInv_ite_pair _ _ _ r rfl (memInv_xgCtrlChange _ _ _ r.2)
theorem memInv_auxSnapChan (a : Nat) (r : List (Nat × Word) × State) : MemInv (auxSnapChan a r).2 = MemInv r.2 :=
  have h := memInv_ite_pair _ _ _ r (memInv_snapKeep _ _ _ _ _ r) rfl
  (memInv_ite_pair _ _ _ _ (memInv_snapKeep _ _ _ _ _ _) rfl).trans h
theorem memInv_auxSnapSlice (a : Nat) (r : List (Nat × Word) × State) : MemInv (auxSnapSlice a r).2 = MemInv r.2 := by
  unfold auxSnapSlice
  extract_lets o chans chg busy long keepDisch both r1 r2
  have hk : ∀ r a, MemInv (keepDisch r a).2 = MemInv r.2 := fun r a => memInv_ite_pair _ _ _ r (memInv_snapKeep _ _ _ _ _ r) rfl
  have h1 : MemInv r1.2 = MemInv r.2 := by
    simp only [r1]
    split
    · split
      · exact memInv_snapKeep _ _ _ _ _ r
      · rfl
    · rfl
  have h2 : MemInv r2.2 = MemInv r1.2 := memInv_foldl_snd _ hk _ r1
  exact (memInv_foldl_snd _ hk _ r2).trans (h2.trans h1)
theorem memInv_auxSnap (r : List (Nat × Word) × State) : MemInv (auxSnap r).2 = MemInv r.2 :=
  (memInv_foldl_snd _ (fun r e => memInv_auxSnapSlice e r) _ _).trans (memInv_foldl_snd _ (fun r e => memInv_auxSnapChan e r) _ _)
theorem memInv_trkSnap (r : List (Nat × Word) × State) : MemInv (trkSnap r).2 = MemInv r.2 :=
  memInv_foldl_snd _ (fun r _ => memInv_ite_pair _ _ _ r rfl
    ((memInv_ite_pair _ _ _ _ (memInv_snapKeep _ _ _ _ _ _) rfl).trans (memInv_ite_pair _ _ _ r (memInv_snapKeep _ _ _ _ _ r) rfl))) _ _
theorem memInv_jntSnap (r : List (Nat × Word) × State) : MemInv (jntSnap r).2 = MemInv r.2 :=
  (memInv_foldl_snd _ (fun r _ => (memInv_ite_pair _ _ _ _ rfl (memInv_snapKeepAll _ _ _ _ _)).trans
      (memInv_ite_pair _ _ _ r (memInv_snapKeepAll _ _ _ _ r) rfl)) _ _).trans
    (memInv_foldl_snd _ (fun r _ => memInv_ite_pair _ _ _ r (memInv_snapKeep _ _ _ _ _ r) rfl) _ _)
theorem memInv_incSnap (r : List (Nat × Word) × State) : MemInv (incSnap r).2 = MemInv r.2 :=
  (memInv_foldl_snd _ (fun r _ => memInv_ite_pair _ _ _ r rfl
    ((memInv_ite_pair _ _ _ _ (memInv_snapKeep _ _ _ _ _ _) rfl).trans (memInv_ite_pair _ _ _ r (memInv_snapKeep _ _ _ _ _ r) rfl))) _ _).trans
  (memInv_foldl_snd _ (fun r _ => memInv_ite_pair _ _ _ r rfl
    ((memInv_ite_pair _ _ _ _ (memInv_snapKeep _ _ _ _ _ _) rfl).trans (memInv_ite_pair _ _ _ r (memInv_snapKeep _ _ _ _ _ r) rfl))) _ _)
theorem memInv_motSnapGen (g : Nat) (r : List (Nat × Word) × State) : MemInv (motSnapGen g r).2 = MemInv r.2 := by
  unfold motSnapGen
  extract_lets o u chg keep keep2 s st x busy moving ws r0 r1 r2 geared r3 r4 r5 r6 less r7 r8 r9 on sp out ra out2 rb on2 t rc rd re
  have hk : ∀ c d m r, MemInv (keep c d m r).2 = MemInv r.2 := fun c d m r => memInv_ite_pair _ _ _ r (memInv_snapKeep _ _ _ _ _ r) rfl
  have hk2 : ∀ c ds r, MemInv (keep2 c ds r).2 = MemInv r.2 := fun c ds r => memInv_ite_pair _ _ _ r (memInv_snapKeepAll _ _ _ _ r) rfl
  have h3 : MemInv r3.2 = MemInv r.2 := (hk _ _ _ r2).trans ((hk _ _ _ r1).trans ((hk _ _ _ r0).trans (hk _ _ _ r)))
  have h6 : MemInv r6.2 = MemInv r.2 := (hk _ _ _ r5).trans ((hk _ _ _ r4).trans ((hk _ _ _ r3).trans h3))
  have h9 : MemInv r9.2 = MemInv r.2 := (hk _ _ _ r8).trans ((hk _ _ _ r7).trans ((hk _ _ _ r6).trans h6))
  have hc : MemInv rc.2 = MemInv r.2 := (hk2 _ _ rb).trans ((hk _ _ _ ra).trans ((hk2 _ _ r9).trans h9))
  have he : MemInv re.2 = MemInv r.2 := (hk _ _ _ rd).trans ((hk _ _ _ rc).trans hc)
  split
  · rfl
  · exact (hk _ _ _ re).trans he
theorem memInv_motSnap (r : List (Nat × Word) × State) : MemInv (motSnap r).2 = MemInv r.2 :=
  memInv_foldl_snd _ (fun r g => memInv_motSnapGen g r) _ r
theorem memInv_refineSnap (x0 : Nat) (x1 : List (Nat × Word)) (s : State) : MemInv (refineSnap x0 x1 s).2 = MemInv s :=
  (memInv_motSnap _).trans ((memInv_incSnap _).trans ((memInv_jntSnap _).trans ((memInv_trkSnap _).trans ((memInv_auxSnap _).trans (memInv_xgSnap x0 (x1, s))))))
theorem memInv_commitWrite (x0 : Word) (s : State) : MemInv (commitWrite x0 s) = MemInv s := by
  unfold commitWrite
  extract_lets res want
  split
  · rfl
  · split
    · rfl
    · split
      · rfl
      · refine (memInv_doFor _ _ (fun e s => ?_) _).trans ((memInv_ledProduce 0 1 _).trans rfl)
        split
        · exact memInv_noteSwapRequest _ _ s
        · rfl
theorem memInv_discardPending (x0 : Nat) (s : State) : MemInv (discardPending x0 s) = MemInv s := by
  unfold discardPending
  split <;> simp only [memInv_mk, memInv_fold, memInv_ledConsume, memInv_discardMsgs, memInv_discardPages]
theorem memInv_slotResult (x0 : Nat) (x1 : Option Nat) (s : State) : MemInv (slotResult x0 x1 s) = MemInv s := by
  unfold slotResult
  simp only [memInv_mk, memInv_fold, memInv_intSource]
theorem memInv_slotIgnored (x0 : Nat) (s : State) : MemInv (slotIgnored x0 s) = MemInv s := by
  unfold slotIgnored
  simp only [memInv_raiseFault]
theorem memInv_slotAtOnce (x0 : Nat) (x1 : Option Nat) (s : State) : MemInv (slotAtOnce x0 x1 s) = MemInv s := by
  unfold slotAtOnce
  simp only [memInv_ledProduce, memInv_ledConsume, memInv_slotResult]
theorem memInv_stageStart (s : State) : MemInv (stageStart s) = MemInv s := by
  unfold stageStart
  simp only [memInv_mk, memInv_fold, memInv_ite, ite_self, memInv_ledProduce, memInv_raiseFault, memInv_slotIgnored, memInv_slotAtOnce]
theorem memInv_keepHash (x0 : List Byte) (x1 : BitVec 384) (s : State) : MemInv (keepHash x0 x1 s) = MemInv s := (rfl)
theorem memInv_stageComplete (s : State) : MemInv (stageComplete s) = MemInv s := by
  unfold stageComplete
  simp only []
  (repeat' split) <;> simp only [memInv_mk, memInv_fold, memInv_ledConsume, memInv_raiseFault, memInv_slotResult, memInv_keepHash]
theorem memInv_slotSwitch (x0 : Bool) (x1 : Bool) (s : State) : MemInv (slotSwitch x0 x1 s) = MemInv s := by
  unfold slotSwitch
  simp only [memInv_mk, memInv_fold, memInv_ite, ite_self, memInv_ledProduce, memInv_slotIgnored, memInv_slotAtOnce]
theorem memInv_discardStaged (s : State) : MemInv (discardStaged s) = MemInv s := by
  unfold discardStaged
  simp only [memInv_mk, memInv_fold, memInv_ite, ite_self, memInv_slotIgnored, memInv_slotAtOnce]
theorem memInv_slotCmd (x0 : Word) (s : State) : MemInv (slotCmd x0 s) = MemInv s := by
  unfold slotCmd
  split <;> simp only [memInv_ite, ite_self, memInv_slotIgnored, memInv_slotAtOnce, memInv_stageStart, memInv_slotSwitch, memInv_discardStaged]
theorem memInv_setFloor (x0 : Nat) (s : State) : MemInv (setFloor x0 s) = MemInv s := (rfl)
theorem memInv_floorApply (s : State) : MemInv (floorApply s) = MemInv s := by
  unfold floorApply
  split <;> simp only [memInv_mk, memInv_fold, memInv_raiseFault, memInv_setFloor]
theorem memInv_velvetEnd (x0 : Nat) (s : State) : MemInv (velvetEnd x0 s) = MemInv s := by
  unfold velvetEnd
  split <;> simp only [memInv_mk, memInv_fold, memInv_ite, ite_self, memInv_floorApply]
theorem memInv_twinAtSwitch (x0 : Nat) (s : State) : MemInv (twinAtSwitch x0 s) = MemInv s := by
  unfold twinAtSwitch
  simp only [memInv_mk, memInv_fold, memInv_ite, ite_self, memInv_sendTwin]
theorem memInv_considerImage (x0 : List Byte) (s : State) : MemInv (considerImage x0 s).2 = MemInv s := by
  unfold considerImage
  split <;> simp only [memInv_raiseFault, memInv_slotResult]
theorem memInv_svcPublish (x0 : Nat) (x1 : List Byte) (s : State) : MemInv (svcPublish x0 x1 s) = MemInv s := by
  unfold svcPublish
  simp only [memInv_mk, memInv_fold, memInv_intSource]
theorem memInv_svcIfFree (x0 : Nat) (x1 : State → State) (h : ∀ s, MemInv (x1 s) = MemInv s) (s : State) : MemInv (svcIfFree x0 x1 s) = MemInv s := by
  unfold svcIfFree
  simp only [memInv_ite, ite_self, memInv_raiseFault, h]
theorem memInv_svcRun (x0 : Nat) (x1 : Option (Nat × List Byte)) (s : State) : MemInv (svcRun x0 x1 s) = MemInv s := (rfl)
theorem memInv_svcRequest (x0 : Nat) (x1 : State → (Nat × List Byte) × State) (h : ∀ s, MemInv (x1 s).2 = MemInv s) (s : State) :
    MemInv (svcRequest x0 x1 s) = MemInv s := by
  unfold svcRequest
  simp only [memInv_svcIfFree, memInv_svcRun, h, implies_true]
theorem memInv_withAuth (x0 x1 : Nat) (x2 : List Byte → State → Nat × State) (h : ∀ b s, MemInv (x2 b s).2 = MemInv s) (s : State) :
    MemInv (withAuth x0 x1 x2 s).2 = MemInv s := by
  unfold withAuth
  split <;> simp only [ite_self, memInv_raiseFault, h, memInv_ite_snd]
theorem memInv_burnFuse (x0 : Nat) (x1 : State → State) (h : ∀ s, MemInv (x1 s) = MemInv s) (s : State) : MemInv (burnFuse x0 x1 s).2 = MemInv s := by
  unfold burnFuse
  simp only [ite_self, memInv_drawNat, h, memInv_ite_snd]
theorem memInv_ownBurn (x0 : List Byte) (s : State) : MemInv (ownBurn x0 s).2 = MemInv s := by
  unfold ownBurn
  simp only [memInv_mk, memInv_fold, ite_self, memInv_raiseFault, memInv_burnFuse, implies_true, memInv_ite_snd]
theorem memInv_slotRevoke (x0 : List Byte) (s : State) : MemInv (slotRevoke x0 s).2 = MemInv s := by
  unfold slotRevoke
  simp only [memInv_mk, memInv_fold, ite_self, memInv_raiseFault, memInv_burnFuse, implies_true, memInv_ite_snd]
theorem memInv_imgkeyLoad (x0 : List Byte) (s : State) : MemInv (imgkeyLoad x0 s).2 = MemInv s := by
  unfold imgkeyLoad
  simp only []
  (repeat' split) <;> simp only [memInv_mk, memInv_fold, memInv_drawNat]
theorem memInv_imgkeyErase (x0 : Nat) (s : State) : MemInv (imgkeyErase x0 s).2 = MemInv s := by
  unfold imgkeyErase
  simp only [memInv_mk, memInv_fold, ite_self, memInv_ite_snd]
theorem memInv_floorRaise (x0 : Nat) (s : State) : MemInv (floorRaise x0 s) = MemInv s := by
  unfold floorRaise
  simp only [memInv_mk, memInv_fold, memInv_ite, ite_self, memInv_raiseFault, memInv_setFloor, memInv_svcPublish, memInv_svcRun]
theorem memInv_sessionRefused (x0 : Nat) (x1 : List Byte) (s : State) : MemInv (sessionRefused x0 x1 s) = MemInv s := by
  unfold sessionRefused
  simp only [memInv_raiseFault]
theorem memInv_sessionReply (x0 : List Byte) (s : State) : MemInv (sessionReply x0 s).2 = MemInv s := (rfl)
theorem memInv_sessionDue (x0 : Nat) (x1 : Nat) (s : State) : MemInv (sessionDue x0 x1 s) = MemInv s := by
  unfold sessionDue
  simp only []
  (repeat' split) <;> simp only [memInv_modStream, memInv_modSession, memInv_raiseFault]
theorem memInv_sessionBoundary (x0 : Nat) (s : State) : MemInv (sessionBoundary x0 s) = MemInv s := by
  unfold sessionBoundary
  simp only [memInv_doFor, memInv_sessionDue, implies_true]
theorem memInv_sessionCloseWork (x0 : Nat) (s : State) : MemInv (sessionCloseWork x0 s).2 = MemInv s := by
  unfold sessionCloseWork
  simp only [ite_self, memInv_ite_snd]
theorem memInv_sessionClose (x0 : Nat) (s : State) : MemInv (sessionClose x0 s) = MemInv s := (rfl)
theorem memInv_sessionOpenWork (s : State) : MemInv (sessionOpenWork s).2 = MemInv s := by
  unfold sessionOpenWork
  split <;> simp only [ite_self, memInv_sessionRefused, memInv_ite_snd]
theorem memInv_keepView (s : State) : MemInv (keepView s) = MemInv s := (rfl)
theorem memInv_svcCertGet (s : State) : MemInv (svcCertGet s) = MemInv s := by
  unfold svcCertGet
  simp only [memInv_svcRequest, implies_true]
theorem memInv_svcAttest (s : State) : MemInv (svcAttest s) = MemInv s := by
  unfold svcAttest
  simp only [memInv_svcRequest, implies_true]
theorem memInv_svcOwnBurn (s : State) : MemInv (svcOwnBurn s) = MemInv s := by
  unfold svcOwnBurn
  simp only [memInv_svcRequest, memInv_withAuth, memInv_ownBurn, implies_true]
theorem memInv_svcSlotRevoke (s : State) : MemInv (svcSlotRevoke s) = MemInv s := by
  unfold svcSlotRevoke
  simp only [memInv_svcRequest, memInv_withAuth, memInv_slotRevoke, implies_true]
theorem memInv_svcImgkeyLoad (s : State) : MemInv (svcImgkeyLoad s) = MemInv s := by
  unfold svcImgkeyLoad
  simp only [memInv_svcRequest, memInv_withAuth, memInv_imgkeyLoad, implies_true]
theorem memInv_svcImgkeyErase (s : State) : MemInv (svcImgkeyErase s) = MemInv s :=
  memInv_svcRequest _ _ (fun s => memInv_imgkeyErase _ s) s
theorem memInv_svcFloorRaise (s : State) : MemInv (svcFloorRaise s) = MemInv s := by
  unfold svcFloorRaise
  simp only [memInv_svcIfFree, memInv_floorRaise, implies_true]
theorem memInv_svcSessionOpen (s : State) : MemInv (svcSessionOpen s) = MemInv s := by
  unfold svcSessionOpen
  simp only [memInv_svcRequest, memInv_sessionOpenWork, implies_true]
theorem memInv_svcSessionClose (s : State) : MemInv (svcSessionClose s) = MemInv s :=
  memInv_svcRequest _ _ (fun s => memInv_sessionCloseWork _ s) s
theorem memInv_serviceComplete (s : State) : MemInv (serviceComplete s) = MemInv s := by
  unfold serviceComplete
  split <;> simp only [memInv_ite, ite_self, memInv_svcPublish, memInv_sessionReply, memInv_sessionClose]
theorem memInv_sessionRequest (x0 : List Byte) (s : State) : MemInv (sessionRequest x0 s) = MemInv s := by
  unfold sessionRequest
  simp only [memInv_ite, ite_self, memInv_emit, memInv_sessionRefused, memInv_sessionReply]
theorem memInv_closeSessions (s : State) : MemInv (closeSessions s) = MemInv s := (rfl)
theorem memInv_raiseOrHold (x0 : Nat) (x1 : Nat) (x2 : Nat) (x3 : Nat) (s : State) : MemInv (raiseOrHold x0 x1 x2 x3 s) = MemInv s := by
  unfold raiseOrHold
  simp only [memInv_mk, memInv_fold, memInv_ite, ite_self, memInv_raiseFault]
theorem memInv_unlock (x0 : Nat) (x1 : List Byte) (x2 : List Byte) (s : State) : MemInv (unlock x0 x1 x2 s) = MemInv s := by
  unfold unlock
  simp only [memInv_mk, memInv_fold, memInv_ite, ite_self, memInv_alarmEnter, memInv_drawChal, memInv_closeSessions, memInv_raiseOrHold]
theorem memInv_setIr (x0 : JtagIr) (s : State) : MemInv (setIr x0 s) = MemInv s := (rfl)
theorem memInv_fuseProg (x0 : BitVec 64) (x1 : BitVec 15) (s : State) : MemInv (fuseProg x0 x1 s) = MemInv s := by
  unfold fuseProg
  simp only [memInv_mk, memInv_fold, memInv_ite, ite_self, memInv_setIr]
theorem memInv_setMode (x0 : Nat) (x1 : Nat) (s : State) : MemInv (setMode x0 x1 s) = MemInv s := by
  unfold setMode
  simp only [memInv_modTwn, memInv_setBiasSplit]
theorem memInv_ownAll (x0 : Bool) (s : State) : MemInv (ownAll x0 s) = MemInv s := by
  unfold ownAll
  simp only [memInv_doFor, memInv_setOwner, implies_true]
theorem memInv_ownByMap (s : State) : MemInv (ownByMap s) = MemInv s := by
  unfold ownByMap
  simp only [memInv_doFor, memInv_setOwner, implies_true]
theorem memInv_degrade (x0 : Nat) (s : State) : MemInv (degrade x0 s) = MemInv s := by
  unfold degrade
  simp only [memInv_setMode, memInv_ownAll]
theorem memInv_twinFailure (x0 : Nat) (s : State) : MemInv (twinFailure x0 s) = MemInv s := by
  unfold twinFailure
  simp only [memInv_ite, ite_self, memInv_modTwn, memInv_sendTwin]
theorem memInv_sendCrc (x0 : Word) (s : State) : MemInv (sendCrc x0 s) = MemInv s := by
  unfold sendCrc
  simp only [memInv_twinSend]
theorem memInv_twinFrame (s : State) : MemInv (twinFrame s) = MemInv s := by
  unfold twinFrame
  simp only [memInv_ite, ite_self, memInv_modTwn, memInv_sendTwin, memInv_sendCrc]
theorem memInv_settingsCrc (x0 : Word) (s : State) : MemInv (settingsCrc x0 s) = MemInv s := by
  unfold settingsCrc
  simp only [memInv_ite, ite_self, memInv_raiseFault, memInv_modTwn, memInv_twinFailure, memInv_sendCrc]
theorem memInv_twinLoss (s : State) : MemInv (twinLoss s) = MemInv s := by
  unfold twinLoss
  simp only [memInv_ite, ite_self, memInv_modTwn, memInv_twinFailure]
theorem memInv_twinLinkUp (x0 : BitVec 64) (x1 : Bool) (s : State) : MemInv (twinLinkUp x0 x1 s) = MemInv s := by
  unfold twinLinkUp
  simp only [memInv_ite, ite_self, memInv_drawNat, memInv_raiseFault, memInv_modTwn]
theorem memInv_twinBack (s : State) : MemInv (twinBack s) = MemInv s := by
  unfold twinBack
  simp only [memInv_ite, ite_self, memInv_modTwn]
theorem memInv_twinSession (x0 : TwinHello) (x1 : BitVec 256) (s : State) : MemInv (twinSession x0 x1 s) = MemInv s := by
  unfold twinSession
  simp only [memInv_ite, ite_self, memInv_emit, memInv_modSession, memInv_raiseFault, memInv_modTwn]
theorem memInv_twinLinkDown (x0 : BitVec 4) (s : State) : MemInv (twinLinkDown x0 s) = MemInv s := by
  unfold twinLinkDown
  simp only [memInv_ite, ite_self, memInv_modSession, memInv_modTwn, memInv_twinLoss]
theorem memInv_checkUnit_twinFailure (s : State) : MemInv (checkUnit.twinFailure' s) = MemInv s := by
  unfold checkUnit.twinFailure'
  split
  · exact memInv_twinFailure 1 s
  · rfl
theorem memInv_checkUnit (x0 : PeerUnit) (s : State) : MemInv (checkUnit x0 s) = MemInv s := by
  unfold checkUnit
  extract_lets u k own old m mis bad agree neg s1 raise s2
  have h1 : MemInv s1 = MemInv s := memInv_modTwinRes _ _ s
  have hr : ∀ a b s, MemInv (raise a b s) = MemInv s := fun a b s =>
    (memInv_checkUnit_twinFailure _).trans ((memInv_raiseFault _ _ _ _ _).trans (memInv_modTwn _ s))
  have h2 : MemInv s2 = MemInv s1 := by
    simp only [s2]; split
    · exact hr _ _ s1
    · rfl
  split
  · rfl
  · split
    · exact (hr _ _ s2).trans (h2.trans h1)
    · exact h2.trans h1
theorem memInv_checkUnit_twinFailure_p (s : State) : MemInv (checkUnit.twinFailure' s) = MemInv s := by
  unfold checkUnit.twinFailure'
  simp only [memInv_ite, ite_self, memInv_twinFailure]
theorem memInv_blockArrival (x0 : Nat) (x1 : List PeerUnit) (s : State) : MemInv (blockArrival x0 x1 s) = MemInv s := by
  unfold blockArrival
  simp only [memInv_ite, ite_self, memInv_doFor, memInv_modTwinRes, memInv_modTwn, memInv_twinBack, memInv_checkUnit, implies_true]
theorem memInv_blockDeadline (x0 : Nat) (s : State) : MemInv (blockDeadline x0 s) = MemInv s := by
  unfold blockDeadline
  simp only [memInv_ite, ite_self, memInv_modTwn, memInv_twinLoss]
theorem memInv_clearChecks (x0 : Nat) (s : State) : MemInv (clearChecks x0 s) = MemInv s := by
  unfold clearChecks
  simp only [memInv_mk, memInv_fold, memInv_ite, ite_self]
theorem memInv_attachRefused (x0 : Nat) (s : State) : MemInv (attachRefused x0 s) = MemInv s := by
  unfold attachRefused
  simp only [memInv_raiseFault]
theorem memInv_svcAttach (s : State) : MemInv (svcAttach s) = MemInv s := by
  unfold svcAttach
  simp only [memInv_ite, ite_self, memInv_modTwn, memInv_sendTwin, memInv_svcIfFree, memInv_svcRun, memInv_attachRefused, implies_true]
theorem memInv_svcDetach (s : State) : MemInv (svcDetach s) = MemInv s := by
  unfold svcDetach
  simp only [memInv_ite, ite_self, memInv_modTwn, memInv_sendTwin, memInv_svcIfFree, memInv_svcRun, implies_true]
theorem memInv_svcOwnSet (s : State) : MemInv (svcOwnSet s) = MemInv s := by
  unfold svcOwnSet
  simp only [memInv_ite, ite_self, memInv_modTwn, memInv_sendTwin, memInv_svcIfFree, memInv_svcRun, implies_true]
theorem memInv_svcAtBoundary (x0 : Nat) (x1 : Nat) (x2 : List Byte) (s : State) : MemInv (svcAtBoundary x0 x1 x2 s) = MemInv s := by
  unfold svcAtBoundary
  simp only [memInv_ite, ite_self, memInv_svcPublish]
theorem memInv_joinCheck (s : State) : MemInv (joinCheck s) = MemInv s := by
  unfold joinCheck
  simp only [memInv_ite, ite_self, memInv_modTwn, memInv_sendTwin]
theorem memInv_sendSettings (x0 : List (Nat × Word)) (x1 : List (Nat × Word)) (s : State) : MemInv (sendSettings x0 x1 s) = MemInv s := by
  unfold sendSettings
  simp only [memInv_doFor, memInv_sendTwin, implies_true]
theorem memInv_sendItems (s : State) : MemInv (sendItems s) = MemInv s := by
  unfold sendItems
  simp only [memInv_doFor, memInv_sendTwin, implies_true]
theorem memInv_takeCmps (x0 : Nat) (x1 : List CmpSt) (s : State) : MemInv (takeCmps x0 x1 s) = MemInv s := by
  unfold takeCmps
  simp only [memInv_doFor, memInv_modCmp, implies_true]
theorem memInv_takeItem (x0 : Nat) (x1 : Nat) (x2 : TwinItem) (s : State) : MemInv (takeItem x0 x1 x2 s) = MemInv s := by
  unfold takeItem
  split <;> simp only [memInv_modUnit, memInv_modXg, memInv_modSe, memInv_modTk, memInv_modGl, memInv_modIp, memInv_modEm,
      memInv_modPg, memInv_ledProduce, memInv_ledDrop, memInv_takeCmps]
theorem memInv_attachStep (x0 : Nat) (s : State) : MemInv (attachStep x0 s) = MemInv s := by
  unfold attachStep
  split <;> simp only [memInv_mk, memInv_fold, memInv_ite, ite_self, memInv_modTwn, memInv_setMode, memInv_ownAll,
      memInv_attachRefused, memInv_svcAtBoundary, memInv_sendSettings]
theorem memInv_countFrame (s : State) : MemInv (countFrame s) = MemInv s := by
  unfold countFrame
  simp only [memInv_ite, ite_self, memInv_modTwn]
theorem memInv_ownSetStep (x0 : Nat) (s : State) : MemInv (ownSetStep x0 s) = MemInv s := by
  unfold ownSetStep
  simp only [memInv_ite, ite_self, memInv_modTwn, memInv_ownByMap, memInv_svcAtBoundary]
theorem memInv_groupOrphan (x0 : Nat) (s : State) : MemInv (groupOrphan x0 s) = MemInv s := by
  unfold groupOrphan
  simp only [memInv_ite, ite_self, memInv_modTwn]
theorem memInv_skewFrame (s : State) : MemInv (skewFrame s) = MemInv s := by
  unfold skewFrame
  simp only [memInv_setCond, memInv_modTwn]
theorem memInv_twinSkew (x0 : Nat) (x1 : Int) (s : State) : MemInv (twinSkew x0 x1 s) = MemInv s := (rfl)
theorem memInv_modSlots (x0 : SlotSt → SlotSt) (s : State) : MemInv (modSlots x0 s) = MemInv s := (rfl)
theorem memInv_p6Rollback (s : State) : MemInv (p6Rollback s).2 = MemInv s := by
  unfold p6Rollback
  simp only [memInv_mk, memInv_fold, ite_self, memInv_raiseFault, memInv_floorApply, memInv_modSlots, memInv_ite_snd]
theorem memInv_p6Try (x0 : Option (List Byte)) (s : State) : MemInv (p6Try x0 s).2 = MemInv s := by
  unfold p6Try
  split <;> simp only [memInv_considerImage]
theorem memInv_modHrd (x0 : HrdSt → HrdSt) (s : State) : MemInv (modHrd x0 s) = MemInv s := (rfl)
theorem memInv_herdTrained (x0 : Bool) (x1 : Bool) (s : State) : MemInv (herdTrained x0 x1 s) = MemInv s := (rfl)
theorem memInv_enumerate (s : State) : MemInv (enumerate s) = MemInv s := by
  unfold enumerate
  simp only [memInv_ite, ite_self, memInv_emit, memInv_modHrd]
theorem memInv_svcHerdEnum (s : State) : MemInv (svcHerdEnum s) = MemInv s := by
  unfold svcHerdEnum
  simp only [memInv_ite, ite_self, memInv_svcIfFree, memInv_svcRun, memInv_enumerate, implies_true]
theorem memInv_enumReturn (x0 : BitVec 64) (x1 : List (BitVec 64)) (s : State) : MemInv (enumReturn x0 x1 s) = MemInv s := by
  unfold enumReturn
  simp only [memInv_ite, ite_self, memInv_raiseFault, memInv_svcAtBoundary, memInv_modHrd]
theorem memInv_commandRelay (x0 : Nat) (x1 : Nat) (x2 : Nat) (s : State) : MemInv (commandRelay x0 x1 x2 s) = MemInv s := by
  unfold commandRelay
  simp only [memInv_ite, ite_self, memInv_emit, memInv_modHrd]
theorem memInv_formPartials (s : State) : MemInv (formPartials s) = MemInv s := (rfl)
theorem memInv_tokenLost (s : State) : MemInv (tokenLost s) = MemInv s := by
  unfold tokenLost
  split <;> simp only [memInv_ledDrop, memInv_raiseFault, memInv_modHrd]
theorem memInv_tokenIssue (s : State) : MemInv (tokenIssue s) = MemInv s := by
  unfold tokenIssue
  simp only [memInv_ite, ite_self, memInv_emit, memInv_ledProduce, memInv_modHrd, memInv_tokenLost]
theorem memInv_hashCheck (x0 : BitVec 384) (s : State) : MemInv (hashCheck x0 s) = MemInv s := by
  unfold hashCheck
  simp only [memInv_ite, ite_self, memInv_raiseFault, memInv_modHrd]
theorem memInv_tokenReceive (x0 : Nat) (x1 : List (Nat × Nat × Nat)) (x2 : List TokenPart) (x3 : BitVec 384) (x4 : TokenHop)
    (s : State) : MemInv (tokenReceive x0 x1 x2 x3 x4 s) = MemInv s := by
  unfold tokenReceive
  simp only [memInv_ite, ite_self, memInv_emit, memInv_ledProduce, memInv_ledConsume, memInv_ledDrop, memInv_raiseFault,
      memInv_modHrd, memInv_hashCheck]
theorem memInv_retireToken (x0 : Nat) (x1 : List TokenPart) (x2 : Nat) (s : State) : MemInv (retireToken x0 x1 x2 s) = MemInv s := by
  unfold retireToken
  simp only [memInv_ite, ite_self, memInv_ledConsume, memInv_modHrd]
theorem memInv_tokenRetire (x0 : Nat) (x1 : List TokenPart) (x2 : Bool) (x3 : Nat) (s : State) : MemInv (tokenRetire x0 x1 x2 x3 s) = MemInv s := by
  unfold tokenRetire
  simp only [memInv_ite, ite_self, memInv_emit, memInv_retireToken]
theorem memInv_tokenAbsent (s : State) : MemInv (tokenAbsent s) = MemInv s := by
  unfold tokenAbsent
  simp only [memInv_ite, ite_self, memInv_raiseFault, memInv_modHrd]
theorem memInv_ringOpen (x0 : Bool) (x1 : List Nat) (s : State) : MemInv (ringOpen x0 x1 s) = MemInv s := by
  unfold ringOpen
  simp only [memInv_raiseFault, memInv_modHrd]
theorem memInv_herdBoundary (s : State) : MemInv (herdBoundary s) = MemInv s := by
  unfold herdBoundary
  simp only [memInv_ite, ite_self, memInv_modHrd, memInv_tokenLost]
theorem memInv_dropRelays (x0 : Nat) (s : State) : MemInv (dropRelays x0 s) = MemInv s := (rfl)
theorem memInv_modRst (f : RstSt → RstSt) (s : State) : MemInv (modRst f s) = MemInv s := by
  simp only [MemInv, modRst]
theorem memInv_holdBack (x0 : Nat) (x1 : Nat) (x2 : Nat) (s : State) : MemInv (holdBack x0 x1 x2 s) = MemInv s := (rfl)
theorem memInv_tamperNote (x0 : Nat) (s : State) : MemInv (tamperNote x0 s) = MemInv s := (rfl)
theorem memInv_sourceRelease (x0 : Nat) (s : State) : MemInv (sourceRelease x0 s) = MemInv s := by
  unfold sourceRelease
  simp only [memInv_ite, ite_self, memInv_alarmLeave, memInv_releaseSlices, memInv_modRst]
theorem memInv_seenClear (x0 : Word) (s : State) : MemInv (seenClear x0 s) = MemInv s := (rfl)
theorem memInv_enterPhase (x0 : Nat) (s : State) : MemInv (enterPhase x0 s) = MemInv s := (rfl)
theorem memInv_attemptFail (x0 : Nat) (s : State) : MemInv (attemptFail x0 s) = MemInv s := by
  unfold attemptFail
  simp only [memInv_enterPhase, memInv_modRst, memInv_holdBack]
theorem memInv_loadOptions (s : State) : MemInv (loadOptions s) = MemInv s := (rfl)
theorem memInv_enterReady (x0 : Nat) (s : State) : MemInv (enterReady x0 s) = MemInv s := by
  unfold enterReady
  simp only [memInv_mk, memInv_fold, memInv_doFor, memInv_numberFrames, memInv_raiseFault, memInv_alarmLeave, memInv_modRst, implies_true]
theorem memInv_calibrated (s : State) : MemInv (calibrated s) = MemInv s := by
  unfold calibrated
  split <;> simp only [memInv_raiseFault, memInv_modRst]
theorem memInv_floorLoad (i : Bool) (f : Nat) (s : State) :
    MemInv { s with sec := { s.sec with identityOk := i, floor := f } } = MemInv s := rfl
theorem memInv_secureLoad (s : State) : MemInv (secureLoad s) = MemInv s := by
  unfold secureLoad
  extract_lets r s1 s2 s3
  have h1 : MemInv s1 = MemInv s := memInv_floorLoad _ _ s
  clear_value s1
  have h2 : MemInv s2 = MemInv s1 := by
    simp only [s2]; split
    · exact memInv_holdBack _ _ _ s1
    · rfl
  clear_value s2
  have h3 : MemInv s3 = MemInv s2 := by
    simp only [s3]; split
    · exact memInv_holdBack _ _ _ s2
    · rfl
  clear_value s3
  split
  · exact h3.trans (h2.trans h1)
  · exact (memInv_holdBack _ _ _ s3).trans (h3.trans (h2.trans h1))
theorem memInv_deferralTimeout (x0 : Nat) (s : State) : MemInv (deferralTimeout x0 s) = MemInv s := by
  unfold deferralTimeout
  simp only [memInv_ite, ite_self, memInv_raiseOrHold, memInv_attemptFail]
theorem memInv_reqRefused (x0 : Nat) (s : State) : MemInv (reqRefused x0 s) = MemInv s := by
  unfold reqRefused
  simp only [memInv_raiseFault]
theorem memInv_reqTwin (x0 : Word) (x1 : Bool) (s : State) : MemInv (reqTwin x0 x1 s) = MemInv s := by
  unfold reqTwin
  simp only [memInv_ite, ite_self, memInv_sendTwin, memInv_reqRefused]
theorem memInv_reqHerd (x0 : Word) (x1 : Bool) (x2 : Bool) (s : State) : MemInv (reqHerd x0 x1 x2 s) = MemInv s := by
  unfold reqHerd
  simp only [memInv_ite, ite_self, memInv_emit, memInv_reqRefused]
theorem memInv_wdtReload (s : State) : MemInv (wdtReload s) = MemInv s := (rfl)
theorem memInv_wdtCtrl (x0 : Word) (s : State) : MemInv (wdtCtrl x0 s) = MemInv s := by
  unfold wdtCtrl
  simp only [memInv_ite, ite_self, memInv_setRw, memInv_modRst, memInv_reqRefused, memInv_wdtReload]
theorem memInv_wdtKick (x0 : Word) (s : State) : MemInv (wdtKick x0 s) = MemInv s := by
  unfold wdtKick
  simp only [memInv_ite, ite_self, memInv_wdtReload]
theorem memInv_linkChange (x0 : Bool) (x1 : Nat) (x2 : Nat) (x3 : PcieFn) (s : State) : MemInv (linkChange x0 x1 x2 x3 s) = MemInv s := by
  unfold linkChange
  simp only [memInv_mk, memInv_fold, memInv_ite, ite_self, memInv_raiseFault, memInv_setBme, memInv_dmaForced]
theorem memInv_startFrame (x0 : Nat) (s : State) : MemInv (startFrame x0 s) = MemInv s := (rfl)
theorem memInv_velvetFrom (x0 : Nat) (s : State) : MemInv (velvetFrom x0 s) = MemInv s := (rfl)
theorem memInv_regrid (x0 : Int) (x1 : Nat) (x2 : Nat) (s : State) : MemInv (regrid x0 x1 x2 s) = MemInv s := by
  unfold regrid
  simp only [memInv_mk, memInv_fold, memInv_ite, ite_self, memInv_velvetFrom]
theorem memInv_collectorBoundary (s : State) : MemInv (collectorBoundary s) = MemInv s := by
  unfold collectorBoundary
  simp only [memInv_mk, memInv_fold, memInv_doFor, memInv_sealTile, memInv_closeWindow, implies_true]
theorem memInv_syncBoundary (s : State) : MemInv (syncBoundary s) = MemInv s := by
  unfold syncBoundary
  simp only [memInv_setCond]
theorem memInv_refuseRecords (x0 : HeldMsg) (s : State) : MemInv (refuseRecords x0 s) = MemInv s := by
  unfold refuseRecords
  simp only [memInv_ite, ite_self, memInv_doFor, memInv_raiseFault, memInv_raiseState, implies_true]
theorem memInv_portLatch (x0 : Nat) (x1 : Int) (x2 : Nat) (s : State) : MemInv (portLatch x0 x1 x2 s) = MemInv s := (rfl)
theorem memInv_blockBoundary (x0 : Nat) (s : State) : MemInv (blockBoundary x0 s) = MemInv s := by
  unfold blockBoundary
  simp only [memInv_mk, memInv_fold, memInv_doFor, memInv_dutyFrame, memInv_toneBoundary, memInv_coastBoundary, memInv_glBoundary,
      memInv_switchLatch, memInv_pgAssistMark, memInv_portLatch, implies_true]
theorem memInv_keepStates (x0 : Nat) (s : State) : MemInv (keepStates x0 s) = MemInv s := (rfl)
theorem memInv_twinForeseen (s : State) : MemInv (twinForeseen s) = MemInv s := by
  unfold twinForeseen
  simp only [memInv_ite, ite_self, memInv_sendTwin]
theorem memInv_cutoff (s : State) : MemInv (cutoff s) = MemInv s := by
  unfold cutoff
  simp only [memInv_mk, memInv_fold, memInv_twinForeseen]
theorem memInv_hostFault (x0 : Nat) (x1 : Nat) (s : State) : MemInv (hostFault x0 x1 s) = MemInv s := by
  unfold hostFault
  simp only [memInv_raiseFault]
theorem memInv_writeShadow (x0 : Nat) (x1 : Word) (s : State) : MemInv (writeShadow x0 x1 s) = MemInv s := by
  unfold writeShadow
  simp only [memInv_mk, memInv_fold, memInv_ite, ite_self, memInv_setShadow, memInv_sendTwin]
theorem memInv_writeRw (x0 : Nat) (x1 : Word) (s : State) : MemInv (writeRw x0 x1 s) = MemInv s := by
  unfold writeRw
  split <;> simp only [memInv_ite, ite_self, memInv_setRw, memInv_hostFault]
theorem memInv_svcRequestWrite (x0 : Word) (s : State) : MemInv (svcRequestWrite x0 s) = MemInv s := by
  unfold svcRequestWrite
  (repeat' split) <;> simp only [memInv_svcPublish, memInv_svcIfFree, memInv_svcCertGet, memInv_svcAttest, memInv_svcOwnBurn,
      memInv_svcSlotRevoke, memInv_svcImgkeyLoad, memInv_svcImgkeyErase, memInv_svcFloorRaise, memInv_svcSessionOpen,
          memInv_svcSessionClose, memInv_svcAttach, memInv_svcDetach, memInv_svcOwnSet, memInv_svcHerdEnum, implies_true]
theorem memInv_divergeReport (x0 : Word) (s : State) : MemInv (divergeReport x0 s) = MemInv s := by
  unfold divergeReport
  simp only []
  (repeat' split) <;> simp only [memInv_raiseFault, memInv_hostFault]
theorem memInv_earlyWrite (x0 : Nat) (x1 : Word) (x2 : BitVec 4) (s : State) : MemInv (earlyWrite x0 x1 x2 s) = MemInv s := by
  unfold earlyWrite
  simp only [memInv_ite, ite_self, memInv_seenClear]
theorem memInv_clearNew (s : State) (x1 : Nat) : MemInv (clearNew s x1) = MemInv s := by
  unfold clearNew
  simp only [memInv_mk, memInv_fold, memInv_ite, ite_self]
theorem memInv_hostRead (x0 : Nat) (x1 : Nat) (s : State) : MemInv (hostRead x0 x1 s) = MemInv s := by
  unfold hostRead
  simp only [memInv_doFor, memInv_emit, memInv_clearNew, implies_true]
theorem memInv_modI3c (x0 : I3cSt → I3cSt) (s : State) : MemInv (modI3c x0 s) = MemInv s := (rfl)
theorem memInv_i3cWrite (x0 : I3cWrite) (s : State) : MemInv (i3cWrite x0 s) = MemInv s := by
  unfold i3cWrite
  split <;> simp only [memInv_ite, ite_self, memInv_emit, memInv_hostFault, memInv_modI3c]
theorem memInv_i3cArm (x0 : BitVec 16) (x1 : BitVec 16) (x2 : Nat) (s : State) : MemInv (i3cArm x0 x1 x2 s) = MemInv s := (rfl)
theorem memInv_i3cEnd (s : State) : MemInv (i3cEnd s) = MemInv s := (rfl)
theorem memInv_answer (x0 : List Byte) (s : State) : MemInv (answer x0 s) = MemInv s := (rfl)
theorem memInv_setSeWord (x0 : Nat) (x1 : SeMem) (x2 : Nat) (x3 : BitVec 64) (s : State) : MemInv (setSeWord x0 x1 x2 x3 s) = MemInv s := (rfl)
theorem memInv_setStore (x0 : StoreItem) (x1 : List Byte) (s : State) : MemInv (setStore x0 x1 s) = MemInv s := by
  unfold setStore
  split <;> simp only [memInv_mk, memInv_fold]

/-! ### Operations that write frame memory -/

theorem memInv_doFor_imp {α : Type} (f : α → State → State) (h : ∀ a s, MemInv s → MemInv (f a s)) : ∀ (l : List α) (s : State),
    MemInv s → MemInv (doFor l f s)
  | [], _, hs => hs
  | a :: l, s, hs => memInv_doFor_imp f h l (f a s) (h a s hs)
theorem memInv_foldl_imp {α : Type} (f : State → α → State) (h : ∀ s a, MemInv s → MemInv (f s a)) : ∀ (l : List α) (s : State),
    MemInv s → MemInv (l.foldl f s)
  | [], _, hs => hs
  | a :: l, s, hs => memInv_foldl_imp f h l (f s a) (h s a hs)
theorem memInv_foldl_snd_imp {α β : Type} (f : β × State → α → β × State) (h : ∀ r a, MemInv r.2 → MemInv (f r a).2) :
    ∀ (l : List α) (r : β × State), MemInv r.2 → MemInv (l.foldl f r).2
  | [], _, hs => hs
  | a :: l, r, hs => memInv_foldl_snd_imp f h l (f r a) (h r a hs)
theorem memInv_setByte_of (x0 : Nat) (x1 : Byte) (s : State) (h : MemInv s) : MemInv (setByte x0 x1 s) := memInv_setByte x0 x1 s h
theorem memInv_setBytes : ∀ (bs : List Byte) (a : Nat) (s : State) (_ : MemInv s), MemInv (setBytes a bs s)
  | [], _, _, h => h
  | b :: t, a, s, h => memInv_setBytes t (a + 1) _ (memInv_setByte a b s h)
theorem memInv_chipReset (s : State) : MemInv (chipReset s) := by
  unfold chipReset
  extract_lets
  rw [memInv_drawChal]
  exact (rfl : Tbl.wf (constD (0 : Byte)) [] = true)
theorem memInv_coldReset (s : State) (h : MemInv s) : MemInv (coldReset s) := by
  unfold coldReset
  simp (maxDischargeDepth := 12) (contextual := true) only [memInv_mk, memInv_fold, memInv_chipReset]
theorem memInv_holdDevice (x0 : Nat) (s : State) (h : MemInv s) : MemInv (holdDevice x0 s) := by
  unfold holdDevice
  simp (maxDischargeDepth := 12) (contextual := true) only [memInv_mk, memInv_fold, memInv_ite, ite_self, memInv_hubReset,
      memInv_chipReset, memInv_coldReset, h]
theorem memInv_sourceEffect (x0 : SourceReq) (s : State) (h : MemInv s) : MemInv (sourceEffect x0 s) := by
  unfold sourceEffect
  simp (maxDischargeDepth := 12) (contextual := true) only [memInv_ite, ite_self, memInv_modUnit, memInv_holdSlices, memInv_holdDevice, h]
theorem memInv_assertSources (x0 : List SourceReq) (x1 : Nat) (s : State) (h : MemInv s) : MemInv (assertSources x0 x1 s) := by
  unfold assertSources
  extract_lets on
  split
  · exact h
  · rename_i top _
    have key : ∀ (s0 s : State), MemInv s → ∀ a b c d e, MemInv (alarmEnter (showPins trigPin s0 { s with rst := { s.rst with
        causeSrc := a, causeLevel := b, causeDetail := c, causeFrame := d, seen := e } })) := fun s0 s h a b c d e => by
      rw [memInv_alarmEnter, memInv_showPins]; exact h
    refine key s _ (memInv_doFor_imp _ (fun r s hs => memInv_sourceEffect r s hs) _ _ ?_) _ _ _ _ _
    exact h
theorem memInv_logWrite (x0 : LogRec) (s : State) (h : MemInv s) : MemInv (logWrite x0 s) := by
  unfold logWrite
  (repeat' split) <;> simp (maxDischargeDepth := 12) (contextual := true) only [memInv_mk, memInv_fold, memInv_openTile, memInv_setBytes, h]
theorem memInv_acceptOne (x0 : Nat) (x1 : Taken × Nat × Bool) (s : State) (h : MemInv s) : MemInv (acceptOne x0 x1 s) := by
  unfold acceptOne
  extract_lets m cls mask seq r f1 s1 f2 s2 s3 s4 s5 s6 s7
  have h1 : MemInv s1 := h
  have h2 : MemInv s2 := by
    simp only [s2]; split <;> exact h1
  have h3 : MemInv s3 := (memInv_statusAccept m cls s2).mpr h2
  have h4 : MemInv s4 := by
    simp only [s4]; split
    · exact memInv_logWrite r s3 h3
    · exact h3
  have h5 : MemInv s5 := by
    simp only [s5]; split
    · exact (memInv_ringWrite r s4).mpr h4
    · exact h4
  have h6 : MemInv s6 := by
    simp only [s6]; split
    · split
      · exact (memInv_addEvent x0 _ s5).mpr h5
      · exact h5
    · exact h5
  have h7 : MemInv s7 := by
    simp only [s7]; split
    · exact (memInv_sendIbi _ s6).mpr h6
    · exact h6
  exact (memInv_applyReact _ _ _ s7).mpr h7
theorem memInv_acceptCycle (x0 : List (Fin 28)) (x1 : Nat) (s : State) (h : MemInv s) : MemInv (acceptCycle x0 x1 s) := by
  unfold acceptCycle
  simp only []
  (repeat' split) <;> simp (maxDischargeDepth := 12) (contextual := true) only [memInv_mk, memInv_fold, memInv_alarmEnter,
      memInv_takeMsgs, memInv_countAll, memInv_assertSources, memInv_acceptOne, memInv_doFor_imp, h, implies_true]
theorem memInv_thermalTrip (x0 : Nat) (x1 : Int) (s : State) (h : MemInv s) : MemInv (thermalTrip x0 x1 s) := by
  unfold thermalTrip
  split
  · exact memInv_assertSources _ _ _ h
  · exact h
theorem memInv_pwrReqFall (s : State) (h : MemInv s) : MemInv (pwrReqFall s) := by
  unfold pwrReqFall
  split
  · extract_lets f s1 g
    have h1 : MemInv s1 := memInv_assertSources _ _ _ h
    clear_value s1
    rw [memInv_emit]
    exact h1
  · exact h
theorem memInv_sigmapSync (x0 : Nat) (s : State) (h : MemInv s) : MemInv (sigmapSync x0 s) := by
  unfold sigmapSync
  (repeat' split) <;> simp (maxDischargeDepth := 12) (contextual := true) only [memInv_doFor, memInv_openTile, memInv_sealTile,
      memInv_setBytes, h, implies_true]
theorem memInv_learnDone (x0 : Nat) (x1 : Segment) (s : State) (h : MemInv s) : MemInv (learnDone x0 x1 s) := by
  unfold learnDone
  simp only []
  (repeat' split) <;> simp (maxDischargeDepth := 12) (contextual := true) only [memInv_mk, memInv_fold, memInv_modTk,
      memInv_dropSegment, memInv_sigmapSync, h]
theorem memInv_learnSample (x0 : Nat) (x1 : Demod) (x2 : Nat) (s : State) (h : MemInv s) : MemInv (learnSample x0 x1 x2 s) := by
  unfold learnSample
  simp only []
  (repeat' split) <;> simp (maxDischargeDepth := 12) (contextual := true) only [memInv_modTk, memInv_dropSegment, memInv_learnDone, h]
theorem memInv_fineSample (x0 : Nat) (x1 : Demod) (s : State) (h : MemInv s) : MemInv (fineSample x0 x1 s) := by
  unfold fineSample
  simp only []
  (repeat' split) <;> simp (maxDischargeDepth := 12) (contextual := true) only [memInv_modTk, memInv_raiseFault, memInv_acquire,
      memInv_acceptSample, memInv_speedWatch, memInv_rejectSample, memInv_learnSample, h]
theorem memInv_trackerSample (x0 : Nat) (s : State) (h : MemInv s) : MemInv (trackerSample x0 s) := by
  unfold trackerSample
  (repeat' split) <;> simp (maxDischargeDepth := 12) (contextual := true) only [memInv_ite, ite_self, memInv_modTk,
      memInv_coarseSample, memInv_fineSample, h]
theorem memInv_trackerPrepare (x0 : Nat) (s : State) (h : MemInv s) : MemInv (trackerPrepare x0 s) := by
  unfold trackerPrepare
  simp (maxDischargeDepth := 12) (contextual := true) only [memInv_ite, ite_self, memInv_modSe, memInv_modTk, memInv_raiseFault,
      memInv_clearCond, memInv_sigmapSync, h]
theorem memInv_mapCommand (x0 : Nat) (x1 : Nat) (x2 : Nat) (s : State) (h : MemInv s) : MemInv (mapCommand x0 x1 x2 s) := by
  unfold mapCommand
  simp (maxDischargeDepth := 12) (contextual := true) only [memInv_ite, ite_self, memInv_setInF, memInv_setShadow, memInv_mapAdopt,
      memInv_mapDiscard, memInv_mapErase, memInv_sigmapSync, h]
theorem memInv_mapApply (x0 : Nat) (x1 : Nat) (x2 : Nat) (s : State) (h : MemInv s) : MemInv (mapApply x0 x1 x2 s) := by
  unfold mapApply
  simp (maxDischargeDepth := 12) (contextual := true) only [memInv_ite, ite_self, memInv_glTrackerEvent, memInv_mapCommand, h]
theorem memInv_xcalDone (x0 : Nat) (x1 : Nat) (s : State) (h : MemInv s) : MemInv (xcalDone x0 x1 s) := by
  unfold xcalDone
  simp (maxDischargeDepth := 12) (contextual := true) only [memInv_modTk, memInv_modGl, memInv_sigmapSync, h]
theorem memInv_xcalCheck (x0 : Nat) (s : State) (h : MemInv s) : MemInv (xcalCheck x0 s) := by
  unfold xcalCheck
  (repeat' split) <;> simp (maxDischargeDepth := 12) (contextual := true) only [memInv_xcalDone, h]
theorem memInv_xcalSample (x0 : Nat) (x1 : Nat) (x2 : Nat) (x3 : Demod) (s : State) (h : MemInv s) : MemInv (xcalSample x0 x1 x2 x3 s) := by
  unfold xcalSample
  simp only []
  (repeat' split) <;> simp (maxDischargeDepth := 12) (contextual := true) only [memInv_modGl, memInv_xcalDone, h]
theorem memInv_trackerStep (x0 : Nat) (s : State) (h : MemInv s) : MemInv (trackerStep x0 s) := by
  unfold trackerStep
  split
  · exact h
  · extract_lets s1 acc
    have h1 : MemInv s1 := memInv_trackerSample x0 s h
    split
    · refine memInv_doFor_imp _ (fun l s hs => ?_) _ s1 h1
      (repeat' split) <;> first | exact hs | exact memInv_xcalSample _ _ _ _ s hs
    · exact h1
theorem memInv_blackBox (x0 : Image) (x1 : Nat) (x2 : Nat) (x3 : Nat) (x4 : Nat) (s : State) (h : MemInv s) : MemInv (blackBox x0 x1 x2 x3 x4 s) := by
  unfold blackBox
  (repeat' split) <;> simp (maxDischargeDepth := 12) (contextual := true) only [memInv_mk, memInv_fold, memInv_ite, ite_self,
      memInv_doFor, memInv_ledProduce, memInv_ledConsume, memInv_openTile, memInv_sealTile, memInv_openSlot, memInv_setBytes, h, implies_true]
theorem memInv_assemble (x0 : Image) (x1 : Nat) (s : State) (h : MemInv s) : MemInv (assemble x0 x1 s) := by
  unfold assemble
  simp (maxDischargeDepth := 12) (contextual := true) only [memInv_mk, memInv_fold, memInv_ite, ite_self, memInv_doFor,
      memInv_ledProduce, memInv_openTile, memInv_sealTile, memInv_blockEvents, memInv_dmaBegin, memInv_twinCopy, memInv_releaseSlot,
          memInv_setBytes, memInv_blackBox, h, implies_true]
theorem memInv_recordReady (x0 : Nat) (s : State) (h : MemInv s) : MemInv (recordReady x0 s) := by
  unfold recordReady
  simp only []
  (repeat' split) <;> simp (maxDischargeDepth := 12) (contextual := true) only [memInv_doFor, memInv_intSource, memInv_showPins,
      memInv_emFrame, memInv_blockEvents, memInv_divergence, memInv_assemble, h, implies_true]
theorem memInv_prepareTine (x0 : Nat) (s : State) (h : MemInv s) : MemInv (prepareTine x0 s) := by
  unfold prepareTine
  (repeat' split) <;> simp (maxDischargeDepth := 12) (contextual := true) only [memInv_modUnit, memInv_modSw, memInv_groupPrepare,
      memInv_enginePrepare, memInv_auxPrepare, memInv_glPrepare, memInv_glTrackerEvent, memInv_portPrepare, memInv_emPrepare,
          memInv_pgPrepare, memInv_trackerPrepare, h]
theorem memInv_unitEnter (x0 : Nat) (x1 : UState) (x2 : Bool) (x3 : Nat) (s : State) (h : MemInv s) : MemInv (unitEnter x0 x1 x2 x3 s) := by
  unfold unitEnter
  (repeat' split) <;> simp (maxDischargeDepth := 12) (contextual := true) only [memInv_ite, ite_self, memInv_modUnit,
      memInv_groupReady, memInv_auxLeave, memInv_glReady, memInv_cmpSourceLeft, memInv_pgStart, memInv_pgHold, memInv_pgResume,
          memInv_pgStop, memInv_pgQuick, memInv_faultTine, memInv_dormantTine, memInv_putState, memInv_prepareTine, h]
theorem memInv_autoTine (x0 : Nat) (x1 : Nat) (s : State) (h : MemInv s) : MemInv (autoTine x0 x1 s) := by
  unfold autoTine
  simp only []
  (repeat' split) <;> simp (maxDischargeDepth := 12) (contextual := true) only [memInv_modUnit, memInv_raiseFault, memInv_putState,
      memInv_unitEnter, h]
theorem memInv_resetUnit (x0 : Nat) (x1 : Nat) (s : State) (h : MemInv s) : MemInv (resetUnit x0 x1 s) := by
  unfold resetUnit
  simp (maxDischargeDepth := 12) (contextual := true) only [memInv_doFor, memInv_modUnit, memInv_clearTrip, memInv_idleRequest,
      memInv_unitEnter, memInv_doFor_imp, h, implies_true]
theorem memInv_resetsDue (x0 : Nat) (s : State) (h : MemInv s) : MemInv (resetsDue x0 s) := by
  unfold resetsDue
  simp (maxDischargeDepth := 12) (contextual := true) only [memInv_modUnit, memInv_resetUnit, memInv_doFor_imp, h, implies_true]
theorem memInv_applyCmd (x0 : Nat) (x1 : Nat) (x2 : Nat) (x3 : Nat) (s : State) (h : MemInv s) : MemInv (applyCmd x0 x1 x2 x3 s) := by
  unfold applyCmd
  (repeat' split) <;> simp (maxDischargeDepth := 12) (contextual := true) only [memInv_modUnit, memInv_clearTrip, memInv_unitEnter, h]
theorem memInv_refused (u code : Nat) (k : Option Nat) (s : State) :
    MemInv (raiseState u code (match k with | some p => raiseFault qXCG u 0x96 p s | none => s)) = MemInv s := by
  refine (memInv_raiseState _ _ _).trans ?_
  cases k with
  | none => rfl
  | some k => exact memInv_raiseFault _ _ _ _ s
theorem memInv_runCommands (x0 : List Direct) (x1 : Nat) (s0 : State) (h : MemInv s0) : MemInv (runCommands x0 x1 s0).1 := by
  unfold runCommands
  extract_lets fans r1 r2 win ok res s1 s2 s3 s4 s5
  have h1 : MemInv s1 = MemInv s0 := memInv_doFor _ _ (fun p s => by
    extract_lets d
    split
    · exact memInv_raiseFault _ _ _ _ s
    · split
      · exact memInv_refused _ _ _ s
      · rfl) s0
  have h2 : MemInv s2 = MemInv s1 := memInv_doFor _ _ (fun u s => memInv_doFor _ _ (fun _ s => memInv_raiseFault _ _ _ _ s) s) s1
  have h3 : MemInv s3 := memInv_doFor_imp _ (fun u s hs => memInv_applyCmd _ _ _ _ s hs) _ s2 (h2.mpr (h1.mpr h))
  have h4 : MemInv s4 = MemInv s3 := memInv_doFor _ _ (fun u s => memInv_idleRequest _ _ s) s3
  have h5 : MemInv s5 = MemInv s4 := memInv_doFor _ _ (fun u s => memInv_modUnit _ _ s) s4
  exact h5.mpr (h4.mpr h3)
theorem memInv_appliedReg (x0 : Nat) (x1 : Nat) (x2 : Word) (s : State) (h : MemInv s) : MemInv (appliedReg x0 x1 x2 s) := by
  unfold appliedReg
  simp (maxDischargeDepth := 12) (contextual := true) only [memInv_ite, ite_self, memInv_auxCtrlApplied, memInv_portInvert,
      memInv_mapApply, memInv_xcalCheck, memInv_doFor_imp, h, implies_true]
theorem memInv_putValues (x0 : Nat) (x1 : List (Nat × Bool)) (x2 : List Nat) (x3 : List (Nat × Word)) (s : State) (h : MemInv s) :
    MemInv ((putValues x0 x1 x2 x3 s).2) := by
  unfold putValues
  simp (maxDischargeDepth := 12) (contextual := true) only [ite_self, memInv_doFor, memInv_setInF, memInv_swapBoundary,
      memInv_cmpWritten, memInv_motApplied, memInv_appliedReg, memInv_foldl_snd, memInv_doFor_imp, h, implies_true, memInv_ite_snd]
theorem memInv_applySnap (x0 : Nat) (x1 : List (Nat × Bool)) (x2 : List Nat) (x3 : List (Nat × Word)) (s : State) (h : MemInv s) :
    MemInv ((applySnap x0 x1 x2 x3 s).2) := by
  unfold applySnap
  simp (maxDischargeDepth := 12) (contextual := true) only [memInv_refineSnap, memInv_putValues, h]
theorem memInv_commitDone (c : CommitSt) (s : State) : MemInv (ledConsume 0 1 { s with commit := c }) = MemInv s :=
  (memInv_ledConsume 0 1 _).trans rfl
theorem memInv_commitBoundary (x0 : Nat) (s : State) (hs : MemInv s) : MemInv (commitBoundary x0 s) := by
  unfold commitBoundary
  split
  · exact hs
  · rename_i snap _
    split
    · exact hs
    · extract_lets reqs s1 s2
      have h1 : MemInv s1 = MemInv s := memInv_doFor _ _ (fun e s => memInv_modSe e _ s) s
      have h2 : MemInv s2 := memInv_applySnap x0 reqs _ snap s1 (h1.mpr hs)
      exact (memInv_commitDone _ s2).mpr h2
theorem memInv_writeRecord (x0 x1 : Nat) (x2 : Word) (x3 : Bool) (s : State) (hs : MemInv s) : MemInv (writeRecord x0 x1 x2 x3 s).2 := by
  unfold writeRecord
  extract_lets e reqs r
  have h2 : MemInv r.2 := memInv_applySnap x0 reqs _ _ s hs
  clear_value r
  obtain ⟨a, q⟩ := r
  split
  · show MemInv (if _ then q else setShadow x1 (inF q x1) q)
    split
    · exact h2
    · exact (memInv_setShadow _ _ q).mpr h2
  · exact h2
theorem wf_filter (p : Nat × Byte → Bool) (t : List (Nat × Byte)) (h : Tbl.wf (constD (0 : Byte)) t = true) :
    Tbl.wf (constD (0 : Byte)) (t.filter p) = true := by
  simp only [Tbl.wf, Bool.and_eq_true, List.all_eq_true] at h ⊢
  exact ⟨Tbl.rising_filter p t 0 h.1, fun e he => h.2 e (List.mem_filter.mp he).1⟩
theorem memInv_fillTiles (x0 x1 : Nat) (x2 : List (Nat × List Byte)) (s : State) (h : MemInv s) : MemInv (fillTiles x0 x1 x2 s) := by
  unfold fillTiles
  refine memInv_doFor_imp _ (fun a s hs => (memInv_sealTile a s).mpr hs) _ _ (memInv_doFor_imp _ (fun b s hs => memInv_setBytes _ _ s hs) _ _ ?_)
  exact wf_filter _ _ h
theorem memInv_layTiles (s : State) : MemInv (layTiles s) = MemInv s := by
  unfold layTiles
  extract_lets f s'
  generalize laidTiles s.fm.laid s' = ts
  exact (rfl)
theorem memInv_layRings (old : List Region) (s : State) : MemInv (layRings old s) = MemInv s := by
  unfold layRings
  simp only [memInv_mk, memInv_fold, memInv_ite, ite_self]
theorem memInv_fillPaths (s : State) (h : MemInv s) : MemInv (fillPaths s) := by
  unfold fillPaths
  split
  · exact memInv_fillTiles _ _ _ s h
  · exact h
theorem memInv_fillCoefs (s : State) (h : MemInv s) : MemInv (fillCoefs s) := by
  unfold fillCoefs
  split
  · exact memInv_doFor_imp _ (fun e s hs => memInv_fillTiles _ _ _ s hs) _ _ h
  · exact h
theorem memInv_fillMaps (s : State) (h : MemInv s) : MemInv (fillMaps s) := by
  unfold fillMaps
  split
  · exact memInv_doFor_imp _ (fun e s hs => memInv_sigmapSync _ s hs) _ _ (memInv_fillTiles _ _ _ s h)
  · exact h
theorem memInv_layoutRegions (s : State) (h : MemInv s) : MemInv (layoutRegions s) := by
  unfold layoutRegions
  refine memInv_fillMaps _ (memInv_fillCoefs _ (memInv_fillPaths _ ?_))
  rw [memInv_layRings, memInv_layTiles]
  exact h
theorem memInv_allDormant (x0 : Nat) (s : State) (h : MemInv s) : MemInv (allDormant x0 s) := by
  unfold allDormant
  simp (maxDischargeDepth := 12) (contextual := true) only [memInv_mk, memInv_fold, memInv_ite, ite_self, memInv_unitEnter,
      memInv_doFor_imp, h, implies_true]
theorem memInv_loadSettings (x0 : Nat) (s : State) (h : MemInv s) : MemInv (loadSettings x0 s) := by
  unfold loadSettings
  extract_lets sets back q
  have hq : MemInv q := memInv_applySnap x0 [] _ _ s h
  generalize q = p at hq ⊢
  exact hq
theorem memInv_putInForce (x0 : Option Image) (x1 : Nat) (s : State) (h : MemInv s) : MemInv (putInForce x0 x1 s) := by
  unfold putInForce
  simp (maxDischargeDepth := 12) (contextual := true) only [memInv_mk, memInv_fold, memInv_doFor, memInv_modSe, memInv_toneDrop,
      memInv_setOwner, memInv_engineReload, memInv_forceAll, memInv_discardPending, memInv_layoutRegions, memInv_allDormant,
          memInv_loadSettings, h, implies_true]
theorem memInv_activate (x0 : Option Image) (x1 : Nat) (s : State) (h : MemInv s) : MemInv (activate x0 x1 s) := by
  unfold activate
  simp (maxDischargeDepth := 12) (contextual := true) only [memInv_mk, memInv_fold, memInv_twinAtSwitch, memInv_putInForce, h]
theorem memInv_rollbackTo (b : Option (List Byte)) (n : Nat) (s : State) (h : MemInv s) : MemInv (rollbackTo b n s) := by
  unfold rollbackTo
  split
  · exact memInv_activate _ _ s h
  · extract_lets r q
    have hq : MemInv q := memInv_activate _ _ _ ((memInv_considerImage _ s).mpr h)
    split
    · exact (memInv_raiseFault _ _ _ _ q).mpr hq
    · exact hq
theorem memInv_rollback (n : Nat) (s : State) (h : MemInv s) : MemInv (rollback n s) := by
  unfold rollback
  split
  · split
    · rw [memInv_raiseFault, memInv_floorApply]; exact h
    · extract_lets b f g s1
      rw [memInv_raiseFault]
      exact memInv_rollbackTo _ _ s1 h
  · exact h
theorem memInv_switchBoundaryStep (n : Nat) (s : State) (h : MemInv s) : MemInv (switchBoundaryStep n s) := by
  unfold switchBoundaryStep
  split
  · exact h
  · split
    · exact h
    · extract_lets f s1 src velvet img r1 r2 s2
      have h1 : MemInv s1 := (memInv_ledConsume _ _ _).mpr h
      have hi : MemInv img.2 := (memInv_considerImage _ s1).mpr h1
      split
      · exact (memInv_slotResult _ _ s1).mpr h1
      · split
        · exact (memInv_slotResult _ _ s1).mpr h1
        · split
          · rw [memInv_raiseFault, memInv_slotResult]; exact h1
          · split
            · exact hi
            · rw [memInv_slotResult]; exact memInv_activate _ _ _ h1
theorem memInv_slotStep (x0 : Nat) (s : State) (h : MemInv s) : MemInv (slotStep x0 s) := by
  unfold slotStep
  simp (maxDischargeDepth := 12) (contextual := true) only [memInv_velvetEnd, memInv_rollback, memInv_switchBoundaryStep, h]
theorem memInv_twinWithdraw (x0 : Nat) (s : State) (h : MemInv s) : MemInv (twinWithdraw x0 s) := by
  unfold twinWithdraw
  simp (maxDischargeDepth := 12) (contextual := true) only [memInv_setMode, memInv_ownAll, memInv_allDormant, h]
theorem memInv_joinPrepare (s : State) (h : MemInv s) : MemInv (joinPrepare s) := by
  unfold joinPrepare
  simp (maxDischargeDepth := 12) (contextual := true) only [memInv_ite, ite_self, memInv_modUnit, memInv_dormantTine,
      memInv_prepareTine, memInv_doFor_imp, h, implies_true]
theorem memInv_failStep (x0 : Nat) (s : State) (h : MemInv s) : MemInv (failStep x0 s) := by
  unfold failStep
  (repeat' split) <;> simp (maxDischargeDepth := 12) (contextual := true) only [memInv_ite, ite_self, memInv_raiseFault,
      memInv_modTwn, memInv_setMode, memInv_ownAll, memInv_twinWithdraw, h]
theorem memInv_progressStep (x0 : Nat) (s : State) (h : MemInv s) : MemInv (progressStep x0 s) := by
  unfold progressStep
  simp (maxDischargeDepth := 12) (contextual := true) only [memInv_ite, ite_self, memInv_doFor, memInv_setMode, memInv_ownByMap,
      memInv_takeItem, memInv_joinPrepare, h, implies_true]
theorem memInv_detachStep (x0 : Nat) (s : State) (h : MemInv s) : MemInv (detachStep x0 s) := by
  unfold detachStep
  simp (maxDischargeDepth := 12) (contextual := true) only [memInv_ite, ite_self, memInv_modTwn, memInv_degrade,
      memInv_svcAtBoundary, memInv_twinWithdraw, h]
theorem memInv_lossStep (x0 : Nat) (s : State) (h : MemInv s) : MemInv (lossStep x0 s) := by
  unfold lossStep
  simp (maxDischargeDepth := 12) (contextual := true) only [memInv_ite, ite_self, memInv_raiseFault, memInv_modTwn, memInv_degrade,
      memInv_twinWithdraw, h]
theorem memInv_twinEarly (x0 : Nat) (s : State) (h : MemInv s) : MemInv (twinEarly x0 s) := by
  unfold twinEarly
  simp (maxDischargeDepth := 12) (contextual := true) only [memInv_clearChecks, memInv_countFrame, memInv_skewFrame, memInv_failStep, h]
theorem memInv_twinStep (x0 : Nat) (s : State) (h : MemInv s) : MemInv (twinStep x0 s) := by
  unfold twinStep
  simp (maxDischargeDepth := 12) (contextual := true) only [memInv_attachStep, memInv_ownSetStep, memInv_progressStep,
      memInv_detachStep, memInv_lossStep, h]
theorem memInv_twinControl (x0 : TwinMsg) (s : State) (h : MemInv s) : MemInv (twinControl x0 s) := by
  unfold twinControl
  (repeat' split) <;> simp (maxDischargeDepth := 12) (contextual := true) only [memInv_setInF, memInv_setShadow, memInv_modTone,
      memInv_modTwn, memInv_twinBack, memInv_sendItems, memInv_twinSkew, memInv_assertSources, h]
theorem memInv_p6Force (x0 : Option Image) (x1 : Nat) (s : State) (h : MemInv s) : MemInv (p6Force x0 x1 s) := by
  unfold p6Force
  simp (maxDischargeDepth := 12) (contextual := true) only [memInv_modSlots, memInv_putInForce, h]
theorem memInv_p6Second (p : Option Image × State) (h : MemInv p.2) :
    MemInv (if p.1.isSome then
        p6Force p.1 1 (raiseFault qSEC 0x610 0x1C 0 (modSlots (fun x => { x with active := x.previous, previous := x.active }) p.2))
      else p6Force none 2 (raiseFault qSEC 0x610 0x1D 0 p.2)) := by
  split
  · exact memInv_p6Force _ _ _ ((memInv_raiseFault _ _ _ _ _).mpr h)
  · exact memInv_p6Force _ _ _ ((memInv_raiseFault _ _ _ _ _).mpr h)
theorem memInv_p6First (a : Option Image × State) (h : MemInv a.2) :
    MemInv (if a.1.isSome then p6Force a.1 0 a.2
      else
        if (p6Try a.2.slots.previous a.2).1.isSome then
          p6Force (p6Try a.2.slots.previous a.2).1 1
            (raiseFault qSEC 0x610 0x1C 0
              (modSlots (fun x => { x with active := x.previous, previous := x.active }) (p6Try a.2.slots.previous a.2).2))
        else p6Force none 2 (raiseFault qSEC 0x610 0x1D 0 (p6Try a.2.slots.previous a.2).2)) := by
  split
  · exact memInv_p6Force _ _ _ h
  · exact memInv_p6Second (p6Try a.2.slots.previous a.2) ((memInv_p6Try _ _).mpr h)
theorem memInv_p6Load (s : State) (h : MemInv s) : MemInv (p6Load s) := by
  unfold p6Load
  extract_lets r s0 f q
  have hq : MemInv q := (memInv_p6Rollback s).mpr h
  split
  · exact memInv_p6Force _ _ _ hq
  · exact memInv_p6First (p6Try q.slots.active q) ((memInv_p6Try _ _).mpr hq)
theorem memInv_enumWorker (x0 : Nat) (x1 : BitVec 64) (x2 : BitVec 64) (x3 : List (BitVec 64)) (s : State) (h : MemInv s) :
    MemInv (enumWorker x0 x1 x2 x3 s) := by
  unfold enumWorker
  (repeat' split) <;> simp (maxDischargeDepth := 12) (contextual := true) only [memInv_ite, ite_self, memInv_emit,
      memInv_raiseFault, memInv_modHrd, memInv_p6Load, h]
theorem memInv_positionExpiry (s : State) (h : MemInv s) : MemInv (positionExpiry s) := by
  unfold positionExpiry
  simp (maxDischargeDepth := 12) (contextual := true) only [memInv_ite, ite_self, memInv_p6Load, h]
theorem memInv_assertAll (x0 : List SourceReq) (s : State) (h : MemInv s) : MemInv (assertAll x0 s) := by
  unfold assertAll
  (repeat' split) <;> simp (maxDischargeDepth := 12) (contextual := true) only [memInv_dmaForced, memInv_tamperNote, memInv_assertSources, h]
theorem memInv_tamper (x0 : Nat) (s : State) (h : MemInv s) : MemInv (tamper x0 s) := by
  unfold tamper
  simp (maxDischargeDepth := 12) (contextual := true) only [memInv_ite, ite_self, memInv_tamperNote, memInv_assertSources, h]
theorem memInv_phaseDone (x0 : PhaseOutcome) (x1 : Nat) (s : State) (h : MemInv s) : MemInv (phaseDone x0 x1 s) := by
  unfold phaseDone
  (repeat' split) <;> simp (maxDischargeDepth := 12) (contextual := true) only [memInv_mk, memInv_fold, memInv_ite, ite_self,
      memInv_doFor, memInv_emit, memInv_maskRails, memInv_drawChal, memInv_modHrd, memInv_enumerate, memInv_modRst, memInv_holdBack,
          memInv_enterPhase, memInv_attemptFail, memInv_loadOptions, memInv_enterReady, memInv_calibrated, memInv_secureLoad,
              memInv_p6Load, h, implies_true]
theorem memInv_reqLocal (x0 : Word) (s : State) (h : MemInv s) : MemInv (reqLocal x0 s) := by
  unfold reqLocal
  simp (maxDischargeDepth := 12) (contextual := true) only [memInv_ite, ite_self, memInv_reqRefused, memInv_assertSources, h]
theorem memInv_stateStep (x0 : Nat) (s : State) (h : MemInv s) : MemInv (stateStep x0 s) := by
  unfold stateStep
  simp (maxDischargeDepth := 12) (contextual := true) only [memInv_ite, ite_self, memInv_doFor, memInv_autoBeam, memInv_autoInfra,
      memInv_autoTine, memInv_resetsDue, memInv_doFor_imp, h, implies_true]
theorem memInv_recordCase (c : Prop) [Decidable c] (q : Nat × State) (r : List Nat × State) (h : MemInv q.2) (hr : MemInv r.2) :
    MemInv (if c then (r.1 ++ [q.1], q.2) else (r.1 ++ [0], r.2)).2 := by
  split
  · exact h
  · exact hr
theorem memInv_writeRecords (x0 : Nat) (x1 : HeldMsg) (s : State) (h : MemInv s) : MemInv (writeRecords x0 x1 s).2 := by
  unfold writeRecords
  refine memInv_foldl_snd_imp _ ?_ _ _ h
  intro r a hr
  dsimp only
  exact memInv_recordCase (a.op = 1) (writeRecord x0 a.arg a.value x1.late r.2) r (memInv_writeRecord x0 a.arg a.value x1.late r.2 hr) hr
theorem memInv_writeStep (x0 : Nat) (x1 : List HeldMsg) (s : State) (h : MemInv s) : MemInv ((writeStep x0 x1 s).2) := by
  unfold writeStep
  simp (maxDischargeDepth := 12) (contextual := true) only [memInv_writeRecords, memInv_foldl_snd_imp, h, implies_true]
theorem memInv_commandStep (x0 : Nat) (x1 : List HeldMsg) (s : State) (h : MemInv s) : MemInv (commandStep x0 x1 s) := by
  unfold commandStep
  simp (maxDischargeDepth := 12) (contextual := true) only [memInv_mk, memInv_fold, memInv_doFor, memInv_modUnit, memInv_ledConsume,
      memInv_finishMsg, memInv_beamStates, memInv_formPartials, memInv_dropRelays, memInv_refuseRecords, memInv_runCommands, h, implies_true]
theorem memInv_laterSteps (x0 : Nat) (s : State) (h : MemInv s) : MemInv (laterSteps x0 s) := by
  unfold laterSteps
  simp (maxDischargeDepth := 12) (contextual := true) only [memInv_ite, ite_self, memInv_doFor, memInv_latchXf, memInv_switchPrep,
      memInv_pgBoundary, memInv_openStage, memInv_sendSettings, memInv_blockBoundary, memInv_keepStates, memInv_commitBoundary,
          memInv_twinStep, memInv_stateStep, memInv_writeStep, memInv_commandStep, h, implies_true]
theorem memInv_boundarySteps (x0 : Nat) (s : State) (h : MemInv s) : MemInv (boundarySteps x0 s) := by
  unfold boundarySteps
  simp (maxDischargeDepth := 12) (contextual := true) only [memInv_ite, ite_self, memInv_actBoundary, memInv_regrid,
      memInv_slotStep, memInv_detachStep, memInv_twinEarly, memInv_laterSteps, h]
theorem memInv_frameBoundary (s : State) (h : MemInv s) : MemInv (frameBoundary s) := by
  unfold frameBoundary
  simp (maxDischargeDepth := 12) (contextual := true) only [memInv_slewGrid, memInv_sessionBoundary, memInv_keepView,
      memInv_twinFrame, memInv_herdBoundary, memInv_startFrame, memInv_collectorBoundary, memInv_syncBoundary, memInv_boundarySteps, h]
theorem memInv_frameStep (s : State) (h : MemInv s) : MemInv (frameStep s) := by
  unfold frameStep
  simp (maxDischargeDepth := 12) (contextual := true) only [memInv_showPins, memInv_frameBoundary, h]
theorem memInv_resetRequest (x0 : Word) (s : State) (h : MemInv s) : MemInv (resetRequest x0 s) := by
  unfold resetRequest
  (repeat' split) <;> simp (maxDischargeDepth := 12) (contextual := true) only [memInv_reqTwin, memInv_reqHerd, memInv_reqLocal, h]
theorem memInv_writeAct (x0 : Nat) (x1 : Word) (s : State) (h : MemInv s) : MemInv (writeAct x0 x1 s) := by
  unfold writeAct
  (repeat' split) <;> simp (maxDischargeDepth := 12) (contextual := true) only [memInv_ite, ite_self, memInv_clearLatched,
      memInv_clearFirstFault, memInv_clearHbLost, memInv_ackEscalation, memInv_actRequest, memInv_toneRequest, memInv_bankWrite,
          memInv_dmaCtrl, memInv_ctInit, memInv_pageCommand, memInv_commitWrite, memInv_slotCmd, memInv_seenClear, memInv_wdtCtrl,
              memInv_wdtKick, memInv_svcRequestWrite, memInv_divergeReport, memInv_resetRequest, h]
theorem memInv_regWrite (x0 : Nat) (x1 : Word) (s : State) (h : MemInv s) : MemInv (regWrite x0 x1 s) := by
  unfold regWrite
  (repeat' split) <;> simp (maxDischargeDepth := 12) (contextual := true) only [memInv_hostFault, memInv_writeShadow,
      memInv_writeRw, memInv_writeAct, h]
theorem memInv_windowBytes (x0 : Nat) (x1 : Word) (x2 : BitVec 4) (s : State) (h : MemInv s) : MemInv (windowBytes x0 x1 x2 s) := by
  unfold windowBytes
  simp (maxDischargeDepth := 12) (contextual := true) only [memInv_ite, ite_self, memInv_setByte_of, memInv_doFor_imp, h, implies_true]
theorem memInv_wordWrite (x0 : Nat) (x1 : Word) (x2 : BitVec 4) (s : State) (h : MemInv s) : MemInv (wordWrite x0 x1 x2 s) := by
  unfold wordWrite
  (repeat' split) <;> simp (maxDischargeDepth := 12) (contextual := true) only [memInv_raiseFault, memInv_hostFault,
      memInv_regWrite, memInv_windowBytes, h]
theorem memInv_hostWrite (x0 : Nat) (x1 : Word) (x2 : BitVec 4) (s : State) (h : MemInv s) : MemInv (hostWrite x0 x1 x2 s) := by
  unfold hostWrite
  simp (maxDischargeDepth := 12) (contextual := true) only [memInv_wordWrite, h]
theorem memInv_i3cConfirm (x0 : BitVec 16) (x1 : BitVec 16) (x2 : Nat) (s : State) (h : MemInv s) : MemInv (i3cConfirm x0 x1 x2 s) := by
  unfold i3cConfirm
  (repeat' split) <;> simp (maxDischargeDepth := 12) (contextual := true) only [memInv_ite, ite_self, memInv_hostFault,
      memInv_i3cArm, memInv_i3cEnd, memInv_assertSources, h]
theorem memInv_debugAccess (x0 : DebugAccess) (s : State) (h : MemInv s) : MemInv (debugAccess x0 s) := by
  unfold debugAccess
  (repeat' split) <;> simp (maxDischargeDepth := 12) (contextual := true) only [memInv_answer, memInv_setSeWord, memInv_setStore,
      memInv_setByte_of, memInv_regWrite, h]
end Sys2Proof.Laws
end

