-- ==== Sys2Proof/WellFormed.lean ====
section
/-! DEFINITION. Well-formed commands: the operands that the world outside the device can deliver. A sample is a 24-bit
sample code, a pin voltage and a monitor's reading fit their report fields, a record of a command message carries an
operation and a unit id of the spec's width. -/
namespace Sys2Proof

/-- `x` fits signed `n` bits. -/
def inS (n : Nat) (x : Int) : Bool := decide (-(2 ^ (n - 1) : Nat) ≤ x ∧ x ≤ (2 ^ (n - 1) : Nat) - 1)
/-- `x` fits `n` bits. -/
def inU (n x : Nat) : Bool := decide (x < 2 ^ n)

/-- An instant of the I/O grid (spec/10 R301). -/
def ioGrid (t : Nat) : Bool := t % 5 == 0

/-- A sample code: 24 bits, saturating at plus or minus 0x7FFFFF (spec/04 Table 4-1). -/
def sampleCode (x : Int) : Bool := decide (x.natAbs ≤ 0x7FFFFF)

def ChanSample.wf (c : ChanSample) : Bool :=
  sampleCode c.s && sampleCode c.c && inU 16 c.sinP && inU 16 c.sinN && inU 16 c.cosP && inU 16 c.cosN

def SensePins.wf (p : SensePins) : Bool := sampleCode p.vs && sampleCode p.is && inU 16 p.vP && inU 16 p.vN && inU 16 p.iP && inU 16 p.iN

/-- A TYPE 0x02 message with its header and target frame. -/
def CmdMessage.wf (m : CmdMessage) : Bool := m.bytes.head? == some 0x02 && decide (24 ≤ m.bytes.length)

/-- A private write that is no reset request: that one is a row of its own (spec/13 R441). -/
def I3cWrite.wf : I3cWrite → Bool
  | .priv bytes => !(bytes.length == 6 && bytes.head? == some 0xA5)
  | .otherCcc => true

def SourceReq.wf (r : SourceReq) : Bool := inU 8 r.code && inU 16 r.target

/-- A well-formed command. -/
def Instr.wf : Instr → Bool
  | .captureSample i chans sense => inU 64 i && chans.all ChanSample.wf && sense.all SensePins.wf
  | .senseCycle _ v i ph => inU 16 v && inU 16 i && inS 8 ph
  | .toneCheckComplete _ zSin zCos phSin phCos xtSC xtCS =>
    inU 16 zSin && inU 16 zCos && inS 16 phSin && inS 16 phCos && inU 16 xtSC && inU 16 xtCS
  | .auxConversionComplete _ code aexP => inS 16 code && inU 16 aexP
  | .registerWrite off _ _ => inU 28 off
  | .mailboxRead r => decide (1 ≤ r.len) && inU 28 (r.off + r.len - 1)
  | .tempConversion _ reading _ => inS 16 reading
  | .railSample _ mv => inU 16 mv
  | .roMeasure _ freq dev => inU 16 freq && inS 16 dev
  | .agingMeasure _ margin => inU 16 margin
  | .commandMessage m => CmdMessage.wf m
  | .resetSourceAssert srcs => !srcs.isEmpty && srcs.all SourceReq.wf
  | .resetSourceRelease code => inU 8 code
  | .setmrl n => inU 16 n
  | .setmwl n => inU 16 n
  | .faultAccept queues _ => decide (1 ≤ queues.length ∧ queues.length ≤ 8)
  | .herdCommandRelay _ code target => inU 4 code && inU 64 target
  | .i3cViewOffset w => I3cWrite.wf w
  | .portTransitionAccepted _ t _ _ _ => ioGrid t
  | .emulatorEdge _ t => ioGrid t
  | _ => true

end Sys2Proof
end

