-- ==== Sys2Proof/Tests/Slice0.lean ====
section
/-! SUPPORT. Tests: ill-formed commands that the check refuses, single steps with results taken from the spec, and for each statement with
hypotheses a state and operands that meet them. -/
namespace Sys2Proof.Tests
-- One theorem after the other: the kernel evaluations of this file together would take much memory.
set_option Elab.async false
open Sys2Proof Sys2Proof.Machine

/-! ### Well-formed commands -/

theorem test_wf_nop : Instr.wf (.nop 0 { ps := 0, pn := false, d := 0, a := 0, b := 0, x := 0, imm := 0 }) = true := by decide
theorem test_wf_sample : Instr.wf (.captureSample 1 [{ chan := 0, s := 2 ^ 23, c := 0, sinP := 0, sinN := 0, cosP := 0, cosN := 0 }] []) = false := by decide
theorem test_wf_sample_low : Instr.wf (.captureSample 1 [{ chan := 0, s := -2 ^ 23, c := 0, sinP := 65535, sinN := 0, cosP := 0, cosN := 0 }] []) = false
    ∧ Instr.wf (.captureSample 1 [{ chan := 0, s := -0x7FFFFF, c := 0, sinP := 65535, sinN := 0, cosP := 0, cosN := 0 }] []) = true := by decide
theorem test_wf_sample_pin : Instr.wf (.captureSample 1 [{ chan := 0, s := 0, c := 0, sinP := 65536, sinN := 0, cosP := 0, cosN := 0 }] []) = false := by decide
theorem test_wf_index : Instr.wf (.captureSample (2 ^ 64) [] []) = false := by decide
theorem test_wf_sense_pins : Instr.wf (.captureSample 1 [] [{ group := 0, vs := 0, is := 0, vP := 0, vN := 0, iP := 0, iN := 65536 }]) = false := by decide
theorem test_wf_sense : Instr.wf (.senseCycle 0 0 0 32768) = false := by decide
theorem test_wf_tone : Instr.wf (.toneCheckComplete 0 65536 0 0 0 0 0) = false := by decide
theorem test_wf_aux : Instr.wf (.auxConversionComplete 0 (-32769) 0) = false := by decide
theorem test_wf_write : Instr.wf (.registerWrite 0x10000000 0 0xF) = false := by decide
theorem test_wf_read : Instr.wf (.mailboxRead ⟨0x10000000, 4⟩) = false ∧ Instr.wf (.mailboxRead ⟨4, 0⟩) = false ∧ Instr.wf (.mailboxRead ⟨0xFFFFFFE, 4⟩) = false
    ∧ Instr.wf (.mailboxRead ⟨0xFFFFFF8, 8⟩) = true ∧ Instr.wf (.mailboxRead ⟨0xFFFFFFF, 1⟩) = true := by decide
theorem test_wf_temp : Instr.wf (.tempConversion 0 32768 false) = false := by decide
theorem test_wf_rail : Instr.wf (.railSample 0 65536) = false := by decide
theorem test_wf_ro : Instr.wf (.roMeasure 0 65536 0) = false := by decide
theorem test_wf_aging : Instr.wf (.agingMeasure 0 65536) = false := by decide
theorem test_wf_message : Instr.wf (.commandMessage { port := 0, rtag := none, bytes := 0x02 :: List.replicate 22 0, tag := 0 }) = false := by decide
theorem test_wf_type : Instr.wf (.commandMessage { port := 0, rtag := none, bytes := 0x01 :: List.replicate 23 0, tag := 0 }) = false
    ∧ Instr.wf (.commandMessage { port := 0, rtag := none, bytes := 0x02 :: List.replicate 23 0, tag := 0 }) = true := by decide
theorem test_wf_sources : Instr.wf (.resetSourceAssert []) = false := by decide
theorem test_wf_source : Instr.wf (.resetSourceAssert [{ code := 256, target := 0 }]) = false := by decide
theorem test_wf_release : Instr.wf (.resetSourceRelease 256) = false := by decide
theorem test_wf_setmrl : Instr.wf (.setmrl 65536) = false := by decide
theorem test_wf_setmwl : Instr.wf (.setmwl 65536) = false := by decide
theorem test_wf_accept : Instr.wf (.faultAccept [] 0) = false := by decide
theorem test_wf_relay : Instr.wf (.herdCommandRelay 0 16 0) = false := by decide
theorem test_wf_view : Instr.wf (.i3cViewOffset (.priv [0xA5, 0, 0, 0, 0, 0])) = false ∧ Instr.wf (.i3cViewOffset (.priv [0xA5, 0])) = true := by decide

/-! ### Small states -/

/-- A device in P7 at frame 10, every clock locked. -/
def up : State :=
  { State.reset with
    time := { now := 2000000, frame := some 10, openFrame := 12 }
    clk := { coreLock := true, modLock := true, ioLock := true, sliceLock := 0xFF, modAligned := true, refOk := true, sliceOn := 0xFF, pwrReq := true }
    rst := { State.reset.rst with phase := 7, loaded := true } }
/-- The same out of the alarm state. -/
def calm : State := { up with flt := { up.flt with alarm := false } }
/-- The same with a configuration in force. -/
def loaded (i : Image) : State := { up with conf := some i }

/-- The next state; the state itself where there is none. -/
def nxt (c : Instr) (s : State) : State := match exec c s with | .next t => t | _ => s

/-- A message of unit 0x612, kind 0x07. -/
def msg7 : FaultMsg := mkMsg 0x612 0x07 2 10 3

theorem wit_StepRunsFront : ({ up with pending := [.heartbeat 5] } : State).pending = .heartbeat 5 :: [] := rfl

/-! ### Fault collector and monitors -/

/-- One message in the clock's queue. -/
def oneMsg : State := queueMsg qCLK msg7 up

theorem wit_CollectorQueues : hubUp oneMsg = true ∧ queueOf oneMsg 2 = [msg7] := by decide
theorem wit_CollectorQueues_mask : ∀ cls, (maskOf oneMsg 2 msg7 cls).testBit 3 = false
  | 0 | 1 | 2 | 3 => by decide
  | n + 4 => by
    have h : (2 : Nat) ^ (8 * (n + 4)) = 2 ^ (8 * n) * 2 ^ 32 := by rw [← Nat.pow_add]; congr 1
    have h2 : 0x11010100 / 2 ^ (8 * (n + 4)) = 0 := by
      apply Nat.div_eq_of_lt; rw [h]; have : 0 < 2 ^ (8 * n) := Nat.two_pow_pos _; omega
    have h3 : maskOf oneMsg 2 msg7 (n + 4) = 0x11010100 / 2 ^ (8 * (n + 4)) % 32 := rfl
    rw [h3, h2]; rfl
theorem wit_CollectorQueues_full : ¬ ((List.replicate 64 msg7).length < queueCap 2) ∧ ¬ ((List.replicate 16 msg7).length < queueCap 20) := by decide
theorem wit_CollectorQueues_first : oneMsg.flt.ffValid = false ∧ ({ oneMsg with flt := { oneMsg.flt with ffValid := true } } : State).flt.ffValid = true := by decide

/-- Unit 0x612 with an open window that ends at frame 10, latched, not active. -/
def windowSt : State := modFs 0x612 (fun f => { f with window := some 10, count := 3, latched := true }) up
theorem wit_StatusClears : fsActive windowSt 0x612 = false ∧ (fsOf windowSt 0x612).window = some 10 ∧ windowSt.time.frame = some 10 := by decide
theorem wit_StatusClears_active : fsActive (modFs 0x612 (fun f => { f with momentary := true }) up) 0x612 = true := by decide
theorem wit_StatusClears_open : (fsOf (modFs 0x612 (fun f => { f with window := some 11 }) up) 0x612).window = some 11 := by decide
theorem wit_StatusClears_hb : (1999999 : Nat) < up.flt.hbLast + 2000000 ∧ ({ up with flt := { up.flt with hbLast := 1000001 } } : State).time.now < 1000001 + 1000000
    ∧ up.flt.hbLast + 1000000 ≤ up.time.now := by decide

/-- A beam whose timer runs, with `k` frames left. -/
def escSt (k : Nat) : State := modUnit 0xFFF (fun x => { x with esc := { x.esc with running := true, left := k } }) up
theorem wit_EscalationAndAlarm : bitAt 1 0 = true ∧ isBeamId 0xFFF = true ∧ (unitOf (escSt 1) 0xFFF).esc.running = true
    ∧ (unitOf (escSt 0) 0xFFF).esc.running = true ∧ (unitOf (escSt 0) 0xFFF).esc.left = 0 := by decide
theorem wit_EscalationAndAlarm_none : bitAt 2 0 = false ∧ (unitOf up 0xFFF).esc.running = false := by decide
theorem wit_EscalationAndAlarm_pins : calm.flt.alarm = false ∧ up.flt.alarm = true ∧ alarmDue up = false ∧ up.flt.alarmFree < 2000000 ∧ up.flt.alarmHold ≤ 2000000
    ∧ 1999999 < ({ up with flt := { up.flt with alarmHold := 2000000 } } : State).flt.alarmHold ∧ 5 ≤ ({ up with flt := { up.flt with alarmFree := 5 } } : State).flt.alarmFree ∧ alarmDue { up with rst := { up.rst with phase := 6 } } = true := by decide
theorem wit_EscalationAndAlarm_hb : deviceUp up = true ∧ up.clk.coreLock = true ∧ up.flt.hbLost = false ∧ 999999 < up.flt.hbLast + 1000000 ∧ up.flt.hbLast + 1000000 ≤ 1000000
    ∧ ({ up with flt := { up.flt with hbLost := true } } : State).flt.hbLost = true := by decide

/-- Sensor 3 has read above 120 degC once. -/
def hotOnce : State := modTemp 3 (fun x => { x with hot := 1 }) up
theorem wit_HealthMonitors : hubUp up = true ∧ (1920 : Int) ≤ 1920 ∧ hubUp hotOnce = true ∧ (1920 : Int) < 1921 ∧ 1 ≤ (tempOf hotOnce 3).hot := by decide
theorem wit_HealthMonitors_rails : railMasked up 0 = false ∧ railMasked { up with clk := { up.clk with sliceOn := 0 } } 0 = true
    ∧ fld (inF up (baseMON + 0x2C0)) 0 8 * 100 < (801 : Int).natAbs ∧ (800 : Int).natAbs ≤ fld (inF up (baseMON + 0x2C0)) 0 8 * 100 := by decide
theorem wit_HealthMonitors_odometer : up.clk.pwrReq = true ∧ tempMax up = none
    ∧ tempMax (modTemp 3 (fun x => { x with seen := true, reading := 400 }) up) = some (3, 400)
    ∧ ({ up with mon := { up.mon with lifeOn := 3599 } } : State).mon.lifeSaved + 3600 ≤ 3599 + 1 := by decide

theorem wit_PllRules : pllLocked up 2 = true ∧ hubUp up = true ∧ 1 ≤ (2 : Fin 15).val ∧ (11 : Fin 15).val ≤ 11 ∧ (12 : Fin 15).val ≠ 2
    ∧ up.rst.pendingClock.getLsbD ((4 : Fin 15).val - 1) = false ∧ ({ up with rst := { up.rst with pendingClock := 0x408 } } : State).rst.pendingClock.getLsbD ((4 : Fin 15).val - 1) = true
    ∧ ({ up with rst := { up.rst with pendingClock := 0x408 } } : State).rst.pendingClock.getLsbD ((11 : Fin 15).val - 1) = true ∧ sliceOfUnit 0x1FF = some (11 - 4) ∧ isTineId 0x1FF = true := by decide
theorem wit_ReferenceClocks : hubUp up = true ∧ hubUp State.reset = false ∧ ({ up with clk := { up.clk with refHold := true } } : State).clk.refHold = true ∧ up.clk.refHold = false
    ∧ up.clk.xtalFail = false ∧ ({ up with clk := { up.clk with xtalFail := true } } : State).clk.xtalFail = true ∧ deviceUp up = true ∧ deviceUp State.reset = false := by decide

/-- A pending level request. -/
def actPend : State := { up with clk := { up.clk with pend := some { level := 1, target := 20, late := false } } }
theorem wit_ActivityLevels : deviceUp actPend = true ∧ actPend.clk.pend.isSome = true ∧ up.clk.pend = none ∧ up.time.openFrame ≤ farLimit up ∧ rw64 up (baseCLK + 8) ≤ farLimit up
    ∧ up.clk.level = 2 ∧ ({ up with clk := { up.clk with level := 1 } } : State).clk.level ≠ 2 := by decide
theorem wit_ActivityLevels_wake : ({ up with clk := { up.clk with waking := true } } : State).clk.waking = true ∧ ({ up with clk := { up.clk with toSleep := true } } : State).clk.toSleep = true
    ∧ 1 ≤ up.rst.phase ∧ wakeEnabled .wakeN (setRw (baseCLK + 0x40) 1 up) = true ∧ wakeEnabled .timer (setRw (baseCLK + 0x40) 0x100 up) = true := by decide
theorem wit_ActivityLevels_asleep :
    (fun s : State => wakeEnabled .wakeN s = true ∧ s.clk.toSleep = false ∧ s.clk.level = 0 ∧ s.clk.pwrReq = false)
      (setRw (baseCLK + 0x40) 1 { up with clk := { up.clk with level := 0, pwrReq := false } }) := by decide


/-! ### Signal path -/

/-- Group 1 (slice 0) in state `st`, with register writes `f`. -/
def grp (st : UState) (f : XgSt → XgSt) : State := modXg 1 f (modUnit 0x4C1 (fun x => { x with st }) up)
theorem wit_DriveCycles : sliceRuns up 0 = true ∧ (64 + groupM up 1 - groupPhase up 1) % groupM up 1 = 0 ∧ groupOn up 1 = false
    ∧ groupOn (grp .ready id) 1 = true ∧ (xgOf (grp .ready id) 1).tripped = false ∧ (xgOf (grp .ready id) 1).handover = none
    ∧ (xgOf (grp .ready (fun x => { x with tripped := true })) 1).tripped = true ∧ (xgOf (grp .ready (fun x => { x with handover := some true })) 1).handover = some true
    ∧ (toneOf (modTone 1 (fun x => { x with run := some { chan := 8, requested := true, mine := true, cosPhase := false, start := 1, began := true, periods := 3 } }) (grp .ready id)) 1).run
      = some { chan := 8, requested := true, mine := true, cosPhase := false, start := 1, began := true, periods := 3 } := by decide
theorem wit_DriveCycles_ramp : stOf (grp .preparing (fun x => { x with rampCycle := 15 })) (0x4C0 + 1) = .preparing ∧ groupOn (grp .preparing id) 1 = true
    ∧ (xgOf (grp .preparing (fun x => { x with rampCycle := 15 })) 1).rampCycle < 16 ∧ stOf (grp .active (fun x => { x with cyc := .valid })) (0x4C0 + 1) ≠ .preparing
    ∧ burstMode (grp .active (fun x => { x with cyc := .valid })) 1 = false ∧ (xgOf (grp .active (fun x => { x with cyc := .valid })) 1).cyc = .valid := by decide
theorem wit_DriveCycles_handover : (xgOf (grp .active (fun x => { x with driveNext := true })) 1).driveNext = true ∧ groupOn (grp .active (fun x => { x with driveNext := true })) 1 = true
    ∧ (xgOf (grp .active (fun x => { x with driveNext := true })) 1).tripped = false := by decide
/-- Group 1 ACTIVE in BURST. -/
def bursting (f : XgSt → XgSt) : State := setInF (baseXCG + 0x100) 1 (grp .active f)
theorem wit_DriveCycles_burst : sliceRuns (bursting id) 0 = true ∧ burstDue (bursting (fun x => { x with burstFrom := some 10 })) 1 10 = true
    ∧ bitAt (xgReg (bursting id) 1 0) 4 = false ∧ (xgOf (bursting id) 1).burstCount = 0 ∧ (xgOf (bursting id) 1).burstLeft = 0 ∧ 0 < (xgOf (bursting (fun x => { x with burstLeft := 1 })) 1).burstLeft
    ∧ burstMode (bursting id) 1 = true ∧ groupOn (bursting id) 1 = true ∧ (xgOf (bursting id) 1).burstFrom = none
    ∧ (xgOf (bursting (fun x => { x with burstFrom := some 11 })) 1).burstFrom = some 11 ∧ 11 ≤ 10 + 1
    ∧ (xgOf (bursting (fun x => { x with burstFrame := 10 })) 1).burstFrame ≤ 10 ∧ 10 < (xgOf (bursting (fun x => { x with burstFrame := 11 })) 1).burstFrame := by decide

theorem wit_SenseRules : sliceRuns (grp .active id) 0 = true ∧ groupOn (grp .active id) 1 = true ∧ (xgOf (grp .preparing (fun x => { x with cyc := .ramp })) 1).cyc = .ramp
    ∧ groupOn (grp .preparing (fun x => { x with cyc := .ramp })) 1 = true ∧ (xgOf (grp .active (fun x => { x with cyc := .valid, owner := true })) 1).cyc = .valid
    ∧ (xgOf (grp .active (fun x => { x with cyc := .valid, owner := true })) 1).owner = true ∧ fld (xgOf (grp .active (fun x => { x with winI := 0x00640000 })) 1).winI 16 16 < 101
    ∧ ¬ fld (xgOf (grp .active (fun x => { x with winI := 0x00640000 })) 1).winI 16 16 < 100 := by decide

/-- Channel 8 ACTIVE beside its group, which this device owns. -/
def toneSt : State := modUnit 8 (fun x => { x with st := .active }) (grp .active (fun x => { x with owner := true }))
theorem wit_ToneChecks : deviceUp toneSt = true ∧ bitAt 0x01000008 24 = true ∧ fld 0x01000008 0 9 = 8 ∧ toneSt.toneBox.busy = false ∧ toneRefused 8 toneSt = false ∧ toneRefused 8 up = true
    ∧ ({ toneSt with toneBox := { toneSt.toneBox with busy := true } } : State).toneBox.busy = true := by decide
/-- A requested check that runs in group 1, in its sine or cosine phase with `n` carrier periods counted. -/
def toneRunSt (k n : Nat) (cos : Bool) : State := modTone 1 (fun x => { x with run := some { chan := 8, requested := true, mine := true, cosPhase := cos, start := k, began := true, periods := n } })
  { up with time := { up.time with frame := some 65536 } }
theorem wit_ToneChecks_run : ((toneOf (toneRunSt 1 0 false) 1).run.map ToneRun.start = some 1) ∧ 1 + 65535 ≤ frameN (toneRunSt 1 0 false) ∧ frameN (toneRunSt 2 0 false) < 2 + 65535
    ∧ ((toneOf (toneRunSt 1 256 false) 1).run.map ToneRun.cosPhase = some false) ∧ 64 * toneLen (toneRunSt 1 256 false) ≤ 256 ∧ 63 < 64 * toneLen (toneRunSt 1 63 true)
    ∧ ((toneOf (toneRunSt 1 256 true) 1).run.map ToneRun.cosPhase = some true) := by decide
theorem wit_ToneChecks_pins : up.clk.sliceOn.getLsbD ((511 : Fin 512).val / 64) = true ∧ up.biasOff = false ∧ up.biasSplit = false ∧ ({ up with biasSplit := true } : State).biasSplit = true
    ∧ ({ up with biasOff := true } : State).biasOff = true ∧ ({ up with clk := { up.clk with sliceOn := 0x7F } } : State).clk.sliceOn.getLsbD ((511 : Fin 512).val / 64) = false
    ∧ (xgOf (modXg 1 (fun x => { x with owner := true }) (toneRunSt 1 0 false)) 1).owner = true ∧ (xgOf (toneRunSt 1 0 false) 1).owner = false := by decide

/-- Engine 0 ACTIVE with the slot's state changed by `f`. -/
def eng (f : SeSt → SeSt) : State := modSe 0 f (modUnit 0x600 (fun x => { x with st := .active }) up)
theorem wit_CaptureAndAux : sliceRuns (eng id) 0 = true ∧ engineRuns (eng id) 0 = true ∧ nextJob up 0 = none
    ∧ sliceRuns up ((63 : Fin 64).val / 8) = true ∧ sliceRuns up ((511 : Fin 512).val / 64) = true := by decide
/-- Auxiliary channels 0 to 15 of slice 0: channel 0 ACTIVE with a mode. -/
def auxSt (mode : Word) : State := setInF baseAUX mode (modUnit 0x400 (fun x => { x with st := .active }) (eng id))
theorem wit_CaptureAndAux_slots : auxOn (auxSt 1) 0 = true ∧ auxOn up 0 = false ∧ nextJob (auxSt 4) 0 = some 0 ∧ (15 : Fin 20).val < 16 ∧ 16 ≤ (16 : Fin 20).val := by decide
theorem wit_CaptureAndAux_complete : (axsOf (modAxs 0 (fun x => { x with slot := [(0, .main, 3, 5)] }) (auxSt 1)) 0).slot = (0, .main, 3, 5) :: []
    ∧ engineRuns (auxSt 1) 0 = true ∧ (axsOf (auxSt 1) 0).slot = [] ∧ (axOf (auxSt 1) 0).held = false ∧ (seOf (auxSt 1) 0).swap = none ∧ (seOf (auxSt 1) 0).fifo.length < 16 := by decide

/-- Instruction fields. -/
def fields (d a b : Fin 32) (x : BitVec 8) (imm : Word) : SeFields := { ps := 0, pn := false, d, a, b, x, imm }
theorem wit_VectorArithmetic : SeReady 0 [kV 1, kV 2, kP 0] 1 (eng id) ∧ SeReady 0 [kV 1, kP 0] 1 (eng (fun x => { x with ctx := { x.ctx with cycle := 767 } }))
    ∧ (fields 3 1 2 0 0).x = 0 ∧ (fields 3 1 2 1 0).x = 1 ∧ 0 ≤ (23 : Word).toInt ∧ (23 : Word).toInt ≤ 23 ∧ -23 ≤ (0xFFFFFFE9 : Word).toInt ∧ (0xFFFFFFFF : Word).toInt < 0 := by
  unfold SeReady; decide
theorem wit_VectorSources : SeReady 0 [kS 0, kP 0] 1 (eng id) ∧ dataOk (memAddr (fields 1 0 0 0 65504) (seOf (eng id) 0)) 32 32 = true
    ∧ (1 : BitVec 8).getLsbD 0 = true ∧ memAddr (fields 1 0 0 1 16380) (seOf (eng id) 0) + 4 ≤ 16384 ∧ memAddr (fields 1 0 0 0 16352) (seOf (eng id) 0) + 32 ≤ 16384 := by
  unfold SeReady; decide
theorem wit_VectorSources_rest : SeReady 0 [kS 12, kP 0] 1 (eng id) ∧ (3 : BitVec 8).toNat ≤ 3 ∧ SeReady 0 [kA 1, kP 0] 1 (eng id) ∧ (47 : Word).toNat ≤ 47 ∧ SeReady 0 [kA 1, kP 0] 8 (eng id)
    ∧ SeReady 0 [kP 0] 1 (eng (fun x => { x with ctx := { x.ctx with slot := 15 } })) ∧ (seOf (eng (fun x => { x with ctx := { x.ctx with slot := 15 } })) 0).ctx.slot < 16
    ∧ (seOf (eng id) 0).captureAt = (seOf (eng id) 0).ctx.index := by unfold SeReady; decide
theorem wit_AccumulatorRules : SeReady 0 ([kV 1, kV 2, kP 0] ++ if (1 : BitVec 8).getLsbD 0 = true then [] else [kA 0]) 1 (eng id) ∧ SeReady 0 ([kV 1, kV 2, kP 0] ++ [kA 0]) 1 (eng id)
    ∧ SeReady 0 [kA 1, kP 0] 3 (eng id) ∧ SeReady 0 [kS 1, kS 2, kS 9, kA 0, kP 0] 1 (eng id) ∧ dataOk (sOf (seOf (eng id) 0) 1).toNat 32 32 = true
    ∧ (sOf (seOf (eng id) 0) 2).toNat + 4 ≤ 16384 ∧ sIdx 1 ≠ sIdx 2 ∧ sIdx 1 ≠ 0 := by unfold SeReady; decide
theorem wit_ScalarsAndStores : SeReady 0 [] 1 (eng id) ∧ SeReady 0 [kS 1] 1 (eng id) ∧ dataOk (memAddr (fields 1 0 0 0 65532) (seOf (eng id) 0)) 4 4 = true
    ∧ SeReady 0 [kS 1, kS 2] 1 (eng id) ∧ SeReady 0 [kS 1, kV 1, kP 0] 1 (eng id) ∧ dataOk (memAddr (fields 1 0 0 0 65504) (seOf (eng id) 0)) 32 32 = true := by unfold SeReady; decide
theorem wit_CompareAndBiquad : SeReady 0 [kV 1, kV 2, kP 0] 1 (eng id) ∧ (fields 1 0 0 5 0).d.val ≠ 0 ∧ (fields 1 0 0 5 0).x.toNat ≤ 5 ∧ (fields 0 0 0 5 0).d.val = 0
    ∧ SeReady 0 [kV 1, kS 1, kS 2, kP 0] 5 (eng id) ∧ dataOk (memAddr (fields 1 0 0 1 65408) (seOf (eng id) 0)) 32 128 = true ∧ (sOf (seOf (eng id) 0) 2).toNat + 20 ≤ 16384 := by unfold SeReady; decide
theorem wit_EngineControl : SeReady 0 [] 1 (eng id) ∧ (1 : BitVec 8) ≠ 0 ∧ 1 ≤ (4096 : Word).toNat ∧ (4096 : Word).toNat ≤ 4096 ∧ (seOf (eng id) 0).ctx.loops.length < 2 ∧ (seOf (eng id) 0).ctx.staged = []
    ∧ brCond 0 (sOf (seOf (eng id) 0) 1) = true ∧ SeReady 0 [kS 1] 2 (eng id) ∧ (seOf (eng id) 0).ctx.loops = [] ∧ (seOf (eng id) 0).pc + (8191 : Word).toNat < 8192
    ∧ brCond 1 (sOf (seOf (eng id) 0) 1) = false ∧ 0xC0 ≤ fld 0xC0 0 8 ∧ (9 : BitVec 8).toNat ≤ 9 := by unfold SeReady; decide
theorem wit_EngineControl_yield : SeReady 0 [] 1 (eng (fun x => { x with ctx := { x.ctx with slot := 15, staged := [{ port := 1, lanes := [], mask := 0xFF }] } }))
    ∧ (seOf (eng (fun x => { x with ctx := { x.ctx with slot := 15, staged := [{ port := 1, lanes := [], mask := 0xFF }] } })) 0).ctx.slot = 15
    ∧ unitExists (modUnit 0x600 (fun x => { x with st := .active }) (loaded { units := [{ id := 60, parent := 0xFFF, kind := 1 }] })) (64 * 0 + 4 * 15 + 0) = true
    ∧ unitExists (loaded { units := [{ id := 60, parent := 0xFFF, kind := 1 }] }) (64 * 0 + 4 * 15 + 1) = false := by unfold SeReady; decide
theorem wit_EngineControl_out : SeReady 0 [kV 1, kP 0] 1 (eng (fun x => { x with ctx := { x.ctx with slot := 15 } }))
    ∧ portOk (eng (fun x => { x with ctx := { x.ctx with slot := 15 } })) 0 1 = true ∧ portOk (eng id) 0 3 = true ∧ engineRuns (eng id) 0 = true ∧ (seOf (eng id) 0).ctx.ended = false := by unfold SeReady; decide
theorem wit_SlotEnds : SeReady 0 [kS 1] 1 (eng id) ∧ dataOk (memAddr (fields 1 0 0 0 65532) (seOf (eng id) 0)) 4 4 = true
    ∧ memAddr (fields 1 0 0 1 16380) (seOf (eng id) 0) + (if (1 : BitVec 8).getLsbD 0 = true then 4 else 32) ≤ 16384
    ∧ (sOf (seOf (eng id) 0) 2).toNat + (if (0 : BitVec 8).getLsbD 0 = true then 20 else 160) ≤ 16384 := by unfold SeReady; decide
theorem wit_SlotEnds_overrun : engineRuns (eng (fun x => { x with ctx := { x.ctx with cycle := 768 } })) 0 = true
    ∧ (seOf (eng (fun x => { x with ctx := { x.ctx with cycle := 768 } })) 0).ctx.limit < (seOf (eng (fun x => { x with ctx := { x.ctx with cycle := 768 } })) 0).ctx.cycle + 1
    ∧ (seOf (eng (fun x => { x with ctx := { x.ctx with cycle := 768 } })) 0).ctx.ended = false ∧ (seOf (eng (fun x => { x with ctx := { x.ctx with ended := true } })) 0).ctx.ended = true := by decide
theorem wit_BanksAndPasses : deviceUp up = true ∧ bankLocked (seOf up 0) = false ∧ true ≠ (seOf up 0).cur ∧ false = (seOf up 0).cur ∧ bankLocked (seOf (eng (fun x => { x with asked := some true })) 0) = true
    ∧ engineRuns up 0 = false ∧ engineRuns (eng id) 0 = true ∧ stOf (modUnit 0x600 (fun x => { x with st := .preparing }) up) (0x600 + 0) = .preparing
    ∧ engineRuns (modUnit 0x600 (fun x => { x with st := .preparing }) up) 0 = true := by decide


/-! ### Trackers, ports, compares, generators -/

/-- Tracker 5 in state `st` with one waiting sample. -/
def trk (st : UState) (d : Demod) (f : TkSt → TkSt) : State :=
  setInF (baseRIN + 0x40 * 5 + 0xC) 0 <| setInF (baseTRK + 0x40 * 5 + 0xC) 0xFFFF0000 (modTk 5 (fun x => f { x with waiting := [d] }) (modUnit 5 (fun x => { x with st }) up))
def goodSample : Demod := { i := 40, s := 100, c := 200, ok := true, gap := false, mark := false, delay := 0, settled := true }
def badSample : Demod := { goodSample with ok := false }
theorem wit_TrackerSamples : (tkOf (trk .dormant goodSample id) 5).waiting = goodSample :: [] ∧ stOf (trk .dormant goodSample id) 5 = .dormant ∧ (tkOf (trk .dormant goodSample id) 5).obs.isNone = true := by decide
theorem wit_TrackerSamples_acquire : (tkOf (trk .preparing goodSample id) 5).waiting = goodSample :: [] ∧ stOf (trk .preparing goodSample id) 5 = .preparing ∧ (tkOf (trk .preparing goodSample id) 5).obs.isNone = true
    ∧ goodSample.ok = true ∧ goodSample.mark = false := by decide
theorem wit_TrackerSamples_amp : ampOk (trk .preparing goodSample id) 5 (ampCode (trk .preparing goodSample id) 5 (ampl (tkOf (trk .preparing goodSample id) 5).map goodSample.s goodSample.c)) = true := by decide
theorem wit_TrackerSamples_coast : (fun s : State => stOf s 5 ≠ .dormant ∧ stOf s 5 ≠ .faulted ∧ (tkOf s 5).obs = some {} ∧ (tkOf s 5).locked = true ∧ (tkOf s 5).coast = false
    ∧ badSample.ok = false ∧ badSample.gap = false) (trk .active badSample (fun x => { x with obs := some {}, locked := true })) := by decide
theorem wit_TrackerSamples_limit : (fun s : State => (tkOf s 5).coast = true ∧ (tkOf s 5).limitRaised = false ∧ coastLim s 5 ≤ (tkOf s 5).coastFrames)
    (trk .active badSample (fun x => { x with coast := true, coastFrames := 64 })) ∧ (tkOf up 5).coast = false := by decide

/-- Tracker 5 with a candidate map. -/
def candSt (st : UState) : State := modTk 5 (fun x => { x with cand := some {} }) (modUnit 5 (fun x => { x with st }) up)
theorem anyBelow_false (p : Nat → Bool) (h : ∀ j, p j = false) : ∀ n, anyBelow p n = false
  | 0 => rfl
  | n + 1 => by rw [anyBelow, h n, anyBelow_false p h n]; rfl
theorem anyBelow_true (p : Nat → Bool) (j : Nat) (h : p j = true) : ∀ n, j < n → anyBelow p n = true
  | 0, l => absurd l (Nat.not_lt_zero j)
  | n + 1, l => by
    rw [anyBelow]
    rcases (by omega : j = n ∨ j < n) with e | e
    · rw [← e, h]; rfl
    · rw [anyBelow_true p j h n e, Bool.or_true]
/-- A candidate equal to the map in force changes the correction nowhere. -/
theorem mapTooFar_self (s : State) (c : Nat) (m : SigMap) : mapTooFar s c m m = false := by
  have h0 : ∀ a x, mapStepAt m m a x = 0 := by
    intro a x
    show rAbs (wrapQ (mapAngle m a x - mapAngle m a x)) = 0
    rw [sub_self]; decide +kernel
  have hl : ¬ (fld (inF s (baseTRK + 0x8008)) 16 16 : Rat) / 16777216 < 0 := not_lt.mpr (div_nonneg (Nat.cast_nonneg _) (by norm_num))
  unfold mapTooFar
  refine anyBelow_false _ (fun j => ?_) _
  rw [h0]; exact decide_eq_false hl
theorem wit_MapOperations : (tkOf (candSt .ready) 5).cand = some {} ∧ mapStateOk (candSt .ready) 5 = true ∧ mapTooFar (candSt .ready) 5 (tkOf (candSt .ready) 5).map {} = false :=
  ⟨by decide, by decide, mapTooFar_self ..⟩
/-- A candidate whose offset turns the angle at 0, with MAXSTEP = 0. -/
def farSt : State := setInF (baseTRK + 0x8008) 0 (modTk 5 (fun x => { x with cand := some { ofsS := 0x100000 } }) (modUnit 5 (fun x => { x with st := .ready }) up))
theorem wit_MapOperations_far : (tkOf farSt 5).cand = some { ofsS := 0x100000 } ∧ mapStateOk farSt 5 = true ∧ mapTooFar farSt 5 (tkOf farSt 5).map { ofsS := 0x100000 } = true := by
  refine ⟨by decide, by decide, ?_⟩
  have h1 : (fld (inF farSt (baseTRK + 0x8008)) 16 16 : Rat) / 16777216 = 0 := by decide +kernel
  have h2 : 0 < mapStepAt (tkOf farSt 5).map { ofsS := 0x100000 } (nominalAmp farSt 5) (((0 : Nat) : Rat) / 4294967296) := by decide +kernel
  unfold mapTooFar
  refine anyBelow_true _ 0 ?_ _ (by decide +kernel)
  rw [h1]; exact decide_eq_true h2
/-- Tracker 5 feeds the one gear link. -/
theorem wit_MapOperations_link : linksOf (loaded { units := [{ id := 5, parent := 0xFFF, kind := 1 }, { id := 0x501, parent := 0xFFF, kind := 0xB }]
                                                   wires := [{ sink := 0x501, source := 5, input := 0, output := 0 }] }) 5 = [1] := by decide
theorem wit_MapOperations_refused : (tkOf up 5).cand = none ∧ (tkOf (candSt .active) 5).cand.isSome = true ∧ mapStateOk (candSt .active) 5 = false ∧ mapStateOk up 5 = true := by decide

/-- Port 2 READY, with its mode register. -/
def port (mode : Word) : State := setInF (baseINC + 0x40 * 2) mode (modUnit 0x482 (fun x => { x with st := .ready }) up)
theorem wit_PortsAndSwitches : deviceUp (port 3) = true ∧ portCounts (port 3) 2 = true ∧ portCounts up 2 = false
    ∧ (ipOf (port 3) 2).accA = none ∧ (ipOf (modIp 2 (fun x => { x with accA := some 1000 }) (port 3)) 2).accA = some 1000 ∧ 1000 + filtNs (port 3) 2 ≤ 1005 ∧ 1004 < 1000 + filtNs (port 3) 2
    ∧ ([0, 1, 2, 3, 4, 5].map (fun m => decide (1 ≤ ipMode (port m) 2 ∧ ipMode (port m) 2 ≤ 3))).contains true = true := by decide
theorem wit_PortsAndSwitches_switch : (fun s : State => (swOf s 63).seen = true ∧ (swOf s 63).raw = swSample s 63 true) (modSw 63 (fun x => { x with seen := true, raw := true }) up) := by decide

/-- Emulator 1 ACTIVE with two edges queued. -/
def emu : State := modEm 1 (fun x => { x with queue := [(true, 1), (false, 2)], ready := 100, readyBy := 1100, last := 50, spacing := 60 }) (modUnit 0x4A1 (fun x => { x with st := .active }) up)
theorem wit_EmulatorsAndTriggers : deviceUp emu = true ∧ operates emu (0x4A0 + 1) = true ∧ (emOf emu 1).queue = (true, 1) :: [(false, 2)] ∧ 110 = (emOf emu 1).last + (emOf emu 1).spacing
    ∧ max (emOf emu 1).ready 110 ≤ 110 ∧ 1100 ≤ max (emOf emu 1).readyBy 110 ∧ 109 < max (emOf emu 1).ready 110 ∧ max (emOf emu 1).readyBy 110 < 1101 := by decide
def trg (st : UState) (on : Bool) : State := modTg 15 (fun x => { x with starts := [{ start := 7, cmp := 8, tf := 7 }], asserted := on }) (modUnit 0x4BF (fun x => { x with st }) up)
theorem wit_EmulatorsAndTriggers_pulse : (tgOf (trg .active false) 15).starts = { start := 7, cmp := 8, tf := 7 } :: [] ∧ stOf (trg .active false) (0x4B0 + 15) = .active ∧ stOf (trg .ready false) (0x4B0 + 15) ≠ .active
    ∧ (tgOf (trg .active false) 15).asserted = false ∧ (tgOf (trg .active true) 15).asserted = true := by decide

/-- One tracker, ACTIVE, at 100 us before the compare's position at 1 rev/s. -/
def cmpSt : State :=
  modCmp 0 (fun x => { x with armed := true }) (modTk 0 (fun x => { x with prevPos := -500000, record := { x.record with fine := true, pos := -429497, speed := 65536 } })
    (modUnit 0 (fun x => { x with st := .active }) (loaded { units := [{ id := 0, parent := 0xFFF, kind := 1 }] })))
theorem wit_CompareRules : (fun s : State => deviceUp s = true ∧ s.time.frame = some 10 ∧ ownTrackers s = [0] ∧ ownPorts s = [] ∧ stOf s 0 = .active ∧ (tkOf s 0).record.fine = true
    ∧ (cmpOf s 0).armed = true ∧ (cmpOf s 0).fired = false ∧ (cmpOf s 0).tested = true ∧ (cmpOf s 0).waitBack = false ∧ (cmpOf s 0).firing.isNone = true
    ∧ (cmpOf s 1).armed = false ∧ (cmpOf s 1).fired = false ∧ (cmpOf s 1).firing.isNone = true) cmpSt
    ∧ (∀ d, d < 2 → pastV d (tkOf cmpSt 0).record.pos (cmpVal cmpSt 0) = true → pastV d (tkOf cmpSt 0).prevPos (cmpVal cmpSt 0) = true) := by decide
theorem wit_CompareRules_cross : cmpCross cmpSt 0 (tkOf cmpSt 0).record = some (429497 / 4294967296) := by decide +kernel
theorem nearest_eq (q : Rat) (k : Int) (h1 : (k : Rat) - 1 / 2 < q) (h2 : q < k + 1 / 2) : nearest q = k := by
  have f1 := Rat.floor_le q
  have f2 := Rat.lt_floor_add_one q
  have b1 : k - 1 ≤ q.floor := by rw [Rat.le_floor_iff]; push_cast; linarith
  have b2 : q.floor < k + 1 := by rw [Rat.floor_lt_iff]; push_cast; linarith
  unfold nearest
  rcases (by omega : q.floor = k ∨ q.floor = k - 1) with h | h
  · rw [h, if_pos (by linarith)]
  · rw [h]; push_cast; rw [if_neg (by linarith), if_pos (by linarith)]; omega
/-- The crossing lies 0.03 ns from the grid point 1,350,000, so the 1 ns that the crossing is found to does not move it. -/
theorem wit_CompareRules_time : crossTime (instOf cmpSt 10).toNat (429497 / 4294967296) = 1350000
    ∧ (instOf cmpSt 10).toNat + 6000 + cmpLead cmpSt 0 ≤ 1350000 ∧ 1350000 < (instOf cmpSt 10).toNat + 6000 + cmpLead cmpSt 0 + tf cmpSt := by
  refine ⟨?_, by decide +kernel, by decide +kernel⟩
  have hi : (instOf cmpSt 10).toNat = 1250000 := by decide +kernel
  have e1 := le_max_left (-1 : Rat) (min 1 (Config.crossErr (429497 / 4294967296)))
  have e2 : max (-1 : Rat) (min 1 (Config.crossErr (429497 / 4294967296))) ≤ 1 := max_le (by norm_num) (min_le_left _ _)
  unfold crossTime
  rw [hi, nearest_eq _ 270000]
  · rfl
  · push_cast; linarith
  · push_cast; linarith
theorem wit_CompareRules_fire : (cmpOf (modCmp 1087 (fun x => { x with firing := some { t := 9, tc := some 8, late := true, frame := 10, dt := 0, status := 0 } }) up) 1087).firing
    = some { t := 9, tc := some 8, late := true, frame := 10, dt := 0, status := 0 } := by decide

theorem wit_RecordsAndSetpoints : ownPorts (loaded { units := [{ id := 0x483, parent := 0xFFF, kind := 4 }] }) = [3] ∧ ownTrackers (loaded { units := [{ id := 7, parent := 0xFFF, kind := 1 }] }) = [7]
    ∧ ownGens (loaded { units := [{ id := 0x201, parent := 0xFFF, kind := 2 }] }) = [1] ∧ stOf up 7 = .dormant ∧ stOf up (pgUnit 1) = .dormant ∧ up.time.frame = some 10 := by decide
/-- Generator 1 ACTIVE at rest with its step outputs. -/
def ssrSt : State := setInF (baseMOT + 0x400 * 1) 0x100 (modPg 1 (fun x => { x with still := 65535 }) (modUnit 0x201 (fun x => { x with st := .active }) up))
theorem wit_RecordsAndSetpoints_ssr : atRest (pgOf ssrSt 1) = true ∧ operates ssrSt (pgUnit 1) = true ∧ ssrDelay ssrSt 1 ≤ (pgOf ssrSt 1).still ∧ atRest (modPg 1 (fun x => { x with vel := 1 }) up |> (pgOf · 1)) = false := by decide

/-! ### Frame memory, records, backbone, host -/

/-- A region of type 2 of one tile, sealed, with a scrub period. -/
def scrubSt : State := setInF baseFMEM 0x00010000 (modTile 512 (fun x => { x with st := 2 }) (loaded { regions := [{ type := 2, first := 512, tiles := 1 }] }))
theorem wit_FrameMemory : MemInv up ∧ deviceUp scrubSt = true ∧ fld (inF (setInF baseFMEM 0 up) baseFMEM) 16 16 = 0 ∧ fld (inF scrubSt baseFMEM) 16 16 ≠ 0 ∧ scrubSt.fm.scrubLeft = 0
    ∧ ((scrubTiles scrubSt).filter (fun k => (tileOf scrubSt k).st == 2)).find? (fun k => decide (scrubSt.fm.scrubPos ≤ k)) = some 512 := by unfold MemInv; decide
theorem wit_LedgerBalances : hubUp up = true ∧ up.time.frame = some 10 := by decide
theorem wit_BlocksAndEgress : (fun s : State => deviceUp s = true ∧ s.time.frame = some 10 ∧ s.conf = some {} ∧ s.clk.level = 2) (loaded {}) := by decide
/-- A stage slot whose backbone copy is to come; ports 0 to 3 selected, port 0 up. -/
def egress (on : Bool) : State := modBbPort 0 (fun x => { x with up := on }) { up with fm := { up.fm with stage := [{ frame := 10, slot := 1, len := 4096, copies := [0] }] } }
theorem wit_BlocksAndEgress_window : (fun s : State => hubUp s = true ∧ s.fm.stage = [{ frame := 10, slot := 1, len := 4096, copies := [0] }] ∧ (openSlot 1 (slotTile s 1) 4096 s).1.all id = true) (egress true)
    ∧ portsUp (egress false) = [] := by decide
theorem wit_BlocksAndEgress_up : portsUp (setInF (baseNET + 0x40) 0xF (egress true)) ≠ [] := by decide

/-- DMA engine 7 enabled. -/
def dmaSt (halted : Bool) : State := modDma 7 (fun x => { x with halted }) (setRw (baseHST + 0x100 + 0x40 * 7) 1 { up with fm := { up.fm with stage := [{ frame := 10, slot := 1, len := 64, copies := [8] }] } })
theorem wit_DmaAndVectors : hubUp (dmaSt false) = true ∧ (dmaSt false).fm.stage.find? (fun y => y.copies.contains (7 + 1)) = some { frame := 10, slot := 1, len := 64, copies := [8] }
    ∧ dmEn (dmaSt false) 7 = true ∧ (dmaOf (dmaSt false) 7).halted = false ∧ (dmaOf (dmaSt true) 7).halted = true ∧ dmEn up 7 = false ∧ bitAt 1 0 = true ∧ bitAt 0 0 = false := by decide
def msixSt (v : Nat) : State := { up with hst := { up.hst with bme := true, msixEn := true, msixPend := BitVec.ofNat 64 (2 ^ v) } }
theorem wit_DmaAndVectors_msix : (msixSt 63).hst.msixPend.getLsbD 63 = true ∧ msixOpen (msixSt 63) 63 = true ∧ msixOpen (setRw (baseHST + 0x800C) 0 (msixSt 0)) 0 = true ∧ msixOpen (msixSt 0) 0 = false
    ∧ (msixSt 0).hst.msixPend.getLsbD 1 = false := by decide

theorem wit_BackboneTime : hubUp up = true ∧ up.net.gm = false ∧ ({ up with net := { up.net with gm := true } } : State).net.gm = true ∧ (5 : BitVec 64) ≠ up.net.gmId
    ∧ up.conf.isNone = true ∧ (loaded {}).conf.isSome = true ∧ (bbPortOf up 3).up = false ∧ (bbPortOf up 3).up ≠ true
    ∧ 1000 < (1001 : Int).natAbs ∧ (1000 : Int).natAbs ≤ 1000 ∧ up.time.frame.isSome = true ∧ ({ up with time := { up.time with frame := none } } : State).time.frame = none := by decide

/-- A message of stream `k` for frame `f`, its header's count `c`, with the record of one register write. -/
def msgBytes (k c f : Nat) (strict : Bool) (reg : Nat) : List Byte :=
  [0x02, if strict then 1 else 0] ++ leBytes 2 c ++ leBytes 2 k ++ leBytes 2 1 ++ leBytes 4 5 ++ leBytes 4 0 ++ leBytes 8 f
    ++ ([1, 0] ++ leBytes 2 0 ++ leBytes 4 reg ++ leBytes 4 1 ++ leBytes 4 0)
def msg (k : Nat) : CmdMessage := { port := 0, rtag := none, bytes := msgBytes k 1 12 false 0x8600000, tag := 0 }
def stream : State := modSession 1 (fun x => { x with isOpen := true, epoch := 1 }) (setInF (baseNET + 0x400) 0x80000001 up)
/-- Its tag made under the stream's key. -/
def tagged (f : Nat) (strict : Bool) : CmdMessage :=
  { msg 0 with bytes := msgBytes 0 1 f strict 0x8600000, tag := gmac (sessionOf stream 1).key (gcmIv 2 (0 * 2 ^ 32 + 5)) (msgBytes 0 1 f strict 0x8600000) }
theorem wit_CommandMessages : 8 ≤ (msg 8).stream ∧ bitAt (csCtrl up 7) 31 = false ∧ csFree (modStream 0 (fun x => { x with used := 1 }) stream) 0 = 0
    ∧ bitAt (csCtrl stream 0) 31 = true ∧ csFree stream 0 ≠ 0 ∧ msgTagOk up (msg 0) = false ∧ bitAt (csCtrl (setInF (baseNET + 0x400) 0x80000001 up) 0) 31 = true
    ∧ (msg 0).seq ≤ (streamOf (modStream 0 (fun x => { x with seq := 5 }) stream) 0).seq ∧ (streamOf stream 0).seq < (msg 0).seq ∧ msgFormat (msg 0) = 0
    ∧ msgFormat { msg 0 with bytes := msgBytes 0 2 12 false 0x8600000 } = 4 ∧ msgFormat { msg 0 with bytes := msgBytes 0 1 12 false 0x8100014 } = 7
    ∧ (msg 0).records = [{ op := 1, unit := 0, arg := 0x8600000, value := 1 }] ∧ (msg 0).frame ≤ farLimit stream ∧ stream.time.openFrame ≤ (msg 0).frame
    ∧ 0 < stream.time.openFrame ∧ farLimit stream < 2000000 := by decide
theorem wit_CommandMessages_recover : (recoverMsg (msg 0) stream).1 = true := rfl
/-- A message whose number has been seen. -/
theorem wit_CommandMessages_duplicate :
    (recoverMsg { msg 0 with rtag := some 7 } (modStream 0 (fun x => { x with frerNum := some 7, frerHist := [true] }) stream)).1 = false := by
  have e : (recoverMsg { msg 0 with rtag := some 7 } (modStream 0 (fun x => { x with frerNum := some 7, frerHist := [true] }) stream)).1
      = (frerAccept (frerLen (modStream 0 (fun x => { x with frerNum := some 7, frerHist := [true] }) stream) 0) 7
          { frerNum := some 7, frerHist := [true] }).1 := rfl
  rw [e]
  generalize frerLen _ _ = h
  unfold frerAccept
  by_cases g : (h : Int) ≤ 0 <;> simp [g]
theorem wit_CommandMessages_frames : (tagged 11 true).strict = true ∧ (tagged 11 true).frame < stream.time.openFrame ∧ (tagged 2000000 true).strict = true
    ∧ stream.time.openFrame ≤ (tagged 2000000 true).frame ∧ farLimit stream < (tagged 2000000 true).frame := by decide
theorem wit_CommandMessages_tag (f : Nat) (b : Bool) (h : (tagged f b).stream = 0 ∧ (tagged f b).seq = 5 ∧ (tagged f b).keyEpoch = 1) : msgTagOk stream (tagged f b) = true := by
  unfold msgTagOk
  rw [h.1, h.2.1, h.2.2]
  have e : gmac (sessionOf stream (1 + 0)).key (gcmIv 2 (0 * 2 ^ 32 + 5)) (tagged f b).bytes = (tagged f b).tag := rfl
  simp only [e, beq_self_eq_true, Bool.and_true]; decide
theorem wit_CommandMessages_tagged : msgTagOk stream (tagged 12 false) = true ∧ msgTagOk stream (tagged 11 true) = true ∧ msgTagOk stream (tagged 2000000 true) = true :=
  ⟨wit_CommandMessages_tag _ _ (by decide), wit_CommandMessages_tag _ _ (by decide), wit_CommandMessages_tag _ _ (by decide)⟩


/-! ### Units, commit, slots -/

theorem wit_UnitCommands : deviceUp up = true ∧ isInfra 0x1FF = false ∧ unitExists up 0x1FF = true ∧ herdSpan up 0x1FF = false ∧ (unitOf up 0x1FF).page.isNone = true ∧ up.time.openFrame ≤ farLimit up
    ∧ rw64 up (baseUNIT + 0x100 * 0x1FF + 0x10) ≤ farLimit up ∧ farLimit (setRw (baseUNIT + 0x100 * 0x1FF + 0x14) 1 up) < rw64 (setRw (baseUNIT + 0x100 * 0x1FF + 0x14) 1 up) (baseUNIT + 0x100 * 0x1FF + 0x10)
    ∧ (unitOf (modUnit 0x1FF (fun x => { x with page := some { code := 1, target := 12, late := false } }) up) 0x1FF).page.isSome = true := by decide
theorem wit_PreparationAndIdle : (fun s : State => stOf s 7 = .preparing ∧ (unitOf s 7).prepDone = false ∧ (unitOf s 7).faultDue = false ∧ (unitOf s 7).prepLeft = some 1)
    (modUnit 7 (fun x => { x with st := .preparing, prepLeft := some 1 }) up) ∧ stOf up 7 ≠ .preparing ∧ (unitOf (modUnit 7 (fun x => { x with prepDone := true }) up) 7).prepDone = true := by decide
theorem wit_PreparationAndIdle_run : ({ up with rst := { up.rst with idle := [{ target := 0xFFF, waiting := [7] }] } } : State).rst.idle = { target := 0xFFF, waiting := [7] } :: [] := rfl

/-- A register of type RWS. -/
theorem wit_CommitTakesShadowWrites : 0x8600004 % 4 = 0 ∧ 0x4000000 ≤ 0x8600004 ∧ 0x8600004 / 0x100000 ≠ 0x85 ∧ (regAt up 0x8600004).map RegInfo.acc = some .rws ∧ up.commit.snap.isNone = true
    ∧ up.time.openFrame ≤ farLimit up ∧ bitAt 3 0 = true ∧ bitAt 3 1 = true ∧ bitAt 1 1 = false ∧ rw64 up (baseCFG + 0x220) ≤ farLimit up := by decide
theorem wit_CommitSnapshots : bitAt 2 0 = false ∧ ({ up with commit := { up.commit with snap := some [] } } : State).commit.snap.isSome = true ∧ farLimit (setRw (baseCFG + 0x220) 1000011 up) < rw64 (setRw (baseCFG + 0x220) 1000011 up) (baseCFG + 0x220)
    ∧ rw64 (setRw (baseCFG + 0x220) 1000010 up) (baseCFG + 0x220) ≤ farLimit (setRw (baseCFG + 0x220) 1000010 up) := by decide

/-- Slots with changes. -/
def sl (f : SlotSt → SlotSt) : State := { up with slots := f up.slots }
theorem wit_SlotRequests : slotBusy (sl (fun x => { x with stageRun := some (0x200000, 16) })) = true ∧ slotBusy up = false
    ∧ 0x200000 % 4096 = 0 ∧ 0x400000 ≤ 0x400000 ∧ inScratch up 0x200000 0x400000 = true ∧ inScratch up 0x1FF000 16 = false ∧ (rwOf (setRw (baseCFG + 0x34) 0x200000 up) (baseCFG + 0x34)).toNat = 0x200000
    ∧ (sl (fun x => { x with stageRun := some (0x200000, 16) })).slots.stageRun = some (0x200000, 16) := by decide
theorem wit_SlotRequests_switch : (sl (fun x => { x with staged := some [] })).slots.staged.isSome = true ∧ up.slots.velvet.isNone = true ∧ (sl (fun x => { x with previous := some [] })).slots.previous.isSome = true
    ∧ up.slots.staged.isNone = true ∧ up.slots.previous.isNone = true ∧ rw64 up (baseCFG + 0x3C) ≤ farLimit up := by decide
/-- A velvet of 3 frames from frame 8. -/
def velvetSt (v : Nat) : State := { sl (fun x => { x with velvet := some v }) with conf := some { velvetFrames := 2 }, sec := { up.sec with floorPending := some 4 } }
theorem wit_SlotRequests_velvet : (velvetSt 8).slots.velvet = some 8 ∧ 8 + velvetFrames (velvetSt 8) ≤ frameN (velvetSt 8) ∧ (velvetSt 8).slots.velvetFault = false ∧ frameN (velvetSt 9) < 9 + velvetFrames (velvetSt 9)
    ∧ (velvetSt 8).sec.floorPending = some 4 ∧ up.sec.floorPending.isNone = true := by decide
theorem wit_RollbackBeatsRevert : (fun s : State => deviceUp s = true ∧ s.slots.velvet = some 10 ∧ s.slots.velvetFault = true ∧ barred s s.slots.previous = false
    ∧ s.slots.pend = some { revert := true, target := 11 } ∧ 11 ≤ nextFrame s)
    (sl (fun x => { x with velvet := some 10, velvetFault := true, previous := some [], pend := some { revert := true, target := 11 } })) := by decide

/-! ### Security -/

/-- A service argument in SCRATCH: its place and length. -/
def argSt (len : Nat) : State := setRw (baseHST + 0x1004) 0x200000 (setRw (baseHST + 0x1008) (wordN len) up)
theorem wit_OwnerServices (k : Nat) : up.hst.svc = none ∧ scratchArg (argSt (authLen 1)) (authLen 1) = some (memBytes (argSt (authLen 1)) 0x200000 (authLen 1))
    ∧ scratchArg (argSt (authLen 2)) (authLen 2) = some (memBytes (argSt (authLen 2)) 0x200000 (authLen 2)) ∧ (k = leAt (authPayload (memBytes (argSt (authLen 1)) 0x200000 (authLen 1)) 1) 0 1 → k ≤ 3) := by
  refine ⟨rfl, by decide +kernel, by decide +kernel, ?_⟩
  intro h; subst h; decide +kernel
theorem wit_OwnerServices_refused : authCheck (argSt (authLen 1)) 1 (memBytes (argSt (authLen 1)) 0x200000 (authLen 1)) ≠ 0 := by decide +kernel
theorem wit_OwnerServices_slots : up.sec.burned.getLsbD 3 = false ∧ (8#4).getLsbD 3 = true ∧ 3#4 &&& ~~~(0#4 ||| BitVec.ofNat 4 (2 ^ 0)) ≠ 0 ∧ 1#4 &&& ~~~(0#4 ||| BitVec.ofNat 4 (2 ^ 0)) = 0 := by decide
theorem wit_KeysAndFloor : (fun s : State => s.hst.svc.isNone = true ∧ (svcArg s 0).toNat = 3 ∧ (Tbl.get (constD none) s.sec.imgKeys 3).isSome = true)
      (setRw (baseHST + 0x1004) 3 { up with sec := { up.sec with imgKeys := [(3, some { id := 1, iv := [], ct := [], tag := [] })] } }) ∧ (Tbl.get (constD none) up.sec.imgKeys 3).isNone = true := by decide
/-- ACTIVE of security version 5, SVC_ARG 5. -/
def floorSt (v : Option Nat) : State := setRw (baseHST + 0x1004) 5 (sl (fun x => { x with active := some (List.replicate 0x14 0 ++ leBytes 4 5), velvet := v }))
theorem wit_KeysAndFloor_floor : (floorSt none).sec.floor < (svcArg (floorSt none) 0).toNat ∧ (svcArg (floorSt none) 0).toNat ≤ activeSecVersion (floorSt none) ∧ (floorSt none).slots.velvet.isNone = true
    ∧ (floorSt (some 9)).slots.velvet.isSome = true ∧ (svcArg (floorSt (some 9)) 0).toNat ≤ activeSecVersion (floorSt (some 9)) ∧ (svcArg up 0).toNat ≤ up.sec.floor := by decide
theorem wit_KeysAndFloor_load (r : Option (List Byte)) (h : authCheck (argSt (authLen 3)) 3 (memBytes (argSt (authLen 3)) 0x200000 (authLen 3)) = 0) (p : List Byte)
    (hp : p = authPayload (memBytes (argSt (authLen 3)) 0x200000 (authLen 3)) 3)
    (g : gcmDecrypt (hkdf (ecdh identityScalar ((p.drop 0x10).take 96)) uidBytes (ascii "RJA-512 image key")) ((p.drop 0x70).take 12) (p.take 4) ((p.drop 0x7C).take 32) ((p.drop 0x9C).take 16) = r) :
    deviceUp (argSt (authLen 3)) = true ∧ (argSt (authLen 3)).hst.svc = none ∧ scratchArg (argSt (authLen 3)) (authLen 3) = some (memBytes (argSt (authLen 3)) 0x200000 (authLen 3))
      ∧ authCheck (argSt (authLen 3)) 3 (memBytes (argSt (authLen 3)) 0x200000 (authLen 3)) = 0 ∧ leAt p 4 1 ≤ 3
      ∧ gcmDecrypt (hkdf (ecdh identityScalar ((p.drop 0x10).take 96)) uidBytes (ascii "RJA-512 image key")) ((p.drop 0x70).take 12) (p.take 4) ((p.drop 0x7C).take 32) ((p.drop 0x9C).take 16) = r := by
  refine ⟨by decide, rfl, by decide +kernel, h, ?_, g⟩
  subst hp; decide +kernel
theorem wit_KeysAndFloor_bad : authCheck (argSt (authLen 3)) 3 (memBytes (argSt (authLen 3)) 0x200000 (authLen 3)) ≠ 0
    ∧ 3 < (svcArg (setRw (baseHST + 0x1004) 4 up) 0).toNat := by decide +kernel

theorem wit_ServicesAndSessions : ({ up with hst := { up.hst with svc := some 1 } } : State).hst.svc.isSome = true ∧ scratchArg (argSt 0x280) 0x280 = some (memBytes (argSt 0x280) 0x200000 0x280)
    ∧ sessionCheck (argSt 0x280) true (memBytes (argSt 0x280) 0x200000 0x280) ≠ 0 ∧ (svcArg (setRw (baseHST + 0x1004) 9 up) 0).toNat ≤ 9 ∧ sessionCheck up false [] ≠ 0 := by decide +kernel
theorem wit_ServicesAndSessions_done : (fun s : State => deviceUp s = true ∧ s.hst.svc = some 8 ∧ s.hst.svcDone = some (1, [])) { up with hst := { up.hst with svc := some 8, svcDone := some (1, []) } }
    ∧ (7 : Nat) ≠ 8 := by decide
theorem wit_ServicesAndSessions_open (req : List Byte) (h : sessionCheck (argSt 0x280) true req = 0) (hr : req = memBytes (argSt 0x280) 0x200000 0x280) :
    scratchArg (argSt 0x280) 0x280 = some req ∧ sessionCheck (argSt 0x280) true req = 0 := ⟨by rw [hr]; exact wit_ServicesAndSessions.2.1, h⟩
theorem wit_DebugPort_unlock : (slotUsable up 0 && sha384 [] == ownerHash up 0 && ecdsaVerify [] (leBytes 32 up.sec.dbgChal.toNat ++ uidBytes) []) = false := by
  have h : slotUsable up 0 = false := by decide
  rw [h]; rfl
/-- A device with slot 0 burned for `pub`. The signature is over the device's UID, which its secret gives, so that it verifies is assumed. -/
theorem wit_DebugPort_unlocked (pub sig : List Byte) (g : ecdsaVerify pub (leBytes 32 (0 : BitVec 256).toNat ++ uidBytes) sig = true) :
    (fun s : State => (slotUsable s 0 && sha384 pub == ownerHash s 0 && ecdsaVerify pub (leBytes 32 s.sec.dbgChal.toNat ++ uidBytes) sig) = true)
      { up with sec := { up.sec with burned := 1, hashes := [(0, sha384 pub)] } } := by
  have a : slotUsable { up with sec := { up.sec with burned := 1, hashes := [(0, sha384 pub)] } } 0 = true := by
    show (decide (0 < 4) && (1 : BitVec 4).getLsbD 0 && !(0 : BitVec 4).getLsbD 0) = true
    decide
  have b : ownerHash { up with sec := { up.sec with burned := 1, hashes := [(0, sha384 pub)] } } 0 = sha384 pub := rfl
  show (slotUsable { up with sec := { up.sec with burned := 1, hashes := [(0, sha384 pub)] } } 0
    && sha384 pub == ownerHash { up with sec := { up.sec with burned := 1, hashes := [(0, sha384 pub)] } } 0
    && ecdsaVerify pub (leBytes 32 (0 : BitVec 256).toNat ++ uidBytes) sig) = true
  rw [a, b, g, beq_self_eq_true]; rfl
theorem wit_DebugPort : up.sec.burned = 0 ∧ ({ up with sec := { up.sec with burned := 1 } } : State).sec.burned ≠ 0 ∧ up.sec.dbgLocked = false ∧ ({ up with sec := { up.sec with dbgLocked := true } } : State).sec.dbgLocked = true
    ∧ 0x3FFFFFF < 0x4000000 ∧ deviceUp up = true := by decide

/-! ### Boundary, reset, bring-up, host -/

theorem wit_FrameBoundaries : deviceUp up = true ∧ up.slots.pend.isNone = true ∧ up.slots.velvet.isNone = true ∧ 11 = nextFrame up ∧ up.commit.snap.isNone = true
    ∧ (fun s : State => s.commit.snap.isSome = true ∧ s.commit.frame ≤ nextFrame s) { up with commit := { up.commit with snap := some [], frame := 11 } }
    ∧ nextFrame up < 12 := by decide
theorem wit_ResetSources : sourceLevel up 0x14 = 2 ∧ 4 ≤ up.rst.phase ∧ sourceLevel { up with rst := { up.rst with fuseIn := 3 } } 0x10 = 3 ∧ sourceLevel { up with rst := { up.rst with fuseIn := 4 } } 0x10 = 4
    ∧ sourceLevel up 0x13 = 5 ∧ sourceLevel up 6 = 5 ∧ (4 : Fin 5).val ≠ 0 ∧ 1 ≤ up.rst.phase := by decide
theorem wit_ResetRequests : fld 0xA4000000 24 8 ≠ 0xA5 ∧ fld 0xA5000007 24 8 = 0xA5 ∧ fld 0xA5000007 20 2 ≠ 3 ∧ sourceLevel up 0x19 ≠ 5 ∧ targetOk up 0x19 7 = true
    ∧ (fun s : State => s.twn.linkUp = true ∧ (sessionOf s 9).isOpen = true) (modSession 9 (fun x => { x with isOpen := true }) { up with twn := { up.twn with linkUp := true } })
    ∧ up.twn.linkUp = false ∧ up.rst.herdMgr = false ∧ ({ up with rst := { up.rst with herdMgr := true } } : State).rst.herdMgr = true := by decide
theorem wit_ResetRequests_wdt : bitAt (wdtReg (setRw (baseRST + 0x24) 3 up)) 1 = true ∧ bitAt (wdtReg up) 1 = false ∧ fld 0x4B1C 0 16 = 0x4B1C ∧ fld 0x4B1D 0 16 ≠ 0x4B1C
    ∧ bitAt (wdtReg (setRw (baseRST + 0x24) 1 up)) 0 = true ∧ bitAt (wdtReg up) 0 = false ∧ sourceLevel up 0x14 ≠ 5 ∧ sourceLevel { up with rst := { up.rst with fuseIn := 0xF0000 } } 0x14 = 5 := by decide
/-- Bring-up at a phase, not held. -/
def atPhase (p : Nat) (loaded : Bool) : State := { State.reset with rst := { State.reset.rst with phase := p, loaded } }
theorem wit_BringUp : (fun s : State => s.rst.wait = false ∧ s.rst.phaseFail = false ∧ phaseHeld s s.rst.phase = false) (atPhase 0 false)
    ∧ phaseHeld (atPhase 6 false) 6 = false ∧ phaseHeld { atPhase 6 false with rst := { (atPhase 6 false).rst with sources := [{ code := 2, target := 0 }] } } 6 = true
    ∧ (atPhase 6 true).rst.loaded = true ∧ (atPhase 6 false).hrd.waiting = false ∧ (atPhase 6 false).slots.active.isNone = true ∧ (atPhase 6 false).slots.previous.isNone = true ∧ (atPhase 6 false).slots.velvet.isNone = true
    ∧ (atPhase 6 false).rst.herdMgr = false ∧ (atPhase 6 false).hrd.position = none ∧ PhaseOutcome.ok ≠ .firmwareFailed := by decide
theorem wit_BringUp_clock : (atPhase 3 false).rst.phase = 3 ∧ up.rst.phase ≠ 3 ∧ ({ up with rst := { up.rst with pendingClock := 8 } } : State).rst.pendingClock.getLsbD ((4 : Fin 15).val - 1) = true ∧ up.rst.pendingClock.getLsbD 3 = false
    ∧ (fun s : State => hubUp s = true ∧ s.rst.phase = 6 ∧ s.hrd.waiting = true ∧ s.rst.loaded = false) { atPhase 6 false with hrd := { waiting := true } } := by decide

theorem wit_HostWrites : (regAt up 0x8600004).map RegInfo.acc = some .rws ∧ (regAt up (baseCFG + 0x34)).map RegInfo.acc = some .rw ∧ (ringReg (baseCFG + 0x34)).isNone = true
    ∧ (regAt up (baseHST + 0x104)).map RegInfo.acc = some .rw ∧ ringReg (baseHST + 0x104) = some 0 ∧ dmEn (setRw (baseHST + 0x100) 1 up) 0 = true ∧ (regAt up baseCFG).map RegInfo.acc = some .ro
    ∧ (regAt up 0x4000000).isNone = true ∧ (7 : BitVec 4) ≠ 0 ∧ (7 : BitVec 4) ≠ 0xF ∧ deviceUp (atPhase 6 false) = false ∧ hubUp (atPhase 6 false) = true ∧ hubUp (atPhase 3 false) = false := by decide
theorem wit_HostWrites_memory : tileType up (0x3FFFFFC / 0x1000) = 7 ∧ tileType up ((0x3FFFFFC + 3) / 0x1000) = 7 ∧ 0x3FFFFFC + 3 < 0x4000000 ∧ tileType up (0 / 0x1000) ≠ 7 ∧ tileType up (0 / 0x1000) ≠ 0 := by decide
theorem wit_HostWrites_diverge : recordState up 7 10 = none ∧ recordState { up with hist := [(10, [(7, .active)])] } 7 10 = some .active ∧ UState.active.code = fld 0x5007000A 28 4 ∧ UState.active.code ≠ fld 0x1007000A 28 4
    ∧ 4 ≤ up.rst.phase ∧ up.fm.stage.isEmpty = true := by decide
theorem wit_ReadsHaveNoEffect : hubUp up = true ∧ hubUp State.reset = false ∧ deviceUp up = true := by decide
theorem wit_CutoffAndMailboxReads : deviceUp up = true ∧ hubUp up = true ∧ Instr.wf (.mailboxRead ⟨baseCFG + 0x44, 4⟩) = true ∧ Instr.wf (.mailboxRead ⟨baseRIN + 0x8014, 4⟩) = true
    ∧ Instr.wf (.mailboxRead ⟨baseHST + 0x1024, 4⟩) = true ∧ (nxt (.mailboxRead ⟨baseCFG + 0x44, 4⟩) (sl (fun x => { x with fresh := true }))).slots.fresh = false := by decide +kernel
theorem wit_I3cTarget : 8 ≤ up.hst.i3c.mrl ∧ up.hst.i3c.dyn.isNone = true ∧ (1 : Byte).getLsbD 0 = true ∧ ({ up with hst := { up.hst with i3c := { up.hst.i3c with dyn := some 8 } } } : State).hst.i3c.dyn.isSome = true
    ∧ up.hst.i3c.armed.isNone = true ∧ i3cCheck { up with rst := { up.rst with fuseIn := 0x200000000 } } 7 0 5 20000005 = 0 ∧ i3cCheck up 7 0 5 6 = 1 ∧ i3cCheck { up with rst := { up.rst with fuseIn := 0x200000000 } } 7 0 5 20000006 = 3
    ∧ (fun s : State => s.hst.i3c.armed = some (7, 0, 5)) { up with hst := { up.hst with i3c := { up.hst.i3c with armed := some (7, 0, 5) } } } := by decide

/-! ### Twin and herd -/

/-- A twin link with session 9 open, in mode `m`, with an image for twins. -/
def twinSt (m : Nat) : State := modSession 9 (fun x => { x with isOpen := true }) { loaded { twin := true, units := [{ id := 5, parent := 0xFFF, kind := 1 }] } with twn := { up.twn with linkUp := true, mode := m, peerTwinFlag := true, peerHash := some 0 } }
theorem wit_TwinServices : true ≠ up.rst.twinRole ∧ false = up.rst.twinRole ∧ (twinSt 0).twn.linkUp = true ∧ attachCheck (twinSt 0) = 0 ∧ attachCheck up ≠ 0 ∧ (twinSt 0).hst.svc.isNone = true
    ∧ svcWant (twinSt 3) ≤ farLimit (twinSt 3) ∧ twinTalks (twinSt 3) = true ∧ ownMapReg (twinSt 3) = (twinSt 3).twn.peerMap ∧ (twinSt 2).twn.mode ≠ 3 := by decide
/-- A peer's interval `pos`, and this device's record at 0 with bound 1. -/
def peer (pos : Int) : PeerUnit := { unit := 5, state := 0, fineValid := true, boundSat := false, pos, bound := 1 }
def ownRec : State := modTk 5 (fun x => { x with record := { x.record with fine := true, boundSat := false, posBound := 1 } }) (twinSt 3)
theorem wit_TwinChecks : twinTalks ownRec = true ∧ ownRec.time.frame = some 10 ∧ kindOf 5 = 1 ∧ unitExists ownRec 5 = true ∧ margin (recOf ownRec 5) (peer 512) = some 0 ∧ margin (recOf ownRec 5) (peer 513) = some (-1)
    ∧ (unitOf ownRec 5).recSt.code = (peer 512).state ∧ (twinResOf ownRec 5).neg = false := by decide
theorem wit_TwinChecks_rest : ({ twinSt 3 with twn := { (twinSt 3).twn with peerBlock := 11 } } : State).twn.peerBlock = 10 + 1 ∧ (twinSt 3).twn.peerBlock ≠ 10 + 1 ∧ (twinSt 3).twn.setCrc ≠ 1 ∧ (twinSt 3).twn.setDiff = false
    ∧ (fun s : State => s.twn.mode = 3 ∧ s.twn.lost = true ∧ (1 : Fin 64).val ∈ peerGroups s)
        (modUnit 0x4C1 (fun x => { x with st := .ready }) { twinSt 3 with twn := { (twinSt 3).twn with lost := true }, conf := some { twin := true, units := [{ id := 0x4C1, parent := 0xFFF, kind := 7 }] } })
    ∧ sourceLevel { up with rst := { up.rst with fuseIn := 0x1000000 } } 0x16 ≠ 5 ∧ hubUp (twinSt 3) = true := by decide

/-- A herd manager with its down port trained, and a worker. -/
def herdSt (mgr : Bool) : State := { loaded { herd := true, units := [{ id := 5, parent := 0xFFF, kind := 1 }] } with rst := { up.rst with herdMgr := mgr }, hrd := { downOk := true, position := some 0, devices := 2 } }
theorem wit_HerdEnumeration : (herdSt true).rst.herdMgr = true ∧ spanBusy (herdSt true) = false ∧ (herdSt true).hrd.downOk = true ∧ (herdSt true).hst.svc.isNone = true ∧ (herdSt false).rst.herdMgr = false
    ∧ spanBusy (modUnit 5 (fun x => { x with st := .active }) (herdSt true)) = true ∧ up.hrd.position = none ∧ 14 + 1 ≤ 15 ∧ 15 < 15 + 1 ∧ (herdSt false).hrd.position = some 0 := by decide
theorem wit_HerdToken : deviceUp (herdSt false) = true ∧ herdSpan (herdSt false) 0xFFF = true ∧ herdRuns (herdSt true) = true ∧ (herdSt true).time.frame = some 10 ∧ (herdSt true).hrd.token.isNone = true
    ∧ ({ herdSt true with hrd := { (herdSt true).hrd with token := some 9 } } : State).hrd.token = some 9 ∧ (∀ b ∈ [true, true], b = true) ∧ (herdSt false).hrd.since < 2
    ∧ 2 ≤ ({ herdSt false with hrd := { (herdSt false).hrd with since := 2 } } : State).hrd.since := by decide

/-! ### Invariants -/

theorem wit_OwnedStaysOwned : OwnInv State.reset ∧ OwnInv { up with sec := { up.sec with burned := 3, revoked := 1 } } := by unfold OwnInv; decide
theorem wit_MemoryStaysCanonical : MemInv State.reset ∧ MemInv { up with fm := { up.fm with mem := [(0, 1), (0x3FFFFFF, 0xFF)] } } := by unfold MemInv; decide
theorem wit_steps : step State.reset = .next State.reset ∧ (State.reset.pending = []) := ⟨rfl, rfl⟩


/-! ### Further clauses of the statements -/

/-- Rail 0 above its window twice, then at 5 V. -/
theorem wit_HealthMonitors_window : (fun s : State => railMasked s 0 = false ∧ railNom 0 * fld (inF s (baseMON + 0x180)) 8 8 < (5000 - railNom 0) * 1000 ∧ 2 ≤ (railOf s 0).ovRun
      ∧ condOf s (railUnit 0) 0xB5 0 = false) (modRail 0 (fun x => { x with ovRun := 2 }) up)
    ∧ railNom 0 * fld (inF up (baseMON + 0x180)) 0 8 < (railNom 0 - 0) * 1000 ∧ condOf up (railUnit 0) 0xB4 0 = false ∧ condOf up (tempUnit 3) 0xBB 3 = false := by decide
/-- LIFE_EQ a second short of 80 % and of 100 %, at 110 degC. -/
def aged (sec : Nat) : State := modTemp 3 (fun x => { x with seen := true, reading := 1760 }) { up with mon := { up.mon with lifeEq := sec } }
theorem wit_HealthMonitors_life : tempMax (aged 630719999) = some (3, 1760) ∧ lifeUsed (aged 630719999).mon < 800
    ∧ lifeUsed (nxt .odometerTick (aged 630719999)).mon = 800 ∧ lifeUsed (aged 788399999).mon < 1000 ∧ 800 ≤ lifeUsed (aged 788399999).mon
    ∧ lifeUsed (nxt .odometerTick (aged 788399999)).mon = 1000 ∧ lifeUsed (nxt .odometerTick (aged 0)).mon < 800 := by decide +kernel
theorem wit_ActivityLevels_far : (fun s : State => s.clk.pend = none ∧ farLimit s < rw64 s (baseCLK + 8)) (setRw (baseCLK + 0xC) 1 up) ∧ up.clk.level ≠ 1
    ∧ wakeEnabled .wakeN (setRw (baseCLK + 0x40) 0 up) = false ∧ up.clk.waking = false ∧ up.clk.toSleep = false := by decide
theorem wit_DriveCycles_kinds : (fun s : State => (xgOf s 1).cyc = .gap ∧ waitsCont (xgOf s 1) 1 = true ∧ waitsCont (xgOf s 1) 2 = false ∧ burstMode s 1 = false ∧ stOf s (0x4C0 + 1) ≠ .preparing)
      (grp .active (fun x => { x with cyc := .gap, contAfter := some 3125 }))
    ∧ (xgOf (grp .preparing (fun x => { x with rampCycle := 16 })) 1).rampCycle = 16 ∧ stOf (grp .preparing (fun x => { x with rampCycle := 16 })) (0x4C0 + 1) = .preparing
    ∧ (xgOf (bursting (fun x => { x with preBurst := true })) 1).preBurst = true ∧ (fun s : State => (xgOf s 1).preBurst = false ∧ (xgOf s 1).burstLeft = 8 ∧ (xgOf s 1).burstLen = 8
      ∧ burstMode s 1 = true ∧ stOf s (0x4C0 + 1) ≠ .preparing) (bursting (fun x => { x with burstLeft := 8, burstLen := 8 }))
    ∧ (1 + groupM up 1 - groupPhase up 1) % groupM up 1 ≠ 0 ∧ sliceRuns { up with rst := { up.rst with calib := 1 } } 0 = false
    ∧ (xgOf (grp .active (fun x => { x with handover := some false })) 1).handover = some false := by decide
theorem wit_DriveCycles_loop : (fun s : State => burstDue s 1 10 = true ∧ bitAt (xgReg s 1 0) 4 = true ∧ 0 < (xgOf s 1).burstCount ∧ (xgOf s 1).burstLeft = 0)
      (setInF (baseXCG + 0x100) 0x11 (bursting (fun x => { x with burstCount := 7 })))
    ∧ burstDue (bursting (fun x => { x with burstFrom := some 11 })) 1 10 = false ∧ burstMode (grp .active id) 1 = false := by decide
theorem wit_SenseRules_kinds : (xgOf (grp .active (fun x => { x with cyc := .gap })) 1).cyc = .gap ∧ (xgOf (grp .active (fun x => { x with cyc := .settle })) 1).cyc = .settle
    ∧ (xgOf (grp .active id) 1).cyc = .off ∧ (xgOf (grp .active (fun x => { x with cyc := .invalid })) 1).cyc = .invalid ∧ (xgOf (grp .active (fun x => { x with cyc := .gapFirst })) 1).cyc = .gapFirst
    ∧ (fun s : State => (xgOf s 1).cyc = .valid ∧ bitAt (xgReg s 1 0) 4 = true ∧ (xgOf s 1).tripped = false ∧ burstMode s 1 = false ∧ (xgOf s 1).owner = false)
      (setInF (baseXCG + 0x100) 0x10 (grp .active (fun x => { x with cyc := .valid }))) := by decide
theorem wit_ToneChecks_other : bitAt 8 24 = false ∧ (toneOf up 1).run = none ∧ deviceUp State.reset = false
    ∧ (fun s : State => (xgOf s 1).owner = true ∧ ((toneOf s 1).run.map ToneRun.periods = some 63) ∧ 63 < 64 * toneLen s)
      (modXg 1 (fun x => { x with owner := true }) (toneRunSt 1 63 false))
    ∧ ((toneOf (modTone 1 (fun x => { x with run := some { chan := 8, requested := false, mine := false, cosPhase := false, start := 1, began := false, periods := 0 } }) up) 1).run.map ToneRun.began = some false) := by decide
/-- Channel 0's supply and lead conversions at the front. -/
theorem wit_CaptureAndAux_jobs : (axsOf (modAxs 0 (fun x => { x with slot := [(0, .cal, 3, 5)] }) (auxSt 1)) 0).slot = [(0, .cal, 3, 5)]
    ∧ (axsOf (modAxs 0 (fun x => { x with slot := [(0, .lead, 3, 5)] }) (auxSt 1)) 0).slot = [(0, .lead, 3, 5)] ∧ (seOf (auxSt 1) 0).past = none
    ∧ sliceRuns { up with rst := { up.rst with calib := 1 } } 0 = false := by decide

/-- An entry of the auxiliary FIFO. -/
def fe : FifoEnt := { code := 0, held := false, sfault := false, step := none, resync := false, swap := false, xf := none, range := 0, pos := 0, cycle := 0, at_ := 0 }
theorem wit_VectorArithmetic_open : (23 : Int) < (24 : Word).toInt ∧ (0xFFFFFFE8 : Word).toInt < -23 ∧ (fields 3 1 2 2 0).x ≠ 0 ∧ (fields 3 1 2 2 0).x ≠ 1 := by decide
/-- Slot 16, the auxiliary slot, with or without an entry. -/
def auxSlotSt (q : List FifoEnt) : State := eng (fun x => { x with fifo := q, ctx := { x.ctx with slot := 16 } })
theorem wit_VectorSources_cap : (seOf (auxSlotSt []) 0).fifo = [] ∧ (seOf (auxSlotSt [fe]) 0).fifo = fe :: [] ∧ 16 ≤ (seOf (auxSlotSt []) 0).ctx.slot ∧ SeReady 0 [kP 0] 1 (auxSlotSt [])
    ∧ SeReady 0 [kP 0] 1 (auxSlotSt [fe]) ∧ (seOf (eng (fun x => { x with captureAt := 1 })) 0).captureAt ≠ (seOf (eng (fun x => { x with captureAt := 1 })) 0).ctx.index
    ∧ SeReady 0 [kP 0] 1 (eng (fun x => { x with captureAt := 1 })) ∧ sIdx 5 = sIdx 5 ∧ sIdx 5 ≠ 0 := by unfold SeReady; decide
/-- The slot ends with one output staged on port `p` by an entry. -/
def stagedSt (p : Nat) : State := eng (fun x => { x with ctx := { x.ctx with slot := 0, staged := [{ port := p, lanes := [], mask := 0xFF, cap := some fe }] } })
theorem wit_EngineControl_ports : SeReady 0 [] 1 (stagedSt 0) ∧ SeReady 0 [] 1 (stagedSt 2) ∧ SeReady 0 [] 1 (stagedSt 3)
    ∧ (seOf (stagedSt 2) 0).ctx.staged = [{ port := 2, lanes := [], mask := 0xFF, cap := some fe }] ∧ (seOf (stagedSt 0) 0).ctx.slot = 0
    ∧ (fun s : State => unitExists s (64 * 0 + 4 * 0 + 1) = true ∧ stOf s (64 * 0 + 4 * 0 + 1) ≠ .dormant)
      (modUnit 1 (fun x => { x with st := .ready }) { stagedSt 0 with conf := some { units := [{ id := 1, parent := 0xFFF, kind := 1 }] } }) := by unfold SeReady; decide
/-- Two loops open, the inner one to word 5. -/
def loopSt : State := eng (fun x => { x with ctx := { x.ctx with loops := [{ first := 1, last := 5, left := 2 }, { first := 0, last := 9, left := 2 }] } })
theorem wit_EngineControl_loop : (seOf loopSt 0).ctx.loops.head? = some { first := 1, last := 5, left := 2 } ∧ (seOf loopSt 0).pc + (5 : Word).toNat ≤ 5 ∧ 5 < (seOf loopSt 0).pc + (6 : Word).toNat
    ∧ SeReady 0 [kS 1] 2 loopSt ∧ SeReady 0 [] 1 loopSt ∧ 2 ≤ (seOf loopSt 0).ctx.loops.length ∧ 8192 ≤ (seOf (eng id) 0).pc + (8192 : Word).toNat := by unfold SeReady; decide
/-- No cycle left. -/
def lateSt : State := eng (fun x => { x with ctx := { x.ctx with cycle := 768 } })
theorem wit_SlotEnds_late : engineRuns lateSt 0 = true ∧ (seOf lateSt 0).ctx.ended = false ∧ (seOf lateSt 0).ctx.limit < issueAt (seOf lateSt 0) [] + 1
    ∧ (seOf lateSt 0).ctx.limit < issueAt (seOf lateSt 0) [kS 1] + 1 ∧ (seOf lateSt 0).ctx.limit < issueAt (seOf lateSt 0) [kS 1, kS 2] + 1
    ∧ (seOf lateSt 0).ctx.limit < issueAt (seOf lateSt 0) [kS 1, kP 0] + 1 ∧ (seOf lateSt 0).ctx.limit < issueAt (seOf lateSt 0) [kS 1, kV 1, kP 0] + 1
    ∧ (seOf lateSt 0).ctx.limit < issueAt (seOf lateSt 0) [kP 0] + 1 ∧ (seOf lateSt 0).ctx.limit < issueAt (seOf lateSt 0) [kS 12, kP 0] + 1
    ∧ (seOf lateSt 0).ctx.limit < issueAt (seOf lateSt 0) ([kV 1, kV 2, kP 0] ++ [kA 0]) + 1 ∧ (seOf lateSt 0).ctx.limit < issueAt (seOf lateSt 0) [kS 1, kS 2, kS 9, kA 0, kP 0] + 1
    ∧ (seOf lateSt 0).ctx.limit < issueAt (seOf lateSt 0) [kA 1, kP 0] + 1 ∧ (seOf lateSt 0).ctx.limit < issueAt (seOf lateSt 0) [kV 1, kV 2, kP 0] + 1
    ∧ (seOf lateSt 0).ctx.limit < issueAt (seOf lateSt 0) [kV 1, kP 0] + 1 ∧ (seOf lateSt 0).ctx.limit < issueAt (seOf lateSt 0) [kV 1, kS 1, kS 2, kP 0] + 5 := by decide
theorem wit_SlotEnds_exceptions : dataOk (memAddr (fields 1 0 0 0 2) (seOf (eng id) 0)) 4 4 = false ∧ dataOk (memAddr (fields 1 0 0 0 4) (seOf (eng id) 0)) 32 32 = false
    ∧ SeReady 0 [kS 0, kV 0, kP 0] 1 (eng id) ∧ 16384 < memAddr (fields 1 0 0 1 16384) (seOf (eng id) 0) + (if (1 : BitVec 8).getLsbD 0 = true then 4 else 32)
    ∧ dataOk (sOf (seOf (eng (fun x => { x with s := [(1, 4)] })) 0) 1).toNat 32 32 = false ∧ 16384 < (sOf (seOf (eng (fun x => { x with s := [(2, 16384)] })) 0) 2).toNat + 4
    ∧ dataOk (memAddr (fields 1 0 0 1 32) (seOf (eng id) 0)) 32 128 = true ∧ dataOk (memAddr (fields 1 0 0 1 4) (seOf (eng id) 0)) 32 128 = false ∧ 3 < (4 : BitVec 8).toNat
    ∧ 4096 < (4097 : Word).toNat ∧ fld 0xBF 0 8 < 0xC0 ∧ 9 < (10 : BitVec 8).toNat ∧ portOk (eng id) 0 4 = false := by unfold SeReady; decide
/-- Port 2 counting, with its index registers and state. -/
def idxPort (nom tol : Word) (f : IpSt → IpSt) : State :=
  setInF (baseINC + 0x40 * 2 + 0xC) tol (setInF (baseINC + 0x40 * 2 + 8) nom (modIp 2 f (port 3)))
theorem wit_PortsAndSwitches_modes : ipMode (port 0) 2 = 0 ∧ 3 < ipMode (port 4) 2 ∧ portCounts (port 0) 2 = true ∧ portCounts (port 4) 2 = true
    ∧ (ipOf (port 3) 2).z = false ∧ (ipOf (port 3) 2).cap = none ∧ idxGate (port 3) 2 false false = true ∧ idxGate (port 0x13) 2 true false = false ∧ (ipOf (port 0x13) 2).b = false := by decide
theorem wit_PortsAndSwitches_index : (fun s : State => portCounts s 2 = true ∧ (ipOf s 2).cap = some (0, true) ∧ idxNom s 2 = 100 ∧ (ipOf s 2).capSkip = false ∧ (ipOf s 2).dir = true
      ∧ (idxDelta s 2 (ipOf s 2).u 0 - 100).natAbs = (idxTol s 2)) (idxPort 100 3 (fun x => { x with cap := some (0, true), u := 103, dir := true }))
    ∧ (fun s : State => idxTol s 2 < (idxDelta s 2 (ipOf s 2).u 0 - 100).natAbs) (idxPort 100 3 (fun x => { x with cap := some (0, true), u := 104, dir := true }))
    ∧ (ipOf (idxPort 0 0 (fun x => { x with z := true, capSkip := true })) 2).z = true := by decide
theorem wit_PortsAndSwitches_other : (swOf up 63).seen = false ∧ (fun s : State => (swOf s 63).raw ≠ swSample s 63 true) (modSw 63 (fun x => { x with seen := true, raw := false }) up) := by decide
theorem wit_EmulatorsAndTriggers_idle : operates up (0x4A0 + 1) = false ∧ (tgOf up 15).starts = [] ∧ (tgOf up 15).asserted = false ∧ deviceUp State.reset = false := by decide
theorem wit_CompareRules_none : (cmpOf up 1087).firing = none := by decide
/-- The region sealed but for its bytes' check value; the tile found BAD in the same cycle by a consumer. -/
def scrubBad : State := { modTile 512 (fun x => { x with st := 3 }) scrubSt with fm := { (modTile 512 (fun x => { x with st := 3 }) scrubSt).fm with failAt := some (512, up.time.now, false) } }
theorem wit_FrameMemory_next : scrubNext scrubSt = some 512 ∧ scrubNext scrubBad = some 512 ∧ sameCycle true 512 scrubBad = true ∧ (tileOf scrubBad 512).st = 3 ∧ sameCycle true 512 scrubSt = false
    ∧ scrubNext (setInF baseFMEM 0x00010000 up) = none ∧ (tileOf scrubSt 512).st = 2 := by decide
/-- A check value that the tile's bytes do not have. -/
theorem wit_FrameMemory_crc : ∃ k : Word, k ≠ crc32c (tileBytes scrubSt 512) := ⟨~~~(crc32c (tileBytes scrubSt 512)), by
    intro h; have := congrArg (fun x : Word => x.getLsbD 0) h; simp at this⟩
theorem wit_BlocksAndEgress_part : ceilDiv 4096 (fragData (egress true)) = 3 ∧ (fun s : State => hubUp s = true ∧ s.fm.stage = []) up ∧ (egress true).fm.stage.all (fun e => e.copies.contains 0) = true := by decide
theorem wit_DmaAndVectors_halt : (fun s : State => s.hst.bme = true ∧ dmEn s 7 = true ∧ (dmaOf s 7).halted = false) { dmaSt false with hst := { (dmaSt false).hst with bme := true } }
    ∧ (dmaSt false).hst.bme = false ∧ up.fm.stage.find? (fun y => y.copies.contains (7 + 1)) = none := by decide
theorem wit_BackboneTime_held : clockHeld { up with rst := { up.rst with pendingClock := 0x800 } } 12 = true ∧ clockHeld up 12 = false
    ∧ (bbPortOf (modBbPort 3 (fun x => { x with up := true }) up) 3).up = true ∧ up.net.gmId = up.net.gmId := by decide
/-- A herd of two devices: tine 5 here, tine 6 on position 1. -/
def spanSt (mgr : Bool) : State :=
  { loaded { herd := true, units := [{ id := 5, parent := 0xFFF, kind := 1 }, { id := 6, parent := 0xFFF, kind := 1, device := 1 }] } with rst := { up.rst with herdMgr := mgr } }
theorem wit_UnitCommands_span : isInfra 0x600 = false ∧ isInfra 0x610 = true ∧ unitExists up 0x700 = false ∧ herdSpan (spanSt true) 0xFFF = true ∧ unitExists (spanSt true) 0xFFF = true
    ∧ (spanSt true).rst.herdMgr = true ∧ (spanSt false).rst.herdMgr = false ∧ (unitOf (spanSt false) 0xFFF).page = none ∧ isInfra 0xFFF = false := by decide
theorem wit_SlotRequests_far : (fun s : State => farLimit s < rw64 s (baseCFG + 0x3C)) (setRw (baseCFG + 0x40) 1 up) ∧ up.slots.stageRun = none ∧ (sl (fun x => { x with velvet := some 3 })).slots.velvet.isSome = true
    ∧ slotBusy (sl (fun x => { x with velvet := some 3 })) = false ∧ 0x200001 % 4096 ≠ 0 ∧ up.slots.previous = none ∧ up.slots.staged = none := by decide
/-- No argument in SCRATCH; slot 1 of a device that keeps slot 0. When a burn fails is free. -/
theorem wit_OwnerServices_rest (b : Bool) (h : Config.fuseFails 1 (Config.freeWord up.freeCtr) = b) : scratchArg up (authLen 1) = none ∧ scratchArg up (authLen 2) = none
    ∧ up.sec.burned.getLsbD 1 = false ∧ Config.fuseFails 1 (Config.freeWord up.freeCtr) = b ∧ 3 < 4 := ⟨by decide, by decide, by decide, h, by decide⟩
theorem wit_ServicesAndSessions_codes : (fun s : State => s.hst.svc = some 9 ∧ s.hst.svcDone = some (1, leBytes 4 9)) { up with hst := { up.hst with svc := some 9, svcDone := some (1, leBytes 4 9) } }
    ∧ 9 < (svcArg (setRw (baseHST + 0x1004) 10 up) 0).toNat ∧ up.hst.svc = none := by decide
theorem wit_DebugPort_words : seWords .program = 8192 ∧ 4095 < seWords .bankB ∧ seWords .data = 16384 ∧ (leBytes 8 5).length = 8 ∧ (leBytes 40 5).length = 40
    ∧ slotUsable { up with sec := { up.sec with burned := 1, revoked := 1 } } 0 = false := by decide
theorem wit_FrameBoundaries_detach : (fun s : State => s.twn.mode = 3 ∧ (rollbackActs s || switchActs (nextFrame s) s) = true)
      { sl (fun x => { x with velvet := some 9, velvetFault := true }) with twn := { up.twn with mode := 3 } } ∧ deviceUp State.reset = false := by decide
theorem wit_ResetSources_levels : sourceLevel up 0 = 0 ∧ sourceLevel up 2 = 1 ∧ sourceLevel up 0 < sourceLevel up 2 ∧ sourceLevel up 2 < 5 ∧ sourceLevel up 0x14 = 2 ∧ sourceLevel up 5 = 1
    ∧ sourceLevel up 0x12 = 5 := by decide
theorem wit_ResetRequests_refused : fld 0xA5300000 20 2 = 3 ∧ sourceLevel { up with rst := { up.rst with fuseIn := 0xF000000000 } } 0x19 = 5
    ∧ (fun s : State => sourceLevel s 0x19 = 3 ∧ targetOk s 0x19 8 = false ∧ targetOk s 0x19 7 = true) { up with rst := { up.rst with fuseIn := 0x3000000000 } } := by decide
theorem wit_BringUp_rest : (fun s : State => s.rst.phase = 7 ∧ s.rst.calib.getLsbD 3 = true ∧ ∀ j, j < 3 → s.rst.calib.getLsbD j = false) { up with rst := { up.rst with calib := 0x18 } } ∧ up.rst.calib = 0
    ∧ (atPhase 2 false).rst.fails = 0 ∧ 2 ≤ ({ atPhase 2 false with rst := { (atPhase 2 false).rst with fails := 2 } } : State).rst.fails
    ∧ ({ atPhase 6 false with hrd := { position := some 3 } } : State).hrd.position.isSome = true ∧ (atPhase 6 false).rst.wait = false ∧ PhaseOutcome.firmwareFailed ≠ .ok ∧ (0 : Fin 15).val = 0 := by decide
theorem wit_HostWrites_rest : copiesSettings up = false ∧ (∀ e : Fin 8, e = 0 → dmEn (setRw (baseHST + 0x100) 1 up) e.val = true) ∧ clockHeld { up with rst := { up.rst with pendingClock := 0x2000 } } 14 = true
    ∧ clockHeld up 14 = false ∧ (0x4000 : Word) &&& ~~~up.hst.aer ≠ 0 ∧ (0 : Word) &&& ~~~up.hst.aer = 0 := by decide
theorem wit_I3cTarget_forms : [0xA5, 0, 0, 0].length = 4 ∧ [0xA5].length ≠ 4 ∧ (7 : BitVec 16) ≠ 8 ∧ 8 ≤ 264 ∧ (1 : Byte) ≠ 0 := by decide
theorem wit_TwinServices_rest : clockHeld { up with rst := { up.rst with pendingClock := 0x1000 } } 13 = true ∧ clockHeld up 13 = false ∧ twinImage (twinSt 0) = true ∧ twinImage up = false
    ∧ (fun s : State => farLimit s < svcWant s) (setRw (baseHST + 0x1008) 1 (twinSt 3)) ∧ twinTalks up = false
    ∧ ownMapReg (twinSt 3) ≠ ({ twinSt 3 with twn := { (twinSt 3).twn with peerMap := 1 } } : State).twn.peerMap := by decide
/-- Whether a peer's certificate binds its key is free, and the judgement of what it presents rests on it. -/
theorem wit_TwinServices_hello (h : TwinHello) (b : Bool) (g : helloOk h (twinSt 0) = b) : (twinSt 0).twn.linkUp = true ∧ twinImage (twinSt 0) = true ∧ helloOk h (twinSt 0) = b := ⟨by decide, by decide, g⟩
/-- A peer's block of one tracker's record: unit 5, position 512, bound 1. -/
def peerBytes : List Byte := List.replicate 40 0 ++ leBytes 2 1 ++ List.replicate 22 0 ++ (leBytes 6 512 ++ List.replicate 14 0 ++ leBytes 2 1 ++ List.replicate 14 0 ++ leBytes 4 (5 * 2 ^ 20 + 0x20) ++ List.replicate 24 0)
theorem wit_TwinChecks_block : peerUnitsOf peerBytes = [peer 512] ∧ (twinSt 1).twn.mode = 1 ∧ (twinSt 2).twn.mode = 2 ∧ (twinSt 2).twn.peerBlock ≠ 10 + 1 ∧ kindOf 0x483 = 4 ∧ kindOf 0x201 = 2
    ∧ (twinResOf ownRec 5).mismatch = false ∧ 0x8600004 % 4 = 0 ∧ isRws 0x8600004 = true := by decide +kernel
theorem wit_TwinChecks_tags (b : List Byte) : ∃ tag, twinTag (twinSt 3) (!(twinSt 3).rst.twinRole) (twinSt 3).twn.rxCount b = tag := ⟨_, rfl⟩
theorem wit_TwinChecks_untagged (b : List Byte) : ∃ tag, twinTag (twinSt 3) (!(twinSt 3).rst.twinRole) (twinSt 3).twn.rxCount b ≠ tag :=
  ⟨~~~(twinTag (twinSt 3) (!(twinSt 3).rst.twinRole) (twinSt 3).twn.rxCount b), by
    intro h; have := congrArg (fun x : BitVec 128 => x.getLsbD 0) h; simp at this⟩
theorem wit_TwinChecks_joiner : (fun s : State => s.twn.mode = 1 ∧ s.twn.joiner = true ∧ twinTalks s = true) { twinSt 1 with twn := { (twinSt 1).twn with joiner := true } } := by decide
theorem wit_HerdEnumeration_rest (uid : BitVec 64) (h : uid ≠ ownUid) : uid ≠ ownUid ∧ (herdSt false).rst.herdMgr = false
    ∧ ({ herdSt false with twn := { up.twn with linkUp := true, peerUid := 9 } } : State).twn.peerUid = 9 := ⟨h, by decide, by decide⟩
theorem wit_HerdToken_rest : (fun s : State => s.hrd.token = some 9 ∧ s.hrd.line = true ∧ s.hrd.upOk = true) { herdSt true with hrd := { (herdSt true).hrd with token := some 9, line := true, upOk := true } }
    ∧ (herdSt true).hrd.line = false ∧ ({ herdSt true with hrd := { (herdSt true).hrd with token := some 9 } } : State).hrd.token ≠ some 8 ∧ herdRuns up = false
    ∧ ({ fromUp := true, canPass := true } : TokenHop).canPass = true ∧ ({ fromUp := true, canPass := false } : TokenHop).canPass = false
    ∧ (herdSt false).hrd.firstTour = true ∧ ({ herdSt false with hrd := { (herdSt false).hrd with firstTour := false } } : State).hrd.firstTour = false ∧ (9 : Nat) ≠ 10 := by decide
theorem wit_HerdToken_hash : ∃ h, h ≠ beamHashOf (herdSt false) := ⟨~~~(beamHashOf (herdSt false)), by
    intro h; have := congrArg (fun x : BitVec 384 => x.getLsbD 0) h; simp at this⟩
theorem wit_FloorNeverFalls : FloorStored State.reset ∧ FloorStored up := by unfold FloorStored; decide +kernel


/-! ### Single steps -/

theorem test_step_idle : step State.reset = .next State.reset := rfl
theorem test_fetch_word : (State.reset.withFetchWord 32 0).pending = [] := rfl
/-- spec/12 R385: the check value of CRC-32C, of the nine digits, is 0xE3069283. -/
theorem test_crc32c : crc32c [0x31, 0x32, 0x33, 0x34, 0x35, 0x36, 0x37, 0x38, 0x39] = 0xE3069283 := by decide +kernel
/-- spec/16 Table 16-1: SOURCE 63:52, KIND 51:44, CLASS 43:42, FRAME 41:32, DETAIL 31:0. -/
theorem test_message : mkMsg 0x123 0x45 2 0x155 0x89ABCDEF = 0x1234595589ABCDEF := by decide
theorem test_message_fields : msgSource 0x1234595589ABCDEF = 0x123 ∧ msgKind 0x1234595589ABCDEF = 0x45 ∧ msgClass 0x1234595589ABCDEF = 2 ∧ msgDetail 0x1234595589ABCDEF = 0x89ABCDEF := by decide
/-- spec/06 Table 6-6: ADD saturates to 24 bits. -/
theorem test_add_saturates :
    vOf (seOf (nxt (.add 0 (fields 1 2 3 0 0)) (eng (fun x => { x with v := [(2, List.replicate 8 8388607), (3, List.replicate 8 1)] }))) 0) 1 7 = 8388607 := by decide
/-- SUB where the destination is a source. -/
theorem test_sub_self : vOf (seOf (nxt (.sub 0 (fields 2 2 3 0 0)) (eng (fun x => { x with v := [(2, List.replicate 8 5), (3, List.replicate 8 7)] }))) 0) 2 0 = -2 := by decide
/-- ABS of the most negative value saturates. -/
theorem test_abs_lowest : vOf (seOf (nxt (.abs 0 (fields 1 2 0 0 0)) (eng (fun x => { x with v := [(2, List.replicate 8 (-8388608))] }))) 0) 1 0 = 8388607 := by decide
/-- S0 ignores a write. -/
theorem test_movi_s0 : sOf (seOf (nxt (.movi 0 (fields 0 0 0 0 9)) (eng id)) 0) 0 = 0 := by decide
theorem test_movi_s5 : sOf (seOf (nxt (.movi 0 (fields 5 0 0 0 0xFFFFFFF7)) (eng id)) 0) 5 = 0xFFFFFFF7 := by decide
/-- SADD wraps modulo 2^32. -/
theorem test_sadd_wraps : sOf (seOf (nxt (.sadd 0 (fields 5 5 0 0 2)) (eng (fun x => { x with s := [(5, 0xFFFFFFFF)] }))) 0) 5 = 1 := by decide
/-- STS at a misaligned address ends the slot with cause 4, kind 0x3B (Table 6-8). -/
theorem test_sts_misaligned : (seOf (nxt (.sts 0 (fields 5 0 0 0 2)) (eng id)) 0).ctx.ended = true ∧ ((queueOf (nxt (.sts 0 (fields 5 0 0 0 2)) (eng id)) 9).map msgKind) = [0x3B] := by decide
/-- SQRT of 10 is 3, of 16 is 4. -/
theorem test_sqrt : sqrt23 10 = 3 ∧ sqrt23 16 = 4 := by decide
/-- An engine that does not run: no effect (spec/06 R161). -/
theorem test_nop_stopped : nxt (.movi 0 (fields 5 0 0 0 1)) up = up := by decide
/-- spec/02 Table 2-4, R50: PREPARE of a tine is accepted for the first open frame. -/
theorem test_prepare : (unitOf (nxt (.prepare 7 false) up) 7).page = some { code := 1, target := 12, late := false } ∧ (unitOf (nxt (.prepare 7 false) up) 7).result = 1 := by decide
/-- A tree of one tine. -/
def oneTine : State := loaded { units := [{ id := 0x641, parent := 0xFFF, kind := 0xA }] }
/-- The boundary of frame 11 does not apply it; that of frame 12 leads to PREPARING. -/
theorem test_prepare_applies : stOf (nxt .frameBoundary (nxt .frameBoundary (nxt (.prepare 0x641 false) oneTine))) 0x641 = .preparing
    ∧ stOf (nxt .frameBoundary (nxt (.prepare 0x641 false) oneTine)) 0x641 = .dormant := by decide +kernel
/-- spec/18 Table 18-2: the watchdog, source 0x14, resets at L2 and bring-up returns to P4. -/
theorem test_watchdog : (nxt .watchdogExpiry (setRw (baseRST + 0x24) 1 up)).rst.phase = 4 ∧ (nxt .watchdogExpiry (setRw (baseRST + 0x24) 1 up)).rst.causeSrc = 0x14 := by decide +kernel
/-- spec/18 R608: from reset, P0 leads to P1. -/
theorem test_bringup : (nxt (.bringupPhaseDone .ok 5) State.reset).rst.phase = 1 := by decide +kernel
/-- spec/01 R22: a shadow write leaves the value in force. -/
theorem test_shadow : shadowOf (nxt (.registerWrite 0x8600004 0x1234 0xF) up) 0x8600004 = 0x1234 ∧ inF (nxt (.registerWrite 0x8600004 0x1234 0xF) up) 0x8600004 = inF up 0x8600004 := by decide +kernel
/-- spec/12 R391: a byte of SCRATCH. -/
theorem test_scratch : memByte (nxt (.registerWrite 0x200001 0xAABBCCDD 2) up) 0x200002 = 0xCC ∧ memByte (nxt (.registerWrite 0x200001 0xAABBCCDD 2) up) 0x200001 = 0 := by decide +kernel
/-- spec/13 R439: GETBCR answers 0x06. -/
theorem test_getbcr : (nxt .getbcr up).outbox = [.readData [0x06]] := by decide
/-- spec/16 R545: while healthy ALARM_A toggles. -/
theorem test_alarm : (nxt (.alarmHalfPeriod 2000100) calm).flt.alarmLevel = true := by decide
/-- spec/15 R517: an owned device programs no fuse. -/
theorem test_fuse_owned : (nxt (.rstFuseProg 7 7) { up with sec := { up.sec with burned := 1 } }).rst.fuse = 0 ∧ (nxt (.rstFuseProg 7 7) up).rst.fuse = 7 := by decide
/-- spec/10 R303: a rising edge of A with B low, in mode QUAD x4, counts up; with B high, down. -/
theorem test_quadrature : countA 3 true false = 1 ∧ countA 3 true true = -1 ∧ countB 3 true true = 1 := by decide
/-- spec/05 R139: cycle 1, slot 0 of a channel that does not convert is open. -/
theorem test_aux_open : ((axsOf (nxt (.auxSlot 0 1 0) up) 0).slot.map (fun x => x.2.1)) = [.open_] := by decide

end Sys2Proof.Tests
end

section
/-! Reads of the host, the management target and the debug port (spec/00 R4; spec/01 R34; spec/13 R443), and COMMAND_CUTOFF (spec/01
R23). -/
namespace Sys2Proof.Proofs
open Sys2Proof Sys2Proof.Machine

/-! ### The registers that a read touches -/

/-- A read of `len` bytes at `off` touches the 32-bit word at `a`. -/
def readsWord (off len a : Nat) : Bool := decide (off < a + 4 ∧ a < off + len)

theorem readsWord_iff {off len a : Nat} : readsWord off len a = true ↔ off < a + 4 ∧ a < off + len := decide_eq_true_iff

theorem readsWord_eq_false {off len a : Nat} (h : a + 4 ≤ off ∨ off + len ≤ a) : readsWord off len a = false :=
  decide_eq_false (by omega)

theorem readsWord_self (a : Nat) : readsWord a 4 a = true := readsWord_iff.2 (by omega)

theorem mem_touched_iff (off len : Nat) {a : Nat} (ha : a % 4 = 0) : a ∈ touched off len ↔ off < a + 4 ∧ a < off + len := by
  simp only [touched, List.mem_map, List.mem_range]
  constructor
  · rintro ⟨k, hk, rfl⟩
    omega
  · intro h
    exact ⟨a / 4 - off / 4, by omega, by omega⟩

theorem touched_contains (off len : Nat) {a : Nat} (ha : a % 4 = 0) : (touched off len).contains a = readsWord off len a :=
  Bool.eq_iff_iff.2 (List.contains_iff_mem.trans ((mem_touched_iff off len ha).trans readsWord_iff.symm))

/-! ### NEW of the mailboxes -/

/-- NEW cleared: of the slot mailbox where `slot`, of the tone mailbox where `tone`, of the service mailbox where `svc`. -/
def newCleared (slot tone svc : Bool) (s : State) : State :=
  { s with
    slots := { s.slots with fresh := s.slots.fresh && !slot }
    toneBox := { s.toneBox with fresh := s.toneBox.fresh && !tone }
    hst := { s.hst with svcFresh := s.hst.svcFresh && !svc } }

theorem newCleared_none (s : State) : newCleared false false false s = s := by simp [newCleared]

theorem newCleared_newCleared (a b c a' b' c' : Bool) (s : State) :
    newCleared a b c (newCleared a' b' c' s) = newCleared (a' || a) (b' || b) (c' || c) s := by
  simp [newCleared, Bool.and_assoc]

@[simp] theorem deviceUp_newCleared (a b c : Bool) (s : State) : deviceUp (newCleared a b c s) = deviceUp s := rfl

/-- Of a device that does not run only the slot mailbox is read (spec/18 R611). -/
theorem clearNew_eq_newCleared (s : State) (a : Nat) :
    clearNew s a = newCleared (baseCFG + 0x44 == a) (deviceUp s && baseRIN + 0x8014 == a) (deviceUp s && baseHST + 0x1024 == a) s := by
  unfold clearNew
  split
  next h => subst h; simp [newCleared, baseCFG, baseRIN, baseHST]
  next hslot =>
    have hslot' : (baseCFG + 0x44 == a) = false := beq_false_of_ne (Ne.symm hslot)
    cases hup : deviceUp s with
    | false => simp [hslot', newCleared_none]
    | true =>
      simp only [Bool.not_true, Bool.false_eq_true, if_false, hslot', Bool.true_and]
      split
      next h => subst h; simp [newCleared, baseRIN, baseHST]
      next htone =>
        rw [beq_false_of_ne (Ne.symm htone)]
        split
        next h => subst h; simp [newCleared]
        next hsvc => rw [beq_false_of_ne (Ne.symm hsvc), newCleared_none]

theorem doFor_clearNew (l : List Nat) (s : State) :
    doFor l (fun a s => clearNew s a) s = newCleared (l.contains (baseCFG + 0x44)) (deviceUp s && l.contains (baseRIN + 0x8014))
      (deviceUp s && l.contains (baseHST + 0x1024)) s := by
  induction l generalizing s with
  | nil => simp [newCleared_none]
  | cons a l ih =>
    rw [doFor_cons, ih, clearNew_eq_newCleared, newCleared_newCleared, deviceUp_newCleared]
    simp only [List.contains_cons, Bool.and_or_distrib_left]

/-! ### MAILBOX_READ -/

/-- All that a host read does: its bytes go out, and NEW clears of each mailbox whose result word it touches. -/
theorem hostRead_eq (off len : Nat) (s : State) :
    hostRead off len s = emit (.readData (hostBytes s off len)) (newCleared (readsWord off len (baseCFG + 0x44))
      (deviceUp s && readsWord off len (baseRIN + 0x8014)) (deviceUp s && readsWord off len (baseHST + 0x1024)) s) := by
  unfold hostRead
  rw [doFor_clearNew, touched_contains _ _ (by decide), touched_contains _ _ (by decide), touched_contains _ _ (by decide)]

theorem exec_mailboxRead_of_hubUp (r : BarRead) {s : State} (h : hubUp s = true) :
    exec (.mailboxRead r) s = .next (hostRead r.off r.len s) :=
  congrArg Host.Outcome.next (if_pos h)

theorem exec_mailboxRead_of_hubDown (r : BarRead) {s : State} (h : hubUp s = false) : exec (.mailboxRead r) s = .next s :=
  congrArg Host.Outcome.next (if_neg (by simp [h]))

section
variable (off len : Nat) (s : State)

theorem hostRead_outbox : (hostRead off len s).outbox = s.outbox ++ [.readData (hostBytes s off len)] := by rw [hostRead_eq]; rfl

theorem hostRead_slots : (hostRead off len s).slots =
    { s.slots with fresh := s.slots.fresh && !readsWord off len (baseCFG + 0x44) } := by rw [hostRead_eq]; rfl

theorem hostRead_toneBox : (hostRead off len s).toneBox =
    { s.toneBox with fresh := s.toneBox.fresh && !(deviceUp s && readsWord off len (baseRIN + 0x8014)) } := by rw [hostRead_eq]; rfl

theorem hostRead_hst : (hostRead off len s).hst =
    { s.hst with svcFresh := s.hst.svcFresh && !(deviceUp s && readsWord off len (baseHST + 0x1024)) } := by rw [hostRead_eq]; rfl

theorem hostRead_frame :
    { hostRead off len s with
      outbox := s.outbox
      slots := { (hostRead off len s).slots with fresh := s.slots.fresh }
      toneBox := { (hostRead off len s).toneBox with fresh := s.toneBox.fresh }
      hst := { (hostRead off len s).hst with svcFresh := s.hst.svcFresh } } = s := by rw [hostRead_eq]; rfl

end

section
variable {off len : Nat} {s : State}

theorem hostRead_clears_slots (h : readsWord off len (baseCFG + 0x44) = true) : (hostRead off len s).slots.fresh = false := by
  rw [hostRead_slots]; simp [h]

theorem hostRead_clears_toneBox (hup : deviceUp s = true) (h : readsWord off len (baseRIN + 0x8014) = true) :
    (hostRead off len s).toneBox.fresh = false := by
  rw [hostRead_toneBox]; simp [hup, h]

theorem hostRead_clears_svc (hup : deviceUp s = true) (h : readsWord off len (baseHST + 0x1024) = true) :
    (hostRead off len s).hst.svcFresh = false := by
  rw [hostRead_hst]; simp [hup, h]

theorem hostRead_slots_of_unread (h : readsWord off len (baseCFG + 0x44) = false) : (hostRead off len s).slots = s.slots := by
  rw [hostRead_slots]; simp [h]

theorem hostRead_toneBox_of_unread (h : readsWord off len (baseRIN + 0x8014) = false) :
    (hostRead off len s).toneBox = s.toneBox := by
  rw [hostRead_toneBox]; simp [h]

theorem hostRead_hst_of_unread (h : readsWord off len (baseHST + 0x1024) = false) : (hostRead off len s).hst = s.hst := by
  rw [hostRead_hst]; simp [h]

end

theorem length_hostBytes (s : State) (off len : Nat) : (hostBytes s off len).length = len := by simp [hostBytes]

theorem hostBytes_getD (s : State) {off len k : Nat} (h : k < len) : (hostBytes s off len).getD k 0 = hostByte s (off + k) := by
  simp [hostBytes, List.getD_eq_getElem?_getD, h]

/-! ### Reads of the management target and of the debug port -/

/-- The command's next state differs at most in what left the device. -/
def OnlyAnswers (i : Instr) (s : State) : Prop := ∃ t, exec i s = .next t ∧ { t with outbox := s.outbox } = s

theorem onlyAnswers_i3cViewRead (len : Nat) (s : State) : OnlyAnswers (.i3cViewRead len) s := by
  refine ⟨_, rfl, ?_⟩
  split
  · rfl
  · rfl

/-- A debug access that is an answer: the open port sends the bytes, the locked port offers none. -/
theorem onlyAnswers_debugAccess {a : DebugAccess} {s : State} {b : List Byte} (h : debugAccess a s = answer b s) :
    OnlyAnswers (.jtagDebugAccess a) s := by
  refine ⟨_, rfl, ?_⟩
  rw [h]
  split
  · rfl
  · rfl

/-- Settles O49: what a host read does is `hostRead_eq`; every other read is an answer and no more. -/
theorem readsHaveNoEffect : Obligations.ReadsHaveNoEffect := by
  refine ⟨fun r s hub => ⟨hostRead r.off r.len s, exec_mailboxRead_of_hubUp r hub, hostRead_outbox .., ?_, ?_, ?_, ?_, ?_, ?_,
    hostRead_frame ..⟩, fun r s hub => exec_mailboxRead_of_hubDown r hub, onlyAnswers_i3cViewRead, fun a s =>
    ⟨onlyAnswers_debugAccess rfl, onlyAnswers_debugAccess rfl, fun e m => onlyAnswers_debugAccess rfl,
      fun x => onlyAnswers_debugAccess rfl⟩⟩
  · exact fun hlo hhi => hostRead_clears_slots (readsWord_iff.2 ⟨hlo, hhi⟩)
  · exact fun hup hlo hhi => hostRead_clears_toneBox hup (readsWord_iff.2 ⟨hlo, hhi⟩)
  · exact fun hup hlo hhi => hostRead_clears_svc hup (readsWord_iff.2 ⟨hlo, hhi⟩)
  · exact fun h => hostRead_slots_of_unread (readsWord_eq_false h)
  · exact fun h => hostRead_toneBox_of_unread (readsWord_eq_false h)
  · exact fun h => hostRead_hst_of_unread (readsWord_eq_false h)

/-! ### COMMAND_CUTOFF -/

theorem exec_commandCutoff_of_deviceUp {s : State} (h : deviceUp s = true) : exec .commandCutoff s = .next (cutoff s) :=
  congrArg Host.Outcome.next (if_pos h)

/-- A message to the twin changes the count of messages and the outbox at most. -/
theorem sendTwin_eq (m : TwinMsg) (s : State) :
    ∃ n out, sendTwin m s = { s with twn := { s.twn with txCount := n }, outbox := out } := by
  unfold sendTwin twinSend
  split
  · exact ⟨_, _, rfl⟩
  · exact ⟨_, _, rfl⟩

theorem twinForeseen_eq (s : State) :
    ∃ n out, twinForeseen s = { s with twn := { s.twn with txCount := n }, outbox := out } := by
  unfold twinForeseen
  split
  · exact sendTwin_eq _ s
  · exact ⟨_, _, rfl⟩

theorem twinForeseen_of_not_paired {s : State} (h : s.twn.mode ≠ 3) : twinForeseen s = s := if_neg fun hc => h hc.1

/-- The cut-off closes the next frame to requests; of the rest it changes what tells the twin at most. -/
theorem cutoff_eq (s : State) :
    ∃ n out, cutoff s = { s with time := { s.time with openFrame := max s.time.openFrame (nextFrame s + 1) }
                                 twn := { s.twn with txCount := n }, outbox := out } :=
  twinForeseen_eq { s with time := { s.time with openFrame := max s.time.openFrame (nextFrame s + 1) } }

theorem cutoff_of_not_paired {s : State} (h : s.twn.mode ≠ 3) :
    cutoff s = { s with time := { s.time with openFrame := max s.time.openFrame (nextFrame s + 1) } } :=
  twinForeseen_of_not_paired h

theorem cutoff_openFrame (s : State) : (cutoff s).time.openFrame = max s.time.openFrame (nextFrame s + 1) := by
  obtain ⟨n, out, h⟩ := cutoff_eq s
  rw [h]

theorem nextFrame_cutoff (s : State) : nextFrame (cutoff s) = nextFrame s := by
  obtain ⟨n, out, h⟩ := cutoff_eq s
  rw [h]; rfl

theorem nextFrame_cutoff_lt_openFrame (s : State) : nextFrame (cutoff s) < (cutoff s).time.openFrame := by
  rw [nextFrame_cutoff, cutoff_openFrame]
  exact Nat.lt_of_lt_of_le (Nat.lt_succ_self _) (Nat.le_max_right ..)

theorem cutoff_frame (s : State) :
    { cutoff s with
      time := { (cutoff s).time with openFrame := s.time.openFrame }
      twn := { (cutoff s).twn with txCount := s.twn.txCount }
      outbox := s.outbox } = s := by
  obtain ⟨n, out, h⟩ := cutoff_eq s
  rw [h]

/-- Settles O50: COMMAND_CUTOFF by `cutoff_eq`, MAILBOX_READ by `hostRead_eq`. -/
theorem cutoffAndMailboxReads : Obligations.CutoffAndMailboxReads := by
  refine ⟨fun s hup => ⟨cutoff s, exec_commandCutoff_of_deviceUp hup, cutoff_openFrame s, nextFrame_cutoff_lt_openFrame s,
    cutoff_frame s, fun hmode => ?_⟩, fun r s hub => ⟨hostRead r.off r.len s, exec_mailboxRead_of_hubUp r hub,
    ⟨hostBytes s r.off r.len, hostRead_outbox .., length_hostBytes .., fun k hk => hostBytes_getD s hk⟩, ?_, ?_, ?_, ?_⟩⟩
  · rw [cutoff_of_not_paired hmode]
    exact ⟨rfl, rfl⟩
  · rintro rfl
    exact hostRead_clears_slots (readsWord_self _)
  · rintro rfl hup
    exact hostRead_clears_toneBox hup (readsWord_self _)
  · rintro rfl hup
    exact hostRead_clears_svc hup (readsWord_self _)
  · rw [hostRead_eq]
    exact ⟨rfl, rfl, rfl, rfl, rfl, rfl⟩

end Sys2Proof.Proofs
end

section
/-! Host writes of whole registers (spec/01 R21, R34, R35, R38) and COMMIT (spec/01 R22 to R28). -/
namespace Sys2Proof.Proofs
open Sys2Proof Sys2Proof.Machine

/-! ### A host write of a whole register -/

theorem exec_registerWrite_of_deviceUp (off : Nat) (v : Word) (be : BitVec 4) {s : State} (hup : deviceUp s = true) :
    exec (.registerWrite off v be) s = .next (hostWrite off v be s) :=
  congrArg Host.Outcome.next (if_pos hup)

/-- An aligned host write is the write of one word (R34). -/
theorem hostWrite_of_aligned {off : Nat} (v : Word) (be : BitVec 4) (s : State) (hal : off % 4 = 0) :
    hostWrite off v be s = wordWrite off v be s := by
  have hhi : be.toNat / 16 = 0 := Nat.div_eq_of_lt be.isLt
  simp [hostWrite, hal, hhi, wordWrite, wordN]

theorem wordWrite_register {a : Nat} (v : Word) (s : State) (ha : 0x4000000 ≤ a) : wordWrite a v 0xF s = regWrite a v s := by
  simp [wordWrite, Nat.not_lt.2 ha]

theorem exec_registerWrite_whole {off : Nat} (v : Word) {s : State} (hup : deviceUp s = true) (hal : off % 4 = 0)
    (hoff : 0x4000000 ≤ off) : exec (.registerWrite off v 0xF) s = .next (regWrite off v s) := by
  rw [exec_registerWrite_of_deviceUp _ _ _ hup, hostWrite_of_aligned _ _ _ hal, wordWrite_register _ _ hoff]

section
variable {off : Nat} (v : Word) {i : RegInfo} {s : State} (hsec : off / 0x100000 ≠ 0x85) (hreg : regAt s off = some i)
include hsec hreg

theorem regWrite_rws (hacc : i.acc = .rws) : regWrite off v s = writeShadow off (v &&& wordN i.mask) s := by
  simp [regWrite, hreg, hsec, hacc]

theorem regWrite_rw (hacc : i.acc = .rw) : regWrite off v s = writeRw off (v &&& wordN i.mask) s := by
  simp [regWrite, hreg, hsec, hacc]

theorem regWrite_ro (hacc : i.acc = .ro) : regWrite off v s = s := by
  simp [regWrite, hreg, hsec, hacc]

end

theorem regWrite_undefined {off : Nat} (v : Word) {s : State} (hreg : regAt s off = none) :
    regWrite off v s = hostFault 0x81 off s := by
  simp [regWrite, hreg]

/-! ### What the device's readiness and the register map depend on -/

theorem deviceUp_congr {s t : State} (h : t.rst = s.rst) : deviceUp t = deviceUp s := by
  unfold deviceUp deviceLevel sourceLevel
  rw [h]

theorem unitExists_congr {s t : State} (h : t.conf = s.conf) (u : Nat) : unitExists t u = unitExists s u := by
  unfold unitExists entOf
  rw [h]

theorem regAt_congr {s t : State} (h : t.conf = s.conf) (off : Nat) : regAt t off = regAt s off := by
  unfold regAt
  rw [unitExists_congr h]

theorem farLimit_congr {s t : State} (hc : t.conf = s.conf) (ht : t.time = s.time) : farLimit t = farLimit s := by
  unfold farLimit currentFrame epoch tf
  rw [hc, ht]

/-! ### A shadow write -/

/-- The shadow written and noted for the next COMMIT. -/
def noteShadow (off : Nat) (v : Word) (s : State) : State :=
  setShadow off v { s with written := Tbl.set (constD false) s.written off true }

/-- A shadow write changes the register's shadow and notes it as written; beyond that it tells a peer that joins, at most. -/
theorem writeShadow_eq (off : Nat) (v : Word) (s : State) :
    ∃ n out, writeShadow off v s = { noteShadow off v s with twn := { s.twn with txCount := n }, outbox := out } ∧
      (copiesSettings s = false → out = s.outbox) := by
  have h : writeShadow off v s =
      if copiesSettings s then sendTwin (.setting off (inF s off) v) (noteShadow off v s) else noteShadow off v s := rfl
  rw [h]
  split
  next hcopies =>
    obtain ⟨n, out, hsend⟩ := sendTwin_eq (.setting off (inF s off) v) (noteShadow off v s)
    exact ⟨n, out, hsend, fun hnot => absurd (hcopies.symm.trans hnot) (by decide)⟩
  · exact ⟨_, _, rfl, fun _ => rfl⟩

section
variable (off : Nat) (v : Word) (s : State)

@[simp] theorem shadowOf_writeShadow : shadowOf (writeShadow off v s) off = v := by
  obtain ⟨n, out, h, -⟩ := writeShadow_eq off v s
  rw [h]
  exact shadowOf_setShadow off v _

theorem shadowOf_writeShadow_ne {o : Nat} (ho : o ≠ off) : shadowOf (writeShadow off v s) o = shadowOf s o := by
  obtain ⟨n, out, h, -⟩ := writeShadow_eq off v s
  rw [h]
  exact shadowOf_setShadow_ne off v _ ho

theorem written_writeShadow : (writeShadow off v s).written = Tbl.set (constD false) s.written off true := by
  obtain ⟨n, out, h, -⟩ := writeShadow_eq off v s
  rw [h]; rfl

theorem get_written_writeShadow : Tbl.get (constD false) (writeShadow off v s).written off = true := by
  rw [written_writeShadow, Tbl.get_set_self]

@[simp] theorem commit_writeShadow : (writeShadow off v s).commit = s.commit := by
  obtain ⟨n, out, h, -⟩ := writeShadow_eq off v s
  rw [h]; rfl

@[simp] theorem time_writeShadow : (writeShadow off v s).time = s.time := by
  obtain ⟨n, out, h, -⟩ := writeShadow_eq off v s
  rw [h]; rfl

@[simp] theorem conf_writeShadow : (writeShadow off v s).conf = s.conf := by
  obtain ⟨n, out, h, -⟩ := writeShadow_eq off v s
  rw [h]; rfl

@[simp] theorem rst_writeShadow : (writeShadow off v s).rst = s.rst := by
  obtain ⟨n, out, h, -⟩ := writeShadow_eq off v s
  rw [h]; rfl

@[simp] theorem deviceUp_writeShadow : deviceUp (writeShadow off v s) = deviceUp s := deviceUp_congr (rst_writeShadow off v s)

@[simp] theorem regAt_writeShadow (o : Nat) : regAt (writeShadow off v s) o = regAt s o := regAt_congr (conf_writeShadow off v s) o

@[simp] theorem farLimit_writeShadow : farLimit (writeShadow off v s) = farLimit s :=
  farLimit_congr (conf_writeShadow off v s) (time_writeShadow off v s)

theorem writeShadow_frame :
    { writeShadow off v s with
      shadow := s.shadow
      written := s.written
      outbox := s.outbox
      twn := { (writeShadow off v s).twn with txCount := s.twn.txCount } } = s := by
  obtain ⟨n, out, h, -⟩ := writeShadow_eq off v s
  rw [h]; rfl

theorem outbox_writeShadow_of_not_copies (hnot : copiesSettings s = false) : (writeShadow off v s).outbox = s.outbox := by
  obtain ⟨n, out, h, hout⟩ := writeShadow_eq off v s
  rw [h]
  exact hout hnot

end

/-! ### COMMIT -/

/-- The COMMIT record that an accepted COMMIT for frame `want` leaves. -/
def acceptedCommit (want : Nat) (s : State) : CommitSt :=
  { snap := some (s.written.map (fun e => (e.1, shadowOf s e.1))), late := decide (want < s.time.openFrame)
    seq := (s.commit.seq + 1) % 65536, result := 1, frame := max want s.time.openFrame }

theorem exec_commit_of_deviceUp (v : Word) {s : State} (hup : deviceUp s = true) : exec (.commit v) s = .next (commitWrite v s) :=
  congrArg Host.Outcome.next (if_pos hup)

/-- Updates that each change the engines alone change the engines alone. -/
theorem doFor_eq_with_se {α : Type} (f : α → State → State) (h : ∀ a s, ∃ x, f a s = { s with se := x }) (l : List α) (s : State) :
    ∃ x, doFor l f s = { s with se := x } := by
  induction l generalizing s with
  | nil => exact ⟨s.se, rfl⟩
  | cons a l ih =>
    obtain ⟨x, hx⟩ := h a s
    rw [doFor_cons, hx]
    exact ih _

theorem commitWrite_without_go {v : Word} (s : State) (hgo : bitAt v 0 = false) : commitWrite v s = s := by
  simp [commitWrite, hgo]

theorem commitWrite_busy {v : Word} {s : State} (hgo : bitAt v 0 = true) (hsnap : s.commit.snap.isSome = true) :
    commitWrite v s = { s with commit := { s.commit with result := 4 } } := by
  simp [commitWrite, hgo, hsnap]

section
variable {v : Word} {want : Nat} {s : State} (hgo : bitAt v 0 = true) (hsnap : s.commit.snap = none)
  (hwant : want = if bitAt v 1 = true then s.time.openFrame else rw64 s (baseCFG + 0x220))
include hgo hsnap hwant

theorem commitWrite_too_far (hfar : farLimit s < want) : commitWrite v s = { s with commit := { s.commit with result := 5 } } := by
  subst hwant
  simp only [commitWrite, hgo, hsnap, Bool.not_true, Bool.false_eq_true, if_false, Option.isSome_none, hfar, if_true]

/-- An accepted COMMIT takes the shadow writes noted into its snapshot and leaves none; beyond that it counts itself in the ledger and
notes what it asks of the engines. -/
theorem commitWrite_accepted (hfar : want ≤ farLimit s) :
    ∃ x, commitWrite v s = { ledProduce 0 1 s with written := [], commit := acceptedCommit want s, se := x } := by
  subst hwant
  simp only [commitWrite, hgo, hsnap, Bool.not_true, Bool.false_eq_true, if_false, Option.isSome_none, Nat.not_lt.2 hfar]
  refine doFor_eq_with_se _ (fun e s => ?_) _ _
  split
  · exact ⟨_, rfl⟩
  · exact ⟨_, rfl⟩

end

/-- Settles O37: each clause is the branch of `commitWrite` that it names. -/
theorem commitSnapshots : Obligations.CommitSnapshots := by
  intro v s hup
  rw [exec_commit_of_deviceUp v hup]
  refine ⟨fun hgo => by rw [commitWrite_without_go s hgo], fun hgo hsnap => by rw [commitWrite_busy hgo hsnap],
    fun want hwant hgo hsnap => ⟨fun hfar => by rw [commitWrite_too_far hgo hsnap hwant hfar], fun hfar => ?_⟩⟩
  obtain ⟨x, h⟩ := commitWrite_accepted hgo hsnap hwant hfar
  rw [h]
  exact ⟨_, rfl, rfl, rfl, rfl, rfl, rfl⟩

/-! ### A COMMIT between shadow writes -/

/-- A key that reads another value than the default is in the table. -/
theorem exists_mem_of_get_ne {α : Type} (d : Nat → α) (t : List (Nat × α)) {k : Nat} (h : Tbl.get d t k ≠ d k) :
    ∃ e ∈ t, e.1 = k := by
  induction t with
  | nil => exact absurd rfl h
  | cons e t ih =>
    by_cases hk : k = e.1
    · exact ⟨e, List.mem_cons_self, hk.symm⟩
    · obtain ⟨e', he', hk'⟩ := ih (by simpa [Tbl.get, hk] using h)
      exact ⟨e', List.mem_cons_of_mem _ he', hk'⟩

/-- A shadow write noted is in the snapshot with the shadow's value, and with no other. -/
theorem mem_snapshot_iff {s : State} {off : Nat} (hw : Tbl.get (constD false) s.written off = true) (x : Word) :
    (off, x) ∈ s.written.map (fun e => (e.1, shadowOf s e.1)) ↔ x = shadowOf s off := by
  simp only [List.mem_map, Prod.mk.injEq]
  constructor
  · rintro ⟨e, -, rfl, rfl⟩
    rfl
  · rintro rfl
    obtain ⟨e, he, hk⟩ := exists_mem_of_get_ne (constD false) s.written (k := off) (by simp [hw, constD])
    exact ⟨e, he, hk, by rw [hk]⟩

/-- COMMIT for the first open frame: its snapshot holds the shadow's value of a shadow write noted, and no other of that register. -/
theorem exec_commit_noted {s : State} {off : Nat} (hup : deviceUp s = true) (hsnap : s.commit.snap = none)
    (hfar : s.time.openFrame ≤ farLimit s) (hw : Tbl.get (constD false) s.written off = true) :
    ∃ t l, exec (.commit 3) s = .next t ∧ t.commit.snap = some l ∧ ∀ x, (off, x) ∈ l ↔ x = shadowOf s off := by
  obtain ⟨x, h⟩ := commitWrite_accepted (v := 3) (by decide) hsnap (if_pos (by decide)).symm hfar
  exact ⟨_, _, (exec_commit_of_deviceUp 3 hup).trans (congrArg _ h), rfl, mem_snapshot_iff hw⟩

section
variable {off : Nat} (v : Word) {i : RegInfo} {s : State} (hup : deviceUp s = true) (hal : off % 4 = 0) (hoff : 0x4000000 ≤ off)
  (hsec : off / 0x100000 ≠ 0x85) (hreg : regAt s off = some i) (hacc : i.acc = .rws)
include hup hal hoff hsec hreg hacc

theorem exec_registerWrite_rws : exec (.registerWrite off v 0xF) s = .next (writeShadow off (v &&& wordN i.mask) s) := by
  rw [exec_registerWrite_whole v hup hal hoff, regWrite_rws v hsec hreg hacc]

end

/-- Settles O36: a COMMIT is accepted by `commitWrite_accepted`, what its snapshot holds is `mem_snapshot_iff`. -/
theorem commitTakesShadowWrites : Obligations.CommitTakesShadowWrites := by
  refine ⟨fun v want s hup hgo hsnap hwant hfar => ?_, fun off v w i s hup hal hoff hsec hreg hacc hsnap hfar => ?_⟩
  · obtain ⟨x, h⟩ := commitWrite_accepted hgo hsnap hwant hfar
    rw [exec_commit_of_deviceUp v hup, h]
    refine ⟨_, rfl, rfl, rfl, fun off w i hal hoff hsec hreg hacc => ?_⟩
    refine ⟨_, exec_registerWrite_rws w ((deviceUp_congr rfl).trans hup) hal hoff hsec ((regAt_congr rfl off).trans hreg) hacc,
      commit_writeShadow .., get_written_writeShadow ..⟩
  · obtain ⟨t, l, ht, hl, hmem⟩ := exec_commit_noted
      (s := writeShadow off (w &&& wordN i.mask) (writeShadow off (v &&& wordN i.mask) s)) (by simpa using hup) (by simpa using hsnap)
      (by simpa using hfar) (get_written_writeShadow ..)
    rw [shadowOf_writeShadow] at hmem
    exact ⟨_, _, t, l, exec_registerWrite_rws v hup hal hoff hsec hreg hacc,
      exec_registerWrite_rws w (by simpa using hup) hal hoff hsec (by simpa using hreg) hacc, ht, hl,
      (hmem _).2 rfl, fun x => (hmem x).1⟩

end Sys2Proof.Proofs
end

section
/-! Host writes beyond the shadow writes (spec/01 R34, R35; spec/12 R391; spec/18 R611), DIVERGE_REPORT (spec/13 R446) and the PCI Express
link (spec/13 R437, R447, R455). -/
namespace Sys2Proof.Proofs
open Sys2Proof Sys2Proof.Machine

/-! ### Writes of registers -/

theorem writeRw_of_no_ring {off : Nat} (v : Word) (s : State) (hring : ringReg off = none) : writeRw off v s = setRw off v s := by
  unfold writeRw
  rw [hring]

theorem writeRw_refused {off e : Nat} (v : Word) {s : State} (hring : ringReg off = some e) (hen : dmEn s e = true) :
    writeRw off v s = hostFault 0x8A off s := by
  unfold writeRw
  rw [hring]
  exact if_pos hen

theorem wordWrite_register_part {off : Nat} (v : Word) {be : BitVec 4} {i : RegInfo} {s : State} (hoff : 0x4000000 ≤ off)
    (hsec : off / 0x100000 ≠ 0x85) (hreg : regAt s off = some i) (hnone : be ≠ 0) (hall : be ≠ 0xF) :
    wordWrite off v be s = hostFault 0x82 off s := by
  unfold wordWrite
  rw [if_neg hnone, if_neg (Nat.not_lt.2 hoff), if_neg hall, if_pos (by simp [hreg, hsec])]

theorem raised_hostFault (kind off : Nat) (s : State) : Raised qHST 0x618 kind off s (hostFault kind off s) := raised_raiseFault ..

theorem hostFault_frame (kind off : Nat) (s : State) : { hostFault kind off s with flt := s.flt, fm := s.fm } = s := raiseFault_frame ..

/-! ### Writes of frame memory -/

theorem tileType_congr {s t : State} (h : t.conf = s.conf) (k : Nat) : tileType t k = tileType s k := by
  unfold tileType regionsIn
  rw [h]

/-- The state with other memory bytes. -/
def withMem (m : List (Nat × Byte)) (s : State) : State := { s with fm := { s.fm with mem := m } }

/-- Bytes written one by one where `p` enables them: what each address then holds. -/
theorem memByte_doFor_setByte (p : Nat → Bool) (b : Nat → Byte) (a n : Nat) (s : State) (x : Nat) :
    memByte (doFor (List.range n) (fun k s => if p k then setByte (a + k) (b k) s else s) s) x =
      if a ≤ x ∧ x < a + n ∧ p (x - a) = true then b (x - a) else memByte s x := by
  induction n with
  | zero => rw [if_neg (by omega)]; rfl
  | succ n ih =>
    simp only [doFor, List.range_succ, List.foldl_append, List.foldl_cons, List.foldl_nil] at ih ⊢
    by_cases hx : x = a + n
    · subst hx
      rw [if_neg (by omega)] at ih
      cases hp : p n with
      | true => simp [hp]
      | false => simpa [hp] using ih
    · have hrange : (a ≤ x ∧ x < a + (n + 1) ∧ p (x - a) = true) ↔ (a ≤ x ∧ x < a + n ∧ p (x - a) = true) := by
        constructor <;> rintro ⟨h1, h2, h3⟩ <;> exact ⟨h1, by omega, h3⟩
      rw [if_congr hrange rfl rfl, ← ih]
      split
      · exact memByte_setByte_ne _ _ _ hx
      · rfl

section
variable (a : Nat) (v : Word) (be : BitVec 4) (s : State)

theorem memByte_windowBytes (x : Nat) :
    memByte (windowBytes a v be s) x =
      if a ≤ x ∧ x < a + 4 ∧ be.getLsbD (x - a) = true then BitVec.ofNat 8 (v.toNat / 256 ^ (x - a)) else memByte s x :=
  memByte_doFor_setByte (fun k => be.getLsbD k) (fun k => BitVec.ofNat 8 (v.toNat / 256 ^ k)) a 4 s x

theorem windowBytes_no_byte : windowBytes a v 0 s = s := doFor_keeps id _ (fun k s => by simp) _ s

theorem withMem_windowBytes (m : List (Nat × Byte)) : withMem m (windowBytes a v be s) = withMem m s :=
  doFor_keeps (withMem m) _ (fun k s => by split <;> rfl) _ s

theorem conf_windowBytes : (windowBytes a v be s).conf = s.conf :=
  doFor_keeps State.conf _ (fun k s => by split <;> rfl) _ s

end

theorem wordWrite_scratch {a : Nat} (v : Word) {be : BitVec 4} {s : State}
    (h : be = 0 ∨ a < 0x4000000 ∧ tileType s (a / 0x1000) = 7) : wordWrite a v be s = windowBytes a v be s := by
  rcases h with rfl | ⟨ha, ht⟩
  · rw [windowBytes_no_byte]; rfl
  · by_cases hbe : be = 0
    · subst hbe
      rw [windowBytes_no_byte]; rfl
    · unfold wordWrite
      rw [if_neg hbe, if_pos ha, ht]
      rfl

theorem wordWrite_other_region {a : Nat} (v : Word) {be : BitVec 4} {s : State} (hbe : be ≠ 0) (ha : a < 0x4000000)
    (h7 : tileType s (a / 0x1000) ≠ 7) (h0 : tileType s (a / 0x1000) ≠ 0) :
    wordWrite a v be s = raiseFault qFMEM 0x616 0x71 a s := by
  unfold wordWrite
  rw [if_neg hbe, if_pos ha]
  split
  next h => exact absurd h h0
  next h => exact absurd h h7
  · rfl

/-- The eight bytes of two words from `a`: byte `k` of `x` where bit `k` of `b` enables it. -/
def twoWindows (a x b : Nat) (s : State) : State :=
  windowBytes (a + 4) (wordN (x / 2 ^ 32)) (BitVec.ofNat 4 (b / 16)) (windowBytes a (wordN x) (BitVec.ofNat 4 b) s)

/-- A write into SCRATCH puts its bytes in the two words that it touches (R34, R391). -/
theorem hostWrite_scratch {off : Nat} (v : Word) (be : BitVec 4) {s : State} (hlt : off + 3 < 0x4000000)
    (hlo : tileType s (off / 0x1000) = 7) (hhi : tileType s ((off + 3) / 0x1000) = 7) :
    hostWrite off v be s = twoWindows (off - off % 4) (v.toNat * 256 ^ (off % 4)) (be.toNat * 2 ^ (off % 4)) s := by
  unfold hostWrite twoWindows
  dsimp only
  rw [wordWrite_scratch (a := off - off % 4) _ (.inr ⟨by omega, by rwa [show (off - off % 4) / 0x1000 = off / 0x1000 by omega]⟩),
    wordWrite_scratch]
  by_cases hal : off % 4 = 0
  · left
    rw [hal, Nat.div_eq_of_lt (by simpa using be.isLt)]
    rfl
  · right
    rw [tileType_congr (conf_windowBytes ..)]
    exact ⟨by omega, by rwa [show (off - off % 4 + 4) / 0x1000 = (off + 3) / 0x1000 by omega]⟩

theorem byte_wordN (x : Nat) {j : Nat} (hj : j < 4) : BitVec.ofNat 8 ((wordN x).toNat / 256 ^ j) = BitVec.ofNat 8 (x / 256 ^ j) := by
  apply BitVec.eq_of_toNat_eq
  simp only [wordN, BitVec.toNat_ofNat]
  interval_cases j <;> omega

theorem getLsbD_enables (b : Nat) {j : Nat} (hj : j < 4) : (BitVec.ofNat 4 b).getLsbD j = b.testBit j := by
  rw [BitVec.getLsbD_ofNat, decide_eq_true hj, Bool.true_and]

theorem memByte_twoWindows (a x b : Nat) (s : State) (y : Nat) :
    memByte (twoWindows a x b s) y =
      if a ≤ y ∧ y < a + 8 ∧ b.testBit (y - a) = true then BitVec.ofNat 8 (x / 256 ^ (y - a)) else memByte s y := by
  unfold twoWindows
  rw [memByte_windowBytes, memByte_windowBytes]
  by_cases hlo : a ≤ y ∧ y < a + 4
  · have hj : y - a < 4 := by omega
    rw [if_neg (by omega), getLsbD_enables b hj, byte_wordN x hj]
    exact if_congr ⟨fun ⟨_, _, h⟩ => ⟨by omega, by omega, h⟩, fun ⟨_, _, h⟩ => ⟨by omega, by omega, h⟩⟩ rfl rfl
  · rw [if_neg (c := a ≤ y ∧ y < a + 4 ∧ _) (by omega)]
    by_cases hhi : a + 4 ≤ y ∧ y < a + 8
    · have hj : y - (a + 4) < 4 := by omega
      have hbit : (b / 16).testBit (y - (a + 4)) = b.testBit (y - a) := by
        rw [show 16 = 2 ^ 4 from rfl, Nat.testBit_div_two_pow, show y - (a + 4) + 4 = y - a by omega]
      have hbyte : x / 2 ^ 32 / 256 ^ (y - (a + 4)) = x / 256 ^ (y - a) := by
        rw [Nat.div_div_eq_div_mul, show 2 ^ 32 = 256 ^ 4 from rfl, ← pow_add, show 4 + (y - (a + 4)) = y - a by omega]
      rw [getLsbD_enables _ hj, byte_wordN _ hj, hbit, hbyte]
      exact if_congr ⟨fun ⟨_, _, h⟩ => ⟨by omega, by omega, h⟩, fun ⟨_, _, h⟩ => ⟨by omega, by omega, h⟩⟩ rfl rfl
    · rw [if_neg (by omega), if_neg (by omega)]

section
variable {off : Nat} (v : Word) (be : BitVec 4) {s : State} (hlt : off + 3 < 0x4000000)
  (hlo : tileType s (off / 0x1000) = 7) (hhi : tileType s ((off + 3) / 0x1000) = 7)
include hlt hlo hhi

theorem memByte_hostWrite_scratch {i : Nat} (hi : i < 4) :
    memByte (hostWrite off v be s) (off + i) =
      if be.getLsbD i = true then BitVec.ofNat 8 (v.toNat / 256 ^ i) else memByte s (off + i) := by
  have hplace : off + i - (off - off % 4) = off % 4 + i := by omega
  have hbit : (be.toNat * 2 ^ (off % 4)).testBit (off % 4 + i) = be.getLsbD i := by
    rw [Nat.testBit_mul_two_pow, Nat.add_sub_cancel_left, BitVec.testBit_toNat]
    simp
  have hbyte : v.toNat * 256 ^ (off % 4) / 256 ^ (off % 4 + i) = v.toNat / 256 ^ i := by
    rw [pow_add, Nat.mul_comm v.toNat, Nat.mul_div_mul_left _ _ (by positivity)]
  have hin : off - off % 4 ≤ off + i ∧ off + i < off - off % 4 + 8 := by omega
  rw [hostWrite_scratch v be hlt hlo hhi, memByte_twoWindows, hplace, hbit, hbyte]
  simp [hin]

theorem memByte_hostWrite_scratch_ne {y : Nat} (hy : y < off ∨ off + 4 ≤ y) : memByte (hostWrite off v be s) y = memByte s y := by
  rw [hostWrite_scratch v be hlt hlo hhi, memByte_twoWindows, if_neg]
  rintro ⟨h1, h2, hbit⟩
  rw [Nat.testBit_mul_two_pow, Bool.and_eq_true, decide_eq_true_eq, BitVec.testBit_toNat] at hbit
  have := BitVec.lt_of_getLsbD hbit.2
  omega

theorem hostWrite_scratch_frame :
    { hostWrite off v be s with fm := { (hostWrite off v be s).fm with mem := s.fm.mem } } = s := by
  rw [hostWrite_scratch v be hlt hlo hhi]
  exact (withMem_windowBytes _ _ _ _ s.fm.mem).trans (withMem_windowBytes _ _ _ _ s.fm.mem)

end

/-! ### Before P7 -/

theorem exec_registerWrite_of_deviceDown (off : Nat) (v : Word) (be : BitVec 4) {s : State} (hdown : deviceUp s = false) :
    exec (.registerWrite off v be) s = .next (earlyWrite off v be s) :=
  congrArg Host.Outcome.next (if_neg (by simp [hdown]))

theorem earlyWrite_seen {off : Nat} (v : Word) {be : BitVec 4} {s : State} (hub : hubUp s = true) (hoff : off = baseRST + 0x14)
    (hbe : be = 0xF) : earlyWrite off v be s = { s with rst := { s.rst with seen := s.rst.seen &&& ~~~v } } := by
  subst hoff hbe
  unfold earlyWrite
  rw [if_pos (by simp [hub])]
  rfl

theorem earlyWrite_ignored {off : Nat} (v : Word) (be : BitVec 4) {s : State} (h : hubUp s = false ∨ off ≠ baseRST + 0x14) :
    earlyWrite off v be s = s := by
  unfold earlyWrite
  rcases h with h | h <;> simp [h]

/-! ### DIVERGE_REPORT -/

theorem exec_divergeReport_of_deviceUp (v : Word) {s : State} (hup : deviceUp s = true) :
    exec (.divergeReport v) s = .next (divergeReport v s) :=
  congrArg Host.Outcome.next (if_pos hup)

section
variable {v : Word} {s : State}

theorem divergeReport_no_record (h : recordState s (fld v 16 12) (fld v 0 16) = none) :
    divergeReport v s = hostFault 0x8A (baseHST + 0x3000) s := by
  simp [divergeReport, h]

theorem divergeReport_of_agreement {st : UState} (h : recordState s (fld v 16 12) (fld v 0 16) = some st) (hst : st.code = fld v 28 4) :
    divergeReport v s = s := by
  simp [divergeReport, h, hst]

theorem divergeReport_of_difference {st : UState} (h : recordState s (fld v 16 12) (fld v 0 16) = some st)
    (hst : st.code ≠ fld v 28 4) :
    divergeReport v s = raiseFault qHST (fld v 16 12) 0x8B (2 ^ 31 + fld v 28 4) s := by
  simp [divergeReport, h, hst]

end

/-! ### The PCI Express link -/

/-- The host interface with no engine: what its other parts hold. -/
def hstBesideDma (s : State) : HstSt := { s.hst with dma := [] }

@[simp] theorem hstBesideDma_dmaHalt (e : Nat) (s : State) : hstBesideDma (dmaHalt e s) = hstBesideDma s := by
  unfold dmaHalt hstBesideDma
  split
  · rw [raiseFault_hst]; rfl
  · rfl

@[simp] theorem hstBesideDma_copyDrop (frame c reason : Nat) (s : State) : hstBesideDma (copyDrop frame c reason s) = hstBesideDma s := by
  unfold copyDrop hstBesideDma
  dsimp only
  rw [raiseFault_hst]
  split
  · exact congrArg (fun h : HstSt => { h with dma := [] }) (ledDrop_hst 6 1 0x616 (endCopy frame c s))
  · exact congrArg (fun h : HstSt => { h with dma := [] }) (ledDrop_hst 6 1 0x616 (endCopy frame c s))

@[simp] theorem hstBesideDma_dmaForced (s : State) : hstBesideDma (dmaForced s) = hstBesideDma s :=
  doFor_keeps hstBesideDma _ (fun _ _ => doFor_keeps hstBesideDma _ (fun _ _ => hstBesideDma_copyDrop ..) _ _) _ _

theorem dmaForced_of_no_stage {s : State} (h : s.fm.stage = []) : dmaForced s = s := by
  unfold dmaForced
  rw [h, doFor_nil]

/-- Where Bus Master Enable does not become 0, it takes its value and no more. -/
theorem setBme_of_no_fall {b : Bool} {s : State} (h : s.hst.bme = false ∨ b = true) :
    setBme b s = { s with hst := { s.hst with bme := b } } := by
  unfold setBme
  rcases h with h | h <;> simp [h]

/-- As Bus Master Enable becomes 0, each engine is halted (R437). -/
theorem setBme_of_fall {s : State} (h : s.hst.bme = true) :
    setBme false s = doFor (List.range 8) dmaHalt { s with hst := { s.hst with bme := false } } := by
  unfold setBme
  simp [h]

theorem hstBesideDma_setBme (b : Bool) (s : State) : hstBesideDma (setBme b s) = { hstBesideDma s with bme := b } := by
  by_cases h : s.hst.bme = false ∨ b = true
  · rw [setBme_of_no_fall h]; rfl
  · obtain ⟨hwas, hb⟩ := not_or.1 h
    rw [Bool.not_eq_true] at hb
    subst hb
    rw [setBme_of_fall (by simpa using hwas)]
    exact doFor_keeps hstBesideDma _ (fun _ _ => hstBesideDma_dmaHalt ..) _ _

theorem dmEn_dmaHalt (k e : Nat) (s : State) : dmEn (dmaHalt k s) e = dmEn s e := by
  unfold dmEn dmReg rwOf dmaHalt
  split
  · rw [raiseFault_rw, modDma_rw]
  · rfl

@[simp] theorem dmaOf_raiseFault (q u kind detail e : Nat) (s : State) : dmaOf (raiseFault q u kind detail s) e = dmaOf s e := by
  unfold dmaOf
  rw [raiseFault_hst]

/-- A halt is of its own engine, and it halts an enabled one. -/
theorem halted_dmaHalt (k e : Nat) (s : State) :
    (dmaOf (dmaHalt k s) e).halted = ((dmaOf s e).halted || (e == k && dmEn s e)) := by
  unfold dmaHalt
  by_cases hk : e = k
  · subst hk
    split
    next h => simp_all
    next h => simp_all
  · split
    · simp [dmaOf_modDma_ne _ _ _ hk, hk]
    · simp [hk]

theorem halted_doFor_dmaHalt (l : List Nat) (e : Nat) (s : State) :
    (dmaOf (doFor l dmaHalt s) e).halted = ((dmaOf s e).halted || (l.contains e && dmEn s e)) := by
  induction l generalizing s with
  | nil => simp
  | cons k l ih => rw [doFor_cons, ih, halted_dmaHalt, dmEn_dmaHalt, List.contains_cons, Bool.or_assoc, ← Bool.and_or_distrib_right]

theorem halted_setBme {s : State} (hwas : s.hst.bme = true) {e : Nat} (he : e < 8) (hen : dmEn s e = true) :
    (dmaOf (setBme false s) e).halted = true := by
  have hen' : dmEn { s with hst := { s.hst with bme := false } } e = true := hen
  rw [setBme_of_fall hwas, halted_doFor_dmaHalt, hen', List.contains_iff_mem.2 (List.mem_range.2 he), Bool.and_self, Bool.or_true]

@[simp] theorem stage_dmaHalt (e : Nat) (s : State) : (dmaHalt e s).fm.stage = s.fm.stage := by
  unfold dmaHalt
  split
  · rw [raiseFault_fm_stage, modDma_fm]
  · rfl

theorem stage_setBme (b : Bool) (s : State) : (setBme b s).fm.stage = s.fm.stage := by
  unfold setBme
  dsimp only
  split
  · exact doFor_keeps (fun t => t.fm.stage) _ (fun _ _ => stage_dmaHalt ..) _ _
  · rfl

/-- The link's state and the function's configuration as shown, Bus Master Enable apart. -/
def showLink (up : Bool) (width rate : Nat) (fn : PcieFn) (s : State) : State :=
  { s with hst := { s.hst with
      linkUp := up, width := if up then width else 0, rate := if up then rate else 0
      msixEn := fn.msixEn, fmask := fn.fmask, d3hot := fn.d3hot, aer := fn.aer } }

/-- Kind 0x88 where the error status `aer` shows an error that `old` did not (Table 13-6). -/
def raiseNewErrors (old aer : Word) (s : State) : State :=
  if aer &&& ~~~old = 0 then s else raiseFault qHST 0x618 0x88 aer.toNat s

theorem hst_raiseNewErrors (old aer : Word) (s : State) : (raiseNewErrors old aer s).hst = s.hst := by
  unfold raiseNewErrors
  split
  · rfl
  · exact raiseFault_hst ..

theorem stage_raiseNewErrors (old aer : Word) (s : State) : (raiseNewErrors old aer s).fm.stage = s.fm.stage := by
  unfold raiseNewErrors
  split
  · rfl
  · exact raiseFault_fm_stage ..

/-- A link change: what is shown, Bus Master Enable, the errors, and the copies in progress where the link goes down. -/
theorem linkChange_eq (up : Bool) (w r : Nat) (fn : PcieFn) (s : State) :
    linkChange up w r fn s =
      doIf (!up) dmaForced (raiseNewErrors s.hst.aer fn.aer (setBme fn.bme (showLink up w r fn s))) := by
  unfold linkChange raiseNewErrors showLink
  by_cases herr : fn.aer &&& ~~~s.hst.aer = 0
  · rw [herr]
    cases up <;> rfl
  · have hne : (fn.aer &&& ~~~s.hst.aer != 0) = true := bne_iff_ne.2 herr
    simp only [hne, if_true, if_neg herr]
    cases up <;> rfl

section
variable {up : Bool} {w r : Nat} {fn : PcieFn} {s : State}

theorem exec_pcieLinkChange_of_no_endpoint (h : s.rst.phase < 4 ∨ up = true ∧ clockHeld s 14 = true) :
    exec (.pcieLinkChange up w r fn) s = .next s := by
  refine congrArg Host.Outcome.next (if_neg ?_)
  rcases h with h | ⟨hup, hheld⟩
  · simp [Nat.not_le.2 h]
  · simp [hup, hheld]

theorem exec_pcieLinkChange_of_endpoint (hphase : 4 ≤ s.rst.phase) (h : up = false ∨ clockHeld s 14 = false) :
    exec (.pcieLinkChange up w r fn) s = .next (linkChange up w r fn s) := by
  refine congrArg Host.Outcome.next (if_pos ?_)
  rcases h with h | h <;> simp [hphase, h]

/-- Of the host interface a link change sets what it shows; the engines apart, no more. -/
theorem hstBesideDma_linkChange :
    hstBesideDma (linkChange up w r fn s) = { hstBesideDma (showLink up w r fn s) with bme := fn.bme } := by
  have hraise : hstBesideDma (raiseNewErrors s.hst.aer fn.aer (setBme fn.bme (showLink up w r fn s))) =
      { hstBesideDma (showLink up w r fn s) with bme := fn.bme } := by
    rw [← hstBesideDma_setBme]
    unfold hstBesideDma
    rw [hst_raiseNewErrors]
  rw [linkChange_eq, ← hraise]
  cases up
  · exact hstBesideDma_dmaForced _
  · rfl

theorem linkChange_of_no_copies (h : up = true ∨ s.fm.stage = []) :
    linkChange up w r fn s = raiseNewErrors s.hst.aer fn.aer (setBme fn.bme (showLink up w r fn s)) := by
  rw [linkChange_eq]
  cases up with
  | true => rfl
  | false =>
    have hstage : s.fm.stage = [] := h.resolve_left Bool.false_ne_true
    exact dmaForced_of_no_stage ((stage_raiseNewErrors ..).trans ((stage_setBme ..).trans hstage))

/-- Bus Master Enable that becomes 0 halts every enabled engine (R437). -/
theorem halted_linkChange (hwas : s.hst.bme = true) (hbme : fn.bme = false) (h : up = true ∨ s.fm.stage = []) {e : Nat} (he : e < 8)
    (hen : dmEn s e = true) : (dmaOf (linkChange up w r fn s) e).halted = true := by
  rw [linkChange_of_no_copies h]
  unfold dmaOf
  rw [hst_raiseNewErrors, hbme]
  exact halted_setBme (s := showLink up w r fn s) hwas he hen

/-- Where Bus Master Enable does not become 0, only the host interface changes, and a new error raises kind 0x88. -/
theorem linkChange_of_no_fall (hno : s.hst.bme = false ∨ fn.bme = true) (h : up = true ∨ s.fm.stage = []) :
    ∃ hst, linkChange up w r fn s = raiseNewErrors s.hst.aer fn.aer { s with hst := hst } := by
  rw [linkChange_of_no_copies h, setBme_of_no_fall (s := showLink up w r fn s) hno]
  exact ⟨_, rfl⟩

end

/-! ### The statement on host writes -/

/-- Settles O48: whole registers by `regWrite` and its cases, frame memory by `hostWrite_scratch`, the link by `linkChange_eq`. -/
theorem hostWrites : Obligations.HostWrites := by
  refine ⟨⟨fun off v i s hup hal hoff hsec hreg => ⟨fun hacc => ?_, fun hacc hring => ?_, fun e hacc hring hen => ?_, fun hacc => ?_,
      fun be hnone hall => ?_⟩, fun off v s hup hal hoff hreg => ?_,
      fun off v be s hup hlt => ⟨fun hlo hhi => ?_, fun hal hbe h7 h0 => ?_⟩,
      fun off v be s hdown => ⟨fun hub hoff hbe => ?_, fun h => ?_⟩⟩,
    fun v s hup => ⟨fun hrec => ?_, fun st hrec => ⟨fun hst => ?_, fun hst => ?_⟩⟩,
    fun up w r fn s => ⟨exec_pcieLinkChange_of_no_endpoint, fun hphase hclk => ?_⟩⟩
  · exact ⟨_, exec_registerWrite_rws v hup hal hoff hsec hreg hacc, shadowOf_writeShadow .., fun o => shadowOf_writeShadow_ne _ _ _,
      get_written_writeShadow .., writeShadow_frame .., outbox_writeShadow_of_not_copies _ _ _⟩
  · rw [exec_registerWrite_whole v hup hal hoff, regWrite_rw v hsec hreg hacc, writeRw_of_no_ring _ _ hring]
    exact ⟨_, rfl, rwOf_setRw .., fun o => rwOf_setRw_ne _ _ _, rfl⟩
  · rw [exec_registerWrite_whole v hup hal hoff, regWrite_rw v hsec hreg hacc, writeRw_refused _ hring hen]
    exact ⟨_, rfl, raiseFault_rw .., raised_hostFault ..⟩
  · rw [exec_registerWrite_whole v hup hal hoff, regWrite_ro v hsec hreg hacc]
  · rw [exec_registerWrite_of_deviceUp _ _ _ hup, hostWrite_of_aligned _ _ _ hal, wordWrite_register_part v hoff hsec hreg hnone hall]
    exact ⟨_, rfl, raised_hostFault .., hostFault_frame ..⟩
  · rw [exec_registerWrite_whole v hup hal hoff, regWrite_undefined v hreg]
    exact ⟨_, rfl, raised_hostFault .., hostFault_frame ..⟩
  · rw [exec_registerWrite_of_deviceUp _ _ _ hup]
    exact ⟨_, rfl, fun k => memByte_hostWrite_scratch v be hlt hlo hhi, fun a => memByte_hostWrite_scratch_ne v be hlt hlo hhi,
      hostWrite_scratch_frame v be hlt hlo hhi⟩
  · rw [exec_registerWrite_of_deviceUp _ _ _ hup, hostWrite_of_aligned _ _ _ hal, wordWrite_other_region v hbe (by omega) h7 h0]
    exact ⟨_, rfl, raised_raiseFault .., fun a => by unfold memByte; rw [raiseFault_fm_mem]⟩
  · rw [exec_registerWrite_of_deviceDown _ _ _ hdown, earlyWrite_seen v hub hoff hbe]
  · rw [exec_registerWrite_of_deviceDown _ _ _ hdown, earlyWrite_ignored v be h]
  · rw [exec_divergeReport_of_deviceUp v hup, divergeReport_no_record hrec]
    exact ⟨_, rfl, raised_hostFault .., hostFault_frame ..⟩
  · rw [exec_divergeReport_of_deviceUp v hup, divergeReport_of_agreement hrec hst]
  · rw [exec_divergeReport_of_deviceUp v hup, divergeReport_of_difference hrec hst]
    exact ⟨_, rfl, raised_raiseFault .., raiseFault_frame ..⟩
  · have hshown := hstBesideDma_linkChange (up := up) (w := w) (r := r) (fn := fn) (s := s)
    refine ⟨_, exec_pcieLinkChange_of_endpoint hphase hclk, congrArg HstSt.linkUp hshown, congrArg HstSt.width hshown,
      congrArg HstSt.rate hshown, congrArg HstSt.bme hshown, congrArg HstSt.msixEn hshown, congrArg HstSt.fmask hshown,
      congrArg HstSt.d3hot hshown, congrArg HstSt.aer hshown, fun hwas hbme hcopies e => halted_linkChange hwas hbme hcopies e.isLt,
      fun hno hcopies => ?_⟩
    obtain ⟨hst, h⟩ := linkChange_of_no_fall (w := w) (r := r) hno hcopies
    rw [h]
    refine ⟨fun herr => ?_, fun herr => ?_⟩
    · rw [raiseNewErrors, if_pos herr]
    · rw [raiseNewErrors, if_neg herr]
      exact ⟨raised_of_eq _ _ _ _ s _ rfl rfl rfl,
        congrArg (fun t : State => { t with hst := s.hst }) (raiseFault_frame _ _ _ _ { s with hst := hst })⟩

end Sys2Proof.Proofs
end

section
/-! Cell time (spec/01 R14, R39, R40; spec/13 R425, R426), the backbone ports and policing (spec/13 R423, R448; spec/18 R607). -/
namespace Sys2Proof.Proofs
open Sys2Proof Sys2Proof.Machine

/-! ### A message stays in its queue -/

theorem raised_of_queue_eq {q u kind detail : Nat} {s t t' : State} (h : Raised q u kind detail s t) (hq : queueOf t' q = queueOf t q) :
    Raised q u kind detail s t' :=
  hq.trans h

theorem queueOf_raiseFault_ne (q u kind detail : Nat) (s : State) {p : Nat} (h : p ≠ q) :
    queueOf (raiseFault q u kind detail s) p = queueOf s p :=
  queueOf_queueMsg_ne q _ s h

theorem queueOf_setCond_ne (q u kind sub : Nat) (b : Bool) (detail : Nat) (s : State) {p : Nat} (h : p ≠ q) :
    queueOf (setCond q u kind sub b detail s) p = queueOf s p := by
  unfold setCond
  dsimp only
  split
  · exact queueOf_raiseFault_ne _ _ _ _ _ h
  · rfl

@[simp] theorem queueOf_intSource (k q : Nat) (s : State) : queueOf (intSource k s) q = queueOf s q := by
  unfold queueOf
  rw [intSource_flt]

/-! ### The synchronised condition -/

section
variable (b : Bool) (s : State)

/-- `setSync` is the condition, and the interrupt where it changes. -/
theorem setSync_eq : setSync b s =
    doIf (decide (s.net.sync ≠ b)) (intSource 11) (setCond qCLK 0x612 0x06 0 (!b) 0 { s with net := { s.net with sync := b } }) := by
  unfold setSync
  by_cases h : s.net.sync = b
  · simp [h]
  · simp [h]

theorem net_setSync : (setSync b s).net = { s.net with sync := b } := by
  rw [setSync_eq]
  cases decide (s.net.sync ≠ b) <;> simp

theorem time_setSync : (setSync b s).time = s.time := by
  rw [setSync_eq]
  cases decide (s.net.sync ≠ b) <;> simp

theorem queueOf_setSync_ne {q : Nat} (hq : q ≠ qCLK) : queueOf (setSync b s) q = queueOf s q := by
  rw [setSync_eq]
  cases decide (s.net.sync ≠ b)
  · exact queueOf_setCond_ne _ _ _ _ _ _ _ hq
  · exact (queueOf_intSource ..).trans (queueOf_setCond_ne _ _ _ _ _ _ _ hq)

theorem condOf_setSync : condOf (setSync b s) 0x612 0x06 0 = !b := by
  rw [setSync_eq]
  cases decide (s.net.sync ≠ b)
  · exact condOf_setCond ..
  · unfold condOf
    rw [doIf_true, intSource_flt]
    exact condOf_setCond ..

end

/-! ### A step of cell time -/

theorem firstOpen_congr {s t : State} (h : t.conf = s.conf) (n : Nat) : firstOpen n t = firstOpen n s := by
  unfold firstOpen epoch tf
  rw [h]

/-- Time after cell time has moved by `d`: above 1 us the frame instants keep their place and slew; before the first boundary the frames
to come are numbered anew (R14, R39). -/
def steppedTime (d : Int) (s : State) : TimeSt :=
  let now := ((s.time.now : Int) + d).toNat
  if 1000 < d.natAbs then
    if s.time.frame.isSome then { s.time with now := now, slew := s.time.slew + d }
    else { now := now, frame := none, firstFrame := firstOpen now s, openFrame := firstOpen now s, slew := 0 }
  else { s.time with now := now }

theorem steppedTime_congr (d : Int) {s t : State} (ht : t.time = s.time) (hc : t.conf = s.conf) : steppedTime d t = steppedTime d s := by
  unfold steppedTime
  rw [ht]
  simp only [firstOpen_congr hc]

section
variable (d : Int) (s : State)

theorem steppedTime_now : (steppedTime d s).now = ((s.time.now : Int) + d).toNat := by
  unfold steppedTime
  dsimp only
  split
  · split <;> rfl
  · rfl

theorem steppedTime_frame : (steppedTime d s).frame = s.time.frame := by
  unfold steppedTime
  dsimp only
  split
  · split
    · rfl
    next h => exact (Option.not_isSome_iff_eq_none.1 h).symm
  · rfl

end

section
variable {d : Int} {s : State}

theorem steppedTime_of_small (h : d.natAbs ≤ 1000) : steppedTime d s = { s.time with now := ((s.time.now : Int) + d).toNat } :=
  if_neg (Nat.not_lt.2 h)

theorem steppedTime_of_running (h : 1000 < d.natAbs) (hf : s.time.frame.isSome = true) :
    steppedTime d s = { s.time with now := ((s.time.now : Int) + d).toNat, slew := s.time.slew + d } :=
  (if_pos h).trans (if_pos hf)

theorem steppedTime_of_unstarted (h : 1000 < d.natAbs) (hf : s.time.frame = none) :
    (steppedTime d s).slew = 0 ∧ (steppedTime d s).openFrame = firstOpen (steppedTime d s).now s ∧
      (steppedTime d s).firstFrame = (steppedTime d s).openFrame := by
  have : steppedTime d s = _ := (if_pos h).trans (if_neg (by simp [hf]))
  rw [this]
  exact ⟨rfl, rfl, rfl⟩

end

/-- From `s` to `t` the clock block alone has changed, and messages have entered its queue at most. -/
def ClockReports (s t : State) : Prop :=
  { t with clk := s.clk, flt := s.flt, fm := s.fm } = s ∧ ∀ q, q ≠ qCLK → queueOf t q = queueOf s q

theorem ClockReports.time {s t : State} (h : ClockReports s t) : t.time = s.time := (congrArg State.time h.1 :)

theorem ClockReports.net {s t : State} (h : ClockReports s t) : t.net = s.net := (congrArg State.net h.1 :)

theorem ClockReports.trans {s t u : State} (h : ClockReports s t) (h' : ClockReports t u) : ClockReports s u :=
  ⟨(congrArg (fun x : State => { x with clk := s.clk, flt := s.flt, fm := s.fm }) h'.1).trans h.1,
    fun q hq => (h'.2 q hq).trans (h.2 q hq)⟩

theorem clockReports_clk (c : ClkSt) (s : State) : ClockReports s { s with clk := c } := ⟨rfl, fun _ _ => rfl⟩

theorem clockReports_raiseFault (u kind detail : Nat) (s : State) : ClockReports s (raiseFault qCLK u kind detail s) :=
  ⟨(congrArg (fun x : State => { x with clk := s.clk }) (raiseFault_frame qCLK u kind detail s) :),
    fun _ hq => queueOf_raiseFault_ne _ _ _ _ _ hq⟩

theorem clockReports_ite {c : Prop} [Decidable c] {s t u : State} (ht : ClockReports s t) (hu : ClockReports s u) :
    ClockReports s (if c then t else u) := by
  split
  · exact ht
  · exact hu

theorem clockReports_setModErr (e : Int) (s : State) : ClockReports s (setModErr e s) :=
  clockReports_ite ((clockReports_clk _ s).trans (clockReports_raiseFault ..)) (clockReports_clk _ s)

/-- What a step of cell time by `d` above 1 us reports: kind 0x05 where `raise`, and the grid's misalignment (R39, R576). -/
def reportStep (d : Int) (raise : Bool) (s : State) : State :=
  let s := if raise then raiseFault qCLK 0x612 0x05 0 s else s
  let e := (s.clk.modErr + d * 1000) % 3125000
  if s.clk.modLock then setModErr (if e < 1562500 then e else e - 3125000) s else s

theorem clockReports_reportStep (d : Int) (raise : Bool) (s : State) : ClockReports s (reportStep d raise s) := by
  have hraise : ClockReports s (if raise then raiseFault qCLK 0x612 0x05 0 s else s) :=
    clockReports_ite (clockReports_raiseFault ..) (clockReports_clk _ s)
  exact clockReports_ite (hraise.trans (clockReports_setModErr ..)) hraise

theorem stepTime_eq (d : Int) (raise : Bool) (s : State) :
    stepTime d raise s = doIf (decide (1000 < d.natAbs)) (reportStep d raise) { s with time := steppedTime d s } := by
  unfold stepTime
  by_cases hbig : 1000 < d.natAbs
  · cases hf : s.time.frame with
    | none => simp [hbig, hf, steppedTime, doIf, numberFrames, reportStep]; rfl
    | some n => simp [hbig, hf, steppedTime, doIf, reportStep]
  · simp [hbig, steppedTime, doIf]

theorem clockReports_stepTime (d : Int) (raise : Bool) (s : State) :
    ClockReports { s with time := steppedTime d s } (stepTime d raise s) := by
  rw [stepTime_eq]
  exact clockReports_ite (clockReports_reportStep ..) (clockReports_clk _ _)

section
variable (d : Int) (raise : Bool) (s : State)

theorem time_stepTime : (stepTime d raise s).time = steppedTime d s := (clockReports_stepTime d raise s).time

theorem net_stepTime : (stepTime d raise s).net = s.net := (clockReports_stepTime d raise s).net

theorem queueOf_stepTime_ne {q : Nat} (hq : q ≠ qCLK) : queueOf (stepTime d raise s) q = queueOf s q :=
  (clockReports_stepTime d raise s).2 q hq

end

/-! ### The grandmaster -/

section
variable (id : BitVec 64) (s : State)

/-- A new identity raises kind 0x83 (R426). -/
theorem setGm_eq : setGm id s =
    doIf (s.net.gmId != id) (raiseFault qNET 0x617 0x83 (id.toNat % 2 ^ 32)) { s with net := { s.net with gmId := id } } := rfl

theorem setGm_frame : { setGm id s with flt := s.flt, fm := s.fm } = { s with net := { s.net with gmId := id } } := by
  rw [setGm_eq]
  cases s.net.gmId != id
  · rfl
  · exact raiseFault_frame qNET 0x617 0x83 (id.toNat % 2 ^ 32) { s with net := { s.net with gmId := id } }

theorem net_setGm : (setGm id s).net = { s.net with gmId := id } := (congrArg State.net (setGm_frame id s) :)
theorem time_setGm : (setGm id s).time = s.time := (congrArg State.time (setGm_frame id s) :)
theorem conf_setGm : (setGm id s).conf = s.conf := (congrArg State.conf (setGm_frame id s) :)

theorem syncTh_setGm : syncTh (setGm id s) = syncTh s := by
  have h : (setGm id s).inForce = s.inForce := (congrArg State.inForce (setGm_frame id s) :)
  unfold syncTh inF
  rw [h]

theorem raised_setGm (hnew : id ≠ s.net.gmId) : Raised qNET 0x617 0x83 (id.toNat % 2 ^ 32) s (setGm id s) := by
  rw [setGm_eq, bne_iff_ne.2 (Ne.symm hnew)]
  exact raised_of_eq _ _ _ _ s _ rfl rfl rfl

end

/-! ### Sync messages -/

/-- The offset is within SYNC_TH. -/
def withinSyncTh (o : Int) (s : State) : Bool := decide (o.natAbs ≤ syncTh s)

/-- The sync messages in a row within SYNC_TH, this one counted. -/
def runWith (o : Int) (s : State) : Nat := if withinSyncTh o s then min 8 (s.net.goodRun + 1) else 0

/-- The backbone's state once a sync message is noted, the synchronised condition apart. -/
def syncedNet (o : Int) (id : BitVec 64) (k : Nat) (gm : Bool) (s : State) : NetSt :=
  { s.net with gmId := id, ptpOn := true, gm := gm, gmSteps := k % 65536, offset := satS 32 o, goodRun := runWith o s }

/-- A sync message: its grandmaster, the step of cell time, the synchronised condition (R39, R40, R426). -/
theorem syncMessage_eq (o : Int) (id : BitVec 64) (k : Nat) (gm : Bool) (s : State) :
    syncMessage o id k gm s =
      setSync (gm || runWith o s == 8 || (s.net.sync && withinSyncTh o s))
        (doIf (!gm) (stepTime (-o) s.net.sync) { setGm id s with net := syncedNet o id k gm s }) := by
  unfold syncMessage syncedNet runWith withinSyncTh
  dsimp only
  rw [net_setGm, syncTh_setGm]
  cases gm <;> rfl

theorem exec_syncMessage_of_hubUp (o : Int) (id : BitVec 64) (k : Nat) (gm : Bool) {s : State} (hub : hubUp s = true) :
    exec (.syncMessage o id k gm) s = .next (syncMessage o id k gm s) :=
  congrArg Host.Outcome.next (if_pos hub)

section
variable (o : Int) (id : BitVec 64) (k : Nat) (s : State)

theorem net_syncMessage (gm : Bool) : (syncMessage o id k gm s).net =
    { syncedNet o id k gm s with sync := gm || runWith o s == 8 || (s.net.sync && withinSyncTh o s) } := by
  have hnet : (doIf (!gm) (stepTime (-o) s.net.sync) { setGm id s with net := syncedNet o id k gm s }).net = syncedNet o id k gm s := by
    cases gm
    · exact net_stepTime ..
    · rfl
  rw [syncMessage_eq, net_setSync, hnet]

theorem raised_syncMessage (gm : Bool) (hnew : id ≠ s.net.gmId) :
    Raised qNET 0x617 0x83 (id.toNat % 2 ^ 32) s (syncMessage o id k gm s) := by
  refine raised_of_queue_eq (raised_setGm id s hnew) ?_
  rw [syncMessage_eq, queueOf_setSync_ne _ _ (by decide)]
  cases gm
  · exact queueOf_stepTime_ne _ _ _ (by decide)
  · rfl

theorem time_syncMessage_of_grandmaster : (syncMessage o id k true s).time = s.time := by
  rw [syncMessage_eq, time_setSync]
  exact time_setGm id s

theorem time_syncMessage : (syncMessage o id k false s).time = steppedTime (-o) s := by
  rw [syncMessage_eq, time_setSync]
  exact (time_stepTime ..).trans (steppedTime_congr (-o) (time_setGm id s) (conf_setGm id s))

/-- Eight messages in a row within SYNC_TH make the device synchronised, and it stays so while they are within (R40). -/
theorem sync_syncMessage : (syncMessage o id k false s).net.sync = true ↔
    o.natAbs ≤ syncTh s ∧ (s.net.sync = true ∨ 7 ≤ s.net.goodRun) := by
  rw [net_syncMessage]
  by_cases hnear : o.natAbs ≤ syncTh s
  · have hrun : min 8 (s.net.goodRun + 1) = 8 ↔ 7 ≤ s.net.goodRun := by omega
    simp [runWith, withinSyncTh, hnear, hrun, or_comm]
  · simp [runWith, withinSyncTh, hnear]

end

/-! ### Lost sync, the grandmaster chosen, CT_INIT -/

theorem exec_syncTimeout_of_hubUp {s : State} (hub : hubUp s = true) : exec .syncTimeout s = .next (syncTimeout s) :=
  congrArg Host.Outcome.next (if_pos hub)

theorem syncTimeout_of_grandmaster {s : State} (h : s.net.gm = true) : syncTimeout s = s := if_pos h

theorem syncTimeout_of_lost {s : State} (h : s.net.gm = false) :
    syncTimeout s = setSync false { s with net := { s.net with goodRun := 0 } } :=
  if_neg (by simp [h])

theorem exec_grandmasterChange_of_hubUp (id : BitVec 64) (gm : Bool) {s : State} (hub : hubUp s = true) :
    exec (.grandmasterChange id gm) s = .next (gmChange id gm s) :=
  congrArg Host.Outcome.next (if_pos hub)

section
variable (id : BitVec 64) (gm : Bool) (s : State)

/-- What the selection says of the grandmaster, its identity apart. -/
def chosenGm (gm : Bool) (s : State) : State :=
  { s with net := { s.net with gm := gm, ptpOn := true, gmSteps := if gm then 0 else s.net.gmSteps } }

theorem gmChange_eq : gmChange id gm s = doIf gm (setSync true) (setGm id (chosenGm gm s)) := rfl

theorem net_gmChange : (gmChange id gm s).net = { (chosenGm gm s).net with gmId := id, sync := gm || s.net.sync } := by
  rw [gmChange_eq]
  cases gm
  · exact net_setGm ..
  · rw [doIf_true, net_setSync, net_setGm]
    rfl

theorem raised_gmChange (hnew : id ≠ s.net.gmId) : Raised qNET 0x617 0x83 (id.toNat % 2 ^ 32) s (gmChange id gm s) := by
  have h : Raised qNET 0x617 0x83 (id.toNat % 2 ^ 32) s (setGm id (chosenGm gm s)) := raised_setGm id (chosenGm gm s) hnew
  rw [gmChange_eq]
  cases gm
  · exact h
  · exact raised_of_queue_eq h (queueOf_setSync_ne _ _ (by decide))

end

theorem exec_ctInit_of_deviceUp (hi : Word) {s : State} (hup : deviceUp s = true) : exec (.ctInit hi) s = .next (ctInit hi s) :=
  congrArg Host.Outcome.next (if_pos hup)

theorem ctInit_of_image (hi : Word) {s : State} (h : s.conf.isSome = true) :
    ctInit hi s = raiseFault qHST 0x618 0x8A (baseNET + 0x24) s :=
  if_pos h

section
variable (hi : Word) {s : State} (h : s.conf = none)
include h

/-- CT_INIT steps cell time from what it reads to the value written (R425). -/
theorem ctInit_of_no_image :
    ctInit hi s = stepTime (((rwOf s (baseNET + 0x20)).toNat + 2 ^ 32 * hi.toNat : Nat) - s.time.now) true
      { setRw (baseNET + 0x24) hi s with net := { s.net with ctSet := true } } := by
  unfold ctInit
  rw [h]
  rfl

theorem time_ctInit_of_no_image : (ctInit hi s).time =
    steppedTime (((rwOf s (baseNET + 0x20)).toNat + 2 ^ 32 * hi.toNat : Nat) - s.time.now) s := by
  rw [ctInit_of_no_image hi h, time_stepTime]
  exact steppedTime_congr _ rfl rfl

theorem ctSet_ctInit_of_no_image : (ctInit hi s).net.ctSet = true := by
  rw [ctInit_of_no_image hi h, net_stepTime]

end

/-! ### Ports and policing -/

theorem exec_backboneLinkChange_held (k : Fin 4) (r : PortReport) {s : State} (h : hubUp s = false ∨ clockHeld s 12 = true) :
    exec (.backboneLinkChange k r) s = .next s :=
  congrArg Host.Outcome.next (if_neg (by rcases h with h | h <;> simp [h]))

theorem exec_backboneLinkChange_taken (k : Fin 4) (r : PortReport) {s : State} (hub : hubUp s = true) (hclk : clockHeld s 12 = false) :
    exec (.backboneLinkChange k r) s = .next (bbLink k.val r s) :=
  congrArg Host.Outcome.next (if_pos (by simp [hub, hclk]))

/-- What a port shows after a report. -/
def reportedPort (r : PortReport) (p : BbPort) : BbPort :=
  { p with
    up := r.up, fec := r.fec && r.up, asCapable := r.asCapable && r.up, ptpState := r.ptpState.val, pdelay := r.pdelay.toNat
    rx := (p.rx + r.rx) % 2 ^ 32, fcs := min 65535 (p.fcs + r.fcs) }

/-- A report is shown; a change of the link interrupts, and a link that goes down raises kind 0x80. -/
theorem bbLink_eq (k : Nat) (r : PortReport) (s : State) : bbLink k r s =
    doIf (decide ((bbPortOf s k).up ≠ r.up)) (fun t => doIf (!r.up) (raiseFault qNET 0x617 0x80 k) (intSource 12 t))
      (modBbPort k (reportedPort r) s) := by
  by_cases h : (bbPortOf s k).up = r.up
  · rw [decide_eq_false (not_not.2 h)]
    exact if_pos h
  · have hlink : bbLink k r s = if r.up then intSource 12 (modBbPort k (reportedPort r) s)
        else raiseFault qNET 0x617 0x80 k (intSource 12 (modBbPort k (reportedPort r) s)) := if_neg h
    rw [decide_eq_true h, hlink]
    cases r.up
    · rfl
    · rfl

theorem net_bbLink (k : Nat) (r : PortReport) (s : State) : (bbLink k r s).net = (modBbPort k (reportedPort r) s).net := by
  rw [bbLink_eq]
  cases decide ((bbPortOf s k).up ≠ r.up)
  · rfl
  · cases r.up
    · exact (raiseFault_net ..).trans (intSource_net ..)
    · exact intSource_net ..

theorem bbPortOf_congr {s t : State} (h : t.net = s.net) (k : Nat) : bbPortOf t k = bbPortOf s k := by
  unfold bbPortOf
  rw [h]

theorem bbLink_of_no_change {k : Nat} {r : PortReport} {s : State} (h : (bbPortOf s k).up = r.up) :
    bbLink k r s = modBbPort k (reportedPort r) s := by
  rw [bbLink_eq, decide_eq_false (not_not.2 h)]
  rfl

theorem flt_bbLink_of_up {k : Nat} {r : PortReport} {s : State} (h : r.up = true) : (bbLink k r s).flt = s.flt := by
  rw [bbLink_eq, h]
  cases decide ((bbPortOf s k).up ≠ true)
  · rfl
  · exact intSource_flt ..

theorem raised_bbLink_of_fall {k : Nat} {r : PortReport} {s : State} (hwas : (bbPortOf s k).up = true) (hdown : r.up = false) :
    Raised qNET 0x617 0x80 k s (bbLink k r s) := by
  rw [bbLink_eq, hwas, hdown]
  exact raised_of_eq _ _ _ _ s _ (congrArg FltSt.queues (intSource_flt ..)) (intSource_conf ..) (congrArg TimeSt.frame (intSource_time ..))

theorem exec_streamGateClosed_of_hubUp (f : Fin 64) (p : Fin 4) {s : State} (hub : hubUp s = true) :
    exec (.streamGateClosed f p) s = .next (streamGate f.val p.val s) :=
  congrArg Host.Outcome.next (if_pos hub)

theorem exec_latentErrorDetection_of_hubUp (k : Fin 8) {s : State} (hub : hubUp s = true) :
    exec (.latentErrorDetection k) s = .next (raiseFault qNET 0x617 0x87 k.val s) :=
  congrArg Host.Outcome.next (if_pos hub)

theorem streamGate_frame (f p : Nat) (s : State) : { streamGate f p s with net := s.net, flt := s.flt, fm := s.fm } = s :=
  (congrArg (fun t : State => { t with net := s.net }) (raiseFault_frame qNET 0x617 0x84 f (modBbPort p _ s)) :)

/-! ### The statement on cell time and ports -/

/-- Settles O32: a sync message by `syncMessage_eq` and `steppedTime`, the other events by the equation of each. -/
theorem backboneTime : Obligations.BackboneTime := by
  refine ⟨⟨fun o id k s hub => ?_, fun o id k s hub => ?_, fun s hub => ⟨fun hgm => ?_, fun hgm => ?_⟩, fun id s hub => ⟨?_, ?_⟩,
      fun hi s hup => ⟨fun hconf v d hv hd => ?_, fun hconf => ?_⟩⟩,
    fun k r s => ⟨exec_backboneLinkChange_held k r, fun hub hclk => ?_⟩, fun f p s hub => ?_, fun k s hub => ?_⟩
  · rw [exec_syncMessage_of_hubUp o id k false hub]
    refine ⟨_, rfl, ?_, ?_, fun hbig hf => ?_, fun hbig hf => ?_, fun hsmall => ?_, ?_, ?_, ?_, raised_syncMessage o id k s false, ?_,
      sync_syncMessage o id k s⟩
    · rw [time_syncMessage, steppedTime_now, Int.sub_eq_add_neg]
    · rw [time_syncMessage, steppedTime_frame]
    · rw [time_syncMessage, steppedTime_of_running (by rwa [Int.natAbs_neg]) hf]
      exact ⟨(Int.sub_eq_add_neg).symm, rfl⟩
    · rw [time_syncMessage]
      exact steppedTime_of_unstarted (by rwa [Int.natAbs_neg]) hf
    · rw [time_syncMessage, steppedTime_of_small (by rwa [Int.natAbs_neg])]
      exact ⟨rfl, rfl⟩
    · rw [net_syncMessage]; rfl
    · rw [net_syncMessage]; rfl
    · rw [net_syncMessage]; rfl
    · rw [net_syncMessage]
      simp [syncedNet, runWith, withinSyncTh]
  · rw [exec_syncMessage_of_hubUp o id k true hub]
    refine ⟨_, rfl, time_syncMessage_of_grandmaster .., ?_, ?_, ?_, raised_syncMessage o id k s true⟩
    · rw [net_syncMessage]; rfl
    · rw [net_syncMessage]; rfl
    · rw [net_syncMessage]; rfl
  · rw [exec_syncTimeout_of_hubUp hub, syncTimeout_of_grandmaster hgm]
  · rw [exec_syncTimeout_of_hubUp hub, syncTimeout_of_lost hgm]
    exact ⟨_, rfl, congrArg NetSt.sync (net_setSync ..), congrArg NetSt.goodRun (net_setSync ..), condOf_setSync ..⟩
  · rw [exec_grandmasterChange_of_hubUp id true hub]
    have hnet := net_gmChange id true s
    exact ⟨_, rfl, congrArg NetSt.gmId hnet, congrArg NetSt.gm hnet, congrArg NetSt.gmSteps hnet, congrArg NetSt.sync hnet,
      raised_gmChange id true s⟩
  · rw [exec_grandmasterChange_of_hubUp id false hub]
    have hnet := net_gmChange id false s
    exact ⟨_, rfl, congrArg NetSt.gmId hnet, congrArg NetSt.gm hnet, (congrArg NetSt.sync hnet :), raised_gmChange id false s⟩
  · have htime : (ctInit hi s).time = steppedTime d s := by
      rw [time_ctInit_of_no_image hi hconf, hd, hv]
      push_cast
      rfl
    rw [exec_ctInit_of_deviceUp hi hup]
    refine ⟨_, rfl, ctSet_ctInit_of_no_image hi hconf, ?_, ?_, fun hbig hf => ?_, fun hbig hf => ?_, fun hsmall => ?_⟩
    · rw [htime, steppedTime_now]
      omega
    · rw [htime, steppedTime_frame]
    · rw [htime, steppedTime_of_running hbig hf]
      exact ⟨rfl, rfl⟩
    · obtain ⟨hslew, hopen, -⟩ := steppedTime_of_unstarted hbig hf
      rw [htime]
      exact ⟨hslew, hopen⟩
    · rw [htime, steppedTime_of_small hsmall]
      exact ⟨rfl, rfl⟩
  · rw [exec_ctInit_of_deviceUp hi hup, ctInit_of_image hi hconf]
    exact ⟨_, rfl, raiseFault_time .., raiseFault_net .., raiseFault_rw .., raised_raiseFault ..⟩
  · rw [exec_backboneLinkChange_taken k r hub hclk]
    have hport := bbPortOf_congr (net_bbLink k.val r s)
    refine ⟨_, rfl, (hport k.val).trans (bbPortOf_modBbPort ..), fun j hj => (hport j).trans (bbPortOf_modBbPort_ne _ _ _ hj),
      fun hsame => ?_, raised_bbLink_of_fall, flt_bbLink_of_up⟩
    rw [bbLink_of_no_change hsame]
    rfl
  · rw [exec_streamGateClosed_of_hubUp f p hub]
    exact ⟨_, rfl, (bbPortOf_congr (raiseFault_net ..) p.val).trans (bbPortOf_modBbPort ..), raised_of_eq _ _ _ _ s _ rfl rfl rfl,
      streamGate_frame ..⟩
  · rw [exec_latentErrorDetection_of_hubUp k hub]
    exact ⟨_, rfl, raised_raiseFault .., raiseFault_frame ..⟩

end Sys2Proof.Proofs
end

section
/-! Commands of a unit's page (spec/02 R50 to R52, Table 2-4; spec/14 R482), the preparation limit (spec/02 R49) and the idle handshakes
(spec/02 R71; spec/18 R613). -/
namespace Sys2Proof.Proofs
open Sys2Proof Sys2Proof.Machine

/-! ### Page commands -/

/-- The unit command `i` writes `code` and AT to COMMAND of page `u`. -/
def WritesCommand (i : Instr) (code : Nat) (u : BitVec 12) (at_ : Bool) : Prop :=
  i = .prepare u at_ ∧ code = 1 ∨ i = .start u at_ ∧ code = 2 ∨ i = .hold u at_ ∧ code = 3 ∨ i = .resume u at_ ∧ code = 4 ∨
    i = .stop u at_ ∧ code = 5 ∨ i = .quickstop u at_ ∧ code = 6 ∨ i = .clear u at_ ∧ code = 7 ∨ i = .reset u at_ ∧ code = 8

section
variable {i : Instr} {code : Nat} {u : BitVec 12} {at_ : Bool}

theorem WritesCommand.code_pos (h : WritesCommand i code u at_) : 0 < code := by unfold WritesCommand at h; omega

theorem WritesCommand.code_le (h : WritesCommand i code u at_) : code ≤ 8 := by unfold WritesCommand at h; omega

theorem exec_of_writesCommand (h : WritesCommand i code u at_) {s : State} (hup : deviceUp s = true) :
    exec i s = .next (pageCommand u.toNat code at_ s) := by
  rcases h with ⟨rfl, rfl⟩ | ⟨rfl, rfl⟩ | ⟨rfl, rfl⟩ | ⟨rfl, rfl⟩ | ⟨rfl, rfl⟩ | ⟨rfl, rfl⟩ |
    ⟨rfl, rfl⟩ | ⟨rfl, rfl⟩
  all_goals exact congrArg Host.Outcome.next (if_pos hup)

end

/-- The frame that a page command asks for. -/
def wantedFrame (u : Nat) (at_ : Bool) (s : State) : Nat := if at_ then rw64 s (baseUNIT + 0x100 * u + 0x10) else cmdOpen s u

/-- The page of a unit once it has taken command `code` for frame `want` at the earliest. -/
def takenPage (u code want : Nat) (s : State) (x : UnitSt) : UnitSt :=
  { x with
    page := some { code, target := max want (cmdOpen s u), late := decide (want < cmdOpen s u) }
    seq := (x.seq + 1) % 65536, result := 1, cmdFrame := max want (cmdOpen s u) }

theorem pageCommand_infra {u : Nat} (code : Nat) (at_ : Bool) (s : State) (h : isInfra u = true) :
    pageCommand u code at_ s = raiseState u code s :=
  if_pos h

theorem not_isInfra_of_not_unitExists {u : Nat} {s : State} (h : unitExists s u = false) : isInfra u = false := by
  simp_all [unitExists]

theorem pageCommand_no_unit {u : Nat} (code : Nat) (at_ : Bool) {s : State} (h : unitExists s u = false) :
    pageCommand u code at_ s = s := by
  simp [pageCommand, not_isInfra_of_not_unitExists h, h]

section
variable {u code : Nat} (at_ : Bool) {s : State} (hpos : 0 < code) (hle : code ≤ 8) (hinfra : isInfra u = false)
  (hex : unitExists s u = true)
include hpos hle hinfra hex

theorem pageCommand_busy (hpage : (unitOf s u).page.isSome = true) : pageCommand u code at_ s = pageResult u 4 s := by
  simp [pageCommand, hinfra, hex, hpage, Nat.pos_iff_ne_zero.1 hpos, Nat.not_lt.2 hle]

section
variable (hpage : (unitOf s u).page = none)
include hpage

theorem pageCommand_worker (hspan : herdSpan s u = true) (hmgr : s.rst.herdMgr = false) :
    pageCommand u code at_ s = raiseFault qHRD u 0x9C code (pageResult u 6 s) := by
  simp [pageCommand, hinfra, hex, hpage, hspan, hmgr, Nat.pos_iff_ne_zero.1 hpos, Nat.not_lt.2 hle]

section
variable (hherd : herdSpan s u = false ∨ s.rst.herdMgr = true)
include hherd

/-- A command that its page can take: refused where its frame is too far; else pending on the page and counted in the ledger, and of a
spanning beam relayed to the herd (R50, R51, R482). -/
theorem pageCommand_open :
    pageCommand u code at_ s =
      if farLimit s < wantedFrame u at_ s then pageResult u 5 s
      else doIf (herdSpan s u) (emit (.herdRelay u code (max (wantedFrame u at_ s) (cmdOpen s u))))
        (modUnit u (takenPage u code (wantedFrame u at_ s) s) (ledProduce 0 1 s)) := by
  have hnot : (herdSpan s u && !s.rst.herdMgr) = false := by rcases hherd with h | h <;> simp [h]
  have hspan : ∀ f, herdSpan (modUnit u f (ledProduce 0 1 s)) u = herdSpan s u := fun _ => rfl
  simp only [pageCommand, hinfra, hex, hpage, hnot, Nat.pos_iff_ne_zero.1 hpos, Nat.not_lt.2 hle, Bool.not_true, Bool.false_eq_true,
    or_self, if_false, Option.isSome_none, hspan]
  cases herdSpan s u
  · rfl
  · rfl

end
end
end

/-! ### The command table -/

/-- A code beyond Table 2-4 leads nowhere. -/
theorem cmdNext_of_code_gt (st : UState) {code : Nat} (h : 8 < code) : cmdNext st code = none := by
  obtain ⟨k, rfl⟩ := Nat.exists_eq_add_of_lt h
  rw [show 8 + k + 1 = k + 9 by omega]
  cases st <;> rfl

/-- What holds of the defined codes, and of no command, holds of every code. -/
theorem cmdNext_codes {P : Nat → Option UState → Prop} (st : UState) (hdef : ∀ code < 9, P code (cmdNext st code))
    (hnone : ∀ code, 8 < code → P code none) (code : Nat) : P code (cmdNext st code) := by
  by_cases h : 8 < code
  · exact cmdNext_of_code_gt st h ▸ hnone code h
  · exact hdef code (by omega)

/-- No command leads to READY or FAULTED. -/
theorem cmdNext_target (st : UState) (code : Nat) : cmdNext st code ≠ some .ready ∧ cmdNext st code ≠ some .faulted := by
  refine cmdNext_codes (P := fun _ r => r ≠ some .ready ∧ r ≠ some .faulted) st ?_ (by simp) code
  cases st <;> decide

theorem cmdNext_faulted (code : Nat) : (cmdNext .faulted code).isSome = true ↔ code = 7 ∨ code = 8 := by
  refine cmdNext_codes (P := fun c r => r.isSome = true ↔ c = 7 ∨ c = 8) .faulted (by decide) (fun c hc => ?_) code
  simp only [Option.isSome_none, Bool.false_eq_true, false_iff]
  omega

theorem cmdNext_reset (st : UState) : cmdNext st 8 = some .dormant := by
  cases st <;> rfl

theorem cmdNext_active (st : UState) (code : Nat) :
    cmdNext st code = some .active ↔ (st = .ready ∧ code = 2) ∨ (st = .holding ∧ code = 4) := by
  refine cmdNext_codes (P := fun c r => r = some .active ↔ (st = .ready ∧ c = 2) ∨ (st = .holding ∧ c = 4)) st ?_
    (fun c hc => ?_) code
  · cases st <;> decide
  · simp only [reduceCtorEq, false_iff]
    omega

theorem cmdNext_prepare (st : UState) : (cmdNext st 1).isSome = true ↔ st = .dormant := by
  cases st <;> decide

/-! ### The statement on commands -/

/-- A command taken changes its unit's page, the ledger and the outbox, no more. -/
theorem taken_frame (b : Bool) (o : Output) (u : Nat) (f : UnitSt → UnitSt) (s : State) :
    { doIf b (emit o) (modUnit u f (ledProduce 0 1 s)) with units := s.units, fm := s.fm, outbox := s.outbox } = s := by
  cases b <;> rfl

theorem taken_outbox (b : Bool) (o : Output) (u : Nat) (f : UnitSt → UnitSt) (s : State) :
    (doIf b (emit o) (modUnit u f (ledProduce 0 1 s))).outbox = s.outbox ++ (if b = true then [o] else []) := by
  cases b
  · exact (List.append_nil _).symm
  · rfl

theorem taken_units (b : Bool) (o : Output) (u : Nat) (f : UnitSt → UnitSt) (s : State) :
    (doIf b (emit o) (modUnit u f (ledProduce 0 1 s))).units = (modUnit u f s).units := by
  cases b <;> rfl

theorem unitOf_congr {s t : State} (h : t.units = s.units) (u : Nat) : unitOf t u = unitOf s u := by
  unfold unitOf
  rw [h]

/-- Settles O34: the branches of `pageCommand` by the lemmas above, Table 2-4 by its states and codes. -/
theorem unitCommands : Obligations.UnitCommands := by
  refine ⟨fun i code u at_ s hup hcmd => ?_, cmdNext_target, cmdNext_faulted, cmdNext_reset, cmdNext_active, cmdNext_prepare⟩
  have hpos := WritesCommand.code_pos hcmd
  have hle := WritesCommand.code_le hcmd
  rw [exec_of_writesCommand hcmd hup]
  refine ⟨fun hinfra => ?_, fun hex => ?_, fun hinfra hex hspan hmgr hpage => ?_, fun op want hinfra hex hop hwant => ?_⟩
  · rw [pageCommand_infra code at_ s hinfra, raiseState, Nat.mod_eq_of_lt (by omega)]
    exact ⟨_, rfl, raised_raiseFault .., raiseFault_frame ..⟩
  · rw [pageCommand_no_unit code at_ hex]
  · rw [pageCommand_worker at_ hpos hle hinfra hex hpage hspan hmgr]
    exact ⟨_, rfl, (unitOf_congr (raiseFault_units ..) _).trans (unitOf_modUnit ..), raised_of_eq _ _ _ _ s _ rfl rfl rfl,
      congrArg (fun t : State => { t with units := s.units }) (raiseFault_frame qHRD u.toNat 0x9C code (pageResult u.toNat 6 s))⟩
  · obtain rfl : op = cmdOpen s u.toNat := hop
    obtain rfl : want = wantedFrame u.toNat at_ s := hwant
    refine ⟨fun hherd hpage hfar => ?_, fun hpage => ?_, fun hherd hpage hfar => ?_⟩
    · rw [pageCommand_open at_ hpos hle hinfra hex hpage hherd, if_neg (Nat.not_lt.2 hfar)]
      have hunits := unitOf_congr (taken_units (herdSpan s u.toNat) (.herdRelay u.toNat code
        (max (wantedFrame u.toNat at_ s) (cmdOpen s u.toNat))) u.toNat (takenPage u.toNat code (wantedFrame u.toNat at_ s) s) s)
      exact ⟨_, rfl, (hunits _).trans (unitOf_modUnit ..), taken_outbox .., fun w hw => (hunits w).trans (unitOf_modUnit_ne _ _ _ hw),
        taken_frame ..⟩
    · rw [pageCommand_busy at_ hpos hle hinfra hex hpage]
      exact ⟨_, rfl, unitOf_modUnit .., rfl⟩
    · rw [pageCommand_open at_ hpos hle hinfra hex hpage hherd, if_pos hfar]
      exact ⟨_, rfl, unitOf_modUnit .., rfl⟩

/-! ### The preparation limit -/

theorem prepareExpire_of_last {u : Nat} {s : State} (hst : stOf s u = .preparing) (hdone : (unitOf s u).prepDone = false)
    (hdue : (unitOf s u).faultDue = false) (hleft : (unitOf s u).prepLeft = some 1) :
    prepareExpire u s = raiseFault qUNIT u 0x1B 0 (modUnit u (fun x => { x with faultDue := true }) s) := by
  have hst' : (unitOf s u).st = .preparing := hst
  simp [prepareExpire, hst', hdone, hdue, hleft]

theorem prepareExpire_of_not_preparing {u : Nat} {s : State} (h : stOf s u ≠ .preparing ∨ (unitOf s u).prepDone = true) :
    prepareExpire u s = s := by
  refine if_neg ?_
  rcases h with hst | hdone
  · have hst' : (unitOf s u).st ≠ .preparing := hst
    simp [hst']
  · simp [hdone]

/-! ### The idle handshakes -/

/-- What a handshake waits for once tine `u` is idle. -/
def withoutTine (u : Nat) (r : IdleRun) : IdleRun := { r with waiting := r.waiting.filter (· != u) }

theorem mem_idle_tineIdle {u : Nat} {s : State} {r : IdleRun} :
    r ∈ (tineIdle u s).rst.idle ↔ (∃ r' ∈ s.rst.idle, withoutTine u r' = r) ∧ r.waiting ≠ [] := by
  simp [tineIdle, withoutTine]

theorem withoutTine_of_not_mem {u : Nat} {r : IdleRun} (h : u ∉ r.waiting) : withoutTine u r = r := by
  have hkeep : r.waiting.filter (· != u) = r.waiting :=
    List.filter_eq_self.2 fun v hv => bne_iff_ne.2 fun huv => h (huv ▸ hv)
  unfold withoutTine
  rw [hkeep]

/-- Tine `u` has not reported idle in time: kind 0x02, FAULTED at the next boundary (R613). -/
def tineTimedOut (u : Nat) (s : State) : State :=
  raiseFault qRST u 0x02 (idleTo s) (modUnit u (fun x => { x with faultDue := true }) s)

theorem idleTimeout_of_no_run {s : State} (h : s.rst.idle = []) : idleTimeout s = s := by
  unfold idleTimeout
  rw [h]

theorem idleTimeout_of_run {r : IdleRun} {rest : List IdleRun} {s : State} (h : s.rst.idle = r :: rest) :
    idleTimeout s = doFor r.waiting tineTimedOut { s with rst := { s.rst with idle := rest } } := by
  unfold idleTimeout
  rw [h]
  rfl

@[simp] theorem tineTimedOut_rst (u : Nat) (s : State) : (tineTimedOut u s).rst = s.rst := raiseFault_rst ..

theorem unitOf_tineTimedOut (u : Nat) (s : State) : unitOf (tineTimedOut u s) u = { unitOf s u with faultDue := true } :=
  (unitOf_congr (raiseFault_units ..) u).trans (unitOf_modUnit ..)

theorem unitOf_tineTimedOut_ne {u v : Nat} (s : State) (h : v ≠ u) : unitOf (tineTimedOut u s) v = unitOf s v :=
  (unitOf_congr (raiseFault_units ..) v).trans (unitOf_modUnit_ne _ _ _ h)

/-- Of the tines timed out each has a fault due, and only those. -/
theorem unitOf_doFor_tineTimedOut (l : List Nat) (s : State) (v : Nat) :
    unitOf (doFor l tineTimedOut s) v = if v ∈ l then { unitOf s v with faultDue := true } else unitOf s v := by
  induction l generalizing s with
  | nil => simp
  | cons u l ih =>
    rw [doFor_cons, ih]
    by_cases hv : v = u
    · subst hv
      simp [unitOf_tineTimedOut]
    · simp [unitOf_tineTimedOut_ne s hv, hv]

/-- Settles O35: the limit by the two cases of `prepareExpire`, the handshakes by what `tineIdle` leaves and `tineTimedOut` of each tine. -/
theorem preparationAndIdle : Obligations.PreparationAndIdle := by
  refine ⟨fun u s => ⟨fun hst hdone hdue hleft => ?_, fun h => ?_⟩, fun u s => ⟨tineIdle u.toNat s, rfl, fun r hr => ?_,
    fun r hr hu hne => ?_, rfl⟩, fun r rest s hidle => ?_, fun s hidle => congrArg Host.Outcome.next (idleTimeout_of_no_run hidle)⟩
  · refine ⟨_, congrArg Host.Outcome.next (prepareExpire_of_last hst hdone hdue hleft), ?_, fun w hw => ?_,
      raised_of_eq _ _ _ _ s _ rfl rfl rfl,
      congrArg (fun t : State => { t with units := s.units }) (raiseFault_frame qUNIT u.toNat 0x1B 0 _)⟩
    · exact (unitOf_congr (raiseFault_units ..) _).trans (unitOf_modUnit ..)
    · exact (unitOf_congr (raiseFault_units ..) _).trans (unitOf_modUnit_ne _ _ _ hw)
  · exact congrArg Host.Outcome.next (prepareExpire_of_not_preparing h)
  · obtain ⟨⟨r', -, rfl⟩, hne⟩ := mem_idle_tineIdle.1 hr
    exact ⟨by simp [withoutTine], hne⟩
  · exact mem_idle_tineIdle.2 ⟨⟨r, hr, withoutTine_of_not_mem hu⟩, hne⟩
  · have hunit := unitOf_doFor_tineTimedOut r.waiting { s with rst := { s.rst with idle := rest } }
    refine ⟨_, congrArg Host.Outcome.next (idleTimeout_of_run hidle), ?_, fun u hu => ?_, fun u hu => ?_, fun u hu => ?_⟩
    · exact congrArg RstSt.idle (doFor_keeps State.rst _ tineTimedOut_rst _ _)
    · rw [hunit, if_pos hu]
    · rw [hunit, if_neg hu]
      rfl
    · rw [hu]
      exact raised_of_eq _ _ _ _ s _ rfl rfl rfl

end Sys2Proof.Proofs
end

section
/-! The requests of the configuration slots (spec/02 R59 to R62, R68), the failures of an image's checks (spec/02 Table 2-14) and the end
of a velvet (spec/02 R63; spec/15 R510). -/
namespace Sys2Proof.Proofs
open Sys2Proof Sys2Proof.Machine

/-! ### The checks of an image -/

/-- A check that reports a failure does not report the code of an image STAGED. -/
def ReportsFailure (x : Option ImgErr) : Prop := ∀ e, x = some e → e.code ≠ 1

theorem reportsFailure_none : ReportsFailure none := fun _ h => nomatch h

theorem reportsFailure_firstErr {l : List (Option ImgErr)} (h : ∀ x ∈ l, ReportsFailure x) : ReportsFailure (firstErr l) := by
  induction l with
  | nil => exact reportsFailure_none
  | cons x l ih =>
    obtain ⟨hx, hl⟩ := List.forall_mem_cons.1 h
    cases x with
    | none => exact ih hl
    | some e => exact hx

theorem reportsFailure_failIf (c : Bool) {code : Nat} (kind place : Nat) (h : code ≠ 1) : ReportsFailure (failIf c code kind place) := by
  unfold failIf
  split
  · rintro e ⟨⟩
    exact h
  · exact reportsFailure_none

theorem reportsFailure_err1 (c : Bool) (place : Nat) : ReportsFailure (err1 c place) := reportsFailure_failIf _ _ _ (by decide)
theorem reportsFailure_err5 (c : Bool) (place : Nat) : ReportsFailure (err5 c place) := reportsFailure_failIf _ _ _ (by decide)
theorem reportsFailure_err6 (c : Bool) (place : Nat) : ReportsFailure (err6 c place) := reportsFailure_failIf _ _ _ (by decide)
theorem reportsFailure_err7 (c : Bool) (place : Nat) : ReportsFailure (err7 c place) := reportsFailure_failIf _ _ _ (by decide)

theorem reportsFailure_err2 (c : Bool) (step place : Nat) : ReportsFailure (err2 c step place) := by
  unfold err2
  split
  · rintro e ⟨⟩
    exact (by decide : 3 ≠ 1)
  · exact reportsFailure_none

theorem reportsFailure_checkFormat (b : List Byte) (len : Nat) : ReportsFailure (checkFormat b len) := by
  refine reportsFailure_firstErr ?_
  simp only [List.forall_mem_append, List.forall_mem_cons, List.forall_mem_map, List.not_mem_nil, false_imp_iff,
    reportsFailure_err1, implies_true, and_self]

theorem reportsFailure_checkAuth (s : State) (b : List Byte) : ReportsFailure (checkAuth s b) := by
  refine reportsFailure_firstErr ?_
  simp only [List.forall_mem_cons, List.not_mem_nil, false_imp_iff, reportsFailure_err2, implies_true, and_self]

theorem reportsFailure_checkPart (s : State) (b : List Byte) : ReportsFailure (checkPart s b) := by
  refine reportsFailure_firstErr ?_
  simp only [List.forall_mem_cons, List.not_mem_nil, false_imp_iff, reportsFailure_failIf _ _ _ (show 4 ≠ 1 by decide),
    reportsFailure_failIf _ _ _ (show 5 ≠ 1 by decide), implies_true, and_self]

theorem reportsFailure_checkStructure (b : List Byte) (i : Image) : ReportsFailure (checkStructure b i) := by
  refine reportsFailure_firstErr ?_
  simp only [List.forall_mem_append, List.forall_mem_cons, List.forall_mem_map, List.not_mem_nil, false_imp_iff,
    reportsFailure_err5, implies_true, and_self]

theorem reportsFailure_checkWiring (i : Image) : ReportsFailure (checkWiring i) := by
  refine reportsFailure_firstErr ?_
  simp only [List.forall_mem_append, List.forall_mem_cons, List.forall_mem_map, List.not_mem_nil, false_imp_iff, List.forall_mem_flatten,
    reportsFailure_err6, implies_true, and_true, true_and]
  refine ⟨fun e _ => ?_, ?_⟩
  · split
    · exact reportsFailure_err6 _ _
    · exact reportsFailure_none
  · split
    · exact reportsFailure_err6 _ _
    · exact reportsFailure_none

theorem reportsFailure_checkEngine (i : Image) (e : Nat) : ReportsFailure (checkEngine i e) :=
  reportsFailure_err7 _ _

theorem reportsFailure_checkSchedule (i : Image) : ReportsFailure (checkSchedule i) := by
  refine reportsFailure_firstErr ?_
  simp only [List.forall_mem_append, List.forall_mem_cons, List.forall_mem_map, List.not_mem_nil, false_imp_iff, reportsFailure_err7,
    reportsFailure_checkEngine, implies_true, and_self]

/-- An image that fails a check has another code than DONE. -/
theorem code_of_checkImage_error {s : State} {b : List Byte} {len : Nat} {e : ImgErr} (h : checkImage s b len = .error e) :
    e.code ≠ 1 := by
  unfold checkImage at h
  split at h
  next hfail =>
    cases h
    exact reportsFailure_checkFormat b len _ hfail
  · split at h
    next hfail =>
      cases h
      exact reportsFailure_checkAuth s b _ hfail
    · dsimp only at h
      split at h
      next hfail =>
        cases h
        refine reportsFailure_firstErr ?_ _ hfail
        simp only [List.forall_mem_cons, List.not_mem_nil, false_imp_iff, reportsFailure_checkPart, reportsFailure_checkStructure,
          reportsFailure_checkWiring, reportsFailure_checkSchedule, implies_true, and_self]
      · cases h

/-! ### Results of the slot mailbox -/

/-- The slots once a request has completed with `code`. -/
def completed (code : Nat) (detail : Option Nat) (x : SlotSt) : SlotSt :=
  { x with seq := (x.seq + 1) % 65536, fresh := true, code := code, detail := detail.getD x.detail }

section
variable (code : Nat) (detail : Option Nat) (s : State)

@[simp] theorem slotResult_slots : (slotResult code detail s).slots = completed code detail s.slots := intSource_slots ..

@[simp] theorem slotAtOnce_slots : (slotAtOnce code detail s).slots = completed code detail s.slots := slotResult_slots ..

theorem queueOf_slotAtOnce (q : Nat) : queueOf (slotAtOnce code detail s) q = queueOf s q := queueOf_intSource ..

end

theorem slotBusy_eq_false_iff {s : State} : slotBusy s = false ↔ s.slots.pend = none ∧ s.slots.stageRun = none := by
  simp [slotBusy]

/-- A request that completes as it arrives shows its code, and none waits after it. -/
theorem endsAtOnce (code : Nat) (detail : Option Nat) {s : State} (hidle : slotBusy s = false) :
    ∃ t, (Host.Outcome.next (slotAtOnce code detail s) : Host.Outcome State Fault Refusal) = .next t ∧ t.slots.code = code ∧
      t.slots.pend = none := by
  refine ⟨_, rfl, ?_⟩
  rw [slotAtOnce_slots]
  exact ⟨rfl, (slotBusy_eq_false_iff.1 hidle).1⟩

/-! ### STAGE -/

theorem exec_stage_of_deviceUp {s : State} (hup : deviceUp s = true) : exec .stage s = .next (stageStart s) :=
  congrArg Host.Outcome.next (if_pos hup)

theorem exec_stageComplete_of_deviceUp {s : State} (hup : deviceUp s = true) : exec .stageComplete s = .next (stageComplete s) :=
  congrArg Host.Outcome.next (if_pos hup)

theorem stageStart_busy {s : State} (hbusy : slotBusy s = true) : stageStart s = slotIgnored 1 s := if_pos hbusy

/-- The source of a STAGE as R59 asks for it: in SCRATCH, aligned, of a length that an image can have. -/
def stageable (off len : Nat) (s : State) : Bool := off % 4096 == 0 && len != 0 && decide (len ≤ 0x400000) && inScratch s off len

theorem stageable_iff {off len : Nat} {s : State} :
    stageable off len s = true ↔ off % 4096 = 0 ∧ len ≠ 0 ∧ len ≤ 0x400000 ∧ inScratch s off len = true := by
  simp [stageable, and_assoc]

theorem stageable_eq_false_iff {off len : Nat} {s : State} :
    stageable off len s = false ↔ off % 4096 ≠ 0 ∨ len = 0 ∨ 0x400000 < len ∨ inScratch s off len = false := by
  rw [← Bool.not_eq_true, stageable_iff]
  simp only [not_and_or, not_not, not_le, Bool.not_eq_true, ne_eq]

section
variable {off len : Nat} {s : State}

theorem stageStart_idle (hidle : slotBusy s = false) (hoff : off = (rwOf s (baseCFG + 0x34)).toNat)
    (hlen : len = (rwOf s (baseCFG + 0x38)).toNat) :
    stageStart s =
      if stageable off len s = false then slotAtOnce 0xE (some 0) (raiseFault qSEC 0x610 0x10 0 s)
      else ledProduce 0 1 { s with slots := { s.slots with stageRun := some (off, len) } } := by
  subst hoff hlen
  simp only [stageStart, hidle, stageable_eq_false_iff, Bool.false_eq_true, if_false]

theorem stageComplete_of_no_run (h : s.slots.stageRun = none) : stageComplete s = s := by
  unfold stageComplete
  rw [h]

/-- A STAGE ends with the code of a failed check and the slot as it was, or with DONE and the image that SCRATCH holds. -/
theorem stageComplete_cases (h : s.slots.stageRun = some (off, len)) :
    (∃ e : ImgErr, e.code ≠ 1 ∧ (stageComplete s).slots = completed e.code (some e.slotDetail) { s.slots with stageRun := none }) ∨
    ∃ hashes, (stageComplete s).slots =
      completed 1 (some 0) { s.slots with stageRun := none, staged := some (memBytes s off len), hashes := hashes } := by
  unfold stageComplete
  rw [h]
  dsimp only
  split
  next e hfail =>
    exact .inl ⟨e, code_of_checkImage_error hfail, by rw [slotResult_slots, raiseFault_slots]; rfl⟩
  next i hpass => exact .inr ⟨_, slotResult_slots ..⟩

end

/-! ### DISCARD_STAGED, SWITCH and REVERT -/

theorem exec_discardStaged_of_deviceUp {s : State} (hup : deviceUp s = true) : exec .discardStaged s = .next (discardStaged s) :=
  congrArg Host.Outcome.next (if_pos hup)

theorem discardStaged_busy {s : State} (hbusy : slotBusy s = true) : discardStaged s = slotIgnored 3 s := if_pos hbusy

theorem discardStaged_idle {s : State} (hidle : slotBusy s = false) :
    discardStaged s = slotAtOnce 1 none { s with slots := { s.slots with staged := none } } :=
  if_neg (by simp [hidle])

theorem exec_switch_of_deviceUp (nx : Bool) {s : State} (hup : deviceUp s = true) : exec (.switch nx) s = .next (slotSwitch false nx s) :=
  congrArg Host.Outcome.next (if_pos hup)

theorem exec_revert_of_deviceUp (nx : Bool) {s : State} (hup : deviceUp s = true) : exec (.revert nx) s = .next (slotSwitch true nx s) :=
  congrArg Host.Outcome.next (if_pos hup)

theorem slotSwitch_busy (revert nx : Bool) {s : State} (hbusy : slotBusy s = true) :
    slotSwitch revert nx s = slotIgnored (if revert then 4 else 2) s :=
  if_pos hbusy

/-- The slot that SWITCH, or REVERT, puts in force. -/
def switchSource (revert : Bool) (s : State) : Option (List Byte) := if revert then s.slots.previous else s.slots.staged

/-- The frame that a SWITCH or REVERT asks for. -/
def switchFrame (nx : Bool) (s : State) : Nat := if nx = true then s.time.openFrame else rw64 s (baseCFG + 0x3C)

/-- The slots with a SWITCH or REVERT that waits for `want`, or for the first open frame where that is later. -/
def awaiting (revert : Bool) (want : Nat) (s : State) : SlotSt :=
  { s.slots with
    pend := some { revert := revert, target := max want s.time.openFrame }
    switchFrame := max want s.time.openFrame }

section
variable (nx : Bool) {s : State} (hidle : slotBusy s = false)
include hidle

theorem slotSwitch_in_velvet (hvelvet : s.slots.velvet.isSome = true) : slotSwitch false nx s = slotAtOnce 0xB none s := by
  simp [slotSwitch, hidle, hvelvet]

section
variable {revert : Bool} (hvelvet : revert = true ∨ s.slots.velvet = none)
include hvelvet

theorem slotSwitch_without_source (hsrc : switchSource revert s = none) : slotSwitch revert nx s = slotAtOnce 9 none s := by
  have hnot : (!revert && s.slots.velvet.isSome) = false := by rcases hvelvet with h | h <;> simp [h]
  unfold switchSource at hsrc
  simp only [slotSwitch, hidle, hnot, hsrc, Bool.false_eq_true, if_false, Option.isNone_none, if_true]

theorem slotSwitch_with_source (hsrc : (switchSource revert s).isSome = true) :
    slotSwitch revert nx s =
      if farLimit s < switchFrame nx s then slotAtOnce 0xC none s
      else ledProduce 0 1 { s with slots := awaiting revert (switchFrame nx s) s } := by
  have hnot : (!revert && s.slots.velvet.isSome) = false := by rcases hvelvet with h | h <;> simp [h]
  have hsome : (switchSource revert s).isNone = false := by simpa using hsrc
  unfold switchSource at hsome
  simp only [slotSwitch, hidle, hnot, hsome, Bool.false_eq_true, if_false]
  rfl

end
end

/-! ### The end of a velvet -/

theorem exec_velvetEnd_of_deviceUp {s : State} (hup : deviceUp s = true) : exec .velvetEnd s = .next (velvetEnd (frameN s) s) :=
  congrArg Host.Outcome.next (if_pos hup)

theorem floorApply_of_none {s : State} (h : s.sec.floorPending = none) : floorApply s = s := by
  unfold floorApply
  rw [h]

theorem floorApply_of_some {s : State} {f : Nat} (h : s.sec.floorPending = some f) :
    floorApply s = raiseFault qSEC 0x615 0xA4 f (setFloor (max s.sec.floor f) { s with sec := { s.sec with floorPending := none } }) := by
  unfold floorApply
  rw [h]

@[simp] theorem floorApply_slots (s : State) : (floorApply s).slots = s.slots := by
  unfold floorApply
  split
  · rfl
  · exact raiseFault_slots ..

/-- No velvet is in progress any more. -/
def velvetOver (s : State) : State := { s with slots := { s.slots with velvet := none } }

theorem velvetEnd_of_no_velvet {n : Nat} {s : State} (h : s.slots.velvet = none) : velvetEnd n s = s := by
  unfold velvetEnd
  rw [h]

section
variable {n v : Nat} {s : State} (hvelvet : s.slots.velvet = some v)
include hvelvet

theorem velvetEnd_passed (hpast : v + velvetFrames s ≤ n) (hclean : s.slots.velvetFault = false) :
    velvetEnd n s = floorApply (velvetOver s) := by
  unfold velvetEnd
  rw [hvelvet]
  exact if_pos ⟨hpast, hclean⟩

theorem velvetEnd_running (h : n < v + velvetFrames s ∨ s.slots.velvetFault = true) : velvetEnd n s = s := by
  unfold velvetEnd
  rw [hvelvet]
  refine if_neg fun ⟨hpast, hclean⟩ => ?_
  rcases h with h | h
  · omega
  · simp [hclean] at h

end

/-! ### The statement on slot requests -/

/-- Settles O38: each clause is the branch of the request that it names; how a STAGE ends is `stageComplete_cases`. -/
theorem slotRequests : Obligations.SlotRequests := by
  refine ⟨⟨fun s hup hbusy => ⟨?_, fun nx => ?_, ?_, fun nx => ?_⟩, fun off len s hup hidle hoff hlen => ⟨?_, fun hbad => ?_⟩,
    fun off len s hup hrun => ?_, fun s hup hidle => ?_, fun nx want s hup hidle hwant hfar => ⟨fun hsrc hvelvet => ?_, fun hsrc => ?_⟩,
    fun nx s hup hidle => ⟨fun hsrc hvelvet => ?_, fun hvelvet => ?_, fun hfar hsrc hvelvet => ?_, fun hfar hsrc => ?_, fun hsrc => ?_⟩,
    fun s hrun => ?_⟩, fun v s hup hvelvet => ⟨fun hpast hclean => ?_, fun h => ?_⟩⟩
  · exact ⟨_, (exec_stage_of_deviceUp hup).trans (congrArg _ (stageStart_busy hbusy)), raiseFault_slots .., raised_raiseFault ..⟩
  · exact ⟨_, (exec_switch_of_deviceUp nx hup).trans (congrArg _ (slotSwitch_busy false nx hbusy)), raiseFault_slots ..,
      raised_raiseFault ..⟩
  · exact ⟨_, (exec_discardStaged_of_deviceUp hup).trans (congrArg _ (discardStaged_busy hbusy)), raiseFault_slots ..,
      raised_raiseFault ..⟩
  · exact ⟨_, (exec_revert_of_deviceUp nx hup).trans (congrArg _ (slotSwitch_busy true nx hbusy)), raiseFault_slots ..,
      raised_raiseFault ..⟩
  · intro hal hpos hmax hin
    rw [exec_stage_of_deviceUp hup, stageStart_idle hidle hoff hlen, if_neg (by simp [stageable_iff.2 ⟨hal, hpos, hmax, hin⟩])]
    exact ⟨_, rfl, rfl, rfl⟩
  · rw [exec_stage_of_deviceUp hup, stageStart_idle hidle hoff hlen, if_pos (stageable_eq_false_iff.2 hbad)]
    refine ⟨_, rfl, ?_⟩
    rw [slotAtOnce_slots, raiseFault_slots]
    exact ⟨rfl, rfl, rfl, rfl, rfl, raised_of_queue_eq (raised_raiseFault ..) (queueOf_slotAtOnce ..)⟩
  · refine ⟨_, exec_stageComplete_of_deviceUp hup, ?_⟩
    rcases stageComplete_cases hrun with ⟨e, hcode, h⟩ | ⟨hashes, h⟩
    · rw [h]
      exact ⟨rfl, rfl, rfl, rfl, fun hdone => absurd hdone hcode, fun _ => rfl⟩
    · rw [h]
      exact ⟨rfl, rfl, rfl, rfl, fun _ => rfl, fun hfail => absurd rfl hfail⟩
  · rw [exec_discardStaged_of_deviceUp hup, discardStaged_idle hidle]
    refine ⟨_, rfl, ?_⟩
    rw [slotAtOnce_slots]
    exact ⟨rfl, rfl, rfl, rfl, rfl⟩
  · obtain rfl : want = switchFrame nx s := hwant
    rw [exec_switch_of_deviceUp nx hup, slotSwitch_with_source (revert := false) nx hidle (.inr hvelvet) hsrc, if_neg (Nat.not_lt.2 hfar)]
    exact ⟨_, rfl, rfl, rfl⟩
  · obtain rfl : want = switchFrame nx s := hwant
    rw [exec_revert_of_deviceUp nx hup, slotSwitch_with_source (revert := true) nx hidle (.inl rfl) hsrc, if_neg (Nat.not_lt.2 hfar)]
    exact ⟨_, rfl, rfl, rfl⟩
  · rw [exec_switch_of_deviceUp nx hup, slotSwitch_without_source (revert := false) nx hidle (.inr hvelvet) hsrc]
    exact endsAtOnce 9 none hidle
  · rw [exec_switch_of_deviceUp nx hup, slotSwitch_in_velvet nx hidle hvelvet]
    exact endsAtOnce 0xB none hidle
  · replace hfar : farLimit s < switchFrame nx s := hfar
    rw [exec_switch_of_deviceUp nx hup, slotSwitch_with_source (revert := false) nx hidle (.inr hvelvet) hsrc, if_pos hfar]
    exact endsAtOnce 0xC none hidle
  · replace hfar : farLimit s < switchFrame nx s := hfar
    rw [exec_revert_of_deviceUp nx hup, slotSwitch_with_source (revert := true) nx hidle (.inl rfl) hsrc, if_pos hfar]
    exact endsAtOnce 0xC none hidle
  · rw [exec_revert_of_deviceUp nx hup, slotSwitch_without_source (revert := true) nx hidle (.inl rfl) hsrc]
    exact endsAtOnce 9 none hidle
  · refine congrArg Host.Outcome.next ?_
    rw [stageComplete_of_no_run hrun, ite_self]
  · rw [exec_velvetEnd_of_deviceUp hup, velvetEnd_passed hvelvet hpast hclean]
    refine ⟨_, rfl, floorApply_slots _, fun hnone => ?_, fun f hsome => ?_⟩
    · exact congrArg (fun t : State => { t with slots := s.slots }) (floorApply_of_none (s := velvetOver s) hnone)
    · rw [floorApply_of_some (s := velvetOver s) hsome]
      exact ⟨raiseFault_sec .., raised_of_eq _ _ _ _ s _ rfl rfl rfl⟩
  · rw [exec_velvetEnd_of_deviceUp hup, velvetEnd_running hvelvet h]

end Sys2Proof.Proofs
end

section
/-! What FRAME_BOUNDARY leaves of the configuration slots (spec/01 Table 1-7): every operation of a boundary but those of step 1 that
answer a slot request keeps the slots, the keys that images are checked with and the device's place in the herd. One lemma for each; where
it holds by computation its proof is `(rfl)`, in parentheses, so that simp takes it for a rewrite rule like the others. `stores.eq_1` computes `stores` of a state written out. -/
namespace Sys2Proof.Proofs
open Sys2Proof Sys2Proof.Machine

/-- What the device holds of images and of its place in the herd: the slots, the keys, its position. -/
def stores : State → SlotSt × List (Nat × Option SealedKey) × List (Nat × BitVec 384) × Option Nat
  | { slots, sec, hrd, .. } => (slots, sec.imgKeys, sec.hashes, hrd.position)

@[simp] theorem stores_fold (s : State) : (s.slots, s.sec.imgKeys, s.sec.hashes, s.hrd.position) = stores s := rfl

@[simp] theorem stores_ite (c : Prop) [Decidable c] (s t : State) : stores (if c then s else t) = if c then stores s else stores t :=
  apply_ite stores c s t

@[simp] theorem stores_ite_snd {α : Type} (c : Prop) [Decidable c] (r q : α × State) :
    stores (if c then r else q).2 = if c then stores r.2 else stores q.2 :=
  apply_ite (fun r : α × State => stores r.2) c r q

@[simp] theorem stores_doFor {α : Type} {f : α → State → State} (h : ∀ a s, stores (f a s) = stores s) (l : List α) (s : State) :
    stores (doFor l f s) = stores s :=
  doFor_keeps stores f h l s

@[simp] theorem stores_foldl_snd {α β : Type} {f : β × State → α → β × State}
    (h : ∀ r a, stores (f r a).2 = stores r.2) (l : List α) (r : β × State) : stores (l.foldl f r).2 = stores r.2 := by
  induction l generalizing r with
  | nil => rfl
  | cons a l ih => exact (ih (f r a)).trans (h r a)

/-! ### Tables, the ledger, faults and interrupts -/

@[simp] theorem stores_emit (o : Output) (s : State) : stores (emit o s) = stores s := (rfl)
@[simp] theorem stores_setInF (off : Nat) (v : Word) (s : State) : stores (setInF off v s) = stores s := (rfl)
@[simp] theorem stores_setShadow (off : Nat) (v : Word) (s : State) : stores (setShadow off v s) = stores s := (rfl)
@[simp] theorem stores_modUnit (u : Nat) (f : UnitSt → UnitSt) (s : State) : stores (modUnit u f s) = stores s := (rfl)
@[simp] theorem stores_modXg (g : Nat) (f : XgSt → XgSt) (s : State) : stores (modXg g f s) = stores s := (rfl)
@[simp] theorem stores_modRc (c : Nat) (f : RcSt → RcSt) (s : State) : stores (modRc c f s) = stores s := (rfl)
@[simp] theorem stores_modTone (g : Nat) (f : ToneSt → ToneSt) (s : State) : stores (modTone g f s) = stores s := (rfl)
@[simp] theorem stores_modAx (a : Nat) (f : AxSt → AxSt) (s : State) : stores (modAx a f s) = stores s := (rfl)
@[simp] theorem stores_modSe (e : Nat) (f : SeSt → SeSt) (s : State) : stores (modSe e f s) = stores s := (rfl)
@[simp] theorem stores_modTk (c : Nat) (f : TkSt → TkSt) (s : State) : stores (modTk c f s) = stores s := (rfl)
@[simp] theorem stores_modGl (j : Nat) (f : GlSt → GlSt) (s : State) : stores (modGl j f s) = stores s := (rfl)
@[simp] theorem stores_modIp (p : Nat) (f : IpSt → IpSt) (s : State) : stores (modIp p f s) = stores s := (rfl)
@[simp] theorem stores_modSw (k : Nat) (f : SwSt → SwSt) (s : State) : stores (modSw k f s) = stores s := (rfl)
@[simp] theorem stores_modEm (e : Nat) (f : EmSt → EmSt) (s : State) : stores (modEm e f s) = stores s := (rfl)
@[simp] theorem stores_modCmp (k : Nat) (f : CmpSt → CmpSt) (s : State) : stores (modCmp k f s) = stores s := (rfl)
@[simp] theorem stores_modTg (k : Nat) (f : TgSt → TgSt) (s : State) : stores (modTg k f s) = stores s := (rfl)
@[simp] theorem stores_modPg (g : Nat) (f : PgSt → PgSt) (s : State) : stores (modPg g f s) = stores s := (rfl)
@[simp] theorem stores_modTile (t : Nat) (f : TileSt → TileSt) (s : State) : stores (modTile t f s) = stores s := (rfl)
@[simp] theorem stores_modLed (k : Nat) (f : LedSt → LedSt) (s : State) : stores (modLed k f s) = stores s := (rfl)
@[simp] theorem stores_modFs (u : Nat) (f : FsSt → FsSt) (s : State) : stores (modFs u f s) = stores s := (rfl)
@[simp] theorem stores_modStream (k : Nat) (f : StreamSt → StreamSt) (s : State) : stores (modStream k f s) = stores s := (rfl)
@[simp] theorem stores_modDma (e : Nat) (f : DmaSt → DmaSt) (s : State) : stores (modDma e f s) = stores s := (rfl)
@[simp] theorem stores_modSession (p : Nat) (f : Session → Session) (s : State) : stores (modSession p f s) = stores s := (rfl)
@[simp] theorem stores_ledProduce (k n : Nat) (s : State) : stores (ledProduce k n s) = stores s := (rfl)
@[simp] theorem stores_ledConsume (k n : Nat) (s : State) : stores (ledConsume k n s) = stores s := (rfl)
@[simp] theorem stores_ledDrop (k n u : Nat) (s : State) : stores (ledDrop k n u s) = stores s := by
  unfold ledDrop
  simp

@[simp] theorem stores_queueMsg (q : Nat) (m : FaultMsg) (s : State) : stores (queueMsg q m s) = stores s := by
  unfold queueMsg
  simp [stores.eq_1]

@[simp] theorem stores_raiseFault (q u kind detail : Nat) (s : State) : stores (raiseFault q u kind detail s) = stores s := by
  unfold raiseFault
  simp

@[simp] theorem stores_setCond (q u kind sub : Nat) (b : Bool) (detail : Nat) (s : State) :
    stores (setCond q u kind sub b detail s) = stores s := by
  unfold setCond
  simp [stores.eq_1]

@[simp] theorem stores_clearCond (u kind sub : Nat) (s : State) : stores (clearCond u kind sub s) = stores s := (rfl)
@[simp] theorem stores_clearConds (u : Nat) (s : State) : stores (clearConds u s) = stores s := (rfl)
@[simp] theorem stores_sendVector (v : Nat) (s : State) : stores (sendVector v s) = stores s := by
  unfold sendVector
  simp [stores.eq_1]

@[simp] theorem stores_intSource (k : Nat) (s : State) : stores (intSource k s) = stores s := by
  unfold intSource
  simp

@[simp] theorem stores_setByte (a : Nat) (b : Byte) (s : State) : stores (setByte a b s) = stores s := (rfl)
@[simp] theorem stores_setBytes (a : Nat) (bs : List Byte) (s : State) : stores (setBytes a bs s) = stores s := by
  induction bs generalizing a s with
  | nil => rfl
  | cons b bs ih => exact (ih (a + 1) (setByte a b s)).trans (stores_setByte a b s)

/-! ### The twin link -/

@[simp] theorem stores_modTwn (f : TwnSt → TwnSt) (s : State) : stores (modTwn f s) = stores s := (rfl)
@[simp] theorem stores_twinSend (b : List Byte) (out : BitVec 128 → Output) (s : State) : stores (twinSend b out s) = stores s := by
  unfold twinSend
  simp

@[simp] theorem stores_sendTwin (m : TwinMsg) (s : State) : stores (sendTwin m s) = stores s := by
  unfold sendTwin
  simp

/-! ### Blocks under a reset -/

@[simp] theorem stores_showPins (trig : State → Nat → PinLevel) (s0 s : State) : stores (showPins trig s0 s) = stores s := by
  unfold showPins
  split <;> simp

@[simp] theorem stores_toneMail (code chan : Nat) (zs zc xt : Word) (s : State) :
    stores (toneMail code chan zs zc xt s) = stores s := by
  unfold toneMail
  simp [stores.eq_1]

@[simp] theorem stores_toneCode (code chan : Nat) (s : State) : stores (toneCode code chan s) = stores s := by
  unfold toneCode
  simp

@[simp] theorem stores_toneAbort (g : Nat) (s : State) : stores (toneAbort g s) = stores s := by
  unfold toneAbort
  split <;> simp

@[simp] theorem stores_toneRefuse (g : Nat) (p : ToneReq → Bool) (s : State) : stores (toneRefuse g p s) = stores s := by
  unfold toneRefuse
  simp

@[simp] theorem stores_toneDrop (g : Nat) (s : State) : stores (toneDrop g s) = stores s := by
  unfold toneDrop
  simp

@[simp] theorem stores_odometerSave (s : State) : stores (odometerSave s) = stores s := (rfl)

/-! ### Tiles -/

@[simp] theorem stores_openTile (t : Nat) (s : State) : stores (openTile t s) = stores s := (rfl)
@[simp] theorem stores_sealTile (t : Nat) (s : State) : stores (sealTile t s) = stores s := (rfl)
@[simp] theorem stores_tileFailed (consumer t : Nat) (s : State) : stores (tileFailed consumer t s) = stores s := by
  unfold tileFailed
  simp [stores.eq_1]

@[simp] theorem stores_checkTile (consumer t : Nat) (s : State) : stores (checkTile consumer t s).2 = stores s := by
  unfold checkTile
  simp

/-! ### Excitation -/

@[simp] theorem stores_groupPrepare (g : Nat) (s : State) : stores (groupPrepare g s) = stores s := (rfl)
@[simp] theorem stores_toBursts (g n : Nat) (s : State) : stores (toBursts g n s) = stores s := (rfl)
@[simp] theorem stores_toContinuous (g n : Nat) (s : State) : stores (toContinuous g n s) = stores s := (rfl)
@[simp] theorem stores_loopOff (g : Nat) (s : State) : stores (loopOff g s) = stores s := (rfl)
@[simp] theorem stores_groupReady (g n : Nat) (s : State) : stores (groupReady g n s) = stores s := by
  unfold groupReady
  simp

@[simp] theorem stores_groupOff (g : Nat) (s : State) : stores (groupOff g s) = stores s := (rfl)
@[simp] theorem stores_groupClear (g : Nat) (s : State) : stores (groupClear g s) = stores s := (rfl)
@[simp] theorem stores_setOwner (g : Nat) (own : Bool) (s : State) : stores (setOwner g own s) = stores s := by
  unfold setOwner
  simp

@[simp] theorem stores_xgCtrlChange (g n : Nat) (v : Word) (s : State) : stores (xgCtrlChange g n v s).2 = stores s := by
  unfold xgCtrlChange
  simp

@[simp] theorem stores_dutyFrame (t g : Nat) (s : State) : stores (dutyFrame t g s) = stores s := (rfl)

/-! ### Resolver inputs -/

@[simp] theorem stores_toneBoundary (n g : Nat) (s : State) : stores (toneBoundary n g s) = stores s := by
  unfold toneBoundary
  dsimp only
  (repeat' split) <;> simp

@[simp] theorem stores_setBiasSplit (b : Bool) (s : State) : stores (setBiasSplit b s) = stores s := by
  unfold setBiasSplit
  simp [stores.eq_1]

/-! ### Signal engines -/

@[simp] theorem stores_engineReload (e : Nat) (s : State) : stores (engineReload e s) = stores s := (rfl)
@[simp] theorem stores_firstoreBank (e : Nat) (s : State) : stores (firstoreBank e s).2 = stores s := by
  unfold firstoreBank
  split <;> simp

@[simp] theorem stores_enginePrepare (e : Nat) (s : State) : stores (enginePrepare e s) = stores s := by
  unfold enginePrepare
  dsimp only
  (repeat' split) <;> simp

@[simp] theorem stores_settleSwap (e half : Nat) (s : State) : stores (settleSwap e half s) = stores s := by
  unfold settleSwap
  dsimp only
  (repeat' split) <;> simp

@[simp] theorem stores_settleSwaps (e half : Nat) (s : State) : stores (settleSwaps e half s) = stores s := by
  unfold settleSwaps
  simp

@[simp] theorem stores_swapBoundary (e n : Nat) (b : Bool) (s : State) : stores (swapBoundary e n b s).2 = stores s := by
  unfold swapBoundary
  dsimp only
  (repeat' split) <;> simp

@[simp] theorem stores_latchXf (s0 s : State) : stores (latchXf s0 s) = stores s := by
  unfold latchXf
  simp

@[simp] theorem stores_engineStop (e : Nat) (s : State) : stores (engineStop e s) = stores s := by
  unfold engineStop
  simp

/-! ### Auxiliary front end -/

@[simp] theorem stores_auxPrepare (a : Nat) (s : State) : stores (auxPrepare a s) = stores s := (rfl)
@[simp] theorem stores_auxStop (a : Nat) (s : State) : stores (auxStop a s) = stores s := (rfl)
@[simp] theorem stores_auxLeave (a : Nat) (s : State) : stores (auxLeave a s) = stores s := (rfl)
@[simp] theorem stores_snapKeep (q u kind off : Nat) (mask : Word) (r : List (Nat × Word) × State) :
    stores (snapKeep q u kind off mask r).2 = stores r.2 := by
  unfold snapKeep
  simp

@[simp] theorem stores_auxSnapChan (a : Nat) (r : List (Nat × Word) × State) : stores (auxSnapChan a r).2 = stores r.2 := by
  unfold auxSnapChan
  simp

@[simp] theorem stores_auxSnapSlice (e : Nat) (r : List (Nat × Word) × State) : stores (auxSnapSlice e r).2 = stores r.2 := by
  unfold auxSnapSlice
  dsimp only
  (repeat' split) <;> simp

@[simp] theorem stores_auxSnap (r : List (Nat × Word) × State) : stores (auxSnap r).2 = stores r.2 := by
  unfold auxSnap
  simp

@[simp] theorem stores_auxCtrlApplied (a : Nat) (old : Word) (s : State) : stores (auxCtrlApplied a old s) = stores s := by
  unfold auxCtrlApplied
  simp

/-! ### The collector -/

@[simp] theorem stores_closeWindow (u : Nat) (s : State) : stores (closeWindow u s) = stores s := by
  unfold closeWindow
  split <;> simp

/-! ### Clocks and activity -/

@[simp] theorem stores_setModErr (e : Int) (s : State) : stores (setModErr e s) = stores s := by
  unfold setModErr
  simp [stores.eq_1]

@[simp] theorem stores_slewGrid (s : State) : stores (slewGrid s) = stores s := by
  unfold slewGrid
  simp

@[simp] theorem stores_actEnd (result : Nat) (s : State) : stores (actEnd result s) = stores s := (rfl)
@[simp] theorem stores_actBoundary (n : Nat) (s : State) : stores (actBoundary n s) = stores s := by
  unfold actBoundary
  dsimp only
  (repeat' split) <;> simp [stores.eq_1]

/-! ### Trackers -/

@[simp] theorem stores_sigmapSync (c : Nat) (s : State) : stores (sigmapSync c s) = stores s := by
  unfold sigmapSync
  split
  · rfl
  · simp only [stores_doFor, stores_setBytes, stores_openTile, stores_sealTile, implies_true]

@[simp] theorem stores_coastBoundary (c : Nat) (s : State) : stores (coastBoundary c s) = stores s := (rfl)
@[simp] theorem stores_trackerPrepare (c : Nat) (s : State) : stores (trackerPrepare c s) = stores s := by
  unfold trackerPrepare
  simp

@[simp] theorem stores_trackerStop (c : Nat) (dormant : Bool) (s : State) : stores (trackerStop c dormant s) = stores s := by
  unfold trackerStop
  simp

@[simp] theorem stores_mapRefuse (c n code : Nat) (s : State) : stores (mapRefuse c n code s) = stores s := by
  unfold mapRefuse
  simp

@[simp] theorem stores_mapAdopt (c n : Nat) (s : State) : stores (mapAdopt c n s) = stores s := by
  unfold mapAdopt
  dsimp only
  (repeat' split) <;> simp [stores.eq_1]

@[simp] theorem stores_mapDiscard (c n : Nat) (s : State) : stores (mapDiscard c n s) = stores s := by
  unfold mapDiscard
  simp

@[simp] theorem stores_mapErase (c n : Nat) (s : State) : stores (mapErase c n s) = stores s := by
  unfold mapErase
  simp [stores.eq_1]

@[simp] theorem stores_mapCommand (c n op : Nat) (s : State) : stores (mapCommand c n op s) = stores s := by
  unfold mapCommand
  simp

@[simp] theorem stores_trkSnap (r : List (Nat × Word) × State) : stores (trkSnap r).2 = stores r.2 := by
  unfold trkSnap
  simp

/-! ### Joints -/

@[simp] theorem stores_glReady (l : Nat) (s : State) : stores (glReady l s) = stores s := by
  unfold glReady
  split <;> simp

@[simp] theorem stores_glPrepare (l : Nat) (s : State) : stores (glPrepare l s) = stores s := (rfl)
@[simp] theorem stores_glStop (l : Nat) (dormant : Bool) (s : State) : stores (glStop l dormant s) = stores s := by
  unfold glStop
  simp

@[simp] theorem stores_glBoundary (l : Nat) (s : State) : stores (glBoundary l s) = stores s := by
  unfold glBoundary
  dsimp only
  (repeat' split) <;> simp

@[simp] theorem stores_glTrackerEvent (c : Nat) (prepare : Bool) (s : State) : stores (glTrackerEvent c prepare s) = stores s := by
  unfold glTrackerEvent
  simp

@[simp] theorem stores_mapApply (c n op : Nat) (s : State) : stores (mapApply c n op s) = stores s := by
  unfold mapApply
  simp

@[simp] theorem stores_xcalDone (l k : Nat) (s : State) : stores (xcalDone l k s) = stores s := by
  unfold xcalDone
  simp

@[simp] theorem stores_xcalCheck (l : Nat) (s : State) : stores (xcalCheck l s) = stores s := by
  unfold xcalCheck
  split <;> simp

@[simp] theorem stores_snapHold (off : Nat) (mask : Word) (r : List (Nat × Word) × State) :
    stores (snapHold off mask r).2 = stores r.2 := (rfl)
@[simp] theorem stores_snapKeepAll (q u kind : Nat) (offs : List Nat) (r : List (Nat × Word) × State) :
    stores (snapKeepAll q u kind offs r).2 = stores r.2 := by
  unfold snapKeepAll
  split <;> simp

@[simp] theorem stores_jntSnap (r : List (Nat × Word) × State) : stores (jntSnap r).2 = stores r.2 := by
  unfold jntSnap
  simp

/-! ### Ports, compares and triggers -/

@[simp] theorem stores_portPrepare (p : Nat) (s : State) : stores (portPrepare p s) = stores s := by
  unfold portPrepare
  simp

@[simp] theorem stores_portDormant (p : Nat) (s : State) : stores (portDormant p s) = stores s := by
  unfold portDormant
  simp

@[simp] theorem stores_portInvert (p : Nat) (old new : Word) (s : State) : stores (portInvert p old new s) = stores s := (rfl)
@[simp] theorem stores_switchLatch (k : Nat) (s : State) : stores (switchLatch k s) = stores s := (rfl)
@[simp] theorem stores_switchPrep (k : Nat) (tn : Int) (s : State) : stores (switchPrep k tn s) = stores s := by
  unfold switchPrep
  simp

@[simp] theorem stores_emEmpty (e : Nat) (s : State) : stores (emEmpty e s) = stores s := by
  unfold emEmpty
  simp

@[simp] theorem stores_emPrepare (e : Nat) (s : State) : stores (emPrepare e s) = stores s := by
  unfold emPrepare
  simp

@[simp] theorem stores_withdraw (c : Nat) (s : State) : stores (withdraw c s) = stores s := by
  unfold withdraw
  split <;> simp

@[simp] theorem stores_cmpWritten (c : Nat) (ctrl : Bool) (s : State) : stores (cmpWritten c ctrl s) = stores s := by
  unfold cmpWritten
  simp

@[simp] theorem stores_cmpSourceLeft (u : Nat) (s : State) : stores (cmpSourceLeft u s) = stores s := by
  unfold cmpSourceLeft
  simp

@[simp] theorem stores_pulseEnd (k : Nat) (s : State) : stores (pulseEnd k s) = stores s := by
  unfold pulseEnd
  simp

@[simp] theorem stores_incSnap (r : List (Nat × Word) × State) : stores (incSnap r).2 = stores r.2 := by
  unfold incSnap
  simp

/-! ### Motion -/

@[simp] theorem stores_raisePg (g kind detail : Nat) (s : State) : stores (raisePg g kind detail s) = stores s := by
  unfold raisePg
  simp

@[simp] theorem stores_planMotion (g : Nat) (f : State → PgSt → PgSt) (s : State) : stores (planMotion g f s) = stores s := by
  unfold planMotion
  simp

@[simp] theorem stores_rampDown (g : Nat) (A J : ℚ) (task : PgTask) (c : Nat) (s : State) :
    stores (rampDown g A J task c s) = stores s := by
  unfold rampDown
  simp

@[simp] theorem stores_startStop (g : Nat) (s : State) : stores (startStop g s) = stores s := by
  unfold startStop
  simp

@[simp] theorem stores_startQuick (g : Nat) (s : State) : stores (startQuick g s) = stores s := by
  unfold startQuick
  simp

@[simp] theorem stores_homeTravel (g : Nat) (s : State) : stores (homeTravel g s) = stores s := by
  unfold homeTravel
  simp

@[simp] theorem stores_homeDone (g : Nat) (r : ℚ) (s : State) : stores (homeDone g r s) = stores s := (rfl)
@[simp] theorem stores_pathOpen (a : Nat) (s : State) : stores (pathOpen a s).2 = stores s := by
  unfold pathOpen
  simp

@[simp] theorem stores_pathFail (g code k : Nat) (s : State) : stores (pathFail g code k s) = stores s := by
  unfold pathFail
  simp

@[simp] theorem stores_pathStart (g : Nat) (s : State) : stores (pathStart g s) = stores s := by
  unfold pathStart
  split <;> simp

@[simp] theorem stores_pgStart (g : Nat) (s : State) : stores (pgStart g s) = stores s := by
  unfold pgStart
  dsimp only
  (repeat' split) <;> simp

@[simp] theorem stores_pgHold (g : Nat) (s : State) : stores (pgHold g s) = stores s := by
  unfold pgHold
  simp

@[simp] theorem stores_pgResume (g : Nat) (s : State) : stores (pgResume g s) = stores s := by
  unfold pgResume
  dsimp only
  (repeat' split) <;> simp

@[simp] theorem stores_pgStop (g : Nat) (s : State) : stores (pgStop g s) = stores s := by
  unfold pgStop
  simp

@[simp] theorem stores_pgQuick (g : Nat) (s : State) : stores (pgQuick g s) = stores s := by
  unfold pgQuick
  simp

@[simp] theorem stores_pgFault (g : Nat) (s : State) : stores (pgFault g s) = stores s := by
  unfold pgFault
  simp

@[simp] theorem stores_pgPrepare (g : Nat) (s : State) : stores (pgPrepare g s) = stores s := by
  unfold pgPrepare
  dsimp only
  (repeat' split) <;> simp

@[simp] theorem stores_pgDormant (g : Nat) (s : State) : stores (pgDormant g s) = stores s := (rfl)
@[simp] theorem stores_pgBoundary (g : Nat) (s : State) : stores (pgBoundary g s) = stores s := by
  unfold pgBoundary
  split <;> simp

@[simp] theorem stores_motApplied (g : Nat) (tgt vt arm soft : Bool) (s : State) :
    stores (motApplied g tgt vt arm soft s) = stores s := by
  unfold motApplied
  simp

@[simp] theorem stores_pgAssistMark (g n : Nat) (s : State) : stores (pgAssistMark g n s) = stores s := (rfl)
@[simp] theorem stores_motSnapGen (g : Nat) (r : List (Nat × Word) × State) : stores (motSnapGen g r).2 = stores r.2 := by
  unfold motSnapGen
  simp

@[simp] theorem stores_motSnap (r : List (Nat × Word) × State) : stores (motSnap r).2 = stores r.2 := by
  unfold motSnap
  simp

/-! ### Records -/

@[simp] theorem stores_endCopy (frame c : Nat) (s : State) : stores (endCopy frame c s) = stores s := (rfl)
@[simp] theorem stores_copyDrop (frame c reason : Nat) (s : State) : stores (copyDrop frame c reason s) = stores s := by
  unfold copyDrop
  simp [stores.eq_1]

@[simp] theorem stores_releaseSlot (frame : Nat) (s : State) : stores (releaseSlot frame s) = stores s := by
  unfold releaseSlot
  split <;> simp [stores.eq_1]

@[simp] theorem stores_forceAll (s : State) : stores (forceAll s) = stores s := by
  unfold forceAll
  simp

@[simp] theorem stores_openStage (n : Nat) (s : State) : stores (openStage n s) = stores s := by
  unfold openStage
  split <;> simp

/-! ### Messages -/

@[simp] theorem stores_queueResponse (m : CmdMessage) (result frame : Nat) (results : List Nat) (s : State) :
    stores (queueResponse m result frame results s) = stores s := (rfl)
@[simp] theorem stores_finishMsg (h : HeldMsg) (frame : Nat) (s : State) : stores (finishMsg h frame s) = stores s := (rfl)
@[simp] theorem stores_discardMsgs (n : Nat) (s : State) : stores (discardMsgs n s) = stores s := by
  unfold discardMsgs
  simp [stores.eq_1]

/-! ### Units and beams -/

@[simp] theorem stores_trigCut (k : Nat) (s : State) : stores (trigCut k s) = stores s := by
  unfold trigCut
  simp

@[simp] theorem stores_prepareTine (u : Nat) (s : State) : stores (prepareTine u s) = stores s := by
  unfold prepareTine
  split <;> simp

@[simp] theorem stores_faultTine (u : Nat) (s : State) : stores (faultTine u s) = stores s := by
  unfold faultTine
  split <;> simp

@[simp] theorem stores_dormantTine (u : Nat) (s : State) : stores (dormantTine u s) = stores s := by
  unfold dormantTine
  split <;> simp

@[simp] theorem stores_clearTrip (u : Nat) (s : State) : stores (clearTrip u s) = stores s := by
  unfold clearTrip
  simp

@[simp] theorem stores_putState (u : Nat) (st : UState) (s : State) : stores (putState u st s) = stores s := (rfl)
@[simp] theorem stores_unitEnter (u : Nat) (st : UState) (quick : Bool) (n : Nat) (s : State) :
    stores (unitEnter u st quick n s) = stores s := by
  unfold unitEnter
  split <;> simp

@[simp] theorem stores_autoTine (n u : Nat) (s : State) : stores (autoTine n u s) = stores s := by
  unfold autoTine
  dsimp only
  (repeat' split) <;> simp

@[simp] theorem stores_autoBeam (b : Nat) (s : State) : stores (autoBeam b s) = stores s := by
  unfold autoBeam
  simp

@[simp] theorem stores_autoInfra (u : Nat) (s : State) : stores (autoInfra u s) = stores s := by
  unfold autoInfra
  simp

@[simp] theorem stores_idleRequest (u : Nat) (us : List Nat) (s : State) : stores (idleRequest u us s) = stores s := (rfl)
@[simp] theorem stores_resetUnit (u n : Nat) (s : State) : stores (resetUnit u n s) = stores s := by
  unfold resetUnit
  simp

@[simp] theorem stores_resetsDue (n : Nat) (s : State) : stores (resetsDue n s) = stores s := by
  unfold resetsDue
  simp

@[simp] theorem stores_raiseState (u code : Nat) (s : State) : stores (raiseState u code s) = stores s := by
  unfold raiseState
  simp

@[simp] theorem stores_applyCmd (u code origin n : Nat) (s : State) : stores (applyCmd u code origin n s) = stores s := by
  unfold applyCmd
  dsimp only
  (repeat' split) <;> simp

@[simp] theorem stores_runCommands (ds : List Direct) (n : Nat) (s0 : State) : stores (runCommands ds n s0).1 = stores s0 := by
  unfold runCommands
  extract_lets fans r1 reached win ok res s1 s2 s3 s4 s5
  have h1 : stores s1 = stores s0 := stores_doFor (fun p s => by dsimp only; (repeat' split) <;> simp) _ _
  have h2 : stores s2 = stores s1 := stores_doFor (fun u s => stores_doFor (fun _ s => stores_raiseFault ..) _ _) _ _
  have h3 : stores s3 = stores s2 := stores_doFor (fun u s => stores_applyCmd ..) _ _
  have h4 : stores s4 = stores s3 := stores_doFor (fun p s => stores_idleRequest ..) _ _
  have h5 : stores s5 = stores s4 := stores_doFor (fun f s => stores_modUnit ..) _ _
  exact h5.trans (h4.trans (h3.trans (h2.trans h1)))

@[simp] theorem stores_discardPages (s : State) : stores (discardPages s) = stores s := by
  unfold discardPages
  simp

@[simp] theorem stores_escStep (b n : Nat) (st : UState) (s : State) : stores (escStep b n st s) = stores s := by
  unfold escStep
  simp

@[simp] theorem stores_beamState (n b : Nat) (s : State) : stores (beamState n b s) = stores s := by
  unfold beamState
  simp

@[simp] theorem stores_beamStates (n : Nat) (s : State) : stores (beamStates n s) = stores s := by
  unfold beamStates
  simp

/-! ### Settings and images put in force -/

@[simp] theorem stores_xgSnap (n : Nat) (r : List (Nat × Word) × State) : stores (xgSnap n r).2 = stores r.2 := by
  unfold xgSnap
  simp

@[simp] theorem stores_refineSnap (n : Nat) (snap : List (Nat × Word)) (s : State) : stores (refineSnap n snap s).2 = stores s := by
  unfold refineSnap
  simp

@[simp] theorem stores_appliedReg (n off : Nat) (old : Word) (s : State) : stores (appliedReg n off old s) = stores s := by
  unfold appliedReg
  simp

@[simp] theorem stores_putValues (n : Nat) (reqs : List (Nat × Bool)) (writes : List Nat) (snap : List (Nat × Word)) (s0 : State) :
    stores (putValues n reqs writes snap s0).2 = stores s0 := by
  unfold putValues
  simp

@[simp] theorem stores_applySnap (n : Nat) (reqs : List (Nat × Bool)) (writes : List Nat) (snap : List (Nat × Word)) (s : State) :
    stores (applySnap n reqs writes snap s).2 = stores s := by
  unfold applySnap
  simp

@[simp] theorem stores_commitBoundary (n : Nat) (s : State) : stores (commitBoundary n s) = stores s := by
  unfold commitBoundary
  split <;> simp [stores.eq_1]

@[simp] theorem stores_writeRecord (n off : Nat) (v : Word) (late : Bool) (s : State) :
    stores (writeRecord n off v late s).2 = stores s := by
  unfold writeRecord
  simp

@[simp] theorem stores_fillTiles (first n : Nat) (bs : List (Nat × List Byte)) (s : State) :
    stores (fillTiles first n bs s) = stores s := by
  unfold fillTiles
  simp [stores.eq_1]

@[simp] theorem stores_layTiles (s : State) : stores (layTiles s) = stores s := by
  unfold layTiles
  simp [stores.eq_1]

@[simp] theorem stores_layRings (old : List Region) (s : State) : stores (layRings old s) = stores s := by
  unfold layRings
  simp [stores.eq_1]

@[simp] theorem stores_fillPaths (s : State) : stores (fillPaths s) = stores s := by
  unfold fillPaths
  split <;> simp

@[simp] theorem stores_fillCoefs (s : State) : stores (fillCoefs s) = stores s := by
  unfold fillCoefs
  split <;> simp

@[simp] theorem stores_fillMaps (s : State) : stores (fillMaps s) = stores s := by
  unfold fillMaps
  split <;> simp

@[simp] theorem stores_layoutRegions (s : State) : stores (layoutRegions s) = stores s := by
  unfold layoutRegions
  simp

@[simp] theorem stores_discardPending (n : Nat) (s : State) : stores (discardPending n s) = stores s := by
  unfold discardPending
  split <;> simp [stores.eq_1]

@[simp] theorem stores_allDormant (n : Nat) (s : State) : stores (allDormant n s) = stores s := by
  unfold allDormant
  simp [stores.eq_1]

@[simp] theorem stores_loadSettings (n : Nat) (s : State) : stores (loadSettings n s) = stores s := by
  unfold loadSettings
  simp [stores.eq_1]

@[simp] theorem stores_putInForce (img : Option Image) (n : Nat) (s : State) : stores (putInForce img n s) = stores s := by
  unfold putInForce
  simp [stores.eq_1]

@[simp] theorem stores_twinAtSwitch (n : Nat) (s : State) : stores (twinAtSwitch n s) = stores s := by
  unfold twinAtSwitch
  simp [stores.eq_1]

@[simp] theorem stores_activate (img : Option Image) (n : Nat) (s : State) : stores (activate img n s) = stores s := by
  unfold activate
  simp [stores.eq_1]

/-! ### Security -/

@[simp] theorem stores_svcPublish (code : Nat) (data : List Byte) (s : State) : stores (svcPublish code data s) = stores s := by
  unfold svcPublish
  simp [stores.eq_1]

@[simp] theorem stores_sessionDue (n i : Nat) (s : State) : stores (sessionDue n i s) = stores s := by
  unfold sessionDue
  dsimp only
  (repeat' split) <;> simp

@[simp] theorem stores_sessionBoundary (n : Nat) (s : State) : stores (sessionBoundary n s) = stores s := by
  unfold sessionBoundary
  simp

@[simp] theorem stores_keepView (s : State) : stores (keepView s) = stores s := (rfl)

/-! ### The twin -/

@[simp] theorem stores_setMode (m n : Nat) (s : State) : stores (setMode m n s) = stores s := by
  unfold setMode
  simp

@[simp] theorem stores_ownAll (b : Bool) (s : State) : stores (ownAll b s) = stores s := by
  unfold ownAll
  simp

@[simp] theorem stores_ownByMap (s : State) : stores (ownByMap s) = stores s := by
  unfold ownByMap
  simp

@[simp] theorem stores_twinWithdraw (n : Nat) (s : State) : stores (twinWithdraw n s) = stores s := by
  unfold twinWithdraw
  simp

@[simp] theorem stores_degrade (n : Nat) (s : State) : stores (degrade n s) = stores s := by
  unfold degrade
  simp

@[simp] theorem stores_sendCrc (c : Word) (s : State) : stores (sendCrc c s) = stores s := by
  unfold sendCrc
  simp

@[simp] theorem stores_twinFrame (s : State) : stores (twinFrame s) = stores s := by
  unfold twinFrame
  simp

@[simp] theorem stores_clearChecks (n : Nat) (s : State) : stores (clearChecks n s) = stores s := by
  unfold clearChecks
  simp [stores.eq_1]

@[simp] theorem stores_attachRefused (c : Nat) (s : State) : stores (attachRefused c s) = stores s := by
  unfold attachRefused
  simp

@[simp] theorem stores_svcAtBoundary (code result : Nat) (data : List Byte) (s : State) :
    stores (svcAtBoundary code result data s) = stores s := by
  unfold svcAtBoundary
  simp

@[simp] theorem stores_joinPrepare (s : State) : stores (joinPrepare s) = stores s := by
  unfold joinPrepare
  simp

@[simp] theorem stores_sendSettings (oldF oldS : List (Nat × Word)) (s : State) : stores (sendSettings oldF oldS s) = stores s := by
  unfold sendSettings
  simp

@[simp] theorem stores_takeCmps (b : Nat) (l : List CmpSt) (s : State) : stores (takeCmps b l s) = stores s := by
  unfold takeCmps
  simp

@[simp] theorem stores_takeItem (u st : Nat) (x : TwinItem) (s : State) : stores (takeItem u st x s) = stores s := by
  unfold takeItem
  split <;> simp

@[simp] theorem stores_attachStep (n : Nat) (s : State) : stores (attachStep n s) = stores s := by
  unfold attachStep
  split <;> simp [stores.eq_1]

@[simp] theorem stores_failStep (n : Nat) (s : State) : stores (failStep n s) = stores s := by
  unfold failStep
  split <;> simp

@[simp] theorem stores_countFrame (s : State) : stores (countFrame s) = stores s := by
  unfold countFrame
  simp

@[simp] theorem stores_progressStep (n : Nat) (s : State) : stores (progressStep n s) = stores s := by
  unfold progressStep
  simp

@[simp] theorem stores_detachStep (n : Nat) (s : State) : stores (detachStep n s) = stores s := by
  unfold detachStep
  simp

@[simp] theorem stores_ownSetStep (n : Nat) (s : State) : stores (ownSetStep n s) = stores s := by
  unfold ownSetStep
  dsimp only
  (repeat' split) <;> simp

@[simp] theorem stores_lossStep (n : Nat) (s : State) : stores (lossStep n s) = stores s := by
  unfold lossStep
  simp

@[simp] theorem stores_skewFrame (s : State) : stores (skewFrame s) = stores s := by
  unfold skewFrame
  simp

@[simp] theorem stores_twinEarly (n : Nat) (s : State) : stores (twinEarly n s) = stores s := by
  unfold twinEarly
  simp

@[simp] theorem stores_twinStep (n : Nat) (s : State) : stores (twinStep n s) = stores s := by
  unfold twinStep
  simp

/-! ### The herd -/

theorem stores_modHrd {f : HrdSt → HrdSt} (h : ∀ x, (f x).position = x.position) (s : State) : stores (modHrd f s) = stores s :=
  congrArg (fun p => (s.slots, s.sec.imgKeys, s.sec.hashes, p)) (h s.hrd)

@[simp] theorem stores_formPartials (s : State) : stores (formPartials s) = stores s := (rfl)
@[simp] theorem stores_tokenLost (s : State) : stores (tokenLost s) = stores s := by
  unfold tokenLost
  split
  · rfl
  · simp [stores_modHrd]

@[simp] theorem stores_herdBoundary (s : State) : stores (herdBoundary s) = stores s := by
  unfold herdBoundary
  simp [stores_modHrd]

@[simp] theorem stores_dropRelays (n : Nat) (s : State) : stores (dropRelays n s) = stores s := (rfl)

/-! ### The steps of a boundary -/

@[simp] theorem stores_startFrame (n : Nat) (s : State) : stores (startFrame n s) = stores s := (rfl)
@[simp] theorem stores_collectorBoundary (s : State) : stores (collectorBoundary s) = stores s := by
  unfold collectorBoundary
  simp [stores.eq_1]

@[simp] theorem stores_syncBoundary (s : State) : stores (syncBoundary s) = stores s := by
  unfold syncBoundary
  simp

@[simp] theorem stores_stateStep (n : Nat) (s : State) : stores (stateStep n s) = stores s := by
  unfold stateStep
  simp

/-- Of a record that is no WRITE the result is to follow, and nothing is done. -/
theorem stores_recordResult (c : Prop) [Decidable c] {q : Nat × State} {r : List Nat × State} (h : stores q.2 = stores r.2) :
    stores (if c then (r.1 ++ [q.1], q.2) else (r.1 ++ [0], r.2)).2 = stores r.2 := by
  split
  · exact h
  · rfl

@[simp] theorem stores_writeRecords (n : Nat) (h : HeldMsg) (s : State) : stores (writeRecords n h s).2 = stores s := by
  unfold writeRecords
  refine stores_foldl_snd (fun r rec => ?_) _ _
  dsimp only
  exact stores_recordResult (rec.op = 1) (stores_writeRecord n rec.arg rec.value h.late r.2)

@[simp] theorem stores_writeStep (n : Nat) (ms : List HeldMsg) (s : State) : stores (writeStep n ms s).2 = stores s := by
  unfold writeStep
  simp

@[simp] theorem stores_refuseRecords (h : HeldMsg) (s : State) : stores (refuseRecords h s) = stores s := by
  unfold refuseRecords
  simp

@[simp] theorem stores_commandStep (n : Nat) (ms : List HeldMsg) (s : State) : stores (commandStep n ms s) = stores s := by
  unfold commandStep
  simp [stores.eq_1]

@[simp] theorem stores_portLatch (n : Nat) (tn : Int) (p : Nat) (s : State) : stores (portLatch n tn p s) = stores s := (rfl)
@[simp] theorem stores_blockBoundary (n : Nat) (s : State) : stores (blockBoundary n s) = stores s := by
  unfold blockBoundary
  simp [stores.eq_1]

@[simp] theorem stores_keepStates (n : Nat) (s : State) : stores (keepStates n s) = stores s := (rfl)
@[simp] theorem stores_laterSteps (m : Nat) (s : State) : stores (laterSteps m s) = stores s := by
  unfold laterSteps
  simp

end Sys2Proof.Proofs
end

section
/-! A rollback at a frame boundary, and a REVERT that is pending there (spec/02 R60, R61, R63, R73). -/
namespace Sys2Proof.Proofs
open Sys2Proof Sys2Proof.Machine

/-! ### What the checks of an image rest on -/

/-- The keys, owner slots and floor that an image is checked with, and the position that it must name, are the same. -/
structure SameBasis (s t : State) : Prop where
  keys : t.sec.imgKeys = s.sec.imgKeys
  hashes : t.sec.hashes = s.sec.hashes
  burned : t.sec.burned = s.sec.burned
  revoked : t.sec.revoked = s.sec.revoked
  floor : t.sec.floor = s.sec.floor
  position : t.hrd.position = s.hrd.position

theorem sameBasis_of_stores_of_kept {s t : State} (hstores : stores t = stores s) (hkept : Laws.kept t = Laws.kept s) : SameBasis s t where
  keys := congrArg (fun x => x.2.1) hstores
  hashes := congrArg (fun x => x.2.2.1) hstores
  burned := Laws.kept_burned hkept
  revoked := Laws.kept_revoked hkept
  floor := Laws.kept_floor hkept
  position := congrArg (fun x => x.2.2.2) hstores

namespace SameBasis
variable {s t : State} (h : SameBasis s t)
include h

theorem imageKey_eq (id : Nat) : imageKey t id = imageKey s id := by
  unfold imageKey
  rw [h.keys]

theorem decryptImage_eq (b : List Byte) : decryptImage t b = decryptImage s b := by
  unfold decryptImage
  simp only [h.imageKey_eq]

theorem checkAuth_eq (b : List Byte) : checkAuth t b = checkAuth s b := by
  have husable (k : Nat) : slotUsable t k = slotUsable s k := by
    unfold slotUsable
    rw [h.burned, h.revoked]
  have hhash (k : Nat) : ownerHash t k = ownerHash s k := by
    unfold ownerHash
    rw [h.hashes]
  unfold checkAuth
  simp only [husable, hhash, h.imageKey_eq, h.decryptImage_eq]

theorem checkPart_eq (b : List Byte) : checkPart t b = checkPart s b := by
  unfold checkPart ownPos
  rw [h.floor, h.position]

theorem checkImage_eq (b : List Byte) (len : Nat) : checkImage t b len = checkImage s b len := by
  unfold checkImage
  simp only [h.checkAuth_eq, h.decryptImage_eq, h.checkPart_eq]

theorem barred_eq (b : Option (List Byte)) : barred t b = barred s b := by
  unfold barred
  rw [h.floor]

end SameBasis

/-! ### The boundary around step 1 -/

theorem slots_eq_of_stores {s t : State} (h : stores t = stores s) : t.slots = s.slots := congrArg Prod.fst h

/-- The state in which boundary `n` begins its steps. -/
def beforeSteps (n : Nat) (s : State) : State :=
  slewGrid (sessionBoundary n (syncBoundary (collectorBoundary (herdBoundary (startFrame n s)))))

/-- The state in which step 1 of boundary `n` looks at the slots. -/
def beforeSlots (n : Nat) (s : State) : State := twinEarly n (actBoundary n (beforeSteps n s))

theorem stores_beforeSlots (n : Nat) (s : State) : stores (beforeSlots n s) = stores s := by
  simp [beforeSlots, beforeSteps]

theorem kept_beforeSlots (n : Nat) (s : State) : Laws.kept (beforeSlots n s) = Laws.kept s := by
  simp only [beforeSlots, beforeSteps, Laws.kept_twinEarly, Laws.kept_actBoundary, Laws.kept_slewGrid, Laws.kept_sessionBoundary,
    Laws.kept_syncBoundary, Laws.kept_collectorBoundary, Laws.kept_herdBoundary, Laws.kept_startFrame]

theorem sameBasis_beforeSlots (n : Nat) (s : State) : SameBasis s (beforeSlots n s) :=
  sameBasis_of_stores_of_kept (stores_beforeSlots n s) (kept_beforeSlots n s)

theorem exists_stores_boundarySteps (n : Nat) (s : State) : ∃ i p e,
    stores (boundarySteps n s) = stores (regrid i p e (slotStep n (twinEarly n (actBoundary n s)))) := by
  refine ⟨instOf s n, tf s, epoch s, ?_⟩
  unfold boundarySteps
  simp

/-- After step 1 and the new grid a boundary leaves the slots alone. -/
theorem exists_slots_frameStep (s : State) : ∃ i p e,
    (frameStep s).slots = (regrid i p e (slotStep (nextFrame s) (beforeSlots (nextFrame s) s))).slots := by
  obtain ⟨i, p, e, h⟩ := exists_stores_boundarySteps (nextFrame s) (beforeSteps (nextFrame s) s)
  refine ⟨i, p, e, slots_eq_of_stores (Eq.trans ?_ h)⟩
  simp only [frameStep, frameBoundary, stores_showPins, stores_keepView, stores_twinFrame]
  rfl

/-- Where no velvet is in progress, a new grid numbers no velvet anew. -/
theorem slots_regrid_of_no_velvet (i : Int) (p e : Nat) {s : State} (h : s.slots.velvet = none) : (regrid i p e s).slots = s.slots := by
  have hfrom (n : Nat) : { s.slots with velvet := s.slots.velvet.map (fun _ => n) } = s.slots := by
    have hmap : s.slots.velvet.map (fun _ => n) = s.slots.velvet := by rw [h]; rfl
    rw [hmap]
  unfold regrid
  split
  · rfl
  · split
    · exact hfrom _
    · exact hfrom _

theorem exec_frameBoundary_of_deviceUp {s : State} (hup : deviceUp s = true) : exec .frameBoundary s = .next (frameStep s) :=
  congrArg Host.Outcome.next (if_pos hup)

/-! ### Step 1 -/

/-- The roles of the slots as a rollback gives them, before the image is considered; a deferred floor is dropped (R63). -/
def rolledBack (n : Nat) (s : State) : State :=
  { s with
    slots := { s.slots with active := s.slots.previous, previous := none, velvet := none, velvetFault := false, switchFrame := n }
    sec := { s.sec with floorPending := none } }

theorem sameBasis_rolledBack (n : Nat) (s : State) : SameBasis s (rolledBack n s) := ⟨rfl, rfl, rfl, rfl, rfl, rfl⟩

theorem rollback_due (n : Nat) {s : State} (hvelvet : s.slots.velvet.isSome = true) (hfault : s.slots.velvetFault = true)
    (hfloor : barred s s.slots.previous = false) :
    rollback n s = raiseFault qCFG 0x610 0x18 0 (rollbackTo s.slots.previous n (rolledBack n s)) := by
  simp only [rollback, hvelvet, hfault, hfloor, Bool.and_self, if_true, Bool.false_eq_true, if_false]
  rfl

/-- A rollback leaves the slots as `rolledBack` says; where the image fails a check, that is reported as at STAGE. -/
theorem slots_rollbackTo (b : Option (List Byte)) (n : Nat) (s : State) : (rollbackTo b n s).slots = s.slots ∨
    ∃ b' e, b = some b' ∧ checkImage s b' b'.length = .error e ∧
      (rollbackTo b n s).slots = completed e.code (some e.slotDetail) s.slots := by
  cases b with
  | none => exact .inl (slots_eq_of_stores (stores_activate ..))
  | some b =>
    have hslots : (rollbackTo (some b) n s).slots = (considerImage b s).2.slots := by
      refine slots_eq_of_stores ?_
      unfold rollbackTo
      simp
    rw [hslots]
    unfold considerImage
    split
    next i hpass => exact .inl rfl
    next e hfail => exact .inr ⟨b, e, rfl, hfail, by rw [slotResult_slots, raiseFault_slots]⟩

/-- A REVERT at its boundary with no image in PREVIOUS completes with NO_IMAGE. -/
theorem slots_switchBoundaryStep_of_no_previous {n m : Nat} {s : State} (hpend : s.slots.pend = some { revert := true, target := m })
    (hdue : m ≤ n) (hprevious : s.slots.previous = none) :
    (switchBoundaryStep n s).slots = completed 9 none { s.slots with pend := none } := by
  have h : switchBoundaryStep n s = slotResult 9 none (ledConsume 0 1 { s with slots := { s.slots with pend := none } }) := by
    unfold switchBoundaryStep
    rw [hpend]
    simp [Nat.not_lt.2 hdue, hprevious]
  rw [h, slotResult_slots]
  rfl

section
variable {n m : Nat} {s : State} (hvelvet : s.slots.velvet.isSome = true) (hfault : s.slots.velvetFault = true)
  (hfloor : barred s s.slots.previous = false) (hpend : s.slots.pend = some { revert := true, target := m }) (hdue : m ≤ n)
include hvelvet hfault hfloor hpend hdue

/-- The slots after a rollback with a REVERT pending: the REVERT finds PREVIOUS empty. -/
theorem slots_slotStep_of_rollback :
    (slotStep n s).slots = completed 9 none { (rolledBack n s).slots with pend := none } ∨
    ∃ b e, s.slots.previous = some b ∧ checkImage s b b.length = .error e ∧
      (slotStep n s).slots = completed 9 none { completed e.code (some e.slotDetail) (rolledBack n s).slots with pend := none } := by
  have hroll : (rollback n s).slots = (rollbackTo s.slots.previous n (rolledBack n s)).slots := by
    rw [rollback_due n hvelvet hfault hfloor, raiseFault_slots]
  have hstep (h1 : (rollback n s).slots.velvet = none) (h2 : (rollback n s).slots.pend = some { revert := true, target := m })
      (h3 : (rollback n s).slots.previous = none) : (slotStep n s).slots = completed 9 none { (rollback n s).slots with pend := none } := by
    rw [slotStep, velvetEnd_of_no_velvet h1, slots_switchBoundaryStep_of_no_previous h2 hdue h3]
  rcases slots_rollbackTo s.slots.previous n (rolledBack n s) with h | ⟨b, e, hb, hfail, h⟩
  · rw [← hroll] at h
    rw [h] at hstep
    exact .inl (hstep rfl hpend rfl)
  · rw [← hroll] at h
    rw [h] at hstep
    exact .inr ⟨b, e, hb, (sameBasis_rolledBack n s).checkImage_eq b b.length ▸ hfail, hstep rfl hpend rfl⟩

end

/-- The slots after a boundary with a rollback due and a REVERT pending: as the rollback leaves them, with NO_IMAGE for the REVERT; where the
image of PREVIOUS fails a check, that failure is reported before. -/
theorem slots_frameStep_of_rollback {v m : Nat} {s : State} (hvelvet : s.slots.velvet = some v) (hfault : s.slots.velvetFault = true)
    (hfloor : barred s s.slots.previous = false) (hpend : s.slots.pend = some { revert := true, target := m }) (hdue : m ≤ nextFrame s) :
    (frameStep s).slots = completed 9 none { (rolledBack (nextFrame s) s).slots with pend := none } ∨
    ∃ b e, s.slots.previous = some b ∧ checkImage s b b.length = .error e ∧ (frameStep s).slots =
      completed 9 none { completed e.code (some e.slotDetail) (rolledBack (nextFrame s) s).slots with pend := none } := by
  have hslots := slots_eq_of_stores (stores_beforeSlots (nextFrame s) s)
  have hbasis := sameBasis_beforeSlots (nextFrame s) s
  have hrolled : (rolledBack (nextFrame s) (beforeSlots (nextFrame s) s)).slots = (rolledBack (nextFrame s) s).slots := by
    unfold rolledBack
    rw [hslots]
  have hstep := slots_slotStep_of_rollback (s := beforeSlots (nextFrame s) s) (n := nextFrame s) (m := m) (by rw [hslots, hvelvet]; rfl)
    (by rw [hslots, hfault]) (by rw [hslots, hbasis.barred_eq, hfloor]) (by rw [hslots, hpend]) hdue
  rw [hrolled, hslots] at hstep
  obtain ⟨i, p, e, hframe⟩ := exists_slots_frameStep s
  have hover : (slotStep (nextFrame s) (beforeSlots (nextFrame s) s)).slots.velvet = none := by
    rcases hstep with h | ⟨b, e, -, -, h⟩ <;> rw [h] <;> rfl
  rw [hframe, slots_regrid_of_no_velvet i p e hover]
  simpa only [hbasis.checkImage_eq] using hstep

/-- Settles O39, by `slots_frameStep_of_rollback`. -/
theorem rollbackBeatsRevert : Obligations.RollbackBeatsRevert := by
  intro v m s hup hvelvet hfault hfloor hpend hdue
  refine ⟨_, exec_frameBoundary_of_deviceUp hup, ?_⟩
  rcases slots_frameStep_of_rollback hvelvet hfault hfloor hpend hdue with h | ⟨b, e, hb, hfail, h⟩
  · rw [h]
    exact ⟨rfl, rfl, rfl, rfl, rfl, rfl, fun _ => rfl, fun _ _ _ _ => rfl⟩
  · rw [h]
    refine ⟨rfl, rfl, rfl, rfl, rfl, rfl, fun hnone => ?_, fun b' i hb' hpass => ?_⟩
    · cases hb.symm.trans hnone
    · cases hb.symm.trans hb'
      cases hfail.symm.trans hpass

end Sys2Proof.Proofs
end

section
/-! Excitation groups: carrier cycles, the handover of a group and bursts (spec/03 R79 to R103), and a group's carrier periods in a tone
check (spec/04 R117, R130). -/
namespace Sys2Proof.Proofs
open Sys2Proof Sys2Proof.Machine

/-! ### Only the group changes -/

/-- Of the excitation groups only `g` changed. -/
def OtherGroupsKept (g : Nat) (s t : State) : Prop := ∀ k, k ≠ g → xgOf t k = xgOf s k

theorem otherGroupsKept_modXg {g : Nat} {f : XgSt → XgSt} {s : State} : OtherGroupsKept g s (modXg g f s) := fun _ => xgOf_modXg_ne g f s

theorem OtherGroupsKept.trans {g : Nat} {s t u : State} (h : OtherGroupsKept g s t) (h' : OtherGroupsKept g t u) : OtherGroupsKept g s u :=
  fun k hk => (h' k hk).trans (h k hk)

@[simp] theorem xgOf_setCond (q u kind sub : Nat) (b : Bool) (detail : Nat) (s : State) (g : Nat) :
    xgOf (setCond q u kind sub b detail s) g = xgOf s g := by
  unfold xgOf
  rw [setCond_xg]

/-- What the commands of a group leave alone: all but the groups, the units, the collector and frame memory. -/
def rest (s : State) : State := { s with xg := [], units := [], flt := {}, fm := {} }

@[simp] theorem rest_modXg (g : Nat) (f : XgSt → XgSt) (s : State) : rest (modXg g f s) = rest s := rfl

@[simp] theorem rest_modUnit (u : Nat) (f : UnitSt → UnitSt) (s : State) : rest (modUnit u f s) = rest s := rfl

@[simp] theorem rest_setCond (q u kind sub : Nat) (b : Bool) (detail : Nat) (s : State) : rest (setCond q u kind sub b detail s) = rest s := by
  have h := congrArg rest (setCond_frame q u kind sub b detail s)
  exact h

section
variable {s t : State} (h : rest t = rest s)
include h

theorem frame_of_rest_units : { t with xg := s.xg, flt := s.flt, fm := s.fm, units := s.units } = s :=
  congrArg (fun x : State => { x with xg := s.xg, flt := s.flt, fm := s.fm, units := s.units }) h

theorem frame_of_rest (hunits : t.units = s.units) : { t with xg := s.xg, flt := s.flt, fm := s.fm } = s := by
  have hframe := frame_of_rest_units h
  rwa [← hunits] at hframe

theorem inForce_of_rest : t.inForce = s.inForce := by
  have hin := congrArg (fun x : State => x.inForce) h
  exact hin

theorem xgReg_of_rest (g o : Nat) : xgReg t g o = xgReg s g o := by
  unfold xgReg inF
  rw [inForce_of_rest h]

end

/-! ### The cycle that starts -/

section
variable {s : State} {g i : Nat} {x : XgSt}

theorem nextCycle_ramp (hst : stOf s (0x4C0 + g) = .preparing) (hleft : x.rampCycle < 16) :
    nextCycle s g i x =
      { x with cyc := .ramp, rampCycle := x.rampCycle + 1, applied := if x.rampCycle = 0 then rampEnd s g x else amplNow s g x } := by
  simp [nextCycle, hst, hleft]

theorem nextCycle_ramped (hst : stOf s (0x4C0 + g) = .preparing) (hdone : 16 ≤ x.rampCycle) :
    nextCycle s g i x = { x with cyc := .valid, applied := amplNow s g x } := by
  simp [nextCycle, hst, Nat.not_lt.2 hdone]

/-- The first cycle of continuous drive after a gap is not valid. -/
theorem nextCycle_continuous (hst : stOf s (0x4C0 + g) ≠ .preparing) (hmode : burstMode s g = false) (hwait : waitsCont x i = false) :
    nextCycle s g i x =
      { x with cyc := if x.cyc = .gapFirst ∨ x.cyc = .gap then .invalid else .valid, applied := amplNow s g x } := by
  cases hcyc : x.cyc <;> simp [nextCycle, hst, hmode, hwait, hcyc]

theorem nextCycle_waits (hst : stOf s (0x4C0 + g) ≠ .preparing) (hmode : burstMode s g = false) (hwait : waitsCont x i = true) :
    nextCycle s g i x = { x with cyc := .gap } := by
  simp [nextCycle, hst, hmode, hwait]

theorem nextCycle_preBurst (hst : stOf s (0x4C0 + g) ≠ .preparing) (hmode : burstMode s g = true) (hpre : x.preBurst = true) :
    nextCycle s g i x = { x with cyc := .valid } := by
  simp [nextCycle, hst, hmode, hpre]

section
variable (hst : stOf s (0x4C0 + g) ≠ .preparing) (hmode : burstMode s g = true) (hpre : x.preBurst = false)
include hst hmode hpre

theorem nextCycle_burst (hleft : 0 < x.burstLeft) :
    nextCycle s g i x = { x with cyc := if x.burstLeft = x.burstLen then .settle else .valid, burstLeft := x.burstLeft - 1 } := by
  simp [nextCycle, hst, hmode, hpre, hleft]

theorem nextCycle_gap (hleft : x.burstLeft = 0) :
    nextCycle s g i x = { x with cyc := if x.cyc = .gapFirst ∨ x.cyc = .gap then .gap else .gapFirst } := by
  cases hcyc : x.cyc <;> simp [nextCycle, hst, hmode, hpre, hleft, hcyc]

end

/-- In the ramp's state and in continuous drive the cycle at a handover is not valid. -/
theorem handoverCycle_nextCycle (h : burstMode s g = false ∧ waitsCont x i = false ∨ stOf s (0x4C0 + g) = .preparing) :
    handoverCycle (nextCycle s g i x).cyc = .invalid := by
  by_cases hst : stOf s (0x4C0 + g) = .preparing
  · by_cases hleft : x.rampCycle < 16
    · rw [nextCycle_ramp hst hleft]
      rfl
    · rw [nextCycle_ramped hst (Nat.not_lt.1 hleft)]
      rfl
  · obtain ⟨hmode, hwait⟩ := h.resolve_right hst
    rw [nextCycle_continuous hst hmode hwait]
    dsimp only
    split <;> rfl

end

/-- What a cycle start makes of a group's drive: the cycle, and at a handover who drives it (R90). -/
def startedDrive (s : State) (g i : Nat) (x : XgSt) : XgSt :=
  let y := nextCycle s g i x
  if !(groupOn s g && !x.tripped) then { x with cyc := .off, driving := false, xen := false, handover := none, driveNext := false }
  else
    match x.handover with
    | some true => { y with cyc := handoverCycle y.cyc, handover := none, driveNext := true, driving := false, xen := true }
    | some false => { y with cyc := handoverCycle y.cyc, handover := none, driving := false, xen := false }
    | none => { y with driving := x.owner, xen := x.owner }

/-- A group after a cycle start: its drive, the time driven, and the cycle's place, frame and windows (R103). -/
def startedCycle (s : State) (g i : Nat) (x : XgSt) : XgSt :=
  countDrive (3125 * i)
    { startedDrive s g i x with
      inBurst := groupOn s g && !x.tripped && burstMode s g && stOf s (0x4C0 + g) != .preparing && !x.preBurst && decide (0 < x.burstLeft)
      cycAt := 3125 * i, cycFrame := frame64 s % 65536
      winV := xgReg s g 0x10, winI := xgReg s g 0x14, winP := xgReg s g 0x18 }

section
variable {s : State} {g i : Nat} {x : XgSt}

theorem startedDrive_off (h : groupOn s g = false ∨ x.tripped = true) :
    startedDrive s g i x = { x with cyc := .off, driving := false, xen := false, handover := none, driveNext := false } := by
  unfold startedDrive
  rcases h with h | h <;> simp [h]

section
variable (hon : groupOn s g = true) (htrip : x.tripped = false)
include hon htrip

theorem startedDrive_kept (hhand : x.handover = none) :
    startedDrive s g i x = { nextCycle s g i x with driving := x.owner, xen := x.owner } := by
  simp [startedDrive, hon, htrip, hhand]

theorem startedDrive_released (hhand : x.handover = some false) :
    startedDrive s g i x = { nextCycle s g i x with
      cyc := handoverCycle (nextCycle s g i x).cyc, handover := none, driving := false, xen := false } := by
  simp [startedDrive, hon, htrip, hhand]

theorem startedDrive_taken (hhand : x.handover = some true) :
    startedDrive s g i x = { nextCycle s g i x with
      cyc := handoverCycle (nextCycle s g i x).cyc, handover := none, driveNext := true, driving := false, xen := true } := by
  simp [startedDrive, hon, htrip, hhand]

end
end

section
variable (s : State) (g i : Nat) (x : XgSt)

@[simp] theorem startedCycle_cyc : (startedCycle s g i x).cyc = (startedDrive s g i x).cyc := rfl
@[simp] theorem startedCycle_driving : (startedCycle s g i x).driving = (startedDrive s g i x).driving := rfl
@[simp] theorem startedCycle_xen : (startedCycle s g i x).xen = (startedDrive s g i x).xen := rfl
@[simp] theorem startedCycle_handover : (startedCycle s g i x).handover = (startedDrive s g i x).handover := rfl
@[simp] theorem startedCycle_driveNext : (startedCycle s g i x).driveNext = (startedDrive s g i x).driveNext := rfl
@[simp] theorem startedCycle_applied : (startedCycle s g i x).applied = (startedDrive s g i x).applied := rfl
@[simp] theorem startedCycle_rampCycle : (startedCycle s g i x).rampCycle = (startedDrive s g i x).rampCycle := rfl
@[simp] theorem startedCycle_burstLeft : (startedCycle s g i x).burstLeft = (startedDrive s g i x).burstLeft := rfl

end

section
variable {s : State} {g i : Nat} {x : XgSt}

theorem startedCycle_off (h : groupOn s g = false ∨ x.tripped = true) :
    (startedCycle s g i x).cyc = .off ∧ (startedCycle s g i x).driving = false ∧ (startedCycle s g i x).xen = false := by
  simp [startedDrive_off h]

section
variable (hon : groupOn s g = true) (htrip : x.tripped = false)
include hon htrip

/-- The cycle starts of a group that drives without a handover (R79, R80, R82, R85, R86, R97). -/
theorem startedCycle_kept (hhand : x.handover = none) :
    (startedCycle s g i x).driving = x.owner ∧ (startedCycle s g i x).xen = x.owner ∧
    (startedCycle s g i x).cyc = (nextCycle s g i x).cyc ∧ (startedCycle s g i x).applied = (nextCycle s g i x).applied ∧
    (startedCycle s g i x).rampCycle = (nextCycle s g i x).rampCycle ∧ (startedCycle s g i x).burstLeft = (nextCycle s g i x).burstLeft := by
  simp [startedDrive_kept hon htrip hhand]

theorem startedCycle_released (hhand : x.handover = some false) :
    (startedCycle s g i x).driving = false ∧ (startedCycle s g i x).xen = false ∧ (startedCycle s g i x).handover = none ∧
    (startedCycle s g i x).cyc = handoverCycle (nextCycle s g i x).cyc := by
  simp [startedDrive_released hon htrip hhand]

theorem startedCycle_taken (hhand : x.handover = some true) :
    (startedCycle s g i x).driving = false ∧ (startedCycle s g i x).driveNext = true ∧ (startedCycle s g i x).handover = none ∧
    (startedCycle s g i x).cyc = handoverCycle (nextCycle s g i x).cyc := by
  simp [startedDrive_taken hon htrip hhand]

end
end

/-! ### CARRIER_CYCLE_START -/

section
variable {g : Fin 64} {s : State}

theorem exec_carrierCycleStart_of_onGrid {i : Nat} (hruns : sliceRuns s (g.val / 8) = true)
    (hgrid : (i + groupM s g.val - groupPhase s g.val) % groupM s g.val = 0) :
    exec (.carrierCycleStart g i) s = .next (cycleStart g.val i (toneCycle g.val i s)) :=
  congrArg Host.Outcome.next (if_pos (by simp [hruns, hgrid]))

theorem exec_carrierCycleStart_of_offGrid {i : Nat}
    (h : sliceRuns s (g.val / 8) = false ∨ (i + groupM s g.val - groupPhase s g.val) % groupM s g.val ≠ 0) :
    exec (.carrierCycleStart g i) s = .next s :=
  congrArg Host.Outcome.next (if_neg (by rcases h with h | h <;> simp [h]))

end

section
variable (g i : Nat) (s : State)

theorem xgOf_cycleStart : xgOf (cycleStart g i s) g = startedCycle s g i (xgOf s g) := xgOf_modXg ..

/-- What a group's cycle depends on is not of the tone checks. -/
theorem startedCycle_toneCycle (x : XgSt) : startedCycle (toneCycle g i s) g i x = startedCycle s g i x := rfl

theorem xgOf_cycleStart_toneCycle : xgOf (cycleStart g i (toneCycle g i s)) g = startedCycle s g i (xgOf s g) :=
  (xgOf_cycleStart ..).trans (startedCycle_toneCycle ..)

theorem run_toneCycle {r : ToneRun} (h : (toneOf s g).run = some r) : (toneOf (toneCycle g i s) g).run = some { r with
    began := true, periods := if r.began = true then r.periods + (if toneCounts s g = true then 1 else 0) else 0
    from_ := if r.began = true then r.from_ else i } := by
  cases hbegan : r.began <;> simp [toneCycle, h, hbegan]

theorem toneOf_toneCycle_ne {k : Nat} (hk : k ≠ g) : toneOf (toneCycle g i s) k = toneOf s k := toneOf_modTone_ne g _ s hk

theorem othersKept_cycleStart_toneCycle {k : Nat} (hk : k ≠ g) :
    xgOf (cycleStart g i (toneCycle g i s)) k = xgOf s k ∧ toneOf (cycleStart g i (toneCycle g i s)) k = toneOf s k :=
  ⟨xgOf_modXg_ne g _ _ hk, toneOf_toneCycle_ne g i s hk⟩

end

/-! ### HANDOVER_DRIVE_START -/

section
variable {g : Fin 64} {s : State}

theorem exec_handoverDriveStart_of_runs (hruns : sliceRuns s (g.val / 8) = true) :
    exec (.handoverDriveStart g) s = .next (handoverDrive g.val s) :=
  congrArg Host.Outcome.next (if_pos hruns)

theorem exec_handoverDriveStart_of_stopped (hruns : sliceRuns s (g.val / 8) = false) : exec (.handoverDriveStart g) s = .next s :=
  congrArg Host.Outcome.next (if_neg (by simp [hruns]))

end

theorem xgOf_handoverDrive {g : Nat} {s : State} (h : (xgOf s g).driveNext = true) :
    xgOf (handoverDrive g s) g = countDrive ((xgOf s g).cycAt + 3125)
      { xgOf s g with
        driveNext := false
        driving := (xgOf s g).owner && groupOn s g && !(xgOf s g).tripped
        xen := (xgOf s g).owner && groupOn s g && !(xgOf s g).tripped } := by
  rw [handoverDrive, xgOf_modXg, if_pos h]

/-! ### The amplitude loop (R81) -/

section
variable (g v : Nat) (s : State)

/-- A loop update takes its step and reports a limit. -/
theorem exists_xgOf_loopUpdate : ∃ lim run, xgOf (loopUpdate g v s) g =
    { xgOf s g with applied := loopStep s g v (xgOf s g).applied, loopLimit := lim, limRun := run } := by
  unfold loopUpdate loopLimit
  simp only [xgOf_setCond, xgOf_modXg]
  exact ⟨_, _, rfl⟩

variable {g v s} in
theorem otherGroupsKept_loopUpdate : OtherGroupsKept g s (loopUpdate g v s) := by
  intro k hk
  unfold loopUpdate loopLimit
  rw [xgOf_setCond, xgOf_modXg_ne _ _ _ hk, xgOf_modXg_ne _ _ _ hk]

@[simp] theorem rest_loopUpdate : rest (loopUpdate g v s) = rest s := by simp [loopUpdate, loopLimit]

@[simp] theorem units_loopUpdate : (loopUpdate g v s).units = s.units := by simp [loopUpdate, loopLimit]

end

/-! ### Bursts (R80, R81, R86, R88, R97, R98) -/

section
variable {g : Fin 64} {n : Nat} {s : State}

theorem exec_burstStart_of_due (hruns : sliceRuns s (g.val / 8) = true) (hdue : burstDue s g.val n = true) :
    exec (.burstStart g n) s = .next (burstStart g.val n s) :=
  congrArg Host.Outcome.next (if_pos (by simp [hruns, hdue]))

theorem exec_burstStart_of_not_due (h : sliceRuns s (g.val / 8) = false ∨ burstDue s g.val n = false) :
    exec (.burstStart g n) s = .next s :=
  congrArg Host.Outcome.next (if_neg (by rcases h with h | h <;> simp [h]))

theorem exec_burstEnd_of_burstMode (hruns : sliceRuns s (g.val / 8) = true) (hmode : burstMode s g.val = true)
    (hon : groupOn s g.val = true) : exec (.burstEnd g n) s = .next (burstEnd g.val n s) :=
  congrArg Host.Outcome.next (if_pos (by simp [hruns, hmode, hon]))

theorem exec_burstEnd_of_not_burstMode (h : sliceRuns s (g.val / 8) = false ∨ burstMode s g.val = false ∨ groupOn s g.val = false) :
    exec (.burstEnd g n) s = .next s :=
  congrArg Host.Outcome.next (if_neg (by rcases h with h | h | h <;> simp [h]))

end

/-- A group at the start of a burst of `len` cycles that serves frame `n`. -/
def begunBurst (s : State) (g n len : Nat) (x : XgSt) : XgSt :=
  { x with applied := amplNow s g x, burstLen := len, burstLeft := len, burstSum := 0, burstCount := 0, burstFrame := n, preBurst := false }

section
variable {g n : Nat} {s : State}

theorem burstStart_of_running (h : 0 < (xgOf s g).burstLeft) :
    burstStart g n s = modXg g (fun x => { x with
      burstLen := x.burstLen - x.burstLeft + burstLength s g n, burstLeft := burstLength s g n, burstFrame := n, preBurst := false }) s :=
  if_pos h

section
variable (hidle : (xgOf s g).burstLeft = 0)
include hidle

theorem burstStart_of_no_update (h : bitAt (xgReg s g 0) 4 = false ∨ (xgOf s g).burstCount = 0) :
    burstStart g n s = modXg g (begunBurst s g n (burstLength s g n)) s := by
  have hno : (bitAt (xgReg s g 0) 4 && decide (0 < (xgOf s g).burstCount)) = false := by rcases h with h | h <;> simp [h]
  simp only [burstStart, hidle, Nat.lt_irrefl, hno, if_false, Bool.false_eq_true]
  rfl

theorem burstStart_of_update (hloop : bitAt (xgReg s g 0) 4 = true) (hcount : 0 < (xgOf s g).burstCount) :
    burstStart g n s = modXg g (begunBurst (loopUpdate g (burstMean (xgOf s g)) s) g n (burstLength s g n))
      (loopUpdate g (burstMean (xgOf s g)) s) := by
  have hyes : (bitAt (xgReg s g 0) 4 && decide (0 < (xgOf s g).burstCount)) = true := by simp [hloop, hcount]
  simp only [burstStart, hidle, Nat.lt_irrefl, hyes, if_true, if_false]
  rfl

end

theorem amplNow_of_loop (hloop : bitAt (xgReg s g 0) 4 = true) (x : XgSt) : amplNow s g x = min x.applied (fld (xgReg s g 4) 0 16) :=
  if_pos hloop

theorem amplNow_loopUpdate (hloop : bitAt (xgReg s g 0) 4 = true) (v : Nat) :
    amplNow (loopUpdate g v s) g (xgOf (loopUpdate g v s) g) =
      min (loopStep s g v (xgOf s g).applied) (fld (xgReg s g 4) 0 16) := by
  obtain ⟨lim, run, h⟩ := exists_xgOf_loopUpdate g v s
  have hreg := xgReg_of_rest (rest_loopUpdate g v s) g
  rw [amplNow_of_loop (by rw [hreg, hloop]), hreg, h]

/-- A group whose burst ends. -/
theorem xgOf_burstEnd_of_ends (hfrom : match (xgOf s g).burstFrom with | some f => f ≤ n + 1 | none => True)
    (hframe : (xgOf s g).burstFrame ≤ n) :
    xgOf (burstEnd g n s) g = { xgOf s g with
      burstLeft := 0, preBurst := if (xgOf s g).burstFrom.isSome = true then false else (xgOf s g).preBurst } := by
  rw [burstEnd, xgOf_modXg]
  cases hb : (xgOf s g).burstFrom with
  | none => simp [Nat.not_lt.2 hframe, hb]
  | some f =>
    rw [hb] at hfrom
    simp [Nat.not_lt.2 hframe, Nat.not_lt.2 (show f ≤ n + 1 from hfrom), hb]

theorem xgOf_burstEnd_of_goes_on (h : n < (xgOf s g).burstFrame ∨ ∃ f, (xgOf s g).burstFrom = some f ∧ n + 1 < f) :
    xgOf (burstEnd g n s) g = xgOf s g := by
  rw [burstEnd, xgOf_modXg]
  cases hb : (xgOf s g).burstFrom with
  | none => exact if_pos (h.resolve_right (by simp [hb]))
  | some f =>
    rw [hb] at h
    exact if_pos (h.symm.imp_left fun ⟨f', hf, hlt⟩ => Option.some.inj hf ▸ hlt)

end

/-! ### The statement on drive -/

/-- Settles O10: the cycles by `startedCycle` and `nextCycle`, the bursts by what `burstStart` and `burstEnd` do to the group. -/
theorem driveCycles : Obligations.DriveCycles := by
  refine ⟨⟨fun g i s hruns hgrid => ?_, fun g i s => exec_carrierCycleStart_of_offGrid,
    fun g s => exec_handoverDriveStart_of_stopped, fun g s hruns hnext => ?_⟩, fun g n s hruns hdue => ⟨fun hidle => ?_, fun hleft => ?_⟩,
    fun g n s hruns hmode hon => ⟨fun hfrom hframe => ?_, fun h => ?_⟩, fun g n s => exec_burstStart_of_not_due,
    fun g n s => exec_burstEnd_of_not_burstMode⟩
  · refine ⟨_, exec_carrierCycleStart_of_onGrid hruns hgrid, ?_⟩
    rw [xgOf_cycleStart_toneCycle]
    refine ⟨startedCycle_off, fun hon htrip hhand => ?_, fun hon htrip hhand => ?_, fun hon htrip hhand => ?_, rfl, rfl, rfl, rfl,
      fun r => run_toneCycle g.val i s, fun k => othersKept_cycleStart_toneCycle g.val i s, rfl⟩
    · obtain ⟨hdriving, hxen, hcyc, happlied, hramp, hburst⟩ := startedCycle_kept (i := i) hon htrip hhand
      rw [hcyc, happlied, hramp, hburst]
      refine ⟨hdriving, hxen, fun hst hleft => ?_, fun hst hdone => ?_, fun hst hmode hwait => ?_, fun hst hmode hwait => ?_,
        fun hst hmode hpre => ?_, fun hst hmode hpre hleft => ?_, fun hst hmode hpre hleft => ?_⟩
      · simp [nextCycle_ramp hst hleft]
      · simp [nextCycle_ramped hst hdone]
      · simp [nextCycle_continuous hst hmode hwait]
      · simp [nextCycle_waits hst hmode hwait]
      · simp [nextCycle_preBurst hst hmode hpre]
      · simp [nextCycle_burst hst hmode hpre hleft]
      · simp [nextCycle_gap hst hmode hpre hleft]
    · obtain ⟨hdriving, hxen, hnone, hcyc⟩ := startedCycle_released (i := i) hon htrip hhand
      exact ⟨hdriving, hxen, hnone, fun h => hcyc.trans (handoverCycle_nextCycle h)⟩
    · obtain ⟨hdriving, hnext, hnone, hcyc⟩ := startedCycle_taken (i := i) hon htrip hhand
      exact ⟨hdriving, hnext, hnone, fun h => hcyc.trans (handoverCycle_nextCycle h)⟩
  · exact ⟨_, exec_handoverDriveStart_of_runs hruns, xgOf_handoverDrive hnext, otherGroupsKept_modXg, rfl⟩
  · refine ⟨_, exec_burstStart_of_due hruns hdue, ?_⟩
    by_cases hupd : bitAt (xgReg s g.val 0) 4 = true ∧ 0 < (xgOf s g.val).burstCount
    · obtain ⟨hloop, hcount⟩ := hupd
      rw [burstStart_of_update hidle hloop hcount, xgOf_modXg]
      refine ⟨rfl, rfl, rfl, rfl, rfl, rfl, fun h => ?_, fun _ _ => amplNow_loopUpdate hloop _,
        otherGroupsKept_loopUpdate.trans otherGroupsKept_modXg, frame_of_rest (by simp) (by simp)⟩
      rcases h with h | h
      · cases hloop.symm.trans h
      · exact absurd h hcount.ne'
    · have hno : bitAt (xgReg s g.val 0) 4 = false ∨ (xgOf s g.val).burstCount = 0 := by
        simpa [Nat.pos_iff_ne_zero, imp_iff_not_or] using hupd
      rw [burstStart_of_no_update hidle hno, xgOf_modXg]
      exact ⟨rfl, rfl, rfl, rfl, rfl, rfl, fun _ => ⟨rfl, rfl⟩, fun hloop hcount => absurd ⟨hloop, hcount⟩ hupd,
        otherGroupsKept_modXg, rfl⟩
  · refine ⟨_, exec_burstStart_of_due hruns hdue, ?_⟩
    rw [burstStart_of_running hleft, xgOf_modXg]
    exact ⟨rfl, otherGroupsKept_modXg, rfl⟩
  · exact ⟨_, exec_burstEnd_of_burstMode hruns hmode hon, xgOf_burstEnd_of_ends hfrom hframe, otherGroupsKept_modXg, rfl⟩
  · refine ⟨_, exec_burstEnd_of_burstMode hruns hmode hon, fun k => ?_, rfl⟩
    by_cases hk : k = g.val
    · rw [hk, xgOf_burstEnd_of_goes_on h]
    · exact otherGroupsKept_modXg k hk

end Sys2Proof.Proofs
end

section
/-! The sense windows of excitation groups, the trip and the amplitude loop of continuous drive (spec/03 R77, R81, R91, R92, R96, R103). -/
namespace Sys2Proof.Proofs
open Sys2Proof Sys2Proof.Machine

/-! ### Conditions of several kinds -/

theorem condKey_ne {u kind kind' : Nat} (h : kind' ≠ kind) : condKey u kind' 0 ≠ condKey u kind 0 := by
  unfold condKey
  omega

theorem condOf_of_conds {s t : State} (h : t.flt.conds = s.flt.conds) (u kind sub : Nat) : condOf t u kind sub = condOf s u kind sub := by
  unfold condOf
  rw [h]

@[simp] theorem condOf_setCond_ne (q u kind : Nat) (b : Bool) (detail : Nat) (s : State) {kind' : Nat} (h : kind' ≠ kind) :
    condOf (setCond q u kind 0 b detail s) u kind' 0 = condOf s u kind' 0 := by
  have hget : Tbl.get (constD false) (Tbl.set (constD false) s.flt.conds (condKey u kind 0) b) (condKey u kind' 0) = condOf s u kind' 0 :=
    Tbl.get_set_ne _ _ _ (condKey_ne h)
  unfold setCond
  dsimp only
  split
  · unfold condOf
    rw [raiseFault_flt_conds]
    exact hget
  · exact hget

@[simp] theorem condOf_modXg (g : Nat) (f : XgSt → XgSt) (s : State) (u kind sub : Nat) :
    condOf (modXg g f s) u kind sub = condOf s u kind sub := rfl

@[simp] theorem condOf_modUnit (k : Nat) (f : UnitSt → UnitSt) (s : State) (u kind sub : Nat) :
    condOf (modUnit k f s) u kind sub = condOf s u kind sub := rfl

/-! ### Valid cycles: the windows -/

/-- A run of cycles outside a window, `n` at most. -/
def runAfter (n : Nat) (out : Bool) (run : Nat) : Nat := if out then min n (run + 1) else 0

/-- A valid cycle is good: in every window and, where the loop is on, within 1 % of the target. -/
def goodCycle (s : State) (g v i : Nat) (ph : Int) (x : XgSt) : Bool :=
  !decide (v < fld x.winV 0 16) && !decide (fld x.winV 16 16 < v) && !decide (i < fld x.winI 0 16) && !decide (fld x.winI 16 16 < i) &&
    !(!phaseOk x.winP ph) &&
    (!bitAt (xgReg s g 0) 4 || decide (((v : Int) - fld (xgReg s g 0xC) 0 16).natAbs * 100 ≤ fld (xgReg s g 0xC) 0 16))

/-- A group after a valid cycle was compared with the windows `x.winV`, `x.winI` and `x.winP`. -/
def compared (s : State) (g v i : Nat) (ph : Int) (x : XgSt) : XgSt :=
  { x with
    vLow := decide (v < fld x.winV 0 16), vHigh := decide (fld x.winV 16 16 < v)
    iLow := decide (i < fld x.winI 0 16), iHigh := decide (fld x.winI 16 16 < i), phFail := !phaseOk x.winP ph
    good := runAfter (senseCount s g) (goodCycle s g v i ph x) x.good
    vLoRun := runAfter (senseCount s g) (decide (v < fld x.winV 0 16)) x.vLoRun
    vHiRun := runAfter (senseCount s g) (decide (fld x.winV 16 16 < v)) x.vHiRun
    iLoRun := runAfter (senseCount s g) (decide (i < fld x.winI 0 16)) x.iLoRun
    phRun := runAfter (senseCount s g) (!phaseOk x.winP ph) x.phRun }

/-- The conditions of the windows, kinds 0x20 to 0x24, from a group `y` that was compared. -/
def windowConds (g n v i : Nat) (ph : Int) (y : XgSt) (own : Nat) (s : State) : State :=
  setCond qXCG (0x4C0 + g) 0x23 0 y.iHigh (i % 65536 + own)
    (setCond qXCG (0x4C0 + g) 0x24 0 (y.phFail && y.phRun == n) (unsig 16 ph + own)
      (setCond qXCG (0x4C0 + g) 0x22 0 (y.iLow && y.iLoRun == n) (i % 65536 + own)
        (setCond qXCG (0x4C0 + g) 0x21 0 (y.vHigh && y.vHiRun == n) (v % 65536 + own)
          (setCond qXCG (0x4C0 + g) 0x20 0 (y.vLow && y.vLoRun == n) (v % 65536 + own) s))))

/-- What the conditions of the windows show of a group `y` that was compared. -/
def CondsShown (g n : Nat) (y : XgSt) (s : State) : Prop :=
  condOf s (0x4C0 + g) 0x20 0 = (y.vLow && y.vLoRun == n) ∧ condOf s (0x4C0 + g) 0x21 0 = (y.vHigh && y.vHiRun == n) ∧
  condOf s (0x4C0 + g) 0x22 0 = (y.iLow && y.iLoRun == n) ∧ condOf s (0x4C0 + g) 0x23 0 = y.iHigh ∧
  condOf s (0x4C0 + g) 0x24 0 = (y.phFail && y.phRun == n)

theorem condsShown_windowConds (g n v i : Nat) (ph : Int) (y : XgSt) (own : Nat) (s : State) :
    CondsShown g n y (windowConds g n v i ph y own s) := by
  simp [CondsShown, windowConds]

theorem CondsShown.of_condOf {g n : Nat} {y : XgSt} {s t : State} (hs : CondsShown g n y s)
    (h : ∀ kind, kind ≠ 0x25 → condOf t (0x4C0 + g) kind 0 = condOf s (0x4C0 + g) kind 0) : CondsShown g n y t := by
  unfold CondsShown
  rw [h _ (by decide), h _ (by decide), h _ (by decide), h _ (by decide), h _ (by decide)]
  exact hs

/-- Enough good cycles end the preparation of a group `y`. -/
def endPreparing (g n : Nat) (y : XgSt) (s : State) : State :=
  doIf (stOf s (0x4C0 + g) == .preparing && y.good == n) (modUnit (0x4C0 + g) (fun z => { z with prepDone := true })) s

section
variable (g v i : Nat) (ph : Int) (s : State)

theorem senseWindows_eq : senseWindows g v i ph s =
    doIf ((compared s g v i ph (xgOf s g)).iHigh && (compared s g v i ph (xgOf s g)).owner) (tripGroup g)
      (endPreparing g (senseCount s g) (compared s g v i ph (xgOf s g))
        (windowConds g (senseCount s g) v i ph (compared s g v i ph (xgOf s g)) (flag (!(xgOf s g).owner) 31)
          (modXg g (compared s g v i ph) s))) := by
  unfold senseWindows
  simp only [xgOf_modXg]
  rfl

@[simp] theorem xgOf_windowConds (n : Nat) (y : XgSt) (own k : Nat) : xgOf (windowConds g n v i ph y own s) k = xgOf s k := by
  simp [windowConds]

@[simp] theorem rest_windowConds (n : Nat) (y : XgSt) (own : Nat) : rest (windowConds g n v i ph y own s) = rest s := by
  simp [windowConds]

end

section
variable (g n : Nat) (y : XgSt) (b : Bool) (s : State)

@[simp] theorem xgOf_endPreparing (k : Nat) : xgOf (endPreparing g n y s) k = xgOf s k := by
  unfold endPreparing doIf
  split <;> rfl

@[simp] theorem rest_endPreparing : rest (endPreparing g n y s) = rest s := by
  unfold endPreparing doIf
  split <;> rfl

@[simp] theorem condOf_endPreparing (u kind sub : Nat) : condOf (endPreparing g n y s) u kind sub = condOf s u kind sub := by
  unfold endPreparing doIf
  split <;> rfl

@[simp] theorem rest_tripGroup : rest (doIf b (tripGroup g) s) = rest s := by cases b <;> rfl

@[simp] theorem condOf_tripGroup (u kind sub : Nat) : condOf (doIf b (tripGroup g) s) u kind sub = condOf s u kind sub := by
  cases b <;> rfl

theorem otherGroupsKept_tripGroup {g : Nat} {b : Bool} {s : State} : OtherGroupsKept g s (doIf b (tripGroup g) s) := by
  cases b with
  | false => exact fun _ _ => rfl
  | true =>
    rw [doIf_true, tripGroup]
    exact otherGroupsKept_modXg

/-- The trip changes a group's drive and what shows the trip (R92). -/
theorem exists_xgOf_tripGroup : ∃ tr k d dr xe cs,
    xgOf (doIf b (tripGroup g) s) g =
      { xgOf s g with tripped := tr, trips := k, driven := d, driving := dr, xen := xe, carrierSince := cs } ∧
    (b = true → tr = true ∧ dr = false ∧ xe = false ∧ k = satInc 16 (xgOf s g).trips) ∧
    (b = false → tr = (xgOf s g).tripped ∧ dr = (xgOf s g).driving) := by
  cases b with
  | false => exact ⟨_, _, _, _, _, _, rfl, nofun, fun _ => ⟨rfl, rfl⟩⟩
  | true =>
    rw [doIf_true, tripGroup, xgOf_modXg]
    exact ⟨_, _, _, _, _, _, rfl, fun _ => ⟨rfl, rfl, rfl, rfl⟩, nofun⟩

end

section
variable (g v i : Nat) (ph : Int) (s : State)

theorem exists_xgOf_senseWindows : ∃ tr k d dr xe cs,
    xgOf (senseWindows g v i ph s) g = { compared s g v i ph (xgOf s g) with
      tripped := tr, trips := k, driven := d, driving := dr, xen := xe, carrierSince := cs } ∧
    (fld (xgOf s g).winI 16 16 < i → (xgOf s g).owner = true → tr = true ∧ dr = false ∧ xe = false ∧ k = satInc 16 (xgOf s g).trips) ∧
    (i ≤ fld (xgOf s g).winI 16 16 ∨ (xgOf s g).owner = false → tr = (xgOf s g).tripped ∧ dr = (xgOf s g).driving) := by
  have hgroup : xgOf (endPreparing g (senseCount s g) (compared s g v i ph (xgOf s g))
      (windowConds g (senseCount s g) v i ph (compared s g v i ph (xgOf s g)) (flag (!(xgOf s g).owner) 31)
        (modXg g (compared s g v i ph) s))) g = compared s g v i ph (xgOf s g) := by simp
  obtain ⟨tr, k, d, dr, xe, cs, h, htrip, hno⟩ := exists_xgOf_tripGroup g
    ((compared s g v i ph (xgOf s g)).iHigh && (compared s g v i ph (xgOf s g)).owner) _
  rw [hgroup] at h htrip hno
  refine ⟨tr, k, d, dr, xe, cs, ?_, fun hi ho => htrip ?_, fun h => hno ?_⟩
  · rw [senseWindows_eq, h]
  · simp [compared, hi, ho]
  · rcases h with h | h <;> simp [compared, h]

variable {g v i ph s} in
theorem otherGroupsKept_senseWindows : OtherGroupsKept g s (senseWindows g v i ph s) := by
  intro k hk
  rw [senseWindows_eq, otherGroupsKept_tripGroup k hk, xgOf_endPreparing, xgOf_windowConds, xgOf_modXg_ne _ _ _ hk]

@[simp] theorem rest_senseWindows : rest (senseWindows g v i ph s) = rest s := by simp [senseWindows_eq]

theorem condsShown_senseWindows :
    CondsShown g (senseCount s g) (compared s g v i ph (xgOf s g)) (senseWindows g v i ph s) := by
  rw [senseWindows_eq]
  exact (condsShown_windowConds ..).of_condOf fun kind _ => by rw [condOf_tripGroup, condOf_endPreparing]

end

/-! ### Valid cycles: the amplitude loop -/

/-- What a valid cycle does after its windows (R81): the loop's update in continuous drive, the burst's mean in a burst. -/
def amplitudeStep (g v : Nat) (s : State) : State :=
  if bitAt (xgReg s g 0) 4 && !(xgOf s g).tripped then
    if burstMode s g && stOf s (0x4C0 + g) != .preparing then
      if (xgOf s g).preBurst then s else modXg g (fun x => { x with burstSum := x.burstSum + v, burstCount := x.burstCount + 1 }) s
    else loopUpdate g v s
  else s

theorem condOf_loopUpdate_ne (g v : Nat) (s : State) {kind : Nat} (h : kind ≠ 0x25) :
    condOf (loopUpdate g v s) (0x4C0 + g) kind 0 = condOf s (0x4C0 + g) kind 0 := by
  unfold loopUpdate loopLimit
  dsimp only
  rw [condOf_setCond_ne _ _ _ _ _ _ h, condOf_modXg, condOf_modXg]

section
variable {g v : Nat} {s : State}

theorem amplitudeStep_of_loop_off (h : bitAt (xgReg s g 0) 4 = false) : amplitudeStep g v s = s := by simp [amplitudeStep, h]

theorem amplitudeStep_of_loop_on (hloop : bitAt (xgReg s g 0) 4 = true) (htrip : (xgOf s g).tripped = false)
    (hmode : burstMode s g = false) : amplitudeStep g v s = loopUpdate g v s := by simp [amplitudeStep, hloop, htrip, hmode]

variable (g v s)

/-- Nothing, a cycle counted for the burst's mean, or a loop update. -/
theorem amplitudeStep_cases : amplitudeStep g v s = s ∨
    amplitudeStep g v s = modXg g (fun x => { x with burstSum := x.burstSum + v, burstCount := x.burstCount + 1 }) s ∨
    amplitudeStep g v s = loopUpdate g v s := by
  unfold amplitudeStep
  split
  · split
    · split
      · exact .inl rfl
      · exact .inr (.inl rfl)
    · exact .inr (.inr rfl)
  · exact .inl rfl

theorem exists_xgOf_amplitudeStep : ∃ a lim run sum cnt, xgOf (amplitudeStep g v s) g =
    { xgOf s g with applied := a, loopLimit := lim, limRun := run, burstSum := sum, burstCount := cnt } := by
  rcases amplitudeStep_cases g v s with h | h | h
  · rw [h]
    exact ⟨_, _, _, _, _, rfl⟩
  · rw [h, xgOf_modXg]
    exact ⟨_, _, _, _, _, rfl⟩
  · obtain ⟨lim, run, hx⟩ := exists_xgOf_loopUpdate g v s
    rw [h, hx]
    exact ⟨_, _, _, _, _, rfl⟩

variable {g v s} in
theorem otherGroupsKept_amplitudeStep : OtherGroupsKept g s (amplitudeStep g v s) := by
  rcases amplitudeStep_cases g v s with h | h | h <;> rw [h]
  · exact fun _ _ => rfl
  · exact otherGroupsKept_modXg
  · exact otherGroupsKept_loopUpdate

@[simp] theorem rest_amplitudeStep : rest (amplitudeStep g v s) = rest s := by
  rcases amplitudeStep_cases g v s with h | h | h <;> simp [h]

theorem condOf_amplitudeStep_ne {kind : Nat} (h : kind ≠ 0x25) :
    condOf (amplitudeStep g v s) (0x4C0 + g) kind 0 = condOf s (0x4C0 + g) kind 0 := by
  rcases amplitudeStep_cases g v s with hs | hs | hs <;> rw [hs]
  · exact condOf_modXg ..
  · exact condOf_loopUpdate_ne g v s h

end

/-! ### SENSE_CYCLE -/

section
variable {g : Fin 64} {v i : Nat} {ph : Int} {s : State}

theorem exec_senseCycle_of_on (hruns : sliceRuns s (g.val / 8) = true) (hon : groupOn s g.val = true) :
    exec (.senseCycle g v i ph) s = .next (senseCycle g.val v i ph s) :=
  congrArg Host.Outcome.next (if_pos (by simp [hruns, hon]))

theorem exec_senseCycle_of_off (h : sliceRuns s (g.val / 8) = false ∨ groupOn s g.val = false) :
    exec (.senseCycle g v i ph) s = .next s :=
  congrArg Host.Outcome.next (if_neg (by rcases h with h | h <;> simp [h]))

end

/-- A group with the measurements of the cycle that ends, the phase as an s8. -/
def measured (v i : Nat) (ph : Int) (x : XgSt) : XgSt := { x with v, i, ph := signed 8 (unsig 8 ph), measFrame := x.cycFrame }

section
variable {g v i : Nat} {ph : Int} {s : State}

theorem senseCycle_of_ramp (h : (xgOf s g).cyc = .ramp) : senseCycle g v i ph s = modXg g (measured v i ph) s := by
  simp only [senseCycle, h]
  rfl

theorem senseCycle_of_valid (h : (xgOf s g).cyc = .valid) :
    senseCycle g v i ph s = amplitudeStep g v (senseWindows g v i (signed 8 (unsig 8 ph)) (modXg g (measured v i ph) s)) := by
  simp only [senseCycle, h]
  rfl

theorem senseCycle_of_gap (h : (xgOf s g).cyc = .gap) : senseCycle g v i ph s = senseGap g v s := by
  simp only [senseCycle, h]

theorem senseCycle_of_other (h : (xgOf s g).cyc = .off ∨ (xgOf s g).cyc = .settle ∨ (xgOf s g).cyc = .invalid ∨ (xgOf s g).cyc = .gapFirst) :
    senseCycle g v i ph s = s := by
  rcases h with h | h | h | h <;> simp only [senseCycle, h]

/-- A gap cycle after the first is compared with a quarter of VLO (R96). -/
theorem xgOf_senseGap : xgOf (senseGap g v s) g = { xgOf s g with
    gapRun := if fld (xgOf s g).winV 0 16 < 4 * v then min (senseCount s g) ((xgOf s g).gapRun + 1) else 0
    driveGap := decide (fld (xgOf s g).winV 0 16 < 4 * v ∧ senseCount s g ≤ (xgOf s g).gapRun + 1) } := by
  have hfull : (min (senseCount s g) ((xgOf s g).gapRun + 1) == senseCount s g) = decide (senseCount s g ≤ (xgOf s g).gapRun + 1) :=
    Bool.eq_iff_iff.2 (beq_iff_eq.trans (min_eq_left_iff.trans decide_eq_true_iff.symm))
  unfold senseGap
  simp only [xgOf_setCond, xgOf_modXg]
  by_cases h : fld (xgOf s g).winV 0 16 < 4 * v
  · simp [h, hfull]
  · simp [h]

theorem condOf_senseGap : condOf (senseGap g v s) (0x4C0 + g) 0x26 0 = (xgOf (senseGap g v s) g).driveGap := by
  unfold senseGap
  simp only [condOf_setCond, xgOf_setCond, xgOf_modXg]

theorem otherGroupsKept_senseGap : OtherGroupsKept g s (senseGap g v s) := by
  intro k hk
  unfold senseGap
  rw [xgOf_setCond, xgOf_modXg_ne _ _ _ hk]

theorem senseGap_frame : { senseGap g v s with xg := s.xg, flt := s.flt, fm := s.fm } = s :=
  frame_of_rest (by simp [senseGap]) (by simp [senseGap])

theorem loopStep_of_rest {t : State} (h : rest t = rest s) (a : Nat) : loopStep t g v a = loopStep s g v a := by
  unfold loopStep
  simp only [xgReg_of_rest h]

theorem burstMode_of_rest {t : State} (h : rest t = rest s) : burstMode t g = burstMode s g := by
  unfold burstMode
  rw [xgReg_of_rest h]

end

section
variable {g i v : Nat} {ph : Int} {s : State}

/-- A group after a valid cycle: measured, compared, and what the trip and the loop make of its drive and its amplitude. -/
theorem exists_xgOf_senseCycle_of_valid (h : (xgOf s g).cyc = .valid) : ∃ tr k d dr xe cs a lim run sum cnt,
    xgOf (senseCycle g v i ph s) g = { compared s g v i (signed 8 (unsig 8 ph)) (measured v i ph (xgOf s g)) with
      tripped := tr, trips := k, driven := d, driving := dr, xen := xe, carrierSince := cs
      applied := a, loopLimit := lim, limRun := run, burstSum := sum, burstCount := cnt } ∧
    (fld (xgOf s g).winI 16 16 < i → (xgOf s g).owner = true → tr = true ∧ dr = false ∧ xe = false ∧ k = satInc 16 (xgOf s g).trips) ∧
    (i ≤ fld (xgOf s g).winI 16 16 ∨ (xgOf s g).owner = false → tr = (xgOf s g).tripped ∧ dr = (xgOf s g).driving ∧
      (bitAt (xgReg s g 0) 4 = true → (xgOf s g).tripped = false → burstMode s g = false →
        a = loopStep s g v (xgOf s g).applied)) ∧
    (bitAt (xgReg s g 0) 4 = false → a = (xgOf s g).applied) := by
  obtain ⟨tr, k, d, dr, xe, cs, hw, htrip, hno⟩ :=
    exists_xgOf_senseWindows g v i (signed 8 (unsig 8 ph)) (modXg g (measured v i ph) s)
  rw [senseCycle_of_valid h]
  have hrest : rest (senseWindows g v i (signed 8 (unsig 8 ph)) (modXg g (measured v i ph) s)) = rest s := by simp
  generalize senseWindows g v i (signed 8 (unsig 8 ph)) (modXg g (measured v i ph) s) = w at hw hrest ⊢
  rw [xgOf_modXg] at hw htrip hno
  obtain ⟨a, lim, run, sum, cnt, hx⟩ := exists_xgOf_amplitudeStep g v w
  refine ⟨tr, k, d, dr, xe, cs, a, lim, run, sum, cnt, ?_, htrip, fun hin => ?_, fun hloop => ?_⟩
  · rw [hx, hw]
    rfl
  · obtain ⟨htr, hdr⟩ := hno hin
    refine ⟨htr, hdr, fun hloop hnot hmode => ?_⟩
    have hstep := amplitudeStep_of_loop_on (v := v) (s := w) (g := g) (by rw [xgReg_of_rest hrest, hloop])
      (by rw [hw]; exact htr.trans hnot) (by rw [burstMode_of_rest hrest, hmode])
    obtain ⟨lim', run', hupd⟩ := exists_xgOf_loopUpdate g v w
    have happlied := congrArg XgSt.applied (hx.symm.trans ((congrArg (xgOf · g) hstep).trans hupd))
    rw [hw] at happlied
    exact happlied.trans (loopStep_of_rest hrest _)
  · have hstep := amplitudeStep_of_loop_off (v := v) (s := w) (g := g) (by rw [xgReg_of_rest hrest, hloop])
    have happlied := congrArg XgSt.applied (hx.symm.trans (congrArg (xgOf · g) hstep))
    rw [hw] at happlied
    exact happlied

theorem condsShown_senseCycle_of_valid (h : (xgOf s g).cyc = .valid) : CondsShown g (senseCount s g)
    (compared s g v i (signed 8 (unsig 8 ph)) (measured v i ph (xgOf s g))) (senseCycle g v i ph s) := by
  have hw := condsShown_senseWindows g v i (signed 8 (unsig 8 ph)) (modXg g (measured v i ph) s)
  rw [xgOf_modXg] at hw
  rw [senseCycle_of_valid h]
  exact hw.of_condOf fun kind => condOf_amplitudeStep_ne g v _

theorem otherGroupsKept_senseCycle_of_valid (h : (xgOf s g).cyc = .valid) : OtherGroupsKept g s (senseCycle g v i ph s) := by
  rw [senseCycle_of_valid h]
  exact (otherGroupsKept_modXg.trans otherGroupsKept_senseWindows).trans otherGroupsKept_amplitudeStep

theorem senseCycle_frame_of_valid (h : (xgOf s g).cyc = .valid) :
    { senseCycle g v i ph s with xg := s.xg, flt := s.flt, fm := s.fm, units := s.units } = s := by
  rw [senseCycle_of_valid h]
  exact frame_of_rest_units (by simp)

end

/-- Settles O11: a valid cycle is `senseWindows`, then `amplitudeStep`. -/
theorem senseRules : Obligations.SenseRules := by
  refine ⟨fun g v i ph s => exec_senseCycle_of_off, fun g v i ph s hruns hon => ?_⟩
  rw [exec_senseCycle_of_on hruns hon]
  refine ⟨fun h => congrArg _ (senseCycle_of_other h), fun h => ⟨_, rfl, ?_⟩, fun h => ⟨_, rfl, ?_⟩, fun h => ⟨_, rfl, ?_⟩⟩
  · rw [senseCycle_of_gap h]
    exact ⟨xgOf_senseGap, condOf_senseGap, otherGroupsKept_senseGap, senseGap_frame⟩
  · rw [senseCycle_of_ramp h]
    exact ⟨xgOf_modXg .., otherGroupsKept_modXg, rfl⟩
  · obtain ⟨tr, k, d, dr, xe, cs, a, lim, run, sum, cnt, hx, htrip, hno, hoff⟩ :=
      exists_xgOf_senseCycle_of_valid (v := v) (i := i) (ph := ph) h
    obtain ⟨hvLow, hvHigh, hiLow, hiHigh, hphase⟩ := condsShown_senseCycle_of_valid (v := v) (i := i) (ph := ph) h
    rw [hx]
    exact ⟨rfl, rfl, rfl, rfl, rfl, rfl, rfl, rfl, rfl, hvLow, hvHigh, hiLow, hiHigh, hphase, rfl, rfl, rfl, rfl, htrip, hno, hoff,
      otherGroupsKept_senseCycle_of_valid h, senseCycle_frame_of_valid h⟩

end Sys2Proof.Proofs
end

section
/-! Tone checks of resolver channels (spec/04 R117, R118, R121, R122, R130), pin bias, the wire-check current and the tone injected
(spec/04 R107, R109, R117, R124, R128). -/
namespace Sys2Proof.Proofs
open Sys2Proof Sys2Proof.Machine

/-! ### Faults at most -/

/-- From `s` to `t` the collector and frame memory alone have changed: faults were raised, at most. -/
def FaultsOnly (s t : State) : Prop := { t with flt := s.flt, fm := s.fm } = s

theorem faultsOnly_refl (s : State) : FaultsOnly s s := rfl

theorem faultsOnly_raiseFault (q u kind detail : Nat) (s : State) : FaultsOnly s (raiseFault q u kind detail s) := raiseFault_frame ..

theorem faultsOnly_ite {c : Prop} [Decidable c] {s t u : State} (ht : FaultsOnly s t) (hu : FaultsOnly s u) :
    FaultsOnly s (if c then t else u) := by
  split
  · exact ht
  · exact hu

/-! ### The tone mailbox -/

section
variable (code chan : Nat) (zs zc xt : Word) (s : State)

@[simp] theorem toneBox_toneMail : (toneMail code chan zs zc xt s).toneBox =
    { seq := (s.toneBox.seq + 1) % 65536, fresh := true, code, chan, zs, zc, xt, busy := false } := by
  unfold toneMail
  rw [intSource_toneBox]

@[simp] theorem tone_toneMail : (toneMail code chan zs zc xt s).tone = s.tone := by
  unfold toneMail
  rw [intSource_tone]

@[simp] theorem rc_toneMail : (toneMail code chan zs zc xt s).rc = s.rc := by
  unfold toneMail
  rw [intSource_rc]

@[simp] theorem tone_toneCode : (toneCode code chan s).tone = s.tone := tone_toneMail ..

end

theorem toneOf_of_tone {s t : State} (h : t.tone = s.tone) (g : Nat) : toneOf t g = toneOf s g := by
  unfold toneOf
  rw [h]

theorem rcOf_of_rc {s t : State} (h : t.rc = s.rc) (c : Nat) : rcOf t c = rcOf s c := by
  unfold rcOf
  rw [h]

/-! ### TT_REQ (R121, R122) -/

section
variable {v : Word} {tm : Nat} {s : State}

theorem exec_ttReq_of_deviceUp (hup : deviceUp s = true) : exec (.ttReq v tm) s = .next (toneRequest v tm (setNow tm s)) :=
  congrArg Host.Outcome.next (if_pos hup)

theorem exec_ttReq_of_deviceDown (hdown : deviceUp s = false) : exec (.ttReq v tm) s = .next s :=
  congrArg Host.Outcome.next (if_neg (by simp [hdown]))

theorem toneRequest_without_start (hstart : bitAt v 24 = false) : toneRequest v tm s = s := by simp [toneRequest, hstart]

section
variable (hstart : bitAt v 24 = true)
include hstart

theorem toneRequest_busy (hbusy : s.toneBox.busy = true) :
    toneRequest v tm s = raiseFault qRIN (fld v 0 9) 0x2E (fld v 0 9) s := by
  simp [toneRequest, hstart, hbusy]

theorem toneRequest_refused (hidle : s.toneBox.busy = false) (href : toneRefused (fld v 0 9) s = true) :
    toneRequest v tm s = toneCode 7 (fld v 0 9) s := by
  simp [toneRequest, hstart, hidle, href]

/-- An accepted request joins its group's queue. -/
theorem toneRequest_accepted (hidle : s.toneBox.busy = false) (hcan : toneRefused (fld v 0 9) s = false) :
    ∃ q, q.chan.val = fld v 0 9 ∧ q.mine = true ∧ (toneRequest v tm s).toneBox = { s.toneBox with busy := true } ∧
      (toneRequest v tm s).tone = (modTone (fld v 0 9 / 8) (fun x => { x with queue := x.queue ++ [q] }) s).tone := by
  simp only [toneRequest, hstart, hidle, hcan, Bool.not_true, Bool.false_eq_true, if_false]
  split
  · obtain ⟨n, out, hsend⟩ := sendTwin_eq (.toneReq ⟨fld v 0 9, Nat.mod_lt _ (by decide)⟩ tm) _
    rw [hsend]
    exact ⟨⟨⟨fld v 0 9, Nat.mod_lt _ (by decide)⟩, true, _⟩, rfl, rfl, rfl, rfl⟩
  · exact ⟨⟨⟨fld v 0 9, Nat.mod_lt _ (by decide)⟩, true, 0⟩, rfl, rfl, rfl, rfl⟩

end
end

/-! ### The running check (R117, R118, R129, R130) -/

section
variable {g : Fin 64} {s : State}

theorem exec_tonePhaseEnd_of_no_run (hrun : (toneOf s g.val).run = none) : exec (.tonePhaseEnd g) s = .next s := by
  change execTonePhaseEnd g s = _
  unfold execTonePhaseEnd
  rw [hrun]

theorem exec_toneCheckComplete_of_no_run (hrun : (toneOf s g.val).run = none) (zS zC : Nat) (pS pC : Int) (sc cs : Nat) :
    exec (.toneCheckComplete g zS zC pS pC sc cs) s = .next s := by
  change Host.Outcome.next (toneComplete g.val zS zC pS pC sc cs s) = _
  unfold toneComplete
  rw [hrun]

theorem exec_toneCheckTimeout_of_no_run (hrun : (toneOf s g.val).run = none) : exec (.toneCheckTimeout g) s = .next s := by
  change Host.Outcome.next (toneTimeout g.val s) = _
  unfold toneTimeout
  rw [hrun]

theorem toneInjected_of_no_run (hrun : (toneOf s g.val).run = none) : toneInjected s g.val = none := by
  unfold toneInjected
  rw [hrun]

theorem tonePhaseOver_iff {r : ToneRun} : tonePhaseOver s r = true ↔ 64 * toneLen s ≤ r.periods := decide_eq_true_iff

theorem tonePhaseOver_eq_false_iff {r : ToneRun} : tonePhaseOver s r = false ↔ r.periods < 64 * toneLen s := by
  rw [← Bool.not_eq_true, tonePhaseOver_iff, Nat.not_le]

section
variable {r : ToneRun} (hrun : (toneOf s g.val).run = some r)
include hrun

theorem exec_tonePhaseEnd_of_over (hsin : r.cosPhase = false) (hover : 64 * toneLen s ≤ r.periods) :
    exec (.tonePhaseEnd g) s = .next (modTone g.val (fun t =>
      { t with run := some { r with cosPhase := true, periods := 0, from_ := (xgOf s g.val).cycAt / 3125 } }) s) := by
  change execTonePhaseEnd g s = _
  simp [execTonePhaseEnd, hrun, hsin, tonePhaseOver_iff.2 hover]

theorem exec_tonePhaseEnd_of_not_over (h : r.cosPhase = true ∨ r.periods < 64 * toneLen s) :
    exec (.tonePhaseEnd g) s = .next s := by
  change execTonePhaseEnd g s = _
  rw [← tonePhaseOver_eq_false_iff] at h
  rcases h with h | h <;> simp [execTonePhaseEnd, hrun, h]

section
variable (zS zC : Nat) (pS pC : Int) (sc cs : Nat)

theorem exec_toneCheckComplete_of_over (hcos : r.cosPhase = true) (hover : 64 * toneLen s ≤ r.periods) :
    exec (.toneCheckComplete g zS zC pS pC sc cs) s = .next (toneReport g.val r (tonePhaseResult (toneAmp s) r.accS zS pS sc)
      (tonePhaseResult (toneAmp s) r.accC zC pC cs) s) := by
  change Host.Outcome.next (toneComplete g.val zS zC pS pC sc cs s) = _
  simp [toneComplete, hrun, hcos, tonePhaseOver_iff.2 hover]

theorem exec_toneCheckComplete_of_not_over (h : r.cosPhase = false ∨ r.periods < 64 * toneLen s) :
    exec (.toneCheckComplete g zS zC pS pC sc cs) s = .next s := by
  change Host.Outcome.next (toneComplete g.val zS zC pS pC sc cs s) = _
  rw [← tonePhaseOver_eq_false_iff] at h
  rcases h with h | h <;> simp [toneComplete, hrun, h]

end

theorem exec_toneCheckTimeout_of_due (hdue : r.start + 65535 ≤ frameN s) :
    exec (.toneCheckTimeout g) s = .next (toneAbort g.val s) := by
  change Host.Outcome.next (toneTimeout g.val s) = _
  simp [toneTimeout, hrun, hdue]

theorem exec_toneCheckTimeout_of_early (hearly : frameN s < r.start + 65535) : exec (.toneCheckTimeout g) s = .next s := by
  change Host.Outcome.next (toneTimeout g.val s) = _
  simp [toneTimeout, hrun, Nat.not_le.2 hearly]

theorem toneAbort_of_run :
    toneAbort g.val s = doIf (r.requested && r.mine) (toneCode 6 r.chan.val) (modTone g.val (fun t => { t with run := none }) s) := by
  unfold toneAbort
  rw [hrun]
  rfl

theorem run_toneAbort : (toneOf (toneAbort g.val s) g.val).run = none := by
  rw [toneAbort_of_run hrun]
  cases r.requested && r.mine
  · rw [doIf_false, toneOf_modTone]
  · rw [doIf_true, toneOf_of_tone (tone_toneCode ..), toneOf_modTone]

theorem toneBox_toneAbort (hreq : r.requested = true) (hmine : r.mine = true) :
    (toneAbort g.val s).toneBox.code = 6 ∧ (toneAbort g.val s).toneBox.fresh = true := by
  rw [toneAbort_of_run hrun, hreq, hmine]
  simp [toneCode]

/-- The owner injects while the phase that has begun is not over (R117, R124). -/
theorem toneInjected_of_on (howner : (xgOf s g.val).owner = true) (hbegan : r.began = true) (hper : r.periods < 64 * toneLen s) :
    toneInjected s g.val = some (r.chan.val, r.cosPhase, (10000 * toneNum s : Rat) / groupM s g.val, toneAmp s) := by
  simp [toneInjected, hrun, toneOn, howner, hbegan, tonePhaseOver_eq_false_iff.2 hper]

theorem toneInjected_of_off (h : (xgOf s g.val).owner = false ∨ r.began = false ∨ 64 * toneLen s ≤ r.periods) :
    toneInjected s g.val = none := by
  rw [← tonePhaseOver_iff] at h
  rcases h with h | h | h <;> simp [toneInjected, hrun, toneOn, h]

end
end

/-! ### What a completed check shows (R118, R121) -/

/-- RC_ZSIN or RC_ZCOS of a phase's results, with the number `n` of the check. -/
def impedanceWord (n : Nat) (x : Nat × Int × Nat) : Word := wordN (n * 2 ^ 24 + unsig 8 x.2.1 * 2 ^ 16 + min x.1 65535)

/-- The coupling ratios of both phases. -/
def couplingWord (sn cn : Nat × Int × Nat) : Word := wordN (min cn.2.2 65535 * 65536 + min sn.2.2 65535)

/-- A channel with the results of its check number `n`. -/
def checkedChannel (n : Nat) (sn cn : Nat × Int × Nat) (x : RcSt) : RcSt :=
  { x with checks := n, zs := impedanceWord n sn, zc := impedanceWord n cn, xt := couplingWord sn cn }

/-- The number of the channel's next check. -/
def nextCheck (s : State) (c : Nat) : Nat := ((rcOf s c).checks + 1) % 256

section
variable (n : Nat) (x sn cn : Nat × Int × Nat)

theorem fld_wordN (a lo k : Nat) : fld (wordN a) lo k = a % 2 ^ 32 / 2 ^ lo % 2 ^ k := rfl

theorem unsig_lt (k : Nat) (a : Int) : unsig k a < 2 ^ k := by
  have hpos : (0 : Int) < (2 ^ k : Nat) := by exact_mod_cast Nat.two_pow_pos k
  have hlt := Int.emod_lt_of_pos a hpos
  unfold unsig
  omega

theorem fld_impedanceWord : fld (impedanceWord n x) 0 16 = min x.1 65535 ∧ fld (impedanceWord n x) 16 8 = unsig 8 x.2.1 := by
  have hph := unsig_lt 8 x.2.1
  unfold impedanceWord
  rw [fld_wordN, fld_wordN]
  constructor <;> omega

theorem fld_couplingWord : fld (couplingWord sn cn) 0 16 = min sn.2.2 65535 ∧ fld (couplingWord sn cn) 16 16 = min cn.2.2 65535 := by
  unfold couplingWord
  rw [fld_wordN, fld_wordN]
  constructor <;> omega

end

section
variable (g : Nat) (r : ToneRun) (sn cn : Nat × Int × Nat) (s : State)

/-- A completed check ends, shows its results, raises a fault where a pair failed, and answers the request of this device. -/
theorem toneReport_eq : ∃ code t,
    FaultsOnly (modTone g (fun x => { x with run := none }) (modRc r.chan.val (checkedChannel (nextCheck s r.chan.val) sn cn) s)) t ∧
    toneReport g r sn cn s = doIf (r.requested && r.mine) (toneMail code r.chan.val
      (impedanceWord (nextCheck s r.chan.val) sn) (impedanceWord (nextCheck s r.chan.val) cn)
      (couplingWord sn cn)) t := by
  refine ⟨_, _, ?_, rfl⟩
  exact faultsOnly_ite (faultsOnly_refl _) (faultsOnly_ite (faultsOnly_raiseFault ..) (faultsOnly_raiseFault ..))

theorem run_toneReport : (toneOf (toneReport g r sn cn s) g).run = none := by
  obtain ⟨code, t, hframe, h⟩ := toneReport_eq g r sn cn s
  have htone : t.tone = _ := (congrArg State.tone hframe :)
  rw [h]
  cases r.requested && r.mine
  · rw [doIf_false, toneOf_of_tone htone, toneOf_modTone]
  · rw [doIf_true, toneOf_of_tone ((tone_toneMail ..).trans htone), toneOf_modTone]

theorem rcOf_toneReport : rcOf (toneReport g r sn cn s) r.chan.val = checkedChannel (nextCheck s r.chan.val) sn cn (rcOf s r.chan.val) := by
  obtain ⟨code, t, hframe, h⟩ := toneReport_eq g r sn cn s
  have hrc : t.rc = (modRc r.chan.val (checkedChannel (nextCheck s r.chan.val) sn cn) s).rc := (congrArg State.rc hframe :)
  rw [h]
  cases r.requested && r.mine
  · rw [doIf_false, rcOf_of_rc hrc, rcOf_modRc]
  · rw [doIf_true, rcOf_of_rc ((rc_toneMail ..).trans hrc), rcOf_modRc]

theorem toneBox_toneReport : ∃ code, (toneReport g r sn cn s).toneBox =
    if r.requested && r.mine then
      { seq := (s.toneBox.seq + 1) % 65536, fresh := true, code, chan := r.chan.val
        zs := impedanceWord (nextCheck s r.chan.val) sn, zc := impedanceWord (nextCheck s r.chan.val) cn
        xt := couplingWord sn cn, busy := false }
    else s.toneBox := by
  obtain ⟨code, t, hframe, h⟩ := toneReport_eq g r sn cn s
  have hbox : t.toneBox = s.toneBox := (congrArg State.toneBox hframe :)
  refine ⟨code, ?_⟩
  rw [h]
  cases r.requested && r.mine
  · exact hbox
  · rw [doIf_true, toneBox_toneMail, hbox]
    rfl

end

/-! ### Pin bias and the wire-check current through resets (R107, R109, R128) -/

/-- What the pins' bias and the wire-check currents depend on: the slices' supply, the bias and the registers in force. -/
def pinSupply (s : State) : BitVec 8 × Bool × Bool × List (Nat × Word) := (s.clk.sliceOn, s.biasOff, s.biasSplit, s.inForce)

section
variable {s t : State} (h : pinSupply t = pinSupply s)
include h

theorem pinBias_of_pinSupply (k : Nat) : pinBias t k = pinBias s k := by
  simp only [pinSupply, Prod.mk.injEq] at h
  obtain ⟨hon, hoff, hsplit, -⟩ := h
  unfold pinBias
  rw [hon, hoff, hsplit]

theorem wireCheck_of_pinSupply (c : Nat) : wireCheck t c = wireCheck s c := by
  have hreg : rinReg t c 0 = rinReg s c 0 := by
    simp only [pinSupply, Prod.mk.injEq] at h
    obtain ⟨-, -, -, hin⟩ := h
    unfold rinReg inF
    rw [hin]
  unfold wireCheck
  rw [pinBias_of_pinSupply h, hreg]

end

@[simp] theorem pinSupply_ledConsume (k n : Nat) (s : State) : pinSupply (ledConsume k n s) = pinSupply s := rfl

@[simp] theorem pinSupply_ledDrop (k n u : Nat) (s : State) : pinSupply (ledDrop k n u s) = pinSupply s := by simp [pinSupply]

@[simp] theorem pinSupply_toneCode (code chan : Nat) (s : State) : pinSupply (toneCode code chan s) = pinSupply s := by
  simp [pinSupply, toneCode, toneMail]

theorem pinSupply_toneAbort (g : Nat) (s : State) : pinSupply (toneAbort g s) = pinSupply s := by
  unfold toneAbort
  split
  · rfl
  · dsimp only
    split
    · exact pinSupply_toneCode ..
    · rfl

theorem pinSupply_toneDrop (g : Nat) (s : State) : pinSupply (toneDrop g s) = pinSupply s :=
  (doFor_keeps pinSupply _ (fun _ _ => pinSupply_toneCode ..) _ _).trans (pinSupply_toneAbort g s)

theorem pinSupply_sliceReset (k : Nat) (s : State) : pinSupply (sliceReset k s) = pinSupply s :=
  (pinSupply_ledDrop ..).trans (doFor_keeps pinSupply _ pinSupply_toneDrop _ s)

theorem pinSupply_dropQueued (s : State) : pinSupply (dropQueued s) = pinSupply s := by
  have hdrops {α : Type} (l : List α) (k : Nat) (n u : α → Nat) (t : State) :
      pinSupply (doFor l (fun e => ledDrop k (n e) (u e)) t) = pinSupply t :=
    doFor_keeps pinSupply _ (fun _ _ => pinSupply_ledDrop ..) l t
  simp only [dropQueued, pinSupply_ledDrop, hdrops, pinSupply_ledConsume]

/-- An L2 reset keeps the slices' supply and the bias, and turns a split bias off (R128). -/
theorem pinBias_hubReset (s : State) (k : Nat) :
    pinBias (hubReset s) k = if !s.clk.sliceOn.getLsbD k || (s.biasOff || s.biasSplit) then none else some 50 := by
  have h := pinSupply_dropQueued s
  simp only [pinSupply, Prod.mk.injEq] at h
  obtain ⟨hon, hoff, hsplit, -⟩ := h
  rw [← hon, ← hoff, ← hsplit]
  rfl

section
variable {s : State} {c : Nat}

theorem pinBias_of_supply (hon : s.clk.sliceOn.getLsbD (c / 64) = true) (hoff : s.biasOff = false) :
    pinBias s (c / 64) = some (if s.biasSplit = true then 100 else 50) := by
  cases hsplit : s.biasSplit <;> simp [pinBias, hon, hoff, hsplit]

theorem pinBias_of_no_supply (h : s.clk.sliceOn.getLsbD (c / 64) = false ∨ s.biasOff = true) : pinBias s (c / 64) = none := by
  rcases h with h | h <;> simp [pinBias, h]

/-- The current is 1 V over the bias resistance (R109). -/
theorem wireCheck_of_supply (hon : s.clk.sliceOn.getLsbD (c / 64) = true) (hoff : s.biasOff = false) :
    wireCheck s c = if bitAt (rinReg s c 0) 0 = true then (if s.biasSplit = true then 10 else 20) else 0 := by
  unfold wireCheck
  rw [pinBias_of_supply hon hoff]
  cases s.biasSplit <;> rfl

theorem wireCheck_of_no_supply (h : s.clk.sliceOn.getLsbD (c / 64) = false ∨ s.biasOff = true) : wireCheck s c = 0 := by
  unfold wireCheck
  rw [pinBias_of_no_supply h]

end

/-! ### The statement on tone checks -/

/-- Settles O12: TT_REQ by the branches of `toneRequest`, a completed check by `toneReport_eq`, the pins by `pinSupply`. -/
theorem toneChecks : Obligations.ToneChecks := by
  refine ⟨⟨fun v tm s => ⟨exec_ttReq_of_deviceDown, fun hup hstart => ?_⟩, fun g s hrun => ?_, fun v tm s hup hstart => ?_,
    fun g r s hrun => ?_⟩, fun c s => ?_, fun g r s hrun => ⟨toneInjected_of_on hrun, toneInjected_of_off hrun⟩,
    fun g s => toneInjected_of_no_run⟩
  · rw [exec_ttReq_of_deviceUp hup, toneRequest_without_start hstart]
    rfl
  · exact ⟨exec_tonePhaseEnd_of_no_run hrun, exec_toneCheckTimeout_of_no_run hrun, exec_toneCheckComplete_of_no_run hrun⟩
  · rw [exec_ttReq_of_deviceUp hup]
    refine ⟨fun hbusy => ?_, fun hidle href => ?_, fun hidle hcan => ?_⟩
    · rw [toneRequest_busy (s := setNow tm s) hstart hbusy]
      exact ⟨_, rfl, raised_of_eq _ _ _ _ s _ rfl rfl rfl, raiseFault_toneBox .., raiseFault_tone ..⟩
    · rw [toneRequest_refused (s := setNow tm s) hstart hidle href]
      refine ⟨_, rfl, ?_⟩
      simp [toneCode]
    · obtain ⟨q, hchan, hmine, hbox, htone⟩ := toneRequest_accepted (tm := tm) (s := setNow tm s) hstart hidle hcan
      have hqueue : (toneOf (toneRequest v tm (setNow tm s)) (fld v 0 9 / 8)).queue = (toneOf s (fld v 0 9 / 8)).queue ++ [q] := by
        rw [toneOf_of_tone htone, toneOf_modTone]
        rfl
      refine ⟨_, rfl, hbox, ?_, ⟨q, ?_, hchan, hmine⟩, fun k hk => ?_⟩
      · rw [hqueue, List.length_append, List.length_singleton]
      · rw [hqueue, List.getLast?_concat]
      · rw [toneOf_of_tone htone, toneOf_modTone_ne _ _ _ hk]
        rfl
  · refine ⟨fun hsin hover => ?_, exec_tonePhaseEnd_of_not_over hrun, fun h zS zC pS pC sc cs => ?_,
      fun hcos hover zS zC pS pC sc cs => ?_, fun hdue => ?_, exec_toneCheckTimeout_of_early hrun⟩
    · rw [exec_tonePhaseEnd_of_over hrun hsin hover]
      exact ⟨_, rfl, congrArg ToneSt.run (toneOf_modTone ..), fun k hk => toneOf_modTone_ne _ _ _ hk, rfl⟩
    · exact exec_toneCheckComplete_of_not_over hrun zS zC pS pC sc cs h
    · rw [exec_toneCheckComplete_of_over hrun zS zC pS pC sc cs hcos hover]
      obtain ⟨code, hbox⟩ := toneBox_toneReport g.val r (tonePhaseResult (toneAmp s) r.accS zS pS sc)
        (tonePhaseResult (toneAmp s) r.accC zC pC cs) s
      refine ⟨_, rfl, run_toneReport .., ?_⟩
      rw [rcOf_toneReport, hbox]
      refine ⟨rfl, (fld_impedanceWord ..).1, (fld_impedanceWord ..).2, (fld_impedanceWord ..).1, (fld_impedanceWord ..).2,
        (fld_couplingWord ..).1, (fld_couplingWord ..).2, fun hreq hmine => ?_, fun hreq => ?_⟩
      · simp [hreq, hmine]
      · simp [hreq]
    · rw [exec_toneCheckTimeout_of_due hrun hdue]
      exact ⟨_, rfl, run_toneAbort hrun, toneBox_toneAbort hrun⟩
  · refine ⟨fun hon hoff => ⟨pinBias_of_supply hon hoff, wireCheck_of_supply hon hoff⟩,
      fun h => ⟨pinBias_of_no_supply h, wireCheck_of_no_supply h⟩, fun k => ?_, fun hsplit => ?_, fun hsplit => ?_⟩
    · have hslice := pinSupply_sliceReset k s
      exact ⟨pinBias_of_pinSupply hslice _, wireCheck_of_pinSupply hslice _⟩
    · simp [pinBias_hubReset, hsplit]
    · rw [pinBias_hubReset, pinBias]
      simp [hsplit]

end Sys2Proof.Proofs
end

section
/-! CAPTURE_SAMPLE: the capture entries of the engines, and the samples of channels and sense pairs (spec/04 R104, R106, R110 to R116;
spec/06 R164). -/
namespace Sys2Proof.Proofs
open Sys2Proof Sys2Proof.Machine

/-! ### Capture entries (R164) -/

/-- What the opening of capture entries leaves alone: all but the engines, the collector and frame memory. -/
def besideEngines (s : State) : State := { s with se := [], flt := {}, fm := {} }

theorem engineRuns_besideEngines (s : State) (e : Nat) : engineRuns (besideEngines s) e = engineRuns s e := rfl

@[simp] theorem besideEngines_modSe (e : Nat) (f : SeSt → SeSt) (s : State) : besideEngines (modSe e f s) = besideEngines s := rfl

@[simp] theorem besideEngines_ledProduce (k n : Nat) (s : State) : besideEngines (ledProduce k n s) = besideEngines s := rfl

@[simp] theorem besideEngines_ledDrop (k n u : Nat) (s : State) : besideEngines (ledDrop k n u s) = besideEngines s := by
  unfold ledDrop
  split <;> rfl

@[simp] theorem besideEngines_raiseFault (q u kind detail : Nat) (s : State) :
    besideEngines (raiseFault q u kind detail s) = besideEngines s :=
  (congrArg besideEngines (raiseFault_frame q u kind detail s) :)

theorem seOf_of_se {s t : State} (h : t.se = s.se) (e : Nat) : seOf t e = seOf s e := by
  unfold seOf
  rw [h]

theorem ledOf_ledProduce_ne (j n : Nat) (s : State) {k : Nat} (h : k ≠ j) : ledOf (ledProduce j n s) k = ledOf s k :=
  ledOf_modLed_ne j _ s h

theorem ledOf_ledDrop_ne (j n u : Nat) (s : State) {k : Nat} (h : k ≠ j) : ledOf (ledDrop j n u s) k = ledOf s k := by
  unfold ledDrop
  split
  · rfl
  · exact ledOf_modLed_ne j _ s h

theorem produced_ledDrop (j n u k : Nat) (s : State) : (ledOf (ledDrop j n u s) k).produced = (ledOf s k).produced := by
  by_cases h : k = j
  · subst h
    unfold ledDrop
    split
    · rfl
    · rw [ledOf_modLed]
  · rw [ledOf_ledDrop_ne j n u s h]

/-- A message counts in the ledger's kind 8 alone. -/
theorem ledOf_raiseFault_ne (q u kind detail : Nat) (s : State) {k : Nat} (h : k ≠ 8) :
    ledOf (raiseFault q u kind detail s) k = ledOf s k := by
  unfold raiseFault queueMsg
  dsimp only
  split
  · exact ledOf_ledProduce_ne 8 1 s h
  · exact (ledOf_ledDrop_ne _ _ _ _ h).trans (ledOf_ledProduce_ne 8 1 s h)

/-- The entries of lane group `q` are overwritten unread (R10). -/
def overwriteEntries (e q : Nat) (s : State) : State :=
  raiseFault qSE (0x600 + e) 0x38 q (modSe e (fun x => { x with overruns := satInc 16 x.overruns }) (ledDrop 1 8 (0x600 + e) s))

/-- An engine at instant `i` with the lane groups of `unread` to read. -/
def openEntries (i : Nat) (unread : BitVec 16) (x : SeSt) : SeSt := { x with capture := [], unread, captureAt := i }

section
variable {e i : Nat} {s : State}

theorem captureOpen_of_stopped (h : engineRuns s e = false) : captureOpen i e s = modSe e (openEntries i 0) s := if_pos (by simp [h])

theorem captureOpen_of_runs (h : engineRuns s e = true) : captureOpen i e s = ledProduce 1 128 (modSe e (openEntries i 0xFFFF)
    (doFor ((List.range 16).filter (fun q => (seOf s e).unread.getLsbD q)) (overwriteEntries e) s)) :=
  if_neg (by simp [h])

end

section
variable (e q i : Nat) (s : State)

@[simp] theorem besideEngines_overwriteEntries : besideEngines (overwriteEntries e q s) = besideEngines s := by
  simp [overwriteEntries]

theorem seOf_overwriteEntries_ne {k : Nat} (h : k ≠ e) : seOf (overwriteEntries e q s) k = seOf s k := by
  have hse : (overwriteEntries e q s).se = (modSe e _ (ledDrop 1 8 (0x600 + e) s)).se := raiseFault_se ..
  rw [seOf_of_se hse, seOf_modSe_ne _ _ _ h, seOf_of_se (ledDrop_se ..)]

theorem produced_overwriteEntries : (ledOf (overwriteEntries e q s) 1).produced = (ledOf s 1).produced := by
  have hled : ledOf (overwriteEntries e q s) 1 = ledOf (ledDrop 1 8 (0x600 + e) s) 1 := ledOf_raiseFault_ne _ _ _ _ _ (by decide)
  rw [hled, produced_ledDrop]

@[simp] theorem besideEngines_captureOpen : besideEngines (captureOpen i e s) = besideEngines s := by
  cases h : engineRuns s e with
  | false => rw [captureOpen_of_stopped h, besideEngines_modSe]
  | true =>
    rw [captureOpen_of_runs h, besideEngines_ledProduce, besideEngines_modSe]
    exact doFor_keeps besideEngines _ (besideEngines_overwriteEntries e) _ s

theorem seOf_captureOpen_ne {k : Nat} (hk : k ≠ e) : seOf (captureOpen i e s) k = seOf s k := by
  cases h : engineRuns s e with
  | false => rw [captureOpen_of_stopped h, seOf_modSe_ne _ _ _ hk]
  | true =>
    rw [captureOpen_of_runs h, seOf_of_se (ledProduce_se ..), seOf_modSe_ne _ _ _ hk]
    exact doFor_keeps (seOf · k) _ (fun q s => seOf_overwriteEntries_ne e q s hk) _ s

theorem produced_captureOpen :
    (ledOf (captureOpen i e s) 1).produced = (ledOf s 1).produced + if engineRuns s e then 128 else 0 := by
  cases h : engineRuns s e with
  | false =>
    rw [captureOpen_of_stopped h]
    rfl
  | true =>
    have hover : (ledOf (doFor ((List.range 16).filter (fun q => (seOf s e).unread.getLsbD q)) (overwriteEntries e) s) 1).produced =
        (ledOf s 1).produced := doFor_keeps (fun t => (ledOf t 1).produced) _ (produced_overwriteEntries e) _ s
    rw [captureOpen_of_runs h, if_pos rfl, ← hover]
    exact congrArg LedSt.produced (ledOf_modLed ..)

end

/-- Every lane group of the engine has entries of instant `i` to read. -/
def EntriesReady (i : Nat) (x : SeSt) : Prop := x.unread = 0xFFFF ∧ x.capture = [] ∧ x.captureAt = i

theorem entriesReady_captureOpen {i e k : Nat} {s : State} (hruns : engineRuns s e = true) (h : EntriesReady i (seOf s e) ∨ e = k) :
    EntriesReady i (seOf (captureOpen i k s) e) := by
  by_cases hk : e = k
  · subst hk
    rw [captureOpen_of_runs hruns, seOf_of_se (ledProduce_se ..), seOf_modSe]
    exact ⟨rfl, rfl, rfl⟩
  · rw [seOf_captureOpen_ne _ _ _ hk]
    exact h.resolve_right hk

section
variable (i : Nat) (l : List Nat) (s : State)

theorem besideEngines_captureOpens : besideEngines (doFor l (captureOpen i) s) = besideEngines s :=
  doFor_keeps besideEngines _ (fun e s => besideEngines_captureOpen e i s) l s

theorem engineRuns_captureOpen (e k : Nat) : engineRuns (captureOpen i k s) e = engineRuns s e := by
  rw [← engineRuns_besideEngines, besideEngines_captureOpen, engineRuns_besideEngines]

variable {i l s} in
theorem entriesReady_captureOpens {e : Nat} (hruns : engineRuns s e = true) (h : EntriesReady i (seOf s e) ∨ e ∈ l) :
    EntriesReady i (seOf (doFor l (captureOpen i) s) e) := by
  induction l generalizing s with
  | nil => exact h.resolve_right List.not_mem_nil
  | cons k l ih =>
    refine ih (by rw [engineRuns_captureOpen, hruns]) ?_
    rcases h with h | h
    · exact .inl (entriesReady_captureOpen hruns (.inl h))
    · exact (List.mem_cons.1 h).imp_left fun hk => entriesReady_captureOpen hruns (.inr hk)

theorem produced_captureOpens : (ledOf (doFor l (captureOpen i) s) 1).produced =
    (ledOf s 1).produced + 128 * (l.filter (fun e => engineRuns s e)).length := by
  induction l generalizing s with
  | nil => rfl
  | cons k l ih =>
    rw [doFor_cons, ih, produced_captureOpen, List.filter_cons]
    simp only [engineRuns_captureOpen]
    split
    · rw [List.length_cons]
      omega
    · rfl

end

/-! ### The instant -/

/-- The state in which the samples of instant `i` arrive: the twin told of it, and the engines' entries open. -/
def instantOpen (i : Nat) (s : State) : State :=
  let s := sendTwin (.stamp i (3125 * i : Nat)) { s with decim := i }
  doFor ((List.range 8).filter (fun k => sliceRuns s k)) (captureOpen i) s

section
variable (i : Nat) (s : State)

theorem exec_captureSample_nil : exec (.captureSample i [] []) s = .next (instantOpen i s) := rfl

theorem exec_captureSample_chan (x : ChanSample) (hruns : sliceRuns (instantOpen i s) (x.chan.val / 64) = true) :
    exec (.captureSample i [x] []) s = .next (chanSample i x (instantOpen i s)) := by
  change Host.Outcome.next (doFor ([x].filter (fun x => sliceRuns (instantOpen i s) (x.chan.val / 64))) (chanSample i) (instantOpen i s)) = _
  simp [hruns]

theorem exec_captureSample_sense (x : SensePins) (hruns : sliceRuns (instantOpen i s) (x.group.val / 8) = true) :
    exec (.captureSample i [] [x]) s = .next (senseSample x (instantOpen i s)) := by
  change Host.Outcome.next (doFor ([x].filter (fun x => sliceRuns (instantOpen i s) (x.group.val / 8))) senseSample (instantOpen i s)) = _
  simp [hruns]

theorem besideEngines_instantOpen : ∃ n out,
    besideEngines (instantOpen i s) = besideEngines { s with decim := i, twn := { s.twn with txCount := n }, outbox := out } := by
  obtain ⟨n, out, hsend⟩ := sendTwin_eq (.stamp i (3125 * i : Nat)) { s with decim := i }
  refine ⟨n, out, (besideEngines_captureOpens ..).trans ?_⟩
  rw [hsend]

theorem instantOpen_frame :
    { instantOpen i s with decim := s.decim, se := s.se, flt := s.flt, fm := s.fm, outbox := s.outbox, twn := s.twn } = s := by
  obtain ⟨n, out, h⟩ := besideEngines_instantOpen i s
  exact (congrArg (fun t : State =>
    { t with decim := s.decim, se := s.se, flt := s.flt, fm := s.fm, outbox := s.outbox, twn := s.twn }) h :)

theorem decim_instantOpen : (instantOpen i s).decim = i := by
  obtain ⟨n, out, h⟩ := besideEngines_instantOpen i s
  exact (congrArg State.decim h :)

theorem sliceRuns_instantOpen (k : Nat) : sliceRuns (instantOpen i s) k = sliceRuns s k := by
  obtain ⟨n, out, h⟩ := besideEngines_instantOpen i s
  exact (congrArg (sliceRuns · k) h :)

theorem entriesReady_instantOpen {e : Nat} (he : e < 8) (hslice : sliceRuns s e = true) (hruns : engineRuns s e = true) :
    EntriesReady i (seOf (instantOpen i s) e) := by
  obtain ⟨n, out, hsend⟩ := sendTwin_eq (.stamp i (3125 * i : Nat)) { s with decim := i }
  unfold instantOpen
  rw [hsend]
  exact entriesReady_captureOpens hruns (.inr (List.mem_filter.2 ⟨List.mem_range.2 he, hslice⟩))

theorem produced_instantOpen : (ledOf (instantOpen i s) 1).produced =
    (ledOf s 1).produced + 128 * ((List.range 8).filter (fun e => sliceRuns s e && engineRuns s e)).length := by
  obtain ⟨n, out, hsend⟩ := sendTwin_eq (.stamp i (3125 * i : Nat)) { s with decim := i }
  unfold instantOpen
  rw [hsend, produced_captureOpens, List.filter_filter]
  simp only [Bool.and_comm]
  rfl

end

/-! ### What the checks of a sample leave alone -/

/-- What the samples of an instant leave alone: all but the channels, their tone checks with the mailbox and its interrupt, the engines, the
collector and frame memory. -/
def besideSamples (s : State) : State :=
  { s with rc := [], tone := [], toneBox := {}, se := [], hst := {}, outbox := [], flt := {}, fm := {} }

/-- From `s` to `t` the samples of entry `c` were checked: its history, the other entries and all that samples leave alone are as before. -/
structure Checked (c : Nat) (s t : State) : Prop where
  hist : (rcOf t c).hist = (rcOf s c).hist
  others : ∀ k, k ≠ c → rcOf t k = rcOf s k
  beside : besideSamples t = besideSamples s

section
variable {c : Nat} {s t u : State}

theorem checked_refl : Checked c s s := ⟨rfl, fun _ _ => rfl, rfl⟩

theorem Checked.trans (h : Checked c s t) (h' : Checked c t u) : Checked c s u :=
  ⟨h'.hist.trans h.hist, fun k hk => (h'.others k hk).trans (h.others k hk), h'.beside.trans h.beside⟩

theorem checked_of_rc (hrc : t.rc = s.rc) (hbeside : besideSamples t = besideSamples s) : Checked c s t :=
  ⟨congrArg RcSt.hist (rcOf_of_rc hrc c), fun k _ => rcOf_of_rc hrc k, hbeside⟩

theorem FaultsOnly.checked (h : FaultsOnly s t) : Checked c s t := checked_of_rc (congrArg State.rc h :) (congrArg besideSamples h :)

theorem checked_ite {p : Prop} [Decidable p] (ht : Checked c s t) (hu : Checked c s u) : Checked c s (if p then t else u) := by
  split
  · exact ht
  · exact hu

theorem checked_modRc {f : RcSt → RcSt} (h : (f (rcOf s c)).hist = (rcOf s c).hist) : Checked c s (modRc c f s) :=
  ⟨(congrArg RcSt.hist (rcOf_modRc ..)).trans h, fun _ hk => rcOf_modRc_ne _ _ _ hk, rfl⟩

theorem checked_setCond (q u kind sub : Nat) (b : Bool) (detail : Nat) : Checked c s (setCond q u kind sub b detail s) :=
  FaultsOnly.checked (setCond_frame ..)

theorem checked_clearCond (u kind sub : Nat) : Checked c s (clearCond u kind sub s) := FaultsOnly.checked rfl

end

section
variable (c : Nat) (s : State)

theorem checked_windowCheck (u g : Nat) (on : Bool) (win : Word) (hold : Nat) (pins : List Nat) :
    Checked c s (windowCheck c u g on win hold pins s) :=
  checked_ite (checked_modRc rfl) (checked_ite ((checked_modRc rfl).trans (checked_clearCond ..))
    (checked_ite ((checked_modRc rfl).trans (checked_setCond ..)) (checked_modRc rfl)))

theorem besideSamples_toneCode (code chan : Nat) (s : State) : besideSamples (toneCode code chan s) = besideSamples s := by
  unfold toneCode toneMail intSource sendVector
  dsimp only
  split
  · split <;> rfl
  · rfl

theorem checked_toneAbort (g : Nat) : Checked c s (toneAbort g s) := by
  unfold toneAbort
  split
  · exact checked_refl
  · exact checked_ite (checked_of_rc (rc_toneMail ..) (besideSamples_toneCode ..)) (checked_of_rc rfl rfl)

theorem checked_toneWindow (was : BitVec 8) : Checked c s (toneWindow c was s) := by
  unfold toneWindow
  split
  · exact checked_ite (checked_toneAbort ..) checked_refl
  · exact checked_refl

theorem checked_toneSample (i : Nat) (sn cn : Int) : Checked c s (toneSample i c sn cn s) :=
  checked_ite (checked_of_rc rfl rfl) checked_refl

/-- A limit's condition clears, sets or stays. -/
theorem checked_limit {t : State} {p q : Prop} [Decidable p] [Decidable q] (kind detail : Nat) (h : Checked c s t) :
    Checked c s (if p then clearCond c kind 0 t else if q then setCond qRIN c kind 0 true detail t else t) :=
  checked_ite (h.trans (checked_clearCond ..)) (checked_ite (h.trans (checked_setCond ..)) h)

theorem checked_envelopeCheck (g m ph : Nat) : Checked c s (envelopeCheck c g m ph s) := by
  unfold envelopeCheck
  split
  · exact checked_refl
  · exact checked_limit c s 0x2A _ (checked_limit c s 0x29 _ (checked_modRc rfl))

theorem checked_overrange (g : Nat) (sn cn : Int) : Checked c s (overrange c g sn cn s) :=
  ((checked_modRc rfl).trans (checked_ite (faultsOnly_raiseFault ..).checked checked_refl)).trans (checked_of_rc rfl rfl)

end

/-! ### The newest sample (R104, R111) -/

/-- The newest sample of entry `c` is the pair of words `a` and `b`. -/
def NewestIs (c : Nat) (a b : Int) (s : State) : Prop := ∃ h, (rcOf s c).hist.head? = some h ∧ h.s = a ∧ h.c = b

theorem groupM_pos (s : State) (g : Nat) : 0 < groupM s g := by
  have hsel : ∀ k : Fin 16, 0 < xgM k.val := by decide
  exact hsel ⟨_, Nat.mod_lt _ (by decide)⟩

section
variable {c : Nat} {a b : Int} {s t : State}

theorem Checked.newestIs (h : Checked c s t) (hs : NewestIs c a b s) : NewestIs c a b t := by
  unfold NewestIs
  rw [h.hist]
  exact hs

theorem newestIs_push {n : Nat} (x : RcSample) (hn : 0 < n) :
    NewestIs c x.s x.c (modRc c (fun r => { r with hist := (x :: r.hist).take n }) s) := by
  obtain ⟨m, rfl⟩ := Nat.exists_eq_succ_of_ne_zero hn.ne'
  exact ⟨x, by rw [rcOf_modRc]; rfl, rfl, rfl⟩

/-- The mark of the newest sample as in signal fault (R116). -/
def markNewest (mark : Bool) (r : RcSt) : RcSt := { r with hist := match r.hist with | h :: t => { h with mark } :: t | [] => [] }

theorem NewestIs.mark (mark : Bool) (hs : NewestIs c a b s) : NewestIs c a b (modRc c (markNewest mark) s) := by
  obtain ⟨h, hhead, hsin, hcos⟩ := hs
  obtain ⟨l, hl⟩ := List.head?_eq_some_iff.1 hhead
  refine ⟨{ h with mark }, ?_, hsin, hcos⟩
  rw [rcOf_modRc]
  simp only [markNewest, hl, List.head?_cons]

/-- A sample was stored for entry `c`: of the channels only it changed, and nothing that samples leave alone. -/
structure Sampled (c : Nat) (a b : Int) (s t : State) : Prop where
  newest : NewestIs c a b t
  others : ∀ k, k ≠ c → rcOf t k = rcOf s k
  beside : besideSamples t = besideSamples s

theorem Sampled.checked {u : State} (h : Sampled c a b s t) (h' : Checked c t u) : Sampled c a b s u :=
  ⟨h'.newestIs h.newest, fun k hk => (h'.others k hk).trans (h.others k hk), h'.beside.trans h.beside⟩

theorem Checked.sampled {u : State} (h : Checked c s t) (h' : Sampled c a b t u) : Sampled c a b s u :=
  ⟨h'.newest, fun k hk => (h'.others k hk).trans (h.others k hk), h'.beside.trans h.beside⟩

theorem sampled_push {n : Nat} (x : RcSample) (hn : 0 < n) :
    Sampled c x.s x.c s (modRc c (fun r => { r with hist := (x :: r.hist).take n }) s) :=
  ⟨newestIs_push x hn, fun _ hk => rcOf_modRc_ne _ _ _ hk, rfl⟩

/-- What an engine captures of a sample is not of the channels. -/
theorem Sampled.captured {p : Prop} [Decidable p] {e : Nat} {f : SeSt → SeSt} (h : Sampled c a b s t) :
    Sampled c a b s (if p then modSe e f t else t) := by
  split
  · exact h.checked (checked_of_rc rfl rfl)
  · exact h

theorem Sampled.mark (mark : Bool) (h : Sampled c a b s t) : Sampled c a b s (modRc c (markNewest mark) t) :=
  ⟨h.newest.mark mark, fun k hk => (rcOf_modRc_ne _ _ _ hk).trans (h.others k hk), h.beside⟩

end

/-- The window and the tone check come before the new sample; its levels, the envelope, the overrange and its mark after it. -/
theorem sampled_chanSample (i : Nat) (x : ChanSample) (s : State) :
    Sampled x.chan.val (satCode x.s) (satCode x.c) s (chanSample i x s) := by
  have hpos := Nat.mul_pos two_pos (groupM_pos s (x.chan.val / 8))
  unfold chanSample
  refine Sampled.captured (Sampled.mark _ ?_)
  refine Sampled.checked ?_ (checked_overrange ..)
  refine Sampled.checked ?_ (checked_envelopeCheck ..)
  refine Sampled.checked ?_ (checked_modRc rfl)
  refine Checked.sampled ?_ (sampled_push ⟨satCode x.s, satCode x.c, _, _⟩ hpos)
  exact ((checked_windowCheck ..).trans (checked_toneWindow ..)).trans (checked_toneSample ..)

theorem sampled_senseSample (x : SensePins) (s : State) :
    Sampled (512 + x.group.val) (satCode x.vs) (satCode x.is) s (senseSample x s) :=
  (sampled_push ⟨satCode x.vs, satCode x.is, _, _⟩ (groupM_pos ..)).checked (checked_windowCheck ..)

end Sys2Proof.Proofs
end

section
/-! The auxiliary front end: the slots of a cycle and the completion of conversions (spec/05 R139 to R142, R148; spec/06 R164). -/
namespace Sys2Proof.Proofs
open Sys2Proof Sys2Proof.Machine

/-! ### AUX_SLOT (R139 to R142) -/

section
variable {e : Fin 8} {s : State}

theorem exec_auxSlot_of_runs (j : Nat) (sl : Fin 20) (hruns : sliceRuns s e.val = true) :
    exec (.auxSlot e j sl) s = .next (auxSlotStart e.val j sl.val s) :=
  congrArg Host.Outcome.next (if_pos hruns)

theorem exec_auxSlot_of_stopped (j : Nat) (sl : Fin 20) (hruns : sliceRuns s e.val = false) : exec (.auxSlot e j sl) s = .next s :=
  congrArg Host.Outcome.next (if_neg (by simp [hruns]))

theorem exec_auxConversionComplete_of_runs (code : Int) (aexP : Nat) (hruns : sliceRuns s e.val = true) :
    exec (.auxConversionComplete e code aexP) s = .next (auxComplete e.val code aexP s) :=
  congrArg Host.Outcome.next (if_pos hruns)

theorem exec_auxConversionComplete_of_stopped (code : Int) (aexP : Nat) (hruns : sliceRuns s e.val = false) :
    exec (.auxConversionComplete e code aexP) s = .next s :=
  congrArg Host.Outcome.next (if_neg (by simp [hruns]))

end

/-- From `s` to `t` the auxiliary channels, the collector and frame memory alone have changed. -/
def AuxOnly (s t : State) : Prop := { t with ax := s.ax, flt := s.flt, fm := s.fm } = s

section
variable {s t u : State}

theorem AuxOnly.trans (h : AuxOnly s t) (h' : AuxOnly t u) : AuxOnly s u :=
  (congrArg (fun x : State => { x with ax := s.ax, flt := s.flt, fm := s.fm }) h' :).trans h

theorem FaultsOnly.auxOnly (h : FaultsOnly s t) : AuxOnly s t := (congrArg (fun x : State => { x with ax := s.ax }) h :)

theorem auxOnly_modAx (a : Nat) (f : AxSt → AxSt) (s : State) : AuxOnly s (modAx a f s) := rfl

theorem auxOnly_ite {c : Prop} [Decidable c] (ht : AuxOnly s t) (hu : AuxOnly s u) : AuxOnly s (if c then t else u) := by
  split
  · exact ht
  · exact hu

theorem AuxOnly.axs (h : AuxOnly s t) : t.axs = s.axs := (congrArg State.axs h :)

theorem AuxOnly.se (h : AuxOnly s t) : t.se = s.se := (congrArg State.se h :)

theorem AuxOnly.engineRuns_eq (h : AuxOnly s t) (e : Nat) : engineRuns t e = engineRuns s e :=
  (congrArg (fun x : State => engineRuns x e) h :)

end

theorem axsOf_of_axs {s t : State} (h : t.axs = s.axs) (e : Nat) : axsOf t e = axsOf s e := by
  unfold axsOf
  rw [h]

theorem axOf_of_ax {s t : State} (h : t.ax = s.ax) (a : Nat) : axOf t a = axOf s a := by
  unfold axOf
  rw [h]

theorem auxOnly_stepTo (a new : Nat) (s : State) : AuxOnly s (stepTo a new s) :=
  auxOnly_ite rfl (auxOnly_ite ((auxOnly_modAx a _ s).trans (faultsOnly_raiseFault ..).auxOnly) (auxOnly_modAx a _ s))

theorem auxOnly_rangeNow (a : Nat) (s : State) : AuxOnly s (rangeNow a s) := (auxOnly_modAx a _ s).trans (auxOnly_stepTo ..)

/-- Half ns of the sample instant of slot `slot` in cycle `j` (R141). -/
def slotInstant (s : State) (e j slot : Nat) : Nat := (20 * j + slot + 1) * slotUs s e * 2000

/-- The conversion of a slot is in progress behind the others. -/
def putSlot (x : Nat × AxJob × Nat × Nat) (y : AxsSt) : AxsSt := { y with slot := y.slot ++ [x] }

/-- The number of the cycle that ends is kept at the first slot. -/
def keepCycle (e j slot : Nat) (s : State) : State := if slot = 0 then modAxs e (fun x => { x with cycle := (j - 1) % 2 ^ 32 }) s else s

section
variable {e j slot : Nat} {s : State}

theorem slot_keepCycle : (axsOf (keepCycle e j slot s) e).slot = (axsOf s e).slot := by
  unfold keepCycle
  split
  · rw [axsOf_modAxs]
  · rfl

theorem axsOf_keepCycle_ne {k : Nat} (hk : k ≠ e) : axsOf (keepCycle e j slot s) k = axsOf s k := by
  unfold keepCycle
  split
  · exact axsOf_modAxs_ne _ _ _ hk
  · rfl

theorem keepCycle_frame : { keepCycle e j slot s with axs := s.axs } = s := by
  unfold keepCycle
  split <;> rfl

theorem auxOn_keepCycle (a : Nat) : auxOn (keepCycle e j slot s) a = auxOn s a := by
  unfold keepCycle
  split <;> rfl

theorem AuxOnly.frame_of_keepCycle {t : State} (h : AuxOnly (keepCycle e j slot s) t) :
    { t with axs := s.axs, ax := s.ax, flt := s.flt, fm := s.fm } = s :=
  ((congrArg (fun x : State => { x with axs := s.axs, ax := s.ax, flt := s.flt, fm := s.fm }) h :)).trans
    (congrArg (fun x : State => { x with ax := s.ax, flt := s.flt, fm := s.fm }) keepCycle_frame :)

theorem auxSlotStart_main (hslot : slot < 16) (hon : auxOn s (16 * e + slot) = true) : auxSlotStart e j slot s =
    modAxs e (putSlot (slot, .main, j, slotInstant s e j slot)) (rangeNow (16 * e + slot) (keepCycle e j slot s)) :=
  (if_pos hslot).trans (if_pos ((auxOn_keepCycle _).trans hon))

theorem auxSlotStart_open (hslot : slot < 16) (hoff : auxOn s (16 * e + slot) = false) : auxSlotStart e j slot s =
    modAxs e (putSlot (slot, .open_, j, slotInstant s e j slot)) (keepCycle e j slot s) :=
  (if_pos hslot).trans (if_neg (Bool.eq_false_iff.1 ((auxOn_keepCycle _).trans hoff)))

theorem auxSlotStart_no_job (hslot : 16 ≤ slot) (hjob : nextJob s e = none) :
    auxSlotStart e j slot s = modAxs e (putSlot (16, .open_, j, slotInstant s e j slot)) s := by
  have hfirst : slot ≠ 0 := Nat.ne_of_gt (Nat.lt_of_lt_of_le (by decide) hslot)
  simp only [auxSlotStart, Nat.not_lt.2 hslot, hfirst, if_false, hjob]
  rfl

theorem auxSlotStart_job (hslot : 16 ≤ slot) {c : Nat} (hjob : nextJob s e = some c) : auxSlotStart e j slot s =
    modAxs e (putSlot (c / 2, if c % 2 = 0 then .cal else .lead, j, slotInstant s e j slot)) (modAxs e (fun x => { x with next := c + 1 }) s) := by
  have hfirst : slot ≠ 0 := Nat.ne_of_gt (Nat.lt_of_lt_of_le (by decide) hslot)
  simp only [auxSlotStart, Nat.not_lt.2 hslot, hfirst, if_false, hjob]
  rfl

/-- A slot at a position is a MAIN conversion where the channel converts, else open. -/
theorem auxSlotStart_position (hslot : slot < 16) :
    ∃ t, AuxOnly (keepCycle e j slot s) t ∧ auxSlotStart e j slot s =
      modAxs e (putSlot (slot, if auxOn s (16 * e + slot) = true then .main else .open_, j, slotInstant s e j slot)) t := by
  cases hon : auxOn s (16 * e + slot) with
  | false => exact ⟨_, rfl, auxSlotStart_open hslot hon⟩
  | true => exact ⟨_, auxOnly_rangeNow _ _, auxSlotStart_main hslot hon⟩

end

/-! ### Conversions (R141, R148) -/

section
variable {e k half : Nat} {s : State} (hswap : (seOf s e).swap = none)
include hswap

theorem settleSwaps_of_no_swap : settleSwaps e half s = s := by
  have h : settleSwap e half s = s := by
    simp only [settleSwap, hswap]
  unfold settleSwaps
  rw [h, h]

/-- With no swap in progress or ended no sample boundary is counted. -/
theorem countBoundary_of_no_swap (hpast : (seOf s e).past = none) : countBoundary e k half s = (none, s) := by
  simp [countBoundary, settleSwaps_of_no_swap hswap, hswap, hpast]

end

section
variable {e : Nat} {code : Int} {aexP pos j at_ : Nat} {rest : List (Nat × AxJob × Nat × Nat)} {s : State}

/-- The oldest slot's work has ended. -/
def slotEnded (e : Nat) (rest : List (Nat × AxJob × Nat × Nat)) (s : State) : State := modAxs e (fun x => { x with slot := rest }) s

theorem auxComplete_of_no_slot (h : (axsOf s e).slot = []) : auxComplete e code aexP s = s := by
  unfold auxComplete
  rw [h]

section
variable (hon : auxOn s (16 * e + pos) = true)
include hon

theorem auxComplete_cal (h : (axsOf s e).slot = (pos, .cal, j, at_) :: rest) :
    auxComplete e code aexP s = calDone (16 * e + pos) code (slotEnded e rest s) := by
  unfold auxComplete
  rw [h]
  exact if_pos hon

theorem auxComplete_lead (h : (axsOf s e).slot = (pos, .lead, j, at_) :: rest) :
    auxComplete e code aexP s = leadDone (16 * e + pos) code (slotEnded e rest s) := by
  unfold auxComplete
  rw [h]
  exact if_pos hon

theorem auxComplete_main (h : (axsOf s e).slot = (pos, .main, j, at_) :: rest) (hswap : (seOf s e).swap = none)
    (hpast : (seOf s e).past = none) :
    auxComplete e code aexP s = mainDone (16 * e + pos) j at_ code aexP none (slotEnded e rest s) := by
  have hcount := countBoundary_of_no_swap (e := e) (k := 16 + pos) (half := at_) (s := slotEnded e rest s) hswap hpast
  unfold slotEnded at hcount
  unfold auxComplete
  rw [h]
  dsimp only
  rw [hcount]
  exact if_pos hon

end
end

/-! ### CAL and LEAD conversions (R148) -/

/-- From `s` to `t` the service of channel `a` was checked: its means and the other channels are as before, and so are the slots and the
engines. -/
structure Serviced (a : Nat) (s t : State) : Prop where
  cal : (axOf t a).cal = (axOf s a).cal
  lead : (axOf t a).lead = (axOf s a).lead
  others : ∀ k, k ≠ a → axOf t k = axOf s k
  axs : t.axs = s.axs
  se : t.se = s.se

theorem Serviced.trans {a : Nat} {s t u : State} (h : Serviced a s t) (h' : Serviced a t u) : Serviced a s u :=
  ⟨h'.cal.trans h.cal, h'.lead.trans h.lead, fun k hk => (h'.others k hk).trans (h.others k hk), h'.axs.trans h.axs, h'.se.trans h.se⟩

section
variable (a : Nat) (s : State)

theorem serviced_of_ax {t : State} (hax : t.ax = s.ax) (haxs : t.axs = s.axs) (hse : t.se = s.se) : Serviced a s t :=
  ⟨congrArg AxSt.cal (axOf_of_ax hax a), congrArg AxSt.lead (axOf_of_ax hax a), fun k _ => axOf_of_ax hax k, haxs, hse⟩

theorem serviced_setCond (q u kind sub : Nat) (b : Bool) (detail : Nat) : Serviced a s (setCond q u kind sub b detail s) :=
  serviced_of_ax a s (setCond_ax ..) (setCond_axs ..) (setCond_se ..)

theorem serviced_auxPrepCheck : Serviced a s (auxPrepCheck a s) := by
  have hite : ∀ b : Bool, Serviced a s (if b then modUnit (0x400 + a) (fun z => { z with prepDone := true }) s else s) := by
    intro b
    cases b <;> exact serviced_of_ax a s rfl rfl rfl
  exact hite _

theorem serviced_failures (bad hi : Bool) : Serviced a s (modAx a (fun x => { x with calFail := bad, leadHigh := hi }) s) :=
  ⟨by rw [axOf_modAx], by rw [axOf_modAx], fun _ hk => axOf_modAx_ne _ _ _ hk, rfl, rfl⟩

theorem serviced_serviceChecks : Serviced a s (serviceChecks a s) :=
  (((serviced_failures a s _ _).trans (serviced_setCond ..)).trans (serviced_setCond ..)).trans (serviced_auxPrepCheck ..)

end

section
variable (a e : Nat) (code : Int) (rest : List (Nat × AxJob × Nat × Nat)) (s : State)

/-- What a service conversion of channel `a` leaves beside its mean. -/
theorem serviceDone_frame (f : AxSt → AxSt) {t : State} (h : Serviced a (modAx a f (slotEnded e rest s)) t) :
    (axsOf t e).slot = rest ∧ (∀ k, k ≠ a → axOf t k = axOf s k) ∧ t.se = s.se := by
  refine ⟨?_, fun k hk => (h.others k hk).trans (axOf_modAx_ne _ _ _ hk), h.se⟩
  rw [axsOf_of_axs (h.axs.trans (modAx_axs ..)), slotEnded, axsOf_modAxs]

theorem cal_calDone : (axOf (calDone a code (slotEnded e rest s)) a).cal =
    (codeVolts (calIndex (iexc s a)) code :: (axOf s a).cal).take 16 :=
  (serviced_serviceChecks a _).cal.trans (congrArg AxSt.cal (axOf_modAx ..))

theorem lead_leadDone : (axOf (leadDone a code (slotEnded e rest s)) a).lead = (codeVolts 3 code :: (axOf s a).lead).take 16 :=
  (serviced_serviceChecks a _).lead.trans (congrArg AxSt.lead (axOf_modAx ..))

end

/-! ### MAIN conversions (R141, R144, R151) -/

theorem auxOnly_auxFaults (a : Nat) (c : Int) (real : Bool) (aexP : Nat) (s : State) : AuxOnly s (auxFaults a c real aexP s) :=
  ((auxOnly_modAx a _ s).trans (FaultsOnly.auxOnly (setCond_frame ..))).trans (FaultsOnly.auxOnly (setCond_frame ..))

theorem auxOnly_autoDecide (a : Nat) (c : Int) (s : State) : AuxOnly s (autoDecide a c s) := rfl

theorem fifoPush_of_room {e : Nat} {s : State} (en : FifoEnt) (hruns : engineRuns s e = true) (hroom : (seOf s e).fifo.length < 16) :
    fifoPush e en s = modSe e (fun x => { x with fifo := x.fifo ++ [en] }) (ledProduce 1 1 s) := by
  have hseOf : seOf (ledProduce 1 1 s) e = seOf s e := rfl
  simp [fifoPush, hruns, hseOf, Nat.not_le.2 hroom]

/-- A MAIN conversion with no held value pending shows its code and offers it to the engine. -/
theorem mainDone_eq {a j at_ : Nat} {code : Int} {aexP : Nat} {s : State} (hheld : (axOf s a).held = false) :
    ∃ en t, mainDone a j at_ code aexP none s = fifoPush (a / 16) en t ∧ AuxOnly s t ∧ (axOf t a).code = code ∧ en.code = code ∧
      en.held = false ∧ en.pos = a % 16 ∧ en.cycle = j ∧ en.at_ = at_ ∧ en.range = (axOf s a).range := by
  unfold mainDone
  simp only [hheld, Bool.not_false, Bool.false_eq_true, if_false]
  exact ⟨_, _, rfl, (((auxOnly_auxFaults ..).trans (auxOnly_autoDecide ..)).trans (auxOnly_modAx a _ _)), congrArg AxSt.code (axOf_modAx ..),
    rfl, rfl, rfl, rfl, rfl, rfl⟩

/-- With room in the engine's FIFO the conversion is its newest entry. -/
theorem mainDone_of_room {e pos j at_ : Nat} {code : Int} {aexP : Nat} {s : State} (hpos : pos < 16)
    (hheld : (axOf s (16 * e + pos)).held = false) (hruns : engineRuns s e = true) (hroom : (seOf s e).fifo.length < 16) :
    ∃ en t, mainDone (16 * e + pos) j at_ code aexP none s =
        modSe e (fun x => { x with fifo := x.fifo ++ [en] }) (ledProduce 1 1 t) ∧ AuxOnly s t ∧
      (axOf t (16 * e + pos)).code = code ∧ en.code = code ∧ en.held = false ∧ en.pos = pos ∧ en.cycle = j ∧ en.at_ = at_ ∧
      en.range = (axOf s (16 * e + pos)).range := by
  have hengine : (16 * e + pos) / 16 = e := by omega
  have hposition : (16 * e + pos) % 16 = pos := by omega
  obtain ⟨en, t, hmain, haux, hcode, hen⟩ := mainDone_eq (j := j) (at_ := at_) (code := code) (aexP := aexP) hheld
  rw [hengine, fifoPush_of_room en ((haux.engineRuns_eq e).trans hruns) (by rw [seOf_of_se haux.se]; exact hroom)] at hmain
  rw [hposition] at hen
  exact ⟨en, t, hmain, haux, hcode, hen⟩

/-! ### The statement on samples and slots -/

/-- A sample that follows the opening of its instant. -/
theorem Sampled.of_instantOpen {i c : Nat} {a b : Int} {s t : State} (h : Sampled c a b (instantOpen i s) t) :
    t.decim = i ∧ NewestIs c a b t ∧ (∀ k, k ≠ c → rcOf t k = rcOf s k) ∧ t.tk = s.tk ∧ t.xg = s.xg ∧ t.units = s.units := by
  have hopen := instantOpen_frame i s
  have hrc : (instantOpen i s).rc = s.rc := (congrArg State.rc hopen :)
  exact ⟨(congrArg State.decim h.beside :).trans (decim_instantOpen i s), h.newest, fun k hk => (h.others k hk).trans (rcOf_of_rc hrc k),
    (congrArg State.tk h.beside :).trans (congrArg State.tk hopen :), (congrArg State.xg h.beside :).trans (congrArg State.xg hopen :),
    (congrArg State.units h.beside :).trans (congrArg State.units hopen :)⟩

/-- Settles O13: the entries by `entriesReady_instantOpen`, the samples by `Sampled`, the slots and the conversions by the branches of
`auxSlotStart` and `auxComplete`. -/
theorem captureAndAux : Obligations.CaptureAndAux := by
  refine ⟨⟨fun i s => ?_, fun i x s hruns => ?_, fun i x s hruns => ?_⟩, fun e j sl s hruns => ?_, fun e j sl code aexP s hruns => ?_,
    fun e code aexP s hslot => ?_, fun e code aexP pos j at_ rest s hruns hpos hon => ?_,
    fun e code aexP pos j at_ rest s hruns heng hpos hslot hon hheld hswap hpast hroom => ?_⟩
  · exact ⟨_, exec_captureSample_nil i s, decim_instantOpen i s, fun e => entriesReady_instantOpen i s, produced_instantOpen i s,
      instantOpen_frame i s⟩
  · have hopen : sliceRuns (instantOpen i s) (x.chan.val / 64) = true := (sliceRuns_instantOpen ..).trans hruns
    exact ⟨_, exec_captureSample_chan i s x hopen, (sampled_chanSample i x _).of_instantOpen⟩
  · have hopen : sliceRuns (instantOpen i s) (x.group.val / 8) = true := (sliceRuns_instantOpen ..).trans hruns
    exact ⟨_, exec_captureSample_sense i s x hopen, (sampled_senseSample x _).of_instantOpen⟩
  · rw [exec_auxSlot_of_runs j sl hruns]
    refine ⟨fun hslot => ?_, fun hslot hjob => ?_, fun hslot c hjob => ?_⟩
    · obtain ⟨t, hrest, h⟩ := auxSlotStart_position (e := e.val) (j := j) (s := s) hslot
      rw [h]
      refine ⟨_, rfl, ?_, fun k hk => ?_, ?_⟩
      · rw [axsOf_modAxs, axsOf_of_axs hrest.axs, putSlot, slot_keepCycle]
        rfl
      · rw [axsOf_modAxs_ne _ _ _ hk, axsOf_of_axs hrest.axs, axsOf_keepCycle_ne hk]
      · exact hrest.frame_of_keepCycle
    · rw [auxSlotStart_no_job hslot hjob]
      exact ⟨_, rfl, congrArg AxsSt.slot (axsOf_modAxs ..), fun k hk => axsOf_modAxs_ne _ _ _ hk, rfl⟩
    · rw [auxSlotStart_job hslot hjob]
      refine ⟨_, rfl, ?_, ?_, fun k hk => (axsOf_modAxs_ne _ _ _ hk).trans (axsOf_modAxs_ne _ _ _ hk), ?_⟩
      · rw [axsOf_modAxs, axsOf_modAxs]
        rfl
      · rw [axsOf_modAxs, axsOf_modAxs]
        rfl
      · simp
  · exact ⟨exec_auxSlot_of_stopped j sl hruns, exec_auxConversionComplete_of_stopped code aexP hruns⟩
  · cases hruns : sliceRuns s e.val with
    | false => exact exec_auxConversionComplete_of_stopped code aexP hruns
    | true => rw [exec_auxConversionComplete_of_runs code aexP hruns, auxComplete_of_no_slot hslot]
  · rw [exec_auxConversionComplete_of_runs code aexP hruns]
    refine ⟨fun hslot => ?_, fun hslot => ?_⟩
    · rw [auxComplete_cal hon hslot]
      obtain ⟨hrest, hothers, hse⟩ := serviceDone_frame _ e.val rest s _ (serviced_serviceChecks (16 * e.val + pos) _)
      exact ⟨_, rfl, hrest, cal_calDone .., hothers, hse⟩
    · rw [auxComplete_lead hon hslot]
      obtain ⟨hrest, hothers, hse⟩ := serviceDone_frame _ e.val rest s _ (serviced_serviceChecks (16 * e.val + pos) _)
      exact ⟨_, rfl, hrest, lead_leadDone .., hothers, hse⟩
  · obtain ⟨en, t, hmain, haux, hcode, hen⟩ := mainDone_of_room (e := e.val) (j := j) (at_ := at_) (code := code) (aexP := aexP)
      (s := slotEnded e.val rest s) hpos hheld heng hroom
    rw [exec_auxConversionComplete_of_runs code aexP hruns, auxComplete_main hon hslot hswap hpast, hmain]
    refine ⟨_, rfl, ?_, hcode, en, ?_, hen⟩
    · exact (congrArg AxsSt.slot (axsOf_of_axs haux.axs e.val)).trans (congrArg AxsSt.slot (axsOf_modAxs ..))
    · rw [seOf_modSe]
      exact congrArg (fun x : SeSt => x.fifo ++ [en]) (seOf_of_se haux.se e.val)

end Sys2Proof.Proofs
end

section
/-! The issue of one engine instruction (spec/06 R167, R168, R172, R173): what an instruction that can run makes of its engine, how a slot
ends, and what the registers and data memory read as after a write. -/
namespace Sys2Proof.Proofs
open Sys2Proof Sys2Proof.Machine

/-! ### From one state to another only an engine changes -/

/-- From `s` to `t` engine `e` alone has changed, and is now `y`. -/
def EngineIs (e : Nat) (y : SeSt) (s t : State) : Prop :=
  { t with se := s.se } = s ∧ (∀ k, k ≠ e → seOf t k = seOf s k) ∧ seOf t e = y

section
variable {e : Nat} {x y : SeSt} {s t u : State}

theorem engineIs_self (e : Nat) (s : State) : EngineIs e (seOf s e) s s := ⟨rfl, fun _ _ => rfl, rfl⟩

theorem engineIs_modSe (e : Nat) (g : SeSt → SeSt) (s : State) : EngineIs e (g (seOf s e)) s (modSe e g s) :=
  ⟨rfl, fun _ hk => seOf_modSe_ne e g s hk, seOf_modSe e g s⟩

theorem EngineIs.trans (h : EngineIs e x s t) (h' : EngineIs e y t u) : EngineIs e y s u :=
  ⟨(congrArg (fun r : State => { r with se := s.se }) h'.1 :).trans h.1, fun k hk => (h'.2.1 k hk).trans (h.2.1 k hk), h'.2.2⟩

theorem EngineIs.modSe (h : EngineIs e x s t) (g : SeSt → SeSt) : EngineIs e (g x) s (modSe e g t) :=
  h.trans (h.2.2 ▸ engineIs_modSe e g t)

end

/-! ### Issue -/

/-- An instruction of engine `e` has room in the slot that its engine is in. -/
def SeRoom (e : Nat) (reads : List Nat) (cost : Nat) (s : State) : Prop :=
  engineRuns s e = true ∧ (seOf s e).ctx.ended = false ∧ issueAt (seOf s e) reads + cost ≤ (seOf s e).ctx.limit

/-- The state in which an instruction takes effect: its time has passed and the interlocks hold. -/
def issueSt (e : Nat) (reads : List Nat) (cost : Nat) (writes : List (Nat × Nat)) (s : State) : State :=
  modSe e (issued (issueAt (seOf s e) reads) cost writes) s

/-- An instruction goes on to the next word, loops counted. -/
def advance (x : SeSt) : SeSt :=
  { x with pc := (loopNext x.pc x.ctx.loops).1, ctx := { x.ctx with loops := (loopNext x.pc x.ctx.loops).2 } }

section
variable (x : SeSt)

@[simp] theorem vOf_advance (r n : Nat) : vOf (advance x) r n = vOf x r n := rfl

@[simp] theorem accOf_advance (r n : Nat) : accOf (advance x) r n = accOf x r n := rfl

@[simp] theorem sOf_advance (r : Nat) : sOf (advance x) r = sOf x r := rfl

@[simp] theorem pOf_advance (r : Nat) : pOf (advance x) r = pOf x r := rfl

@[simp] theorem unread_advance : (advance x).unread = x.unread := rfl

@[simp] theorem dataWord_advance (k : Nat) : dataWord (advance x) k = dataWord x k := rfl

end

/-- What follows the effect of an instruction. -/
def seFinish (e : Nat) (r : State × SeRes) : State :=
  match r.2 with
  | .exc c => seException e c r.1
  | .stop => modSe e (fun x => { x with ctx := { x.ctx with ended := true } }) r.1
  | .jump p => modSe e (fun x => { x with pc := p }) r.1
  | .go => modSe e advance r.1

section
variable {e : Nat} {reads : List Nat} {cost : Nat} {writes : List (Nat × Nat)} {body : State → State × SeRes} {s : State}

theorem seRoom_of_ready (h : SeReady e reads cost s) : SeRoom e reads cost s := ⟨h.1, h.2.1, h.2.2.2⟩

theorem seOf_issueSt (e : Nat) (reads : List Nat) (cost : Nat) (writes : List (Nat × Nat)) (s : State) :
    seOf (issueSt e reads cost writes s) e = issued (issueAt (seOf s e) reads) cost writes (seOf s e) := seOf_modSe ..

section
variable (t c : Nat) (w : List (Nat × Nat)) (x : SeSt)

@[simp] theorem vOf_issued (r n : Nat) : vOf (issued t c w x) r n = vOf x r n := rfl

@[simp] theorem sOf_issued (r : Nat) : sOf (issued t c w x) r = sOf x r := rfl

@[simp] theorem pOf_issued (r : Nat) : pOf (issued t c w x) r = pOf x r := rfl

@[simp] theorem enabled_issued (f : SeFields) (n : Nat) : enabled f (issued t c w x) n = enabled f x n := rfl

@[simp] theorem memAddr_issued (f : SeFields) : memAddr f (issued t c w x) = memAddr f x := rfl

@[simp] theorem instrBank_issued (b : Bool) : instrBank (issued t c w x) b = instrBank x b := rfl

@[simp] theorem excDetail_issued (cause : Nat) : excDetail cause (issued t c w x) = excDetail cause x := rfl

end

theorem engineIs_issueSt (e : Nat) (reads : List Nat) (cost : Nat) (writes : List (Nat × Nat)) (s : State) :
    EngineIs e (issued (issueAt (seOf s e) reads) cost writes (seOf s e)) s (issueSt e reads cost writes s) := engineIs_modSe ..

theorem seOp_of_room (h : SeRoom e reads cost s) :
    seOp e reads cost writes body s = seFinish e (body (issueSt e reads cost writes s)) := by
  obtain ⟨hruns, hended, hroom⟩ := h
  simp only [seOp, hruns, hended, Nat.not_lt.2 hroom]
  rfl

theorem seOp_of_idle (h : engineRuns s e = false ∨ (seOf s e).ctx.ended = true) : seOp e reads cost writes body s = s :=
  if_pos (by simpa using h)

theorem seOp_of_late (hruns : engineRuns s e = true) (hended : (seOf s e).ctx.ended = false)
    (hlate : (seOf s e).ctx.limit < issueAt (seOf s e) reads + cost) : seOp e reads cost writes body s = seOverrun e s := by
  simp only [seOp, hruns, hended]
  exact if_pos hlate

end

/-! ### An instruction that goes on -/

section
variable {e : Nat} {x y : SeSt} {s t : State}

theorem engineIs_go (h : EngineIs e y s t) : EngineIs e (advance y) s (seFinish e (t, .go)) := h.modSe advance

theorem seStep_of_engineIs (h : EngineIs e (advance y) s t) (hpc : y.pc = (seOf s e).pc) (hloops : y.ctx.loops = (seOf s e).ctx.loops)
    (hended : y.ctx.ended = false) : SeStep e s t := by
  obtain ⟨hrest, hothers, hy⟩ := h
  refine ⟨hrest, hothers, ?_, ?_⟩
  · rw [hy, ← hpc, ← hloops]
    rfl
  · rw [hy]
    exact hended

end

section
variable {e : Nat} {reads : List Nat} {cost : Nat} {writes : List (Nat × Nat)} {body : State → State × SeRes} {g : SeSt → SeSt} {s : State}

/-- An instruction that goes on from a state in which only its engine has changed. -/
theorem engineIs_seOp_of_go {y : SeSt} {t : State} (h : SeRoom e reads cost s) (hbody : body (issueSt e reads cost writes s) = (t, .go))
    (ht : EngineIs e y s t) : EngineIs e (advance y) s (seOp e reads cost writes body s) := by
  rw [seOp_of_room h, hbody]
  exact engineIs_go ht

/-- An instruction whose effect is `g` on its engine. -/
theorem engineIs_seOp (h : SeRoom e reads cost s) (hbody : body (issueSt e reads cost writes s) = seReg e g (issueSt e reads cost writes s)) :
    EngineIs e (advance (g (issued (issueAt (seOf s e) reads) cost writes (seOf s e)))) s (seOp e reads cost writes body s) :=
  engineIs_seOp_of_go h hbody ((engineIs_issueSt ..).modSe g)

end

/-! ### Reads of memory words that hold no error (R173) -/

theorem readHits_of_no_hits {e : Nat} {s : State} (h : (seOf s e).hits = []) (mem : SeMem) (l : List Nat) :
    readHits e mem l s = (false, s) := by
  induction l with
  | nil => rfl
  | cons a l ih => simp [readHits, h, ih]

theorem seRead_of_no_hits {e : Nat} {s : State} (h : (seOf s e).hits = []) (mem : SeMem) (l : List Nat) (g : SeSt → SeSt) :
    seRead e mem l g s = seReg e g s := by
  simp [seRead, readHits_of_no_hits h, seReg]

theorem hits_issueSt {e : Nat} {reads : List Nat} {cost : Nat} {writes : List (Nat × Nat)} {s : State} (h : SeReady e reads cost s) :
    (seOf (issueSt e reads cost writes s) e).hits = [] := by
  rw [seOf_issueSt]
  exact h.2.2.1

/-! ### Registers after a write (Table 6-4) -/

@[simp] theorem getElem?_lanes (g : Nat → Int) {n : Nat} (hn : n < 8) : (lanes g)[n]? = some (g n) := by
  simp [lanes, hn]

theorem getD_lanes (g : Nat → Int) {n : Nat} (hn : n < 8) : (lanes g).getD n 0 = g n := by simp [hn]

section
variable (f : SeFields) (val : Nat → Int) (x : SeSt) (r : Nat) {n : Nat} (hn : n < 8)
include hn

theorem vOf_setV :
    vOf (setV f val x) r n = if vIdx r = vIdx f.d.val ∧ enabled f x n = true then satS 24 (val n) else vOf x r n := by
  by_cases hr : vIdx r = vIdx f.d.val
  · simp [vOf, setV, hr, hn]
  · simp [vOf, setV, hr, Tbl.get_set_ne]

theorem accOf_setAcc :
    accOf (setAcc f val x) r n = if accIdx r = accIdx f.d.val ∧ enabled f x n = true then satS 56 (val n) else accOf x r n := by
  by_cases hr : accIdx r = accIdx f.d.val
  · simp [accOf, setAcc, hr, hn]
  · simp [accOf, setAcc, hr, Tbl.get_set_ne]

end

theorem sOf_setS (d : Nat) (v : Word) (x : SeSt) (r : Nat) :
    sOf (setS d v x) r = if sIdx r = sIdx d ∧ sIdx r ≠ 0 then v else sOf x r := by
  by_cases hd : sIdx d = 0
  · by_cases hr : sIdx r = 0 <;> simp [sOf, setS, hd, hr]
  · by_cases hr : sIdx r = sIdx d
    · simp [sOf, setS, hd, hr]
    · simp [sOf, setS, hd, hr, Tbl.get_set_ne]

@[simp] theorem accOf_setS (d : Nat) (v : Word) (x : SeSt) (r n : Nat) : accOf (setS d v x) r n = accOf x r n := by
  unfold setS
  split <;> rfl

@[simp] theorem vOf_setS (d : Nat) (v : Word) (x : SeSt) (r n : Nat) : vOf (setS d v x) r n = vOf x r n := by
  unfold setS
  split <;> rfl

@[simp] theorem fifo_setS (d : Nat) (v : Word) (x : SeSt) : (setS d v x).fifo = x.fifo := by
  unfold setS
  split <;> rfl

@[simp] theorem ctx_setS (d : Nat) (v : Word) (x : SeSt) : (setS d v x).ctx = x.ctx := by
  unfold setS
  split <;> rfl

/-- A write of a scalar leaves the other registers, the program counter and the slot alone. -/
theorem setS_eq (d : Nat) (v : Word) (x : SeSt) : ∃ l, setS d v x = { x with s := l } := by
  unfold setS
  split
  · exact ⟨x.s, rfl⟩
  · exact ⟨_, rfl⟩

/-! ### Instructions that write one register -/

section
variable {e : Nat} {reads : List Nat} {cost : Nat} {writes : List (Nat × Nat)} {body : State → State × SeRes} {f : SeFields} {s : State}
  (h : SeReady e reads cost s)
include h

/-- An instruction that writes vector D. What it writes may be read of the engine, its slot's time and interlocks apart. -/
theorem seWritesV_seOp {val : SeSt → Nat → Int}
    (hbody : body (issueSt e reads cost writes s) = seReg e (fun x => setV f (val x) x) (issueSt e reads cost writes s))
    (hval : ∀ (x : SeSt) c r, val { x with ctx := { x.ctx with cycle := c, ready := r } } = val x) :
    SeWritesV e f (val (seOf s e)) s (seOp e reads cost writes body s) := by
  have hx := engineIs_seOp (seRoom_of_ready h) hbody
  refine ⟨seStep_of_engineIs hx rfl rfl h.2.1, fun r n hn => ?_, ?_⟩
  · rw [hx.2.2, ← hval (seOf s e)]
    exact vOf_setV _ _ _ r hn
  · rw [hx.2.2]
    rfl

/-- An instruction that writes accumulator D. -/
theorem seWritesAcc_seOp {val : SeSt → Nat → Int}
    (hbody : body (issueSt e reads cost writes s) = seReg e (fun x => setAcc f (val x) x) (issueSt e reads cost writes s))
    (hval : ∀ (x : SeSt) c r, val { x with ctx := { x.ctx with cycle := c, ready := r } } = val x) :
    SeWritesAcc e f (val (seOf s e)) s (seOp e reads cost writes body s) := by
  have hx := engineIs_seOp (seRoom_of_ready h) hbody
  refine ⟨seStep_of_engineIs hx rfl rfl h.2.1, fun r n hn => ?_, ?_⟩
  · rw [hx.2.2, ← hval (seOf s e)]
    exact accOf_setAcc _ _ _ r hn
  · rw [hx.2.2]
    rfl

/-- An instruction that writes scalar D. -/
theorem seWritesS_seOp {d : Nat} {val : SeSt → Word}
    (hbody : body (issueSt e reads cost writes s) = seReg e (fun x => setS d (val x) x) (issueSt e reads cost writes s))
    (hval : ∀ (x : SeSt) c r, val { x with ctx := { x.ctx with cycle := c, ready := r } } = val x) :
    SeWritesS e d (val (seOf s e)) s (seOp e reads cost writes body s) := by
  have hx := engineIs_seOp (seRoom_of_ready h) hbody
  have hv : val (issued (issueAt (seOf s e) reads) cost writes (seOf s e)) = val (seOf s e) := hval ..
  obtain ⟨l, hl⟩ := setS_eq d (val (seOf s e)) (issued (issueAt (seOf s e) reads) cost writes (seOf s e))
  rw [hv] at hx
  refine ⟨seStep_of_engineIs hx (by rw [hl]; rfl) (by rw [hl]; rfl) (by rw [hl]; exact h.2.1), fun r => ?_, ?_⟩
  · rw [hx.2.2]
    exact sOf_setS d _ _ r
  · rw [hx.2.2, hl]
    rfl

end

/-! ### A slot that ends with a cause (R172) -/

section
variable (e cause q u kind detail : Nat) (s : State)

@[simp] theorem seOf_raiseFault (k : Nat) : seOf (raiseFault q u kind detail s) k = seOf s k := seOf_of_se (raiseFault_se ..) k

theorem seOf_seException : seOf (seException e cause s) e = endSlot cause (seOf s e) := by simp [seException]

theorem seOf_seOverrun : seOf (seOverrun e s) e = endSlot 1 (seOf s e) := by simp [seOverrun]

end

section
variable {e : Nat} {reads : List Nat} {cost : Nat} {writes : List (Nat × Nat)} {body : State → State × SeRes} {s : State}

/-- An instruction that does nothing but end the slot with a cause. -/
theorem seEnds_seOp {cause : Nat} (h : SeReady e reads cost s)
    (hbody : body (issueSt e reads cost writes s) = (issueSt e reads cost writes s, .exc cause)) :
    SeEnds e cause s (seOp e reads cost writes body s) := by
  have ht : seOp e reads cost writes body s = seException e cause (issueSt e reads cost writes s) := by
    rw [seOp_of_room (seRoom_of_ready h), hbody]
    rfl
  have hx : seOf (seOp e reads cost writes body s) e = endSlot cause (issued (issueAt (seOf s e) reads) cost writes (seOf s e)) := by
    rw [ht, seOf_seException, seOf_issueSt]
  unfold SeEnds
  rw [hx]
  refine ⟨rfl, rfl, rfl, rfl, rfl, rfl, rfl, rfl, ?_⟩
  rw [ht, seException, seOf_issueSt, excDetail_issued]
  exact raised_of_eq _ _ _ _ s _ rfl rfl rfl

end

end Sys2Proof.Proofs
end

section
/-! The vector instructions of the engines (spec/06 R165, R167, Table 6-6). -/
namespace Sys2Proof.Proofs
open Sys2Proof Sys2Proof.Machine

/-! ### Two vectors, one vector -/

section
variable {e : Nat} {f : SeFields} {s : State}

theorem seWritesV_opVec2 (g : Int → Int → Int) (h : SeReady e [kV f.a.val, kV f.b.val, kP f.ps.val] 1 s) :
    SeWritesV e f (fun n => g (vOf (seOf s e) f.a.val n) (vOf (seOf s e) f.b.val n)) s (opVec2 e f g s) :=
  seWritesV_seOp h (val := fun x n => g (vOf x f.a.val n) (vOf x f.b.val n)) rfl (fun _ _ _ => rfl)

theorem seWritesV_opAbs (h : SeReady e [kV f.a.val, kP f.ps.val] 1 s) :
    SeWritesV e f (fun n => ((vOf (seOf s e) f.a.val n).natAbs : Int)) s (opAbs e f s) :=
  seWritesV_seOp h (val := fun x n => ((vOf x f.a.val n).natAbs : Int)) rfl (fun _ _ _ => rfl)

theorem seWritesV_opShf (h : SeReady e [kV f.a.val, kP f.ps.val] 1 s) :
    SeWritesV e f (fun n => shiftVal f.imm.toInt (vOf (seOf s e) f.a.val n)) s (opShf e f s) :=
  seWritesV_seOp h (val := fun x n => shiftVal f.imm.toInt (vOf x f.a.val n)) rfl (fun _ _ _ => rfl)

end

section
variable {n : Int}

theorem shiftVal_left (a : Int) (h : 0 ≤ n) (h' : n ≤ 23) : shiftVal n a = a * (2 ^ n.toNat : Nat) := if_pos ⟨h, h'⟩

theorem shiftVal_right (a : Int) (h : -23 ≤ n) (h' : n < 0) : shiftVal n a = roundShift a (-n).toNat := by
  rw [shiftVal, if_neg (by omega), if_pos ⟨h, h'⟩]

theorem shiftVal_open (a : Int) (h : 23 < n ∨ n < -23) : shiftVal n a = Config.seOption 12 0 n a := by
  rw [shiftVal, if_neg (by omega), if_neg (by omega)]

end

/-- SEL writes every lane of vector D and no other register. -/
theorem seSel_opSel {e : Nat} {f : SeFields} {s : State} (h : SeReady e [kV f.a.val, kV f.b.val, kP f.ps.val] 1 s) :
    SeStep e s (opSel e f s) ∧
      (∀ n, n < 8 → vOf (seOf (opSel e f s) e) f.d.val n =
        if enabled f (seOf s e) n = true then vOf (seOf s e) f.a.val n else vOf (seOf s e) f.b.val n) ∧
      (∀ r, vIdx r ≠ vIdx f.d.val → ∀ n, vOf (seOf (opSel e f s) e) r n = vOf (seOf s e) r n) ∧
      { seOf (opSel e f s) e with v := (seOf s e).v, pc := (seOf s e).pc, ctx := (seOf s e).ctx } = seOf s e := by
  have hx : EngineIs e _ s (opSel e f s) := engineIs_seOp (seRoom_of_ready h) rfl
  refine ⟨seStep_of_engineIs hx rfl rfl h.2.1, fun n hn => ?_, fun r hr n => ?_, ?_⟩
  · rw [hx.2.2, vOf]
    refine (congrArg (fun l : List Int => l.getD n 0) (Tbl.get_set_self ..)).trans ?_
    exact getD_lanes _ hn
  · rw [hx.2.2, vOf]
    exact congrArg (fun l : List Int => l.getD n 0) (Tbl.get_set_ne _ _ _ hr)
  · rw [hx.2.2]
    rfl

/-- Settles O14: each instruction writes what its effect computes of the engine's registers (`seWritesV_seOp`); SHF by the three ranges
of its shift. -/
theorem vectorArithmetic : Obligations.VectorArithmetic := by
  intro e f s x hx
  subst hx
  refine ⟨fun h => ⟨⟨_, rfl, seWritesV_opVec2 _ h⟩, ⟨_, rfl, seWritesV_opVec2 _ h⟩, ⟨_, rfl, seWritesV_opVec2 _ h⟩,
      ⟨_, rfl, seSel_opSel h⟩⟩,
    fun h => ⟨⟨_, rfl, seWritesV_opAbs h⟩, fun hlo hhi => ⟨_, rfl, ?_⟩, fun hlo hhi => ⟨_, rfl, ?_⟩,
      fun hout => ⟨_, rfl, ?_⟩⟩⟩
  · simpa only [shiftVal_left _ hlo hhi] using seWritesV_opShf h
  · simpa only [shiftVal_right _ hlo hhi] using seWritesV_opShf h
  · simpa only [shiftVal_open _ hout] using seWritesV_opShf h

/-! ### Accumulators -/

section
variable {e : Nat} {f : SeFields} {s : State}

theorem seWritesAcc_opMac (h : SeReady e ([kV f.a.val, kV f.b.val, kP f.ps.val] ++ if f.x.getLsbD 0 = true then [] else [kA f.d.val]) 1 s) :
    SeWritesAcc e f (fun n => (if f.x.getLsbD 0 = true then 0 else accOf (seOf s e) f.d.val n) +
      (if f.x.getLsbD 1 = true then -(vOf (seOf s e) f.a.val n * vOf (seOf s e) f.b.val n)
        else vOf (seOf s e) f.a.val n * vOf (seOf s e) f.b.val n)) s (opMac e f s) :=
  seWritesAcc_seOp h (val := fun x n => (if f.x.getLsbD 0 = true then 0 else accOf x f.d.val n) +
    (if f.x.getLsbD 1 = true then -(vOf x f.a.val n * vOf x f.b.val n) else vOf x f.a.val n * vOf x f.b.val n)) rfl (fun _ _ _ => rfl)

theorem seWritesAcc_opHsum (h : SeReady e [kA f.a.val, kP f.ps.val] 3 s) :
    SeWritesAcc e f (fun n => if n = 0 then (List.range 8).foldl (fun t l => t + accOf (seOf s e) f.a.val l) 0 else 0) s (opHsum e f s) :=
  seWritesAcc_seOp h (val := fun x n => if n = 0 then (List.range 8).foldl (fun t l => t + accOf x f.a.val l) 0 else 0) rfl
    (fun _ _ _ => rfl)

theorem sum_range_eight (g : Nat → Int) : (List.range 8).foldl (fun t l => t + g l) 0 = g 0 + g 1 + g 2 + g 3 + g 4 + g 5 + g 6 + g 7 := by
  simp [List.range_succ]

end

/-! ### MACM -/

/-- What MACM makes of its engine: the product of the block at byte `ad` of data memory and the word at byte `cd` of bank `b`, and the two
addresses stepped. -/
def macmEffect (f : SeFields) (ad cd : Nat) (b : Bool) (x : SeSt) : SeSt :=
  let y := setS f.a.val (wordN (macmNext x ad))
    (setAcc f (fun n => accOf x f.d.val n + dataLane x (ad / 4) n * bankWord x b (coefWord cd)) x)
  setS f.b.val (sOf y f.b.val + 4) y

theorem macmEffect_eq (f : SeFields) (ad cd : Nat) (b : Bool) (x : SeSt) : ∃ l m, macmEffect f ad cd b x = { x with acc := l, s := m } := by
  obtain ⟨m, hm⟩ := setS_eq f.a.val (wordN (macmNext x ad))
    (setAcc f (fun n => accOf x f.d.val n + dataLane x (ad / 4) n * bankWord x b (coefWord cd)) x)
  unfold macmEffect
  dsimp only
  rw [hm]
  obtain ⟨m', hm'⟩ := setS_eq f.b.val _ _
  exact ⟨_, m', hm'⟩


theorem accOf_macmEffect (f : SeFields) (ad cd : Nat) (b : Bool) (x : SeSt) {n : Nat} (hn : n < 8) :
    accOf (macmEffect f ad cd b x) f.d.val n = if enabled f x n = true
      then satS 56 (accOf x f.d.val n + dataLane x (ad / 4) n * bankWord x b (coefWord cd)) else accOf x f.d.val n := by
  simp [macmEffect, accOf_setAcc f _ x f.d.val hn]

/-- The address after the block is written before the one after the coefficient. -/
theorem sOf_macmEffect (f : SeFields) (ad cd : Nat) (b : Bool) (x : SeSt) (r : Nat) :
    sOf (macmEffect f ad cd b x) r = if sIdx r = sIdx f.b.val ∧ sIdx r ≠ 0
      then (if sIdx f.b.val = sIdx f.a.val then wordN (macmNext x ad) else sOf x f.b.val) + 4
      else if sIdx r = sIdx f.a.val ∧ sIdx r ≠ 0 then wordN (macmNext x ad) else sOf x r := by
  have hacc : ∀ l, ∀ q, sOf { x with acc := l } q = sOf x q := fun _ _ => rfl
  simp only [macmEffect, sOf_setS, setAcc, hacc]
  by_cases hb : sIdx r = sIdx f.b.val ∧ sIdx r ≠ 0
  · have hb0 : sIdx f.b.val ≠ 0 := hb.1 ▸ hb.2
    simp only [if_pos hb, hb0, ne_eq, not_false_eq_true, and_true]
  · simp only [if_neg hb]

section
variable {e : Nat} {f : SeFields} {s : State}

theorem engineIs_opMacm (h : SeReady e [kS f.a.val, kS f.b.val, kS 9, kA f.d.val, kP f.ps.val] 1 s)
    (hdata : dataOk (sOf (seOf s e) f.a.val).toNat 32 32 = true) (hcoef : (sOf (seOf s e) f.b.val).toNat + 4 ≤ 16384) :
    ∃ c w, EngineIs e (advance (macmEffect f (sOf (seOf s e) f.a.val).toNat (sOf (seOf s e) f.b.val).toNat
      (instrBank (seOf s e) (f.x.getLsbD 1)) (issued c 1 w (seOf s e)))) s (opMacm e f s) := by
  refine ⟨_, _, engineIs_seOp (seRoom_of_ready h) ?_⟩
  simp [seOf_issueSt, hdata, Nat.not_lt.2 hcoef, readHits_of_no_hits (hits_issueSt h), seRead_of_no_hits (hits_issueSt h)]
  rfl

end

/-- Settles O16: MAC and HSUM write accumulator D (`seWritesAcc_seOp`); MACM by its effect on the engine (`engineIs_opMacm`). -/
theorem accumulatorRules : Obligations.AccumulatorRules := by
  intro e f s x hx
  subst hx
  refine ⟨fun h => ⟨_, rfl, seWritesAcc_opMac h⟩, fun h => ⟨_, rfl, ?_⟩, fun h hdata hcoef => ⟨opMacm e.val f s, rfl, ?_⟩⟩
  · simpa only [sum_range_eight] using seWritesAcc_opHsum h
  · obtain ⟨c, w, hx⟩ := engineIs_opMacm h hdata hcoef
    obtain ⟨l, m, heff⟩ := macmEffect_eq f (sOf (seOf s e.val) f.a.val).toNat (sOf (seOf s e.val) f.b.val).toNat
      (instrBank (seOf s e.val) (f.x.getLsbD 1)) (issued c 1 w (seOf s e.val))
    have hscalar := fun r => (congrArg (sOf · r) hx.2.2).trans (sOf_macmEffect f _ _ _ (issued c 1 w (seOf s e.val)) r)
    refine ⟨fun n hn => ?_, fun hne h0 => ?_, fun hne h0 => ?_, fun heq h0 => ?_, ?_⟩
    · rw [hx.2.2]
      exact accOf_macmEffect f _ _ _ _ hn
    · exact (hscalar _).trans (by rw [if_neg (fun hc => hne hc.1), if_pos ⟨rfl, h0⟩]; rfl)
    · exact (hscalar _).trans (by rw [if_pos ⟨rfl, h0⟩, if_neg (fun hc => hne hc.symm)]; rfl)
    · exact (hscalar _).trans (by rw [if_pos ⟨rfl, heq ▸ h0⟩, if_pos heq.symm]; rfl)
    · rw [heff] at hx
      exact seStep_of_engineIs hx rfl rfl h.2.1
end Sys2Proof.Proofs
end

section
/-! Scalar instructions, data memory, CMP and BQ (spec/06 R165, R167, R170, Tables 6-4 and 6-6). -/
namespace Sys2Proof.Proofs
open Sys2Proof Sys2Proof.Machine

/-! ### Words of data memory after a write -/

theorem dataWord_setData (k : Nat) (v : Word) (x : SeSt) (w : Nat) :
    dataWord (setData k v x) w = if w = k then v else dataWord x w := Tbl.get_set ..

/-- Where no word holds an error, a write changes data memory alone. -/
theorem setData_eq (k : Nat) (v : Word) {x : SeSt} (h : x.hits = []) : ∃ m, setData k v x = { x with dmem := m } := by
  refine ⟨Tbl.set (constD 0) x.dmem k v, ?_⟩
  simp [setData, wordWritten, h]

/-- The first `n` words from `k` on take lane values, on the lanes of `en`. -/
def setWords (n k : Nat) (en : Nat → Bool) (val : Nat → Int) (x : SeSt) : SeSt :=
  (List.range n).foldl (fun x l => if en l then setData (k + l) (wordI (val l)) x else x) x

section
variable (k : Nat) (en : Nat → Bool) (val : Nat → Int) (x : SeSt)

theorem setBlock_eq_setWords : setBlock k en val x = setWords 8 k en val x := rfl

theorem setWords_succ (n : Nat) : setWords (n + 1) k en val x =
    if en n then setData (k + n) (wordI (val n)) (setWords n k en val x) else setWords n k en val x := by
  simp [setWords, List.range_succ]

theorem dataWord_setWords (n w : Nat) : dataWord (setWords n k en val x) w =
    if k ≤ w ∧ w < k + n ∧ en (w - k) = true then wordI (val (w - k)) else dataWord x w := by
  induction n with
  | zero => exact (if_neg (by omega)).symm
  | succ n ih =>
    have hstep : dataWord (setWords (n + 1) k en val x) w =
        if w = k + n ∧ en n = true then wordI (val n) else dataWord (setWords n k en val x) w := by
      rw [setWords_succ]
      split
      case isTrue hen => simp [dataWord_setData, hen]
      case isFalse hen => simp [hen]
    rw [hstep, ih]
    by_cases hw : w = k + n
    · subst hw
      simp
    · have hiff : w < k + (n + 1) ↔ w < k + n := by omega
      simp [hw, hiff]

theorem setWords_eq (n : Nat) (h : x.hits = []) : ∃ m, setWords n k en val x = { x with dmem := m } := by
  induction n with
  | zero => exact ⟨x.dmem, rfl⟩
  | succ n ih =>
    obtain ⟨m, hm⟩ := ih
    rw [setWords_succ, hm]
    split
    · exact setData_eq _ _ h
    · exact ⟨m, rfl⟩

theorem setBlock_eq (h : x.hits = []) : ∃ m, setBlock k en val x = { x with dmem := m } := setWords_eq k en val x 8 h

theorem dataWord_setBlock (w : Nat) : dataWord (setBlock k en val x) w =
    if k ≤ w ∧ w < k + 8 ∧ en (w - k) = true then wordI (val (w - k)) else dataWord x w := dataWord_setWords k en val x 8 w

theorem dataWord_setBlock_lane {n : Nat} (hn : n < 8) : dataWord (setBlock k en val x) (k + n) =
    if en n = true then wordI (val n) else dataWord x (k + n) := by
  simp [dataWord_setBlock, hn]

theorem dataWord_setBlock_outside {w : Nat} (h : w < k ∨ k + 8 ≤ w) : dataWord (setBlock k en val x) w = dataWord x w := by
  rw [dataWord_setBlock, if_neg (by omega)]

end

/-! ### Scalars and stores -/

section
variable {e : Nat} {f : SeFields} {s : State}

theorem seWritesS_opMovi (h : SeReady e [] 1 s) : SeWritesS e f.d.val f.imm s (opMovi e f s) :=
  seWritesS_seOp h (val := fun _ => f.imm) rfl (fun _ _ _ => rfl)

theorem seWritesS_opSadd (h : SeReady e [kS f.a.val] 1 s) : SeWritesS e f.d.val (sOf (seOf s e) f.a.val + f.imm) s (opSadd e f s) :=
  seWritesS_seOp h (val := fun x => sOf x f.a.val + f.imm) rfl (fun _ _ _ => rfl)

theorem seWritesS_opLds (h : SeReady e [kS f.a.val] 1 s) (hok : dataOk (memAddr f (seOf s e)) 4 4 = true) :
    SeWritesS e f.d.val (dataWord (seOf s e) (memAddr f (seOf s e) / 4)) s (opLds e f s) :=
  seWritesS_seOp h (val := fun x => dataWord x (memAddr f (seOf s e) / 4))
    (by simp [seOf_issueSt, hok, seRead_of_no_hits (hits_issueSt h)]) (fun _ _ _ => rfl)

theorem engineIs_opSts (h : SeReady e [kS f.a.val, kS f.d.val] 1 s) (hok : dataOk (memAddr f (seOf s e)) 4 4 = true) :
    ∃ c w, EngineIs e (advance (setData (memAddr f (seOf s e) / 4) (sOf (seOf s e) f.d.val) (issued c 1 w (seOf s e)))) s (opSts e f s) :=
  ⟨_, _, engineIs_seOp (g := fun x => setData (memAddr f (seOf s e) / 4) (sOf x f.d.val) x) (seRoom_of_ready h)
    (by simp [seOf_issueSt, hok])⟩

theorem engineIs_opStv (h : SeReady e [kS f.a.val, kV f.a.val, kP f.ps.val] 1 s) (hok : dataOk (memAddr f (seOf s e)) 32 32 = true) :
    ∃ c w, EngineIs e (advance (setBlock (memAddr f (seOf s e) / 4) (enabled f (seOf s e)) (vOf (seOf s e) f.a.val)
      (issued c 1 w (seOf s e)))) s (opStv e f s) :=
  ⟨_, _, engineIs_seOp (g := fun x => setBlock (memAddr f (seOf s e) / 4) (enabled f x) (vOf x f.a.val) x) (seRoom_of_ready h)
    (by simp [seOf_issueSt, hok])⟩

end

/-- Settles O17: MOVI, SADD and LDS by `seWritesS_seOp`, the stores by the words that they write (`dataWord_setData`,
`dataWord_setBlock`). -/
theorem scalarsAndStores : Obligations.ScalarsAndStores := by
  intro e f s x hx
  subst hx
  refine ⟨fun h => ⟨_, rfl, seWritesS_opMovi h⟩,
    fun h => ⟨⟨_, rfl, seWritesS_opSadd h⟩, fun hok => ⟨opLds e.val f s, rfl, seWritesS_opLds h hok⟩⟩,
    fun h hok => ⟨_, rfl, ?_⟩, fun h hok => ⟨_, rfl, ?_⟩⟩
  · obtain ⟨c, w, hx⟩ := engineIs_opSts h hok
    obtain ⟨m, hm⟩ := setData_eq (memAddr f (seOf s e.val) / 4) (sOf (seOf s e.val) f.d.val) (x := issued c 1 w (seOf s e.val)) h.2.2.1
    refine ⟨seStep_of_engineIs hx (by rw [hm]; rfl) (by rw [hm]; rfl) (by rw [hm]; exact h.2.1), fun k => ?_, ?_⟩
    · rw [hx.2.2]
      exact dataWord_setData ..
    · rw [hx.2.2, hm]
      rfl
  · obtain ⟨c, w, hx⟩ := engineIs_opStv h hok
    obtain ⟨m, hm⟩ := setBlock_eq (memAddr f (seOf s e.val) / 4) (enabled f (seOf s e.val)) (vOf (seOf s e.val) f.a.val)
      (issued c 1 w (seOf s e.val)) h.2.2.1
    refine ⟨seStep_of_engineIs hx (by rw [hm]; rfl) (by rw [hm]; rfl) (by rw [hm]; exact h.2.1), fun k => ?_, ?_⟩
    · rw [hx.2.2]
      exact dataWord_setBlock ..
    · rw [hx.2.2, hm]
      rfl

/-! ### Predicates and CMP -/

theorem testBit_packBits (l : List Bool) (n : Nat) : (packBits l).testBit n = l.getD n false := by
  induction l generalizing n with
  | nil => simp [packBits]
  | cons b l ih =>
    cases n with
    | zero => cases b <;> simp [packBits, Nat.testBit_zero, Nat.add_mod]
    | succ n =>
      have hhalf : packBits (b :: l) / 2 = packBits l := by
        simp only [packBits]
        cases b <;> grind
      rw [Nat.testBit_succ, hhalf, ih]
      rfl

theorem getLsbD_packByte (p : Nat → Bool) {n : Nat} (hn : n < 8) : (packByte p).getLsbD n = p n := by
  rw [packByte, BitVec.getLsbD_ofNat, testBit_packBits]
  simp [hn]

theorem pIdx_ne_zero {d : Nat} (h : d ≠ 0) : pIdx d ≠ 0 := by
  unfold pIdx
  split <;> omega

theorem pOf_setP_self {d k : Nat} (hk : pIdx d = k) (h0 : k ≠ 0) (v : BitVec 8) (x : SeSt) : pOf (setP k v x) d = v := by
  simp [pOf, setP, hk, h0]

section
variable (k : Nat) (v : BitVec 8) (x : SeSt)

@[simp] theorem vOf_setP (r n : Nat) : vOf (setP k v x) r n = vOf x r n := rfl

@[simp] theorem unread_setP : (setP k v x).unread = x.unread := rfl

end

/-- An instruction that writes predicate `d` and no other register. -/
theorem predicateWritten {e d c cost : Nat} {w : List (Nat × Nat)} {v : BitVec 8} {s t : State}
    (h : EngineIs e (advance (setP (pIdx d) v (issued c cost w (seOf s e)))) s t) (hended : (seOf s e).ctx.ended = false)
    (hd : pIdx d ≠ 0) :
    SeStep e s t ∧ pOf (seOf t e) d = v ∧ { seOf t e with p := (seOf s e).p, pc := (seOf s e).pc, ctx := (seOf s e).ctx } = seOf s e := by
  refine ⟨seStep_of_engineIs h rfl rfl hended, ?_, ?_⟩
  · rw [h.2.2, pOf_advance, pOf_setP_self rfl hd]
  · rw [h.2.2]
    rfl

section
variable {e : Nat} {f : SeFields} {s : State} (h : SeReady e [kV f.a.val, kV f.b.val, kP f.ps.val] 1 s)
include h

theorem engineIs_opCmp (hd : f.d.val ≠ 0) :
    ∃ c w, EngineIs e (advance (setP (pIdx f.d.val) (packByte (fun n => if enabled f (seOf s e) n
      then cmpCond f.x.toNat (vOf (seOf s e) f.a.val n) (vOf (seOf s e) f.b.val n) else (pOf (seOf s e) f.d.val).getLsbD n))
      (issued c 1 w (seOf s e)))) s (opCmp e f s) :=
  ⟨_, _, engineIs_seOp (g := fun x => setP (pIdx f.d.val) (packByte (fun n => if enabled f x n
    then cmpCond f.x.toNat (vOf x f.a.val n) (vOf x f.b.val n) else (pOf x f.d.val).getLsbD n)) x) (seRoom_of_ready h) (if_neg hd)⟩

theorem seEnds_opCmp (hd : f.d.val = 0) : SeEnds e 3 s (opCmp e f s) := seEnds_seOp h (if_pos hd)

end

/-! ### BQ -/

theorem satS_satS (k : Nat) (a : Int) : satS k (satS k a) = satS k a := by
  unfold satS
  have := Nat.one_le_two_pow (n := k - 1)
  omega

/-- The value of a direct-form section in lane `n`, rounded at 22 bits (R170). -/
def bqSum (f : SeFields) (k : Nat) (co : Nat → Nat → Int) (x : SeSt) (n : Nat) : Int :=
  roundShift (co 0 n * vOf x f.a.val n + co 1 n * dataLane x k n + co 2 n * dataLane x (k + 8) n
    - co 3 n * dataLane x (k + 16) n - co 4 n * dataLane x (k + 24) n) 22

/-- The data block after BQ: the inputs and the outputs, each with the one before it. -/
def bqHistory (f : SeFields) (k : Nat) (co : Nat → Nat → Int) (x : SeSt) : SeSt :=
  setBlock k (enabled f x) (vOf x f.a.val) (setBlock (k + 8) (enabled f x) (dataLane x k)
    (setBlock (k + 16) (enabled f x) (fun n => satS 24 (bqSum f k co x n)) (setBlock (k + 24) (enabled f x) (dataLane x (k + 16)) x)))

section
variable (f : SeFields) (k : Nat) (co : Nat → Nat → Int) (x : SeSt)

theorem bqStep_eq : bqStep f k co x = setV f (fun n => satS 24 (bqSum f k co x n)) (bqHistory f k co x) := rfl

theorem bqHistory_eq (h : x.hits = []) : ∃ m, bqHistory f k co x = { x with dmem := m } := by
  obtain ⟨m4, h4⟩ := setBlock_eq (k + 24) (enabled f x) (dataLane x (k + 16)) x h
  obtain ⟨m3, h3⟩ := setBlock_eq (k + 16) (enabled f x) (fun n => satS 24 (bqSum f k co x n)) { x with dmem := m4 } h
  obtain ⟨m2, h2⟩ := setBlock_eq (k + 8) (enabled f x) (dataLane x k) { x with dmem := m3 } h
  obtain ⟨m1, h1⟩ := setBlock_eq k (enabled f x) (vOf x f.a.val) { x with dmem := m2 } h
  exact ⟨m1, by rw [bqHistory, h4, h3, h2, h1]⟩

theorem dataWord_bqStep (w : Nat) : dataWord (bqStep f k co x) w = dataWord (bqHistory f k co x) w := rfl

theorem vOf_bqStep (h : x.hits = []) {n : Nat} (hn : n < 8) : vOf (bqStep f k co x) f.d.val n =
    if enabled f x n = true then satS 24 (bqSum f k co x n) else vOf x f.d.val n := by
  obtain ⟨m, hm⟩ := bqHistory_eq f k co x h
  rw [bqStep_eq, vOf_setV _ _ _ _ hn, hm, satS_satS]
  simp [enabled, pOf, vOf]

/-- The four rows of the block. -/
theorem dataWord_bqHistory_lane {n : Nat} (hn : n < 8) :
    dataWord (bqHistory f k co x) (k + n) = (if enabled f x n = true then wordI (vOf x f.a.val n) else dataWord x (k + n)) ∧
    dataWord (bqHistory f k co x) (k + 8 + n) = (if enabled f x n = true then wordI (dataLane x k n) else dataWord x (k + 8 + n)) ∧
    dataWord (bqHistory f k co x) (k + 16 + n) =
      (if enabled f x n = true then wordI (satS 24 (bqSum f k co x n)) else dataWord x (k + 16 + n)) ∧
    dataWord (bqHistory f k co x) (k + 24 + n) =
      (if enabled f x n = true then wordI (dataLane x (k + 16) n) else dataWord x (k + 24 + n)) := by
  unfold bqHistory
  refine ⟨?_, ?_, ?_, ?_⟩
  · rw [dataWord_setBlock_lane _ _ _ _ hn]
    iterate 3 rw [dataWord_setBlock_outside _ _ _ _ (by omega)]
  · rw [dataWord_setBlock_outside _ _ _ _ (by omega), dataWord_setBlock_lane _ _ _ _ hn]
    iterate 2 rw [dataWord_setBlock_outside _ _ _ _ (by omega)]
  · iterate 2 rw [dataWord_setBlock_outside _ _ _ _ (by omega)]
    rw [dataWord_setBlock_lane _ _ _ _ hn, dataWord_setBlock_outside _ _ _ _ (by omega)]
  · iterate 3 rw [dataWord_setBlock_outside _ _ _ _ (by omega)]
    rw [dataWord_setBlock_lane _ _ _ _ hn]

theorem dataWord_bqHistory_outside {w : Nat} (h : w < k ∨ k + 32 ≤ w) : dataWord (bqHistory f k co x) w = dataWord x w := by
  unfold bqHistory
  iterate 4 rw [dataWord_setBlock_outside _ _ _ _ (by omega)]

end

section
variable {e : Nat} {f : SeFields} {s : State}

/-- Coefficient `c` of lane `n` of a BQ from word `k` of bank `b`: one set of coefficients, or one per lane. -/
def bqCoef (f : SeFields) (b : Bool) (k : Nat) (x : SeSt) (c n : Nat) : Int :=
  bankWord x b (if f.x.getLsbD 0 then k + c else k + 8 * c + n)

theorem engineIs_opBq (h : SeReady e [kV f.a.val, kS f.a.val, kS f.b.val, kP f.ps.val] 5 s)
    (hdata : dataOk (memAddr f (seOf s e)) 32 128 = true)
    (hcoef : (sOf (seOf s e) f.b.val).toNat + (if f.x.getLsbD 0 = true then 20 else 160) ≤ 16384) :
    ∃ c w, EngineIs e (advance (bqStep f (memAddr f (seOf s e) / 4) (bqCoef f (instrBank (seOf s e) (f.x.getLsbD 1))
      (coefWord (sOf (seOf s e) f.b.val).toNat) (seOf s e)) (issued c 5 w (seOf s e)))) s (opBq e f s) := by
  refine ⟨_, _, engineIs_seOp (g := fun x => bqStep f (memAddr f (seOf s e) / 4) (bqCoef f (instrBank (seOf s e) (f.x.getLsbD 1))
    (coefWord (sOf (seOf s e) f.b.val).toNat) x) x) (seRoom_of_ready h) ?_⟩
  simp only [seOf_issueSt, memAddr_issued, sOf_issued, instrBank_issued, hdata, Nat.not_lt.2 hcoef, readHits_of_no_hits (hits_issueSt h),
    seRead_of_no_hits (hits_issueSt h)]
  rfl

end

/-- Settles O18: CMP by the byte that it packs (`getLsbD_packByte`), without a destination an exception; BQ by the value that it writes
(`vOf_bqStep`) and the rows of its block. -/
theorem compareAndBiquad : Obligations.CompareAndBiquad := by
  intro e f s x hx
  subst hx
  refine ⟨fun h => ⟨fun hd => ⟨_, rfl, ?_⟩, fun hd => ⟨_, rfl, ?_⟩⟩,
    fun h hdata hcoef k co hk hco => ⟨opBq e.val f s, rfl, ?_⟩⟩
  · obtain ⟨c, w, hx⟩ := engineIs_opCmp h hd
    obtain ⟨hstep, hp, hframe⟩ := predicateWritten hx h.2.1 (pIdx_ne_zero hd)
    exact ⟨hstep, fun n hn => (congrArg (BitVec.getLsbD · n) hp).trans (getLsbD_packByte _ hn), hframe⟩
  · obtain ⟨hended, hstaged, hexc, -, -, -, hp, -, hraised⟩ := seEnds_opCmp h hd
    exact ⟨hended, hstaged, hexc, hp, hraised⟩
  · obtain ⟨c, w, hx⟩ := engineIs_opBq h hdata hcoef
    have hcoefs : bqCoef f (instrBank (seOf s e.val) (f.x.getLsbD 1)) (coefWord (sOf (seOf s e.val) f.b.val).toNat) (seOf s e.val) = co := by
      funext c n
      rw [hco, bqCoef]
      split <;> simp [Nat.add_assoc]
    rw [hcoefs, ← hk] at hx
    obtain ⟨m, hm⟩ := bqHistory_eq f k co (issued c 5 w (seOf s e.val)) h.2.2.1
    have hv := fun n (hn : n < 8) => (congrArg (vOf · f.d.val n) hx.2.2).trans (vOf_bqStep f k co (issued c 5 w (seOf s e.val)) h.2.2.1 hn)
    have hword := fun i => (congrArg (dataWord · i) hx.2.2).trans (dataWord_bqStep f k co (issued c 5 w (seOf s e.val)) i)
    rw [bqStep_eq, hm] at hx
    refine ⟨seStep_of_engineIs hx rfl rfl h.2.1, fun n hn hen => ?_, fun n hn hen => ?_, fun i hi => ?_⟩
    · obtain ⟨h0, h1, h2, h3⟩ := dataWord_bqHistory_lane f k co (issued c 5 w (seOf s e.val)) hn
      have hd := (hv n hn).trans (if_pos hen)
      exact ⟨hd, (hword _).trans (h0.trans (if_pos hen)), (hword _).trans (h1.trans (if_pos hen)),
        (hword _).trans ((h2.trans (if_pos hen)).trans (congrArg wordI hd.symm)), (hword _).trans (h3.trans (if_pos hen))⟩
    · obtain ⟨h0, h1, h2, h3⟩ := dataWord_bqHistory_lane f k co (issued c 5 w (seOf s e.val)) hn
      have hoff : ¬ enabled f (seOf s e.val) n = true := by simp [hen]
      exact ⟨(hv n hn).trans (if_neg hoff), (hword _).trans (h0.trans (if_neg hoff)), (hword _).trans (h1.trans (if_neg hoff)),
        (hword _).trans (h2.trans (if_neg hoff)), (hword _).trans (h3.trans (if_neg hoff))⟩
    · exact (hword i).trans (dataWord_bqHistory_outside f k co _ hi)

end Sys2Proof.Proofs
end

section
/-! Vectors from memory, capture, references and accumulators (spec/06 R164, R165, R169, Tables 6-5 and 6-6). -/
namespace Sys2Proof.Proofs
open Sys2Proof Sys2Proof.Machine

/-! ### Loads -/

section
variable {e : Nat} {f : SeFields} {s : State} (h : SeReady e [kS f.a.val, kP f.ps.val] 1 s)
include h

theorem seWritesV_opLdv (hok : dataOk (memAddr f (seOf s e)) 32 32 = true) :
    SeWritesV e f (dataLane (seOf s e) (memAddr f (seOf s e) / 4)) s (opLdv e f s) :=
  seWritesV_seOp h (val := fun x => dataLane x (memAddr f (seOf s e) / 4))
    (by simp [seOf_issueSt, hok, seRead_of_no_hits (hits_issueSt h)]) (fun _ _ _ => rfl)

theorem seWritesV_opLdc_word (hone : f.x.getLsbD 0 = true) (hin : memAddr f (seOf s e) + 4 ≤ 16384) :
    SeWritesV e f (fun _ => bankWord (seOf s e) (instrBank (seOf s e) (f.x.getLsbD 1)) (coefWord (memAddr f (seOf s e)))) s (opLdc e f s) :=
  seWritesV_seOp h (val := fun x _ => bankWord x (instrBank (seOf s e) (f.x.getLsbD 1)) (coefWord (memAddr f (seOf s e))))
    (by simp [-BitVec.getLsbD_eq_getElem, seOf_issueSt, hone, Nat.not_lt.2 hin, seRead_of_no_hits (hits_issueSt h)]) (fun _ _ _ => rfl)

theorem seWritesV_opLdc_block (hblock : f.x.getLsbD 0 = false) (hin : memAddr f (seOf s e) + 32 ≤ 16384) :
    SeWritesV e f (fun n => bankWord (seOf s e) (instrBank (seOf s e) (f.x.getLsbD 1)) (coefWord (memAddr f (seOf s e)) + n)) s
      (opLdc e f s) :=
  seWritesV_seOp h (val := fun x n => bankWord x (instrBank (seOf s e) (f.x.getLsbD 1)) (coefWord (memAddr f (seOf s e)) + n))
    (by simp [-BitVec.getLsbD_eq_getElem, seOf_issueSt, hblock, Nat.not_lt.2 hin, seRead_of_no_hits (hits_issueSt h)]) (fun _ _ _ => rfl)

end

/-! ### References and accumulators -/

section
variable {e : Nat} {f : SeFields} {s : State}

theorem ctxValue_issueSt (reads : List Nat) (cost : Nat) (writes : List (Nat × Nat)) (opt n : Nat) :
    ctxValue (issueSt e reads cost writes s) e opt n = ctxValue s e opt n := by
  unfold ctxValue
  rw [seOf_issueSt]
  rfl

theorem seWritesV_opCtx (h : SeReady e [kS 12, kP f.ps.val] 1 s) (hopt : f.x.toNat ≤ 3) :
    SeWritesV e f (fun n => ctxValue s e f.x.toNat n) s (opCtx e f s) :=
  seWritesV_seOp h (val := fun _ n => ctxValue s e f.x.toNat n) (by simp [ctxValue_issueSt, Nat.not_lt.2 hopt]) (fun _ _ _ => rfl)

theorem seWritesV_opRnd (h : SeReady e [kA f.a.val, kP f.ps.val] 1 s) :
    SeWritesV e f (fun n => if f.imm.toNat ≤ 47 then roundShift (accOf (seOf s e) f.a.val n) f.imm.toNat
      else Config.seOption 10 f.imm.toNat (accOf (seOf s e) f.a.val n) 0) s (opRnd e f s) :=
  seWritesV_seOp h (val := fun x n => if f.imm.toNat ≤ 47 then roundShift (accOf x f.a.val n) f.imm.toNat
    else Config.seOption 10 f.imm.toNat (accOf x f.a.val n) 0) rfl (fun _ _ _ => rfl)

theorem seWritesV_opSqrt (h : SeReady e [kA f.a.val, kP f.ps.val] 8 s) :
    SeWritesV e f (fun n => (sqrt23 (accOf (seOf s e) f.a.val n).toNat : Int)) s (opSqrt e f s) :=
  seWritesV_seOp h (val := fun x n => (sqrt23 (accOf x f.a.val n).toNat : Int)) rfl (fun _ _ _ => rfl)

end

/-! ### The square root -/

/-- The root's bits below `n` are tried from the highest on, above the root so far. -/
def rootBits (a n r : Nat) : Nat :=
  ((List.range n).reverse).foldl (fun r k => if (r + 2 ^ k) * (r + 2 ^ k) ≤ a then r + 2 ^ k else r) r

theorem sqrt23_eq_rootBits (a : Nat) : sqrt23 a = rootBits a 23 0 := rfl

theorem rootBits_succ (a n r : Nat) :
    rootBits a (n + 1) r = rootBits a n (if (r + 2 ^ n) * (r + 2 ^ n) ≤ a then r + 2 ^ n else r) := by
  simp [rootBits, List.range_succ]

theorem rootBits_spec {a n r : Nat} (h : r * r ≤ a) : rootBits a n r * rootBits a n r ≤ a ∧ rootBits a n r < r + 2 ^ n ∧
    (rootBits a n r + 1 < r + 2 ^ n → a < (rootBits a n r + 1) * (rootBits a n r + 1)) := by
  induction n generalizing r with
  | zero => exact ⟨h, Nat.lt_succ_self r, fun hlt => absurd hlt (Nat.lt_irrefl _)⟩
  | succ n ih =>
    rw [rootBits_succ, Nat.pow_succ]
    split
    case isTrue hbit =>
      obtain ⟨hle, hlt, hnext⟩ := ih hbit
      exact ⟨hle, by omega, fun hr => hnext (by omega)⟩
    case isFalse hbit =>
      obtain ⟨hle, hlt, hnext⟩ := ih h
      refine ⟨hle, by omega, fun _ => ?_⟩
      rcases Nat.lt_or_ge (rootBits a n r + 1) (r + 2 ^ n) with hr | hr
      · exact hnext hr
      · rw [show rootBits a n r + 1 = r + 2 ^ n by omega]
        exact Nat.lt_of_not_le hbit

theorem sqrt23_spec (a : Nat) :
    sqrt23 a * sqrt23 a ≤ a ∧ sqrt23 a < 2 ^ 23 ∧ (sqrt23 a + 1 < 2 ^ 23 → a < (sqrt23 a + 1) * (sqrt23 a + 1)) := by
  have h := rootBits_spec (a := a) (n := 23) (r := 0) (Nat.zero_le a)
  rwa [← sqrt23_eq_rootBits, Nat.zero_add] at h

/-! ### CAP (R164, R169) -/

/-- The entry of lane `n` that CAP takes in a lane-group slot: none of another instant. -/
def capEntry (x : SeSt) (n : Nat) : Int × Bool :=
  if x.captureAt == x.ctx.index then Tbl.get (constD (0, false)) x.capture (8 * x.ctx.slot + n) else (0, false)

/-- The entries of the slot's lane group are to be taken. -/
def capReady (x : SeSt) : Bool := x.captureAt == x.ctx.index && x.unread.getLsbD x.ctx.slot

/-- The lane groups whose entries are still unread after the CAP. -/
def capUnread (x : SeSt) : BitVec 16 := if capReady x then x.unread &&& ~~~(BitVec.ofNat 16 (2 ^ x.ctx.slot)) else x.unread

/-- The slot's lane group has been read, and the ledger counts its entries. -/
def capTaken (e : Nat) (s : State) : State :=
  if capReady (seOf s e) then
    ledConsume 1 8 (modSe e (fun x => { x with unread := x.unread &&& ~~~(BitVec.ofNat 16 (2 ^ (seOf s e).ctx.slot)) }) s)
  else s

@[simp] theorem capEntry_issued (t c : Nat) (w : List (Nat × Nat)) (x : SeSt) (n : Nat) : capEntry (issued t c w x) n = capEntry x n := rfl

section
variable {x : SeSt}

theorem capEntry_here (hat : x.captureAt = x.ctx.index) (n : Nat) :
    capEntry x n = Tbl.get (constD (0, false)) x.capture (8 * x.ctx.slot + n) := by simp [capEntry, hat]

theorem capEntry_other (hat : x.captureAt ≠ x.ctx.index) (n : Nat) : capEntry x n = (0, false) := by simp [capEntry, hat]

theorem capUnread_other (hat : x.captureAt ≠ x.ctx.index) : capUnread x = x.unread := by simp [capUnread, capReady, hat]

theorem getLsbD_capUnread (hslot : x.ctx.slot < 16) (hat : x.captureAt = x.ctx.index) : (capUnread x).getLsbD x.ctx.slot = false := by
  unfold capUnread
  split
  case isTrue =>
    rw [BitVec.getLsbD_and, BitVec.getLsbD_not, BitVec.getLsbD_ofNat, Nat.testBit_two_pow_self]
    simp [hslot]
  case isFalse h => simpa [capReady, hat] using h

theorem seOf_capTaken (e : Nat) (s : State) : seOf (capTaken e s) e = { seOf s e with unread := capUnread (seOf s e) } := by
  unfold capTaken capUnread
  split
  · rw [seOf_of_se (ledConsume_se ..), seOf_modSe]
  · rfl

end

theorem capLane_eq (e : Nat) (f : SeFields) (s : State) :
    capLane e f s = modSe e (fun x => setP 3 (packByte (fun n => (capEntry (seOf s e) n).2)) (setV f (fun n => (capEntry (seOf s e) n).1) x))
      (capTaken e s) := rfl

theorem seOf_capLane (e : Nat) (f : SeFields) (s : State) : seOf (capLane e f s) e =
    setP 3 (packByte (fun n => (capEntry (seOf s e) n).2)) (setV f (fun n => (capEntry (seOf s e) n).1)
      { seOf s e with unread := capUnread (seOf s e) }) := by
  rw [capLane_eq, seOf_modSe, seOf_capTaken]

/-- The oldest entry of the auxiliary FIFO is taken. -/
def popEntry (en : FifoEnt) (rest : List FifoEnt) (x : SeSt) : SeSt := { x with fifo := rest, ctx := { x.ctx with lastCap := some en } }

section
variable {e : Nat} {f : SeFields} {s : State}

theorem seOf_capAux_empty (hfifo : (seOf s e).fifo = []) :
    seOf (capAux e f s) e = setS f.d.val 0 (setV f (fun _ => 0) (seOf s e)) := by
  rw [capAux, hfifo]
  exact seOf_modSe ..

theorem seOf_capAux_entry {en : FifoEnt} {rest : List FifoEnt} (hfifo : (seOf s e).fifo = en :: rest) :
    seOf (capAux e f s) e = setS f.d.val (entryStatus en) (setV f (fun n => if n = 0 then en.code * 256 else 0)
      (popEntry en rest (seOf s e))) := by
  rw [capAux, hfifo]
  exact (seOf_of_se (modAx_se ..) e).trans ((seOf_of_se (ledConsume_se ..) e).trans (seOf_modSe ..))

theorem seOf_seFinish_go (e : Nat) (s : State) : seOf (seFinish e (s, .go)) e = advance (seOf s e) := seOf_modSe ..

/-- CAP in the slot of a lane group. -/
theorem seOf_opCap_lane (h : SeReady e [kP f.ps.val] 1 s) (hslot : (seOf s e).ctx.slot < 16) :
    seOf (opCap e f s) e = advance (seOf (capLane e f (issueSt e [kP f.ps.val] 1 [(kV f.d.val, 1), (kP 3, 1)] s)) e) := by
  unfold opCap
  rw [seOp_of_room (seRoom_of_ready h)]
  simp only [hslot, decide_true, if_true, seOf_seFinish_go]

/-- CAP in the auxiliary slot. -/
theorem seOf_opCap_aux (h : SeReady e [kP f.ps.val] 1 s) (hslot : 16 ≤ (seOf s e).ctx.slot) :
    seOf (opCap e f s) e = advance (seOf (capAux e f (issueSt e [kP f.ps.val] 1 [(kV f.d.val, 1), (kS f.d.val, 1)] s)) e) := by
  unfold opCap
  rw [seOp_of_room (seRoom_of_ready h)]
  simp [Nat.not_lt.2 hslot, seOf_seFinish_go]

theorem fifo_issueSt (reads : List Nat) (cost : Nat) (writes : List (Nat × Nat)) :
    (seOf (issueSt e reads cost writes s) e).fifo = (seOf s e).fifo := by
  rw [seOf_issueSt]
  rfl

end

/-- A vector written whole, lane by lane. -/
theorem vOf_setV_self (f : SeFields) (val : Nat → Int) (x : SeSt) {n : Nat} (hn : n < 8) :
    vOf (setV f val x) f.d.val n = if enabled f x n = true then satS 24 (val n) else vOf x f.d.val n := by
  simp [vOf_setV f val x f.d.val hn]

theorem sOf_setS_self (d : Nat) (v : Word) (x : SeSt) : sOf (setS d v x) d = if sIdx d = 0 then 0 else v := by
  rw [sOf_setS]
  by_cases hd : sIdx d = 0
  · simp [hd, sOf]
  · simp [hd]

/-- CAP of the entries of the slot's lane group. -/
theorem opCap_lane {e : Nat} {f : SeFields} {s : State} (h : SeReady e [kP f.ps.val] 1 s) (hslot : (seOf s e).ctx.slot < 16) :
    (∀ n, n < 8 → vOf (seOf (opCap e f s) e) f.d.val n =
      if enabled f (seOf s e) n = true then satS 24 (capEntry (seOf s e) n).1 else vOf (seOf s e) f.d.val n) ∧
    (∀ n, n < 8 → (pOf (seOf (opCap e f s) e) 3).getLsbD n = (capEntry (seOf s e) n).2) ∧
    (seOf (opCap e f s) e).unread = capUnread (seOf s e) := by
  rw [seOf_opCap_lane h hslot, seOf_capLane, seOf_issueSt]
  refine ⟨fun n hn => ?_, fun n hn => ?_, ?_⟩
  · rw [vOf_advance, vOf_setP]
    exact vOf_setV_self f _ _ hn
  · rw [pOf_advance, pOf_setP_self (d := 3) (k := 3) rfl (by decide), getLsbD_packByte _ hn, capEntry_issued]
  · rw [unread_advance, unread_setP]
    rfl

theorem satS_zero (k : Nat) : satS k 0 = 0 := by
  unfold satS
  have := Nat.one_le_two_pow (n := k - 1)
  omega

/-- Settles O15: the loads, references and roundings write vector D (`seWritesV_seOp`); CAP by the entries that it takes (`opCap_lane`,
`seOf_capAux_entry`); the root by its bits (`rootBits_spec`). -/
theorem vectorSources : Obligations.VectorSources := by
  refine ⟨?_, sqrt23_spec⟩
  intro e f s x hx
  subst hx
  refine ⟨fun h => ⟨fun hok => ⟨opLdv e.val f s, rfl, seWritesV_opLdv h hok⟩,
      fun hone hin => ⟨opLdc e.val f s, rfl, seWritesV_opLdc_word h hone hin⟩,
      fun hblock hin => ⟨opLdc e.val f s, rfl, seWritesV_opLdc_block h hblock hin⟩⟩,
    fun h hopt => ⟨_, rfl, seWritesV_opCtx h hopt⟩, fun h => ⟨_, rfl, seWritesV_opRnd h⟩, fun h => ⟨_, rfl, seWritesV_opSqrt h⟩,
    fun h hslot hat => ⟨_, rfl, ?_⟩, fun h hslot hat => ⟨_, rfl, ?_⟩,
    fun h hslot => ⟨fun hfifo => ⟨_, rfl, ?_⟩, fun en rest hfifo => ⟨_, rfl, ?_⟩⟩⟩
  · obtain ⟨hv, hp, hunread⟩ := opCap_lane h hslot
    simp only [capEntry_here hat] at hv hp
    exact ⟨hv, hp, hunread ▸ getLsbD_capUnread hslot hat⟩
  · obtain ⟨hv, hp, hunread⟩ := opCap_lane h hslot
    simp only [capEntry_other hat, satS_zero] at hv hp
    exact ⟨hv, hp, hunread.trans (capUnread_other hat)⟩
  · rw [seOf_opCap_aux h hslot, seOf_capAux_empty ((fifo_issueSt ..).trans hfifo), seOf_issueSt]
    refine ⟨fun n hn => ?_, ?_, ?_⟩
    · rw [vOf_advance, vOf_setS, vOf_setV_self f _ _ hn, satS_zero]
      rfl
    · exact (sOf_setS_self ..).trans (ite_self 0)
    · exact (fifo_setS ..).trans hfifo
  · rw [seOf_opCap_aux h hslot, seOf_capAux_entry ((fifo_issueSt ..).trans hfifo), seOf_issueSt]
    refine ⟨fun n hn => ?_, fun hd => ?_, fifo_setS .., congrArg SlotCtx.lastCap (ctx_setS ..)⟩
    · rw [vOf_advance, vOf_setS, vOf_setV_self f _ _ hn, apply_ite (satS 24), satS_zero]
      rfl
    · exact (sOf_setS_self ..).trans (if_neg hd)

end Sys2Proof.Proofs
end

section
/-! The control instructions of the engines (spec/06 R168, R171, R172, R180, Tables 6-6 and 6-7). -/
namespace Sys2Proof.Proofs
open Sys2Proof Sys2Proof.Machine

/-! ### NOP, LOOP, BR -/

/-- A word that ends no loop is followed by the next one. -/
theorem loopNext_of_ne {pc : Nat} {l : LoopSt} (h : pc ≠ l.last) (rest : List LoopSt) :
    loopNext pc (l :: rest) = ((pc + 1) % 8192, l :: rest) := if_neg h

/-- The loop that LOOP opens at word `pc`: the next `len` words, `n` times. -/
def openedLoop (pc len n : Nat) : LoopSt := { first := (pc + 1) % 8192, last := (pc + len) % 8192, left := n }

theorem last_openedLoop_ne (pc n : Nat) {len : Nat} (h0 : 0 < len) (h1 : len < 8192) : pc ≠ (openedLoop pc len n).last := by
  unfold openedLoop
  dsimp only
  omega

section
variable {e : Nat} {f : SeFields} {s : State}

theorem engineIs_opNop (h : SeReady e [] 1 s) : ∃ c w, EngineIs e (advance (issued c 1 w (seOf s e))) s (opNop e f s) :=
  ⟨_, _, engineIs_seOp_of_go (seRoom_of_ready h) rfl (engineIs_issueSt ..)⟩

theorem loopCount_inside (hne : f.x ≠ 0) (hlo : 1 ≤ f.imm.toNat) (hhi : f.imm.toNat ≤ 4096) :
    ¬ (f.x = 0 ∨ f.imm.toNat = 0 ∨ 4096 < f.imm.toNat) := by
  rintro (h | h | h)
  · exact hne h
  all_goals omega

theorem loops_issueSt (reads : List Nat) (cost : Nat) (writes : List (Nat × Nat)) :
    (seOf (issueSt e reads cost writes s) e).ctx.loops = (seOf s e).ctx.loops := by
  rw [seOf_issueSt]
  rfl

theorem engineIs_opLoop (h : SeReady e [] 1 s) (hne : f.x ≠ 0) (hlo : 1 ≤ f.imm.toNat) (hhi : f.imm.toNat ≤ 4096)
    (hloops : (seOf s e).ctx.loops.length < 2) : ∃ c : SlotCtx, EngineIs e (advance { seOf s e with
      ctx := { c with loops := openedLoop (seOf s e).pc f.x.toNat f.imm.toNat :: (seOf s e).ctx.loops } }) s (opLoop e f s) := by
  refine ⟨(issued _ _ _ (seOf s e)).ctx, engineIs_seOp (g := fun x => { x with ctx := { x.ctx with
    loops := openedLoop x.pc f.x.toNat f.imm.toNat :: x.ctx.loops } }) (seRoom_of_ready h) ?_⟩
  refine (if_neg (loopCount_inside hne hlo hhi)).trans (if_neg ?_)
  rw [loops_issueSt]
  exact Nat.not_le.2 hloops

end

/-- The target of a branch lies past the innermost loop's end. -/
def brOut (f : SeFields) (x : SeSt) : Bool :=
  match x.ctx.loops.head? with | some l => decide (l.last < x.pc + f.imm.toNat) | none => false

/-- The effect of BR where its condition holds. -/
def brTaken (e : Nat) (f : SeFields) (s : State) : State × SeRes :=
  if brOut f (seOf s e) then (s, .exc 6) else if 8191 < (seOf s e).pc + f.imm.toNat then (s, .exc 7)
  else (s, .jump ((seOf s e).pc + f.imm.toNat))

section
variable {f : SeFields} {x : SeSt}

theorem brOut_of_past {l : LoopSt} (hl : x.ctx.loops.head? = some l) (hpast : l.last < x.pc + f.imm.toNat) : brOut f x = true := by
  simp [brOut, hl, hpast]

theorem brOut_of_within (h : ∀ l, x.ctx.loops.head? = some l → x.pc + f.imm.toNat ≤ l.last) : brOut f x = false := by
  unfold brOut
  split
  case h_1 l hl => exact decide_eq_false (Nat.not_lt.2 (h l hl))
  case h_2 => rfl

end

section
variable {e : Nat} {f : SeFields} {s : State}

theorem opBr_not_taken (hbr : brCond f.x.toNat (sOf (seOf s e) f.a.val) = false) :
    opBr e f s = seOp e [kS f.a.val] 1 [] (fun s => (s, .go)) s := by
  unfold opBr
  rw [hbr]
  rfl

theorem opBr_taken (hbr : brCond f.x.toNat (sOf (seOf s e) f.a.val) = true) :
    opBr e f s = seOp e [kS f.a.val] 2 [] (brTaken e f) s := by
  unfold opBr
  rw [hbr]
  refine congrArg (seOp e [kS f.a.val] 2 [] · s) (funext fun t => ?_)
  unfold brTaken brOut
  dsimp only
  cases (seOf t e).ctx.loops <;> rfl

theorem opBr_eq : opBr e f s = seOp e [kS f.a.val] (if brCond f.x.toNat (sOf (seOf s e) f.a.val) then 2 else 1) []
    (if brCond f.x.toNat (sOf (seOf s e) f.a.val) then brTaken e f else fun s => (s, .go)) s := by
  cases hbr : brCond f.x.toNat (sOf (seOf s e) f.a.val) with
  | false => exact opBr_not_taken hbr
  | true => exact opBr_taken hbr

theorem engineIs_opBr_not_taken (h : SeReady e [kS f.a.val] 1 s) (hbr : brCond f.x.toNat (sOf (seOf s e) f.a.val) = false) :
    ∃ c w, EngineIs e (advance (issued c 1 w (seOf s e))) s (opBr e f s) := by
  rw [opBr_not_taken hbr]
  exact ⟨_, _, engineIs_seOp_of_go (seRoom_of_ready h) rfl (engineIs_issueSt ..)⟩

theorem engineIs_opBr_taken (h : SeReady e [kS f.a.val] 2 s) (hbr : brCond f.x.toNat (sOf (seOf s e) f.a.val) = true)
    (hloop : ∀ l, (seOf s e).ctx.loops.head? = some l → (seOf s e).pc + f.imm.toNat ≤ l.last) (hin : (seOf s e).pc + f.imm.toNat < 8192) :
    ∃ c w, EngineIs e { issued c 2 w (seOf s e) with pc := (seOf s e).pc + f.imm.toNat } s (opBr e f s) := by
  have hbody : brTaken e f (issueSt e [kS f.a.val] 2 [] s) = (issueSt e [kS f.a.val] 2 [] s, .jump ((seOf s e).pc + f.imm.toNat)) := by
    unfold brTaken
    rw [seOf_issueSt, brOut_of_within (by exact hloop)]
    exact if_neg (by exact Nat.not_lt.2 (Nat.le_of_lt_succ hin))
  rw [opBr_taken hbr, seOp_of_room (seRoom_of_ready h), hbody]
  exact ⟨_, _, (engineIs_issueSt ..).modSe _⟩

end

/-! ### RAISE, OUT -/

section
variable {e : Nat} {f : SeFields} {s : State}

@[simp] theorem raiseSource_issued (e opt t c : Nat) (w : List (Nat × Nat)) (x : SeSt) :
    raiseSource e opt (issued t c w x) = raiseSource e opt x := rfl

theorem opRaise_message (h : SeReady e [kS f.a.val] 1 s) (hkind : 0xC0 ≤ fld f.imm 0 8) (hopt : f.x.toNat ≤ 9) :
    ∃ w, opRaise e f s = modSe e advance (raiseFault (qEng e) (raiseSource e f.x.toNat (seOf s e)) (fld f.imm 0 8)
      (sOf (seOf s e) f.a.val).toNat (issueSt e [kS f.a.val] 1 w s)) := by
  refine ⟨[], ?_⟩
  unfold opRaise
  rw [seOp_of_room (seRoom_of_ready h)]
  dsimp only
  rw [if_neg (show ¬ (fld f.imm 0 8 < 0xC0 ∨ 9 < f.x.toNat) by omega), seOf_issueSt, raiseSource_issued, sOf_issued]
  rfl

/-- What OUT stages. -/
def outStaged (f : SeFields) (x : SeSt) : Staged :=
  { port := f.x.toNat, lanes := lanes (vOf x f.a.val), mask := packByte (enabled f x)
    cap := if f.x.toNat < 2 then none else x.ctx.lastCap }

/-- The outputs staged after OUT: one for the same port and channel is replaced. -/
def outQueue (f : SeFields) (x : SeSt) : List Staged :=
  x.ctx.staged.filter (fun t => t.port != (outStaged f x).port || t.cap != (outStaged f x).cap) ++ [outStaged f x]

theorem getLast?_outQueue (f : SeFields) (x : SeSt) : (outQueue f x).getLast? = some (outStaged f x) := by simp [outQueue]

theorem portOk_issueSt (reads : List Nat) (cost : Nat) (writes : List (Nat × Nat)) (port : Nat) :
    portOk (issueSt e reads cost writes s) e port = portOk s e port := by
  unfold portOk
  rw [seOf_issueSt]
  rfl

theorem engineIs_opOut (h : SeReady e [kV f.a.val, kP f.ps.val] 1 s) (hport : portOk s e f.x.toNat = true) :
    ∃ c : SlotCtx, c.loops = (seOf s e).ctx.loops ∧ c.ended = false ∧
      EngineIs e (advance { seOf s e with ctx := { c with staged := outQueue f (seOf s e) } }) s (opOut e f s) :=
  ⟨(issued _ _ _ (seOf s e)).ctx, rfl, h.2.1, engineIs_seOp (g := fun x => { x with ctx := { x.ctx with staged := outQueue f x } })
    (seRoom_of_ready h) (if_pos ((portOk_issueSt ..).trans hport))⟩

end

/-! ### YIELD and the delivery of what is staged (R171) -/

/-- From `s` to `t` the trackers alone have changed. -/
def TkOnly (s t : State) : Prop := ∃ l, t = { s with tk := l }

section
variable {s t u : State}

theorem tkOnly_refl (s : State) : TkOnly s s := ⟨s.tk, rfl⟩

theorem tkOnly_modTk (h : TkOnly s t) (c : Nat) (g : TkSt → TkSt) : TkOnly s (modTk c g t) := by
  obtain ⟨l, rfl⟩ := h
  exact ⟨_, rfl⟩

/-- Deliveries to one tracker after another: each does to its own tracker what `P` says, whatever the others have become. -/
theorem tk_doFor {b : Nat} {f : Nat → State → State} {P : Nat → TkSt → TkSt → Prop}
    (hf : ∀ m t, TkOnly s t → TkOnly s (f m t) ∧ P m (tkOf t (b + m)) (tkOf (f m t) (b + m)) ∧
      ∀ c, c ≠ b + m → tkOf (f m t) c = tkOf t c)
    {l : List Nat} (hl : l.Nodup) (ht : TkOnly s t) : TkOnly s (doFor l f t) ∧
      (∀ m ∈ l, P m (tkOf t (b + m)) (tkOf (doFor l f t) (b + m))) ∧
      ∀ c, (∀ m ∈ l, c ≠ b + m) → tkOf (doFor l f t) c = tkOf t c := by
  induction l generalizing t with
  | nil => exact ⟨ht, fun m hm => absurd hm List.not_mem_nil, fun _ _ => rfl⟩
  | cons k l ih =>
    obtain ⟨hk, hl⟩ := List.nodup_cons.1 hl
    obtain ⟨hstep, hP, hothers⟩ := hf k t ht
    obtain ⟨hrest, hPs, hafter⟩ := ih hl hstep
    have hne : ∀ m ∈ l, b + k ≠ b + m := fun m hm hc => hk ((Nat.add_left_cancel hc) ▸ hm)
    refine ⟨hrest, fun m hm => ?_, fun c hc => ?_⟩
    · rw [doFor_cons]
      rcases List.mem_cons.1 hm with rfl | hm
      · rw [hafter _ hne]
        exact hP
      · have h := hPs m hm
        rwa [hothers _ (hne m hm).symm] at h
    · rw [doFor_cons, hafter c (fun m hm => hc m (List.mem_cons_of_mem _ hm)), hothers c (hc k List.mem_cons_self)]

end

/-- What the extension fields of a tracker become. -/
def ExtTaken (listed : Bool) (o : Staged) (m : Nat) (x y : TkSt) : Prop :=
  (listed = false → y = x) ∧ (listed = true → o.mask.getLsbD (2 * m) = true → y.ext0 = o.lanes.getD (2 * m) 0) ∧
    (listed = true → o.mask.getLsbD (2 * m + 1) = true → y.ext1 = o.lanes.getD (2 * m + 1) 0)

/-- A tracker takes a demodulated sample. -/
def SampleTaken (takes : Bool) (o : Staged) (i m : Nat) (x y : TkSt) : Prop :=
  takes = true → ∃ d : Demod, y.waiting = x.waiting ++ [d] ∧ d.i = i ∧ d.s = o.lanes.getD (2 * m) 0 ∧
    d.c = o.lanes.getD (2 * m + 1) 0 ∧ d.ok = (o.mask.getLsbD (2 * m) && o.mask.getLsbD (2 * m + 1))

section
variable (e q : Nat) (o : Staged) {s : State}

theorem deliverExt_step (m : Nat) {t : State} (ht : TkOnly s t) : TkOnly s (deliverExt e q m o t) ∧
    ExtTaken (unitExists s (64 * e + 4 * q + m)) o m (tkOf t (64 * e + 4 * q + m)) (tkOf (deliverExt e q m o t) (64 * e + 4 * q + m)) ∧
    ∀ c, c ≠ 64 * e + 4 * q + m → tkOf (deliverExt e q m o t) c = tkOf t c := by
  have hexists : unitExists t (64 * e + 4 * q + m) = unitExists s (64 * e + 4 * q + m) := by
    obtain ⟨l, rfl⟩ := ht
    rfl
  unfold deliverExt
  rw [hexists]
  split
  case isTrue h =>
    refine ⟨tkOnly_modTk ht _ _, ?_, fun c hc => tkOf_modTk_ne _ _ _ hc⟩
    rw [tkOf_modTk]
    exact ⟨fun hno => absurd (h.symm.trans hno) (by decide), fun _ hm => if_pos hm, fun _ hm => if_pos hm⟩
  case isFalse h =>
    exact ⟨ht, ⟨fun _ => rfl, fun hyes => absurd hyes h, fun hyes => absurd hyes h⟩, fun _ _ => rfl⟩

theorem deliverChan_step (m : Nat) {t : State} (ht : TkOnly s t) : TkOnly s (deliverChan e q m o t) ∧
    SampleTaken (unitExists s (64 * e + 4 * q + m) && stOf s (64 * e + 4 * q + m) != .dormant) o (seOf s e).ctx.index m
      (tkOf t (64 * e + 4 * q + m)) (tkOf (deliverChan e q m o t) (64 * e + 4 * q + m)) ∧
    ∀ c, c ≠ 64 * e + 4 * q + m → tkOf (deliverChan e q m o t) c = tkOf t c := by
  have hsame : unitExists t (64 * e + 4 * q + m) = unitExists s (64 * e + 4 * q + m) ∧
      stOf t (64 * e + 4 * q + m) = stOf s (64 * e + 4 * q + m) ∧ seOf t e = seOf s e := by
    obtain ⟨l, rfl⟩ := ht
    exact ⟨rfl, rfl, rfl⟩
  obtain ⟨hexists, hst, hse⟩ := hsame
  unfold deliverChan
  dsimp only
  rw [hexists, hst, hse]
  split
  case isTrue h =>
    refine ⟨tkOnly_modTk ht _ _, fun _ => ?_, fun c hc => tkOf_modTk_ne _ _ _ hc⟩
    rw [tkOf_modTk]
    exact ⟨_, rfl, rfl, rfl, rfl, rfl⟩
  case isFalse h => exact ⟨ht, fun hyes => absurd hyes h, fun _ _ => rfl⟩

end

section
variable (e : Nat) (en : FifoEnt) (o : Staged) (s : State)

/-- The check completes the preparation of the channel or does nothing. -/
theorem auxPrepCheck_eq (a : Nat) :
    ∃ b, auxPrepCheck a s = doIf b (modUnit (0x400 + a) (fun z => { z with prepDone := true })) s := ⟨_, rfl⟩

@[simp] theorem ax_auxPrepCheck (a : Nat) : (auxPrepCheck a s).ax = s.ax := by
  obtain ⟨b, hb⟩ := auxPrepCheck_eq s a
  rw [hb]
  cases b <;> rfl

@[simp] theorem se_auxPrepCheck (a : Nat) : (auxPrepCheck a s).se = s.se := by
  obtain ⟨b, hb⟩ := auxPrepCheck_eq s a
  rw [hb]
  cases b <;> rfl

theorem outs_deliverAux : ∃ r, (axOf (deliverAux e en o s) (entryChan e en)).outs.head? = some r ∧ r.at_ = en.at_ ∧
    r.y = o.lanes.getD 0 0 ∧ r.ok = o.mask.getLsbD 0 ∧ r.range = en.range := by
  unfold deliverAux
  dsimp only
  rw [axOf_of_ax (ax_auxPrepCheck ..), axOf_modAx]
  split
  · exact ⟨_, rfl, rfl, rfl, rfl, rfl⟩
  · split <;> exact ⟨_, rfl, rfl, rfl, rfl, rfl⟩

theorem dets_deliverDet : ∃ r, (axOf (deliverDet e en o s) (entryChan e en)).dets.head? = some r ∧ r.at_ = en.at_ ∧ r.range = en.range ∧
    r.peak = (if o.mask.getLsbD 0 = true then some (o.lanes.getD 0 0) else none) ∧
    r.rms = (if o.mask.getLsbD 1 = true then some (o.lanes.getD 1 0) else none) ∧
    r.envl = (if o.mask.getLsbD 2 = true then some (o.lanes.getD 2 0) else none) := by
  unfold deliverDet
  rw [axOf_modAx]
  exact ⟨_, rfl, rfl, rfl, rfl, rfl, rfl⟩

theorem se_deliverChan (q m : Nat) : (deliverChan e q m o s).se = s.se := by
  unfold deliverChan
  dsimp only
  split <;> rfl

theorem se_deliverExt (q m : Nat) : (deliverExt e q m o s).se = s.se := by
  unfold deliverExt
  split <;> rfl

/-- A delivery leaves the engines alone. -/
theorem se_deliver : (deliver e o s).se = s.se := by
  unfold deliver
  dsimp only
  split
  · exact doFor_keeps State.se _ (fun m t => se_deliverChan e o t _ m) _ s
  · split
    · exact doFor_keeps State.se _ (fun m t => se_deliverExt e o t _ m) _ s
    · split
      · rfl
      · split
        · exact se_auxPrepCheck ..
        · rfl

/-- The port of what is staged names the delivery. -/
theorem deliver_samples (h : o.port = 0) :
    deliver e o s = doFor [0, 1, 2, 3] (fun m => deliverChan e (seOf s e).ctx.slot m o) s := if_pos h

theorem deliver_extensions (h : o.port = 1) :
    deliver e o s = doFor [0, 1, 2, 3] (fun m => deliverExt e (seOf s e).ctx.slot m o) s := by
  simp [deliver, h]

variable {o en}

theorem deliver_output (h : o.port = 2) (hcap : o.cap = some en) : deliver e o s = deliverAux e en o s := by
  simp [deliver, h, hcap]

theorem deliver_detector (h : o.port = 3) (hcap : o.cap = some en) : deliver e o s = deliverDet e en o s := by
  simp [deliver, h, hcap]

end

/-- The state in which YIELD delivers: nothing is staged any more. -/
def yieldSt (e : Nat) (s : State) : State := modSe e (fun x => { x with ctx := { x.ctx with staged := [] } }) (issueSt e [] 1 [] s)

/-- The program of the slot has ended. -/
def slotDone (x : SeSt) : SeSt := { x with ctx := { x.ctx with ended := true } }

section
variable {e : Nat} {f : SeFields} {s : State} (h : SeReady e [] 1 s)

theorem engineIs_yieldSt (e : Nat) (s : State) : ∃ c : SlotCtx, c.slot = (seOf s e).ctx.slot ∧ c.index = (seOf s e).ctx.index ∧
    c.staged = [] ∧ EngineIs e { seOf s e with ctx := c } s (yieldSt e s) :=
  ⟨{ (issued (issueAt (seOf s e) []) 1 [] (seOf s e)).ctx with staged := [] }, rfl, rfl, rfl, (engineIs_issueSt ..).modSe _⟩

include h

theorem opYield_eq : opYield e f s = modSe e slotDone (doFor (seOf s e).ctx.staged (deliver e) (yieldSt e s)) := by
  have hstaged : (seOf (issueSt e [] 1 [] s) e).ctx.staged = (seOf s e).ctx.staged := by
    rw [seOf_issueSt]
    rfl
  unfold opYield
  rw [seOp_of_room (seRoom_of_ready h)]
  dsimp only
  rw [hstaged]
  rfl

theorem opYield_none (hst : (seOf s e).ctx.staged = []) : opYield e f s = modSe e slotDone (yieldSt e s) := by
  rw [opYield_eq h, hst, doFor_nil]

theorem opYield_one {o : Staged} (hst : (seOf s e).ctx.staged = [o]) : opYield e f s = modSe e slotDone (deliver e o (yieldSt e s)) := by
  rw [opYield_eq h, hst, doFor_cons, doFor_nil]

/-- After the delivery of one output the slot has ended and nothing is staged. -/
theorem opYield_one_ends {o : Staged} (hst : (seOf s e).ctx.staged = [o]) :
    (seOf (opYield e f s) e).ctx.ended = true ∧ (seOf (opYield e f s) e).ctx.staged = [] := by
  obtain ⟨c, -, -, hstaged, hx⟩ := engineIs_yieldSt e s
  rw [opYield_one h hst, seOf_modSe, seOf_of_se (se_deliver ..), hx.2.2]
  exact ⟨rfl, hstaged⟩

end

section
variable {e q : Nat} {f : SeFields} {o : Staged} {s : State} (h : SeReady e [] 1 s) (hst : (seOf s e).ctx.staged = [o])
include h hst

theorem tkOf_opYield_one (c : Nat) : tkOf (opYield e f s) c = tkOf (deliver e o (yieldSt e s)) c := by
  rw [opYield_one h hst]
  rfl

theorem axOf_opYield_one (a : Nat) : axOf (opYield e f s) a = axOf (deliver e o (yieldSt e s)) a := by
  rw [opYield_one h hst]
  rfl

/-- YIELD with one output of port 1 delivers the extension fields. -/
theorem opYield_extensions (hport : o.port = 1) (hq : (seOf s e).ctx.slot = q) {m : Nat} (hm : m < 4) :
    ExtTaken (unitExists s (64 * e + 4 * q + m)) o m (tkOf s (64 * e + 4 * q + m)) (tkOf (opYield e f s) (64 * e + 4 * q + m)) := by
  obtain ⟨c, hslot, -, -, hx⟩ := engineIs_yieldSt e s
  have hq' : (seOf (yieldSt e s) e).ctx.slot = q := by rw [hx.2.2, ← hq, ← hslot]
  rw [tkOf_opYield_one h hst, deliver_extensions _ _ _ hport, hq']
  exact (tk_doFor (fun m t ht => deliverExt_step e q o m ht) (by decide) (tkOnly_refl (yieldSt e s))).2.1 m (by simp; omega)

/-- YIELD with one output of port 0 delivers the demodulated samples. -/
theorem opYield_samples (hport : o.port = 0) (hq : (seOf s e).ctx.slot = q) {m : Nat} (hm : m < 4) :
    SampleTaken (unitExists s (64 * e + 4 * q + m) && stOf s (64 * e + 4 * q + m) != .dormant) o (seOf s e).ctx.index m
      (tkOf s (64 * e + 4 * q + m)) (tkOf (opYield e f s) (64 * e + 4 * q + m)) := by
  obtain ⟨c, hslot, hindex, -, hx⟩ := engineIs_yieldSt e s
  have hq' : (seOf (yieldSt e s) e).ctx.slot = q := by rw [hx.2.2, ← hq, ← hslot]
  have hi : (seOf (yieldSt e s) e).ctx.index = (seOf s e).ctx.index := by rw [hx.2.2, ← hindex]
  rw [tkOf_opYield_one h hst, deliver_samples _ _ _ hport, hq', ← hi]
  exact (tk_doFor (fun m t ht => deliverChan_step e q o m ht) (by decide) (tkOnly_refl (yieldSt e s))).2.1 m (by simp; omega)

end

/-- Settles O19: what goes on or jumps by `EngineIs`; RAISE and SLOT_OVERRUN by the message that they raise; YIELD by the delivery of its one
output (`opYield_one`), to one tracker after another (`tk_doFor`) or to the auxiliary channel. -/
theorem engineControl : Obligations.EngineControl := by
  intro e f s x hx
  subst hx
  refine ⟨fun h => ⟨⟨_, rfl, ?_⟩, fun hne hlo hhi hloops => ⟨_, rfl, ?_⟩, fun hst => ⟨_, rfl, ?_⟩,
      fun o q hst hport hq => ⟨_, rfl, (opYield_one_ends h hst).1, (opYield_one_ends h hst).2, fun m hm => ?_⟩,
      fun o q hst hport hq => ⟨_, rfl, (opYield_one_ends h hst).1, (opYield_one_ends h hst).2, fun m hm hlisted hawake => ?_⟩,
      fun o en hst hport hcap => ⟨_, rfl, (opYield_one_ends h hst).1, (opYield_one_ends h hst).2, ?_⟩,
      fun o en hst hport hcap => ⟨_, rfl, (opYield_one_ends h hst).1, (opYield_one_ends h hst).2, ?_⟩⟩,
    fun hbr h hloop hin => ⟨_, rfl, ?_⟩, fun hbr h => ⟨_, rfl, ?_⟩,
    fun h hkind hopt => ⟨_, rfl, ?_⟩, fun h hport => ⟨_, rfl, ?_⟩,
    fun hruns hended => ⟨seOverrun e.val s, ?_, ?_⟩, fun hidle => ?_⟩
  · obtain ⟨c, w, hx⟩ := engineIs_opNop h
    refine ⟨seStep_of_engineIs hx rfl rfl h.2.1, ?_⟩
    rw [hx.2.2]
    rfl
  · obtain ⟨c, hx⟩ := engineIs_opLoop h hne hlo hhi hloops
    have hlen : 0 < f.x.toNat := Nat.pos_of_ne_zero (fun h0 => hne (BitVec.eq_of_toNat_eq h0))
    have hnext := loopNext_of_ne (last_openedLoop_ne (seOf s e.val).pc f.imm.toNat hlen (Nat.lt_trans f.x.isLt (by decide)))
      (seOf s e.val).ctx.loops
    rw [hx.2.2]
    exact ⟨congrArg Prod.fst hnext, congrArg Prod.snd hnext⟩
  · obtain ⟨c, -, -, -, hx⟩ := engineIs_yieldSt e.val s
    obtain ⟨hrest, -, hdone⟩ := hx.modSe slotDone
    rw [opYield_none h hst, hdone]
    exact ⟨rfl, rfl, hrest⟩
  · exact opYield_extensions h hst hport hq hm
  · exact opYield_samples h hst hport hq hm (by simpa [hlisted] using hawake)
  · rw [axOf_opYield_one h hst, deliver_output _ _ hport hcap]
    exact outs_deliverAux ..
  · rw [axOf_opYield_one h hst, deliver_detector _ _ hport hcap]
    exact dets_deliverDet ..
  · obtain ⟨c, w, hrest, -, hx⟩ := engineIs_opBr_taken h hbr hloop hin
    rw [hx]
    exact ⟨rfl, h.2.1, rfl, hrest⟩
  · obtain ⟨c, w, hx⟩ := engineIs_opBr_not_taken h hbr
    refine ⟨seStep_of_engineIs hx rfl rfl h.2.1, ?_⟩
    rw [hx.2.2]
    rfl
  · obtain ⟨w, ht⟩ := opRaise_message h hkind hopt
    rw [ht, seOf_modSe, seOf_raiseFault, seOf_issueSt]
    exact ⟨raised_of_queue_eq (raised_of_eq _ _ _ _ s (issueSt e.val [kS f.a.val] 1 w s) rfl rfl rfl) rfl, rfl, rfl⟩
  · obtain ⟨c, hloops, hended, hx⟩ := engineIs_opOut h hport
    refine ⟨seStep_of_engineIs hx rfl hloops hended,
      ⟨outStaged f (seOf s e.val), ?_, rfl, fun n hn => ⟨getD_lanes _ hn, getLsbD_packByte _ hn⟩⟩, ?_⟩
    · rw [hx.2.2]
      exact getLast?_outQueue ..
    · rw [hx.2.2]
      rfl
  · exact congrArg Host.Outcome.next (if_pos (by simp [hruns, hended]))
  · rw [seOf_seOverrun]
    exact ⟨rfl, rfl, rfl, raised_of_eq _ _ _ _ s _ rfl rfl rfl⟩
  · exact congrArg Host.Outcome.next (if_neg (by rcases hidle with h | h <;> simp [h]))

end Sys2Proof.Proofs
end

section
/-! How slots of the engines end: memory errors (spec/06 R173), the slot timer (R168, R172) and the exceptions of Table 6-8. -/
namespace Sys2Proof.Proofs
open Sys2Proof Sys2Proof.Machine

/-! ### A word that holds an error -/

/-- The state after the word `addr` of memory `mem` came up with an error. -/
def hitSt (e : Nat) (mem : SeMem) (addr : Nat) (bad : Bool) (s : State) : State := modSe e (addHits [⟨mem, addr, bad⟩]) s

/-- An engine whose only word in error is `addr` of memory `mem`. -/
def withHits (l : List EccHit) (x : SeSt) : SeSt := { x with hits := l }

theorem addHits_one {x : SeSt} (h : x.hits = []) (g : EccHit) : addHits [g] x = withHits [g] x := by
  simp [addHits, wordBad, wordWritten, withHits, h]

section
variable {e : Nat} {reads : List Nat} {cost : Nat} {writes : List (Nat × Nat)} {mem : SeMem} {addr : Nat} {bad : Bool} {s : State}

section
variable (h : SeReady e reads cost s)
include h

theorem seOf_hitSt : seOf (hitSt e mem addr bad s) e = withHits [⟨mem, addr, bad⟩] (seOf s e) := by
  rw [hitSt, seOf_modSe, addHits_one h.2.2.1]

theorem seRoom_hitSt : SeRoom e reads cost (hitSt e mem addr bad s) := by
  unfold SeRoom
  rw [seOf_hitSt h]
  exact seRoom_of_ready h

theorem seOf_issueSt_hitSt : seOf (issueSt e reads cost writes (hitSt e mem addr bad s)) e =
    issued (issueAt (seOf s e) reads) cost writes (withHits [⟨mem, addr, bad⟩] (seOf s e)) := by
  rw [seOf_issueSt, seOf_hitSt h]
  rfl

end

theorem readHits_uncorrectable (hx : (seOf s e).hits = [⟨mem, addr, true⟩]) (l : List Nat) :
    readHits e mem (addr :: l) s = (true, raiseFault qSE (0x600 + e) 0x3C (memCode mem * 2 ^ 28 + addr % 65536) s) := by
  simp [readHits, hx]

/-- A corrected error is counted and gone. -/
theorem readHits_corrected (hx : (seOf s e).hits = [⟨mem, addr, false⟩]) (l : List Nat) :
    readHits e mem (addr :: l) s = (false, modSe e (fun x => { x with
      ecc := satInc 16 x.ecc, hits := x.hits.filter (fun g => g != ⟨mem, addr, false⟩) }) s) := by
  have hgone : (seOf (modSe e (fun x => { x with
      ecc := satInc 16 x.ecc, hits := x.hits.filter (fun g => g != ⟨mem, addr, false⟩) }) s) e).hits = [] := by
    rw [seOf_modSe]
    simp [hx]
  rw [readHits, hx]
  simp [readHits_of_no_hits hgone]

end

/-- The words of a block begin with its first. -/
theorem wordsAt_succ (k n : Nat) : wordsAt k (n + 1) = k :: (List.range n).map (fun i => k + (i + 1)) := by
  simp [wordsAt, List.range_succ_eq_map, Function.comp_def]

section
variable (l : List EccHit) (x : SeSt)

@[simp] theorem sOf_withHits (r : Nat) : sOf (withHits l x) r = sOf x r := rfl

@[simp] theorem memAddr_withHits (f : SeFields) : memAddr f (withHits l x) = memAddr f x := rfl

@[simp] theorem instrBank_withHits (b : Bool) : instrBank (withHits l x) b = instrBank x b := rfl

end

/-! ### An uncorrectable word ends the slot -/

/-- The slot ended with cause 9 and no register or data word was written. -/
def MemCut (e : Nat) (s t : State) : Prop :=
  (seOf t e).ctx.ended = true ∧ (seOf t e).lastExc = wordN (excDetail 9 (seOf s e)) ∧ (seOf t e).v = (seOf s e).v ∧
    (seOf t e).acc = (seOf s e).acc ∧ (seOf t e).s = (seOf s e).s ∧ (seOf t e).dmem = (seOf s e).dmem

section
variable {e : Nat} {reads : List Nat} {cost : Nat} {writes : List (Nat × Nat)} {body : State → State × SeRes} {mem : SeMem} {addr : Nat}
  {s : State} (h : SeReady e reads cost s)
include h

/-- An instruction that reads the word in error first, by reading the words `addr :: l`. -/
theorem memCut_seOp {l : List Nat}
    (hbody : body (issueSt e reads cost writes (hitSt e mem addr true s)) =
      ((readHits e mem (addr :: l) (issueSt e reads cost writes (hitSt e mem addr true s))).2, .exc 9)) :
    MemCut e s (seOp e reads cost writes body (hitSt e mem addr true s)) := by
  have hx := seOf_issueSt_hitSt (writes := writes) (mem := mem) (addr := addr) (bad := true) h
  rw [readHits_uncorrectable (by rw [hx]; rfl)] at hbody
  have ht : seOf (seOp e reads cost writes body (hitSt e mem addr true s)) e =
      endSlot 9 (issued (issueAt (seOf s e) reads) cost writes (withHits [⟨mem, addr, true⟩] (seOf s e))) := by
    rw [seOp_of_room (seRoom_hitSt h), hbody, ← hx]
    exact (seOf_seException ..).trans (congrArg (endSlot 9) (seOf_raiseFault ..))
  unfold MemCut
  rw [ht]
  exact ⟨rfl, rfl, rfl, rfl, rfl, rfl⟩

/-- An instruction whose first word is corrected counts the error and has its effect. -/
theorem seOf_seOp_corrected {g : SeSt → SeSt} {l : List Nat}
    (hbody : body (issueSt e reads cost writes (hitSt e mem addr false s)) =
      seRead e mem (addr :: l) g (issueSt e reads cost writes (hitSt e mem addr false s))) :
    seOf (seOp e reads cost writes body (hitSt e mem addr false s)) e =
      advance (g { issued (issueAt (seOf s e) reads) cost writes (seOf s e) with ecc := satInc 16 (seOf s e).ecc }) := by
  have hx := seOf_issueSt_hitSt (writes := writes) (mem := mem) (addr := addr) (bad := false) h
  have hhits : (seOf s e).hits = [] := h.2.2.1
  rw [seOp_of_room (seRoom_hitSt h), hbody, seRead, readHits_corrected (by rw [hx]; rfl)]
  simp only [Bool.false_eq_true, if_false, seOf_seFinish_go, seOf_modSe, hx]
  congr 2
  simp [issued, withHits, hhits]

end

section
variable {e : Nat} {mem : SeMem} {addr : Nat} {l : List Nat} {g : SeSt → SeSt} {s : State}

theorem seRead_uncorrectable (hx : (seOf s e).hits = [⟨mem, addr, true⟩]) :
    seRead e mem (addr :: l) g s = ((readHits e mem (addr :: l) s).2, .exc 9) := by
  rw [seRead, readHits_uncorrectable hx]
  rfl

end

section
variable {e : Nat} {f : SeFields} {s : State}

theorem hits_issueSt_hitSt {reads : List Nat} {cost : Nat} {writes : List (Nat × Nat)} {mem : SeMem} {addr : Nat} {bad : Bool}
    (h : SeReady e reads cost s) : (seOf (issueSt e reads cost writes (hitSt e mem addr bad s)) e).hits = [⟨mem, addr, bad⟩] := by
  rw [seOf_issueSt_hitSt h]
  rfl

theorem memCut_opLds (h : SeReady e [kS f.a.val] 1 s) (hok : dataOk (memAddr f (seOf s e)) 4 4 = true) :
    MemCut e s (opLds e f (hitSt e .data (memAddr f (seOf s e) / 4) true s)) := by
  refine memCut_seOp h (l := []) ?_
  simp only [seOf_issueSt_hitSt h, memAddr_issued, memAddr_withHits, hok, if_true]
  exact seRead_uncorrectable (hits_issueSt_hitSt h)

theorem memCut_opLdv (h : SeReady e [kS f.a.val, kP f.ps.val] 1 s) (hok : dataOk (memAddr f (seOf s e)) 32 32 = true) :
    MemCut e s (opLdv e f (hitSt e .data (memAddr f (seOf s e) / 4) true s)) := by
  refine memCut_seOp h (l := (List.range 7).map (fun i => memAddr f (seOf s e) / 4 + (i + 1))) ?_
  simp only [seOf_issueSt_hitSt h, memAddr_issued, memAddr_withHits, hok, if_true, wordsAt_succ]
  exact seRead_uncorrectable (hits_issueSt_hitSt h)

theorem memCut_opLdc (h : SeReady e [kS f.a.val, kP f.ps.val] 1 s)
    (hin : memAddr f (seOf s e) + (if f.x.getLsbD 0 = true then 4 else 32) ≤ 16384) :
    MemCut e s (opLdc e f (hitSt e (bankMem (instrBank (seOf s e) (f.x.getLsbD 1))) (coefWord (memAddr f (seOf s e))) true s)) := by
  refine memCut_seOp h (l := if f.x.getLsbD 0 = true then []
    else (List.range 7).map (fun i => coefWord (memAddr f (seOf s e)) + (i + 1))) ?_
  simp only [seOf_issueSt_hitSt h, memAddr_issued, memAddr_withHits, instrBank_issued, instrBank_withHits, Nat.not_lt.2 hin, if_false,
    wordsAt_succ]
  split <;> exact seRead_uncorrectable (hits_issueSt_hitSt h)

theorem memCut_opMacm (h : SeReady e [kS f.a.val, kS f.b.val, kS 9, kA f.d.val, kP f.ps.val] 1 s)
    (hdata : dataOk (sOf (seOf s e) f.a.val).toNat 32 32 = true) (hcoef : (sOf (seOf s e) f.b.val).toNat + 4 ≤ 16384) :
    MemCut e s (opMacm e f (hitSt e .data ((sOf (seOf s e) f.a.val).toNat / 4) true s)) := by
  refine memCut_seOp h (l := (List.range 7).map (fun i => (sOf (seOf s e) f.a.val).toNat / 4 + (i + 1))) ?_
  simp only [seOf_issueSt_hitSt h, sOf_issued, sOf_withHits, hdata, Nat.not_lt.2 hcoef, wordsAt_succ,
    readHits_uncorrectable (hits_issueSt_hitSt h)]
  rfl

theorem memCut_opBq (h : SeReady e [kV f.a.val, kS f.a.val, kS f.b.val, kP f.ps.val] 5 s)
    (hdata : dataOk (memAddr f (seOf s e)) 32 128 = true)
    (hcoef : (sOf (seOf s e) f.b.val).toNat + (if f.x.getLsbD 0 = true then 20 else 160) ≤ 16384) :
    MemCut e s (opBq e f (hitSt e .data (memAddr f (seOf s e) / 4) true s)) := by
  refine memCut_seOp h (l := (List.range 31).map (fun i => memAddr f (seOf s e) / 4 + (i + 1))) ?_
  simp only [seOf_issueSt_hitSt h, memAddr_issued, memAddr_withHits, sOf_issued, sOf_withHits, hdata, Nat.not_lt.2 hcoef, wordsAt_succ,
    readHits_uncorrectable (hits_issueSt_hitSt h)]
  rfl

/-! ### A corrected word -/

/-- LDS of a corrected word writes it and counts the error. -/
theorem seOf_opLds_corrected (h : SeReady e [kS f.a.val] 1 s) (hok : dataOk (memAddr f (seOf s e)) 4 4 = true) :
    ∃ y, y.ecc = satInc 16 (seOf s e).ecc ∧ y.ctx.ended = false ∧ seOf (opLds e f (hitSt e .data (memAddr f (seOf s e) / 4) false s)) e =
      advance (setS f.d.val (dataWord (seOf s e) (memAddr f (seOf s e) / 4)) y) :=
  ⟨{ issued (issueAt (seOf s e) [kS f.a.val]) 1 [(kS f.d.val, 2)] (seOf s e) with ecc := satInc 16 (seOf s e).ecc }, rfl, h.2.1,
    seOf_seOp_corrected h (g := fun x => setS f.d.val (dataWord x (memAddr f (seOf s e) / 4)) x) (l := [])
    (by simp only [seOf_issueSt_hitSt h, memAddr_issued, memAddr_withHits, hok, if_true])⟩

/-- LDV of a block whose first word is corrected writes it and counts the error. -/
theorem seOf_opLdv_corrected (h : SeReady e [kS f.a.val, kP f.ps.val] 1 s) (hok : dataOk (memAddr f (seOf s e)) 32 32 = true) :
    ∃ y, y.ecc = satInc 16 (seOf s e).ecc ∧ y.ctx.ended = false ∧ seOf (opLdv e f (hitSt e .data (memAddr f (seOf s e) / 4) false s)) e =
      advance (setV f (dataLane (seOf s e) (memAddr f (seOf s e) / 4)) y) :=
  ⟨{ issued (issueAt (seOf s e) [kS f.a.val, kP f.ps.val]) 1 [(kV f.d.val, 2)] (seOf s e) with ecc := satInc 16 (seOf s e).ecc }, rfl, h.2.1,
    seOf_seOp_corrected h (g := fun x => setV f (dataLane x (memAddr f (seOf s e) / 4)) x)
    (l := (List.range 7).map (fun i => memAddr f (seOf s e) / 4 + (i + 1)))
    (by simp only [seOf_issueSt_hitSt h, memAddr_issued, memAddr_withHits, hok, if_true, wordsAt_succ])⟩

end

/-! ### Exceptions (Table 6-8) -/

section
variable {e : Nat} {f : SeFields} {s : State}

theorem seEnds_opLds (h : SeReady e [kS f.a.val] 1 s) (hbad : dataOk (memAddr f (seOf s e)) 4 4 = false) : SeEnds e 4 s (opLds e f s) :=
  seEnds_seOp h (by simp [seOf_issueSt, hbad])

theorem seEnds_opSts (h : SeReady e [kS f.a.val, kS f.d.val] 1 s) (hbad : dataOk (memAddr f (seOf s e)) 4 4 = false) :
    SeEnds e 4 s (opSts e f s) :=
  seEnds_seOp h (by simp [seOf_issueSt, hbad])

theorem seEnds_opLdv (h : SeReady e [kS f.a.val, kP f.ps.val] 1 s) (hbad : dataOk (memAddr f (seOf s e)) 32 32 = false) :
    SeEnds e 4 s (opLdv e f s) :=
  seEnds_seOp h (by simp [seOf_issueSt, hbad])

theorem seEnds_opStv (h : SeReady e [kS f.a.val, kV f.a.val, kP f.ps.val] 1 s) (hbad : dataOk (memAddr f (seOf s e)) 32 32 = false) :
    SeEnds e 4 s (opStv e f s) :=
  seEnds_seOp h (by simp [seOf_issueSt, hbad])

theorem seEnds_opLdc (h : SeReady e [kS f.a.val, kP f.ps.val] 1 s)
    (hout : 16384 < memAddr f (seOf s e) + (if f.x.getLsbD 0 = true then 4 else 32)) : SeEnds e 5 s (opLdc e f s) := by
  refine seEnds_seOp h ?_
  simp only [seOf_issueSt, memAddr_issued]
  exact if_pos hout

section
variable (h : SeReady e [kS f.a.val, kS f.b.val, kS 9, kA f.d.val, kP f.ps.val] 1 s)
include h

theorem seEnds_opMacm_data (hbad : dataOk (sOf (seOf s e) f.a.val).toNat 32 32 = false) : SeEnds e 4 s (opMacm e f s) :=
  seEnds_seOp h (by simp [seOf_issueSt, hbad])

theorem seEnds_opMacm_coef (hok : dataOk (sOf (seOf s e) f.a.val).toNat 32 32 = true) (hout : 16384 < (sOf (seOf s e) f.b.val).toNat + 4) :
    SeEnds e 5 s (opMacm e f s) :=
  seEnds_seOp h (by simp [seOf_issueSt, hok, hout])

end

section
variable (h : SeReady e [kV f.a.val, kS f.a.val, kS f.b.val, kP f.ps.val] 5 s)
include h

theorem seEnds_opBq_data (hbad : dataOk (memAddr f (seOf s e)) 32 128 = false) : SeEnds e 4 s (opBq e f s) :=
  seEnds_seOp h (by simp [seOf_issueSt, hbad])

theorem seEnds_opBq_coef (hok : dataOk (memAddr f (seOf s e)) 32 128 = true)
    (hout : 16384 < (sOf (seOf s e) f.b.val).toNat + (if f.x.getLsbD 0 = true then 20 else 160)) : SeEnds e 5 s (opBq e f s) := by
  refine seEnds_seOp h ?_
  simp only [seOf_issueSt, memAddr_issued, sOf_issued, hok]
  exact if_pos hout

end

section
variable (h : SeReady e [] 1 s)
include h

theorem seEnds_opLoop_count (hout : f.x = 0 ∨ f.imm.toNat = 0 ∨ 4096 < f.imm.toNat) : SeEnds e 3 s (opLoop e f s) :=
  seEnds_seOp h (if_pos hout)

theorem seEnds_opLoop_level (hne : f.x ≠ 0) (hlo : 1 ≤ f.imm.toNat) (hhi : f.imm.toNat ≤ 4096)
    (hloops : 2 ≤ (seOf s e).ctx.loops.length) :
    SeEnds e 6 s (opLoop e f s) :=
  seEnds_seOp h ((if_neg (loopCount_inside hne hlo hhi)).trans (if_pos (by rwa [loops_issueSt])))

end

section
variable (hbr : brCond f.x.toNat (sOf (seOf s e) f.a.val) = true) (h : SeReady e [kS f.a.val] 2 s)
include hbr h

theorem seEnds_opBr_past {l : LoopSt} (hl : (seOf s e).ctx.loops.head? = some l) (hpast : l.last < (seOf s e).pc + f.imm.toNat) :
    SeEnds e 6 s (opBr e f s) := by
  rw [opBr_taken hbr]
  refine seEnds_seOp h (if_pos ?_)
  rw [seOf_issueSt]
  exact brOut_of_past hl hpast

theorem seEnds_opBr_beyond (hloop : ∀ l, (seOf s e).ctx.loops.head? = some l → (seOf s e).pc + f.imm.toNat ≤ l.last)
    (hout : 8192 ≤ (seOf s e).pc + f.imm.toNat) : SeEnds e 7 s (opBr e f s) := by
  rw [opBr_taken hbr]
  refine seEnds_seOp h ?_
  unfold brTaken
  rw [seOf_issueSt, brOut_of_within (by exact hloop)]
  exact if_pos hout

end

theorem seEnds_opOut (h : SeReady e [kV f.a.val, kP f.ps.val] 1 s) (hport : portOk s e f.x.toNat = false) : SeEnds e 8 s (opOut e f s) :=
  seEnds_seOp h (if_neg (by simp [portOk_issueSt, hport]))

end

/-- CAP issues as every instruction does, in either kind of slot. -/
theorem opCap_eq (e : Nat) (f : SeFields) (s : State) : ∃ writes body, opCap e f s = seOp e [kP f.ps.val] 1 writes body s := by
  unfold opCap
  exact ⟨_, _, rfl⟩

/-- Settles O20: a word in error by `memCut_seOp` and `seOf_seOp_corrected`, the slot timer by `seOp_of_late`, the slot's end by
`seOp_of_idle`, the exceptions by `seEnds_seOp`. -/
theorem slotEnds : Obligations.SlotEnds := by
  refine ⟨?_, ⟨fun e f s hruns hended => ?_, fun e f s hidle => ?_⟩, ?_⟩
  · intro e f s x hx
    subst hx
    refine ⟨fun h hok => ⟨⟨_, rfl, ?_⟩, ⟨opLds e.val f (hitSt e.val .data (memAddr f (seOf s e.val) / 4) false s), rfl, ?_⟩⟩,
      fun h hok => ⟨⟨_, rfl, ?_⟩, ⟨opLdv e.val f (hitSt e.val .data (memAddr f (seOf s e.val) / 4) false s), rfl, ?_⟩⟩,
      fun h hin => ⟨_, rfl, ?_⟩, fun h hdata hcoef => ⟨_, rfl, ?_⟩, fun h hdata hcoef => ⟨_, rfl, ?_⟩⟩
    · obtain ⟨hended, hexc, -, -, hs, -⟩ := memCut_opLds h hok
      exact ⟨hended, hexc, hs⟩
    · obtain ⟨y, hecc, hended, ht⟩ := seOf_opLds_corrected h hok
      obtain ⟨l, hl⟩ := setS_eq f.d.val (dataWord (seOf s e.val) (memAddr f (seOf s e.val) / 4)) y
      refine ⟨?_, ?_, fun hd => ?_⟩
      · rw [ht, hl]
        exact hecc
      · rw [ht, hl]
        exact hended
      · rw [ht]
        exact (sOf_setS_self ..).trans (if_neg hd)
    · obtain ⟨hended, hexc, hv, -⟩ := memCut_opLdv h hok
      exact ⟨hended, hexc, hv⟩
    · obtain ⟨y, hecc, hended, ht⟩ := seOf_opLdv_corrected h hok
      rw [ht]
      exact ⟨hecc, hended⟩
    · obtain ⟨hended, hexc, hv, -⟩ := memCut_opLdc h hin
      exact ⟨hended, hexc, hv⟩
    · obtain ⟨hended, hexc, -, hacc, -⟩ := memCut_opMacm h hdata hcoef
      exact ⟨hended, hexc, hacc⟩
    · obtain ⟨hended, hexc, hv, -, -, hdmem⟩ := memCut_opBq h hdata hcoef
      exact ⟨hended, hexc, hv, hdmem⟩
  · have late : ∀ {reads cost writes body t}, (seOf s e.val).ctx.limit < issueAt (seOf s e.val) reads + cost →
        t = seOp e.val reads cost writes body s → Host.Outcome.next t = (.next (seOverrun e.val s) : Host.Outcome State Fault Refusal) :=
      fun h ht => congrArg Host.Outcome.next (ht.trans (seOp_of_late hruns hended h))
    have lateReg : ∀ {reads cost writes g t}, (seOf s e.val).ctx.limit < issueAt (seOf s e.val) reads + cost →
        t = seOp e.val reads cost writes (seReg e.val g) s →
        Host.Outcome.next t = (.next (seOverrun e.val s) : Host.Outcome State Fault Refusal) := fun h ht => late h ht
    obtain ⟨_, _, hcap⟩ := opCap_eq e.val f s
    exact ⟨fun h => ⟨lateReg h rfl, late h rfl, late h rfl, late h rfl⟩,
      fun h => ⟨lateReg h rfl, late (t := opLds e.val f s) h rfl, late h rfl⟩, fun h => late h rfl,
      fun h => ⟨late (t := opLdv e.val f s) h rfl, late (t := opLdc e.val f s) h rfl⟩, fun h => late h rfl, fun h => late h hcap,
      fun h => late h rfl, fun h => lateReg h rfl, fun h => late (t := opMacm e.val f s) h rfl, fun h => lateReg h rfl, fun h => lateReg h rfl,
      fun h => ⟨lateReg h rfl, lateReg h rfl, lateReg h rfl, late h rfl, lateReg h rfl⟩,
      fun h => ⟨lateReg h rfl, lateReg h rfl, late h rfl⟩, fun h => late (t := opBq e.val f s) h rfl, fun h => lateReg h rfl,
      fun h => late h opBr_eq⟩
  · have idle : ∀ {reads cost writes body t}, t = seOp e.val reads cost writes body s →
        Host.Outcome.next t = (.next s : Host.Outcome State Fault Refusal) :=
      fun ht => congrArg Host.Outcome.next (ht.trans (seOp_of_idle hidle))
    have idleReg : ∀ {reads cost writes g t}, t = seOp e.val reads cost writes (seReg e.val g) s →
        Host.Outcome.next t = (.next s : Host.Outcome State Fault Refusal) := fun ht => idle ht
    obtain ⟨_, _, hcap⟩ := opCap_eq e.val f s
    exact ⟨idleReg rfl, idle rfl, idle rfl, idle rfl, idleReg rfl, idle (t := opLds e.val f s) rfl, idle rfl, idle rfl,
      idle (t := opLdv e.val f s) rfl, idle (t := opLdc e.val f s) rfl, idle rfl, idle hcap, idle rfl, idleReg rfl,
      idle (t := opMacm e.val f s) rfl, idleReg rfl, idleReg rfl, idleReg rfl, idleReg rfl, idleReg rfl, idle rfl, idleReg rfl,
      idleReg rfl, idleReg rfl, idle rfl, idle (t := opBq e.val f s) rfl, idleReg rfl, idle opBr_eq⟩
  · intro e f s x hx
    subst hx
    exact ⟨fun h hbad => ⟨opLds e.val f s, rfl, seEnds_opLds h hbad⟩, fun h hbad => ⟨_, rfl, seEnds_opSts h hbad⟩,
      fun h hbad => ⟨opLdv e.val f s, rfl, seEnds_opLdv h hbad⟩, fun h hbad => ⟨_, rfl, seEnds_opStv h hbad⟩,
      fun h hout => ⟨opLdc e.val f s, rfl, seEnds_opLdc h hout⟩,
      fun h => ⟨fun hbad => ⟨opMacm e.val f s, rfl, seEnds_opMacm_data h hbad⟩,
        fun hok hout => ⟨opMacm e.val f s, rfl, seEnds_opMacm_coef h hok hout⟩⟩,
      fun h => ⟨fun hbad => ⟨opBq e.val f s, rfl, seEnds_opBq_data h hbad⟩,
        fun hok hout => ⟨opBq e.val f s, rfl, seEnds_opBq_coef h hok hout⟩⟩,
      fun h hopt => ⟨_, rfl, seEnds_seOp h (if_pos hopt)⟩,
      fun h => ⟨fun hout => ⟨_, rfl, seEnds_opLoop_count h hout⟩,
        fun hne hlo hhi hloops => ⟨_, rfl, seEnds_opLoop_level h hne hlo hhi hloops⟩⟩,
      fun h hout => ⟨_, rfl, seEnds_seOp h (if_pos hout)⟩,
      fun hbr h => ⟨fun l hl hpast => ⟨_, rfl, seEnds_opBr_past hbr h hl hpast⟩,
        fun hloop hout => ⟨_, rfl, seEnds_opBr_beyond hbr h hloop hout⟩⟩,
      fun h hport => ⟨_, rfl, seEnds_opOut h hport⟩⟩

end Sys2Proof.Proofs
end

section
/-! Coefficient banks (spec/06 R174, R175) and the pass of an engine (R161, R183). -/
namespace Sys2Proof.Proofs
open Sys2Proof Sys2Proof.Machine

/-! ### A host write of a bank word -/

theorem signed_bounds (x : Nat) : -(2 ^ 23) ≤ signed 24 x ∧ signed 24 x < 2 ^ 23 := by
  unfold signed
  split <;> omega

/-- A bank word reads as the low 24 bits that were written, with their sign. -/
theorem sfld_bankStore (v : Word) : sfld (bankStore v) 0 24 = sfld v 0 24 := by
  obtain ⟨hlo, hhi⟩ := signed_bounds (fld v 0 24)
  have hfld : fld (bankStore v) 0 24 = (sfld v 0 24 % 2 ^ 24).toNat := by
    unfold fld bankStore wordI
    rw [BitVec.toNat_ofInt]
    omega
  have hval : sfld v 0 24 = signed 24 (fld v 0 24) := rfl
  rw [show sfld (bankStore v) 0 24 = signed 24 (fld (bankStore v) 0 24) from rfl, hfld, hval]
  generalize signed 24 (fld v 0 24) = z at hlo hhi ⊢
  unfold signed
  split <;> omega

/-- Word `k` of bank `b` holds `v`, and no error any more. -/
def bankStored (b : Bool) (k : Nat) (v : Word) (x : SeSt) : SeSt :=
  let y := wordWritten (bankMem b) k x
  if b then { y with bankB := Tbl.set (constD 0) y.bankB k (bankStore v) } else { y with bankA := Tbl.set (constD 0) y.bankA k (bankStore v) }

section
variable (b : Bool) (k : Nat) (v : Word) (x : SeSt)

theorem get_bankStored :
    Tbl.get (constD 0) (if b = true then (bankStored b k v x).bankB else (bankStored b k v x).bankA) k = bankStore v := by
  cases b <;> exact Tbl.get_set_self ..

theorem bankWord_bankStored (i : Nat) : bankWord (bankStored b k v x) b i = if i = k then sfld v 0 24 else bankWord x b i := by
  have hget : bankWord (bankStored b k v x) b i =
      sfld (if i = k then bankStore v else Tbl.get (constD 0) (if b then x.bankB else x.bankA) i) 0 24 := by
    cases b <;> exact congrArg (sfld · 0 24) (Tbl.get_set ..)
  rw [hget]
  split
  · exact sfld_bankStore v
  · rfl

theorem bankWord_bankStored_not (i : Nat) : bankWord (bankStored b k v x) (!b) i = bankWord x (!b) i := by
  cases b <;> rfl

end

section
variable {e k : Nat} {b : Bool} {v : Word} {s : State}

theorem bankWrite_stored (hfree : bankLocked (seOf s e) = false) (hb : b ≠ (seOf s e).cur) :
    bankWrite e b k v s = modSe e (bankStored b k v) s := by
  simp only [bankWrite, hfree]
  exact if_pos (by simp [hb])

theorem bankWrite_refused (h : bankLocked (seOf s e) = true ∨ b = (seOf s e).cur) :
    bankWrite e b k v s = raiseFault qSE (0x600 + e) 0x3A ((if bankLocked (seOf s e) = true then 2 else 1) * 2 ^ 28 +
      (if b = true then 0x4000 else 0) + 4 * k) (modSe e (fun x => { x with refusals := satInc 8 x.refusals }) s) := by
  have hreason : (if bankLocked (seOf s e) then 2 else if b == (seOf s e).cur then 1 else 0) =
      if bankLocked (seOf s e) = true then 2 else 1 := by
    rcases h with h | h <;> simp [h]
  simp only [bankWrite, hreason]
  exact if_neg (by split <;> simp)

end

/-! ### What a pass keeps of the units (R183): no operation of an engine changes a unit's state -/

theorem stOf_of_units {s t : State} (h : t.units = s.units) (u : Nat) : stOf t u = stOf s u := by
  unfold stOf unitOf
  rw [h]

section
variable (u : Nat)

@[simp] theorem stOf_modSe (e : Nat) (g : SeSt → SeSt) (s : State) : stOf (modSe e g s) u = stOf s u := rfl

@[simp] theorem stOf_modTk (c : Nat) (g : TkSt → TkSt) (s : State) : stOf (modTk c g s) u = stOf s u := rfl

@[simp] theorem stOf_modAx (a : Nat) (g : AxSt → AxSt) (s : State) : stOf (modAx a g s) u = stOf s u := rfl

@[simp] theorem stOf_ledConsume (k n : Nat) (s : State) : stOf (ledConsume k n s) u = stOf s u := rfl

@[simp] theorem stOf_ledDrop (k n v : Nat) (s : State) : stOf (ledDrop k n v s) u = stOf s u := stOf_of_units (ledDrop_units ..) u

@[simp] theorem stOf_raiseFault (q v kind detail : Nat) (s : State) : stOf (raiseFault q v kind detail s) u = stOf s u :=
  stOf_of_units (raiseFault_units ..) u

/-- A preparation that completes leaves the state to the next boundary. -/
@[simp] theorem stOf_prepDone (k : Nat) (s : State) : stOf (modUnit k (fun z => { z with prepDone := true }) s) u = stOf s u := by
  unfold stOf
  by_cases h : u = k
  · subst h
    rw [unitOf_modUnit]
  · rw [unitOf_modUnit_ne _ _ _ h]

theorem stOf_doFor {α : Type} {f : α → State → State} (h : ∀ a s, stOf (f a s) u = stOf s u) (l : List α) (s : State) :
    stOf (doFor l f s) u = stOf s u := doFor_keeps (stOf · u) f h l s

@[simp] theorem stOf_ite (c : Prop) [Decidable c] (s t : State) : stOf (if c then s else t) u = if c then stOf s u else stOf t u :=
  apply_ite (stOf · u) c s t

@[simp] theorem stOf_fst_ite (c : Prop) [Decidable c] (r q : State × SeRes) :
    stOf (if c then r else q).1 u = if c then stOf r.1 u else stOf q.1 u := apply_ite (fun r : State × SeRes => stOf r.1 u) c r q

@[simp] theorem stOf_seException (e cause : Nat) (s : State) : stOf (seException e cause s) u = stOf s u := by simp [seException]

@[simp] theorem stOf_seOverrun (e : Nat) (s : State) : stOf (seOverrun e s) u = stOf s u := by simp [seOverrun]

@[simp] theorem stOf_readHits (e : Nat) (mem : SeMem) (l : List Nat) (s : State) : stOf (readHits e mem l s).2 u = stOf s u := by
  induction l generalizing s with
  | nil => rfl
  | cons a l ih =>
    unfold readHits
    split
    · exact ih s
    · split
      · exact stOf_raiseFault ..
      · exact ih _

@[simp] theorem stOf_seReg (e : Nat) (g : SeSt → SeSt) (s : State) : stOf (seReg e g s).1 u = stOf s u := rfl

@[simp] theorem stOf_seRead (e : Nat) (mem : SeMem) (l : List Nat) (g : SeSt → SeSt) (s : State) :
    stOf (seRead e mem l g s).1 u = stOf s u := by simp [seRead]

theorem stOf_seFinish (e : Nat) (r : State × SeRes) : stOf (seFinish e r) u = stOf r.1 u := by
  unfold seFinish
  split <;> simp

/-- An instruction whose effect leaves the units' states alone does so itself. -/
theorem stOf_seOp {e : Nat} {reads : List Nat} {cost : Nat} {writes : List (Nat × Nat)} {body : State → State × SeRes}
    (h : ∀ t, stOf (body t).1 u = stOf t u) (s : State) : stOf (seOp e reads cost writes body s) u = stOf s u := by
  by_cases hidle : engineRuns s e = false ∨ (seOf s e).ctx.ended = true
  · rw [seOp_of_idle hidle]
  · simp only [not_or, Bool.not_eq_false, Bool.not_eq_true] at hidle
    obtain ⟨hruns, hended⟩ := hidle
    rcases Nat.lt_or_ge (seOf s e).ctx.limit (issueAt (seOf s e) reads + cost) with hlate | hroom
    · rw [seOp_of_late hruns hended hlate, stOf_seOverrun]
    · rw [seOp_of_room ⟨hruns, hended, hroom⟩, stOf_seFinish, h]
      exact stOf_modSe ..

@[simp] theorem stOf_capLane (e : Nat) (f : SeFields) (s : State) : stOf (capLane e f s) u = stOf s u := by
  simp [capLane_eq, capTaken]

@[simp] theorem stOf_capAux (e : Nat) (f : SeFields) (s : State) : stOf (capAux e f s) u = stOf s u := by
  unfold capAux
  split <;> rfl

@[simp] theorem stOf_auxPrepCheck (a : Nat) (s : State) : stOf (auxPrepCheck a s) u = stOf s u := by
  obtain ⟨b, hb⟩ := auxPrepCheck_eq s a
  rw [hb]
  cases b
  · rfl
  · exact stOf_prepDone ..

theorem stOf_deliver (e : Nat) (o : Staged) (s : State) : stOf (deliver e o s) u = stOf s u := by
  unfold deliver
  dsimp only
  split
  · exact stOf_doFor u (fun m t => by simp [deliverChan]) _ s
  · split
    · exact stOf_doFor u (fun m t => by simp [deliverExt]) _ s
    · split
      · rfl
      · simp [deliverAux, deliverDet]

/-- No instruction changes a unit's state. -/
theorem stOf_seInstr (op e : Nat) (f : SeFields) (s : State) : stOf (seInstr op e f s) u = stOf s u := by
  unfold seInstr
  split
  all_goals exact stOf_seOp u (fun t => by simp [stOf_doFor u (stOf_deliver u e)]) s

theorem stOf_seFetch (e : Nat) (s : State) : stOf (seFetch e s) u = stOf s u := by
  simp [seFetch, stOf_seInstr]

theorem stOf_runSlot (e n : Nat) (s : State) : stOf (runSlot e n s) u = stOf s u := by
  induction n generalizing s with
  | zero => rfl
  | succ n ih =>
    unfold runSlot
    split
    · rfl
    · exact (ih _).trans (stOf_seFetch u e s)

theorem stOf_settleSwap (e half : Nat) (s : State) : stOf (settleSwap e half s) u = stOf s u := by
  unfold settleSwap
  dsimp only
  split
  · rfl
  · split <;> rfl

theorem stOf_settleSwaps (e half : Nat) (s : State) : stOf (settleSwaps e half s) u = stOf s u :=
  (stOf_settleSwap ..).trans (stOf_settleSwap ..)

theorem stOf_countBoundary (e k half : Nat) (s : State) : stOf (countBoundary e k half s).2 u = stOf s u := by
  have h := stOf_settleSwaps u e half s
  unfold countBoundary
  dsimp only
  split
  · exact h
  · split <;> exact h

theorem stOf_laneSlot (e i q : Nat) (s : State) : stOf (laneSlot e i q s) u = stOf s u := by
  have hstart : ∀ l entry s12 s15 base m xf (t : State), stOf (startSlot e q i l entry s12 s15 base m xf t) u = stOf t u :=
    fun _ _ _ _ _ _ _ _ => rfl
  have hsync : ∀ (l : List Nat) (t : State), stOf (doFor l (fun m => modTk (64 * e + 4 * q + m) (fun t =>
      { t with lastBad := true, settle := none, settled := false })) t) u = stOf t u := stOf_doFor u (fun _ _ => rfl)
  unfold laneSlot
  dsimp only
  split <;> split <;> simp [stOf_runSlot, stOf_countBoundary, hstart, hsync]

theorem stOf_auxSlotRun (e i : Nat) (s : State) : stOf (auxSlotRun e i s) u = stOf s u := by
  unfold auxSlotRun
  dsimp only
  split <;> exact stOf_runSlot ..

end

/-! ### Where a pass leaves its engine -/

/-- A swap that ends, or one that begins behind it, leaves the engine in its slot. -/
theorem ctx_settleSwap (e half : Nat) (s : State) : (seOf (settleSwap e half s) e).ctx = (seOf s e).ctx := by
  unfold settleSwap
  dsimp only
  split
  · rfl
  · split
    · rfl
    · rw [seOf_modSe]
      split <;> rfl

theorem ctx_settleSwaps (e half : Nat) (s : State) : (seOf (settleSwaps e half s) e).ctx = (seOf s e).ctx :=
  (ctx_settleSwap ..).trans (ctx_settleSwap ..)

/-- The 17 slots of pass `i`: sixteen lane slots and the auxiliary slot. -/
def passSlots (e i : Nat) (ecc : List EccHit) (s : State) : State :=
  auxSlotRun e i (doFor (List.range 16) (laneSlot e i) (modSe e (fun x => addHits ecc { x with lastIndex := i }) (settleSwaps e (3125 * i) s)))

/-- The engine stands idle behind the slots of pass `i`, its swaps judged after the pass's last instant. -/
def passEnd (e i : Nat) (ecc : List EccHit) (s : State) : State :=
  settleSwaps e (3125 * i + 1) (modSe e (fun x => { x with ctx := idleCtx (passSlots e i ecc s) e i }) (passSlots e i ecc s))

section
variable {e i : Nat} {ecc : List EccHit} {s : State}

theorem sePass_of_not_runs (h : engineRuns s e = false) : sePass e i ecc s = s := if_neg (by simp [h])

theorem sePass_of_runs (h : engineRuns s e = true) : sePass e i ecc s =
    if stOf (passEnd e i ecc s) (0x600 + e) == .preparing then modUnit (0x600 + e) (fun z => { z with prepDone := true }) (passEnd e i ecc s)
    else passEnd e i ecc s := if_pos h

theorem ctx_passEnd : (seOf (passEnd e i ecc s) e).ctx = idleCtx (passSlots e i ecc s) e i := by
  unfold passEnd
  rw [ctx_settleSwaps, seOf_modSe]

theorem stOf_passEnd (u : Nat) : stOf (passEnd e i ecc s) u = stOf s u := by
  unfold passEnd passSlots
  rw [stOf_settleSwaps, stOf_modSe, stOf_auxSlotRun, stOf_doFor u (stOf_laneSlot u e i), stOf_modSe, stOf_settleSwaps]

theorem ctx_sePass (h : engineRuns s e = true) : (seOf (sePass e i ecc s) e).ctx = idleCtx (passSlots e i ecc s) e i := by
  rw [sePass_of_runs h]
  split
  · rw [seOf_of_se (modUnit_se ..), ctx_passEnd]
  · exact ctx_passEnd

/-- An engine in PREPARING has completed its preparation with its first pass. -/
theorem prepDone_sePass (h : engineRuns s e = true) (hprep : stOf s (0x600 + e) = .preparing) :
    (unitOf (sePass e i ecc s) (0x600 + e)).prepDone = true := by
  rw [sePass_of_runs h, if_pos (by rw [stOf_passEnd, hprep]; rfl), unitOf_modUnit]

end

/-- Settles O21: a bank write by whether the banks are locked and which is in force; a pass by what its slots keep of the units. -/
theorem banksAndPasses : Obligations.BanksAndPasses := by
  unfold Obligations.BanksAndPasses
  refine ⟨fun e b w v s hup => ?_, fun e b w v s hup => ?_, fun e i h s => ?_⟩
  · have hexec : exec (.bankWrite e b w v) s = .next (bankWrite e.val b w.val v s) := congrArg Host.Outcome.next (if_pos hup)
    refine ⟨fun hfree hb => ⟨_, hexec, ?_⟩, fun hrefused => ⟨_, hexec, ?_⟩⟩
    · rw [bankWrite_stored hfree hb, seOf_modSe]
      exact ⟨bankWord_bankStored _ _ _ _, get_bankStored .., bankWord_bankStored_not _ _ _ _, fun k hk => seOf_modSe_ne _ _ _ hk, rfl⟩
    · rw [bankWrite_refused hrefused]
      refine ⟨by rw [seOf_raiseFault, seOf_modSe], raised_of_eq _ _ _ _ s _ rfl rfl rfl, fun k hk => ?_, ?_⟩
      · rw [seOf_raiseFault, seOf_modSe_ne _ _ _ hk]
      · exact congrArg (fun r : State => { r with se := s.se }) (raiseFault_frame ..)
  · exact congrArg Host.Outcome.next (if_neg (by simp [hup]))
  · refine ⟨fun hidle => congrArg Host.Outcome.next (sePass_of_not_runs hidle), fun hruns => ⟨_, rfl, ?_⟩⟩
    rw [ctx_sePass hruns]
    exact ⟨rfl, rfl, rfl, prepDone_sePass hruns⟩

end Sys2Proof.Proofs
end

section
/-! Map operations of a tracker (spec/08 R254, R255) and the count of the gear link that the tracker feeds (spec/09 R297). -/
namespace Sys2Proof.Proofs
open Sys2Proof Sys2Proof.Machine

/-! ### The readable copies of the maps change frame memory only -/

/-- From `s` to `t` at most frame memory changes. -/
def MemoryOnly (s t : State) : Prop := { t with fm := s.fm } = s

theorem memoryOnly_refl (s : State) : MemoryOnly s s := rfl

theorem memoryOnly_doFor {α : Type} {f : α → State → State} (h : ∀ a s t, MemoryOnly s t → MemoryOnly s (f a t)) (l : List α)
    {s t : State} (hst : MemoryOnly s t) : MemoryOnly s (doFor l f t) := doFor_inv (MemoryOnly s) f (fun a => h a s) l t hst

theorem memoryOnly_openTile (k : Nat) (s t : State) (h : MemoryOnly s t) : MemoryOnly s (openTile k t) := h

theorem memoryOnly_sealTile (k : Nat) (s t : State) (h : MemoryOnly s t) : MemoryOnly s (sealTile k t) := h

theorem memoryOnly_setBytes (bs : List Byte) (a : Nat) {s t : State} (h : MemoryOnly s t) : MemoryOnly s (setBytes a bs t) := by
  induction bs generalizing a t with
  | nil => exact h
  | cons b bs ih => exact ih (a + 1) (t := setByte a b t) h

theorem memoryOnly_sigmapSync (c : Nat) (s : State) : MemoryOnly s (sigmapSync c s) := by
  unfold sigmapSync
  split
  · exact memoryOnly_refl s
  · exact memoryOnly_doFor memoryOnly_sealTile _
      (memoryOnly_setBytes _ _ (memoryOnly_doFor memoryOnly_openTile _ (memoryOnly_refl s)))

/-! ### OP of TK_MAPCMD returns to 0 -/

/-- The low two bits of a word cleared. -/
theorem fld_clearLowTwo (w : Word) : fld (w &&& 0xFFFFFFFC) 0 2 = 0 := by
  have hmask : (0xFFFFFFFC : Word).toNat % 2 ^ 2 = 0 := by decide
  unfold fld
  rw [BitVec.toNat_and, pow_zero, Nat.div_one, Nat.and_mod_two_pow, hmask, Nat.and_zero]

/-- TK_MAPCMD of tracker `c`. -/
def mapCmdOff (c : Nat) : Nat := baseTRK + 0x40 * c + 0x3C

/-- What every map operation leaves behind its own effect: OP is 0 in force and in the shadow, and the copies of the maps are written. -/
def mapWritten (c : Nat) (s : State) : State :=
  sigmapSync c (setShadow (mapCmdOff c) (shadowOf s (mapCmdOff c) &&& 0xFFFFFFFC)
    (setInF (mapCmdOff c) (inF s (mapCmdOff c) &&& 0xFFFFFFFC) s))

section
variable {c n : Nat} {s t : State}

theorem mapCommand_of_adopt (h : mapAdopt c n s = t) : mapCommand c n 1 s = mapWritten c t := h ▸ rfl
theorem mapCommand_of_discard (h : mapDiscard c n s = t) : mapCommand c n 2 s = mapWritten c t := h ▸ rfl
theorem mapCommand_of_erase (h : mapErase c n s = t) : mapCommand c n 3 s = mapWritten c t := h ▸ rfl

end

section
variable (c : Nat) (s : State)

theorem mapWritten_frame : { mapWritten c s with inForce := s.inForce, shadow := s.shadow, fm := s.fm } = s :=
  congrArg (fun t : State => { t with inForce := s.inForce, shadow := s.shadow }) (memoryOnly_sigmapSync c _)

@[simp] theorem mapWritten_tk : (mapWritten c s).tk = s.tk := (congrArg State.tk (mapWritten_frame c s) :)
@[simp] theorem mapWritten_maps : (mapWritten c s).maps = s.maps := (congrArg State.maps (mapWritten_frame c s) :)
@[simp] theorem mapWritten_flt : (mapWritten c s).flt = s.flt := (congrArg State.flt (mapWritten_frame c s) :)
@[simp] theorem mapWritten_conf : (mapWritten c s).conf = s.conf := (congrArg State.conf (mapWritten_frame c s) :)
@[simp] theorem mapWritten_hrd : (mapWritten c s).hrd = s.hrd := (congrArg State.hrd (mapWritten_frame c s) :)

theorem op_mapWritten : fld (inF (mapWritten c s) (mapCmdOff c)) 0 2 = 0 := by
  have hinF : (mapWritten c s).inForce = (setInF (mapCmdOff c) (inF s (mapCmdOff c) &&& 0xFFFFFFFC) s).inForce :=
    (congrArg State.inForce (memoryOnly_sigmapSync c _) :)
  unfold inF
  rw [hinF]
  exact (congrArg (fld · 0 2) (inF_setInF ..)).trans (fld_clearLowTwo _)

/-! ### The gear links that the tracker feeds -/

theorem glTrackerEvent_frame (prepare : Bool) : { glTrackerEvent c prepare s with gl := s.gl } = s := by
  unfold glTrackerEvent
  refine doFor_inv (fun t => { t with gl := s.gl } = s) _ (fun l t h => ?_) _ _ rfl
  exact h

end

theorem ownTines_congr {s t : State} (hconf : t.conf = s.conf) (hhrd : t.hrd = s.hrd) : ownTines t = ownTines s := by
  unfold ownTines treeUnits isLocal ownPos
  rw [hconf, hhrd]

theorem linksOf_congr {s t : State} (hconf : t.conf = s.conf) (hhrd : t.hrd = s.hrd) (c : Nat) : linksOf t c = linksOf s c := by
  unfold linksOf ownLinks glTracker wireAt
  rw [ownTines_congr hconf hhrd, hconf]

/-- A map operation restarts the count of the one gear link that the tracker feeds (R297). -/
theorem count_glTrackerEvent {c l : Nat} {s : State} (h : linksOf s c = [l]) : (glOf (glTrackerEvent c false s) l).count = 0 := by
  unfold glTrackerEvent
  rw [h, doFor_cons, doFor_nil, glOf_modGl]
  rfl

/-! ### A map operation that applies -/

/-- The state after a map operation that applies, of which `t` has the effect. -/
def mapApplied (c : Nat) (t : State) : State := glTrackerEvent c false (mapWritten c t)

section
variable (c : Nat) (t : State)

theorem mapApplied_frame : { mapApplied c t with gl := (mapWritten c t).gl } = mapWritten c t := glTrackerEvent_frame ..

@[simp] theorem mapApplied_tk : (mapApplied c t).tk = t.tk :=
  (congrArg State.tk (mapApplied_frame c t) :).trans (mapWritten_tk c t)
@[simp] theorem mapApplied_maps : (mapApplied c t).maps = t.maps :=
  (congrArg State.maps (mapApplied_frame c t) :).trans (mapWritten_maps c t)
@[simp] theorem mapApplied_flt : (mapApplied c t).flt = t.flt :=
  (congrArg State.flt (mapApplied_frame c t) :).trans (mapWritten_flt c t)

theorem op_mapApplied : fld (inF (mapApplied c t) (mapCmdOff c)) 0 2 = 0 := by
  have hinF : (mapApplied c t).inForce = (mapWritten c t).inForce := (congrArg State.inForce (mapApplied_frame c t) :)
  unfold inF
  rw [hinF]
  exact op_mapWritten c t

@[simp] theorem tkOf_mapApplied (k : Nat) : tkOf (mapApplied c t) k = tkOf t k := by
  unfold tkOf
  rw [mapApplied_tk]

end

theorem mapApply_of_applied {c n op : Nat} {s t : State} (hop : 1 ≤ op) (ht : mapCommand c n op s = mapWritten c t)
    (hres : (tkOf t c).mapResult < 4) : mapApply c n op s = mapApplied c t := by
  have hres' : (tkOf (mapWritten c t) c).mapResult < 4 := by
    unfold tkOf
    rw [mapWritten_tk]
    exact hres
  unfold mapApply
  rw [ht]
  exact if_pos ⟨hop, hres'⟩

/-! ### A map operation that is refused -/

/-- The operation on tracker `c` is refused with `code`: RESULT shows it, kind 0x45 is raised with it, and maps and stores stay. -/
structure MapRefused (c code : Nat) (s t : State) : Prop where
  map : (tkOf t c).map = (tkOf s c).map
  cand : (tkOf t c).cand = (tkOf s c).cand
  result : (tkOf t c).mapResult = code
  maps : t.maps = s.maps
  raised : Raised qTRK c 0x45 code s t

section
variable {c n op code : Nat} {s : State}

theorem tkOf_mapRefuse : tkOf (mapRefuse c n code s) c = { tkOf s c with mapResult := code, mapFrame := n % 65536 } := by
  unfold mapRefuse tkOf
  rw [raiseFault_tk]
  exact tkOf_modTk ..

theorem mapRefused_mapApply (hcode : 4 ≤ code) (ht : mapCommand c n op s = mapWritten c (mapRefuse c n code s)) :
    MapRefused c code s (mapApply c n op s) := by
  have htk : tkOf (mapWritten c (mapRefuse c n code s)) c = { tkOf s c with mapResult := code, mapFrame := n % 65536 } := by
    rw [← tkOf_mapRefuse]
    unfold tkOf
    rw [mapWritten_tk]
  have happly : mapApply c n op s = mapWritten c (mapRefuse c n code s) := by
    unfold mapApply
    rw [ht]
    refine if_neg fun h => ?_
    rw [htk] at h
    exact absurd h.2 (Nat.not_lt.2 hcode)
  rw [happly]
  have hraised : Raised qTRK c 0x45 code s (mapRefuse c n code s) := raised_of_eq qTRK c 0x45 code s _ rfl rfl rfl
  have hqueue : queueOf (mapWritten c (mapRefuse c n code s)) qTRK = queueOf (mapRefuse c n code s) qTRK := by
    unfold queueOf
    rw [mapWritten_flt]
  exact {
    map := by rw [htk]
    cand := by rw [htk]
    result := by rw [htk]
    maps := (mapWritten_maps ..).trans (raiseFault_maps ..)
    raised := raised_of_queue_eq hraised hqueue }

end

/-! ### ADOPT -/

/-- The candidate `k` as the map in force from boundary `n` on: not verified, without residuals. -/
def adoptedMap (n : Nat) (k : SigMap) : SigMap := { k with verified := false, resSum := 0, resD := 0, adoptFrame := n % 2 ^ 32 }

/-- The state with `e` as the entry of the signature store for tracker `c` and the signature in force. -/
def storeMap (c : Nat) (e : Option MapEntry) (s : State) : State :=
  { s with maps := Tbl.set (constD none) s.maps (c * 2 ^ 32 + sigId s c) e }

theorem get_maps_storeMap (c : Nat) (e : Option MapEntry) (s : State) :
    Tbl.get (constD none) (storeMap c e s).maps (c * 2 ^ 32 + sigId s c) = e := Tbl.get_set_self ..

/-- The tracker after an ADOPT of `k` that moves the angle of its observer's states by `mv`. -/
def adopted (n : Nat) (k : SigMap) (mv : Obs → Obs) (x : TkSt) : TkSt :=
  { x with
    map := adoptedMap n k, cand := none, verified := false, mapResult := 1, mapFrame := n % 65536, mapAt := some n
    obs := x.obs.map mv, back := x.back.map mv, before := x.before.map mv }

section
variable {c n : Nat} {s : State}

theorem mapAdopt_without_candidate (hcand : (tkOf s c).cand = none) : mapAdopt c n s = mapRefuse c n 4 s := by
  simp [mapAdopt, hcand]

theorem mapAdopt_in_wrong_state {k : SigMap} (hcand : (tkOf s c).cand = some k) (hst : mapStateOk s c = false) :
    mapAdopt c n s = mapRefuse c n 5 s := by
  simp [mapAdopt, hcand, hst]

theorem mapAdopt_too_far {k : SigMap} (hcand : (tkOf s c).cand = some k) (hst : mapStateOk s c = true)
    (hfar : mapTooFar s c (tkOf s c).map k = true) : mapAdopt c n s = mapRefuse c n 6 s := by
  simp [mapAdopt, hcand, hst, hfar]

/-- An ADOPT in limits: the candidate is in force and stored; the observer's states move by the change of the angle (log 61). -/
theorem mapAdopt_in_limits {k : SigMap} (hcand : (tkOf s c).cand = some k) (hst : mapStateOk s c = true)
    (hnear : mapTooFar s c (tkOf s c).map k = false) :
    ∃ mv, mapAdopt c n s = modTk c (adopted n k mv) (storeMap c (some { map := adoptedMap n k, crcOk := true }) s) := by
  unfold mapAdopt
  simp only [hcand, hst, hnear, Bool.not_true, Bool.false_eq_true, if_false]
  exact ⟨_, rfl⟩

end

/-! ### DISCARD and ERASE -/

/-- The tracker after a DISCARD of its candidate. -/
def discarded (n : Nat) (x : TkSt) : TkSt := { x with cand := none, mapResult := 2, mapFrame := n % 65536, mapAt := some n }

/-- The tracker after an ERASE. -/
def erased (n : Nat) (x : TkSt) : TkSt :=
  { x with map := zeroMap, verified := false, mapResult := 3, mapFrame := n % 65536, mapAt := some n }

section
variable {c n : Nat} {s : State}

theorem mapDiscard_of_candidate (hcand : (tkOf s c).cand.isSome = true) : mapDiscard c n s = modTk c (discarded n) s :=
  if_pos hcand

theorem mapDiscard_without_candidate (hcand : (tkOf s c).cand = none) : mapDiscard c n s = mapRefuse c n 4 s := by
  simp [mapDiscard, hcand]

theorem mapErase_in_state (hst : mapStateOk s c = true) : mapErase c n s = modTk c (erased n) (storeMap c none s) :=
  if_pos hst

theorem mapErase_in_wrong_state (hst : mapStateOk s c = false) : mapErase c n s = mapRefuse c n 5 s := by
  simp [mapErase, hst]

end

/-! ### The three operations at the boundary -/

section
variable {c n : Nat} {s : State}

theorem mapApply_adopt_in_limits {k : SigMap} (hcand : (tkOf s c).cand = some k) (hst : mapStateOk s c = true)
    (hnear : mapTooFar s c (tkOf s c).map k = false) : ∃ t, mapApply c n 1 s = t ∧
      (tkOf t c).map = adoptedMap n k ∧ (tkOf t c).cand = none ∧ (tkOf t c).verified = false ∧ (tkOf t c).mapResult = 1 ∧
      Tbl.get (constD none) t.maps (c * 2 ^ 32 + sigId s c) = some { map := (tkOf t c).map, crcOk := true } ∧
      fld (inF t (mapCmdOff c)) 0 2 = 0 ∧ (∀ j, j ≠ c → tkOf t j = tkOf s j) ∧ t.flt = s.flt := by
  obtain ⟨mv, heq⟩ := mapAdopt_in_limits (n := n) hcand hst hnear
  have htk := tkOf_modTk c (adopted n k mv) (storeMap c (some { map := adoptedMap n k, crcOk := true }) s)
  have happly := mapApply_of_applied (by decide) (mapCommand_of_adopt heq) (by rw [htk]; exact (by decide : 1 < 4))
  refine ⟨_, happly, ?_, ?_, ?_, ?_, ?_, op_mapApplied .., fun j hj => ?_, mapApplied_flt ..⟩
  all_goals rw [tkOf_mapApplied]
  case refine_5 =>
    rw [htk, mapApplied_maps, modTk_maps]
    exact get_maps_storeMap c _ s
  case refine_6 => exact tkOf_modTk_ne c _ _ hj
  all_goals rw [htk]; rfl

theorem mapApply_discard_of_candidate (hcand : (tkOf s c).cand.isSome = true) : ∃ t, mapApply c n 2 s = t ∧
    (tkOf t c).cand = none ∧ (tkOf t c).map = (tkOf s c).map ∧ (tkOf t c).mapResult = 2 ∧ t.maps = s.maps ∧ t.flt = s.flt ∧
    (∀ l, linksOf s c = [l] → (glOf t l).count = 0) := by
  have htk := tkOf_modTk c (discarded n) s
  have happly := mapApply_of_applied (by decide) (mapCommand_of_discard (mapDiscard_of_candidate (n := n) hcand))
    (by rw [htk]; exact (by decide : 2 < 4))
  refine ⟨_, happly, ?_, ?_, ?_, mapApplied_maps .., mapApplied_flt .., fun l hl => ?_⟩
  case refine_4 => exact count_glTrackerEvent ((linksOf_congr (mapWritten_conf ..) (mapWritten_hrd ..) c).trans hl)
  all_goals rw [tkOf_mapApplied, htk]; rfl

theorem mapApply_erase_in_state (hst : mapStateOk s c = true) : ∃ t, mapApply c n 3 s = t ∧
    (tkOf t c).map = zeroMap ∧ (tkOf t c).verified = false ∧ (tkOf t c).mapResult = 3 ∧
    Tbl.get (constD none) t.maps (c * 2 ^ 32 + sigId s c) = none ∧ t.flt = s.flt := by
  have htk := tkOf_modTk c (erased n) (storeMap c none s)
  have happly := mapApply_of_applied (by decide) (mapCommand_of_erase (mapErase_in_state (n := n) hst))
    (by rw [htk]; exact (by decide : 3 < 4))
  refine ⟨_, happly, ?_, ?_, ?_, ?_, mapApplied_flt ..⟩
  case refine_4 =>
    rw [mapApplied_maps, modTk_maps]
    exact get_maps_storeMap c _ s
  all_goals rw [tkOf_mapApplied, htk]; rfl

end

/-- Settles O23: each operation is its effect on the tracker, then what every operation leaves behind; it applies or is refused with the
code of the first check that fails. -/
theorem mapOperations : Obligations.MapOperations := by
  unfold Obligations.MapOperations
  intro c s
  refine ⟨fun k hcand hst hnear => ?_, fun hcand => ?_, fun k hcand hst hfar => ?_, fun hsome hst => ?_, ?_, fun hst => ?_, fun hst => ?_⟩
  · obtain ⟨t, ht, h⟩ := mapApply_adopt_in_limits (n := frameN s) hcand hst hnear
    exact ⟨t, congrArg Host.Outcome.next ht, h⟩
  · have h := mapRefused_mapApply (by decide) (mapCommand_of_adopt (mapAdopt_without_candidate (n := frameN s) hcand))
    exact ⟨_, rfl, h.map, h.result, h.maps, h.raised⟩
  · have h := mapRefused_mapApply (by decide) (mapCommand_of_adopt (mapAdopt_too_far (n := frameN s) hcand hst hfar))
    exact ⟨_, rfl, h.map, h.result, h.maps, h.raised⟩
  · obtain ⟨k, hcand⟩ := Option.isSome_iff_exists.1 hsome
    have h := mapRefused_mapApply (by decide) (mapCommand_of_adopt (mapAdopt_in_wrong_state (n := frameN s) hcand hst))
    exact ⟨_, rfl, h.map, h.result, h.maps, h.raised⟩
  · cases hcand : (tkOf s c.val).cand with
    | none =>
      have h := mapRefused_mapApply (by decide) (mapCommand_of_discard (mapDiscard_without_candidate (n := frameN s) hcand))
      exact ⟨_, rfl, h.cand.trans hcand, h.map, h.maps, fun hsome => absurd hsome Bool.false_ne_true, fun _ => ⟨h.result, h.raised⟩⟩
    | some k =>
      obtain ⟨t, ht, hnone, hmap, hres, hmaps, hflt, hcount⟩ :=
        mapApply_discard_of_candidate (n := frameN s) (Option.isSome_iff_exists.2 ⟨k, hcand⟩)
      exact ⟨t, congrArg Host.Outcome.next ht, hnone, hmap, hmaps, fun _ => ⟨hres, hflt, hcount⟩, fun h => absurd h (Option.some_ne_none k)⟩
  · obtain ⟨t, ht, h⟩ := mapApply_erase_in_state (n := frameN s) hst
    exact ⟨t, congrArg Host.Outcome.next ht, h⟩
  · have h := mapRefused_mapApply (by decide) (mapCommand_of_erase (mapErase_in_wrong_state (n := frameN s) hst))
    exact ⟨_, rfl, h.map, h.maps, h.result, h.raised⟩

end Sys2Proof.Proofs
end

section
/-! The records of a frame: ports and trackers at the frame instant (spec/08 R244; spec/10 R307, R308), generators' setpoints (spec/11 R344,
R345) and the standstill current reduction (R370). -/
namespace Sys2Proof.Proofs
open Sys2Proof Sys2Proof.Machine

/-! ### What the records of a frame are made from -/

/-- The ports, the units that the tree lists and the frame grid. -/
def portBasis (s : State) : Option Image × HrdSt × TimeSt × List (Nat × IpSt) := (s.conf, s.hrd, s.time, s.ip)

section
variable {s t : State} (h : portBasis t = portBasis s)
include h

theorem conf_of_portBasis : t.conf = s.conf := congrArg Prod.fst h
theorem hrd_of_portBasis : t.hrd = s.hrd := congrArg (fun b => b.2.1) h
theorem time_of_portBasis : t.time = s.time := congrArg (fun b => b.2.2.1) h

theorem ipOf_of_portBasis (p : Nat) : ipOf t p = ipOf s p := by
  have hip : t.ip = s.ip := congrArg (fun b => b.2.2.2) h
  unfold ipOf
  rw [hip]

theorem ownPorts_of_portBasis : ownPorts t = ownPorts s := by
  unfold ownPorts
  rw [ownTines_congr (conf_of_portBasis h) (hrd_of_portBasis h)]

theorem instOf_of_portBasis (n : Nat) : instOf t n = instOf s n := by
  unfold instOf epoch tf
  rw [conf_of_portBasis h, time_of_portBasis h]

end

section
variable (s : State)

@[simp] theorem portBasis_modTk (c : Nat) (f : TkSt → TkSt) : portBasis (modTk c f s) = portBasis s := rfl
@[simp] theorem portBasis_modUnit (u : Nat) (f : UnitSt → UnitSt) : portBasis (modUnit u f s) = portBasis s := rfl
@[simp] theorem portBasis_modGl (l : Nat) (f : GlSt → GlSt) : portBasis (modGl l f s) = portBasis s := rfl
@[simp] theorem portBasis_markCond (u kind sub : Nat) (b : Bool) : portBasis (markCond u kind sub b s) = portBasis s := rfl
@[simp] theorem portBasis_reachFrame (c : Nat) : portBasis (reachFrame c s) = portBasis s := rfl
@[simp] theorem portBasis_governor (g n : Nat) : portBasis (governor g n s) = portBasis s := rfl
@[simp] theorem portBasis_auxRecord (a : Nat) (half : Int) : portBasis (auxRecord a half s) = portBasis s := rfl

@[simp] theorem portBasis_raiseFault (q u kind detail : Nat) : portBasis (raiseFault q u kind detail s) = portBasis s := by
  simp [portBasis]

@[simp] theorem portBasis_setCond (q u kind sub : Nat) (b : Bool) (detail : Nat) :
    portBasis (setCond q u kind sub b detail s) = portBasis s := by
  simp [portBasis]

@[simp] theorem portBasis_ite (b : Prop) [Decidable b] (t : State) :
    portBasis (if b then s else t) = if b then portBasis s else portBasis t := apply_ite portBasis b s t

@[simp] theorem portBasis_glWatch (l : Nat) (d : Rat) (b : Option Rat) : portBasis (glWatch l d b s) = portBasis s := by
  simp [glWatch]

@[simp] theorem portBasis_glFrame (l : Nat) : portBasis (glFrame l s) = portBasis s := by
  unfold glFrame
  split <;> simp

@[simp] theorem portBasis_absFrame (l : Nat) : portBasis (absFrame l s) = portBasis s := by
  unfold absFrame
  split
  · rfl
  · split <;> simp

theorem portBasis_jointsFrame : portBasis (jointsFrame s) = portBasis s := by
  unfold jointsFrame
  rw [doFor_keeps portBasis _ (fun c t => portBasis_reachFrame t c), doFor_keeps portBasis _ (fun l t => portBasis_absFrame t l),
    doFor_keeps portBasis _ (fun l t => portBasis_glFrame t l)]

@[simp] theorem portBasis_fineRecord (c : Nat) (o : Obs) (half : Int) (r : ChRec) :
    portBasis (fineRecord c o half r s).2 = portBasis s := by
  simp [fineRecord]

@[simp] theorem portBasis_satWatch (c : Nat) (old r : ChRec) : portBasis (satWatch c old r s) = portBasis s := by
  simp [satWatch]

@[simp] theorem portBasis_showRecord (c : Nat) : portBasis (showRecord c s) = portBasis s := by
  simp [showRecord, dropSegment]

end

/-! ### A tracker's record -/

/-- The tracker with `r` as the record of the frame after `old`. -/
def recorded (r old : ChRec) (x : TkSt) : TkSt := { x with record := r, prevPos := old.pos, prevFine := old.fine }

section
variable {c : Nat} {s : State} (half : Int)

/-- A DORMANT tracker's record: no position, an unlimited bound. -/
theorem trackerRecord_of_dormant (hst : stOf s c = .dormant) : ∃ r : ChRec, r.fine = false ∧ r.pos = 0 ∧ r.posBound = 0xFFFF ∧
    trackerRecord c half s = showRecord c (modTk c (recorded r (tkOf s c).record) s) := by
  unfold trackerRecord
  rw [hst]
  exact ⟨_, rfl, rfl, rfl, rfl⟩

theorem trackerRecord_of_not_dormant (hst : stOf s c ≠ .dormant) : ∃ r u, portBasis u = portBasis s ∧
    trackerRecord c half s = showRecord c (satWatch c (tkOf s c).record r (modTk c (recorded r (tkOf s c).record) u)) := by
  unfold trackerRecord
  dsimp only
  rw [if_neg (by simpa using hst)]
  refine ⟨_, _, ?_, rfl⟩
  -- a FAULTED tracker's position is that of the old record, whichever observer state the instant finds
  split
  · split <;> rfl
  · split
    · split <;> rfl
    · split <;> exact portBasis_fineRecord ..

end

theorem portBasis_trackerRecord (c : Nat) (half : Int) (s : State) : portBasis (trackerRecord c half s) = portBasis s := by
  by_cases hst : stOf s c = .dormant
  · obtain ⟨r, -, -, -, heq⟩ := trackerRecord_of_dormant half hst
    rw [heq, portBasis_showRecord, portBasis_modTk]
  · obtain ⟨r, u, hu, heq⟩ := trackerRecord_of_not_dormant half hst
    rw [heq, portBasis_showRecord, portBasis_satWatch, portBasis_modTk, hu]

/-- Where a tracker's record puts it, and where the record before did. -/
def positions (x : TkSt) : Int × Bool × Int × Nat := (x.prevPos, x.record.fine, x.record.pos, x.record.posBound)

theorem positions_eq_iff {x y : TkSt} : positions x = positions y ↔ x.prevPos = y.prevPos ∧ x.record.fine = y.record.fine ∧
    x.record.pos = y.record.pos ∧ x.record.posBound = y.record.posBound := by
  simp only [positions, Prod.mk.injEq]

theorem positions_of_tk {s t : State} (h : t.tk = s.tk) (c : Nat) : positions (tkOf t c) = positions (tkOf s c) := by
  unfold tkOf
  rw [h]

theorem positions_modTk {f : TkSt → TkSt} (h : ∀ x, positions (f x) = positions x) (k c : Nat) (s : State) :
    positions (tkOf (modTk k f s) c) = positions (tkOf s c) := by
  by_cases hk : c = k
  · subst hk
    rw [tkOf_modTk, h]
  · rw [tkOf_modTk_ne k f s hk]

@[simp] theorem satWatch_tk (c : Nat) (old r : ChRec) (s : State) : (satWatch c old r s).tk = s.tk := by
  unfold satWatch
  split
  · rfl
  · exact setCond_tk ..

theorem positions_showRecord (k c : Nat) (s : State) : positions (tkOf (showRecord k s) c) = positions (tkOf s c) := by
  unfold showRecord dropSegment
  dsimp only
  rw [positions_modTk]
  case h => exact fun _ => rfl
  split
  · rw [positions_modTk]
    exact fun _ => rfl
  · rfl

section
variable {c : Nat} {s : State} (half : Int)

theorem prevPos_trackerRecord : (tkOf (trackerRecord c half s) c).prevPos = (tkOf s c).record.pos := by
  by_cases hst : stOf s c = .dormant
  · obtain ⟨r, -, -, -, heq⟩ := trackerRecord_of_dormant half hst
    obtain ⟨hprev, -⟩ := positions_eq_iff.1 (positions_showRecord c c (modTk c (recorded r (tkOf s c).record) s))
    rw [heq, hprev, tkOf_modTk]
    rfl
  · obtain ⟨r, u, -, heq⟩ := trackerRecord_of_not_dormant half hst
    have hshown := (positions_showRecord c c _).trans
      (positions_of_tk (satWatch_tk c (tkOf s c).record r (modTk c (recorded r (tkOf s c).record) u)) c)
    obtain ⟨hprev, -⟩ := positions_eq_iff.1 hshown
    rw [heq, hprev, tkOf_modTk]
    rfl

theorem positions_trackerRecord_of_dormant (hst : stOf s c = .dormant) :
    positions (tkOf (trackerRecord c half s) c) = ((tkOf s c).record.pos, false, 0, 0xFFFF) := by
  obtain ⟨r, hfine, hpos, hbound, heq⟩ := trackerRecord_of_dormant half hst
  rw [heq, positions_showRecord, tkOf_modTk, ← hfine, ← hpos, ← hbound]
  rfl

end

/-! ### What the joints add to a tracker's record -/

section
variable (c : Nat) (s : State)

theorem glWatch_tk (l : Nat) (d : Rat) (b : Option Rat) : (glWatch l d b s).tk = s.tk := by
  unfold glWatch
  dsimp only
  rw [modGl_tk, setCond_tk]
  split_ifs
  · rfl
  · exact setCond_tk ..

theorem positions_glFrame (l : Nat) : positions (tkOf (glFrame l s) c) = positions (tkOf s c) := by
  unfold glFrame
  split
  · dsimp only
    split_ifs
    · rw [positions_of_tk (glWatch_tk ..), positions_modTk, positions_modTk]
      · rfl
      all_goals exact fun _ => rfl
    · rw [positions_modTk, positions_modTk]
      · rfl
      all_goals exact fun _ => rfl
  · rfl

theorem absFrame_tk (l : Nat) : (absFrame l s).tk = s.tk := by
  unfold absFrame
  split
  · rfl
  · split
    · simp only [apply_ite State.tk, modUnit_tk, raiseFault_tk, modGl_tk, ite_self]
    · rfl

theorem positions_reachFrame (k : Nat) : positions (tkOf (reachFrame k s) c) = positions (tkOf s c) := by
  unfold reachFrame
  dsimp only
  rw [positions_of_tk (modRh_tk ..), positions_modTk]
  exact fun _ => rfl

theorem positions_jointsFrame : positions (tkOf (jointsFrame s) c) = positions (tkOf s c) := by
  unfold jointsFrame
  rw [doFor_keeps (fun t => positions (tkOf t c)) _ (fun k t => positions_reachFrame c t k),
    doFor_keeps (fun t => positions (tkOf t c)) _ (fun l t => positions_of_tk (absFrame_tk t l) c),
    doFor_keeps (fun t => positions (tkOf t c)) _ (fun l t => positions_glFrame c t l)]

end

/-! ### A port's record -/

theorem ipOf_ledConsume (k n p : Nat) (s : State) : ipOf (ledConsume k n s) p = ipOf s p := rfl

/-- The count at the instant is latched with the frame's number; the views after it stay for the next record. -/
theorem exists_ipOf_portRecord (p n : Nat) (tn : Int) (s : State) : ∃ r held v tr b bt, ipOf (portRecord p n tn s) p =
    { ipOf s p with
      latU := countAt (ipOf s p) tn, latFrame := n % 65536, views := (ipOf s p).views.filter (fun e => decide (tn < (e.1 : Int)))
      view0 := v, qeShown := v.qe, record := r, held := held, trans := tr, base := b, baseT := bt } := by
  unfold portRecord
  dsimp only
  rw [ipOf_ledConsume, ipOf_modIp]
  exact ⟨_, _, _, _, _, _, rfl⟩

/-- The record of port `p` at frame instant `n`, with the position of the one before. -/
def framePort (n p : Nat) (s : State) : State :=
  modIp p (fun x => { x with prevPos := (ipOf s p).record.pos }) (portRecord p n (instOf s n) s)

theorem framePort_tk (n p : Nat) (s : State) : (framePort n p s).tk = s.tk := rfl

theorem ipOf_framePort (n p : Nat) (s : State) :
    ipOf (framePort n p s) p = { ipOf (portRecord p n (instOf s n) s) p with prevPos := (ipOf s p).record.pos } := ipOf_modIp ..

/-! ### The measurements of a frame -/

/-- The records of the device's trackers at the instant of frame `n`. -/
def frameTrackers (n : Nat) (s : State) : State := doFor (ownTrackers s) (fun c => trackerRecord c (2 * instOf s n)) s

/-- The records of the device's ports of frame `n`; made at the same command (log 69). -/
def framePorts (n : Nat) (s : State) : State := doFor (ownPorts s) (framePort n) s

/-- Joints, the governor's selections and auxiliary records, from the records of trackers and ports. -/
def frameRest (n : Nat) (half : Int) (s : State) : State :=
  let s := jointsFrame s
  let s := doFor ((ownTines s).filter (fun u => kindOf u == 7)) (fun u => governor (u - 0x4C0) n) s
  doFor ((ownTines s).filter (fun u => decide (0x400 ≤ u ∧ u < 0x480) && stOf s u != .dormant)) (fun u => auxRecord (u - 0x400) half) s

section
variable {n : Nat} {s : State}

theorem exec_trackerExtrapolation_of_frame (hup : deviceUp s = true) (hn : s.time.frame = some n) :
    exec .trackerExtrapolation s = .next (frameRest n (2 * instOf s n) (framePorts n (frameTrackers n s))) := by
  have hframe : frameN s = n := by simp [frameN, hn]
  subst hframe
  exact congrArg Host.Outcome.next (if_pos (by simp [hup, hn]))

theorem portBasis_frameTrackers : portBasis (frameTrackers n s) = portBasis s :=
  doFor_keeps portBasis _ (fun c t => portBasis_trackerRecord c _ t) _ s

theorem portBasis_frameRest (half : Int) : portBasis (frameRest n half s) = portBasis s := by
  unfold frameRest
  dsimp only
  rw [doFor_keeps portBasis _ (fun u t => portBasis_auxRecord t _ half), doFor_keeps portBasis _ (fun u t => portBasis_governor t _ n),
    portBasis_jointsFrame]

theorem positions_framePorts (c : Nat) : positions (tkOf (framePorts n s) c) = positions (tkOf s c) :=
  doFor_keeps (fun t => positions (tkOf t c)) _ (fun p t => positions_of_tk (framePort_tk n p t) c) _ s

theorem positions_frameRest (half : Int) (c : Nat) : positions (tkOf (frameRest n half s) c) = positions (tkOf s c) := by
  unfold frameRest
  dsimp only
  rw [doFor_keeps (fun t => positions (tkOf t c)) (fun u => auxRecord (u - 0x400) half) (fun _ _ => rfl),
    doFor_keeps (fun t => positions (tkOf t c)) (fun u => governor (u - 0x4C0) n) (fun _ _ => rfl), positions_jointsFrame]

/-- The one port of the device after the command is as its own record leaves it. -/
theorem ipOf_frameRest_one {p : Nat} (half : Int) (hp : ownPorts s = [p]) :
    ipOf (frameRest n half (framePorts n (frameTrackers n s))) p = ipOf (framePort n p (frameTrackers n s)) p := by
  have hports : framePorts n (frameTrackers n s) = framePort n p (frameTrackers n s) := by
    unfold framePorts
    rw [ownPorts_of_portBasis portBasis_frameTrackers, hp]
    rfl
  rw [hports]
  exact ipOf_of_portBasis (portBasis_frameRest half) p

/-- So is the one tracker, in its positions. -/
theorem positions_frameRest_one {c : Nat} {half : Int} (hc : ownTrackers s = [c]) :
    positions (tkOf (frameRest n half (framePorts n (frameTrackers n s))) c) =
      positions (tkOf (trackerRecord c (2 * instOf s n) s) c) := by
  have htrackers : frameTrackers n s = trackerRecord c (2 * instOf s n) s := by
    unfold frameTrackers
    rw [hc]
    rfl
  rw [positions_frameRest, positions_framePorts, htrackers]

end

/-! ### The standstill current reduction -/

section
variable {g : Nat} {s : State}

theorem exists_pgOf_keepWrite (g : Nat) (s : State) :
    ∃ held last, pgOf (keepWrite g s) g = { pgOf s g with keepHeld := held, lastKeep := last } := by
  unfold keepWrite
  dsimp only
  split_ifs
  · rw [pgOf_modPg]
    exact ⟨_, _, rfl⟩
  · exact ⟨_, _, rfl⟩

theorem pgOf_keepWrite_ne {k : Nat} (hk : k ≠ g) : pgOf (keepWrite g s) k = pgOf s k := by
  unfold keepWrite
  dsimp only
  split_ifs
  · exact pgOf_modPg_ne g _ _ hk
  · rfl

theorem ssrApply_of_due (hstep : stepEn s g = true) (hrest : atRest (pgOf s g) = true) (hop : operates s (pgUnit g) = true)
    (hst : stOf s (pgUnit g) ≠ .dormant) (hlong : ssrDelay s g < (pgOf s g).still) :
    ssrApply g s = keepWrite g (modPg g (fun x => { x with ssr := true, scale := holdScale s g }) s) :=
  if_pos (by simp [hstep, hrest, hop, hst, hlong])

theorem ssrApply_of_not_due (h : stepEn s g = false ∨ operates s (pgUnit g) = false ∨ atRest (pgOf s g) = false ∨
    (pgOf s g).still ≤ ssrDelay s g) : ssrApply g s = s := by
  refine if_neg fun hdue => ?_
  simp only [Bool.and_eq_true, decide_eq_true_eq] at hdue
  obtain ⟨⟨⟨⟨hstep, hrest⟩, hop⟩, hlong⟩, -⟩ := hdue
  rcases h with h | h | h | h
  · exact absurd (hstep.symm.trans h) (by decide)
  · exact absurd (hop.symm.trans h) (by decide)
  · exact absurd (hrest.symm.trans h) (by decide)
  · exact absurd hlong (Nat.not_lt.2 h)

theorem operates_of_dormant {u : Nat} (hst : stOf s u = .dormant) : operates s u = false := by
  unfold operates
  rw [hst]

theorem ssrApply_of_dormant (hst : stOf s (pgUnit g) = .dormant) : ssrApply g s = s :=
  ssrApply_of_not_due (.inr (.inl (operates_of_dormant hst)))

end

/-! ### The current scale of a frame leaves the setpoint alone -/

/-- The setpoint applied and the one that the record shows. -/
def setpoint (x : PgSt) : Rat × Rat × Rat × Int × Int × Int := (x.pos, x.vel, x.acc, x.spPos, x.spVel, x.spAcc)

/-- What the frame makes of the standstill, before the reduction of R370 is judged. -/
def scaled (s : State) (g : Nat) (x : PgSt) : PgSt :=
  let st := stOf s (pgUnit g)
  let rest := atRest (pgOf s g)
  { x with
    still := if rest then x.still + 1 else 0
    ssr := x.ssr && rest
    addr := msAddr s g (pgOf s g)
    scale := if !stepEn s g || st == .dormant then 0 else if st == .preparing then holdScale s g
      else if st == .faulted then (if rest then holdScale s g else runScale s g)
      else if x.ssr && rest then holdScale s g else runScale s g }

/-- The KEEP entry is invalid once the motor moves (R371). -/
def keepLeft (moving : Bool) (g : Nat) (s : State) : State :=
  match keepOf s g with
  | some e => if moving && e.valid then modPg g (fun x => { x with keepHeld := false }) (setKeep g { e with valid := false } s) else s
  | none => s

theorem pgScale_eq (g : Nat) (s : State) :
    pgScale g s = ssrApply g (keepLeft (!atRest (pgOf s g)) g (modPg g (scaled s g) s)) := rfl

section
variable (g : Nat) (s : State)

theorem scale_scaled_of_dormant (hst : stOf s (pgUnit g) = .dormant) (x : PgSt) : (scaled s g x).scale = 0 := if_pos (by simp [hst])

theorem exists_pgOf_keepLeft (moving : Bool) : ∃ held, pgOf (keepLeft moving g s) g = { pgOf s g with keepHeld := held } := by
  unfold keepLeft
  split
  · split
    · exact ⟨_, pgOf_modPg ..⟩
    · exact ⟨_, rfl⟩
  · exact ⟨_, rfl⟩

theorem stOf_keepLeft (moving : Bool) (u : Nat) : stOf (keepLeft moving g s) u = stOf s u := by
  unfold keepLeft
  split
  · split <;> rfl
  · rfl

theorem setpoint_ssrApply : setpoint (pgOf (ssrApply g s) g) = setpoint (pgOf s g) := by
  unfold ssrApply
  dsimp only
  split_ifs
  · obtain ⟨held, last, h⟩ := exists_pgOf_keepWrite g (modPg g (fun x => { x with ssr := true, scale := holdScale s g }) s)
    rw [h, pgOf_modPg]
    rfl
  · rfl

theorem setpoint_pgScale : setpoint (pgOf (pgScale g s) g) = setpoint (pgOf s g) := by
  obtain ⟨held, h⟩ := exists_pgOf_keepLeft g (modPg g (scaled s g) s) (!atRest (pgOf s g))
  rw [pgScale_eq, setpoint_ssrApply, h, pgOf_modPg]
  rfl

theorem scale_pgScale_of_dormant (hst : stOf s (pgUnit g) = .dormant) : (pgOf (pgScale g s) g).scale = 0 := by
  obtain ⟨held, h⟩ := exists_pgOf_keepLeft g (modPg g (scaled s g) s) (!atRest (pgOf s g))
  have hst' : stOf (keepLeft (!atRest (pgOf s g)) g (modPg g (scaled s g) s)) (pgUnit g) = .dormant := (stOf_keepLeft ..).trans hst
  rw [pgScale_eq, ssrApply_of_dormant hst', h, pgOf_modPg]
  exact scale_scaled_of_dormant g s hst _

end

/-! ### A generator's setpoint and its record -/

/-- The setpoint as the record shows it, rounded to its formats (R345). -/
def shownSetpoint (x : PgSt) : PgSt :=
  { x with spPos := nearest (x.pos * 4294967296), spVel := satS 32 (nearest (x.vel * 65536)), spAcc := satS 32 (nearest (x.acc * 256)) }

/-- The status of the record, and the acceleration noted for the frame after `n`. -/
def noted (n : Nat) (w : Word) (running : Bool) (x : PgSt) : PgSt :=
  { x with status := w, homeStep := false, accHist := ((n + 1, x.spAcc, running) :: x.accHist).take 640 }

section
variable (g n : Nat) (s : State)

/-- A record is the rounded setpoint, the scale of the frame, then the status and the history. -/
theorem exists_pgRecord_eq : ∃ w running, pgRecord g n s = modPg g (noted n w running) (pgScale g (modPg g shownSetpoint s)) :=
  ⟨_, _, rfl⟩

theorem setpoint_pgRecord : setpoint (pgOf (pgRecord g n s) g) = setpoint (shownSetpoint (pgOf s g)) := by
  obtain ⟨w, running, h⟩ := exists_pgRecord_eq g n s
  have hscale := setpoint_pgScale g (modPg g shownSetpoint s)
  rw [pgOf_modPg] at hscale
  rw [h, pgOf_modPg]
  exact hscale

/-- The history takes the shown acceleration, for the next frame. -/
theorem head?_accHist_pgRecord :
    ∃ running, (pgOf (pgRecord g n s) g).accHist.head? = some (n + 1, (pgOf (pgRecord g n s) g).spAcc, running) := by
  obtain ⟨w, running, h⟩ := exists_pgRecord_eq g n s
  rw [h, pgOf_modPg]
  exact ⟨running, rfl⟩

theorem scale_pgRecord_of_dormant (hst : stOf s (pgUnit g) = .dormant) : (pgOf (pgRecord g n s) g).scale = 0 := by
  obtain ⟨w, running, h⟩ := exists_pgRecord_eq g n s
  rw [h, pgOf_modPg]
  exact scale_pgScale_of_dormant g _ hst

/-- The record takes the setpoint as it is and shows it rounded to its formats. -/
theorem shown_pgRecord {x y : PgSt} (hx : pgOf (pgRecord g n s) g = x) (hy : pgOf s g = y) :
    (x.pos = y.pos ∧ x.vel = y.vel ∧ x.acc = y.acc) ∧ x.spPos = nearest (x.pos * 4294967296) ∧
      x.spVel = satS 32 (nearest (x.vel * 65536)) ∧ x.spAcc = satS 32 (nearest (x.acc * 256)) := by
  have h := setpoint_pgRecord g n s
  rw [hx, hy] at h
  simp only [setpoint, shownSetpoint, Prod.mk.injEq] at h
  obtain ⟨hpos, hvel, hacc, hspPos, hspVel, hspAcc⟩ := h
  exact ⟨⟨hpos, hvel, hacc⟩, hpos ▸ hspPos, hvel ▸ hspVel, hacc ▸ hspAcc⟩

/-- A frame of a generator ends with its record. -/
theorem exists_pgFrame_eq : ∃ u, pgFrame g n s = pgRecord g n u := ⟨_, rfl⟩

/-- The flags of one frame start anew. -/
def unflagged (s : State) (g : Nat) (x : PgSt) : PgSt :=
  { x with guardTrip := false, hwLimit := false, ratioSwitch := false, masterLost := x.masterLost && !masterOk s g }

/-- A generator at standstill. -/
def stopped (x : PgSt) : PgSt := { x with vel := 0, acc := 0 }

/-- A DORMANT generator stands still where it is (R344). -/
theorem pgFrame_of_dormant (hst : stOf s (pgUnit g) = .dormant) :
    pgFrame g n s = pgRecord g n (modPg g stopped (modPg g (unflagged s g) s)) := by
  have hst' (f : PgSt → PgSt) : stOf (modPg g f s) (pgUnit g) = .dormant := hst
  unfold pgFrame
  simp only [hst']
  rfl

end

theorem nearest_zero : nearest 0 = 0 := by
  have hfloor : (0 : Rat).floor = 0 := Rat.floor_intCast 0
  unfold nearest
  rw [hfloor]
  exact if_pos (by norm_num)

/-! ### The two commands of the generators -/

section
variable {n g : Nat} {s : State}

theorem exec_generatorSetpoint_of_frame (hup : deviceUp s = true) (hn : s.time.frame = some n) (hg : ownGens s = [g]) :
    exec .generatorSetpoint s = .next (pgFrame g n s) := by
  have hframe : frameN s = n := by simp [frameN, hn]
  refine (congrArg Host.Outcome.next (if_pos (by simp [hup, hn]))).trans ?_
  rw [hg, hframe]
  rfl

theorem exec_standstillCurrentReduction_of_deviceUp {g : Fin 512} (hup : deviceUp s = true) :
    exec (.standstillCurrentReduction g) s = .next (ssrApply g.val s) := congrArg Host.Outcome.next (if_pos hup)

/-- A DORMANT generator after its frame. -/
theorem pgFrame_stands (hst : stOf s (pgUnit g) = .dormant) : (pgOf (pgFrame g n s) g).pos = (pgOf s g).pos ∧
    (pgOf (pgFrame g n s) g).vel = 0 ∧ (pgOf (pgFrame g n s) g).acc = 0 ∧ (pgOf (pgFrame g n s) g).spVel = 0 ∧
    (pgOf (pgFrame g n s) g).scale = 0 := by
  have hrest : pgOf (modPg g stopped (modPg g (unflagged s g) s)) g = stopped (unflagged s g (pgOf s g)) := by
    rw [pgOf_modPg, pgOf_modPg]
  have hscale := scale_pgRecord_of_dormant g n (modPg g stopped (modPg g (unflagged s g) s)) hst
  rw [pgFrame_of_dormant g n s hst]
  obtain ⟨⟨hpos, hvel, hacc⟩, -, hspVel, -⟩ := shown_pgRecord g n _ rfl hrest
  refine ⟨hpos, hvel, hacc, ?_, hscale⟩
  rw [hspVel, hvel, show (stopped (unflagged s g (pgOf s g))).vel = 0 from rfl, zero_mul, nearest_zero, satS_zero]

end

/-- Settles O27: what the later measurements of the frame keep of a port and of a tracker's positions, and what the scale and the history of
a generator's frame keep of its setpoint. -/
theorem recordsAndSetpoints : Obligations.RecordsAndSetpoints := by
  unfold Obligations.RecordsAndSetpoints
  refine ⟨fun n s hup hn => ⟨fun p hp => ?_, fun c hc => ?_⟩, fun n g s hup hn hg => ?_, fun g s hup => ⟨?_, fun h => ?_⟩⟩
  · refine ⟨_, exec_trackerExtrapolation_of_frame hup hn, ?_⟩
    obtain ⟨r, held, v, tr, b, bt, hrec⟩ := exists_ipOf_portRecord p n (instOf (frameTrackers n s) n) (frameTrackers n s)
    rw [ipOf_frameRest_one _ hp, ipOf_framePort, hrec, ipOf_of_portBasis portBasis_frameTrackers,
      instOf_of_portBasis portBasis_frameTrackers]
    refine ⟨rfl, rfl, rfl, rfl, fun e he => ?_, rfl, rfl, rfl⟩
    exact of_decide_eq_true (List.mem_filter.1 he).2
  · refine ⟨_, exec_trackerExtrapolation_of_frame hup hn, ?_, fun hst => ?_⟩
    · obtain ⟨hprev, -⟩ := positions_eq_iff.1 (positions_frameRest_one (n := n) (half := 2 * instOf s n) hc)
      rw [hprev, prevPos_trackerRecord]
    · have h := (positions_frameRest_one (n := n) (half := 2 * instOf s n) hc).trans (positions_trackerRecord_of_dormant _ hst)
      simp only [positions, Prod.mk.injEq] at h
      exact h.2
  · refine ⟨_, exec_generatorSetpoint_of_frame hup hn hg, ?_⟩
    obtain ⟨u, hu⟩ := exists_pgFrame_eq g n s
    obtain ⟨-, hspPos, hspVel, hspAcc⟩ := shown_pgRecord g n u (congrArg (pgOf · g) hu.symm) rfl
    exact ⟨hspPos, hspVel, hspAcc, hu ▸ head?_accHist_pgRecord g n u, pgFrame_stands⟩
  · intro hstep hrest hop hst hlong
    refine ⟨_, exec_standstillCurrentReduction_of_deviceUp hup, ?_⟩
    rw [ssrApply_of_due hstep hrest hop hst hlong]
    obtain ⟨held, last, h⟩ := exists_pgOf_keepWrite g.val (modPg g.val (fun x => { x with ssr := true, scale := holdScale s g.val }) s)
    rw [h, pgOf_modPg]
    exact ⟨rfl, rfl, rfl, fun k hk => (pgOf_keepWrite_ne hk).trans (pgOf_modPg_ne _ _ _ hk)⟩
  · exact (exec_standstillCurrentReduction_of_deviceUp hup).trans (congrArg Host.Outcome.next (ssrApply_of_not_due h))

end Sys2Proof.Proofs
end

section
/-! The edges of an emulator (spec/10 R317, R318) and the pulses of a trigger (R327, R328). -/
namespace Sys2Proof.Proofs
open Sys2Proof Sys2Proof.Machine

/-! ### The edges of an emulator -/

/-- The emulator once the first of its queued edges, `n` of one direction before `rest`, has left at `t`. -/
def edgeEmitted (up : Bool) (n : Nat) (rest : List (Bool × Nat)) (t : Nat) (x : EmSt) : EmSt :=
  { x with
    queue := if n ≤ 1 then rest else (up, n - 1) :: rest
    emitted := if up then x.emitted + 1 else x.emitted - 1
    last := t
    readyBy := min x.readyBy t }

theorem emDue_iff {x : EmSt} {t : Nat} :
    emDue x t = true ↔ max x.ready (x.last + x.spacing) ≤ t ∧ t ≤ max x.readyBy (x.last + x.spacing) := by
  simp only [emDue, Bool.and_eq_true, decide_eq_true_eq]

section
variable {e t : Nat} {s : State}

theorem emEdge_of_not_operates (hop : operates s (0x4A0 + e) = false) : emEdge e t s = s := by
  simp [emEdge, hop]

theorem emEdge_of_not_due (hdue : ¬ emDue (emOf s e) t = true) : emEdge e t s = s := by
  simp [emEdge, hdue]

theorem emEdge_of_queue_nil (hq : (emOf s e).queue = []) : emEdge e t s = s := by
  unfold emEdge
  simp only [hq, ite_self]

theorem emEdge_of_due {up : Bool} {n : Nat} {rest : List (Bool × Nat)} (hop : operates s (0x4A0 + e) = true)
    (hdue : emDue (emOf s e) t = true) (hq : (emOf s e).queue = (up, n) :: rest) :
    emEdge e t s = emit (.edge e (edgeEmitted up n rest t (emOf s e)).emitted t)
      (ledConsume 5 1 (modEm e (edgeEmitted up n rest t) s)) := by
  simp only [emEdge, hop, hdue, hq, Bool.and_self, if_true]
  rfl

end

section
variable {e : Fin 16} {tm : Nat} {s : State}

theorem exec_emulatorEdge_of_deviceUp {t : State} (hup : deviceUp s = true) (ht : emEdge e.val tm (setNow tm s) = t) :
    exec (.emulatorEdge e tm) s = .next t := congrArg Host.Outcome.next ((if_pos hup).trans ht)

theorem exec_emulatorEdge_of_not_deviceUp (hup : deviceUp s = false) : exec (.emulatorEdge e tm) s = .next s :=
  congrArg Host.Outcome.next (if_neg (ne_true_of_eq_false hup))

theorem exec_emulatorEdge_of_due {up : Bool} {n : Nat} {rest : List (Bool × Nat)} (hup : deviceUp s = true)
    (hop : operates s (0x4A0 + e.val) = true) (hdue : emDue (emOf s e.val) tm = true) (hq : (emOf s e.val).queue = (up, n) :: rest) :
    exec (.emulatorEdge e tm) s = .next (emit (.edge e.val (edgeEmitted up n rest tm (emOf s e.val)).emitted tm)
      (ledConsume 5 1 (modEm e.val (edgeEmitted up n rest tm) (setNow tm s)))) :=
  exec_emulatorEdge_of_deviceUp hup (emEdge_of_due (s := setNow tm s) hop hdue hq)

/-- Where the emulator emits no edge, time passes and nothing else changes. -/
theorem exec_emulatorEdge_of_no_edge (hnone : emEdge e.val tm (setNow tm s) = setNow tm s) :
    ∃ t, exec (.emulatorEdge e tm) s = .next t ∧ { t with time := s.time } = s := by
  cases hup : deviceUp s with
  | false => exact ⟨s, exec_emulatorEdge_of_not_deviceUp hup, rfl⟩
  | true => exact ⟨setNow tm s, exec_emulatorEdge_of_deviceUp hup hnone, rfl⟩

end

/-! ### The pulses of a trigger -/

/-- The trigger without the pulses that begin at `b`. -/
def startsTaken (b : Nat) (x : TgSt) : TgSt := { x with starts := x.starts.filter (fun e => e.start != b) }

/-- The trigger with one more pulse, begun at `b`, asserted up to `endAt`. -/
def pulsing (b endAt : Nat) (x : TgSt) : TgSt :=
  { x with asserted := true, endAt := endAt, pulses := satInc 16 x.pulses, last := b }

/-- The trigger with `m` more firings suppressed. -/
def suppressing (m : Nat) (x : TgSt) : TgSt := { x with suppressed := min 255 (x.suppressed + m) }

/-- The trigger with its assertion ended. -/
def negated (x : TgSt) : TgSt := { x with asserted := false }

theorem starts_startsTaken {x : TgSt} {q : Pulse} {rest : List Pulse} (hx : x.starts = q :: rest) :
    (startsTaken q.start x).starts = rest.filter (fun e => e.start != q.start) := by
  simp [startsTaken, hx]

/-- The firings of the first pulse's instant: itself and those after it. -/
theorem length_filter_start_cons (q : Pulse) (rest : List Pulse) :
    ((q :: rest).filter (fun e => e.start == q.start)).length = 1 + (rest.filter (fun e => e.start == q.start)).length := by
  simp [Nat.add_comm]

section
variable {k : Nat} {q : Pulse} {rest : List Pulse} {s : State}

theorem pulseStart_of_starts_nil (hstarts : (tgOf s k).starts = []) : pulseStart k s = s := by
  simp [pulseStart, hstarts]

theorem pulseStart_of_not_active (hstarts : (tgOf s k).starts = q :: rest) (hst : stOf s (0x4B0 + k) ≠ .active) :
    pulseStart k s = modTg k (suppressing (1 + (rest.filter (fun e => e.start == q.start)).length))
      (modTg k (startsTaken q.start) s) := by
  unfold pulseStart
  simp only [hstarts, length_filter_start_cons]
  exact if_neg (mt eq_of_beq hst)

section
variable (hstarts : (tgOf s k).starts = q :: rest) (hst : stOf s (0x4B0 + k) = .active)
include hstarts hst

theorem pulseStart_of_negated (hneg : (tgOf s k).asserted = false) :
    pulseStart k s = emit (.trig k (!tgPol s k))
      (modTg k (pulsing q.start (q.start + tgWidth s k)) (modTg k (startsTaken q.start) s)) := by
  unfold pulseStart
  simp only [hstarts, hneg]
  exact if_pos (beq_iff_eq.2 hst)

theorem pulseStart_of_asserted (hass : (tgOf s k).asserted = true) :
    pulseStart k s = raiseFault qINC (0x4B0 + k) 0x58 (q.start % 2 ^ 32)
      (modTg k (pulsing q.start (max (tgOf s k).endAt (q.start + tgWidth s k))) (modTg k (startsTaken q.start) s)) := by
  unfold pulseStart
  simp only [hstarts, hass]
  exact if_pos (beq_iff_eq.2 hst)

end

theorem pulseEnd_of_asserted (hass : (tgOf s k).asserted = true) :
    pulseEnd k s = emit (.trig k (tgPol s k)) (modTg k negated s) := if_pos hass

theorem pulseEnd_of_negated (hneg : (tgOf s k).asserted = false) : pulseEnd k s = s := if_neg (ne_true_of_eq_false hneg)

end

theorem exec_triggerPulseStart_of_deviceUp {k : Fin 16} {s t : State} (hup : deviceUp s = true) (ht : pulseStart k.val s = t) :
    exec (.triggerPulseStart k) s = .next t := congrArg Host.Outcome.next ((if_pos hup).trans ht)

theorem tgOf_of_tg {s t : State} (h : t.tg = s.tg) (k : Nat) : tgOf t k = tgOf s k := by
  unfold tgOf
  rw [h]

/-- The trigger once a pulse up to `endAt` has begun, whatever the command made of the pin. -/
theorem tgOf_pulsing {k endAt : Nat} {q : Pulse} {rest : List Pulse} {s t : State} (hstarts : (tgOf s k).starts = q :: rest)
    (htg : t.tg = (modTg k (pulsing q.start endAt) (modTg k (startsTaken q.start) s)).tg) :
    (tgOf t k).asserted = true ∧ (tgOf t k).pulses = satInc 16 (tgOf s k).pulses ∧ (tgOf t k).last = q.start ∧
      (tgOf t k).starts = rest.filter (fun e => e.start != q.start) ∧ (tgOf t k).endAt = endAt := by
  rw [tgOf_of_tg htg, tgOf_modTg, tgOf_modTg]
  exact ⟨rfl, rfl, rfl, starts_startsTaken hstarts, rfl⟩

/-- Settles O25: the edge of an emulator is emitted where it is due; a pulse begins, extends the assertion, or is suppressed. -/
theorem emulatorsAndTriggers : Obligations.EmulatorsAndTriggers := by
  unfold Obligations.EmulatorsAndTriggers
  refine ⟨⟨fun e tm s => exec_emulatorEdge_of_not_deviceUp, fun e tm s hno => ?_, fun e tm n d up rest s hup hop hq hd => ⟨?_, ?_⟩⟩,
    fun k q rest s hup hstarts => ⟨fun hst => ?_, fun hst => ?_⟩, fun k s => ⟨fun hass => ?_, fun hneg => ?_, fun hno => ?_⟩⟩
  · refine exec_emulatorEdge_of_no_edge ?_
    rcases hno with hop | hq
    · exact emEdge_of_not_operates hop
    · exact emEdge_of_queue_nil hq
  · intro hfrom hto
    subst hd
    have hem := emOf_modEm e.val (edgeEmitted up n rest tm) (setNow tm s)
    refine ⟨_, exec_emulatorEdge_of_due hup hop (emDue_iff.2 ⟨hfrom, hto⟩) hq, ?_, ?_, ?_, ?_, ?_, fun k hk => ?_⟩
    case refine_5 => exact congrArg (fun x : EmSt => s.outbox ++ [.edge e.val x.emitted tm]) hem.symm
    case refine_6 => exact emOf_modEm_ne e.val (edgeEmitted up n rest tm) (setNow tm s) hk
    · exact congrArg EmSt.emitted hem
    · exact congrArg EmSt.last hem
    · exact congrArg EmSt.queue hem
    · exact congrArg EmSt.readyBy hem
  · intro hout
    subst hd
    have hdue : ¬ emDue (emOf s e.val) tm = true := by
      rw [emDue_iff]
      omega
    have hnone : emEdge e.val tm (setNow tm s) = setNow tm s := emEdge_of_not_due hdue
    exact ⟨_, exec_emulatorEdge_of_deviceUp hup hnone, rfl, rfl⟩
  · cases hass : (tgOf s k.val).asserted with
    | false =>
      refine ⟨_, exec_triggerPulseStart_of_deviceUp hup (pulseStart_of_negated hstarts hst hass), ?_⟩
      obtain ⟨hon, hpulses, hlast, hleft, hend⟩ := tgOf_pulsing hstarts rfl
      exact ⟨hon, hpulses, hlast, hleft, fun _ => ⟨hend, rfl, rfl⟩, fun h => absurd h Bool.false_ne_true⟩
    | true =>
      refine ⟨_, exec_triggerPulseStart_of_deviceUp hup (pulseStart_of_asserted hstarts hst hass), ?_⟩
      obtain ⟨hon, hpulses, hlast, hleft, hend⟩ := tgOf_pulsing hstarts (raiseFault_tg ..)
      exact ⟨hon, hpulses, hlast, hleft, fun h => absurd h.symm Bool.false_ne_true,
        fun _ => ⟨hend, raiseFault_outbox .., raised_of_eq _ _ _ _ _ _ rfl rfl rfl⟩⟩
  · refine ⟨_, exec_triggerPulseStart_of_deviceUp hup (pulseStart_of_not_active hstarts hst), ?_, ?_, rfl⟩
    all_goals rw [tgOf_modTg, tgOf_modTg]
    · rfl
    · exact congrArg (min 255) (Nat.add_assoc ..).symm
  · exact ⟨_, congrArg Host.Outcome.next (pulseEnd_of_asserted hass), congrArg TgSt.asserted (tgOf_modTg k.val negated s), rfl, rfl⟩
  · exact congrArg Host.Outcome.next (pulseEnd_of_negated hneg)
  · cases hup : deviceUp s with
    | false => exact congrArg Host.Outcome.next (if_neg (ne_true_of_eq_false hup))
    | true =>
      have hstarts := hno.resolve_left (ne_false_of_eq_true hup)
      exact exec_triggerPulseStart_of_deviceUp hup (pulseStart_of_starts_nil hstarts)

end Sys2Proof.Proofs
end

section
/-! Frame memory in its canonical form over every command (spec/12 R385). -/
namespace Sys2Proof.Proofs
open Sys2Proof Sys2Proof.Machine Sys2Proof.Laws

/-! ### What a command answers -/

/-- The outcome is a next state whose memory is in its canonical form. -/
def Canonical (o : Host.Outcome State Fault Refusal) : Prop := ∃ t, o = .next t ∧ MemInv t

section
variable {c : Prop} [Decidable c] {s t u : State}

theorem canonical_next (ht : MemInv t) : Canonical (.next t) := ⟨t, rfl, ht⟩

theorem memInv_cond (ht : MemInv t) (hu : MemInv u) : MemInv (if c then t else u) := by
  split
  · exact ht
  · exact hu

theorem canonical_if (hs : MemInv s) (ht : MemInv t) : Canonical (.next (if c then t else s)) := canonical_next (memInv_cond ht hs)

theorem canonical_kept (hs : MemInv s) (hkept : MemInv t = MemInv s) : Canonical (.next t) := canonical_next (hkept.mpr hs)

theorem canonical_if_kept (hs : MemInv s) (hkept : MemInv t = MemInv s) : Canonical (.next (if c then t else s)) :=
  canonical_if hs (hkept.mpr hs)

end

/-! ### The operations that only a command names -/

theorem memInv_twinReceive {b : List Byte} {tag : BitVec 128} {f : State → State} (hf : ∀ s, MemInv s → MemInv (f s)) {s : State}
    (h : MemInv s) : MemInv (twinReceive b tag f s) :=
  memInv_cond (memInv_cond (hf _ h) h) h

theorem memInv_tempConversion {k : Nat} {reading : Int} {failed : Bool} {s : State} (h : MemInv s) :
    MemInv (let s' := tempConvert k reading failed s; if failed then s' else thermalTrip k reading s') :=
  have hs' : MemInv (tempConvert k reading failed s) := (memInv_tempConvert k reading failed s).mpr h
  memInv_cond hs' (memInv_thermalTrip k reading _ hs')

theorem canonical_tonePhaseEnd (g : Fin 64) {s : State} (h : MemInv s) : Canonical (execTonePhaseEnd g s) := by
  unfold execTonePhaseEnd
  split
  · exact canonical_if h ((memInv_modTone ..).mpr h)
  · exact canonical_next h

/-! ### Every command -/

/-- A command leaves the memory alone (`canonical_kept`, `canonical_if_kept`) or writes it by operations that keep its form. -/
theorem canonical_exec (c : Instr) {s : State} (h : MemInv s) : Canonical (exec c s) := by
  cases c with
  | frameBoundary => exact canonical_if h (memInv_frameStep (h := h) ..)
  | commandCutoff => exact canonical_if_kept h (memInv_cutoff ..)
  | mapAdopt | mapDiscard | mapErase => exact canonical_next (memInv_mapApply (h := h) ..)
  | commit => exact canonical_if_kept h (memInv_commitWrite ..)
  | prepare | start | hold | resume | stop | quickstop | clear | reset => exact canonical_if_kept h (memInv_pageCommand ..)
  | stage => exact canonical_if_kept h (memInv_stageStart ..)
  | stageComplete => exact canonical_if_kept h (memInv_stageComplete ..)
  | switch | revert => exact canonical_if_kept h (memInv_slotSwitch ..)
  | discardStaged => exact canonical_if_kept h (memInv_discardStaged ..)
  | velvetEnd => exact canonical_if_kept h (memInv_velvetEnd ..)
  | prepareLimitExpiry => exact canonical_kept h (memInv_prepareExpire ..)
  | registerWrite => exact canonical_next (memInv_cond (memInv_hostWrite _ _ _ s h) ((memInv_earlyWrite _ _ _ s).mpr h))
  | mailboxRead => exact canonical_if_kept h (memInv_hostRead ..)
  | bankWrite => exact canonical_if_kept h (memInv_bankWrite ..)
  | escAck => exact canonical_kept h (memInv_ackEscalation ..)
  | divergeReport => exact canonical_if_kept h (memInv_divergeReport ..)
  | latchedClear => exact canonical_kept h (memInv_clearLatched ..)
  | firstFaultClear => exact canonical_kept h (memInv_clearFirstFault ..)
  | hbLostClear => exact canonical_kept h (memInv_clearHbLost ..)
  | rstSeenClear => exact canonical_if_kept h (memInv_seenClear ..)
  | ttReq => exact canonical_if_kept h (memInv_toneRequest _ _ (setNow _ s))
  | tonePhaseEnd => exact canonical_tonePhaseEnd _ h
  | toneCheckComplete => exact canonical_kept h (memInv_toneComplete ..)
  | toneCheckTimeout => exact canonical_kept h (memInv_toneTimeout ..)
  | captureSample => exact canonical_kept h (memInv_captureSample ..)
  | carrierCycleStart => exact canonical_if_kept h (memInv_cycleStart ..)
  | handoverDriveStart => exact canonical_if_kept h (memInv_handoverDrive ..)
  | burstStart => exact canonical_if_kept h (memInv_burstStart ..)
  | burstEnd => exact canonical_if_kept h (memInv_burstEnd ..)
  | senseCycle => exact canonical_if_kept h (memInv_senseCycle ..)
  | auxSlot => exact canonical_if_kept h (memInv_auxSlotStart ..)
  | auxConversionComplete => exact canonical_if_kept h (memInv_auxComplete ..)
  | sePass => exact canonical_kept h (memInv_sePass ..)
  | slotOverrun => exact canonical_if_kept h (memInv_seOverrun ..)
  | nop => exact canonical_kept h (memInv_opNop ..)
  | movi => exact canonical_kept h (memInv_opMovi ..)
  | sadd => exact canonical_kept h (memInv_opSadd ..)
  | lds => exact canonical_kept h (memInv_withHit (h := memInv_opLds _ _) ..)
  | sts => exact canonical_kept h (memInv_opSts ..)
  | ldv => exact canonical_kept h (memInv_withHit (h := memInv_opLdv _ _) ..)
  | stv => exact canonical_kept h (memInv_opStv ..)
  | ldc => exact canonical_kept h (memInv_withHit (h := memInv_opLdc _ _) ..)
  | cap => exact canonical_kept h (memInv_opCap ..)
  | ctx => exact canonical_kept h (memInv_opCtx ..)
  | mac => exact canonical_kept h (memInv_opMac ..)
  | macm => exact canonical_kept h (memInv_withHit (h := memInv_opMacm _ _) ..)
  | hsum => exact canonical_kept h (memInv_opHsum ..)
  | rnd => exact canonical_kept h (memInv_opRnd ..)
  | add => exact canonical_kept h (memInv_opAdd ..)
  | sub => exact canonical_kept h (memInv_opSub ..)
  | abs => exact canonical_kept h (memInv_opAbs ..)
  | mnx => exact canonical_kept h (memInv_opMnx ..)
  | shf => exact canonical_kept h (memInv_opShf ..)
  | cmp => exact canonical_kept h (memInv_opCmp ..)
  | sel => exact canonical_kept h (memInv_opSel ..)
  | bq => exact canonical_kept h (memInv_withHit (h := memInv_opBq _ _) ..)
  | sqrt => exact canonical_kept h (memInv_opSqrt ..)
  | out => exact canonical_kept h (memInv_opOut ..)
  | loop => exact canonical_kept h (memInv_opLoop ..)
  | br => exact canonical_kept h (memInv_opBr ..)
  | raise => exact canonical_kept h (memInv_opRaise ..)
  | yield => exact canonical_kept h (memInv_opYield ..)
  | trackerSample => exact canonical_next (memInv_trackerStep (h := h) ..)
  | coastLimit => exact canonical_kept h (memInv_coastLimit ..)
  | trackerExtrapolation => exact canonical_if_kept h (memInv_frameMeasure ..)
  | compareSchedule => exact canonical_if_kept h (memInv_doFor _ _ (fun _ _ => memInv_cmpSchedule ..) s)
  | compareFire => exact canonical_if_kept h (memInv_cmpFire ..)
  | triggerPulseStart => exact canonical_if_kept h (memInv_pulseStart ..)
  | triggerPulseEnd => exact canonical_kept h (memInv_pulseEnd ..)
  | generatorSetpoint => exact canonical_if_kept h (memInv_doFor _ _ (fun _ _ => memInv_pgFrame ..) s)
  | standstillCurrentReduction => exact canonical_if_kept h (memInv_ssrApply ..)
  | ledgerSnapshot => exact canonical_if_kept h (memInv_ledgerSnapshot ..)
  | recordReady => exact canonical_if h ((memInv_joinCheck _).mpr (memInv_recordReady _ s h))
  | egressWindowOpen => exact canonical_if_kept h (memInv_egressWindow ..)
  | egressForcedEnd => exact canonical_if_kept h (memInv_forcedEnd ..)
  | dmaCopyComplete => exact canonical_if_kept h (memInv_dmaComplete ..)
  | dmaHalt => exact canonical_if h ((memInv_dmaHalt ..).mpr (memInv_cond ((memInv_setBme ..).mpr h) h))
  | dmaEnable => exact canonical_if_kept h (memInv_dmaCtrl ..)
  | msixPendingDelivery => exact canonical_kept h (memInv_msixDeliver ..)
  | emulatorEdge => exact canonical_if_kept h (memInv_emEdge _ _ (setNow _ s))
  | portTransitionAccepted => exact canonical_if_kept h (memInv_portTransition ..)
  | switchDebounceChange => exact canonical_kept h (memInv_switchChange ..)
  | chatWindowEnd => exact canonical_kept h (memInv_doFor _ _ memInv_chatEnd s)
  | scrubTile => exact canonical_if_kept h (memInv_scrub ..)
  | faultAccept => exact canonical_if h (memInv_acceptCycle _ _ (setNow _ s) h)
  | countWindowClose => exact canonical_kept h (memInv_closeWindow ..)
  | beamEscalation => exact canonical_kept h (memInv_expireEscalation ..)
  | alarmExit => exact canonical_kept h (memInv_alarmExit _ (setNow _ s))
  | heartbeat => exact canonical_kept h (memInv_heartbeat _ (setNow _ s))
  | heartbeatLost => exact canonical_kept h (memInv_heartbeatLost _ (setNow _ s))
  | tempConversion => exact canonical_if h (memInv_tempConversion h)
  | railSample => exact canonical_if_kept h (memInv_railSample ..)
  | roMeasure => exact canonical_if_kept h (memInv_roMeasure ..)
  | agingMeasure => exact canonical_if_kept h (memInv_agingMeasure ..)
  | odometerTick => exact canonical_if_kept h (memInv_odometerTick ..)
  | rcTrim => exact canonical_kept h (memInv_rcTrim ..)
  | xtalFail => exact canonical_kept h (memInv_xtalFail ..)
  | xtalRecover => exact canonical_next h
  | pllLockLost => exact canonical_kept h (memInv_pllLost ..)
  | pllLock => exact canonical_if_kept h (memInv_pllLock ..)
  | refclkLost => exact canonical_kept h (memInv_refLost ..)
  | refclkHoldoverExpiry => exact canonical_kept h (memInv_holdoverExpiry ..)
  | actReqRunning | actReqDozing | actReqAsleep => exact canonical_if_kept h (memInv_actRequest ..)
  | wakeReady => exact canonical_kept h (memInv_wakeReady ..)
  | wakeTimeout => exact canonical_kept h (memInv_wakeTimeout ..)
  | pwrReqFall => exact canonical_next (memInv_pwrReqFall (h := h) ..)
  | wakeSource => exact canonical_kept h (memInv_wakeSource ..)
  | resetSourceAssert => exact canonical_next (memInv_assertAll (h := h) ..)
  | resetSourceRelease => exact canonical_kept h (memInv_sourceRelease ..)
  | tamper => exact canonical_next (memInv_tamper (h := h) ..)
  | bringupPhaseDone => exact canonical_next (memInv_cond h ((memInv_showPins ..).mpr (memInv_phaseDone _ _ (setNow _ s) h)))
  | clockDeferralTimeout => exact canonical_kept h (memInv_deferralTimeout ..)
  | tineIdle => exact canonical_kept h (memInv_tineIdle ..)
  | idleTimeout => exact canonical_kept h (memInv_idleTimeout ..)
  | rstReqLocal => exact canonical_if h (memInv_reqLocal (h := h) ..)
  | rstReqTwin => exact canonical_if_kept h (memInv_reqTwin ..)
  | rstReqHerd => exact canonical_if_kept h (memInv_reqHerd ..)
  | wdtCtrlWrite => exact canonical_if_kept h (memInv_wdtCtrl ..)
  | wdtKick => exact canonical_if_kept h (memInv_wdtKick ..)
  | watchdogExpiry => exact canonical_if h (memInv_assertSources (h := h) ..)
  | commandMessage => exact canonical_if_kept h (memInv_commandMessage ..)
  | commandResponse => exact canonical_if_kept h (memInv_sendResponse ..)
  | sessionRequestMessage => exact canonical_if_kept h (memInv_sessionRequest ..)
  | syncMessage => exact canonical_if_kept h (memInv_syncMessage ..)
  | syncTimeout => exact canonical_if_kept h (memInv_syncTimeout ..)
  | backboneLinkChange => exact canonical_if_kept h (memInv_bbLink ..)
  | ctInit => exact canonical_if_kept h (memInv_ctInit ..)
  | i3cViewOffset => exact canonical_if_kept h (memInv_i3cWrite ..)
  | i3cViewRead => exact canonical_if_kept h (memInv_emit ..)
  | i3cResetArm => exact canonical_if h (memInv_cond (memInv_i3cConfirm _ _ _ (setNow _ s) h) ((memInv_i3cArm _ _ _ (setNow _ s)).mpr h))
  | i3cResetConfirm => exact canonical_if h (memInv_i3cConfirm _ _ _ (setNow _ s) h)
  | entdaa | setdasa | setnewda | rstdaa | setmrl | setmwl | enec | disec => exact canonical_if_kept h (memInv_modI3c ..)
  | getpid | getbcr | getdcr | getmrl | getmwl => exact canonical_if_kept h (memInv_answer ..)
  | getstatus => exact canonical_if_kept h ((memInv_answer ..).trans (memInv_drawNat s))
  | rstact => exact canonical_if h (memInv_cond ((memInv_modI3c _ s).mpr h) ((memInv_emit _ s).mpr h))
  | certGet => exact canonical_if_kept h (memInv_svcCertGet ..)
  | attest => exact canonical_if_kept h (memInv_svcAttest ..)
  | ownBurn => exact canonical_if_kept h (memInv_svcOwnBurn ..)
  | slotRevoke => exact canonical_if_kept h (memInv_svcSlotRevoke ..)
  | imgkeyLoad => exact canonical_if_kept h (memInv_svcImgkeyLoad ..)
  | imgkeyErase => exact canonical_if_kept h (memInv_svcImgkeyErase ..)
  | floorRaise => exact canonical_if_kept h (memInv_svcFloorRaise ..)
  | sessionOpen => exact canonical_if_kept h (memInv_svcSessionOpen ..)
  | sessionClose => exact canonical_if_kept h (memInv_svcSessionClose ..)
  | attach => exact canonical_if_kept h (memInv_svcAttach ..)
  | detach => exact canonical_if_kept h (memInv_svcDetach ..)
  | ownSet => exact canonical_if_kept h (memInv_svcOwnSet ..)
  | herdEnum => exact canonical_if_kept h (memInv_svcHerdEnum ..)
  | serviceComplete => exact canonical_if_kept h (memInv_serviceComplete ..)
  | serviceTimeout => exact canonical_if_kept h (memInv_svcPublish ..)
  | twinLinkUp => exact canonical_if_kept h (memInv_twinLinkUp ..)
  | twinSessionOpen => exact canonical_if_kept h (memInv_twinSession ..)
  | twinLinkDown => exact canonical_if_kept h (memInv_twinLinkDown ..)
  | twinBlockArrival => exact canonical_if h (memInv_twinReceive (fun _ => (memInv_blockArrival ..).mpr) h)
  | twinBlockDeadline => exact canonical_if_kept h (memInv_blockDeadline ..)
  | twinSettingsCrc => exact canonical_if h (memInv_twinReceive (fun _ => (memInv_settingsCrc ..).mpr) h)
  | groupOrphaned => exact canonical_if_kept h (memInv_groupOrphan ..)
  | lossLimExpiry | twinVelvetEnd => exact canonical_if_kept h (memInv_modTwn ..)
  | pairingTimeout => exact canonical_if_kept h (memInv_twinFailure ..)
  | herdEnumMessage => exact canonical_if h (memInv_cond ((memInv_enumReturn _ _ s).mpr h) (memInv_enumWorker _ _ _ _ s h))
  | herdPositionWaitExpiry => exact canonical_if h (memInv_positionExpiry (h := h) ..)
  | herdCommandRelay => exact canonical_if_kept h (memInv_commandRelay ..)
  | herdTokenIssue => exact canonical_if_kept h (memInv_tokenIssue ..)
  | herdTokenReceive => exact canonical_if_kept h (memInv_tokenReceive ..)
  | herdTokenRetire => exact canonical_if_kept h (memInv_tokenRetire ..)
  | herdTokenTimeout => exact canonical_if_kept h (memInv_tokenLost ..)
  | herdTokenAbsent => exact canonical_if_kept h (memInv_tokenAbsent ..)
  | herdRingOpen => exact canonical_if_kept h (memInv_ringOpen ..)
  | svtChal | jtagIdcode => exact canonical_kept h (memInv_emit ..)
  | svtUnlock => exact canonical_kept h (memInv_unlock ..)
  | jtagBypass => exact canonical_kept h (memInv_setIr ..)
  | rstFuseProg => exact canonical_kept h (memInv_fuseProg ..)
  | refclkReturn => exact canonical_kept h (memInv_refReturn ..)
  | pcieLinkChange => exact canonical_if_kept h (memInv_linkChange ..)
  | herdLinkTrained => exact canonical_if_kept h (memInv_herdTrained ..)
  | twinControlMessage => exact canonical_if h (memInv_twinReceive (memInv_twinControl _) h)
  | grandmasterChange => exact canonical_if_kept h (memInv_gmChange ..)
  | streamGateClosed => exact canonical_if_kept h (memInv_streamGate ..)
  | latentErrorDetection => exact canonical_if_kept h (memInv_raiseFault ..)
  | jtagDebugAccess => exact canonical_next (memInv_cond h (memInv_debugAccess _ s h))
  | switchRawTransition => exact canonical_kept h (memInv_switchRaw ..)
  | alarmHalfPeriod => exact canonical_kept h (memInv_alarmToggle _ (setNow _ s))

/-- Settles O59: a step runs one command on the queue's rest, and no command breaks the form. -/
theorem memoryStaysCanonical : Obligations.MemoryStaysCanonical := by
  unfold Obligations.MemoryStaysCanonical
  intro s t hstep h
  unfold step at hstep
  split at hstep
  · cases hstep
    exact h
  · next c rest _ =>
    obtain ⟨u, hu, hcanon⟩ := canonical_exec c (s := { s with pending := rest }) h
    cases hu.symm.trans hstep
    exact hcanon

end Sys2Proof.Proofs
end

section
/-! Frame memory (spec/12 R385): the bytes that a longer write leaves; a consumer's check of a tile (R387, R420) and the scrubber (R388). -/
namespace Sys2Proof.Proofs
open Sys2Proof Sys2Proof.Machine Sys2Proof.Laws

/-! ### The bytes of a longer write -/

theorem memByte_setBytes_outside {bs : List Byte} {a x : Nat} (s : State) (h : x < a ∨ a + bs.length ≤ x) :
    memByte (setBytes a bs s) x = memByte s x := by
  induction bs generalizing a s with
  | nil => rfl
  | cons b bs ih =>
    rw [List.length_cons] at h
    exact (ih (setByte a b s) (by omega)).trans (memByte_setByte_ne a b s (by omega))

theorem memByte_setBytes_inside {bs : List Byte} {k : Nat} (a : Nat) (s : State) (h : k < bs.length) :
    memByte (setBytes a bs s) (a + k) = bs.getD k 0 := by
  induction bs generalizing a k s with
  | nil => exact absurd h (Nat.not_lt_zero k)
  | cons b bs ih =>
    cases k with
    | zero => exact (memByte_setBytes_outside (setByte a b s) (.inl (Nat.lt_succ_self a))).trans (memByte_setByte a b s)
    | succ k =>
      rw [← Nat.add_assoc, Nat.add_right_comm]
      exact ih (a + 1) (setByte a b s) (Nat.lt_of_succ_lt_succ h)

/-! ### A consumer opens a tile -/

/-- A message changes frame memory's ledger alone. -/
theorem raiseFault_fm_eq (q u kind detail : Nat) (s : State) : ∃ l, (raiseFault q u kind detail s).fm = { s.fm with ledger := l } := by
  unfold raiseFault queueMsg
  dsimp only
  split
  · exact ⟨_, rfl⟩
  · exact ⟨_, rfl⟩

section
variable {consumer k : Nat} {s : State}

theorem checkTile_of_good (hst : (tileOf s k).st ≠ 3) (hcrc : (tileOf s k).crc = crc32c (tileBytes s k)) :
    checkTile consumer k s = (true, s) := by
  simp [checkTile, hst, hcrc]

theorem checkTile_of_bad (h : (tileOf s k).st = 3 ∨ (tileOf s k).st = 2 ∧ (tileOf s k).crc ≠ crc32c (tileBytes s k)) :
    checkTile consumer k s = (false, tileFailed consumer k s) :=
  if_pos (by simpa using h)

/-- The state with tile `k` BAD and its failed check counted. -/
def withBadTile (consumer k : Nat) (s : State) : State :=
  { s with fm := { (modTile k (fun x => { x with st := 3 }) s).fm with
    tileFails := satInc 16 s.fm.tileFails, lastBad := k
    failAt := if sameCycle (consumer == 5) k s then none else some (k, s.time.now, consumer == 5) } }

theorem tileFailed_of_sameCycle (h : sameCycle (consumer == 5) k s = true) : tileFailed consumer k s = withBadTile consumer k s :=
  if_pos h

theorem tileFailed_of_not_sameCycle (h : sameCycle (consumer == 5) k s = false) :
    tileFailed consumer k s =
      raiseFault qFMEM 0x616 0x70 (consumer * 2 ^ 28 + tileType s k * 2 ^ 16 + k) (withBadTile consumer k s) :=
  if_neg (ne_true_of_eq_false h)

theorem tileFailed_fm_eq : ∃ l, (tileFailed consumer k s).fm = { (withBadTile consumer k s).fm with ledger := l } := by
  cases h : sameCycle (consumer == 5) k s with
  | true => exact ⟨_, by rw [tileFailed_of_sameCycle h]⟩
  | false =>
    rw [tileFailed_of_not_sameCycle h]
    exact raiseFault_fm_eq ..

theorem fm_tileFailed (consumer k : Nat) (s : State) :
    (tileOf (tileFailed consumer k s) k).st = 3 ∧ (tileFailed consumer k s).fm.tileFails = satInc 16 s.fm.tileFails ∧
      (tileFailed consumer k s).fm.lastBad = k := by
  obtain ⟨l, hfm⟩ := tileFailed_fm_eq (consumer := consumer) (k := k) (s := s)
  unfold tileOf
  rw [hfm]
  exact ⟨congrArg TileSt.st (tileOf_modTile k (fun x => { x with st := 3 }) s), rfl, rfl⟩

theorem flt_tileFailed_of_sameCycle (h : sameCycle (consumer == 5) k s = true) : (tileFailed consumer k s).flt = s.flt := by
  rw [tileFailed_of_sameCycle h]
  rfl

theorem raised_tileFailed (h : sameCycle (consumer == 5) k s = false) :
    Raised qFMEM 0x616 0x70 (consumer * 2 ^ 28 + tileType s k * 2 ^ 16 + k) s (tileFailed consumer k s) := by
  rw [tileFailed_of_not_sameCycle h]
  exact raised_of_eq _ _ _ _ _ _ rfl rfl rfl

end

/-! ### The scrubber -/

section
variable {s : State} {tl : Nat}

/-- The scrubber counts its period anew. -/
def scrubStarted (s : State) : State := { s with fm := { s.fm with scrubLeft := fld (inF s baseFMEM) 16 16 } }

/-- The scrubber's round goes on behind tile `tl`. -/
def scrubbedPast (tl : Nat) (s : State) : State := { s with fm := { s.fm with scrubPos := (tl + 1) % 16384 } }

theorem exec_scrubTile_of_deviceUp (hup : deviceUp s = true) : exec .scrubTile s = .next (scrub s) := congrArg Host.Outcome.next (if_pos hup)

theorem scrub_of_waiting (h : fld (inF s baseFMEM) 16 16 = 0 ∨ s.fm.scrubLeft ≠ 0) : scrub s = s := if_pos h

section
variable (hper : fld (inF s baseFMEM) 16 16 ≠ 0) (hleft : s.fm.scrubLeft = 0)
include hper hleft

theorem scrub_of_no_tile (hnext : scrubNext s = none) : scrub s = scrubStarted s := by
  unfold scrub
  rw [if_neg (by simp [hper, hleft])]
  extract_lets started
  split
  · rfl
  · next h => cases h.symm.trans hnext

theorem scrub_of_next (hnext : scrubNext s = some tl) : scrub s = scrubbedPast tl (checkTile 5 tl (scrubStarted s)).2 := by
  unfold scrub
  rw [if_neg (by simp [hper, hleft])]
  extract_lets started
  split
  · next h => cases h.symm.trans hnext
  · next h =>
    cases h.symm.trans hnext
    rfl

end

theorem checkTile_fm_kept (consumer k : Nat) (s : State) :
    (checkTile consumer k s).2.fm.scrubLeft = s.fm.scrubLeft ∧ (checkTile consumer k s).2.fm.mem = s.fm.mem := by
  unfold checkTile
  dsimp only
  split
  · obtain ⟨l, hfm⟩ := tileFailed_fm_eq (consumer := consumer) (k := k) (s := s)
    rw [hfm]
    exact ⟨rfl, rfl⟩
  · exact ⟨rfl, rfl⟩

end

/-- Settles O28: what a longer write leaves, byte by byte; a due scrub is one check of its tile (`checkTile_of_good`, `checkTile_of_bad`). -/
theorem frameMemory : Obligations.FrameMemory := by
  unfold Obligations.FrameMemory
  refine ⟨fun a bs s => ⟨fun k hk => memByte_setBytes_inside a s hk, fun x hx => memByte_setBytes_outside s hx, memInv_setBytes bs a s⟩,
    fun s hup => ⟨fun h => ?_, fun hper hleft hnext => ?_, fun tl hper hleft hnext => ?_⟩⟩
  · rw [exec_scrubTile_of_deviceUp hup, scrub_of_waiting h]
  · rw [exec_scrubTile_of_deviceUp hup, scrub_of_no_tile hper hleft hnext]
    exact ⟨_, rfl, rfl, rfl⟩
  · rw [exec_scrubTile_of_deviceUp hup, scrub_of_next hper hleft hnext]
    obtain ⟨hper', hmem⟩ := checkTile_fm_kept 5 tl (scrubStarted s)
    refine ⟨_, rfl, rfl, hper', hmem, fun hst hcrc => ?_, fun hbad => ?_⟩
    · rw [checkTile_of_good (s := scrubStarted s) hst hcrc]
      exact ⟨rfl, rfl⟩
    · rw [checkTile_of_bad (s := scrubStarted s) hbad]
      obtain ⟨hst, hfails, hlast⟩ := fm_tileFailed 5 tl (scrubStarted s)
      exact ⟨hst, hfails, hlast, raised_tileFailed (consumer := 5) (s := scrubStarted s),
        flt_tileFailed_of_sameCycle (consumer := 5) (s := scrubStarted s)⟩

end Sys2Proof.Proofs
end

section
/-! LEDGER_SNAPSHOT (spec/12 R410 to R413): kind by kind, what the snapshot takes; a message of an imbalance counts in kind 8 alone. -/
namespace Sys2Proof.Proofs
open Sys2Proof Sys2Proof.Machine

/-! ### From one state to another only the ledger and the collector change -/

/-- Of `s`, at most the ledger and the collector differ in `t`. -/
def LedgerOnly (s t : State) : Prop := ∃ l f, t = { s with flt := f, fm := { s.fm with ledger := l } }

theorem LedgerOnly.refl (s : State) : LedgerOnly s s := ⟨_, _, rfl⟩

section
variable {s t u : State}

theorem LedgerOnly.trans (hst : LedgerOnly s t) (htu : LedgerOnly t u) : LedgerOnly s u := by
  obtain ⟨_, _, rfl⟩ := hst
  obtain ⟨l, f, rfl⟩ := htu
  exact ⟨l, f, rfl⟩

/-- What is present of a kind below the messages is counted in neither. -/
theorem LedgerOnly.heldNow_eq (h : LedgerOnly s t) {k : Nat} (hk : k < 8) : heldNow t k = heldNow s k := by
  obtain ⟨_, _, rfl⟩ := h
  interval_cases k <;> rfl

theorem LedgerOnly.mem_eq (h : LedgerOnly s t) : t.fm.mem = s.fm.mem := by
  obtain ⟨_, _, rfl⟩ := h
  rfl

theorem LedgerOnly.stage_eq (h : LedgerOnly s t) : t.fm.stage = s.fm.stage := by
  obtain ⟨_, _, rfl⟩ := h
  rfl

theorem LedgerOnly.ledgerFrame_eq (h : LedgerOnly s t) : t.fm.ledgerFrame = s.fm.ledgerFrame := by
  obtain ⟨_, _, rfl⟩ := h
  rfl

theorem ledgerOnly_modLed (k : Nat) (f : LedSt → LedSt) (s : State) : LedgerOnly s (modLed k f s) := ⟨_, _, rfl⟩

theorem ledgerOnly_raiseFault (q u kind detail : Nat) (s : State) : LedgerOnly s (raiseFault q u kind detail s) := by
  unfold raiseFault queueMsg
  dsimp only
  split
  · exact ⟨_, _, rfl⟩
  · exact ⟨_, _, rfl⟩

end

/-! ### The snapshot of one kind -/

/-- A kind's counts after its snapshot, with `h` items present (R411, R413). -/
def snapped (h : Nat) (l : LedSt) : LedSt :=
  { l with
    snapP := l.produced, snapC := l.consumed, snapD := l.dropped, held := h
    frameP := l.produced - l.snapP, frameC := l.consumed - l.snapC, frameD := l.dropped - l.snapD, heldBefore := l.held
    frameUnit := l.firstUnit.getD 0, shownDrop := l.lastDrop, shownUnit := l.lastUnit, firstUnit := none
    balanced := decide (l.produced - l.snapP + l.held = l.consumed - l.snapC + (l.dropped - l.snapD) + h) }

theorem ledgerKind_eq (k : Nat) (s : State) :
    ledgerKind k s = if (snapped (heldNow s k) (ledOf s k)).balanced then modLed k (snapped (heldNow s k)) s
      else raiseFault qFMEM 0x616 0x72 k (modLed k (snapped (heldNow s k)) s) := rfl

theorem ledgerOnly_ledgerKind (k : Nat) (s : State) : LedgerOnly s (ledgerKind k s) := by
  rw [ledgerKind_eq]
  split
  · exact ledgerOnly_modLed ..
  · exact (ledgerOnly_modLed ..).trans (ledgerOnly_raiseFault ..)

theorem ledOf_ledgerKind {j : Nat} (hj : j < 8) (k : Nat) (s : State) :
    ledOf (ledgerKind k s) j = ledOf (modLed k (snapped (heldNow s k)) s) j := by
  rw [ledgerKind_eq]
  split
  · rfl
  · exact ledOf_raiseFault_ne _ _ _ _ _ (by omega)

/-! ### The snapshot of all kinds -/

theorem doFor_range_succ (f : Nat → State → State) (m : Nat) (s : State) : doFor (List.range (m + 1)) f s = f m (doFor (List.range m) f s) := by
  simp [doFor, List.range_succ]

theorem ledgerOnly_ledgerKinds (m : Nat) (s : State) : LedgerOnly s (doFor (List.range m) ledgerKind s) :=
  doFor_inv (LedgerOnly s) ledgerKind (fun k _ h => h.trans (ledgerOnly_ledgerKind k _)) _ s (.refl s)

theorem ledOf_ledgerKinds {j : Nat} (hj : j < 8) (m : Nat) (s : State) :
    ledOf (doFor (List.range m) ledgerKind s) j = if j < m then snapped (heldNow s j) (ledOf s j) else ledOf s j := by
  induction m with
  | zero => rfl
  | succ m ih =>
    rw [doFor_range_succ, ledOf_ledgerKind hj]
    by_cases hjm : j = m
    · subst hjm
      rw [ledOf_modLed, ih, if_neg (Nat.lt_irrefl j), if_pos (Nat.lt_succ_self j), (ledgerOnly_ledgerKinds j s).heldNow_eq hj]
    · rw [ledOf_modLed_ne _ _ _ hjm, ih]
      exact if_congr (by omega) rfl rfl

/-- The state with the number of the present frame in the ledger. -/
def ledgerOpened (s : State) : State := { s with fm := { s.fm with ledgerFrame := frameN s % 2 ^ 32 } }

theorem exec_ledgerSnapshot_of_frame {n : Nat} {s : State} (hup : hubUp s = true) (hframe : s.time.frame = some n) :
    exec .ledgerSnapshot s = .next (doFor (List.range 9) ledgerKind (ledgerOpened s)) :=
  congrArg Host.Outcome.next (if_pos (by simp [hup, hframe]))

/-- Settles O29: the snapshot of the eight kinds is `snapped` of what each was (`ledOf_ledgerKinds`). -/
theorem ledgerBalances : Obligations.LedgerBalances := by
  unfold Obligations.LedgerBalances
  intro n s hup hframe
  have honly := ledgerOnly_ledgerKinds 9 (ledgerOpened s)
  refine ⟨_, exec_ledgerSnapshot_of_frame hup hframe, ?_, fun k hk => ?_, honly.mem_eq, honly.stage_eq⟩
  · rw [honly.ledgerFrame_eq]
    exact congrArg (fun f => Option.getD f s.time.firstFrame % 2 ^ 32) hframe
  · rw [ledOf_ledgerKinds hk, if_pos (by omega)]
    exact ⟨rfl, rfl, rfl, rfl, rfl, decide_eq_true_iff⟩

end Sys2Proof.Proofs
end

section
/-! Blocks in the stage region (spec/12 R404, R405) and their egress on the backbone (spec/13 R427 to R429). -/
namespace Sys2Proof.Proofs
open Sys2Proof Sys2Proof.Machine

/-! ### Repeated updates beside a result -/

/-- What every single update keeps of the state, a fold that also collects a result keeps. -/
theorem foldl_snd_keeps {α β γ : Type} (p : State → γ) {f : β × State → α → β × State} (h : ∀ r a, p (f r a).2 = p r.2)
    (l : List α) (r : β × State) : p (l.foldl f r).2 = p r.2 := by
  induction l generalizing r with
  | nil => rfl
  | cons a l ih => exact (ih (f r a)).trans (h r a)

/-! ### What stands in the stage region -/

/-- A block of the stage region but for its copies: number, slot and length. -/
def blockShape (e : StageSlot) : Nat × Nat × Nat := (e.frame, e.slot, e.len)

/-- The blocks of the stage region, and the newest of them. -/
def stageBook (f : FmSt) : List (Nat × Nat × Nat) × Nat × Nat × Nat := (f.stage.map blockShape, f.lastLen, f.lastFrame, f.lastSlot)

/-- The image in force, the activity and the blocks of the stage region. -/
def blockBook (s : State) : Option Image × ClkSt × List (Nat × Nat × Nat) × Nat × Nat × Nat := (s.conf, s.clk, stageBook s.fm)

theorem conf_of_blockBook {s t : State} (h : blockBook t = blockBook s) : t.conf = s.conf := congrArg Prod.fst h

theorem clk_of_blockBook {s t : State} (h : blockBook t = blockBook s) : t.clk = s.clk := congrArg (fun b => b.2.1) h

@[simp] theorem blockBook_ite (c : Prop) [Decidable c] (s t : State) :
    blockBook (if c then s else t) = if c then blockBook s else blockBook t :=
  apply_ite blockBook c s t

@[simp] theorem blockBook_doFor {α : Type} {f : α → State → State} (h : ∀ a s, blockBook (f a s) = blockBook s) (l : List α)
    (s : State) : blockBook (doFor l f s) = blockBook s :=
  doFor_keeps blockBook f h l s

@[simp] theorem blockBook_emit (o : Output) (s : State) : blockBook (emit o s) = blockBook s := (rfl)
@[simp] theorem blockBook_modUnit (u : Nat) (f : UnitSt → UnitSt) (s : State) : blockBook (modUnit u f s) = blockBook s := (rfl)
@[simp] theorem blockBook_modEm (e : Nat) (f : EmSt → EmSt) (s : State) : blockBook (modEm e f s) = blockBook s := (rfl)
@[simp] theorem blockBook_modDma (e : Nat) (f : DmaSt → DmaSt) (s : State) : blockBook (modDma e f s) = blockBook s := (rfl)
@[simp] theorem blockBook_modTwn (f : TwnSt → TwnSt) (s : State) : blockBook (modTwn f s) = blockBook s := (rfl)
@[simp] theorem blockBook_ledProduce (k n : Nat) (s : State) : blockBook (ledProduce k n s) = blockBook s := (rfl)
@[simp] theorem blockBook_ledConsume (k n : Nat) (s : State) : blockBook (ledConsume k n s) = blockBook s := (rfl)
@[simp] theorem blockBook_openTile (k : Nat) (s : State) : blockBook (openTile k s) = blockBook s := (rfl)
@[simp] theorem blockBook_sealTile (k : Nat) (s : State) : blockBook (sealTile k s) = blockBook s := (rfl)

@[simp] theorem blockBook_ledDrop (k n u : Nat) (s : State) : blockBook (ledDrop k n u s) = blockBook s := by simp [blockBook, stageBook]

@[simp] theorem blockBook_raiseFault (q u kind detail : Nat) (s : State) : blockBook (raiseFault q u kind detail s) = blockBook s := by
  simp [blockBook, stageBook]

@[simp] theorem blockBook_setCond (q u kind sub : Nat) (b : Bool) (detail : Nat) (s : State) :
    blockBook (setCond q u kind sub b detail s) = blockBook s := by
  simp [blockBook, stageBook]

@[simp] theorem blockBook_intSource (k : Nat) (s : State) : blockBook (intSource k s) = blockBook s := by
  simp [blockBook, stageBook]

@[simp] theorem blockBook_setBytes (a : Nat) (bs : List Byte) (s : State) : blockBook (setBytes a bs s) = blockBook s := by
  induction bs generalizing a s with
  | nil => rfl
  | cons b bs ih => exact (ih (a + 1) (setByte a b s)).trans rfl

@[simp] theorem blockBook_showPins (trig : State → Nat → PinLevel) (s0 s : State) : blockBook (showPins trig s0 s) = blockBook s := by
  unfold showPins
  split
  · rfl
  · rfl

@[simp] theorem blockBook_twinSend (b : List Byte) (out : BitVec 128 → Output) (s : State) :
    blockBook (twinSend b out s) = blockBook s := by
  simp [twinSend]

@[simp] theorem blockBook_tileFailed (consumer k : Nat) (s : State) : blockBook (tileFailed consumer k s) = blockBook s := by
  unfold tileFailed
  extract_lets both s1 s2
  split
  · rfl
  · exact blockBook_raiseFault ..

@[simp] theorem blockBook_checkTile (consumer k : Nat) (s : State) : blockBook (checkTile consumer k s).2 = blockBook s := by
  unfold checkTile
  dsimp only
  split
  · exact blockBook_tileFailed ..
  · rfl

/-- The results of a slot's checks and the state, once one more tile is opened. -/
def openedNext (consumer first : Nat) (r : List Bool × State) (k : Nat) : List Bool × State :=
  (r.1 ++ [(checkTile consumer (first + k) r.2).1], (checkTile consumer (first + k) r.2).2)

@[simp] theorem blockBook_openSlot (consumer first len : Nat) (s : State) : blockBook (openSlot consumer first len s).2 = blockBook s :=
  foldl_snd_keeps blockBook (f := openedNext consumer first) (fun _ _ => blockBook_checkTile ..) _ _

/-! ### Copies that end -/

theorem blockShape_ended (frame c : Nat) (e : StageSlot) :
    blockShape (if e.frame = frame then { e with copies := e.copies.filter (· != c) } else e) = blockShape e := by
  split <;> rfl

@[simp] theorem blockBook_endCopy (frame c : Nat) (s : State) : blockBook (endCopy frame c s) = blockBook s := by
  simp [blockBook, stageBook, endCopy, Function.comp_def, blockShape_ended]

@[simp] theorem blockBook_copyDone (frame c : Nat) (s : State) : blockBook (copyDone frame c s) = blockBook s :=
  (blockBook_ledConsume ..).trans (blockBook_endCopy ..)

/-- The count of a dropped copy, by its reason and its consumer (R405, R406). -/
def dropCounted (c reason : Nat) (f : FmSt) : FmSt :=
  if reason = 5 then { f with dropsForced := satInc 8 f.dropsForced }
  else if c = 0 then { f with dropsBb := satInc 8 f.dropsBb }
  else if c = 9 then { f with dropsTwin := satInc 8 f.dropsTwin }
  else { f with dropsDma := satInc 8 f.dropsDma }

/-- The state with a copy ended and its drop counted, before its message. -/
def copyLost (frame c reason : Nat) (s : State) : State :=
  { s with fm := dropCounted c reason (ledDrop 6 1 0x616 (endCopy frame c s)).fm }

theorem copyDrop_eq (frame c reason : Nat) (s : State) :
    copyDrop frame c reason s =
      raiseFault qFMEM 0x616 0x73 (reason * 2 ^ 28 + c * 2 ^ 24 + frame % 2 ^ 24)
        (if 1 ≤ c ∧ c ≤ 8 then modDma (c - 1) (fun d => { d with dropped := satInc 16 d.dropped }) (copyLost frame c reason s)
        else copyLost frame c reason s) := rfl

section
variable {γ : Type} (frame c reason : Nat) (s : State)

/-- A dropped copy changes the collector, frame memory and the DMA engines alone. -/
theorem copyDrop_keeps (p : State → γ) (hp : ∀ s f m h, p { s with flt := f, fm := m, hst := h } = p s) :
    p (copyDrop frame c reason s) = p s := by
  have hraise : ∀ q u kind detail t, p (raiseFault q u kind detail t) = p t := fun q u kind detail t =>
    (hp (raiseFault q u kind detail t) t.flt t.fm _).symm.trans (congrArg p (raiseFault_frame q u kind detail t))
  rw [copyDrop_eq, hraise]
  split
  · exact hp s ..
  · exact hp s ..

/-- Of frame memory a dropped copy changes its block's copies, the ledger and the counts of drops. -/
theorem copyDrop_fm_keeps (p : FmSt → γ)
    (hp : ∀ m l b d w f, p { m with ledger := l, dropsBb := b, dropsDma := d, dropsTwin := w, dropsForced := f } = p m) :
    p (copyDrop frame c reason s).fm = p (endCopy frame c s).fm := by
  have hlost : p (copyLost frame c reason s).fm = p (endCopy frame c s).fm := by
    unfold copyLost dropCounted
    split_ifs <;> exact hp (endCopy frame c s).fm ..
  have hraise : ∀ q u kind detail t, p (raiseFault q u kind detail t).fm = p t.fm := fun q u kind detail t => by
    obtain ⟨l, hfm⟩ := raiseFault_fm_eq q u kind detail t
    rw [hfm]
    exact hp t.fm l _ _ _ _
  rw [copyDrop_eq, hraise]
  split
  · exact hlost
  · exact hlost

@[simp] theorem blockBook_copyDrop : blockBook (copyDrop frame c reason s) = blockBook s := by
  refine Eq.trans ?_ (blockBook_endCopy frame c s)
  unfold blockBook
  rw [copyDrop_keeps frame c reason s State.conf (fun _ _ _ _ => rfl), copyDrop_keeps frame c reason s State.clk (fun _ _ _ _ => rfl),
    copyDrop_fm_keeps frame c reason s stageBook (fun _ _ _ _ _ _ => rfl)]
  rfl

theorem fm_stage_copyDrop : (copyDrop frame c reason s).fm.stage = (endCopy frame c s).fm.stage :=
  copyDrop_fm_keeps frame c reason s FmSt.stage (fun _ _ _ _ _ _ => rfl)

theorem fm_mem_copyDrop : (copyDrop frame c reason s).fm.mem = s.fm.mem :=
  copyDrop_fm_keeps frame c reason s FmSt.mem (fun _ _ _ _ _ _ => rfl)

end

/-! ### Record ready -/

@[simp] theorem blockBook_emAdmit (e : Nat) (target : Int) (s : State) : blockBook (emAdmit e target s) = blockBook s := by
  simp [emAdmit]

@[simp] theorem blockBook_emFrame (e ready readyBy : Nat) (s : State) : blockBook (emFrame e ready readyBy s) = blockBook s := by
  unfold emFrame
  extract_lets u st
  split
  · rfl
  · extract_lets r target bad s1 s2
    have h1 : blockBook s1 = blockBook s := blockBook_setCond ..
    rw [blockBook_modEm]
    dsimp only [s2]
    clear_value s1
    split_ifs <;> simp [h1]

@[simp] theorem blockBook_divergence (s : State) : blockBook (divergence s) = blockBook s := by
  unfold divergence
  split
  · rfl
  · exact blockBook_doFor (fun u s => by dsimp only; split <;> simp) _ s

theorem blockBook_withEvents (d v : List Ev) (s : State) :
    blockBook { s with fm := { s.fm with deferred := d, events := v } } = blockBook s := rfl

@[simp] theorem blockBook_blockEvents (n room : Nat) (s : State) : blockBook (blockEvents n room s).2 = blockBook s := by
  unfold blockEvents
  extract_lets tn old due sorted led fresh nOld nNew rest lost s1 f s2 s3
  have h1 : blockBook s1 = blockBook s := by rw [blockBook_ledConsume, blockBook_ledProduce]
  have h2 : blockBook s2 = blockBook s := (blockBook_withEvents _ _ s1).trans h1
  clear_value s2
  dsimp only [s3]
  split
  · exact h2
  · rw [blockBook_raiseFault, blockBook_ledDrop, h2]

@[simp] theorem blockBook_dmaBegin (n first len e : Nat) (s : State) : blockBook (dmaBegin n first len e s) = blockBook s := by
  unfold dmaBegin
  dsimp only
  split_ifs <;> simp

@[simp] theorem blockBook_twinCopy (n first len : Nat) (s : State) : blockBook (twinCopy n first len s) = blockBook s := by
  unfold twinCopy
  dsimp only
  split_ifs <;> simp

theorem blockBook_withBlackBox (h c a : Nat) (s : State) :
    blockBook { s with fm := { s.fm with bbHead := h, bbCount := c, bbAged := a } } = blockBook s := rfl

@[simp] theorem blockBook_blackBox (i : Image) (n first len events : Nat) (s : State) :
    blockBook (blackBox i n first len events s) = blockBook s := by
  unfold blackBox
  extract_lets dec E s1 k s2 bad raw bytes bytes' h
  split
  · rfl
  · extract_lets t ts s3 s4
    split
    · rfl
    · have h2 : blockBook s2 = blockBook s := (blockBook_openSlot ..).trans (blockBook_ledProduce ..)
      have h4 : blockBook s4 = blockBook s := by simp [s4, s3, h2]
      rw [blockBook_ledConsume]
      exact (blockBook_withBlackBox _ _ _ s4).trans h4

@[simp] theorem blockBook_joinCheck (s : State) : blockBook (joinCheck s) = blockBook s := by
  unfold joinCheck
  split_ifs <;> simp [sendTwin]

theorem conf_releaseSlot (frame : Nat) (s : State) : (releaseSlot frame s).conf = s.conf := by
  unfold releaseSlot
  split
  · rfl
  · exact doFor_keeps State.conf _ (fun c t => conf_of_blockBook (blockBook_copyDrop frame c 5 t)) _ s

/-- Block `n` stands in the stage region, in the slot of its number, as the newest one (R404). -/
def Staged (i : Image) (n : Nat) (s : State) : Prop :=
  s.conf = some i ∧ s.fm.lastFrame = n ∧ s.fm.lastSlot = n % max 1 i.sets.stageSlots ∧
    (n, n % max 1 i.sets.stageSlots, s.fm.lastLen) ∈ s.fm.stage.map blockShape

section
variable {i : Image} {n : Nat} {s t : State}

theorem Staged.of_blockBook (h : Staged i n s) (hbook : blockBook t = blockBook s) : Staged i n t := by
  simp only [blockBook, stageBook, Prod.mk.injEq] at hbook
  obtain ⟨hconf, -, hstage, hlen, hframe, hslot⟩ := hbook
  unfold Staged
  rw [hconf, hstage, hlen, hframe, hslot]
  exact h

theorem Staged.exists_block (h : Staged i n s) :
    ∃ e, e ∈ s.fm.stage ∧ e.frame = n ∧ e.slot = n % max 1 i.sets.stageSlots ∧ e.len = s.fm.lastLen := by
  obtain ⟨-, -, -, hmem⟩ := h
  obtain ⟨e, he, hshape⟩ := List.mem_map.mp hmem
  simp only [blockShape, Prod.mk.injEq] at hshape
  exact ⟨e, he, hshape⟩

theorem staged_assemble (hconf : s.conf = some i) : Staged i n (assemble i n s) := by
  unfold assemble
  extract_lets slots slot s1 e s2 bytes len first ts s3 s4 cs f s5 s6 s7 s8
  have h1 : s1.conf = some i := (doFor_keeps State.conf _ conf_releaseSlot _ s).trans hconf
  have h4 : s4.conf = some i := (conf_of_blockBook (by simp [s4, s3, s2, e])).trans h1
  have h5 : Staged i n s5 := ⟨h4, rfl, rfl, by simp [s5, blockShape, slot, slots]⟩
  refine h5.of_blockBook ((blockBook_blackBox ..).trans ?_)
  have h7 : blockBook s7 = blockBook s5 := by simp [s7, s6]
  clear_value s7
  dsimp only [s8]
  split
  · rw [blockBook_twinCopy, h7]
  · exact h7

theorem staged_recordReady (hconf : s.conf = some i) (hlevel : s.clk.level = 2) : Staged i n (recordReady n s) := by
  unfold recordReady
  extract_lets tn s1 s2 s3
  have h2 : blockBook s2 = blockBook s := by simp [s2, s1]
  have hconf2 : s2.conf = some i := (conf_of_blockBook h2).trans hconf
  have hlevel2 : s2.clk.level = 2 := (congrArg ClkSt.level (clk_of_blockBook h2)).trans hlevel
  have h3 : s3 = assemble i n s2 := by simp [s3, hconf2, hlevel2]
  have hstaged : Staged i n s3 := h3 ▸ staged_assemble hconf2
  split
  · exact hstaged.of_blockBook (blockBook_intSource ..)
  · exact hstaged

theorem exec_recordReady_of_frame (hup : deviceUp s = true) (hframe : s.time.frame = some n) :
    exec .recordReady s = .next (joinCheck (recordReady n s)) := by
  have hn : frameN s = n := by simp [frameN, hframe]
  exact congrArg Host.Outcome.next ((if_pos (by simp [hup, hframe])).trans (by rw [hn]))

end

/-! ### Blocks that leave the stage region (R405) -/

/-- The numbers of the blocks in the stage region. -/
def stagedFrames (s : State) : List Nat := s.fm.stage.map (·.frame)

theorem stagedFrames_of_blockBook {s t : State} (h : blockBook t = blockBook s) : stagedFrames t = stagedFrames s := by
  have hfirst : ∀ u, stagedFrames u = (stageBook u.fm).1.map Prod.fst := fun u => by
    simp [stagedFrames, stageBook, Function.comp_def, blockShape]
  rw [hfirst, hfirst]
  exact congrArg (fun b => b.2.2.1.map Prod.fst) h

theorem fm_mem_releaseSlot (frame : Nat) (s : State) : (releaseSlot frame s).fm.mem = s.fm.mem := by
  unfold releaseSlot
  split
  · rfl
  · exact doFor_keeps (fun u => u.fm.mem) _ (fun c u => fm_mem_copyDrop frame c 5 u) _ s

theorem stagedFrames_releaseSlot (frame : Nat) (s : State) :
    stagedFrames (releaseSlot frame s) = (stagedFrames s).filter (· != frame) := by
  unfold releaseSlot
  split
  · next hnone =>
    refine (List.filter_eq_self.mpr fun x hx => ?_).symm
    obtain ⟨e, he, rfl⟩ := List.mem_map.mp hx
    simpa using List.find?_eq_none.mp hnone e he
  · extract_lets s1
    have h1 : stagedFrames s1 = stagedFrames s :=
      stagedFrames_of_blockBook (blockBook_doFor (fun c u => blockBook_copyDrop frame c 5 u) _ s)
    rw [← h1]
    exact (List.filter_map (f := StageSlot.frame) (p := (· != frame)) (l := s1.fm.stage)).symm

theorem mem_stagedFrames_releaseSlots {x : Nat} {l : List Nat} {s : State} :
    x ∈ stagedFrames (doFor l releaseSlot s) ↔ x ∈ stagedFrames s ∧ x ∉ l := by
  induction l generalizing s with
  | nil => simp
  | cons a l ih =>
    rw [doFor_cons, ih, stagedFrames_releaseSlot]
    simp [and_assoc]

section
variable {s : State}

theorem mem_stagedFrames_forcedEnd {x : Nat} : x ∈ stagedFrames (forcedEnd s) ↔ x ∈ stagedFrames s ∧ frameN s < x + 2 := by
  unfold forcedEnd
  rw [mem_stagedFrames_releaseSlots]
  refine and_congr_right fun hx => ?_
  obtain ⟨e, he, rfl⟩ := List.mem_map.mp hx
  constructor
  · intro hl
    by_contra hlt
    exact hl (List.mem_map.mpr ⟨e, List.mem_filter.mpr ⟨he, by simpa using hlt⟩, rfl⟩)
  · intro hlt hl
    obtain ⟨x, hx, hxe⟩ := List.mem_map.mp hl
    have hold := (List.mem_filter.mp hx).2
    simp only [decide_eq_true_eq] at hold
    omega

theorem exec_egressForcedEnd_of_hubUp (hup : hubUp s = true) : exec .egressForcedEnd s = .next (forcedEnd s) :=
  congrArg Host.Outcome.next (if_pos hup)

end

/-! ### Egress on the backbone (spec/13 R427 to R429) -/

theorem checkTile_of_usable {consumer k : Nat} {s : State} (h : (checkTile consumer k s).1 = true) : (checkTile consumer k s).2 = s := by
  unfold checkTile at h ⊢
  dsimp only at h ⊢
  split at h
  · cases h
  · next hgood => rw [if_neg hgood]

theorem foldl_openedNext_of_good {consumer first : Nat} {l : List Nat} {r : List Bool × State}
    (h : (l.foldl (openedNext consumer first) r).1.all id = true) :
    r.1.all id = true ∧ (l.foldl (openedNext consumer first) r).2 = r.2 := by
  induction l generalizing r with
  | nil => exact ⟨h, rfl⟩
  | cons k l ih =>
    obtain ⟨hall, hsame⟩ := ih h
    simp only [openedNext, List.all_append, Bool.and_eq_true, List.all_cons, List.all_nil, id, and_true] at hall
    obtain ⟨hbefore, husable⟩ := hall
    exact ⟨hbefore, hsame.trans (checkTile_of_usable husable)⟩

/-- A consumer that finds every tile of a slot good changes nothing. -/
theorem openSlot_of_good {consumer first len : Nat} {s : State} (h : (openSlot consumer first len s).1.all id = true) :
    (openSlot consumer first len s).2 = s :=
  (foldl_openedNext_of_good (consumer := consumer) (first := first) (r := ([], s)) h).2

/-- Port `p` sends the first `n` fragments of the block `e`, as they stand at `s0`. -/
def portSends (e : StageSlot) (count n : Nat) (s0 : State) (p : Nat) (s : State) : State :=
  modBbPort p (fun x => { x with tx := (x.tx + n) % 2 ^ 32 })
    (emit (.block e.frame p (fld (inF s0 (baseNET + 0x40)) 8 3) (fragFrames s0 e count n p)) s)

section
variable (e : StageSlot) (count n : Nat) (ps : List Nat) (s : State)

theorem fm_sendFrags : (sendFrags e count n ps s).fm = s.fm := doFor_keeps State.fm (portSends e count n s) (fun _ _ => rfl) ps s

theorem egMisses_sendFrags : (sendFrags e count n ps s).net.egMisses = s.net.egMisses :=
  doFor_keeps (fun u => u.net.egMisses) (portSends e count n s) (fun _ _ => rfl) ps s

theorem outbox_portSends (u : State) : (doFor ps (portSends e count n s) u).outbox =
    u.outbox ++ ps.map (fun p => .block e.frame p (fld (inF s (baseNET + 0x40)) 8 3) (fragFrames s e count n p)) := by
  induction ps generalizing u with
  | nil => exact (List.append_nil _).symm
  | cons p ps ih => exact (ih _).trans (List.append_assoc ..)

theorem outbox_sendFrags : (sendFrags e count n ps s).outbox =
    s.outbox ++ ps.map (fun p => .block e.frame p (fld (inF s (baseNET + 0x40)) 8 3) (fragFrames s e count n p)) :=
  outbox_portSends e count n ps s s

theorem frerSeq_sendFrags : (sendFrags e count n ps s).net.frerSeq =
    if egFrer s = true then s.net.frerSeq + BitVec.ofNat 16 n else s.net.frerSeq := by
  have hfrer : egFrer (doFor ps (portSends e count n s) s) = egFrer s :=
    doFor_keeps egFrer (portSends e count n s) (fun _ _ => rfl) ps s
  have hseq : (doFor ps (portSends e count n s) s).net.frerSeq = s.net.frerSeq :=
    doFor_keeps (fun u => u.net.frerSeq) (portSends e count n s) (fun _ _ => rfl) ps s
  rw [← hfrer, ← hseq]
  rfl

end

section
variable {sent : Nat} {e : StageSlot} {s : State}

theorem egressWindow_of_no_copy (h : ∀ e, e ∈ s.fm.stage → e.copies.contains 0 = false) : egressWindow sent s = s := by
  unfold egressWindow
  rw [List.filter_eq_nil_iff.mpr (fun e he => ne_true_of_eq_false (h e he)), doFor_nil]

/-- The window has closed before the whole block was out. -/
def egressMissed (s : State) : State := { s with net := { s.net with egMisses := satInc 16 s.net.egMisses } }

/-- The number of the block sent last shows. -/
def egressShown (e : StageSlot) (s : State) : State := { s with net := { s.net with egFrame := e.frame % 65536 } }

/-- The one block whose copy waits, with every tile good: dropped where no port is up, sent in part and dropped where the window closes
early, else sent. -/
theorem egressWindow_of_one (hstage : s.fm.stage = [e]) (hcopy : e.copies.contains 0 = true)
    (hgood : (openSlot 1 (slotTile s e.slot) e.len s).1.all id = true) :
    egressWindow sent s =
      if (portsUp s).isEmpty then copyDrop e.frame 0 1 s
      else if sent < ceilDiv e.len (fragData s) then
        copyDrop e.frame 0 1 (egressMissed (sendFrags e (ceilDiv e.len (fragData s)) sent (portsUp s) s))
      else egressShown e (copyDone e.frame 0 (sendFrags e (ceilDiv e.len (fragData s)) (ceilDiv e.len (fragData s)) (portsUp s) s)) := by
  have hone : s.fm.stage.filter (fun e => e.copies.contains 0) = [e] := by rw [hstage, List.filter_singleton, hcopy]; rfl
  unfold egressWindow
  rw [hone, doFor_cons, doFor_nil]
  dsimp only
  rw [openSlot_of_good hgood, if_neg (by simp [hgood])]
  rfl

theorem exec_egressWindowOpen_of_hubUp (hup : hubUp s = true) : exec (.egressWindowOpen sent) s = .next (egressWindow sent s) :=
  congrArg Host.Outcome.next (if_pos hup)

theorem exec_egressWindowOpen_of_hubDown (hdown : hubUp s = false) : exec (.egressWindowOpen sent) s = .next s :=
  congrArg Host.Outcome.next (if_neg (ne_true_of_eq_false hdown))

theorem fm_stage_endCopy_of_one {t : State} (c : Nat) (h : t.fm.stage = [e]) :
    (endCopy e.frame c t).fm.stage = [{ e with copies := e.copies.filter (· != c) }] := by
  simp [endCopy, h]

/-- A copy for the backbone that is not forced out counts among the backbone's drops (R405). -/
theorem dropsBb_copyDrop_backbone {reason : Nat} (frame : Nat) (h : reason ≠ 5) (s : State) :
    (copyDrop frame 0 reason s).fm.dropsBb = satInc 8 s.fm.dropsBb := by
  rw [copyDrop_eq, raiseFault_fm_dropsBb]
  simp [copyLost, dropCounted, h, endCopy]

end

/-- Settles O30: record ready by `staged_recordReady`, the blocks that leave by their numbers, egress by `egressWindow_of_one`. -/
theorem blocksAndEgress : Obligations.BlocksAndEgress := by
  unfold Obligations.BlocksAndEgress
  refine ⟨⟨fun n i s hup hframe hconf hlevel => ?_, fun s hup => ?_⟩, fun sent s hno => ?_,
    fun sent e s hup hstage hcopy hgood n hn => ⟨fun hsent hports => ?_, fun hports => ?_, fun hsent hports => ?_⟩⟩
  · have hstaged : Staged i n (joinCheck (recordReady n s)) := (staged_recordReady hconf hlevel).of_blockBook (blockBook_joinCheck _)
    have hblock := hstaged.exists_block
    obtain ⟨hconf', hlast, hslot, -⟩ := hstaged
    exact ⟨_, exec_recordReady_of_frame hup hframe, hlast, hslot, hblock, hconf'⟩
  · exact ⟨_, exec_egressForcedEnd_of_hubUp hup, fun e he => (mem_stagedFrames_forcedEnd.mp (List.mem_map_of_mem he)).2,
      fun e he hnew => List.mem_map.mp (mem_stagedFrames_forcedEnd.mpr ⟨List.mem_map_of_mem he, hnew⟩),
      doFor_keeps (fun u => u.fm.mem) _ fm_mem_releaseSlot _ s⟩
  · cases hub : hubUp s with
    | false => exact exec_egressWindowOpen_of_hubDown hub
    | true =>
      have hcopies := hno.resolve_left (ne_false_of_eq_true hub)
      rw [exec_egressWindowOpen_of_hubUp hub, egressWindow_of_no_copy hcopies]
  all_goals rw [exec_egressWindowOpen_of_hubUp hup, egressWindow_of_one hstage hcopy hgood, ← hn]
  · rw [if_neg (by simpa using hports), if_neg (Nat.not_lt.mpr hsent)]
    have hfm := fm_sendFrags e n n (portsUp s) s
    have hout := outbox_sendFrags e n n (portsUp s) s
    have hseq := frerSeq_sendFrags e n n (portsUp s) s
    generalize sendFrags e n n (portsUp s) s = u at hfm hout hseq ⊢
    exact ⟨_, rfl, rfl, hout, hseq, fm_stage_endCopy_of_one 0 ((congrArg FmSt.stage hfm).trans hstage),
      (congrArg FmSt.dropsBb hfm :)⟩
  · rw [if_pos (by simpa using hports)]
    refine ⟨copyDrop e.frame 0 1 s, rfl, ?_, ?_, ?_, ?_⟩
    · exact dropsBb_copyDrop_backbone e.frame (by decide) s
    · exact copyDrop_keeps e.frame 0 1 s State.outbox (fun _ _ _ _ => rfl)
    · exact copyDrop_keeps e.frame 0 1 s (fun u => u.net.egMisses) (fun _ _ _ _ => rfl)
    · rw [fm_stage_copyDrop, fm_stage_endCopy_of_one 0 hstage]
  · rw [if_neg (by simpa using hports), if_pos hsent]
    have hfm : (egressMissed (sendFrags e n sent (portsUp s) s)).fm = s.fm := fm_sendFrags ..
    refine ⟨_, rfl, ?_, ?_, ?_, ?_⟩
    · rw [copyDrop_keeps e.frame 0 1 _ (fun u => u.net.egMisses) (fun _ _ _ _ => rfl)]
      exact congrArg (satInc 16) (egMisses_sendFrags ..)
    · rw [copyDrop_keeps e.frame 0 1 _ State.outbox (fun _ _ _ _ => rfl)]
      exact outbox_sendFrags ..
    · rw [dropsBb_copyDrop_backbone e.frame (by decide), hfm]
    · rw [fm_stage_copyDrop, fm_stage_endCopy_of_one 0 ((congrArg FmSt.stage hfm).trans hstage)]

end Sys2Proof.Proofs
end

section
/-! The I3C management target (spec/13 R439 to R441). -/
namespace Sys2Proof.Proofs
open Sys2Proof Sys2Proof.Machine

/-! ### Bytes that leave the device -/

theorem length_leBytes (n x : Nat) : (leBytes n x).length = n := by
  induction n generalizing x with
  | zero => rfl
  | succ n ih => simp [leBytes, ih]

theorem length_beBytes (n x : Nat) : (beBytes n x).length = n := by
  rw [beBytes, List.length_reverse, length_leBytes]

theorem length_viewBytes {s : State} (len : Nat) (hmrl : 8 ≤ s.hst.i3c.mrl) : (viewBytes s len).length = min len s.hst.i3c.mrl := by
  simp only [viewBytes, List.length_take, List.length_append, length_leBytes, List.length_map, List.length_range]
  omega

/-- A read of the view of a device that runs begins with the frame number (R440). -/
theorem take_viewBytes {s : State} {len : Nat} (hmrl : 8 ≤ s.hst.i3c.mrl) (hlen : 8 ≤ len) (hup : deviceUp s = true) :
    (viewBytes s len).take 8 = leBytes 8 (frame64 s) := by
  rw [viewBytes, List.take_take, min_eq_left (le_min hlen hmrl), if_pos hup, List.take_left' (length_leBytes _ _)]

/-! ### What a command does while the hub runs -/

section
variable {s : State} (hub : hubUp s = true)
include hub

theorem exec_i3cViewOffset_of_hubUp (w : I3cWrite) : exec (.i3cViewOffset w) s = .next (i3cWrite w s) :=
  congrArg Host.Outcome.next (if_pos hub)

theorem exec_i3cViewRead_of_hubUp (len : Nat) : exec (.i3cViewRead len) s = .next (emit (.readData (viewBytes s len)) s) :=
  congrArg Host.Outcome.next (if_pos hub)

theorem exec_setmrl_of_hubUp (n : Nat) : exec (.setmrl n) s = .next (modI3c (fun x => { x with mrl := mrlOf n }) s) :=
  congrArg Host.Outcome.next (if_pos hub)

theorem exec_enec_of_hubUp (events : Byte) :
    exec (.enec events) s = .next { s with hst := { s.hst with i3c := { s.hst.i3c with ibi := s.hst.i3c.ibi || events.getLsbD 0 } } } :=
  congrArg Host.Outcome.next (if_pos hub)

theorem exec_disec_of_hubUp (events : Byte) :
    exec (.disec events) s = .next { s with hst := { s.hst with i3c := { s.hst.i3c with ibi := s.hst.i3c.ibi && !events.getLsbD 0 } } } :=
  congrArg Host.Outcome.next (if_pos hub)

theorem exec_i3cResetConfirm_of_hubUp (target chal : BitVec 16) (t : Nat) :
    exec (.i3cResetConfirm target chal t) s = .next (i3cConfirm target chal t (setNow t s)) :=
  congrArg Host.Outcome.next (if_pos hub)

theorem exec_i3cResetArm_of_armed (target chal : BitVec 16) (t : Nat) (harmed : s.hst.i3c.armed.isSome = true) :
    exec (.i3cResetArm target chal t) s = .next (i3cConfirm target chal t (setNow t s)) :=
  congrArg Host.Outcome.next ((if_pos hub).trans (if_pos harmed))

theorem exec_i3cResetArm_of_unarmed (target chal : BitVec 16) (t : Nat) (harmed : s.hst.i3c.armed = none) :
    exec (.i3cResetArm target chal t) s = .next (i3cArm target chal t (setNow t s)) :=
  congrArg Host.Outcome.next ((if_pos hub).trans (if_neg (by simp [harmed])))

end

theorem i3cWrite_of_length {b : List Byte} (h : b.length = 4) (s : State) :
    i3cWrite (.priv b) s = modI3c (fun x => { x with view := leNat b }) s :=
  if_pos h

theorem i3cWrite_of_other_length {b : List Byte} (h : b.length ≠ 4) (s : State) : i3cWrite (.priv b) s = hostFault 0x8A (2 ^ 31) s :=
  if_neg h

/-! ### The reset request (R441) -/

section
variable {target chal : BitVec 16} {t : Nat} {s : State}

theorem i3cConfirm_of_unarmed (harmed : s.hst.i3c.armed = none) : i3cConfirm target chal t s = i3cArm target chal t s := by
  rw [i3cConfirm, harmed]

theorem i3cConfirm_of_other_target {tg chal0 : BitVec 16} {at_ : Nat} (harmed : s.hst.i3c.armed = some (tg, chal0, at_))
    (hne : tg ≠ target) : i3cConfirm target chal t s = i3cArm target chal t s := by
  simp [i3cConfirm, harmed, hne]

/-- The second write ends the request: it resets the device where its checks pass, and is refused with kind 0x8C where one fails. -/
theorem i3cConfirm_of_same_target {chal0 : BitVec 16} {at_ : Nat} (harmed : s.hst.i3c.armed = some (target, chal0, at_)) :
    i3cConfirm target chal t s =
      if i3cCheck s target chal at_ t = 0 then assertSources [{ code := 0x18, target := target.toNat }] 0 (i3cEnd s)
      else hostFault 0x8C (i3cCheck s target chal at_ t) (i3cEnd s) := by
  simp [i3cConfirm, harmed]

theorem sourceLevel_ne_of_i3cCheck {at_ : Nat} (h : i3cCheck s target chal at_ t = 0) : sourceLevel s 0x18 ≠ 5 := by
  intro hlevel
  simp [i3cCheck, hlevel] at h

end

/-- The challenge moves by 1 to 65535, so that it is never the one before. -/
theorem chal_i3cEnd_ne (s : State) : (i3cEnd s).hst.i3c.chal ≠ s.hst.i3c.chal := by
  intro h
  have h0 : BitVec.ofNat 16 (1 + (drawNat s).1 % 65535) = 0 := add_eq_left.1 h
  have h1 : (1 + (drawNat s).1 % 65535) % 2 ^ 16 = 0 := (BitVec.toNat_ofNat _ _).symm.trans (congrArg BitVec.toNat h0)
  omega

/-! ### A source asserted alone -/

theorem fuseDefault_le (k : Nat) : fuseDefault k ≤ 5 := by
  by_cases hk : k < 10
  · revert k
    decide
  · rw [fuseDefault, List.getD_eq_default _ _ (Nat.not_lt.1 hk)]

theorem fuseLevel_le (fuse : BitVec 64) (k : Nat) : fuseLevel fuse k ≤ 5 := by
  have := fuseDefault_le k
  unfold fuseLevel
  dsimp only
  split_ifs <;> omega

theorem sourceLevel_le (s : State) (code : Nat) : sourceLevel s code ≤ 5 := by
  have := fuseLevel_le s.rst.fuseIn (code - 0x10)
  unfold sourceLevel
  split_ifs <;> omega

@[simp] theorem rst_showPins (trig : State → Nat → PinLevel) (s0 s : State) : (showPins trig s0 s).rst = s.rst := by
  unfold showPins
  split <;> rfl

/-- The cause record names an enabled source that asserts alone, with its level (spec/18 R604). -/
theorem cause_assertSources_single (r : SourceReq) (detail : Nat) {s : State} (h : sourceLevel s r.code ≠ 5) :
    (assertSources [r] detail s).rst.causeSrc = r.code ∧ (assertSources [r] detail s).rst.causeLevel = sourceLevel s r.code := by
  have hon : [r].filter (fun r => decide (sourceLevel s r.code < 5)) = [r] := by
    simp [Nat.lt_of_le_of_ne (sourceLevel_le s r.code) h]
  have hcause : (causeOf s [r]).getD r = r := by
    by_cases hr : r.code = 2
    · simp [causeOf, hr]
    · simp [causeOf, hr, topSource]
  simp [assertSources, hon, topSource, hcause]

theorem hst_hostFault (kind off : Nat) (s : State) : (hostFault kind off s).hst = s.hst := raiseFault_hst ..

/-! ### The statement on the I3C target -/

/-- Settles O51: each command by its equation while the hub runs; the second write of a reset request by `i3cConfirm_of_same_target`. -/
theorem i3cTarget : Obligations.I3cTarget := by
  refine ⟨fun s hub => ⟨fun b hb => ?_, fun b hb => ?_, ?_, fun len hmrl => ?_, fun a => ⟨fun h => ?_, fun h => ?_, fun h => ?_, fun h => ?_,
    fun h => ?_⟩, ?_, ?_, ?_, ?_, ?_, ?_, ?_, fun n hlo hhi => ?_, fun n => ?_, fun ev hev => ⟨?_, ?_⟩, ?_, fun d hd => ?_⟩,
    fun tg ch tm s hub => ⟨fun h => ?_, fun h => ?_, fun h => ?_, fun t0 c0 at_ h hne => ?_, fun c0 at_ h => ⟨fun hc => ?_, fun hc => ?_⟩⟩⟩
  · rw [exec_i3cViewOffset_of_hubUp hub, i3cWrite_of_length hb]
    rfl
  · rw [exec_i3cViewOffset_of_hubUp hub, i3cWrite_of_other_length hb]
    exact ⟨_, rfl, raised_hostFault .., hostFault_frame ..⟩
  · exact exec_i3cViewOffset_of_hubUp hub _
  · exact ⟨_, exec_i3cViewRead_of_hubUp hub len, length_viewBytes len hmrl, take_viewBytes hmrl⟩
  · exact congrArg Host.Outcome.next (if_pos (by simp [hub, h]))
  · exact congrArg Host.Outcome.next (if_neg (by simp [Option.isSome_iff_ne_none.1 h]))
  · exact congrArg Host.Outcome.next (if_pos (by simp [hub, h]))
  · exact congrArg Host.Outcome.next (if_pos (by simp [hub, h]))
  · exact congrArg Host.Outcome.next (if_neg (by simp [h]))
  · exact congrArg Host.Outcome.next (if_pos hub)
  · exact ⟨_, congrArg Host.Outcome.next (if_pos hub), length_beBytes ..⟩
  · exact congrArg Host.Outcome.next (if_pos hub)
  · exact congrArg Host.Outcome.next (if_pos hub)
  · exact ⟨_, congrArg Host.Outcome.next (if_pos hub), length_beBytes ..⟩
  · exact congrArg Host.Outcome.next (if_pos hub)
  · exact congrArg Host.Outcome.next (if_pos hub)
  · rw [exec_setmrl_of_hubUp hub, mrlOf, if_pos ⟨hlo, hhi⟩]
    rfl
  · exact congrArg Host.Outcome.next (if_pos hub)
  · rw [exec_enec_of_hubUp hub, hev, Bool.or_true]
  · rw [exec_disec_of_hubUp hub, hev, Bool.not_true, Bool.and_false]
  · exact congrArg Host.Outcome.next (if_pos hub)
  · exact congrArg Host.Outcome.next ((if_pos hub).trans (if_neg hd))
  · exact exec_i3cResetArm_of_unarmed hub tg ch tm h
  · rw [exec_i3cResetArm_of_armed hub tg ch tm h, exec_i3cResetConfirm_of_hubUp hub]
  · rw [exec_i3cResetArm_of_unarmed hub tg ch tm h, exec_i3cResetConfirm_of_hubUp hub, i3cConfirm_of_unarmed (s := setNow tm s) h]
  · rw [exec_i3cResetConfirm_of_hubUp hub, i3cConfirm_of_other_target (s := setNow tm s) h hne]
    rfl
  · have hc' : i3cCheck (setNow tm s) tg ch at_ tm = 0 := hc
    have hlevel : sourceLevel (i3cEnd (setNow tm s)) 0x18 ≠ 5 := sourceLevel_ne_of_i3cCheck (s := setNow tm s) hc'
    rw [exec_i3cResetConfirm_of_hubUp hub, i3cConfirm_of_same_target (s := setNow tm s) h, if_pos hc']
    exact ⟨_, rfl, cause_assertSources_single _ 0 hlevel⟩
  · have hc' : i3cCheck (setNow tm s) tg ch at_ tm ≠ 0 := hc
    rw [exec_i3cResetConfirm_of_hubUp hub, i3cConfirm_of_same_target (s := setNow tm s) h, if_neg hc']
    have hhst := hst_hostFault 0x8C (i3cCheck (setNow tm s) tg ch at_ tm) (i3cEnd (setNow tm s))
    refine ⟨_, rfl, ?_, ?_, raiseFault_rst .., raised_of_eq qHST 0x618 0x8C _ s _ rfl rfl rfl⟩
    · rw [hhst]; rfl
    · rw [hhst]
      exact chal_i3cEnd_ne (setNow tm s)

end Sys2Proof.Proofs
end

section
/-! DMA rings: completed copies, halts and DM_CTRL (spec/13 R436 to R438); pending vectors (R435). -/
namespace Sys2Proof.Proofs
open Sys2Proof Sys2Proof.Machine

/-! ### A completed copy (R436, R438) -/

/-- What engine `e` writes to the host for its block `x`: the block, its ring entry and the writeback of P. -/
def dmaEntry (e : Nat) (x : StageSlot) (s : State) : Output :=
  .dma e (rw64 s (baseHST + 0x100 + 0x40 * e + 4) + (dmaOf s e).p * (dmReg s e 0x10).toNat) x.frame x.len
    (rw64 s (baseHST + 0x100 + 0x40 * e + 0x14))
    (leBytes 8 x.frame ++ leBytes 4 x.len ++ leBytes 2 (dmaOf s e).p ++ leBytes 2 (((dmaOf s e).p + 1) % dmEntries s e))

/-- The engine's interrupt is due: the completed entries since the last one are as many as DM_CTRL asks for. -/
def dmaIntDue (e : Nat) (s : State) : Bool := decide (max 1 (fld (dmReg s e 0) 16 8) ≤ (dmaOf s e).sinceInt + 1)

/-- Engine `e` once it has written an entry. -/
def dmaAdvanced (e : Nat) (s : State) (d : DmaSt) : DmaSt :=
  { d with p := ((dmaOf s e).p + 1) % dmEntries s e, completed := satInc 16 d.completed
           sinceInt := if dmaIntDue e s then 0 else d.sinceInt + 1 }

/-- The ring after a completed copy, before an interrupt. -/
def dmaEntered (e : Nat) (x : StageSlot) (s : State) : State :=
  modDma e (dmaAdvanced e s) (emit (dmaEntry e x s) (copyDone x.frame (e + 1) s))

section
variable {e : Nat} {x : StageSlot} {s : State}

theorem dmaComplete_of_copy (hhalt : (dmaOf s e).halted = false) (hx : s.fm.stage.find? (fun y => y.copies.contains (e + 1)) = some x) :
    dmaComplete e s = doIf (dmaIntDue e s) (intSource e) (dmaEntered e x s) := by
  simp only [dmaComplete, hhalt, Bool.not_false, Bool.and_true, hx]
  rfl

/-- A halted engine writes nothing, nor does one that has no block (R437). -/
theorem dmaComplete_of_none (h : (dmaOf s e).halted = true ∨ s.fm.stage.find? (fun y => y.copies.contains (e + 1)) = none) :
    dmaComplete e s = s := by
  have hnone : s.fm.stage.find? (fun y => y.copies.contains (e + 1) && !(dmaOf s e).halted) = none := by
    refine List.find?_eq_none.2 fun y hy => ?_
    rcases h with h | h
    · simp [h]
    · rw [Bool.eq_false_of_not_eq_true (List.find?_eq_none.1 h y hy), Bool.false_and]
      exact Bool.false_ne_true
  rw [dmaComplete, hnone]

end

theorem dmaOf_doIf_intSource (c : Bool) (k j : Nat) (s : State) : dmaOf (doIf c (intSource k) s) j = dmaOf s j := by
  cases c
  · rfl
  · exact congrArg (fun d => Tbl.get (constD {}) d j) (intSource_hst_dma k s)

theorem mem_outbox_intSource {o : Output} (k : Nat) {s : State} (h : o ∈ s.outbox) : o ∈ (intSource k s).outbox := by
  unfold intSource sendVector
  dsimp only
  split_ifs
  · exact List.mem_append_left _ h
  · exact h
  · exact h

theorem mem_outbox_doIf_intSource {o : Output} (c : Bool) (k : Nat) {s : State} (h : o ∈ s.outbox) :
    o ∈ (doIf c (intSource k) s).outbox := by
  cases c
  · exact h
  · exact mem_outbox_intSource k h

theorem dmaOf_dmaEntered (e : Nat) (x : StageSlot) (s : State) : dmaOf (dmaEntered e x s) e = dmaAdvanced e s (dmaOf s e) := dmaOf_modDma ..

theorem dmaOf_dmaEntered_ne {e k : Nat} (x : StageSlot) (s : State) (h : k ≠ e) : dmaOf (dmaEntered e x s) k = dmaOf s k :=
  dmaOf_modDma_ne _ _ _ h

theorem mem_outbox_dmaEntered (e : Nat) (x : StageSlot) (s : State) : dmaEntry e x s ∈ (dmaEntered e x s).outbox :=
  List.mem_append_right _ (List.mem_singleton_self _)

section
variable (e : Fin 8) {s : State} (hub : hubUp s = true)
include hub

theorem exec_dmaCopyComplete_of_hubUp : exec (.dmaCopyComplete e) s = .next (dmaComplete e.val s) :=
  congrArg Host.Outcome.next (if_pos hub)

/-! ### Halts (R437) -/

theorem exec_dmaHalt_of_hubUp : exec (.dmaHalt e false) s = .next (dmaHalt e.val s) :=
  congrArg Host.Outcome.next (if_pos hub)

theorem exec_dmaHalt_of_hubUp_bmeCleared : exec (.dmaHalt e true) s = .next (dmaHalt e.val (setBme false s)) :=
  congrArg Host.Outcome.next (if_pos hub)

end

theorem exec_dmaCopyComplete_of_hubDown (e : Fin 8) {s : State} (hub : hubUp s = false) : exec (.dmaCopyComplete e) s = .next s :=
  congrArg Host.Outcome.next (if_neg (by simp [hub]))

theorem hst_bme_dmaHalt (e : Nat) (s : State) : (dmaHalt e s).hst.bme = s.hst.bme := (congrArg HstSt.bme (hstBesideDma_dmaHalt e s) :)

theorem hst_bme_setBme (b : Bool) (s : State) : (setBme b s).hst.bme = b := (congrArg HstSt.bme (hstBesideDma_setBme b s) :)

section
variable {e : Nat} {s : State}

theorem dmaHalt_of_idle (h : (dmaOf s e).halted = true ∨ dmEn s e = false) : dmaHalt e s = s :=
  if_neg (by rcases h with h | h <;> simp [h])

theorem raised_dmaHalt (hen : dmEn s e = true) (hhalt : (dmaOf s e).halted = false) : Raised qHST 0x618 0x89 e s (dmaHalt e s) := by
  unfold dmaHalt
  rw [if_pos (by simp [hen, hhalt])]
  exact raised_of_eq _ _ _ _ s _ rfl rfl rfl

theorem halted_dmaHalt_self (hen : dmEn s e = true) : (dmaOf (dmaHalt e s) e).halted = true := by
  rw [halted_dmaHalt, hen, beq_self_eq_true, Bool.and_self, Bool.or_true]

/-- With Bus Master Enable 0 already, its end halts no other engine. -/
theorem dmaHalt_setBme_of_off (hoff : s.hst.bme = false) : dmaHalt e (setBme false s) = dmaHalt e s := by
  have hsame : { s with hst := { s.hst with bme := false } } = s := by rw [← hoff]
  rw [setBme_of_no_fall (.inl hoff), hsame]

theorem dmEn_setBme (hwas : s.hst.bme = true) : dmEn (setBme false s) e = dmEn s e := by
  rw [setBme_of_fall hwas]
  exact doFor_keeps (fun t => dmEn t e) _ (fun k t => dmEn_dmaHalt k e t) _ _

theorem halted_dmaHalt_setBme (hwas : s.hst.bme = true) {k : Nat} (hk : k < 8) (hen : dmEn s k = true) :
    (dmaOf (dmaHalt e (setBme false s)) k).halted = true := by
  rw [halted_dmaHalt, halted_setBme hwas hk hen, Bool.true_or]

end

/-! ### DM_CTRL (R437, R438) -/

theorem exec_dmaEnable_of_deviceUp (e : Fin 8) (v : Word) {s : State} (hup : deviceUp s = true) :
    exec (.dmaEnable e v) s = .next (dmaCtrl e.val v s) :=
  congrArg Host.Outcome.next (if_pos hup)

/-- Engine `e` after a write `v` of DM_CTRL: EN = 0 ends a halt, EN rising starts the ring anew. -/
def dmaControlled (e : Nat) (v : Word) (s : State) (d : DmaSt) : DmaSt :=
  { d with halted := d.halted && bitAt v 0, p := if bitAt v 0 && !dmEn s e then 0 else d.p
           sinceInt := if bitAt v 0 && !dmEn s e then 0 else d.sinceInt }

theorem dmReg_dmaCtrl (e : Nat) (v : Word) (s : State) : dmReg (dmaCtrl e v s) e 0 = v &&& 0xFFFF0001 := rwOf_setRw ..

theorem dmaOf_dmaCtrl (e : Nat) (v : Word) (s : State) : dmaOf (dmaCtrl e v s) e = dmaControlled e v s (dmaOf s e) := dmaOf_modDma ..

theorem dmaOf_dmaCtrl_ne {e k : Nat} (v : Word) (s : State) (h : k ≠ e) : dmaOf (dmaCtrl e v s) k = dmaOf s k := dmaOf_modDma_ne _ _ _ h

/-! ### Pending vectors (R435) -/

theorem getLsbD_clear_pow (x : BitVec 64) (v : Fin 64) : (x &&& ~~~(BitVec.ofNat 64 (2 ^ v.val))).getLsbD v.val = false := by
  rw [BitVec.getLsbD_and, BitVec.getLsbD_not, BitVec.getLsbD_ofNat]
  simp [v.isLt]

theorem exec_msixPendingDelivery_of_open (v : Fin 64) {s : State} (hpend : s.hst.msixPend.getLsbD v.val = true)
    (hopen : msixOpen s v.val = true) :
    exec (.msixPendingDelivery v) s =
      .next (emit (.msix v.val) { s with hst := { s.hst with msixPend := s.hst.msixPend &&& ~~~(BitVec.ofNat 64 (2 ^ v.val)) } }) :=
  congrArg Host.Outcome.next (if_pos (by rw [hpend, hopen]; rfl))

theorem exec_msixPendingDelivery_of_withheld (v : Fin 64) {s : State} (h : s.hst.msixPend.getLsbD v.val = false ∨ msixOpen s v.val = false) :
    exec (.msixPendingDelivery v) s = .next s :=
  congrArg Host.Outcome.next (if_neg (by rcases h with h | h <;> rw [h] <;> simp))

/-! ### The statement on rings and vectors -/

/-- Settles O31: a completed copy by `dmaComplete_of_copy`, halts by `halted_dmaHalt` and `setBme`, DM_CTRL by `dmaControlled`. -/
theorem dmaAndVectors : Obligations.DmaAndVectors := by
  refine ⟨fun e x s hub hhalt hx => ?_, fun e s h => ?_, fun e b s hub => ⟨fun hen hhalt => ?_, fun hidle hb => ?_, fun hidle hb hwas => ?_⟩,
    fun e v s hup => ?_, fun v s => ⟨fun hpend hopen => ?_, exec_msixPendingDelivery_of_withheld v⟩⟩
  · have hdma : ∀ k, dmaOf (doIf (dmaIntDue e s) (intSource e) (dmaEntered e x s)) k = dmaOf (dmaEntered e x s) k :=
      fun k => dmaOf_doIf_intSource ..
    rw [exec_dmaCopyComplete_of_hubUp e hub, dmaComplete_of_copy hhalt hx]
    refine ⟨_, rfl, ?_, ?_, ?_, fun k hk => ?_⟩
    · rw [hdma, dmaOf_dmaEntered]; rfl
    · rw [hdma, dmaOf_dmaEntered]; rfl
    · rw [hdma, dmaOf_dmaEntered]
      exact mem_outbox_doIf_intSource _ _ (mem_outbox_dmaEntered e x s)
    · rw [hdma, dmaOf_dmaEntered_ne _ _ hk]
  · by_cases hub : hubUp s = true
    · rw [exec_dmaCopyComplete_of_hubUp e hub, dmaComplete_of_none (h.resolve_left (by simp [hub]))]
    · exact exec_dmaCopyComplete_of_hubDown e (by simpa using hub)
  · cases b with
    | false =>
      rw [exec_dmaHalt_of_hubUp e hub]
      exact ⟨_, rfl, halted_dmaHalt_self hen, fun _ => raised_dmaHalt hen hhalt, nofun, hst_bme_dmaHalt ..⟩
    | true =>
      rw [exec_dmaHalt_of_hubUp_bmeCleared e hub]
      refine ⟨_, rfl, ?_, fun h => ?_, fun _ hwas k hk => halted_dmaHalt_setBme hwas hk, (hst_bme_dmaHalt ..).trans (hst_bme_setBme ..)⟩
      · cases hwas : s.hst.bme with
        | false => rw [dmaHalt_setBme_of_off hwas]; exact halted_dmaHalt_self hen
        | true => exact halted_dmaHalt_setBme hwas e.isLt hen
      · have hoff : s.hst.bme = false := h.resolve_left nofun
        rw [dmaHalt_setBme_of_off hoff]
        exact raised_dmaHalt hen hhalt
  · cases b with
    | false =>
      rw [exec_dmaHalt_of_hubUp e hub, dmaHalt_of_idle hidle]
      exact ⟨_, rfl, rfl, rfl⟩
    | true =>
      have hoff : s.hst.bme = false := hb.resolve_left nofun
      rw [exec_dmaHalt_of_hubUp_bmeCleared e hub, dmaHalt_setBme_of_off hoff, dmaHalt_of_idle hidle]
      refine ⟨_, rfl, ?_, rfl⟩
      rw [if_pos rfl, ← hoff]
  · subst hb
    rw [exec_dmaHalt_of_hubUp_bmeCleared e hub]
    exact ⟨_, rfl, (hst_bme_dmaHalt ..).trans (hst_bme_setBme ..), fun k hk => halted_dmaHalt_setBme hwas hk⟩
  · have hdma := dmaOf_dmaCtrl e v s
    rw [exec_dmaEnable_of_deviceUp e v hup]
    refine ⟨_, rfl, dmReg_dmaCtrl .., fun hon hwas => ?_, fun hoff => ?_, fun hsame => ?_, fun k hk => dmaOf_dmaCtrl_ne v s hk⟩
    · simp [hdma, dmaControlled, hon, hwas]
    · simp [hdma, dmaControlled, hoff]
    · simp [hdma, dmaControlled, hsame]
  · rw [exec_msixPendingDelivery_of_open v hpend hopen]
    exact ⟨_, rfl, getLsbD_clear_pow .., rfl, rfl⟩

end Sys2Proof.Proofs
end

section
/-! Command messages and their responses (spec/13 R423, R430, R431, R433; spec/15 R514). -/
namespace Sys2Proof.Proofs
open Sys2Proof Sys2Proof.Machine

/-! ### Sequence recovery (R423) -/

/-- The frame counted by the port that a message came on. -/
def countedRx (p : BbPort) : BbPort := { p with rx := (p.rx + 1) % 2 ^ 32 }

/-- The state once a message has arrived: counted by its port, and known to its stream's sequence recovery. -/
def received (m : CmdMessage) (s : State) : State :=
  { s with net := { s.net with ports := (modBbPort m.port.val countedRx s).net.ports, streams := (recoverMsg m s).2.net.streams } }

section
variable (m : CmdMessage) (s : State)

/-- Sequence recovery does not look at the ports, and changes the streams alone. -/
theorem recoverMsg_modBbPort :
    recoverMsg m (modBbPort m.port.val countedRx s) = ((recoverMsg m s).1, received m s) := by
  unfold received recoverMsg
  cases m.rtag with
  | none => rfl
  | some q =>
    dsimp only
    split
    · rfl
    · rfl

theorem commandMessage_eq :
    commandMessage m s = if (recoverMsg m s).1 = true then takeMessage m (received m s) else received m s := by
  change (let r := recoverMsg m (modBbPort m.port.val countedRx s); if r.1 = true then takeMessage m r.2 else r.2) = _
  rw [recoverMsg_modBbPort]

theorem frerAccept_used (h : Nat) (q : BitVec 16) (x : StreamSt) : (frerAccept h q x).2.used = x.used := by
  unfold frerAccept
  dsimp only
  split
  · rfl
  · split_ifs <;> rfl

theorem frerAccept_seq (h : Nat) (q : BitVec 16) (x : StreamSt) : (frerAccept h q x).2.seq = x.seq := by
  unfold frerAccept
  dsimp only
  split
  · rfl
  · split_ifs <;> rfl

/-- Sequence recovery changes no stream, or that of the message by the recovery algorithm. -/
theorem recoverMsg_snd_cases : (recoverMsg m s).2 = s ∨
    ∃ h q, (recoverMsg m s).2 = modStream m.stream (fun _ => (frerAccept h q (streamOf s m.stream)).2) s := by
  unfold recoverMsg
  cases m.rtag with
  | none => exact .inl rfl
  | some q =>
    dsimp only
    split
    · exact .inr ⟨_, q, rfl⟩
    · exact .inl rfl

/-- What the recovery algorithm keeps of a stream, a message's arrival keeps of each. -/
theorem streamOf_received_keeps {γ : Type} (p : StreamSt → γ) (hp : ∀ h q x, p (frerAccept h q x).2 = p x) (k : Nat) :
    p (streamOf (received m s) k) = p (streamOf s k) := by
  change p (streamOf (recoverMsg m s).2 k) = p (streamOf s k)
  rcases recoverMsg_snd_cases m s with h | ⟨l, q, h⟩
  · rw [h]
  · rw [h]
    by_cases hk : k = m.stream
    · rw [hk, streamOf_modStream, hp]
    · rw [streamOf_modStream_ne _ _ _ hk]

theorem used_received (k : Nat) : (streamOf (received m s) k).used = (streamOf s k).used :=
  streamOf_received_keeps m s StreamSt.used frerAccept_used k

theorem seq_received (k : Nat) : (streamOf (received m s) k).seq = (streamOf s k).seq :=
  streamOf_received_keeps m s StreamSt.seq frerAccept_seq k

theorem csFree_received (k : Nat) : csFree (received m s) k = csFree s k := congrArg (csCredits s k - ·) (used_received m s k)

end

/-! ### The checks of a message (R431) -/

/-- The records of spanning beams, which the herd's manager relays. -/
def spanRecords (m : CmdMessage) (s : State) : List CmdRecord := m.records.filter (fun r => r.op == 2 && herdSpan s r.unit)

/-- The first frame that a message may name: for a record of a spanning beam a frame later (spec/14 R482). -/
def firstFrame (m : CmdMessage) (s : State) : Nat := s.time.openFrame + (if (spanRecords m s).isEmpty then 0 else 1)

theorem firstFrame_eq (m : CmdMessage) (s : State) :
    firstFrame m s = s.time.openFrame + (if m.records.any (fun r => r.op == 2 && herdSpan s r.unit) = true then 1 else 0) := by
  unfold firstFrame spanRecords
  cases h : m.records.any (fun r => r.op == 2 && herdSpan s r.unit) with
  | true =>
    have hne : m.records.filter (fun r => r.op == 2 && herdSpan s r.unit) ≠ [] := by
      simpa [List.filter_eq_nil_iff] using h
    simp [hne]
  | false =>
    have hnil : m.records.filter (fun r => r.op == 2 && herdSpan s r.unit) = [] := by
      simpa [List.filter_eq_nil_iff] using h
    simp [hnil]

theorem herdSpan_congr {s t : State} (hconf : t.conf = s.conf) (hhrd : t.hrd = s.hrd) (b : Nat) : herdSpan t b = herdSpan s b := by
  unfold herdSpan descendants treeUnits ownPos
  rw [hconf, hhrd]

theorem spanRecords_received (m : CmdMessage) (s : State) : spanRecords m (received m s) = spanRecords m s := by
  unfold spanRecords
  simp only [herdSpan_congr (t := received m s) (s := s) rfl rfl]

theorem firstFrame_received (m : CmdMessage) (s : State) : firstFrame m (received m s) = firstFrame m s := by
  unfold firstFrame
  rw [spanRecords_received]
  rfl

/-- A message held for its frame. -/
def heldFor (m : CmdMessage) (first : Nat) : HeldMsg :=
  { msg := m, target := max m.frame first, late := decide (m.frame < first), results := [] }

/-- The stream after it has accepted a message. -/
def creditTaken (m : CmdMessage) (x : StreamSt) : StreamSt := { x with used := x.used + 1, seq := m.seq, accepted := satInc 16 x.accepted }

/-- The state with a message accepted, before the manager relays. -/
def accepted (m : CmdMessage) (first : Nat) (s : State) : State :=
  let s := modStream m.stream (creditTaken m) s
  ledProduce 0 1 { s with net := { s.net with msgs := s.net.msgs ++ [heldFor m first] } }

/-- What the manager sends on. -/
def relayOf (frame : Nat) (r : CmdRecord) : Output := .herdRelay r.unit r.arg frame

/-- A message without a credit raises kind 0x86 and is dropped. -/
def uncredited (m : CmdMessage) (s : State) : State :=
  raiseFault qNET 0x617 0x86 (m.stream % 8) (ledDrop 0 1 0x617 (ledProduce 0 1 s))

theorem takeMessage_without_credit {m : CmdMessage} {s : State} (h : 8 ≤ m.stream ∨ bitAt (csCtrl s m.stream) 31 = false ∨ csFree s m.stream = 0) :
    takeMessage m s = uncredited m s :=
  if_pos h

section
variable {m : CmdMessage} {s : State} (hcredit : ¬ (8 ≤ m.stream ∨ bitAt (csCtrl s m.stream) 31 = false ∨ csFree s m.stream = 0))
include hcredit

theorem takeMessage_of_bad_tag (htag : msgTagOk s m = false) : takeMessage m s = refuseMsg m 2 s := by
  rw [takeMessage, if_neg hcredit, if_pos (by rw [htag]; rfl)]

section
variable (htag : msgTagOk s m = true)
include htag

theorem takeMessage_of_old_seq (hseq : m.seq ≤ (streamOf s m.stream).seq) : takeMessage m s = refuseMsg m 3 s := by
  rw [takeMessage, if_neg hcredit, if_neg (by simp [htag]), if_pos hseq]

section
variable (hseq : (streamOf s m.stream).seq < m.seq)
include hseq

theorem takeMessage_of_bad_format (hfmt : msgFormat m ≠ 0) : takeMessage m s = refuseMsg m (msgFormat m) s := by
  rw [takeMessage, if_neg hcredit, if_neg (by simp [htag]), if_neg (Nat.not_le.2 hseq), if_pos hfmt]

section
variable (hfmt : msgFormat m = 0)
include hfmt

/-- A message with a good credit, tag, number and format: its frame decides. -/
theorem takeMessage_of_good_format :
    takeMessage m s =
      if m.frame < firstFrame m s ∧ m.strict = true then refuseMsg m 6 s
      else if farLimit s < m.frame then refuseMsg m 5 s
      else doIf s.rst.herdMgr (doFor (spanRecords m s) (fun r => emit (relayOf (max m.frame (firstFrame m s)) r)))
        (accepted m (firstFrame m s) s) := by
  rw [takeMessage, if_neg hcredit, if_neg (by simp [htag]), if_neg (Nat.not_le.2 hseq), if_neg (not_not.2 hfmt)]
  simp only [decide_eq_true_eq]
  rfl

theorem takeMessage_of_late (hlate : m.frame < firstFrame m s) (hstrict : m.strict = true) : takeMessage m s = refuseMsg m 6 s := by
  rw [takeMessage_of_good_format hcredit htag hseq hfmt, if_pos ⟨hlate, hstrict⟩]

section
variable (hframe : m.strict = true → firstFrame m s ≤ m.frame)
include hframe

theorem takeMessage_of_far (hfar : farLimit s < m.frame) : takeMessage m s = refuseMsg m 5 s := by
  rw [takeMessage_of_good_format hcredit htag hseq hfmt, if_neg fun h => Nat.not_lt.2 (hframe h.2) h.1, if_pos hfar]

theorem takeMessage_of_accepted (hfar : m.frame ≤ farLimit s) :
    takeMessage m s = doIf s.rst.herdMgr (doFor (spanRecords m s) (fun r => emit (relayOf (max m.frame (firstFrame m s)) r)))
      (accepted m (firstFrame m s) s) := by
  rw [takeMessage_of_good_format hcredit htag hseq hfmt, if_neg fun h => Nat.not_lt.2 (hframe h.2) h.1, if_neg (Nat.not_lt.2 hfar)]

end
end
end
end
end

/-! ### What a refusal and a relay change -/

theorem net_uncredited (m : CmdMessage) (s : State) : (uncredited m s).net = s.net :=
  (raiseFault_net ..).trans ((ledDrop_net 0 1 0x617 (ledProduce 0 1 s)).trans (ledProduce_net 0 1 s))

theorem raised_uncredited (m : CmdMessage) (s : State) : Raised qNET 0x617 0x86 (m.stream % 8) s (uncredited m s) :=
  raised_of_eq _ _ _ _ s _ (congrArg FltSt.queues (ledDrop_flt 0 1 0x617 (ledProduce 0 1 s))) (ledDrop_conf 0 1 0x617 (ledProduce 0 1 s))
    (congrArg TimeSt.frame (ledDrop_time 0 1 0x617 (ledProduce 0 1 s)))

theorem net_refuseMsg (m : CmdMessage) (code : Nat) (s : State) :
    (refuseMsg m code s).net = { s.net with responses := s.net.responses ++
      [{ port := m.port, stream := m.stream, seq := m.seq, result := code, frame := m.frame, results := List.replicate m.records.length code }] } := by
  have hnet := raiseFault_net qNET 0x617 0x85 (code * 2 ^ 24 + m.stream % 8 * 2 ^ 16 + m.seq % 65536) s
  simp only [refuseMsg, queueResponse, ledConsume_net, ledProduce_net, hnet]

theorem flt_refuseMsg (m : CmdMessage) (code : Nat) (s : State) :
    (refuseMsg m code s).flt = (raiseFault qNET 0x617 0x85 (code * 2 ^ 24 + m.stream % 8 * 2 ^ 16 + m.seq % 65536) s).flt := by
  simp only [refuseMsg, queueResponse, ledConsume_flt, ledProduce_flt]

theorem raised_refuseMsg (m : CmdMessage) (code : Nat) (s : State) :
    Raised qNET 0x617 0x85 (code * 2 ^ 24 + m.stream % 8 * 2 ^ 16 + m.seq % 65536) s (refuseMsg m code s) := by
  refine raised_of_queue_eq (raised_raiseFault ..) ?_
  unfold queueOf
  rw [flt_refuseMsg]

section
variable (m : CmdMessage) (first : Nat) (s : State)

theorem net_msgs_accepted : (accepted m first (received m s)).net.msgs = s.net.msgs ++ [heldFor m first] := by
  simp only [accepted, ledProduce_net, modStream_net_msgs, received]

theorem net_responses_accepted : (accepted m first (received m s)).net.responses = s.net.responses := by
  simp only [accepted, ledProduce_net, modStream_net_responses, received]

theorem flt_accepted : (accepted m first (received m s)).flt = s.flt := by
  simp only [accepted, ledProduce_flt, modStream_flt, received]

theorem outbox_accepted : (accepted m first (received m s)).outbox = s.outbox := by
  simp only [accepted, ledProduce_outbox, modStream_outbox, received]

end

/-- A message refused as it arrives is answered at once; of the rest, the port, the streams and the collector change. -/
theorem refuseMsg_received (m : CmdMessage) (code : Nat) (s : State) :
    (refuseMsg m code (received m s)).net.msgs = s.net.msgs ∧
    (refuseMsg m code (received m s)).net.streams = (recoverMsg m s).2.net.streams ∧
    (refuseMsg m code (received m s)).net.responses = s.net.responses ++
      [{ port := m.port, stream := m.stream, seq := m.seq, result := code, frame := m.frame, results := List.replicate m.records.length code }] ∧
    Raised qNET 0x617 0x85 (code * 2 ^ 24 + m.stream % 8 * 2 ^ 16 + m.seq % 65536) s (refuseMsg m code (received m s)) := by
  rw [net_refuseMsg]
  exact ⟨rfl, rfl, rfl, raised_refuseMsg m code (received m s)⟩

/-- Outputs sent one by one stand in the outbox in their order. -/
theorem doFor_emit {α : Type} (o : α → Output) (l : List α) (s : State) :
    doFor l (fun a => emit (o a)) s = { s with outbox := s.outbox ++ l.map o } := by
  induction l generalizing s with
  | nil => simp
  | cons a l ih => simp [ih, emit]

theorem doIf_relay (b : Bool) (frame : Nat) (l : List CmdRecord) (s : State) :
    doIf b (doFor l (fun r => emit (relayOf frame r))) s = { s with outbox := s.outbox ++ if b = true then l.map (relayOf frame) else [] } := by
  cases b
  · simp [doIf]
  · exact doFor_emit (relayOf frame) l s

/-! ### Responses (R433) -/

theorem exec_commandMessage_of_deviceUp (m : CmdMessage) {s : State} (hup : deviceUp s = true) :
    exec (.commandMessage m) s = .next (commandMessage m s) :=
  congrArg Host.Outcome.next (if_pos hup)

theorem exec_commandResponse_of_hubUp {s : State} (hub : hubUp s = true) : exec .commandResponse s = .next (sendResponse s) :=
  congrArg Host.Outcome.next (if_pos hub)

theorem sendResponse_of_none {s : State} (h : s.net.responses = []) : sendResponse s = s := by
  rw [sendResponse, h]

/-- The tag of a response under its stream's session key (spec/15 R514). -/
def responseTag (r : Response) (s : State) : BitVec 128 :=
  if (sessionOf s (1 + r.stream)).isOpen = true
    then gmac (sessionOf s (1 + r.stream)).key (gcmIv 3 (r.stream * 2 ^ 32 + r.seq)) (responseBytes r (csFree s r.stream)) else 0

/-- The response sent by its port and no longer due. -/
def responseGone (r : Response) (rest : List Response) (s : State) : State :=
  modBbPort r.port.val (fun p => { p with tx := (p.tx + 1) % 2 ^ 32 }) { s with net := { s.net with responses := rest } }

theorem sendResponse_of_due {r : Response} {rest : List Response} {s : State} (h : s.net.responses = r :: rest) :
    sendResponse s = emit (.response r (csFree s r.stream) (fld (csCtrl s r.stream) 16 3) (responseTag r s)) (responseGone r rest s) := by
  rw [sendResponse, h]
  rfl

theorem tx_responseGone (r : Response) (rest : List Response) (s : State) :
    (bbPortOf (responseGone r rest s) r.port.val).tx = ((bbPortOf s r.port.val).tx + 1) % 2 ^ 32 :=
  (congrArg BbPort.tx (bbPortOf_modBbPort r.port.val _ { s with net := { s.net with responses := rest } }) :)

/-! ### The statement on command messages -/

/-- Settles O33: what arrives by `commandMessage_eq`, each check by its case of `takeMessage`, refusals by `refuseMsg_received`. -/
theorem commandMessages : Obligations.CommandMessages := by
  refine ⟨fun m s s1 hup hs1 => ⟨fun hrec => ?_, fun hrec hno => ?_, fun hrec hstream hctrl hfree => ?_⟩, fun r rest s hub hdue => ?_,
    fun s h => ?_⟩
  · rw [exec_commandMessage_of_deviceUp m hup, commandMessage_eq, if_neg (by simp [hrec])]
    exact ⟨_, rfl, rfl, rfl, rfl, fun k => ⟨used_received m s k, seq_received m s k⟩⟩
  · rw [exec_commandMessage_of_deviceUp m hup, commandMessage_eq, if_pos hrec,
      takeMessage_without_credit (by rw [csFree_received]; exact hno)]
    have hnet := net_uncredited m (received m s)
    exact ⟨_, rfl, (congrArg NetSt.msgs hnet :), (congrArg NetSt.responses hnet :), raised_uncredited m (received m s)⟩
  · have hcredit : ¬ (8 ≤ m.stream ∨ bitAt (csCtrl (received m s) m.stream) 31 = false ∨ csFree (received m s) m.stream = 0) := by
      rw [csFree_received]
      rintro (h | h | h)
      · omega
      · exact Bool.false_ne_true (h.symm.trans hctrl)
      · exact hfree h
    have hseqEq := seq_received m s m.stream
    rw [exec_commandMessage_of_deviceUp m hup, commandMessage_eq, if_pos hrec, hs1]
    refine ⟨fun code hcode => ?_, fun first htag hseq hfmt hfirst => ?_⟩
    · rcases hcode with ⟨htag, rfl⟩ | ⟨htag, hseq, rfl⟩ | ⟨htag, hseq, hfmt, rfl⟩
      · rw [takeMessage_of_bad_tag hcredit htag]
        exact ⟨_, rfl, refuseMsg_received m _ s⟩
      · rw [takeMessage_of_old_seq hcredit htag (hseqEq.symm ▸ hseq)]
        exact ⟨_, rfl, refuseMsg_received m _ s⟩
      · rw [takeMessage_of_bad_format hcredit htag (hseqEq.symm ▸ hseq) hfmt]
        exact ⟨_, rfl, refuseMsg_received m _ s⟩
    · have hseq' : (streamOf (received m s) m.stream).seq < m.seq := hseqEq.symm ▸ hseq
      obtain rfl : first = firstFrame m s := hfirst.trans (firstFrame_eq m s).symm
      have hfirstEq := firstFrame_received m s
      refine ⟨fun code hcode => ?_, fun hframe hfar => ?_⟩
      · rcases hcode with ⟨hstrict, hlate, rfl⟩ | ⟨hframe, hfar, rfl⟩
        · rw [takeMessage_of_late hcredit htag hseq' hfmt (hfirstEq.symm ▸ hlate) hstrict]
          exact ⟨_, rfl, refuseMsg_received m _ s⟩
        · rw [takeMessage_of_far hcredit htag hseq' hfmt (hfirstEq.symm ▸ hframe) hfar]
          exact ⟨_, rfl, refuseMsg_received m _ s⟩
      · rw [takeMessage_of_accepted hcredit htag hseq' hfmt (hfirstEq.symm ▸ hframe) hfar, doIf_relay, hfirstEq, spanRecords_received]
        have hstream := streamOf_modStream m.stream (creditTaken m) (received m s)
        refine ⟨_, rfl, net_msgs_accepted m (firstFrame m s) s, ?_, ?_, net_responses_accepted m (firstFrame m s) s,
          flt_accepted m (firstFrame m s) s, ?_⟩
        · exact (congrArg StreamSt.used hstream).trans (congrArg (· + 1) (used_received m s m.stream))
        · exact congrArg StreamSt.seq hstream
        · rw [outbox_accepted]
          rfl
  · rw [exec_commandResponse_of_hubUp hub, sendResponse_of_due hdue]
    exact ⟨_, rfl, rfl, rfl, tx_responseGone r rest s⟩
  · rcases h with h | h
    · exact congrArg Host.Outcome.next (if_neg (by simp [h]))
    · by_cases hub : hubUp s = true
      · rw [exec_commandResponse_of_hubUp hub, sendResponse_of_none h]
      · exact congrArg Host.Outcome.next (if_neg hub)

end Sys2Proof.Proofs
end

section
/-! The services of the mailbox and the sessions (spec/13 R443, R444; spec/15 R512, R513, R516). -/
namespace Sys2Proof.Proofs
open Sys2Proof Sys2Proof.Machine

/-! ### Requests -/

/-- The command `c` writes `code` to SVC_REQ. -/
def RequestsService (c : Instr) (code : Nat) : Prop :=
  c = .certGet ∧ code = 1 ∨ c = .attest ∧ code = 2 ∨ c = .ownBurn ∧ code = 3 ∨ c = .slotRevoke ∧ code = 4 ∨ c = .imgkeyLoad ∧ code = 5 ∨
    c = .imgkeyErase ∧ code = 6 ∨ c = .floorRaise ∧ code = 7 ∨ c = .sessionOpen ∧ code = 8 ∨ c = .sessionClose ∧ code = 9 ∨
    c = .attach ∧ code = 0x40 ∨ c = .detach ∧ code = 0x41 ∨ c = .ownSet ∧ code = 0x42 ∨ c = .herdEnum ∧ code = 0x48

/-- Every request meets the check that no service runs, first of all (R444). -/
theorem exec_request_of_busy {c : Instr} {code : Nat} (h : RequestsService c code) {s : State} (hup : deviceUp s = true)
    (hbusy : s.hst.svc.isSome = true) : exec c s = .next (raiseFault qHST 0x618 0x8D code s) := by
  rcases h with ⟨rfl, rfl⟩ | ⟨rfl, rfl⟩ | ⟨rfl, rfl⟩ | ⟨rfl, rfl⟩ | ⟨rfl, rfl⟩ | ⟨rfl, rfl⟩ | ⟨rfl, rfl⟩ | ⟨rfl, rfl⟩ | ⟨rfl, rfl⟩ |
    ⟨rfl, rfl⟩ | ⟨rfl, rfl⟩ | ⟨rfl, rfl⟩ | ⟨rfl, rfl⟩
  all_goals exact congrArg Host.Outcome.next ((if_pos hup).trans (if_pos hbusy))

section
variable {code : Nat} {s : State}

theorem svcIfFree_of_free (f : State → State) (h : s.hst.svc = none) : svcIfFree code f s = f s := if_neg (by simp [h])

theorem svcRequest_of_free {work : State → (Nat × List Byte) × State} {r : Nat × List Byte} {t : State} (h : s.hst.svc = none)
    (hwork : work s = (r, t)) : svcRequest code work s = svcRun code (some r) t := by
  rw [svcRequest, svcIfFree_of_free _ h, hwork]

end

section
variable {s : State} (hup : deviceUp s = true)
include hup

theorem exec_certGet_of_deviceUp : exec .certGet s = .next (svcCertGet s) := congrArg Host.Outcome.next (if_pos hup)
theorem exec_attest_of_deviceUp : exec .attest s = .next (svcAttest s) := congrArg Host.Outcome.next (if_pos hup)
theorem exec_sessionOpen_of_deviceUp : exec .sessionOpen s = .next (svcSessionOpen s) := congrArg Host.Outcome.next (if_pos hup)
theorem exec_sessionClose_of_deviceUp : exec .sessionClose s = .next (svcSessionClose s) := congrArg Host.Outcome.next (if_pos hup)
theorem exec_serviceComplete_of_deviceUp : exec .serviceComplete s = .next (serviceComplete s) := congrArg Host.Outcome.next (if_pos hup)

theorem exec_serviceTimeout_of_running (h : s.hst.svc.isSome = true) : exec .serviceTimeout s = .next (svcPublish 3 [] s) :=
  congrArg Host.Outcome.next (if_pos (by rw [hup, h]; rfl))

theorem exec_sessionRequestMessage_of_deviceUp (req : List Byte) :
    exec (.sessionRequestMessage req) s = .next (sessionRequest req s) :=
  congrArg Host.Outcome.next (if_pos hup)

end

theorem sessionOpenWork_of_good {s : State} {req : List Byte} (hreq : scratchArg s 0x280 = some req) (hc : sessionCheck s true req = 0) :
    sessionOpenWork s = ((1, req), s) := by
  simp [sessionOpenWork, hreq, hc]

theorem sessionOpenWork_of_bad {s : State} {req : List Byte} (hreq : scratchArg s 0x280 = some req) (hc : sessionCheck s true req ≠ 0) :
    sessionOpenWork s = ((sessionCheck s true req, []), sessionRefused (sessionCheck s true req) req s) := by
  simp [sessionOpenWork, hreq, hc]

/-! ### Completion (R444, R513) -/

section
variable (code : Nat) (data : List Byte) (s : State)

@[simp] theorem svcPublish_hst_svc : (svcPublish code data s).hst.svc = none := intSource_hst_svc ..
@[simp] theorem svcPublish_hst_svcSeq : (svcPublish code data s).hst.svcSeq = (s.hst.svcSeq + 1) % 65536 := intSource_hst_svcSeq ..
@[simp] theorem svcPublish_hst_svcFresh : (svcPublish code data s).hst.svcFresh = true := intSource_hst_svcFresh ..
@[simp] theorem svcPublish_hst_svcCode : (svcPublish code data s).hst.svcCode = code := intSource_hst_svcCode ..
@[simp] theorem svcPublish_hst_svcData : (svcPublish code data s).hst.svcData = data := intSource_hst_svcData ..
@[simp] theorem svcPublish_sec : (svcPublish code data s).sec = s.sec := intSource_sec ..

end

theorem sessionOf_svcPublish (code : Nat) (data : List Byte) (s : State) (k : Nat) :
    sessionOf (svcPublish code data s) k = sessionOf s k := by
  unfold sessionOf
  rw [svcPublish_sec]

section
variable {code r : Nat} {data : List Byte} {s : State} (hsvc : s.hst.svc = some code) (hdone : s.hst.svcDone = some (r, data))
include hsvc hdone

/-- A result without an effect of its own is published as it is. -/
theorem serviceComplete_of_plain (h : code ≠ 8 ∧ code ≠ 9 ∨ r ≠ 1) : serviceComplete s = svcPublish r data s := by
  have h8 : ¬ (code = 8 ∧ r = 1) := by omega
  have h9 : ¬ (code = 9 ∧ r = 1) := by omega
  simp only [serviceComplete, hsvc, hdone, if_neg h8, if_neg h9]

theorem serviceComplete_of_close (hcode : code = 9) (hr : r = 1) :
    serviceComplete s = svcPublish 1 [] (sessionClose (leNat data) s) := by
  subst hcode hr
  simp [serviceComplete, hsvc, hdone]

theorem serviceComplete_of_open (hcode : code = 8) (hr : r = 1) :
    serviceComplete s = svcPublish 1 (sessionReply data s).1 (sessionReply data s).2 := by
  subst hcode hr
  simp [serviceComplete, hsvc, hdone]

end

theorem serviceComplete_of_idle {s : State} (h : s.hst.svc = none) : serviceComplete s = s := by rw [serviceComplete, h]

theorem exec_serviceComplete_of_idle {s : State} (h : s.hst.svc = none) : exec .serviceComplete s = .next s := by
  cases hup : deviceUp s with
  | true => rw [exec_serviceComplete_of_deviceUp hup, serviceComplete_of_idle h]
  | false => exact congrArg Host.Outcome.next (if_neg (by simp [hup]))

theorem exec_serviceTimeout_of_idle {s : State} (h : s.hst.svc = none) : exec .serviceTimeout s = .next s :=
  congrArg Host.Outcome.next (if_neg (by simp [h]))

/-! ### Sessions (R512, R513) -/

/-- A reply gives its session the next KEY_EPOCH and a key that waits for the first boundary whose cut-off has not passed. -/
theorem sessionOf_sessionReply (req : List Byte) (s : State) :
    ∃ key, sessionOf (sessionReply req s).2 (leAt req 0 1) =
      { sessionOf s (leAt req 0 1) with
        issued := nextEpoch (sessionOf s (leAt req 0 1)).issued
        due := (sessionOf s (leAt req 0 1)).due ++ [(s.time.openFrame, some (key, nextEpoch (sessionOf s (leAt req 0 1)).issued))] } :=
  ⟨_, sessionOf_modSession ..⟩

theorem sessionReply_outbox (req : List Byte) (s : State) : (sessionReply req s).2.outbox = s.outbox := rfl

section
variable {req : List Byte} {s : State}

theorem sessionRequest_of_good (hc : sessionCheck s false req = 0) :
    sessionRequest req s = emit (.sessionReply (sessionReply req s).1) (sessionReply req s).2 := if_pos hc

theorem sessionRequest_of_bad (hc : sessionCheck s false req ≠ 0) :
    sessionRequest req s = sessionRefused (sessionCheck s false req) req s := if_neg hc

end

theorem raised_sessionRefused (code : Nat) (req : List Byte) (s : State) :
    Raised qSEC 0x615 0xA6 (leAt req 0 1 % 16 * 256 + code) s (sessionRefused code req s) := raised_raiseFault ..

/-! ### The statement on services -/

/-- Settles O42: a request by `svcRequest_of_free`, a completion by its three cases, a reply by `sessionOf_sessionReply`. -/
theorem servicesAndSessions : Obligations.ServicesAndSessions := by
  refine ⟨fun s c code hup hbusy hreq => ?_, ⟨fun s hup hfree => ⟨?_, ?_, fun req hreq hc => ?_, fun req hreq hc => ?_, fun hi => ?_, fun hi => ?_⟩,
    fun s code r data hup hsvc hdone => ⟨fun h => ?_, fun hcode hr => ?_, fun hcode hr => ?_⟩, fun s hup hbusy => ?_, fun s h =>
    ⟨exec_serviceComplete_of_idle h, exec_serviceTimeout_of_idle h⟩, fun s req hup => ⟨fun hc => ?_, fun hc => ?_⟩⟩⟩
  · rw [exec_request_of_busy hreq hup hbusy]
    exact ⟨_, rfl, raised_raiseFault .., raiseFault_frame ..⟩
  · rw [exec_certGet_of_deviceUp hup, svcCertGet, svcRequest, svcIfFree_of_free _ hfree]
    exact ⟨_, rfl, rfl⟩
  · rw [exec_attest_of_deviceUp hup, svcAttest, svcRequest, svcIfFree_of_free _ hfree]
    exact ⟨_, rfl, rfl⟩
  · rw [exec_sessionOpen_of_deviceUp hup, svcSessionOpen, svcRequest_of_free hfree (sessionOpenWork_of_good hreq hc)]
    exact ⟨_, rfl, rfl⟩
  · rw [exec_sessionOpen_of_deviceUp hup, svcSessionOpen, svcRequest_of_free hfree (sessionOpenWork_of_bad hreq hc)]
    exact ⟨_, rfl, raiseFault_sec .., rfl, raised_sessionRefused ..⟩
  · rw [exec_sessionClose_of_deviceUp hup, svcSessionClose, svcRequest_of_free hfree (if_neg (Nat.not_lt.2 hi))]
    exact ⟨_, rfl, rfl⟩
  · rw [exec_sessionClose_of_deviceUp hup, svcSessionClose, svcRequest_of_free hfree (if_pos hi)]
    exact ⟨_, rfl, rfl⟩
  · rw [exec_serviceComplete_of_deviceUp hup, serviceComplete_of_plain hsvc hdone h]
    exact ⟨_, rfl, svcPublish_hst_svc .., svcPublish_hst_svcFresh .., svcPublish_hst_svcCode .., svcPublish_hst_svcData ..,
      svcPublish_hst_svcSeq .., svcPublish_sec ..⟩
  · rw [exec_serviceComplete_of_deviceUp hup, serviceComplete_of_close hsvc hdone hcode hr]
    refine ⟨_, rfl, svcPublish_hst_svc .., svcPublish_hst_svcFresh .., svcPublish_hst_svcCode .., ?_, fun k hk => ?_⟩
    · rw [sessionOf_svcPublish, sessionClose, sessionOf_modSession]
    · rw [sessionOf_svcPublish, sessionClose, sessionOf_modSession_ne _ _ _ hk]
  · obtain ⟨key, hkey⟩ := sessionOf_sessionReply data s
    rw [exec_serviceComplete_of_deviceUp hup, serviceComplete_of_open hsvc hdone hcode hr]
    refine ⟨_, key, rfl, svcPublish_hst_svc .., svcPublish_hst_svcCode .., ?_, ?_⟩
    · rw [sessionOf_svcPublish, hkey]
    · rw [sessionOf_svcPublish, hkey]
  · rw [exec_serviceTimeout_of_running hup hbusy]
    exact ⟨_, rfl, svcPublish_hst_svc .., svcPublish_hst_svcCode .., svcPublish_hst_svcFresh .., svcPublish_sec ..⟩
  · obtain ⟨key, hkey⟩ := sessionOf_sessionReply req s
    rw [exec_sessionRequestMessage_of_deviceUp hup, sessionRequest_of_good hc]
    refine ⟨_, _, rfl, congrArg (· ++ _) (sessionReply_outbox req s), ?_⟩
    have hlen := congrArg (fun y => y.due.length) hkey
    exact hlen.trans (List.length_append ..)
  · rw [exec_sessionRequestMessage_of_deviceUp hup, sessionRequest_of_bad hc]
    exact ⟨_, rfl, raiseFault_sec .., raiseFault_outbox .., raised_sessionRefused ..⟩

end Sys2Proof.Proofs
end

section
/-! The twin link: its traffic (spec/14 R459, R460; spec/15 R514), the link and session 9 (R459, R475; spec/15 R515), and the services
ATTACH, DETACH and OWN_SET (R463, R472, R474). -/
namespace Sys2Proof.Proofs
open Sys2Proof Sys2Proof.Machine

/-! ### Traffic -/

theorem linkUp_of_twinTalks {s : State} (h : twinTalks s = true) : s.twn.linkUp = true := by
  simp only [twinTalks, Bool.and_eq_true] at h
  exact h.1.1

/-- A message of the peer counted. -/
def twinCounted (s : State) : State := { s with twn := { s.twn with rxCount := s.twn.rxCount + 1 } }

/-- A message of `b` sent as `out` of its tag. -/
def twinSent (b : List Byte) (out : BitVec 128 → Output) (s : State) : State :=
  { s with
    twn := { s.twn with txCount := s.twn.txCount + 1 }
    outbox := s.outbox ++ [out (twinTag s s.rst.twinRole s.twn.txCount b)] }

section
variable {s : State} (b : List Byte)

theorem twinSend_of_talks (out : BitVec 128 → Output) (h : twinTalks s = true) : twinSend b out s = twinSent b out s := if_pos h

theorem twinSend_of_silence (out : BitVec 128 → Output) (h : twinTalks s = false) : twinSend b out s = s := if_neg (by simp [h])

theorem sendTwin_of_talks (m : TwinMsg) (h : twinTalks s = true) :
    sendTwin m s = twinSent (Config.twinWire m) (fun tag => .twinMsg { msg := m, tag }) s := if_pos h

theorem sendTwin_of_silence (m : TwinMsg) (h : twinTalks s = false) : sendTwin m s = s := if_neg (by simp [h])

/-- What a control message adds to the outbox. -/
theorem outbox_sendTwin (m : TwinMsg) (s : State) : (sendTwin m s).outbox = s.outbox ++
    (if twinTalks s = true then [.twinMsg ⟨m, twinTag s s.rst.twinRole s.twn.txCount (Config.twinWire m)⟩] else []) := by
  cases h : twinTalks s with
  | true => rw [sendTwin_of_talks m h]; rfl
  | false => rw [sendTwin_of_silence m h]; exact (List.append_nil _).symm

variable {b} {tag : BitVec 128} (f : State → State)

theorem twinReceive_of_silence (h : twinTalks s = false) : twinReceive b tag f s = s := if_neg (by simp [h])

theorem twinReceive_of_bad_tag (h : twinTalks s = true) (htag : twinTag s (!s.rst.twinRole) s.twn.rxCount b ≠ tag) :
    twinReceive b tag f s = twinCounted s :=
  (if_pos h).trans (if_neg htag)

theorem twinReceive_of_good_tag (h : twinTalks s = true) (htag : twinTag s (!s.rst.twinRole) s.twn.rxCount b = tag) :
    twinReceive b tag f s = f (twinCounted s) :=
  (if_pos h).trans (if_pos htag)

end

/-! ### A failure of PAIRING or VELVET (R467) -/

/-- The cause of a failure noted; an earlier one stays. -/
def failureNoted (cause : Nat) (s : State) : State := { s with twn := { s.twn with failure := some (s.twn.failure.getD cause) } }

section
variable {s : State} (cause : Nat)

theorem twinFailure_of_pairing (h : s.twn.mode = 1 ∨ s.twn.mode = 2) :
    twinFailure cause s = sendTwin (.failure cause) (failureNoted cause s) := if_pos h

theorem twinFailure_of_other_mode (h : ¬ (s.twn.mode = 1 ∨ s.twn.mode = 2)) : twinFailure cause s = s := if_neg h

/-- A failure is noted and told to the peer, and nothing else changes. -/
theorem twinFailure_eq (h : s.twn.mode = 1 ∨ s.twn.mode = 2) : ∃ n out, twinFailure cause s =
    { s with twn := { s.twn with failure := some (s.twn.failure.getD cause), txCount := n }, outbox := out } := by
  obtain ⟨n, out, hsent⟩ := sendTwin_eq (.failure cause) (failureNoted cause s)
  exact ⟨n, out, (twinFailure_of_pairing cause h).trans hsent⟩

theorem twinFailure_of_silence (h : s.twn.mode = 1 ∨ s.twn.mode = 2) (hsilent : twinTalks s = false) :
    twinFailure cause s = failureNoted cause s :=
  (twinFailure_of_pairing cause h).trans (sendTwin_of_silence (s := failureNoted cause s) _ hsilent)

end

/-! ### The link -/

section
variable {uid : BitVec 64} {role : Bool} {s : State}

theorem exec_twinLinkUp_held (h : hubUp s = false ∨ clockHeld s 13 = true) : exec (.twinLinkUp uid role) s = .next s :=
  congrArg Host.Outcome.next (if_neg (by rcases h with h | h <;> simp [h]))

theorem exec_twinLinkUp_taken (hub : hubUp s = true) (hclk : clockHeld s 13 = false) :
    exec (.twinLinkUp uid role) s = .next (twinLinkUp uid role s) :=
  congrArg Host.Outcome.next (if_pos (by rw [hub, hclk]; rfl))

theorem twinLinkUp_of_other_role (h : role ≠ s.rst.twinRole) :
    twinLinkUp uid role s = { s with
      freeCtr := s.freeCtr + 1
      twn := { s.twn with lanes := 0xF, peerUid := uid, peerRole := role, missRun := 0, linkUp := true, roleClash := false
                          nonce := BitVec.ofNat 256 (Config.freeWord s.freeCtr) } } :=
  if_neg h

theorem twinLinkUp_of_same_role (h : role = s.rst.twinRole) :
    twinLinkUp uid role s = raiseFault qTWN 0x619 0x9E (if s.rst.twinRole = true then 1 else 0) { s with
      twn := { s.twn with lanes := 0xF, peerUid := uid, peerRole := role, missRun := 0, linkUp := false, roleClash := true } } :=
  if_pos h

end

/-- The lanes of a link that is down, and what is no longer known of the peer. -/
def linkDropped (lanes : BitVec 4) (s : State) : State :=
  { s with twn := { s.twn with
    lanes, linkUp := false, roleClash := false, peerUnits := [], peerMode := 0, peerTwinFlag := false, peerHash := none } }

/-- A session with nothing due and no key. -/
def sessionEnded (y : Session) : Session := { y with isOpen := false, key := 0, due := [] }

theorem twinTalks_linkDropped (l : BitVec 4) (s : State) : twinTalks (linkDropped l s) = false := rfl

section
variable (l : BitVec 4) {s : State}

theorem exec_twinLinkDown_of_hubUp (hub : hubUp s = true) : exec (.twinLinkDown l) s = .next (twinLinkDown l s) :=
  congrArg Host.Outcome.next (if_pos hub)

theorem twinLinkDown_of_linkUp (h : s.twn.linkUp = true) :
    twinLinkDown l s = modSession 9 sessionEnded (twinLoss (linkDropped l s)) := if_pos h

theorem twinLinkDown_of_linkDown (h : s.twn.linkUp = false) : twinLinkDown l s = linkDropped l s := if_neg (by simp [h])

end

/-- The link's loss: LINK_LOST is to follow in PAIRED, PAIRING and VELVET fail with cause 3 (R467, R475). -/
theorem twinLoss_linkDropped (l : BitVec 4) (s : State) : twinLoss (linkDropped l s) = { linkDropped l s with
    twn := { (linkDropped l s).twn with
      lost := if s.twn.mode = 3 then true else s.twn.lost
      failure := if s.twn.mode = 1 ∨ s.twn.mode = 2 then some (s.twn.failure.getD 3) else s.twn.failure } } := by
  unfold twinLoss
  by_cases h3 : s.twn.mode = 3
  · have h12 : ¬ (s.twn.mode = 1 ∨ s.twn.mode = 2) := by omega
    rw [if_pos h3, if_neg h12]
    exact if_pos h3
  · rw [if_neg h3]
    by_cases h12 : s.twn.mode = 1 ∨ s.twn.mode = 2
    · rw [if_pos h12]
      exact (if_neg h3).trans (twinFailure_of_silence (s := linkDropped l s) 3 h12 (twinTalks_linkDropped l s))
    · rw [if_neg h12]
      exact (if_neg h3).trans (twinFailure_of_other_mode (s := linkDropped l s) 3 h12)

/-! ### Session 9 (spec/15 R515) -/

/-- A session just opened with `key`: the next KEY_EPOCH, and nothing due. -/
def sessionOpened (key : BitVec 256) (y : Session) : Session :=
  { y with isOpen := true, key, epoch := nextEpoch y.issued, issued := nextEpoch y.issued, due := [] }

/-- This device's presentation sent, and session 9 open with message counts of 0 (log 108). -/
def twinOpened (h : TwinHello) (key : BitVec 256) (s : State) : State :=
  modTwn (fun t => { t with txCount := 0, rxCount := 0 }) (modSession 9 (sessionOpened key) (emit (.twinHello (ownHello h.nonce s)) s))

theorem sessionOf_raiseFault (q u kind detail : Nat) (s : State) (k : Nat) :
    sessionOf (raiseFault q u kind detail s) k = sessionOf s k := by
  unfold sessionOf
  rw [raiseFault_sec]

theorem sessionOf_twinOpened (h : TwinHello) (key : BitVec 256) (s : State) :
    sessionOf (twinOpened h key s) 9 = sessionOpened key (sessionOf s 9) := sessionOf_modSession ..

theorem sessionOf_twinOpened_ne (h : TwinHello) (key : BitVec 256) (s : State) {k : Nat} (hk : k ≠ 9) :
    sessionOf (twinOpened h key s) k = sessionOf s k := sessionOf_modSession_ne 9 _ (emit _ s) hk

section
variable {h : TwinHello} {key : BitVec 256} {s : State}

theorem exec_twinSessionOpen_of_hubUp (hub : hubUp s = true) : exec (.twinSessionOpen h key) s = .next (twinSession h key s) :=
  congrArg Host.Outcome.next (if_pos hub)

theorem twinSession_of_no_link (hno : s.twn.linkUp = false ∨ twinImage s = false) : twinSession h key s = s :=
  if_neg (by rcases hno with h | h <;> simp [h])

section
variable (hlink : s.twn.linkUp = true) (himage : twinImage s = true)
include hlink himage

theorem twinSession_of_bad_hello (hbad : helloOk h s = false) :
    twinSession h key s = emit (.twinHello (ownHello h.nonce s)) s :=
  (if_pos (by rw [hlink, himage]; rfl)).trans (if_neg (ne_true_of_eq_false hbad))

/-- Session 9 opens with the agreed key, and kind 0xA5 tells its epoch. -/
theorem twinSession_of_good_hello (hgood : helloOk h s = true) :
    twinSession h key s = raiseFault qSEC 0x615 0xA5 (nextEpoch (sessionOf s 9).issued % 65536 * 65536 + 9) (twinOpened h key s) :=
  (if_pos (by rw [hlink, himage]; rfl)).trans (if_pos hgood)

end

end

/-! ### Services -/

/-- ATTACH accepted and about to be told: this device is to join at its target. -/
def attachAsked (s : State) : State :=
  svcRun 0x40 none (modTwn (fun t => { t with attachAt := some (svcTarget s), attachMap := ownMapReg s, attachJoin := true }) s)

/-- DETACH accepted. -/
def detachAsked (s : State) : State := svcRun 0x41 none (modTwn (fun t => { t with detachAt := some (svcTarget s) }) s)

/-- OWN_SET accepted. -/
def ownSetAsked (s : State) : State :=
  svcRun 0x42 none (modTwn (fun t => { t with ownAt := some (svcTarget s), ownMap := ownMapReg s }) s)

section
variable {s : State} (hup : deviceUp s = true)
include hup

theorem exec_attach_of_deviceUp : exec .attach s = .next (svcAttach s) := congrArg Host.Outcome.next (if_pos hup)
theorem exec_detach_of_deviceUp : exec .detach s = .next (svcDetach s) := congrArg Host.Outcome.next (if_pos hup)
theorem exec_ownSet_of_deviceUp : exec .ownSet s = .next (svcOwnSet s) := congrArg Host.Outcome.next (if_pos hup)

end

/-- A link without traffic refuses ATTACH (R463). -/
theorem twinTalks_of_attachCheck {s : State} (h : attachCheck s = 0) : twinTalks s = true := by
  unfold attachCheck at h
  dsimp only at h
  split_ifs at h with hclash hlink himage
  simp only [Bool.not_eq_true', Bool.or_eq_true, not_or, Bool.not_eq_false] at hlink himage
  rw [twinTalks, hlink, himage.1.1]
  rfl

section
variable {s : State} (hfree : s.hst.svc = none)
include hfree

theorem svcAttach_refused (hc : attachCheck s ≠ 0) :
    svcAttach s = svcRun 0x40 (some (attachCheck s, [])) (attachRefused (attachCheck s) s) :=
  (svcIfFree_of_free _ hfree).trans (if_pos hc)

theorem svcAttach_accepted (hc : attachCheck s = 0) :
    svcAttach s = sendTwin (.attach (svcTarget s) (ownMapReg s)) (attachAsked s) :=
  (svcIfFree_of_free _ hfree).trans (if_neg (not_not_intro hc))

theorem svcDetach_unpaired (hmode : s.twn.mode ≠ 3) : svcDetach s = svcRun 0x41 (some (6, [])) s :=
  (svcIfFree_of_free _ hfree).trans (if_pos hmode)

theorem svcOwnSet_unpaired (hmode : s.twn.mode ≠ 3) : svcOwnSet s = svcRun 0x42 (some (6, [])) s :=
  (svcIfFree_of_free _ hfree).trans (if_pos hmode)

section
variable (hmode : s.twn.mode = 3)
include hmode

theorem svcDetach_too_far (hfar : farLimit s < svcWant s) : svcDetach s = svcRun 0x41 (some (0xB, [])) s :=
  (svcIfFree_of_free _ hfree).trans ((if_neg (not_not_intro hmode)).trans (if_pos hfar))

theorem svcDetach_accepted (hfar : svcWant s ≤ farLimit s) :
    svcDetach s = sendTwin (.detach (svcTarget s)) (detachAsked s) :=
  (svcIfFree_of_free _ hfree).trans ((if_neg (not_not_intro hmode)).trans (if_neg (Nat.not_lt.2 hfar)))

theorem svcOwnSet_of_silence (htalks : twinTalks s = false) : svcOwnSet s = svcRun 0x42 (some (4, [])) s :=
  (svcIfFree_of_free _ hfree).trans ((if_neg (not_not_intro hmode)).trans (if_pos (by rw [htalks]; rfl)))

section
variable (htalks : twinTalks s = true)
include htalks

theorem svcOwnSet_of_other_map (hmap : ownMapReg s ≠ s.twn.peerMap) : svcOwnSet s = svcRun 0x42 (some (0xC, [])) s :=
  (svcIfFree_of_free _ hfree).trans ((if_neg (not_not_intro hmode)).trans
    ((if_neg (by simp [htalks])).trans (if_pos (bne_iff_ne.2 hmap))))

section
variable (hmap : ownMapReg s = s.twn.peerMap)
include hmap

theorem svcOwnSet_too_far (hfar : farLimit s < svcWant s) : svcOwnSet s = svcRun 0x42 (some (0xB, [])) s :=
  (svcIfFree_of_free _ hfree).trans ((if_neg (not_not_intro hmode)).trans
    ((if_neg (by simp [htalks])).trans ((if_neg (by simp [hmap])).trans (if_pos hfar))))

theorem svcOwnSet_accepted (hfar : svcWant s ≤ farLimit s) :
    svcOwnSet s = sendTwin (.ownSet (svcTarget s) (ownMapReg s)) (ownSetAsked s) :=
  (svcIfFree_of_free _ hfree).trans ((if_neg (not_not_intro hmode)).trans
    ((if_neg (by simp [htalks])).trans ((if_neg (by simp [hmap])).trans (if_neg (Nat.not_lt.2 hfar)))))

end
end
end
end

/-! ### The statement on the twin link and its services -/

/-- Settles O52: the link by the roles, session 9 by what the peer presents, the link's loss by `twinLoss_linkDropped`, each service by its
first check that fails. -/
theorem twinServices : Obligations.TwinServices := by
  refine ⟨fun uid role s => ⟨exec_twinLinkUp_held, fun hub hclk => ⟨fun hrole => ?_, fun hrole => ?_⟩⟩,
    fun h key s hub => ⟨fun hlink himage hgood => ?_, fun hlink himage hbad => ?_, fun hno => ?_⟩,
    fun l s hub => ⟨fun hlink => ?_, fun hlink => ?_⟩,
    fun s hup hfree => ⟨fun hc => ?_, fun hc => ?_, fun hmode hfar => ?_, fun hmode hfar => ?_, fun hmode => ?_,
      fun hmode htalks hmap hfar => ?_, fun code hmode hcode => ?_, fun hmode => ?_⟩⟩
  · rw [exec_twinLinkUp_taken hub hclk, twinLinkUp_of_other_role hrole]
    exact ⟨_, rfl, rfl, rfl, rfl, rfl, rfl, rfl⟩
  · rw [exec_twinLinkUp_taken hub hclk, twinLinkUp_of_same_role hrole, ← hrole]
    refine ⟨_, rfl, ?_, ?_, raised_of_eq _ _ _ _ s _ rfl rfl rfl, ?_⟩
    · rw [raiseFault_twn]
    · rw [raiseFault_twn]
    · exact congrArg (fun t : State => { t with twn := s.twn, flt := s.flt, fm := s.fm }) (raiseFault_frame qTWN 0x619 0x9E _ _)
  · rw [exec_twinSessionOpen_of_hubUp hub, twinSession_of_good_hello hlink himage hgood]
    have hopen := (sessionOf_raiseFault qSEC 0x615 0xA5 (nextEpoch (sessionOf s 9).issued % 65536 * 65536 + 9) _ 9).trans
      (sessionOf_twinOpened h key s)
    refine ⟨_, rfl, ?_, ?_, ?_, ?_, ?_, fun k hk => ?_, raiseFault_outbox .., raised_of_eq _ _ _ _ s _ rfl rfl rfl⟩
    · rw [hopen]; rfl
    · rw [hopen]; rfl
    · rw [raiseFault_twn]; rfl
    · rw [raiseFault_twn]; rfl
    · rw [hopen]; rfl
    · rw [sessionOf_raiseFault, sessionOf_twinOpened_ne h key s hk]
  · rw [exec_twinSessionOpen_of_hubUp hub, twinSession_of_bad_hello hlink himage hbad]
    rfl
  · rw [exec_twinSessionOpen_of_hubUp hub, twinSession_of_no_link hno]
  · rw [exec_twinLinkDown_of_hubUp l hub, twinLinkDown_of_linkUp l hlink, twinLoss_linkDropped]
    refine ⟨_, rfl, rfl, rfl, ?_, rfl, rfl, rfl, fun h => if_pos h, fun h => if_pos h, rfl⟩
    rw [sessionOf_modSession]
    rfl
  · rw [exec_twinLinkDown_of_hubUp l hub, twinLinkDown_of_linkDown l hlink]
    rfl
  · rw [exec_attach_of_deviceUp hup, svcAttach_accepted hfree hc, sendTwin_of_talks (s := attachAsked s) _ (twinTalks_of_attachCheck hc)]
    exact ⟨_, rfl, rfl, rfl, rfl, rfl, rfl, rfl, rfl⟩
  · rw [exec_attach_of_deviceUp hup, svcAttach_refused hfree hc]
    exact ⟨_, rfl, rfl, raiseFault_twn .., raised_raiseFault ..⟩
  · rw [exec_detach_of_deviceUp hup, svcDetach_accepted hfree hmode hfar]
    obtain ⟨n, out, hsent⟩ := sendTwin_eq (.detach (svcTarget s)) (detachAsked s)
    refine ⟨_, rfl, ?_, ?_, ?_, ?_, outbox_sendTwin ..⟩
    all_goals rw [hsent]
    · rfl
    · rfl
    · rfl
    · exact hmode
  · rw [exec_detach_of_deviceUp hup, svcDetach_too_far hfree hmode hfar]
    exact ⟨_, rfl, rfl, rfl⟩
  · rw [exec_detach_of_deviceUp hup, svcDetach_unpaired hfree hmode]
    exact ⟨_, rfl, rfl, rfl⟩
  · rw [exec_ownSet_of_deviceUp hup, svcOwnSet_accepted hfree hmode htalks hmap hfar, sendTwin_of_talks (s := ownSetAsked s) _ htalks]
    exact ⟨_, rfl, rfl, rfl, rfl, rfl, rfl⟩
  · rw [exec_ownSet_of_deviceUp hup]
    rcases hcode with ⟨htalks, rfl⟩ | ⟨htalks, hmap, rfl⟩ | ⟨htalks, hmap, hfar, rfl⟩
    · rw [svcOwnSet_of_silence hfree hmode htalks]
      exact ⟨_, rfl, rfl, rfl⟩
    · rw [svcOwnSet_of_other_map hfree hmode htalks hmap]
      exact ⟨_, rfl, rfl, rfl⟩
    · rw [svcOwnSet_too_far hfree hmode htalks hmap hfar]
      exact ⟨_, rfl, rfl, rfl⟩
  · rw [exec_ownSet_of_deviceUp hup, svcOwnSet_unpaired hfree hmode]
    exact ⟨_, rfl, rfl, rfl⟩

end Sys2Proof.Proofs
end

section
/-! The twin's running: blocks of the peer and the checks of its units (spec/14 R460, R468, R469, R475), the settings CRC (R470), orphaned
groups (R476), expiries (R465, R467, R475) and control messages. -/
namespace Sys2Proof.Proofs
open Sys2Proof Sys2Proof.Machine

/-! ### Commands while the hub runs -/

section
variable {s : State} (hub : hubUp s = true)
include hub

theorem exec_twinBlockArrival_of_hubUp (n : Nat) (tag : BitVec 128) (b : List Byte) :
    exec (.twinBlockArrival n tag b) s = .next (twinReceive b tag (blockArrival n (peerUnitsOf b)) s) :=
  congrArg Host.Outcome.next (if_pos hub)

theorem exec_twinBlockDeadline_of_hubUp (n : Nat) : exec (.twinBlockDeadline n) s = .next (blockDeadline n s) :=
  congrArg Host.Outcome.next (if_pos hub)

theorem exec_twinSettingsCrc_of_hubUp (c : TwinCrc) :
    exec (.twinSettingsCrc c) s = .next (twinReceive (leBytes 4 c.crc.toNat) c.tag (settingsCrc c.crc) s) :=
  congrArg Host.Outcome.next (if_pos hub)

theorem exec_groupOrphaned_of_hubUp (g : Fin 64) : exec (.groupOrphaned g) s = .next (groupOrphan g.val s) :=
  congrArg Host.Outcome.next (if_pos hub)

theorem exec_twinControlMessage_of_hubUp (m : TwinMsg) (tag : BitVec 128) :
    exec (.twinControlMessage { msg := m, tag := tag }) s = .next (twinReceive (Config.twinWire m) tag (twinControl m) s) :=
  congrArg Host.Outcome.next (if_pos hub)

end

/-! ### A block arrives (R460, R475) -/

/-- The peer is heard: in PAIRED with a peer in PAIRED a lost link is back. -/
theorem twinBack_of_linkUp {s : State} (h : s.twn.linkUp = true) : twinBack s = { s with twn := { s.twn with
    lost := if s.twn.peerMode = 3 then false else s.twn.lost
    orphans := if s.twn.peerMode = 3 then 0 else s.twn.orphans } } := by
  unfold twinBack
  rw [h, Bool.true_and]
  by_cases hp : s.twn.peerMode = 3
  · rw [if_pos (beq_iff_eq.2 hp), if_pos hp, if_pos hp]
    rfl
  · rw [if_neg (fun h => hp (beq_iff_eq.1 h)), if_neg hp, if_neg hp]

/-- The peer's block `n` counted and noted. -/
def blockNoted (n : Nat) (s : State) : State :=
  { s with twn := { s.twn with
    rxCount := s.twn.rxCount + 1, peerBlock := n + 1, missRun := 0
    lost := if s.twn.peerMode = 3 then false else s.twn.lost, orphans := if s.twn.peerMode = 3 then 0 else s.twn.orphans } }

/-- The results of the own trackers' checks are to show. -/
def checksOpened (n : Nat) (s : State) : State :=
  doFor ((ownTines s).filter (fun u => kindOf u == 1)) (fun u => modTwinRes u (fun r => { r with present := true }))
    (modTwn (fun t => { t with checked := n + 1 }) s)

section
variable {n : Nat} {us : List PeerUnit} {s : State}

theorem blockArrival_of_other_frame (h : s.time.frame ≠ some n) : blockArrival n us s = s := by
  refine if_neg fun ⟨hn, hframe⟩ => h ?_
  obtain ⟨k, hk⟩ := Option.isSome_iff_exists.1 hframe
  rw [hn, frameN, hk]
  rfl

section
variable (hlink : s.twn.linkUp = true) (hframe : s.time.frame = some n)
include hlink hframe

theorem blockArrival_of_frame : blockArrival n us (twinCounted s) =
    if s.twn.mode = 2 ∨ s.twn.mode = 3 then doFor us checkUnit (checksOpened n (blockNoted n s)) else blockNoted n s := by
  have hback : twinBack (modTwn (fun t => { t with peerBlock := n + 1, missRun := 0 }) (twinCounted s)) = blockNoted n s := by
    rw [twinBack_of_linkUp (by exact hlink)]
    rfl
  have hn : n = frameN (twinCounted s) ∧ (twinCounted s).time.frame.isSome = true := by simp [twinCounted, frameN, hframe]
  unfold blockArrival
  rw [if_pos hn, hback]
  rfl

end

end

section
variable (n : Nat) (s : State)

theorem checksOpened_eq : ∃ r, checksOpened n s = { s with twn := { s.twn with checked := n + 1, res := r } } :=
  ⟨_, doFor_keeps (fun t : State => { t with twn := { t.twn with res := (checksOpened n s).twn.res } })
    (fun u => modTwinRes u (fun r => { r with present := true })) (fun _ _ => rfl)
    ((ownTines s).filter (fun u => kindOf u == 1)) (modTwn (fun t => { t with checked := n + 1 }) s)⟩

/-- Opening the results changes PRESENT alone: what was raised of a unit stays known. -/
theorem raised_checksOpened (u : Nat) : ((twinResOf (checksOpened n s) u).neg, (twinResOf (checksOpened n s) u).mismatch) =
    ((twinResOf s u).neg, (twinResOf s u).mismatch) := by
  refine doFor_keeps (fun t => ((twinResOf t u).neg, (twinResOf t u).mismatch)) _ (fun v t => ?_) _ (modTwn (fun t => { t with checked := n + 1 }) s)
  by_cases hv : u = v
  · rw [hv, twinResOf_modTwinRes]
  · rw [twinResOf_modTwinRes_ne _ _ _ hv]

end

/-! ### The check of one unit (R468, R469) -/

/-- A disagreement counted and raised. -/
def disagreed (u kind detail : Nat) (s : State) : State :=
  raiseFault qTWN u kind detail (modTwn (fun t => { t with disagreements := satInc 16 t.disagreements }) s)

/-- `t` with the results of checks, their count, the collector and the ledger of `s`. -/
def besideChecks (s t : State) : State :=
  { t with twn := { t.twn with res := s.twn.res, disagreements := s.twn.disagreements }, flt := s.flt, fm := s.fm }

section
variable (u kind detail : Nat) (s : State)

theorem besideChecks_disagreed (s0 : State) : besideChecks s0 (disagreed u kind detail s) = besideChecks s0 s := by
  have h := congrArg (besideChecks s0) (raiseFault_frame qTWN u kind detail
    (modTwn (fun t => { t with disagreements := satInc 16 t.disagreements }) s))
  exact h

@[simp] theorem twn_disagreed : (disagreed u kind detail s).twn = { s.twn with disagreements := satInc 16 s.twn.disagreements } :=
  raiseFault_twn ..

@[simp] theorem twinResOf_disagreed (v : Nat) : twinResOf (disagreed u kind detail s) v = twinResOf s v := by
  unfold twinResOf
  rw [twn_disagreed]

variable {s}

/-- Outside VELVET a disagreement fails nothing. -/
theorem twinFailure'_disagreed (h : s.twn.mode = 3) : checkUnit.twinFailure' (disagreed u kind detail s) = disagreed u kind detail s := by
  refine if_neg ?_
  rw [twn_disagreed]
  exact fun h2 => absurd (h.symm.trans h2) (by decide)

end

/-- The result of a check with margin `m` and the same state. -/
def marginNoted (u : Nat) (m : Int) : State → State :=
  modTwinRes u (fun _ => { present := true, agree := decide (0 ≤ m), margin := some m, neg := decide (m < 0), mismatch := false })

/-- The result of a check without margin and with another state. -/
def mismatchNoted (u : Nat) (s : State) : State := modTwinRes u (fun _ => { neg := (twinResOf s u).neg, mismatch := true }) s

section
variable {p : PeerUnit} {s : State} (hmode : s.twn.mode = 3)
include hmode

/-- In PAIRED the check of a unit changes its result, the count of disagreements and the collector alone. -/
theorem besideChecks_checkUnit (s0 : State) : besideChecks s0 (checkUnit p s) = besideChecks s0 s := by
  unfold checkUnit
  extract_lets u k own old m mis bad agree neg s1 raise s2
  split
  · rfl
  · have hraise : ∀ kind det t, t.twn.mode = 3 → raise kind det t = disagreed u kind det t := fun kind det t h =>
      twinFailure'_disagreed u kind det h
    have h2 : besideChecks s0 s2 = besideChecks s0 s ∧ s2.twn.mode = 3 := by
      dsimp only [s2]
      split
      · rw [hraise _ _ s1 hmode, besideChecks_disagreed, twn_disagreed]
        exact ⟨rfl, hmode⟩
      · exact ⟨rfl, hmode⟩
    obtain ⟨hbeside, hmode2⟩ := h2
    split
    · rw [hraise _ _ s2 hmode2, besideChecks_disagreed, hbeside]
    · exact hbeside

/-- A tracker in the state that its peer shows: the margin is noted, and a negative one counts where none was before. -/
theorem checkUnit_of_margin {m : Int} (hkind : kindOf p.unit = 1) (hex : unitExists s p.unit = true)
    (hm : margin (recOf s p.unit) p = some m) (hst : (unitOf s p.unit).recSt.code = p.state) :
    checkUnit p s =
      if m < 0 ∧ (twinResOf s p.unit).neg = false then disagreed p.unit 0x90 (unsig 32 (satS 32 m)) (marginNoted p.unit m s)
      else marginNoted p.unit m s := by
  have hraise := twinFailure'_disagreed p.unit 0x90 (unsig 32 (satS 32 m)) (s := marginNoted p.unit m s) hmode
  unfold disagreed marginNoted at hraise
  simp [checkUnit, hkind, hex, hm, hst, hraise, disagreed, marginNoted]

/-- A port or generator in another state than its peer: kind 0x91, once. -/
theorem checkUnit_of_mismatch (hkind : kindOf p.unit = 2 ∨ kindOf p.unit = 4) (hex : unitExists s p.unit = true)
    (hst : (unitOf s p.unit).recSt.code ≠ p.state) (hold : (twinResOf s p.unit).mismatch = false) :
    checkUnit p s =
      disagreed p.unit 0x91 (p.state % 16 * 16 + (unitOf s p.unit).recSt.code) (mismatchNoted p.unit s) := by
  have hraise := twinFailure'_disagreed p.unit 0x91 (p.state % 16 * 16 + (unitOf s p.unit).recSt.code) (s := mismatchNoted p.unit s) hmode
  unfold disagreed mismatchNoted at hraise
  have h1 : kindOf p.unit ≠ 1 := by omega
  have hne : ((unitOf s p.unit).recSt.code != p.state) = true := bne_iff_ne.2 hst
  rcases hkind with hkind | hkind
  · simp [checkUnit, hkind, hex, hne, hold, hraise, disagreed, mismatchNoted]
  · simp [checkUnit, hkind, hex, hne, hold, hraise, disagreed, mismatchNoted]

end

theorem raised_disagreed (u kind detail : Nat) {s t : State} (hflt : t.flt = s.flt) (hconf : t.conf = s.conf) (htime : t.time = s.time) :
    Raised qTWN u kind detail s (disagreed u kind detail t) :=
  raised_of_eq _ _ _ _ s _ (congrArg FltSt.queues hflt) hconf (congrArg TimeSt.frame htime)

/-! ### A block with one unit in PAIRED -/

/-- The state in which the units of block `n` are checked. -/
def blockOpened (n : Nat) (s : State) : State := checksOpened n (blockNoted n s)

theorem blockOpened_eq (n : Nat) (s : State) : ∃ r, blockOpened n s =
    { blockNoted n s with twn := { (blockNoted n s).twn with checked := n + 1, res := r } } := checksOpened_eq ..

section
variable {n : Nat} {p : PeerUnit} {s : State} (hmode : s.twn.mode = 3)
include hmode

theorem mode_blockOpened : (blockOpened n s).twn.mode = 3 := by
  obtain ⟨r, hr⟩ := blockOpened_eq n s
  rw [hr]
  exact hmode

/-- Beside the checks the block is noted. -/
theorem besideChecks_blockChecked : besideChecks s (checkUnit p (blockOpened n s)) =
    { blockNoted n s with twn := { (blockNoted n s).twn with checked := n + 1 } } := by
  obtain ⟨r, hr⟩ := blockOpened_eq n s
  rw [besideChecks_checkUnit (mode_blockOpened hmode), hr]
  rfl

/-- A tracker in the state that its peer shows: what the check leaves (R468). -/
theorem blockChecked_of_margin {m : Int} (hkind : kindOf p.unit = 1) (hex : unitExists s p.unit = true)
    (hm : margin (recOf s p.unit) p = some m) (hst : (unitOf s p.unit).recSt.code = p.state) :
    ∃ t, checkUnit p (blockOpened n s) = t ∧
      twinResOf t p.unit = { present := true, agree := decide (0 ≤ m), margin := some m, neg := decide (m < 0), mismatch := false } ∧
      (0 ≤ m → t.flt = s.flt ∧ t.twn.disagreements = s.twn.disagreements) ∧
      (m < 0 → (twinResOf s p.unit).neg = false → t.twn.disagreements = satInc 16 s.twn.disagreements ∧
        Raised qTWN p.unit 0x90 (unsig 32 (satS 32 m)) s t) := by
  have hold : (twinResOf (blockOpened n s) p.unit).neg = (twinResOf s p.unit).neg :=
    congrArg Prod.fst (raised_checksOpened n (blockNoted n s) p.unit)
  obtain ⟨r, hr⟩ := blockOpened_eq n s
  have hcheck := checkUnit_of_margin (p := p) (mode_blockOpened (n := n) hmode) (m := m) hkind (by rw [hr]; exact hex)
    (by rw [hr]; exact hm) (by rw [hr]; exact hst)
  rw [hold] at hcheck
  have hflt : (marginNoted p.unit m (blockOpened n s)).flt = s.flt := by rw [hr]; rfl
  have hcount : (marginNoted p.unit m (blockOpened n s)).twn.disagreements = s.twn.disagreements := by rw [hr]; rfl
  have hres := twinResOf_modTwinRes p.unit (fun _ =>
    { present := true, agree := decide (0 ≤ m), margin := some m, neg := decide (m < 0), mismatch := false }) (blockOpened n s)
  refine ⟨_, hcheck, ?_, fun hpos => ?_, fun hneg hnew => ?_⟩
  · split
    · exact (twinResOf_disagreed ..).trans hres
    · exact hres
  · rw [if_neg (by omega)]
    exact ⟨hflt, hcount⟩
  · rw [if_pos ⟨hneg, hnew⟩, twn_disagreed, hcount]
    exact ⟨rfl, raised_disagreed _ _ _ hflt (by rw [hr]; rfl) (by rw [hr]; rfl)⟩

/-- A port or generator in another state than its peer: what the check leaves (R469). -/
theorem blockChecked_of_mismatch (hkind : kindOf p.unit = 2 ∨ kindOf p.unit = 4) (hex : unitExists s p.unit = true)
    (hst : (unitOf s p.unit).recSt.code ≠ p.state) (hold : (twinResOf s p.unit).mismatch = false) :
    ∃ t, checkUnit p (blockOpened n s) = t ∧ (twinResOf t p.unit).mismatch = true ∧
      t.twn.disagreements = satInc 16 s.twn.disagreements ∧
      Raised qTWN p.unit 0x91 (p.state % 16 * 16 + (unitOf s p.unit).recSt.code) s t := by
  have hold' : (twinResOf (blockOpened n s) p.unit).mismatch = (twinResOf s p.unit).mismatch :=
    congrArg Prod.snd (raised_checksOpened n (blockNoted n s) p.unit)
  obtain ⟨r, hr⟩ := blockOpened_eq n s
  have hunit : unitOf (blockOpened n s) p.unit = unitOf s p.unit := by rw [hr]; rfl
  have hcheck := checkUnit_of_mismatch (p := p) (mode_blockOpened (n := n) hmode) hkind (by rw [hr]; exact hex)
    (by rwa [hunit]) (hold'.trans hold)
  rw [hunit] at hcheck
  refine ⟨_, hcheck, ?_, ?_, raised_disagreed _ _ _ (by rw [hr]; rfl) (by rw [hr]; rfl) (by rw [hr]; rfl)⟩
  · rw [twinResOf_disagreed, mismatchNoted, twinResOf_modTwinRes]
  · rw [twn_disagreed, hr]
    rfl

end

/-! ### A block that is not there (R475) -/

/-- A missing block counted. -/
def blockMissed (s : State) : State := { s with twn := { s.twn with missing := satInc 16 s.twn.missing, missRun := s.twn.missRun + 1 } }

section
variable {n : Nat} {s : State}

theorem blockDeadline_of_arrived (h : s.twn.peerBlock = n + 1 ∨ s.twn.mode = 0 ∨ s.twn.mode = 4) : blockDeadline n s = s :=
  if_neg (by omega)

/-- The second missing block in a row loses the link. -/
theorem blockDeadline_of_missing (hmode : s.twn.mode = 1 ∨ s.twn.mode = 2 ∨ s.twn.mode = 3) (h : s.twn.peerBlock ≠ n + 1) :
    blockDeadline n s = if s.twn.missRun = 1 then twinLoss (blockMissed s) else blockMissed s :=
  (if_pos ⟨hmode, h⟩).trans (if_congr (Nat.succ_inj (a := s.twn.missRun) (b := 1)) rfl rfl)

end

theorem twinLoss_of_paired {s : State} (h : s.twn.mode = 3) : twinLoss s = { s with twn := { s.twn with lost := true } } := if_pos h

theorem twinLoss_of_pairing {s : State} (h : s.twn.mode = 1 ∨ s.twn.mode = 2) : twinLoss s = twinFailure 3 s := if_neg (by omega)

/-! ### The settings CRC (R470) -/

/-- The peer's CRC noted beside this device's, and whether they differ. -/
def crcCompared (own crc : Word) (diff : Bool) (s : State) : State :=
  { s with twn := { s.twn with setDiff := diff, setCrc := own, peerCrc := crc } }

theorem ownCrc_congr {s t : State} (h : t.inForce = s.inForce) : ownCrc t = ownCrc s := by
  unfold ownCrc inF
  rw [h]

section
variable {crc : Word} {s : State}

/-- In PAIRED a difference that was not there before raises kind 0x97. -/
theorem settingsCrc_of_paired (hmode : s.twn.mode = 3) : settingsCrc crc s =
    if s.twn.setCrc ≠ crc ∧ s.twn.setDiff = false then raiseFault qTWN 0x619 0x97 2 (crcCompared s.twn.setCrc crc (s.twn.setCrc != crc) s)
    else crcCompared s.twn.setCrc crc (s.twn.setCrc != crc) s := by
  by_cases heq : s.twn.setCrc = crc
  · simp [settingsCrc, hmode, heq, crcCompared, modTwn]
  · cases hdiff : s.twn.setDiff with
    | true => simp [settingsCrc, hmode, heq, hdiff, crcCompared, modTwn]
    | false => simp [settingsCrc, hmode, heq, hdiff, crcCompared, modTwn]

/-- In VELVET a difference is a failure with cause 2 (R467). -/
theorem settingsCrc_of_velvet (hmode : s.twn.mode = 2) : settingsCrc crc s =
    if s.twn.setCrc = crc then crcCompared s.twn.setCrc crc (s.twn.setCrc != crc) s else twinFailure 2 (crcCompared s.twn.setCrc crc (s.twn.setCrc != crc) s) := by
  by_cases heq : s.twn.setCrc = crc
  · simp [settingsCrc, hmode, heq, crcCompared, modTwn]
  · simp [settingsCrc, hmode, heq, crcCompared, modTwn]

/-- A joining device answers with its own CRC (log 32). -/
theorem settingsCrc_of_joiner (hmode : s.twn.mode = 1) (hjoin : s.twn.joiner = true) (heq : ownCrc s = crc) :
    settingsCrc crc s = sendCrc (ownCrc s) (crcCompared (ownCrc s) crc false s) := by
  simp [settingsCrc, hmode, hjoin, heq, crcCompared, modTwn]

end

/-- The answer goes out under session 9. Stated for every CRC `own`, so that unification has none to compute. -/
theorem sendCrc_crcCompared (own crc : Word) (diff : Bool) {s : State} (h : twinTalks s = true) :
    ∃ t, sendCrc own (crcCompared own crc diff (twinCounted s)) = t ∧
      t.outbox = s.outbox ++ [.twinCrc { crc := own, tag := twinTag s s.rst.twinRole s.twn.txCount (leBytes 4 own.toNat) }] ∧
      t.twn.failure = s.twn.failure ∧ { t with twn := s.twn, outbox := s.outbox } = s := by
  have htalks : twinTalks (crcCompared own crc diff (twinCounted s)) = true := h
  rw [sendCrc, twinSend_of_talks _ _ htalks]
  unfold twinSent crcCompared twinCounted
  exact ⟨_, rfl, rfl, rfl, rfl⟩

/-! ### Orphaned groups (R476) -/

theorem getLsbD_or_pow (x : BitVec 64) {g k : Nat} (hk : k < 64) :
    (x ||| BitVec.ofNat 64 (2 ^ g)).getLsbD k = (x.getLsbD k || decide (g = k)) := by
  rw [BitVec.getLsbD_or, BitVec.getLsbD_ofNat, Nat.testBit_two_pow, decide_eq_true hk, Bool.true_and]

section
variable {g : Nat} {s : State}

theorem groupOrphan_of_orphan (hmode : s.twn.mode = 3) (hlost : s.twn.lost = true) (hg : g ∈ peerGroups s) :
    groupOrphan g s = { s with twn := { s.twn with orphans := s.twn.orphans ||| BitVec.ofNat 64 (2 ^ g) } } :=
  if_pos ⟨hmode, hlost, hg⟩

theorem groupOrphan_of_other (h : s.twn.mode ≠ 3 ∨ s.twn.lost = false ∨ g ∉ peerGroups s) : groupOrphan g s = s := by
  refine if_neg fun ⟨hmode, hlost, hg⟩ => ?_
  rcases h with h | h | h
  · exact h hmode
  · simp [h] at hlost
  · exact h hg

end

/-! ### Control messages -/

section
variable {s : State}

theorem twinControl_failure (c : Nat) (s : State) : twinControl (.failure c) s = { s with twn := { s.twn with
    failure := if s.twn.mode = 1 ∨ s.twn.mode = 2 then some (s.twn.failure.getD c) else s.twn.failure } } := by
  unfold twinControl
  dsimp only
  split
  · rfl
  · rfl

theorem twinControl_setting {off : Nat} {f sh : Word} (hmode : s.twn.mode = 1) (hjoin : s.twn.joiner = true) (hoff : isRws off = true) :
    twinControl (.setting off f sh) s = setShadow off sh (setInF off f s) := if_pos ⟨hmode, hjoin, hoff⟩

theorem twinControl_items {u st : Nat} {x : TwinItem} (hmode : s.twn.mode = 1) (hjoin : s.twn.joiner = true) :
    twinControl (.items u st x) s = { s with twn := { s.twn with taken := s.twn.taken ++ [(u, st, x)] } } := if_pos ⟨hmode, hjoin⟩

/-- Facts replace what was known of the peer; a peer in PAIRED brings a lost link back (R475). -/
theorem twinControl_facts {md : Nat} {h : BitVec 384} {mp : BitVec 64} {d tw : Bool} {us : List (Nat × Nat)} (hlink : s.twn.linkUp = true) :
    twinControl (.facts md h mp d tw us) s = { s with twn := { s.twn with
      peerMode := md, peerHash := some h, peerMap := mp, peerDormant := d, peerTwinFlag := tw, peerUnits := us
      lost := if md = 3 then false else s.twn.lost, orphans := if md = 3 then 0 else s.twn.orphans } } :=
  twinBack_of_linkUp (s := modTwn (fun t => { t with
    peerMode := md, peerHash := some h, peerMap := mp, peerDormant := d, peerTwinFlag := tw, peerUnits := us }) s) hlink

end

/-- Settles O53: each command through `twinReceive`'s three outcomes (silence, bad tag, good tag) and the rule of the check that the message
carries. -/
theorem twinChecks : Obligations.TwinChecks := by
  refine ⟨fun n tag b s hub => ⟨fun h => ?_, fun h hbad => ?_, fun h htag hframe => ⟨fun h2 h3 => ?_, fun p hmode hp hex => ?_⟩⟩,
    fun n s hub => ⟨fun h => ?_, fun hmode h => ?_, fun hmode h => ?_⟩,
    fun c s hub => ⟨fun h => ?_, fun h htag => ?_, fun h htag => ⟨fun hmode => ?_, fun hmode => ?_, fun hmode hjoin heq => ?_⟩⟩,
    fun g s hub => ⟨fun hmode hlost hg => ?_, fun h => ?_⟩,
    fun s hub => ⟨fun hmode hlost => ?_, fun h => ?_, fun hmode => ?_, fun hmode => ?_, fun hmode => ?_, fun hmode => ?_⟩,
    fun m tag s hub => ⟨fun h => ?_, fun h htag => ?_, fun h htag => ?_⟩⟩
  · rw [exec_twinBlockArrival_of_hubUp hub, twinReceive_of_silence _ h]
  · rw [exec_twinBlockArrival_of_hubUp hub]
    rcases hbad with hbad | hbad
    · rw [twinReceive_of_bad_tag _ h hbad]
      rfl
    · by_cases htag : twinTag s (!s.rst.twinRole) s.twn.rxCount b = tag
      · rw [twinReceive_of_good_tag _ h htag, blockArrival_of_other_frame (s := twinCounted s) hbad]
        rfl
      · rw [twinReceive_of_bad_tag _ h htag]
        rfl
  · rw [exec_twinBlockArrival_of_hubUp hub, twinReceive_of_good_tag _ h htag, blockArrival_of_frame (linkUp_of_twinTalks h) hframe,
      if_neg (by omega)]
    rfl
  · have hbeside := besideChecks_blockChecked (n := n) (p := p) hmode
    rw [exec_twinBlockArrival_of_hubUp hub, twinReceive_of_good_tag _ h htag, blockArrival_of_frame (linkUp_of_twinTalks h) hframe,
      if_pos (.inr hmode), hp]
    refine ⟨checkUnit p (blockOpened n s), rfl, congrArg (fun t => t.twn.peerBlock) hbeside, congrArg (fun t => t.twn.missRun) hbeside,
      (congrArg (fun t => t.twn.mode) hbeside).trans hmode,
      fun hpeer => (congrArg (fun t => t.twn.lost) hbeside).trans (if_pos hpeer),
      congrArg (fun t : State => { t with twn := s.twn }) hbeside, fun m hkind hm hst => ?_, fun hkind hst hnew => ?_⟩
    · obtain ⟨t, ht, hfacts⟩ := blockChecked_of_margin (n := n) hmode hkind hex hm hst
      rw [ht]
      exact hfacts
    · obtain ⟨t, ht, hfacts⟩ := blockChecked_of_mismatch (n := n) hmode hkind hex hst hnew
      rw [ht]
      exact hfacts
  · rw [exec_twinBlockDeadline_of_hubUp hub, blockDeadline_of_arrived h]
  · rw [exec_twinBlockDeadline_of_hubUp hub, blockDeadline_of_missing (.inr (.inr hmode)) h, twinLoss_of_paired (s := blockMissed s) hmode]
    by_cases hrun : s.twn.missRun = 1
    · rw [if_pos hrun]
      exact ⟨_, rfl, rfl, rfl, by simp [hrun], rfl⟩
    · rw [if_neg hrun]
      exact ⟨_, rfl, rfl, rfl, by simp [blockMissed, hrun], rfl⟩
  · rw [exec_twinBlockDeadline_of_hubUp hub, blockDeadline_of_missing (by omega) h, twinLoss_of_pairing (s := blockMissed s) hmode]
    by_cases hrun : s.twn.missRun = 1
    · obtain ⟨k, out, hfailed⟩ := twinFailure_eq (s := blockMissed s) 3 hmode
      rw [if_pos hrun, if_pos hrun, hfailed]
      exact ⟨_, rfl, rfl, rfl, rfl, rfl⟩
    · rw [if_neg hrun, if_neg hrun]
      exact ⟨_, rfl, rfl, rfl, rfl, rfl⟩
  · rw [exec_twinSettingsCrc_of_hubUp hub, twinReceive_of_silence _ h]
  · rw [exec_twinSettingsCrc_of_hubUp hub, twinReceive_of_bad_tag _ h htag]
    rfl
  · rw [exec_twinSettingsCrc_of_hubUp hub, twinReceive_of_good_tag _ h htag, settingsCrc_of_paired (s := twinCounted s) hmode]
    by_cases hnew : s.twn.setCrc ≠ c.crc ∧ s.twn.setDiff = false
    · rw [if_pos (by exact hnew)]
      refine ⟨_, rfl, ?_, ?_, fun _ _ => raised_of_eq _ _ _ _ s _ rfl rfl rfl, fun hold => absurd hnew (by rcases hold with h | h <;> simp [h]), ?_⟩
      · rw [raiseFault_twn]
        rfl
      · rw [raiseFault_twn]
        exact bne_iff_ne
      · exact congrArg (fun t : State => { t with twn := s.twn, flt := s.flt, fm := s.fm }) (raiseFault_frame qTWN 0x619 0x97 2 _)
    · rw [if_neg (by exact hnew)]
      exact ⟨_, rfl, rfl, bne_iff_ne, fun hne hold => absurd ⟨hne, hold⟩ hnew, fun _ => rfl, rfl⟩
  · rw [exec_twinSettingsCrc_of_hubUp hub, twinReceive_of_good_tag _ h htag, settingsCrc_of_velvet (s := twinCounted s) hmode]
    by_cases heq : s.twn.setCrc = c.crc
    · rw [if_pos (by exact heq), if_pos heq]
      exact ⟨_, rfl, rfl, rfl⟩
    · obtain ⟨k, out, hfailed⟩ := twinFailure_eq (s := crcCompared s.twn.setCrc c.crc (s.twn.setCrc != c.crc) (twinCounted s)) 2 (.inr hmode)
      rw [if_neg (by exact heq), if_neg heq]
      exact ⟨_, congrArg Host.Outcome.next hfailed, rfl, rfl⟩
  · have hown : ownCrc (twinCounted s) = ownCrc s := ownCrc_congr rfl
    rw [exec_twinSettingsCrc_of_hubUp hub, twinReceive_of_good_tag _ h htag,
      settingsCrc_of_joiner (s := twinCounted s) hmode hjoin (hown.trans heq), hown]
    obtain ⟨t, ht, hfacts⟩ := sendCrc_crcCompared (ownCrc s) c.crc false h
    exact ⟨t, congrArg _ ht, hfacts⟩
  · rw [exec_groupOrphaned_of_hubUp hub, groupOrphan_of_orphan hmode hlost hg]
    refine ⟨_, rfl, ?_, fun k hk hne => ?_, rfl⟩
    · rw [getLsbD_or_pow _ g.isLt, decide_eq_true rfl, Bool.or_true]
    · rw [getLsbD_or_pow _ hk, decide_eq_false (Ne.symm hne), Bool.or_false]
  · rw [exec_groupOrphaned_of_hubUp hub, groupOrphan_of_other h]
  · exact congrArg Host.Outcome.next (if_pos (by simp [hub, hmode, hlost]))
  · exact congrArg Host.Outcome.next (if_neg (by rcases h with h | h <;> simp [h]))
  · exact congrArg Host.Outcome.next (if_pos (by simp [hub, hmode]))
  · exact congrArg Host.Outcome.next (if_neg (by simp [hmode]))
  · have hexec : exec .pairingTimeout s = .next (twinFailure 5 s) := congrArg Host.Outcome.next (if_pos (by simp [hub, hmode]))
    obtain ⟨k, out, hfailed⟩ := twinFailure_eq (s := s) 5 (.inl hmode)
    rw [hexec]
    refine ⟨_, rfl, ?_, ?_, ?_, ?_⟩
    · rw [hfailed]
    · rw [hfailed]
      exact hmode
    · rw [hfailed]
    · rw [twinFailure_of_pairing 5 (.inl hmode)]
      exact outbox_sendTwin ..
  · exact congrArg Host.Outcome.next (if_neg (by simp [hmode]))
  · rw [exec_twinControlMessage_of_hubUp hub, twinReceive_of_silence _ h]
  · rw [exec_twinControlMessage_of_hubUp hub, twinReceive_of_bad_tag _ h htag]
    rfl
  · rw [exec_twinControlMessage_of_hubUp hub, twinReceive_of_good_tag _ h htag]
    refine ⟨_, rfl, fun f mp hm => ?_, fun f mp hm => ?_, fun f hm => ?_, fun c hm => ?_, fun off f sh hm hmode hjoin hoff => ?_,
      fun u st x hm hmode hjoin => ?_, fun md hash mp d tw us hm => ?_, fun i half hm => ?_, fun tg hm hlevel => ?_⟩
    all_goals subst hm
    · rfl
    · rfl
    · rfl
    · rw [twinControl_failure]
      rfl
    · rw [twinControl_setting (s := twinCounted s) hmode hjoin hoff]
      exact ⟨inF_setInF .., shadowOf_setShadow .., fun o ho => ⟨inF_setInF_ne _ _ _ ho, shadowOf_setShadow_ne _ _ _ ho⟩⟩
    · rw [twinControl_items (s := twinCounted s) hmode hjoin]
      rfl
    · rw [twinControl_facts (s := twinCounted s) (linkUp_of_twinTalks h)]
      exact ⟨rfl, rfl, rfl, rfl, rfl, rfl, fun h => if_pos h, fun h => if_neg h⟩
    · rfl
    · exact cause_assertSources_single _ 0 (s := twinCounted s) hlevel

end Sys2Proof.Proofs
end

section
/-! The herd's token and relayed commands (spec/14 R481 to R486): what raising a fault and counting in the ledger leave of a token's part, the
rules of the token's way through the manager and a worker, and the statement. -/
namespace Sys2Proof.Proofs
open Sys2Proof Sys2Proof.Machine

/-! ### What a device adds to a token -/

theorem beamHashOf_congr {s t : State} (h : t.conf = s.conf) : beamHashOf t = beamHashOf s := by
  unfold beamHashOf
  rw [h]

theorem ownPos_congr {s t : State} (h : t.hrd.position = s.hrd.position) : ownPos t = ownPos s := congrArg (Option.getD · 0) h

theorem treeUnits_congr {s t : State} (hconf : t.conf = s.conf) (hpos : t.hrd.position = s.hrd.position) : treeUnits t = treeUnits s := by
  unfold treeUnits
  rw [hconf, ownPos_congr hpos]

theorem descendants_congr {s t : State} (hconf : t.conf = s.conf) (hpos : t.hrd.position = s.hrd.position) (b : Nat) :
    descendants t b = descendants s b := by
  unfold descendants
  rw [treeUnits_congr hconf hpos]

theorem localTines_congr {s t : State} (hconf : t.conf = s.conf) (hpos : t.hrd.position = s.hrd.position) (b : Nat) :
    localTines t b = localTines s b := by
  unfold localTines isLocal
  rw [descendants_congr hconf hpos, ownPos_congr hpos]

theorem herdSpan_congr_position {s t : State} (hconf : t.conf = s.conf) (hpos : t.hrd.position = s.hrd.position) (b : Nat) :
    herdSpan t b = herdSpan s b := by
  unfold herdSpan
  rw [hconf, descendants_congr hconf hpos]

theorem localBusy_congr {s t : State} (hconf : t.conf = s.conf) (hpos : t.hrd.position = s.hrd.position) (hunits : t.units = s.units) :
    localBusy t = localBusy s := by
  unfold localBusy
  simp only [treeUnits_congr hconf hpos, herdSpan_congr_position hconf hpos, localTines_congr hconf hpos, stOf_of_units hunits]

theorem ownPart_congr {s t : State} (hconf : t.conf = s.conf) (htime : t.time = s.time) (htwn : t.twn = s.twn) (hunits : t.units = s.units)
    (hpos : t.hrd.position = s.hrd.position) (hparts : t.hrd.partials = s.hrd.partials) : ownPart t = ownPart s := by
  unfold ownPart frameN
  rw [ownPos_congr hpos, localBusy_congr hconf hpos hunits, beamHashOf_congr hconf, htime, htwn, hparts]

theorem frameN_of_frame {s : State} {n : Nat} (h : s.time.frame = some n) : frameN s = n := by
  unfold frameN
  rw [h]
  rfl

/-! ### The manager's token -/

/-- The manager's books with a token given up. -/
def lossBooked (s : State) : State :=
  ledDrop 3 1 0x61A (modHrd (fun h => { h with token := none, tokensLost := satInc 16 h.tokensLost, tokenOk := false }) s)

theorem tokenLost_of_none {s : State} (h : s.hrd.token = none) : tokenLost s = s := by
  unfold tokenLost
  rw [h]

theorem tokenLost_of_some {s : State} {f : Nat} (h : s.hrd.token = some f) :
    tokenLost s = raiseFault qHRD 0x61A 0x99 (f % 2 ^ 32) (lossBooked s) := by
  unfold tokenLost
  rw [h]
  rfl

theorem tokenLost_hrd_of_some {s : State} {f : Nat} (h : s.hrd.token = some f) :
    (tokenLost s).hrd = { s.hrd with token := none, tokensLost := satInc 16 s.hrd.tokensLost, tokenOk := false } := by
  rw [tokenLost_of_some h, raiseFault_hrd, lossBooked, ledDrop_hrd, modHrd_hrd]

theorem raised_tokenLost {s : State} {f : Nat} (h : s.hrd.token = some f) : Raised qHRD 0x61A 0x99 (f % 2 ^ 32) s (tokenLost s) := by
  rw [tokenLost_of_some h]
  exact raised_of_eq _ _ _ _ s _ (by simp [lossBooked]) (by simp [lossBooked]) (by simp [lossBooked])

@[simp] theorem tokenLost_time (s : State) : (tokenLost s).time = s.time := by
  unfold tokenLost
  split <;> simp

/-- The manager's state after it has sent the token of frame `n`. -/
def tokenSent (n : Nat) (s : State) : State :=
  emit (.herdToken s.hrd.downOk n (shownStates s) [] (beamHashOf s)) (ledProduce 3 1 (modHrd (fun h => { h with token := some n }) s))

theorem tokenIssue_of_runs {s : State} {n : Nat} (hmgr : s.rst.herdMgr = true) (hruns : herdRuns s = true) (hframe : s.time.frame = some n) :
    tokenIssue s = tokenSent n (tokenLost s) := by
  have hn : frameN (tokenLost s) = n := frameN_of_frame ((congrArg TimeSt.frame (tokenLost_time s)).trans hframe)
  unfold tokenIssue
  rw [if_pos (by simp [hmgr, hruns, hframe])]
  dsimp only
  rw [hn]
  rfl

theorem tokenIssue_of_not_due {s : State} (h : s.rst.herdMgr = false ∨ herdRuns s = false ∨ s.time.frame = none) : tokenIssue s = s := by
  unfold tokenIssue
  exact if_neg (by rcases h with h | h | h <;> simp [h])

theorem tokenRetire_of_other {s : State} {f : Nat} (h : s.hrd.token ≠ some f) (ps : List TokenPart) (dn : Bool) (ns : Nat) :
    tokenRetire f ps dn ns s = s := if_neg h

/-- In line mode a token back from DOWN goes along the UP arm. -/
theorem tokenRetire_of_line {s : State} {f : Nat} (h : s.hrd.token = some f) (hline : s.hrd.line = true) (hup : s.hrd.upOk = true)
    (ps : List TokenPart) (ns : Nat) :
    tokenRetire f ps true ns s = emit (.herdToken false f (shownStates s) ps (beamHashOf s)) s :=
  (if_pos h).trans (if_pos (by simp [hline, hup]))

theorem tokenRetire_of_end {s : State} {f : Nat} {dn : Bool} (h : s.hrd.token = some f)
    (hend : s.hrd.line = false ∨ dn = false ∨ s.hrd.upOk = false) (ps : List TokenPart) (ns : Nat) :
    tokenRetire f ps dn ns s = retireToken f ps ns s :=
  (if_pos h).trans (if_neg (by rcases hend with h | h | h <;> simp [h]))

/-- A retired token leaves the fault unit and the outbox as they were. -/
theorem retireToken_facts (f : Nat) (ps : List TokenPart) (ns : Nat) (s : State) :
    (retireToken f ps ns s).hrd.token = none ∧ (retireToken f ps ns s).hrd.tokenFrame = f ∧ (retireToken f ps ns s).hrd.tourNs = ns ∧
    (retireToken f ps ns s).hrd.tokenOk = true ∧ (retireToken f ps ns s).flt = s.flt ∧ (retireToken f ps ns s).outbox = s.outbox ∧
    (retireToken f ps ns s).hrd.badHash =
      (if s.hrd.firstTour = true then (ps.filter (fun p => p.hash != beamHashOf s)).map (·.pos) else s.hrd.badHash) ∧
    (retireToken f ps ns s).hrd.remoteBusy = ps.any (fun p => !p.idle) := by
  cases h : s.hrd.firstTour
  · simp [retireToken, ledConsume, h]
  · simp [retireToken, ledConsume, h]
    rfl

/-! ### A worker's token -/

/-- The beam hash compared, before the fault of a mismatch. -/
def hashNoted (hash : BitVec 384) (s : State) : State := modHrd (fun h => { h with beamOk := hash == beamHashOf s, firstTour := false }) s

theorem hashCheck_of_good {hash : BitVec 384} {s : State} (h : s.hrd.firstTour = false ∨ hash = beamHashOf s) :
    hashCheck hash s = hashNoted hash s :=
  if_neg (by rcases h with h | h <;> simp [h])

theorem hashCheck_of_bad {hash : BitVec 384} {s : State} (hfirst : s.hrd.firstTour = true) (h : hash ≠ beamHashOf s) :
    hashCheck hash s = raiseFault qHRD 0x61A 0x9D (ownPos s % 16) (hashNoted hash s) :=
  if_pos (by simp [hfirst, h])

theorem hashCheck_hrd (hash : BitVec 384) (s : State) :
    (hashCheck hash s).hrd = { s.hrd with beamOk := hash == beamHashOf s, firstTour := false } := by
  by_cases h : s.hrd.firstTour = false ∨ hash = beamHashOf s
  · rw [hashCheck_of_good h]
    rfl
  · obtain ⟨hfirst, hbad⟩ := not_or.1 h
    rw [hashCheck_of_bad (by simpa using hfirst) hbad, raiseFault_hrd]
    rfl

theorem hashCheck_frame (hash : BitVec 384) (s : State) : { hashCheck hash s with hrd := s.hrd, flt := s.flt, fm := s.fm } = s := by
  by_cases h : s.hrd.firstTour = false ∨ hash = beamHashOf s
  · rw [hashCheck_of_good h]
    rfl
  · obtain ⟨hfirst, hbad⟩ := not_or.1 h
    rw [hashCheck_of_bad (by simpa using hfirst) hbad]
    exact congrArg (fun t : State => { t with hrd := s.hrd }) (raiseFault_frame qHRD 0x61A 0x9D (ownPos s % 16) (hashNoted hash s))

/-- A token of another frame than this device's is kind 0x9B. -/
def frameCheck (f : Nat) (s : State) : State := if f = frameN s then s else raiseFault qHRD 0x61A 0x9B (f % 2 ^ 32) s

theorem frameCheck_hrd (f : Nat) (s : State) : (frameCheck f s).hrd = s.hrd := by
  unfold frameCheck
  split <;> simp

theorem frameCheck_frame (f : Nat) (s : State) : { frameCheck f s with flt := s.flt, fm := s.fm } = s := by
  unfold frameCheck
  split
  · rfl
  · exact raiseFault_frame ..

/-- The states that a token shows, as a device keeps them. -/
def shownBy (states : List (Nat × Nat × Nat)) : List (Nat × UState × Nat) := states.map (fun e => (e.1, UState.ofCode e.2.1, e.2.2))

/-- A token received, before the comparison of its beam hash. -/
def tokenCounted (f : Nat) (states : List (Nat × Nat × Nat)) (s : State) : State :=
  modHrd (fun h => { h with since := 0, shown := shownBy states }) (frameCheck f (ledProduce 3 1 s))

/-- A token received and checked. -/
def tokenChecked (f : Nat) (states : List (Nat × Nat × Nat)) (hash : BitVec 384) (s : State) : State := hashCheck hash (tokenCounted f states s)

section
variable (f : Nat) (states : List (Nat × Nat × Nat)) (hash : BitVec 384) (s : State)

theorem tokenCounted_hrd : (tokenCounted f states s).hrd = { s.hrd with since := 0, shown := shownBy states } := by
  rw [tokenCounted, modHrd_hrd, frameCheck_hrd]
  rfl

theorem tokenCounted_frame : { tokenCounted f states s with hrd := s.hrd, flt := s.flt, fm := s.fm } = s :=
  congrArg (fun t : State => { t with hrd := s.hrd, flt := s.flt, fm := s.fm }) (frameCheck_frame f (ledProduce 3 1 s))

theorem beamHashOf_tokenCounted : beamHashOf (tokenCounted f states s) = beamHashOf s :=
  beamHashOf_congr (congrArg State.conf (tokenCounted_frame f states s) :)

theorem tokenChecked_hrd :
    (tokenChecked f states hash s).hrd =
      { s.hrd with since := 0, shown := shownBy states, beamOk := hash == beamHashOf s, firstTour := false } := by
  rw [tokenChecked, hashCheck_hrd, tokenCounted_hrd, beamHashOf_tokenCounted]

theorem tokenChecked_frame : { tokenChecked f states hash s with hrd := s.hrd, flt := s.flt, fm := s.fm } = s := by
  have hcheck := congrArg (fun t : State => { t with hrd := s.hrd, flt := s.flt, fm := s.fm }) (hashCheck_frame hash (tokenCounted f states s))
  exact hcheck.trans (tokenCounted_frame f states s)

theorem ownPart_tokenChecked : ownPart (tokenChecked f states hash s) = ownPart s := by
  have h := tokenChecked_frame f states hash s
  have hhrd := tokenChecked_hrd f states hash s
  exact ownPart_congr (congrArg State.conf h :) (congrArg State.time h :) (congrArg State.twn h :) (congrArg State.units h :)
    (congrArg HrdSt.position hhrd :) (congrArg HrdSt.partials hhrd :)

theorem passDown_tokenChecked (hop : TokenHop) : passDown hop (tokenChecked f states hash s) = passDown hop s := by
  unfold passDown
  rw [tokenChecked_hrd]

variable {f states hash s}

/-- The comparison of the hash in terms of the state in which the token came. -/
theorem tokenChecked_of_good (h : s.hrd.firstTour = false ∨ hash = beamHashOf s) :
    tokenChecked f states hash s = hashNoted hash (tokenCounted f states s) :=
  hashCheck_of_good (by rwa [tokenCounted_hrd, beamHashOf_tokenCounted])

theorem tokenCounted_of_frame (hframe : f = frameN s) :
    tokenCounted f states s = modHrd (fun h => { h with since := 0, shown := shownBy states }) (ledProduce 3 1 s) := by
  unfold tokenCounted frameCheck
  rw [if_pos (by exact hframe)]

theorem tokenChecked_flt (hframe : f = frameN s) (h : s.hrd.firstTour = false ∨ hash = beamHashOf s) :
    (tokenChecked f states hash s).flt = s.flt := by
  rw [tokenChecked_of_good h, tokenCounted_of_frame hframe]
  rfl

theorem raised_tokenChecked_frame (hframe : f ≠ frameN s) (h : s.hrd.firstTour = false ∨ hash = beamHashOf s) :
    Raised qHRD 0x61A 0x9B (f % 2 ^ 32) s (tokenChecked f states hash s) := by
  have hcheck : frameCheck f (ledProduce 3 1 s) = raiseFault qHRD 0x61A 0x9B (f % 2 ^ 32) (ledProduce 3 1 s) := if_neg hframe
  rw [tokenChecked_of_good h]
  refine raised_of_queue_eq (t := frameCheck f (ledProduce 3 1 s)) ?_ rfl
  rw [hcheck]
  exact raised_of_eq _ _ _ _ s _ rfl rfl rfl

theorem raised_tokenChecked_hash (hframe : f = frameN s) (hfirst : s.hrd.firstTour = true) (h : hash ≠ beamHashOf s) :
    Raised qHRD 0x61A 0x9D (ownPos s % 16) s (tokenChecked f states hash s) := by
  have hpos : ownPos (tokenCounted f states s) = ownPos s := ownPos_congr (congrArg HrdSt.position (tokenCounted_hrd f states s) :)
  rw [tokenChecked, hashCheck_of_bad (by rw [tokenCounted_hrd]; exact hfirst) (by rw [beamHashOf_tokenCounted]; exact h), hpos,
    tokenCounted_of_frame hframe]
  exact raised_of_eq _ _ _ _ s _ rfl rfl rfl
end

/-- A token that a worker passes on. -/
def tokenPassed (f : Nat) (states : List (Nat × Nat × Nat)) (ps : List TokenPart) (hash : BitVec 384) (hop : TokenHop) (s : State) : State :=
  emit (.herdToken (passDown hop s) f states (ps ++ (if (ps.any (fun p => p.uid == ownUid)) = true then [] else [ownPart s])) hash)
    (ledConsume 3 1 (modHrd (fun h => { h with tokenFrame := f, tokenOk := true }) s))

/-- A token that a worker cannot pass on. -/
def tokenDropped (f : Nat) (s : State) : State :=
  raiseFault qHRD 0x61A 0x99 (f % 2 ^ 32)
    (ledDrop 3 1 0x61A (modHrd (fun h => { h with tokensLost := satInc 16 h.tokensLost, tokenOk := false }) s))

section
variable {f : Nat} {states : List (Nat × Nat × Nat)} {ps : List TokenPart} {hash : BitVec 384} {hop : TokenHop} {s : State}

theorem tokenReceive_of_manager (h : s.rst.herdMgr = true) : tokenReceive f states ps hash hop s = s := if_pos h

theorem tokenReceive_of_pass (h : s.rst.herdMgr = false) (hpass : hop.canPass = true) :
    tokenReceive f states ps hash hop s = tokenPassed f states ps hash hop (tokenChecked f states hash s) :=
  (if_neg (by simp [h])).trans (if_pos hpass)

theorem tokenReceive_of_no_pass (h : s.rst.herdMgr = false) (hpass : hop.canPass = false) :
    tokenReceive f states ps hash hop s = tokenDropped f (tokenChecked f states hash s) :=
  (if_neg (by simp [h])).trans (if_neg (by simp [hpass]))
end

section
variable (f : Nat) (states : List (Nat × Nat × Nat)) (ps : List TokenPart) (hash : BitVec 384) (hop : TokenHop) (s : State)

theorem tokenPassed_flt : (tokenPassed f states ps hash hop s).flt = s.flt := rfl

theorem queueOf_tokenPassed (q : Nat) : queueOf (tokenPassed f states ps hash hop s) q = queueOf s q := rfl

theorem tokenPassed_hrd : (tokenPassed f states ps hash hop s).hrd = { s.hrd with tokenFrame := f, tokenOk := true } := rfl
end

/-- The herd link of a worker that has received a token of frame `f` and checked it. -/
def tokenSeen (states : List (Nat × Nat × Nat)) (hash : BitVec 384) (s : State) : HrdSt :=
  { s.hrd with since := 0, shown := shownBy states, beamOk := hash == beamHashOf s, firstTour := false }

section
variable {s : State} {n : Nat} (hn : frameN s = n) (f : Nat) (states : List (Nat × Nat × Nat)) (ps : List TokenPart) (hash : BitVec 384)
  (hop : TokenHop)
include hn

/-- What a worker that passes the token on keeps, sends and raises. -/
theorem tokenPassed_facts : ∀ t, t = tokenPassed f states ps hash hop (tokenChecked f states hash s) →
    t.hrd = { tokenSeen states hash s with tokenFrame := f, tokenOk := true } ∧
    t.outbox = s.outbox ++
      [.herdToken (passDown hop s) f states (ps ++ (if (ps.any (fun p => p.uid == ownUid)) = true then [] else [ownPart s])) hash] ∧
    (f = n → s.hrd.firstTour = false ∨ hash = beamHashOf s → t.flt = s.flt) ∧
    (f ≠ n → s.hrd.firstTour = false ∨ hash = beamHashOf s → Raised qHRD 0x61A 0x9B (f % 2 ^ 32) s t) ∧
    (f = n → s.hrd.firstTour = true → hash ≠ beamHashOf s → Raised qHRD 0x61A 0x9D (ownPos s % 16) s t) := by
  rintro _ rfl
  have hbox : (tokenChecked f states hash s).outbox = s.outbox := (congrArg State.outbox (tokenChecked_frame f states hash s) :)
  have hqueue := queueOf_tokenPassed f states ps hash hop (tokenChecked f states hash s) qHRD
  refine ⟨?_, ?_, fun hf hgood => (tokenPassed_flt ..).trans (tokenChecked_flt (hf.trans hn.symm) hgood),
    fun hf hgood => raised_of_queue_eq (raised_tokenChecked_frame (by rwa [hn]) hgood) hqueue,
    fun hf hfirst hbad => raised_of_queue_eq (raised_tokenChecked_hash (hf.trans hn.symm) hfirst hbad) hqueue⟩
  · rw [tokenPassed_hrd, tokenChecked_hrd]
    rfl
  · unfold tokenPassed
    rw [ownPart_tokenChecked, passDown_tokenChecked]
    exact congrArg (· ++ _) hbox

/-- What a worker that loses the token keeps and raises; the loss is raised whatever the checks before it left, as long as they raised
nothing. -/
theorem tokenDropped_facts : ∀ t, t = tokenDropped f (tokenChecked f states hash s) →
    t.hrd = { tokenSeen states hash s with tokensLost := satInc 16 s.hrd.tokensLost, tokenOk := false } ∧ t.outbox = s.outbox ∧
    (f = n → s.hrd.firstTour = false ∨ hash = beamHashOf s → Raised qHRD 0x61A 0x99 (f % 2 ^ 32) s t) := by
  rintro _ rfl
  have h := tokenChecked_frame f states hash s
  have hbox : (tokenChecked f states hash s).outbox = s.outbox := (congrArg State.outbox h :)
  have hconf : (tokenChecked f states hash s).conf = s.conf := (congrArg State.conf h :)
  have htime : (tokenChecked f states hash s).time = s.time := (congrArg State.time h :)
  unfold tokenDropped tokenSeen
  refine ⟨?_, ?_, fun hf hgood => raised_of_eq _ _ _ _ s _ ?_ ?_ ?_⟩
  · rw [raiseFault_hrd, ledDrop_hrd, modHrd_hrd, tokenChecked_hrd]
  · rw [raiseFault_outbox, ledDrop_outbox, modHrd_outbox, hbox]
  · rw [ledDrop_flt, modHrd_flt, tokenChecked_flt (hf.trans hn.symm) hgood]
  · rw [ledDrop_conf, modHrd_conf, hconf]
  · rw [ledDrop_time, modHrd_time, htime]
end

/-! ### A worker without a token, and an open ring -/

theorem tokenAbsent_of_due {s : State} (hmgr : s.rst.herdMgr = false) (hruns : herdRuns s = true) (hsince : 2 ≤ s.hrd.since) :
    tokenAbsent s = raiseFault qHRD 0x61A 0x99 (frame64 s % 2 ^ 32) (modHrd (fun h => { h with since := 0, tokenOk := false }) s) :=
  if_pos (by simp [hmgr, hruns, hsince])

theorem tokenAbsent_of_not_due {s : State} (h : s.rst.herdMgr = true ∨ herdRuns s = false ∨ s.hrd.since < 2) : tokenAbsent s = s :=
  if_neg (by rcases h with h | h | h <;> simp [h])

theorem ringOpen_hrd (d : Bool) (lost : List Nat) (s : State) :
    (ringOpen d lost s).hrd = { s.hrd with line := true, tour := 2 * (s.hrd.devices - 1), unreached := lost } :=
  raiseFault_hrd ..

theorem raised_ringOpen (d : Bool) (lost : List Nat) (s : State) : Raised qHRD 0x61A 0x98 (if d = true then 1 else 0) s (ringOpen d lost s) := by
  have hflag : flag d 0 = if d = true then 1 else 0 := rfl
  rw [← hflag]
  exact raised_of_eq _ _ _ _ s _ rfl rfl rfl

theorem ringOpen_frame (d : Bool) (lost : List Nat) (s : State) : { ringOpen d lost s with hrd := s.hrd, flt := s.flt, fm := s.fm } = s :=
  congrArg (fun t : State => { t with hrd := s.hrd }) (raiseFault_frame qHRD 0x61A 0x98 (flag d 0) (modHrd _ s))

/-! ### The statement -/

/-- Settles O55: the manager's token and a worker's each by the rule of its case; what a worker adds is read off the state in which the token
came, since the checks before it change neither the configuration nor the units nor the position. -/
theorem herdToken : Obligations.HerdToken := by
  refine ⟨fun u code tg s hup => ⟨fun hspan hmgr => ?_, fun h => ?_⟩,
    fun n s hup hmgr hruns hframe => ⟨fun htok => ?_, fun f htok => ?_⟩,
    fun s hup h => ?_,
    fun s hup hmgr => ⟨fun htok => ?_, fun f htok => ?_, fun f ps dn ns htok hline hdn hopen => ?_, fun f ps dn ns htok hend => ?_,
      fun f ps dn ns htok => ?_⟩,
    fun f n st ps h hop s hup hframe => ⟨fun hmgr => ?_, fun hmgr => ⟨fun hpass => ?_, fun hpass => ?_⟩⟩,
    fun s hup => ⟨fun hmgr hruns hsince => ?_, fun h => ?_⟩,
    fun d lost s hub => ⟨fun hmgr => ?_, fun hmgr => ?_⟩⟩
  · have hrelay : commandRelay u.toNat code tg s = { s with
        hrd := { s.hrd with relays := s.hrd.relays ++ [{ unit := u.toNat, code, target := tg }] }
        outbox := s.outbox ++ [.herdRelay u.toNat code tg] } := if_neg (by simp [hmgr])
    exact congrArg Host.Outcome.next ((if_pos (by simp [hup, hspan])).trans hrelay)
  · refine congrArg Host.Outcome.next ?_
    rcases h with h | h
    · exact if_neg (by simp [h])
    · exact ite_eq_right_iff.2 fun _ => if_pos h
  · refine ⟨tokenSent n s, congrArg Host.Outcome.next ((if_pos hup).trans ?_), rfl, rfl, rfl⟩
    rw [tokenIssue_of_runs hmgr hruns hframe, tokenLost_of_none htok]
  · refine ⟨tokenSent n (tokenLost s), congrArg Host.Outcome.next ((if_pos hup).trans (tokenIssue_of_runs hmgr hruns hframe)), rfl,
      congrArg HrdSt.tokensLost (tokenLost_hrd_of_some htok), raised_of_queue_eq (raised_tokenLost htok) rfl⟩
  · exact congrArg Host.Outcome.next ((if_pos hup).trans (tokenIssue_of_not_due h))
  · exact congrArg Host.Outcome.next ((if_pos (by simp [hup, hmgr])).trans (tokenLost_of_none htok))
  · have hhrd := tokenLost_hrd_of_some htok
    exact ⟨tokenLost s, congrArg Host.Outcome.next (if_pos (by simp [hup, hmgr])), congrArg HrdSt.token hhrd, congrArg HrdSt.tokenOk hhrd,
      congrArg HrdSt.tokensLost hhrd, raised_tokenLost htok⟩
  · subst hdn
    exact congrArg Host.Outcome.next ((if_pos (by simp [hup, hmgr])).trans (tokenRetire_of_line htok hline hopen ps ns))
  · exact ⟨retireToken f ps ns s, congrArg Host.Outcome.next ((if_pos (by simp [hup, hmgr])).trans (tokenRetire_of_end htok hend ps ns)),
      retireToken_facts f ps ns s⟩
  · exact congrArg Host.Outcome.next ((if_pos (by simp [hup, hmgr])).trans (tokenRetire_of_other htok ps dn ns))
  · exact congrArg Host.Outcome.next ((if_pos (by simp [hup, hframe])).trans (tokenReceive_of_manager hmgr))
  · obtain ⟨hhrd, hbox, hfine, hother, hbeam⟩ := tokenPassed_facts (frameN_of_frame hframe) f st ps h hop _ rfl
    exact ⟨tokenPassed f st ps h hop (tokenChecked f st h s),
      congrArg Host.Outcome.next ((if_pos (by simp [hup, hframe])).trans (tokenReceive_of_pass hmgr hpass)), congrArg HrdSt.tokenFrame hhrd,
      congrArg HrdSt.tokenOk hhrd, congrArg HrdSt.since hhrd, congrArg HrdSt.firstTour hhrd, congrArg HrdSt.beamOk hhrd, hbox, hfine,
      hother, hbeam⟩
  · obtain ⟨hhrd, hbox, hlost⟩ := tokenDropped_facts (frameN_of_frame hframe) f st h _ rfl
    exact ⟨tokenDropped f (tokenChecked f st h s),
      congrArg Host.Outcome.next ((if_pos (by simp [hup, hframe])).trans (tokenReceive_of_no_pass hmgr hpass)), congrArg HrdSt.tokenOk hhrd,
      congrArg HrdSt.tokensLost hhrd, (congrArg HrdSt.tokenFrame hhrd :), hbox, hlost⟩
  · refine ⟨_, congrArg Host.Outcome.next ((if_pos hup).trans (tokenAbsent_of_due hmgr hruns hsince)), raiseFault_hrd .., ?_⟩
    exact raised_of_eq _ _ _ _ s _ rfl rfl rfl
  · exact congrArg Host.Outcome.next ((if_pos hup).trans (tokenAbsent_of_not_due h))
  · exact ⟨ringOpen d lost s, congrArg Host.Outcome.next (if_pos (by simp [hub, hmgr])), ringOpen_hrd d lost s, raised_ringOpen d lost s,
      ringOpen_frame d lost s⟩
  · exact congrArg Host.Outcome.next (if_neg (by simp [hmgr]))

end Sys2Proof.Proofs
end

section
/-! What a load leaves of the herd link (spec/02 R65; spec/14 R480, R481): no operation of a load but putting the image in force writes it,
and that empties what the link kept under the image before. One lemma for each operation, in the order of the model; the statement on
enumeration needs it where the enumeration message reaches a worker that has waited for its position. -/
namespace Sys2Proof.Proofs
open Sys2Proof Sys2Proof.Machine

@[simp] theorem ite_hrd (c : Prop) [Decidable c] (s t : State) : (if c then s else t).hrd = if c then s.hrd else t.hrd :=
  apply_ite State.hrd c s t

@[simp] theorem ite_snd_hrd {α : Type} (c : Prop) [Decidable c] (r q : α × State) :
    (if c then r else q).2.hrd = if c then r.2.hrd else q.2.hrd :=
  apply_ite (fun r : α × State => r.2.hrd) c r q

@[simp] theorem doFor_hrd {α : Type} {f : α → State → State} (h : ∀ a s, (f a s).hrd = s.hrd) (l : List α) (s : State) :
    (doFor l f s).hrd = s.hrd :=
  doFor_keeps State.hrd f h l s

@[simp] theorem foldl_snd_hrd {α β : Type} {f : β × State → α → β × State}
    (h : ∀ r a, (f r a).2.hrd = r.2.hrd) (l : List α) (r : β × State) : (l.foldl f r).2.hrd = r.2.hrd := by
  induction l generalizing r with
  | nil => rfl
  | cons a l ih => exact (ih (f r a)).trans (h r a)

/-! ### Memory -/

@[simp] theorem setBytes_hrd (a : Nat) (bs : List Byte) (s : State) : (setBytes a bs s).hrd = s.hrd := by
  induction bs generalizing a s with
  | nil => rfl
  | cons b bs ih => exact (ih (a + 1) (setByte a b s)).trans (setByte_hrd a b s)

@[simp] theorem openTile_hrd (t : Nat) (s : State) : (openTile t s).hrd = s.hrd := (rfl)
@[simp] theorem sealTile_hrd (t : Nat) (s : State) : (sealTile t s).hrd = s.hrd := (rfl)
@[simp] theorem tileFailed_hrd (consumer t : Nat) (s : State) : (tileFailed consumer t s).hrd = s.hrd := by simp [tileFailed]
@[simp] theorem checkTile_hrd (consumer t : Nat) (s : State) : (checkTile consumer t s).2.hrd = s.hrd := by simp [checkTile]

/-! ### The tone requests and the groups -/

@[simp] theorem toneCode_hrd (code chan : Nat) (s : State) : (toneCode code chan s).hrd = s.hrd := by simp [toneCode, toneMail]

@[simp] theorem toneAbort_hrd (g : Nat) (s : State) : (toneAbort g s).hrd = s.hrd := by
  unfold toneAbort
  split <;> simp

@[simp] theorem toneRefuse_hrd (g : Nat) (p : ToneReq → Bool) (s : State) : (toneRefuse g p s).hrd = s.hrd := by simp [toneRefuse]
@[simp] theorem toneDrop_hrd (g : Nat) (s : State) : (toneDrop g s).hrd = s.hrd := by simp [toneDrop]
@[simp] theorem setOwner_hrd (g : Nat) (own : Bool) (s : State) : (setOwner g own s).hrd = s.hrd := by simp [setOwner]

@[simp] theorem xgCtrlChange_hrd (g n : Nat) (v : Word) (s : State) : (xgCtrlChange g n v s).2.hrd = s.hrd := by
  simp [xgCtrlChange, toBursts, toContinuous, loopOff]

/-! ### Records and messages -/

@[simp] theorem copyDrop_hrd (frame c reason : Nat) (s : State) : (copyDrop frame c reason s).hrd = s.hrd := by simp [copyDrop, endCopy]

@[simp] theorem releaseSlot_hrd (frame : Nat) (s : State) : (releaseSlot frame s).hrd = s.hrd := by
  unfold releaseSlot
  split <;> simp

@[simp] theorem forceAll_hrd (s : State) : (forceAll s).hrd = s.hrd := by simp [forceAll]
@[simp] theorem finishMsg_hrd (h : HeldMsg) (frame : Nat) (s : State) : (finishMsg h frame s).hrd = s.hrd := (rfl)
@[simp] theorem discardMsgs_hrd (n : Nat) (s : State) : (discardMsgs n s).hrd = s.hrd := by simp [discardMsgs]

@[simp] theorem discardPages_hrd (s : State) : (discardPages s).hrd = s.hrd := by
  unfold discardPages
  exact doFor_hrd (fun u s => (ledConsume_hrd 0 1 _).trans (modUnit_hrd u _ s)) _ s

@[simp] theorem discardPending_hrd (n : Nat) (s : State) : (discardPending n s).hrd = s.hrd := by
  unfold discardPending
  split <;> simp

/-! ### Tines that become DORMANT -/

@[simp] theorem withdraw_hrd (c : Nat) (s : State) : (withdraw c s).hrd = s.hrd := by
  unfold withdraw
  split
  · rfl
  · exact doFor_hrd (fun k s => modTg_hrd k _ s) _ _

@[simp] theorem cmpWritten_hrd (c : Nat) (ctrl : Bool) (s : State) : (cmpWritten c ctrl s).hrd = s.hrd := by simp [cmpWritten]
@[simp] theorem cmpSourceLeft_hrd (u : Nat) (s : State) : (cmpSourceLeft u s).hrd = s.hrd := by simp [cmpSourceLeft]
@[simp] theorem pulseEnd_hrd (k : Nat) (s : State) : (pulseEnd k s).hrd = s.hrd := by simp [pulseEnd]

@[simp] theorem dormantTine_hrd (u : Nat) (s : State) : (dormantTine u s).hrd = s.hrd := by
  unfold dormantTine
  split <;> simp [trackerStop, pgDormant, auxStop, portDormant, emPrepare, emEmpty, trigCut, groupOff, glStop, engineStop]

@[simp] theorem unitEnter_dormant_hrd (u : Nat) (quick : Bool) (n : Nat) (s : State) : (unitEnter u .dormant quick n s).hrd = s.hrd := by
  simp [unitEnter, putState, auxLeave]

@[simp] theorem allDormant_hrd (n : Nat) (s : State) : (allDormant n s).hrd = s.hrd := by simp [allDormant]

/-! ### A snapshot refined -/

@[simp] theorem snapKeep_hrd (q u kind off : Nat) (mask : Word) (r : List (Nat × Word) × State) :
    (snapKeep q u kind off mask r).2.hrd = r.2.hrd := by simp [snapKeep]

@[simp] theorem snapHold_hrd (off : Nat) (mask : Word) (r : List (Nat × Word) × State) : (snapHold off mask r).2.hrd = r.2.hrd := (rfl)

@[simp] theorem snapKeepAll_hrd (q u kind : Nat) (offs : List Nat) (r : List (Nat × Word) × State) :
    (snapKeepAll q u kind offs r).2.hrd = r.2.hrd := by
  unfold snapKeepAll
  split <;> simp

@[simp] theorem auxSnapChan_hrd (a : Nat) (r : List (Nat × Word) × State) : (auxSnapChan a r).2.hrd = r.2.hrd := by simp [auxSnapChan]

@[simp] theorem auxSnapSlice_hrd (e : Nat) (r : List (Nat × Word) × State) : (auxSnapSlice e r).2.hrd = r.2.hrd := by
  unfold auxSnapSlice
  dsimp only
  (repeat' split) <;> simp

@[simp] theorem auxSnap_hrd (r : List (Nat × Word) × State) : (auxSnap r).2.hrd = r.2.hrd := by simp [auxSnap]
@[simp] theorem trkSnap_hrd (r : List (Nat × Word) × State) : (trkSnap r).2.hrd = r.2.hrd := by simp [trkSnap]
@[simp] theorem jntSnap_hrd (r : List (Nat × Word) × State) : (jntSnap r).2.hrd = r.2.hrd := by simp [jntSnap]
@[simp] theorem incSnap_hrd (r : List (Nat × Word) × State) : (incSnap r).2.hrd = r.2.hrd := by simp [incSnap]
@[simp] theorem motSnapGen_hrd (g : Nat) (r : List (Nat × Word) × State) : (motSnapGen g r).2.hrd = r.2.hrd := by simp [motSnapGen]
@[simp] theorem motSnap_hrd (r : List (Nat × Word) × State) : (motSnap r).2.hrd = r.2.hrd := by simp [motSnap]
@[simp] theorem xgSnap_hrd (n : Nat) (r : List (Nat × Word) × State) : (xgSnap n r).2.hrd = r.2.hrd := by simp [xgSnap]
@[simp] theorem refineSnap_hrd (n : Nat) (snap : List (Nat × Word)) (s : State) : (refineSnap n snap s).2.hrd = s.hrd := by simp [refineSnap]

/-! ### Maps, swaps and motion -/

@[simp] theorem sigmapSync_hrd (c : Nat) (s : State) : (sigmapSync c s).hrd = s.hrd := by
  unfold sigmapSync
  split
  · rfl
  · simp only [doFor_hrd, setBytes_hrd, openTile_hrd, sealTile_hrd, implies_true]

@[simp] theorem mapRefuse_hrd (c n code : Nat) (s : State) : (mapRefuse c n code s).hrd = s.hrd := by simp [mapRefuse]

@[simp] theorem mapAdopt_hrd (c n : Nat) (s : State) : (mapAdopt c n s).hrd = s.hrd := by
  unfold mapAdopt
  dsimp only
  (repeat' split) <;> simp

@[simp] theorem mapDiscard_hrd (c n : Nat) (s : State) : (mapDiscard c n s).hrd = s.hrd := by simp [mapDiscard]
@[simp] theorem mapErase_hrd (c n : Nat) (s : State) : (mapErase c n s).hrd = s.hrd := by simp [mapErase]
@[simp] theorem mapCommand_hrd (c n op : Nat) (s : State) : (mapCommand c n op s).hrd = s.hrd := by simp [mapCommand]

@[simp] theorem glTrackerEvent_hrd (c : Nat) (prepare : Bool) (s : State) : (glTrackerEvent c prepare s).hrd = s.hrd := by
  unfold glTrackerEvent
  exact doFor_hrd (fun l s => modGl_hrd l _ s) _ s

@[simp] theorem mapApply_hrd (c n op : Nat) (s : State) : (mapApply c n op s).hrd = s.hrd := by simp [mapApply]
@[simp] theorem xcalDone_hrd (l k : Nat) (s : State) : (xcalDone l k s).hrd = s.hrd := by simp [xcalDone]

@[simp] theorem xcalCheck_hrd (l : Nat) (s : State) : (xcalCheck l s).hrd = s.hrd := by
  unfold xcalCheck
  split <;> simp

@[simp] theorem engineReload_hrd (e : Nat) (s : State) : (engineReload e s).hrd = s.hrd := (rfl)

@[simp] theorem settleSwap_hrd (e half : Nat) (s : State) : (settleSwap e half s).hrd = s.hrd := by
  unfold settleSwap
  dsimp only
  (repeat' split) <;> simp

@[simp] theorem settleSwaps_hrd (e half : Nat) (s : State) : (settleSwaps e half s).hrd = s.hrd := by simp [settleSwaps]

@[simp] theorem swapBoundary_hrd (e n : Nat) (b : Bool) (s : State) : (swapBoundary e n b s).2.hrd = s.hrd := by
  unfold swapBoundary
  dsimp only
  (repeat' split) <;> simp

@[simp] theorem planMotion_hrd (g : Nat) (f : State → PgSt → PgSt) (s : State) : (planMotion g f s).hrd = s.hrd := by simp [planMotion, raisePg]
@[simp] theorem motApplied_hrd (g : Nat) (tgt vt arm soft : Bool) (s : State) : (motApplied g tgt vt arm soft s).hrd = s.hrd := by simp [motApplied]

/-! ### Settings and regions put in force -/

@[simp] theorem appliedReg_hrd (n off : Nat) (old : Word) (s : State) : (appliedReg n off old s).hrd = s.hrd := by
  simp [appliedReg, auxCtrlApplied, portInvert]

@[simp] theorem putValues_hrd (n : Nat) (reqs : List (Nat × Bool)) (writes : List Nat) (snap : List (Nat × Word)) (s0 : State) :
    (putValues n reqs writes snap s0).2.hrd = s0.hrd := by
  have hset := doFor_hrd (fun e s => setInF_hrd e.1 e.2 s) snap s0
  simp [putValues, hset]

@[simp] theorem applySnap_hrd (n : Nat) (reqs : List (Nat × Bool)) (writes : List Nat) (snap : List (Nat × Word)) (s : State) :
    (applySnap n reqs writes snap s).2.hrd = s.hrd := by simp [applySnap]

@[simp] theorem loadSettings_hrd (n : Nat) (s : State) : (loadSettings n s).hrd = s.hrd := by simp [loadSettings]
@[simp] theorem fillTiles_hrd (first n : Nat) (bs : List (Nat × List Byte)) (s : State) : (fillTiles first n bs s).hrd = s.hrd := by simp [fillTiles]
@[simp] theorem layTiles_hrd (s : State) : (layTiles s).hrd = s.hrd := by simp [layTiles]
@[simp] theorem layRings_hrd (old : List Region) (s : State) : (layRings old s).hrd = s.hrd := by simp [layRings]

@[simp] theorem fillPaths_hrd (s : State) : (fillPaths s).hrd = s.hrd := by
  unfold fillPaths
  split <;> simp

@[simp] theorem fillCoefs_hrd (s : State) : (fillCoefs s).hrd = s.hrd := by
  unfold fillCoefs
  split <;> simp

@[simp] theorem fillMaps_hrd (s : State) : (fillMaps s).hrd = s.hrd := by
  unfold fillMaps
  split <;> simp

@[simp] theorem layoutRegions_hrd (s : State) : (layoutRegions s).hrd = s.hrd := by simp [layoutRegions]

/-! ### The load -/

/-- The herd link once an image is in force: nothing of the image before it stays. -/
def linkLoaded (h : HrdSt) : HrdSt := { h with relays := [], shown := [], badHash := [], remoteBusy := false, firstTour := true }

theorem putInForce_hrd (img : Option Image) (n : Nat) (s : State) : (putInForce img n s).hrd = linkLoaded s.hrd := by
  simp [putInForce, linkLoaded]

@[simp] theorem slotResult_hrd (code : Nat) (detail : Option Nat) (s : State) : (slotResult code detail s).hrd = s.hrd := intSource_hrd ..

@[simp] theorem considerImage_hrd (b : List Byte) (s : State) : (considerImage b s).2.hrd = s.hrd := by
  unfold considerImage
  split <;> simp

@[simp] theorem p6Try_hrd (b : Option (List Byte)) (s : State) : (p6Try b s).2.hrd = s.hrd := by
  cases b with
  | none => rfl
  | some b => exact considerImage_hrd b s

@[simp] theorem floorApply_hrd (s : State) : (floorApply s).hrd = s.hrd := by
  unfold floorApply
  split <;> simp [setFloor]

@[simp] theorem p6Rollback_hrd (s : State) : (p6Rollback s).2.hrd = s.hrd := by
  simp [p6Rollback]

@[simp] theorem p6Force_hrd (img : Option Image) (source : Nat) (s : State) : (p6Force img source s).hrd = linkLoaded s.hrd := by
  rw [p6Force, putInForce_hrd, modSlots_hrd]

theorem p6Load_hrd (s : State) : (p6Load s).hrd = linkLoaded s.hrd := by
  simp [p6Load]

end Sys2Proof.Proofs
end

section
/-! Herd ports and enumeration (spec/14 R478 to R480, R487): the enumeration message at the manager, at a worker by its position, and the
statement. -/
namespace Sys2Proof.Proofs
open Sys2Proof Sys2Proof.Machine

/-! ### A service of the link at a boundary -/

section
variable (code result : Nat) (data : List Byte) (s : State)

theorem svcPublish_hrd : (svcPublish code data s).hrd = s.hrd := intSource_hrd ..

theorem svcAtBoundary_of_waiting (h : s.hst.svc = some code) (hdone : s.hst.svcDone = none) :
    svcAtBoundary code result data s = svcPublish result data s := if_pos ⟨h, hdone⟩

theorem svcAtBoundary_hrd : (svcAtBoundary code result data s).hrd = s.hrd := by
  unfold svcAtBoundary
  split
  · exact svcPublish_hrd ..
  · rfl

theorem svcAtBoundary_flt : (svcAtBoundary code result data s).flt = s.flt := by
  unfold svcAtBoundary
  split
  · exact intSource_flt ..
  · rfl

theorem svcAtBoundary_conf : (svcAtBoundary code result data s).conf = s.conf := by
  unfold svcAtBoundary
  split
  · exact intSource_conf ..
  · rfl

theorem svcAtBoundary_time : (svcAtBoundary code result data s).time = s.time := by
  unfold svcAtBoundary
  split
  · exact intSource_time ..
  · rfl
end

/-! ### The manager -/

/-- The manager's herd link as it sends the enumeration message. -/
def enumStarted (h : HrdSt) : HrdSt :=
  { h with position := some 0, line := !(h.upOk && h.downOk), devices := 1, uids := [ownUid], tour := 0, unreached := [] }

theorem enumerate_eq (s : State) :
    enumerate s = { s with
      hrd := enumStarted s.hrd
      outbox := s.outbox ++ (if s.hrd.downOk = true then [.herdEnum 0 ownUid [ownUid]] else []) } := by
  cases h : s.hrd.downOk
  · simp [enumerate, enumStarted, modHrd, h]
  · simp [enumerate, enumStarted, modHrd, emit, h]

section
variable {s : State} (hfree : s.hst.svc = none)
include hfree

theorem svcHerdEnum_of_worker (h : s.rst.herdMgr = false) : svcHerdEnum s = svcRun 0x48 (some (0xA, [])) s :=
  (svcIfFree_of_free _ hfree).trans (if_pos (by simp [h]))

theorem svcHerdEnum_of_busy (hmgr : s.rst.herdMgr = true) (h : spanBusy s = true) : svcHerdEnum s = svcRun 0x48 (some (7, [])) s :=
  (svcIfFree_of_free _ hfree).trans ((if_neg (by simp [hmgr])).trans (if_pos h))

theorem svcHerdEnum_of_idle (hmgr : s.rst.herdMgr = true) (h : spanBusy s = false) : svcHerdEnum s = svcRun 0x48 none (enumerate s) :=
  (svcIfFree_of_free _ hfree).trans ((if_neg (by simp [hmgr])).trans (if_neg (by simp [h])))
end

/-- The devices counted as the manager's own message comes round. -/
def enumCounted (uids : List (BitVec 64)) (s : State) : State :=
  modHrd (fun h => { h with devices := uids.length, uids := uids.take 16, tour := tourOf h.line uids.length }) s

/-- A herd with two managers has no positions. -/
def enumRefused (s : State) : State := modHrd (fun h => { h with position := none, devices := 0, uids := [], tour := 0 }) s

theorem enumReturn_own (uids : List (BitVec 64)) (s : State) : enumReturn ownUid uids s = svcAtBoundary 0x48 1 [] (enumCounted uids s) :=
  if_pos rfl

theorem enumReturn_other {mgr : BitVec 64} (h : mgr ≠ ownUid) (uids : List (BitVec 64)) (s : State) :
    enumReturn mgr uids s = raiseFault qHRD 0x61A 0x9A 1 (svcAtBoundary 0x48 9 [] (enumRefused s)) := if_neg h

/-! ### A worker -/

/-- The position that the message gives a worker (R479). -/
def enumNext (pos : Nat) (snd : BitVec 64) (s : State) : Nat := if s.twn.linkUp = true ∧ s.twn.peerUid = snd then pos else pos + 1

/-- The message goes on with the position `p`. -/
def enumPassed (p : Nat) (mgr : BitVec 64) (uids : List (BitVec 64)) (s : State) : State := emit (.herdEnum p mgr (uids ++ [ownUid])) s

/-- A worker's link with the position `p`. -/
def enumPlaced (p : Nat) (s : State) : State := modHrd (fun h => { h with position := some p, waiting := false }) s

section
variable {pos : Nat} {snd mgr : BitVec 64} {uids : List (BitVec 64)} {s : State}

theorem enumNext_eq : (if (s.twn.linkUp && s.twn.peerUid == snd) = true then pos else pos + 1) = enumNext pos snd s := by
  simp [enumNext]

theorem enumWorker_of_position {p : Nat} (h : s.hrd.position = some p) :
    enumWorker pos snd mgr uids s =
      enumPassed p mgr uids (if p = enumNext pos snd s then s else raiseFault qHRD 0x61A 0x9A 3 s) := by
  simp only [enumWorker, h, enumNext_eq]
  rfl

theorem enumWorker_of_full (h : s.hrd.position = none) (hnew : 15 < enumNext pos snd s) :
    enumWorker pos snd mgr uids s = enumPassed pos mgr uids (raiseFault qHRD 0x61A 0x9A 2 s) := by
  simp only [enumWorker, h, enumNext_eq, if_pos hnew]
  rfl

theorem enumWorker_of_room (h : s.hrd.position = none) (hnew : enumNext pos snd s ≤ 15) :
    enumWorker pos snd mgr uids s =
      if (s.hrd.waiting && s.rst.loaded) = true then p6Load (enumPassed (enumNext pos snd s) mgr uids (enumPlaced (enumNext pos snd s) s))
      else enumPassed (enumNext pos snd s) mgr uids (enumPlaced (enumNext pos snd s) s) := by
  simp only [enumWorker, h, enumNext_eq, if_neg (Nat.not_lt.2 hnew)]
  rfl

/-- A worker that takes a position keeps it where it loads late. -/
theorem enumWorker_placed (h : s.hrd.position = none) (hnew : enumNext pos snd s ≤ 15) :
    (enumWorker pos snd mgr uids s).hrd.position = some (enumNext pos snd s) ∧ (enumWorker pos snd mgr uids s).hrd.waiting = false := by
  rw [enumWorker_of_room h hnew]
  split
  · rw [p6Load_hrd]
    exact ⟨rfl, rfl⟩
  · exact ⟨rfl, rfl⟩
end

/-! ### The statement -/

section
variable {s : State} (hub : hubUp s = true) (pos : Nat) (snd mgr : BitVec 64) (uids : List (BitVec 64))
include hub

theorem exec_herdEnumMessage_of_manager (hmgr : s.rst.herdMgr = true) :
    exec (.herdEnumMessage pos snd mgr uids) s = .next (enumReturn mgr uids s) :=
  congrArg Host.Outcome.next ((if_pos hub).trans (if_pos hmgr))

theorem exec_herdEnumMessage_of_worker (hmgr : s.rst.herdMgr = false) :
    exec (.herdEnumMessage pos snd mgr uids) s = .next (enumWorker pos snd mgr uids s) :=
  congrArg Host.Outcome.next ((if_pos hub).trans (if_neg (by simp [hmgr])))
end

/-- Settles O54: the service and the message by the rule of their case; a worker that loads as its position comes keeps what the message gave
it, since a load writes neither position nor wait. -/
theorem herdEnumeration : Obligations.HerdEnumeration := by
  refine ⟨fun d ok s hub => ?_, fun s hup hfree => ⟨fun hmgr => ?_, fun hmgr hbusy => ?_, fun hmgr hidle => ?_⟩,
    fun pos snd mgr uids s hub => ⟨fun hmgr hown => ?_, fun hmgr hother => ?_,
      fun hmgr new hnew => ⟨fun hpos hroom => ?_, fun hpos hfull => ?_, fun p hpos => ?_⟩⟩⟩
  · cases d
    all_goals exact congrArg Host.Outcome.next (if_pos hub)
  · exact ⟨_, congrArg Host.Outcome.next ((if_pos hup).trans (svcHerdEnum_of_worker hfree hmgr)), rfl, rfl⟩
  · exact ⟨_, congrArg Host.Outcome.next ((if_pos hup).trans (svcHerdEnum_of_busy hfree hmgr hbusy)), rfl, rfl⟩
  · refine ⟨svcRun 0x48 none (enumerate s), congrArg Host.Outcome.next ((if_pos hup).trans (svcHerdEnum_of_idle hfree hmgr hidle)), ?_⟩
    rw [enumerate_eq]
    exact ⟨rfl, rfl, rfl, rfl, by simp [svcRun, enumStarted], rfl⟩
  · subst hown
    have hhrd := svcAtBoundary_hrd 0x48 1 [] (enumCounted uids s)
    refine ⟨_, (exec_herdEnumMessage_of_manager hub pos snd ownUid uids hmgr).trans (congrArg _ (enumReturn_own uids s)),
      congrArg HrdSt.devices hhrd, congrArg HrdSt.uids hhrd, congrArg HrdSt.tour hhrd, fun hsvc hdone => ?_⟩
    rw [svcAtBoundary_of_waiting _ _ _ _ (by exact hsvc) (by exact hdone)]
    exact ⟨svcPublish_hst_svc .., svcPublish_hst_svcCode ..⟩
  · have hhrd := (raiseFault_hrd qHRD 0x61A 0x9A 1 _).trans (svcAtBoundary_hrd 0x48 9 [] (enumRefused s))
    refine ⟨_, (exec_herdEnumMessage_of_manager hub pos snd mgr uids hmgr).trans (congrArg _ (enumReturn_other hother uids s)),
      raised_of_eq _ _ _ _ s _ ?_ ?_ ?_, congrArg HrdSt.position hhrd, congrArg HrdSt.devices hhrd, fun hsvc hdone => ?_⟩
    · rw [svcAtBoundary_flt]
      rfl
    · rw [svcAtBoundary_conf]
      rfl
    · rw [svcAtBoundary_time]
      rfl
    · rw [svcAtBoundary_of_waiting _ _ _ _ (by exact hsvc) (by exact hdone), raiseFault_hst]
      exact ⟨svcPublish_hst_svc .., svcPublish_hst_svcCode ..⟩
  · have hnext : new = enumNext pos snd s := hnew
    subst hnext
    obtain ⟨hplace, hwait⟩ := enumWorker_placed (mgr := mgr) (uids := uids) hpos hroom
    refine ⟨_, exec_herdEnumMessage_of_worker hub pos snd mgr uids hmgr, hplace, hwait, fun hlate => ?_⟩
    rw [enumWorker_of_room hpos hroom, if_neg (by rcases hlate with h | h <;> simp [h])]
    exact ⟨rfl, rfl⟩
  · have hnext : new = enumNext pos snd s := hnew
    subst hnext
    exact ⟨_, (exec_herdEnumMessage_of_worker hub pos snd mgr uids hmgr).trans (congrArg _ (enumWorker_of_full hpos hfull)),
      raiseFault_hrd .., congrArg (· ++ _) (raiseFault_outbox qHRD 0x61A 0x9A 2 s), raised_of_queue_eq (raised_raiseFault ..) rfl⟩
  · have hnext : new = enumNext pos snd s := hnew
    subst hnext
    refine ⟨_, (exec_herdEnumMessage_of_worker hub pos snd mgr uids hmgr).trans (congrArg _ (enumWorker_of_position hpos)), ?_⟩
    by_cases hsame : p = enumNext pos snd s
    · rw [if_pos hsame]
      exact ⟨rfl, rfl, fun _ => rfl, fun hne => absurd hsame hne⟩
    · rw [if_neg hsame]
      exact ⟨raiseFault_hrd .., congrArg (· ++ _) (raiseFault_outbox qHRD 0x61A 0x9A 3 s), fun h => absurd h hsame,
        fun _ => raised_of_queue_eq (raised_raiseFault ..) rfl⟩

end Sys2Proof.Proofs
end

section
/-! The step; what every command keeps of the queue, the burned fuses, ownership and the floor (spec/15 R502, R503, R510; spec/18 R598). -/
namespace Sys2Proof.Proofs
open Sys2Proof Sys2Proof.Machine Sys2Proof.Laws

/-! ### The step -/

theorem step_of_nil {s : State} (h : s.pending = []) : step s = .next s := by
  rw [step, h]

theorem step_of_cons {c : Instr} {rest : List Instr} {s : State} (h : s.pending = c :: rest) :
    step s = exec c { s with pending := rest } := by
  rw [step, h]

/-- Settles O1: the second arm of `step`. -/
theorem stepRunsFront : Obligations.StepRunsFront := fun _ _ _ => step_of_cons

/-! ### What a command answers -/

/-- The outcome of a command at `s` is a next state in which what grows has only grown. -/
def Grown (s : State) (o : Host.Outcome State Fault Refusal) : Prop := ∃ t, o = .next t ∧ Grows s t

section
variable {c : Prop} [Decidable c] {s t u : State}

theorem grown_next (h : Grows s t) : Grown s (.next t) := ⟨t, rfl, h⟩

theorem grown_if (h : Grows s t) : Grown s (.next (if c then t else s)) := grown_next (grows_ite c s t s h (grows_refl s))

theorem grown_kept (h : kept t = kept s) : Grown s (.next t) := grown_next (grows_of_kept h)

theorem grown_if_kept (h : kept t = kept s) : Grown s (.next (if c then t else s)) := grown_if (grows_of_kept h)

theorem kept_cond (ht : kept t = kept s) (hu : kept u = kept s) : kept (if c then t else u) = kept s := by
  rw [kept_ite, ht, hu, ite_self]

end

/-! ### The operations that only a command names -/

theorem kept_twinReceive {b : List Byte} {tag : BitVec 128} {f : State → State} (hf : ∀ s, kept (f s) = kept s) {s : State} :
    kept (twinReceive b tag f s) = kept s :=
  kept_cond (kept_cond (hf _) rfl) rfl

theorem kept_tempConversion {k : Nat} {reading : Int} {failed : Bool} {s : State} :
    kept (let s' := tempConvert k reading failed s; if failed then s' else thermalTrip k reading s') = kept s :=
  have hs' : kept (tempConvert k reading failed s) = kept s := kept_tempConvert ..
  kept_cond hs' ((kept_thermalTrip ..).trans hs')

theorem grown_tonePhaseEnd (g : Fin 64) (s : State) : Grown s (execTonePhaseEnd g s) := by
  unfold execTonePhaseEnd
  split
  · exact grown_if_kept (kept_modTone ..)
  · exact grown_kept rfl

/-! ### Every command -/

/-- A command leaves alone what only grows (`grown_kept`, `grown_if_kept`), or it is one of the few under which it grows. -/
theorem grown_exec (c : Instr) (s : State) (hc : ∀ x v, c ≠ .jtagDebugAccess (.writeStore x v)) : Grown s (exec c s) := by
  cases c with
  | frameBoundary => exact grown_if (grows_frameStep s)
  | commandCutoff => exact grown_if_kept (kept_cutoff ..)
  | mapAdopt | mapDiscard | mapErase => exact grown_kept (kept_mapApply ..)
  | commit => exact grown_if_kept (kept_commitWrite ..)
  | prepare | start | hold | resume | stop | quickstop | clear | reset => exact grown_if_kept (kept_pageCommand ..)
  | stage => exact grown_if_kept (kept_stageStart ..)
  | stageComplete => exact grown_if_kept (kept_stageComplete ..)
  | switch | revert => exact grown_if_kept (kept_slotSwitch ..)
  | discardStaged => exact grown_if_kept (kept_discardStaged ..)
  | velvetEnd => exact grown_if (grows_velvetEnd _ s)
  | prepareLimitExpiry => exact grown_kept (kept_prepareExpire ..)
  | registerWrite => exact grown_next (grows_ite _ _ _ _ (grows_hostWrite ..) (grows_of_kept (kept_earlyWrite ..)))
  | mailboxRead => exact grown_if_kept (kept_hostRead ..)
  | bankWrite => exact grown_if_kept (kept_bankWrite ..)
  | escAck => exact grown_kept (kept_ackEscalation ..)
  | divergeReport => exact grown_if_kept (kept_divergeReport ..)
  | latchedClear => exact grown_kept (kept_clearLatched ..)
  | firstFaultClear => exact grown_kept (kept_clearFirstFault ..)
  | hbLostClear => exact grown_kept (kept_clearHbLost ..)
  | rstSeenClear => exact grown_if_kept (kept_seenClear ..)
  | ttReq => exact grown_if_kept (kept_toneRequest _ _ (setNow _ s))
  | tonePhaseEnd => exact grown_tonePhaseEnd _ s
  | toneCheckComplete => exact grown_kept (kept_toneComplete ..)
  | toneCheckTimeout => exact grown_kept (kept_toneTimeout ..)
  | captureSample => exact grown_kept (kept_captureSample ..)
  | carrierCycleStart => exact grown_if_kept (kept_cycleStart ..)
  | handoverDriveStart => exact grown_if_kept (kept_handoverDrive ..)
  | burstStart => exact grown_if_kept (kept_burstStart ..)
  | burstEnd => exact grown_if_kept (kept_burstEnd ..)
  | senseCycle => exact grown_if_kept (kept_senseCycle ..)
  | auxSlot => exact grown_if_kept (kept_auxSlotStart ..)
  | auxConversionComplete => exact grown_if_kept (kept_auxComplete ..)
  | sePass => exact grown_kept (kept_sePass ..)
  | slotOverrun => exact grown_if_kept (kept_seOverrun ..)
  | nop => exact grown_kept (kept_opNop ..)
  | movi => exact grown_kept (kept_opMovi ..)
  | sadd => exact grown_kept (kept_opSadd ..)
  | lds => exact grown_kept (kept_withHit (h := kept_opLds _ _) ..)
  | sts => exact grown_kept (kept_opSts ..)
  | ldv => exact grown_kept (kept_withHit (h := kept_opLdv _ _) ..)
  | stv => exact grown_kept (kept_opStv ..)
  | ldc => exact grown_kept (kept_withHit (h := kept_opLdc _ _) ..)
  | cap => exact grown_kept (kept_opCap ..)
  | ctx => exact grown_kept (kept_opCtx ..)
  | mac => exact grown_kept (kept_opMac ..)
  | macm => exact grown_kept (kept_withHit (h := kept_opMacm _ _) ..)
  | hsum => exact grown_kept (kept_opHsum ..)
  | rnd => exact grown_kept (kept_opRnd ..)
  | add => exact grown_kept (kept_opAdd ..)
  | sub => exact grown_kept (kept_opSub ..)
  | abs => exact grown_kept (kept_opAbs ..)
  | mnx => exact grown_kept (kept_opMnx ..)
  | shf => exact grown_kept (kept_opShf ..)
  | cmp => exact grown_kept (kept_opCmp ..)
  | sel => exact grown_kept (kept_opSel ..)
  | bq => exact grown_kept (kept_withHit (h := kept_opBq _ _) ..)
  | sqrt => exact grown_kept (kept_opSqrt ..)
  | out => exact grown_kept (kept_opOut ..)
  | loop => exact grown_kept (kept_opLoop ..)
  | br => exact grown_kept (kept_opBr ..)
  | raise => exact grown_kept (kept_opRaise ..)
  | yield => exact grown_kept (kept_opYield ..)
  | trackerSample => exact grown_kept (kept_trackerStep ..)
  | coastLimit => exact grown_kept (kept_coastLimit ..)
  | trackerExtrapolation => exact grown_if_kept (kept_frameMeasure ..)
  | compareSchedule => exact grown_if_kept (kept_doFor _ _ (fun _ _ => kept_cmpSchedule ..) s)
  | compareFire => exact grown_if_kept (kept_cmpFire ..)
  | triggerPulseStart => exact grown_if_kept (kept_pulseStart ..)
  | triggerPulseEnd => exact grown_kept (kept_pulseEnd ..)
  | generatorSetpoint => exact grown_if_kept (kept_doFor _ _ (fun _ _ => kept_pgFrame ..) s)
  | standstillCurrentReduction => exact grown_if_kept (kept_ssrApply ..)
  | ledgerSnapshot => exact grown_if_kept (kept_ledgerSnapshot ..)
  | recordReady => exact grown_if_kept ((kept_joinCheck _).trans (kept_recordReady _ s))
  | egressWindowOpen => exact grown_if_kept (kept_egressWindow ..)
  | egressForcedEnd => exact grown_if_kept (kept_forcedEnd ..)
  | dmaCopyComplete => exact grown_if_kept (kept_dmaComplete ..)
  | dmaHalt => exact grown_if_kept ((kept_dmaHalt ..).trans (kept_cond (kept_setBme ..) rfl))
  | dmaEnable => exact grown_if_kept (kept_dmaCtrl ..)
  | msixPendingDelivery => exact grown_kept (kept_msixDeliver ..)
  | emulatorEdge => exact grown_if_kept (kept_emEdge _ _ (setNow _ s))
  | portTransitionAccepted => exact grown_if_kept (kept_portTransition ..)
  | switchDebounceChange => exact grown_kept (kept_switchChange ..)
  | chatWindowEnd => exact grown_kept (kept_doFor _ _ kept_chatEnd s)
  | scrubTile => exact grown_if_kept (kept_scrub ..)
  | faultAccept => exact grown_if_kept (kept_acceptCycle _ _ (setNow _ s))
  | countWindowClose => exact grown_kept (kept_closeWindow ..)
  | beamEscalation => exact grown_kept (kept_expireEscalation ..)
  | alarmExit => exact grown_kept (kept_alarmExit _ (setNow _ s))
  | heartbeat => exact grown_kept (kept_heartbeat _ (setNow _ s))
  | heartbeatLost => exact grown_kept (kept_heartbeatLost _ (setNow _ s))
  | tempConversion => exact grown_if_kept kept_tempConversion
  | railSample => exact grown_if_kept (kept_railSample ..)
  | roMeasure => exact grown_if_kept (kept_roMeasure ..)
  | agingMeasure => exact grown_if_kept (kept_agingMeasure ..)
  | odometerTick => exact grown_if_kept (kept_odometerTick ..)
  | rcTrim => exact grown_kept (kept_rcTrim ..)
  | xtalFail => exact grown_kept (kept_xtalFail ..)
  | xtalRecover => exact grown_kept rfl
  | pllLockLost => exact grown_kept (kept_pllLost ..)
  | pllLock => exact grown_if_kept (kept_pllLock ..)
  | refclkLost => exact grown_kept (kept_refLost ..)
  | refclkHoldoverExpiry => exact grown_kept (kept_holdoverExpiry ..)
  | actReqRunning | actReqDozing | actReqAsleep => exact grown_if_kept (kept_actRequest ..)
  | wakeReady => exact grown_kept (kept_wakeReady ..)
  | wakeTimeout => exact grown_kept (kept_wakeTimeout ..)
  | pwrReqFall => exact grown_kept (kept_pwrReqFall ..)
  | wakeSource => exact grown_kept (kept_wakeSource ..)
  | resetSourceAssert => exact grown_kept (kept_assertAll ..)
  | resetSourceRelease => exact grown_kept (kept_sourceRelease ..)
  | tamper => exact grown_kept (kept_tamper ..)
  | bringupPhaseDone => exact grown_next (grows_ite _ _ _ _ (grows_refl s) (grows_trans (grows_of_kept (kept_setNow _ s)) (grows_trans (grows_phaseDone ..) (grows_of_kept (kept_showPins ..)))))
  | clockDeferralTimeout => exact grown_kept (kept_deferralTimeout ..)
  | tineIdle => exact grown_kept (kept_tineIdle ..)
  | idleTimeout => exact grown_kept (kept_idleTimeout ..)
  | rstReqLocal => exact grown_if_kept (kept_reqLocal ..)
  | rstReqTwin => exact grown_if_kept (kept_reqTwin ..)
  | rstReqHerd => exact grown_if_kept (kept_reqHerd ..)
  | wdtCtrlWrite => exact grown_if_kept (kept_wdtCtrl ..)
  | wdtKick => exact grown_if_kept (kept_wdtKick ..)
  | watchdogExpiry => exact grown_if_kept ((kept_assertSources ..).trans (kept_wdtReload s))
  | commandMessage => exact grown_if_kept (kept_commandMessage ..)
  | commandResponse => exact grown_if_kept (kept_sendResponse ..)
  | sessionRequestMessage => exact grown_if_kept (kept_sessionRequest ..)
  | syncMessage => exact grown_if_kept (kept_syncMessage ..)
  | syncTimeout => exact grown_if_kept (kept_syncTimeout ..)
  | backboneLinkChange => exact grown_if_kept (kept_bbLink ..)
  | ctInit => exact grown_if_kept (kept_ctInit ..)
  | i3cViewOffset => exact grown_if_kept (kept_i3cWrite ..)
  | i3cViewRead => exact grown_if_kept (kept_emit ..)
  | i3cResetArm => exact grown_if_kept (kept_cond (kept_i3cConfirm _ _ _ (setNow _ s)) (kept_i3cArm _ _ _ (setNow _ s)))
  | i3cResetConfirm => exact grown_if_kept (kept_i3cConfirm _ _ _ (setNow _ s))
  | entdaa | setdasa | setnewda | rstdaa | setmrl | setmwl | enec | disec => exact grown_if_kept (kept_modI3c ..)
  | getpid | getbcr | getdcr | getmrl | getmwl => exact grown_if_kept (kept_answer ..)
  | getstatus => exact grown_if_kept ((kept_answer ..).trans (kept_drawNat s))
  | rstact => exact grown_if_kept (kept_cond (kept_modI3c _ s) (kept_emit _ s))
  | certGet => exact grown_if_kept (kept_svcCertGet ..)
  | attest => exact grown_if_kept (kept_svcAttest ..)
  | ownBurn => exact grown_if (grows_svcOwnBurn s)
  | slotRevoke => exact grown_if (grows_svcSlotRevoke s)
  | imgkeyLoad => exact grown_if_kept (kept_svcImgkeyLoad ..)
  | imgkeyErase => exact grown_if_kept (kept_svcImgkeyErase ..)
  | floorRaise => exact grown_if (grows_svcFloorRaise s)
  | sessionOpen => exact grown_if_kept (kept_svcSessionOpen ..)
  | sessionClose => exact grown_if_kept (kept_svcSessionClose ..)
  | attach => exact grown_if_kept (kept_svcAttach ..)
  | detach => exact grown_if_kept (kept_svcDetach ..)
  | ownSet => exact grown_if_kept (kept_svcOwnSet ..)
  | herdEnum => exact grown_if_kept (kept_svcHerdEnum ..)
  | serviceComplete => exact grown_if_kept (kept_serviceComplete ..)
  | serviceTimeout => exact grown_if_kept (kept_svcPublish ..)
  | twinLinkUp => exact grown_if_kept (kept_twinLinkUp ..)
  | twinSessionOpen => exact grown_if_kept (kept_twinSession ..)
  | twinLinkDown => exact grown_if_kept (kept_twinLinkDown ..)
  | twinBlockArrival => exact grown_if_kept (kept_twinReceive (kept_blockArrival _ _))
  | twinBlockDeadline => exact grown_if_kept (kept_blockDeadline ..)
  | twinSettingsCrc => exact grown_if_kept (kept_twinReceive (kept_settingsCrc _))
  | groupOrphaned => exact grown_if_kept (kept_groupOrphan ..)
  | lossLimExpiry | twinVelvetEnd => exact grown_if_kept (kept_modTwn ..)
  | pairingTimeout => exact grown_if_kept (kept_twinFailure ..)
  | herdEnumMessage => exact grown_if (grows_ite _ _ _ _ (grows_of_kept (kept_enumReturn ..)) (grows_enumWorker ..))
  | herdPositionWaitExpiry => exact grown_if (grows_positionExpiry s)
  | herdCommandRelay => exact grown_if_kept (kept_commandRelay ..)
  | herdTokenIssue => exact grown_if_kept (kept_tokenIssue ..)
  | herdTokenReceive => exact grown_if_kept (kept_tokenReceive ..)
  | herdTokenRetire => exact grown_if_kept (kept_tokenRetire ..)
  | herdTokenTimeout => exact grown_if_kept (kept_tokenLost ..)
  | herdTokenAbsent => exact grown_if_kept (kept_tokenAbsent ..)
  | herdRingOpen => exact grown_if_kept (kept_ringOpen ..)
  | svtChal | jtagIdcode => exact grown_kept (kept_emit ..)
  | svtUnlock => exact grown_kept (kept_unlock ..)
  | jtagBypass => exact grown_kept (kept_setIr ..)
  | rstFuseProg => exact grown_next (grows_fuseProg ..)
  | refclkReturn => exact grown_kept (kept_refReturn ..)
  | pcieLinkChange => exact grown_if_kept (kept_linkChange ..)
  | herdLinkTrained => exact grown_if_kept (kept_herdTrained ..)
  | twinControlMessage => exact grown_if_kept (kept_twinReceive (kept_twinControl _))
  | grandmasterChange => exact grown_if_kept (kept_gmChange ..)
  | streamGateClosed => exact grown_if_kept (kept_streamGate ..)
  | latentErrorDetection => exact grown_if_kept (kept_raiseFault ..)
  | jtagDebugAccess a => exact grown_next (grows_ite _ _ _ _ (grows_refl s) (grows_debugAccess a s fun x v ha => hc x v (congrArg _ ha)))
  | switchRawTransition => exact grown_kept (kept_switchRaw ..)
  | alarmHalfPeriod => exact grown_kept (kept_alarmToggle _ (setNow _ s))

/-- A debug access of the store may put another copy of the floor there; every other command lets it only grow. -/
theorem growsIn_exec (c : Instr) (s : State) : ∃ t, exec c s = .next t ∧ GrowsIn s t := by
  by_cases hc : ∀ x v, c ≠ .jtagDebugAccess (.writeStore x v)
  · obtain ⟨t, ht, hgrows, -⟩ := grown_exec c s hc
    exact ⟨t, ht, hgrows⟩
  · push Not at hc
    obtain ⟨x, v, rfl⟩ := hc
    refine ⟨_, rfl, ?_⟩
    split
    · exact (grows_refl s).1
    · exact growsIn_debugAccess _ s

/-! ### Every step -/

/-- What grows in a step, the queue aside: `GrowsIn` without its first part. -/
theorem grows_step {s t : State} (h : step s = .next t) :
    FusesKept s t ∧ (OwnInv s → OwnInv t) ∧ (s.sec.burned ≠ 0 → t.rst.fuse = s.rst.fuse ∧ t.rst.pinMap = s.rst.pinMap) ∧
      (FloorStored s → s.sec.floor ≤ t.sec.floor) := by
  cases hp : s.pending with
  | nil =>
    cases (step_of_nil hp).symm.trans h
    exact (grows_refl s).1.2
  | cons c rest =>
    obtain ⟨u, hu, -, hgrows⟩ := growsIn_exec c { s with pending := rest }
    cases ((step_of_cons hp).trans hu).symm.trans h
    exact hgrows

theorem floorStored_step {s t : State} (h : step s = .next t)
    (hfront : ∀ x v, s.pending.head? ≠ some (.jtagDebugAccess (.writeStore x v))) (hstored : FloorStored s) : FloorStored t := by
  cases hp : s.pending with
  | nil =>
    cases (step_of_nil hp).symm.trans h
    exact hstored
  | cons c rest =>
    have hc : ∀ x v, c ≠ .jtagDebugAccess (.writeStore x v) := fun x v hcx => hfront x v (by rw [hp, hcx]; rfl)
    obtain ⟨u, hu, -, hkeeps⟩ := grown_exec c { s with pending := rest } hc
    cases ((step_of_cons hp).trans hu).symm.trans h
    exact hkeeps hstored

/-- Settles O60: every arm of `exec` answers a next state (`growsIn_exec`), and an empty queue idles. -/
theorem commandsKeepTheQueue : Obligations.CommandsKeepTheQueue := by
  refine ⟨fun c s => ?_, fun s => step_of_nil⟩
  obtain ⟨t, ht, hpending, -⟩ := growsIn_exec c s
  exact ⟨t, ht, hpending⟩

/-- Settles O56, by `grows_step`. -/
theorem ownedStaysOwned : Obligations.OwnedStaysOwned := fun _ _ h => (grows_step h).2.1

/-- Settles O57, by `grows_step` and `floorStored_step`. -/
theorem floorNeverFalls : Obligations.FloorNeverFalls := fun _ _ hstored h =>
  ⟨(grows_step h).2.2.2 hstored, fun hfront => floorStored_step h hfront hstored⟩

/-- Settles O58, by `grows_step`. -/
theorem fusesStayBurned : Obligations.FusesStayBurned := fun _ _ h => ⟨(grows_step h).1, (grows_step h).2.2.1⟩

end Sys2Proof.Proofs
end

section
/-! The machine right after reset, and the clears of the collector (spec/16 R534, R538, R541, R547). -/
namespace Sys2Proof.Proofs
open Sys2Proof Sys2Proof.Machine

/-! ### The machine right after reset -/

/-- An infrastructure unit is ACTIVE from reset on; every other unit is DORMANT. -/
theorem stOf_reset (u : Nat) : stOf State.reset u = if isInfra u = true then .active else .dormant := by
  change (unitDef u).st = _
  unfold unitDef
  split <;> rfl

/-- The copies of the floor in the persistent store of a new device hold the floor 0. -/
theorem floorStored_reset : FloorStored State.reset :=
  have hcopy : floorCopy 0 = {} := by
    have hcrc : crc32c [0, 0, 0, 0] = 0x48674BC7 := by decide +kernel
    exact congrArg (fun c => ({ value := 0, crc := c } : FloorCopy)) hcrc
  ⟨hcopy.symm, hcopy.symm⟩

/-- Settles O2: the fields of `State.reset` are the default values, and its tables are empty. -/
theorem resetState : Obligations.ResetState :=
  ⟨rfl, rfl, rfl, rfl, rfl, rfl, rfl, rfl, rfl, rfl, fun _ => ⟨rfl, rfl, rfl⟩,
    fun u hu => (stOf_reset u).trans (if_pos hu), fun u hu => (stOf_reset u).trans (if_neg (by rw [hu]; decide)),
    fun _ => rfl, .inl ⟨rfl, rfl⟩, rfl, floorStored_reset⟩

/-! ### The clears of the collector -/

theorem fsOf_alarmLeave (s : State) (v : Nat) : fsOf (alarmLeave s) v = fsOf s v := by
  unfold fsOf
  rw [alarmLeave_flt_fs]

/-- Where the alarm ends, only its mark and the time of its end change. -/
theorem alarmLeave_frame (s : State) :
    { alarmLeave s with flt := { (alarmLeave s).flt with alarmFree := s.flt.alarmFree, alarmOn := s.flt.alarmOn } } = s := by
  unfold alarmLeave
  split <;> rfl

/-- The same, of an alarm that ends after an update of the collector alone. -/
theorem alarmLeave_frame_of (f : FltSt) (s : State) :
    { alarmLeave { s with flt := f } with flt := { (alarmLeave { s with flt := f }).flt with alarmFree := f.alarmFree, alarmOn := f.alarmOn } } =
      { s with flt := f } :=
  alarmLeave_frame _

theorem exec_latchedClear_of_rest {u : BitVec 12} {s : State} (h : fsActive s u.toNat = false) :
    exec (.latchedClear u) s =
      .next (alarmLeave (modFs u.toNat (fun f => { f with latched := false, maxClass := 0, alarmHeld := false }) s)) :=
  congrArg Host.Outcome.next (if_neg (by rw [h]; decide))

theorem latchedClear_of_rest {u : BitVec 12} {s : State} (h : fsActive s u.toNat = false) :
    ∃ t, exec (.latchedClear u) s = .next t ∧
      fsOf t u.toNat = { fsOf s u.toNat with latched := false, maxClass := 0, alarmHeld := false } ∧
      (∀ v, v ≠ u.toNat → fsOf t v = fsOf s v) ∧
      { t with flt := { t.flt with fs := s.flt.fs, alarmFree := s.flt.alarmFree, alarmOn := s.flt.alarmOn } } = s := by
  refine ⟨_, exec_latchedClear_of_rest h, ?_, fun v hv => ?_, ?_⟩
  · rw [fsOf_alarmLeave, fsOf_modFs]
  · rw [fsOf_alarmLeave, fsOf_modFs_ne _ _ _ hv]
  · exact congrArg (fun t : State => { t with flt := { t.flt with fs := s.flt.fs } }) (alarmLeave_frame_of _ s)

theorem exec_countWindowClose {u : BitVec 12} {e n : Nat} {s : State} (hwindow : (fsOf s u.toNat).window = some e)
    (hframe : s.time.frame = some n) :
    exec (.countWindowClose u) s =
      .next (if n < e then s else modFs u.toNat (fun f => { f with window := none, count := 0, promoted := false }) s) := by
  refine congrArg Host.Outcome.next ?_
  have hopen : windowOpen s u.toNat = decide (n < e) := by
    unfold windowOpen
    rw [hwindow, hframe]
  unfold closeWindow
  rw [hwindow, hopen]
  exact if_congr decide_eq_true_iff rfl rfl

theorem exec_hbLostClear (s : State) :
    exec .hbLostClear s = .next (if s.time.now < s.flt.hbLast + 1000000 then alarmLeave { s with flt := { s.flt with hbLost := false } } else s) :=
  congrArg Host.Outcome.next (if_congr decide_eq_true_iff rfl rfl)

/-- Settles O4, by the clear of each register of the collector. -/
theorem statusClears : Obligations.StatusClears := by
  refine ⟨fun u s => ⟨latchedClear_of_rest, fun h => congrArg Host.Outcome.next (if_pos h)⟩, fun _ => rfl,
    fun u e n s hwindow hframe => ⟨fun hdue => ?_, fun hopen => ?_⟩, fun s => ⟨fun hbeats => ?_, fun hlost => ?_⟩⟩
  · rw [exec_countWindowClose hwindow hframe, if_neg (Nat.not_lt.mpr hdue)]
    exact ⟨_, rfl, fsOf_modFs .., fun v hv => fsOf_modFs_ne _ _ _ hv, rfl⟩
  · rw [exec_countWindowClose hwindow hframe, if_pos hopen]
  · rw [exec_hbLostClear, if_pos hbeats]
    exact ⟨_, rfl, alarmLeave_flt_hbLost _,
      congrArg (fun t : State => { t with flt := { t.flt with hbLost := s.flt.hbLost } }) (alarmLeave_frame_of _ s)⟩
  · rw [exec_hbLostClear, if_neg (Nat.not_lt.mpr hlost)]

end Sys2Proof.Proofs
end

section
/-! What the reset of a slice, the end of a tone request and a dropped copy may change (spec/18 R604; spec/12 R410; spec/13 R437). -/
namespace Sys2Proof.Proofs
open Sys2Proof Sys2Proof.Machine

/-- A state beside what the reset of a slice, a tone request that ends, and a copy that is dropped may change: the blocks of the slices, the
results shown to the host, the ledger, and of the collector its queues and conditions. -/
def besideSlices (s : State) : State :=
  { s with
    outbox := [], xg := [], rc := [], tone := [], toneBox := {}, ax := [], axs := [], se := [], tk := [], rh := [], hst := {}
    fm := { mem := s.fm.mem }, flt := { s.flt with queues := [], drops := 0, conds := [] } }

/-- The reset controller as slices are held: their calibrations and releases end, and no transition waits for their units. -/
def heldRst (m : BitVec 8) (r : RstSt) : RstSt :=
  { r with
    calib := r.calib &&& ~~~m
    pendingClock := r.pendingClock &&& ~~~(m.setWidth 14 <<< 3)
    idle := r.idle.map (fun r => { r with waiting := r.waiting.filter (fun u =>
      match sliceOfUnit u with | some k => !m.getLsbD k | none => true) }) |>.filter (fun r => !r.waiting.isEmpty) }

section
variable (s : State)

@[simp] theorem besideSlices_ledDrop (k n u : Nat) : besideSlices (ledDrop k n u s) = besideSlices s := by
  unfold ledDrop
  split <;> rfl

@[simp] theorem besideSlices_raiseFault (q u kind detail : Nat) : besideSlices (raiseFault q u kind detail s) = besideSlices s := by
  unfold raiseFault queueMsg
  dsimp only
  split <;> rfl

@[simp] theorem besideSlices_sendVector (v : Nat) : besideSlices (sendVector v s) = besideSlices s := by
  unfold sendVector
  split <;> rfl

@[simp] theorem besideSlices_toneCode (code chan : Nat) : besideSlices (toneCode code chan s) = besideSlices s := by
  unfold toneCode toneMail intSource
  dsimp only
  split
  · exact besideSlices_sendVector ..
  · rfl

@[simp] theorem besideSlices_toneAbort (g : Nat) : besideSlices (toneAbort g s) = besideSlices s := by
  unfold toneAbort
  split
  · rfl
  · dsimp only
    split
    · exact besideSlices_toneCode ..
    · rfl

@[simp] theorem besideSlices_toneDrop (g : Nat) : besideSlices (toneDrop g s) = besideSlices s :=
  (doFor_keeps besideSlices _ (fun _ _ => besideSlices_toneCode ..) _ _).trans (besideSlices_toneAbort s g)

@[simp] theorem besideSlices_sliceReset (k : Nat) : besideSlices (sliceReset k s) = besideSlices s :=
  (besideSlices_ledDrop ..).trans (doFor_keeps besideSlices _ (fun _ _ => besideSlices_toneDrop ..) _ s)

theorem holdSlices_eq (m : BitVec 8) :
    holdSlices m s = doFor ((List.range 8).filter (fun k => m.getLsbD k)) sliceReset { s with rst := heldRst m s.rst } := rfl

@[simp] theorem besideSlices_holdSlices (m : BitVec 8) :
    besideSlices (holdSlices m s) = besideSlices { s with rst := heldRst m s.rst } := by
  rw [holdSlices_eq]
  exact doFor_keeps besideSlices _ (fun k t => besideSlices_sliceReset t k) _ _

theorem besideSlices_dropCounted (reason c : Nat) :
    besideSlices { s with fm :=
      if reason = 5 then { s.fm with dropsForced := satInc 8 s.fm.dropsForced }
      else if c = 0 then { s.fm with dropsBb := satInc 8 s.fm.dropsBb }
      else if c = 9 then { s.fm with dropsTwin := satInc 8 s.fm.dropsTwin }
      else { s.fm with dropsDma := satInc 8 s.fm.dropsDma } } = besideSlices s := by
  split_ifs <;> rfl

theorem besideSlices_copyDrop (frame c reason : Nat) : besideSlices (copyDrop frame c reason s) = besideSlices s := by
  unfold copyDrop
  dsimp only
  rw [besideSlices_raiseFault]
  have hdrop := (besideSlices_dropCounted (ledDrop 6 1 0x616 (endCopy frame c s)) reason c).trans (besideSlices_ledDrop ..)
  split
  · exact hdrop
  · exact hdrop

@[simp] theorem besideSlices_dmaForced : besideSlices (dmaForced s) = besideSlices s :=
  doFor_keeps besideSlices _ (fun _ _ => doFor_keeps besideSlices _ (fun _ _ => besideSlices_copyDrop ..) _ _) _ _

end

end Sys2Proof.Proofs
end

section
/-! What a reset source that asserts alone changes, level by level (spec/18 R596, R602, R604). -/
namespace Sys2Proof.Proofs
open Sys2Proof Sys2Proof.Machine Sys2Proof.Laws

/-! ### The pins and the alarm change no more than the outputs and the alarm -/

theorem showPins_frame (trig : State → Nat → PinLevel) (s0 s : State) : { showPins trig s0 s with outbox := s.outbox } = s := by
  unfold showPins
  split <;> rfl

theorem alarmEnter_frame (s : State) : { alarmEnter s with outbox := s.outbox, flt := s.flt } = s := by
  unfold alarmEnter sendIbi
  dsimp only
  split_ifs <;> rfl

@[simp] theorem showPins_flt (trig : State → Nat → PinLevel) (s0 s : State) : (showPins trig s0 s).flt = s.flt :=
  (congrArg State.flt (showPins_frame trig s0 s) :)

theorem alarm_alarmEnter {s : State} (h : alarmDue s = true) : (alarmEnter s).flt.alarm = true := by
  unfold alarmEnter
  rw [if_pos h]
  dsimp only
  split
  · assumption
  · unfold sendIbi
    split <;> rfl

theorem alarmDue_of_phase {s : State} (h : s.rst.phase < 7) : alarmDue s = true := by
  unfold alarmDue
  simp [h]

/-! ### One source that asserts -/

/-- The state in which a source's effect begins: a source of levels L0 to L3 holds from now on. -/
def entered (r : SourceReq) (s : State) : State :=
  { s with rst := { s.rst with sources := s.rst.sources ++ if sourceLevel s r.code ≤ 3 then [r] else [] } }

/-- The cause record that the source leaves (spec/18 R604). -/
def caused (r : SourceReq) (detail : Nat) (s t : State) : State :=
  { t with rst := { t.rst with
      causeSrc := r.code, causeLevel := sourceLevel s r.code, causeDetail := detail
      causeFrame := match s.time.frame with | some n => n % 2 ^ 32 | none => 0
      seen := t.rst.seen ||| seenBit r.code } }

theorem sourceLevel_congr {s t : State} (h : t.rst.fuseIn = s.rst.fuseIn) (code : Nat) : sourceLevel t code = sourceLevel s code := by
  unfold sourceLevel
  rw [h]

section
variable {s : State} {r : SourceReq} (detail : Nat)

theorem assertSources_of_disabled (h : sourceLevel s r.code = 5) : assertSources [r] detail s = s := by
  simp [assertSources, h, topSource]

theorem causeOf_singleton (s : State) (r : SourceReq) : (causeOf s [r]).getD r = r := by
  by_cases hr : r.code = 2
  · simp [causeOf, hr]
  · simp [causeOf, hr, topSource]

variable (h : sourceLevel s r.code < 5)
include h

theorem assertSources_single :
    assertSources [r] detail s = alarmEnter (showPins trigPin s (caused r detail s (sourceEffect r (entered r s)))) := by
  have hon : [r].filter (fun r => decide (sourceLevel s r.code < 5)) = [r] := by simp [h]
  have hheld : [r].filter (fun r => decide (sourceLevel s r.code ≤ 3)) = if sourceLevel s r.code ≤ 3 then [r] else [] := by
    by_cases h3 : sourceLevel s r.code ≤ 3 <;> simp [h3]
  unfold assertSources
  dsimp only
  rw [hon]
  simp only [topSource, hheld, causeOf_singleton, doFor_cons, doFor_nil, List.foldl_cons, List.foldl_nil]
  rfl

/-- Beside the outputs and the alarm, the state is that after the source's effect with the cause recorded. -/
theorem assertSources_frame :
    { assertSources [r] detail s with outbox := [], flt := {} } =
      { caused r detail s (sourceEffect r (entered r s)) with outbox := [], flt := {} } := by
  rw [assertSources_single detail h]
  have halarm := congrArg (fun t : State => { t with outbox := [], flt := {} })
    (alarmEnter_frame (showPins trigPin s (caused r detail s (sourceEffect r (entered r s)))))
  exact halarm.trans (congrArg (fun t : State => { t with outbox := [], flt := {} }) (showPins_frame trigPin s _))

theorem rst_assertSources : (assertSources [r] detail s).rst = (caused r detail s (sourceEffect r (entered r s))).rst :=
  (congrArg State.rst (assertSources_frame detail h) :)

/-- What neither the record of the cause nor the pins and the alarm change is as the source's effect leaves it. -/
theorem assertSources_keeps {β : Type} (p : State → β) (hp : ∀ t u : State, { t with outbox := [], flt := {} } = { caused r detail s u with outbox := [], flt := {} } → p t = p u) :
    p (assertSources [r] detail s) = p (sourceEffect r (entered r s)) :=
  hp _ _ (assertSources_frame detail h)

theorem heldBack_assertSources : (assertSources [r] detail s).flt.heldBack = (sourceEffect r (entered r s)).flt.heldBack := by
  rw [assertSources_single detail h, alarmEnter_flt_heldBack, showPins_flt]
  rfl

theorem alarm_assertSources (hphase : (sourceEffect r (entered r s)).rst.phase < 7) : (assertSources [r] detail s).flt.alarm = true := by
  rw [assertSources_single detail h]
  refine alarm_alarmEnter (alarmDue_of_phase ?_)
  rw [rst_showPins]
  exact hphase

end

/-! ### The resets of the hub, the chip and the device -/

@[simp] theorem besideSlices_dropQueued (s : State) : besideSlices (dropQueued s) = besideSlices s := by
  have hconsume (k n : Nat) (t : State) : besideSlices (ledConsume k n t) = besideSlices t := rfl
  have hdrops {α : Type} (l : List α) (k : Nat) (n u : α → Nat) (t : State) :
      besideSlices (doFor l (fun e => ledDrop k (n e) (u e)) t) = besideSlices t :=
    doFor_keeps besideSlices _ (fun _ _ => besideSlices_ledDrop ..) l t
  simp only [dropQueued, besideSlices_ledDrop, hdrops, hconsume]

/-- What every reset of the whole device leaves: the image in ACTIVE, the maps, and what is kept by parameter id. -/
def survives (s : State) : Option (List Byte) × List (Nat × Option MapEntry) × List (Nat × Option KeepEnt) := (s.slots.active, s.maps, s.keep)

/-- What a reset of the chip or of the hub leaves as well: the last tamper event, and the kinds held back until P7. -/
def survivesChip (s : State) : Nat × List (Nat × Nat × Nat) := (s.sec.tamperCause, s.flt.heldBack)

section
variable (s : State)

theorem survives_hubReset : survives (hubReset s) = survives s := (congrArg survives (besideSlices_dropQueued s) :)

theorem survivesChip_hubReset : survivesChip (hubReset s) = survivesChip s := (congrArg survivesChip (besideSlices_dropQueued s) :)

theorem mem_hubReset : (hubReset s).fm.mem = s.fm.mem := (congrArg (fun t : State => t.fm.mem) (besideSlices_dropQueued s) :)

theorem rst_hubReset :
    (hubReset s).rst = { s.rst with wdtLeft := 0x3E8, wdtAt := s.time.now, idle := [], calib := 0, pendingClock := 0 } :=
  (congrArg (fun t : State => { t.rst with wdtLeft := 0x3E8, wdtAt := t.time.now, idle := [], calib := 0, pendingClock := 0 })
    (besideSlices_dropQueued s) :)

/-- The reset of the hub, by L2, of the chip, by L1, and of the whole device, by L0. -/
def levelReset (l : Nat) (s : State) : State := if l = 0 then coldReset s else if l = 1 then chipReset s else hubReset s

theorem survives_chipReset : survives (chipReset s) = survives s := by
  rw [← survives_hubReset s, survives, survives]
  rfl

theorem survives_coldReset : survives (coldReset s) = survives s := by
  rw [← survives_chipReset s, survives, survives]
  rfl

theorem survives_levelReset (l : Nat) : survives (levelReset l s) = survives s := by
  unfold levelReset
  split_ifs
  · exact survives_coldReset s
  · exact survives_chipReset s
  · exact survives_hubReset s

theorem conf_levelReset (l : Nat) : (levelReset l s).conf = none := by
  unfold levelReset
  split_ifs <;> rfl

theorem survivesChip_levelReset {l : Nat} (hl : l ≠ 0) : survivesChip (levelReset l s) = survivesChip s := by
  unfold levelReset
  rw [if_neg hl]
  split <;> exact survivesChip_hubReset s

theorem memByte_levelReset {l : Nat} (hl : l ≤ 1) (a : Nat) : memByte (levelReset l s) a = 0 := by
  unfold levelReset
  split_ifs
  · rfl
  · rfl
  · omega

/-- The phase to which a level's reset returns bring-up: at most the present one. -/
theorem phase_levelReset {l : Nat} (hl : l ≠ 0) : (levelReset l s).rst.phase = s.rst.phase := by
  unfold levelReset
  rw [if_neg hl]
  split <;> exact (congrArg RstSt.phase (rst_hubReset s) :)

theorem seen_levelReset (l : Nat) : (levelReset l s).rst.seen = if l = 0 then 0 else s.rst.seen := by
  unfold levelReset
  split_ifs
  · rfl
  · exact (congrArg RstSt.seen (rst_hubReset s) :)
  · exact (congrArg RstSt.seen (rst_hubReset s) :)

theorem sources_levelReset (l : Nat) : (levelReset l s).rst.sources = s.rst.sources := by
  unfold levelReset
  split_ifs <;> exact (congrArg RstSt.sources (rst_hubReset s) :)

end

/-! ### The hold of the device by levels L0 to L2 -/

section
variable {s : State} {l : Nat}

theorem holdDevice_eq (l : Nat) (s : State) :
    holdDevice l s =
      { levelReset l s with rst := { (levelReset l s).rst with
        phase := min (levelReset l s).rst.phase (levelPhase l)
        wait := if levelPhase l ≤ (levelReset l s).rst.phase then true else (levelReset l s).rst.wait
        phaseFail := if l ≤ 1 then false else (levelReset l s).rst.phaseFail
        fails := if l ≤ 1 then 0 else (levelReset l s).rst.fails } } := rfl

theorem survives_holdDevice : survives (holdDevice l s) = survives s := by
  rw [← survives_levelReset s l, holdDevice_eq, survives, survives]

theorem phase_holdDevice (hp : levelPhase l ≤ s.rst.phase) : (holdDevice l s).rst.phase = levelPhase l := by
  rw [holdDevice_eq]
  by_cases hl : l = 0
  · subst hl
    exact Nat.min_zero _
  · exact (congrArg (min · (levelPhase l)) (phase_levelReset s hl)).trans (min_eq_right hp)

theorem wait_holdDevice (hp : levelPhase l ≤ s.rst.phase) : (holdDevice l s).rst.wait = true := by
  rw [holdDevice_eq]
  by_cases hl : l = 0
  · subst hl
    rfl
  · exact if_pos (hp.trans (phase_levelReset s hl).ge)

end

section
variable {s : State} {r : SourceReq} (detail : Nat)

theorem sourceLevel_entered (code : Nat) : sourceLevel (entered r s) code = sourceLevel s code := sourceLevel_congr rfl code

theorem sourceEffect_of_hold (h : sourceLevel s r.code ≤ 2) : sourceEffect r (entered r s) = holdDevice (sourceLevel s r.code) (entered r s) := by
  unfold sourceEffect
  simp [sourceLevel_entered, h]

section
variable (h : sourceLevel s r.code ≤ 2)
include h

theorem rst_assertSources_hold :
    (assertSources [r] detail s).rst = (caused r detail s (holdDevice (sourceLevel s r.code) (entered r s))).rst := by
  rw [rst_assertSources detail (by omega), sourceEffect_of_hold h]

theorem assertSources_hold_keeps {β : Type} (p : State → β)
    (hp : ∀ t u : State, { t with outbox := [], flt := {} } = { caused r detail s u with outbox := [], flt := {} } → p t = p u) :
    p (assertSources [r] detail s) = p (holdDevice (sourceLevel s r.code) (entered r s)) := by
  rw [assertSources_keeps detail (by omega) p hp, sourceEffect_of_hold h]

theorem survives_assertSources : survives (assertSources [r] detail s) = survives s :=
  (assertSources_hold_keeps detail h survives fun _ _ hf => (congrArg survives hf :)).trans survives_holdDevice

theorem conf_assertSources_hold : (assertSources [r] detail s).conf = none :=
  (assertSources_hold_keeps detail h State.conf fun _ _ hf => (congrArg State.conf hf :)).trans (conf_levelReset ..)

/-- The sources seen, and after L0 no other. -/
theorem seen_assertSources_hold :
    (assertSources [r] detail s).rst.seen = (if sourceLevel s r.code = 0 then 0 else s.rst.seen) ||| seenBit r.code := by
  rw [rst_assertSources_hold detail h]
  exact congrArg (· ||| seenBit r.code) (seen_levelReset (entered r s) _)

theorem sources_assertSources_hold : (assertSources [r] detail s).rst.sources = s.rst.sources ++ [r] := by
  rw [rst_assertSources_hold detail h]
  refine (sources_levelReset (entered r s) _).trans ?_
  rw [entered, if_pos (by omega)]

/-- After L0 and L1 every byte of frame memory reads 0 (the model's choice, log 5). -/
theorem memByte_assertSources_chip (h1 : sourceLevel s r.code ≤ 1) (a : Nat) : memByte (assertSources [r] detail s) a = 0 :=
  (assertSources_hold_keeps detail h (fun t => memByte t a) fun _ _ hf => (congrArg (fun t => memByte t a) hf :)).trans
    (memByte_levelReset _ h1 a)

/-- A reset of the chip or of the hub leaves the last tamper event and the kinds held back. -/
theorem survivesChip_assertSources (h0 : sourceLevel s r.code ≠ 0) : survivesChip (assertSources [r] detail s) = survivesChip s := by
  have hheld := heldBack_assertSources detail (by omega : sourceLevel s r.code < 5)
  rw [sourceEffect_of_hold h] at hheld
  have htamper := assertSources_hold_keeps detail h (fun t => t.sec.tamperCause) fun _ _ hf => (congrArg (fun t : State => t.sec.tamperCause) hf :)
  exact (Prod.ext htamper hheld).trans (survivesChip_levelReset (entered r s) h0)

end

/-- A source of L0 to L2 that asserts: bring-up returns to its level's phase and waits there, the alarm state is shown, and the cause is
recorded. -/
theorem assertSources_hold (h : sourceLevel s r.code ≤ 2) (hp : levelPhase (sourceLevel s r.code) ≤ s.rst.phase) :
    (assertSources [r] detail s).rst.causeSrc = r.code ∧ (assertSources [r] detail s).rst.causeLevel = sourceLevel s r.code ∧
    (assertSources [r] detail s).rst.causeDetail = detail ∧
    (assertSources [r] detail s).rst.phase = levelPhase (sourceLevel s r.code) ∧ (assertSources [r] detail s).rst.wait = true ∧
    (assertSources [r] detail s).flt.alarm = true := by
  have hphase : (holdDevice (sourceLevel s r.code) (entered r s)).rst.phase = levelPhase (sourceLevel s r.code) := phase_holdDevice hp
  rw [rst_assertSources_hold detail h]
  refine ⟨rfl, rfl, rfl, hphase, wait_holdDevice (s := entered r s) hp, alarm_assertSources detail (by omega) ?_⟩
  rw [sourceEffect_of_hold h, hphase]
  unfold levelPhase
  generalize sourceLevel s r.code = l at h
  interval_cases l <;> decide

end

end Sys2Proof.Proofs
end

section
/-! Reset sources: their assertion, their release and the tamper detectors (spec/18 R596 to R604; spec/13 R455; spec/15 R518). -/
namespace Sys2Proof.Proofs
open Sys2Proof Sys2Proof.Machine Sys2Proof.Laws

/-! ### Levels L3 and L4 -/

section
variable {s : State} {r : SourceReq} (detail : Nat)

theorem sourceEffect_of_slices (h : sourceLevel s r.code = 3) : sourceEffect r (entered r s) = holdSlices (sliceMask r) (entered r s) := by
  unfold sourceEffect
  simp [sourceLevel_entered, h]

theorem sourceEffect_of_unit (h : sourceLevel s r.code = 4) :
    sourceEffect r (entered r s) = modUnit (if r.code ≤ 0x14 then 0xFFF else r.target) (fun x => { x with resetDue := true }) (entered r s) := by
  unfold sourceEffect
  simp [sourceLevel_entered, h]

/-- A source of L3 holds slices and leaves the rest of the device. -/
theorem assertSources_slices (h : sourceLevel s r.code = 3) :
    (assertSources [r] detail s).rst.causeSrc = r.code ∧ (assertSources [r] detail s).rst.causeLevel = 3 ∧
    (assertSources [r] detail s).rst.phase = s.rst.phase ∧ (assertSources [r] detail s).conf = s.conf ∧
    (assertSources [r] detail s).fm.mem = s.fm.mem ∧ (assertSources [r] detail s).units = s.units ∧
    (assertSources [r] detail s).slots = s.slots ∧ (assertSources [r] detail s).maps = s.maps ∧
    (assertSources [r] detail s).rst.sources = s.rst.sources ++ [r] := by
  have h5 : sourceLevel s r.code < 5 := by omega
  have hheld := besideSlices_holdSlices (entered r s) (sliceMask r)
  have hrst := rst_assertSources detail h5
  have hframe := assertSources_frame detail h5
  rw [sourceEffect_of_slices h] at hrst hframe
  rw [hrst]
  generalize holdSlices (sliceMask r) (entered r s) = u at hheld hframe
  have hurst : u.rst = heldRst (sliceMask r) (entered r s).rst := (congrArg State.rst hheld :)
  refine ⟨rfl, h, (congrArg RstSt.phase hurst :), (congrArg State.conf hframe :).trans (congrArg State.conf hheld :),
    (congrArg (fun t : State => t.fm.mem) hframe :).trans (congrArg (fun t : State => t.fm.mem) hheld :),
    (congrArg State.units hframe :).trans (congrArg State.units hheld :), (congrArg State.slots hframe :).trans (congrArg State.slots hheld :),
    (congrArg State.maps hframe :).trans (congrArg State.maps hheld :), (congrArg RstSt.sources hurst :).trans ?_⟩
  rw [heldRst, entered, if_pos (by omega)]

/-- A source of L4 marks its unit for the next boundary. -/
theorem assertSources_unit (h : sourceLevel s r.code = 4) :
    (assertSources [r] detail s).rst.causeSrc = r.code ∧ (assertSources [r] detail s).rst.causeLevel = 4 ∧
    (assertSources [r] detail s).rst.sources = s.rst.sources ∧
    (unitOf (assertSources [r] detail s) (if r.code ≤ 0x14 then 0xFFF else r.target)).resetDue = true ∧
    (∀ u, u ≠ (if r.code ≤ 0x14 then 0xFFF else r.target) → unitOf (assertSources [r] detail s) u = unitOf s u) ∧
    (assertSources [r] detail s).fm.mem = s.fm.mem ∧ (assertSources [r] detail s).conf = s.conf := by
  have h5 : sourceLevel s r.code < 5 := by omega
  have hrst := rst_assertSources detail h5
  have hframe := assertSources_frame detail h5
  rw [sourceEffect_of_unit h] at hrst hframe
  have hunit (u : Nat) : unitOf (assertSources [r] detail s) u =
      unitOf (modUnit (if r.code ≤ 0x14 then 0xFFF else r.target) (fun x => { x with resetDue := true }) (entered r s)) u :=
    unitOf_congr (congrArg State.units hframe :) u
  rw [hrst]
  refine ⟨rfl, h, ?_, ?_, fun u hu => ?_, (congrArg (fun t : State => t.fm.mem) hframe :), (congrArg State.conf hframe :)⟩
  · change s.rst.sources ++ (if sourceLevel s r.code ≤ 3 then [r] else []) = _
    rw [if_neg (by omega), List.append_nil]
  · rw [hunit]
    exact congrArg UnitSt.resetDue (unitOf_modUnit ..)
  · rw [hunit]
    exact unitOf_modUnit_ne _ _ _ hu

end

/-! ### Sources that assert in the order of the host -/

/-- Hot reset, source 0x12, first ends the copies in progress (spec/13 R455). -/
def hotReset (c : Nat) (s : State) : State := if c = 0x12 then dmaForced s else s

section
variable (c tg : Nat) (s : State)

@[simp] theorem besideSlices_hotReset : besideSlices (hotReset c s) = besideSlices s := by
  unfold hotReset
  split
  · exact besideSlices_dmaForced s
  · rfl

@[simp] theorem rst_hotReset : (hotReset c s).rst = s.rst := (congrArg State.rst (besideSlices_hotReset c s) :)

theorem assertAll_of_other {c : Nat} (h : c ≠ 2) :
    assertAll [{ code := c, target := tg }] s = assertSources [{ code := c, target := tg }] 0 (hotReset c s) := by
  by_cases hc : c = 0x12 <;> simp [assertAll, hotReset, hc, h]

theorem assertAll_of_tamper :
    assertAll [{ code := 2, target := tg }] s = assertSources [{ code := 2, target := tg }] (tg % 16) (tamperNote (tg % 16) s) := rfl

end

/-- Whichever sources assert, the reset controller is as it was when their effect begins. -/
theorem assertAll_eq (srcs : List SourceReq) (s : State) : ∃ d u, assertAll srcs s = assertSources srcs d u ∧ u.rst = s.rst := by
  have hforced : (if srcs.any (fun r => r.code == 0x12) then dmaForced s else s).rst = s.rst := by
    split
    · exact (congrArg State.rst (besideSlices_dmaForced s) :)
    · rfl
  unfold assertAll
  dsimp only
  split
  · exact ⟨_, _, rfl, hforced⟩
  · exact ⟨_, _, rfl, hforced⟩

/-- Of two sources the cause is the one of the higher reach, but a tamper event beside it (the model's choice beside L0, log 41). -/
theorem cause_assertSources_pair {a b : SourceReq} (detail : Nat) {s : State} (hlt : sourceLevel s a.code < sourceLevel s b.code)
    (hb : sourceLevel s b.code < 5) :
    (assertSources [b, a] detail s).rst.causeLevel = sourceLevel s a.code ∧
      (assertSources [b, a] detail s).rst.causeSrc = if b.code = 2 then 2 else a.code := by
  have hon : [b, a].filter (fun r => decide (sourceLevel s r.code < 5)) = [b, a] := by simp [hb, hlt.trans hb]
  have htop : topSource s [b, a] = some a := by
    have hother : ¬ (sourceLevel s b.code < sourceLevel s a.code ∨ sourceLevel s b.code = sourceLevel s a.code ∧ b.code ≤ a.code) := by omega
    simp only [topSource, if_neg hother]
  have hcause : ((causeOf s [b, a]).getD a).code = if b.code = 2 then 2 else a.code := by
    by_cases hb2 : b.code = 2
    · simp [causeOf, hb2]
    · by_cases ha2 : a.code = 2
      · simp [causeOf, hb2, ha2]
      · simp [causeOf, hb2, ha2, htop]
  unfold assertSources
  dsimp only
  rw [hon, htop]
  dsimp only
  rw [alarmEnter_rst, rst_showPins]
  exact ⟨rfl, hcause⟩

/-! ### The release of a source -/

/-- A state beside what the release of slices may change. -/
def besideRelease (s : State) : State := { besideSlices s with units := [], rst := { s.rst with calib := 0, pendingClock := 0 } }

section
variable (s : State)

theorem besideRelease_startSlice (k : Nat) : besideRelease (startSlice k s) = besideRelease s :=
  (congrArg (fun t : State => { t with units := [], rst := { t.rst with calib := 0, pendingClock := 0 } }) (besideSlices_sliceReset s k) :)

theorem besideRelease_releaseSlices (m : BitVec 8) : besideRelease (releaseSlices m s) = besideRelease s :=
  doFor_keeps besideRelease _ (fun k t => by
    dsimp only
    split
    · exact besideRelease_startSlice t k
    · rfl) _ _

end

theorem phaseHeld_congr {s t : State} (hsources : t.rst.sources = s.rst.sources) (hfuse : t.rst.fuseIn = s.rst.fuseIn) (p : Nat) :
    phaseHeld t p = phaseHeld s p := by
  have hlevel : sourceLevel t = sourceLevel s := funext (sourceLevel_congr hfuse)
  unfold phaseHeld
  rw [hsources, hlevel]

theorem phaseHeld_alarmLeave (s : State) (p : Nat) : phaseHeld (alarmLeave s) p = phaseHeld s p :=
  phaseHeld_congr (congrArg RstSt.sources (alarmLeave_rst s)) (congrArg RstSt.fuseIn (alarmLeave_rst s)) p

/-- The release of a source removes it, and bring-up waits on while another source holds its phase. -/
theorem sourceRelease_keeps (c : Nat) (s : State) :
    (sourceRelease c s).rst.sources = s.rst.sources.filter (fun x => x.code != c) ∧ (sourceRelease c s).rst.phase = s.rst.phase ∧
    (sourceRelease c s).rst.wait = (s.rst.wait && phaseHeld (sourceRelease c s) s.rst.phase) ∧ (sourceRelease c s).conf = s.conf ∧
    (sourceRelease c s).fm.mem = s.fm.mem ∧ (sourceRelease c s).sec = s.sec := by
  have hrelease (m : BitVec 8) (b : Bool) (t : State) : besideRelease (if b then releaseSlices m t else t) = besideRelease t := by
    split
    · exact besideRelease_releaseSlices t m
    · rfl
  unfold sourceRelease
  dsimp only
  have hu := hrelease (heldSlices s &&& ~~~heldSlices (modRst (fun r => { r with sources := r.sources.filter (fun x => x.code != c) }) s))
    (deviceUp s) (modRst (fun r => { r with sources := r.sources.filter (fun x => x.code != c) }) s)
  generalize (if deviceUp s = true then _ else _ : State) = u at hu ⊢
  have hsources : u.rst.sources = s.rst.sources.filter (fun x => x.code != c) := (congrArg (fun t : State => t.rst.sources) hu :)
  have hphase : u.rst.phase = s.rst.phase := (congrArg (fun t : State => t.rst.phase) hu :)
  have hwait : u.rst.wait = s.rst.wait := (congrArg (fun t : State => t.rst.wait) hu :)
  rw [alarmLeave_rst, alarmLeave_conf, alarmLeave_fm, alarmLeave_sec]
  refine ⟨hsources, hphase, ?_, (congrArg State.conf hu :), (congrArg (fun t : State => t.fm.mem) hu :), (congrArg State.sec hu :)⟩
  rw [phaseHeld_alarmLeave, ← hphase, ← hwait]
  rfl

/-! ### The statement on the reset sources -/

section
variable {c : Nat} (tg : Nat) {s : State}

theorem sourceLevel_hotReset (code : Nat) : sourceLevel (hotReset c s) code = sourceLevel s code :=
  sourceLevel_congr (congrArg RstSt.fuseIn (rst_hotReset c s)) code

/-- The state in which the effect of source `c` begins, and the cause's detail. -/
theorem assertAll_single : ∃ d u, assertAll [{ code := c, target := tg }] s = assertSources [{ code := c, target := tg }] d u ∧
    u.rst = s.rst ∧ survives u = survives s ∧ d = (if c = 2 then tg % 16 else 0) ∧
    u.sec.tamperCause = (if c = 2 then tg % 16 else s.sec.tamperCause) ∧
    u.flt.heldBack = s.flt.heldBack ++ (if c = 2 then [(0x615, 0xA8, tg % 16)] else []) ∧ (c ≠ 2 → besideSlices u = besideSlices s) := by
  by_cases hc : c = 2
  · subst hc
    exact ⟨_, _, assertAll_of_tamper tg s, rfl, rfl, rfl, rfl, rfl, fun h => absurd rfl h⟩
  · have hu := besideSlices_hotReset c s
    simp only [if_neg hc, List.append_nil]
    exact ⟨0, _, assertAll_of_other tg s hc, rst_hotReset c s, (congrArg survives hu :), rfl,
      (congrArg (fun t : State => t.sec.tamperCause) hu :), (congrArg (fun t : State => t.flt.heldBack) hu :), fun _ => hu⟩

end

section
variable (c tg : Nat) (s : State)

/-- A source of L0 returns the whole device to P0. -/
theorem assertAll_cold (h : sourceLevel s c = 0) :
    ∃ t, exec (.resetSourceAssert [{ code := c, target := tg }]) s = .next t ∧
      t.rst.causeSrc = c ∧ t.rst.causeLevel = 0 ∧ t.rst.phase = 0 ∧ t.rst.wait = true ∧ t.flt.alarm = true ∧ t.conf = none ∧
      t.rst.seen = seenBit c ∧ (∀ a, memByte t a = 0) ∧ t.slots.active = s.slots.active ∧ t.sec.burned = s.sec.burned ∧ t.rst.fuse = s.rst.fuse := by
  obtain ⟨d, u, ht, hrst, hsurvives, -⟩ := assertAll_single tg (c := c) (s := s)
  have hl : sourceLevel u c = 0 := (sourceLevel_congr (congrArg RstSt.fuseIn hrst) c).trans h
  have h2 : sourceLevel u (⟨c, tg⟩ : SourceReq).code ≤ 2 := hl.trans_le (Nat.zero_le 2)
  obtain ⟨hsrc, hlevel, -, hphase, hwait, halarm⟩ := assertSources_hold d h2 (by rw [hl]; exact Nat.zero_le _)
  have hseen := seen_assertSources_hold d h2
  have hactive := (congrArg Prod.fst ((survives_assertSources d h2).trans hsurvives) :)
  have hkept := kept_assertAll [⟨c, tg⟩] s
  rw [hl] at hlevel hphase hseen
  refine ⟨_, rfl, ?_⟩
  rw [ht] at hkept ⊢
  exact ⟨hsrc, hlevel, hphase, hwait, halarm, conf_assertSources_hold d h2, hseen.trans (BitVec.zero_or ..),
    memByte_assertSources_chip d h2 (hl.trans_le (Nat.zero_le 1)), hactive, (congrArg (fun x => x.2.1) hkept :),
    (congrArg (fun x => x.2.2.2.2.2.2.1) hkept :)⟩

/-- A source of L1 returns the chip to P1. -/
theorem assertAll_chip (h : sourceLevel s c = 1) (hp : 1 ≤ s.rst.phase) :
    ∃ t, exec (.resetSourceAssert [{ code := c, target := tg }]) s = .next t ∧
      t.rst.causeSrc = c ∧ t.rst.causeLevel = 1 ∧ t.rst.phase = 1 ∧ t.rst.wait = true ∧ t.flt.alarm = true ∧ t.conf = none ∧
      t.rst.seen = s.rst.seen ||| seenBit c ∧ (∀ a, memByte t a = 0) ∧ t.slots.active = s.slots.active ∧
      t.rst.causeDetail = (if c = 2 then tg % 16 else 0) ∧ t.sec.tamperCause = (if c = 2 then tg % 16 else s.sec.tamperCause) ∧
      t.flt.heldBack = s.flt.heldBack ++ (if c = 2 then [(0x615, 0xA8, tg % 16)] else []) := by
  obtain ⟨d, u, ht, hrst, hsurvives, hd, htamper, hheld, -⟩ := assertAll_single tg (c := c) (s := s)
  have hl : sourceLevel u c = 1 := (sourceLevel_congr (congrArg RstSt.fuseIn hrst) c).trans h
  have h2 : sourceLevel u (⟨c, tg⟩ : SourceReq).code ≤ 2 := hl.trans_le (by decide)
  obtain ⟨hsrc, hlevel, hdetail, hphase, hwait, halarm⟩ := assertSources_hold d h2 (by rw [hl, hrst]; exact hp)
  have hseen := seen_assertSources_hold d h2
  have hactive := (congrArg Prod.fst ((survives_assertSources d h2).trans hsurvives) :)
  have hchip := survivesChip_assertSources d h2 (by rw [hl]; decide)
  rw [hl] at hlevel hphase hseen
  refine ⟨_, rfl, ?_⟩
  rw [ht]
  exact ⟨hsrc, hlevel, hphase, hwait, halarm, conf_assertSources_hold d h2, hseen.trans (congrArg (fun r => r.seen ||| seenBit c) hrst),
    memByte_assertSources_chip d h2 hl.le, hactive, hdetail.trans hd, (congrArg Prod.fst hchip).trans htamper,
    (congrArg Prod.snd hchip).trans hheld⟩

/-- A source of L2 returns the hub to P4. -/
theorem assertAll_hub (h : sourceLevel s c = 2) (hp : 4 ≤ s.rst.phase) :
    ∃ t, exec (.resetSourceAssert [{ code := c, target := tg }]) s = .next t ∧
      t.rst.causeSrc = c ∧ t.rst.causeLevel = 2 ∧ t.rst.phase = 4 ∧ t.rst.wait = true ∧ t.flt.alarm = true ∧ t.conf = none ∧
      t.rst.sources = s.rst.sources ++ [{ code := c, target := tg }] ∧ t.rst.seen = s.rst.seen ||| seenBit c ∧
      t.slots.active = s.slots.active ∧ t.fm.mem = s.fm.mem ∧ t.maps = s.maps := by
  obtain ⟨d, u, ht, hrst, hsurvives, -, -, -, hbeside⟩ := assertAll_single tg (c := c) (s := s)
  have hl : sourceLevel u c = 2 := (sourceLevel_congr (congrArg RstSt.fuseIn hrst) c).trans h
  have hc : c ≠ 2 := by
    rintro rfl
    exact absurd h (by simp [sourceLevel])
  have h2 : sourceLevel u (⟨c, tg⟩ : SourceReq).code ≤ 2 := hl.le
  obtain ⟨hsrc, hlevel, -, hphase, hwait, halarm⟩ := assertSources_hold d h2 (by rw [hl, hrst]; exact hp)
  have hseen := seen_assertSources_hold d h2
  have hsources := sources_assertSources_hold d h2
  have hkeeps := (survives_assertSources d h2).trans hsurvives
  have hmem := assertSources_hold_keeps d h2 (fun t => t.fm.mem) fun _ _ hf => (congrArg (fun t : State => t.fm.mem) hf :)
  rw [hl] at hlevel hphase hseen
  refine ⟨_, rfl, ?_⟩
  rw [ht]
  refine ⟨hsrc, hlevel, hphase, hwait, halarm, conf_assertSources_hold d h2, hsources.trans (congrArg (fun r => r.sources ++ [_]) hrst),
    hseen.trans (congrArg (fun r => r.seen ||| seenBit c) hrst), (congrArg Prod.fst hkeeps :), hmem.trans ?_, (congrArg (fun x => x.2.1) hkeeps :)⟩
  rw [hl]
  exact (mem_hubReset _).trans (congrArg (fun t : State => t.fm.mem) (hbeside hc) :)

theorem assertAll_slices (h : sourceLevel s c = 3) :
    ∃ t, exec (.resetSourceAssert [{ code := c, target := tg }]) s = .next t ∧
      t.rst.causeSrc = c ∧ t.rst.causeLevel = 3 ∧ t.rst.phase = s.rst.phase ∧ t.conf = s.conf ∧ t.fm.mem = s.fm.mem ∧ t.units = s.units ∧
      t.slots = s.slots ∧ t.maps = s.maps ∧ t.rst.sources = s.rst.sources ++ [{ code := c, target := tg }] := by
  have hc : c ≠ 2 := by
    rintro rfl
    exact absurd h (by simp [sourceLevel])
  have hu := besideSlices_hotReset c s
  have hrst := rst_hotReset c s
  obtain ⟨hsrc, hlevel, hphase, hconf, hmem, hunits, hslots, hmaps, hsources⟩ :=
    assertSources_slices (r := ⟨c, tg⟩) 0 ((sourceLevel_hotReset (c := c) c).trans h)
  refine ⟨_, rfl, ?_⟩
  rw [assertAll_of_other tg s hc]
  exact ⟨hsrc, hlevel, hphase.trans (congrArg RstSt.phase hrst), hconf.trans (congrArg State.conf hu :),
    hmem.trans (congrArg (fun t : State => t.fm.mem) hu :), hunits.trans (congrArg State.units hu :), hslots.trans (congrArg State.slots hu :),
    hmaps.trans (congrArg State.maps hu :), hsources.trans (congrArg (fun r => r.sources ++ [_]) hrst)⟩

theorem assertAll_unit (h : sourceLevel s c = 4) :
    ∃ t, exec (.resetSourceAssert [{ code := c, target := tg }]) s = .next t ∧
      t.rst.causeSrc = c ∧ t.rst.causeLevel = 4 ∧ t.rst.sources = s.rst.sources ∧
      (unitOf t (if c ≤ 0x14 then 0xFFF else tg)).resetDue = true ∧
      (∀ u, u ≠ (if c ≤ 0x14 then 0xFFF else tg) → unitOf t u = unitOf s u) ∧ t.fm.mem = s.fm.mem ∧ t.conf = s.conf := by
  have hc : c ≠ 2 := by
    rintro rfl
    exact absurd h (by simp [sourceLevel])
  have hu := besideSlices_hotReset c s
  have hrst := rst_hotReset c s
  obtain ⟨hsrc, hlevel, hsources, hdue, hother, hmem, hconf⟩ :=
    assertSources_unit (r := ⟨c, tg⟩) 0 ((sourceLevel_hotReset (c := c) c).trans h)
  refine ⟨_, rfl, ?_⟩
  rw [assertAll_of_other tg s hc]
  exact ⟨hsrc, hlevel, hsources.trans (congrArg RstSt.sources hrst), hdue,
    fun v hv => (hother v hv).trans (unitOf_congr (congrArg State.units hu :) v), hmem.trans (congrArg (fun t : State => t.fm.mem) hu :),
    hconf.trans (congrArg State.conf hu :)⟩

theorem assertAll_disabled (h : sourceLevel s c = 5) :
    exec (.resetSourceAssert [{ code := c, target := tg }]) s = .next (if c = 0x12 then dmaForced s else s) := by
  have hc : c ≠ 2 := by
    rintro rfl
    exact absurd h (by simp [sourceLevel])
  refine congrArg Host.Outcome.next ((assertAll_of_other tg s hc).trans ?_)
  exact assertSources_of_disabled 0 ((sourceLevel_hotReset (c := c) c).trans h)

/-- A tamper event resets at L1, and its detector is kept and shown. -/
theorem tamper_event {d : Nat} (h : d ≠ 0) (hp : 1 ≤ s.rst.phase) :
    (tamper d s).sec.tamperCause = d ∧ (tamper d s).rst.causeSrc = 2 ∧ (tamper d s).rst.causeLevel = 1 ∧
      (tamper d s).rst.causeDetail = d ∧ (tamper d s).rst.phase = 1 ∧ (tamper d s).rst.wait = true ∧ (tamper d s).flt.alarm = true ∧
      (tamper d s).sec.dbgUnlocked = false ∧ (tamper d s).flt.heldBack = s.flt.heldBack ++ [(0x615, 0xA8, d)] ∧
      (tamper d s).sec.burned = s.sec.burned ∧ (tamper d s).slots.active = s.slots.active := by
  have hkept := kept_tamper d s
  have h2 : sourceLevel (tamperNote d s) (⟨2, 0⟩ : SourceReq).code ≤ 2 := Nat.le_succ 1
  obtain ⟨hsrc, hlevel, hdetail, hphase, hwait, halarm⟩ := assertSources_hold d h2 hp
  have hchip := survivesChip_assertSources d h2 Nat.one_ne_zero
  have hlocked := assertSources_hold_keeps d h2 (fun t => t.sec.dbgUnlocked) fun _ _ hf => (congrArg (fun t : State => t.sec.dbgUnlocked) hf :)
  have hkeeps := survives_assertSources d h2
  rw [tamper, if_neg h] at hkept ⊢
  exact ⟨congrArg Prod.fst hchip, hsrc, hlevel, hdetail, hphase, hwait, halarm, hlocked, congrArg Prod.snd hchip,
    (congrArg (fun x => x.2.1) hkept :), (congrArg Prod.fst hkeeps :)⟩

end

/-- Settles O45, by the level of the source that asserts. -/
theorem resetSources : Obligations.ResetSources := by
  refine ⟨fun c tg s => ⟨assertAll_cold c tg s, assertAll_chip c tg s, assertAll_hub c tg s, assertAll_slices c tg s, assertAll_unit c tg s,
    assertAll_disabled c tg s⟩, fun a b ta tb s hlt hb => ?_, fun c s => ⟨_, rfl, sourceRelease_keeps c s⟩,
    fun d s => ⟨fun h => congrArg Host.Outcome.next (if_pos h), fun h hp => ⟨_, rfl, tamper_event s h hp⟩⟩⟩
  obtain ⟨d, u, ht, hrst⟩ := assertAll_eq [⟨b, tb⟩, ⟨a, ta⟩] s
  have hlevel (code : Nat) : sourceLevel u code = sourceLevel s code := sourceLevel_congr (congrArg RstSt.fuseIn hrst) code
  obtain ⟨hcause, hsrc⟩ := cause_assertSources_pair (a := ⟨a, ta⟩) (b := ⟨b, tb⟩) d (s := u) (by rw [hlevel, hlevel]; exact hlt)
    (by rw [hlevel]; exact hb)
  refine ⟨_, rfl, ?_⟩
  rw [ht]
  exact ⟨hcause.trans (hlevel a), hsrc⟩

end Sys2Proof.Proofs
end

section
/-! Reset requests by their destination, and the watchdog (spec/18 R600, R601, R618, R619). -/
namespace Sys2Proof.Proofs
open Sys2Proof Sys2Proof.Machine

/-! ### Reset requests -/

section
variable {v : Word} {a b : Bool} {s : State}

/-- A refused request is kind 0x04 and no more. -/
theorem reqRefused_effect {c : Instr} {code : Nat} (h : exec c s = .next (reqRefused code s)) :
    ∃ t, exec c s = .next t ∧ Raised qRST 0x611 0x04 code s t ∧ { t with flt := s.flt, fm := s.fm } = s :=
  ⟨_, h, raised_raiseFault .., raiseFault_frame ..⟩

variable (hup : deviceUp s = true)
include hup

theorem exec_rstReqLocal_of_deviceUp : exec (.rstReqLocal v) s = .next (reqLocal v s) := congrArg Host.Outcome.next (if_pos hup)
theorem exec_rstReqTwin_of_deviceUp : exec (.rstReqTwin v a) s = .next (reqTwin v a s) := congrArg Host.Outcome.next (if_pos hup)
theorem exec_rstReqHerd_of_deviceUp : exec (.rstReqHerd v a b) s = .next (reqHerd v a b s) := congrArg Host.Outcome.next (if_pos hup)

theorem rstReqLocal_of_wrong_key (hkey : fld v 24 8 ≠ 0xA5) : exec (.rstReqLocal v) s = .next (reqRefused 1 s) := by
  rw [exec_rstReqLocal_of_deviceUp hup, reqLocal, if_pos hkey]

theorem rstReqTwin_of_wrong_key (hkey : fld v 24 8 ≠ 0xA5) : exec (.rstReqTwin v a) s = .next (reqRefused 1 s) := by
  rw [exec_rstReqTwin_of_deviceUp hup, reqTwin, if_pos hkey]

theorem rstReqHerd_of_wrong_key (hkey : fld v 24 8 ≠ 0xA5) : exec (.rstReqHerd v a b) s = .next (reqRefused 1 s) := by
  rw [exec_rstReqHerd_of_deviceUp hup, reqHerd, if_pos hkey]

variable (hkey : fld v 24 8 = 0xA5)
include hkey

theorem rstReqLocal_of_key :
    exec (.rstReqLocal v) s = .next (if fld v 20 2 = 3 then reqRefused 2 s else if sourceLevel s 0x19 = 5 then reqRefused 3 s
      else if targetOk s 0x19 (fld v 0 12) = false then reqRefused 2 s
      else assertSources [{ code := 0x19, target := fld v 0 12 }] 0 s) := by
  rw [exec_rstReqLocal_of_deviceUp hup, reqLocal, if_neg (not_not.mpr hkey)]
  simp only [Bool.not_eq_true']

theorem rstReqLocal_accepted (hdest : fld v 20 2 ≠ 3) (hlevel : sourceLevel s 0x19 ≠ 5) (htarget : targetOk s 0x19 (fld v 0 12) = true) :
    ∃ t, exec (.rstReqLocal v) s = .next t ∧ t.rst.causeSrc = 0x19 ∧ t.rst.causeLevel = sourceLevel s 0x19 := by
  rw [rstReqLocal_of_key hup hkey, if_neg hdest, if_neg hlevel, if_neg (by rw [htarget]; decide)]
  exact ⟨_, rfl, cause_assertSources_single { code := 0x19, target := fld v 0 12 } 0 hlevel⟩

theorem rstReqLocal_refused {code : Nat} (h : (fld v 20 2 = 3 ∧ code = 2) ∨ (fld v 20 2 ≠ 3 ∧ sourceLevel s 0x19 = 5 ∧ code = 3) ∨
      (fld v 20 2 ≠ 3 ∧ sourceLevel s 0x19 ≠ 5 ∧ targetOk s 0x19 (fld v 0 12) = false ∧ code = 2)) :
    exec (.rstReqLocal v) s = .next (reqRefused code s) := by
  rw [rstReqLocal_of_key hup hkey]
  rcases h with ⟨hdest, rfl⟩ | ⟨hdest, hlevel, rfl⟩ | ⟨hdest, hlevel, htarget, rfl⟩
  · rw [if_pos hdest]
  · rw [if_neg hdest, if_pos hlevel]
  · rw [if_neg hdest, if_neg hlevel, if_pos htarget]

theorem rstReqTwin_of_key :
    exec (.rstReqTwin v a) s = .next (if twinTalks s = false then reqRefused 4 s else if a = false then reqRefused 3 s
      else sendTwin (.resetReq (fld v 0 12)) s) := by
  rw [exec_rstReqTwin_of_deviceUp hup, reqTwin, if_neg (not_not.mpr hkey)]
  simp only [Bool.not_eq_true']

theorem rstReqTwin_sent (htalks : twinTalks s = true) (ha : a = true) :
    exec (.rstReqTwin v a) s = .next { s with
      twn := { s.twn with txCount := s.twn.txCount + 1 }
      outbox := s.outbox ++ [.twinMsg ⟨.resetReq (fld v 0 12),
                                        twinTag s s.rst.twinRole s.twn.txCount (Config.twinWire (.resetReq (fld v 0 12)))⟩] } := by
  rw [rstReqTwin_of_key hup hkey, if_neg (by rw [htalks]; decide), if_neg (by rw [ha]; decide)]
  exact congrArg Host.Outcome.next (if_pos htalks)

theorem rstReqTwin_refused {code : Nat} (h : (twinTalks s = false ∧ code = 4) ∨ (twinTalks s = true ∧ a = false ∧ code = 3)) :
    exec (.rstReqTwin v a) s = .next (reqRefused code s) := by
  rw [rstReqTwin_of_key hup hkey]
  rcases h with ⟨htalks, rfl⟩ | ⟨htalks, ha, rfl⟩
  · rw [if_pos htalks]
  · rw [if_neg (by rw [htalks]; decide), if_pos ha]

theorem rstReqHerd_of_key :
    exec (.rstReqHerd v a b) s = .next (if s.rst.herdMgr = false then reqRefused 5 s else if a = false then reqRefused 4 s
      else if b = false then reqRefused 3 s else emit (.herdReset (fld v 16 4) (fld v 0 12)) s) := by
  rw [exec_rstReqHerd_of_deviceUp hup, reqHerd, if_neg (not_not.mpr hkey)]
  simp only [Bool.not_eq_true']

theorem rstReqHerd_sent (hmgr : s.rst.herdMgr = true) (ha : a = true) (hb : b = true) :
    exec (.rstReqHerd v a b) s = .next { s with outbox := s.outbox ++ [.herdReset (fld v 16 4) (fld v 0 12)] } := by
  rw [rstReqHerd_of_key hup hkey, if_neg (by rw [hmgr]; decide), if_neg (by rw [ha]; decide), if_neg (by rw [hb]; decide)]
  rfl

theorem rstReqHerd_refused {code : Nat} (h : (s.rst.herdMgr = false ∧ code = 5) ∨ (s.rst.herdMgr = true ∧ a = false ∧ code = 4) ∨
      (s.rst.herdMgr = true ∧ a = true ∧ b = false ∧ code = 3)) :
    exec (.rstReqHerd v a b) s = .next (reqRefused code s) := by
  rw [rstReqHerd_of_key hup hkey]
  rcases h with ⟨hmgr, rfl⟩ | ⟨hmgr, ha, rfl⟩ | ⟨hmgr, ha, hb, rfl⟩
  · rw [if_pos hmgr]
  · rw [if_neg (by rw [hmgr]; decide), if_pos ha]
  · rw [if_neg (by rw [hmgr]; decide), if_neg (by rw [ha]; decide), if_pos hb]

end

/-! ### The watchdog -/

theorem fld_eq_extractLsb' (w : Word) (lo n : Nat) : fld w lo n = (w.extractLsb' lo n).toNat := by
  rw [BitVec.extractLsb'_toNat, Nat.shiftRight_eq_div_pow]
  rfl

/-- The watchdog's control keeps its period. -/
theorem fld_wdtMask (v : Word) : fld (v &&& 0xFFFF0003) 16 16 = fld v 16 16 := by
  have hones : (0xFFFF0003 : Word).extractLsb' 16 16 = BitVec.allOnes 16 := by decide
  rw [fld_eq_extractLsb', fld_eq_extractLsb', BitVec.extractLsb'_and, hones, BitVec.and_allOnes]

/-- An unlocked control as it is written: the count stands where it was. -/
def wdtWritten (v : Word) (s : State) : State :=
  setRw (baseRST + 0x24) (v &&& 0xFFFF0003) (modRst (fun r => { r with wdtLeft := wdtLeft s, wdtAt := s.time.now }) s)

section
variable {v : Word} {s : State}

theorem exec_watchdogExpiry (hup : deviceUp s = true) :
    exec .watchdogExpiry s =
      .next (if bitAt (wdtReg s) 0 = true then assertSources [{ code := 0x14, target := 0 }] 0 (wdtReload s) else s) := by
  refine congrArg Host.Outcome.next ?_
  rw [hup, Bool.true_and]

theorem sourceLevel_wdtReload (code : Nat) : sourceLevel (wdtReload s) code = sourceLevel s code := sourceLevel_congr rfl code

variable (hup : deviceUp s = true)
include hup

theorem wdtCtrlWrite_of_locked (hlock : bitAt (wdtReg s) 1 = true) : exec (.wdtCtrlWrite v) s = .next (reqRefused 6 s) :=
  congrArg Host.Outcome.next ((if_pos hup).trans (if_pos hlock))

theorem wdtCtrlWrite_of_unlocked (hlock : bitAt (wdtReg s) 1 = false) :
    ∃ t, exec (.wdtCtrlWrite v) s = .next t ∧ wdtReg t = v &&& 0xFFFF0003 ∧
      (bitAt v 0 = true → t.rst = { s.rst with wdtLeft := max 1 (fld v 16 16), wdtAt := s.time.now }) ∧
      (bitAt v 0 = false → t.rst = { s.rst with wdtLeft := wdtLeft s, wdtAt := s.time.now }) ∧
      (∀ o, o ≠ baseRST + 0x24 → rwOf t o = rwOf s o) ∧ { t with rst := s.rst, rw := s.rw } = s := by
  have hexec : exec (.wdtCtrlWrite v) s = .next (wdtCtrl v s) := congrArg Host.Outcome.next (if_pos hup)
  have hreg : wdtReg (wdtWritten v s) = v &&& 0xFFFF0003 := rwOf_setRw ..
  have hctrl : wdtCtrl v s = if bitAt v 0 = true then wdtReload (wdtWritten v s) else wdtWritten v s := if_neg (by rw [hlock]; decide)
  rw [hexec, hctrl]
  refine ⟨_, rfl, ?_⟩
  cases hen : bitAt v 0 with
  | false => exact ⟨hreg, fun h => absurd h (by decide), fun _ => rfl, fun o ho => rwOf_setRw_ne _ _ _ ho, rfl⟩
  | true =>
    refine ⟨hreg, fun _ => ?_, fun h => absurd h (by decide), fun o ho => rwOf_setRw_ne _ _ _ ho, rfl⟩
    have hperiod : wdtPeriod (wdtWritten v s) = max 1 (fld v 16 16) := by rw [wdtPeriod, hreg, fld_wdtMask]
    exact congrArg (fun n => { s.rst with wdtLeft := n, wdtAt := s.time.now }) hperiod

theorem watchdogExpiry_fires (hen : bitAt (wdtReg s) 0 = true) (hlevel : sourceLevel s 0x14 ≠ 5) :
    ∃ t, exec .watchdogExpiry s = .next t ∧ t.rst.causeSrc = 0x14 ∧ t.rst.causeLevel = sourceLevel s 0x14 := by
  rw [exec_watchdogExpiry hup, if_pos hen, ← sourceLevel_wdtReload (s := s) 0x14]
  exact ⟨_, rfl, cause_assertSources_single { code := 0x14, target := 0 } 0 (by rw [sourceLevel_wdtReload]; exact hlevel)⟩

theorem watchdogExpiry_disabled (hen : bitAt (wdtReg s) 0 = true) (hlevel : sourceLevel s 0x14 = 5) :
    exec .watchdogExpiry s = .next { s with rst := { s.rst with wdtLeft := wdtPeriod s, wdtAt := s.time.now } } := by
  rw [exec_watchdogExpiry hup, if_pos hen, assertSources_of_disabled 0 ((sourceLevel_wdtReload _).trans hlevel)]
  rfl

end

/-- Settles O46, by the checks of each request in their order, and by the watchdog's registers. -/
theorem resetRequests : Obligations.ResetRequests := by
  refine ⟨fun v a b s hup => ⟨fun hkey => ⟨reqRefused_effect (rstReqLocal_of_wrong_key hup hkey),
      reqRefused_effect (rstReqTwin_of_wrong_key hup hkey), reqRefused_effect (rstReqHerd_of_wrong_key hup hkey)⟩,
      rstReqLocal_accepted hup, fun code hkey h => reqRefused_effect (rstReqLocal_refused hup hkey h), rstReqTwin_sent hup,
      fun code hkey h => reqRefused_effect (rstReqTwin_refused hup hkey h), rstReqHerd_sent hup,
      fun code hkey h => reqRefused_effect (rstReqHerd_refused hup hkey h)⟩,
    fun v s hup => ⟨fun hlock => reqRefused_effect (wdtCtrlWrite_of_locked hup hlock), wdtCtrlWrite_of_unlocked hup,
      fun h => congrArg Host.Outcome.next ((if_pos hup).trans (if_pos h)), fun h => congrArg Host.Outcome.next ((if_pos hup).trans (if_neg h))⟩,
    fun s hup => ⟨watchdogExpiry_fires hup, watchdogExpiry_disabled hup, fun hen => ?_⟩, fun v a b s hdown => ?_⟩
  · rw [exec_watchdogExpiry hup, if_neg (by rw [hen]; decide)]
  · have hskip (t : State) : (.next (if deviceUp s = true then t else s) : Host.Outcome State Fault Refusal) = .next s := by
      rw [hdown]
      rfl
    refine ⟨hskip _, hskip _, hskip _, hskip _, hskip _, congrArg Host.Outcome.next (if_neg ?_)⟩
    simp [hdown]

end Sys2Proof.Proofs
end

section
/-! Phase-locked loops, REFCLK and the fawn time base (spec/17 R572, R573, R576 to R578; spec/18 R607, R608). -/
namespace Sys2Proof.Proofs
open Sys2Proof Sys2Proof.Machine

theorem hubUp_congr {s t : State} (h : t.rst = s.rst) : hubUp t = hubUp s := by
  unfold hubUp deviceLevel sourceLevel
  rw [h]

/-! ### The lock of a PLL -/

/-- What tells whether a PLL is locked. -/
def locksOf (c : ClkSt) : Bool × Bool × Bool × BitVec 8 × Bool × Bool × Bool :=
  (c.coreLock, c.modLock, c.ioLock, c.sliceLock, c.bbLock, c.twLock, c.pcieLock)

theorem pllLocked_congr {s t : State} (h : locksOf t.clk = locksOf s.clk) (p : Nat) : pllLocked t p = pllLocked s p := by
  simp only [locksOf, Prod.mk.injEq] at h
  obtain ⟨hcore, hmod, hio, hslice, hbb, htw, hpcie⟩ := h
  unfold pllLocked
  rw [hcore, hmod, hio, hslice, hbb, htw, hpcie]

theorem getLsbD_bit8 (k j : Nat) : (bit8 k).getLsbD j = (decide (j < 8) && decide (k = j)) := by
  rw [bit8, BitVec.getLsbD_ofNat, Nat.testBit_two_pow]

theorem getLsbD_bit14 (k j : Nat) : (bit14 k).getLsbD j = (decide (j < 14) && decide (k = j)) := by
  rw [bit14, BitVec.getLsbD_ofNat, Nat.testBit_two_pow]

section
variable {p : Nat} (b : Bool) (s : State)

theorem pllLocked_setLock (h1 : 1 ≤ p) (h14 : p ≤ 14) : pllLocked { s with clk := setLock p b s.clk } p = b := by
  unfold pllLocked setLock
  by_cases hslice : 4 ≤ p ∧ p ≤ 11
  · have hne : p ≠ 1 ∧ p ≠ 2 ∧ p ≠ 3 := by omega
    have hlt : p - 4 < 8 := by omega
    cases b <;> simp [hne, hslice, getLsbD_bit8, hlt]
  · have hp : p = 1 ∨ p = 2 ∨ p = 3 ∨ p = 12 ∨ p = 13 ∨ p = 14 := by omega
    rcases hp with rfl | rfl | rfl | rfl | rfl | rfl <;> rfl

theorem pllLocked_setLock_ne {q : Nat} (h : q ≠ p) : pllLocked { s with clk := setLock p b s.clk } q = pllLocked s q := by
  unfold pllLocked setLock
  by_cases hslice : 4 ≤ p ∧ p ≤ 11
  · have hne : p ≠ 1 ∧ p ≠ 2 ∧ p ≠ 3 := by omega
    by_cases hq : 4 ≤ q ∧ q ≤ 11
    · have hqne : q ≠ 1 ∧ q ≠ 2 ∧ q ≠ 3 := by omega
      have hbit : ¬ p - 4 = q - 4 := by omega
      have hlt : q - 4 < 8 := by omega
      have hother : (bit8 (p - 4))[q - 4] = false := by
        rw [← BitVec.getLsbD_eq_getElem, getLsbD_bit8, decide_eq_false hbit, Bool.and_false]
      cases b <;> simp [hne, hslice, hq, hqne, hlt, hother]
    · simp [hne, hslice, hq]
  · by_cases hp : p = 1 ∨ p = 2 ∨ p = 3 ∨ p = 12 ∨ p = 13 ∨ p = 14
    · rcases hp with rfl | rfl | rfl | rfl | rfl | rfl <;> simp [h]
    · simp only [not_or] at hp
      simp [hp, hslice]

theorem pcieLock_setLock (h : p ≠ 14) (c : ClkSt) : (setLock p b c).pcieLock = c.pcieLock := by
  unfold setLock
  split_ifs <;> rfl

theorem clkField_setLock (c : ClkSt) :
    (setLock p b c).lost = c.lost ∧ (setLock p b c).modAligned = c.modAligned ∧ (setLock p b c).modErrRaised = c.modErrRaised ∧
      (setLock p b c).refHold = c.refHold := by
  unfold setLock
  split_ifs <;> exact ⟨rfl, rfl, rfl, rfl⟩

end

/-! ### A PLL that loses lock -/

/-- The clocks after PLL `p` has lost lock. -/
def clkUnlocked (p : Nat) (c : ClkSt) : ClkSt :=
  { setLock p false c with
    modAligned := if p = 2 then false else c.modAligned
    lost := if marksSamples p then c.lost ||| bit14 (p - 1) else c.lost }

section
variable {p : Nat} {s : State}

theorem pllLost_of_locked (h : pllLocked s p = true) :
    pllLost p s = if hubUp s = true then raiseFault qCLK 0x612 0x07 p { s with clk := clkUnlocked p s.clk } else { s with clk := clkUnlocked p s.clk } :=
  if_pos h

theorem pllLost_of_unlocked (h : pllLocked s p = false) : pllLost p s = s := if_neg (by rw [h]; decide)

theorem clk_pllLost (h : pllLocked s p = true) : (pllLost p s).clk = clkUnlocked p s.clk := by
  rw [pllLost_of_locked h]
  split
  · exact raiseFault_clk ..
  · rfl

theorem pllLost_frame (p : Nat) (s : State) : { pllLost p s with clk := s.clk, flt := s.flt, fm := s.fm } = s := by
  cases h : pllLocked s p with
  | false => rw [pllLost_of_unlocked h]
  | true =>
    rw [pllLost_of_locked h]
    split
    · exact congrArg (fun t : State => { t with clk := s.clk }) (raiseFault_frame qCLK 0x612 0x07 p { s with clk := clkUnlocked p s.clk })
    · rfl

theorem pllLocked_bounds (h : pllLocked s p = true) : 1 ≤ p ∧ p ≤ 14 := by
  by_contra hp
  have hout : p ≠ 1 ∧ p ≠ 2 ∧ p ≠ 3 ∧ ¬ (4 ≤ p ∧ p ≤ 11) ∧ p ≠ 12 ∧ p ≠ 13 ∧ p ≠ 14 := by omega
  simp [pllLocked, hout] at h

theorem pllLocked_pllLost (p : Nat) (s : State) : pllLocked (pllLost p s) p = false := by
  cases h : pllLocked s p with
  | false => rw [pllLost_of_unlocked h, h]
  | true =>
    obtain ⟨h1, h14⟩ := pllLocked_bounds h
    exact (pllLocked_congr (congrArg locksOf (clk_pllLost h) :) p).trans (pllLocked_setLock false s h1 h14)

theorem pllLocked_pllLost_ne (p : Nat) (s : State) {q : Nat} (hq : q ≠ p) : pllLocked (pllLost p s) q = pllLocked s q := by
  cases h : pllLocked s p with
  | false => rw [pllLost_of_unlocked h]
  | true => exact (pllLocked_congr (congrArg locksOf (clk_pllLost h) :) q).trans (pllLocked_setLock_ne false s hq)

theorem refHold_pllLost (p : Nat) (s : State) : (pllLost p s).clk.refHold = s.clk.refHold := by
  cases h : pllLocked s p with
  | false => rw [pllLost_of_unlocked h]
  | true =>
    rw [clk_pllLost h]
    exact (clkField_setLock false s.clk).2.2.2

theorem pcieLock_pllLost (hp : p ≠ 14) (s : State) : (pllLost p s).clk.pcieLock = s.clk.pcieLock := by
  cases h : pllLocked s p with
  | false => rw [pllLost_of_unlocked h]
  | true =>
    rw [clk_pllLost h]
    exact pcieLock_setLock false hp s.clk

end

/-! ### REFCLK and the fawn time base -/

section
variable (q u kind detail : Nat) {s : State}

theorem raiseOrHold_of_up (h : deviceUp s = true) : raiseOrHold q u kind detail s = raiseFault q u kind detail s := if_pos h

theorem raiseOrHold_of_down (h : deviceUp s = false) :
    raiseOrHold q u kind detail s = { s with flt := { s.flt with heldBack := s.flt.heldBack ++ [(u, kind, detail)] } } :=
  if_neg (by rw [h]; decide)

end

section
variable (l : List Nat) (s : State)

theorem pllLocked_doFor_pllLost {p : Nat} (h : p ∈ l ∨ pllLocked s p = false) : pllLocked (doFor l pllLost s) p = false := by
  induction l generalizing s with
  | nil => simpa using h
  | cons a l ih =>
    refine ih (pllLost a s) ?_
    by_cases hpa : p = a
    · exact .inr (hpa ▸ pllLocked_pllLost p s)
    · rw [pllLocked_pllLost_ne a s hpa]
      simpa [hpa] using h

theorem pcieLock_doFor_pllLost (h : 14 ∉ l) : (doFor l pllLost s).clk.pcieLock = s.clk.pcieLock := by
  induction l generalizing s with
  | nil => rfl
  | cons a l ih =>
    have ha : a ≠ 14 := fun ha => h (ha ▸ List.mem_cons_self)
    exact (ih (pllLost a s) fun hl => h (List.mem_cons_of_mem _ hl)).trans (pcieLock_pllLost ha s)

theorem doFor_pllLost_frame : { doFor l pllLost s with clk := s.clk, flt := s.flt, fm := s.fm } = s :=
  doFor_inv (fun t => { t with clk := s.clk, flt := s.flt, fm := s.fm } = s) pllLost
    (fun p t ht => (congrArg (fun u : State => { u with clk := s.clk, flt := s.flt, fm := s.fm }) (pllLost_frame p t) :).trans ht) l s rfl

end

section
variable (s : State)

theorem refclkLost_effect : ∃ t, exec .refclkLost s = .next t ∧ t.clk = { s.clk with refOk := false, refHold := true } ∧
    (hubUp s = true → Raised qCLK 0x612 0x09 0 s t) ∧ (hubUp s = false → t.flt = s.flt) ∧
    { t with clk := s.clk, flt := s.flt, fm := s.fm } = s := by
  refine ⟨_, rfl, ?_⟩
  cases hup : hubUp s with
  | false =>
    have hlost : refLost s = { s with clk := { s.clk with refOk := false, refHold := true } } := if_neg ((hubUp_congr rfl).trans hup ▸ Bool.false_ne_true)
    rw [hlost]
    exact ⟨rfl, fun h => absurd h (by decide), fun _ => rfl, rfl⟩
  | true =>
    have hlost : refLost s = raiseFault qCLK 0x612 0x09 0 { s with clk := { s.clk with refOk := false, refHold := true } } :=
      if_pos ((hubUp_congr rfl).trans hup)
    rw [hlost]
    exact ⟨raiseFault_clk .., fun _ => raised_of_eq _ _ _ _ _ _ rfl rfl rfl, fun h => absurd h (by decide),
      congrArg (fun t : State => { t with clk := s.clk }) (raiseFault_frame qCLK 0x612 0x09 0 _)⟩

theorem refReturn_eq : refReturn s = if s.clk.refHold = true ∧ hubUp s = true
    then raiseFault qCLK 0x612 0x09 1 { s with clk := { s.clk with refOk := true, refHold := false } }
    else { s with clk := { s.clk with refOk := true, refHold := false } } :=
  if_congr (Bool.and_eq_true _ _).to_iff rfl rfl

theorem refclkReturn_effect : ∃ t, exec .refclkReturn s = .next t ∧ t.clk = { s.clk with refOk := true, refHold := false } ∧
    (hubUp s = true → s.clk.refHold = true → Raised qCLK 0x612 0x09 1 s t) ∧ (s.clk.refHold = false → t.flt = s.flt) ∧
    { t with clk := s.clk, flt := s.flt, fm := s.fm } = s := by
  have hexec : exec .refclkReturn s = .next (refReturn s) := rfl
  rw [hexec, refReturn_eq]
  refine ⟨_, rfl, ?_⟩
  by_cases h : s.clk.refHold = true ∧ hubUp s = true
  · rw [if_pos h]
    exact ⟨raiseFault_clk .., fun _ _ => raised_of_eq _ _ _ _ _ _ rfl rfl rfl, fun hno => absurd h.1 (by rw [hno]; decide),
      congrArg (fun t : State => { t with clk := s.clk }) (raiseFault_frame qCLK 0x612 0x09 1 _)⟩
  · rw [if_neg h]
    exact ⟨rfl, fun hup hhold => absurd ⟨hhold, hup⟩ h, fun _ => rfl, rfl⟩

/-- 1 ms without REFCLK: every PLL that it feeds unlocks, the endpoint's excepted. -/
theorem refclkHoldoverExpiry_effect (h : s.clk.refHold = true) : ∃ t, exec .refclkHoldoverExpiry s = .next t ∧ t.clk.refHold = false ∧
    (∀ p, 1 ≤ p → p ≤ 13 → pllLocked t p = false) ∧ t.clk.pcieLock = s.clk.pcieLock ∧
    { t with clk := s.clk, flt := s.flt, fm := s.fm } = s := by
  refine ⟨_, congrArg Host.Outcome.next (if_pos h), doFor_keeps (fun t => t.clk.refHold) pllLost refHold_pllLost _ _,
    fun p h1 h13 => pllLocked_doFor_pllLost _ _ (.inl ?_), pcieLock_doFor_pllLost _ _ (by decide),
    congrArg (fun t : State => { t with clk := s.clk }) (doFor_pllLost_frame _ { s with clk := { s.clk with refHold := false } })⟩
  exact List.mem_map.mpr ⟨p - 1, List.mem_range.mpr (by omega), by omega⟩

/-- A failure of the crystal is noted once, and kind 0x0B is raised, or held back until P7. -/
theorem xtalFail_effect (h : s.clk.xtalFail = false) : ∃ t, exec .xtalFail s = .next t ∧ t.clk = { s.clk with xtalFail := true } ∧
    (deviceUp s = true → Raised qCLK 0x612 0x0B s.clk.rcTrim s t) ∧
    (deviceUp s = false → t.flt = { s.flt with heldBack := s.flt.heldBack ++ [(0x612, 0x0B, s.clk.rcTrim)] }) ∧
    { t with clk := s.clk, flt := s.flt, fm := s.fm } = s := by
  have hfail : xtalFail s = raiseOrHold qCLK 0x612 0x0B s.clk.rcTrim { s with clk := { s.clk with xtalFail := true } } :=
    if_neg (by rw [h]; decide)
  have hcongr : deviceUp { s with clk := { s.clk with xtalFail := true } } = deviceUp s := deviceUp_congr rfl
  refine ⟨_, congrArg Host.Outcome.next hfail, ?_⟩
  cases hup : deviceUp s with
  | false =>
    rw [raiseOrHold_of_down _ _ _ _ (hcongr.trans hup)]
    exact ⟨rfl, fun h => absurd h (by decide), fun _ => rfl, rfl⟩
  | true =>
    rw [raiseOrHold_of_up _ _ _ _ (hcongr.trans hup)]
    exact ⟨raiseFault_clk .., fun _ => raised_of_eq _ _ _ _ _ _ rfl rfl rfl, fun h => absurd h (by decide),
      congrArg (fun t : State => { t with clk := s.clk }) (raiseFault_frame qCLK 0x612 0x0B _ _)⟩

end

/-- Settles O8, by the effect of each event of the reference clock and of the crystal. -/
theorem referenceClocks : Obligations.ReferenceClocks :=
  ⟨⟨refclkLost_effect, refclkReturn_effect, refclkHoldoverExpiry_effect,
    fun _ h => congrArg Host.Outcome.next (if_neg (by rw [h]; decide))⟩,
   fun _ _ => ⟨fun h => congrArg Host.Outcome.next (if_neg (by rw [h]; decide)), fun h => congrArg Host.Outcome.next (if_pos h)⟩,
   fun s => ⟨fun h => congrArg Host.Outcome.next (if_pos h), xtalFail_effect s⟩, fun _ => rfl⟩

/-! ### A PLL that locks -/

theorem Tbl.get_mapVals_of_forall {α : Type} [DecidableEq α] (d : Nat → α) (f : Nat → α → α) (P : α → Prop) {k : Nat} (hd : P (d k))
    (hf : ∀ x, P (f k x)) (t : List (Nat × α)) : P (Tbl.get d (Tbl.mapVals d f t) k) := by
  induction t with
  | nil => exact hd
  | cons e t ih =>
    obtain ⟨j, a⟩ := e
    have hcons : Tbl.mapVals d f ((j, a) :: t) = if f j a ≠ d j then (j, f j a) :: Tbl.mapVals d f t else Tbl.mapVals d f t := by
      simp only [Tbl.mapVals, List.map_cons, List.filter_cons, decide_eq_true_eq]
    rw [hcons]
    split
    · by_cases hjk : k = j
      · subst hjk
        simpa [Tbl.get] using hf a
      · simpa [Tbl.get, hjk] using ih
    · exact ih

/-- A slice that starts has its tines DORMANT. -/
theorem stOf_startSlice {k u : Nat} (hslice : sliceOfUnit u = some k) (htine : isTineId u = true) (s : State) :
    stOf (startSlice k s) u = .dormant := by
  have hinfra : isInfra u = false := by
    cases h : isInfra u with
    | false => rfl
    | true =>
      have hrange : 0x610 ≤ u ∧ u ≤ 0x61B ∨ 0x620 ≤ u ∧ u ≤ 0x627 := by simpa [isInfra] using h
      have hkind : kindOf u = 0xB := by
        unfold kindOf
        rw [if_neg (by omega), if_neg (by omega), if_neg (by omega), if_neg (by omega), if_neg (by omega), if_neg (by omega),
          if_neg (by omega), if_neg (by omega), if_neg (by omega), if_pos h]
      simp [isTineId, hkind] at htine
  unfold stOf unitOf startSlice
  dsimp only
  refine Tbl.get_mapVals_of_forall unitDef _ (fun x => x.st = .dormant) ?_ (fun x => ?_) _
  · simp [unitDef, hinfra]
  · simp [hslice, htine]

theorem startSlice_frame (k : Nat) (s : State) :
    (startSlice k s).clk = s.clk ∧ (startSlice k s).rst = { s.rst with calib := s.rst.calib ||| bit8 k } := by
  have hreset := besideSlices_sliceReset s k
  exact ⟨(congrArg State.clk hreset :), (congrArg (fun t : State => { t.rst with calib := t.rst.calib ||| bit8 k }) hreset :)⟩

/-- The slice of a slice PLL is powered where its switch is closed. -/
def supplied (p : Nat) (s : State) : State :=
  if 4 ≤ p ∧ p ≤ 11 ∧ switchClosed s (p - 4) = true then { s with clk := { s.clk with sliceOn := s.clk.sliceOn ||| bit8 (p - 4) } } else s

/-- PLL `p`, not the modulator's, is locked, and its samples are no longer marked. -/
def locked (p : Nat) (s : State) : State :=
  let t := supplied p { s with clk := setLock p true s.clk }
  if marksSamples p then { t with clk := { t.clk with lost := t.clk.lost &&& ~~~bit14 (p - 1) } } else t

/-- A release that waited for the clock of PLL `p` takes place. -/
def released (p : Nat) (s : State) : State :=
  let t := { s with rst := { s.rst with pendingClock := s.rst.pendingClock &&& ~~~bit14 (p - 1) } }
  if 4 ≤ p ∧ p ≤ 11 then startSlice (p - 4) t else t

section
variable {p : Nat} (s : State)

theorem supplied_frame : { supplied p s with clk := s.clk } = s ∧ locksOf (supplied p s).clk = locksOf s.clk := by
  unfold supplied
  split
  · exact ⟨rfl, rfl⟩
  · exact ⟨rfl, rfl⟩

theorem locked_frame : { locked p s with clk := s.clk } = s := by
  have h := (congrArg (fun t : State => { t with clk := s.clk }) (supplied_frame (p := p) { s with clk := setLock p true s.clk }).1 :)
  unfold locked
  dsimp only
  split
  · exact h
  · exact h

theorem locksOf_locked : locksOf (locked p s).clk = locksOf (setLock p true s.clk) := by
  have h := (supplied_frame (p := p) { s with clk := setLock p true s.clk }).2
  unfold locked
  dsimp only
  split
  · exact h
  · exact h

theorem lost_locked (h1 : 1 ≤ p) (h11 : p ≤ 11) : (locked p s).clk.lost.getLsbD (p - 1) = false := by
  have hmarks : marksSamples p = true := decide_eq_true ⟨h1, h11⟩
  unfold locked
  dsimp only
  rw [if_pos hmarks]
  change (_ &&& ~~~bit14 (p - 1)).getLsbD (p - 1) = false
  rw [BitVec.getLsbD_and, BitVec.getLsbD_not, getLsbD_bit14]
  simp

theorem released_of_shared (h : ¬ (4 ≤ p ∧ p ≤ 11)) :
    released p s = { s with rst := { s.rst with pendingClock := s.rst.pendingClock &&& ~~~bit14 (p - 1) } } := if_neg h

theorem released_of_slice (h : 4 ≤ p ∧ p ≤ 11) :
    released p s = startSlice (p - 4) { s with rst := { s.rst with pendingClock := s.rst.pendingClock &&& ~~~bit14 (p - 1) } } := if_pos h

theorem clk_released : (released p s).clk = s.clk := by
  unfold released
  dsimp only
  split
  · exact (startSlice_frame _ _).1
  · rfl

theorem pendingClock_released : (released p s).rst.pendingClock.getLsbD (p - 1) = false := by
  have hclear : (s.rst.pendingClock &&& ~~~bit14 (p - 1)).getLsbD (p - 1) = false := by
    rw [BitVec.getLsbD_and, BitVec.getLsbD_not, getLsbD_bit14]
    simp
  unfold released
  dsimp only
  split
  · rw [(startSlice_frame _ _).2]
    exact hclear
  · exact hclear

theorem pllLock_of_other (al : Bool) (h2 : p ≠ 2) :
    pllLock p al s = if s.rst.pendingClock.getLsbD (p - 1) = true then released p (locked p s) else locked p s := by
  have hrst : (locked p s).rst = s.rst := (congrArg State.rst (locked_frame (p := p) s) :)
  have hlock : pllLock p al s = if ((locked p s).rst.pendingClock.getLsbD (p - 1) && (p != 2 || (locked p s).clk.modAligned)) = true
      then released p (locked p s) else locked p s := by
    unfold pllLock
    dsimp only
    rw [if_neg h2]
    rfl
  have hne : (p != 2) = true := bne_iff_ne.mpr h2
  rw [hlock, hrst, hne, Bool.true_or, Bool.and_true]

end

section
variable {p : Fin 15} (s : State)

theorem exec_pllLock (al : Bool) (h1 : 1 ≤ p.val) : exec (.pllLock p al) s = .next (pllLock p.val al s) := congrArg Host.Outcome.next (if_pos h1)

/-- A PLL but the modulator's that locks. -/
theorem pllLock_other_effect (al : Bool) (h1 : 1 ≤ p.val) (h2 : p.val ≠ 2) :
    ∃ t, exec (.pllLock p al) s = .next t ∧ pllLocked t p.val = true ∧
      (∀ q, q ≠ p.val → pllLocked t q = pllLocked s q) ∧
      (p.val ≤ 11 → t.clk.lost.getLsbD (p.val - 1) = false) ∧ t.rst.pendingClock.getLsbD (p.val - 1) = false ∧
      (p.val < 4 ∨ 11 < p.val ∨ s.rst.pendingClock.getLsbD (p.val - 1) = false → { t with clk := s.clk, rst := s.rst } = s) ∧
      (4 ≤ p.val → p.val ≤ 11 → s.rst.pendingClock.getLsbD (p.val - 1) = true → t.rst.calib.getLsbD (p.val - 4) = true ∧
        ∀ u, sliceOfUnit u = some (p.val - 4) → isTineId u = true → stOf t u = .dormant) := by
  have h14 : p.val ≤ 14 := by omega
  have hframe := locked_frame (p := p.val) s
  have hlocks := locksOf_locked (p := p.val) s
  have hself {t : State} (ht : t.clk = (locked p.val s).clk) : pllLocked t p.val = true :=
    (pllLocked_congr (s := { s with clk := setLock p.val true s.clk }) ((congrArg locksOf ht).trans hlocks) _).trans
      (pllLocked_setLock true s h1 h14)
  have hother {t : State} (ht : t.clk = (locked p.val s).clk) (q : Nat) (hq : q ≠ p.val) : pllLocked t q = pllLocked s q :=
    (pllLocked_congr (s := { s with clk := setLock p.val true s.clk }) ((congrArg locksOf ht).trans hlocks) q).trans
      (pllLocked_setLock_ne true s hq)
  have hlost {t : State} (ht : t.clk = (locked p.val s).clk) (h11 : p.val ≤ 11) : t.clk.lost.getLsbD (p.val - 1) = false :=
    (congrArg (fun c : ClkSt => c.lost.getLsbD (p.val - 1)) ht).trans (lost_locked s h1 h11)
  rw [exec_pllLock s al h1, pllLock_of_other s al h2]
  refine ⟨_, rfl, ?_⟩
  cases hpend : s.rst.pendingClock.getLsbD (p.val - 1) with
  | false =>
    rw [if_neg Bool.false_ne_true]
    exact ⟨hself rfl, hother rfl, hlost rfl, (congrArg (fun t : State => t.rst.pendingClock.getLsbD (p.val - 1)) hframe :).trans hpend,
      fun _ => (congrArg (fun t : State => { t with rst := s.rst }) hframe :), fun _ _ h => absurd h (by decide)⟩
  | true =>
    rw [if_pos rfl]
    have hclk := clk_released (p := p.val) (locked p.val s)
    refine ⟨hself hclk, hother hclk, hlost hclk, pendingClock_released _, fun h => ?_, fun h4 h11 _ => ?_⟩
    · have hnot : ¬ (4 ≤ p.val ∧ p.val ≤ 11) := by
        rcases h with h | h | h
        · omega
        · omega
        · exact absurd h (by decide)
      rw [released_of_shared _ hnot]
      exact (congrArg (fun t : State => { t with rst := s.rst }) hframe :)
    · rw [released_of_slice _ ⟨h4, h11⟩]
      refine ⟨?_, fun u hslice htine => stOf_startSlice hslice htine _⟩
      rw [(startSlice_frame _ _).2]
      change (_ ||| bit8 (p.val - 4)).getLsbD (p.val - 4) = true
      rw [BitVec.getLsbD_or, getLsbD_bit8]
      simp
      omega

end

/-! ### The modulator's PLL -/

/-- The modulator's PLL is locked, before its grid's phase is known. -/
def modLocked (s : State) : State := { s with clk := { s.clk with modLock := true } }

/-- The clocks as the grid's phase error is known (spec/17 R576). -/
def clkPhased (e : Int) (c : ClkSt) : ClkSt :=
  { c with
    modErr := e
    modAligned := c.modLock && decide (e.natAbs ≤ 2000)
    modErrRaised := if c.modLock && decide (e.natAbs ≤ 2000) then false else c.modErrRaised || decide (10000 < e.natAbs)
    lost := if c.modLock && decide (e.natAbs ≤ 2000) then c.lost &&& ~~~bit14 1 else c.lost }

section
variable (e : Int) (s : State)

theorem setModErr_eq : setModErr e s =
    if (decide (10000 < e.natAbs) && !s.clk.modErrRaised && s.clk.modLock && hubUp { s with clk := clkPhased e s.clk }) = true
    then raiseFault qCLK 0x612 0x08 (unsig 32 (satS 32 e)) { s with clk := clkPhased e s.clk }
    else { s with clk := clkPhased e s.clk } := rfl

theorem clk_setModErr : (setModErr e s).clk = clkPhased e s.clk := by
  rw [setModErr_eq]
  split
  · exact raiseFault_clk ..
  · rfl

theorem setModErr_frame : { setModErr e s with clk := s.clk, flt := s.flt, fm := s.fm } = s := by
  rw [setModErr_eq]
  split
  · exact (congrArg (fun t : State => { t with clk := s.clk }) (raiseFault_frame qCLK 0x612 0x08 (unsig 32 (satS 32 e)) { s with clk := clkPhased e s.clk }) :)
  · rfl

theorem setModErr_zero : setModErr 0 s = { s with clk := clkPhased 0 s.clk } := by
  rw [setModErr_eq]
  exact if_neg (by simp)

theorem pllLock_mod_aligned : pllLock 2 true s =
    if s.rst.pendingClock.getLsbD 1 = true then released 2 { modLocked s with clk := clkPhased 0 (modLocked s).clk }
    else { modLocked s with clk := clkPhased 0 (modLocked s).clk } := by
  have hlock : pllLock 2 true s = if ((setModErr 0 (modLocked s)).rst.pendingClock.getLsbD 1 && (setModErr 0 (modLocked s)).clk.modAligned) = true
      then released 2 (setModErr 0 (modLocked s)) else setModErr 0 (modLocked s) := rfl
  rw [hlock, setModErr_zero]
  exact if_congr (iff_of_eq (congrArg (· = true) (Bool.and_true _))) rfl rfl

/-- The modulator's phase error where it locks unaligned: free, above 2 ns (log 1). -/
def freeErr (s : State) : Nat := 2001 + Config.freeWord s.freeCtr % 1560499

theorem freeErr_gt : 2000 < freeErr s := by
  rw [freeErr]
  omega

/-- A grid with a phase error above 2 ns is not aligned, and its samples stay marked. -/
theorem clkPhased_unaligned {n : Nat} (h : 2000 < n) (c : ClkSt) : (clkPhased n c).modAligned = false ∧ (clkPhased n c).lost = c.lost := by
  simp [clkPhased, h]

theorem pllLock_mod_unaligned :
    pllLock 2 false s = setModErr (freeErr s : Nat) { modLocked s with freeCtr := s.freeCtr + 1 } := by
  have hlock : pllLock 2 false s =
      if ((setModErr (freeErr s : Nat) { modLocked s with freeCtr := s.freeCtr + 1 }).rst.pendingClock.getLsbD 1 &&
        (setModErr (freeErr s : Nat) { modLocked s with freeCtr := s.freeCtr + 1 }).clk.modAligned) = true
      then released 2 (setModErr (freeErr s : Nat) { modLocked s with freeCtr := s.freeCtr + 1 })
      else setModErr (freeErr s : Nat) { modLocked s with freeCtr := s.freeCtr + 1 } := rfl
  rw [hlock, clk_setModErr]
  refine if_neg ?_
  rw [(clkPhased_unaligned (freeErr_gt s) _).1, Bool.and_false]
  exact Bool.false_ne_true

theorem pllLock_mod_unaligned_effect : ∃ t, exec (.pllLock 2 false) s = .next t ∧ t.clk.modLock = true ∧ t.clk.modAligned = false ∧
    2000 < t.clk.modErr ∧ t.clk.lost = s.clk.lost ∧ t.rst = s.rst ∧
    { t with clk := s.clk, rst := s.rst, flt := s.flt, fm := s.fm, freeCtr := s.freeCtr } = s := by
  have hframe := setModErr_frame (freeErr s : Nat) { modLocked s with freeCtr := s.freeCtr + 1 }
  have hexec : exec (.pllLock 2 false) s = .next (pllLock 2 false s) := rfl
  rw [hexec, pllLock_mod_unaligned]
  refine ⟨_, rfl, ?_⟩
  rw [clk_setModErr]
  have hgt := freeErr_gt s
  obtain ⟨haligned, hlost⟩ := clkPhased_unaligned hgt (modLocked s).clk
  refine ⟨rfl, haligned, Int.ofNat_lt.mpr hgt, hlost, (congrArg State.rst hframe :),
    (congrArg (fun t : State => { t with clk := s.clk, rst := s.rst, flt := s.flt, fm := s.fm, freeCtr := s.freeCtr }) hframe :)⟩

theorem pllLock_mod_aligned_effect : ∃ t, exec (.pllLock 2 true) s = .next t ∧
    t.clk.modLock = true ∧ t.clk.modAligned = true ∧ t.clk.modErr = 0 ∧ t.clk.lost.getLsbD 1 = false ∧
    t.rst.pendingClock.getLsbD 1 = false ∧ { t with clk := s.clk, rst := s.rst } = s := by
  have hexec : exec (.pllLock 2 true) s = .next (pllLock 2 true s) := rfl
  have hlost : (s.clk.lost &&& ~~~bit14 1).getLsbD 1 = false := by
    rw [BitVec.getLsbD_and, BitVec.getLsbD_not, getLsbD_bit14]
    simp
  rw [hexec, pllLock_mod_aligned]
  refine ⟨_, rfl, ?_⟩
  cases hpend : s.rst.pendingClock.getLsbD 1 with
  | false =>
    rw [if_neg Bool.false_ne_true]
    exact ⟨rfl, rfl, rfl, hlost, hpend, rfl⟩
  | true =>
    rw [if_pos rfl]
    have hcleared := pendingClock_released (p := 2) { modLocked s with clk := clkPhased 0 (modLocked s).clk }
    rw [released_of_shared _ (by decide)] at hcleared ⊢
    exact ⟨rfl, rfl, rfl, hlost, hcleared, rfl⟩

end

/-! ### The statement on the PLLs -/

/-- A locked PLL that loses lock. -/
theorem pllLockLost_effect (p : Fin 15) (s : State) (h : pllLocked s p.val = true) :
    ∃ t, exec (.pllLockLost p) s = .next t ∧ pllLocked t p.val = false ∧
      (∀ q, q ≠ p.val → pllLocked t q = pllLocked s q) ∧
      (1 ≤ p.val → p.val ≤ 11 → t.clk.lost.getLsbD (p.val - 1) = true) ∧
      (p.val = 2 → t.clk.modAligned = false) ∧
      (hubUp s = true → Raised qCLK 0x612 0x07 p.val s t) ∧
      { t with clk := s.clk, flt := s.flt, fm := s.fm } = s := by
  have hclk := clk_pllLost h
  refine ⟨_, rfl, pllLocked_pllLost p.val s, fun q hq => pllLocked_pllLost_ne p.val s hq, fun h1 h11 => ?_, fun h2 => ?_, fun hup => ?_,
    pllLost_frame p.val s⟩
  · have hmarks : marksSamples p.val = true := decide_eq_true ⟨h1, h11⟩
    have hlt : p.val - 1 < 14 := by omega
    rw [hclk, clkUnlocked, hmarks]
    change (_ ||| bit14 (p.val - 1)).getLsbD (p.val - 1) = true
    rw [BitVec.getLsbD_or, getLsbD_bit14]
    simp [hlt]
  · rw [hclk]
    exact if_pos h2
  · have hlost := pllLost_of_locked h
    rw [if_pos hup] at hlost
    rw [hlost]
    exact raised_of_eq _ _ _ _ _ _ rfl rfl rfl

/-- Settles O7, by the clocks after a PLL has lost lock or has locked. -/
theorem pllRules : Obligations.PllRules :=
  ⟨pllLockLost_effect, fun _ _ h => congrArg Host.Outcome.next (pllLost_of_unlocked h), fun _ _ => rfl, pllLock_mod_unaligned_effect,
    fun _ al s h1 h2 => pllLock_other_effect s al h1 h2, pllLock_mod_aligned_effect⟩

end Sys2Proof.Proofs
end

section
/-! Activity levels, the wake of the slices, PWR_REQ and the wake sources (spec/17 R579 to R583, R593). -/
namespace Sys2Proof.Proofs
open Sys2Proof Sys2Proof.Machine

/-! ### Level requests -/

/-- The clocks as a level request is accepted for its target (spec/17 R581). -/
def clkRequested (level want openFrame : Nat) (wakes : Bool) (c : ClkSt) : ClkSt :=
  { c with
    pend := some { level, target := max want openFrame, late := decide (want < openFrame) }
    seq := (c.seq + 1) % 65536
    result := 1
    pendingLevel := level
    actFrame := max want openFrame
    waking := wakes
    slicesReady := none }

/-- The mask of rails changes no more than the monitors. -/
theorem maskRails_eq (r n t : Nat) (s : State) : ∃ m, maskRails r n t s = { s with mon := m } := ⟨_, rfl⟩

section
variable {s : State} {nx : Bool} {level want code : Nat}

theorem actRequest_of_busy (h : s.clk.pend.isSome = true) : actRequest level nx s = actRefuse 4 s := if_pos h

theorem actRequest_of_free (h : s.clk.pend = none) (hwant : want = if nx = true then s.time.openFrame else rw64 s (baseCLK + 8)) :
    actRequest level nx s =
      if level = 3 ∨ (level = 0 ∧ s.clk.level = 2) then actRefuse 7 s
      else if farLimit s < want then actRefuse 8 s
      else { (if decide (level = 2 ∧ s.clk.level = 1) = true then maskRails 0 24 (s.time.now + 200000) s else s) with
        clk := clkRequested level want s.time.openFrame (decide (level = 2 ∧ s.clk.level = 1)) s.clk } := by
  have hbusy : ¬ s.clk.pend.isSome = true := by
    rw [h]
    decide
  subst hwant
  unfold actRequest
  dsimp only
  rw [if_neg hbusy]
  refine if_congr Iff.rfl rfl (if_congr Iff.rfl rfl ?_)
  split <;> rfl

theorem actRequest_of_near (h : s.clk.pend = none) (hwant : want = if nx = true then s.time.openFrame else rw64 s (baseCLK + 8))
    (hnear : want ≤ farLimit s) (hlevel : level = 1 ∨ level = 0 ∧ s.clk.level ≠ 2) :
    actRequest level nx s = { s with clk := clkRequested level want s.time.openFrame false s.clk } := by
  have hlevel3 : ¬ (level = 3 ∨ level = 0 ∧ s.clk.level = 2) := by omega
  have hwakes : decide (level = 2 ∧ s.clk.level = 1) = false := decide_eq_false (by omega)
  rw [actRequest_of_free h hwant, if_neg hlevel3, if_neg (Nat.not_lt.mpr hnear), hwakes]
  rfl

theorem actRequest_of_far (h : s.clk.pend = none) (hwant : want = if nx = true then s.time.openFrame else rw64 s (baseCLK + 8))
    (hfar : farLimit s < want) (hlevel : level = 2 ∨ level = 1 ∨ level = 0 ∧ s.clk.level ≠ 2) :
    actRequest level nx s = actRefuse 8 s := by
  have hlevel3 : ¬ (level = 3 ∨ level = 0 ∧ s.clk.level = 2) := by omega
  rw [actRequest_of_free h hwant, if_neg hlevel3, if_pos hfar]

theorem actRefuse_effect {c : Instr} (h : exec c s = .next (actRefuse code s)) :
    ∃ t, exec c s = .next t ∧ t.clk = { s.clk with result := code } ∧ Raised qCLK 0x612 0x0A code s t :=
  ⟨_, h, raiseFault_clk .., raised_of_eq _ _ _ _ _ _ rfl rfl rfl⟩

variable (hup : deviceUp s = true)
include hup

theorem exec_actReqRunning_of_deviceUp : exec (.actReqRunning nx) s = .next (actRequest 2 nx s) := congrArg Host.Outcome.next (if_pos hup)
theorem exec_actReqDozing_of_deviceUp : exec (.actReqDozing nx) s = .next (actRequest 1 nx s) := congrArg Host.Outcome.next (if_pos hup)
theorem exec_actReqAsleep_of_deviceUp : exec (.actReqAsleep nx) s = .next (actRequest 0 nx s) := congrArg Host.Outcome.next (if_pos hup)

variable (h : s.clk.pend = none) (hwant : want = if nx = true then s.time.openFrame else rw64 s (baseCLK + 8))
include h hwant

theorem actReqAsleep_of_running (hlevel : s.clk.level = 2) : exec (.actReqAsleep nx) s = .next (actRefuse 7 s) := by
  rw [exec_actReqAsleep_of_deviceUp hup, actRequest_of_free h hwant, if_pos (.inr ⟨rfl, hlevel⟩)]

section
variable (hnear : want ≤ farLimit s)
include hnear

/-- A request for RUNNING that is accepted while DOZING begins the wake, with the supplies' masks. -/
theorem actReqRunning_of_near :
    ∃ t, exec (.actReqRunning nx) s = .next t ∧ t.clk = clkRequested 2 want s.time.openFrame (decide (s.clk.level = 1)) s.clk ∧
      (s.clk.level ≠ 1 → t.mon = s.mon) ∧ { t with clk := s.clk, mon := s.mon } = s := by
  rw [exec_actReqRunning_of_deviceUp hup, actRequest_of_free h hwant, if_neg (by omega), if_neg (Nat.not_lt.mpr hnear)]
  have hwakes : decide (2 = 2 ∧ s.clk.level = 1) = decide (s.clk.level = 1) := by simp
  rw [hwakes]
  refine ⟨_, rfl, rfl, fun hlevel => ?_, ?_⟩
  · rw [decide_eq_false hlevel]
    rfl
  · obtain ⟨m, hm⟩ := maskRails_eq 0 24 (s.time.now + 200000) s
    rw [hm]
    split <;> rfl

end

end

/-! ### The wake, the fall of PWR_REQ and the wake sources -/

/-- PWR_REQ falls with the level ASLEEP, and source 0x05 holds the device at L1. -/
theorem pwrReqFall_effect (s : State) (h : s.clk.toSleep = true) (hp : 1 ≤ s.rst.phase) : ∃ t, exec .pwrReqFall s = .next t ∧
    t.clk.level = 0 ∧ t.clk.pwrReq = false ∧ t.clk.pend = none ∧ t.clk.toSleep = false ∧
    t.rst.causeSrc = 5 ∧ t.rst.causeLevel = 1 ∧ t.rst.phase = 1 ∧ t.flt.alarm = true ∧ t.outbox.getLast? = some (.pwrReq false) ∧
    t.slots.active = s.slots.active ∧ t.maps = s.maps ∧ t.keep = s.keep := by
  have hfall : exec .pwrReqFall s = .next (emit (.pwrReq false)
      (let t := assertSources [⟨5, 0⟩] 0 { s with clk := { s.clk with pend := none, toSleep := false } }
       { t with clk := { t.clk with level := 0, pwrReq := false } })) := congrArg Host.Outcome.next (if_pos h)
  have h2 : sourceLevel { s with clk := { s.clk with pend := none, toSleep := false } } (⟨5, 0⟩ : SourceReq).code ≤ 2 := Nat.le_succ 1
  obtain ⟨hsrc, hlevel, -, hphase, -, halarm⟩ := assertSources_hold 0 h2 hp
  have hkeeps := survives_assertSources 0 h2
  have hpend := assertSources_hold_keeps 0 h2 (fun t => t.clk.pend) fun _ _ hf => (congrArg (fun t : State => t.clk.pend) hf :)
  have hsleep := assertSources_hold_keeps 0 h2 (fun t => t.clk.toSleep) fun _ _ hf => (congrArg (fun t : State => t.clk.toSleep) hf :)
  rw [hfall]
  exact ⟨_, rfl, rfl, rfl, hpend, hsleep, hsrc, hlevel, hphase, halarm, List.getLast?_concat, (congrArg Prod.fst hkeeps :),
    (congrArg (fun x => x.2.1) hkeeps :), (congrArg (fun x => x.2.2) hkeeps :)⟩

section
variable {w : WakeSrc} {s : State}

theorem exec_wakeSource_of_disabled (h : wakeEnabled w s = false) : exec (.wakeSource w) s = .next s :=
  congrArg Host.Outcome.next (if_neg (by rw [h]; decide))

/-- The clocks as a wake source raises PWR_REQ. -/
def clkWoken (w : WakeSrc) (c : ClkSt) : ClkSt :=
  { c with
    pwrReq := true, level := 2, wakeCause := wakeCode w
    wakeSwitch := match w with | .switch k => k.val | _ => c.wakeSwitch }

theorem wakeSource_of_asleep (h : wakeEnabled w s = true) (hsleep : s.clk.toSleep = false) (hlevel : s.clk.level = 0) (hreq : s.clk.pwrReq = false) :
    wakeSource w s = emit (.pwrReq true) (maskRails 24 7 (s.time.now + 5000000) { s with clk := clkWoken w s.clk }) := by
  unfold wakeSource
  dsimp only
  rw [if_pos h, if_neg (by rw [hsleep]; decide), if_pos ⟨hlevel, by rw [hreq]; rfl⟩]
  cases w <;> rfl

/-- An enabled wake source in ASLEEP raises PWR_REQ and is recorded. -/
theorem wakeSource_raises (h : wakeEnabled w s = true) (hsleep : s.clk.toSleep = false) (hlevel : s.clk.level = 0) (hreq : s.clk.pwrReq = false) :
    ∃ t, exec (.wakeSource w) s = .next t ∧ t.clk.pwrReq = true ∧ t.clk.level = 2 ∧ t.clk.wakeCause = wakeCode w ∧
      t.outbox = s.outbox ++ [.pwrReq true] ∧ { t with clk := s.clk, mon := s.mon, outbox := s.outbox } = s := by
  obtain ⟨m, hm⟩ := maskRails_eq 24 7 (s.time.now + 5000000) { s with clk := clkWoken w s.clk }
  refine ⟨_, congrArg Host.Outcome.next (wakeSource_of_asleep h hsleep hlevel hreq), ?_⟩
  rw [hm]
  exact ⟨rfl, rfl, rfl, rfl, rfl⟩

theorem wakeSource_ends_sleep (h : wakeEnabled w s = true) (hsleep : s.clk.toSleep = true) :
    exec (.wakeSource w) s = .next { s with clk := { s.clk with
      pend := none, result := 0xA, waking := false, slicesReady := none, toSleep := false } } :=
  congrArg Host.Outcome.next ((if_pos h).trans (if_pos hsleep))

theorem wakeSource_awake (h : wakeEnabled w s = true) (hsleep : s.clk.toSleep = false) (hawake : s.clk.level ≠ 0 ∨ s.clk.pwrReq = true) :
    exec (.wakeSource w) s = .next s := by
  have hnot : ¬ s.clk.toSleep = true := by
    rw [hsleep]
    decide
  have hno : ¬ (s.clk.level = 0 ∧ (!s.clk.pwrReq) = true) := by
    rintro ⟨hlevel, hreq⟩
    exact hawake.elim (fun h => h hlevel) (fun h => absurd hreq (by rw [h]; decide))
  exact congrArg Host.Outcome.next ((if_pos h).trans ((if_neg hnot).trans (if_neg hno)))

end

/-- Settles O9, by the outcomes of a level request and the ends of a wake. -/
theorem activityLevels : Obligations.ActivityLevels := by
  refine ⟨fun s nx hup => ⟨fun hbusy => ?_, fun h want hwant hnear => ?_, fun h hfar => ?_⟩,
    fun s h => congrArg Host.Outcome.next (if_pos h), fun s h => ?_, pwrReqFall_effect,
    fun w s h => ⟨wakeSource_raises h, wakeSource_ends_sleep h, wakeSource_awake h⟩, fun w s h => exec_wakeSource_of_disabled h,
    fun s h => ⟨congrArg Host.Outcome.next (if_neg (by rw [h]; decide)), congrArg Host.Outcome.next (if_neg (by rw [h]; decide))⟩,
    fun s h => congrArg Host.Outcome.next (if_neg (by rw [h]; decide))⟩
  · have hrequest (level : Nat) : actRequest level nx s = actRefuse 4 s := actRequest_of_busy hbusy
    exact ⟨actRefuse_effect ((exec_actReqRunning_of_deviceUp hup).trans (congrArg Host.Outcome.next (hrequest 2))),
      actRefuse_effect ((exec_actReqDozing_of_deviceUp hup).trans (congrArg Host.Outcome.next (hrequest 1))),
      actRefuse_effect ((exec_actReqAsleep_of_deviceUp hup).trans (congrArg Host.Outcome.next (hrequest 0)))⟩
  · exact ⟨actReqRunning_of_near hup h hwant hnear,
      (exec_actReqDozing_of_deviceUp hup).trans (congrArg Host.Outcome.next (actRequest_of_near h hwant hnear (.inl rfl))),
      fun hlevel => (exec_actReqAsleep_of_deviceUp hup).trans
        (congrArg Host.Outcome.next (actRequest_of_near h hwant hnear (.inr ⟨rfl, hlevel⟩))),
      fun hlevel => actRefuse_effect (actReqAsleep_of_running hup h hwant hlevel)⟩
  · have hrequest {level : Nat} := actRequest_of_far (level := level) h rfl hfar
    exact ⟨actRefuse_effect ((exec_actReqRunning_of_deviceUp hup).trans (congrArg Host.Outcome.next (hrequest (.inl rfl)))),
      actRefuse_effect ((exec_actReqDozing_of_deviceUp hup).trans (congrArg Host.Outcome.next (hrequest (.inr (.inl rfl))))),
      fun hlevel => actRefuse_effect ((exec_actReqAsleep_of_deviceUp hup).trans
        (congrArg Host.Outcome.next (hrequest (.inr (.inr ⟨rfl, hlevel⟩)))))⟩
  · exact ⟨_, congrArg Host.Outcome.next (if_pos h), raiseFault_clk .., raised_of_eq _ _ _ _ _ _ rfl rfl rfl⟩

end Sys2Proof.Proofs
end

section
/-! Services under an authorisation block: owner slots, image keys and the floor (spec/15 R502 to R504, R508, R510, R519). -/
namespace Sys2Proof.Proofs
open Sys2Proof Sys2Proof.Machine

/-! ### A service under an authorisation block -/

section
variable {code kind r : Nat} {f : List Byte → State → Nat × State} {s t : State} {b : List Byte}

/-- A block that is not in SCRATCH is refused. -/
theorem withAuth_of_no_block (h : scratchArg s (authLen kind) = none) :
    withAuth code kind f s = ((5, []), raiseFault qSEC 0x615 0xA1 (code * 65536 + 5) s) := by
  unfold withAuth
  rw [h]

section
variable (h : scratchArg s (authLen kind) = some b)
include h

theorem withAuth_of_bad_block (hcheck : authCheck s kind b ≠ 0) :
    withAuth code kind f s = ((authCheck s kind b, []), raiseFault qSEC 0x615 0xA1 (code * 65536 + authCheck s kind b) s) := by
  unfold withAuth
  rw [h]
  exact if_pos hcheck

variable (hcheck : authCheck s kind b = 0) (hf : f (authPayload b kind) s = (r, t))
include hcheck hf

theorem withAuth_of_done (hr : r = 1 ∨ r = 0xC) : withAuth code kind f s = ((r, []), t) := by
  unfold withAuth
  rw [h]
  dsimp only
  rw [if_neg (not_not.mpr hcheck), hf]
  exact if_pos hr

theorem withAuth_of_refused (hr : ¬ (r = 1 ∨ r = 0xC)) :
    withAuth code kind f s = ((r, []), raiseFault qSEC 0x615 0xA1 (code * 65536 + r) t) := by
  unfold withAuth
  rw [h]
  dsimp only
  rw [if_neg (not_not.mpr hcheck), hf]
  exact if_neg hr

end

variable {c : Instr}

/-- A service that ends in a refusal changes nothing in the security unit, and raises kind 0xA1. -/
theorem refused_service (h : exec c s = .next (svcRun code (some (r, [])) (raiseFault qSEC 0x615 0xA1 (code * 65536 + r) s))) :
    ∃ t, exec c s = .next t ∧ t.sec = s.sec ∧ t.hst.svcDone = some (r, []) ∧ Raised qSEC 0x615 0xA1 (code * 65536 + r) s t :=
  ⟨_, h, raiseFault_sec .., rfl, raised_raiseFault ..⟩

end

/-! ### Owner slots -/

/-- A new state in which one free value has been drawn. -/
def drawn (s : State) : State := { s with freeCtr := s.freeCtr + 1 }

section
variable {p : List Byte} {s : State}

theorem burnFuse_of_failure {k : Nat} (f : State → State) (h : Config.fuseFails k (Config.freeWord s.freeCtr) = true) :
    burnFuse k f s = (0xC, drawn s) := if_pos h

theorem burnFuse_of_success {k : Nat} (f : State → State) (h : Config.fuseFails k (Config.freeWord s.freeCtr) = false) :
    burnFuse k f s = (1, f (drawn s)) := if_neg (Bool.eq_false_iff.mp h)

theorem ownBurn_of_no_slot (h : 3 < leAt p 0 1) : ownBurn p s = (5, s) := if_pos h

theorem ownBurn_of_burned (h : leAt p 0 1 ≤ 3) (hburned : s.sec.burned.getLsbD (leAt p 0 1) = true) : ownBurn p s = (6, s) :=
  (if_neg (Nat.not_lt.mpr h)).trans (if_pos hburned)

/-- The burn of an owner slot that was not burned, with the digest of its owner's key. -/
def slotBurned (p : List Byte) (s : State) : State :=
  { drawn s with sec := { s.sec with
      burned := s.sec.burned ||| BitVec.ofNat 4 (2 ^ leAt p 0 1)
      hashes := Tbl.set (constD 0) s.sec.hashes (leAt p 0 1) (digestOf ((p.drop 0x10).take 48)) } }

section
variable (h : leAt p 0 1 ≤ 3) (hburned : s.sec.burned.getLsbD (leAt p 0 1) = false)
include h hburned

theorem ownBurn_of_failure (hfail : Config.fuseFails (leAt p 0 1) (Config.freeWord s.freeCtr) = true) : ownBurn p s = (0xC, drawn s) :=
  (if_neg (Nat.not_lt.mpr h)).trans ((if_neg (by rw [hburned]; decide)).trans (burnFuse_of_failure _ hfail))

theorem ownBurn_of_success (hfail : Config.fuseFails (leAt p 0 1) (Config.freeWord s.freeCtr) = false) :
    ownBurn p s = (1, raiseFault qSEC 0x615 0xA2 (leAt p 0 1) (slotBurned p s)) :=
  (if_neg (Nat.not_lt.mpr h)).trans ((if_neg (by rw [hburned]; decide)).trans (burnFuse_of_success _ hfail))

end

/-- The slots revoked once the block's slot is revoked too. -/
def revokedWith (p : List Byte) (s : State) : BitVec 4 := s.sec.revoked ||| BitVec.ofNat 4 (2 ^ leAt p 0 1)

theorem slotRevoke_of_no_slot (h : 3 < leAt p 0 1) : slotRevoke p s = (5, s) := if_pos h

section
variable (h : leAt p 0 1 ≤ 3)
include h

theorem slotRevoke_of_last (hlast : s.sec.burned &&& ~~~revokedWith p s = 0) : slotRevoke p s = (8, s) :=
  (if_neg (Nat.not_lt.mpr h)).trans (if_pos hlast)

variable (hlast : s.sec.burned &&& ~~~revokedWith p s ≠ 0)
include hlast

theorem slotRevoke_of_failure (hfail : Config.fuseFails (4 + leAt p 0 1) (Config.freeWord s.freeCtr) = true) : slotRevoke p s = (0xC, drawn s) :=
  (if_neg (Nat.not_lt.mpr h)).trans ((if_neg hlast).trans (burnFuse_of_failure _ hfail))

theorem slotRevoke_of_success (hfail : Config.fuseFails (4 + leAt p 0 1) (Config.freeWord s.freeCtr) = false) :
    slotRevoke p s = (1, raiseFault qSEC 0x615 0xA3 (leAt p 0 1) { drawn s with sec := { s.sec with revoked := revokedWith p s } }) :=
  (if_neg (Nat.not_lt.mpr h)).trans ((if_neg hlast).trans (burnFuse_of_success _ hfail))

end
end

/-! ### The statement on owner slots -/

section
variable {s : State} {b : List Byte} {r : Nat × List Byte} {t : State} (hup : deviceUp s = true) (hfree : s.hst.svc = none)
include hup hfree

theorem exec_ownBurn_of_free (hwork : withAuth 3 1 ownBurn s = (r, t)) : exec .ownBurn s = .next (svcRun 3 (some r) t) :=
  congrArg Host.Outcome.next ((if_pos hup).trans (svcRequest_of_free hfree hwork))

theorem exec_slotRevoke_of_free (hwork : withAuth 4 2 slotRevoke s = (r, t)) : exec .slotRevoke s = .next (svcRun 4 (some r) t) :=
  congrArg Host.Outcome.next ((if_pos hup).trans (svcRequest_of_free hfree hwork))

section
variable (h : scratchArg s (authLen 1) = some b) (hcheck : authCheck s 1 b = 0)
include h hcheck

theorem ownBurn_refused {r : Nat} (hr : ¬ (r = 1 ∨ r = 0xC)) (hwork : ownBurn (authPayload b 1) s = (r, s)) :
    ∃ t, exec .ownBurn s = .next t ∧ t.sec = s.sec ∧ t.hst.svcDone = some (r, []) ∧ Raised qSEC 0x615 0xA1 (3 * 65536 + r) s t :=
  refused_service (exec_ownBurn_of_free hup hfree (withAuth_of_refused h hcheck hwork hr))

variable (hk : leAt (authPayload b 1) 0 1 ≤ 3) (hburned : s.sec.burned.getLsbD (leAt (authPayload b 1) 0 1) = false)
include hk hburned

theorem ownBurn_failed (hfail : Config.fuseFails (leAt (authPayload b 1) 0 1) (Config.freeWord s.freeCtr) = true) :
    ∃ t, exec .ownBurn s = .next t ∧ t.hst.svcDone = some (0xC, []) ∧ t.sec = s.sec ∧ t.flt = s.flt :=
  ⟨_, exec_ownBurn_of_free hup hfree (withAuth_of_done h hcheck (ownBurn_of_failure hk hburned hfail) (.inr rfl)), rfl, rfl, rfl⟩

theorem ownBurn_burns (hfail : Config.fuseFails (leAt (authPayload b 1) 0 1) (Config.freeWord s.freeCtr) = false) :
    ∃ t, exec .ownBurn s = .next t ∧ t.hst.svc = some 3 ∧ t.hst.svcDone = some (1, []) ∧
      t.sec.burned = s.sec.burned ||| BitVec.ofNat 4 (2 ^ leAt (authPayload b 1) 0 1) ∧
      Tbl.get (constD 0) t.sec.hashes (leAt (authPayload b 1) 0 1) = digestOf (((authPayload b 1).drop 0x10).take 48) ∧
      t.sec.revoked = s.sec.revoked ∧ Raised qSEC 0x615 0xA2 (leAt (authPayload b 1) 0 1) s t := by
  refine ⟨_, exec_ownBurn_of_free hup hfree (withAuth_of_done h hcheck (ownBurn_of_success hk hburned hfail) (.inl rfl)), rfl, rfl, ?_⟩
  have hsec : (raiseFault qSEC 0x615 0xA2 (leAt (authPayload b 1) 0 1) (slotBurned (authPayload b 1) s)).sec = (slotBurned (authPayload b 1) s).sec :=
    raiseFault_sec ..
  change (raiseFault _ _ _ _ _).sec.burned = _ ∧ Tbl.get _ (raiseFault _ _ _ _ _).sec.hashes _ = _ ∧ (raiseFault _ _ _ _ _).sec.revoked = _ ∧
    Raised _ _ _ _ _ (raiseFault _ _ _ _ _)
  rw [hsec]
  exact ⟨rfl, Tbl.get_set_self .., rfl, raised_of_eq _ _ _ _ _ _ rfl rfl rfl⟩

end

section
variable (h : scratchArg s (authLen 2) = some b) (hcheck : authCheck s 2 b = 0)
include h hcheck

theorem slotRevoke_refused {r : Nat} (hr : ¬ (r = 1 ∨ r = 0xC)) (hwork : slotRevoke (authPayload b 2) s = (r, s)) :
    ∃ t, exec .slotRevoke s = .next t ∧ t.sec = s.sec ∧ t.hst.svcDone = some (r, []) := by
  obtain ⟨t, ht, hsec, hdone, -⟩ := refused_service (exec_slotRevoke_of_free hup hfree (withAuth_of_refused h hcheck hwork hr))
  exact ⟨t, ht, hsec, hdone⟩

variable (hk : leAt (authPayload b 2) 0 1 ≤ 3) (hlast : s.sec.burned &&& ~~~revokedWith (authPayload b 2) s ≠ 0)
include hk hlast

theorem slotRevoke_failed (hfail : Config.fuseFails (4 + leAt (authPayload b 2) 0 1) (Config.freeWord s.freeCtr) = true) :
    ∃ t, exec .slotRevoke s = .next t ∧ t.hst.svcDone = some (0xC, []) ∧ t.sec = s.sec ∧ t.flt = s.flt :=
  ⟨_, exec_slotRevoke_of_free hup hfree (withAuth_of_done h hcheck (slotRevoke_of_failure hk hlast hfail) (.inr rfl)), rfl, rfl, rfl⟩

theorem slotRevoke_revokes (hfail : Config.fuseFails (4 + leAt (authPayload b 2) 0 1) (Config.freeWord s.freeCtr) = false) :
    ∃ t, exec .slotRevoke s = .next t ∧ t.hst.svcDone = some (1, []) ∧
      t.sec = { s.sec with revoked := revokedWith (authPayload b 2) s } ∧ Raised qSEC 0x615 0xA3 (leAt (authPayload b 2) 0 1) s t :=
  ⟨_, exec_slotRevoke_of_free hup hfree (withAuth_of_done h hcheck (slotRevoke_of_success hk hlast hfail) (.inl rfl)), rfl,
    raiseFault_sec .., raised_of_eq _ _ _ _ _ _ rfl rfl rfl⟩

end
end

/-- Settles O40, by the outcomes of a burn and of a revocation under a block. -/
theorem ownerServices : Obligations.OwnerServices := by
  intro s b k hup hfree
  refine ⟨fun h hk => ?_, fun h => refused_service (exec_ownBurn_of_free hup hfree (withAuth_of_no_block h)),
    fun h => refused_service (exec_slotRevoke_of_free hup hfree (withAuth_of_no_block h)),
    fun h hcheck => refused_service (exec_slotRevoke_of_free hup hfree (withAuth_of_bad_block h hcheck)), fun h hk hcheck hslot => ?_,
    fun h hk hcheck hslot => ?_⟩
  · subst hk
    exact ⟨fun hcheck => ownBurn_failed hup hfree h hcheck,
      fun hcheck hslot => ownBurn_refused hup hfree h hcheck (by decide) (ownBurn_of_no_slot hslot),
      fun hcheck => ownBurn_burns hup hfree h hcheck,
      fun hcheck hslot hburned => ownBurn_refused hup hfree h hcheck (by decide) (ownBurn_of_burned hslot hburned),
      fun hcheck => refused_service (exec_ownBurn_of_free hup hfree (withAuth_of_bad_block h hcheck))⟩
  · subst hk
    exact slotRevoke_refused hup hfree h hcheck (by decide) (slotRevoke_of_no_slot hslot)
  · subst hk
    exact ⟨slotRevoke_failed hup hfree h hcheck hslot, slotRevoke_revokes hup hfree h hcheck hslot,
      fun hlast => slotRevoke_refused hup hfree h hcheck (by decide) (slotRevoke_of_last hslot hlast)⟩

/-! ### Image keys and the floor -/

section
variable {p key : List Byte} {s : State}

/-- The key that unwraps an image key for this device (spec/15 R508). -/
def imageWrap (p : List Byte) : BitVec 256 := hkdf (ecdh identityScalar ((p.drop 0x10).take 96)) uidBytes (ascii "RJA-512 image key")

/-- The image key as the device stores it, sealed under a key of its own. -/
def imageKeyStored (p key : List Byte) (s : State) : State :=
  { drawn s with sec := { s.sec with
      imgKeys := Tbl.set (constD none) s.sec.imgKeys (leAt p 4 1)
                  (some (sealImageKey (leAt p 0 4) key (leBytes 12 (Config.freeWord s.freeCtr)))) } }

theorem get_imageKeyStored (p key : List Byte) (s : State) : Tbl.get (constD none) (imageKeyStored p key s).sec.imgKeys (leAt p 4 1) =
    some (sealImageKey (leAt p 0 4) key (leBytes 12 (Config.freeWord s.freeCtr))) := by
  simp [imageKeyStored]

theorem get_imageKeyStored_ne (p key : List Byte) {j : Nat} (s : State) (hj : j ≠ leAt p 4 1) :
    Tbl.get (constD none) (imageKeyStored p key s).sec.imgKeys j = Tbl.get (constD none) s.sec.imgKeys j := by
  simp [imageKeyStored, Tbl.get_set, hj]

variable (hk : leAt p 4 1 ≤ 3)
include hk

theorem imgkeyLoad_of_key
    (h : gcmDecrypt (imageWrap p) ((p.drop 0x70).take 12) (p.take 4) ((p.drop 0x7C).take 32) ((p.drop 0x9C).take 16) = some key) :
    imgkeyLoad p s = (1, imageKeyStored p key s) := by
  unfold imgkeyLoad
  rw [if_neg (Nat.not_lt.mpr hk)]
  change (match gcmDecrypt (imageWrap p) _ _ _ _ with | none => _ | some key => _) = _
  rw [h]
  rfl

theorem imgkeyLoad_of_no_key
    (h : gcmDecrypt (imageWrap p) ((p.drop 0x70).take 12) (p.take 4) ((p.drop 0x7C).take 32) ((p.drop 0x9C).take 16) = none) :
    imgkeyLoad p s = (4, s) := by
  unfold imgkeyLoad
  rw [if_neg (Nat.not_lt.mpr hk)]
  change (match gcmDecrypt (imageWrap p) _ _ _ _ with | none => _ | some key => _) = _
  rw [h]

end

/-- The index of an image key is emptied. -/
def imageKeyErased (k : Nat) (s : State) : State := { s with sec := { s.sec with imgKeys := Tbl.set (constD none) s.sec.imgKeys k none } }

theorem get_imageKeyErased (k : Nat) (s : State) : Tbl.get (constD none) (imageKeyErased k s).sec.imgKeys k = none := by
  simp [imageKeyErased]

theorem get_imageKeyErased_ne {k j : Nat} (s : State) (hj : j ≠ k) :
    Tbl.get (constD none) (imageKeyErased k s).sec.imgKeys j = Tbl.get (constD none) s.sec.imgKeys j := by
  simp [imageKeyErased, Tbl.get_set, hj]

theorem imgkeyErase_of_held {s : State} {k : Nat} (hk : k ≤ 3) (hheld : (Tbl.get (constD none) s.sec.imgKeys k).isSome = true) :
    imgkeyErase k s = (1, imageKeyErased k s) :=
  (if_neg (Nat.not_lt.mpr hk)).trans (if_neg (by rw [Option.isNone_eq_false_iff.mpr hheld]; decide))

section
variable {s : State} (hup : deviceUp s = true) (hfree : s.hst.svc = none)
include hup hfree

theorem exec_imgkeyLoad_of_free {r : Nat × List Byte} {t : State} (hwork : withAuth 5 3 imgkeyLoad s = (r, t)) :
    exec .imgkeyLoad s = .next (svcRun 5 (some r) t) :=
  congrArg Host.Outcome.next ((if_pos hup).trans (svcRequest_of_free hfree hwork))

theorem exec_imgkeyErase_of_free {r : Nat} {t : State} (hwork : imgkeyErase (svcArg s 0).toNat s = (r, t)) :
    exec .imgkeyErase s = .next (svcRun 6 (some (r, [])) t) :=
  congrArg Host.Outcome.next ((if_pos hup).trans (svcRequest_of_free hfree (congrArg plain hwork)))

theorem exec_floorRaise_of_free : exec .floorRaise s = .next (floorRaise (svcArg s 0).toNat s) :=
  congrArg Host.Outcome.next ((if_pos hup).trans (svcIfFree_of_free _ hfree))

end

/-- Settles O41, by the outcomes of each request. -/
theorem keysAndFloor : Obligations.KeysAndFloor := by
  refine ⟨fun s b p key k hup hfree h hcheck hp hk hslot => ?_, fun s b hup hfree h hcheck => ?_, fun s hup hfree hslot => ?_,
    fun s k hup hfree hk hslot => ?_, fun s v hup hfree hv => ?_⟩
  · subst hp hk
    refine ⟨fun hkey => ?_, fun hkey => ?_⟩
    · exact ⟨_, exec_imgkeyLoad_of_free hup hfree (withAuth_of_done h hcheck (imgkeyLoad_of_key hslot hkey) (.inl rfl)), rfl,
        get_imageKeyStored .., fun j hj => get_imageKeyStored_ne _ _ _ hj, rfl⟩
    · obtain ⟨t, ht, hsec, hdone, hraised⟩ := refused_service
        (exec_imgkeyLoad_of_free hup hfree (withAuth_of_refused h hcheck (imgkeyLoad_of_no_key hslot hkey) (by decide)))
      exact ⟨t, ht, hdone, hsec, hraised⟩
  · exact refused_service (exec_imgkeyLoad_of_free hup hfree (withAuth_of_bad_block h hcheck))
  · exact ⟨_, exec_imgkeyErase_of_free hup hfree (if_pos hslot), rfl, rfl⟩
  · subst hk
    refine ⟨fun hheld => ?_, fun hempty => ?_⟩
    · exact ⟨_, exec_imgkeyErase_of_free hup hfree (imgkeyErase_of_held hslot hheld), rfl, get_imageKeyErased ..,
        fun j hj => get_imageKeyErased_ne _ hj⟩
    · exact ⟨_, exec_imgkeyErase_of_free hup hfree ((if_neg (Nat.not_lt.mpr hslot)).trans (if_pos hempty)), rfl, rfl⟩
  · subst hv
    rw [exec_floorRaise_of_free hup hfree]
    unfold floorRaise
    refine ⟨fun habove hactive hvelvet => ?_, fun habove hactive hvelvet => ?_, fun hrange => ?_⟩
    · rw [if_neg (by omega), if_neg (by rw [hvelvet]; decide)]
      exact ⟨_, rfl, rfl, rfl, raiseFault_sec .., raised_of_eq _ _ _ _ _ _ rfl rfl rfl⟩
    · rw [if_neg (by omega), if_pos hvelvet]
      exact ⟨_, rfl, svcPublish_hst_svcCode .., svcPublish_sec .., intSource_flt ..⟩
    · rw [if_pos hrange]
      exact ⟨_, rfl, rfl, rfl⟩

end Sys2Proof.Proofs
end

section
/-! Input queues of the collector and the acceptance of one message (spec/16 R531, R532, R538, R541). -/
namespace Sys2Proof.Proofs
open Sys2Proof Sys2Proof.Machine

/-! ### What records and reactions leave of the collector -/

/-- The queues, the number last given, the first fault, and the status of source `u` beside the alarm it holds. -/
def acceptance (u : Nat) (s : State) : List (Nat × List FaultMsg) × Nat × (Bool × FaultMsg × Nat × Nat × Nat) × FsSt :=
  (s.flt.queues, s.flt.seq, (s.flt.ffValid, s.flt.ffMsg, s.flt.ffTime, s.flt.ffSeq, s.flt.ffSimult), { fsOf s u with alarmHeld := false })

section
variable (u : Nat) {s t : State}

theorem acceptance_of_flt (h : t.flt = s.flt) : acceptance u t = acceptance u s := by
  unfold acceptance fsOf
  rw [h]

theorem setBytes_flt (a : Nat) (bs : List Byte) (s : State) : (setBytes a bs s).flt = s.flt := by
  induction bs generalizing a s with
  | nil => rfl
  | cons b bs ih => exact ih (a + 1) (setByte a b s)

theorem acceptance_logWrite (r : LogRec) (s : State) : acceptance u (logWrite r s) = acceptance u s := by
  unfold logWrite
  split
  · rfl
  · next g _ =>
    have hflt := setBytes_flt (g.first * 0x1000 + 32 * s.flt.flHead) (faultEventBytes r) (openTile (g.first + s.flt.flHead / 128) s)
    have hlog (w : State) (l : List Nat) (h n : Nat) :
        acceptance u { w with flt := { w.flt with flOpen := l, flHead := h, flWraps := n } } = acceptance u w := rfl
    exact (hlog ..).trans (acceptance_of_flt u hflt)

theorem acceptance_ringWrite (r : LogRec) (s : State) : acceptance u (ringWrite r s) = acceptance u s := by
  unfold ringWrite
  dsimp only
  split_ifs <;> rfl

theorem acceptance_sendIbi (data : Nat) (s : State) : acceptance u (sendIbi data s) = acceptance u s := by
  unfold sendIbi
  split <;> rfl

theorem acceptance_queueTrap (v : Nat) (m : FaultMsg) (s : State) : acceptance u (queueTrap v m s) = acceptance u s := by
  refine acceptance_of_flt u ?_
  unfold queueTrap
  dsimp only
  rw [sendVector_flt]
  split <;> exact modSe_flt ..

theorem toneDrop_flt (g : Nat) (s : State) : (toneDrop g s).flt = s.flt := by
  have hcode (code chan : Nat) (t : State) : (toneCode code chan t).flt = t.flt := intSource_flt ..
  have habort : (toneAbort g s).flt = s.flt := by
    unfold toneAbort
    split
    · rfl
    · dsimp only
      split
      · exact hcode ..
      · rfl
  exact (doFor_keeps State.flt _ (fun _ _ => hcode ..) _ _).trans habort

theorem acceptance_sliceReset (k : Nat) (s : State) : acceptance u (sliceReset k s) = acceptance u s :=
  (acceptance_of_flt u (ledDrop_flt ..)).trans (acceptance_of_flt u (doFor_keeps State.flt _ toneDrop_flt _ s))

theorem acceptance_releaseSlices (m : BitVec 8) (s : State) : acceptance u (releaseSlices m s) = acceptance u s :=
  doFor_keeps (acceptance u) _ (fun k t => by
    dsimp only
    split
    · exact acceptance_sliceReset u k t
    · rfl) _ s

theorem acceptance_unitReset (v : Nat) (s : State) : acceptance u (unitReset v s) = acceptance u s := by
  unfold unitReset
  dsimp only
  split
  · split <;> rfl
  · split
    · exact (acceptance_releaseSlices u ..).trans (doFor_keeps (acceptance u) _ (acceptance_sliceReset u) _ _)
    · rfl

theorem acceptance_modFs_alarm (s : State) : acceptance u (modFs u (fun f => { f with alarmHeld := true }) s) = acceptance u s := by
  unfold acceptance
  rw [fsOf_modFs]
  rfl

theorem acceptance_ite {c : Prop} [Decidable c] (ht : acceptance u t = acceptance u s) : acceptance u (if c then t else s) = acceptance u s := by
  split
  · exact ht
  · rfl

theorem acceptance_applyReact (mask : Nat) (m : FaultMsg) (s : State) : acceptance u (applyReact u mask m s) = acceptance u s :=
  (acceptance_ite u (acceptance_unitReset u u _)).trans ((acceptance_ite u (acceptance_modFs_alarm u _)).trans
    ((acceptance_ite u (acceptance_queueTrap u u m _)).trans (acceptance_ite u (acceptance_of_flt u (intSource_flt 8 s)))))

theorem acceptance_event (t cls : Nat) (b : List Byte) (s : State) :
    acceptance u (match s.conf with
      | some i => if i.sets.evtClass ≤ cls then addEvent t b s else s
      | none => s) = acceptance u s := by
  split
  · exact acceptance_ite u rfl
  · rfl

theorem alarmEnter_acceptance (s : State) : acceptance u (alarmEnter s) = acceptance u s := by
  unfold alarmEnter
  dsimp only
  split
  · split
    · rfl
    · exact acceptance_sendIbi u ..
  · rfl

end

/-! ### One accepted message -/

/-- The first fault and the number as a message is taken (spec/16 R532, R541). -/
def numbered (t cls : Nat) (promoted : Bool) (m : FaultMsg) (s : State) : State :=
  let seq := if s.flt.seq = 0xFFFFFFFF then 1 else s.flt.seq + 1
  let s := { s with flt := { s.flt with seq } }
  if s.flt.ffValid then s
  else { s with flt := { s.flt with ffValid := true, ffClass := cls, ffPromoted := promoted, ffSimult := 0, ffMsg := m, ffTime := t, ffSeq := seq } }

/-- The status of a source latched with a message of an effective class (spec/16 R538). -/
def latchedBy (m : FaultMsg) (cls : Nat) (f : FsSt) : FsSt :=
  { f with
    latched := true, lastKind := msgKind m, maxClass := max f.maxClass cls, lastMsg := m
    momentary := f.momentary || !(msgKind m ∈ condKinds : Bool) }

section
variable (t cls q : Nat) (promoted : Bool) (m : FaultMsg) (s : State)

/-- The records and the reactions of a message change neither its number, the first fault nor the status of its source. -/
theorem acceptance_acceptOne :
    acceptance (msgSource m) (acceptOne t ((q, m), cls, promoted) s) = acceptance (msgSource m) (statusAccept m cls (numbered t cls promoted m s)) :=
  (acceptance_applyReact ..).trans ((acceptance_ite _ (acceptance_sendIbi ..)).trans ((acceptance_event ..).trans
    ((acceptance_ite _ (acceptance_ringWrite ..)).trans (acceptance_ite _ (acceptance_logWrite ..)))))

theorem statusAccept_flt : (statusAccept m cls s).flt = { s.flt with
    fs := Tbl.set (constD {}) s.flt.fs (msgSource m) (latchedBy m cls (fsOf s (msgSource m)))
    classCount := Tbl.set (constD 0) s.flt.classCount cls (satInc 32 (Tbl.get (constD 0) s.flt.classCount cls)) } := by
  unfold statusAccept
  dsimp only
  split <;> split_ifs <;> rfl

theorem fsOf_statusAccept : fsOf (statusAccept m cls s) (msgSource m) = latchedBy m cls (fsOf s (msgSource m)) := by
  unfold fsOf
  rw [statusAccept_flt]
  exact Tbl.get_set_self ..

theorem numbered_of_later (h : s.flt.ffValid = true) :
    (numbered t cls promoted m s).flt = { s.flt with seq := if s.flt.seq = 0xFFFFFFFF then 1 else s.flt.seq + 1 } :=
  congrArg State.flt (if_pos h)

theorem numbered_of_first (h : s.flt.ffValid = false) :
    (numbered t cls promoted m s).flt = { s.flt with
      seq := if s.flt.seq = 0xFFFFFFFF then 1 else s.flt.seq + 1
      ffValid := true, ffClass := cls, ffPromoted := promoted, ffSimult := 0, ffMsg := m, ffTime := t
      ffSeq := if s.flt.seq = 0xFFFFFFFF then 1 else s.flt.seq + 1 } :=
  congrArg State.flt (if_neg (Bool.eq_false_iff.mp h))

end

/-! ### The statement on the collector -/

theorem maskOf_congr {s t : State} (h : t.conf = s.conf) (q : Nat) (m : FaultMsg) (cls : Nat) : maskOf t q m cls = maskOf s q m cls := by
  unfold maskOf reactOf policyOf
  rw [h]

/-- The state once the oldest message of queue `q` is taken, and counted against its source. -/
def counted (q : Fin 28) (m : FaultMsg) (rest : List FaultMsg) (s : State) : State :=
  (countMsg m (ledConsume 8 1 { s with flt := { s.flt with queues := Tbl.set (constD []) s.flt.queues q.val rest } })).2

/-- The effective class of the message, and whether it was promoted (spec/16 R533, R534). -/
def effective (q : Fin 28) (m : FaultMsg) (rest : List FaultMsg) (s : State) : Nat × Bool :=
  (countMsg m (ledConsume 8 1 { s with flt := { s.flt with queues := Tbl.set (constD []) s.flt.queues q.val rest } })).1

section
variable {q : Fin 28} {m : FaultMsg} {rest : List FaultMsg} {s : State}

theorem msgClass_le_effective : msgClass m ≤ (effective q m rest s).1 := by
  have hraised (promoted : Bool) (c : Nat) : msgClass m ≤ if promoted then max (msgClass m) c else msgClass m := by
    split
    · exact Nat.le_max_left ..
    · exact le_rfl
  exact hraised ..

theorem acceptCycle_single (tm : Nat) (h : queueOf s q.val = m :: rest) (hchip : ∀ cls, (maskOf s q.val m cls).testBit 3 = false) :
    acceptCycle [q] tm s =
      alarmEnter (if s.flt.ffValid then acceptOne tm ((q.val, m), effective q m rest s) (counted q m rest s)
        else let t := acceptOne tm ((q.val, m), effective q m rest s) (counted q m rest s)
          { t with flt := { t.flt with ffSimult := 0 } }) := by
  have htake : takeMsgs ([q].take 8) s =
      ([(q.val, m)], ledConsume 8 1 { s with flt := { s.flt with queues := Tbl.set (constD []) s.flt.queues q.val rest } }) := by
    simp only [List.take_succ_cons, List.take_nil, takeMsgs, h]
  have hnone : chipResetSource (counted q m rest s) [((q.val, m), effective q m rest s)] = none := by
    have hmask : maskOf (counted q m rest s) q.val m = maskOf s q.val m := funext (maskOf_congr rfl q.val m)
    unfold chipResetSource
    rw [hmask, if_neg (by rw [hchip]; decide)]
    rfl
  unfold acceptCycle
  rw [htake]
  change (match chipResetSource (counted q m rest s) [((q.val, m), effective q m rest s)] with
    | some u => assertSources [{ code := 0x15, target := u }] 0 (alarmEnter _)
    | none => alarmEnter _) = _
  rw [hnone]
  rfl

/-- What the acceptance of the one message leaves in the collector. -/
theorem acceptance_single (tm : Nat) (h : queueOf s q.val = m :: rest) (hchip : ∀ cls, (maskOf s q.val m cls).testBit 3 = false) :
    acceptance (msgSource m) (acceptCycle [q] tm s) =
      acceptance (msgSource m) (statusAccept m (effective q m rest s).1
        (numbered tm (effective q m rest s).1 (effective q m rest s).2 m (counted q m rest s))) := by
  rw [acceptCycle_single tm h hchip, alarmEnter_acceptance]
  have hone := acceptance_acceptOne tm (effective q m rest s).1 q.val (effective q m rest s).2 m (counted q m rest s)
  split
  · exact hone
  · next hff =>
    have hsimult : (statusAccept m (effective q m rest s).1
        (numbered tm (effective q m rest s).1 (effective q m rest s).2 m (counted q m rest s))).flt.ffSimult = 0 := by
      have hnot : ¬ (counted q m rest s).flt.ffValid = true := hff
      rw [statusAccept_flt, numbered]
      dsimp only
      rw [if_neg hnot]
    have hsame : (acceptOne tm ((q.val, m), effective q m rest s) (counted q m rest s)).flt.ffSimult = 0 :=
      (congrArg (fun x => x.2.2.1.2.2.2.2) hone :).trans hsimult
    generalize acceptOne tm ((q.val, m), effective q m rest s) (counted q m rest s) = t at hone hsame
    refine Eq.trans ?_ hone
    change acceptance _ { t with flt := { t.flt with ffSimult := 0 } } = _
    unfold acceptance
    rw [hsame]
    rfl

end

/-- The acceptance of one queue's oldest message. -/
theorem faultAccept_single (q : Fin 28) (tm : Nat) (m : FaultMsg) (rest : List FaultMsg) (s : State) (hup : hubUp s = true)
    (h : queueOf s q.val = m :: rest) (hchip : ∀ cls, (maskOf s q.val m cls).testBit 3 = false) :
    ∃ t, exec (.faultAccept [q] tm) s = .next t ∧
      queueOf t q.val = rest ∧
      t.flt.seq = (if s.flt.seq = 0xFFFFFFFF then 1 else s.flt.seq + 1) ∧
      (fsOf t (msgSource m)).latched = true ∧ (fsOf t (msgSource m)).lastKind = msgKind m ∧ (fsOf t (msgSource m)).lastMsg = m ∧
      msgClass m ≤ (fsOf t (msgSource m)).maxClass ∧
      t.flt.ffValid = true ∧
      (s.flt.ffValid = false → t.flt.ffMsg = m ∧ t.flt.ffTime = tm ∧ t.flt.ffSeq = t.flt.seq ∧ t.flt.ffSimult = 0) ∧
      (s.flt.ffValid = true → t.flt.ffMsg = s.flt.ffMsg ∧ t.flt.ffSeq = s.flt.ffSeq) := by
  have hview := acceptance_single (s := setNow tm s) tm h hchip
  refine ⟨_, congrArg Host.Outcome.next (if_pos hup), ?_⟩
  generalize acceptCycle [q] tm (setNow tm s) = t at hview ⊢
  have hclass : msgClass m ≤ (effective q m rest (setNow tm s)).1 := msgClass_le_effective
  generalize effective q m rest (setNow tm s) = e at hview hclass
  have hfs := fsOf_statusAccept e.1 m (numbered tm e.1 e.2 m (counted q m rest (setNow tm s)))
  have hflt := statusAccept_flt e.1 m (numbered tm e.1 e.2 m (counted q m rest (setNow tm s)))
  simp only [acceptance, Prod.mk.injEq] at hview
  obtain ⟨hqueues, hseq, ⟨hvalid, hmsg, htime, hffseq, hsimult⟩, hstatus⟩ := hview
  rw [hflt] at hqueues hseq hvalid hmsg htime hffseq hsimult
  rw [hfs] at hstatus
  have hlatched := congrArg FsSt.latched hstatus
  have hkind := congrArg FsSt.lastKind hstatus
  have hlast := congrArg FsSt.lastMsg hstatus
  have hmax := congrArg FsSt.maxClass hstatus
  have hrest (hq : t.flt.queues = Tbl.set (constD []) s.flt.queues q.val rest) : queueOf t q.val = rest := by
    unfold queueOf
    rw [hq]
    exact Tbl.get_set_self ..
  have hle := (hclass.trans (Nat.le_max_right ..)).trans_eq hmax.symm
  cases hff : s.flt.ffValid with
  | true =>
    rw [numbered_of_later tm e.1 e.2 m (counted q m rest (setNow tm s)) hff] at hqueues hseq hvalid hmsg hffseq
    exact ⟨hrest hqueues, hseq, hlatched, hkind, hlast, hle, hvalid.trans hff, fun h => absurd h (by decide), fun _ => ⟨hmsg, hffseq⟩⟩
  | false =>
    rw [numbered_of_first tm e.1 e.2 m (counted q m rest (setNow tm s)) hff] at hqueues hseq hvalid hmsg htime hffseq hsimult
    exact ⟨hrest hqueues, hseq, hlatched, hkind, hlast, hle, hvalid, fun _ => ⟨hmsg, htime, hffseq.trans hseq.symm, hsimult⟩,
      fun h => absurd h (by decide)⟩

/-- Settles O3, by the room of the queue and by the acceptance of one message. -/
theorem collectorQueues : Obligations.CollectorQueues :=
  ⟨fun q m s => ⟨queueOf_queueMsg q m s, drops_queueMsg q m s, fun _ hp => queueOf_queueMsg_ne q m s hp, queueMsg_frame q m s⟩,
    faultAccept_single⟩

end Sys2Proof.Proofs
end

section
/-! Escalation timers, the alarm pair and the heartbeat (spec/16 R543 to R545, R547). -/
namespace Sys2Proof.Proofs
open Sys2Proof Sys2Proof.Machine

/-! ### Escalation timers -/

section
variable {u : BitVec 12} {v : Word} {s : State}

/-- The acknowledgement of a running timer is held for the first boundary whose cut-off has not passed at the first such write. -/
theorem escAck_of_running (hack : bitAt v 0 = true) (hbeam : isBeamId u.toNat = true) (hrun : (unitOf s u.toNat).esc.running = true) :
    ∃ t, exec (.escAck u v) s = .next t ∧
      unitOf t u.toNat = { unitOf s u.toNat with
        esc := { (unitOf s u.toNat).esc with ackAt := some ((unitOf s u.toNat).esc.ackAt.getD s.time.openFrame) } } ∧
      (∀ w, w ≠ u.toNat → unitOf t w = unitOf s w) ∧ { t with units := s.units } = s :=
  ⟨_, congrArg Host.Outcome.next (if_pos (by rw [hack, hbeam, hrun]; rfl)), unitOf_modUnit .., fun _ hw => unitOf_modUnit_ne _ _ _ hw, rfl⟩

theorem escAck_of_other (h : bitAt v 0 = false ∨ isBeamId u.toNat = false ∨ (unitOf s u.toNat).esc.running = false) :
    exec (.escAck u v) s = .next s := by
  refine congrArg Host.Outcome.next (if_neg ?_)
  rcases h with h | h | h <;> simp [h]

/-- The escalation timer of a beam that has expired. -/
def escalated (u : Nat) (s : State) : State :=
  modUnit u (fun x => { x with esc := { x.esc with running := false, expired := true, count := satInc 32 x.esc.count } }) s

theorem beamEscalation_of_expired (hrun : (unitOf s u.toNat).esc.running = true) (hleft : (unitOf s u.toNat).esc.left = 0) :
    ∃ t, exec (.beamEscalation u) s = .next t ∧
      (unitOf t u.toNat).esc.running = false ∧ (unitOf t u.toNat).esc.expired = true ∧
      (unitOf t u.toNat).esc.count = satInc 32 (unitOf s u.toNat).esc.count ∧
      Raised qFLT (parentOf s u.toNat) 0x1F u.toNat s t ∧
      (∀ w, w ≠ u.toNat → unitOf t w = unitOf s w) ∧ { t with units := s.units, flt := s.flt, fm := s.fm } = s := by
  have hexec : exec (.beamEscalation u) s = .next (raiseFault qFLT (parentOf s u.toNat) 0x1F u.toNat (escalated u.toNat s)) :=
    congrArg Host.Outcome.next (if_pos (by rw [hrun, hleft]; rfl))
  have hunits (w : Nat) : unitOf (raiseFault qFLT (parentOf s u.toNat) 0x1F u.toNat (escalated u.toNat s)) w = unitOf (escalated u.toNat s) w :=
    unitOf_congr (raiseFault_units ..) w
  have hself : unitOf (escalated u.toNat s) u.toNat = _ := unitOf_modUnit ..
  refine ⟨_, hexec, ?_⟩
  rw [hunits, hself]
  exact ⟨rfl, rfl, rfl, raised_of_eq _ _ _ _ _ _ rfl rfl rfl, fun w hw => (hunits w).trans (unitOf_modUnit_ne _ _ _ hw),
    (congrArg (fun t : State => { t with units := s.units }) (raiseFault_frame qFLT (parentOf s u.toNat) 0x1F u.toNat (escalated u.toNat s)) :)⟩

theorem beamEscalation_of_other (h : (unitOf s u.toNat).esc.running = false ∨ (unitOf s u.toNat).esc.left ≠ 0) :
    exec (.beamEscalation u) s = .next s := by
  refine congrArg Host.Outcome.next (if_neg ?_)
  rcases h with h | h <;> simp [h]

end

/-! ### The alarm pair -/

section
variable {tm : Nat} {s : State}

theorem alarmHalfPeriod_of_healthy (h : s.flt.alarm = false) :
    exec (.alarmHalfPeriod tm) s = .next { s with
      time := { s.time with now := max s.time.now tm }
      flt := { s.flt with alarmLevel := !s.flt.alarmLevel }
      outbox := s.outbox ++ [.alarm (!s.flt.alarmLevel) s.flt.alarmLevel] } :=
  congrArg Host.Outcome.next (if_neg (Bool.eq_false_iff.mp h))

theorem alarmHalfPeriod_of_alarm (h : s.flt.alarm = true) : exec (.alarmHalfPeriod tm) s = exec (.alarmExit tm) s :=
  congrArg Host.Outcome.next (if_pos h)

/-- The alarm state ends where no condition holds, the conditions ended before now, and the minimum time is over. -/
theorem exec_alarmExit (h : s.flt.alarm = true) :
    exec (.alarmExit tm) s = .next (if alarmDue s = false ∧ s.flt.alarmFree < tm ∧ s.flt.alarmHold ≤ tm then
      { s with
        time := { s.time with now := max s.time.now tm }
        flt := { s.flt with alarm := false, alarmLevel := !s.flt.alarmLevel }
        outbox := s.outbox ++ [.alarm (!s.flt.alarmLevel) s.flt.alarmLevel] }
      else { s with time := { s.time with now := max s.time.now tm } }) := by
  have hdue : alarmDue (setNow tm s) = alarmDue s := rfl
  refine congrArg Host.Outcome.next (if_congr ?_ rfl rfl)
  change (s.flt.alarm && !alarmDue (setNow tm s) && decide (s.flt.alarmFree < tm) && decide (s.flt.alarmHold ≤ tm)) = true ↔ _
  rw [h, hdue, Bool.true_and, Bool.and_eq_true, Bool.and_eq_true, Bool.not_eq_true', decide_eq_true_iff, decide_eq_true_iff, and_assoc]

theorem alarmExit_ends (h : s.flt.alarm = true) (hdue : alarmDue s = false) (hfree : s.flt.alarmFree < tm) (hhold : s.flt.alarmHold ≤ tm) :
    exec (.alarmExit tm) s = .next { s with
      time := { s.time with now := max s.time.now tm }
      flt := { s.flt with alarm := false, alarmLevel := !s.flt.alarmLevel }
      outbox := s.outbox ++ [.alarm (!s.flt.alarmLevel) s.flt.alarmLevel] } := by
  rw [exec_alarmExit h, if_pos ⟨hdue, hfree, hhold⟩]

theorem alarmExit_holds (h : s.flt.alarm = true) (hheld : alarmDue s = true ∨ tm ≤ s.flt.alarmFree ∨ tm < s.flt.alarmHold) :
    exec (.alarmExit tm) s = .next { s with time := { s.time with now := max s.time.now tm } } := by
  rw [exec_alarmExit h, if_neg]
  rintro ⟨hdue, hfree, hhold⟩
  rcases hheld with hheld | hheld | hheld
  · exact absurd hheld (Bool.eq_false_iff.mp hdue)
  · exact absurd hfree (Nat.not_lt.mpr hheld)
  · exact absurd hheld (Nat.not_lt.mpr hhold)

/-! ### The heartbeat -/

/-- The state in which the fawn domain has noted a heartbeat. -/
def heartbeatNoted (tm : Nat) (s : State) : State :=
  { s with time := { s.time with now := max s.time.now tm }, flt := { s.flt with hbLast := tm } }

theorem exec_heartbeat (hup : deviceUp s = true) (hlock : s.clk.coreLock = true) :
    exec (.heartbeat tm) s = .next (if s.flt.hbLost = true ∧ 1000000 ≤ tm - s.flt.hbLast then
      raiseFault qFLT 0x613 0xBC (min ((tm - s.flt.hbLast) / 1000) (2 ^ 32 - 1)) (heartbeatNoted tm s) else heartbeatNoted tm s) := by
  have hruns : (deviceUp (setNow tm s) && s.clk.coreLock) = true := by
    rw [hlock, Bool.and_true]
    exact hup
  refine congrArg Host.Outcome.next ((if_pos hruns).trans (if_congr ?_ rfl rfl))
  change (s.flt.hbLost && decide (1000000 ≤ tm - s.flt.hbLast)) = true ↔ _
  rw [Bool.and_eq_true, decide_eq_true_iff]

theorem heartbeat_effect (hup : deviceUp s = true) (hlock : s.clk.coreLock = true) :
    ∃ t, exec (.heartbeat tm) s = .next t ∧ t.flt.hbLast = tm ∧
      (s.flt.hbLost = false ∨ tm < s.flt.hbLast + 1000000 →
        t = { s with time := { s.time with now := max s.time.now tm }, flt := { s.flt with hbLast := tm } }) ∧
      (s.flt.hbLost = true → s.flt.hbLast + 1000000 ≤ tm →
        Raised qFLT 0x613 0xBC (min ((tm - s.flt.hbLast) / 1000) (2 ^ 32 - 1)) s t) := by
  refine ⟨_, exec_heartbeat hup hlock, ?_⟩
  by_cases h : s.flt.hbLost = true ∧ 1000000 ≤ tm - s.flt.hbLast
  · rw [if_pos h]
    refine ⟨raiseFault_flt_hbLast .., fun hno => ?_, fun _ _ => raised_of_eq _ _ _ _ _ _ rfl rfl rfl⟩
    rcases hno with hno | hno
    · exact absurd h.1 (Bool.eq_false_iff.mp hno)
    · omega
  · rw [if_neg h]
    exact ⟨rfl, fun _ => rfl, fun hlost hgap => absurd ⟨hlost, by omega⟩ h⟩

/-- 1 ms without a heartbeat sets HB_LOST and the alarm state. -/
theorem heartbeatLost_effect (hgap : s.flt.hbLast + 1000000 ≤ tm) (hlost : s.flt.hbLost = false) :
    ∃ t, exec (.heartbeatLost tm) s = .next t ∧ t.flt.hbLost = true ∧ t.flt.hbLostAt = tm ∧ t.flt.alarm = true ∧
      { t with time := s.time, flt := s.flt, outbox := s.outbox } = s := by
  have hcond : (decide (s.flt.hbLast + 1000000 ≤ tm) && !s.flt.hbLost) = true := by
    rw [hlost, decide_eq_true hgap]
    rfl
  have hdue (t : State) (h : t.flt.hbLost = true) : alarmDue t = true := by
    unfold alarmDue
    simp [h]
  refine ⟨_, congrArg Host.Outcome.next (if_pos hcond), alarmEnter_flt_hbLost _, alarmEnter_flt_hbLostAt _, alarm_alarmEnter (hdue _ rfl), ?_⟩
  exact (congrArg (fun t : State => { t with time := s.time, flt := s.flt })
    (alarmEnter_frame { setNow tm s with flt := { s.flt with hbLost := true, hbLostAt := tm } }) :)

end

/-- Settles O5, by the outcomes of each event of a timer, of the alarm pair and of the heartbeat. -/
theorem escalationAndAlarm : Obligations.EscalationAndAlarm :=
  ⟨⟨fun _ _ _ => ⟨escAck_of_running, escAck_of_other⟩, fun _ _ => beamEscalation_of_expired, fun _ _ => beamEscalation_of_other⟩,
   fun _ _ => alarmHalfPeriod_of_healthy, fun _ _ h => ⟨alarmHalfPeriod_of_alarm h, alarmExit_ends h, alarmExit_holds h⟩,
   fun _ _ => heartbeat_effect, fun _ _ => heartbeatLost_effect⟩

end Sys2Proof.Proofs
end

section
/-! Temperature sensors, rails, ring oscillators, aging monitors and the odometer (spec/16 R550 to R555; spec/17 R569). -/
namespace Sys2Proof.Proofs
open Sys2Proof Sys2Proof.Machine Sys2Proof.Laws

/-! ### What the monitors change, and conditions of one sensor -/

/-- Of the state, only the monitors, the faults and the ledger have changed. -/
def MonOnly (s t : State) : Prop := { t with mon := s.mon, flt := s.flt, fm := s.fm } = s

section
variable {s t u : State}

theorem MonOnly.trans (hst : MonOnly s t) (htu : MonOnly t u) : MonOnly s u :=
  (congrArg (fun x : State => { x with mon := s.mon, flt := s.flt, fm := s.fm }) htu :).trans hst

theorem FaultsOnly.monOnly (h : FaultsOnly s t) : MonOnly s t := (congrArg (fun x : State => { x with mon := s.mon }) h :)

theorem monOnly_setCond (q unit kind sub : Nat) (b : Bool) (detail : Nat) (s : State) : MonOnly s (setCond q unit kind sub b detail s) :=
  FaultsOnly.monOnly (setCond_frame q unit kind sub b detail s)

theorem monOnly_modTemp (k : Nat) (f : TempSt → TempSt) (s : State) : MonOnly s (modTemp k f s) := rfl
theorem monOnly_modRail (r : Nat) (f : RailSt → RailSt) (s : State) : MonOnly s (modRail r f s) := rfl

/-- Conditions of one unit and one sensor, of different kinds, are set apart. -/
theorem condOf_setCond_kind (q unit kind sub : Nat) (b : Bool) (detail : Nat) (s : State) {kind' : Nat} (h : kind' ≠ kind) :
    condOf (setCond q unit kind sub b detail s) unit kind' sub = condOf s unit kind' sub := by
  have hkey : condKey unit kind' sub ≠ condKey unit kind sub := by
    unfold condKey
    omega
  have hget : Tbl.get (constD false) (Tbl.set (constD false) s.flt.conds (condKey unit kind sub) b) (condKey unit kind' sub) = condOf s unit kind' sub :=
    Tbl.get_set_ne _ _ _ hkey
  unfold setCond
  dsimp only
  split
  · unfold condOf
    rw [raiseFault_flt_conds]
    exact hget
  · exact hget

/-- A condition that sets raises its kind, also after updates that leave the queues, the configuration and the frame number alone. -/
theorem raised_setCond_of_eq (q unit kind sub detail : Nat) (hcond : condOf t unit kind sub = false) (hq : t.flt.queues = s.flt.queues)
    (hc : t.conf = s.conf) (hf : t.time.frame = s.time.frame) : Raised q unit kind detail s (setCond q unit kind sub true detail t) := by
  unfold setCond
  dsimp only
  rw [hcond]
  exact raised_of_eq q unit kind detail s _ hq hc hf

end

/-! ### Temperature sensors -/

section
variable {lim r : Int} {x : Bool}

theorem hysteresis_above : (if lim < r then true else if r ≤ lim - 32 then false else x) = true ↔ lim < r ∨ (lim < r + 32 ∧ x = true) := by
  split_ifs with habove hback
  · exact ⟨fun _ => .inl habove, fun _ => rfl⟩
  · exact ⟨fun h => absurd h (by decide), fun h => by omega⟩
  · exact ⟨fun h => .inr ⟨by omega, h⟩, fun h => (h.resolve_left habove).2⟩

theorem hysteresis_below : (if r < lim then true else if lim + 32 ≤ r then false else x) = true ↔ r < lim ∨ (r < lim + 32 ∧ x = true) := by
  split_ifs with hbelow hback
  · exact ⟨fun _ => .inl hbelow, fun _ => rfl⟩
  · exact ⟨fun h => absurd h (by decide), fun h => by omega⟩
  · exact ⟨fun h => .inr ⟨by omega, h⟩, fun h => (h.resolve_left hbelow).2⟩

end

/-- Sensor `k` after a good conversion. -/
def tempRead (k : Nat) (r : Int) (s : State) : TempSt :=
  { reading := r
    bad := decide (r < -880) || decide (2400 < r)
    high := if sfld (inF s (baseMON + 0x80 + 4 * k)) 16 16 < r then true
            else if r ≤ sfld (inF s (baseMON + 0x80 + 4 * k)) 16 16 - 32 then false else (tempOf s k).high
    warn := if sfld (inF s (baseMON + 0x80 + 4 * k)) 0 16 < r then true
            else if r ≤ sfld (inF s (baseMON + 0x80 + 4 * k)) 0 16 - 32 then false else (tempOf s k).warn
    low := if r < sfld (inF s (baseMON + 0xE0)) 0 16 then true
           else if sfld (inF s (baseMON + 0xE0)) 0 16 + 32 ≤ r then false else (tempOf s k).low
    hot := if 1920 < r then (tempOf s k).hot + 1 else 0
    seen := true }

/-- The detail of a reading of sensor `k` (spec/16 Table 16-9). -/
def tempDetail (k : Nat) (r : Int) : Nat := k * 2 ^ 16 + unsig 16 r

/-- The thermal trip noted by the fawn domain until P7. -/
def tripNoted (k : Nat) (r : Int) (s : State) : State :=
  { s with flt := { s.flt with heldBack := s.flt.heldBack ++ [(0x614, 0xB2, tempDetail k r)] } }

section
variable {k : Fin 24} {r : Int} {s : State}

theorem tempConvert_good (k : Nat) (r : Int) (s : State) : tempConvert k r false s =
    setCond qMON (tempUnit k) 0xB3 k (tempRead k r s).low (tempDetail k r) (setCond qMON (tempUnit k) 0xB1 k (tempRead k r s).high (tempDetail k r)
      (setCond qMON (tempUnit k) 0xB0 k (tempRead k r s).warn (tempDetail k r)
        (modTemp k (fun _ => tempRead k r s) (setCond qMON (tempUnit k) 0xBB k (tempRead k r s).bad (k * 2 ^ 16) s)))) := rfl

theorem tempOf_congr {s t : State} (h : t.mon = s.mon) (k : Nat) : tempOf t k = tempOf s k := by
  unfold tempOf
  rw [h]

theorem mon_tempConvert (k : Nat) (r : Int) (s : State) :
    (tempConvert k r false s).mon = (modTemp k (fun _ => tempRead k r s) (setCond qMON (tempUnit k) 0xBB k (tempRead k r s).bad (k * 2 ^ 16) s)).mon := by
  rw [tempConvert_good, setCond_mon, setCond_mon, setCond_mon]

theorem tempOf_tempConvert (k : Nat) (r : Int) (s : State) : tempOf (tempConvert k r false s) k = tempRead k r s :=
  (tempOf_congr (mon_tempConvert k r s) k).trans (tempOf_modTemp ..)

theorem tempOf_tempConvert_ne (k : Nat) (r : Int) (s : State) {j : Nat} (hj : j ≠ k) : tempOf (tempConvert k r false s) j = tempOf s j :=
  (tempOf_congr (mon_tempConvert k r s) j).trans ((tempOf_modTemp_ne _ _ _ hj).trans (tempOf_congr (setCond_mon ..) j))

theorem monOnly_tempConvert (k : Nat) (r : Int) (s : State) : MonOnly s (tempConvert k r false s) := by
  rw [tempConvert_good]
  exact (monOnly_setCond ..).trans ((monOnly_modTemp ..).trans
    ((monOnly_setCond ..).trans ((monOnly_setCond ..).trans (monOnly_setCond ..))))

/-- The conditions of a sensor follow its status. -/
theorem condOf_tempConvert (k : Nat) (r : Int) (s : State) :
    condOf (tempConvert k r false s) (tempUnit k) 0xB0 k = (tempRead k r s).warn ∧
    condOf (tempConvert k r false s) (tempUnit k) 0xB1 k = (tempRead k r s).high ∧
    condOf (tempConvert k r false s) (tempUnit k) 0xB3 k = (tempRead k r s).low ∧
    condOf (tempConvert k r false s) (tempUnit k) 0xBB k = (tempRead k r s).bad := by
  have hmod (u kind : Nat) (t : State) : condOf (modTemp k (fun _ => tempRead k r s) t) u kind k = condOf t u kind k := rfl
  rw [tempConvert_good]
  refine ⟨?_, ?_, condOf_setCond .., ?_⟩
  · rw [condOf_setCond_kind _ _ _ _ _ _ _ (by decide), condOf_setCond_kind _ _ _ _ _ _ _ (by decide), condOf_setCond]
  · rw [condOf_setCond_kind _ _ _ _ _ _ _ (by decide), condOf_setCond]
  · rw [condOf_setCond_kind _ _ _ _ _ _ _ (by decide), condOf_setCond_kind _ _ _ _ _ _ _ (by decide),
      condOf_setCond_kind _ _ _ _ _ _ _ (by decide), hmod, condOf_setCond]

variable (hup : hubUp s = true)
include hup

theorem exec_tempConversion_good :
    exec (.tempConversion k r false) s = .next (thermalTrip k.val r (tempConvert k.val r false s)) := congrArg Host.Outcome.next (if_pos hup)

/-- A good conversion, not the second in a row above 120 degC. -/
theorem tempConversion_of_cool (h : r ≤ 1920 ∨ (tempOf s k.val).hot = 0) : ∃ t, exec (.tempConversion k r false) s = .next t ∧
      (tempOf t k.val).reading = r ∧ (tempOf t k.val).hot = (if 1920 < r then 1 else 0) ∧ (tempOf t k.val).seen = true ∧
      ((tempOf t k.val).bad = true ↔ r < -880 ∨ 2400 < r) ∧
      ((tempOf t k.val).high = true ↔ sfld (inF s (baseMON + 0x80 + 4 * k.val)) 16 16 < r ∨
        (sfld (inF s (baseMON + 0x80 + 4 * k.val)) 16 16 < r + 32 ∧ (tempOf s k.val).high = true)) ∧
      ((tempOf t k.val).warn = true ↔ sfld (inF s (baseMON + 0x80 + 4 * k.val)) 0 16 < r ∨
        (sfld (inF s (baseMON + 0x80 + 4 * k.val)) 0 16 < r + 32 ∧ (tempOf s k.val).warn = true)) ∧
      ((tempOf t k.val).low = true ↔ r < sfld (inF s (baseMON + 0xE0)) 0 16 ∨
        (r < sfld (inF s (baseMON + 0xE0)) 0 16 + 32 ∧ (tempOf s k.val).low = true)) ∧
      condOf t (tempUnit k.val) 0xB0 k.val = (tempOf t k.val).warn ∧ condOf t (tempUnit k.val) 0xB1 k.val = (tempOf t k.val).high ∧
      condOf t (tempUnit k.val) 0xB3 k.val = (tempOf t k.val).low ∧ condOf t (tempUnit k.val) 0xBB k.val = (tempOf t k.val).bad ∧
      (∀ j, j ≠ k.val → tempOf t j = tempOf s j) ∧ { t with mon := s.mon, flt := s.flt, fm := s.fm } = s := by
  have hread := tempOf_tempConvert k.val r s
  have hhot : (tempRead k.val r s).hot = if 1920 < r then 1 else 0 := by
    change (if 1920 < r then (tempOf s k.val).hot + 1 else 0) = _
    refine ite_congr rfl (fun hr => ?_) fun _ => rfl
    rw [h.resolve_left (by omega)]
  have hcool : ¬ 2 ≤ (tempOf (tempConvert k.val r false s) k.val).hot := by
    rw [hread, hhot]
    split <;> decide
  obtain ⟨hwarn, hhigh, hlow, hbad⟩ := condOf_tempConvert k.val r s
  rw [exec_tempConversion_good hup, thermalTrip, if_neg hcool]
  refine ⟨_, rfl, ?_⟩
  rw [hread]
  refine ⟨rfl, hhot, rfl, ?_, hysteresis_above, hysteresis_above, hysteresis_below, hwarn, hhigh, hlow, hbad,
    fun j hj => tempOf_tempConvert_ne k.val r s hj, monOnly_tempConvert k.val r s⟩
  exact (Bool.or_eq_true _ _).to_iff.trans (or_congr decide_eq_true_iff decide_eq_true_iff)

/-- A failed conversion marks the sensor bad and keeps the reading. -/
theorem tempConversion_of_failure : ∃ t, exec (.tempConversion k r true) s = .next t ∧
      tempOf t k.val = { tempOf s k.val with bad := true, seen := true } ∧
      condOf t (tempUnit k.val) 0xBB k.val = true ∧
      (condOf s (tempUnit k.val) 0xBB k.val = false → Raised qMON (tempUnit k.val) 0xBB (k.val * 2 ^ 16) s t) ∧
      (∀ j, j ≠ k.val → tempOf t j = tempOf s j) ∧ { t with mon := s.mon, flt := s.flt, fm := s.fm } = s := by
  have hcond := monOnly_setCond qMON (tempUnit k.val) 0xBB k.val true (k.val * 2 ^ 16) s
  have hmon (j : Nat) : tempOf (setCond qMON (tempUnit k.val) 0xBB k.val true (k.val * 2 ^ 16) s) j = tempOf s j := tempOf_congr (setCond_mon ..) j
  have hexec : exec (.tempConversion k r true) s = .next (modTemp k.val (fun x => { x with bad := true, seen := true })
      (setCond qMON (tempUnit k.val) 0xBB k.val true (k.val * 2 ^ 16) s)) := congrArg Host.Outcome.next (if_pos hup)
  rw [hexec]
  refine ⟨_, rfl, ?_, condOf_setCond .., fun h => raised_of_queue_eq (raised_setCond _ _ _ _ _ _ h) rfl, fun j hj => ?_, hcond⟩
  · rw [tempOf_modTemp, hmon]
  · rw [tempOf_modTemp_ne _ _ _ hj, hmon]

/-- The thermal trip: a second consecutive reading above 120 degC asserts source 0x03. -/
theorem tempConversion_of_trip (hr : 1920 < r) (hhot : 1 ≤ (tempOf s k.val).hot) : ∃ t, exec (.tempConversion k r false) s = .next t ∧
      t.rst.causeSrc = 3 ∧ t.rst.causeLevel = 1 ∧ t.rst.causeDetail = k.val * 2 ^ 16 + unsig 16 r ∧
      t.rst.phase = 1 ∧ t.rst.wait = true ∧ t.flt.alarm = true ∧
      t.flt.heldBack = s.flt.heldBack ++ [(0x614, 0xB2, k.val * 2 ^ 16 + unsig 16 r)] ∧
      t.sec.burned = s.sec.burned ∧ t.slots.active = s.slots.active ∧ t.maps = s.maps := by
  have hread := tempOf_tempConvert k.val r s
  have htrips : 2 ≤ (tempOf (tempConvert k.val r false s) k.val).hot := by
    rw [hread]
    change 2 ≤ if 1920 < r then (tempOf s k.val).hot + 1 else 0
    rw [if_pos hr]
    omega
  have hheld : (tempConvert k.val r false s).flt.heldBack = s.flt.heldBack := by
    rw [tempConvert_good, setCond_flt_heldBack, setCond_flt_heldBack, setCond_flt_heldBack]
    exact setCond_flt_heldBack ..
  have hmon := monOnly_tempConvert k.val r s
  have hkept : kept (thermalTrip k.val r (tempConvert k.val r false s)) = kept s := (kept_thermalTrip ..).trans (kept_tempConvert ..)
  have hphase : 1 ≤ (tempConvert k.val r false s).rst.phase := by
    have hrst : (tempConvert k.val r false s).rst = s.rst := (congrArg State.rst hmon :)
    have h4 : 4 ≤ s.rst.phase := by
      simp only [hubUp, Bool.and_eq_true, decide_eq_true_eq] at hup
      exact hup.1.1
    rw [hrst]
    omega
  rw [exec_tempConversion_good hup]
  refine ⟨_, rfl, ?_⟩
  rw [thermalTrip, if_pos htrips] at hkept ⊢
  have h2 : sourceLevel (tripNoted k.val r (tempConvert k.val r false s)) (⟨3, 0⟩ : SourceReq).code ≤ 2 := Nat.le_succ 1
  obtain ⟨hsrc, hlevel, hdetail, hp, hwait, halarm⟩ := assertSources_hold (tempDetail k.val r) h2 hphase
  have hchip := survivesChip_assertSources (tempDetail k.val r) h2 Nat.one_ne_zero
  have hkeeps := survives_assertSources (tempDetail k.val r) h2
  exact ⟨hsrc, hlevel, hdetail, hp, hwait, halarm, ((congrArg Prod.snd hchip :) : _).trans (congrArg (· ++ _) hheld), (congrArg (fun x => x.2.1) hkept :),
    ((congrArg Prod.fst hkeeps :) : _).trans (congrArg (fun t : State => t.slots.active) hmon :),
    ((congrArg (fun x => x.2.1) hkeeps :) : _).trans (congrArg State.maps hmon :)⟩

end

/-! ### Rails -/

/-- A rail below the limit `f` of its window, in parts per thousand (spec/16 R552). -/
def railUnder (r f mv : Nat) : Bool := decide (railNom r * f < (railNom r - mv) * 1000)
def railOver (r f mv : Nat) : Bool := decide (railNom r * f < (mv - railNom r) * 1000)

/-- Rail `r` after an unmasked sample. -/
def railRead (r mv : Nat) (s : State) : RailSt :=
  let under := railUnder r (fld (inF s (baseMON + 0x180 + 4 * r)) 0 8) mv
  let above := railOver r (fld (inF s (baseMON + 0x180 + 4 * r)) 8 8) mv
  let uvRun := if under then min 3 ((railOf s r).uvRun + 1) else 0
  let ovRun := if above then min 3 ((railOf s r).ovRun + 1) else 0
  { railOf s r with
    mv, uvRun, ovRun
    uv := under && ((railOf s r).uv || uvRun == 3)
    ov := above && ((railOf s r).ov || ovRun == 3) }

section
variable {r mv : Nat} {s : State}

theorem railOf_congr {s t : State} (h : t.mon = s.mon) (k : Nat) : railOf t k = railOf s k := by
  unfold railOf
  rw [h]

theorem railSample_of_masked (h : railMasked s r = true) : railSample r mv s =
    setCond qMON (railUnit r) 0xB5 r false 0 (setCond qMON (railUnit r) 0xB4 r false 0
      (modRail r (fun x => { x with mv, uv := false, ov := false, uvRun := 0, ovRun := 0 }) s)) := if_pos h

theorem railSample_of_unmasked (h : railMasked s r = false) : railSample r mv s =
    setCond qMON (railUnit r) 0xB5 r (railRead r mv s).ov (r * 2 ^ 16 + mv % 65536)
      (setCond qMON (railUnit r) 0xB4 r (railRead r mv s).uv (r * 2 ^ 16 + mv % 65536) (modRail r (fun _ => railRead r mv s) s)) :=
  if_neg (Bool.eq_false_iff.mp h)

/-- A rail sampled: its status, and the two conditions set after it. -/
theorem rail_conditions (f : RailSt → RailSt) (uv ov : Bool) (d e : Nat) (s : State) :
    railOf (setCond qMON (railUnit r) 0xB5 r ov d (setCond qMON (railUnit r) 0xB4 r uv e (modRail r f s))) r = f (railOf s r) ∧
    (∀ j, j ≠ r → railOf (setCond qMON (railUnit r) 0xB5 r ov d (setCond qMON (railUnit r) 0xB4 r uv e (modRail r f s))) j = railOf s j) ∧
    condOf (setCond qMON (railUnit r) 0xB5 r ov d (setCond qMON (railUnit r) 0xB4 r uv e (modRail r f s))) (railUnit r) 0xB4 r = uv ∧
    condOf (setCond qMON (railUnit r) 0xB5 r ov d (setCond qMON (railUnit r) 0xB4 r uv e (modRail r f s))) (railUnit r) 0xB5 r = ov ∧
    MonOnly s (setCond qMON (railUnit r) 0xB5 r ov d (setCond qMON (railUnit r) 0xB4 r uv e (modRail r f s))) := by
  have hmon (j : Nat) : railOf (setCond qMON (railUnit r) 0xB5 r ov d (setCond qMON (railUnit r) 0xB4 r uv e (modRail r f s))) j =
      railOf (modRail r f s) j := railOf_congr ((setCond_mon ..).trans (setCond_mon ..)) j
  refine ⟨(hmon r).trans (railOf_modRail ..), fun j hj => (hmon j).trans (railOf_modRail_ne _ _ _ hj), ?_, condOf_setCond .., ?_⟩
  · rw [condOf_setCond_kind _ _ _ _ _ _ _ (by decide), condOf_setCond]
  · exact (monOnly_modRail ..).trans ((monOnly_setCond ..).trans (monOnly_setCond ..))

/-- A rail is not under and over its window at once. -/
theorem railRead_exclusive (h : (railRead r mv s).uv = true) : (railRead r mv s).ov = false := by
  have hunder : railUnder r (fld (inF s (baseMON + 0x180 + 4 * r)) 0 8) mv = true := (Bool.and_eq_true_iff.mp h).1
  have hover : railOver r (fld (inF s (baseMON + 0x180 + 4 * r)) 8 8) mv = false := by
    have hlow := of_decide_eq_true hunder
    refine decide_eq_false ?_
    omega
  exact (congrArg (· && _) hover).trans (Bool.false_and _)

theorem railRead_run {c x : Bool} {n : Nat} :
    (c && (x || (if c then min 3 (n + 1) else 0) == 3)) = true ↔ c = true ∧ (x = true ∨ 2 ≤ n) := by
  cases c with
  | false => simp
  | true =>
    cases x with
    | true => simp
    | false => simp

end

section
variable {r : Fin 32} {mv : Nat} {s : State}

theorem railSample_masked_effect (h : railMasked s r.val = true) :
    railOf (railSample r.val mv s) r.val = { railOf s r.val with mv, uv := false, ov := false, uvRun := 0, ovRun := 0 } ∧
      condOf (railSample r.val mv s) (railUnit r.val) 0xB4 r.val = false ∧ condOf (railSample r.val mv s) (railUnit r.val) 0xB5 r.val = false ∧
      queueOf (railSample r.val mv s) qMON = queueOf s qMON := by
  rw [railSample_of_masked h]
  obtain ⟨hself, -, huv, hov, -⟩ := rail_conditions (r := r.val) (fun x => { x with mv, uv := false, ov := false, uvRun := 0, ovRun := 0 })
    false false 0 0 s
  refine ⟨hself, huv, hov, ?_⟩
  unfold queueOf
  rw [queues_setCond_off _ _ _ _ _ _ _ (.inl rfl), queues_setCond_off _ _ _ _ _ _ _ (.inl rfl)]
  rfl

theorem railSample_unmasked_effect (h : railMasked s r.val = false) :
    ((railOf (railSample r.val mv s) r.val).uv = true ↔
      railNom r.val * fld (inF s (baseMON + 0x180 + 4 * r.val)) 0 8 < (railNom r.val - mv) * 1000 ∧
        ((railOf s r.val).uv = true ∨ 2 ≤ (railOf s r.val).uvRun)) ∧
    ((railOf (railSample r.val mv s) r.val).ov = true ↔
      railNom r.val * fld (inF s (baseMON + 0x180 + 4 * r.val)) 8 8 < (mv - railNom r.val) * 1000 ∧
        ((railOf s r.val).ov = true ∨ 2 ≤ (railOf s r.val).ovRun)) ∧
    (railOf (railSample r.val mv s) r.val).uvRun = (if railNom r.val * fld (inF s (baseMON + 0x180 + 4 * r.val)) 0 8 < (railNom r.val - mv) * 1000
      then min 3 ((railOf s r.val).uvRun + 1) else 0) ∧
    (railOf (railSample r.val mv s) r.val).ovRun = (if railNom r.val * fld (inF s (baseMON + 0x180 + 4 * r.val)) 8 8 < (mv - railNom r.val) * 1000
      then min 3 ((railOf s r.val).ovRun + 1) else 0) ∧
    condOf (railSample r.val mv s) (railUnit r.val) 0xB4 r.val = (railOf (railSample r.val mv s) r.val).uv ∧
    condOf (railSample r.val mv s) (railUnit r.val) 0xB5 r.val = (railOf (railSample r.val mv s) r.val).ov ∧
    ((railOf (railSample r.val mv s) r.val).uv = true → condOf s (railUnit r.val) 0xB4 r.val = false →
      Raised qMON (railUnit r.val) 0xB4 (r.val * 2 ^ 16 + mv % 65536) s (railSample r.val mv s)) ∧
    ((railOf (railSample r.val mv s) r.val).ov = true → condOf s (railUnit r.val) 0xB5 r.val = false →
      Raised qMON (railUnit r.val) 0xB5 (r.val * 2 ^ 16 + mv % 65536) s (railSample r.val mv s)) := by
  rw [railSample_of_unmasked h]
  obtain ⟨hself, -, huv, hov, -⟩ := rail_conditions (r := r.val) (fun _ => railRead r.val mv s) (railRead r.val mv s).uv
    (railRead r.val mv s).ov (r.val * 2 ^ 16 + mv % 65536) (r.val * 2 ^ 16 + mv % 65536) s
  rw [hself]
  refine ⟨railRead_run.trans (and_congr decide_eq_true_iff Iff.rfl), railRead_run.trans (and_congr decide_eq_true_iff Iff.rfl),
    if_congr decide_eq_true_iff rfl rfl, if_congr decide_eq_true_iff rfl rfl, huv, hov, fun hlow hcond => ?_, fun hhigh hcond => ?_⟩
  · rw [railRead_exclusive hlow, hlow]
    have hset := raised_setCond_of_eq (s := s) (t := modRail r.val (fun _ => railRead r.val mv s) s) qMON (railUnit r.val) 0xB4 r.val
      (r.val * 2 ^ 16 + mv % 65536) hcond rfl rfl rfl
    refine raised_of_queue_eq hset ?_
    unfold queueOf
    rw [queues_setCond_off _ _ _ _ _ _ _ (.inl rfl)]
  · have hnotlow : (railRead r.val mv s).uv = false := by
      cases hlow : (railRead r.val mv s).uv with
      | false => rfl
      | true => exact absurd hhigh (Bool.eq_false_iff.mp (railRead_exclusive hlow))
    rw [hhigh, hnotlow]
    refine raised_setCond_of_eq _ _ _ _ _ ((condOf_setCond_kind _ _ _ _ _ _ _ (by decide)).trans hcond) ?_ (setCond_conf ..) ?_
    · exact queues_setCond_off _ _ _ _ _ _ _ (.inl rfl)
    · exact congrArg TimeSt.frame (setCond_time ..)

theorem mv_railSample : (railOf (railSample r.val mv s) r.val).mv = mv := by
  cases h : railMasked s r.val with
  | true => rw [railSample_of_masked h, (rail_conditions _ _ _ _ _ s).1]
  | false =>
    rw [railSample_of_unmasked h, (rail_conditions _ _ _ _ _ s).1]
    rfl

theorem railSample_frame : (∀ j, j ≠ r.val → railOf (railSample r.val mv s) j = railOf s j) ∧ MonOnly s (railSample r.val mv s) := by
  cases h : railMasked s r.val with
  | true =>
    rw [railSample_of_masked h]
    obtain ⟨-, hother, -, -, hframe⟩ := rail_conditions (r := r.val) (fun x => { x with mv, uv := false, ov := false, uvRun := 0, ovRun := 0 })
      false false 0 0 s
    exact ⟨hother, hframe⟩
  | false =>
    rw [railSample_of_unmasked h]
    obtain ⟨-, hother, -, -, hframe⟩ := rail_conditions (r := r.val) (fun _ => railRead r.val mv s) (railRead r.val mv s).uv
      (railRead r.val mv s).ov (r.val * 2 ^ 16 + mv % 65536) (r.val * 2 ^ 16 + mv % 65536) s
    exact ⟨hother, hframe⟩

end

/-! ### Ring oscillators and aging monitors -/

section
variable {s : State} (hup : hubUp s = true)
include hup

theorem roMeasure_effect (k : Fin 16) (fr : Nat) (dev : Int) : ∃ t, exec (.roMeasure k fr dev) s = .next t ∧
      Tbl.get (constD {}) t.mon.ro k.val = { freq := fr, dev } ∧
      (fld (inF s (baseMON + 0x2C0)) 0 8 * 100 < dev.natAbs → Raised qMON 0x614 0xB6 (k.val * 2 ^ 16 + unsig 16 dev) s t) ∧
      (dev.natAbs ≤ fld (inF s (baseMON + 0x2C0)) 0 8 * 100 → t.flt = s.flt) ∧
      { t with mon := s.mon, flt := s.flt, fm := s.fm } = s := by
  have hexec : exec (.roMeasure k fr dev) s = .next (if fld (inF s (baseMON + 0x2C0)) 0 8 * 100 < dev.natAbs
      then raiseFault qMON 0x614 0xB6 (k.val * 2 ^ 16 + unsig 16 dev)
        { s with mon := { s.mon with ro := Tbl.set (constD {}) s.mon.ro k.val { freq := fr, dev } } }
      else { s with mon := { s.mon with ro := Tbl.set (constD {}) s.mon.ro k.val { freq := fr, dev } } }) :=
    congrArg Host.Outcome.next ((if_pos hup).trans (if_congr decide_eq_true_iff rfl rfl))
  rw [hexec]
  refine ⟨_, rfl, ?_⟩
  by_cases h : fld (inF s (baseMON + 0x2C0)) 0 8 * 100 < dev.natAbs
  · rw [if_pos h, raiseFault_mon]
    exact ⟨Tbl.get_set_self .., fun _ => raised_of_eq _ _ _ _ _ _ rfl rfl rfl, fun hle => absurd h (Nat.not_lt.mpr hle),
      (congrArg (fun t : State => { t with mon := s.mon }) (raiseFault_frame qMON 0x614 0xB6 _ { s with mon := _ }) :)⟩
  · rw [if_neg h]
    exact ⟨Tbl.get_set_self .., fun hlt => absurd hlt h, fun _ => rfl, rfl⟩

/-- Aging monitor `k` after a measurement (spec/16 R554). -/
def ageRead (k margin : Nat) (s : State) : AgeSt :=
  let x := Tbl.get (constD {}) s.mon.age k
  { x with
    nowPs := margin
    warn := if margin < fld (inF s (baseMON + 0x320)) 0 16 then true
            else if fld (inF s (baseMON + 0x320)) 0 16 + 5 ≤ margin then false else x.warn
    crit := if margin < fld (inF s (baseMON + 0x320)) 16 16 then true
            else if fld (inF s (baseMON + 0x320)) 16 16 + 5 ≤ margin then false else x.crit }

omit hup in
theorem hysteresis_margin {margin lim : Nat} {x : Bool} :
    (if margin < lim then true else if lim + 5 ≤ margin then false else x) = true ↔ margin < lim ∨ (margin < lim + 5 ∧ x = true) := by
  split_ifs with hbelow hback
  · exact ⟨fun _ => .inl hbelow, fun _ => rfl⟩
  · exact ⟨fun h => absurd h (by decide), fun h => by omega⟩
  · exact ⟨fun h => .inr ⟨by omega, h⟩, fun h => (h.resolve_left hbelow).2⟩

theorem agingMeasure_effect (k : Fin 8) (margin : Nat) : ∃ t, exec (.agingMeasure k margin) s = .next t ∧
      (Tbl.get (constD {}) t.mon.age k.val).nowPs = margin ∧
      ((Tbl.get (constD {}) t.mon.age k.val).warn = true ↔ margin < fld (inF s (baseMON + 0x320)) 0 16 ∨
        (margin < fld (inF s (baseMON + 0x320)) 0 16 + 5 ∧ (Tbl.get (constD {}) s.mon.age k.val).warn = true)) ∧
      ((Tbl.get (constD {}) t.mon.age k.val).crit = true ↔ margin < fld (inF s (baseMON + 0x320)) 16 16 ∨
        (margin < fld (inF s (baseMON + 0x320)) 16 16 + 5 ∧ (Tbl.get (constD {}) s.mon.age k.val).crit = true)) ∧
      condOf t 0x614 0xB7 k.val = (Tbl.get (constD {}) t.mon.age k.val).warn ∧
      condOf t 0x614 0xB8 k.val = (Tbl.get (constD {}) t.mon.age k.val).crit ∧
      { t with mon := s.mon, flt := s.flt, fm := s.fm } = s := by
  have hexec : exec (.agingMeasure k margin) s =
      .next (setCond qMON 0x614 0xB8 k.val (ageRead k.val margin s).crit (k.val * 2 ^ 16 + margin % 65536)
        (setCond qMON 0x614 0xB7 k.val (ageRead k.val margin s).warn (k.val * 2 ^ 16 + margin % 65536)
          { s with mon := { s.mon with age := Tbl.set (constD {}) s.mon.age k.val (ageRead k.val margin s) } })) :=
    congrArg Host.Outcome.next (if_pos hup)
  have hget : Tbl.get (constD {}) (Tbl.set (constD {}) s.mon.age k.val (ageRead k.val margin s)) k.val = ageRead k.val margin s :=
    Tbl.get_set_self ..
  rw [hexec]
  refine ⟨_, rfl, ?_⟩
  rw [setCond_mon, setCond_mon, hget]
  refine ⟨rfl, hysteresis_margin, hysteresis_margin, ?_, condOf_setCond .., ?_⟩
  · rw [condOf_setCond_kind _ _ _ _ _ _ _ (by decide), condOf_setCond]
  · have hmon : MonOnly s { s with mon := { s.mon with age := Tbl.set (constD {}) s.mon.age k.val (ageRead k.val margin s) } } := rfl
    exact hmon.trans ((monOnly_setCond ..).trans (monOnly_setCond ..))

end

/-! ### The odometer -/

/-- The odometer's counts after one more second (spec/16 R555). -/
def lifeTicked (s : State) : MonSt :=
  let m := { s.mon with lifeOn := s.mon.lifeOn + 1 }
  match tempMax s with
  | none => m
  | some (_, r) =>
    { m with lifeEq := m.lifeEq + lifeFactor r, lifeHot := if 1760 < r then m.lifeHot + 1 else m.lifeHot, lifePeak := max m.lifePeak r }

/-- The messages as LIFE_USED crosses 80 % and 100 %. -/
def lifeRaised (before after : Nat) (s : State) : State :=
  let s := if before < 800 ∧ 800 ≤ after then raiseFault qMON 0x614 0xB9 after s else s
  if before < 1000 ∧ 1000 ≤ after then raiseFault qMON 0x614 0xBA after s else s

section
variable {s : State}

theorem lifeTicked_counts (s : State) : (lifeTicked s).lifeOn = s.mon.lifeOn + 1 ∧ (lifeTicked s).lifeSaved = s.mon.lifeSaved ∧
    (lifeTicked s).savedA = s.mon.savedA ∧ (lifeTicked s).savedB = s.mon.savedB := by
  unfold lifeTicked
  dsimp only
  split <;> exact ⟨rfl, rfl, rfl, rfl⟩

theorem odometerTick_eq (s : State) : odometerTick s =
    if (lifeTicked s).lifeSaved + 3600 ≤ (lifeTicked s).lifeOn
    then odometerSave (lifeRaised (lifeUsed s.mon) (lifeUsed (lifeTicked s)) { s with mon := lifeTicked s })
    else lifeRaised (lifeUsed s.mon) (lifeUsed (lifeTicked s)) { s with mon := lifeTicked s } := by
  unfold odometerTick lifeTicked
  cases tempMax s <;> rfl

theorem faultsOnly_lifeRaised (b a : Nat) (s : State) : FaultsOnly s (lifeRaised b a s) := by
  have hif (c : Prop) [Decidable c] (kind : Nat) (t : State) : FaultsOnly t (if c then raiseFault qMON 0x614 kind a t else t) :=
    faultsOnly_ite (faultsOnly_raiseFault ..) (faultsOnly_refl t)
  have h1 := hif (b < 800 ∧ 800 ≤ a) 0xB9 s
  have h2 := hif (b < 1000 ∧ 1000 ≤ a) 0xBA (if b < 800 ∧ 800 ≤ a then raiseFault qMON 0x614 0xB9 a s else s)
  exact (congrArg (fun x : State => { x with flt := s.flt, fm := s.fm }) h2 :).trans h1

theorem lifeRaised_none {b a : Nat} (h80 : b < 800 ↔ a < 800) (h100 : b < 1000 ↔ a < 1000) (s : State) : lifeRaised b a s = s := by
  unfold lifeRaised
  dsimp only
  rw [if_neg (by omega), if_neg (by omega)]

theorem lifeRaised_warn {b a : Nat} (hb : b < 800) (ha : 800 ≤ a) (h100 : a < 1000) (s : State) :
    lifeRaised b a s = raiseFault qMON 0x614 0xB9 a s := by
  unfold lifeRaised
  dsimp only
  rw [if_neg (by omega : ¬ (b < 1000 ∧ 1000 ≤ a)), if_pos ⟨hb, ha⟩]

theorem lifeRaised_end {b a : Nat} (h80 : 800 ≤ b) (hb : b < 1000) (ha : 1000 ≤ a) (s : State) :
    lifeRaised b a s = raiseFault qMON 0x614 0xBA a s := by
  unfold lifeRaised
  dsimp only
  rw [if_pos ⟨hb, ha⟩, if_neg (by omega)]

/-- The counts as they are saved twice in the persistent store. -/
def savedLife (m : MonSt) : MonSt := { m with lifeSaved := m.lifeOn, savedA := some (lifeCopy m), savedB := some (lifeCopy m) }

theorem odometerTick_fields (s : State) :
    (odometerTick s).mon = (if s.mon.lifeSaved + 3600 ≤ s.mon.lifeOn + 1 then savedLife (lifeTicked s) else lifeTicked s) ∧
    (odometerTick s).flt = (lifeRaised (lifeUsed s.mon) (lifeUsed (lifeTicked s)) { s with mon := lifeTicked s }).flt ∧
    MonOnly s (odometerTick s) := by
  have hraised := faultsOnly_lifeRaised (lifeUsed s.mon) (lifeUsed (lifeTicked s)) { s with mon := lifeTicked s }
  have hmon : (lifeRaised (lifeUsed s.mon) (lifeUsed (lifeTicked s)) { s with mon := lifeTicked s }).mon = lifeTicked s := (congrArg State.mon hraised :)
  have hframe : MonOnly s (lifeRaised (lifeUsed s.mon) (lifeUsed (lifeTicked s)) { s with mon := lifeTicked s }) :=
    (congrArg (fun x : State => { x with mon := s.mon }) hraised :)
  obtain ⟨hon, hsaved, -, -⟩ := lifeTicked_counts s
  rw [odometerTick_eq, hon, hsaved]
  generalize lifeRaised (lifeUsed s.mon) (lifeUsed (lifeTicked s)) { s with mon := lifeTicked s } = u at hmon hframe ⊢
  split
  · exact ⟨congrArg savedLife hmon, rfl, hframe⟩
  · exact ⟨hmon, rfl, hframe⟩

theorem raised_of_flt {q unit kind detail : Nat} {t u : State} (hflt : u.flt = t.flt) (h : Raised q unit kind detail s t) :
    Raised q unit kind detail s u :=
  raised_of_queue_eq h (by unfold queueOf; rw [hflt])

/-- What a tick counts by the hottest sensor. -/
theorem lifeTicked_hottest (s : State) :
    (tempMax s = none → (lifeTicked s).lifeEq = s.mon.lifeEq ∧ (lifeTicked s).lifeHot = s.mon.lifeHot ∧ (lifeTicked s).lifePeak = s.mon.lifePeak) ∧
    (∀ k r, tempMax s = some (k, r) → (lifeTicked s).lifeEq = s.mon.lifeEq + lifeFactor r ∧
      (lifeTicked s).lifeHot = (if 1760 < r then s.mon.lifeHot + 1 else s.mon.lifeHot) ∧ (lifeTicked s).lifePeak = max s.mon.lifePeak r) := by
  refine ⟨fun h => ?_, fun k r h => ?_⟩
  · unfold lifeTicked
    rw [h]
    exact ⟨rfl, rfl, rfl⟩
  · unfold lifeTicked
    rw [h]
    exact ⟨rfl, rfl, rfl⟩

/-- LIFE_USED's messages as it crosses 80 % and 100 %. -/
theorem odometerTick_raised (s : State) :
    (lifeUsed s.mon < 800 → 800 ≤ lifeUsed (lifeTicked s) → lifeUsed (lifeTicked s) < 1000 →
      Raised qMON 0x614 0xB9 (lifeUsed (lifeTicked s)) s (odometerTick s)) ∧
    (800 ≤ lifeUsed s.mon → lifeUsed s.mon < 1000 → 1000 ≤ lifeUsed (lifeTicked s) →
      Raised qMON 0x614 0xBA (lifeUsed (lifeTicked s)) s (odometerTick s)) ∧
    ((lifeUsed s.mon < 800 ↔ lifeUsed (lifeTicked s) < 800) → (lifeUsed s.mon < 1000 ↔ lifeUsed (lifeTicked s) < 1000) →
      (odometerTick s).flt = s.flt) := by
  obtain ⟨-, hflt, -⟩ := odometerTick_fields s
  refine ⟨fun hb ha h100 => ?_, fun h80 hb ha => ?_, fun h80 h100 => ?_⟩
  · rw [lifeRaised_warn hb ha h100] at hflt
    exact raised_of_flt hflt (raised_of_eq _ _ _ _ _ _ rfl rfl rfl)
  · rw [lifeRaised_end h80 hb ha] at hflt
    exact raised_of_flt hflt (raised_of_eq _ _ _ _ _ _ rfl rfl rfl)
  · rw [lifeRaised_none h80 h100] at hflt
    exact hflt

theorem odometerTick_effect (h : s.clk.pwrReq = true) : ∃ t, exec .odometerTick s = .next t ∧ t.mon.lifeOn = s.mon.lifeOn + 1 ∧
      (tempMax s = none → t.mon.lifeEq = s.mon.lifeEq ∧ t.mon.lifeHot = s.mon.lifeHot ∧ t.mon.lifePeak = s.mon.lifePeak) ∧
      (∀ k r, tempMax s = some (k, r) → t.mon.lifeEq = s.mon.lifeEq + lifeFactor r ∧
        t.mon.lifeHot = (if 1760 < r then s.mon.lifeHot + 1 else s.mon.lifeHot) ∧ t.mon.lifePeak = max s.mon.lifePeak r) ∧
      (s.mon.lifeSaved + 3600 ≤ s.mon.lifeOn + 1 →
        t.mon.lifeSaved = t.mon.lifeOn ∧ t.mon.savedA = some (lifeCopy t.mon) ∧ t.mon.savedB = some (lifeCopy t.mon)) ∧
      (s.mon.lifeOn + 1 < s.mon.lifeSaved + 3600 → t.mon.lifeSaved = s.mon.lifeSaved ∧ t.mon.savedA = s.mon.savedA ∧ t.mon.savedB = s.mon.savedB) ∧
      (lifeUsed s.mon < 800 → 800 ≤ lifeUsed t.mon → lifeUsed t.mon < 1000 → Raised qMON 0x614 0xB9 (lifeUsed t.mon) s t) ∧
      (800 ≤ lifeUsed s.mon → lifeUsed s.mon < 1000 → 1000 ≤ lifeUsed t.mon → Raised qMON 0x614 0xBA (lifeUsed t.mon) s t) ∧
      ((lifeUsed s.mon < 800 ↔ lifeUsed t.mon < 800) → (lifeUsed s.mon < 1000 ↔ lifeUsed t.mon < 1000) → t.flt = s.flt) ∧
      { t with mon := s.mon, flt := s.flt, fm := s.fm } = s := by
  obtain ⟨hmon, -, hframe⟩ := odometerTick_fields s
  obtain ⟨hcold, hwarm⟩ := lifeTicked_hottest s
  obtain ⟨hwarn, hend, hquiet⟩ := odometerTick_raised s
  obtain ⟨hon, hsaved, hA, hB⟩ := lifeTicked_counts s
  refine ⟨_, congrArg Host.Outcome.next (if_pos h), ?_⟩
  rw [hmon]
  by_cases hdue : s.mon.lifeSaved + 3600 ≤ s.mon.lifeOn + 1
  · rw [if_pos hdue]
    exact ⟨hon, hcold, hwarm, fun _ => ⟨rfl, rfl, rfl⟩, fun hno => absurd hdue (Nat.not_le.mpr hno), hwarn, hend, hquiet, hframe⟩
  · rw [if_neg hdue]
    exact ⟨hon, hcold, hwarm, fun hyes => absurd hyes hdue, fun _ => ⟨hsaved, hA, hB⟩, hwarn, hend, hquiet, hframe⟩

end

/-- Settles O6, by the effect of each monitor's event. -/
theorem healthMonitors : Obligations.HealthMonitors :=
  ⟨fun _ _ _ hup => ⟨tempConversion_of_cool hup, tempConversion_of_failure hup⟩, fun _ _ _ hup => tempConversion_of_trip hup,
   fun _ _ _ hup => ⟨_, congrArg Host.Outcome.next (if_pos hup), mv_railSample, railSample_masked_effect, railSample_unmasked_effect,
     railSample_frame⟩,
   fun k fr dev _ hup => roMeasure_effect hup k fr dev, fun k margin _ hup => agingMeasure_effect hup k margin, fun _ => odometerTick_effect⟩

end Sys2Proof.Proofs
end

section
/-! The debug port (spec/15 R517; spec/18 R598). -/
namespace Sys2Proof.Proofs
open Sys2Proof Sys2Proof.Machine Sys2Proof.Laws

/-! ### Bytes of a number, and the number of bytes -/

theorem leNat_lt (v : List Byte) : leNat v < 256 ^ v.length := by
  induction v with
  | nil => exact Nat.one_pos
  | cons b v ih =>
    have hb : b.toNat < 256 := b.isLt
    simp only [leNat, List.length_cons, pow_succ]
    omega

theorem leBytes_leNat (v : List Byte) : leBytes v.length (leNat v) = v := by
  induction v with
  | nil => rfl
  | cons b v ih =>
    have hb : b.toNat < 256 := b.isLt
    have hdiv : (b.toNat + 256 * leNat v) / 256 = leNat v := by omega
    have hbyte : BitVec.ofNat 8 (b.toNat + 256 * leNat v) = b := BitVec.eq_of_toNat_eq (by
      rw [BitVec.toNat_ofNat]
      omega)
    rw [leNat, List.length_cons, leBytes, hdiv, hbyte, ih]

section
variable {v : List Byte} {off n : Nat} (h : off + n ≤ v.length)
include h

theorem length_take_drop : ((v.drop off).take n).length = n := by
  rw [List.length_take, List.length_drop]
  omega

theorem leBytes_leAt : leBytes n (leAt v off n) = (v.drop off).take n := by
  have hbytes := leBytes_leNat ((v.drop off).take n)
  rwa [length_take_drop h] at hbytes

theorem leAt_lt : leAt v off n < 256 ^ n := by
  have hlt := leNat_lt ((v.drop off).take n)
  rwa [length_take_drop h] at hlt

end

theorem toNat_wordN_of_lt {x : Nat} (h : x < 2 ^ 32) : (wordN x).toNat = x := by
  rw [wordN, BitVec.toNat_ofNat, Nat.mod_eq_of_lt h]

theorem unsig_signed {x : Nat} (h : x < 2 ^ 32) : unsig 32 (signed 32 x) = x := by
  unfold unsig signed
  rw [Nat.mod_eq_of_lt h]
  split <;> omega

/-- A run of bytes cut in two. -/
theorem take_drop_append (v : List Byte) (off n m : Nat) :
    (v.drop off).take n ++ (v.drop (off + n)).take m = (v.drop off).take (n + m) := by
  rw [List.take_add, List.drop_drop]

/-! ### The persistent store -/

theorem storeBytes_setStore_floor (k : Fin 2) {v : List Byte} (s : State) (h : v.length = 8) :
    storeBytes (setStore (.floor k) v s) (.floor k) = v := by
  have hcopy : leBytes 4 (leAt v 0 4) ++ leBytes 4 (wordN (leAt v 4 4)).toNat = v := by
    rw [toNat_wordN_of_lt (leAt_lt (by omega)), leBytes_leAt (by omega), leBytes_leAt (by omega), take_drop_append v 0 4 4, List.drop_zero,
      List.take_of_length_le (by omega)]
  by_cases hk : k = 0 <;> simpa only [storeBytes, setStore, hk, if_true, if_false] using hcopy

theorem storeBytes_setStore_life (k : Fin 2) {v : List Byte} (s : State) (h : v.length = 40) :
    storeBytes (setStore (.life k) v s) (.life k) = v := by
  have hcopy : leBytes 8 (leAt v 0 8) ++ leBytes 16 (leAt v 8 16) ++ leBytes 8 (leAt v 24 8) ++
      leBytes 4 (unsig 32 (signed 32 (leAt v 32 4))) ++ leBytes 4 (wordN (leAt v 36 4)).toNat = v := by
    rw [toNat_wordN_of_lt (leAt_lt (by omega)), unsig_signed (leAt_lt (by omega)), leBytes_leAt (by omega), leBytes_leAt (by omega),
      leBytes_leAt (by omega), leBytes_leAt (by omega), leBytes_leAt (by omega), take_drop_append v 0 8 16, take_drop_append v 0 24 8,
      take_drop_append v 0 32 4, take_drop_append v 0 36 4, List.drop_zero, List.take_of_length_le (by omega)]
  by_cases hk : k = 0 <;> simpa only [storeBytes, setStore, hk, if_true, if_false] using hcopy

theorem storeBytes_setStore_image (k : Fin 3) (v : List Byte) (s : State) : storeBytes (setStore (.image k) v s) (.image k) = v := by
  have himage : (if v.isEmpty then none else some v).getD [] = v := by
    cases v with
    | nil => rfl
    | cons b v => rfl
  fin_cases k <;> exact himage

theorem setStore_frame (x : StoreItem) (v : List Byte) (s : State) :
    { setStore x v s with sec := s.sec, mon := s.mon, slots := s.slots } = s := by
  cases x <;> rfl

theorem floor_setStore (x : StoreItem) (v : List Byte) (s : State) : (setStore x v s).sec.floor = s.sec.floor := by
  cases x with
  | floor k => exact apply_ite SecSt.floor _ _ _ |>.trans (ite_self _)
  | life k => rfl
  | image k => rfl

/-! ### The engines' memories -/

section
variable (e : Nat) (m : SeMem) (k : Nat) (v : BitVec 64) (s : State)

/-- What a memory of an engine keeps of a word that is written to it: a coefficient bank keeps 24 bits with their sign. -/
def seStored (m : SeMem) (v : BitVec 64) : Nat :=
  match m with
  | .program => v.toNat
  | .data => v.toNat % 2 ^ 32
  | _ => (bankStore (v.setWidth 32).toNat).toNat

theorem seWord_setSeWord : seWord (setSeWord e m k v s) e m k = seStored m v := by
  unfold seWord setSeWord seStored
  cases m <;> simp only [seOf_modSe, Tbl.get_set_self, BitVec.toNat_setWidth]

theorem seWord_setSeWord_ne {j n : Nat} {x : SeMem} (h : j ≠ e ∨ x ≠ m ∨ n ≠ k) :
    seWord (setSeWord e m k v s) j x n = seWord s j x n := by
  by_cases hj : j = e
  · subst hj
    by_cases hx : x = m
    · subst hx
      have hn : n ≠ k := by simpa using h
      unfold seWord setSeWord
      cases x <;> simp only [seOf_modSe, Tbl.get_set_ne _ _ _ hn]
    · unfold seWord setSeWord
      cases m <;> cases x <;> simp [seOf_modSe] at hx ⊢
  · unfold seWord setSeWord
    rw [seOf_modSe_ne _ _ _ hj]

end

/-! ### Unlocking the port -/

section
variable {k : Nat} {pub sig : List Byte} {s : State}

/-- An attempt's proof is good: a usable owner slot, its key, and a signature over the challenge. -/
def goodProof (k : Nat) (pub sig : List Byte) (s : State) : Bool :=
  slotUsable s k && sha384 pub == ownerHash s k && ecdsaVerify pub (leBytes 32 s.sec.dbgChal.toNat ++ uidBytes) sig

/-- The state as a good attempt forces the alarm: another challenge, every session closed. -/
def unlocking (s : State) : State :=
  closeSessions (drawChal { s with sec := { s.sec with jtagIr := .svtUnlock } })

def alarmForcing (s : State) : State := alarmEnter { unlocking s with sec := { (unlocking s).sec with alarmForced := true } }

theorem unlock_bad (h : goodProof k pub sig s = false) :
    unlock k pub sig s = drawChal { s with sec := { s.sec with jtagIr := .svtUnlock } } :=
  if_neg (ne_true_of_eq_false h)

theorem unlock_good (h : goodProof k pub sig s = true) : unlock k pub sig s =
    raiseOrHold qSEC 0x615 0xA7 k { alarmForcing s with sec := { (alarmForcing s).sec with dbgUnlocked := true, dbgLocked := false } } :=
  if_pos h

theorem alarmForcing_alarm : (alarmForcing s).flt.alarm = true :=
  alarm_alarmEnter (by simp [alarmDue])

theorem alarmForcing_queues : (alarmForcing s).flt.queues = s.flt.queues := alarmEnter_flt_queues _

/-- What closing leaves of a session: its epoch and the numbers that it has handed out. -/
def closedSession (x : Session) : Session := { epoch := x.epoch, issued := x.issued }

theorem isOpen_mapVals_closed (l : List (Nat × Session)) (i : Nat) :
    (Tbl.get (constD {}) (Tbl.mapVals (constD {}) (fun _ => closedSession) l) i).isOpen = false :=
  Tbl.get_mapVals_of_forall (constD {}) _ (fun x => x.isOpen = false) rfl (fun _ => rfl) l

theorem isOpen_unlocking (i : Nat) : (sessionOf (unlocking s) i).isOpen = false := isOpen_mapVals_closed s.sec.sessions i

theorem raiseOrHold_frame (q u kind detail : Nat) (t : State) : { raiseOrHold q u kind detail t with flt := t.flt, fm := t.fm } = t := by
  unfold raiseOrHold
  split
  · exact raiseFault_frame ..
  · rfl

theorem alarm_raiseOrHold (q u kind detail : Nat) (t : State) : (raiseOrHold q u kind detail t).flt.alarm = t.flt.alarm := by
  unfold raiseOrHold
  split
  · exact raiseFault_flt_alarm ..
  · rfl

theorem svtUnlock_good_effect (h : goodProof k pub sig s = true) :
    ∃ t, exec (.svtUnlock k pub sig) s = .next t ∧ t.sec.dbgUnlocked = true ∧ t.sec.dbgLocked = false ∧ t.sec.alarmForced = true ∧
      t.flt.alarm = true ∧ (∀ i, (sessionOf t i).isOpen = false) ∧ t.freeCtr = s.freeCtr + 1 ∧
      (deviceUp s = true → Raised qSEC 0x615 0xA7 k s t) := by
  have hsec : (alarmForcing s).sec = { (unlocking s).sec with alarmForced := true } := alarmEnter_sec _
  have hfree : (alarmForcing s).freeCtr = s.freeCtr + 1 := alarmEnter_freeCtr _
  have hrst : (alarmForcing s).rst = s.rst := alarmEnter_rst _
  have hconf : (alarmForcing s).conf = s.conf := alarmEnter_conf _
  have htime : (alarmForcing s).time = s.time := alarmEnter_time _
  have halarm := alarmForcing_alarm (s := s)
  have hqueues := alarmForcing_queues (s := s)
  refine ⟨_, congrArg Host.Outcome.next (unlock_good h), ?_⟩
  generalize alarmForcing s = u at hsec hfree hrst hconf htime halarm hqueues ⊢
  have hframe := raiseOrHold_frame qSEC 0x615 0xA7 k { u with sec := { u.sec with dbgUnlocked := true, dbgLocked := false } }
  have hlast := (congrArg State.sec hframe :)
  refine ⟨(congrArg SecSt.dbgUnlocked hlast :), (congrArg SecSt.dbgLocked hlast :), ?_, ?_, fun i => ?_, ?_, fun hup => ?_⟩
  · exact (congrArg SecSt.alarmForced hlast :).trans (congrArg SecSt.alarmForced hsec :)
  · exact (alarm_raiseOrHold ..).trans halarm
  · have hsessions : (raiseOrHold qSEC 0x615 0xA7 k { u with sec := { u.sec with dbgUnlocked := true, dbgLocked := false } }).sec.sessions =
        (unlocking s).sec.sessions := (congrArg SecSt.sessions hlast :).trans (congrArg SecSt.sessions hsec :)
    unfold sessionOf
    rw [hsessions]
    exact isOpen_unlocking i
  · exact (congrArg State.freeCtr hframe :).trans hfree
  · have hup' : deviceUp { u with sec := { u.sec with dbgUnlocked := true, dbgLocked := false } } = true := (deviceUp_congr hrst).trans hup
    rw [raiseOrHold_of_up _ _ _ _ hup']
    exact raised_of_eq _ _ _ _ _ _ hqueues hconf (congrArg TimeSt.frame htime)

end

/-! ### The accesses -/

section
variable {s : State}

theorem exec_jtagDebugAccess_of_locked (a : DebugAccess) (h : s.sec.dbgLocked = true) : exec (.jtagDebugAccess a) s = .next s :=
  congrArg Host.Outcome.next (if_pos h)

theorem exec_jtagDebugAccess_of_open (a : DebugAccess) (h : s.sec.dbgLocked = false) :
    exec (.jtagDebugAccess a) s = .next (debugAccess a s) :=
  congrArg Host.Outcome.next (if_neg (ne_true_of_eq_false h))

variable (h : s.sec.dbgLocked = false)
include h

theorem debugMem_effect (a : Nat) (b : Byte) :
    exec (.jtagDebugAccess (.readMem a)) s = .next { s with outbox := s.outbox ++ [.readData [memByte s a]] } ∧
    exec (.jtagDebugAccess (.readReg a)) s = .next { s with outbox := s.outbox ++ [.readData (leBytes 4 (regRead s a).toNat)] } ∧
    (a < 0x4000000 → ∃ t, exec (.jtagDebugAccess (.writeMem a b)) s = .next t ∧ memByte t a = b ∧ (∀ x, x ≠ a → memByte t x = memByte s x) ∧
      { t with fm := { t.fm with mem := s.fm.mem } } = s) := by
  simp only [exec_jtagDebugAccess_of_open _ h]
  refine ⟨rfl, rfl, fun ha => ⟨_, congrArg Host.Outcome.next (if_pos ha), memByte_setByte _ _ _, fun x hx => memByte_setByte_ne _ _ _ hx, rfl⟩⟩

theorem debugReg_effect (off : Nat) (v : Word) (hup : deviceUp s = true) (hal : off % 4 = 0) (hoff : 0x4000000 ≤ off) :
    exec (.jtagDebugAccess (.writeReg off v)) s = exec (.registerWrite off v 0xF) s := by
  rw [exec_jtagDebugAccess_of_open _ h, exec_registerWrite_whole v hup hal hoff]
  exact congrArg Host.Outcome.next (if_pos hup)

theorem debugSe_effect (e : Fin 8) (m : SeMem) (k : Nat) (v : BitVec 64) :
    exec (.jtagDebugAccess (.readSe e m k)) s =
      .next { s with outbox := s.outbox ++ [.readData (leBytes (if m = .program then 8 else 4) (seWord s e.val m k))] } ∧
    (k < seWords m → ∃ t, exec (.jtagDebugAccess (.writeSe e m k v)) s = .next t ∧ seWord t e.val m k = seStored m v ∧
      (∀ j n x, j ≠ e.val ∨ x ≠ m ∨ n ≠ k → seWord t j x n = seWord s j x n) ∧ { t with se := s.se } = s) ∧
    (seWords m ≤ k → exec (.jtagDebugAccess (.writeSe e m k v)) s = .next s) := by
  simp only [exec_jtagDebugAccess_of_open _ h]
  refine ⟨?_, fun hk => ⟨_, congrArg Host.Outcome.next (if_pos hk), seWord_setSeWord .., fun j n x => seWord_setSeWord_ne e.val m k v s, rfl⟩,
    fun hk => congrArg Host.Outcome.next (if_neg (Nat.not_lt.mpr hk))⟩
  cases m <;> rfl

theorem debugStore_effect (x : StoreItem) (v : List Byte) :
    exec (.jtagDebugAccess (.readStore x)) s = .next { s with outbox := s.outbox ++ [.readData (storeBytes s x)] } ∧
    (∃ t, exec (.jtagDebugAccess (.writeStore x v)) s = .next t ∧ { t with sec := s.sec, mon := s.mon, slots := s.slots } = s ∧
      (∀ k, x = .floor k → v.length = 8 → storeBytes t x = v) ∧
      (∀ k, x = .image k → storeBytes t x = v ∧ t.sec = s.sec ∧ t.mon = s.mon) ∧
      (∀ k, x = .life k → v.length = 40 → storeBytes t x = v ∧ t.sec = s.sec ∧ t.slots = s.slots) ∧ t.sec.floor = s.sec.floor) := by
  simp only [exec_jtagDebugAccess_of_open _ h]
  refine ⟨rfl, setStore x v s, rfl, setStore_frame x v s, ?_, ?_, ?_, floor_setStore x v s⟩
  · rintro k rfl hlen
    exact storeBytes_setStore_floor k s hlen
  · rintro k rfl
    exact ⟨storeBytes_setStore_image k v s, rfl, rfl⟩
  · rintro k rfl hlen
    exact ⟨storeBytes_setStore_life k s hlen, rfl, rfl⟩

end

/-- Settles O43: an attempt at the port by whether its proof is good, an access by what it names. -/
theorem debugPort : Obligations.DebugPort :=
  ⟨⟨fun _ => rfl, fun _ _ _ _ => ⟨svtUnlock_good_effect, fun h => ⟨_, congrArg Host.Outcome.next (unlock_bad h), rfl, rfl, rfl, rfl, rfl⟩⟩,
      fun _ => rfl, fun _ => ⟨_, Config.openNat 5 0, rfl, rfl⟩,
      fun _ _ _ => ⟨fun h => congrArg Host.Outcome.next (if_pos h), fun h => congrArg Host.Outcome.next (if_neg h)⟩⟩,
    ⟨fun a _ h => exec_jtagDebugAccess_of_locked a h, fun a b _ h => debugMem_effect h a b,
      fun off v _ h hup hal hoff => debugReg_effect h off v hup hal hoff, fun e m k v _ h => debugSe_effect h e m k v,
      fun x v _ h => debugStore_effect h x v⟩⟩

end Sys2Proof.Proofs
end

section
/-! What an image that is put in force leaves of bring-up (spec/18 R608, R610): the operations that discard, set to DORMANT, load settings and
lay out regions keep the reset controller's phase and the mark that P6 has loaded, and all but the load itself keep the image in force. One
lemma for each, in the order of the model. `loading.eq_1` computes `loading` of a state written out. -/
namespace Sys2Proof.Proofs
open Sys2Proof Sys2Proof.Machine

/-- What the load of P6 leaves and what it decides: the image in force, the phase of bring-up, the mark that P6 has loaded. -/
def loading : State → Option Image × Nat × Bool
  | { conf, rst, .. } => (conf, rst.phase, rst.loaded)

@[simp] theorem loading_fold (s : State) : (s.conf, s.rst.phase, s.rst.loaded) = loading s := rfl

theorem loading_of_besideSlices {s t : State} (h : besideSlices t = besideSlices s) : loading t = loading s := (congrArg loading h :)

@[simp] theorem loading_ite (c : Prop) [Decidable c] (s t : State) : loading (if c then s else t) = if c then loading s else loading t :=
  apply_ite loading c s t

@[simp] theorem loading_ite_snd {α : Type} (c : Prop) [Decidable c] (r q : α × State) :
    loading (if c then r else q).2 = if c then loading r.2 else loading q.2 :=
  apply_ite (fun r : α × State => loading r.2) c r q

@[simp] theorem loading_doFor {α : Type} {f : α → State → State} (h : ∀ a s, loading (f a s) = loading s) (l : List α) (s : State) :
    loading (doFor l f s) = loading s :=
  doFor_keeps loading f h l s

@[simp] theorem loading_foldl_snd {α β : Type} {f : β × State → α → β × State}
    (h : ∀ r a, loading (f r a).2 = loading r.2) (l : List α) (r : β × State) : loading (l.foldl f r).2 = loading r.2 := by
  induction l generalizing r with
  | nil => rfl
  | cons a l ih => exact (ih (f r a)).trans (h r a)

/-! ### Tables, faults and memory -/

section
variable (s : State)

@[simp] theorem loading_emit (o : Output) : loading (emit o s) = loading s := (rfl)
@[simp] theorem loading_setInF (off : Nat) (v : Word) : loading (setInF off v s) = loading s := (rfl)
@[simp] theorem loading_setShadow (off : Nat) (v : Word) : loading (setShadow off v s) = loading s := (rfl)
@[simp] theorem loading_modUnit (u : Nat) (f : UnitSt → UnitSt) : loading (modUnit u f s) = loading s := (rfl)
@[simp] theorem loading_modXg (g : Nat) (f : XgSt → XgSt) : loading (modXg g f s) = loading s := (rfl)
@[simp] theorem loading_modAx (a : Nat) (f : AxSt → AxSt) : loading (modAx a f s) = loading s := (rfl)
@[simp] theorem loading_modSe (e : Nat) (f : SeSt → SeSt) : loading (modSe e f s) = loading s := (rfl)
@[simp] theorem loading_modTk (c : Nat) (f : TkSt → TkSt) : loading (modTk c f s) = loading s := (rfl)
@[simp] theorem loading_modGl (j : Nat) (f : GlSt → GlSt) : loading (modGl j f s) = loading s := (rfl)
@[simp] theorem loading_modIp (p : Nat) (f : IpSt → IpSt) : loading (modIp p f s) = loading s := (rfl)
@[simp] theorem loading_modEm (e : Nat) (f : EmSt → EmSt) : loading (modEm e f s) = loading s := (rfl)
@[simp] theorem loading_modCmp (k : Nat) (f : CmpSt → CmpSt) : loading (modCmp k f s) = loading s := (rfl)
@[simp] theorem loading_modTg (k : Nat) (f : TgSt → TgSt) : loading (modTg k f s) = loading s := (rfl)
@[simp] theorem loading_modPg (g : Nat) (f : PgSt → PgSt) : loading (modPg g f s) = loading s := (rfl)
@[simp] theorem loading_modSlots (f : SlotSt → SlotSt) : loading (modSlots f s) = loading s := (rfl)
@[simp] theorem loading_ledConsume (k n : Nat) : loading (ledConsume k n s) = loading s := (rfl)
@[simp] theorem loading_clearCond (u kind sub : Nat) : loading (clearCond u kind sub s) = loading s := (rfl)

@[simp] theorem loading_clearConds (u : Nat) : loading (clearConds u s) = loading s := (rfl)

@[simp] theorem loading_ledDrop (k n u : Nat) : loading (ledDrop k n u s) = loading s := loading_of_besideSlices (besideSlices_ledDrop ..)

@[simp] theorem loading_raiseFault (q u kind detail : Nat) : loading (raiseFault q u kind detail s) = loading s :=
  loading_of_besideSlices (besideSlices_raiseFault ..)

@[simp] theorem loading_sendVector (v : Nat) : loading (sendVector v s) = loading s := loading_of_besideSlices (besideSlices_sendVector ..)

@[simp] theorem loading_intSource (k : Nat) : loading (intSource k s) = loading s := by simp [intSource]

@[simp] theorem loading_setBytes (a : Nat) (bs : List Byte) : loading (setBytes a bs s) = loading s := by
  induction bs generalizing a s with
  | nil => rfl
  | cons b bs ih => exact ih (setByte a b s) (a + 1)

@[simp] theorem loading_openTile (t : Nat) : loading (openTile t s) = loading s := (rfl)
@[simp] theorem loading_sealTile (t : Nat) : loading (sealTile t s) = loading s := (rfl)
@[simp] theorem loading_tileFailed (consumer t : Nat) : loading (tileFailed consumer t s) = loading s := by simp [tileFailed, loading.eq_1]
@[simp] theorem loading_checkTile (consumer t : Nat) : loading (checkTile consumer t s).2 = loading s := by simp [checkTile]

/-! ### What waits, records and messages -/

@[simp] theorem loading_toneAbort (g : Nat) : loading (toneAbort g s) = loading s := loading_of_besideSlices (besideSlices_toneAbort s g)
@[simp] theorem loading_toneDrop (g : Nat) : loading (toneDrop g s) = loading s := loading_of_besideSlices (besideSlices_toneDrop s g)

@[simp] theorem loading_setOwner (g : Nat) (own : Bool) : loading (setOwner g own s) = loading s := by simp [setOwner]

@[simp] theorem loading_xgCtrlChange (g n : Nat) (v : Word) : loading (xgCtrlChange g n v s).2 = loading s := by
  simp [xgCtrlChange, toBursts, toContinuous, loopOff]

@[simp] theorem loading_releaseSlot (frame : Nat) : loading (releaseSlot frame s) = loading s := by
  unfold releaseSlot
  split
  · rfl
  · next e _ => exact loading_doFor (fun c t => loading_of_besideSlices (besideSlices_copyDrop t frame c 5)) e.copies s

@[simp] theorem loading_forceAll : loading (forceAll s) = loading s := by simp [forceAll]
@[simp] theorem loading_finishMsg (h : HeldMsg) (frame : Nat) : loading (finishMsg h frame s) = loading s := (rfl)
@[simp] theorem loading_discardMsgs (n : Nat) : loading (discardMsgs n s) = loading s := by simp [discardMsgs, loading.eq_1]

@[simp] theorem loading_discardPages : loading (discardPages s) = loading s := by
  unfold discardPages
  exact loading_doFor (fun u s => (loading_ledConsume _ 0 1).trans (loading_modUnit s u _)) _ s

@[simp] theorem loading_discardPending (n : Nat) : loading (discardPending n s) = loading s := by
  unfold discardPending
  split <;> simp [loading.eq_1]

/-! ### Tines that become DORMANT -/

@[simp] theorem loading_withdraw (c : Nat) : loading (withdraw c s) = loading s := by
  unfold withdraw
  split
  · rfl
  · exact loading_doFor (fun k s => loading_modTg s k _) _ _

@[simp] theorem loading_cmpWritten (c : Nat) (ctrl : Bool) : loading (cmpWritten c ctrl s) = loading s := by simp [cmpWritten]
@[simp] theorem loading_cmpSourceLeft (u : Nat) : loading (cmpSourceLeft u s) = loading s := by simp [cmpSourceLeft]
@[simp] theorem loading_pulseEnd (k : Nat) : loading (pulseEnd k s) = loading s := by simp [pulseEnd]

@[simp] theorem loading_dormantTine (u : Nat) : loading (dormantTine u s) = loading s := by
  unfold dormantTine
  split <;> simp [trackerStop, pgDormant, auxStop, portDormant, emPrepare, emEmpty, trigCut, groupOff, glStop, engineStop]

@[simp] theorem loading_unitEnter_dormant (u : Nat) (quick : Bool) (n : Nat) : loading (unitEnter u .dormant quick n s) = loading s := by
  simp [unitEnter, putState, auxLeave]

@[simp] theorem loading_allDormant (n : Nat) : loading (allDormant n s) = loading s := by simp [allDormant, loading.eq_1]

/-! ### Maps and motion -/

@[simp] theorem loading_sigmapSync (c : Nat) : loading (sigmapSync c s) = loading s := by
  unfold sigmapSync
  split
  · rfl
  · simp only [loading_doFor, loading_setBytes, loading_openTile, loading_sealTile, implies_true]

@[simp] theorem loading_mapRefuse (c n code : Nat) : loading (mapRefuse c n code s) = loading s := by simp [mapRefuse]

@[simp] theorem loading_mapAdopt (c n : Nat) : loading (mapAdopt c n s) = loading s := by
  unfold mapAdopt
  dsimp only
  (repeat' split) <;> simp [loading.eq_1]

@[simp] theorem loading_mapDiscard (c n : Nat) : loading (mapDiscard c n s) = loading s := by simp [mapDiscard]
@[simp] theorem loading_mapErase (c n : Nat) : loading (mapErase c n s) = loading s := by simp [mapErase, loading.eq_1]
@[simp] theorem loading_mapCommand (c n op : Nat) : loading (mapCommand c n op s) = loading s := by simp [mapCommand]
@[simp] theorem loading_mapApply (c n op : Nat) : loading (mapApply c n op s) = loading s := by simp [mapApply, glTrackerEvent]

@[simp] theorem loading_xcalCheck (l : Nat) : loading (xcalCheck l s) = loading s := by
  unfold xcalCheck
  split <;> simp [xcalDone]

@[simp] theorem loading_settleSwap (e half : Nat) : loading (settleSwap e half s) = loading s := by
  unfold settleSwap
  dsimp only
  (repeat' split) <;> simp

@[simp] theorem loading_settleSwaps (e half : Nat) : loading (settleSwaps e half s) = loading s := by simp [settleSwaps]

@[simp] theorem loading_swapBoundary (e n : Nat) (b : Bool) : loading (swapBoundary e n b s).2 = loading s := by
  unfold swapBoundary
  dsimp only
  (repeat' split) <;> simp

@[simp] theorem loading_motApplied (g : Nat) (tgt vt arm soft : Bool) : loading (motApplied g tgt vt arm soft s) = loading s := by
  simp [motApplied, planMotion, raisePg]

end

/-! ### A snapshot refined and applied -/

section
variable (r : List (Nat × Word) × State)

@[simp] theorem loading_snapKeep (q u kind off : Nat) (mask : Word) : loading (snapKeep q u kind off mask r).2 = loading r.2 := by
  simp [snapKeep]

@[simp] theorem loading_snapHold (off : Nat) (mask : Word) : loading (snapHold off mask r).2 = loading r.2 := (rfl)

@[simp] theorem loading_snapKeepAll (q u kind : Nat) (offs : List Nat) : loading (snapKeepAll q u kind offs r).2 = loading r.2 := by
  unfold snapKeepAll
  split <;> simp

@[simp] theorem loading_auxSnapSlice (e : Nat) : loading (auxSnapSlice e r).2 = loading r.2 := by
  unfold auxSnapSlice
  dsimp only
  (repeat' split) <;> simp

@[simp] theorem loading_auxSnapChan (a : Nat) : loading (auxSnapChan a r).2 = loading r.2 := by simp [auxSnapChan]
@[simp] theorem loading_auxSnap : loading (auxSnap r).2 = loading r.2 := by simp [auxSnap]
@[simp] theorem loading_trkSnap : loading (trkSnap r).2 = loading r.2 := by simp [trkSnap]
@[simp] theorem loading_jntSnap : loading (jntSnap r).2 = loading r.2 := by simp [jntSnap]
@[simp] theorem loading_incSnap : loading (incSnap r).2 = loading r.2 := by simp [incSnap]
@[simp] theorem loading_motSnapGen (g : Nat) : loading (motSnapGen g r).2 = loading r.2 := by simp [motSnapGen]
@[simp] theorem loading_motSnap : loading (motSnap r).2 = loading r.2 := by simp [motSnap]
@[simp] theorem loading_xgSnap (n : Nat) : loading (xgSnap n r).2 = loading r.2 := by simp [xgSnap]

end

section
variable (n : Nat) (s : State)

@[simp] theorem loading_refineSnap (snap : List (Nat × Word)) : loading (refineSnap n snap s).2 = loading s := by simp [refineSnap]

@[simp] theorem loading_appliedReg (off : Nat) (old : Word) : loading (appliedReg n off old s) = loading s := by
  simp [appliedReg, auxCtrlApplied, portInvert]

@[simp] theorem loading_applySnap (reqs : List (Nat × Bool)) (writes : List Nat) (snap : List (Nat × Word)) :
    loading (applySnap n reqs writes snap s).2 = loading s := by
  simp [applySnap, putValues]

@[simp] theorem loading_loadSettings : loading (loadSettings n s) = loading s := by simp [loadSettings, loading.eq_1]

/-! ### Regions laid out -/

@[simp] theorem loading_fillTiles (first m : Nat) (bs : List (Nat × List Byte)) : loading (fillTiles first m bs s) = loading s := by
  simp [fillTiles, loading.eq_1]

@[simp] theorem loading_layTiles : loading (layTiles s) = loading s := by simp [layTiles, loading.eq_1]
@[simp] theorem loading_layRings (old : List Region) : loading (layRings old s) = loading s := by simp [layRings, loading.eq_1]

@[simp] theorem loading_fillPaths : loading (fillPaths s) = loading s := by
  unfold fillPaths
  split <;> simp

@[simp] theorem loading_fillCoefs : loading (fillCoefs s) = loading s := by
  unfold fillCoefs
  split <;> simp

@[simp] theorem loading_fillMaps : loading (fillMaps s) = loading s := by
  unfold fillMaps
  split <;> simp

@[simp] theorem loading_layoutRegions : loading (layoutRegions s) = loading s := by simp [layoutRegions]

/-! ### The load -/

@[simp] theorem loading_engineReload (e : Nat) : loading (engineReload e s) = loading s := (rfl)

theorem loading_putInForce (img : Option Image) : loading (putInForce img n s) = (img, (loading s).2) := by
  have hcleared : loading (doFor (List.range 64) toneDrop (forceAll (allDormant n (discardPending n s)))) = loading s := by simp
  unfold putInForce
  generalize doFor (List.range 64) toneDrop (forceAll (allDormant n (discardPending n s))) = t at hcleared ⊢
  simp only [loading_doFor, loading_setOwner, loading_loadSettings, loading_layoutRegions, loading_engineReload, loading_modSe, implies_true]
  exact congrArg (fun x => (img, x.2)) hcleared

@[simp] theorem loading_considerImage (b : List Byte) : loading (considerImage b s).2 = loading s := by
  unfold considerImage
  split <;> simp [slotResult, loading.eq_1]

@[simp] theorem loading_p6Try (b : Option (List Byte)) : loading (p6Try b s).2 = loading s := by
  cases b with
  | none => rfl
  | some b => exact loading_considerImage s b

theorem loading_p6Rollback : loading (p6Rollback s).2 = loading s := by
  have hfloor (t : State) : loading (floorApply t) = loading t := by
    unfold floorApply
    split <;> simp [setFloor, loading.eq_1]
  simp [p6Rollback, hfloor, loading.eq_1]

theorem loading_p6Force (img : Option Image) (source : Nat) : loading (p6Force img source s) = (img, (loading s).2) :=
  loading_putInForce ..

/-- The load leaves the phase, and marks P6 loaded. -/
theorem loaded_p6Load : (loading (p6Load s)).2 = (s.rst.phase, true) := by
  have hloaded : (loading { (p6Rollback s).2 with rst := { (p6Rollback s).2.rst with loaded := true } }).2 = (s.rst.phase, true) :=
    congrArg (fun x => (x.2.1, true)) (loading_p6Rollback s)
  unfold p6Load
  simp only [apply_ite (fun u => (loading u).2), loading_p6Force, loading_raiseFault, loading_modSlots, loading_p6Try, hloaded, ite_self]

end

end Sys2Proof.Proofs
end

section
/-! Bring-up (spec/18 R603, R606 to R610, R614; spec/14 R480; spec/15 R499, R510, R522). -/
namespace Sys2Proof.Proofs
open Sys2Proof Sys2Proof.Machine Sys2Proof.Laws

/-! ### A phase that ends -/

/-- The phase in progress can end: it neither waits nor has stopped, and no source holds it. -/
def PhaseFree (s : State) : Prop := s.rst.wait = false ∧ s.rst.phaseFail = false ∧ phaseHeld s s.rst.phase = false

section
variable (o : PhaseOutcome) (tm : Nat) {s : State}

theorem exec_bringupPhaseDone_of_barred (h : s.rst.wait = true ∨ s.rst.phaseFail = true ∨ phaseHeld s s.rst.phase = true) :
    exec (.bringupPhaseDone o tm) s = .next s := by
  refine congrArg Host.Outcome.next (if_pos ?_)
  rcases h with h | h | h <;> simp [h]

theorem exec_bringupPhaseDone_of_free (h : PhaseFree s) :
    exec (.bringupPhaseDone o tm) s = .next (showPins trigPin s (phaseDone o tm (setNow tm s))) := by
  obtain ⟨hwait, hfail, hheld⟩ := h
  exact congrArg Host.Outcome.next (if_neg (by simp [hwait, hfail, hheld]))

/-- What a phase's end computes, beside what goes out, is what the command leaves. -/
theorem bringupPhaseDone_frame (h : PhaseFree s) {u : State} (hdone : phaseDone o tm (setNow tm s) = u) :
    ∃ t, exec (.bringupPhaseDone o tm) s = .next t ∧ { t with outbox := u.outbox } = u := by
  subst hdone
  exact ⟨_, exec_bringupPhaseDone_of_free o tm h, showPins_frame ..⟩

theorem wait_enterPhase (p : Nat) (s : State) : (enterPhase p s).rst.wait = phaseHeld (enterPhase p s) p := phaseHeld_congr rfl rfl p

/-- A phase is entered: it waits where a source holds it. -/
theorem bringupPhaseDone_enters (h : PhaseFree s) {u : State} {p : Nat} (hdone : phaseDone o tm (setNow tm s) = enterPhase p u) :
    ∃ t, exec (.bringupPhaseDone o tm) s = .next t ∧ t.rst.phase = p ∧ t.rst.wait = phaseHeld t p ∧
      { t with outbox := u.outbox } = enterPhase p u := by
  obtain ⟨t, ht, hframe⟩ := bringupPhaseDone_frame o tm h hdone
  have hrst : t.rst = (enterPhase p u).rst := (congrArg State.rst hframe :)
  refine ⟨t, ht, congrArg RstSt.phase hrst, ?_, hframe⟩
  rw [phaseHeld_congr (congrArg RstSt.sources hrst) (congrArg RstSt.fuseIn hrst), hrst]
  exact wait_enterPhase p u

end

/-! ### P0 to P3 -/

/-- The rails of a mask are masked until its end. -/
theorem maskUntil_maskRails {r n k : Nat} (tm : Nat) (s : State) (hr : r ≤ k) (hk : k < r + n) :
    (railOf (maskRails r n tm s) k).maskUntil = tm := by
  unfold railOf maskRails
  dsimp only
  induction n with
  | zero => omega
  | succ n ih =>
    rw [List.range_succ, List.foldl_append, List.foldl_cons, List.foldl_nil]
    by_cases h : k = r + n
    · subst h
      rw [Tbl.get_set_self]
    · rw [Tbl.get_set_ne _ _ _ h]
      exact ih (by omega)

section
variable (o : PhaseOutcome) (tm : Nat) {s : State} (hfree : PhaseFree s)
include hfree

theorem phase0_done (h : s.rst.phase = 0) : ∃ t, exec (.bringupPhaseDone o tm) s = .next t ∧ t.rst.phase = 1 ∧ t.rst.wait = phaseHeld t 1 ∧
    t.clk.pwrReq = true ∧ t.rst.railsGood = tm ∧ (∀ k, 24 ≤ k → k ≤ 30 → (railOf t k).maskUntil = tm + 5000000) := by
  have hdone : phaseDone o tm (setNow tm s) = enterPhase 1 (maskRails 24 7 (tm + 5000000) (modRst (fun r => { r with railsGood := tm })
      (emit (.pwrReq true) (drawChal { setNow tm s with clk := { s.clk with pwrReq := true } })))) := by
    unfold phaseDone
    rw [show (setNow tm s).rst.phase = 0 from h]
    rfl
  obtain ⟨t, ht, hphase, hwait, hframe⟩ := bringupPhaseDone_enters o tm hfree hdone
  have hmon : t.mon = (maskRails 24 7 (tm + 5000000) s).mon := (congrArg State.mon hframe :)
  refine ⟨t, ht, hphase, hwait, (congrArg (fun x : State => x.clk.pwrReq) hframe :), (congrArg (fun x : State => x.rst.railsGood) hframe :),
    fun k h24 h30 => ?_⟩
  rw [railOf_congr hmon]
  exact maskUntil_maskRails _ _ h24 (by omega)

theorem phase1_done (h : s.rst.phase = 1) : ∃ t, exec (.bringupPhaseDone o tm) s = .next t ∧ t.rst.phase = 2 ∧ t.rst.wait = phaseHeld t 2 ∧
    t.rst.fuseIn = s.rst.fuse ∧ t.rst.pinMapIn = s.rst.pinMap ∧ t.sec.fusesOk = true ∧ t.rst.herdMgr = Config.strapHerdMgr ∧
    t.rst.twinRole = Config.strapTwinRole ∧ (t.sec.dbgLocked = true ↔ s.sec.burned ≠ 0 ∧ s.sec.dbgUnlocked = false) ∧
    t.flt.heldBack = s.flt.heldBack ++ (if o = .options 3 then [(0x611, 0x03, 3)] else []) := by
  have hdone : phaseDone o tm (setNow tm s) = enterPhase 2 (loadOptions { setNow tm s with
      flt := { s.flt with heldBack := s.flt.heldBack ++ (if o = .options 3 then [(0x611, 0x03, 3)] else []) } }) := by
    unfold phaseDone
    rw [show (setNow tm s).rst.phase = 1 from h]
    cases o with
    | ok => simp only [reduceCtorEq, if_false, List.append_nil]; rfl
    | firmwareFailed => simp only [reduceCtorEq, if_false, List.append_nil]; rfl
    | options f =>
      by_cases hf : f = 3
      · subst hf
        rfl
      · simp only [hf, PhaseOutcome.options.injEq, if_false, List.append_nil]
        rfl
  obtain ⟨t, ht, hphase, hwait, hframe⟩ := bringupPhaseDone_enters o tm hfree hdone
  have hrst := (congrArg State.rst hframe :)
  have hsec := (congrArg State.sec hframe :)
  refine ⟨t, ht, hphase, hwait, (congrArg RstSt.fuseIn hrst :), (congrArg RstSt.pinMapIn hrst :), (congrArg SecSt.fusesOk hsec :),
    (congrArg RstSt.herdMgr hrst :), (congrArg RstSt.twinRole hrst :), ?_, (congrArg (fun x : State => x.flt.heldBack) hframe :)⟩
  have hlocked : t.sec.dbgLocked = (s.sec.burned != 0 && !s.sec.dbgUnlocked) := (congrArg SecSt.dbgLocked hsec :)
  rw [hlocked]
  simp

theorem phase2_done (h : s.rst.phase = 2) (ho : o ≠ .firmwareFailed) :
    ∃ t, exec (.bringupPhaseDone o tm) s = .next t ∧ t.rst.phase = 3 ∧ t.rst.wait = phaseHeld t 3 := by
  have hdone : phaseDone o tm (setNow tm s) = enterPhase 3 (setNow tm s) := by
    unfold phaseDone
    rw [show (setNow tm s).rst.phase = 2 from h]
    cases o with
    | firmwareFailed => exact absurd rfl ho
    | ok => rfl
    | options f => rfl
  obtain ⟨t, ht, hphase, hwait, -⟩ := bringupPhaseDone_enters o tm hfree hdone
  exact ⟨t, ht, hphase, hwait⟩

omit hfree in
/-- A failed attempt: counted and held back until P7, and bring-up begins again at P1; the third in a row stops it. -/
theorem attemptFail_effect (p : Nat) : (attemptFail p s).rst.phase = 1 ∧ (attemptFail p s).rst.attempts = min 15 (s.rst.attempts + 1) ∧
    (attemptFail p s).rst.fails = s.rst.fails + 1 ∧ ((attemptFail p s).rst.phaseFail = true ↔ 2 ≤ s.rst.fails) ∧
    (attemptFail p s).flt.heldBack = s.flt.heldBack ++ [(0x611, 0x0C, p + 16 * (attemptFail p s).rst.attempts)] :=
  ⟨rfl, rfl, rfl, decide_eq_true_iff.trans (Nat.add_le_add_iff_right (n := 1)), rfl⟩

theorem phase2_failed (h : s.rst.phase = 2) (ho : o = .firmwareFailed) : ∃ t, exec (.bringupPhaseDone o tm) s = .next t ∧ t.rst.phase = 1 ∧
    t.rst.attempts = min 15 (s.rst.attempts + 1) ∧ t.rst.fails = s.rst.fails + 1 ∧ (t.rst.phaseFail = true ↔ 2 ≤ s.rst.fails) ∧
    t.flt.heldBack = s.flt.heldBack ++ [(0x611, 0x0C, 2 + 16 * t.rst.attempts)] := by
  subst ho
  have hdone : phaseDone .firmwareFailed tm (setNow tm s) = attemptFail 2 (setNow tm s) := by
    unfold phaseDone
    rw [show (setNow tm s).rst.phase = 2 from h]
    rfl
  obtain ⟨t, ht, hframe⟩ := bringupPhaseDone_frame .firmwareFailed tm hfree hdone
  have hrst : t.rst = (attemptFail 2 (setNow tm s)).rst := (congrArg State.rst hframe :)
  have hheld : t.flt.heldBack = (attemptFail 2 (setNow tm s)).flt.heldBack := (congrArg (fun x : State => x.flt.heldBack) hframe :)
  refine ⟨t, ht, ?_⟩
  rw [hrst, hheld]
  exact attemptFail_effect 2

theorem phase3_done (h : s.rst.phase = 3) : ∃ t, exec (.bringupPhaseDone o tm) s = .next t ∧ t.rst.phase = 4 ∧ pllLocked t 1 = true ∧
    pllLocked t 2 = true ∧ pllLocked t 3 = true ∧ t.clk.modAligned = true := by
  have hdone : phaseDone o tm (setNow tm s) = enterPhase 4 { setNow tm s with
      clk := { s.clk with coreLock := true, modLock := true, ioLock := true, refOk := true, modAligned := true, modErr := 0 } } := by
    unfold phaseDone
    rw [show (setNow tm s).rst.phase = 3 from h]
    rfl
  obtain ⟨t, ht, hphase, -, hframe⟩ := bringupPhaseDone_enters o tm hfree hdone
  have hclk := (congrArg State.clk hframe :)
  exact ⟨t, ht, hphase, (congrArg ClkSt.coreLock hclk :), (congrArg ClkSt.modLock hclk :), (congrArg ClkSt.ioLock hclk :),
    (congrArg ClkSt.modAligned hclk :)⟩

end

/-! ### P4: the security core -/

section
variable (s : State)

/-- What is held back once P4 has checked the persistent store: its floor, its image keys and the certificate, where they are invalid. -/
def heldAfterLoad : List (Nat × Nat × Nat) :=
  s.flt.heldBack ++ (if (floorStored s).isNone = true then [(0x615, 0xA9, 1)] else []) ++
    (if (s.sec.imgKeys.any (fun e => match e.2 with | some k => (openImageKey k).isNone | none => false)) = true then [(0x615, 0xA9, 2)] else []) ++
    (if certGood Config.vendorCert identityPub = true then [] else [(0x615, 0xA9, 3)])

/-- The security core with an identity that is there or not, and a floor in force. -/
def coreLoaded (i : Bool) (f : Nat) : State := { s with sec := { s.sec with identityOk := i, floor := f } }

theorem coreLoaded_fields (i : Bool) (f : Nat) : (coreLoaded s i f).sec.identityOk = i ∧ (coreLoaded s i f).sec.floor = f ∧
    (coreLoaded s i f).sec.imgKeys = s.sec.imgKeys ∧ floorStored (coreLoaded s i f) = floorStored s ∧
    (coreLoaded s i f).flt.heldBack = s.flt.heldBack := ⟨rfl, rfl, rfl, rfl, rfl⟩

/-- A kind is held back, or not. -/
theorem holdBack_if {t : State} (c : Prop) [Decidable c] (u kind detail : Nat) (ht : t = if c then holdBack u kind detail s else s) :
    t.sec = s.sec ∧ t.flt.heldBack = s.flt.heldBack ++ (if c then [(u, kind, detail)] else []) := by
  subst ht
  split
  · exact ⟨rfl, rfl⟩
  · exact ⟨rfl, (List.append_nil _).symm⟩

/-- P4 loads the security core: the floor in force is the stored one, and what is invalid is held back. -/
theorem secureLoad_fields : (secureLoad s).sec.identityOk = (identityKey.isSome && !Config.vendorCert.isEmpty) ∧
    (secureLoad s).sec.floor = (floorStored s).getD 0xFFFFFFFF ∧ (secureLoad s).flt.heldBack = heldAfterLoad s := by
  unfold secureLoad
  extract_lets r s1 s2 s3
  obtain ⟨hidentity, hfloor, hkeys, hstored, hheld⟩ : s1.sec.identityOk = _ ∧ s1.sec.floor = _ ∧ s1.sec.imgKeys = s.sec.imgKeys ∧
    floorStored s1 = floorStored s ∧ s1.flt.heldBack = s.flt.heldBack :=
    coreLoaded_fields s (identityKey.isSome && !Config.vendorCert.isEmpty) ((floorStored s).getD 0xFFFFFFFF)
  clear_value s1
  obtain ⟨hsec2, hheld2⟩ := holdBack_if s1 (t := s2) _ 0x615 0xA9 1 rfl
  clear_value s2
  obtain ⟨hsec3, hheld3⟩ := holdBack_if s2 (t := s3) _ 0x615 0xA9 2 rfl
  clear_value s3
  obtain ⟨hsec4, hheld4⟩ := holdBack_if s3 (¬ certGood Config.vendorCert identityPub = true) 0x615 0xA9 3 rfl
  rw [ite_not, ite_not] at hheld4
  rw [ite_not] at hsec4
  rw [hsec2, hkeys] at hheld3
  rw [hstored] at hheld2
  refine ⟨?_, ?_, ?_⟩
  · rw [hsec4, hsec3, hsec2, hidentity]
  · rw [hsec4, hsec3, hsec2, hfloor]
  · rw [hheld4, hheld3, hheld2, hheld, heldAfterLoad] <;> rfl

end

/-- The rails of the slices that are off, masked until each is on. -/
def masked (tm : Nat) (l : List Nat) (s : State) : State := doFor l (fun k => maskRails (3 * k) 3 (tm + 100000 * k + 200000)) s

theorem masked_frame (tm : Nat) (l : List Nat) (s : State) : { masked tm l s with mon := {} } = { s with mon := {} } :=
  doFor_keeps (fun x : State => { x with mon := {} }) (fun k => maskRails (3 * k) 3 (tm + 100000 * k + 200000)) (fun _ _ => rfl) l s

/-- The slices supplied, with the locks `x`, and `y` waiting for their clocks. -/
def slicesOn (x : BitVec 8) (y : BitVec 14) (s : State) : State :=
  { s with biasOff := false, clk := { s.clk with sliceOn := 0xFF, sliceLock := x }, rst := { s.rst with pendingClock := y } }

/-! ### What P7 brings, and a load without an image -/

theorem faultsOnly_heldRaised (l : List (Nat × Nat × Nat)) (s : State) :
    FaultsOnly s (doFor l (fun k => raiseFault qRST k.1 k.2.1 k.2.2) s) := by
  induction l generalizing s with
  | nil => rfl
  | cons k l ih =>
    exact (congrArg (fun x : State => { x with flt := s.flt, fm := s.fm }) (ih (raiseFault qRST k.1 k.2.1 k.2.2 s)) :).trans
      (faultsOnly_raiseFault ..)

/-- P7: frames are numbered from the present time, and what was held back is raised. -/
theorem enterReady_effect (tm : Nat) (s : State) : (enterReady tm s).rst.phase = 7 ∧ (enterReady tm s).rst.boots = satInc 16 s.rst.boots ∧
    (enterReady tm s).rst.fails = 0 ∧ (enterReady tm s).flt.heldBack = [] ∧
    (enterReady tm s).time = { s.time with frame := none, firstFrame := firstOpen tm s, openFrame := firstOpen tm s, slew := 0 } ∧
    (enterReady tm s).conf = s.conf ∧ (enterReady tm s).slots = s.slots := by
  unfold enterReady
  extract_lets ready s1 held flt s2
  have h1 : FaultsOnly ready s1 := faultsOnly_raiseFault ..
  have h2 : FaultsOnly s1 s2 :=
    (congrArg (fun x : State => { x with flt := s1.flt }) (faultsOnly_heldRaised held { s1 with flt := { flt with heldBack := [] } }) :)
  have hheld : s2.flt.heldBack = [] :=
    doFor_keeps (fun x : State => x.flt.heldBack) _ (fun _ u => raiseFault_flt_heldBack _ _ _ _ u) held _
  clear_value s2 s1
  have hfaults : FaultsOnly ready s2 := (congrArg (fun x : State => { x with flt := ready.flt, fm := ready.fm }) h2 :).trans h1
  have hrst : s2.rst = ready.rst := (congrArg State.rst hfaults :)
  have htime : s2.time = s.time := (congrArg State.time hfaults :)
  have hconf : s2.conf = s.conf := (congrArg State.conf hfaults :)
  have hslots : s2.slots = s.slots := (congrArg State.slots hfaults :)
  have hleft : (alarmLeave (numberFrames tm s2)).rst = ready.rst := (alarmLeave_rst _).trans hrst
  refine ⟨congrArg RstSt.phase hleft, congrArg RstSt.boots hleft, congrArg RstSt.fails hleft, (alarmLeave_flt_heldBack _).trans hheld, ?_,
    (alarmLeave_conf _).trans hconf, (alarmLeave_slots _).trans hslots⟩
  rw [alarmLeave_time, numberFrames, firstOpen_congr hconf, htime]

section
variable {s : State}

theorem p6Load_empty (hactive : s.slots.active = none) (hprevious : s.slots.previous = none) (hvelvet : s.slots.velvet = none) :
    (p6Load s).conf = none ∧ (p6Load s).slots.bootSource = 2 := by
  have hrollback : p6Rollback s = (false, s) := if_neg (by simp [hvelvet])
  have hload : p6Load s = p6Force none 2 (raiseFault qSEC 0x610 0x1D 0 { s with rst := { s.rst with loaded := true } }) := by
    unfold p6Load
    rw [hrollback]
    simp [p6Try, hactive, hprevious]
  rw [hload]
  generalize raiseFault qSEC 0x610 0x1D 0 { s with rst := { s.rst with loaded := true } } = u
  have hconf := loading_p6Force u none 2
  have hslots : stores (p6Force none 2 u) = stores (modSlots (fun x => { x with bootSource := 2 }) u) := stores_putInForce ..
  generalize p6Force none 2 u = t at hconf hslots ⊢
  exact ⟨congrArg Prod.fst hconf, congrArg (fun x => x.1.bootSource) hslots⟩

theorem calibrated_of_none (h : s.rst.calib = 0) : calibrated s = s := by
  have hfind : (List.range 8).find? (fun k => s.rst.calib.getLsbD k) = none := by simp [h]
  unfold calibrated
  rw [hfind]

theorem calibrated_of_lowest {k : Nat} (hk : k < 8) (hcalib : s.rst.calib.getLsbD k = true) (hlow : ∀ j, j < k → s.rst.calib.getLsbD j = false) :
    calibrated s = raiseFault qRST 0x611 0x00 (s.rst.causeSrc * 2 ^ 24 + 3 * 2 ^ 20 + k)
      (modRst (fun r => { r with calib := r.calib &&& ~~~bit8 k }) s) := by
  have hfind : (List.range 8).find? (fun k => s.rst.calib.getLsbD k) = some k :=
    List.find?_range_eq_some.mpr ⟨hcalib, List.mem_range.mpr hk, fun j hj => by simp [hlow j hj]⟩
  unfold calibrated
  rw [hfind]

/-- Time that passes moves no pin. -/
theorem showPins_setNow (tm : Nat) (s : State) : showPins trigPin s (setNow tm s) = setNow tm s := by
  have hpins : pinList trigPin (setNow tm s) = pinList trigPin s := rfl
  have hsame (l : List Nat) (pins : List PinLevel) : (l.zip (pins.zip pins)).filter (fun x => x.2.1 != x.2.2) = [] := by
    refine List.filter_eq_nil_iff.mpr fun x hx => ?_
    obtain ⟨a, ha⟩ : ∃ a, x.2 = (a, a) := by
      have hmem := (List.of_mem_zip hx).2
      rw [List.zip_eq_zipWith, List.zipWith_self, List.mem_map] at hmem
      obtain ⟨a, -, ha⟩ := hmem
      exact ⟨a, ha.symm⟩
    simp [ha]
  unfold showPins
  rw [hpins, hsame]

end

section
variable (o : PhaseOutcome) (tm : Nat) {s : State} (hfree : PhaseFree s)
include hfree

theorem phase4_done (h : s.rst.phase = 4) : ∃ t, exec (.bringupPhaseDone o tm) s = .next t ∧ t.rst.phase = 5 ∧
    t.sec.identityOk = (identityKey.isSome && !Config.vendorCert.isEmpty) ∧ t.sec.floor = (floorStored s).getD 0xFFFFFFFF ∧
    t.flt.heldBack = heldAfterLoad s := by
  obtain ⟨x, l, hdone⟩ : ∃ x l, phaseDone o tm (setNow tm s) = enterPhase 5
      { masked tm l (secureLoad (setNow tm s)) with rst := { (masked tm l (secureLoad (setNow tm s))).rst with pendingClock := x } } := by
    unfold phaseDone
    rw [show (setNow tm s).rst.phase = 4 from h]
    exact ⟨_, _, rfl⟩
  obtain ⟨hidentity, hfloor, hheld⟩ := secureLoad_fields (setNow tm s)
  have hmasked := masked_frame tm l (secureLoad (setNow tm s))
  obtain ⟨t, ht, hphase, -, hframe⟩ := bringupPhaseDone_enters o tm hfree hdone
  have hsec : t.sec = (secureLoad (setNow tm s)).sec := (congrArg State.sec hframe :).trans (congrArg State.sec hmasked :)
  have hkept : t.flt.heldBack = (secureLoad (setNow tm s)).flt.heldBack :=
    (congrArg (fun x : State => x.flt.heldBack) hframe :).trans (congrArg (fun x : State => x.flt.heldBack) hmasked :)
  rw [← hsec] at hidentity hfloor
  exact ⟨t, ht, hphase, hidentity, hfloor, hkept.trans hheld⟩

/-! ### P5, the load of P6, and P7 -/

omit hfree in
theorem enumerate_frame (c : Prop) [Decidable c] (u : State) :
    { (if c then enumerate u else u) with hrd := u.hrd, outbox := u.outbox } = u := by
  split
  · rw [enumerate_eq]
  · rfl

theorem phase5_done (h : s.rst.phase = 5) : ∃ t, exec (.bringupPhaseDone o tm) s = .next t ∧ t.rst.phase = 6 ∧ t.clk.sliceOn = 0xFF ∧
    t.rst.loaded = false ∧ (s.rst.herdMgr = true → t.hrd.position = some 0) := by
  obtain ⟨x, y, hdone⟩ : ∃ x y, phaseDone o tm (setNow tm s) = enterPhase 6 (modRst (fun r => { r with loaded := false })
      (if s.rst.herdMgr = true then enumerate (slicesOn x y (setNow tm s)) else slicesOn x y (setNow tm s))) := by
    unfold phaseDone
    rw [show (setNow tm s).rst.phase = 5 from h]
    exact ⟨_, _, rfl⟩
  obtain ⟨t, ht, hphase, -, hframe⟩ := bringupPhaseDone_enters o tm hfree hdone
  have henum := enumerate_frame (s.rst.herdMgr = true) (slicesOn x y (setNow tm s))
  refine ⟨t, ht, hphase, (congrArg (fun u : State => u.clk.sliceOn) hframe :).trans (congrArg (fun u : State => u.clk.sliceOn) henum :),
    (congrArg (fun u : State => u.rst.loaded) hframe :), fun hmgr => ?_⟩
  refine (congrArg (fun u : State => u.hrd.position) hframe :).trans ?_
  rw [if_pos hmgr, enumerate_eq]
  rfl

theorem phase6_loaded (h : s.rst.phase = 6) (hloaded : s.rst.loaded = true) : ∃ t, exec (.bringupPhaseDone o tm) s = .next t ∧ t.rst.phase = 7 ∧
    t.rst.boots = satInc 16 s.rst.boots ∧ t.rst.fails = 0 ∧ t.flt.heldBack = [] ∧ t.time.frame = none ∧ t.time.firstFrame = firstOpen tm s ∧
    t.time.openFrame = firstOpen tm s ∧ t.conf = s.conf := by
  have hdone : phaseDone o tm (setNow tm s) = enterReady tm (setNow tm s) := by
    unfold phaseDone
    rw [show (setNow tm s).rst.phase = 6 from h]
    exact if_pos hloaded
  obtain ⟨t, ht, hframe⟩ := bringupPhaseDone_frame o tm hfree hdone
  have hrst : t.rst = _ := (congrArg State.rst hframe :)
  have htime : t.time = _ := (congrArg State.time hframe :)
  have hheld : t.flt.heldBack = _ := (congrArg (fun u : State => u.flt.heldBack) hframe :)
  have hconf : t.conf = _ := (congrArg State.conf hframe :)
  obtain ⟨hphase, hboots, hfails, hback, hnumbered, hkept, -⟩ := enterReady_effect tm (setNow tm s)
  rw [← hrst] at hphase hboots hfails
  rw [← htime] at hnumbered
  exact ⟨t, ht, hphase, hboots, hfails, hheld.trans hback, (congrArg TimeSt.frame hnumbered :), (congrArg TimeSt.firstFrame hnumbered :),
    (congrArg TimeSt.openFrame hnumbered :), hconf.trans hkept⟩

theorem phase6_empty (h : s.rst.phase = 6) (hloaded : s.rst.loaded = false) (hplaced : s.rst.herdMgr = true ∨ s.hrd.position.isSome = true)
    (hactive : s.slots.active = none) (hprevious : s.slots.previous = none) (hvelvet : s.slots.velvet = none) :
    ∃ t, exec (.bringupPhaseDone o tm) s = .next t ∧ t.rst.phase = 7 ∧ t.conf = none ∧ t.slots.bootSource = 2 := by
  have hdone : phaseDone o tm (setNow tm s) = enterReady tm (p6Load (setNow tm s)) := by
    unfold phaseDone
    rw [show (setNow tm s).rst.phase = 6 from h]
    refine (if_neg (ne_true_of_eq_false hloaded)).trans (if_neg ?_)
    change ¬ (!s.rst.herdMgr && s.hrd.position.isNone) = true
    rcases hplaced with hmgr | hpos
    · simp [hmgr]
    · simp [Option.isSome_iff_ne_none.mp hpos]
  obtain ⟨t, ht, hframe⟩ := bringupPhaseDone_frame o tm hfree hdone
  obtain ⟨hphase, -, -, -, -, hconf, hslots⟩ := enterReady_effect tm (p6Load (setNow tm s))
  obtain ⟨hnone, hsource⟩ := p6Load_empty (s := setNow tm s) hactive hprevious hvelvet
  exact ⟨t, ht, (congrArg (fun u : State => u.rst.phase) hframe :).trans hphase, (congrArg State.conf hframe :).trans (hconf.trans hnone),
    (congrArg (fun u : State => u.slots.bootSource) hframe :).trans ((congrArg SlotSt.bootSource hslots).trans hsource)⟩

theorem phase6_waits (h : s.rst.phase = 6) (hloaded : s.rst.loaded = false) (hmgr : s.rst.herdMgr = false) (hpos : s.hrd.position = none) :
    ∃ t, exec (.bringupPhaseDone o tm) s = .next t ∧ t.hrd.waiting = true ∧ t.rst = s.rst := by
  have hdone : phaseDone o tm (setNow tm s) = modHrd (fun h => { h with waiting := true }) (setNow tm s) := by
    unfold phaseDone
    rw [show (setNow tm s).rst.phase = 6 from h]
    refine (if_neg (ne_true_of_eq_false hloaded)).trans (if_pos ?_)
    change (!s.rst.herdMgr && s.hrd.position.isNone) = true
    simp [hmgr, hpos]
  obtain ⟨t, ht, hframe⟩ := bringupPhaseDone_frame o tm hfree hdone
  exact ⟨t, ht, (congrArg (fun u : State => u.hrd.waiting) hframe :), (congrArg State.rst hframe :)⟩

theorem phase7_idle (h : s.rst.phase = 7) (hcalib : s.rst.calib = 0) :
    ∃ t, exec (.bringupPhaseDone o tm) s = .next t ∧ { t with time := s.time } = s := by
  have hdone : phaseDone o tm (setNow tm s) = setNow tm s := by
    unfold phaseDone
    rw [show (setNow tm s).rst.phase = 7 from h]
    exact calibrated_of_none (s := setNow tm s) hcalib
  rw [exec_bringupPhaseDone_of_free o tm hfree, hdone, showPins_setNow]
  exact ⟨_, rfl, rfl⟩

theorem phase7_calibrated (h : s.rst.phase = 7) {k : Nat} (hk : k < 8) (hcalib : s.rst.calib.getLsbD k = true)
    (hlow : ∀ j, j < k → s.rst.calib.getLsbD j = false) : ∃ t, exec (.bringupPhaseDone o tm) s = .next t ∧
    t.rst.calib = s.rst.calib &&& ~~~bit8 k ∧ Raised qRST 0x611 0x00 (s.rst.causeSrc * 2 ^ 24 + 3 * 2 ^ 20 + k) s t := by
  have hdone : phaseDone o tm (setNow tm s) = raiseFault qRST 0x611 0x00 (s.rst.causeSrc * 2 ^ 24 + 3 * 2 ^ 20 + k)
      (modRst (fun r => { r with calib := r.calib &&& ~~~bit8 k }) (setNow tm s)) := by
    unfold phaseDone
    rw [show (setNow tm s).rst.phase = 7 from h]
    exact calibrated_of_lowest (s := setNow tm s) hk hcalib hlow
  obtain ⟨t, ht, hframe⟩ := bringupPhaseDone_frame o tm hfree hdone
  have hrst : t.rst = _ := (congrArg State.rst hframe :).trans (raiseFault_rst ..)
  exact ⟨t, ht, congrArg RstSt.calib hrst, raised_of_flt (congrArg State.flt hframe :) (raised_of_eq _ _ _ _ s _ rfl rfl rfl)⟩

end

/-! ### A deferred clock, and the wait for a position -/

section
variable {s : State} {p : Fin 15}

theorem clockDeferral_fails (h : s.rst.phase = 3) (h1 : 1 ≤ p.val) (h3 : p.val ≤ 3) : ∃ t, exec (.clockDeferralTimeout p) s = .next t ∧
    t.rst.phase = 1 ∧ t.rst.attempts = min 15 (s.rst.attempts + 1) ∧ (t.rst.phaseFail = true ↔ 2 ≤ s.rst.fails) ∧
    t.flt.heldBack = s.flt.heldBack ++ [(0x611, 0x0C, 3 + 16 * t.rst.attempts)] := by
  obtain ⟨hphase, hattempts, -, hstopped, hheld⟩ := attemptFail_effect (s := s) 3
  exact ⟨_, congrArg Host.Outcome.next ((if_pos h).trans (if_pos ⟨h1, h3⟩)), hphase, hattempts, hstopped, hheld⟩

theorem clockDeferral_raises (h : s.rst.phase ≠ 3) (h1 : 1 ≤ p.val) (hpend : s.rst.pendingClock.getLsbD (p.val - 1) = true) :
    ∃ t, exec (.clockDeferralTimeout p) s = .next t ∧ (deviceUp s = true → Raised qRST 0x611 0x01 p.val s t) ∧
      (deviceUp s = false → t.flt = { s.flt with heldBack := s.flt.heldBack ++ [(0x611, 0x01, p.val)] }) ∧
      { t with flt := s.flt, fm := s.fm } = s := by
  refine ⟨_, congrArg Host.Outcome.next ((if_neg h).trans (if_pos ⟨h1, hpend⟩)), fun hup => ?_, fun hdown => ?_, raiseOrHold_frame ..⟩
  · rw [raiseOrHold_of_up _ _ _ _ hup]
    exact raised_of_eq _ _ _ _ s s rfl rfl rfl
  · rw [raiseOrHold_of_down _ _ _ _ hdown]

theorem clockDeferral_of_running (h : s.rst.phase ≠ 3) (hpend : s.rst.pendingClock.getLsbD (p.val - 1) = false) :
    exec (.clockDeferralTimeout p) s = .next s :=
  congrArg Host.Outcome.next ((if_neg h).trans (if_neg fun hc => absurd hc.2 (ne_true_of_eq_false hpend)))

theorem clockDeferral_of_other (h : p.val = 0 ∨ (s.rst.phase = 3 ∧ 3 < p.val)) : exec (.clockDeferralTimeout p) s = .next s := by
  refine congrArg Host.Outcome.next ?_
  unfold deferralTimeout
  split_ifs with h3 hshared hpend
  · omega
  · rfl
  · omega
  · rfl

theorem herdPositionWait_loads (hhub : hubUp s = true) (h : s.rst.phase = 6) (hwaiting : s.hrd.waiting = true) (hloaded : s.rst.loaded = false) :
    ∃ t, exec .herdPositionWaitExpiry s = .next t ∧ t.rst.loaded = true ∧ t.rst.phase = 6 := by
  have hload := loaded_p6Load s
  exact ⟨_, congrArg Host.Outcome.next ((if_pos hhub).trans (if_pos ⟨h, hwaiting, hloaded⟩)), (congrArg Prod.snd hload :),
    (congrArg Prod.fst hload :).trans h⟩

theorem herdPositionWait_of_none (hhub : hubUp s = true) (h : s.hrd.waiting = false ∨ s.rst.loaded = true ∨ s.rst.phase ≠ 6) :
    exec .herdPositionWaitExpiry s = .next s := by
  refine congrArg Host.Outcome.next ((if_pos hhub).trans (if_neg ?_))
  rintro ⟨hphase, hwaiting, hloaded⟩
  rcases h with h | h | h
  · exact absurd hwaiting (ne_true_of_eq_false h)
  · exact absurd h (ne_true_of_eq_false hloaded)
  · exact h hphase

end

/-- Settles O47: a phase that is free to end leads on by its own lemma; the load of P6 keeps the phase by `loaded_p6Load`. -/
theorem bringUp : Obligations.BringUp := by
  refine ⟨fun o tm s => ⟨exec_bringupPhaseDone_of_barred o tm, fun hwait hfail hheld => ?_⟩,
    fun p s => ⟨clockDeferral_fails, clockDeferral_raises, clockDeferral_of_running, clockDeferral_of_other⟩,
    fun s hhub => ⟨herdPositionWait_loads hhub, herdPositionWait_of_none hhub⟩,
    fun v s => ⟨fun h => congrArg Host.Outcome.next (if_pos h), fun h => congrArg Host.Outcome.next (if_neg (Nat.not_le.mpr h))⟩⟩
  have hfree : PhaseFree s := ⟨hwait, hfail, hheld⟩
  exact ⟨phase0_done o tm hfree, phase1_done o tm hfree, phase2_done o tm hfree, phase2_failed o tm hfree, phase3_done o tm hfree,
    phase4_done o tm hfree, phase5_done o tm hfree, phase6_loaded o tm hfree, phase6_empty o tm hfree, phase6_waits o tm hfree,
    fun h => ⟨phase7_idle o tm hfree h, fun _ => phase7_calibrated o tm hfree h⟩⟩

end Sys2Proof.Proofs
end
